-- ==== Sys2Proof/Word.lean ====
section
/-!
DEFINITION. The words of the device: a register is a 32-bit word (R5), memory is held in bytes, and a field of a
register is a range of bits named by its highest and lowest bit (*Scope and Conventions*, section Figures and
conditions). Signed readings of a word live in Machine/Ops.lean.
-/
namespace Sys2Proof

/-- A 32-bit register word; bit 0 is its least significant bit (R5). -/
abbrev Word := BitVec 32

/-- One byte of a memory. -/
abbrev Byte := BitVec 8

/-- A field of a register: bits `hi` down to `lo`. -/
structure Fld where
  hi : Nat
  lo : Nat
  deriving DecidableEq, Repr

/-- The width of a field in bits. -/
def Fld.width (x : Fld) : Nat := x.hi + 1 - x.lo

end Sys2Proof
end

