-- ==== Sys2Proof/Syntax.lean ====
section
/-!
DEFINITION. The commands of the block: one constructor per row of spec/opcode_table.json, with the operands that the rule
the row names leaves to the outside (who writes, the written word, a measured value, a received packet, the verdict of a
physical or cryptographic check). None of the rows has bits.
-/
namespace Sys2Proof

/-- The initiator of a register access (R47). -/
inductive Initiator where
  | none | twinA | twinB | host | fabric | debug | boot | sheepdog
  deriving DecidableEq, Repr

/-- The initiator's code (R47). -/
def Initiator.code : Initiator → Nat
  | .none => 0 | .twinA => 1 | .twinB => 2 | .host => 3 | .fabric => 4 | .debug => 5 | .boot => 6 | .sheepdog => 7

/-- Who makes an access: the initiator and, for the fabric initiator, the session that carries it (R72). -/
structure Writer where
  ini : Initiator
  ses : Fin 256
  deriving DecidableEq, Repr

/-- A packet of the fabric (R454): the header fields that its words carry, and the words of its payload units, padding
included (LEN is their number divided by 8). -/
structure Packet where
  vc : BitVec 3
  dn : Bool
  cast : BitVec 2
  enc : Bool
  hops : BitVec 6
  dest : BitVec 15
  kind : BitVec 8
  ses : BitVec 8
  src : BitVec 15
  hopLimit : BitVec 6
  pad : BitVec 6
  tag : BitVec 16
  age : BitVec 32
  words : List (BitVec 32)
  deriving DecidableEq, Repr

/-- Where a twin's store goes: a register (offset from 0x4000_0000), SRAM or DRAM (byte offset) (R545). -/
inductive MemSpace where
  | reg | sram | dram
  deriving DecidableEq, Repr

/-- What ECC finds in the words that a section reads as it issues (R213): nothing, a single-bit error, or an uncorrectable error in the
section's record, in a table entry or in a slot. -/
inductive EccError where
  | none | corrected | record | table (entry : Fin 4096) | slot (k : Fin 1024)
  deriving DecidableEq, Repr

/-- What the comparators or the ECC of a twin found (R553, R556): the verdict on the oldest pair not yet compared, the same
with an uncorrectable error in one of its entries, an uncorrectable error in the IFQ, or one in an undo log. -/
inductive DcuFinding where
  | pair | rbUe | ifqUe | undoUe
  deriving DecidableEq, Repr


/-- The commands, in the order of spec/opcode_table.json. -/
inductive Instr where
  /-- POWER_ON_RESET, R103: VAUX power-good after OFF or SURVIVAL resets the main domain and the Sheepdog and gates the working clocks off until the first root lock. -/
  | powerOnReset (mv : BitVec 10)
  /-- VAUX_POWER_GOOD, R581: VAUX holds at or above 17.5 V for 2 ms, so power-good is asserted and the core regulator starts. -/
  | vauxPowerGood (mv : BitVec 10)
  /-- VCORE_POWER_GOOD, R585: VCORE stays within 3 % of TARGET for 50 µs and the main domain leaves reset. -/
  | vcorePowerGood
  /-- EARLY_WARNING, R582: VAUX falls below V_EW; the device enters SAFE with cause SUPPLY_LOSS and starts the power-fail save. -/
  | earlyWarning
  /-- EW_CLEAR, R582: VAUX stays at or above V_EW + 0.5 V for 1 ms and the early warning clears. -/
  | ewClear
  /-- VCORE_UNDER_VOLTAGE, R583: VCORE stays more than 5 % below the reference for 2 µs and is treated as an early warning. -/
  | vcoreUnderVoltage
  /-- VCORE_LOST, R584: VCORE falls below 0.60 V, so the device enters SURVIVAL and the survival domain records the loss cause. -/
  | vcoreLost
  /-- REGULATOR_RESTART, R584: 100 ms after a VCORE loss with VAUX power-good holding, the core regulator restarts and the device boots. -/
  | regulatorRestart (mv : BitVec 10)
  /-- RAIL_MONITOR_FAIL, R656: A VDD09, VDD12, VDD18 or VDDIO_HP monitor fails in a powered state and acts as a VCORE under-voltage warning. -/
  | railMonitorFail
  /-- RAIL_MONITORS_GOOD, R655: The last of the five rail monitors reports good and the core regulator is released. -/
  | railMonitorsGood (mv : BitVec 10)
  /-- RPS_GATE_OFF, R580: Reverse current, a negative input or VAUX_IN above 62 V turns the reverse-polarity MOSFET off within 1 µs. -/
  | rpsGateOff (high : Bool)
  /-- RPS_GATE_ON, R580: VAUX_IN exceeds VAUX by more than 100 mV and the external MOSFET is driven on. -/
  | rpsGateOn
  /-- STORE_ABOVE_T_KEEP, R21: The backup store rises above T_KEEP and the device leaves OFF for SURVIVAL. -/
  | storeAboveTKeep (mv : BitVec 16)
  /-- STORE_BELOW_T_CUT, R21: The filtered backup store falls below T_CUT and the device enters OFF. -/
  | storeBelowTCut (mv : BitVec 16)
  /-- STORE_BELOW_T_ABORT, R607: The filtered VSTORE falls below T_ABORT and a running survival task ends. -/
  | storeBelowTAbort (mv : BitVec 16)
  /-- RESET_N_ASSERT, R35: RESET_N held asserted for at least 1 µs is accepted as a device reset. -/
  | resetNAssert
  /-- RESET_N_RELEASE, R658: Release of RESET_N lets the starting block continue from step 3 of BOOT. -/
  | resetNRelease
  /-- DEVICE_RESET, R41: A device reset from SYS.RST_CTL.DEVICE, RESET_N or a fabric session resets the main domain except the Sheepdog and enters BOOT. -/
  | deviceReset (w : Writer) (key : BitVec 16)
  /-- TWIN_RESTART, R639: SYS.RST_CTL.TWIN_A or TWIN_B requests a cold restart of one twin, which starts staging an image. -/
  | twinRestart (w : Writer) (key : BitVec 16) (t : Bool)
  /-- STATE_REQ_RUN, R22: SYS.STATE_REQ RUN moves READY to RUN only if the Sheepdog grants the run permit. -/
  | stateReqRun (w : Writer) (key : BitVec 16) (late : Bool)
  /-- STATE_REQ_STOP, R24: SYS.STATE_REQ STOP disables each PWM channel at its next reload and leads to READY. -/
  | stateReqStop (w : Writer) (key : BitVec 16) (late : Bool)
  /-- STATE_REQ_RECOVER, R501: SYS.STATE_REQ RECOVER leaves SAFE for READY when every cause seen is clear and recoverable. -/
  | stateReqRecover (w : Writer) (key : BitVec 16) (late : Bool)
  /-- STATE_REQ_ENTER_REPLAY, R570: SYS.STATE_REQ ENTER_REPLAY enters REPLAY from READY with supplies removed and the Lap log frozen or imported. -/
  | stateReqEnterReplay (w : Writer) (key : BitVec 16) (late : Bool)
  /-- STATE_REQ_SAFE, R42: SYS.STATE_REQ SAFE enters SAFE with cause FIRMWARE_REQUEST or HOST_REQUEST. -/
  | stateReqSafe (w : Writer) (key : BitVec 16)
  /-- SAFE_FRAME_INJECT, R517: Within 5 µs of the latch the Sheepdog injects an extra SAFE pair for every enabled connection on both planes. -/
  | safeFrameInject
  /-- GRACE_EXPIRY, R523: The grace timer expires and the Sheepdog meets cause GRACE_EXPIRED. -/
  | graceExpiry
  /-- REGISTER_WRITE, R6: A write to a register without a row of its own is applied, ignored, staged or recorded in PG_ERR under the access codes and checks. -/
  | registerWrite (w : Writer) (size : BitVec 2) (a v : BitVec 32)
  /-- LOW_WORD_READ, R52: A read of the low word of a 64-bit register loads the initiator's high-word latch. -/
  | lowWordRead (w : Writer) (a : BitVec 32) (stamp : BitVec 64)
  /-- PAGE_SOFT_RESET, R56: PG_CTL.SOFT_RST returns the page's registers to reset values apart from PG_ERR, PG_LOCK and page-specific exceptions. -/
  | pageSoftReset (w : Writer) (pg : Fin 576)
  /-- PAGE_FREEZE, R57: PG_CTL.FREEZE halts the block's clock enable, accepted only in READY, SAFE and REPLAY. -/
  | pageFreeze (w : Writer) (pg : Fin 576)
  /-- PAGE_SNAP, R54: PG_CTL.SNAP copies every snapshot-covered register of the page into its copy in one CK_PER cycle. -/
  | pageSnap (w : Writer) (pg : Fin 576)
  /-- EVENT_SET, R55: A write of 1 to a PG_EVT_SET bit creates an occurrence of that page event. -/
  | eventSet (w : Writer) (pg : Fin 576) (bits : BitVec 32)
  /-- CRC_RECOMPUTE_DONE, R60: PG_CRC takes the new value and CRC_BUSY clears after a change to a covered field. -/
  | crcRecomputeDone (pg : Fin 576)
  /-- HOST_WRITE, R635: A host write on the parallel port enters the posted queue, with HP_WAIT while the queue is full. -/
  | hostWrite (a : BitVec 22) (v : BitVec 32)
  /-- POSTED_WRITE_DELIVER, R51: A host write leaves the posted queue and is delivered to its register. -/
  | postedWriteDeliver
  /-- QSPI_READ, R636: QSPI target command 0x0B reads consecutive register words until HP_CS_N rises. -/
  | qspiRead (a : BitVec 22) (n : BitVec 16)
  /-- QSPI_WRITE, R636: QSPI target command 0x02 posts each word with an incrementing address. -/
  | qspiWrite (a : BitVec 22) (ws : List (BitVec 32))
  /-- QSPI_STATUS, R636: QSPI target command 0x05 returns the posted-queue empty and full bits. -/
  | qspiStatus
  /-- HOST_MEM_READ, R638: HPT.MEM_CMD READ copies memory words into MBUF when allowed. -/
  | hostMemRead (w : Writer) (key : BitVec 16) (count : BitVec 4)
  /-- HOST_MEM_WRITE, R638: HPT.MEM_CMD WRITE copies MBUF words into memory when allowed. -/
  | hostMemWrite (w : Writer) (key : BitVec 16) (count : BitVec 4)
  /-- MEM_COPY_DONE, R638: A host memory copy completes and MEM_STAT.DONE is set. -/
  | memCopyDone
  /-- EVENT_OCCURRENCE, R61: A page event occurs, sets its PG_EVT bit and becomes pending or asserted at its EVR destinations. -/
  | eventOccurrence (pg : Fin 576) (bit : Fin 32)
  /-- EVENT_DELIVERY, R64: An occurrence reaches a twin, a Stride trigger or the Sheepdog event input and EVR.TOP is updated. -/
  | eventDelivery (stamp : BitVec 64)
  /-- EVT_NOTIFY_SEND, R64: An occurrence of a source with FAB = 1 injects one EVT_NOTIFY on its session and plane. -/
  | evtNotifySend
  /-- EVENT_ACK, R62: A write of a source number to EVR.ACK_A or ACK_B retires a pending pulse source. -/
  | eventAck (w : Writer) (twin : Bool) (src : BitVec 8)
  /-- TXN_BEGIN, R679: TXN.CMD BEGIN opens a local transaction context in the writer's bank. -/
  | txnBegin (w : Writer) (key : BitVec 16)
  /-- TXN_BEGIN_HERD, R679: TXN.CMD BEGIN_HERD opens a herd context with the tag in HTAG. -/
  | txnBeginHerd (w : Writer) (key : BitVec 16)
  /-- TXN_BEGIN_COORD, R679: TXN.CMD BEGIN_COORD opens a coordinator context. -/
  | txnBeginCoord (w : Writer) (key : BitVec 16)
  /-- TXN_COMMIT, R81: TXN.CMD COMMIT arms the context in mode NOW, AT_EVENT or AT_HT or is refused. -/
  | txnCommit (w : Writer) (key : BitVec 16) (mode : BitVec 2)
  /-- TXN_ROLLBACK, R83: TXN.CMD ROLLBACK discards the context's entries and frees it unless its commit edge is fixed. -/
  | txnRollback (w : Writer) (key : BitVec 16)
  /-- TXN_H_PREPARE, R88: TXN.CMD H_PREPARE sends PREPARE from the coordinator to HDEST. -/
  | txnHPrepare (w : Writer) (key : BitVec 16)
  /-- TXN_H_COMMIT, R90: TXN.CMD H_COMMIT sends COMMIT_AT to the participants. -/
  | txnHCommit (w : Writer) (key : BitVec 16)
  /-- TXN_H_ABORT, R93: TXN.CMD H_ABORT sends ABORT to the participants. -/
  | txnHAbort (w : Writer) (key : BitVec 16)
  /-- TXN_H_RESOLVE, R92: TXN.CMD H_RESOLVE sends RESOLVE with T2 or ABORT to HDEST. -/
  | txnHResolve (w : Writer) (key : BitVec 16)
  /-- TXN_ABORT, R87: TXN.ABORT with the key rolls back the named context in any state except FREE. -/
  | txnAbort (w : Writer) (key : BitVec 16) (n : Fin 16)
  /-- STAGING_WRITE, R70: An RWT write in an open context is staged as a whole word, or dooms the transaction on conflict, pool or lock. -/
  | stagingWrite (w : Writer) (a v : BitVec 32)
  /-- COMMIT_EDGE, R77: At the commit edge every staged register takes its value and ownership is released. -/
  | commitEdge (m : BitVec 16)
  /-- AT_EVENT_TIMEOUT, R82: TIMEOUT_US elapses without the event and the armed transaction rolls back with TIMEOUT. -/
  | atEventTimeout (n : Fin 16)
  /-- PREPARE_RX, R88: A participant receives PREPARE, checks its context and votes YES or NO. -/
  | prepareRx (p : Packet)
  /-- VOTE_RX, R94: The coordinator tallies a VOTE and, with AUTO, sends COMMIT_AT or ABORT. -/
  | voteRx (p : Packet)
  /-- COMMIT_AT_RX, R90: A participant receives COMMIT_AT in time and arms its commit at T. -/
  | commitAtRx (p : Packet)
  /-- ABORT_RX, R93: An ABORT arriving before T − guard rolls a PREPARED context back. -/
  | abortRx (p : Packet)
  /-- RESOLVE_RX, R92: An IN_DOUBT participant commits at T2 or rolls back on RESOLVE. -/
  | resolveRx (p : Packet)
  /-- GUARD_EXPIRY, R91: A participant without COMMIT_AT or ABORT at the end of the guard cycle enters IN_DOUBT. -/
  | guardExpiry (n : Fin 16)
  /-- IN_DOUBT_TIMEOUT, R92: The in-doubt timeout counted from T expires and the context rolls back with MISSED. -/
  | inDoubtTimeout (n : Fin 16)
  /-- AUTO_ABORT_DEADLINE, R94: At T − 2 × guard with the tally short, an AUTO coordinator sends ABORT. -/
  | autoAbortDeadline (n : Fin 16)
  /-- HOP_CMD, R111: CLK.HOP_CMD starts a hop to the named slot, abandoning any hop in progress. -/
  | hopCmd (w : Writer) (key : BitVec 16) (slot : Fin 8)
  /-- COLD_LOCK, R100: The root synthesizer completes its band search and locks from cold. -/
  | coldLock (band phaseErr : BitVec 12)
  /-- FREQ_ACQUIRED, R106: A hop acquires frequency on the new reference. -/
  | freqAcquired (phaseErr : BitVec 12)
  /-- ROOT_LOCK, R108: The phase error falls within ±20 ps, lock is declared and HOP_DONE raised. -/
  | rootLock (band : BitVec 12) (finalErr : BitVec 12)
  /-- REF_LOSS, R112: No reference edge for four periods or a frequency outside ±200 ppm puts the root in holdover and may hop automatically. -/
  | refLoss
  /-- CLOCK_MONITOR_FAIL, R114: The divided root differs from the Sheepdog oscillator by over 2 % for two microseconds, meeting cause CLOCK_LOSS. -/
  | clockMonitorFail
  /-- CLOCK_OUTPUT_UPDATE, R117: A write to OUT_DIV or OUT_SSC takes effect at the end of the modulation period or the next output edge. -/
  | clockOutputUpdate (n : Fin 4)
  /-- HTM_ADJ, R126: A write to HTM.ADJ replaces the remaining adjustment to be amortised. -/
  | htmAdj (w : Writer) (adj : BitVec 32)
  /-- HTM_STEP, R129: HTM.STEP_CMD GO is accepted or refused with STEP_REFUSED. -/
  | htmStep (w : Writer) (key : BitVec 16) (go : Bool)
  /-- STEP_APPLY, R129: An accepted herd-time step is applied at one CK_PER edge and VALID clears. -/
  | stepApply
  /-- PPS_IN_EDGE, R125: A PPS_IN edge is timestamped, used for discipline or captured, or rejected with PPS_BAD. -/
  | ppsInEdge (falling : Bool)
  /-- PPS_OUT_PULSE, R130: At each whole herd-time second plus offset PPS_OUT goes active for WIDTH_US. -/
  | ppsOutPulse
  /-- TIME_SYNC_RX, R482: A TIME_SYNC updates the offset, HTM.ADJ and HTM.RATE. -/
  | timeSyncRx (n : Fin 8) (p : Packet)
  /-- DISCIPLINE_HOLDOVER, R128: Three missed discipline updates put herd time in holdover. -/
  | disciplineHoldover
  /-- CALENDAR_SECOND, R139: The calendar reaches a new second, driving alarms, sampled tasks and store compares. -/
  | calendarSecond (mv : BitVec 16) (temp : BitVec 8)
  /-- RTC_SET, R138: RTC.CMD SET is refused under discipline or starts loading SET_LO and SET_HI. -/
  | rtcSet (w : Writer) (key : BitVec 16)
  /-- RTC_SET_APPLY, R138: The SET value is loaded at the first tick after crossing into the survival domain. -/
  | rtcSetApply
  /-- RTC_CAL_RC, R136: RTC.CMD CAL_RC starts a 2 s measurement of the RC oscillator. -/
  | rtcCalRc (w : Writer) (key : BitVec 16)
  /-- RC_CAL_DONE, R136: The RC calibration ends and writes RTC.TRIM.RC. -/
  | rcCalDone (trim : BitVec 10)
  /-- TCOMP_WINDOW, R134: Every 64 s the survival temperature is measured and ticks are added or removed. -/
  | tcompWindow (temp : BitVec 8)
  /-- XTAL_FAIL, R135: Crystal failure switches the calendar to RC and raises XTAL_FAIL. -/
  | xtalFail
  /-- RTC_DISC_LOAD, R137: At a whole herd-time second the calendar is loaded from herd time when it differs by a tick. -/
  | rtcDiscLoad
  /-- AGING_UPDATE, R137: Every 1,024 s the calendar updates RTC.TRIM.AGING against herd time. -/
  | agingUpdate
  /-- AFE_CAL, R164: AFE.CMD CAL_0 or CAL_1 starts calibration of the six modulators of a half. -/
  | afeCal (w : Writer) (key : BitVec 16) (half : Fin 2)
  /-- MOD_CAL_DONE, R164: A modulator's calibration ends and writes its offset and gains and CAL_VALID. -/
  | modCalDone (m : Fin 12) (ofs : BitVec 24) (g0 : BitVec 24) (g1 : BitVec 24) (g2 : BitVec 24) (g3 : BitVec 24) (g4 : BitVec 24)
  /-- AFE_ROTATE, R166: AFE.CMD ROTATE starts moving a logical channel onto a calibrated spare. -/
  | afeRotate (w : Writer) (key : BitVec 16) (lch : BitVec 4) (spare : BitVec 4)
  /-- AFE_RESULT, R153: A decimator completes a result, which updates RES_n, sends a frame and advances the entry. -/
  | afeResult (n : Fin 10) (raw : BitVec 24) (partner : BitVec 24) (overload : Bool) (sameCycle : Bool)
  /-- SETTLE_EXPIRY, R156: The settling wait of a new entry ends and its decimator is released at the next period boundary. -/
  | settleExpiry (n : Fin 10)
  /-- SEQ_GROUP_ENABLE, R160: Setting SEQ.CTL.EN_g restarts the group count and starts each channel at its lowest valid entry. -/
  | seqGroupEnable (w : Writer) (g : Fin 2)
  /-- SEQ_GROUP_DISABLE, R160: Clearing SEQ.CTL.EN_g stops the group and discards results in progress. -/
  | seqGroupDisable (w : Writer) (g : Fin 2)
  /-- SAMPLE_FRAME_DELIVERY, R13: A sample-bus frame reaches its signal slot and the Lap log tap. -/
  | sampleFrameDelivery
  /-- XMD_CONTROL_OUTPUT, R174: A control filter completes an output, updates its result and sends a frame. -/
  | xmdControlOutput (ch : Fin 24) (wave : List Bool) (sameCycle : Bool)
  /-- PROTECTION_FILTER_CHANGE, R177: A protection filter asserts or deasserts HI or LO after PERSIST bits. -/
  | protectionFilterChange (ch : Fin 24) (wave : List Bool)
  /-- XMD_LOS, R180: A channel declares loss of signal and marks its outputs STALE. -/
  | xmdLos (ch : Fin 24)
  /-- XMD_LOS_CLEAR, R181: 3 × OSR_C good bits clear LOS. -/
  | xmdLosClear (ch : Fin 24) (before : BitVec 9)
  /-- MANCHESTER_LOCK, R171: The Manchester decoder declares lock after 16 valid bits. -/
  | manchesterLock (ch : Fin 24)
  /-- ACMP_CHANGE, R182: A comparator enters or leaves ABOVE or BELOW and its tripped output changes. -/
  | acmpChange (n : Fin 16) (uv : BitVec 24) (starting : Bool)
  /-- BLANK_WINDOW_END, R186: A blanking window ends and a persisting change is taken. -/
  | blankWindowEnd (trip : Bool) (n : Fin 16)
  /-- ACMP_SAMPLE_COMPARE, R187: At the end of the power-up a sampled comparator compares once and may request a wake. -/
  | acmpSampleCompare (n : Fin 16) (uv : BitVec 24)
  /-- ACMP_SELFTEST, R189: ACMP.CMD SELFTEST starts testing the marked comparators. -/
  | acmpSelftest (w : Writer) (key : BitVec 16) (mask : BitVec 16)
  /-- ACMP_SELFTEST_STEP, R189: One comparator's 3 µs test ends with ST_PASS or ST_FAIL. -/
  | acmpSelftestStep (pass : Bool)
  /-- STR_SWTRIG, R215: A write to STR.SWTRIG completes a trigger of each named group. -/
  | strSwtrig (w : Writer) (trig : BitVec 8)
  /-- RG_TRIGGER, R215: A rate group's trigger completes by frames, event or divider. -/
  | rgTrigger (g : Fin 8)
  /-- TRIG_WINDOW_END, R216: A FRAMES window ends incomplete, completing the trigger with TRIG_WIN. -/
  | trigWindowEnd (g : Fin 8)
  /-- RG_DISPATCH, R217: Dispatch samples pending writes, ticks Pacer channels and phase generators and takes the snapshot. -/
  | rgDispatch (g : Fin 8) (ecc : EccError)
  /-- SECTION_ISSUE, R218: A section issues to the lowest free lane once its inputs are written. -/
  | sectionIssue (n : Fin 512) (ecc : EccError)
  /-- SECTION_RESULT, R226: A section writes its result slots and states after its latency. -/
  | sectionResult (n : Fin 512) (fault : BitVec 2)
  /-- OUTPUT_PORT_WRITE, R227: An output port converts its slot word and writes a PWM compare or period register with stamp. -/
  | outputPortWrite (port : Fin 48) (lat : BitVec 16)
  /-- RG_COMPLETE, R217: A group's evaluation completes, updating counts and triggering dependants. -/
  | rgComplete (g : Fin 8) (cycles : BitVec 16) (ecc : EccError)
  /-- STR_CLR_STATS, R243: STR.CMD CLR_STATS clears RGn_OVR and RGn_LAT.MAX. -/
  | strClrStats (w : Writer) (key : BitVec 16)
  /-- SLOT_WINDOW_WRITE, R199: A write to the slot window stores the word in a firmware-owned slot or is recorded. -/
  | slotWindowWrite (w : Writer) (slot : Fin 1024) (v : BitVec 32)
  /-- BUDGET_RECOMPUTE, R233: The group budgets are recomputed and OVER_BUDGET set or cleared. -/
  | budgetRecompute
  /-- GRAPH_CRC_RECOMPUTE, R243: STR.GCRC or TCRC is recomputed after a change. -/
  | graphCrcRecompute
  /-- PACER_HOLD, R239: PCR.CMD HOLD brings a channel to rest and keeps p. -/
  | pacerHold (w : Writer) (key : BitVec 16) (ch : Fin 16)
  /-- PACER_RELEASE, R239: PCR.CMD RELEASE resumes the profile toward the target. -/
  | pacerRelease (w : Writer) (key : BitVec 16) (ch : Fin 16)
  /-- PACER_EMERGENCY, R240: PCR.CMD EMERGENCY puts a channel in emergency ramp to ETGT. -/
  | pacerEmergency (w : Writer) (key : BitVec 16) (ch : Fin 16)
  /-- PACER_CLEAR_EMERGENCY, R240: PCR.CMD CLEAR_EMERGENCY resumes a channel at ETGT toward its target. -/
  | pacerClearEmergency (w : Writer) (key : BitVec 16) (ch : Fin 16)
  /-- PACER_PRESET, R241: PCR.CMD PRESET sets p to the target with v and a zero. -/
  | pacerPreset (w : Writer) (key : BitVec 16) (ch : Fin 16)
  /-- BPT_CHANNEL_ENABLE, R256: Setting a channel's EN restarts it from START. -/
  | bptChannelEnable (w : Writer) (ch : Fin 4)
  /-- BPT_CHANNEL_DISABLE, R256: Clearing EN ends the window, releases OUT and marks it STALE. -/
  | bptChannelDisable (w : Writer) (ch : Fin 4)
  /-- BPT_HOLD, R257: BPT.CMD HOLD stops decisions. -/
  | bptHold (w : Writer) (key : BitVec 16) (ch : Fin 4)
  /-- BPT_RELEASE, R257: BPT.CMD RELEASE resumes decisions with first set. -/
  | bptRelease (w : Writer) (key : BitVec 16) (ch : Fin 4)
  /-- BPT_RESTART, R257: BPT.CMD RESTART restarts the channel keeping its claim. -/
  | bptRestart (w : Writer) (key : BitVec 16) (ch : Fin 4)
  /-- HRD_HOLD_TIMER_EXPIRY, R274: The freeze or block timer of HRD ends. -/
  | hrdHoldTimerExpiry (block : Bool)
  /-- HRD_CLEAR_TRIP, R277: HRD.CMD CLEAR_TRIP returns HRD from TRIPPED to NORMAL. -/
  | hrdClearTrip (w : Writer) (key : BitVec 16)
  /-- HRD_CLEAR_STATS, R299: HRD.CMD CLEAR_STATS clears EVENTS, STALE_EVALS and LAST. -/
  | hrdClearStats (w : Writer) (key : BitVec 16)
  /-- ISL_ENTRY_HIT, R284: A table entry's timer reaches TIME_MS and its action applies. -/
  | islEntryHit (vt : Bool) (k : Fin 8)
  /-- ISL_CLEAR, R287: ISL.CMD CLEAR ends latched ISL actions. -/
  | islClear (w : Writer) (key : BitVec 16)
  /-- RTS_TIMER, R288: The return-to-service count reaches TIME_S and RTS_OK is set. -/
  | rtsTimer
  /-- IMP_WINDOW_DONE, R292: IMP completes a window's impedance results and updates its island count. -/
  | impWindowDone
  /-- IMP_START, R303: IMP.CMD START begins injection. -/
  | impStart (w : Writer) (key : BitVec 16)
  /-- IMP_STOP, R303: IMP.CMD STOP ends injection, discarding results. -/
  | impStop (w : Writer) (key : BitVec 16)
  /-- IMP_REQUEST, R296: IMP.CMD REQUEST sends PROBE_REQ for one window. -/
  | impRequest (w : Writer) (key : BitVec 16)
  /-- IMP_CLEAR_ISLAND, R294: IMP.CMD CLEAR_ISLAND deasserts the island signal. -/
  | impClearIsland (w : Writer) (key : BitVec 16)
  /-- PROBE_REQ_RX, R296: The bellwether queues a probe request of a paddock. -/
  | probeReqRx (p : Packet)
  /-- PROBE_GRANT_ISSUE, R296: The bellwether grants injection time at a window boundary of the watch member. -/
  | probeGrantIssue (p : Fin 256) (start : BitVec 64) (len : BitVec 64)
  /-- PROBE_GRANT_RX, R297: A member stores a grant or discards it as late. -/
  | probeGrantRx (p : Packet)
  /-- PROBE_END_RX, R459: The bellwether learns a member ended its probe. -/
  | probeEndRx (p : Packet)
  /-- GRANT_START, R297: The first trigger at or after a grant start begins injection. -/
  | grantStart
  /-- GRANT_END, R297: At the grant end the member writes zero to OUT. -/
  | grantEnd
  /-- TIMEBASE_START, R310: Setting a PWT.CTL.RUN bit starts the timebase with a full reload. -/
  | timebaseStart (w : Writer) (n : Fin 4)
  /-- TIMEBASE_STOP, R311: Clearing a RUN bit stops the timebase at its next period start. -/
  | timebaseStop (w : Writer) (n : Fin 4)
  /-- PERIOD_START, R309: A timebase starts a period: period event, reloads, herd-lock correction and resume points. -/
  | periodStart (n : Fin 4)
  /-- PEAK_EVENT, R309: An UPDOWN timebase enters its down half, raising the peak event and reloads. -/
  | peakEvent (n : Fin 4)
  /-- COMPARE_EDGE, R319: A placed compare edge changes the channel's compare state. -/
  | compareEdge (k : Fin 16) (rise : Bool)
  /-- DEAD_TIME_EXPIRY, R323: The dead time ends and the pending GH or GL rise is made. -/
  | deadTimeExpiry (k : Fin 16) (high : Bool)
  /-- MINPW_HOLD_EXPIRY, R339: A held opposite edge is placed after the minimum pulse. -/
  | minpwHoldExpiry (k : Fin 16)
  /-- SHADOW_WRITE, R328: A write to PERIOD, CMP_A or CMP_B stores the shadow value and sets its written bit. -/
  | shadowWrite (w : Writer) (k : Fin 16) (reg : Fin 3) (v : BitVec 32)
  /-- PWMC_ARM, R330: PWMC.CMD ARM arms the shadow when a written bit is set. -/
  | pwmcArm (w : Writer) (key : BitVec 16) (k : Fin 16)
  /-- PWMC_DISCARD, R330: PWMC.CMD DISCARD clears the written bits and ARMED. -/
  | pwmcDiscard (w : Writer) (key : BitVec 16) (k : Fin 16)
  /-- MASK_STEP, R341: MASK.CMD STEP advances the pending pattern index. -/
  | maskStep (w : Writer) (key : BitVec 16) (coincident : Bool)
  /-- MASK_SET, R341: MASK.CMD SET loads the pending index. -/
  | maskSet (w : Writer) (key : BitVec 16) (index : Fin 8)
  /-- MASK_APPLY, R342: The pending index becomes the applied INDEX next cycle or at a reload. -/
  | maskApply
  /-- TRIP_SOURCE_ASSERT, R347: A filtered, unblanked TRIP source asserts and overrides its channels. -/
  | tripSourceAssert (k : Fin 16) (starting : Bool)
  /-- TRIP_SOURCE_DEASSERT, R345: A TRIP source deasserts and ends a LEVEL override. -/
  | tripSourceDeassert (k : Fin 16) (starting : Bool)
  /-- TRIP_CLEAR, R348: TRIP.CMD CLEAR ends latched sources whose input is deasserted. -/
  | tripClear (w : Writer) (key : BitVec 16) (m : BitVec 16)
  /-- GATE_CMD_RX, R458: A GATE_CMD packet delivers entries into GDI queues. -/
  | gateCmdRx (p : Packet)
  /-- GATE_ENTRY_EXECUTE, R358: A queued entry executes at its herd time, or its late turn-on is dropped. -/
  | gateEntryExecute (n : Fin 16)
  /-- GATE_CMD_TIMEOUT, R361: No entry for TMO_US with a request on sets both requests off. -/
  | gateCmdTimeout (n : Fin 16) (arrived : Bool)
  /-- LEGACY_PIN_CHANGE, R362: A filtered PUL or PEN change forms new legacy requests. -/
  | legacyPinChange (n : Fin 16) (pul : Bool) (pen : Bool)
  /-- DT_MIN_EXPIRY, R365: The GDI minimum dead time ends and a delayed rise is made. -/
  | dtMinExpiry (n : Fin 16) (high : Bool)
  /-- GFLT_ASSERT, R366: A driver fault removes both gates within 25 ns and counts as a fault occurrence. -/
  | gfltAssert (n : Fin 16) (asserted : Bool)
  /-- GFLT_SYNC_FAULT, R367: A synchronised GFLT assertion is counted as DRV_FAULT or sets FLT_SEEN. -/
  | gfltSyncFault (n : Fin 16)
  /-- GRDY_LOSS, R368: GRDY stays low for RDY_FILT and counts as RDY_LOSS. -/
  | grdyLoss (n : Fin 16)
  /-- GRDY_READY, R370: GRDY ready for RDY_FILT with SUP_OK moves WAIT_RDY to RESUME. -/
  | grdyReady (n : Fin 16)
  /-- SUP_OK_CHANGE, R507: The Sheepdog's supply status for a half-bridge changes. -/
  | supOkChange (n : Fin 16)
  /-- RETRY_WAIT_END, R372: A retry wait ends and the instance resumes or counts a further fault. -/
  | retryWaitEnd (n : Fin 16)
  /-- RETRY_WINDOW_END, R371: RETRY.WINDOW elapses and the fault count n clears. -/
  | retryWindowEnd (n : Fin 16)
  /-- GDI_CLEAR, R374: GDI.CMD CLEAR leaves LATCHED when no cause is present. -/
  | gdiClear (w : Writer) (key : BitVec 16) (n : Fin 16)
  /-- GDI_INJECT_FLT, R375: GDI.CMD INJECT_FLT presents a driver fault for one cycle. -/
  | gdiInjectFlt (w : Writer) (key : BitVec 16) (n : Fin 16)
  /-- GDI_INJECT_SHOOT, R375: GDI.CMD INJECT_SHOOT presents both-on for one cycle. -/
  | gdiInjectShoot (w : Writer) (key : BitVec 16) (n : Fin 16)
  /-- GDI_INJECT_RDY, R375: GDI.CMD INJECT_RDY presents a ready loss for one cycle. -/
  | gdiInjectRdy (w : Writer) (key : BitVec 16) (n : Fin 16)
  /-- GDI_CLR_STATS, R379: GDI.CMD CLR_STATS clears CNT_0 to CNT_2. -/
  | gdiClrStats (w : Writer) (key : BitVec 16) (n : Fin 16)
  /-- REFRESH_NOTCH_END, R376: The notch ends after W cycles and the count restarts. -/
  | refreshNotchEnd (n : Fin 16)
  /-- METER_TICK, R384: A metering tick aligns the six inputs at herd time minus the lag. -/
  | meterTick (p : Fin 2)
  /-- MTR_CLEAR, R410: MTR.CMD CLEAR clears energies, residues, INT_j and WRAP in READY. -/
  | mtrClear (w : Writer) (key : BitVec 16) (p : Fin 2)
  /-- MTR_SAVE_NOW, R397: MTR_00.CMD SAVE_NOW starts a periodic save. -/
  | mtrSaveNow (w : Writer) (key : BitVec 16)
  /-- MTR_CO_CLEAR, R410: MTR_00.CMD CO_CLEAR clears CO_CHG and its residue. -/
  | mtrCoClear (w : Writer) (key : BitVec 16)
  /-- PERIODIC_SAVE, R397: The save period elapses and a periodic FRAM save starts. -/
  | periodicSave
  /-- SAVE_COMPLETE, R397: A periodic save ends with its read-back, raising SAVE_DONE or SAVE_FAIL. -/
  | saveComplete (ok : Bool)
  /-- POWER_FAIL_SAVE_DONE, R398: The power-fail save writes its POWER_FAIL record and completes. -/
  | powerFailSaveDone
  /-- CO_SECOND, R403: Every second in SURVIVAL the current-only accounting adds charge to CO_CHG. -/
  | coSecond (codes : List (BitVec 24))
  /-- LANE_ENABLE, R418: Setting LANE_nn.CTL.EN moves the lane to DETECT. -/
  | laneEnable (w : Writer) (n : Fin 8)
  /-- LANE_DISABLE, R418: Clearing EN puts the lane in DISABLED. -/
  | laneDisable (w : Writer) (n : Fin 8)
  /-- SYNTH_LOCK, R415: A lane synthesizer or Ethernet rate converter locks. -/
  | synthLock (q : Fin 2) (ecm : Bool)
  /-- SYNTH_UNLOCK, R415: A lane synthesizer loses lock and its lanes are held disabled. -/
  | synthUnlock (q : Fin 2) (ecm : Bool)
  /-- SIGNAL_DETECT, R418: Signal for 100 µs moves the lane from DETECT to TRAIN. -/
  | signalDetect (n : Fin 8) (mlos : Bool)
  /-- TRAINING_FRAME_RX, R422: A valid training frame's tap request is applied and its status read. -/
  | trainingFrameRx (n : Fin 8) (request : BitVec 16) (status : BitVec 16) (crc : BitVec 16)
  /-- ADAPT_WAIT_END, R424: The adaptation wait ends and FOM is measured for the training search. -/
  | adaptWaitEnd (n : Fin 8) (codes : BitVec 8)
  /-- TRAIN_TIMEOUT, R418: TRAIN times out and the lane enters HOLDOFF with TRAIN_TMO. -/
  | trainTimeout (n : Fin 8)
  /-- BLOCK_LOCK, R417: 64 valid sync headers give block lock and the lane enters CAPS. -/
  | blockLock (n : Fin 8)
  /-- LOCK_TIMEOUT, R418: 1 ms without block lock sends the lane to HOLDOFF. -/
  | lockTimeout (n : Fin 8)
  /-- CAPS_BLOCK_RX, R425: A capability block is checked and completes the exchange or fails it. -/
  | capsBlockRx (n : Fin 8) (version : BitVec 8) (id : BitVec 15) (plane : Bool) (ln : BitVec 2) (ack : Bool) (txPs : BitVec 16) (rxPs : BitVec 16)
  /-- CAPS_TIMEOUT, R418: 10 ms without capability completion sends the lane to HOLDOFF. -/
  | capsTimeout (n : Fin 8)
  /-- HOLDOFF_EXPIRY, R418: HOLDOFF_MS elapses and the lane returns to DETECT. -/
  | holdoffExpiry (n : Fin 8)
  /-- SIGNAL_LOSS, R418: Signal lost for 10 µs sends the lane to HOLDOFF. -/
  | signalLoss (n : Fin 8) (mlos : Bool)
  /-- BLOCK_LOCK_LOSS, R417: 32 invalid headers in 1,024 blocks lose block lock and start a fast retrain. -/
  | blockLockLoss (n : Fin 8)
  /-- LANE_RETRAIN, R418: LANE_nn.CMD RETRAIN starts a fast retrain from ACTIVE. -/
  | laneRetrain (w : Writer) (key : BitVec 16) (n : Fin 8)
  /-- LANE_CLR_STATS, R446: LANE_nn.CMD CLR_STATS clears the lane counters. -/
  | laneClrStats (w : Writer) (key : BitVec 16) (n : Fin 8)
  /-- FOM_REMEASURE, R424: Every 100 ms in ACTIVE the FOM is re-measured. -/
  | fomRemeasure (n : Fin 8) (codes : BitVec 8)
  /-- LINK_ACK_RX, R430: A cumulative ACK frees retry-buffer packets. -/
  | linkAckRx (n : Fin 8) (seq : BitVec 12)
  /-- LINK_NAK_RX, R430: A NAK replays from the oldest unacknowledged packet. -/
  | linkNakRx (n : Fin 8) (seq : BitVec 12)
  /-- LINK_ACK_TIMEOUT, R430: ACK_TMO passes without progress and the buffer is replayed. -/
  | linkAckTimeout (n : Fin 8) (advanced : Bool)
  /-- EYE_SCAN_START, R432: ES_CTL.START starts counting an eye-scan point. -/
  | eyeScanStart (w : Writer) (n : Fin 8) (prescale : BitVec 4) (vofs : BitVec 8) (hofs : BitVec 7)
  /-- EYE_SCAN_DONE, R432: The eye-scan point reaches its bit count and DONE is set. -/
  | eyeScanDone (n : Fin 8) (errs : BitVec 32)
  /-- PAT_INJECT, R435: PAT_CMD.INJECT inverts one transmitted bit. -/
  | patInject (w : Writer) (key : BitVec 16) (n : Fin 8)
  /-- PAT_CLR, R434: PAT_CMD.CLR clears the pattern counters and SYNC_LOSSES. -/
  | patClr (w : Writer) (key : BitVec 16) (n : Fin 8)
  /-- PAT_SYNC, R434: The checker declares sync after 64 error-free bits. -/
  | patSync (n : Fin 8)
  /-- PAT_SYNC_LOSS, R434: More than 16 errors in 64 bits lose checker sync. -/
  | patSyncLoss (n : Fin 8) (bits : BitVec 48) (errs : BitVec 48)
  /-- ETH_LINK_CHANGE, R437: An Ethernet lane goes ETH_UP or ETH_DOWN. -/
  | ethLinkChange (e : Fin 2) (blockLock : Bool) (hiBer : Bool) (fecAlign : Bool)
  /-- ETH_FRAME_RX, R438: A received frame is filtered, timestamped and placed in a receive descriptor. -/
  | ethFrameRx (e : Fin 2) (frame : List (BitVec 8)) (fcsOk : Bool)
  /-- ETH_TX_KICK, R439: A TX_KICK write examines the transmit ring. -/
  | ethTxKick (w : Writer) (e : Fin 2)
  /-- ETH_FRAME_SENT, R439: A transmit frame is sent, timestamped and its descriptor returned. -/
  | ethFrameSent (e : Fin 2)
  /-- MODULE_POLL, R441: Every POLL_MS the module's diagnostics and alarm flags are read. -/
  | modulePoll (n : Fin 8) (bytes : List (BitVec 8))
  /-- MOD_CMD_READ, R442: MOD_CMD with WRITE 0 reads one module byte into MOD_DATA. -/
  | modCmdRead (w : Writer) (key : BitVec 16) (n : Fin 8) (dev : Bool) (offset : BitVec 8)
  /-- MOD_CMD_WRITE, R442: MOD_CMD with WRITE 1 writes MOD_DATA to the module. -/
  | modCmdWrite (w : Writer) (key : BitVec 16) (n : Fin 8) (dev : Bool) (offset : BitVec 8)
  /-- MOD_ACCESS_DONE, R442: A module byte access ends, BUSY clears and NACK may be set. -/
  | modAccessDone (n : Fin 8) (ack : Bool) (data : BitVec 8)
  /-- MODULE_PRESENCE_CHANGE, R441: MPRS_N_nn changes and a removal raises ALARM. -/
  | modulePresenceChange (n : Fin 8) (present : Bool)
  /-- PACKET_RX, R471: A packet arrives on a lane and is checked, delivered locally, forwarded or discarded. -/
  | packetRx (n : Fin 8) (seq : BitVec 12) (p : Packet) (crc : BitVec 32)
  /-- PACKET_SEND, R477: A lane sends the winning head of its VCs when it holds credit. -/
  | packetSend (n : Fin 8)
  /-- CREDIT_RX, R476: A control block returns VC credits from the partner. -/
  | creditRx (n : Fin 8) (vc : Fin 6) (k : BitVec 8)
  /-- ANNOUNCE_SEND, R461: Every ANN_MS the device sends ANNOUNCE on every ACTIVE lane. -/
  | announceSend
  /-- ANNOUNCE_RX, R462: An ANNOUNCE updates the best root, level and parent lane. -/
  | announceRx (n : Fin 8) (p : Packet)
  /-- ROOT_CLAIM, R461: After listening 3 × ANN_MS without a root, a capable device announces itself as root. -/
  | rootClaim (plane : Fin 2)
  /-- ROOT_SEAT, R461: A root that held level 0 for 3 × ANN_MS sets SEATED. -/
  | rootSeat (plane : Fin 2)
  /-- ROOT_LOST, R464: 3 × ANN_MS without ANNOUNCE declares the root lost on a plane. -/
  | rootLost (plane : Fin 2) (heard : Bool)
  /-- ID_REQ_SEND, R465: A device without an ID sends ID_REQ up the tree. -/
  | idReqSend (plane : Fin 2)
  /-- ID_REQ_RX, R465: The bellwether chooses an ID and answers with ID_GRANT. -/
  | idReqRx (plane : Fin 2) (p : Packet)
  /-- ID_GRANT_RX, R466: A device takes its granted ID, or on 0x0000 sets CONFLICT and asks again. -/
  | idGrantRx (p : Packet)
  /-- TOPO_REPORT_SEND, R468: A device sends TOPO_REPORT after assignment or a lane change. -/
  | topoReportSend
  /-- TOPO_REPORT_RX, R469: The bellwether recomputes route tables, loads them and switches banks by herd transaction. -/
  | topoReportRx (plane : Fin 2) (p : Packet)
  /-- ROUTE_TABLE_WRITE, R473: A write to an inactive route bank is accepted or refused with TBL_REJECT. -/
  | routeTableWrite (w : Writer) (k : Fin 385) (v : BitVec 32)
  /-- BANK_CLEAR, R492: FAB.BANK_CMD CLR invalidates every entry of the selected inactive bank. -/
  | bankClear (w : Writer) (key : BitVec 16)
  /-- TIME_SYNC_SEND, R480: Every SYNC_US a device sends TIME_SYNC to its children. -/
  | timeSyncSend
  /-- DELAY_REQ_SEND, R481: Every 16th sync interval a member sends DELAY_REQ upstream. -/
  | delayReqSend
  /-- DELAY_REQ_RX, R481: A neighbour answers DELAY_REQ with DELAY_RESP. -/
  | delayReqRx (n : Fin 8) (p : Packet)
  /-- DELAY_RESP_RX, R481: A member computes and averages the link delay. -/
  | delayRespRx (n : Fin 8) (p : Packet)
  /-- PUB_SLOT_START, R483: At its CTRL slot an enabled TX entry reads slots and sends a PUB. -/
  | pubSlotStart (k : Fin 64) (ecc : EccError)
  /-- PUB_RX, R484: A subscription writes the first copy of a PUB into its slots. -/
  | pubRx (p : Packet)
  /-- SUB_STALE, R484: MAX_AGE cycles without a PUB set STALE in the subscribed slots. -/
  | subStale (k : Fin 64) (arrived : Bool)
  /-- REG_REQ_RX, R457: The register engine performs the pairs of a REG_REQ and sends REG_RESP. -/
  | regReqRx (p : Packet)
  /-- REG_RESP_RX, R478: A REG_RESP is delivered into the requester's reserved slot. -/
  | regRespRx (p : Packet)
  /-- UNDELIV_RX, R472: An UNDELIV reaches the requester's response slot. -/
  | undelivRx (p : Packet)
  /-- DEV_RESET_RX, R487: A DEV_RESET with the RST right causes a device reset. -/
  | devResetRx (p : Packet)
  /-- EVT_NOTIFY_RX, R456: An EVT_NOTIFY is placed in the twin ring of its session. -/
  | evtNotifyRx (p : Packet)
  /-- DATA_RX, R490: A DATA packet is decrypted into the twin ring of its session. -/
  | dataRx (p : Packet)
  /-- FW_REQ_RX, R456: An FW_REQ is placed in the twin ring. -/
  | fwReqRx (p : Packet)
  /-- FW_RESP_RX, R456: An FW_RESP reaches the requester's response ring. -/
  | fwRespRx (p : Packet)
  /-- SES_HELLO_RX, R456: A SES_HELLO is delivered to the twin B ring. -/
  | sesHelloRx (p : Packet)
  /-- SES_REPLY_RX, R456: A SES_REPLY is delivered to the twin B ring. -/
  | sesReplyRx (p : Packet)
  /-- SES_FINISH_RX, R456: A SES_FINISH is delivered to the twin B ring. -/
  | sesFinishRx (p : Packet)
  /-- SES_KICK, R490: A KICK write examines the twin's transmit ring and sends protected packets. -/
  | sesKick (w : Writer) (twin : Bool)
  /-- SES_OPEN, R494: SES.CMD OPEN opens a session with counters at zero. -/
  | sesOpen (w : Writer) (key : BitVec 16) (n : Fin 256)
  /-- SES_CLOSE, R494: SES.CMD CLOSE closes a session as on expiry. -/
  | sesClose (w : Writer) (key : BitVec 16) (n : Fin 256)
  /-- SESSION_EXPIRY, R489: The session watchdog expires, discarding queued packets and freeing credits. -/
  | sessionExpiry (n : Fin 256) (arrived : Bool)
  /-- MUS_RESTART, R493: MUS.CMD RESTART restarts muster. -/
  | musRestart (w : Writer) (key : BitVec 16)
  /-- MUS_LEAVE, R491: MUS.CMD LEAVE sends a final TOPO_REPORT and stops forwarding after the next commit. -/
  | musLeave (w : Writer) (key : BitVec 16)
  /-- MUS_RECOMPUTE, R493: MUS.CMD RECOMPUTE makes the bellwether recompute the route tables. -/
  | musRecompute (w : Writer) (key : BitVec 16)
  /-- MUS_REPLACE, R493: MUS.CMD REPLACE reserves an ID for a new serial. -/
  | musReplace (w : Writer) (key : BitVec 16)
  /-- MUS_FORGET, R493: MUS.CMD FORGET frees the ID in MUS.QUERY. -/
  | musForget (w : Writer) (key : BitVec 16)
  /-- SIN_CONTACT_CHANGE, R513: A debounced contact change moves its pair's state and may make a demand. -/
  | sinContactChange (k : Fin 8) (a : Bool) (b : Bool)
  /-- DISCREPANCY_EXPIRY, R513: The discrepancy time expires and the pair enters FAULT. -/
  | discrepancyExpiry (k : Fin 8)
  /-- SIN_DELAY_EXPIRY, R514: The DELAYED time ends and cause SAFE_INPUT is met. -/
  | sinDelayExpiry (k : Fin 8)
  /-- SHD_STARTUP_TEST_DONE, R503: The Sheepdog start-up test ends with STARTUP_OK or a latch. -/
  | shdStartupTestDone (pass : Bool)
  /-- SGR_APPLY, R505: SHD.CMD SGR_APPLY applies the gate-driver supplies. -/
  | sgrApply (w : Writer) (key : BitVec 16)
  /-- SGR_REMOVE, R505: SHD.CMD SGR_REMOVE removes the gate-driver supplies. -/
  | sgrRemove (w : Writer) (key : BitVec 16)
  /-- NEW_CHALLENGE, R527: SHD.CMD NEW_CHALLENGE fills CHAL_0 to CHAL_7 with random bits. -/
  | newChallenge (w : Writer) (key : BitVec 16)
  /-- CRED_VERIFY, R527: SHD.CMD VERIFY starts checking the credential against the challenge. -/
  | credVerify (w : Writer) (key : BitVec 16)
  /-- CRED_VERIFY_DONE, R527: Verification ends with an active credential or CRED_STAT.FAIL, logged. -/
  | credVerifyDone (sigOk : Bool)
  /-- END_CRED, R528: SHD.CMD END_CRED ends the active credential. -/
  | endCred (w : Writer) (key : BitVec 16)
  /-- CRED_EXPIRY, R528: An active credential's time runs out. -/
  | credExpiry
  /-- SEAL_CHANGE, R526: The seal loop is declared open or closed and SEAL is raised. -/
  | sealChange (isOpen : Bool)
  /-- SEAL_CRC_CAPTURE, R529: After the seal closes and CRC_BUSY is 0, PG_CRC is copied into SEALED_CRC. -/
  | sealCrcCapture
  /-- OFF_PULSE_START, R509: Every PERIOD_MS one side of an ON channel is opened for W µs. -/
  | offPulseStart (k : Fin 8)
  /-- OFF_PULSE_END, R510: An off-pulse ends and the side passes or is found stuck. -/
  | offPulseEnd (k : Fin 8) (low : Bool)
  /-- SOUT_TEST, R509: SOUT.CMD TEST starts a pulse on the next side of each marked channel. -/
  | soutTest (w : Writer) (key : BitVec 16) (m : BitVec 8)
  /-- SOUT_SETTLE_END, R509: A channel's settle window ends and read-back checking resumes. -/
  | soutSettleEnd (k : Fin 8) (rb : Fin 3)
  /-- READBACK_FAILURE, R510: Four consecutive wrong read-back samples give ON_FAIL or OFF_FAIL. -/
  | readbackFailure (k : Fin 8) (rb : Fin 3)
  /-- SBT_TRIP_PULSE_END, R504: An energise-to-trip pulse ends after TRIP_MS. -/
  | sbtTripPulseEnd (k : Fin 8)
  /-- SAFE_TX_PERIOD, R517: Every PERIOD_MS the Sheepdog sends a connection's SAFE pair on both planes. -/
  | safeTxPeriod (k : Fin 8)
  /-- SAFE_COPY_RX, R518: A SAFE copy is accepted, compared or rejected by its RX connection. -/
  | safeCopyRx (plane : Fin 2) (p : Packet)
  /-- SCOM_WATCHDOG_EXPIRY, R521: An RX connection watchdog expires, raising SCOM_TMO and maybe a cause. -/
  | scomWatchdogExpiry (k : Fin 8) (arrived : Bool)
  /-- PLANE_WATCHDOG, R520: WDOG_MS passes with copies from one plane only and the plane element fails. -/
  | planeWatchdog (k : Fin 8) (silent : Fin 2) (arrived : Bool)
  /-- LOG_WRITE, R531: A queued change-log entry is written to FRAM after reading back the previous one. -/
  | logWrite (readBackOk : Bool)
  /-- CHECKPOINT, R549: Each core takes a checkpoint and the signatures are compared. -/
  | checkpoint (t : Bool) (stamp : BitVec 64) (lag : BitVec 12) (x y : Bool)
  /-- DEEP_CHECKPOINT, R550: A deep checkpoint writes back caches and compares deep hashes. -/
  | deepCheckpoint (t : Bool) (stamp : BitVec 64) (lag : BitVec 12) (sx sy hx hy : Bool)
  /-- TWIN_STORE, R545: A leading-core store outside its private region enters the release buffer. -/
  | twinStore (t : Bool) (space : MemSpace) (a : BitVec 29) (data : BitVec 64) (mask : BitVec 8) (stamp : BitVec 64)
  /-- RELEASE_ENTRY, R546: A matched release-buffer entry is performed as a twin write. -/
  | releaseEntry (t : Bool)
  /-- DCU_VERDICT, R556: The comparators' verdicts on a comparison lead to release, warm restart or halt. -/
  | dcuVerdict (t : Bool) (k : DcuFinding) (x y : Bool)
  /-- WARM_RESTART_RUN, R558: The restored twin's cores start at WARM_VEC. -/
  | warmRestartRun (t : Bool)
  /-- DCU_SELFTEST, R555: Once per second the comparators are tested with a differing and an equal pair. -/
  | dcuSelftest (t xd yd xe ye : Bool)
  /-- DCU_SELFTEST_MISSED, R555: No test verdict within 1.1 s meets cause SELFTEST_MISSED. -/
  | dcuSelftestMissed (t : Bool)
  /-- DCU_INJECT_OUTPUT, R576: DCU.CMD INJECT_OUTPUT alters the next release comparison of a twin. -/
  | dcuInjectOutput (w : Writer) (key : BitVec 16) (t : Bool)
  /-- DCU_INJECT_LATENT, R576: DCU.CMD INJECT_LATENT alters the next checkpoint comparison. -/
  | dcuInjectLatent (w : Writer) (key : BitVec 16) (t : Bool)
  /-- DCU_INJECT_DISAGREE, R576: DCU.CMD INJECT_DISAGREE makes the next verdicts differ. -/
  | dcuInjectDisagree (w : Writer) (key : BitVec 16) (t : Bool)
  /-- DCU_INJECT_STMISS, R576: DCU.CMD INJECT_STMISS suppresses DCU-X's next MISMATCH test verdict. -/
  | dcuInjectStmiss (w : Writer) (key : BitVec 16) (t : Bool)
  /-- LAP_RING_WRITE, R564: Records drain from the FIFO to the ring, with a GAP after a loss. -/
  | lapRingWrite
  /-- LAP_TIME_RECORD, R563: A TIME record is written at least every 1 ms or before DELTA overflows. -/
  | lapTimeRecord
  /-- HW_ANCHOR, R565: Every ANCHOR_MS a HW_ANCHOR of the deterministic domain is recorded or skipped. -/
  | hwAnchor
  /-- TWIN_ANCHOR_DONE, R566: A twin anchor copy completes and TWIN_ANCHOR is written. -/
  | twinAnchorDone (t : Bool)
  /-- LAP_FREEZE, R568: LAP.CMD FREEZE freezes the ring at once. -/
  | lapFreeze (w : Writer) (key : BitVec 16)
  /-- LAP_RESUME, R568: LAP.CMD RESUME restarts recording. -/
  | lapResume (w : Writer) (key : BitVec 16)
  /-- LAP_ARM, R567: LAP.CMD ARM arms the triggers for ARM_S. -/
  | lapArm (w : Writer) (key : BitVec 16)
  /-- LAP_DISARM, R567: LAP.CMD DISARM disarms the triggers. -/
  | lapDisarm (w : Writer) (key : BitVec 16)
  /-- LAP_ARM_EXPIRY, R567: The armed interval ends. -/
  | lapArmExpiry
  /-- LAP_POST_END, R568: The post window ends and the ring freezes. -/
  | lapPostEnd
  /-- LAP_IMPORT, R577: LAP.CMD IMPORT prepares the ring to receive an exported incident. -/
  | lapImport (w : Writer) (key : BitVec 16) (head : BitVec 25)
  /-- REPLAY_START, R571: LAP.CMD REPLAY_START loads the start anchor and runs the recorded inputs. -/
  | replayStart (w : Writer) (key : BitVec 16)
  /-- REPLAY_CONT, R573: LAP.CMD REPLAY_CONT resumes a paused replay. -/
  | replayCont (w : Writer) (key : BitVec 16)
  /-- REPLAY_BREAK, R573: Replay reaches LAP.BREAK and pauses. -/
  | replayBreak
  /-- REPLAY_END, R573: Replay ends at STOP, the newest record or a GAP. -/
  | replayEnd
  /-- VCR_TARGET_WRITE, R586: A VCR.CTL write retargets the reference from the one in force. -/
  | vcrTargetWrite (w : Writer) (v : BitVec 32)
  /-- PHASE_ADD, R588: Averaged current above n × I_ADD adds one phase. -/
  | phaseAdd (i0 i1 i2 i3 : BitVec 8)
  /-- PHASE_STEP, R588: A current step above STEP adds every available phase. -/
  | phaseStep (i0 i1 i2 i3 : BitVec 8)
  /-- PHASE_SHED, R588: The shed condition held for HYS_MS sheds one phase. -/
  | phaseShed (i0 i1 i2 i3 : BitVec 8)
  /-- PHASE_ROTATE, R590: Every ROT_S seconds the rotation base advances. -/
  | phaseRotate
  /-- PHASE_OVER_TEMP, R591: A phase reaches 115 °C or 135 °C, warning or shutting down. -/
  | phaseOverTemp (n : Fin 4) (temp : BitVec 9)
  /-- CHARGE_END, R597: The constant-voltage charge current falls below a tenth of the limit. -/
  | chargeEnd
  /-- CHARGE_RESTART, R597: VSTORE falls below VMAX − 100 mV and charging restarts. -/
  | chargeRestart
  /-- LI_PROTECTION, R598: A lithium cell protection condition opens the charge path or disconnects the cell. -/
  | liProtection (k : Fin 4)
  /-- LI_PROTECTION_RELEASE, R598: A protection condition clears and the cell reconnects. -/
  | liProtectionRelease (k : Fin 4)
  /-- ROOSTER_START, R599: QSC reaches 2.0 V and the harvest converter and store monitor start. -/
  | roosterStart (cap : Bool)
  /-- HARVEST_SOURCE_SELECT, R600: Every 64 s in AUTO the harvester selects the stronger source. -/
  | harvestSourceSelect (teg vib : BitVec 16)
  /-- HARVEST_FOC_SAMPLE, R600: Every FOC_S seconds the source's open-circuit voltage is sampled. -/
  | harvestFocSample (mv uw : BitVec 16) (uj : BitVec 32)
  /-- WAKE_REQUEST, R603: A wake source requests a wake beacon. -/
  | wakeRequest (src : Fin 4)
  /-- BEACON_FRAME_END, R608: A beacon frame ends, the port idles and opens its receive window. -/
  | beaconFrameEnd
  /-- SVP_ACK_RX, R609: An inbound ACK ends the repeats of a wake beacon. -/
  | svpAckRx (seq : BitVec 16)
  /-- SVP_DATA_RX, R609: An inbound DATA frame is stored in SURV.RXBUF. -/
  | svpDataRx (data : List (BitVec 8))
  /-- RX_WINDOW_END, R609: The receive window ends, scheduling a wake-beacon repeat if unacknowledged. -/
  | rxWindowEnd
  /-- TEST_BEACON, R612: SURV.CMD TEST_BEACON sends one TEST frame in READY. -/
  | testBeacon (w : Writer) (key : BitVec 16)
  /-- SURV_CLR_STATS, R615: SURV.CMD CLR_STATS clears the survival counters. -/
  | survClrStats (w : Writer) (key : BitVec 16)
  /-- SURV_CLR_RX, R615: SURV.CMD CLR_RX clears the receive buffer. -/
  | survClrRx (w : Writer) (key : BitVec 16)
  /-- BOOT_SURVIVAL_RESTORE, R623: After root lock the starting block samples straps, reads OTP and restores survival data. -/
  | bootSurvivalRestore (straps : BitVec 2) (hostSel : Bool)
  /-- BOOT_IMAGE_VERIFY, R623: The image is read, copied and checked for signature, chain, root and rollback. -/
  | bootImageVerify (readOk sigOk : Bool)
  /-- TWINS_START, R623: The starting block applies register lists, starts both twins and SCFG locks. -/
  | twinsStart (t : BitVec 16)
  /-- PWM_READY, R623: AFE calibration and comparator self-tests are done and PWM_READY is set. -/
  | pwmReady (t : BitVec 16)
  /-- BOOT_ALIVE, R624: BOOT.CMD ALIVE records that a twin is running. -/
  | bootAlive (w : Writer) (key : BitVec 16)
  /-- ALIVE_TIMEOUT, R626: A twin does not write ALIVE within ALIVE_MS. -/
  | aliveTimeout (t : Bool)
  /-- BOOT_CONFIRM, R629: BOOT.CMD CONFIRM sets PREF to the running image and clears TRIAL. -/
  | bootConfirm (w : Writer) (key : BitVec 16)
  /-- HOST_GO, R628: BOOT.CMD HOST_GO starts the host image in HOST mode. -/
  | hostGo (w : Writer) (key : BitVec 16)
  /-- HOST_TIMEOUT, R626: No HOST_GO within 10 s is a false start. -/
  | hostTimeout
  /-- LIVE_STAGE_DONE, R640: A staged live image is verified or the restart is abandoned with LIVE.FAIL. -/
  | liveStageDone (readOk sigOk : Bool)
  /-- LIVE_HALT, R641: Once its release buffer is empty the twin halts, loads new CODE and restarts. -/
  | liveHalt
  /-- FLASH_COMMAND, R646: A BOOT.FL_CTL write issues a flash command or is denied. -/
  | flashCommand (w : Writer) (key : BitVec 16) (opcode : BitVec 8) (b addr wr : Bool)
  /-- FLASH_COMMAND_DONE, R645: A flash command completes and FL_STAT.DONE is set. -/
  | flashCommandDone (data : List (BitVec 8)) (prog : List (BitVec 32 × BitVec 8))
  /-- SEC_VERIFY_IMAGE, R647: SEC.CMD VERIFY_IMAGE verifies a flash image. -/
  | secVerifyImage (w : Writer) (key : BitVec 16) (b : Bool)
  /-- SEC_SIGN, R633: SEC.CMD SIGN signs a hash with the identity key. -/
  | secSign (w : Writer) (key : BitVec 16)
  /-- SEC_VERIFY_CHAIN, R631: SEC.CMD VERIFY_CHAIN checks a signature and chain against a root. -/
  | secVerifyChain (w : Writer) (key : BitVec 16) (arg : BitVec 8)
  /-- SEC_RANDOM, R647: SEC.CMD RANDOM returns 32 random bytes. -/
  | secRandom (w : Writer) (key : BitVec 16)
  /-- ARB_ADVANCE, R630: SEC.CMD ARB_ADVANCE blows anti-rollback bits up to the running security version. -/
  | arbAdvance (w : Writer) (key : BitVec 16)
  /-- GEN_ID, R633: SEC.CMD GEN_ID creates the identity key pair once in OPEN. -/
  | genId (w : Writer) (key : BitVec 16)
  /-- REVOKE_ROOT, R648: SEC.CMD REVOKE_ROOT revokes an image root slot in READY. -/
  | revokeRoot (w : Writer) (key : BitVec 16) (slot : BitVec 2)
  /-- SEC_COMMAND_DONE, R647: A SEC command completes with DONE and FAIL code. -/
  | secCommandDone (readOk sigOk chainOk validOk : Bool)
  /-- OTP_GO, R649: OTP.CMD GO programs a word or is denied. -/
  | otpGo (w : Writer) (key : BitVec 16) (go : Bool) (word : BitVec 9)
  /-- OTP_PROGRAM_DONE, R649: OTP programming ends with read-back and VERIFY_FAIL if it differs. -/
  | otpProgramDone (blown : BitVec 32)
  /-- DEBUG_ACCESS_OPEN, R634: A debug credential verifies and authenticated debug access opens. -/
  | debugAccessOpen (ok : Bool) (rights : BitVec 8)
  /-- MEM_UNCORRECTABLE, R675: An uncorrectable memory ECC error returns 0, records the address and raises MEM_UE. -/
  | memUncorrectable (dram : Bool) (ofs : BitVec 29)
  /-- VAUX_LOSS, R593: VAUX power-good ceases to hold, so the survival domain changes its supply from VAUX to VSTORE. -/
  | vauxLoss
  /-- SLEW_DONE, R586: The core regulator reference reaches TARGET, SLEWING clears and SLEW_DONE is raised. -/
  | slewDone
  /-- OT_WARN_CLEAR, R591: A phase temperature falls below 110 °C, its warning clears and the phase becomes available again. -/
  | otWarnClear (n : Fin 4) (temp : BitVec 9)
  /-- ROOSTER_RUNS_AGAIN, R599: QSC falls below 1.6 V before the device leaves OFF, and the Rooster runs again. -/
  | roosterRunsAgain
  /-- PPS_OUT_PULSE_END, R130: WIDTH_US after the whole second plus offset, PPS_OUT returns to its inactive level. -/
  | ppsOutPulseEnd
  /-- CHARGE_TEMPERATURE_WINDOW, R597: The lithium cell temperature leaves or re-enters CHG_LO to CHG_HI, stopping or resuming charge. -/
  | chargeTemperatureWindow (temp : BitVec 8)
  deriving DecidableEq, Repr

end Sys2Proof
end

