-- ==== Sys2Proof/Machine/RegNames.lean ====
section
/-!
DEFINITION. The addresses of the device's registers (namespace `R`, as offsets from 0x4000_0000; a page with several
instances takes its instance number first, an array of registers its index) and the bit ranges of their fields
(namespace `F`, high and low bit). Every name is written from the register tables of the chapters; the page bases
(namespace `P`) are those of R673.
-/
namespace Sys2Proof.Machine
open Sys2Proof

namespace P
def SYS : Nat := 0x0
def TXN : Nat := 0x1000
def EVR : Nat := 0x2000
def CLK : Nat := 0x3000
def HTM : Nat := 0x4000
def RTC : Nat := 0x5000
def HPT : Nat := 0x6000
def BOOT : Nat := 0x7000
def SEC : Nat := 0x8000
def OTP : Nat := 0x9000
def MEM : Nat := 0xA000
def AFE : Nat := 0x40000
def SEQ : Nat := 0x41000
def XMD (i : Nat) : Nat := 0x42000 + 0x1000 * i
def ACMP : Nat := 0x44000
def STR : Nat := 0x80000
def STRW : Nat := 0x81000
def PCR : Nat := 0x82000
def BPT : Nat := 0x83000
def HRD : Nat := 0x84000
def ISL : Nat := 0x85000
def IMP : Nat := 0x86000
def PWT : Nat := 0xC0000
def PWMC (i : Nat) : Nat := 0xC1000 + 0x1000 * i
def TRIP : Nat := 0xD1000
def MASK : Nat := 0xD2000
def GDI (i : Nat) : Nat := 0xE0000 + 0x1000 * i
def MTR (i : Nat) : Nat := 0x100000 + 0x1000 * i
def PQM : Nat := 0x102000
def LANE (i : Nat) : Nat := 0x140000 + 0x1000 * i
def QUAD (i : Nat) : Nat := 0x148000 + 0x1000 * i
def ETH (i : Nat) : Nat := 0x14A000 + 0x1000 * i
def FAB : Nat := 0x14C000
def SES : Nat := 0x14D000
def MUS : Nat := 0x14E000
def SHD : Nat := 0x180000
def SIN : Nat := 0x181000
def SOUT : Nat := 0x182000
def SCOM : Nat := 0x183000
def SCFG : Nat := 0x184000
def TWN (i : Nat) : Nat := 0x1C0000 + 0x1000 * i
def DCU : Nat := 0x1C2000
def LAP : Nat := 0x1C3000
def VAUX : Nat := 0x200000
def VCR : Nat := 0x201000
def SURV : Nat := 0x202000
def HRV : Nat := 0x203000
def STORE : Nat := 0x204000
end P

namespace R
-- SYS page, R40
def SYS_DEV_ID : Nat := 0x100
def SYS_STATE : Nat := 0x104
def SYS_RST_CAUSE : Nat := 0x108
def SYS_RST_CTL : Nat := 0x10C
def SYS_STATE_REQ : Nat := 0x110
def SYS_SAFE_CAUSE : Nat := 0x114
def SYS_STATE_HT (k : Nat) : Nat := 0x118 + 0x4 * k
-- TXN page, R95
def TXN_CMD : Nat := 0x1100
def TXN_EVT_ARG : Nat := 0x1104
def TXN_T (k : Nat) : Nat := 0x1108 + 0x4 * k
def TXN_HTAG : Nat := 0x1110
def TXN_HPARM : Nat := 0x1114
def TXN_HDEST : Nat := 0x1118
def TXN_HEXPECT : Nat := 0x111C
def TXN_CUR : Nat := 0x1120
def TXN_HTALLY : Nat := 0x1124
def TXN_CTXS (k : Nat) : Nat := 0x1144 + 0x4 * k
def TXN_DOOM_INFO : Nat := 0x1180
def TXN_POOL : Nat := 0x1184
def TXN_ABORT : Nat := 0x1188
def TXN_HLAST_TAG : Nat := 0x118C
def TXN_HLAST_RES : Nat := 0x1190
-- EVR page, R97
def EVR_SRC (k : Nat) : Nat := 0x2100 + 0x4 * k
def EVR_PEND_A (k : Nat) : Nat := 0x2500 + 0x4 * k
def EVR_PEND_B (k : Nat) : Nat := 0x2520 + 0x4 * k
def EVR_TOP (k : Nat) : Nat := 0x2540 + 0x4 * k
def EVR_ACK (k : Nat) : Nat := 0x2548 + 0x4 * k
def EVR_THRESH (k : Nat) : Nat := 0x2550 + 0x4 * k
def EVR_OVR : Nat := 0x2558
-- CLK page, R142
def CLK_CTL : Nat := 0x3100
def CLK_HOP_CMD : Nat := 0x3104
def CLK_STAT : Nat := 0x3108
def CLK_SLOT (k : Nat) : Nat := 0x3140 + 0x4 * k
def CLK_OUT_CFG (k : Nat) : Nat := 0x3180 + 0x10 * k
def CLK_OUT_DIV (k : Nat) : Nat := 0x3184 + 0x10 * k
def CLK_OUT_SSC (k : Nat) : Nat := 0x3188 + 0x10 * k
-- HTM page, R143
def HTM_NS (k : Nat) : Nat := 0x4100 + 0x4 * k
def HTM_CTL : Nat := 0x4108
def HTM_RATE : Nat := 0x410C
def HTM_ADJ : Nat := 0x4110
def HTM_ADJ_REM : Nat := 0x4114
def HTM_STEP (k : Nat) : Nat := 0x4118 + 0x4 * k
def HTM_STEP_CMD : Nat := 0x4120
def HTM_STAT : Nat := 0x4124
def HTM_PPS_CFG : Nat := 0x4128
def HTM_PPS_OFF : Nat := 0x412C
def HTM_CAP_CFG (k : Nat) : Nat := 0x4130 + 0x4 * k
def HTM_CAP (k : Nat) : Nat := 0x4140 + 0x4 * k
def HTM_SNAP_NS (k : Nat) : Nat := 0x4150 + 0x4 * k
def HTM_SNAP_FRAC : Nat := 0x4158
-- RTC page, R144
def RTC_SEC_LO : Nat := 0x5100
def RTC_SEC_HI : Nat := 0x5104
def RTC_SET_LO : Nat := 0x5108
def RTC_SET_HI : Nat := 0x510C
def RTC_CMD : Nat := 0x5110
def RTC_CTL : Nat := 0x5114
def RTC_STAT : Nat := 0x5118
def RTC_UTC_OFF : Nat := 0x511C
def RTC_ALARM_LO (k : Nat) : Nat := 0x5120 + 0xC * k
def RTC_ALARM_HI (k : Nat) : Nat := 0x5124 + 0xC * k
def RTC_ALARM_PER (k : Nat) : Nat := 0x5128 + 0xC * k
def RTC_TCOMP (k : Nat) : Nat := 0x5140 + 0x4 * k
def RTC_TRIM : Nat := 0x5160
-- HPT page, R644
def HPT_CTL : Nat := 0x6100
def HPT_STAT : Nat := 0x6104
def HPT_MEM_ADDR : Nat := 0x6108
def HPT_MEM_CMD : Nat := 0x610C
def HPT_MEM_STAT : Nat := 0x6110
def HPT_MBUF (k : Nat) : Nat := 0x6140 + 0x4 * k
-- BOOT page, R645
def BOOT_STAT : Nat := 0x7100
def BOOT_NEXT : Nat := 0x7104
def BOOT_CMD : Nat := 0x7108
def BOOT_LIVE : Nat := 0x710C
def BOOT_TIMES : Nat := 0x7120
def BOOT_FL_CTL : Nat := 0x7140
def BOOT_FL_ADDR : Nat := 0x7144
def BOOT_FL_BUF : Nat := 0x7148
def BOOT_FL_STAT : Nat := 0x714C
def BOOT_HANDOVER : Nat := 0x7110
def BOOT_HOST_IMG : Nat := 0x7114
def BOOT_VER (k : Nat) : Nat := 0x7118 + 0x4 * k
def BOOT_FS (k : Nat) : Nat := 0x7130 + 0x4 * k
-- SEC page, R647
def SEC_CMD : Nat := 0x8100
def SEC_STAT : Nat := 0x8104
def SEC_PTR : Nat := 0x8108
def SEC_DBG : Nat := 0x810C
def SEC_ID_PUB (k : Nat) : Nat := 0x8140 + 0x4 * k
-- OTP page, R649
def OTP_CMD : Nat := 0x9100
def OTP_PDATA : Nat := 0x9104
def OTP_STAT : Nat := 0x9108
def OTP_WIN (k : Nat) : Nat := 0x9800 + 0x4 * k
-- MEM page, R675
def MEM_ECC_SRAM : Nat := 0xA100
def MEM_ECC_DRAM : Nat := 0xA104
def MEM_UE_ADDR : Nat := 0xA108
-- AFE page, R190
def AFE_CTL : Nat := 0x40100
def AFE_CMD : Nat := 0x40104
def AFE_STAT : Nat := 0x40108
def AFE_DUET : Nat := 0x4010C
def AFE_LCH (k : Nat) : Nat := 0x40110 + 0x4 * k
def AFE_RES (k : Nat) : Nat := 0x40140 + 0x4 * k
def AFE_CAL_OFS (k : Nat) : Nat := 0x40180 + 0x4 * k
def AFE_CAL_GAIN0 (k : Nat) : Nat := 0x40200 + 0x20 * k
def AFE_CAL_GAIN1 (k : Nat) : Nat := 0x40204 + 0x20 * k
def AFE_CAL_GAIN2 (k : Nat) : Nat := 0x40208 + 0x20 * k
def AFE_CAL_GAIN3 (k : Nat) : Nat := 0x4020C + 0x20 * k
def AFE_CAL_GAIN4 (k : Nat) : Nat := 0x40210 + 0x20 * k
-- SEQ page, R191
def SEQ_CTL : Nat := 0x41100
def SEQ_STAT : Nat := 0x41104
def SEQ_POS (k : Nat) : Nat := 0x41108 + 0x4 * k
def SEQ_ERR : Nat := 0x41110
def SEQ_BAD (k : Nat) : Nat := 0x41118 + 0x4 * k
def SEQ_E_LO0 (k : Nat) : Nat := 0x41200 + 0x8 * k
def SEQ_E_HI0 (k : Nat) : Nat := 0x41204 + 0x8 * k
def SEQ_E_LO1 (k : Nat) : Nat := 0x41400 + 0x8 * k
def SEQ_E_HI1 (k : Nat) : Nat := 0x41404 + 0x8 * k
-- XMD page, R192
def XMD_CLK_CFG (i : Nat) : Nat := 0x42100 + 0x1000 * i
def XMD_CH_IN (i k : Nat) : Nat := 0x42110 + 0x1000 * i + 0x20 * k
def XMD_CH_CF (i k : Nat) : Nat := 0x42114 + 0x1000 * i + 0x20 * k
def XMD_CH_SDLY (i k : Nat) : Nat := 0x42118 + 0x1000 * i + 0x20 * k
def XMD_CH_PF (i k : Nat) : Nat := 0x4211C + 0x1000 * i + 0x20 * k
def XMD_CH_LIM (i k : Nat) : Nat := 0x42120 + 0x1000 * i + 0x20 * k
def XMD_CH_RES (i k : Nat) : Nat := 0x42124 + 0x1000 * i + 0x20 * k
def XMD_CH_STAT (i k : Nat) : Nat := 0x42128 + 0x1000 * i + 0x20 * k
-- ACMP page, R193
def ACMP_CH_CFG (k : Nat) : Nat := 0x44100 + 0x10 * k
def ACMP_CH_TH (k : Nat) : Nat := 0x44104 + 0x10 * k
def ACMP_CH_BLANK (k : Nat) : Nat := 0x44108 + 0x10 * k
def ACMP_CH_STAT (k : Nat) : Nat := 0x4410C + 0x10 * k
def ACMP_CMD : Nat := 0x44200
def ACMP_SAMPLE_CFG : Nat := 0x44204
-- STR page, R243
def STR_CTL : Nat := 0x80100
def STR_STAT : Nat := 0x80104
def STR_SWTRIG : Nat := 0x80108
def STR_CMD : Nat := 0x8010C
def STR_SLOTSEL : Nat := 0x80110
def STR_GCRC : Nat := 0x80114
def STR_TCRC : Nat := 0x80118
def STR_ERR : Nat := 0x8011C
def STR_ECC : Nat := 0x80120
def STR_RG_CFG (k : Nat) : Nat := 0x80140 + 0x20 * k
def STR_RG_TSL0 (k : Nat) : Nat := 0x80144 + 0x20 * k
def STR_RG_TSL1 (k : Nat) : Nat := 0x80148 + 0x20 * k
def STR_RG_PER (k : Nat) : Nat := 0x8014C + 0x20 * k
def STR_RG_CNT (k : Nat) : Nat := 0x80150 + 0x20 * k
def STR_RG_OVR (k : Nat) : Nat := 0x80154 + 0x20 * k
def STR_RG_LAT (k : Nat) : Nat := 0x80158 + 0x20 * k
def STR_RG_BUDGET (k : Nat) : Nat := 0x8015C + 0x20 * k
def STR_BAD (k : Nat) : Nat := 0x80240 + 0x4 * k
def STR_OBAD (k : Nat) : Nat := 0x80280 + 0x4 * k
def STR_FWSLOT (k : Nat) : Nat := 0x80300 + 0x4 * k
def STR_HPH_CFG (k : Nat) : Nat := 0x80380 + 0x10 * k
def STR_HPH_F (k : Nat) : Nat := 0x80384 + 0x10 * k
def STR_HPH_T0_LO (k : Nat) : Nat := 0x80388 + 0x10 * k
def STR_HPH_T0_HI (k : Nat) : Nat := 0x8038C + 0x10 * k
def STR_OUT_CFG (k : Nat) : Nat := 0x80400 + 0x10 * k
def STR_OUT_STAMP_LO (k : Nat) : Nat := 0x80404 + 0x10 * k
def STR_OUT_STAMP_HI (k : Nat) : Nat := 0x80408 + 0x10 * k
def STR_OUT_INFO (k : Nat) : Nat := 0x8040C + 0x10 * k
def STR_SLOT (k : Nat) : Nat := 0x80800 + 0x4 * k
-- STRW page, R245
def STRW_SEL : Nat := 0x81100
def STRW_TBL (k : Nat) : Nat := 0x81400 + 0x4 * k
def STRW_SEC_CFG (k : Nat) : Nat := 0x81800 + 0x80 * k
def STRW_SEC_IN01 (k : Nat) : Nat := 0x81804 + 0x80 * k
def STRW_SEC_IN23 (k : Nat) : Nat := 0x81808 + 0x80 * k
def STRW_SEC_OUT (k : Nat) : Nat := 0x8180C + 0x80 * k
def STRW_SEC_TPARAM (k : Nat) : Nat := 0x81810 + 0x80 * k
def STRW_SEC_CA0 (k : Nat) : Nat := 0x81820 + 0x80 * k
def STRW_SEC_CA1 (k : Nat) : Nat := 0x81824 + 0x80 * k
def STRW_SEC_CA2 (k : Nat) : Nat := 0x81828 + 0x80 * k
def STRW_SEC_CA3 (k : Nat) : Nat := 0x8182C + 0x80 * k
def STRW_SEC_CA4 (k : Nat) : Nat := 0x81830 + 0x80 * k
def STRW_SEC_CA_EXP (k : Nat) : Nat := 0x81834 + 0x80 * k
def STRW_SEC_CB0 (k : Nat) : Nat := 0x81840 + 0x80 * k
def STRW_SEC_CB1 (k : Nat) : Nat := 0x81844 + 0x80 * k
def STRW_SEC_CB2 (k : Nat) : Nat := 0x81848 + 0x80 * k
def STRW_SEC_CB3 (k : Nat) : Nat := 0x8184C + 0x80 * k
def STRW_SEC_CB4 (k : Nat) : Nat := 0x81850 + 0x80 * k
def STRW_SEC_CB_EXP (k : Nat) : Nat := 0x81854 + 0x80 * k
def STRW_SEC_S1 (k : Nat) : Nat := 0x81860 + 0x80 * k
def STRW_SEC_S2 (k : Nat) : Nat := 0x81864 + 0x80 * k
def STRW_SEC_S_EXP (k : Nat) : Nat := 0x81868 + 0x80 * k
def STRW_SEC_SSTAT (k : Nat) : Nat := 0x8186C + 0x80 * k
-- PCR page, R246
def PCR_CTL : Nat := 0x82100
def PCR_CMD : Nat := 0x82104
def PCR_STAT : Nat := 0x82108
def PCR_ESTAT : Nat := 0x8210C
def PCR_CH_CFG (k : Nat) : Nat := 0x82200 + 0x40 * k
def PCR_CH_SLOTS (k : Nat) : Nat := 0x82204 + 0x40 * k
def PCR_CH_TGT (k : Nat) : Nat := 0x82208 + 0x40 * k
def PCR_CH_DT (k : Nat) : Nat := 0x8220C + 0x40 * k
def PCR_CH_VLIM (k : Nat) : Nat := 0x82210 + 0x40 * k
def PCR_CH_ALIM (k : Nat) : Nat := 0x82214 + 0x40 * k
def PCR_CH_JLIM (k : Nat) : Nat := 0x82218 + 0x40 * k
def PCR_CH_ETGT (k : Nat) : Nat := 0x8221C + 0x40 * k
def PCR_CH_ERATE (k : Nat) : Nat := 0x82220 + 0x40 * k
def PCR_CH_ESRC (k : Nat) : Nat := 0x82224 + 0x40 * k
def PCR_CH_POS (k : Nat) : Nat := 0x82228 + 0x40 * k
def PCR_CH_VEL (k : Nat) : Nat := 0x8222C + 0x40 * k
def PCR_CH_P_LO (k : Nat) : Nat := 0x82230 + 0x40 * k
def PCR_CH_P_HI (k : Nat) : Nat := 0x82234 + 0x40 * k
-- BPT page, R262
def BPT_CTL : Nat := 0x83100
def BPT_CMD : Nat := 0x83104
def BPT_STAT : Nat := 0x83108
def BPT_CH_CFG (k : Nat) : Nat := 0x83200 + 0x40 * k
def BPT_CH_SLOTS0 (k : Nat) : Nat := 0x83204 + 0x40 * k
def BPT_CH_SLOTS1 (k : Nat) : Nat := 0x83208 + 0x40 * k
def BPT_CH_WIN (k : Nat) : Nat := 0x8320C + 0x40 * k
def BPT_CH_STEP (k : Nat) : Nat := 0x83210 + 0x40 * k
def BPT_CH_VMIN (k : Nat) : Nat := 0x83214 + 0x40 * k
def BPT_CH_VMAX (k : Nat) : Nat := 0x83218 + 0x40 * k
def BPT_CH_START (k : Nat) : Nat := 0x8321C + 0x40 * k
def BPT_CH_DBAND (k : Nat) : Nat := 0x83220 + 0x40 * k
def BPT_CH_DV_MIN (k : Nat) : Nat := 0x83224 + 0x40 * k
def BPT_CH_DI_MIN (k : Nat) : Nat := 0x83228 + 0x40 * k
def BPT_CH_TOL (k : Nat) : Nat := 0x8322C + 0x40 * k
def BPT_CH_REF (k : Nat) : Nat := 0x83230 + 0x40 * k
def BPT_CH_AVG (k : Nat) : Nat := 0x83234 + 0x40 * k
def BPT_CH_DEC (k : Nat) : Nat := 0x83238 + 0x40 * k
def BPT_CRV_SPD0 (k : Nat) : Nat := 0x83800 + 0x8 * k
def BPT_CRV_PWR0 (k : Nat) : Nat := 0x83804 + 0x8 * k
def BPT_CRV_SPD1 (k : Nat) : Nat := 0x83A00 + 0x8 * k
def BPT_CRV_PWR1 (k : Nat) : Nat := 0x83A04 + 0x8 * k
def BPT_CRV_SPD2 (k : Nat) : Nat := 0x83C00 + 0x8 * k
def BPT_CRV_PWR2 (k : Nat) : Nat := 0x83C04 + 0x8 * k
def BPT_CRV_SPD3 (k : Nat) : Nat := 0x83E00 + 0x8 * k
def BPT_CRV_PWR3 (k : Nat) : Nat := 0x83E04 + 0x8 * k
-- HRD page, R299
def HRD_CTL : Nat := 0x84100
def HRD_CMD : Nat := 0x84104
def HRD_STAT : Nat := 0x84108
def HRD_IN0 : Nat := 0x8410C
def HRD_IN1 : Nat := 0x84110
def HRD_IN2 : Nat := 0x84114
def HRD_IN3 : Nat := 0x84118
def HRD_VNOM : Nat := 0x8411C
def HRD_INOM : Nat := 0x84120
def HRD_TS : Nat := 0x84124
def HRD_LV_TH : Nat := 0x84128
def HRD_ZV_TH : Nat := 0x8412C
def HRD_HV_TH : Nat := 0x84130
def HRD_DB : Nat := 0x8413C
def HRD_LIM : Nat := 0x84140
def HRD_PERSIST : Nat := 0x84134
def HRD_KQ : Nat := 0x84138
def HRD_PRE : Nat := 0x84144
def HRD_PJ : Nat := 0x84148
def HRD_RC : Nat := 0x8414C
def HRD_CURVE_CFG : Nat := 0x84150
def HRD_LAST_T (k : Nat) : Nat := 0x84154 + 0x4 * k
def HRD_LAST : Nat := 0x8415C
def HRD_LAST_DUR : Nat := 0x84160
def HRD_STALE_EVALS : Nat := 0x84164
def HRD_LV (k : Nat) : Nat := 0x84200 + 0x4 * k
def HRD_HV (k : Nat) : Nat := 0x84240 + 0x4 * k
-- ISL page, R301
def ISL_CTL : Nat := 0x85100
def ISL_CMD : Nat := 0x85104
def ISL_STAT : Nat := 0x85108
def ISL_IN0 : Nat := 0x8510C
def ISL_IN1 : Nat := 0x85110
def ISL_IN2 : Nat := 0x85114
def ISL_VNOM : Nat := 0x85118
def ISL_TS : Nat := 0x8511C
def ISL_ROC : Nat := 0x85120
def ISL_VS : Nat := 0x85124
def ISL_ACT : Nat := 0x85128
def ISL_RTS_F : Nat := 0x8512C
def ISL_RTS_V : Nat := 0x85130
def ISL_RTS_T : Nat := 0x85134
def ISL_MEAS_F : Nat := 0x85138
def ISL_MEAS_ROC : Nat := 0x8513C
def ISL_MEAS_VS : Nat := 0x85140
def ISL_MEAS_U : Nat := 0x85144
def ISL_STALE_EVALS : Nat := 0x85148
def ISL_FT_LIM (k : Nat) : Nat := 0x85200 + 0x8 * k
def ISL_FT_TIME (k : Nat) : Nat := 0x85204 + 0x8 * k
def ISL_VT_LIM (k : Nat) : Nat := 0x85240 + 0x8 * k
def ISL_VT_TIME (k : Nat) : Nat := 0x85244 + 0x8 * k
-- IMP page, R303
def IMP_CTL : Nat := 0x86100
def IMP_CMD : Nat := 0x86104
def IMP_STAT : Nat := 0x86108
def IMP_IN : Nat := 0x86110
def IMP_RES : Nat := 0x86114
def IMP_INOM : Nat := 0x86118
def IMP_ZTH : Nat := 0x8611C
def IMP_IMIN : Nat := 0x86120
def IMP_AMP : Nat := 0x86124
def IMP_WIN : Nat := 0x86128
def IMP_TS : Nat := 0x8612C
def IMP_ISL_CFG : Nat := 0x86130
def IMP_HERD : Nat := 0x86134
def IMP_GRANT (k : Nat) : Nat := 0x86138 + 0x4 * k
def IMP_GRANT_LATE : Nat := 0x86140
def IMP_SWINDOWS : Nat := 0x86144
def IMP_BIN (k : Nat) : Nat := 0x86180 + 0x4 * k
def IMP_Z_RE (k : Nat) : Nat := 0x86200 + 0x10 * k
def IMP_SZ_RE (k : Nat) : Nat := 0x86300 + 0x10 * k
def IMP_Z_IM (k : Nat) : Nat := 0x86204 + 0x10 * k
def IMP_SZ_IM (k : Nat) : Nat := 0x86304 + 0x10 * k
def IMP_I_MAG (k : Nat) : Nat := 0x86208 + 0x10 * k
def IMP_SI_MAG (k : Nat) : Nat := 0x86308 + 0x10 * k
def IMP_PDK (k : Nat) : Nat := 0x86800 + 0x4 * k
-- PWT page, R349
def PWT_CTL : Nat := 0xC0100
def PWT_SPLIT_LATE : Nat := 0xC0104
def PWT_MINPW_CH : Nat := 0xC0108
def PWT_TB_CFG (k : Nat) : Nat := 0xC0140 + 0x40 * k
def PWT_TB_OFF (k : Nat) : Nat := 0xC0144 + 0x40 * k
def PWT_TB_T0_LO (k : Nat) : Nat := 0xC0148 + 0x40 * k
def PWT_TB_T0_HI (k : Nat) : Nat := 0xC014C + 0x40 * k
def PWT_TB_PER_ACT (k : Nat) : Nat := 0xC0150 + 0x40 * k
def PWT_TB_CNT (k : Nat) : Nat := 0xC0154 + 0x40 * k
def PWT_TB_STAT (k : Nat) : Nat := 0xC0158 + 0x40 * k
def PWT_TB_PCOUNT (k : Nat) : Nat := 0xC015C + 0x40 * k
def PWT_TB_SCNT (k : Nat) : Nat := 0xC0160 + 0x40 * k
def PWT_TB_SPCOUNT (k : Nat) : Nat := 0xC0164 + 0x40 * k
-- PWMC page, R350
def PWMC_CFG (i : Nat) : Nat := 0xC1100 + 0x1000 * i
def PWMC_PERIOD (i : Nat) : Nat := 0xC1104 + 0x1000 * i
def PWMC_CMP_A (i : Nat) : Nat := 0xC1108 + 0x1000 * i
def PWMC_CMP_B (i : Nat) : Nat := 0xC110C + 0x1000 * i
def PWMC_DT (i : Nat) : Nat := 0xC1110 + 0x1000 * i
def PWMC_MINPW (i : Nat) : Nat := 0xC1114 + 0x1000 * i
def PWMC_CMD (i : Nat) : Nat := 0xC1118 + 0x1000 * i
def PWMC_STAT (i : Nat) : Nat := 0xC111C + 0x1000 * i
def PWMC_ACT (i k : Nat) : Nat := 0xC1120 + 0x1000 * i + 0x4 * k
-- TRIP page, R351
def TRIP_CMD : Nat := 0xD1100
def TRIP_FORCE : Nat := 0xD1104
def TRIP_CH_STAT : Nat := 0xD1108
def TRIP_SRC_CFG (k : Nat) : Nat := 0xD1140 + 0x10 * k
def TRIP_SRC_BLANK (k : Nat) : Nat := 0xD1144 + 0x10 * k
def TRIP_SRC_STAT (k : Nat) : Nat := 0xD1148 + 0x10 * k
-- MASK page, R352
def MASK_CFG : Nat := 0xD2100
def MASK_CMD : Nat := 0xD2104
def MASK_STAT : Nat := 0xD2108
def MASK_PAT (k : Nat) : Nat := 0xD2110 + 0x4 * k
-- GDI page, R379
def GDI_CFG (i : Nat) : Nat := 0xE0100 + 0x1000 * i
def GDI_TIMING (i : Nat) : Nat := 0xE0104 + 0x1000 * i
def GDI_RETRY (i : Nat) : Nat := 0xE0108 + 0x1000 * i
def GDI_REFRESH (i : Nat) : Nat := 0xE010C + 0x1000 * i
def GDI_FCMD (i : Nat) : Nat := 0xE0110 + 0x1000 * i
def GDI_CMD (i : Nat) : Nat := 0xE0114 + 0x1000 * i
def GDI_STAT (i : Nat) : Nat := 0xE0118 + 0x1000 * i
def GDI_CNT_0 (i : Nat) : Nat := 0xE011C + 0x1000 * i
def GDI_CNT_1 (i : Nat) : Nat := 0xE0120 + 0x1000 * i
def GDI_CNT_2 (i : Nat) : Nat := 0xE0124 + 0x1000 * i
def GDI_LAST_T (i k : Nat) : Nat := 0xE0128 + 0x1000 * i + 0x4 * k
def GDI_FQ_NEXT (i k : Nat) : Nat := 0xE0130 + 0x1000 * i + 0x4 * k
def GDI_FQ_STAT (i : Nat) : Nat := 0xE0138 + 0x1000 * i
-- MTR page, R410
def MTR_CFG (i : Nat) : Nat := 0x100100 + 0x1000 * i
def MTR_CMD (i : Nat) : Nat := 0x100104 + 0x1000 * i
def MTR_STAT (i : Nat) : Nat := 0x100108 + 0x1000 * i
def MTR_FREQ (i : Nat) : Nat := 0x10010C + 0x1000 * i
def MTR_STALE_CYC (i : Nat) : Nat := 0x100110 + 0x1000 * i
def MTR_CLEARS (i : Nat) : Nat := 0x100114 + 0x1000 * i
def MTR_BOUND_W (i : Nat) : Nat := 0x100118 + 0x1000 * i
def MTR_IN_SRC (i k : Nat) : Nat := 0x100120 + 0x1000 * i + 0x8 * k
def MTR_IN_K (i k : Nat) : Nat := 0x100124 + 0x1000 * i + 0x8 * k
def MTR_E (i k : Nat) : Nat := 0x100150 + 0x1000 * i + 0x4 * k
def MTR_INT (i k : Nat) : Nat := 0x100190 + 0x1000 * i + 0x4 * k
def MTR_SE (i k : Nat) : Nat := 0x1001B0 + 0x1000 * i + 0x4 * k
def MTR_SINT (i k : Nat) : Nat := 0x1001F0 + 0x1000 * i + 0x4 * k
def MTR_QTY (i k : Nat) : Nat := 0x100210 + 0x1000 * i + 0x4 * k
def MTR_SAVE_CFG (i : Nat) : Nat := 0x100300 + 0x1000 * i
def MTR_SAVE_STAT (i : Nat) : Nat := 0x100304 + 0x1000 * i
def MTR_SAVE_SEQ (i : Nat) : Nat := 0x100308 + 0x1000 * i
def MTR_LOSS_WH_0 (i : Nat) : Nat := 0x10030C + 0x1000 * i
def MTR_LOSS_WH_1 (i : Nat) : Nat := 0x100310 + 0x1000 * i
def MTR_LOG_TAIL (i : Nat) : Nat := 0x100314 + 0x1000 * i
def MTR_LOSS_SEC (i : Nat) : Nat := 0x100318 + 0x1000 * i
def MTR_CO_CFG (i : Nat) : Nat := 0x10031C + 0x1000 * i
def MTR_CO_K (i : Nat) : Nat := 0x100320 + 0x1000 * i
def MTR_CO_OFS (i : Nat) : Nat := 0x100324 + 0x1000 * i
def MTR_CO_CHG_LO (i : Nat) : Nat := 0x100328 + 0x1000 * i
def MTR_CO_CHG_HI (i : Nat) : Nat := 0x10032C + 0x1000 * i
def MTR_CO_STAT (i : Nat) : Nat := 0x100330 + 0x1000 * i
def MTR_CO_STOP_SEC (i : Nat) : Nat := 0x100334 + 0x1000 * i
-- PQM page, R411
def PQM_P_CFG (k : Nat) : Nat := 0x102100 + 0x20 * k
def PQM_P_UDIN (k : Nat) : Nat := 0x102104 + 0x20 * k
def PQM_P_TH_A (k : Nat) : Nat := 0x102108 + 0x20 * k
def PQM_P_TH_B (k : Nat) : Nat := 0x10210C + 0x20 * k
def PQM_P_STAT (k : Nat) : Nat := 0x102110 + 0x20 * k
def PQM_SEL : Nat := 0x102180
def PQM_REC (k : Nat) : Nat := 0x102800 + 0x4 * k
-- LANE page, R446
def LANE_CTL (i : Nat) : Nat := 0x140100 + 0x1000 * i
def LANE_CMD (i : Nat) : Nat := 0x140104 + 0x1000 * i
def LANE_STAT (i : Nat) : Nat := 0x140108 + 0x1000 * i
def LANE_TRAIN (i : Nat) : Nat := 0x14010C + 0x1000 * i
def LANE_TRAIN2 (i : Nat) : Nat := 0x140110 + 0x1000 * i
def LANE_TXEQ (i : Nat) : Nat := 0x140114 + 0x1000 * i
def LANE_TXACT (i : Nat) : Nat := 0x140118 + 0x1000 * i
def LANE_LAT (i : Nat) : Nat := 0x14011C + 0x1000 * i
def LANE_RETRY (i : Nat) : Nat := 0x140120 + 0x1000 * i
def LANE_PARTNER (i : Nat) : Nat := 0x140124 + 0x1000 * i
def LANE_CNT_0 (i : Nat) : Nat := 0x140128 + 0x1000 * i
def LANE_CNT_1 (i : Nat) : Nat := 0x14012C + 0x1000 * i
def LANE_PAT_CFG (i : Nat) : Nat := 0x140140 + 0x1000 * i
def LANE_PAT_CMD (i : Nat) : Nat := 0x140144 + 0x1000 * i
def LANE_PAT_STAT (i : Nat) : Nat := 0x140148 + 0x1000 * i
def LANE_PAT_ERR_LO (i : Nat) : Nat := 0x140150 + 0x1000 * i
def LANE_PAT_ERR_HI (i : Nat) : Nat := 0x140154 + 0x1000 * i
def LANE_PAT_BITS_LO (i : Nat) : Nat := 0x140158 + 0x1000 * i
def LANE_PAT_BITS_HI (i : Nat) : Nat := 0x14015C + 0x1000 * i
def LANE_MOD_CFG (i : Nat) : Nat := 0x140180 + 0x1000 * i
def LANE_MOD_STAT (i : Nat) : Nat := 0x140184 + 0x1000 * i
def LANE_MOD_CMD (i : Nat) : Nat := 0x140194 + 0x1000 * i
def LANE_MOD_DATA (i : Nat) : Nat := 0x140198 + 0x1000 * i
def LANE_ES_CTL (i : Nat) : Nat := 0x140800 + 0x1000 * i
def LANE_ES_STAT (i : Nat) : Nat := 0x140804 + 0x1000 * i
def LANE_ES_ERR (i : Nat) : Nat := 0x140808 + 0x1000 * i
def LANE_ES_BITS (i : Nat) : Nat := 0x14080C + 0x1000 * i
def LANE_MOD_DDM0 (i : Nat) : Nat := 0x140188 + 0x1000 * i
def LANE_MOD_DDM1 (i : Nat) : Nat := 0x14018C + 0x1000 * i
def LANE_MOD_DDM2 (i : Nat) : Nat := 0x140190 + 0x1000 * i
-- QUAD page, R444
def QUAD_CTL (i : Nat) : Nat := 0x148100 + 0x1000 * i
def QUAD_STAT (i : Nat) : Nat := 0x148104 + 0x1000 * i
-- ETH page, R447
def ETH_CTL (i : Nat) : Nat := 0x14A100 + 0x1000 * i
def ETH_STAT (i : Nat) : Nat := 0x14A104 + 0x1000 * i
def ETH_MAC_LO (i : Nat) : Nat := 0x14A108 + 0x1000 * i
def ETH_MAC_HI (i : Nat) : Nat := 0x14A10C + 0x1000 * i
def ETH_RX_RING (i : Nat) : Nat := 0x14A110 + 0x1000 * i
def ETH_TX_RING (i : Nat) : Nat := 0x14A114 + 0x1000 * i
def ETH_TX_KICK (i : Nat) : Nat := 0x14A118 + 0x1000 * i
def ETH_RX_FRAMES (i : Nat) : Nat := 0x14A11C + 0x1000 * i
def ETH_TX_FRAMES (i : Nat) : Nat := 0x14A120 + 0x1000 * i
def ETH_RX_ERR (i : Nat) : Nat := 0x14A124 + 0x1000 * i
def ETH_RX_FILT (i : Nat) : Nat := 0x14A128 + 0x1000 * i
-- FAB page, R492
def FAB_CTL : Nat := 0x14C100
def FAB_STAT : Nat := 0x14C104
def FAB_ID : Nat := 0x14C108
def FAB_ADM : Nat := 0x14C10C
def FAB_TIME_CFG : Nat := 0x14C110
def FAB_TIME_DLY : Nat := 0x14C114
def FAB_TIME_STAT : Nat := 0x14C118
def FAB_CYCLE : Nat := 0x14C11C
def FAB_CYC_T0_LO : Nat := 0x14C120
def FAB_CYC_T0_HI : Nat := 0x14C124
def FAB_SEL : Nat := 0x14C128
def FAB_BANK_CMD : Nat := 0x14C12C
def FAB_DROP_INFO : Nat := 0x14C130
def FAB_CNT_0 : Nat := 0x14C134
def FAB_CNT_1 : Nat := 0x14C138
def FAB_TX_A (k : Nat) : Nat := 0x14C400 + 0x8 * k
def FAB_TX_B (k : Nat) : Nat := 0x14C404 + 0x8 * k
def FAB_SUB_A (k : Nat) : Nat := 0x14C600 + 0x8 * k
def FAB_SUB_B (k : Nat) : Nat := 0x14C604 + 0x8 * k
def FAB_RT_R (k : Nat) : Nat := 0x14C800 + 0x4 * k
def FAB_RT_M (k : Nat) : Nat := 0x14CA00 + 0x4 * k
def FAB_RT_DIR : Nat := 0x14CE00
-- SES page, R494
def SES_SEL : Nat := 0x14D100
def SES_CMD : Nat := 0x14D104
def SES_S0_FRESH : Nat := 0x14D108
def SES_OPEN (k : Nat) : Nat := 0x14D120 + 0x4 * k
def SES_RXQ_A : Nat := 0x14D140
def SES_TXQ_A : Nat := 0x14D144
def SES_RSPQ_A : Nat := 0x14D148
def SES_RXQ_B : Nat := 0x14D14C
def SES_TXQ_B : Nat := 0x14D150
def SES_RSPQ_B : Nat := 0x14D154
def SES_KICK (k : Nat) : Nat := 0x14D158 + 0x4 * k
def SES_S_CFG : Nat := 0x14D200
def SES_S_RIGHTS : Nat := 0x14D204
def SES_S_WDOG : Nat := 0x14D208
def SES_S_STAT : Nat := 0x14D20C
def SES_S_TXSEQ_LO : Nat := 0x14D210
def SES_S_TXSEQ_HI : Nat := 0x14D214
def SES_S_RXSEQ_LO : Nat := 0x14D218
def SES_S_RXSEQ_HI : Nat := 0x14D21C
def SES_S_KEY_TX (k : Nat) : Nat := 0x14D220 + 0x4 * k
def SES_S_KEY_RX (k : Nat) : Nat := 0x14D240 + 0x4 * k
def SES_S_SALT : Nat := 0x14D260
def SES_S_CNT : Nat := 0x14D264
-- MUS page, R493
def MUS_CFG : Nat := 0x14E100
def MUS_ID_PREF : Nat := 0x14E104
def MUS_SERIAL_LO : Nat := 0x14E108
def MUS_SERIAL_HI : Nat := 0x14E10C
def MUS_STAT : Nat := 0x14E110
def MUS_BW : Nat := 0x14E114
def MUS_BW_RANK (k : Nat) : Nat := 0x14E118 + 0x4 * k
def MUS_CMD : Nat := 0x14E120
def MUS_REPL_ID : Nat := 0x14E124
def MUS_REPL_SER_LO : Nat := 0x14E128
def MUS_REPL_SER_HI : Nat := 0x14E12C
def MUS_MEMBERS : Nat := 0x14E130
def MUS_QUERY : Nat := 0x14E134
def MUS_QRES_LO : Nat := 0x14E138
def MUS_QRES_HI : Nat := 0x14E13C
-- SHD page, R535
def SHD_STAT : Nat := 0x180100
def SHD_CMD : Nat := 0x180104
def SHD_CAUSE : Nat := 0x180108
def SHD_CAUSES_SEEN : Nat := 0x18010C
def SHD_DEG_SET : Nat := 0x180110
def SHD_GRACE_REM : Nat := 0x180114
def SHD_SEALED_CRC : Nat := 0x180118
def SHD_CRED_STAT : Nat := 0x18011C
def SHD_CRED_ID : Nat := 0x180120
def SHD_CRED_PTR : Nat := 0x180124
def SHD_LOG_STAT : Nat := 0x180128
def SHD_LOG_SEQ : Nat := 0x18012C
def SHD_ST_STAT : Nat := 0x180130
def SHD_DEMAND_XMD : Nat := 0x180134
def SHD_DEMAND_AG : Nat := 0x180138
def SHD_CHAL (k : Nat) : Nat := 0x180140 + 0x4 * k
def SHD_LOG_HEAD (k : Nat) : Nat := 0x180160 + 0x4 * k
-- SIN page, R536
def SIN_STAT : Nat := 0x181100
def SIN_STATE : Nat := 0x181104
def SIN_DEMANDS (k : Nat) : Nat := 0x181108 + 0x4 * k
-- SOUT page, R536
def SOUT_REQ : Nat := 0x182100
def SOUT_STAT : Nat := 0x182104
def SOUT_FAIL : Nat := 0x182108
def SOUT_RB : Nat := 0x18210C
def SOUT_CMD : Nat := 0x182110
-- SCOM page, R536
def SCOM_TX_DATA (k : Nat) : Nat := 0x183100 + 0x4 * k
def SCOM_RX_DATA (k : Nat) : Nat := 0x183120 + 0x4 * k
def SCOM_RX_STAT (k : Nat) : Nat := 0x183140 + 0x4 * k
def SCOM_ERR_0 : Nat := 0x183160
def SCOM_ERR_1 : Nat := 0x183164
-- SCFG page, R537
def SCFG_GEN : Nat := 0x184100
def SCFG_SBT_MASK : Nat := 0x184104
def SCFG_SCOM_SEED : Nat := 0x184108
def SCFG_LOG_CFG : Nat := 0x18410C
def SCFG_SIN (k : Nat) : Nat := 0x184120 + 0x4 * k
def SCFG_SO_CFG (k : Nat) : Nat := 0x184140 + 0x8 * k
def SCFG_SO_MAP (k : Nat) : Nat := 0x184144 + 0x8 * k
def SCFG_TX_A (k : Nat) : Nat := 0x184180 + 0x8 * k
def SCFG_TX_B (k : Nat) : Nat := 0x184184 + 0x8 * k
def SCFG_RX_A (k : Nat) : Nat := 0x1841C0 + 0x8 * k
def SCFG_RX_B (k : Nat) : Nat := 0x1841C4 + 0x8 * k
-- TWN page, R575
def TWN_STAT (i : Nat) : Nat := 0x1C0100 + 0x1000 * i
def TWN_STAMP (i k : Nat) : Nat := 0x1C0104 + 0x1000 * i + 0x4 * k
def TWN_DEEP (i k : Nat) : Nat := 0x1C010C + 0x1000 * i + 0x4 * k
def TWN_WARM_VEC (i k : Nat) : Nat := 0x1C0114 + 0x1000 * i + 0x4 * k
def TWN_SAVE (i : Nat) : Nat := 0x1C011C + 0x1000 * i
def TWN_PRIV_S (i : Nat) : Nat := 0x1C0120 + 0x1000 * i
def TWN_PRIV_D (i : Nat) : Nat := 0x1C0124 + 0x1000 * i
def TWN_CNT_0 (i : Nat) : Nat := 0x1C0128 + 0x1000 * i
def TWN_CNT_1 (i : Nat) : Nat := 0x1C012C + 0x1000 * i
def TWN_LAST_T (i k : Nat) : Nat := 0x1C0130 + 0x1000 * i + 0x4 * k
-- DCU page, R576
def DCU_STAT : Nat := 0x1C2100
def DCU_MISM : Nat := 0x1C2104
def DCU_MISM_STAMP (k : Nat) : Nat := 0x1C2108 + 0x4 * k
def DCU_MISM_T (k : Nat) : Nat := 0x1C2110 + 0x4 * k
def DCU_CNT : Nat := 0x1C2118
def DCU_CMD : Nat := 0x1C211C
-- LAP page, R577
def LAP_CTL : Nat := 0x1C3100
def LAP_CFG : Nat := 0x1C3104
def LAP_CMD : Nat := 0x1C3108
def LAP_ARM : Nat := 0x1C310C
def LAP_TRIG (k : Nat) : Nat := 0x1C3110 + 0x4 * k
def LAP_STAT : Nat := 0x1C3120
def LAP_HEAD : Nat := 0x1C3124
def LAP_RST_HEAD : Nat := 0x1C3128
def LAP_ANCHOR : Nat := 0x1C312C
def LAP_TWA : Nat := 0x1C3130
def LAP_FREEZE_T (k : Nat) : Nat := 0x1C3134 + 0x4 * k
def LAP_REPLAY_CFG : Nat := 0x1C313C
def LAP_STOP : Nat := 0x1C3140
def LAP_BREAK (k : Nat) : Nat := 0x1C3144 + 0x4 * k
def LAP_DIV : Nat := 0x1C314C
def LAP_RING_BASE : Nat := 0x1C3150
def LAP_RATE : Nat := 0x1C3154
def LAP_TWB : Nat := 0x1C3158
-- VAUX page, R613
def VAUX_CFG : Nat := 0x200100
def VAUX_STAT : Nat := 0x200104
-- VCR page, R614
def VCR_CTL : Nat := 0x201100
def VCR_PH_CFG : Nat := 0x201104
def VCR_THR : Nat := 0x201108
def VCR_STAT : Nat := 0x20110C
def VCR_PH_STAT (k : Nat) : Nat := 0x201110 + 0x4 * k
def VCR_CNT_0 : Nat := 0x201120
def VCR_CNT_1 : Nat := 0x201124
-- SURV page, R615
def SURV_STAT : Nat := 0x202100
def SURV_CFG : Nat := 0x202104
def SURV_CLIM : Nat := 0x202108
def SURV_BCN : Nat := 0x20210C
def SURV_SRC_ID : Nat := 0x202110
def SURV_RES : Nat := 0x202114
def SURV_CMD : Nat := 0x202118
def SURV_CLIM_HEAD : Nat := 0x20211C
def SURV_RXBUF (k : Nat) : Nat := 0x202120 + 0x4 * k
def SURV_RXSTAT : Nat := 0x202130
def SURV_CREC (k : Nat) : Nat := 0x202400 + 0x4 * k
-- HRV page, R616
def HRV_CFG : Nat := 0x203100
def HRV_STAT : Nat := 0x203104
def HRV_VOC : Nat := 0x203108
def HRV_E (k : Nat) : Nat := 0x20310C + 0x4 * k
-- STORE page, R617
def STORE_CFG : Nat := 0x204100
def STORE_THR0 : Nat := 0x204104
def STORE_THR1 : Nat := 0x204108
def STORE_THR2 : Nat := 0x20410C
def STORE_CEQ : Nat := 0x204110
def STORE_NTC : Nat := 0x204114
def STORE_STAT : Nat := 0x204118
def STORE_GAUGE : Nat := 0x20411C
def STORE_STAT2 : Nat := 0x204120
end R

namespace F
-- SYS page, R40
def SYS_DEV_ID_PART : Fld := ⟨31, 16⟩
def SYS_DEV_ID_VARIANT : Fld := ⟨15, 8⟩
def SYS_DEV_ID_STEPPING : Fld := ⟨3, 0⟩
def SYS_STATE_REQ_RESULT : Fld := ⟨15, 12⟩
def SYS_STATE_PREV : Fld := ⟨7, 4⟩
def SYS_STATE_STATE : Fld := ⟨3, 0⟩
def SYS_RST_CAUSE_TWIN_B_RESTARTS : Fld := ⟨23, 16⟩
def SYS_RST_CAUSE_TWIN_A_RESTARTS : Fld := ⟨15, 8⟩
def SYS_RST_CAUSE_FABRIC : Fld := ⟨4, 4⟩
def SYS_RST_CAUSE_HOST : Fld := ⟨3, 3⟩
def SYS_RST_CAUSE_FIRMWARE : Fld := ⟨2, 2⟩
def SYS_RST_CAUSE_PIN : Fld := ⟨1, 1⟩
def SYS_RST_CAUSE_POR : Fld := ⟨0, 0⟩
def SYS_RST_CTL_KEY : Fld := ⟨31, 16⟩
def SYS_RST_CTL_DEVICE : Fld := ⟨2, 2⟩
def SYS_RST_CTL_TWIN_B : Fld := ⟨1, 1⟩
def SYS_RST_CTL_TWIN_A : Fld := ⟨0, 0⟩
def SYS_STATE_REQ_KEY : Fld := ⟨31, 16⟩
def SYS_STATE_REQ_REQ : Fld := ⟨3, 0⟩
def SYS_SAFE_CAUSE_COUNT : Fld := ⟨23, 16⟩
def SYS_SAFE_CAUSE_ORIGIN : Fld := ⟨15, 8⟩
def SYS_SAFE_CAUSE_CAUSE : Fld := ⟨7, 0⟩
-- TXN page, R95
def TXN_CMD_KEY : Fld := ⟨31, 16⟩
def TXN_CMD_MODE : Fld := ⟨9, 8⟩
def TXN_CMD_OP : Fld := ⟨3, 0⟩
def TXN_EVT_ARG_TIMEOUT_US : Fld := ⟨31, 16⟩
def TXN_EVT_ARG_EVENT : Fld := ⟨7, 0⟩
def TXN_HPARM_TIMEOUT_MS : Fld := ⟨31, 16⟩
def TXN_HPARM_GUARD_US : Fld := ⟨15, 0⟩
def TXN_HDEST_AUTO : Fld := ⟨31, 31⟩
def TXN_HDEST_DEST : Fld := ⟨14, 0⟩
def TXN_HEXPECT_COUNT : Fld := ⟨14, 0⟩
def TXN_CUR_RESULT : Fld := ⟨31, 28⟩
def TXN_CUR_STATE : Fld := ⟨27, 24⟩
def TXN_CUR_CTX : Fld := ⟨23, 20⟩
def TXN_CUR_STAGED : Fld := ⟨10, 0⟩
def TXN_HTALLY_NO : Fld := ⟨30, 16⟩
def TXN_HTALLY_YES : Fld := ⟨14, 0⟩
def TXN_CTXS_INIT : Fld := ⟨31, 28⟩
def TXN_CTXS_STATE : Fld := ⟨27, 24⟩
def TXN_CTXS_RESULT : Fld := ⟨23, 20⟩
def TXN_CTXS_STAGED : Fld := ⟨10, 0⟩
def TXN_DOOM_INFO_CTX : Fld := ⟨31, 28⟩
def TXN_DOOM_INFO_CAUSE : Fld := ⟨27, 24⟩
def TXN_DOOM_INFO_ADDR : Fld := ⟨21, 0⟩
def TXN_POOL_PEAK : Fld := ⟨28, 16⟩
def TXN_POOL_FREE : Fld := ⟨12, 0⟩
def TXN_ABORT_KEY : Fld := ⟨31, 16⟩
def TXN_ABORT_CTX : Fld := ⟨3, 0⟩
def TXN_HLAST_RES_RES : Fld := ⟨3, 0⟩
-- EVR page, R97
def EVR_SRC_FAB_SES : Fld := ⟨31, 24⟩
def EVR_SRC_PLANE : Fld := ⟨17, 17⟩
def EVR_SRC_FAB : Fld := ⟨16, 16⟩
def EVR_SRC_SHD : Fld := ⟨15, 15⟩
def EVR_SRC_STR_RG : Fld := ⟨14, 12⟩
def EVR_SRC_STR : Fld := ⟨11, 11⟩
def EVR_SRC_TWB : Fld := ⟨10, 10⟩
def EVR_SRC_TWA : Fld := ⟨9, 9⟩
def EVR_SRC_PRIO : Fld := ⟨3, 0⟩
def EVR_TOP_VALID : Fld := ⟨31, 31⟩
def EVR_TOP_PRIO : Fld := ⟨11, 8⟩
def EVR_TOP_SRC : Fld := ⟨7, 0⟩
def EVR_ACK_SRC : Fld := ⟨7, 0⟩
def EVR_THRESH_MIN : Fld := ⟨3, 0⟩
def EVR_OVR_COUNT : Fld := ⟨31, 16⟩
def EVR_OVR_SRC : Fld := ⟨7, 0⟩
-- CLK page, R142
def CLK_CTL_PSLEW : Fld := ⟨23, 20⟩
def CLK_CTL_FALLBACK : Fld := ⟨11, 9⟩
def CLK_CTL_AUTO_HOP : Fld := ⟨8, 8⟩
def CLK_CTL_PHASE_MODE : Fld := ⟨1, 1⟩
def CLK_CTL_REFIN_50 : Fld := ⟨0, 0⟩
def CLK_HOP_CMD_KEY : Fld := ⟨31, 16⟩
def CLK_HOP_CMD_SLOT : Fld := ⟨2, 0⟩
def CLK_STAT_LOCK : Fld := ⟨31, 31⟩
def CLK_STAT_HOLDOVER : Fld := ⟨30, 30⟩
def CLK_STAT_HOPPING : Fld := ⟨29, 29⟩
def CLK_STAT_ACTIVE : Fld := ⟨26, 24⟩
def CLK_STAT_PHASE_ERR : Fld := ⟨23, 12⟩
def CLK_STAT_BAND : Fld := ⟨11, 0⟩
def CLK_SLOT_BAND_VALID : Fld := ⟨31, 31⟩
def CLK_SLOT_BAND : Fld := ⟨23, 12⟩
def CLK_SLOT_LANE : Fld := ⟨6, 4⟩
def CLK_SLOT_SRC : Fld := ⟨2, 0⟩
def CLK_OUT_CFG_OFF_STATE : Fld := ⟨3, 3⟩
def CLK_OUT_CFG_FMT : Fld := ⟨2, 1⟩
def CLK_OUT_CFG_EN : Fld := ⟨0, 0⟩
def CLK_OUT_DIV_F_HI : Fld := ⟨31, 24⟩
def CLK_OUT_DIV_N : Fld := ⟨23, 12⟩
def CLK_OUT_DIV_F_LO : Fld := ⟨11, 0⟩
def CLK_OUT_SSC_F_MID : Fld := ⟨31, 28⟩
def CLK_OUT_SSC_RATE : Fld := ⟨15, 10⟩
def CLK_OUT_SSC_DEPTH : Fld := ⟨9, 5⟩
def CLK_OUT_SSC_CENTRE : Fld := ⟨0, 0⟩
-- HTM page, R143
def HTM_CTL_SLEW_MAX : Fld := ⟨15, 4⟩
def HTM_CTL_PPS_POL : Fld := ⟨3, 3⟩
def HTM_CTL_DISC_SRC : Fld := ⟨2, 0⟩
def HTM_STEP_CMD_KEY : Fld := ⟨31, 16⟩
def HTM_STEP_CMD_GO : Fld := ⟨0, 0⟩
def HTM_STAT_VALID : Fld := ⟨31, 31⟩
def HTM_STAT_HOLDOVER : Fld := ⟨30, 30⟩
def HTM_STAT_BELLWETHER : Fld := ⟨29, 29⟩
def HTM_STAT_STEP_REFUSED : Fld := ⟨28, 28⟩
def HTM_STAT_SRC : Fld := ⟨27, 24⟩
def HTM_STAT_OFFSET : Fld := ⟨23, 0⟩
def HTM_PPS_CFG_EN : Fld := ⟨31, 31⟩
def HTM_PPS_CFG_POL : Fld := ⟨30, 30⟩
def HTM_PPS_CFG_WIDTH_US : Fld := ⟨18, 0⟩
def HTM_CAP_CFG_FULL : Fld := ⟨31, 31⟩
def HTM_CAP_CFG_LOST : Fld := ⟨30, 30⟩
def HTM_CAP_CFG_EN : Fld := ⟨9, 9⟩
def HTM_CAP_CFG_PPS : Fld := ⟨8, 8⟩
def HTM_CAP_CFG_SRC : Fld := ⟨7, 0⟩
def HTM_SNAP_FRAC_FRAC : Fld := ⟨15, 0⟩
-- RTC page, R144
def RTC_SEC_HI_SUB : Fld := ⟨30, 16⟩
def RTC_SEC_HI_SEC_X : Fld := ⟨7, 0⟩
def RTC_SET_HI_SUB : Fld := ⟨30, 16⟩
def RTC_SET_HI_SEC_X : Fld := ⟨7, 0⟩
def RTC_CMD_KEY : Fld := ⟨31, 16⟩
def RTC_CMD_CAL_RC : Fld := ⟨1, 1⟩
def RTC_CMD_SET : Fld := ⟨0, 0⟩
def RTC_CTL_DISC : Fld := ⟨3, 3⟩
def RTC_CTL_TCOMP : Fld := ⟨2, 2⟩
def RTC_CTL_MODE : Fld := ⟨1, 0⟩
def RTC_STAT_BUSY : Fld := ⟨31, 31⟩
def RTC_STAT_ON_RC : Fld := ⟨30, 30⟩
def RTC_STAT_XTAL_FAIL : Fld := ⟨29, 29⟩
def RTC_STAT_DISCIPLINED : Fld := ⟨28, 28⟩
def RTC_STAT_TEMP : Fld := ⟨7, 0⟩
def RTC_UTC_OFF_TAI_UTC : Fld := ⟨15, 0⟩
def RTC_ALARM_HI_EN : Fld := ⟨31, 31⟩
def RTC_ALARM_HI_SEC_X : Fld := ⟨7, 0⟩
def RTC_TCOMP_TEMP : Fld := ⟨31, 24⟩
def RTC_TCOMP_CORR : Fld := ⟨15, 0⟩
def RTC_TRIM_AGING : Fld := ⟨31, 16⟩
def RTC_TRIM_RC : Fld := ⟨9, 0⟩
-- HPT page, R644
def HPT_CTL_WR_EN : Fld := ⟨31, 31⟩
def HPT_CTL_MEM_EN : Fld := ⟨30, 30⟩
def HPT_STAT_PORT : Fld := ⟨31, 31⟩
def HPT_STAT_PQ_EMPTY : Fld := ⟨30, 30⟩
def HPT_STAT_PQ_FULL : Fld := ⟨29, 29⟩
def HPT_STAT_WAIT_SEEN : Fld := ⟨28, 28⟩
def HPT_STAT_PQ_FILL : Fld := ⟨22, 16⟩
def HPT_STAT_DROPPED : Fld := ⟨15, 0⟩
def HPT_MEM_ADDR_SPACE : Fld := ⟨31, 31⟩
def HPT_MEM_ADDR_OFS : Fld := ⟨28, 0⟩
def HPT_MEM_CMD_KEY : Fld := ⟨31, 16⟩
def HPT_MEM_CMD_COUNT : Fld := ⟨7, 4⟩
def HPT_MEM_CMD_OP : Fld := ⟨3, 0⟩
def HPT_MEM_STAT_BUSY : Fld := ⟨31, 31⟩
def HPT_MEM_STAT_DONE : Fld := ⟨30, 30⟩
def HPT_MEM_STAT_DENIED : Fld := ⟨29, 29⟩
-- BOOT page, R645
def BOOT_STAT_SOURCE : Fld := ⟨31, 30⟩
def BOOT_STAT_MODE : Fld := ⟨29, 28⟩
def BOOT_STAT_STRAP_BAD : Fld := ⟨27, 27⟩
def BOOT_STAT_PWM_READY : Fld := ⟨26, 26⟩
def BOOT_STAT_ALIVE_A : Fld := ⟨25, 25⟩
def BOOT_STAT_ALIVE_B : Fld := ⟨24, 24⟩
def BOOT_STAT_TRIAL : Fld := ⟨23, 23⟩
def BOOT_STAT_UNSIGNED : Fld := ⟨22, 22⟩
def BOOT_STAT_CODE_A : Fld := ⟨21, 20⟩
def BOOT_STAT_CODE_B : Fld := ⟨19, 18⟩
def BOOT_STAT_LC : Fld := ⟨17, 16⟩
def BOOT_STAT_FS_COUNT : Fld := ⟨3, 0⟩
def BOOT_NEXT_PREF : Fld := ⟨31, 31⟩
def BOOT_NEXT_TRY_EN : Fld := ⟨30, 30⟩
def BOOT_NEXT_TRY : Fld := ⟨29, 29⟩
def BOOT_NEXT_FS_TOTAL : Fld := ⟨15, 0⟩
def BOOT_CMD_KEY : Fld := ⟨31, 16⟩
def BOOT_CMD_OP : Fld := ⟨3, 0⟩
def BOOT_LIVE_ARM : Fld := ⟨31, 31⟩
def BOOT_LIVE_IMAGE : Fld := ⟨30, 30⟩
def BOOT_LIVE_BUSY : Fld := ⟨29, 29⟩
def BOOT_LIVE_FAIL : Fld := ⟨27, 24⟩
def BOOT_TIMES_PWMRDY : Fld := ⟨31, 16⟩
def BOOT_TIMES_TWINS : Fld := ⟨15, 0⟩
def BOOT_FL_CTL_KEY : Fld := ⟨31, 16⟩
def BOOT_FL_CTL_OPCODE : Fld := ⟨15, 8⟩
def BOOT_FL_CTL_CS : Fld := ⟨7, 7⟩
def BOOT_FL_CTL_ADDR : Fld := ⟨6, 6⟩
def BOOT_FL_CTL_WRITE : Fld := ⟨5, 5⟩
def BOOT_FL_BUF_LEN : Fld := ⟨31, 20⟩
def BOOT_FL_BUF_OFS8 : Fld := ⟨19, 0⟩
def BOOT_FL_STAT_BUSY : Fld := ⟨31, 31⟩
def BOOT_FL_STAT_DONE : Fld := ⟨30, 30⟩
def BOOT_FL_STAT_DENIED : Fld := ⟨29, 29⟩
def BOOT_HANDOVER_OFS8 : Fld := ⟨19, 0⟩
def BOOT_HOST_IMG_OFS8 : Fld := ⟨19, 0⟩
def BOOT_VER_VALID : Fld := ⟨31, 31⟩
def BOOT_VER_SECVER : Fld := ⟨30, 24⟩
def BOOT_VER_BUILD : Fld := ⟨23, 0⟩
def BOOT_FS_IMAGE : Fld := ⟨31, 30⟩
def BOOT_FS_CAUSE : Fld := ⟨27, 24⟩
-- SEC page, R647
def SEC_CMD_KEY : Fld := ⟨31, 16⟩
def SEC_CMD_ARG : Fld := ⟨15, 8⟩
def SEC_CMD_OP : Fld := ⟨3, 0⟩
def SEC_STAT_BUSY : Fld := ⟨31, 31⟩
def SEC_STAT_DONE : Fld := ⟨30, 30⟩
def SEC_STAT_FAIL : Fld := ⟨27, 24⟩
def SEC_STAT_ARB_COUNT : Fld := ⟨6, 0⟩
def SEC_PTR_OFS8 : Fld := ⟨19, 0⟩
def SEC_DBG_OPEN : Fld := ⟨31, 31⟩
def SEC_DBG_GRANTS : Fld := ⟨15, 0⟩
-- OTP page, R649
def OTP_CMD_KEY : Fld := ⟨31, 16⟩
def OTP_CMD_GO : Fld := ⟨15, 15⟩
def OTP_CMD_WORD : Fld := ⟨8, 0⟩
def OTP_STAT_BUSY : Fld := ⟨31, 31⟩
def OTP_STAT_DONE : Fld := ⟨30, 30⟩
def OTP_STAT_DENIED : Fld := ⟨29, 29⟩
def OTP_STAT_VERIFY_FAIL : Fld := ⟨28, 28⟩
-- MEM page, R675
def MEM_ECC_SRAM_CE : Fld := ⟨31, 16⟩
def MEM_ECC_SRAM_UE : Fld := ⟨15, 0⟩
def MEM_ECC_DRAM_CE : Fld := ⟨31, 16⟩
def MEM_ECC_DRAM_UE : Fld := ⟨15, 0⟩
def MEM_UE_ADDR_SPACE : Fld := ⟨31, 31⟩
def MEM_UE_ADDR_OFS : Fld := ⟨28, 0⟩
-- AFE page, R190
def AFE_CTL_ROT_CAL : Fld := ⟨1, 1⟩
def AFE_CTL_LP : Fld := ⟨0, 0⟩
def AFE_CMD_KEY : Fld := ⟨31, 16⟩
def AFE_CMD_SPARE : Fld := ⟨15, 12⟩
def AFE_CMD_LCH : Fld := ⟨11, 8⟩
def AFE_CMD_ROTATE : Fld := ⟨2, 2⟩
def AFE_CMD_CAL_1 : Fld := ⟨1, 1⟩
def AFE_CMD_CAL_0 : Fld := ⟨0, 0⟩
def AFE_STAT_ROT_BUSY : Fld := ⟨31, 31⟩
def AFE_STAT_CAL_BUSY_1 : Fld := ⟨30, 30⟩
def AFE_STAT_CAL_BUSY_0 : Fld := ⟨29, 29⟩
def AFE_STAT_ROT_ABANDONED : Fld := ⟨28, 28⟩
def AFE_STAT_CAL_VALID : Fld := ⟨27, 16⟩
def AFE_STAT_SPARE : Fld := ⟨11, 0⟩
def AFE_DUET_TOL : Fld := ⟨31, 16⟩
def AFE_DUET_PERSIST : Fld := ⟨3, 0⟩
def AFE_LCH_EXP : Fld := ⟨29, 24⟩
def AFE_LCH_DUET : Fld := ⟨16, 16⟩
def AFE_LCH_MOD : Fld := ⟨3, 0⟩
def AFE_RES_VALUE : Fld := ⟨31, 8⟩
def AFE_RES_SAT : Fld := ⟨7, 7⟩
def AFE_RES_DUET_FAIL : Fld := ⟨6, 6⟩
def AFE_RES_COUNT : Fld := ⟨5, 0⟩
def AFE_CAL_OFS_OFS : Fld := ⟨23, 0⟩
def AFE_CAL_GAIN0_GAIN : Fld := ⟨23, 0⟩
def AFE_CAL_GAIN1_GAIN : Fld := ⟨23, 0⟩
def AFE_CAL_GAIN2_GAIN : Fld := ⟨23, 0⟩
def AFE_CAL_GAIN3_GAIN : Fld := ⟨23, 0⟩
def AFE_CAL_GAIN4_GAIN : Fld := ⟨23, 0⟩
-- SEQ page, R191
def SEQ_CTL_EN_1 : Fld := ⟨1, 1⟩
def SEQ_CTL_EN_0 : Fld := ⟨0, 0⟩
def SEQ_STAT_IDLE : Fld := ⟨25, 16⟩
def SEQ_POS_POS : Fld := ⟨29, 0⟩
def SEQ_ERR_ENTRY : Fld := ⟨22, 16⟩
def SEQ_ERR_CAUSE : Fld := ⟨3, 0⟩
def SEQ_E_LO0_D1 : Fld := ⟨31, 16⟩
def SEQ_E_LO0_VALID : Fld := ⟨15, 15⟩
def SEQ_E_LO0_LCH : Fld := ⟨14, 12⟩
def SEQ_E_LO0_FILT : Fld := ⟨11, 11⟩
def SEQ_E_LO0_PGA : Fld := ⟨10, 8⟩
def SEQ_E_LO0_INP : Fld := ⟨4, 0⟩
def SEQ_E_HI0_SLOT : Fld := ⟨31, 22⟩
def SEQ_E_HI0_SLOT_EN : Fld := ⟨21, 21⟩
def SEQ_E_HI0_SETTLE_US : Fld := ⟨20, 11⟩
def SEQ_E_HI0_REPEAT : Fld := ⟨10, 0⟩
def SEQ_E_LO1_D1 : Fld := ⟨31, 16⟩
def SEQ_E_LO1_VALID : Fld := ⟨15, 15⟩
def SEQ_E_LO1_LCH : Fld := ⟨14, 12⟩
def SEQ_E_LO1_FILT : Fld := ⟨11, 11⟩
def SEQ_E_LO1_PGA : Fld := ⟨10, 8⟩
def SEQ_E_LO1_INP : Fld := ⟨4, 0⟩
def SEQ_E_HI1_SLOT : Fld := ⟨31, 22⟩
def SEQ_E_HI1_SLOT_EN : Fld := ⟨21, 21⟩
def SEQ_E_HI1_SETTLE_US : Fld := ⟨20, 11⟩
def SEQ_E_HI1_REPEAT : Fld := ⟨10, 0⟩
-- XMD page, R192
def XMD_CLK_CFG_EN_3 : Fld := ⟨15, 15⟩
def XMD_CLK_CFG_FREQ_3 : Fld := ⟨13, 12⟩
def XMD_CLK_CFG_EN_2 : Fld := ⟨11, 11⟩
def XMD_CLK_CFG_FREQ_2 : Fld := ⟨9, 8⟩
def XMD_CLK_CFG_EN_1 : Fld := ⟨7, 7⟩
def XMD_CLK_CFG_FREQ_1 : Fld := ⟨5, 4⟩
def XMD_CLK_CFG_EN_0 : Fld := ⟨3, 3⟩
def XMD_CLK_CFG_FREQ_0 : Fld := ⟨1, 0⟩
def XMD_CH_IN_MAN_MBPS : Fld := ⟨22, 16⟩
def XMD_CH_IN_DLY : Fld := ⟨15, 11⟩
def XMD_CH_IN_EDGE : Fld := ⟨10, 10⟩
def XMD_CH_IN_XMC : Fld := ⟨9, 8⟩
def XMD_CH_IN_INV : Fld := ⟨2, 2⟩
def XMD_CH_IN_MODE : Fld := ⟨1, 0⟩
def XMD_CH_CF_SLOT : Fld := ⟨31, 22⟩
def XMD_CH_CF_SLOT_EN : Fld := ⟨21, 21⟩
def XMD_CH_CF_EXP : Fld := ⟨20, 15⟩
def XMD_CH_CF_SYNC_EN : Fld := ⟨14, 14⟩
def XMD_CH_CF_TB : Fld := ⟨13, 12⟩
def XMD_CH_CF_OSR : Fld := ⟨8, 0⟩
def XMD_CH_SDLY_SDLY : Fld := ⟨15, 0⟩
def XMD_CH_PF_SHD : Fld := ⟨31, 31⟩
def XMD_CH_PF_PERSIST : Fld := ⟨11, 9⟩
def XMD_CH_PF_ORDER : Fld := ⟨8, 8⟩
def XMD_CH_PF_OSR : Fld := ⟨5, 0⟩
def XMD_CH_LIM_LIM_HI : Fld := ⟨31, 16⟩
def XMD_CH_LIM_LIM_LO : Fld := ⟨15, 0⟩
def XMD_CH_RES_VALUE : Fld := ⟨31, 8⟩
def XMD_CH_RES_SAT : Fld := ⟨7, 7⟩
def XMD_CH_RES_STALE : Fld := ⟨6, 6⟩
def XMD_CH_RES_COUNT : Fld := ⟨5, 0⟩
def XMD_CH_STAT_MAN_LOCK : Fld := ⟨5, 5⟩
def XMD_CH_STAT_LOS : Fld := ⟨4, 4⟩
def XMD_CH_STAT_LOS_SEEN : Fld := ⟨3, 3⟩
def XMD_CH_STAT_HI_SEEN : Fld := ⟨2, 2⟩
def XMD_CH_STAT_LO_SEEN : Fld := ⟨1, 1⟩
def XMD_CH_STAT_RESYNC_SEEN : Fld := ⟨0, 0⟩
-- ACMP page, R193
def ACMP_CH_CFG_SHD : Fld := ⟨31, 31⟩
def ACMP_CH_CFG_MODE : Fld := ⟨30, 28⟩
def ACMP_CH_CFG_PU_STATE : Fld := ⟨27, 27⟩
def ACMP_CH_CFG_TRIP_HI_EN : Fld := ⟨26, 26⟩
def ACMP_CH_CFG_TRIP_LO_EN : Fld := ⟨25, 25⟩
def ACMP_CH_CFG_HYST : Fld := ⟨24, 21⟩
def ACMP_CH_TH_TH_HI : Fld := ⟨25, 16⟩
def ACMP_CH_TH_TH_LO : Fld := ⟨9, 0⟩
def ACMP_CH_BLANK_EN : Fld := ⟨31, 31⟩
def ACMP_CH_BLANK_CH : Fld := ⟨27, 24⟩
def ACMP_CH_BLANK_EDGE : Fld := ⟨22, 20⟩
def ACMP_CH_BLANK_LEN : Fld := ⟨11, 0⟩
def ACMP_CH_STAT_TRIPPED : Fld := ⟨31, 31⟩
def ACMP_CH_STAT_ABOVE : Fld := ⟨30, 30⟩
def ACMP_CH_STAT_BELOW : Fld := ⟨29, 29⟩
def ACMP_CH_STAT_IN_BLANK : Fld := ⟨28, 28⟩
def ACMP_CH_STAT_ST_FAIL : Fld := ⟨3, 3⟩
def ACMP_CH_STAT_ST_PASS : Fld := ⟨2, 2⟩
def ACMP_CH_STAT_TRIP_SEEN : Fld := ⟨1, 1⟩
def ACMP_CH_STAT_SAMPLED_CHG : Fld := ⟨0, 0⟩
def ACMP_CMD_KEY : Fld := ⟨31, 16⟩
def ACMP_CMD_SELFTEST : Fld := ⟨15, 0⟩
def ACMP_SAMPLE_CFG_WAKE : Fld := ⟨31, 16⟩
def ACMP_SAMPLE_CFG_PERIOD : Fld := ⟨7, 0⟩
-- STR page, R243
def STR_CTL_DONE_MASK : Fld := ⟨23, 16⟩
def STR_CTL_DUP : Fld := ⟨8, 8⟩
def STR_CTL_RG_EN : Fld := ⟨7, 0⟩
def STR_STAT_OVER_BUDGET : Fld := ⟨31, 31⟩
def STR_STAT_DUP_ACTIVE : Fld := ⟨30, 30⟩
def STR_STAT_GCRC_BUSY : Fld := ⟨29, 29⟩
def STR_STAT_TCRC_BUSY : Fld := ⟨28, 28⟩
def STR_STAT_PEND : Fld := ⟨23, 16⟩
def STR_STAT_BUSY : Fld := ⟨7, 0⟩
def STR_SWTRIG_TRIG : Fld := ⟨7, 0⟩
def STR_CMD_KEY : Fld := ⟨31, 16⟩
def STR_CMD_CLR_STATS : Fld := ⟨0, 0⟩
def STR_SLOTSEL_HALF : Fld := ⟨0, 0⟩
def STR_ERR_SRC : Fld := ⟨25, 16⟩
def STR_ERR_CAUSE : Fld := ⟨3, 0⟩
def STR_ECC_CE : Fld := ⟨31, 16⟩
def STR_ECC_UE : Fld := ⟨15, 0⟩
def STR_RG_CFG_MODE : Fld := ⟨31, 29⟩
def STR_RG_CFG_BANK : Fld := ⟨28, 28⟩
def STR_RG_CFG_DIV : Fld := ⟨23, 16⟩
def STR_RG_CFG_SRC_RG : Fld := ⟨10, 8⟩
def STR_RG_TSL0_EN_B : Fld := ⟨31, 31⟩
def STR_RG_TSL0_SLOT_B : Fld := ⟨25, 16⟩
def STR_RG_TSL0_EN_A : Fld := ⟨15, 15⟩
def STR_RG_TSL0_SLOT_A : Fld := ⟨9, 0⟩
def STR_RG_TSL1_EN_D : Fld := ⟨31, 31⟩
def STR_RG_TSL1_SLOT_D : Fld := ⟨25, 16⟩
def STR_RG_TSL1_EN_C : Fld := ⟨15, 15⟩
def STR_RG_TSL1_SLOT_C : Fld := ⟨9, 0⟩
def STR_RG_PER_WIN : Fld := ⟨31, 24⟩
def STR_RG_PER_PERIOD : Fld := ⟨23, 0⟩
def STR_RG_OVR_OVERRUN : Fld := ⟨31, 16⟩
def STR_RG_OVR_DROP : Fld := ⟨15, 0⟩
def STR_RG_LAT_MAX : Fld := ⟨31, 16⟩
def STR_RG_LAT_LAST : Fld := ⟨15, 0⟩
def STR_RG_BUDGET_CP : Fld := ⟨31, 16⟩
def STR_RG_BUDGET_COST : Fld := ⟨15, 0⟩
def STR_HPH_CFG_EN : Fld := ⟨31, 31⟩
def STR_HPH_CFG_RG : Fld := ⟨26, 24⟩
def STR_HPH_CFG_SLOT : Fld := ⟨9, 0⟩
def STR_OUT_CFG_EN : Fld := ⟨31, 31⟩
def STR_OUT_CFG_IMM : Fld := ⟨30, 30⟩
def STR_OUT_CFG_HOLD_STALE : Fld := ⟨29, 29⟩
def STR_OUT_CFG_CONV : Fld := ⟨28, 28⟩
def STR_OUT_CFG_CH : Fld := ⟨27, 24⟩
def STR_OUT_CFG_REG : Fld := ⟨23, 22⟩
def STR_OUT_CFG_SH : Fld := ⟨21, 16⟩
def STR_OUT_CFG_SLOT : Fld := ⟨9, 0⟩
def STR_OUT_INFO_EVAL : Fld := ⟨31, 16⟩
def STR_OUT_INFO_LAT : Fld := ⟨15, 0⟩
def STR_SLOT_MANT : Fld := ⟨31, 8⟩
def STR_SLOT_SAT : Fld := ⟨7, 7⟩
def STR_SLOT_STALE : Fld := ⟨6, 6⟩
def STR_SLOT_EXP : Fld := ⟨5, 0⟩
-- STRW page, R245
def STRW_SEL_TBLK : Fld := ⟨11, 8⟩
def STRW_SEL_SBLK : Fld := ⟨4, 0⟩
def STRW_TBL_VALUE : Fld := ⟨31, 8⟩
def STRW_SEC_CFG_EN : Fld := ⟨31, 31⟩
def STRW_SEC_CFG_RG : Fld := ⟨30, 28⟩
def STRW_SEC_CFG_TYPE : Fld := ⟨27, 24⟩
def STRW_SEC_CFG_OPT : Fld := ⟨23, 16⟩
def STRW_SEC_CFG_OUT_NORM : Fld := ⟨15, 15⟩
def STRW_SEC_CFG_OUT_EXP : Fld := ⟨13, 8⟩
def STRW_SEC_CFG_SMIN : Fld := ⟨5, 0⟩
def STRW_SEC_IN01_IN1_EN : Fld := ⟨31, 31⟩
def STRW_SEC_IN01_IN1 : Fld := ⟨25, 16⟩
def STRW_SEC_IN01_IN0_EN : Fld := ⟨15, 15⟩
def STRW_SEC_IN01_IN0 : Fld := ⟨9, 0⟩
def STRW_SEC_IN23_IN3_EN : Fld := ⟨31, 31⟩
def STRW_SEC_IN23_IN3 : Fld := ⟨25, 16⟩
def STRW_SEC_IN23_IN2_EN : Fld := ⟨15, 15⟩
def STRW_SEC_IN23_IN2 : Fld := ⟨9, 0⟩
def STRW_SEC_OUT_OUT1_EN : Fld := ⟨31, 31⟩
def STRW_SEC_OUT_OUT1 : Fld := ⟨25, 16⟩
def STRW_SEC_OUT_OUT0_EN : Fld := ⟨15, 15⟩
def STRW_SEC_OUT_OUT0 : Fld := ⟨9, 0⟩
def STRW_SEC_TPARAM_BASE : Fld := ⟨27, 16⟩
def STRW_SEC_TPARAM_LOG2LEN : Fld := ⟨11, 8⟩
def STRW_SEC_TPARAM_TEXP : Fld := ⟨5, 0⟩
def STRW_SEC_CA0_MANT : Fld := ⟨31, 8⟩
def STRW_SEC_CA1_MANT : Fld := ⟨31, 8⟩
def STRW_SEC_CA2_MANT : Fld := ⟨31, 8⟩
def STRW_SEC_CA3_MANT : Fld := ⟨31, 8⟩
def STRW_SEC_CA4_MANT : Fld := ⟨31, 8⟩
def STRW_SEC_CA_EXP_EXP : Fld := ⟨5, 0⟩
def STRW_SEC_CB0_MANT : Fld := ⟨31, 8⟩
def STRW_SEC_CB1_MANT : Fld := ⟨31, 8⟩
def STRW_SEC_CB2_MANT : Fld := ⟨31, 8⟩
def STRW_SEC_CB3_MANT : Fld := ⟨31, 8⟩
def STRW_SEC_CB4_MANT : Fld := ⟨31, 8⟩
def STRW_SEC_CB_EXP_EXP : Fld := ⟨5, 0⟩
def STRW_SEC_S1_MANT : Fld := ⟨31, 8⟩
def STRW_SEC_S2_MANT : Fld := ⟨31, 8⟩
def STRW_SEC_S_EXP_EXP : Fld := ⟨5, 0⟩
def STRW_SEC_SSTAT_BLOCKED : Fld := ⟨31, 31⟩
def STRW_SEC_SSTAT_SAT_SEEN : Fld := ⟨30, 30⟩
def STRW_SEC_SSTAT_EVALS : Fld := ⟨15, 0⟩
-- PCR page, R246
def PCR_CTL_EN : Fld := ⟨15, 0⟩
def PCR_CMD_KEY : Fld := ⟨31, 16⟩
def PCR_CMD_CH : Fld := ⟨11, 8⟩
def PCR_CMD_OP : Fld := ⟨3, 0⟩
def PCR_STAT_HOLDING : Fld := ⟨31, 16⟩
def PCR_STAT_AT_TARGET : Fld := ⟨15, 0⟩
def PCR_ESTAT_CFG_ERR : Fld := ⟨31, 16⟩
def PCR_ESTAT_EMRG : Fld := ⟨15, 0⟩
def PCR_CH_CFG_TGT_SRC : Fld := ⟨31, 31⟩
def PCR_CH_CFG_RG : Fld := ⟨30, 28⟩
def PCR_CH_CFG_TSLOT : Fld := ⟨25, 16⟩
def PCR_CH_CFG_VOUT_EN : Fld := ⟨15, 15⟩
def PCR_CH_CFG_EMRG_ON_SAFE : Fld := ⟨14, 14⟩
def PCR_CH_CFG_EXP : Fld := ⟨13, 8⟩
def PCR_CH_SLOTS_VSLOT : Fld := ⟨25, 16⟩
def PCR_CH_SLOTS_OSLOT : Fld := ⟨9, 0⟩
def PCR_CH_TGT_MANT : Fld := ⟨31, 8⟩
def PCR_CH_TGT_EXP : Fld := ⟨5, 0⟩
def PCR_CH_VLIM_MANT : Fld := ⟨31, 8⟩
def PCR_CH_VLIM_EXP : Fld := ⟨5, 0⟩
def PCR_CH_ALIM_MANT : Fld := ⟨31, 8⟩
def PCR_CH_ALIM_EXP : Fld := ⟨5, 0⟩
def PCR_CH_JLIM_MANT : Fld := ⟨31, 8⟩
def PCR_CH_JLIM_EXP : Fld := ⟨5, 0⟩
def PCR_CH_ETGT_MANT : Fld := ⟨31, 8⟩
def PCR_CH_ETGT_EXP : Fld := ⟨5, 0⟩
def PCR_CH_ERATE_MANT : Fld := ⟨31, 8⟩
def PCR_CH_ERATE_EXP : Fld := ⟨5, 0⟩
def PCR_CH_ESRC_EN : Fld := ⟨8, 8⟩
def PCR_CH_ESRC_SRC : Fld := ⟨7, 0⟩
-- BPT page, R262
def BPT_CTL_EN : Fld := ⟨3, 0⟩
def BPT_CMD_KEY : Fld := ⟨31, 16⟩
def BPT_CMD_CH : Fld := ⟨9, 8⟩
def BPT_CMD_OP : Fld := ⟨3, 0⟩
def BPT_STAT_MPP : Fld := ⟨27, 24⟩
def BPT_STAT_CURTAILED : Fld := ⟨23, 20⟩
def BPT_STAT_AT_LIMIT : Fld := ⟨19, 16⟩
def BPT_STAT_HOLDING : Fld := ⟨15, 12⟩
def BPT_STAT_CFG_ERR : Fld := ⟨3, 0⟩
def BPT_CH_CFG_MODE : Fld := ⟨31, 30⟩
def BPT_CH_CFG_RG : Fld := ⟨29, 27⟩
def BPT_CH_CFG_DIR_INIT : Fld := ⟨26, 26⟩
def BPT_CH_CFG_CURT_DIR : Fld := ⟨25, 25⟩
def BPT_CH_CFG_PLIM_EN : Fld := ⟨24, 24⟩
def BPT_CH_CFG_OUT_EXP : Fld := ⟨21, 16⟩
def BPT_CH_CFG_NPTS : Fld := ⟨6, 0⟩
def BPT_CH_SLOTS0_IN_B : Fld := ⟨25, 16⟩
def BPT_CH_SLOTS0_IN_A : Fld := ⟨9, 0⟩
def BPT_CH_SLOTS1_PLIM : Fld := ⟨25, 16⟩
def BPT_CH_SLOTS1_OUT : Fld := ⟨9, 0⟩
def BPT_CH_WIN_SKIP : Fld := ⟨25, 16⟩
def BPT_CH_WIN_NAVG : Fld := ⟨10, 0⟩
def BPT_CH_STEP_MANT : Fld := ⟨31, 8⟩
def BPT_CH_STEP_EXP : Fld := ⟨5, 0⟩
def BPT_CH_VMIN_MANT : Fld := ⟨31, 8⟩
def BPT_CH_VMIN_EXP : Fld := ⟨5, 0⟩
def BPT_CH_VMAX_MANT : Fld := ⟨31, 8⟩
def BPT_CH_VMAX_EXP : Fld := ⟨5, 0⟩
def BPT_CH_START_MANT : Fld := ⟨31, 8⟩
def BPT_CH_START_EXP : Fld := ⟨5, 0⟩
def BPT_CH_DBAND_MANT : Fld := ⟨31, 8⟩
def BPT_CH_DBAND_EXP : Fld := ⟨5, 0⟩
def BPT_CH_DV_MIN_MANT : Fld := ⟨31, 8⟩
def BPT_CH_DV_MIN_EXP : Fld := ⟨5, 0⟩
def BPT_CH_DI_MIN_MANT : Fld := ⟨31, 8⟩
def BPT_CH_DI_MIN_EXP : Fld := ⟨5, 0⟩
def BPT_CH_TOL_MANT : Fld := ⟨31, 8⟩
def BPT_CH_TOL_EXP : Fld := ⟨5, 0⟩
def BPT_CH_DEC_DIR : Fld := ⟨31, 31⟩
def BPT_CH_DEC_STALE_HOLDS : Fld := ⟨30, 16⟩
def BPT_CH_DEC_DECISIONS : Fld := ⟨15, 0⟩
def BPT_CRV_SPD0_MANT : Fld := ⟨31, 8⟩
def BPT_CRV_SPD0_EXP : Fld := ⟨5, 0⟩
def BPT_CRV_PWR0_MANT : Fld := ⟨31, 8⟩
def BPT_CRV_PWR0_EXP : Fld := ⟨5, 0⟩
def BPT_CRV_SPD1_MANT : Fld := ⟨31, 8⟩
def BPT_CRV_SPD1_EXP : Fld := ⟨5, 0⟩
def BPT_CRV_PWR1_MANT : Fld := ⟨31, 8⟩
def BPT_CRV_PWR1_EXP : Fld := ⟨5, 0⟩
def BPT_CRV_SPD2_MANT : Fld := ⟨31, 8⟩
def BPT_CRV_SPD2_EXP : Fld := ⟨5, 0⟩
def BPT_CRV_PWR2_MANT : Fld := ⟨31, 8⟩
def BPT_CRV_PWR2_EXP : Fld := ⟨5, 0⟩
def BPT_CRV_SPD3_MANT : Fld := ⟨31, 8⟩
def BPT_CRV_SPD3_EXP : Fld := ⟨5, 0⟩
def BPT_CRV_PWR3_MANT : Fld := ⟨31, 8⟩
def BPT_CRV_PWR3_EXP : Fld := ⟨5, 0⟩
-- HRD page, R299
def HRD_CTL_EN : Fld := ⟨31, 31⟩
def HRD_CTL_RG : Fld := ⟨30, 28⟩
def HRD_CTL_FAST_EN : Fld := ⟨27, 27⟩
def HRD_CTL_SEQ_EN : Fld := ⟨26, 26⟩
def HRD_CTL_LV_EN : Fld := ⟨25, 25⟩
def HRD_CTL_HV_EN : Fld := ⟨24, 24⟩
def HRD_CTL_REF_SEL : Fld := ⟨23, 23⟩
def HRD_CTL_DB_SUB : Fld := ⟨22, 22⟩
def HRD_CTL_ZERO_P0 : Fld := ⟨21, 21⟩
def HRD_CTL_ZERO_BLK : Fld := ⟨20, 20⟩
def HRD_CTL_NEG_MODE : Fld := ⟨19, 18⟩
def HRD_CTL_KQ_SRC : Fld := ⟨17, 17⟩
def HRD_CTL_REC_START : Fld := ⟨16, 16⟩
def HRD_CTL_OUT_EXP : Fld := ⟨15, 10⟩
def HRD_CTL_OUT_BASE : Fld := ⟨9, 0⟩
def HRD_CMD_KEY : Fld := ⟨31, 16⟩
def HRD_CMD_OP : Fld := ⟨3, 0⟩
def HRD_STAT_STATE : Fld := ⟨31, 28⟩
def HRD_STAT_PREV : Fld := ⟨27, 24⟩
def HRD_STAT_ASYM : Fld := ⟨23, 23⟩
def HRD_STAT_FREEZE : Fld := ⟨22, 22⟩
def HRD_STAT_BLK : Fld := ⟨21, 21⟩
def HRD_STAT_CFG_ERR : Fld := ⟨20, 20⟩
def HRD_STAT_TRIP_CAUSE : Fld := ⟨19, 16⟩
def HRD_STAT_EVENTS : Fld := ⟨15, 0⟩
def HRD_IN0_V_POS : Fld := ⟨25, 16⟩
def HRD_IN0_V_INST : Fld := ⟨9, 0⟩
def HRD_IN1_V_NEG_B : Fld := ⟨25, 16⟩
def HRD_IN1_V_NEG_A : Fld := ⟨9, 0⟩
def HRD_IN2_OMEGA : Fld := ⟨25, 16⟩
def HRD_IN2_THETA : Fld := ⟨9, 0⟩
def HRD_IN3_IQ_IN : Fld := ⟨9, 0⟩
def HRD_VNOM_MANT : Fld := ⟨31, 8⟩
def HRD_VNOM_EXP : Fld := ⟨5, 0⟩
def HRD_INOM_MANT : Fld := ⟨31, 8⟩
def HRD_INOM_EXP : Fld := ⟨5, 0⟩
def HRD_LV_TH_U_REC : Fld := ⟨31, 16⟩
def HRD_LV_TH_U_DIP : Fld := ⟨15, 0⟩
def HRD_ZV_TH_U_ZERO_EXIT : Fld := ⟨31, 16⟩
def HRD_ZV_TH_U_ZERO : Fld := ⟨15, 0⟩
def HRD_HV_TH_U_SWELL : Fld := ⟨31, 16⟩
def HRD_HV_TH_U_SWELL_REC : Fld := ⟨15, 0⟩
def HRD_DB_ASYM_TH : Fld := ⟨31, 16⟩
def HRD_DB_DB : Fld := ⟨15, 0⟩
def HRD_LIM_REC_RATE : Fld := ⟨31, 16⟩
def HRD_LIM_IMAX : Fld := ⟨15, 0⟩
def HRD_PERSIST_CURVE_N : Fld := ⟨31, 24⟩
def HRD_PERSIST_N_EXIT : Fld := ⟨23, 16⟩
def HRD_PERSIST_N_SEQ : Fld := ⟨15, 8⟩
def HRD_PERSIST_N_FAST : Fld := ⟨7, 0⟩
def HRD_KQ_K_NEG : Fld := ⟨31, 16⟩
def HRD_KQ_K : Fld := ⟨15, 0⟩
def HRD_PRE_TAU : Fld := ⟨15, 0⟩
def HRD_PJ_ACT : Fld := ⟨31, 28⟩
def HRD_PJ_HOLD_MS : Fld := ⟨27, 16⟩
def HRD_PJ_LIM : Fld := ⟨15, 0⟩
def HRD_RC_ACT : Fld := ⟨31, 28⟩
def HRD_RC_WIN : Fld := ⟨27, 22⟩
def HRD_RC_DEC : Fld := ⟨21, 14⟩
def HRD_RC_LIM : Fld := ⟨13, 0⟩
def HRD_CURVE_CFG_HV_NPTS : Fld := ⟨12, 8⟩
def HRD_CURVE_CFG_LV_NPTS : Fld := ⟨4, 0⟩
def HRD_LAST_UMIN : Fld := ⟨15, 0⟩
def HRD_LV_TIME_MS : Fld := ⟨31, 16⟩
def HRD_LV_U : Fld := ⟨15, 0⟩
def HRD_HV_TIME_MS : Fld := ⟨31, 16⟩
def HRD_HV_U : Fld := ⟨15, 0⟩
-- ISL page, R301
def ISL_CTL_EN : Fld := ⟨31, 31⟩
def ISL_CTL_RG : Fld := ⟨30, 28⟩
def ISL_CTL_DEC : Fld := ⟨27, 20⟩
def ISL_CTL_FT_EN : Fld := ⟨19, 19⟩
def ISL_CTL_VT_EN : Fld := ⟨18, 18⟩
def ISL_CTL_ROC_EN : Fld := ⟨17, 17⟩
def ISL_CTL_VS_EN : Fld := ⟨16, 16⟩
def ISL_CTL_HRD_INH : Fld := ⟨15, 15⟩
def ISL_CTL_RTS_EN : Fld := ⟨14, 14⟩
def ISL_CTL_OUT : Fld := ⟨9, 0⟩
def ISL_CMD_KEY : Fld := ⟨31, 16⟩
def ISL_CMD_OP : Fld := ⟨3, 0⟩
def ISL_STAT_TRIPPED : Fld := ⟨31, 31⟩
def ISL_STAT_ISLANDED : Fld := ⟨30, 30⟩
def ISL_STAT_RTS_OK : Fld := ⟨29, 29⟩
def ISL_STAT_CFG_ERR : Fld := ⟨28, 28⟩
def ISL_STAT_IMP_HIT : Fld := ⟨27, 27⟩
def ISL_STAT_ROC_HIT : Fld := ⟨26, 26⟩
def ISL_STAT_VS_HIT : Fld := ⟨25, 25⟩
def ISL_STAT_FT_HIT : Fld := ⟨23, 16⟩
def ISL_STAT_VT_HIT : Fld := ⟨15, 8⟩
def ISL_IN0_THETA : Fld := ⟨25, 16⟩
def ISL_IN0_OMEGA : Fld := ⟨9, 0⟩
def ISL_IN1_V1_EN : Fld := ⟨31, 31⟩
def ISL_IN1_V1 : Fld := ⟨25, 16⟩
def ISL_IN1_V0_EN : Fld := ⟨15, 15⟩
def ISL_IN1_V0 : Fld := ⟨9, 0⟩
def ISL_IN2_V2_EN : Fld := ⟨15, 15⟩
def ISL_IN2_V2 : Fld := ⟨9, 0⟩
def ISL_VNOM_MANT : Fld := ⟨31, 8⟩
def ISL_VNOM_EXP : Fld := ⟨5, 0⟩
def ISL_ROC_LIM : Fld := ⟨31, 16⟩
def ISL_ROC_WIN_MS : Fld := ⟨15, 7⟩
def ISL_ROC_PERSIST : Fld := ⟨6, 0⟩
def ISL_VS_LIM : Fld := ⟨15, 0⟩
def ISL_ACT_IMP : Fld := ⟨9, 8⟩
def ISL_ACT_VS : Fld := ⟨7, 6⟩
def ISL_ACT_ROC : Fld := ⟨5, 4⟩
def ISL_ACT_VT : Fld := ⟨3, 2⟩
def ISL_ACT_FT : Fld := ⟨1, 0⟩
def ISL_RTS_F_F_HI : Fld := ⟨31, 16⟩
def ISL_RTS_F_F_LO : Fld := ⟨15, 0⟩
def ISL_RTS_V_U_HI : Fld := ⟨31, 16⟩
def ISL_RTS_V_U_LO : Fld := ⟨15, 0⟩
def ISL_RTS_T_TIME_S : Fld := ⟨15, 0⟩
def ISL_MEAS_U_U_HI : Fld := ⟨31, 16⟩
def ISL_MEAS_U_U_LO : Fld := ⟨15, 0⟩
def ISL_FT_LIM_EN : Fld := ⟨31, 31⟩
def ISL_FT_LIM_DIR : Fld := ⟨30, 30⟩
def ISL_FT_LIM_LIM : Fld := ⟨16, 0⟩
def ISL_VT_LIM_EN : Fld := ⟨31, 31⟩
def ISL_VT_LIM_DIR : Fld := ⟨30, 30⟩
def ISL_VT_LIM_LIM : Fld := ⟨15, 0⟩
-- IMP page, R303
def IMP_CTL_EN : Fld := ⟨31, 31⟩
def IMP_CTL_RG : Fld := ⟨30, 28⟩
def IMP_CTL_MODE : Fld := ⟨27, 26⟩
def IMP_CTL_RES_EN : Fld := ⟨24, 24⟩
def IMP_CTL_ORDER : Fld := ⟨23, 20⟩
def IMP_CTL_CHIP_DIV : Fld := ⟨19, 12⟩
def IMP_CTL_OUT : Fld := ⟨9, 0⟩
def IMP_CMD_KEY : Fld := ⟨31, 16⟩
def IMP_CMD_OP : Fld := ⟨3, 0⟩
def IMP_STAT_PHASE : Fld := ⟨31, 29⟩
def IMP_STAT_ISLAND : Fld := ⟨28, 28⟩
def IMP_STAT_CFG_ERR : Fld := ⟨27, 27⟩
def IMP_STAT_WATCH : Fld := ⟨26, 26⟩
def IMP_STAT_CONSEC_NOW : Fld := ⟨25, 18⟩
def IMP_STAT_WINDOWS : Fld := ⟨15, 0⟩
def IMP_IN_I_IN : Fld := ⟨25, 16⟩
def IMP_IN_V_IN : Fld := ⟨9, 0⟩
def IMP_RES_RES : Fld := ⟨9, 0⟩
def IMP_INOM_MANT : Fld := ⟨31, 8⟩
def IMP_INOM_EXP : Fld := ⟨5, 0⟩
def IMP_ZTH_MANT : Fld := ⟨31, 8⟩
def IMP_ZTH_EXP : Fld := ⟨5, 0⟩
def IMP_IMIN_MANT : Fld := ⟨31, 8⟩
def IMP_IMIN_EXP : Fld := ⟨5, 0⟩
def IMP_AMP_AMP : Fld := ⟨15, 0⟩
def IMP_WIN_LEAD : Fld := ⟨31, 24⟩
def IMP_WIN_PERIODS : Fld := ⟨23, 16⟩
def IMP_WIN_GAP : Fld := ⟨15, 0⟩
def IMP_ISL_CFG_CONSEC : Fld := ⟨31, 24⟩
def IMP_ISL_CFG_NEED : Fld := ⟨23, 16⟩
def IMP_ISL_CFG_BIN_MASK : Fld := ⟨15, 0⟩
def IMP_HERD_RATIO : Fld := ⟨31, 24⟩
def IMP_HERD_PADDOCK : Fld := ⟨23, 16⟩
def IMP_HERD_GAP_US : Fld := ⟨15, 0⟩
def IMP_SWINDOWS_WINDOWS : Fld := ⟨15, 0⟩
def IMP_BIN_EN : Fld := ⟨31, 31⟩
def IMP_BIN_LINE : Fld := ⟨14, 0⟩
def IMP_PDK_EN : Fld := ⟨31, 31⟩
def IMP_PDK_WATCH : Fld := ⟨14, 0⟩
-- PWT page, R349
def PWT_CTL_RUN : Fld := ⟨3, 0⟩
def PWT_SPLIT_LATE_SPLIT : Fld := ⟨31, 16⟩
def PWT_SPLIT_LATE_LATE : Fld := ⟨15, 0⟩
def PWT_MINPW_CH_MINPW : Fld := ⟨15, 0⟩
def PWT_TB_CFG_HL_EN : Fld := ⟨29, 29⟩
def PWT_TB_CFG_HL_SLEW : Fld := ⟨27, 20⟩
def PWT_TB_CFG_OWNER : Fld := ⟨19, 16⟩
def PWT_TB_CFG_RLD_DIV : Fld := ⟨15, 12⟩
def PWT_TB_CFG_RELOAD : Fld := ⟨11, 10⟩
def PWT_TB_CFG_RES : Fld := ⟨1, 1⟩
def PWT_TB_CFG_MODE : Fld := ⟨0, 0⟩
def PWT_TB_STAT_RUNNING : Fld := ⟨31, 31⟩
def PWT_TB_STAT_DOWN : Fld := ⟨30, 30⟩
def PWT_TB_STAT_HL_LOCKED : Fld := ⟨29, 29⟩
def PWT_TB_STAT_CFG_ERR : Fld := ⟨28, 28⟩
def PWT_TB_STAT_PER_CLAMP : Fld := ⟨27, 27⟩
def PWT_TB_STAT_HL_ERR : Fld := ⟨15, 0⟩
-- PWMC page, R350
def PWMC_CFG_EN : Fld := ⟨31, 31⟩
def PWMC_CFG_TB : Fld := ⟨30, 29⟩
def PWMC_CFG_MODE : Fld := ⟨28, 28⟩
def PWMC_CFG_POL : Fld := ⟨27, 27⟩
def PWMC_CFG_PAIR : Fld := ⟨26, 26⟩
def PWMC_CFG_MINPW_POL : Fld := ⟨25, 25⟩
def PWMC_DT_DT_RISE : Fld := ⟨28, 16⟩
def PWMC_DT_DT_FALL : Fld := ⟨12, 0⟩
def PWMC_MINPW_MINPW : Fld := ⟨9, 0⟩
def PWMC_CMD_KEY : Fld := ⟨31, 16⟩
def PWMC_CMD_DISCARD : Fld := ⟨1, 1⟩
def PWMC_CMD_ARM : Fld := ⟨0, 0⟩
def PWMC_STAT_GH : Fld := ⟨31, 31⟩
def PWMC_STAT_GL : Fld := ⟨30, 30⟩
def PWMC_STAT_TRIPPED : Fld := ⟨29, 29⟩
def PWMC_STAT_MASKED : Fld := ⟨28, 28⟩
def PWMC_STAT_FULL : Fld := ⟨27, 27⟩
def PWMC_STAT_SHADOW : Fld := ⟨26, 25⟩
def PWMC_STAT_PER_W : Fld := ⟨24, 24⟩
def PWMC_STAT_A_W : Fld := ⟨23, 23⟩
def PWMC_STAT_B_W : Fld := ⟨22, 22⟩
def PWMC_STAT_SPLIT_SEEN : Fld := ⟨3, 3⟩
def PWMC_STAT_LATE_SEEN : Fld := ⟨2, 2⟩
def PWMC_STAT_MINPW_SEEN : Fld := ⟨1, 1⟩
-- TRIP page, R351
def TRIP_CMD_KEY : Fld := ⟨31, 16⟩
def TRIP_CMD_CLEAR : Fld := ⟨15, 0⟩
def TRIP_FORCE_SW : Fld := ⟨0, 0⟩
def TRIP_CH_STAT_LOW_ON : Fld := ⟨31, 16⟩
def TRIP_CH_STAT_OFF : Fld := ⟨15, 0⟩
def TRIP_SRC_CFG_EN : Fld := ⟨31, 31⟩
def TRIP_SRC_CFG_MODE : Fld := ⟨30, 29⟩
def TRIP_SRC_CFG_ACTION : Fld := ⟨28, 28⟩
def TRIP_SRC_CFG_INV : Fld := ⟨27, 27⟩
def TRIP_SRC_CFG_FILT : Fld := ⟨26, 24⟩
def TRIP_SRC_CFG_CH : Fld := ⟨23, 8⟩
def TRIP_SRC_CFG_SEL : Fld := ⟨7, 0⟩
def TRIP_SRC_BLANK_EN : Fld := ⟨31, 31⟩
def TRIP_SRC_BLANK_CH : Fld := ⟨27, 24⟩
def TRIP_SRC_BLANK_EDGE : Fld := ⟨22, 20⟩
def TRIP_SRC_BLANK_LEN : Fld := ⟨11, 0⟩
def TRIP_SRC_STAT_ASSERTED : Fld := ⟨31, 31⟩
def TRIP_SRC_STAT_LATCHED : Fld := ⟨30, 30⟩
def TRIP_SRC_STAT_IN_BLANK : Fld := ⟨29, 29⟩
def TRIP_SRC_STAT_TRIP_SEEN : Fld := ⟨28, 28⟩
def TRIP_SRC_STAT_CFG_ERR : Fld := ⟨27, 27⟩
def TRIP_SRC_STAT_COUNT : Fld := ⟨15, 0⟩
-- MASK page, R352
def MASK_CFG_EN : Fld := ⟨31, 31⟩
def MASK_CFG_APPLY : Fld := ⟨30, 30⟩
def MASK_CFG_TB : Fld := ⟨29, 28⟩
def MASK_CFG_SRC_EN : Fld := ⟨27, 27⟩
def MASK_CFG_LEN : Fld := ⟨26, 24⟩
def MASK_CFG_SRC : Fld := ⟨23, 16⟩
def MASK_CFG_CH : Fld := ⟨15, 0⟩
def MASK_CMD_KEY : Fld := ⟨31, 16⟩
def MASK_CMD_SET : Fld := ⟨4, 4⟩
def MASK_CMD_STEP : Fld := ⟨3, 3⟩
def MASK_CMD_INDEX : Fld := ⟨2, 0⟩
def MASK_STAT_MERGED : Fld := ⟨31, 16⟩
def MASK_STAT_PENDING : Fld := ⟨6, 4⟩
def MASK_STAT_INDEX : Fld := ⟨2, 0⟩
-- GDI page, R379
def GDI_CFG_EN : Fld := ⟨31, 31⟩
def GDI_CFG_SRC : Fld := ⟨30, 29⟩
def GDI_CFG_LEG_MODE : Fld := ⟨28, 27⟩
def GDI_CFG_PUL_INV : Fld := ⟨26, 26⟩
def GDI_CFG_PEN_INV : Fld := ⟨25, 25⟩
def GDI_CFG_FLT_EN : Fld := ⟨24, 24⟩
def GDI_CFG_FLT_POL : Fld := ⟨23, 23⟩
def GDI_CFG_RDY_EN : Fld := ⟨22, 22⟩
def GDI_CFG_RDY_POL : Fld := ⟨21, 21⟩
def GDI_CFG_REFRESH : Fld := ⟨20, 20⟩
def GDI_CFG_SHD : Fld := ⟨19, 18⟩
def GDI_TIMING_RDY_FILT : Fld := ⟨25, 16⟩
def GDI_TIMING_DT_MIN : Fld := ⟨12, 0⟩
def GDI_RETRY_MAX : Fld := ⟨31, 28⟩
def GDI_RETRY_WAIT : Fld := ⟨27, 14⟩
def GDI_RETRY_WINDOW : Fld := ⟨13, 0⟩
def GDI_REFRESH_N : Fld := ⟨31, 24⟩
def GDI_REFRESH_W : Fld := ⟨11, 0⟩
def GDI_FCMD_TMO_US : Fld := ⟨15, 0⟩
def GDI_CMD_KEY : Fld := ⟨31, 16⟩
def GDI_CMD_OP : Fld := ⟨3, 0⟩
def GDI_STAT_STATE : Fld := ⟨31, 28⟩
def GDI_STAT_GH : Fld := ⟨27, 27⟩
def GDI_STAT_GL : Fld := ⟨26, 26⟩
def GDI_STAT_GFLT : Fld := ⟨25, 25⟩
def GDI_STAT_GRDY : Fld := ⟨24, 24⟩
def GDI_STAT_PUL : Fld := ⟨23, 23⟩
def GDI_STAT_PEN : Fld := ⟨22, 22⟩
def GDI_STAT_SUP_OK : Fld := ⟨21, 21⟩
def GDI_STAT_SHD_OFF : Fld := ⟨20, 20⟩
def GDI_STAT_CFG_ERR : Fld := ⟨19, 19⟩
def GDI_STAT_DT_ENF_SEEN : Fld := ⟨18, 18⟩
def GDI_STAT_FLT_SEEN : Fld := ⟨17, 17⟩
def GDI_STAT_WIN_COUNT : Fld := ⟨15, 12⟩
def GDI_STAT_LAST_CAUSE : Fld := ⟨11, 8⟩
def GDI_STAT_CAUSE_RDY : Fld := ⟨2, 2⟩
def GDI_STAT_CAUSE_SHOOT : Fld := ⟨1, 1⟩
def GDI_STAT_CAUSE_FLT : Fld := ⟨0, 0⟩
def GDI_CNT_0_DRV : Fld := ⟨31, 16⟩
def GDI_CNT_0_SHOOT : Fld := ⟨15, 0⟩
def GDI_CNT_1_RDY : Fld := ⟨31, 16⟩
def GDI_CNT_1_RETRIES : Fld := ⟨15, 0⟩
def GDI_CNT_2_REFRESHES : Fld := ⟨31, 16⟩
def GDI_CNT_2_LATE : Fld := ⟨15, 8⟩
def GDI_CNT_2_OVF : Fld := ⟨7, 0⟩
def GDI_FQ_STAT_FILL : Fld := ⟨11, 8⟩
def GDI_FQ_STAT_NEXT_ST : Fld := ⟨5, 4⟩
def GDI_FQ_STAT_CUR_ST : Fld := ⟨1, 0⟩
-- MTR page, R410
def MTR_CFG_EN : Fld := ⟨31, 31⟩
def MTR_CFG_RATE : Fld := ⟨30, 29⟩
def MTR_CFG_REF : Fld := ⟨28, 27⟩
def MTR_CFG_FNOM : Fld := ⟨26, 26⟩
def MTR_CFG_LAG_US : Fld := ⟨15, 0⟩
def MTR_CMD_KEY : Fld := ⟨31, 16⟩
def MTR_CMD_OP : Fld := ⟨3, 0⟩
def MTR_STAT_RUNNING : Fld := ⟨31, 31⟩
def MTR_STAT_REF_OK : Fld := ⟨30, 30⟩
def MTR_STAT_WRAP : Fld := ⟨29, 29⟩
def MTR_STAT_CFG_ERR : Fld := ⟨28, 28⟩
def MTR_STAT_ALIGN_MISS : Fld := ⟨15, 0⟩
def MTR_CLEARS_CLEARS : Fld := ⟨15, 0⟩
def MTR_IN_SRC_EN : Fld := ⟨31, 31⟩
def MTR_IN_SRC_DEC : Fld := ⟨10, 8⟩
def MTR_IN_SRC_SRC : Fld := ⟨5, 0⟩
def MTR_IN_K_MANT : Fld := ⟨31, 8⟩
def MTR_IN_K_EXP : Fld := ⟨5, 0⟩
def MTR_SAVE_CFG_PERIOD_S : Fld := ⟨31, 26⟩
def MTR_SAVE_CFG_SCK : Fld := ⟨25, 24⟩
def MTR_SAVE_CFG_BASE : Fld := ⟨4, 0⟩
def MTR_SAVE_STAT_BUSY : Fld := ⟨31, 31⟩
def MTR_SAVE_STAT_INCOMPLETE : Fld := ⟨30, 30⟩
def MTR_SAVE_STAT_NO_RECORD : Fld := ⟨29, 29⟩
def MTR_SAVE_STAT_FAIL : Fld := ⟨28, 28⟩
def MTR_SAVE_STAT_CAL_UNKNOWN : Fld := ⟨27, 27⟩
def MTR_SAVE_STAT_LAST_KIND : Fld := ⟨9, 8⟩
def MTR_LOG_TAIL_LEN8 : Fld := ⟨31, 25⟩
def MTR_LOG_TAIL_OFS8 : Fld := ⟨19, 0⟩
def MTR_CO_CFG_EN : Fld := ⟨31, 31⟩
def MTR_CO_CFG_PGA : Fld := ⟨30, 28⟩
def MTR_CO_OFS_OFS : Fld := ⟨23, 0⟩
def MTR_CO_STAT_STOPPED : Fld := ⟨31, 31⟩
def MTR_CO_STAT_RAN : Fld := ⟨30, 30⟩
-- PQM page, R411
def PQM_P_CFG_EN : Fld := ⟨31, 31⟩
def PQM_P_TH_A_SWELL_TH : Fld := ⟨31, 16⟩
def PQM_P_TH_A_SAG_TH : Fld := ⟨15, 0⟩
def PQM_P_TH_B_HYST : Fld := ⟨31, 16⟩
def PQM_P_TH_B_INT_TH : Fld := ⟨15, 0⟩
def PQM_P_STAT_OPEN : Fld := ⟨31, 29⟩
def PQM_P_STAT_NEXT : Fld := ⟨21, 16⟩
def PQM_P_STAT_OVERWRITES : Fld := ⟨15, 0⟩
def PQM_SEL_PORT : Fld := ⟨2, 2⟩
def PQM_SEL_BLK : Fld := ⟨1, 0⟩
-- LANE page, R446
def LANE_CTL_EN : Fld := ⟨31, 31⟩
def LANE_CTL_MODE : Fld := ⟨30, 28⟩
def LANE_CTL_RATE : Fld := ⟨27, 26⟩
def LANE_CTL_FALLBACK : Fld := ⟨25, 25⟩
def LANE_CTL_TX_POL : Fld := ⟨24, 24⟩
def LANE_CTL_RX_POL : Fld := ⟨23, 23⟩
def LANE_CTL_LPBK : Fld := ⟨22, 21⟩
def LANE_CTL_HOLDOFF_MS : Fld := ⟨15, 0⟩
def LANE_CMD_KEY : Fld := ⟨31, 16⟩
def LANE_CMD_OP : Fld := ⟨3, 0⟩
def LANE_STAT_STATE : Fld := ⟨31, 28⟩
def LANE_STAT_LAST_FAIL : Fld := ⟨27, 24⟩
def LANE_STAT_RATE_ACT : Fld := ⟨23, 22⟩
def LANE_STAT_SIGNAL : Fld := ⟨21, 21⟩
def LANE_STAT_BLOCK_LOCK : Fld := ⟨20, 20⟩
def LANE_STAT_FOM : Fld := ⟨15, 8⟩
def LANE_TRAIN_FOM_MIN : Fld := ⟨31, 24⟩
def LANE_TRAIN_FOM_TARGET : Fld := ⟨23, 16⟩
def LANE_TRAIN_FOM_STEP : Fld := ⟨15, 12⟩
def LANE_TRAIN_P_INIT : Fld := ⟨10, 8⟩
def LANE_TRAIN_PRESET_MASK : Fld := ⟨7, 0⟩
def LANE_TRAIN2_TMO_MS : Fld := ⟨31, 16⟩
def LANE_TRAIN2_FAST_TMO_MS : Fld := ⟨15, 8⟩
def LANE_TRAIN2_ADAPT_US : Fld := ⟨7, 0⟩
def LANE_TXEQ_POST : Fld := ⟨12, 8⟩
def LANE_TXEQ_PRE : Fld := ⟨3, 0⟩
def LANE_TXACT_MAIN : Fld := ⟨21, 16⟩
def LANE_TXACT_POST : Fld := ⟨12, 8⟩
def LANE_TXACT_PRE : Fld := ⟨3, 0⟩
def LANE_LAT_TX_PS : Fld := ⟨31, 16⟩
def LANE_LAT_RX_PS : Fld := ⟨15, 0⟩
def LANE_RETRY_ACK_TMO : Fld := ⟨31, 16⟩
def LANE_PARTNER_VERSION : Fld := ⟨31, 24⟩
def LANE_PARTNER_LANE : Fld := ⟨19, 18⟩
def LANE_PARTNER_PLANE : Fld := ⟨16, 16⟩
def LANE_PARTNER_ID : Fld := ⟨14, 0⟩
def LANE_CNT_0_REPLAYS : Fld := ⟨31, 16⟩
def LANE_CNT_0_NAKS : Fld := ⟨15, 0⟩
def LANE_CNT_1_DOWNS : Fld := ⟨31, 16⟩
def LANE_CNT_1_TRAIN_FAILS : Fld := ⟨15, 8⟩
def LANE_CNT_1_CAPS_FAILS : Fld := ⟨7, 0⟩
def LANE_PAT_CFG_GEN : Fld := ⟨31, 31⟩
def LANE_PAT_CFG_CHK : Fld := ⟨30, 30⟩
def LANE_PAT_CFG_POLY : Fld := ⟨29, 27⟩
def LANE_PAT_CFG_INV : Fld := ⟨26, 26⟩
def LANE_PAT_CFG_INJ : Fld := ⟨25, 24⟩
def LANE_PAT_CFG_INJ_K : Fld := ⟨20, 16⟩
def LANE_PAT_CMD_KEY : Fld := ⟨31, 16⟩
def LANE_PAT_CMD_CLR : Fld := ⟨1, 1⟩
def LANE_PAT_CMD_INJECT : Fld := ⟨0, 0⟩
def LANE_PAT_STAT_SYNC : Fld := ⟨31, 31⟩
def LANE_PAT_STAT_SYNC_LOST_SEEN : Fld := ⟨30, 30⟩
def LANE_PAT_STAT_SYNC_LOSSES : Fld := ⟨15, 0⟩
def LANE_PAT_ERR_HI_CNT : Fld := ⟨15, 0⟩
def LANE_PAT_BITS_HI_CNT : Fld := ⟨15, 0⟩
def LANE_MOD_CFG_EN : Fld := ⟨31, 31⟩
def LANE_MOD_CFG_SPEED : Fld := ⟨30, 30⟩
def LANE_MOD_CFG_LOS_EN : Fld := ⟨29, 29⟩
def LANE_MOD_CFG_TXDIS : Fld := ⟨28, 28⟩
def LANE_MOD_CFG_POLL_MS : Fld := ⟨15, 0⟩
def LANE_MOD_STAT_PRESENT : Fld := ⟨31, 31⟩
def LANE_MOD_STAT_LOS : Fld := ⟨30, 30⟩
def LANE_MOD_STAT_BUSY : Fld := ⟨29, 29⟩
def LANE_MOD_STAT_NACK : Fld := ⟨28, 28⟩
def LANE_MOD_STAT_ALARM : Fld := ⟨27, 27⟩
def LANE_MOD_STAT_ALARM_FLAGS : Fld := ⟨15, 0⟩
def LANE_MOD_CMD_KEY : Fld := ⟨31, 16⟩
def LANE_MOD_CMD_WRITE : Fld := ⟨15, 15⟩
def LANE_MOD_CMD_DEV : Fld := ⟨14, 14⟩
def LANE_MOD_CMD_OFFSET : Fld := ⟨7, 0⟩
def LANE_MOD_DATA_DATA : Fld := ⟨7, 0⟩
def LANE_ES_CTL_START : Fld := ⟨31, 31⟩
def LANE_ES_CTL_PRESCALE : Fld := ⟨19, 16⟩
def LANE_ES_CTL_VOFS : Fld := ⟨15, 8⟩
def LANE_ES_CTL_HOFS : Fld := ⟨6, 0⟩
def LANE_ES_STAT_DONE : Fld := ⟨31, 31⟩
def LANE_ES_STAT_BUSY : Fld := ⟨30, 30⟩
def LANE_ES_STAT_ABORTED : Fld := ⟨29, 29⟩
def LANE_MOD_DDM0_TEMP : Fld := ⟨31, 16⟩
def LANE_MOD_DDM0_VCC : Fld := ⟨15, 0⟩
def LANE_MOD_DDM1_TX_BIAS : Fld := ⟨31, 16⟩
def LANE_MOD_DDM1_TX_POWER : Fld := ⟨15, 0⟩
def LANE_MOD_DDM2_RX_POWER : Fld := ⟨15, 0⟩
-- QUAD page, R444
def QUAD_CTL_ECM_RATE : Fld := ⟨2, 1⟩
def QUAD_CTL_SYN_EN : Fld := ⟨0, 0⟩
def QUAD_STAT_SYN_LOCK : Fld := ⟨31, 31⟩
def QUAD_STAT_ECM_LOCK : Fld := ⟨30, 30⟩
def QUAD_STAT_SYN_LOST_SEEN : Fld := ⟨29, 29⟩
-- ETH page, R447
def ETH_CTL_EN : Fld := ⟨31, 31⟩
def ETH_CTL_FEC_EN : Fld := ⟨30, 30⟩
def ETH_STAT_LINK : Fld := ⟨31, 31⟩
def ETH_STAT_BLOCK_LOCK : Fld := ⟨30, 30⟩
def ETH_STAT_HI_BER : Fld := ⟨29, 29⟩
def ETH_STAT_FEC_ALIGN : Fld := ⟨28, 28⟩
def ETH_STAT_TX_IDX : Fld := ⟨15, 8⟩
def ETH_STAT_RX_IDX : Fld := ⟨7, 0⟩
def ETH_MAC_HI_MAC : Fld := ⟨15, 0⟩
def ETH_RX_RING_COUNT : Fld := ⟨31, 24⟩
def ETH_RX_RING_BASE : Fld := ⟨18, 0⟩
def ETH_TX_RING_COUNT : Fld := ⟨31, 24⟩
def ETH_TX_RING_BASE : Fld := ⟨18, 0⟩
def ETH_RX_ERR_FCS : Fld := ⟨31, 16⟩
def ETH_RX_ERR_NO_DESC : Fld := ⟨15, 0⟩
def ETH_RX_FILT_FILTERED : Fld := ⟨31, 16⟩
def ETH_RX_FILT_PAUSE : Fld := ⟨15, 0⟩
-- FAB page, R492
def FAB_CTL_EN_A : Fld := ⟨31, 31⟩
def FAB_CTL_EN_B : Fld := ⟨30, 30⟩
def FAB_CTL_RBANK_A : Fld := ⟨29, 29⟩
def FAB_CTL_RBANK_B : Fld := ⟨28, 28⟩
def FAB_CTL_FWD_A : Fld := ⟨27, 27⟩
def FAB_CTL_FWD_B : Fld := ⟨26, 26⟩
def FAB_CTL_TIME_PLANE : Fld := ⟨25, 24⟩
def FAB_CTL_HERD_AUTH : Fld := ⟨23, 23⟩
def FAB_CTL_OPEN_MUSTER : Fld := ⟨22, 22⟩
def FAB_CTL_HOP_LIMIT : Fld := ⟨21, 16⟩
def FAB_STAT_ROUTED_A : Fld := ⟨31, 31⟩
def FAB_STAT_ROUTED_B : Fld := ⟨30, 30⟩
def FAB_STAT_TIME_OK : Fld := ⟨29, 29⟩
def FAB_STAT_GEN_A : Fld := ⟨15, 8⟩
def FAB_STAT_GEN_B : Fld := ⟨7, 0⟩
def FAB_ID_VALID : Fld := ⟨31, 31⟩
def FAB_ID_ID : Fld := ⟨14, 0⟩
def FAB_ADM_SAFE_MAX : Fld := ⟨31, 24⟩
def FAB_ADM_CTRL_TOK : Fld := ⟨23, 16⟩
def FAB_TIME_CFG_EN : Fld := ⟨31, 31⟩
def FAB_TIME_CFG_SYNC_US : Fld := ⟨15, 0⟩
def FAB_TIME_STAT_VALID : Fld := ⟨31, 31⟩
def FAB_TIME_STAT_PLANE : Fld := ⟨3, 3⟩
def FAB_TIME_STAT_LANE : Fld := ⟨2, 0⟩
def FAB_CYCLE_SCHED_EN : Fld := ⟨31, 31⟩
def FAB_CYCLE_CYCLE : Fld := ⟨16, 0⟩
def FAB_SEL_BANK : Fld := ⟨1, 1⟩
def FAB_SEL_PLANE : Fld := ⟨0, 0⟩
def FAB_BANK_CMD_KEY : Fld := ⟨31, 16⟩
def FAB_BANK_CMD_CLR : Fld := ⟨0, 0⟩
def FAB_DROP_INFO_KIND : Fld := ⟨31, 24⟩
def FAB_DROP_INFO_VC : Fld := ⟨23, 21⟩
def FAB_DROP_INFO_CAUSE : Fld := ⟨20, 16⟩
def FAB_DROP_INFO_DEST : Fld := ⟨14, 0⟩
def FAB_CNT_0_DROPS : Fld := ⟨31, 16⟩
def FAB_CNT_0_REPAIRS : Fld := ⟨15, 0⟩
def FAB_CNT_1_TBL_REJ : Fld := ⟨15, 0⟩
def FAB_TX_A_EN : Fld := ⟨31, 31⟩
def FAB_TX_A_PLANES : Fld := ⟨30, 29⟩
def FAB_TX_A_CAST : Fld := ⟨28, 27⟩
def FAB_TX_A_SLOT : Fld := ⟨24, 15⟩
def FAB_TX_A_DEST : Fld := ⟨14, 0⟩
def FAB_TX_B_PUB_ID : Fld := ⟨31, 24⟩
def FAB_TX_B_NWORDS : Fld := ⟨23, 20⟩
def FAB_TX_B_FIRST : Fld := ⟨9, 0⟩
def FAB_SUB_A_EN : Fld := ⟨31, 31⟩
def FAB_SUB_A_MAX_AGE : Fld := ⟨30, 27⟩
def FAB_SUB_A_PUB_ID : Fld := ⟨23, 16⟩
def FAB_SUB_A_SRC : Fld := ⟨14, 0⟩
def FAB_SUB_B_NWORDS : Fld := ⟨23, 20⟩
def FAB_SUB_B_FIRST : Fld := ⟨9, 0⟩
def FAB_RT_R_VALID : Fld := ⟨31, 31⟩
def FAB_RT_R_BCMASK : Fld := ⟨27, 24⟩
def FAB_RT_R_P_UP : Fld := ⟨23, 21⟩
def FAB_RT_R_A_UP : Fld := ⟨20, 18⟩
def FAB_RT_R_P_DN : Fld := ⟨17, 15⟩
def FAB_RT_R_A_DN : Fld := ⟨14, 12⟩
def FAB_RT_M_VALID : Fld := ⟨31, 31⟩
def FAB_RT_M_BCMASK : Fld := ⟨27, 24⟩
def FAB_RT_M_P_UP : Fld := ⟨23, 21⟩
def FAB_RT_M_A_UP : Fld := ⟨20, 18⟩
def FAB_RT_M_P_DN : Fld := ⟨17, 15⟩
def FAB_RT_M_A_DN : Fld := ⟨14, 12⟩
def FAB_RT_DIR_DIRS : Fld := ⟨7, 0⟩
-- SES page, R494
def SES_SEL_SES : Fld := ⟨7, 0⟩
def SES_CMD_KEY : Fld := ⟨31, 16⟩
def SES_CMD_SES : Fld := ⟨15, 8⟩
def SES_CMD_OP : Fld := ⟨3, 0⟩
def SES_S0_FRESH_MS : Fld := ⟨15, 0⟩
def SES_RXQ_A_COUNT : Fld := ⟨31, 24⟩
def SES_RXQ_A_BASE : Fld := ⟨18, 0⟩
def SES_TXQ_A_COUNT : Fld := ⟨31, 24⟩
def SES_TXQ_A_BASE : Fld := ⟨18, 0⟩
def SES_RSPQ_A_COUNT : Fld := ⟨31, 24⟩
def SES_RSPQ_A_BASE : Fld := ⟨18, 0⟩
def SES_RXQ_B_COUNT : Fld := ⟨31, 24⟩
def SES_RXQ_B_BASE : Fld := ⟨18, 0⟩
def SES_TXQ_B_COUNT : Fld := ⟨31, 24⟩
def SES_TXQ_B_BASE : Fld := ⟨18, 0⟩
def SES_RSPQ_B_COUNT : Fld := ⟨31, 24⟩
def SES_RSPQ_B_BASE : Fld := ⟨18, 0⟩
def SES_S_CFG_TWIN : Fld := ⟨31, 31⟩
def SES_S_CFG_PEER : Fld := ⟨14, 0⟩
def SES_S_RIGHTS_IMP : Fld := ⟨5, 5⟩
def SES_S_RIGHTS_TXN : Fld := ⟨4, 4⟩
def SES_S_RIGHTS_GATE : Fld := ⟨3, 3⟩
def SES_S_RIGHTS_RST : Fld := ⟨2, 2⟩
def SES_S_RIGHTS_WR : Fld := ⟨1, 1⟩
def SES_S_RIGHTS_RD : Fld := ⟨0, 0⟩
def SES_S_WDOG_WDOG_MS : Fld := ⟨31, 16⟩
def SES_S_WDOG_RESP_CREDITS : Fld := ⟨7, 0⟩
def SES_S_STAT_STATE : Fld := ⟨31, 28⟩
def SES_S_STAT_REKEY : Fld := ⟨27, 27⟩
def SES_S_STAT_OUTSTANDING : Fld := ⟨7, 0⟩
def SES_S_SALT_RX : Fld := ⟨31, 16⟩
def SES_S_SALT_TX : Fld := ⟨15, 0⟩
def SES_S_CNT_AUTH_FAIL : Fld := ⟨31, 16⟩
def SES_S_CNT_REPLAY : Fld := ⟨15, 0⟩
-- MUS page, R493
def MUS_CFG_BW_CAPABLE : Fld := ⟨31, 31⟩
def MUS_CFG_JOIN : Fld := ⟨30, 30⟩
def MUS_CFG_PRIO : Fld := ⟨23, 16⟩
def MUS_CFG_ANN_MS : Fld := ⟨15, 8⟩
def MUS_ID_PREF_EN : Fld := ⟨31, 31⟩
def MUS_ID_PREF_ID : Fld := ⟨14, 0⟩
def MUS_SERIAL_HI_SER : Fld := ⟨15, 0⟩
def MUS_STAT_PHASE : Fld := ⟨31, 28⟩
def MUS_STAT_IS_BW : Fld := ⟨27, 27⟩
def MUS_STAT_CONFLICT : Fld := ⟨26, 26⟩
def MUS_STAT_DEEP : Fld := ⟨25, 25⟩
def MUS_STAT_REGION_SPLIT : Fld := ⟨24, 24⟩
def MUS_STAT_PARENT_A : Fld := ⟨23, 22⟩
def MUS_STAT_PARENT_B : Fld := ⟨21, 20⟩
def MUS_STAT_LEVEL_A : Fld := ⟨15, 8⟩
def MUS_STAT_LEVEL_B : Fld := ⟨7, 0⟩
def MUS_BW_ID : Fld := ⟨14, 0⟩
def MUS_CMD_KEY : Fld := ⟨31, 16⟩
def MUS_CMD_OP : Fld := ⟨3, 0⟩
def MUS_REPL_ID_ID : Fld := ⟨14, 0⟩
def MUS_REPL_SER_HI_SER : Fld := ⟨15, 0⟩
def MUS_MEMBERS_COUNT : Fld := ⟨14, 0⟩
def MUS_QUERY_ID : Fld := ⟨14, 0⟩
def MUS_QRES_HI_STATE : Fld := ⟨31, 30⟩
def MUS_QRES_HI_SER : Fld := ⟨15, 0⟩
-- SHD page, R535
def SHD_STAT_LATCH : Fld := ⟨31, 31⟩
def SHD_STAT_PERMIT : Fld := ⟨30, 30⟩
def SHD_STAT_SGR : Fld := ⟨29, 28⟩
def SHD_STAT_SBT_TRIPPED : Fld := ⟨27, 27⟩
def SHD_STAT_DEGRADED : Fld := ⟨26, 26⟩
def SHD_STAT_STARTUP_OK : Fld := ⟨25, 25⟩
def SHD_STAT_OSC_OK : Fld := ⟨24, 24⟩
def SHD_CMD_KEY : Fld := ⟨31, 16⟩
def SHD_CMD_OP : Fld := ⟨3, 0⟩
def SHD_CAUSE_CLASS : Fld := ⟨19, 16⟩
def SHD_CAUSE_INDEX : Fld := ⟨15, 8⟩
def SHD_CAUSE_CODE : Fld := ⟨7, 0⟩
def SHD_CAUSES_SEEN_SEEN : Fld := ⟨17, 0⟩
def SHD_DEG_SET_SCOM : Fld := ⟨23, 16⟩
def SHD_DEG_SET_SOUT : Fld := ⟨15, 8⟩
def SHD_DEG_SET_TWIN : Fld := ⟨1, 0⟩
def SHD_CRED_STAT_ACTIVE : Fld := ⟨31, 31⟩
def SHD_CRED_STAT_BUSY : Fld := ⟨30, 30⟩
def SHD_CRED_STAT_FAIL : Fld := ⟨27, 24⟩
def SHD_CRED_STAT_MIN_REM : Fld := ⟨7, 0⟩
def SHD_CRED_PTR_OFS8 : Fld := ⟨19, 0⟩
def SHD_LOG_STAT_FAIL : Fld := ⟨31, 31⟩
def SHD_LOG_STAT_SURV : Fld := ⟨30, 26⟩
def SHD_LOG_STAT_FIFO : Fld := ⟨25, 17⟩
def SHD_LOG_STAT_LOST : Fld := ⟨15, 0⟩
def SHD_ST_STAT_DCU_TESTS : Fld := ⟨31, 16⟩
def SHD_ST_STAT_SOUT_TESTS : Fld := ⟨15, 0⟩
def SHD_DEMAND_XMD_XMD : Fld := ⟨23, 0⟩
def SHD_DEMAND_AG_GDI : Fld := ⟨31, 16⟩
def SHD_DEMAND_AG_ACMP : Fld := ⟨15, 0⟩
-- SIN page, R536
def SIN_STAT_RAW : Fld := ⟨31, 16⟩
def SIN_STAT_FAULT : Fld := ⟨15, 8⟩
def SIN_STAT_PERMISSIVE : Fld := ⟨7, 0⟩
def SIN_STATE_PAIR_7 : Fld := ⟨23, 21⟩
def SIN_STATE_PAIR_6 : Fld := ⟨20, 18⟩
def SIN_STATE_PAIR_5 : Fld := ⟨17, 15⟩
def SIN_STATE_PAIR_4 : Fld := ⟨14, 12⟩
def SIN_STATE_PAIR_3 : Fld := ⟨11, 9⟩
def SIN_STATE_PAIR_2 : Fld := ⟨8, 6⟩
def SIN_STATE_PAIR_1 : Fld := ⟨5, 3⟩
def SIN_STATE_PAIR_0 : Fld := ⟨2, 0⟩
-- SOUT page, R536
def SOUT_REQ_REQ : Fld := ⟨7, 0⟩
def SOUT_STAT_M_STUCK : Fld := ⟨31, 24⟩
def SOUT_STAT_P_STUCK : Fld := ⟨23, 16⟩
def SOUT_STAT_PASSED : Fld := ⟨15, 8⟩
def SOUT_STAT_ON : Fld := ⟨7, 0⟩
def SOUT_FAIL_OFF_FAIL : Fld := ⟨15, 8⟩
def SOUT_FAIL_ON_FAIL : Fld := ⟨7, 0⟩
def SOUT_RB_RBS : Fld := ⟨15, 0⟩
def SOUT_CMD_KEY : Fld := ⟨31, 16⟩
def SOUT_CMD_TEST : Fld := ⟨7, 0⟩
-- SCOM page, R536
def SCOM_RX_STAT_STATE : Fld := ⟨31, 30⟩
def SCOM_RX_STAT_SAFE : Fld := ⟨29, 29⟩
def SCOM_RX_STAT_DEGR : Fld := ⟨28, 28⟩
def SCOM_RX_STAT_A_OK : Fld := ⟨27, 27⟩
def SCOM_RX_STAT_B_OK : Fld := ⟨26, 26⟩
def SCOM_RX_STAT_PLANE_FAULT : Fld := ⟨25, 25⟩
def SCOM_RX_STAT_PEER_STATE : Fld := ⟨19, 16⟩
def SCOM_RX_STAT_SEQ : Fld := ⟨15, 0⟩
def SCOM_ERR_0_CHECK : Fld := ⟨31, 16⟩
def SCOM_ERR_0_MISMATCH : Fld := ⟨15, 0⟩
def SCOM_ERR_1_SEQ : Fld := ⟨31, 16⟩
def SCOM_ERR_1_AGE : Fld := ⟨15, 0⟩
-- SCFG page, R537
def SCFG_GEN_PLANE_DEG : Fld := ⟨31, 31⟩
def SCFG_GEN_GRACE_MIN : Fld := ⟨12, 0⟩
def SCFG_SBT_MASK_MASK : Fld := ⟨17, 0⟩
def SCFG_LOG_CFG_EN : Fld := ⟨31, 31⟩
def SCFG_LOG_CFG_BASE : Fld := ⟨4, 0⟩
def SCFG_SIN_EN : Fld := ⟨31, 31⟩
def SCFG_SIN_MODE : Fld := ⟨30, 30⟩
def SCFG_SIN_ACT : Fld := ⟨29, 28⟩
def SCFG_SIN_DISC_MS : Fld := ⟨27, 18⟩
def SCFG_SIN_DEB_MS : Fld := ⟨17, 13⟩
def SCFG_SIN_DLY : Fld := ⟨9, 0⟩
def SCFG_SO_CFG_FUNC : Fld := ⟨31, 30⟩
def SCFG_SO_CFG_TEST : Fld := ⟨29, 29⟩
def SCFG_SO_CFG_TRIP_LEVEL : Fld := ⟨28, 28⟩
def SCFG_SO_CFG_W : Fld := ⟨27, 23⟩
def SCFG_SO_CFG_TSET : Fld := ⟨22, 15⟩
def SCFG_SO_CFG_TRIP_MS : Fld := ⟨14, 7⟩
def SCFG_SO_MAP_HB : Fld := ⟨31, 16⟩
def SCFG_SO_MAP_PERIOD_MS : Fld := ⟨15, 0⟩
def SCFG_TX_A_EN : Fld := ⟨31, 31⟩
def SCFG_TX_A_CAST : Fld := ⟨30, 30⟩
def SCFG_TX_A_DEST : Fld := ⟨14, 0⟩
def SCFG_TX_B_CONN_ID : Fld := ⟨31, 16⟩
def SCFG_TX_B_PERIOD_MS : Fld := ⟨9, 0⟩
def SCFG_RX_A_EN : Fld := ⟨31, 31⟩
def SCFG_RX_A_ACT_TMO : Fld := ⟨30, 30⟩
def SCFG_RX_A_ACT_SAFE : Fld := ⟨29, 29⟩
def SCFG_RX_A_SRC : Fld := ⟨14, 0⟩
def SCFG_RX_B_CONN_ID : Fld := ⟨31, 16⟩
def SCFG_RX_B_WDOG_MS : Fld := ⟨9, 0⟩
-- TWN page, R575
def TWN_STAT_STATE : Fld := ⟨31, 28⟩
def TWN_STAT_DEGR : Fld := ⟨27, 27⟩
def TWN_STAT_LAG : Fld := ⟨23, 12⟩
def TWN_STAT_HIST : Fld := ⟨11, 10⟩
def TWN_STAT_RB_FILL : Fld := ⟨9, 0⟩
def TWN_SAVE_OFS8 : Fld := ⟨19, 0⟩
def TWN_PRIV_S_SIZE : Fld := ⟨31, 16⟩
def TWN_PRIV_S_BASE : Fld := ⟨15, 0⟩
def TWN_PRIV_D_SIZE : Fld := ⟨31, 16⟩
def TWN_PRIV_D_BASE : Fld := ⟨15, 0⟩
def TWN_CNT_0_DEEP_EARLY : Fld := ⟨31, 16⟩
def TWN_CNT_0_RB_DISCARD : Fld := ⟨15, 0⟩
def TWN_CNT_1_ECC_CE : Fld := ⟨31, 16⟩
def TWN_CNT_1_STALLS : Fld := ⟨15, 0⟩
-- DCU page, R576
def DCU_STAT_ST_X_OK : Fld := ⟨31, 31⟩
def DCU_STAT_ST_Y_OK : Fld := ⟨30, 30⟩
def DCU_STAT_INJ_ARMED : Fld := ⟨29, 29⟩
def DCU_MISM_KIND : Fld := ⟨31, 28⟩
def DCU_MISM_TWIN : Fld := ⟨25, 24⟩
def DCU_MISM_X_MISM : Fld := ⟨23, 23⟩
def DCU_MISM_Y_MISM : Fld := ⟨22, 22⟩
def DCU_MISM_ADDR : Fld := ⟨21, 0⟩
def DCU_CNT_DEEP : Fld := ⟨31, 16⟩
def DCU_CNT_CKPT : Fld := ⟨15, 0⟩
def DCU_CMD_KEY : Fld := ⟨31, 16⟩
def DCU_CMD_TWIN : Fld := ⟨8, 8⟩
def DCU_CMD_OP : Fld := ⟨3, 0⟩
-- LAP page, R577
def LAP_CTL_EN : Fld := ⟨31, 31⟩
def LAP_CTL_FRZ_ON_RESET : Fld := ⟨30, 30⟩
def LAP_CTL_POST_MS : Fld := ⟨15, 0⟩
def LAP_CFG_TW_ANCHOR_S : Fld := ⟨31, 24⟩
def LAP_CFG_ANCHOR_MS : Fld := ⟨15, 0⟩
def LAP_CMD_KEY : Fld := ⟨31, 16⟩
def LAP_CMD_OP : Fld := ⟨3, 0⟩
def LAP_ARM_ARM_S : Fld := ⟨15, 0⟩
def LAP_TRIG_EN : Fld := ⟨31, 31⟩
def LAP_TRIG_SRC : Fld := ⟨7, 0⟩
def LAP_STAT_STATE : Fld := ⟨31, 28⟩
def LAP_STAT_ARMED : Fld := ⟨27, 27⟩
def LAP_STAT_WRAPPED : Fld := ⟨26, 26⟩
def LAP_STAT_TRIG : Fld := ⟨25, 24⟩
def LAP_STAT_GAP_STOP : Fld := ⟨23, 23⟩
def LAP_STAT_GAPS : Fld := ⟨15, 0⟩
def LAP_HEAD_OFS : Fld := ⟨24, 0⟩
def LAP_RST_HEAD_OFS : Fld := ⟨24, 0⟩
def LAP_ANCHOR_OFS : Fld := ⟨24, 0⟩
def LAP_TWA_VALID : Fld := ⟨31, 30⟩
def LAP_TWA_OFS : Fld := ⟨24, 0⟩
def LAP_REPLAY_CFG_SCOPE : Fld := ⟨31, 31⟩
def LAP_REPLAY_CFG_BREAK_EN : Fld := ⟨30, 30⟩
def LAP_REPLAY_CFG_START : Fld := ⟨24, 0⟩
def LAP_STOP_OFS : Fld := ⟨24, 0⟩
def LAP_DIV_FOUND : Fld := ⟨31, 31⟩
def LAP_DIV_OFS : Fld := ⟨24, 0⟩
def LAP_TWB_VALID : Fld := ⟨31, 30⟩
def LAP_TWB_OFS : Fld := ⟨24, 0⟩
-- VAUX page, R613
def VAUX_CFG_EW_TH : Fld := ⟨15, 8⟩
def VAUX_CFG_RPS_EN : Fld := ⟨0, 0⟩
def VAUX_STAT_PG : Fld := ⟨31, 31⟩
def VAUX_STAT_EW : Fld := ⟨30, 30⟩
def VAUX_STAT_RPS_ON : Fld := ⟨29, 29⟩
def VAUX_STAT_REV_SEEN : Fld := ⟨28, 28⟩
def VAUX_STAT_OV_SEEN : Fld := ⟨27, 27⟩
def VAUX_STAT_UV_SEEN : Fld := ⟨26, 26⟩
def VAUX_STAT_EW_COUNT : Fld := ⟨15, 0⟩
-- VCR page, R614
def VCR_CTL_SLEW : Fld := ⟨23, 16⟩
def VCR_CTL_TARGET : Fld := ⟨9, 0⟩
def VCR_PH_CFG_HYS_MS : Fld := ⟨31, 20⟩
def VCR_PH_CFG_ROT_S : Fld := ⟨19, 12⟩
def VCR_PH_CFG_MAX_PH : Fld := ⟨6, 4⟩
def VCR_PH_CFG_MIN_PH : Fld := ⟨2, 0⟩
def VCR_THR_I_ADD : Fld := ⟨31, 24⟩
def VCR_THR_I_SHED : Fld := ⟨23, 16⟩
def VCR_THR_STEP : Fld := ⟨15, 8⟩
def VCR_STAT_PG : Fld := ⟨31, 31⟩
def VCR_STAT_SLEWING : Fld := ⟨30, 30⟩
def VCR_STAT_SHED_PEND : Fld := ⟨29, 29⟩
def VCR_STAT_OT_WARN : Fld := ⟨28, 28⟩
def VCR_STAT_ACTIVE : Fld := ⟨27, 24⟩
def VCR_STAT_BASE : Fld := ⟨23, 22⟩
def VCR_STAT_REF : Fld := ⟨9, 0⟩
def VCR_PH_STAT_WARN : Fld := ⟨31, 31⟩
def VCR_PH_STAT_SHUT : Fld := ⟨30, 30⟩
def VCR_PH_STAT_TEMP : Fld := ⟨23, 16⟩
def VCR_PH_STAT_I : Fld := ⟨7, 0⟩
def VCR_CNT_0_ADDS : Fld := ⟨31, 16⟩
def VCR_CNT_0_SHEDS : Fld := ⟨15, 0⟩
def VCR_CNT_1_STEPS : Fld := ⟨31, 16⟩
def VCR_CNT_1_SHUTS : Fld := ⟨15, 0⟩
-- SURV page, R615
def SURV_STAT_SUB : Fld := ⟨31, 28⟩
def SURV_STAT_TASK : Fld := ⟨27, 24⟩
def SURV_STAT_LOSS : Fld := ⟨23, 20⟩
def SURV_STAT_BCN_SEQ : Fld := ⟨15, 0⟩
def SURV_CFG_CLIM_EN : Fld := ⟨31, 31⟩
def SURV_CFG_BCN_EN : Fld := ⟨30, 30⟩
def SURV_CFG_BASE : Fld := ⟨29, 29⟩
def SURV_CFG_RXWIN_MS : Fld := ⟨23, 16⟩
def SURV_CFG_REPEAT : Fld := ⟨15, 12⟩
def SURV_CFG_WAKE_EN : Fld := ⟨3, 0⟩
def SURV_CLIM_BUDGET_UJ : Fld := ⟨31, 16⟩
def SURV_CLIM_PERIOD_S : Fld := ⟨15, 0⟩
def SURV_BCN_BUDGET_UJ : Fld := ⟨31, 16⟩
def SURV_BCN_PERIOD_S : Fld := ⟨15, 0⟩
def SURV_SRC_ID_ID : Fld := ⟨14, 0⟩
def SURV_RES_CLIM_RES : Fld := ⟨31, 28⟩
def SURV_RES_BCN_RES : Fld := ⟨27, 24⟩
def SURV_RES_SKIPS : Fld := ⟨15, 8⟩
def SURV_RES_ABORTS : Fld := ⟨7, 0⟩
def SURV_CMD_KEY : Fld := ⟨31, 16⟩
def SURV_CMD_OP : Fld := ⟨3, 0⟩
def SURV_CLIM_HEAD_WRAPPED : Fld := ⟨31, 31⟩
def SURV_CLIM_HEAD_NEXT : Fld := ⟨5, 0⟩
def SURV_RXSTAT_FULL : Fld := ⟨31, 31⟩
def SURV_RXSTAT_LEN : Fld := ⟨4, 0⟩
-- HRV page, R616
def HRV_CFG_EN : Fld := ⟨31, 31⟩
def HRV_CFG_SRC : Fld := ⟨29, 28⟩
def HRV_CFG_FOC : Fld := ⟨21, 16⟩
def HRV_CFG_FOC_S : Fld := ⟨15, 8⟩
def HRV_STAT_ACTIVE : Fld := ⟨31, 30⟩
def HRV_STAT_COLD_START : Fld := ⟨29, 29⟩
def HRV_STAT_P_IN : Fld := ⟨15, 0⟩
def HRV_VOC_VOC_TEG : Fld := ⟨31, 16⟩
def HRV_VOC_VOC_VIB : Fld := ⟨15, 0⟩
-- STORE page, R617
def STORE_CFG_KIND : Fld := ⟨31, 31⟩
def STORE_CFG_CHG_EN : Fld := ⟨30, 30⟩
def STORE_CFG_CHG : Fld := ⟨23, 16⟩
def STORE_CFG_VMAX : Fld := ⟨8, 0⟩
def STORE_THR0_T_CUT : Fld := ⟨24, 16⟩
def STORE_THR0_T_KEEP : Fld := ⟨8, 0⟩
def STORE_THR1_T_ABORT : Fld := ⟨24, 16⟩
def STORE_THR1_T_MEAS : Fld := ⟨8, 0⟩
def STORE_THR2_T_XMIT : Fld := ⟨8, 0⟩
def STORE_CEQ_CEQ : Fld := ⟨23, 0⟩
def STORE_NTC_DIS_HI : Fld := ⟨31, 24⟩
def STORE_NTC_DIS_LO : Fld := ⟨23, 16⟩
def STORE_NTC_CHG_HI : Fld := ⟨15, 8⟩
def STORE_NTC_CHG_LO : Fld := ⟨7, 0⟩
def STORE_STAT_LEVEL : Fld := ⟨31, 29⟩
def STORE_STAT_SUPPLY : Fld := ⟨28, 28⟩
def STORE_STAT_LI_CONN : Fld := ⟨27, 27⟩
def STORE_STAT_CHARGING : Fld := ⟨26, 26⟩
def STORE_STAT_CHG_DONE : Fld := ⟨25, 25⟩
def STORE_STAT_PROT : Fld := ⟨23, 20⟩
def STORE_STAT_VSTORE : Fld := ⟨15, 0⟩
def STORE_STAT2_LI_TEMP : Fld := ⟨31, 24⟩
def STORE_STAT2_PROT_COUNT : Fld := ⟨15, 0⟩
end F
end Sys2Proof.Machine
end

