-- ==== Sys2Proof/Machine/RegTable.lean ====
section
/-!
DEFINITION. The register map: for each page kind of R673 its base, its number of instances and its block code, and for
each of its registers the offset, the number of copies and their spacing, the reset value and the masks of the bits of
each access code of R6 (RW, RWT, W1C; WO marks the bits a write acts on; every other bit is RO or reserved and reads 0
where reserved, R9). Written from the register tables of the chapters.
-/
namespace Sys2Proof.Machine

/-- One register, or `n` registers `stride` bytes apart, of a page (offsets within the page). `inst0` marks a register
that only instance 0 of the page kind has; `virt` one whose content is held outside the plain register file (a banked
or windowed register). -/
structure RegEntry where
  off : Nat
  n : Nat
  stride : Nat
  reset : Nat
  rw : Nat
  rwt : Nat
  w1c : Nat
  wo : Nat
  inst0 : Bool
  virt : Bool
  deriving DecidableEq, Repr

/-- One page kind of R673 (base as an offset from 0x4000_0000, number of instances, block code), with its registers
from +0x100 upward. `snap` and `lockable` are PG_CAP.SNAP and PG_CAP.LOCKABLE. -/
structure PageKind where
  base : Nat
  inst : Nat
  block : Nat
  snap : Bool
  lockable : Bool
  regs : List RegEntry
  deriving DecidableEq, Repr

namespace RegTable

/-- The registers of the SYS page (R40). -/
def sys : List RegEntry :=
   [⟨0x100, 1, 0x4, 0x72160102, 0x0, 0x0, 0x0, 0x0, false, false⟩,
    ⟨0x104, 1, 0x4, 0x2, 0x0, 0x0, 0x0, 0x0, false, false⟩,
    ⟨0x108, 1, 0x4, 0x1, 0x0, 0x0, 0x1F, 0x0, false, false⟩,
    ⟨0x10C, 1, 0x4, 0x0, 0x0, 0x0, 0x0, 0xFFFFFFFF, false, false⟩,
    ⟨0x110, 1, 0x4, 0x0, 0x0, 0x0, 0x0, 0xFFFFFFFF, false, false⟩,
    ⟨0x114, 1, 0x4, 0x0, 0x0, 0x0, 0x0, 0x0, false, false⟩,
    ⟨0x118, 2, 0x4, 0x0, 0x0, 0x0, 0x0, 0x0, false, false⟩]

/-- The registers of the TXN page (R95). -/
def txn : List RegEntry :=
   [⟨0x100, 1, 0x4, 0x0, 0x0, 0x0, 0x0, 0xFFFFFFFF, false, true⟩,
    ⟨0x104, 1, 0x4, 0x3E80000, 0xFFFF00FF, 0x0, 0x0, 0x0, false, true⟩,
    ⟨0x108, 2, 0x4, 0x0, 0xFFFFFFFF, 0x0, 0x0, 0x0, false, true⟩,
    ⟨0x110, 1, 0x4, 0x0, 0xFFFFFFFF, 0x0, 0x0, 0x0, false, true⟩,
    ⟨0x114, 1, 0x4, 0x640032, 0xFFFFFFFF, 0x0, 0x0, 0x0, false, true⟩,
    ⟨0x118, 1, 0x4, 0x0, 0x80007FFF, 0x0, 0x0, 0x0, false, true⟩,
    ⟨0x11C, 1, 0x4, 0x0, 0x7FFF, 0x0, 0x0, 0x0, false, true⟩,
    ⟨0x120, 1, 0x4, 0x0, 0x0, 0x0, 0x0, 0x0, false, true⟩,
    ⟨0x124, 1, 0x4, 0x0, 0x0, 0x0, 0x0, 0x0, false, true⟩,
    ⟨0x144, 15, 0x4, 0x0, 0x0, 0x0, 0x0, 0x0, false, false⟩,
    ⟨0x180, 1, 0x4, 0x0, 0x0, 0x0, 0x0, 0x0, false, false⟩,
    ⟨0x184, 1, 0x4, 0x1000, 0x0, 0x0, 0x0, 0x0, false, false⟩,
    ⟨0x188, 1, 0x4, 0x0, 0x0, 0x0, 0x0, 0xFFFFFFFF, false, false⟩,
    ⟨0x18C, 1, 0x4, 0x0, 0x0, 0x0, 0x0, 0x0, false, false⟩,
    ⟨0x190, 1, 0x4, 0x0, 0x0, 0x0, 0x0, 0x0, false, false⟩]

/-- The registers of the EVR page (R97). -/
def evr : List RegEntry :=
   [⟨0x100, 256, 0x4, 0x0, 0x0, 0xFF03FE0F, 0x0, 0x0, false, false⟩,
    ⟨0x500, 8, 0x4, 0x0, 0x0, 0x0, 0x0, 0x0, false, false⟩,
    ⟨0x520, 8, 0x4, 0x0, 0x0, 0x0, 0x0, 0x0, false, false⟩,
    ⟨0x540, 2, 0x4, 0x0, 0x0, 0x0, 0x0, 0x0, false, false⟩,
    ⟨0x548, 2, 0x4, 0x0, 0x0, 0x0, 0x0, 0xFFFFFFFF, false, false⟩,
    ⟨0x550, 2, 0x4, 0x1, 0xF, 0x0, 0x0, 0x0, false, false⟩,
    ⟨0x558, 1, 0x4, 0x0, 0x0, 0x0, 0x0, 0x0, false, false⟩]

/-- The registers of the CLK page (R142). -/
def clk : List RegEntry :=
   [⟨0x100, 1, 0x4, 0x500000, 0xF00F03, 0x0, 0x0, 0x0, false, false⟩,
    ⟨0x104, 1, 0x4, 0x0, 0x0, 0x0, 0x0, 0xFFFFFFFF, false, false⟩,
    ⟨0x108, 1, 0x4, 0x0, 0x0, 0x0, 0x0, 0x0, false, false⟩,
    ⟨0x140, 8, 0x4, 0x0, 0x80FFF077, 0x0, 0x0, 0x0, false, false⟩,
    ⟨0x180, 4, 0x10, 0x0, 0xF, 0x0, 0x0, 0x0, false, false⟩,
    ⟨0x184, 4, 0x10, 0x40000, 0xFFFFFFFF, 0x0, 0x0, 0x0, false, false⟩,
    ⟨0x188, 4, 0x10, 0x7800, 0xF000FFE1, 0x0, 0x0, 0x0, false, false⟩]

/-- The registers of the HTM page (R143). -/
def htm : List RegEntry :=
   [⟨0x100, 2, 0x4, 0x0, 0x0, 0x0, 0x0, 0x0, false, false⟩,
    ⟨0x108, 1, 0x4, 0x641, 0xFFFF, 0x0, 0x0, 0x0, false, false⟩,
    ⟨0x10C, 1, 0x4, 0x0, 0xFFFFFFFF, 0x0, 0x0, 0x0, false, false⟩,
    ⟨0x110, 1, 0x4, 0x0, 0x0, 0x0, 0x0, 0xFFFFFFFF, false, false⟩,
    ⟨0x114, 1, 0x4, 0x0, 0x0, 0x0, 0x0, 0x0, false, false⟩,
    ⟨0x118, 2, 0x4, 0x0, 0xFFFFFFFF, 0x0, 0x0, 0x0, false, false⟩,
    ⟨0x120, 1, 0x4, 0x0, 0x0, 0x0, 0x0, 0xFFFFFFFF, false, false⟩,
    ⟨0x124, 1, 0x4, 0x4000000, 0x0, 0x0, 0x10000000, 0x0, false, false⟩,
    ⟨0x128, 1, 0x4, 0x2710, 0xC007FFFF, 0x0, 0x0, 0x0, false, false⟩,
    ⟨0x12C, 1, 0x4, 0x0, 0xFFFFFFFF, 0x0, 0x0, 0x0, false, false⟩,
    ⟨0x130, 2, 0x4, 0x0, 0x3FF, 0x0, 0x80000000, 0x0, false, false⟩,
    ⟨0x140, 4, 0x4, 0x0, 0x0, 0x0, 0x0, 0x0, false, false⟩,
    ⟨0x150, 2, 0x4, 0x0, 0x0, 0x0, 0x0, 0x0, false, false⟩,
    ⟨0x158, 1, 0x4, 0x0, 0x0, 0x0, 0x0, 0x0, false, false⟩]

/-- The registers of the RTC page (R144). -/
def rtc : List RegEntry :=
   [⟨0x100, 1, 0x4, 0x0, 0x0, 0x0, 0x0, 0x0, false, false⟩,
    ⟨0x104, 1, 0x4, 0x0, 0x0, 0x0, 0x0, 0x0, false, false⟩,
    ⟨0x108, 1, 0x4, 0x0, 0xFFFFFFFF, 0x0, 0x0, 0x0, false, false⟩,
    ⟨0x10C, 1, 0x4, 0x0, 0x7FFF00FF, 0x0, 0x0, 0x0, false, false⟩,
    ⟨0x110, 1, 0x4, 0x0, 0x0, 0x0, 0x0, 0xFFFFFFFF, false, false⟩,
    ⟨0x114, 1, 0x4, 0xA, 0xF, 0x0, 0x0, 0x0, false, false⟩,
    ⟨0x118, 1, 0x4, 0x40000000, 0x0, 0x0, 0x20000000, 0x0, false, false⟩,
    ⟨0x11C, 1, 0x4, 0x25, 0xFFFF, 0x0, 0x0, 0x0, false, false⟩,
    ⟨0x120, 2, 0xC, 0x0, 0xFFFFFFFF, 0x0, 0x0, 0x0, false, false⟩,
    ⟨0x124, 2, 0xC, 0x0, 0x800000FF, 0x0, 0x0, 0x0, false, false⟩,
    ⟨0x128, 2, 0xC, 0x0, 0xFFFFFFFF, 0x0, 0x0, 0x0, false, false⟩,
    ⟨0x140, 8, 0x4, 0x0, 0xFF00FFFF, 0x0, 0x0, 0x0, false, false⟩,
    ⟨0x160, 1, 0x4, 0x200, 0xFFFF03FF, 0x0, 0x0, 0x0, false, false⟩]

/-- The registers of the HPT page (R644). -/
def hpt : List RegEntry :=
   [⟨0x100, 1, 0x4, 0xC0000000, 0xC0000000, 0x0, 0x0, 0x0, false, false⟩,
    ⟨0x104, 1, 0x4, 0x40000000, 0x0, 0x0, 0x10000000, 0x0, false, false⟩,
    ⟨0x108, 1, 0x4, 0x0, 0x9FFFFFFF, 0x0, 0x0, 0x0, false, false⟩,
    ⟨0x10C, 1, 0x4, 0x0, 0x0, 0x0, 0x0, 0xFFFFFFFF, false, false⟩,
    ⟨0x110, 1, 0x4, 0x0, 0x0, 0x0, 0x60000000, 0x0, false, false⟩,
    ⟨0x140, 16, 0x4, 0x0, 0xFFFFFFFF, 0x0, 0x0, 0x0, false, false⟩]

/-- The registers of the BOOT page (R645). -/
def boot : List RegEntry :=
   [⟨0x100, 1, 0x4, 0x0, 0x0, 0x0, 0x0, 0x0, false, false⟩,
    ⟨0x104, 1, 0x4, 0x0, 0x60000000, 0x0, 0x0, 0x0, false, false⟩,
    ⟨0x108, 1, 0x4, 0x0, 0x0, 0x0, 0x0, 0xFFFFFFFF, false, false⟩,
    ⟨0x10C, 1, 0x4, 0x0, 0xC0000000, 0x0, 0x0, 0x0, false, false⟩,
    ⟨0x120, 1, 0x4, 0x0, 0x0, 0x0, 0x0, 0x0, false, false⟩,
    ⟨0x140, 1, 0x4, 0x0, 0x0, 0x0, 0x0, 0xFFFFFFFF, false, false⟩,
    ⟨0x144, 1, 0x4, 0x0, 0xFFFFFFFF, 0x0, 0x0, 0x0, false, false⟩,
    ⟨0x148, 1, 0x4, 0x0, 0xFFFFFFFF, 0x0, 0x0, 0x0, false, false⟩,
    ⟨0x14C, 1, 0x4, 0x0, 0x0, 0x0, 0x60000000, 0x0, false, false⟩,
    ⟨0x110, 1, 0x4, 0x0, 0xFFFFF, 0x0, 0x0, 0x0, false, false⟩,
    ⟨0x114, 1, 0x4, 0x0, 0xFFFFF, 0x0, 0x0, 0x0, false, false⟩,
    ⟨0x118, 2, 0x4, 0x0, 0x0, 0x0, 0x0, 0x0, false, false⟩,
    ⟨0x130, 4, 0x4, 0x0, 0x0, 0x0, 0x0, 0x0, false, false⟩]

/-- The registers of the SEC page (R647). -/
def sec : List RegEntry :=
   [⟨0x100, 1, 0x4, 0x0, 0x0, 0x0, 0x0, 0xFFFFFFFF, false, false⟩,
    ⟨0x104, 1, 0x4, 0x0, 0x0, 0x0, 0x40000000, 0x0, false, false⟩,
    ⟨0x108, 1, 0x4, 0x0, 0xFFFFF, 0x0, 0x0, 0x0, false, false⟩,
    ⟨0x10C, 1, 0x4, 0x0, 0x0, 0x0, 0x0, 0x0, false, false⟩,
    ⟨0x140, 24, 0x4, 0x0, 0x0, 0x0, 0x0, 0x0, false, false⟩]

/-- The registers of the OTP page (R649). -/
def otp : List RegEntry :=
   [⟨0x100, 1, 0x4, 0x0, 0x0, 0x0, 0x0, 0xFFFFFFFF, false, false⟩,
    ⟨0x104, 1, 0x4, 0x0, 0xFFFFFFFF, 0x0, 0x0, 0x0, false, false⟩,
    ⟨0x108, 1, 0x4, 0x0, 0x0, 0x0, 0x70000000, 0x0, false, false⟩,
    ⟨0x800, 512, 0x4, 0x0, 0x0, 0x0, 0x0, 0x0, false, false⟩]

/-- The registers of the MEM page (R675). -/
def mem : List RegEntry :=
   [⟨0x100, 1, 0x4, 0x0, 0x0, 0x0, 0x0, 0x0, false, false⟩,
    ⟨0x104, 1, 0x4, 0x0, 0x0, 0x0, 0x0, 0x0, false, false⟩,
    ⟨0x108, 1, 0x4, 0x0, 0x0, 0x0, 0x0, 0x0, false, false⟩]

/-- The registers of the AFE page (R190). -/
def afe : List RegEntry :=
   [⟨0x100, 1, 0x4, 0x2, 0x3, 0x0, 0x0, 0x0, false, false⟩,
    ⟨0x104, 1, 0x4, 0x0, 0x0, 0x0, 0x0, 0xFFFFFFFF, false, false⟩,
    ⟨0x108, 1, 0x4, 0x820, 0x0, 0x0, 0x10000000, 0x0, false, false⟩,
    ⟨0x10C, 1, 0x4, 0x400003, 0xFFFF000F, 0x0, 0x0, 0x0, false, false⟩,
    ⟨0x110, 1, 0x4, 0x0, 0x3F01000F, 0x0, 0x0, 0x0, false, false⟩,
    ⟨0x114, 1, 0x4, 0x1, 0x3F01000F, 0x0, 0x0, 0x0, false, false⟩,
    ⟨0x118, 1, 0x4, 0x2, 0x3F01000F, 0x0, 0x0, 0x0, false, false⟩,
    ⟨0x11C, 1, 0x4, 0x3, 0x3F01000F, 0x0, 0x0, 0x0, false, false⟩,
    ⟨0x120, 1, 0x4, 0x4, 0x3F01000F, 0x0, 0x0, 0x0, false, false⟩,
    ⟨0x124, 1, 0x4, 0x6, 0x3F01000F, 0x0, 0x0, 0x0, false, false⟩,
    ⟨0x128, 1, 0x4, 0x7, 0x3F01000F, 0x0, 0x0, 0x0, false, false⟩,
    ⟨0x12C, 1, 0x4, 0x8, 0x3F01000F, 0x0, 0x0, 0x0, false, false⟩,
    ⟨0x130, 1, 0x4, 0x9, 0x3F01000F, 0x0, 0x0, 0x0, false, false⟩,
    ⟨0x134, 1, 0x4, 0xA, 0x3F01000F, 0x0, 0x0, 0x0, false, false⟩,
    ⟨0x140, 10, 0x4, 0x0, 0x0, 0x0, 0x0, 0x0, false, false⟩,
    ⟨0x180, 12, 0x4, 0x0, 0xFFFFFF, 0x0, 0x0, 0x0, false, false⟩,
    ⟨0x200, 12, 0x20, 0x400000, 0xFFFFFF, 0x0, 0x0, 0x0, false, false⟩,
    ⟨0x204, 12, 0x20, 0x400000, 0xFFFFFF, 0x0, 0x0, 0x0, false, false⟩,
    ⟨0x208, 12, 0x20, 0x400000, 0xFFFFFF, 0x0, 0x0, 0x0, false, false⟩,
    ⟨0x20C, 12, 0x20, 0x400000, 0xFFFFFF, 0x0, 0x0, 0x0, false, false⟩,
    ⟨0x210, 12, 0x20, 0x400000, 0xFFFFFF, 0x0, 0x0, 0x0, false, false⟩]

/-- The registers of the SEQ page (R191). -/
def seq : List RegEntry :=
   [⟨0x100, 1, 0x4, 0x0, 0x3, 0x0, 0x0, 0x0, false, false⟩,
    ⟨0x104, 1, 0x4, 0x0, 0x0, 0x0, 0x0, 0x0, false, false⟩,
    ⟨0x108, 2, 0x4, 0x0, 0x0, 0x0, 0x0, 0x0, false, false⟩,
    ⟨0x110, 1, 0x4, 0x0, 0x0, 0x0, 0x0, 0x0, false, false⟩,
    ⟨0x118, 4, 0x4, 0x0, 0x0, 0x0, 0x0, 0x0, false, false⟩,
    ⟨0x200, 64, 0x8, 0x4E20000, 0x0, 0xFFFFFF1F, 0x0, 0x0, false, false⟩,
    ⟨0x204, 64, 0x8, 0x0, 0x0, 0xFFFFFFFF, 0x0, 0x0, false, false⟩,
    ⟨0x400, 64, 0x8, 0x4E20000, 0x0, 0xFFFFFF1F, 0x0, 0x0, false, false⟩,
    ⟨0x404, 64, 0x8, 0x0, 0x0, 0xFFFFFFFF, 0x0, 0x0, false, false⟩]

/-- The registers of the XMD page (R192). -/
def xmd : List RegEntry :=
   [⟨0x100, 1, 0x4, 0x0, 0xBBBB, 0x0, 0x0, 0x0, true, false⟩,
    ⟨0x110, 12, 0x20, 0x140000, 0x0, 0x7FFF07, 0x0, 0x0, false, false⟩,
    ⟨0x114, 12, 0x20, 0x20, 0x0, 0xFFFFF1FF, 0x0, 0x0, false, false⟩,
    ⟨0x118, 12, 0x20, 0x0, 0x0, 0xFFFF, 0x0, 0x0, false, false⟩,
    ⟨0x11C, 12, 0x20, 0x110, 0x0, 0x80000F3F, 0x0, 0x0, false, false⟩,
    ⟨0x120, 12, 0x20, 0x7FFF8000, 0x0, 0xFFFFFFFF, 0x0, 0x0, false, false⟩,
    ⟨0x124, 12, 0x20, 0x0, 0x0, 0x0, 0x0, 0x0, false, false⟩,
    ⟨0x128, 12, 0x20, 0x0, 0x0, 0x0, 0xF, 0x0, false, false⟩]

/-- The registers of the ACMP page (R193). -/
def acmp : List RegEntry :=
   [⟨0x100, 16, 0x10, 0xC400000, 0x0, 0xFFE00000, 0x0, 0x0, false, false⟩,
    ⟨0x104, 16, 0x10, 0x3FF0000, 0x0, 0x3FF03FF, 0x0, 0x0, false, false⟩,
    ⟨0x108, 16, 0x10, 0x0, 0x0, 0x8F700FFF, 0x0, 0x0, false, false⟩,
    ⟨0x10C, 16, 0x10, 0x0, 0x0, 0x0, 0xF, 0x0, false, false⟩,
    ⟨0x200, 1, 0x4, 0x0, 0x0, 0x0, 0x0, 0xFFFFFFFF, false, false⟩,
    ⟨0x204, 1, 0x4, 0x1, 0xFFFF00FF, 0x0, 0x0, 0x0, false, false⟩]

/-- The registers of the STR page (R243). -/
def str : List RegEntry :=
   [⟨0x100, 1, 0x4, 0x0, 0x0, 0xFF01FF, 0x0, 0x0, false, false⟩,
    ⟨0x104, 1, 0x4, 0x30000000, 0x0, 0x0, 0x0, 0x0, false, false⟩,
    ⟨0x108, 1, 0x4, 0x0, 0x0, 0x0, 0x0, 0xFFFFFFFF, false, false⟩,
    ⟨0x10C, 1, 0x4, 0x0, 0x0, 0x0, 0x0, 0xFFFFFFFF, false, false⟩,
    ⟨0x110, 1, 0x4, 0x0, 0x1, 0x0, 0x0, 0x0, false, false⟩,
    ⟨0x114, 1, 0x4, 0x0, 0x0, 0x0, 0x0, 0x0, false, false⟩,
    ⟨0x118, 1, 0x4, 0x0, 0x0, 0x0, 0x0, 0x0, false, false⟩,
    ⟨0x11C, 1, 0x4, 0x0, 0x0, 0x0, 0x0, 0x0, false, false⟩,
    ⟨0x120, 1, 0x4, 0x0, 0x0, 0x0, 0x0, 0x0, false, false⟩,
    ⟨0x140, 8, 0x20, 0x10000, 0x0, 0xF0FF0700, 0x0, 0x0, false, false⟩,
    ⟨0x144, 8, 0x20, 0x0, 0x0, 0x83FF83FF, 0x0, 0x0, false, false⟩,
    ⟨0x148, 8, 0x20, 0x0, 0x0, 0x83FF83FF, 0x0, 0x0, false, false⟩,
    ⟨0x14C, 8, 0x20, 0x190, 0x0, 0xFFFFFFFF, 0x0, 0x0, false, false⟩,
    ⟨0x150, 8, 0x20, 0x0, 0x0, 0x0, 0x0, 0x0, false, false⟩,
    ⟨0x154, 8, 0x20, 0x0, 0x0, 0x0, 0x0, 0x0, false, false⟩,
    ⟨0x158, 8, 0x20, 0x0, 0x0, 0x0, 0x0, 0x0, false, false⟩,
    ⟨0x15C, 8, 0x20, 0x0, 0x0, 0x0, 0x0, 0x0, false, false⟩,
    ⟨0x240, 16, 0x4, 0x0, 0x0, 0x0, 0x0, 0x0, false, false⟩,
    ⟨0x280, 2, 0x4, 0x0, 0x0, 0x0, 0x0, 0x0, false, false⟩,
    ⟨0x300, 32, 0x4, 0x0, 0x0, 0xFFFFFFFF, 0x0, 0x0, false, false⟩,
    ⟨0x380, 4, 0x10, 0x0, 0x0, 0x870003FF, 0x0, 0x0, false, false⟩,
    ⟨0x384, 4, 0x10, 0x0, 0x0, 0xFFFFFFFF, 0x0, 0x0, false, false⟩,
    ⟨0x388, 4, 0x10, 0x0, 0x0, 0xFFFFFFFF, 0x0, 0x0, false, false⟩,
    ⟨0x38C, 4, 0x10, 0x0, 0x0, 0xFFFFFFFF, 0x0, 0x0, false, false⟩] ++
   [⟨0x400, 48, 0x10, 0x60000000, 0x0, 0xFFFF03FF, 0x0, 0x0, false, false⟩,
    ⟨0x404, 48, 0x10, 0x0, 0x0, 0x0, 0x0, 0x0, false, false⟩,
    ⟨0x408, 48, 0x10, 0x0, 0x0, 0x0, 0x0, 0x0, false, false⟩,
    ⟨0x40C, 48, 0x10, 0x0, 0x0, 0x0, 0x0, 0x0, false, false⟩,
    ⟨0x800, 512, 0x4, 0x40, 0x0, 0xFFFFFFFF, 0x0, 0x0, false, true⟩]

/-- The registers of the STRW page (R245). -/
def strw : List RegEntry :=
   [⟨0x100, 1, 0x4, 0x0, 0xF1F, 0x0, 0x0, 0x0, false, false⟩,
    ⟨0x400, 256, 0x4, 0x0, 0x0, 0xFFFFFF00, 0x0, 0x0, false, true⟩,
    ⟨0x800, 16, 0x80, 0x20, 0x0, 0xFFFFBF3F, 0x0, 0x0, false, true⟩,
    ⟨0x804, 16, 0x80, 0x0, 0x0, 0x83FF83FF, 0x0, 0x0, false, true⟩,
    ⟨0x808, 16, 0x80, 0x0, 0x0, 0x83FF83FF, 0x0, 0x0, false, true⟩,
    ⟨0x80C, 16, 0x80, 0x0, 0x0, 0x83FF83FF, 0x0, 0x0, false, true⟩,
    ⟨0x810, 16, 0x80, 0x0, 0x0, 0xFFF0F3F, 0x0, 0x0, false, true⟩,
    ⟨0x820, 16, 0x80, 0x0, 0x0, 0xFFFFFF00, 0x0, 0x0, false, true⟩,
    ⟨0x824, 16, 0x80, 0x0, 0x0, 0xFFFFFF00, 0x0, 0x0, false, true⟩,
    ⟨0x828, 16, 0x80, 0x0, 0x0, 0xFFFFFF00, 0x0, 0x0, false, true⟩,
    ⟨0x82C, 16, 0x80, 0x0, 0x0, 0xFFFFFF00, 0x0, 0x0, false, true⟩,
    ⟨0x830, 16, 0x80, 0x0, 0x0, 0xFFFFFF00, 0x0, 0x0, false, true⟩,
    ⟨0x834, 16, 0x80, 0x0, 0x0, 0x3F, 0x0, 0x0, false, true⟩,
    ⟨0x840, 16, 0x80, 0x0, 0x0, 0xFFFFFF00, 0x0, 0x0, false, true⟩,
    ⟨0x844, 16, 0x80, 0x0, 0x0, 0xFFFFFF00, 0x0, 0x0, false, true⟩,
    ⟨0x848, 16, 0x80, 0x0, 0x0, 0xFFFFFF00, 0x0, 0x0, false, true⟩,
    ⟨0x84C, 16, 0x80, 0x0, 0x0, 0xFFFFFF00, 0x0, 0x0, false, true⟩,
    ⟨0x850, 16, 0x80, 0x0, 0x0, 0xFFFFFF00, 0x0, 0x0, false, true⟩,
    ⟨0x854, 16, 0x80, 0x0, 0x0, 0x3F, 0x0, 0x0, false, true⟩,
    ⟨0x860, 16, 0x80, 0x0, 0x0, 0xFFFFFF00, 0x0, 0x0, false, true⟩,
    ⟨0x864, 16, 0x80, 0x0, 0x0, 0xFFFFFF00, 0x0, 0x0, false, true⟩,
    ⟨0x868, 16, 0x80, 0x20, 0x0, 0x3F, 0x0, 0x0, false, true⟩,
    ⟨0x86C, 16, 0x80, 0x0, 0x0, 0x0, 0x40000000, 0x0, false, true⟩]

/-- The registers of the PCR page (R246). -/
def pcr : List RegEntry :=
   [⟨0x100, 1, 0x4, 0x0, 0x0, 0xFFFF, 0x0, 0x0, false, false⟩,
    ⟨0x104, 1, 0x4, 0x0, 0x0, 0x0, 0x0, 0xFFFFFFFF, false, false⟩,
    ⟨0x108, 1, 0x4, 0x0, 0x0, 0x0, 0x0, 0x0, false, false⟩,
    ⟨0x10C, 1, 0x4, 0x0, 0x0, 0x0, 0x0, 0x0, false, false⟩,
    ⟨0x200, 16, 0x40, 0x0, 0x0, 0xF3FFFF00, 0x0, 0x0, false, false⟩,
    ⟨0x204, 16, 0x40, 0x0, 0x0, 0x3FF03FF, 0x0, 0x0, false, false⟩,
    ⟨0x208, 16, 0x40, 0x0, 0x0, 0xFFFFFF3F, 0x0, 0x0, false, false⟩,
    ⟨0x20C, 16, 0x40, 0x0, 0x0, 0xFFFFFFFF, 0x0, 0x0, false, false⟩,
    ⟨0x210, 16, 0x40, 0x0, 0x0, 0xFFFFFF3F, 0x0, 0x0, false, false⟩,
    ⟨0x214, 16, 0x40, 0x0, 0x0, 0xFFFFFF3F, 0x0, 0x0, false, false⟩,
    ⟨0x218, 16, 0x40, 0x0, 0x0, 0xFFFFFF3F, 0x0, 0x0, false, false⟩,
    ⟨0x21C, 16, 0x40, 0x0, 0x0, 0xFFFFFF3F, 0x0, 0x0, false, false⟩,
    ⟨0x220, 16, 0x40, 0x0, 0x0, 0xFFFFFF3F, 0x0, 0x0, false, false⟩,
    ⟨0x224, 16, 0x40, 0x0, 0x0, 0x1FF, 0x0, 0x0, false, false⟩,
    ⟨0x228, 16, 0x40, 0x0, 0x0, 0x0, 0x0, 0x0, false, false⟩,
    ⟨0x22C, 16, 0x40, 0x0, 0x0, 0x0, 0x0, 0x0, false, false⟩,
    ⟨0x230, 16, 0x40, 0x0, 0x0, 0x0, 0x0, 0x0, false, false⟩,
    ⟨0x234, 16, 0x40, 0x0, 0x0, 0x0, 0x0, 0x0, false, false⟩]

/-- The registers of the BPT page (R262). -/
def bpt : List RegEntry :=
   [⟨0x100, 1, 0x4, 0x0, 0x0, 0xF, 0x0, 0x0, false, false⟩,
    ⟨0x104, 1, 0x4, 0x0, 0x0, 0x0, 0x0, 0xFFFFFFFF, false, false⟩,
    ⟨0x108, 1, 0x4, 0x0, 0x0, 0x0, 0x0, 0x0, false, false⟩,
    ⟨0x200, 4, 0x40, 0x2000040, 0x0, 0xFF3F007F, 0x0, 0x0, false, false⟩,
    ⟨0x204, 4, 0x40, 0x0, 0x0, 0x3FF03FF, 0x0, 0x0, false, false⟩,
    ⟨0x208, 4, 0x40, 0x0, 0x0, 0x3FF03FF, 0x0, 0x0, false, false⟩,
    ⟨0x20C, 4, 0x40, 0x10, 0x0, 0x3FF07FF, 0x0, 0x0, false, false⟩,
    ⟨0x210, 4, 0x40, 0x0, 0x0, 0xFFFFFF3F, 0x0, 0x0, false, false⟩,
    ⟨0x214, 4, 0x40, 0x0, 0x0, 0xFFFFFF3F, 0x0, 0x0, false, false⟩,
    ⟨0x218, 4, 0x40, 0x0, 0x0, 0xFFFFFF3F, 0x0, 0x0, false, false⟩,
    ⟨0x21C, 4, 0x40, 0x0, 0x0, 0xFFFFFF3F, 0x0, 0x0, false, false⟩,
    ⟨0x220, 4, 0x40, 0x0, 0x0, 0xFFFFFF3F, 0x0, 0x0, false, false⟩,
    ⟨0x224, 4, 0x40, 0x0, 0x0, 0xFFFFFF3F, 0x0, 0x0, false, false⟩,
    ⟨0x228, 4, 0x40, 0x0, 0x0, 0xFFFFFF3F, 0x0, 0x0, false, false⟩,
    ⟨0x22C, 4, 0x40, 0x0, 0x0, 0xFFFFFF3F, 0x0, 0x0, false, false⟩,
    ⟨0x230, 4, 0x40, 0x40, 0x0, 0x0, 0x0, 0x0, false, false⟩,
    ⟨0x234, 4, 0x40, 0x40, 0x0, 0x0, 0x0, 0x0, false, false⟩,
    ⟨0x238, 4, 0x40, 0x0, 0x0, 0x0, 0x0, 0x0, false, false⟩,
    ⟨0x800, 64, 0x8, 0x0, 0x0, 0xFFFFFF3F, 0x0, 0x0, false, false⟩,
    ⟨0x804, 64, 0x8, 0x0, 0x0, 0xFFFFFF3F, 0x0, 0x0, false, false⟩,
    ⟨0xA00, 64, 0x8, 0x0, 0x0, 0xFFFFFF3F, 0x0, 0x0, false, false⟩,
    ⟨0xA04, 64, 0x8, 0x0, 0x0, 0xFFFFFF3F, 0x0, 0x0, false, false⟩,
    ⟨0xC00, 64, 0x8, 0x0, 0x0, 0xFFFFFF3F, 0x0, 0x0, false, false⟩,
    ⟨0xC04, 64, 0x8, 0x0, 0x0, 0xFFFFFF3F, 0x0, 0x0, false, false⟩] ++
   [⟨0xE00, 64, 0x8, 0x0, 0x0, 0xFFFFFF3F, 0x0, 0x0, false, false⟩,
    ⟨0xE04, 64, 0x8, 0x0, 0x0, 0xFFFFFF3F, 0x0, 0x0, false, false⟩]

/-- The registers of the HRD page (R299). -/
def hrd : List RegEntry :=
   [⟨0x100, 1, 0x4, 0xF603400, 0x0, 0xFFFFFFFF, 0x0, 0x0, false, false⟩,
    ⟨0x104, 1, 0x4, 0x0, 0x0, 0x0, 0x0, 0xFFFFFFFF, false, false⟩,
    ⟨0x108, 1, 0x4, 0x0, 0x0, 0x0, 0x0, 0x0, false, false⟩,
    ⟨0x10C, 1, 0x4, 0x0, 0x0, 0x3FF03FF, 0x0, 0x0, false, false⟩,
    ⟨0x110, 1, 0x4, 0x0, 0x0, 0x3FF03FF, 0x0, 0x0, false, false⟩,
    ⟨0x114, 1, 0x4, 0x0, 0x0, 0x3FF03FF, 0x0, 0x0, false, false⟩,
    ⟨0x118, 1, 0x4, 0x0, 0x0, 0x3FF, 0x0, 0x0, false, false⟩,
    ⟨0x11C, 1, 0x4, 0x0, 0x0, 0xFFFFFF3F, 0x0, 0x0, false, false⟩,
    ⟨0x120, 1, 0x4, 0x0, 0x0, 0xFFFFFF3F, 0x0, 0x0, false, false⟩,
    ⟨0x124, 1, 0x4, 0x7A12, 0x0, 0xFFFFFFFF, 0x0, 0x0, false, false⟩,
    ⟨0x128, 1, 0x4, 0x399A3666, 0x0, 0xFFFFFFFF, 0x0, 0x0, false, false⟩,
    ⟨0x12C, 1, 0x4, 0xCCD0333, 0x0, 0xFFFFFFFF, 0x0, 0x0, false, false⟩,
    ⟨0x130, 1, 0x4, 0x47334666, 0x0, 0xFFFFFFFF, 0x0, 0x0, false, false⟩,
    ⟨0x13C, 1, 0x4, 0x3330666, 0x0, 0xFFFFFFFF, 0x0, 0x0, false, false⟩,
    ⟨0x140, 1, 0x4, 0x2004666, 0x0, 0xFFFFFFFF, 0x0, 0x0, false, false⟩,
    ⟨0x134, 1, 0x4, 0x2202003, 0x0, 0xFFFFFFFF, 0x0, 0x0, false, false⟩,
    ⟨0x138, 1, 0x4, 0x20002000, 0x0, 0xFFFFFFFF, 0x0, 0x0, false, false⟩,
    ⟨0x144, 1, 0x4, 0x64, 0x0, 0xFFFF, 0x0, 0x0, false, false⟩,
    ⟨0x148, 1, 0x4, 0x640E39, 0x0, 0xFFFFFFFF, 0x0, 0x0, false, false⟩,
    ⟨0x14C, 1, 0x4, 0x40800C8, 0x0, 0xFFFFFFFF, 0x0, 0x0, false, false⟩,
    ⟨0x150, 1, 0x4, 0x101, 0x0, 0x1F1F, 0x0, 0x0, false, false⟩,
    ⟨0x154, 2, 0x4, 0x0, 0x0, 0x0, 0x0, 0x0, false, false⟩,
    ⟨0x15C, 1, 0x4, 0x0, 0x0, 0x0, 0x0, 0x0, false, false⟩,
    ⟨0x160, 1, 0x4, 0x0, 0x0, 0x0, 0x0, 0x0, false, false⟩] ++
   [⟨0x164, 1, 0x4, 0x0, 0x0, 0x0, 0x0, 0x0, false, false⟩,
    ⟨0x200, 16, 0x4, 0x0, 0x0, 0xFFFFFFFF, 0x0, 0x0, false, false⟩,
    ⟨0x240, 16, 0x4, 0x4CCD, 0x0, 0xFFFFFFFF, 0x0, 0x0, false, false⟩]

/-- The registers of the ISL page (R301). -/
def isl : List RegEntry :=
   [⟨0x100, 1, 0x4, 0x2008000, 0x0, 0xFFFFC3FF, 0x0, 0x0, false, false⟩,
    ⟨0x104, 1, 0x4, 0x0, 0x0, 0x0, 0x0, 0xFFFFFFFF, false, false⟩,
    ⟨0x108, 1, 0x4, 0x0, 0x0, 0x0, 0x0, 0x0, false, false⟩,
    ⟨0x10C, 1, 0x4, 0x0, 0x0, 0x3FF03FF, 0x0, 0x0, false, false⟩,
    ⟨0x110, 1, 0x4, 0x0, 0x0, 0x83FF83FF, 0x0, 0x0, false, false⟩,
    ⟨0x114, 1, 0x4, 0x0, 0x0, 0x83FF, 0x0, 0x0, false, false⟩,
    ⟨0x118, 1, 0x4, 0x0, 0x0, 0xFFFFFF3F, 0x0, 0x0, false, false⟩,
    ⟨0x11C, 1, 0x4, 0x7A12, 0x0, 0xFFFFFFFF, 0x0, 0x0, false, false⟩,
    ⟨0x120, 1, 0x4, 0x3E86403, 0x0, 0xFFFFFFFF, 0x0, 0x0, false, false⟩,
    ⟨0x124, 1, 0x4, 0x3E8, 0x0, 0xFFFF, 0x0, 0x0, false, false⟩,
    ⟨0x128, 1, 0x4, 0x2AA, 0x0, 0x3FF, 0x0, 0x0, false, false⟩,
    ⟨0x12C, 1, 0x4, 0xC486C1FC, 0x0, 0xFFFFFFFF, 0x0, 0x0, false, false⟩,
    ⟨0x130, 1, 0x4, 0x41483D71, 0x0, 0xFFFFFFFF, 0x0, 0x0, false, false⟩,
    ⟨0x134, 1, 0x4, 0x12C, 0x0, 0xFFFF, 0x0, 0x0, false, false⟩,
    ⟨0x138, 1, 0x4, 0x0, 0x0, 0x0, 0x0, 0x0, false, false⟩,
    ⟨0x13C, 1, 0x4, 0x0, 0x0, 0x0, 0x0, 0x0, false, false⟩,
    ⟨0x140, 1, 0x4, 0x0, 0x0, 0x0, 0x0, 0x0, false, false⟩,
    ⟨0x144, 1, 0x4, 0x0, 0x0, 0x0, 0x0, 0x0, false, false⟩,
    ⟨0x148, 1, 0x4, 0x0, 0x0, 0x0, 0x0, 0x0, false, false⟩,
    ⟨0x200, 8, 0x8, 0x0, 0x0, 0xC001FFFF, 0x0, 0x0, false, false⟩,
    ⟨0x204, 8, 0x8, 0x0, 0x0, 0xFFFFFFFF, 0x0, 0x0, false, false⟩,
    ⟨0x240, 8, 0x8, 0x0, 0x0, 0xC000FFFF, 0x0, 0x0, false, false⟩,
    ⟨0x244, 8, 0x8, 0x0, 0x0, 0xFFFFFFFF, 0x0, 0x0, false, false⟩]

/-- The registers of the IMP page (R303). -/
def imp : List RegEntry :=
   [⟨0x100, 1, 0x4, 0xA04000, 0x0, 0xFDFFF3FF, 0x0, 0x0, false, false⟩,
    ⟨0x104, 1, 0x4, 0x0, 0x0, 0x0, 0x0, 0xFFFFFFFF, false, false⟩,
    ⟨0x108, 1, 0x4, 0x0, 0x0, 0x0, 0x0, 0x0, false, false⟩,
    ⟨0x110, 1, 0x4, 0x0, 0x0, 0x3FF03FF, 0x0, 0x0, false, false⟩,
    ⟨0x114, 1, 0x4, 0x0, 0x0, 0x3FF, 0x0, 0x0, false, false⟩,
    ⟨0x118, 1, 0x4, 0x0, 0x0, 0xFFFFFF3F, 0x0, 0x0, false, false⟩,
    ⟨0x11C, 1, 0x4, 0x0, 0x0, 0xFFFFFF3F, 0x0, 0x0, false, false⟩,
    ⟨0x120, 1, 0x4, 0x0, 0x0, 0xFFFFFF3F, 0x0, 0x0, false, false⟩,
    ⟨0x124, 1, 0x4, 0x148, 0x0, 0xFFFF, 0x0, 0x0, false, false⟩,
    ⟨0x128, 1, 0x4, 0x1010000, 0x0, 0xFFFFFFFF, 0x0, 0x0, false, false⟩,
    ⟨0x12C, 1, 0x4, 0x7A12, 0x0, 0xFFFFFFFF, 0x0, 0x0, false, false⟩,
    ⟨0x130, 1, 0x4, 0x2030000, 0x0, 0xFFFFFFFF, 0x0, 0x0, false, false⟩,
    ⟨0x134, 1, 0x4, 0x4000064, 0x0, 0xFFFFFFFF, 0x0, 0x0, false, false⟩,
    ⟨0x138, 2, 0x4, 0x0, 0x0, 0x0, 0x0, 0x0, false, false⟩,
    ⟨0x140, 1, 0x4, 0x0, 0x0, 0x0, 0x0, 0x0, false, false⟩,
    ⟨0x144, 1, 0x4, 0x0, 0x0, 0x0, 0x0, 0x0, false, false⟩,
    ⟨0x180, 16, 0x4, 0x0, 0x0, 0x80007FFF, 0x0, 0x0, false, false⟩,
    ⟨0x200, 16, 0x10, 0x40, 0x0, 0x0, 0x0, 0x0, false, false⟩,
    ⟨0x300, 16, 0x10, 0x40, 0x0, 0x0, 0x0, 0x0, false, false⟩,
    ⟨0x204, 16, 0x10, 0x40, 0x0, 0x0, 0x0, 0x0, false, false⟩,
    ⟨0x304, 16, 0x10, 0x40, 0x0, 0x0, 0x0, 0x0, false, false⟩,
    ⟨0x208, 16, 0x10, 0x40, 0x0, 0x0, 0x0, 0x0, false, false⟩,
    ⟨0x308, 16, 0x10, 0x40, 0x0, 0x0, 0x0, 0x0, false, false⟩,
    ⟨0x800, 256, 0x4, 0x0, 0x0, 0x80007FFF, 0x0, 0x0, false, false⟩]

/-- The registers of the PWT page (R349). -/
def pwt : List RegEntry :=
   [⟨0x100, 1, 0x4, 0x0, 0x0, 0xF, 0x0, 0x0, false, false⟩,
    ⟨0x104, 1, 0x4, 0x0, 0x0, 0x0, 0xFFFFFFFF, 0x0, false, false⟩,
    ⟨0x108, 1, 0x4, 0x0, 0x0, 0x0, 0xFFFF, 0x0, false, false⟩,
    ⟨0x140, 1, 0x40, 0x1000000, 0x0, 0x2FFFFC03, 0x0, 0x0, false, false⟩,
    ⟨0x180, 1, 0x40, 0x1040000, 0x0, 0x2FFFFC03, 0x0, 0x0, false, false⟩,
    ⟨0x1C0, 1, 0x40, 0x1080000, 0x0, 0x2FFFFC03, 0x0, 0x0, false, false⟩,
    ⟨0x200, 1, 0x40, 0x10C0000, 0x0, 0x2FFFFC03, 0x0, 0x0, false, false⟩,
    ⟨0x144, 4, 0x40, 0x0, 0x0, 0xFFFFFFFF, 0x0, 0x0, false, false⟩,
    ⟨0x148, 4, 0x40, 0x0, 0x0, 0xFFFFFFFF, 0x0, 0x0, false, false⟩,
    ⟨0x14C, 4, 0x40, 0x0, 0x0, 0xFFFFFFFF, 0x0, 0x0, false, false⟩,
    ⟨0x150, 4, 0x40, 0x0, 0x0, 0x0, 0x0, 0x0, false, false⟩,
    ⟨0x154, 4, 0x40, 0x0, 0x0, 0x0, 0x0, 0x0, false, false⟩,
    ⟨0x158, 4, 0x40, 0x0, 0x0, 0x0, 0x8000000, 0x0, false, false⟩,
    ⟨0x15C, 4, 0x40, 0x0, 0x0, 0x0, 0x0, 0x0, false, false⟩,
    ⟨0x160, 4, 0x40, 0x0, 0x0, 0x0, 0x0, 0x0, false, false⟩,
    ⟨0x164, 4, 0x40, 0x0, 0x0, 0x0, 0x0, 0x0, false, false⟩]

/-- The registers of the PWMC page (R350). -/
def pwmc : List RegEntry :=
   [⟨0x100, 1, 0x4, 0x4000000, 0x0, 0xFE000000, 0x0, 0x0, false, false⟩,
    ⟨0x104, 1, 0x4, 0x61A80, 0x0, 0xFFFFFFFF, 0x0, 0x0, false, false⟩,
    ⟨0x108, 1, 0x4, 0x0, 0x0, 0xFFFFFFFF, 0x0, 0x0, false, false⟩,
    ⟨0x10C, 1, 0x4, 0x0, 0x0, 0xFFFFFFFF, 0x0, 0x0, false, false⟩,
    ⟨0x110, 1, 0x4, 0xC800C8, 0x0, 0x1FFF1FFF, 0x0, 0x0, false, false⟩,
    ⟨0x114, 1, 0x4, 0x0, 0x0, 0x3FF, 0x0, 0x0, false, false⟩,
    ⟨0x118, 1, 0x4, 0x0, 0x0, 0x0, 0x0, 0xFFFFFFFF, false, false⟩,
    ⟨0x11C, 1, 0x4, 0x0, 0x0, 0x0, 0xE, 0x0, false, false⟩,
    ⟨0x120, 2, 0x4, 0x0, 0x0, 0x0, 0x0, 0x0, false, false⟩]

/-- The registers of the TRIP page (R351). -/
def trip : List RegEntry :=
   [⟨0x100, 1, 0x4, 0x0, 0x0, 0x0, 0x0, 0xFFFFFFFF, false, false⟩,
    ⟨0x104, 1, 0x4, 0x0, 0x1, 0x0, 0x0, 0x0, false, false⟩,
    ⟨0x108, 1, 0x4, 0x0, 0x0, 0x0, 0x0, 0x0, false, false⟩,
    ⟨0x140, 16, 0x10, 0x40000000, 0x0, 0xFFFFFFFF, 0x0, 0x0, false, false⟩,
    ⟨0x144, 16, 0x10, 0x0, 0x0, 0x8F700FFF, 0x0, 0x0, false, false⟩,
    ⟨0x148, 16, 0x10, 0x0, 0x0, 0x0, 0x10000000, 0x0, false, false⟩]

/-- The registers of the MASK page (R352). -/
def mask : List RegEntry :=
   [⟨0x100, 1, 0x4, 0x0, 0x0, 0xFFFFFFFF, 0x0, 0x0, false, false⟩,
    ⟨0x104, 1, 0x4, 0x0, 0x0, 0x0, 0x0, 0xFFFFFFFF, false, false⟩,
    ⟨0x108, 1, 0x4, 0x0, 0x0, 0x0, 0x0, 0x0, false, false⟩,
    ⟨0x110, 8, 0x4, 0x0, 0x0, 0xFFFFFFFF, 0x0, 0x0, false, false⟩]

/-- The registers of the GDI page (R379). -/
def gdi : List RegEntry :=
   [⟨0x100, 1, 0x4, 0x1400000, 0x0, 0xFFFC0000, 0x0, 0x0, false, false⟩,
    ⟨0x104, 1, 0x4, 0xA0050, 0x0, 0x3FF1FFF, 0x0, 0x0, false, false⟩,
    ⟨0x108, 1, 0x4, 0x30190064, 0x0, 0xFFFFFFFF, 0x0, 0x0, false, false⟩,
    ⟨0x10C, 1, 0x4, 0x10000190, 0x0, 0xFF000FFF, 0x0, 0x0, false, false⟩,
    ⟨0x110, 1, 0x4, 0x0, 0x0, 0xFFFF, 0x0, 0x0, false, false⟩,
    ⟨0x114, 1, 0x4, 0x0, 0x0, 0x0, 0x0, 0xFFFFFFFF, false, false⟩,
    ⟨0x118, 1, 0x4, 0x0, 0x0, 0x0, 0x60000, 0x0, false, false⟩,
    ⟨0x11C, 1, 0x4, 0x0, 0x0, 0x0, 0x0, 0x0, false, false⟩,
    ⟨0x120, 1, 0x4, 0x0, 0x0, 0x0, 0x0, 0x0, false, false⟩,
    ⟨0x124, 1, 0x4, 0x0, 0x0, 0x0, 0x0, 0x0, false, false⟩,
    ⟨0x128, 2, 0x4, 0x0, 0x0, 0x0, 0x0, 0x0, false, false⟩,
    ⟨0x130, 2, 0x4, 0x0, 0x0, 0x0, 0x0, 0x0, false, false⟩,
    ⟨0x138, 1, 0x4, 0x0, 0x0, 0x0, 0x0, 0x0, false, false⟩]

/-- The registers of the MTR page (R410). -/
def mtr : List RegEntry :=
   [⟨0x100, 1, 0x4, 0x400007D0, 0x0, 0xFC00FFFF, 0x0, 0x0, false, false⟩,
    ⟨0x104, 1, 0x4, 0x0, 0x0, 0x0, 0x0, 0xFFFFFFFF, false, false⟩,
    ⟨0x108, 1, 0x4, 0x0, 0x0, 0x0, 0x20000000, 0x0, false, false⟩,
    ⟨0x10C, 1, 0x4, 0x0, 0x0, 0x0, 0x0, 0x0, false, false⟩,
    ⟨0x110, 1, 0x4, 0x0, 0x0, 0x0, 0x0, 0x0, false, false⟩,
    ⟨0x114, 1, 0x4, 0x0, 0x0, 0x0, 0x0, 0x0, false, false⟩,
    ⟨0x118, 1, 0x4, 0x0, 0x0, 0xFFFFFFFF, 0x0, 0x0, false, false⟩,
    ⟨0x120, 6, 0x8, 0x0, 0x0, 0x8000073F, 0x0, 0x0, false, false⟩,
    ⟨0x124, 6, 0x8, 0x40000001, 0x0, 0xFFFFFF3F, 0x0, 0x0, false, false⟩,
    ⟨0x150, 16, 0x4, 0x0, 0x0, 0x0, 0x0, 0x0, false, false⟩,
    ⟨0x190, 8, 0x4, 0x0, 0x0, 0x0, 0x0, 0x0, false, false⟩,
    ⟨0x1B0, 16, 0x4, 0x0, 0x0, 0x0, 0x0, 0x0, false, false⟩,
    ⟨0x1F0, 8, 0x4, 0x0, 0x0, 0x0, 0x0, 0x0, false, false⟩,
    ⟨0x210, 9, 0x4, 0x40, 0x0, 0x0, 0x0, 0x0, false, false⟩,
    ⟨0x300, 1, 0x4, 0x29000000, 0xFF00001F, 0x0, 0x0, 0x0, true, false⟩,
    ⟨0x304, 1, 0x4, 0x0, 0x0, 0x0, 0x78000000, 0x0, true, false⟩,
    ⟨0x308, 1, 0x4, 0x0, 0x0, 0x0, 0x0, 0x0, true, false⟩,
    ⟨0x30C, 1, 0x4, 0x0, 0x0, 0x0, 0x0, 0x0, true, false⟩,
    ⟨0x310, 1, 0x4, 0x0, 0x0, 0x0, 0x0, 0x0, true, false⟩,
    ⟨0x314, 1, 0x4, 0x0, 0xFE0FFFFF, 0x0, 0x0, 0x0, true, false⟩,
    ⟨0x318, 1, 0x4, 0x0, 0x0, 0x0, 0x0, 0x0, true, false⟩,
    ⟨0x31C, 1, 0x4, 0x0, 0xF0000000, 0x0, 0x0, 0x0, true, false⟩,
    ⟨0x320, 1, 0x4, 0x0, 0xFFFFFFFF, 0x0, 0x0, 0x0, true, false⟩,
    ⟨0x324, 1, 0x4, 0x0, 0xFFFFFF, 0x0, 0x0, 0x0, true, false⟩] ++
   [⟨0x328, 1, 0x4, 0x0, 0x0, 0x0, 0x0, 0x0, true, false⟩,
    ⟨0x32C, 1, 0x4, 0x0, 0x0, 0x0, 0x0, 0x0, true, false⟩,
    ⟨0x330, 1, 0x4, 0x0, 0x0, 0x0, 0xC0000000, 0x0, true, false⟩,
    ⟨0x334, 1, 0x4, 0x0, 0x0, 0x0, 0x0, 0x0, true, false⟩]

/-- The registers of the PQM page (R411). -/
def pqm : List RegEntry :=
   [⟨0x100, 2, 0x20, 0x0, 0x0, 0x80000000, 0x0, 0x0, false, false⟩,
    ⟨0x104, 2, 0x20, 0x0, 0x0, 0xFFFFFFFF, 0x0, 0x0, false, false⟩,
    ⟨0x108, 2, 0x20, 0x4666399A, 0x0, 0xFFFFFFFF, 0x0, 0x0, false, false⟩,
    ⟨0x10C, 2, 0x20, 0x1480333, 0x0, 0xFFFFFFFF, 0x0, 0x0, false, false⟩,
    ⟨0x110, 2, 0x20, 0x0, 0x0, 0x0, 0x0, 0x0, false, false⟩,
    ⟨0x180, 1, 0x4, 0x0, 0x7, 0x0, 0x0, 0x0, false, false⟩,
    ⟨0x800, 128, 0x4, 0x0, 0x0, 0x0, 0x0, 0x0, false, true⟩]

/-- The registers of the LANE page (R446). -/
def lane : List RegEntry :=
   [⟨0x100, 1, 0x4, 0x8000064, 0x0, 0xFFE0FFFF, 0x0, 0x0, false, false⟩,
    ⟨0x104, 1, 0x4, 0x0, 0x0, 0x0, 0x0, 0xFFFFFFFF, false, false⟩,
    ⟨0x108, 1, 0x4, 0x800000, 0x0, 0x0, 0x0, 0x0, false, false⟩,
    ⟨0x10C, 1, 0x4, 0x30A024FF, 0x0, 0xFFFFF7FF, 0x0, 0x0, false, false⟩,
    ⟨0x110, 1, 0x4, 0x1F4140A, 0x0, 0xFFFFFFFF, 0x0, 0x0, false, false⟩,
    ⟨0x114, 1, 0x4, 0x0, 0x0, 0x1F0F, 0x0, 0x0, false, false⟩,
    ⟨0x118, 1, 0x4, 0x3F0000, 0x0, 0x0, 0x0, 0x0, false, false⟩,
    ⟨0x11C, 1, 0x4, 0x0, 0x0, 0x0, 0x0, 0x0, false, false⟩,
    ⟨0x120, 1, 0x4, 0x640000, 0x0, 0xFFFF0000, 0x0, 0x0, false, false⟩,
    ⟨0x124, 1, 0x4, 0x0, 0x0, 0x0, 0x0, 0x0, false, false⟩,
    ⟨0x128, 1, 0x4, 0x0, 0x0, 0x0, 0x0, 0x0, false, false⟩,
    ⟨0x12C, 1, 0x4, 0x0, 0x0, 0x0, 0x0, 0x0, false, false⟩,
    ⟨0x140, 1, 0x4, 0x20140000, 0x0, 0xFF1F0000, 0x0, 0x0, false, false⟩,
    ⟨0x144, 1, 0x4, 0x0, 0x0, 0x0, 0x0, 0xFFFFFFFF, false, false⟩,
    ⟨0x148, 1, 0x4, 0x0, 0x0, 0x0, 0x40000000, 0x0, false, false⟩,
    ⟨0x150, 1, 0x4, 0x0, 0x0, 0x0, 0x0, 0x0, false, false⟩,
    ⟨0x154, 1, 0x4, 0x0, 0x0, 0x0, 0x0, 0x0, false, false⟩,
    ⟨0x158, 1, 0x4, 0x0, 0x0, 0x0, 0x0, 0x0, false, false⟩,
    ⟨0x15C, 1, 0x4, 0x0, 0x0, 0x0, 0x0, 0x0, false, false⟩,
    ⟨0x180, 1, 0x4, 0x200003E8, 0xF000FFFF, 0x0, 0x0, 0x0, false, false⟩,
    ⟨0x184, 1, 0x4, 0x0, 0x0, 0x0, 0x10000000, 0x0, false, false⟩,
    ⟨0x194, 1, 0x4, 0x0, 0x0, 0x0, 0x0, 0xFFFFFFFF, false, false⟩,
    ⟨0x198, 1, 0x4, 0x0, 0xFF, 0x0, 0x0, 0x0, false, false⟩,
    ⟨0x800, 1, 0x4, 0x0, 0xFFF7F, 0x0, 0x0, 0x80000000, false, false⟩] ++
   [⟨0x804, 1, 0x4, 0x0, 0x0, 0x0, 0xA0000000, 0x0, false, false⟩,
    ⟨0x808, 1, 0x4, 0x0, 0x0, 0x0, 0x0, 0x0, false, false⟩,
    ⟨0x80C, 1, 0x4, 0x0, 0x0, 0x0, 0x0, 0x0, false, false⟩,
    ⟨0x188, 1, 0x4, 0x0, 0x0, 0x0, 0x0, 0x0, false, false⟩,
    ⟨0x18C, 1, 0x4, 0x0, 0x0, 0x0, 0x0, 0x0, false, false⟩,
    ⟨0x190, 1, 0x4, 0x0, 0x0, 0x0, 0x0, 0x0, false, false⟩]

/-- The registers of the QUAD page (R444). -/
def quad : List RegEntry :=
   [⟨0x100, 1, 0x4, 0x1, 0x0, 0x7, 0x0, 0x0, false, false⟩,
    ⟨0x104, 1, 0x4, 0x0, 0x0, 0x0, 0x20000000, 0x0, false, false⟩]

/-- The registers of the ETH page (R447). -/
def eth : List RegEntry :=
   [⟨0x100, 1, 0x4, 0x0, 0x0, 0xC0000000, 0x0, 0x0, false, false⟩,
    ⟨0x104, 1, 0x4, 0x0, 0x0, 0x0, 0x0, 0x0, false, false⟩,
    ⟨0x108, 1, 0x4, 0x0, 0x0, 0xFFFFFFFF, 0x0, 0x0, false, false⟩,
    ⟨0x10C, 1, 0x4, 0x0, 0x0, 0xFFFF, 0x0, 0x0, false, false⟩,
    ⟨0x110, 1, 0x4, 0x0, 0x0, 0xFF07FFFF, 0x0, 0x0, false, false⟩,
    ⟨0x114, 1, 0x4, 0x0, 0x0, 0xFF07FFFF, 0x0, 0x0, false, false⟩,
    ⟨0x118, 1, 0x4, 0x0, 0x0, 0x0, 0x0, 0xFFFFFFFF, false, false⟩,
    ⟨0x11C, 1, 0x4, 0x0, 0x0, 0x0, 0x0, 0x0, false, false⟩,
    ⟨0x120, 1, 0x4, 0x0, 0x0, 0x0, 0x0, 0x0, false, false⟩,
    ⟨0x124, 1, 0x4, 0x0, 0x0, 0x0, 0x0, 0x0, false, false⟩,
    ⟨0x128, 1, 0x4, 0x0, 0x0, 0x0, 0x0, 0x0, false, false⟩]

/-- The registers of the FAB page (R492). -/
def fab : List RegEntry :=
   [⟨0x100, 1, 0x4, 0xC600000, 0x0, 0xFFFF0000, 0x0, 0x0, false, false⟩,
    ⟨0x104, 1, 0x4, 0x0, 0x0, 0x0, 0x0, 0x0, false, false⟩,
    ⟨0x108, 1, 0x4, 0x0, 0x0, 0x0, 0x0, 0x0, false, false⟩,
    ⟨0x10C, 1, 0x4, 0x8040000, 0xFFFF0000, 0x0, 0x0, 0x0, false, false⟩,
    ⟨0x110, 1, 0x4, 0x800003E8, 0x8000FFFF, 0x0, 0x0, 0x0, false, false⟩,
    ⟨0x114, 1, 0x4, 0x0, 0x0, 0x0, 0x0, 0x0, false, false⟩,
    ⟨0x118, 1, 0x4, 0x0, 0x0, 0x0, 0x0, 0x0, false, false⟩,
    ⟨0x11C, 1, 0x4, 0x2710, 0x0, 0x8001FFFF, 0x0, 0x0, false, false⟩,
    ⟨0x120, 1, 0x4, 0x0, 0x0, 0xFFFFFFFF, 0x0, 0x0, false, false⟩,
    ⟨0x124, 1, 0x4, 0x0, 0x0, 0xFFFFFFFF, 0x0, 0x0, false, false⟩,
    ⟨0x128, 1, 0x4, 0x0, 0x3, 0x0, 0x0, 0x0, false, false⟩,
    ⟨0x12C, 1, 0x4, 0x0, 0x0, 0x0, 0x0, 0xFFFFFFFF, false, false⟩,
    ⟨0x130, 1, 0x4, 0x0, 0x0, 0x0, 0x0, 0x0, false, false⟩,
    ⟨0x134, 1, 0x4, 0x0, 0x0, 0x0, 0x0, 0x0, false, false⟩,
    ⟨0x138, 1, 0x4, 0x0, 0x0, 0x0, 0x0, 0x0, false, false⟩,
    ⟨0x400, 64, 0x8, 0x60000000, 0x0, 0xF9FFFFFF, 0x0, 0x0, false, false⟩,
    ⟨0x404, 64, 0x8, 0x100000, 0x0, 0xFFF003FF, 0x0, 0x0, false, false⟩,
    ⟨0x600, 64, 0x8, 0x18000000, 0x0, 0xF8FF7FFF, 0x0, 0x0, false, false⟩,
    ⟨0x604, 64, 0x8, 0x100000, 0x0, 0xF003FF, 0x0, 0x0, false, false⟩,
    ⟨0x800, 128, 0x4, 0xFFF000, 0x8FFFF000, 0x0, 0x0, 0x0, false, true⟩,
    ⟨0xA00, 256, 0x4, 0xFFF000, 0x8FFFF000, 0x0, 0x0, 0x0, false, true⟩,
    ⟨0xE00, 1, 0x4, 0xAA, 0xFF, 0x0, 0x0, 0x0, false, true⟩]

/-- The registers of the SES page (R494). -/
def ses : List RegEntry :=
   [⟨0x100, 1, 0x4, 0x0, 0xFF, 0x0, 0x0, 0x0, false, false⟩,
    ⟨0x104, 1, 0x4, 0x0, 0x0, 0x0, 0x0, 0xFFFFFFFF, false, false⟩,
    ⟨0x108, 1, 0x4, 0xA, 0xFFFF, 0x0, 0x0, 0x0, false, false⟩,
    ⟨0x120, 8, 0x4, 0x0, 0x0, 0x0, 0x0, 0x0, false, false⟩,
    ⟨0x140, 1, 0x4, 0x0, 0xFF07FFFF, 0x0, 0x0, 0x0, false, false⟩,
    ⟨0x144, 1, 0x4, 0x0, 0xFF07FFFF, 0x0, 0x0, 0x0, false, false⟩,
    ⟨0x148, 1, 0x4, 0x0, 0xFF07FFFF, 0x0, 0x0, 0x0, false, false⟩,
    ⟨0x14C, 1, 0x4, 0x0, 0xFF07FFFF, 0x0, 0x0, 0x0, false, false⟩,
    ⟨0x150, 1, 0x4, 0x0, 0xFF07FFFF, 0x0, 0x0, 0x0, false, false⟩,
    ⟨0x154, 1, 0x4, 0x0, 0xFF07FFFF, 0x0, 0x0, 0x0, false, false⟩,
    ⟨0x158, 2, 0x4, 0x0, 0x0, 0x0, 0x0, 0xFFFFFFFF, false, false⟩,
    ⟨0x200, 1, 0x4, 0x80000000, 0x80007FFF, 0x0, 0x0, 0x0, false, true⟩,
    ⟨0x204, 1, 0x4, 0x0, 0x3F, 0x0, 0x0, 0x0, false, true⟩,
    ⟨0x208, 1, 0x4, 0x3E80008, 0xFFFF00FF, 0x0, 0x0, 0x0, false, true⟩,
    ⟨0x20C, 1, 0x4, 0x0, 0x0, 0x0, 0x0, 0x0, false, true⟩,
    ⟨0x210, 1, 0x4, 0x0, 0x0, 0x0, 0x0, 0x0, false, true⟩,
    ⟨0x214, 1, 0x4, 0x0, 0x0, 0x0, 0x0, 0x0, false, true⟩,
    ⟨0x218, 1, 0x4, 0x0, 0x0, 0x0, 0x0, 0x0, false, true⟩,
    ⟨0x21C, 1, 0x4, 0x0, 0x0, 0x0, 0x0, 0x0, false, true⟩,
    ⟨0x220, 8, 0x4, 0x0, 0x0, 0x0, 0x0, 0xFFFFFFFF, false, true⟩,
    ⟨0x240, 8, 0x4, 0x0, 0x0, 0x0, 0x0, 0xFFFFFFFF, false, true⟩,
    ⟨0x260, 1, 0x4, 0x0, 0x0, 0x0, 0x0, 0xFFFFFFFF, false, true⟩,
    ⟨0x264, 1, 0x4, 0x0, 0x0, 0x0, 0x0, 0x0, false, true⟩]

/-- The registers of the MUS page (R493). -/
def mus : List RegEntry :=
   [⟨0x100, 1, 0x4, 0xC0800A00, 0xC0FFFF00, 0x0, 0x0, 0x0, false, false⟩,
    ⟨0x104, 1, 0x4, 0x0, 0x80007FFF, 0x0, 0x0, 0x0, false, false⟩,
    ⟨0x108, 1, 0x4, 0x0, 0x0, 0x0, 0x0, 0x0, false, false⟩,
    ⟨0x10C, 1, 0x4, 0x0, 0x0, 0x0, 0x0, 0x0, false, false⟩,
    ⟨0x110, 1, 0x4, 0xFFFF, 0x0, 0x0, 0x4000000, 0x0, false, false⟩,
    ⟨0x114, 1, 0x4, 0x0, 0x0, 0x0, 0x0, 0x0, false, false⟩,
    ⟨0x118, 2, 0x4, 0x0, 0x0, 0x0, 0x0, 0x0, false, false⟩,
    ⟨0x120, 1, 0x4, 0x0, 0x0, 0x0, 0x0, 0xFFFFFFFF, false, false⟩,
    ⟨0x124, 1, 0x4, 0x0, 0x7FFF, 0x0, 0x0, 0x0, false, false⟩,
    ⟨0x128, 1, 0x4, 0x0, 0xFFFFFFFF, 0x0, 0x0, 0x0, false, false⟩,
    ⟨0x12C, 1, 0x4, 0x0, 0xFFFF, 0x0, 0x0, 0x0, false, false⟩,
    ⟨0x130, 1, 0x4, 0x0, 0x0, 0x0, 0x0, 0x0, false, false⟩,
    ⟨0x134, 1, 0x4, 0x0, 0x7FFF, 0x0, 0x0, 0x0, false, false⟩,
    ⟨0x138, 1, 0x4, 0x0, 0x0, 0x0, 0x0, 0x0, false, false⟩,
    ⟨0x13C, 1, 0x4, 0x0, 0x0, 0x0, 0x0, 0x0, false, false⟩]

/-- The registers of the SHD page (R535). -/
def shd : List RegEntry :=
   [⟨0x100, 1, 0x4, 0x8000000, 0x0, 0x0, 0x0, 0x0, false, false⟩,
    ⟨0x104, 1, 0x4, 0x0, 0x0, 0x0, 0x0, 0xFFFFFFFF, false, false⟩,
    ⟨0x108, 1, 0x4, 0x0, 0x0, 0x0, 0x0, 0x0, false, false⟩,
    ⟨0x10C, 1, 0x4, 0x0, 0x0, 0x0, 0x0, 0x0, false, false⟩,
    ⟨0x110, 1, 0x4, 0x0, 0x0, 0x0, 0x0, 0x0, false, false⟩,
    ⟨0x114, 1, 0x4, 0xFFFFFFFF, 0x0, 0x0, 0x0, 0x0, false, false⟩,
    ⟨0x118, 1, 0x4, 0x0, 0x0, 0x0, 0x0, 0x0, false, false⟩,
    ⟨0x11C, 1, 0x4, 0x0, 0x0, 0x0, 0x0, 0x0, false, false⟩,
    ⟨0x120, 1, 0x4, 0x0, 0x0, 0x0, 0x0, 0x0, false, false⟩,
    ⟨0x124, 1, 0x4, 0x0, 0xFFFFF, 0x0, 0x0, 0x0, false, false⟩,
    ⟨0x128, 1, 0x4, 0x0, 0x0, 0x0, 0x80000000, 0x0, false, false⟩,
    ⟨0x12C, 1, 0x4, 0x0, 0x0, 0x0, 0x0, 0x0, false, false⟩,
    ⟨0x130, 1, 0x4, 0x0, 0x0, 0x0, 0x0, 0x0, false, false⟩,
    ⟨0x134, 1, 0x4, 0x0, 0x0, 0x0, 0x0, 0x0, false, false⟩,
    ⟨0x138, 1, 0x4, 0x0, 0x0, 0x0, 0x0, 0x0, false, false⟩,
    ⟨0x140, 8, 0x4, 0x0, 0x0, 0x0, 0x0, 0x0, false, false⟩,
    ⟨0x160, 8, 0x4, 0x0, 0x0, 0x0, 0x0, 0x0, false, false⟩]

/-- The registers of the SIN page (R536). -/
def sin : List RegEntry :=
   [⟨0x100, 1, 0x4, 0xFF, 0x0, 0x0, 0x0, 0x0, false, false⟩,
    ⟨0x104, 1, 0x4, 0xB6DB6D, 0x0, 0x0, 0x0, 0x0, false, false⟩,
    ⟨0x108, 2, 0x4, 0x0, 0x0, 0x0, 0x0, 0x0, false, false⟩]

/-- The registers of the SOUT page (R536). -/
def sout : List RegEntry :=
   [⟨0x100, 1, 0x4, 0x0, 0xFF, 0x0, 0x0, 0x0, false, false⟩,
    ⟨0x104, 1, 0x4, 0x0, 0x0, 0x0, 0x0, 0x0, false, false⟩,
    ⟨0x108, 1, 0x4, 0x0, 0x0, 0x0, 0x0, 0x0, false, false⟩,
    ⟨0x10C, 1, 0x4, 0x0, 0x0, 0x0, 0x0, 0x0, false, false⟩,
    ⟨0x110, 1, 0x4, 0x0, 0x0, 0x0, 0x0, 0xFFFFFFFF, false, false⟩]

/-- The registers of the SCOM page (R536). -/
def scom : List RegEntry :=
   [⟨0x100, 8, 0x4, 0x0, 0xFFFFFFFF, 0x0, 0x0, 0x0, false, false⟩,
    ⟨0x120, 8, 0x4, 0x0, 0x0, 0x0, 0x0, 0x0, false, false⟩,
    ⟨0x140, 8, 0x4, 0x0, 0x0, 0x0, 0x0, 0x0, false, false⟩,
    ⟨0x160, 1, 0x4, 0x0, 0x0, 0x0, 0x0, 0x0, false, false⟩,
    ⟨0x164, 1, 0x4, 0x0, 0x0, 0x0, 0x0, 0x0, false, false⟩]

/-- The registers of the SCFG page (R537). -/
def scfg : List RegEntry :=
   [⟨0x100, 1, 0x4, 0x3C, 0x0, 0x80001FFF, 0x0, 0x0, false, false⟩,
    ⟨0x104, 1, 0x4, 0x0, 0x0, 0x3FFFF, 0x0, 0x0, false, false⟩,
    ⟨0x108, 1, 0x4, 0x0, 0x0, 0xFFFFFFFF, 0x0, 0x0, false, false⟩,
    ⟨0x10C, 1, 0x4, 0x0, 0x0, 0x8000001F, 0x0, 0x0, false, false⟩,
    ⟨0x120, 8, 0x4, 0x1906000, 0x0, 0xFFFFE3FF, 0x0, 0x0, false, false⟩,
    ⟨0x140, 8, 0x8, 0x210A0A00, 0x0, 0xFFFFFF80, 0x0, 0x0, false, false⟩,
    ⟨0x144, 8, 0x8, 0x3E8, 0x0, 0xFFFFFFFF, 0x0, 0x0, false, false⟩,
    ⟨0x180, 8, 0x8, 0x0, 0x0, 0xC0007FFF, 0x0, 0x0, false, false⟩,
    ⟨0x184, 8, 0x8, 0xA, 0x0, 0xFFFF03FF, 0x0, 0x0, false, false⟩,
    ⟨0x1C0, 8, 0x8, 0x0, 0x0, 0xE0007FFF, 0x0, 0x0, false, false⟩,
    ⟨0x1C4, 8, 0x8, 0x32, 0x0, 0xFFFF03FF, 0x0, 0x0, false, false⟩]

/-- The registers of the TWN page (R575). -/
def twn : List RegEntry :=
   [⟨0x100, 1, 0x4, 0x0, 0x0, 0x0, 0x0, 0x0, false, false⟩,
    ⟨0x104, 2, 0x4, 0x0, 0x0, 0x0, 0x0, 0x0, false, false⟩,
    ⟨0x10C, 2, 0x4, 0x0, 0x0, 0x0, 0x0, 0x0, false, false⟩,
    ⟨0x114, 2, 0x4, 0x0, 0xFFFFFFFF, 0x0, 0x0, 0x0, false, false⟩,
    ⟨0x11C, 1, 0x4, 0x0, 0xFFFFF, 0x0, 0x0, 0x0, false, false⟩,
    ⟨0x120, 1, 0x4, 0x0, 0xFFFFFFFF, 0x0, 0x0, 0x0, false, false⟩,
    ⟨0x124, 1, 0x4, 0x0, 0xFFFFFFFF, 0x0, 0x0, 0x0, false, false⟩,
    ⟨0x128, 1, 0x4, 0x0, 0x0, 0x0, 0x0, 0x0, false, false⟩,
    ⟨0x12C, 1, 0x4, 0x0, 0x0, 0x0, 0x0, 0x0, false, false⟩,
    ⟨0x130, 2, 0x4, 0x0, 0x0, 0x0, 0x0, 0x0, false, false⟩]

/-- The registers of the DCU page (R576). -/
def dcu : List RegEntry :=
   [⟨0x100, 1, 0x4, 0x0, 0x0, 0x0, 0x0, 0x0, false, false⟩,
    ⟨0x104, 1, 0x4, 0x0, 0x0, 0x0, 0x0, 0x0, false, false⟩,
    ⟨0x108, 2, 0x4, 0x0, 0x0, 0x0, 0x0, 0x0, false, false⟩,
    ⟨0x110, 2, 0x4, 0x0, 0x0, 0x0, 0x0, 0x0, false, false⟩,
    ⟨0x118, 1, 0x4, 0x0, 0x0, 0x0, 0x0, 0x0, false, false⟩,
    ⟨0x11C, 1, 0x4, 0x0, 0x0, 0x0, 0x0, 0xFFFFFFFF, false, false⟩]

/-- The registers of the LAP page (R577). -/
def lap : List RegEntry :=
   [⟨0x100, 1, 0x4, 0xC00001F4, 0xC000FFFF, 0x0, 0x0, 0x0, false, false⟩,
    ⟨0x104, 1, 0x4, 0x1000064, 0xFF00FFFF, 0x0, 0x0, 0x0, false, false⟩,
    ⟨0x108, 1, 0x4, 0x0, 0x0, 0x0, 0x0, 0xFFFFFFFF, false, false⟩,
    ⟨0x10C, 1, 0x4, 0x0, 0xFFFF, 0x0, 0x0, 0x0, false, false⟩,
    ⟨0x110, 1, 0x4, 0x800000D0, 0x800000FF, 0x0, 0x0, 0x0, false, false⟩,
    ⟨0x114, 1, 0x4, 0x0, 0x800000FF, 0x0, 0x0, 0x0, false, false⟩,
    ⟨0x118, 1, 0x4, 0x0, 0x800000FF, 0x0, 0x0, 0x0, false, false⟩,
    ⟨0x11C, 1, 0x4, 0x0, 0x800000FF, 0x0, 0x0, 0x0, false, false⟩,
    ⟨0x120, 1, 0x4, 0x10000000, 0x0, 0x0, 0x800000, 0x0, false, false⟩,
    ⟨0x124, 1, 0x4, 0x0, 0x0, 0x0, 0x0, 0x0, false, false⟩,
    ⟨0x128, 1, 0x4, 0x0, 0x0, 0x0, 0x0, 0x0, false, false⟩,
    ⟨0x12C, 1, 0x4, 0x0, 0x0, 0x0, 0x0, 0x0, false, false⟩,
    ⟨0x130, 1, 0x4, 0x0, 0x0, 0x0, 0x0, 0x0, false, false⟩,
    ⟨0x134, 2, 0x4, 0x0, 0x0, 0x0, 0x0, 0x0, false, false⟩,
    ⟨0x13C, 1, 0x4, 0x0, 0xC1FFFFFF, 0x0, 0x0, 0x0, false, false⟩,
    ⟨0x140, 1, 0x4, 0x0, 0x1FFFFFF, 0x0, 0x0, 0x0, false, false⟩,
    ⟨0x144, 2, 0x4, 0x0, 0xFFFFFFFF, 0x0, 0x0, 0x0, false, false⟩,
    ⟨0x14C, 1, 0x4, 0x0, 0x0, 0x0, 0x0, 0x0, false, false⟩,
    ⟨0x150, 1, 0x4, 0x8000000, 0x0, 0x0, 0x0, 0x0, false, false⟩,
    ⟨0x154, 1, 0x4, 0x0, 0x0, 0x0, 0x0, 0x0, false, false⟩,
    ⟨0x158, 1, 0x4, 0x0, 0x0, 0x0, 0x0, 0x0, false, false⟩]

/-- The registers of the VAUX page (R613). -/
def vaux : List RegEntry :=
   [⟨0x100, 1, 0x4, 0x4001, 0xFF01, 0x0, 0x0, 0x0, false, false⟩,
    ⟨0x104, 1, 0x4, 0x0, 0x0, 0x0, 0x1C000000, 0x0, false, false⟩]

/-- The registers of the VCR page (R614). -/
def vcr : List RegEntry :=
   [⟨0x100, 1, 0x4, 0xA0320, 0xFF03FF, 0x0, 0x0, 0x0, false, false⟩,
    ⟨0x104, 1, 0x4, 0x53C041, 0xFFFFF077, 0x0, 0x0, 0x0, false, false⟩,
    ⟨0x108, 1, 0x4, 0x3C281000, 0xFFFFFF00, 0x0, 0x0, 0x0, false, false⟩,
    ⟨0x10C, 1, 0x4, 0x0, 0x0, 0x0, 0x0, 0x0, false, false⟩,
    ⟨0x110, 4, 0x4, 0x0, 0x0, 0x0, 0x0, 0x0, false, false⟩,
    ⟨0x120, 1, 0x4, 0x0, 0x0, 0x0, 0x0, 0x0, false, false⟩,
    ⟨0x124, 1, 0x4, 0x0, 0x0, 0x0, 0x0, 0x0, false, false⟩]

/-- The registers of the SURV page (R615). -/
def surv : List RegEntry :=
   [⟨0x100, 1, 0x4, 0x0, 0x0, 0x0, 0x0, 0x0, false, false⟩,
    ⟨0x104, 1, 0x4, 0x143000, 0xE0FFF00F, 0x0, 0x0, 0x0, false, false⟩,
    ⟨0x108, 1, 0x4, 0x20E10, 0xFFFFFFFF, 0x0, 0x0, 0x0, false, false⟩,
    ⟨0x10C, 1, 0x4, 0x285460, 0xFFFFFFFF, 0x0, 0x0, 0x0, false, false⟩,
    ⟨0x110, 1, 0x4, 0x0, 0x7FFF, 0x0, 0x0, 0x0, false, false⟩,
    ⟨0x114, 1, 0x4, 0x0, 0x0, 0x0, 0x0, 0x0, false, false⟩,
    ⟨0x118, 1, 0x4, 0x0, 0x0, 0x0, 0x0, 0xFFFFFFFF, false, false⟩,
    ⟨0x11C, 1, 0x4, 0x0, 0x0, 0x0, 0x0, 0x0, false, false⟩,
    ⟨0x120, 4, 0x4, 0x0, 0x0, 0x0, 0x0, 0x0, false, false⟩,
    ⟨0x130, 1, 0x4, 0x0, 0x0, 0x0, 0x80000000, 0x0, false, false⟩,
    ⟨0x400, 256, 0x4, 0x0, 0x0, 0x0, 0x0, 0x0, false, false⟩]

/-- The registers of the HRV page (R616). -/
def hrv : List RegEntry :=
   [⟨0x100, 1, 0x4, 0xB0201E00, 0xB03FFF00, 0x0, 0x0, 0x0, false, false⟩,
    ⟨0x104, 1, 0x4, 0x0, 0x0, 0x0, 0x0, 0x0, false, false⟩,
    ⟨0x108, 1, 0x4, 0x0, 0x0, 0x0, 0x0, 0x0, false, false⟩,
    ⟨0x10C, 2, 0x4, 0x0, 0x0, 0x0, 0x0, 0x0, false, false⟩]

/-- The registers of the STORE page (R617). -/
def store : List RegEntry :=
   [⟨0x100, 1, 0x4, 0x401401A4, 0x40FF01FF, 0x0, 0x0, 0x0, false, false⟩,
    ⟨0x104, 1, 0x4, 0x12C0136, 0x1FF01FF, 0x0, 0x0, 0x0, false, false⟩,
    ⟨0x108, 1, 0x4, 0x140014A, 0x1FF01FF, 0x0, 0x0, 0x0, false, false⟩,
    ⟨0x10C, 1, 0x4, 0x159, 0x1FF, 0x0, 0x0, 0x0, false, false⟩,
    ⟨0x110, 1, 0x4, 0x249F0, 0xFFFFFF, 0x0, 0x0, 0x0, false, false⟩,
    ⟨0x114, 1, 0x4, 0x3CEC2D00, 0xFFFFFFFF, 0x0, 0x0, 0x0, false, false⟩,
    ⟨0x118, 1, 0x4, 0x0, 0x0, 0x0, 0x0, 0x0, false, false⟩,
    ⟨0x11C, 1, 0x4, 0x0, 0x0, 0x0, 0x0, 0x0, false, false⟩,
    ⟨0x120, 1, 0x4, 0x0, 0x0, 0x0, 0x0, 0x0, false, false⟩]

end RegTable

/-- The page kinds of R673 in address order. -/
def pageKinds : List PageKind :=
   [⟨0x0, 1, 0x100, false, false, RegTable.sys⟩,
    ⟨0x1000, 1, 0x101, false, false, RegTable.txn⟩,
    ⟨0x2000, 1, 0x102, false, false, RegTable.evr⟩,
    ⟨0x3000, 1, 0x103, false, false, RegTable.clk⟩,
    ⟨0x4000, 1, 0x104, true, false, RegTable.htm⟩,
    ⟨0x5000, 1, 0x105, false, false, RegTable.rtc⟩,
    ⟨0x6000, 1, 0x106, false, false, RegTable.hpt⟩,
    ⟨0x7000, 1, 0x107, false, false, RegTable.boot⟩,
    ⟨0x8000, 1, 0x108, false, false, RegTable.sec⟩,
    ⟨0x9000, 1, 0x109, false, false, RegTable.otp⟩,
    ⟨0xA000, 1, 0x10A, false, false, RegTable.mem⟩,
    ⟨0x40000, 1, 0x200, false, false, RegTable.afe⟩,
    ⟨0x41000, 1, 0x201, false, false, RegTable.seq⟩,
    ⟨0x42000, 2, 0x202, false, false, RegTable.xmd⟩,
    ⟨0x44000, 1, 0x203, false, false, RegTable.acmp⟩,
    ⟨0x80000, 1, 0x300, false, false, RegTable.str⟩] ++
   [⟨0x81000, 1, 0x301, false, false, RegTable.strw⟩,
    ⟨0x82000, 1, 0x302, false, false, RegTable.pcr⟩,
    ⟨0x83000, 1, 0x303, false, false, RegTable.bpt⟩,
    ⟨0x84000, 1, 0x304, false, false, RegTable.hrd⟩,
    ⟨0x85000, 1, 0x305, false, false, RegTable.isl⟩,
    ⟨0x86000, 1, 0x306, true, false, RegTable.imp⟩,
    ⟨0xC0000, 1, 0x400, true, false, RegTable.pwt⟩,
    ⟨0xC1000, 16, 0x401, false, false, RegTable.pwmc⟩,
    ⟨0xD1000, 1, 0x402, false, false, RegTable.trip⟩,
    ⟨0xD2000, 1, 0x403, false, false, RegTable.mask⟩,
    ⟨0xE0000, 16, 0x404, false, false, RegTable.gdi⟩,
    ⟨0x100000, 2, 0x500, true, false, RegTable.mtr⟩,
    ⟨0x102000, 1, 0x501, false, false, RegTable.pqm⟩,
    ⟨0x140000, 8, 0x600, false, false, RegTable.lane⟩,
    ⟨0x148000, 2, 0x601, false, false, RegTable.quad⟩,
    ⟨0x14A000, 2, 0x602, false, false, RegTable.eth⟩] ++
   [⟨0x14C000, 1, 0x603, false, false, RegTable.fab⟩,
    ⟨0x14D000, 1, 0x604, false, false, RegTable.ses⟩,
    ⟨0x14E000, 1, 0x605, false, false, RegTable.mus⟩,
    ⟨0x180000, 1, 0x700, false, false, RegTable.shd⟩,
    ⟨0x181000, 1, 0x701, false, false, RegTable.sin⟩,
    ⟨0x182000, 1, 0x702, false, false, RegTable.sout⟩,
    ⟨0x183000, 1, 0x703, false, false, RegTable.scom⟩,
    ⟨0x184000, 1, 0x704, false, true, RegTable.scfg⟩,
    ⟨0x1C0000, 2, 0x800, false, false, RegTable.twn⟩,
    ⟨0x1C2000, 1, 0x801, false, false, RegTable.dcu⟩,
    ⟨0x1C3000, 1, 0x802, false, false, RegTable.lap⟩,
    ⟨0x200000, 1, 0x900, false, false, RegTable.vaux⟩,
    ⟨0x201000, 1, 0x901, false, false, RegTable.vcr⟩,
    ⟨0x202000, 1, 0x902, false, false, RegTable.surv⟩,
    ⟨0x203000, 1, 0x903, false, false, RegTable.hrv⟩,
    ⟨0x204000, 1, 0x904, false, false, RegTable.store⟩]

end Sys2Proof.Machine
end

