-- ==== Sys2Proof/Machine/RegMap.lean ====
section
/-!
DEFINITION. Finding a register by its offset from 0x4000_0000, its reset value, and the keys under which the banked and
windowed registers (TXN banks, Stride slots, tables and sections, route banks, sessions, PQ records) are held in the
same register file.
-/
namespace Sys2Proof.Machine
open Sys2Proof

/-- The page kind and instance that hold offset `k` (R673); none outside every page (R46). -/
def pageAt (k : Nat) : Option (PageKind × Nat) :=
  match pageKinds.find? fun p => decide (p.base ≤ k) && decide (k < p.base + 0x1000 * p.inst) with
  | some p => some (p, (k - p.base) / 0x1000)
  | none => none

/-- Whether entry `e` has a copy at page offset `o`. -/
def RegEntry.hits (e : RegEntry) (o : Nat) : Bool :=
  decide (e.off ≤ o) && decide ((o - e.off) % e.stride = 0) && decide ((o - e.off) / e.stride < e.n)

/-- The table entry of page offset `o` in instance `i` of page kind `p`. -/
def PageKind.entry (p : PageKind) (i o : Nat) : Option RegEntry :=
  p.regs.find? fun e => e.hits o && (!e.inst0 || decide (i = 0))

/-- The table entry of the register at offset `k` (+0x100 upward in a page); none where no register lies. -/
def regEntry (k : Nat) : Option RegEntry :=
  match pageAt k with
  | some (p, i) => p.entry i (k % 0x1000)
  | none => none

/-- The base of the page that holds `k`, as an offset. -/
def pageBase (k : Nat) : Nat := k / 0x1000 * 0x1000

namespace Key
/-- Word at page offset `o` of the TXN bank of initiator code `b` (R95). -/
def txn (b o : Nat) : Nat := 0x1000000 + 0x1000 * b + o
/-- Signal slot `k` (R196). -/
def slot (k : Nat) : Nat := 0x2000000 + k
/-- Stride table word `t` (R245). -/
def table (t : Nat) : Nat := 0x2100000 + t
/-- Word at offset `o` of the record of section `n` (R245). -/
def sec (n o : Nat) : Nat := 0x2200000 + 0x80 * n + o
/-- Word at offset `o` (S1, S2, S_EXP) of the second copy of section `n`'s states (R230). -/
def sec2 (n o : Nat) : Nat := 0x2300000 + 0x80 * n + o
/-- Word at page offset `o` of route bank `b` of plane `p` (R492). -/
def route (p b o : Nat) : Nat := 0x2400000 + 0x1000 * (2 * p + b) + o
/-- Word at page offset `o` of session `n` (R494). -/
def ses (n o : Nat) : Nat := 0x2500000 + 0x1000 * n + o
/-- Word `w` of record `r` of port `p`'s PQ ring (R409). -/
def pq (p r w : Nat) : Nat := 0x2800000 + 0x1000 * p + 32 * r + 4 * w
end Key

/-- The reset value given by the table of page offset `o` in the page at base `b`. -/
def entryReset (b o : Nat) : Nat :=
  match regEntry (b + o) with
  | some e => e.reset
  | none => 0

/-- The reset value of a key of the register file: the Reset column of its table (R10); a header register resets to 0
but for PG_CTL.EN (log entry 4, DESIGN CHOICE); PG_CRC is handled by its own reading. -/
def regReset (k : Nat) : Word :=
  BitVec.ofNat 32 <|
    if k < 0x240000 then
      if k % 0x1000 < 0x100 then (if k % 0x1000 = 0x8 then 1 else 0) else entryReset (pageBase k) (k % 0x1000)
    else if k < 0x2000000 then entryReset P.TXN (k % 0x1000)
    else if k < 0x2100000 then 0x40
    else if k < 0x2200000 then 0
    else if k < 0x2400000 then entryReset P.STRW (0x800 + k % 0x80)
    else if k < 0x2500000 then entryReset P.FAB (k % 0x1000)
    else if k < 0x2800000 then entryReset P.SES (k % 0x1000)
    else 0

end Sys2Proof.Machine
end

