-- ==== Sys2Proof/Config.lean ====
section
/-!
DEFINITION. What the spec leaves open. Each constant is opaque: nothing in Lean evaluates it or proves a value of it, so
a statement that holds holds for every value. A step that needs an open value applies one of them to the counter
`Chip.freeCtr` of the state and advances the counter (log entry 2, DESIGN CHOICE).
-/
namespace Sys2Proof.Config

/-- An open 32-bit value, one for each reading of the counter (log entry 2, DESIGN CHOICE). -/
opaque freeWord : Nat → Word

/-- An open natural number (log entry 2, DESIGN CHOICE). -/
opaque freeNat : Nat → Nat

/-- An open choice between two outcomes (log entry 2, DESIGN CHOICE). -/
opaque freeBool : Nat → Bool

/-- The exponent of the words IMP writes to its slot OUT, which its page does not name (log entry 2, DESIGN CHOICE); read modulo 64. -/
opaque impOutExp : Nat

/-- The DRAM offset of the 8 MiB staging area of a live load (R640), which the spec does not give (log entry 2, DESIGN CHOICE); read so that the
area lies in DRAM. -/
opaque stagingBase : Nat

/-- The byte that a location of SRAM, DRAM or FRAM holds before anything was written to it (log entry 3, DESIGN CHOICE). -/
def unwrittenByte : Byte := 0#8

/-- The byte of an erased flash location (log entry 3, DESIGN CHOICE). -/
def erasedFlashByte : Byte := 0xFF#8

/-- Word `i` of the AES-256-GCM key stream of a key and a nonce (R485); the cipher is named, not specified, by the spec
(log entry 2, DESIGN CHOICE). -/
opaque gcmStream : List Word → Nat → Nat → Word

/-- The AES-256-GCM tag of a key, a nonce, additional data and a ciphertext (R485; log entry 2, DESIGN CHOICE). -/
opaque gcmTag : List Word → Nat → List Word → List Word → BitVec 128

/-- The SHA-384 hash of a list of bytes (R527, R532); named, not specified, by the spec (log entry 2, DESIGN CHOICE). -/
opaque sha384 : List Byte → BitVec 384

/-- BLOCK_CAP of the pages of a block code (R55), which the spec does not state (log entry 44, DESIGN CHOICE). -/
opaque blockCap : Nat → Nat

/-- BLOCK_STAT of the pages of a block code (R55), which the spec does not state (log entry 44, DESIGN CHOICE). -/
opaque blockStat : Nat → Nat

end Sys2Proof.Config
end

