-- ==== Sys2Proof/Machine/Maps.lean ====
section
/-!
DEFINITION. Sparse maps in canonical form: lists of (key, value) pairs with strictly rising keys, in which no entry
equals what an unlisted key reads as. The register file is such a map of words, each memory one of bytes; equal
contents are equal lists.
-/
namespace Sys2Proof.Machine
open Sys2Proof

/-- A sparse map: (key, value) pairs. -/
abbrev SMap (α : Type) := List (Nat × α)

/-- The value of key `k`; an unlisted key reads as `d k`. -/
def SMap.get {α : Type} (d : Nat → α) (m : SMap α) (k : Nat) : α :=
  match m with
  | [] => d k
  | (j, v) :: t => if j = k then v else SMap.get d t k

/-- The map without key `k`. -/
def SMap.erase {α : Type} (m : SMap α) (k : Nat) : SMap α :=
  match m with
  | [] => []
  | (j, v) :: t => if j = k then SMap.erase t k else (j, v) :: SMap.erase t k

/-- The map with an entry for `k` put before the first greater key. -/
def SMap.insert {α : Type} (m : SMap α) (k : Nat) (v : α) : SMap α :=
  match m with
  | [] => [(k, v)]
  | (j, w) :: t => if k < j then (k, v) :: (j, w) :: t else (j, w) :: SMap.insert t k v

/-- The map with `v` at `k`: the entry is removed where `v` is what an unlisted `k` reads as. -/
def SMap.put {α : Type} [DecidableEq α] (d : Nat → α) (m : SMap α) (k : Nat) (v : α) : SMap α :=
  if v = d k then m.erase k else SMap.insert (m.erase k) k v

/-- The map with only the keys for which `p` holds (every other key returns to what it reads as unlisted). -/
def SMap.keep {α : Type} (p : Nat → Bool) (m : SMap α) : SMap α := m.filter fun e => p e.1

/-- The keys rise strictly from above `lo`. -/
def SMap.risesFrom {α : Type} (lo : Option Nat) (m : SMap α) : Bool :=
  match m with
  | [] => true
  | (k, _) :: t => (match lo with | none => true | some l => decide (l < k)) && SMap.risesFrom (some k) t

/-- The canonical form: keys strictly rising, no entry equal to what its key reads as unlisted. -/
def SMap.wf {α : Type} [DecidableEq α] (d : Nat → α) (m : SMap α) : Bool :=
  SMap.risesFrom none m && m.all fun e => decide (e.2 ≠ d e.1)

/-- Entry `i` of a list, or `x` past its end. -/
def nth {α : Type} (l : List α) (i : Nat) (x : α) : α := l.getD i x

/-- The list with entry `i` changed by `f` (nothing past its end). -/
def upd {α : Type} (l : List α) (i : Nat) (f : α → α) : List α := l.modify i f

end Sys2Proof.Machine
end

