-- ==== Sys2Proof/Machine/State.lean ====
section
/-!
DEFINITION. The state of the device as plain data: the waiting commands, the register file, the state the chapters give
each block beside its registers, and the memories.
-/
namespace Sys2Proof.Machine
open Sys2Proof

/-- Why a step stops with a fault. The spec gives the block no fault that stops it (a refused access is recorded in
PG_ERR, a safety cause enters SAFE), so no meaning raises this. -/
inductive Fault where
  /-- Kept so that the type is inhabited; raised by no command (safe: nothing stops on it). -/
  | none
  deriving DecidableEq, Repr

/-- Why a step refuses. -/
inductive Refusal where
  /-- A command whose meaning is not written yet, raised by exec's arm for it (safe: the machine stops). -/
  | notModelled (mnemonic : String)
  deriving DecidableEq, Repr

/-- The device states of *Architecture and Operating States* (R21). -/
inductive Mode where
  | off | survival | boot | ready | run | degraded | safe | replay
  deriving DecidableEq, Repr

/-! ### Transactions (*Register Pages and Transactions*) -/

/-- The state of a transaction context (R95). -/
inductive CtxState where
  | free | opened | doomed | armed | prepared | inDoubt | coordinating
  deriving DecidableEq, Repr

/-- The kind of a context: opened by BEGIN, BEGIN_HERD or BEGIN_COORD. -/
inductive CtxKind where
  | localCtx | herd | coord
  deriving DecidableEq, Repr

/-- The commit mode of an armed context (R678). -/
inductive CommitMode where
  | now | atEvent | atHt
  deriving DecidableEq, Repr

/-- One transaction context (R70 to R94): its state, owner (initiator code and session; code 0 for the muster engine's
own), herd data, at a coordinator the destination, AUTO and HEXPECT of its PREPARE, whether it has voted YES (R89), whether
COMMIT_AT was sent (R94), and the staged entries (register key and word, in ascending order of key). -/
structure Ctx where
  st : CtxState
  kind : CtxKind
  ini : Nat
  ses : Nat
  mode : CommitMode
  event : Nat
  t : Nat
  tag : Nat
  guardUs : Nat
  timeoutMs : Nat
  edgeFixed : Bool
  late : Bool
  coordId : Nat
  yes : Nat
  no : Nat
  result : Nat
  auto : Bool
  expect : Nat
  dest : Nat
  voted : Bool
  sent : Bool
  entries : SMap Word
  deriving DecidableEq, Repr

/-- A free context. -/
def Ctx.init : Ctx := ⟨.free, .localCtx, 0, 0, .now, 0, 0, 0, 0, 0, false, false, 0, 0, 0, 0, false, 0, 0, false, false, []⟩

/-- Where an event occurrence is delivered (R64); a notification carries the herd time of the occurrence. -/
inductive EvDest where
  | twinA | twinB | stride (g : Nat) | sheepdog | fabric (ses plane t : Nat)
  deriving DecidableEq, Repr

/-! ### Device state, safe-state latch and change log (*Architecture and Operating States*, *Safety Subsystem*) -/

/-- One entry of the change log as it is queued (R532): its kind, calendar seconds and ticks, herd time, credential,
state code, safe cause and kind data. -/
structure LogEntry where
  kind : Nat
  cal : Nat
  ht : Nat
  cred : Nat
  state : Nat
  cause : Nat
  data : List Byte
  deriving DecidableEq, Repr

/-- One safety output channel beside its registers (R504 to R510): its settle window and whether a switch opened it, the side an off-pulse opens
(false P, true M), the side the next pulse takes, whether each side passed its last test, and whether an
energise-to-trip pulse runs. -/
structure SoutCh where
  settle : Bool := false
  switched : Bool := false
  pulse : Option Bool := none
  nextM : Bool := false
  passP : Bool := false
  passM : Bool := false
  trip : Bool := false
  deriving DecidableEq, Repr

/-- The safe state beside the SYS and SHD registers: `stopping` while a STOP waits for the last timebase (R24), whether
the start-up test failed (R503), whether gate-driver supplies are applied (R505), whether the breaker was ever released
(R506), SAFE frames due (R517), the conditions of cause kinds that hold now (cause code, class, index: R500), the log
queues of the main and the survival domain (R533) and lost entries not yet logged. -/
structure SafeSt where
  stopping : Bool := false
  startupFailed : Bool := false
  sgr : Bool := false
  injectDue : Bool := false
  sout : List SoutCh := List.replicate 8 {}
  log : List LogEntry := []
  survLog : List LogEntry := []
  lostDue : Nat := 0
  graceRun : Bool := false
  deriving DecidableEq, Repr

/-- TXN and the event router beside their registers: the contexts 1 to 15 (entry n − 1), the result of each bank's last
operation (entry b for initiator code b), the highest pool use, the pulse sources pending at each twin, the occurrences
on their way to a destination, the high-word latch of each initiator (R52), and the sources whose EVR.SRC a soft reset of
EVR has returned and nothing has rewritten since (R98). -/
structure BusSt where
  ctxs : List Ctx
  bankRes : List Nat
  poolPeak : Nat
  pendA : List Nat
  pendB : List Nat
  deliveries : List (Nat × EvDest)
  hiLatch : List (Option (Nat × Word))
  evrCut : List Nat
  deriving DecidableEq, Repr

def BusSt.init : BusSt := ⟨List.replicate 15 Ctx.init, List.replicate 8 0, 0, [], [], [], List.replicate 8 none, []⟩

/-! ### Clocks, herd time and calendar (*Root Clock, Herd Time and Calendar*) -/

/-- A hop in progress (R106, R108): the slot, whether frequency has been acquired, and the phase error at that acquisition and now, in 1/200 ps
(what a slew of 2 ps/µs moves at one CK_PER edge). -/
structure Hop where
  slot : Nat
  freqOk : Bool
  err0 : Int := 0
  err : Int := 0
  deriving DecidableEq, Repr

/-- Clock and time state beside the registers: `ht` is herd time in units of 2^−48 ns (R119), `adjRem` the remaining
amortisation in the same unit, `stepPend` an accepted step not yet applied (R129), `ppsOut` whether a PPS_OUT pulse
runs, `gated` whether the working clocks still wait for the first lock (R103), `outDiv` and `outSsc` the divider and
spread words in force (R117), `calSec` and `calSub` the calendar (R132), a SET and an RC calibration under way, and
whether the crystal has failed. `delays` holds the last link-delay measurements in 2^−16 ns, newest first (R481), and
`cyc` counts the CK_PER edges since the power-on reset. -/
structure TimeSt where
  ht : Nat := 0
  adjRem : Int := 0
  stepPend : Bool := false
  ppsOut : Bool := false
  hop : Option Hop := none
  gated : Bool := true
  outDiv : List Word := List.replicate 4 0x40000#32
  outSsc : List Word := List.replicate 4 0x7800#32
  calSec : Nat := 0
  calSub : Nat := 0
  setPend : Bool := false
  rcCal : Bool := false
  xtalFailed : Bool := false
  delays : List Int := []
  cyc : Nat := 0
  deriving DecidableEq, Repr

/-! ### The Lap log (*Redundant Execution and Replay*) -/

/-- A record waiting for the ring (R562, R563): a short record carries its source number in `kind` and the slot word in
`data`; a long record carries its KIND, SUB, herd time and payload units of 8 bytes. -/
structure LapRec where
  short : Bool
  kind : Nat
  sub : Nat
  ht : Nat
  data : List Nat
  deriving DecidableEq, Repr

/-- The bytes a record takes in the ring (R562). -/
def LapRec.bytes (r : LapRec) : Nat := if r.short then 8 else 16 + 8 * r.data.length

/-- The Lap log beside its registers: the FIFO (R564), the bytes lost since the last record taken, the herd time in ns
of the first record lost, and the level inputs as last recorded (R563). -/
structure LapSt where
  fifo : List LapRec := []
  lost : Nat := 0
  lostAt : Nat := 0
  lvl : Nat := 0
  deriving DecidableEq, Repr

/-! ### Sample bus and measurement (*Measurement Front End*) -/

/-- A sample-bus frame on its way (R13, R14): the order number of its completion cycle, its source, its destination slot
and its word. -/
structure Frame where
  cyc : Nat
  src : Nat
  slot : Nat
  word : Word
  deriving DecidableEq, Repr

/-- A logical channel of the AFE (R155 to R162): whether it converts, the entry it executes with the words in force,
kept results of the entry, results still to discard, a settling wait, the group count at which its next result completes, and the duet's
fail count and state. -/
structure AfeCh where
  run : Bool := false
  entry : Nat := 0
  lo : Word := 0
  hi : Word := 0
  kept : Nat := 0
  discard : Nat := 0
  settling : Bool := false
  due : Nat := 0
  fails : Nat := 0
  duetFail : Bool := false
  changed : Bool := false
  deriving DecidableEq, Repr

/-- A rotation in progress (R167): channel, the modulator it leaves, the spare, the group count at which the spare's first kept result
completes, and whether the switch is done and the freed modulator calibrates. -/
structure AfeRot where
  lch : Nat
  old : Nat
  spare : Nat
  first : Nat
  calibrating : Bool
  deriving DecidableEq, Repr

/-- What a filter of an XMD channel has taken from its pin (R170 to R172): CK_PER cycles since the last rising edge of the selected clock, or
in Manchester mode since the last mid-bit transition; the pin's level; and the bits counted, newest first, true for +1. -/
structure XmdTap where
  ph : Nat := 0
  level : Bool := false
  bits : List Bool := []
  deriving DecidableEq, Repr

/-- A channel of the XMD (R170 to R181): what the control and the protection filter have taken; a sampling edge of a last bit, as a CK_PER
cycle, and the bits from there to an edge at which an output window ends; the last mantissa and SAT delivered without STALE; outputs still
STALE after a re-phase; after LOS the bits since it cleared, and those of the present window before that; consecutive bits beyond each
limit; the protection outputs now, and loss of signal. -/
structure XmdCh where
  ctl : XmdTap := {}
  prot : XmdTap := {}
  phase : Option (Nat × Nat) := none
  last : Nat := 0
  lastSat : Bool := false
  staleOut : Nat := 0
  good : Option Nat := none
  before : Nat := 0
  hiN : Nat := 0
  loN : Nat := 0
  los : Bool := false
  hi : Bool := false
  lo : Bool := false
  deriving DecidableEq, Repr

/-- Where a comparator stands (R182). -/
inductive Region where
  | inside | above | below
  deriving DecidableEq, Repr

/-- A window comparator (R182 to R189): its region, the outputs it shows to TRIP and to the Sheepdog, an open blanking
window, and whether a self-test runs on it. -/
structure AcmpCh where
  region : Region := .inside
  toTrip : Bool := false
  toShd : Bool := false
  blank : Bool := false
  testing : Bool := false
  deriving DecidableEq, Repr

/-- The measurement blocks beside their registers: the frames waiting on the sample bus; the group whose results complete at the edge of
the newest completion; of each group the CK_PER cycle of its enabling and its count in modulator clocks (R157); the channels, the rotation,
the modulators of each half still to calibrate, and the comparators still to test. -/
structure MeasSt where
  frames : List Frame := []
  cyc : Nat := 0
  newest : Option Nat := none
  since : List Nat := [0, 0]
  count : List Nat := [0, 0]
  afe : List AfeCh := List.replicate 10 {}
  rot : Option AfeRot := none
  cal : List (List Nat) := [[], []]
  xmd : List XmdCh := List.replicate 24 {}
  acmp : List AcmpCh := List.replicate 16 {}
  tests : List Nat := []
  deriving DecidableEq, Repr

/-! ### Stride engine and Pacer (*Stride Engine and Pacer*) -/

/-- A section result on its way to its slots (R226): the section, the words of its outputs with their slots, the new
states of the first copy and of the second, for each output whether the copies agreed, and whether one saturated. -/
structure SecRes where
  sec : Nat
  outs : List (Nat × Word)
  st : List (Nat × Word)
  st2 : List (Nat × Word)
  same : List Bool
  sat : Bool
  deriving DecidableEq, Repr

/-- A rate group (R214 to R224): the configuration words in force, whether it is enabled, a trigger completed and not
evaluated to the end (`busy`), dispatched, a trigger pending, an open window, the trigger slots that have a new frame,
arrived event triggers, evaluations of the divider's source, trigger slots to read as STALE, the herd times of the
trigger and of the pending one, slots as sampled at the last dispatch, and for the evaluation under way: section memory as sampled, the
sections to evaluate, the next section number, results in flight, sections that have written, and whether it is duplicated. -/
structure StrGrp where
  en : Bool := false
  cfg : Word := 0x10000#32
  tsl0 : Word := 0
  tsl1 : Word := 0
  per : Word := 0x190#32
  busy : Bool := false
  disp : Bool := false
  pend : Bool := false
  win : Bool := false
  got : List Nat := []
  due : Nat := 0
  div : Nat := 0
  missing : List Nat := []
  missNext : List Nat := []
  trigHt : Nat := 0
  pendHt : Nat := 0
  secs : SMap Word := []
  slots : SMap Word := []
  list : List Nat := []
  next : Nat := 0
  fly : List SecRes := []
  wrote : List Nat := []
  dup : Bool := false
  deriving DecidableEq, Repr

/-- A word on its way through an output port (R226, R229): port, word, the group and evaluation of the writing section
where a section wrote it. -/
structure PortWr where
  port : Nat
  word : Word
  grp : Option Nat
  eval : Nat
  deriving DecidableEq, Repr

/-- A Pacer channel beside its registers (R237, R238): position, velocity and acceleration in its units. -/
structure PcrCh where
  p : Int := 0
  v : Int := 0
  a : Int := 0
  deriving DecidableEq, Repr

/-- The Stride engine and the Pacer beside their registers: the groups, the writer of each slot (0 none), state writes
waiting for a dispatch, sections blocked for an ECC error, words on their way through ports, the Pacer channels, and
Pacer commands waiting for a dispatch (channel, operation code). -/
structure StrSt where
  grp : List StrGrp := List.replicate 8 {}
  owners : SMap Nat := []
  defer : List (Nat × Word) := []
  ecc : List Nat := []
  causes : SMap Nat := []
  ports : List PortWr := []
  pcr : List PcrCh := List.replicate 16 {}
  pcrCmds : List (Nat × Nat) := []
  deriving DecidableEq, Repr

/-! ### Grid control and ride-through (*Grid-Following and Grid-Forming Control*, *Fault Ride-Through and Islanding
Detection*) -/

/-- A finite binary64 value `m × 2^e` (R250). -/
structure F64 where
  m : Int
  e : Int
  deriving DecidableEq, Repr

/-- A channel of the best-point tracker beside its registers (R249 to R260): the enable in effect, a window to start with the next sample (with
SKIP or without), the words in force in this window (by register), samples still to skip, samples taken, a stale sample seen, the sums, the reference, its
direction, whether the next decision is the first, and the previous averages. -/
structure BptCh where
  en : Bool := false
  due : Option Bool := none
  par : SMap Word := []
  skip : Nat := 0
  n : Nat := 0
  stale : Bool := false
  sumA : F64 := ⟨0, 0⟩
  sumB : F64 := ⟨0, 0⟩
  sumAb : F64 := ⟨0, 0⟩
  sumPl : F64 := ⟨0, 0⟩
  ref : F64 := ⟨0, 0⟩
  up : Bool := false
  first : Bool := true
  aPrev : F64 := ⟨0, 0⟩
  bPrev : F64 := ⟨0, 0⟩
  pPrev : F64 := ⟨0, 0⟩
  deriving DecidableEq, Repr

/-- The Hurdle unit beside its registers (R272 to R282): the enable in effect, whether it runs, whether its last
evaluation met a STALE input, the counters (dip, zero and swell on each
measure, the three exits, the curve check), elapsed and event time in ns, the reactive current before the event, the
least active limit, the ramp, the pre-fault voltage, the ends of the freeze and block timers, the previous angle and
frequency, the ring of frequencies with the evaluations since its last entry, the output words, and HRD_BLK. -/
structure HrdSt where
  en : Bool := false
  run : Bool := false
  stale : Bool := false
  dipF : Nat := 0
  dipS : Nat := 0
  zroF : Nat := 0
  zroS : Nat := 0
  swlF : Nat := 0
  swlS : Nat := 0
  rcv : Nat := 0
  zex : Nat := 0
  swx : Nat := 0
  crv : Nat := 0
  now : Nat := 0
  tEv : Nat := 0
  iqPre : F64 := ⟨0, 0⟩
  ipMin : F64 := ⟨0, 0⟩
  ramp : F64 := ⟨0, 0⟩
  upre : F64 := ⟨1, 0⟩
  freeze : Option Nat := none
  block : Option Nat := none
  prev : Option (F64 × F64) := none
  ring : List F64 := []
  dec : Nat := 0
  out : List Word := []
  blk : Bool := false
  deriving DecidableEq, Repr

/-- The passive islanding detectors beside their registers (R283 to R288): the enable in effect, whether they run, whether the last
tick met a STALE input, evaluations since the last tick, the timers of the two tables in s with whether each entry was outside at the last tick, the ring of
frequencies (newest first), the previous angle and frequency, consecutive ticks above the ROCOF limit, the
return-to-service count in s, and ISL_BLK. -/
structure IslSt where
  en : Bool := false
  run : Bool := false
  stale : Bool := false
  dec : Nat := 0
  ft : List (F64 × Bool) := List.replicate 8 (⟨0, 0⟩, false)
  vt : List (F64 × Bool) := List.replicate 8 (⟨0, 0⟩, false)
  ring : List F64 := []
  prev : Option (F64 × F64) := none
  roc : Nat := 0
  rts : F64 := ⟨0, 0⟩
  blk : Bool := false
  deriving DecidableEq, Repr

/-- The sums of one bin (R291): V and I, real and imaginary parts. -/
structure ImpSum where
  vr : F64 := ⟨0, 0⟩
  vi : F64 := ⟨0, 0⟩
  ir : F64 := ⟨0, 0⟩
  ii : F64 := ⟨0, 0⟩
  deriving DecidableEq, Repr

/-- A grant of injection time (R296, R297): start and end in herd time, and whether it names the watch member. -/
structure Grant where
  start : Nat
  stop : Nat
  watch : Bool
  deriving DecidableEq, Repr

/-- A paddock as the bellwether schedules it (R296): the end of the last granted interval, watch windows since the last
foreign grant, whether a foreign grant was ever given, and the members whose granted intervals are not known to have ended, in order of
grant. -/
structure Paddock where
  pdk : Nat
  stop : Nat
  watchRun : Nat
  foreign : Bool
  opened : List Nat := []
  deriving DecidableEq, Repr

/-- The impedance probe beside its registers (R289 to R297): the enable in effect, the shift register, the evaluation within the sequence
period, whole periods of the present phase, the sums of the 16 bins, the sums of a window whose results are due with
its number of evaluations and the registers as its last evaluation used them, evaluations of zero output left in GAP, a stop accepted, one window requested, the grant
held, whether an injection under it has started, the grants after it, and at the bellwether the requests in order of arrival (paddock,
member, length in ns) and the paddocks' schedules. -/
structure ImpSt where
  en : Bool := false
  lfsr : Nat := 0
  pos : Nat := 0
  per : Nat := 0
  sums : List ImpSum := List.replicate 16 {}
  due : Option (List ImpSum × Nat × SMap Word) := none
  gap : Nat := 0
  stop : Bool := false
  once : Bool := false
  grant : Option Grant := none
  more : List Grant := []
  inGrant : Bool := false
  reqs : List (Nat × Nat × Nat) := []
  pads : List Paddock := []
  deriving DecidableEq, Repr

/-! ### PWM, trip and gate drive (*PWM Timebases and Channels*, *Gate-Drive Interface and Power-Stage Protection*) -/

/-- A timebase beside its registers (R309 to R317, R326): a start that waits for its instant, the codes of 78.125 ps from
the rising edge of the period-event cycle to the period start, the length of this period and the instant of its peak in
those codes, the HL_EN in effect, a realignment jump waiting, reload points since the start, period starts in a row within one code, whether it has
reloaded since a STOP, and the CK_PER cycle of its last stop. -/
structure PwmTb where
  startDue : Bool := false
  fine : Nat := 0
  len : Int := 0
  half : Int := 0
  hl : Bool := false
  jump : Bool := false
  points : Nat := 0
  good : Nat := 0
  reloaded : Bool := false
  stopped : Nat := 0
  deriving DecidableEq, Repr

/-- A PWM channel beside its registers (R318 to R339): the enable in effect, held since a STOP, the shadow armed, the compare state, the GH
request after the minimum-pulse stage, the request forced inactive to the next segment start by a late rising edge, the
first instant in codes at which edges are placed, the instant of the last placed edge (while the timebase is stopped, from its stop), a level held back by the minimum
pulse, whether the request was active throughout the period so far, the requests at the dead-time generator, and whether
each rise still waits for the dead time. -/
structure PwmCh where
  en : Bool := false
  stopHold : Bool := false
  armed : Bool := false
  cmp : Bool := false
  req : Bool := false
  lateHold : Bool := false
  start : Int := 0
  lastEdge : Option Int := none
  held : Option Bool := none
  full : Bool := false
  reqH : Bool := false
  reqL : Bool := false
  dtH : Bool := false
  dtL : Bool := false
  deriving DecidableEq, Repr

/-- A trip source beside its registers (R344 to R348): the channels it still holds (a mask), whether CLEAR was
accepted for it, and a change that its blanking window holds back. -/
structure TripSrc where
  held : Nat := 0
  cleared : Bool := false
  due : Option Bool := none
  deriving DecidableEq, Repr

/-- An entry of a gate-command queue (R358 to R360): herd time in ns, fine code, state code, whether it came late, and the CK_PER cycle at
which a late one executes. -/
structure GateEnt where
  t : Nat
  f : Nat
  st : Nat
  late : Bool
  due : Nat
  deriving DecidableEq, Repr

/-- A gate-drive instance beside its registers (R355 to R376): the queue, the requests of the last executed entry, the
outputs of the dead-time stage and rises that wait for it, the asynchronous fault hold, an assertion of GFLT not yet
sampled, both requests on seen by the
interlock, the count n, whether the window is open, whether RESUME follows a fault, whether the last
fault was injected, full-on periods in a row, and the refresh notch. -/
structure GdiCh where
  queue : List GateEnt := []
  fabH : Bool := false
  fabL : Bool := false
  h : Bool := false
  l : Bool := false
  dtH : Bool := false
  dtL : Bool := false
  lateH : Bool := false
  lateL : Bool := false
  async : Bool := false
  fresh : Bool := false
  shoot : Bool := false
  n : Nat := 0
  win : Bool := false
  faulted : Bool := false
  inj : Bool := false
  fullN : Nat := 0
  notch : Bool := false
  deriving DecidableEq, Repr

/-- The power stage beside its registers. -/
structure PwmSt where
  tb : List PwmTb := List.replicate 4 {}
  ch : List PwmCh := List.replicate 16 {}
  trip : List TripSrc := List.replicate 16 {}
  gdi : List GdiCh := List.replicate 16 {}
  deriving DecidableEq, Repr

/-! ### Metering (*Energy Metering and Power Quality*) -/

/-- A kept result of a metering input (R384): its sample instant in units of 2^−48 ns, its value, and STALE. -/
structure MtrSamp where
  inst : Int
  v : F64
  stale : Bool
  deriving DecidableEq, Repr

/-- A metering tick (R384): its herd time in ns and the six aligned values. -/
structure MtrTick where
  t : Nat
  x : List F64
  deriving DecidableEq, Repr

/-- A metering port beside its registers (R384 to R388, R395): the history of each input, newest first, with the results
counted toward its next kept one, the ticks of the present and the previous cycle, newest first, the number of ticks in
the present cycle, whether the reference has been below −H and above +H since the last crossing, the tick of the cycle's
negative crossing, a stale sample in the cycle, the residues, and the |P| of the cycles of the last second with the herd
time of their ends. -/
structure MtrPort where
  hist : List (List MtrSamp) := List.replicate 6 []
  dec : List Nat := List.replicate 6 0
  ticks : List MtrTick := []
  n : Nat := 0
  low : Bool := false
  high : Bool := false
  neg : Option Nat := none
  stale : Bool := false
  res : List F64 := List.replicate 8 ⟨0, 0⟩
  ps : List (Nat × F64) := []
  deriving DecidableEq, Repr

/-- An open power-quality event (R407, R408): the ring index of its record, its start in ns, its extreme value as a
fraction of UDIN. -/
structure PqOpen where
  idx : Nat
  t : Nat
  ext : F64
  deriving DecidableEq, Repr

/-- A power-quality port beside its registers (R408, R409): the next sequence number, the open events (SAG, SWELL,
INTERRUPTION), and the records new or changed since the last save, newest first. -/
structure PqPort where
  seq : Nat := 0
  opens : List (Option PqOpen) := [none, none, none]
  dirty : List Nat := []
  deriving DecidableEq, Repr

/-- A save in progress (R397, R398): whether it is the power-fail save, its sequence number, the bytes it writes in order
with their FRAM addresses, and the PQ records (port, index) that it takes. -/
structure SaveRun where
  fail : Bool
  seq : Nat
  bytes : List (Nat × Byte)
  recs : List (Nat × Nat)
  deriving DecidableEq, Repr

/-- Metering beside its registers: the ports, the power-quality ports, the save in progress, whether the starting block
has restored the ports (R393), whether SAVE_INCOMPLETE and CO_STOP are still to be raised (R400, R404), and the residue
of CO_CHG (R403). -/
structure MtrSt where
  port : List MtrPort := [{}, {}]
  pq : List PqPort := [{}, {}]
  save : Option SaveRun := none
  restored : Bool := false
  incDue : Bool := false
  coStopDue : Bool := false
  coRes : F64 := ⟨0, 0⟩
  deriving DecidableEq, Repr

/-! ### Serial lanes (*Serial Lanes*) -/

/-- What a lane's receiver asks of the partner's transmitter in its search (R424): a preset of the loop, the best preset,
nothing (a fast retrain measures first), a tap step (`post` or pre-cursor, `inc` or decrease), the undoing of one, or
nothing more. -/
inductive TrStep where
  | preset (p : Nat) | best | fast | tap (post inc : Bool) | undo (post inc : Bool) | done
  deriving DecidableEq, Repr

/-- Where a step stands: the request is on, hold is sent and NOT_UPDATED awaited, or the adaptation wait runs. -/
inductive TrSub where
  | req | rel | adapt
  deriving DecidableEq, Repr

/-- The training of a lane (R421 to R424): the TRAIN and TRAIN2 words in force, the step of its own search, presets left,
the best FOM and its preset, whether the present round improved it, whether the last response was UPDATED, the status
fields it sends (PRE_ST, POST_ST, PRESET_ST), and consecutive valid frames with RX_READY. -/
structure Train where
  cfg : Word := 0
  cfg2 : Word := 0
  step : TrStep := .done
  sub : TrSub := .req
  todo : List Nat := []
  best : Nat := 0
  bp : Option Nat := none
  improved : Bool := false
  upd : Bool := false
  preSt : Nat := 0
  postSt : Nat := 0
  presetSt : Bool := false
  ready : Bool := false
  rdy : Nat := 0
  deriving DecidableEq, Repr

/-- An ANNOUNCE as a lane last heard it (R461): rank, root ID, SEATED, the sender's level (none where it has none) and ID. -/
structure Ann where
  rank : Nat
  root : Nat
  seated : Bool
  level : Nat
  id : Nat
  deriving DecidableEq, Repr

/-- A lane beside its registers: consecutive TRAIN failures at one rate (R420), training, whether a valid capability
block was received (R425), the retry buffer with link sequence numbers and the DN bit before this hop, the next number, replays of the oldest packet,
the number expected from the partner and whether a NAK for it is out (R429, R430), the packets that wait for this lane
with the lane they came in on, credits held and credits given back to the partner by VC (R476), the microsecond of the
last TIME packet, bits inverted on command (R435), a module access in progress (write, device A2h, offset: R442) and
the last ANNOUNCE heard, the scrambler's register and the 66-bit blocks of the packets last sent (R416). -/
structure LaneSt where
  fails : Nat := 0
  tr : Train := {}
  capsAck : Bool := false
  buf : List (Nat × Bool × Packet) := []
  seq : Nat := 0
  replays : Nat := 0
  rxSeq : Nat := 0
  nak : Bool := false
  vq : List (Option Nat × Packet) := []
  cred : List Nat := [0, 0, 0, 0, 0, 0]
  freed : List Nat := [0, 0, 0, 0, 0, 0]
  lastTime : Option Nat := none
  inj : Nat := 0
  acc : Option (Bool × Bool × Nat) := none
  ann : Option Ann := none
  scr : BitVec 58 := 0
  line : List (BitVec 66) := []
  deriving DecidableEq, Repr

/-! ### Fabric (*Trotum Fabric and the Herd*) -/

/-- A packet waiting for injection: the planes it goes out on (bit 0 A, bit 1 B; 0 for one plane that has a route), the
lane of a link-local packet, and whether its payload is already protected (R485). -/
structure OutPkt where
  p : Packet
  planes : Nat
  lane : Option Nat
  sealed : Bool
  deriving DecidableEq, Repr

/-- The root a device holds on a plane (R462). -/
structure Root where
  rank : Nat
  id : Nat
  seated : Bool
  deriving DecidableEq, Repr

/-- A member in the bellwether's map (R465 to R469): ID, serial, state (1 active, 2 left, 3 reserved), the plane, level and
route record of its last message, and the partner ID and state of each lane. -/
structure Member where
  id : Nat
  serial : Nat
  st : Nat
  plane : Nat
  lvl : Nat
  route : Nat
  lanes : List (Nat × Nat)
  deriving DecidableEq, Repr

/-- A request that awaits its response (R478): its tag, session, and the twin that sent it (none for hardware). -/
structure Req where
  tag : Nat
  ses : Nat
  twin : Option Bool
  deriving DecidableEq, Repr

/-- The fabric beside its registers: packets delivered here (plane, input lane) that no consumer has taken, injection and forwarding
stopped by a soft reset (R495), FWD cleared by R470 for each plane, SAFE packets in the present millisecond of each
plane and unscheduled CTRL packets in the present 10 µs (R475), the last cycle taken by each subscription (plus one),
the lane and send time of a DELAY_REQ, the lane that the delays belong to, the root of each plane, whether this device
announces itself as root, whether it set SEATED, no level for depth, the map, leaving, planes still to switch, the next
descriptor of the rings RXQ_A, TXQ_A, RSPQ_A, RXQ_B, TXQ_B, RSPQ_B, packets that wait for a descriptor with their ring and input lane,
outstanding requests, and the replay windows of the sessions. -/
structure FabSt where
  inbox : List (Nat × Option Nat × Packet) := []
  stopped : Bool := false
  fwdOff : List Bool := [false, false]
  safeAdm : List (Nat × Nat) := [(0, 0), (0, 0)]
  ctrlAdm : Nat × Nat := (0, 0)
  subCyc : SMap Nat := []
  dly : Option (Nat × Int) := none
  dlyLane : Option Nat := none
  roots : List (Option Root) := [none, none]
  claim : List Bool := [false, false]
  seated : List Bool := [false, false]
  deep : List Bool := [false, false]
  members : List Member := []
  leaving : Bool := false
  left : Bool := false
  switchDue : List Nat := []
  ringIdx : List Nat := [0, 0, 0, 0, 0, 0]
  ringWait : List (Nat × Option Nat × Packet) := []
  reqs : List Req := []
  win : SMap Nat := []
  deriving DecidableEq, Repr

/-! ### Safety (*Safety Subsystem*) -/

/-- A safety input pair beside its registers (R513, R514): which contact started the wait (true B), DELAYED times that run, and which contacts
(A, B) were permissive when the pair was last evaluated. -/
structure PairSt where
  first : Bool := false
  delays : Nat := 0
  seen : Bool × Bool := (false, false)
  deriving DecidableEq, Repr

/-- A safe-message RX connection beside its registers (R518 to R520): the last accepted sequence number, the accepted copy,
the planes it came in on (bit 0 A, bit 1 B), and the run of sequence numbers received identically on both, with its last. -/
structure RxConn where
  last : Nat := 0
  copy : Option (List Nat) := none
  seen : Nat := 0
  same : Nat := 0
  sameSeq : Nat := 0
  deriving DecidableEq, Repr

/-- The Sheepdog beside its registers and `SafeSt`: the input pairs, the sequence numbers of the TX connections, the RX
connections, the seal loop (open) and a capture of its CRC that is due (R529), the herd time of the unused challenge
(R527), the credential under verification (R527), the herd time at which the active credential and the grace time end
(R523, R528), and whether the starting block has started the twins (R524). -/
structure ShdSt where
  pairs : List PairSt := List.replicate 8 {}
  txSeq : List Nat := List.replicate 8 0
  rx : List RxConn := List.replicate 8 {}
  sealOpen : Bool := false
  sealDue : Bool := false
  chalAt : Option Nat := none
  credRec : List Byte := []
  credEnd : Nat := 0
  graceEnd : Nat := 0
  twinsUp : Bool := false
  deriving DecidableEq, Repr

/-! ### Twins, comparators and replay (*Redundant Execution and Replay*) -/

/-- An entry of a release buffer (R545): where the store goes, its address (register offset from 0x4000_0000, or byte offset
of the memory), its data, byte mask and stamp, and whether both comparators have returned MATCH for it. -/
structure RbEnt where
  space : MemSpace
  a : Nat
  data : Nat
  mask : Nat
  stamp : Nat
  ok : Bool := false
  deriving DecidableEq, Repr

/-- An entry of an input forwarding queue (R544): the stamp of the instruction that took the input; whether that was a delivery, else a
load; the source number delivered or the address loaded from; the value. -/
structure IfqEnt where
  stamp : Nat
  event : Bool
  a : Nat
  v : Nat
  deriving DecidableEq, Repr

/-- A twin beside its registers (R542 to R566): the release buffer, oldest first; the input forwarding queue, oldest first;
checkpoints since the last deep one; the private copy (SRAM by offset, DRAM by 2²⁹ plus offset) with the old content of the
bytes written since the restart point; the stamp of the architectural state that the save area holds; the herd time of the
last latent divergence and their number within 24 h; whether a warm restart still awaits its first matched deep checkpoint; the armed
injection (DCU.CMD code, 0 none); the herd time of its last anchor; an anchor copy in progress (stamp and copy); and the
ring offset from which a replay looks for its next RELEASE record. -/
structure TwinSt where
  rb : List RbEnt := []
  ifq : List IfqEnt := []
  cks : Nat := 0
  priv : SMap Byte := []
  undo : List (Nat × Byte) := []
  saved : Option Nat := none
  lastLat : Option Nat := none
  hist : Nat := 0
  warm : Bool := false
  inj : Nat := 0
  anchorAt : Option Nat := none
  copying : Option (Nat × SMap Byte) := none
  rel : Nat := 0
  deriving DecidableEq, Repr

/-- A HW_ANCHOR (R565): the ring position at which its record starts, counted in bytes from the first ever written, and the
state of the deterministic domain. -/
structure HwAnchor where
  pos : Nat
  regs : SMap Word
  str : StrSt
  bpt : List BptCh
  hrd : HrdSt
  isl : IslSt
  imp : ImpSt
  pwm : PwmSt
  ctxs : List Ctx
  deriving DecidableEq, Repr

/-- A twin anchor in its slot (R566): the ring offset of its TWIN_ANCHOR record in bytes, the stamp of its restart point and the
private copy. -/
structure TwAnchor where
  ofs : Nat
  stamp : Nat
  priv : SMap Byte
  deriving DecidableEq, Repr

/-- Redundancy beside its registers: the twins A and B, the next bit that a self-test pair flips at each twin, the HW_ANCHORs
recorded, taken ones whose record is still in the FIFO, the four anchor slots (A 0, A 1, B 0, B 1), the bytes ever written to the ring, the
herd time in ns of its newest record, the records of the last second (herd time, bytes), the ring offset in bytes of
the next record to replay, whether a replay break is due, and the herd time in ns of the last record replayed. -/
structure RedSt where
  twins : List TwinSt := [{}, {}]
  testBit : List Nat := [0, 0]
  anchors : List HwAnchor := []
  taken : List HwAnchor := []
  slots : List (Option TwAnchor) := [none, none, none, none]
  tot : Nat := 0
  lastHt : Nat := 0
  rate : List (Nat × Nat) := []
  pos : Nat := 0
  brk : Bool := false
  rht : Nat := 0
  deriving DecidableEq, Repr

/-! ### Power and survival (*Supplies, Survival Domain and Harvesting*) -/

/-- A beacon on the survival port (R606 to R609): its kind (1 PERIODIC, 2 WAKE, 3 TEST), the wake source it names, the repeats
left, its frame, whether its receive window is open, and whether an ACK has come. -/
structure Beacon where
  kind : Nat
  src : Nat
  left : Nat
  frame : List Byte
  listen : Bool := false
  acked : Bool := false
  deriving DecidableEq, Repr

/-- Power and survival beside their registers: the regulator's reference in 0.1 mV at the herd time `refT` in ns (R586), whether
the five rail monitors report good (R655), the load of the last period in 0.1 A (R588), whether the survival domain is powered, the
strap SV_KIND (true CAP), whether the calendar was lost with the survival domain and the calendar seconds at power-good (R401),
the survival-domain temperature, the protections of the lithium cell in force (bit 0 OV, 1 UV, 2 OC, 3 TEMP), VSTORE at rest
as last compared in mV (R595), the beacon on the port, the wake beacon due at the next second (source, repeats left), and
whether current-only accounting runs (R404). -/
structure PowSt where
  ref : Nat := 0
  refT : Nat := 0
  rails : Bool := true
  load : Nat := 0
  survUp : Bool := true
  cap : Bool := false
  calLost : Bool := true
  pgCal : Nat := 0
  temp : BitVec 8 := 0
  prot : Nat := 0
  rest : Nat := 0
  bcn : Option Beacon := none
  wake : Option (Nat × Nat) := none
  co : Bool := false
  deriving DecidableEq, Repr

/-! ### Boot, security and host access (*Boot, Live Update and Field Service*) -/

/-- A live load (R640, R641): the twin, its image (0 A, 1 B, 2 HOST), and whether it is the return to the image that ran before
(R642). -/
structure Live where
  twin : Bool
  img : Nat
  back : Bool
  deriving DecidableEq, Repr

/-- A flash command in progress (R645): opcode, device (true B), address sent, write, address, length and SRAM offset. -/
structure FlashCmd where
  opcode : Nat
  b : Bool
  addrOn : Bool
  write : Bool
  addr : Nat
  len : Nat
  ofs : Nat
  deriving DecidableEq, Repr

/-- Boot and service beside their registers: whether a power-on reset began this boot, the next step of R623, whether RESET_N is
held, the strapped mode and HOST_SEL, the images still to be tried, the image being tried or run, whether the starting block waits
for HOST_GO, the security version of each twin's code, a live load staging, one verified and waiting for its halt, the returns of
twins to the images they ran before that wait for another load to end (R642), the image each twin ran before a live
restart whose ALIVE is awaited, the flash command, the SEC command (op, argument, pointer), the OTP word being programmed
(index, data, old content), whether the identity key exists, the posted queue of host writes (register offset, word), and the memory copy (write,
words, DRAM, offset). -/
structure BootSt where
  cold : Bool := true
  step : Nat := 3
  held : Bool := false
  mode : Nat := 0
  hostSel : Bool := false
  order : List Nat := []
  img : Nat := 0
  wait : Bool := false
  secver : List Nat := [0, 0]
  live : Option Live := none
  ready : Option Live := none
  backs : List (Bool × Nat) := []
  before : List (Option Nat) := [none, none]
  flash : Option FlashCmd := none
  sec : Option (Nat × Nat × Nat) := none
  otp : Option (Nat × Nat × Nat) := none
  idMade : Bool := false
  posted : List (Nat × Word) := []
  copy : Option (Bool × Nat × Bool × Nat) := none
  deriving DecidableEq, Repr

/-! ### The whole state -/

/-- Everything but the queue and the memories: the device state, the register file (canonical sparse map over
`regReset`), the PG_CRC values last computed (by page base; an unlisted page reads the CRC of its reset configuration)
with the pages whose PG_CRC is stale, the counter of free values (log entry 2, DESIGN CHOICE), and the state of each block. -/
structure Chip where
  mode : Mode
  regs : SMap Word
  crc : SMap Word
  crcBusy : List Nat
  freeCtr : Nat
  safe : SafeSt
  bus : BusSt
  time : TimeSt
  lap : LapSt
  meas : MeasSt
  str : StrSt
  bpt : List BptCh
  hrd : HrdSt
  isl : IslSt
  imp : ImpSt
  pwm : PwmSt
  mtr : MtrSt
  lanes : List LaneSt
  ethBusy : List Bool
  out : List OutPkt
  fab : FabSt
  shd : ShdSt
  red : RedSt
  pow : PowSt
  boot : BootSt
  deriving DecidableEq, Repr

/-- The chip right after power-on reset (R10): every register at its reset value, mode BOOT. -/
def Chip.reset : Chip where
  mode := .boot
  regs := []
  crc := []
  crcBusy := []
  freeCtr := 0
  safe := {}
  bus := .init
  time := {}
  lap := {}
  meas := {}
  str := {}
  bpt := List.replicate 4 {}
  hrd := {}
  isl := {}
  imp := {}
  pwm := {}
  mtr := {}
  lanes := List.replicate 8 {}
  ethBusy := [false, false]
  out := []
  fab := {}
  shd := {}
  red := {}
  pow := {}
  boot := {}

/-- The memories (each a canonical sparse map of bytes by offset): SRAM, DRAM, FRAM, the two flash devices and the
OTP array. -/
structure Mem where
  sram : SMap Byte
  dram : SMap Byte
  fram : SMap Byte
  flashA : SMap Byte
  flashB : SMap Byte
  otp : SMap Byte
  deriving DecidableEq, Repr

/-- Memories in which nothing has been written. -/
def Mem.reset : Mem := ⟨[], [], [], [], [], []⟩

/-- The state of the model: the commands waiting (first in, first out), the chip and the memories. -/
structure State where
  pending : List Instr
  chip : Chip
  mem : Mem
  deriving DecidableEq, Repr

/-- The state right after power-on reset: no command waiting, every register at its reset value, nothing listed in a
memory (log entries 3 and 4, DESIGN CHOICE). -/
def State.reset : State := ⟨[], Chip.reset, Mem.reset⟩

end Sys2Proof.Machine
end

