-- ==== Sys2Proof/Machine/Ops.lean ====
section
/-!
DEFINITION. The named operations over registers, fields, memories, counters and free values that every meaning is
written with.
-/
namespace Sys2Proof.Machine
open Sys2Proof

/-! ### Words and fields -/

/-- Field `x` of word `w` as a natural number. -/
def fget (w : Word) (x : Fld) : Nat := w.toNat / 2 ^ x.lo % 2 ^ (x.hi + 1 - x.lo)

/-- Word `w` with field `x` set to `n` (only the field's own bits of `n`). -/
def fset (w : Word) (x : Fld) (n : Nat) : Word :=
  BitVec.ofNat 32 (w.toNat - fget w x * 2 ^ x.lo + n % 2 ^ (x.hi + 1 - x.lo) * 2 ^ x.lo)

/-- The two's-complement reading of the `n`-bit number `v`. -/
def sgn (n v : Nat) : Int := if v % 2 ^ n < 2 ^ (n - 1) then (v % 2 ^ n : Nat) else (v % 2 ^ n : Nat) - (2 ^ n : Nat)

/-- The `n`-bit two's-complement code of `z`. -/
def unsgn (n : Nat) (z : Int) : Nat := (z % (2 ^ n : Nat)).toNat

/-- `z` held within `lo` and `hi`. -/
def clampI (lo hi z : Int) : Int := if z < lo then lo else if hi < z then hi else z

/-- Round a quotient to nearest, half away from zero (`d` positive). -/
def roundDiv (n : Int) (d : Nat) : Int :=
  if 0 ≤ n then (n + (d / 2 : Nat)) / (d : Int) else -((-n + (d / 2 : Nat)) / (d : Int))

/-- Bit `i` of a natural number. -/
def nbit (n i : Nat) : Bool := decide (n / 2 ^ i % 2 = 1)

/-- 1 for true, 0 for false. -/
def b2n (b : Bool) : Nat := if b then 1 else 0

/-- A register word from a natural number (its low 32 bits). -/
def wd (n : Nat) : Word := BitVec.ofNat 32 n

/-! ### Registers -/

/-- The content of the register at key `k`. -/
def Chip.rd (c : Chip) (k : Nat) : Word := SMap.get regReset c.regs k

/-- Whether key `k` holds a word of the session window (R494). -/
def isSesKey (k : Nat) : Bool := decide (Key.ses 0 0 ≤ k) && decide (k < Key.pq 0 0 0)

/-- The bits of the register at `k` that PG_CRC covers: its RW and RWT fields, banked registers left out (R59). Of the windows, the one of
SES is not left out by its chapter. -/
def covered (k : Nat) : Word :=
  if k % 0x1000 < 0x100 then 0
  else match regEntry (if isSesKey k then P.SES + k % 0x1000 else k) with
    | some e => if e.virt && !isSesKey k then 0 else BitVec.ofNat 32 (e.rw ||| e.rwt)
    | none => 0

/-- The page whose PG_CRC covers the register at `k`. -/
def crcPage (k : Nat) : Nat := if isSesKey k then P.SES else pageBase k

/-- The pages whose PG_CRC is stale once the register at `k` changes by the bits `d` (R60). -/
def Chip.busyAfter (c : Chip) (k : Nat) (d : Word) : List Nat :=
  if d &&& covered k = 0 || c.crcBusy.contains (crcPage k) then c.crcBusy else c.crcBusy ++ [crcPage k]

/-- The register at key `k` takes `v`; a change to a covered field makes the page's PG_CRC stale (R60). -/
def Chip.wr (c : Chip) (k : Nat) (v : Word) : Chip :=
  { c with regs := SMap.put regReset c.regs k v, crcBusy := c.busyAfter k (c.rd k ^^^ v) }

/-- Field `x` of the register at `k`. -/
def Chip.f (c : Chip) (k : Nat) (x : Fld) : Nat := fget (c.rd k) x

/-- Field `x` of the register at `k` read as two's complement. -/
def Chip.fs (c : Chip) (k : Nat) (x : Fld) : Int := sgn x.width (c.f k x)

/-- Field `x` of the register at `k` takes `n`. -/
def Chip.setF (c : Chip) (k : Nat) (x : Fld) (n : Nat) : Chip := c.wr k (fset (c.rd k) x n)

/-- Whether the one-bit field `x` of the register at `k` is 1. -/
def Chip.is (c : Chip) (k : Nat) (x : Fld) : Bool := decide (c.f k x ≠ 0)

/-- The one-bit field `x` of the register at `k` takes `b`. -/
def Chip.flag (c : Chip) (k : Nat) (x : Fld) (b : Bool) : Chip := c.setF k x (b2n b)

/-- Bit `i` of the register at `k`. -/
def Chip.bit (c : Chip) (k i : Nat) : Bool := nbit (c.rd k).toNat i

/-- Bit `i` of the register at `k` takes `b`. -/
def Chip.setBit (c : Chip) (k i : Nat) (b : Bool) : Chip := c.setF k ⟨i, i⟩ (b2n b)

/-- The bits of `m` are set in the register at `k`. -/
def Chip.orBits (c : Chip) (k m : Nat) : Chip := c.wr k (c.rd k ||| wd m)

/-- The register at `k` takes the low 32 bits of `n`. -/
def Chip.wrN (c : Chip) (k n : Nat) : Chip := c.wr k (wd n)

/-- The content of the register at `k` as a natural number. -/
def Chip.rdN (c : Chip) (k : Nat) : Nat := (c.rd k).toNat

/-- The content of the register at `k` as a two's-complement integer. -/
def Chip.rdI (c : Chip) (k : Nat) : Int := (c.rd k).toInt

/-- The 64-bit value of the registers at `k` (low word) and `k + 4` (R5). -/
def Chip.rd64 (c : Chip) (k : Nat) : Nat := c.rdN k + 2 ^ 32 * c.rdN (k + 4)

/-- The registers at `k` (low word) and `k + 4` take the 64-bit value `n`. -/
def Chip.wr64 (c : Chip) (k n : Nat) : Chip := (c.wrN k n).wrN (k + 4) (n / 2 ^ 32)

/-- The field counts up by `n` and stops at its greatest value. -/
def Chip.incSat (c : Chip) (k : Nat) (x : Fld) (n : Nat := 1) : Chip :=
  c.setF k x (min (c.f k x + n) (2 ^ x.width - 1))

/-- The field counts up by one and wraps. -/
def Chip.incWrap (c : Chip) (k : Nat) (x : Fld) : Chip := c.setF k x (c.f k x + 1)

/-- The whole register counts up by `n` and stops at 0xFFFF_FFFF. -/
def Chip.countSat (c : Chip) (k : Nat) (n : Nat := 1) : Chip := c.wrN k (min (c.rdN k + n) 0xFFFFFFFF)

/-- The whole register counts up by `n` and wraps at 2³². -/
def Chip.countWrap (c : Chip) (k : Nat) (n : Nat := 1) : Chip := c.wrN k (c.rdN k + n)

/-- The register at `k` returns to its reset value. -/
def Chip.toReset (c : Chip) (k : Nat) : Chip := { c with regs := c.regs.erase k }

/-- Every register whose key `p` holds of returns to its reset value. -/
def Chip.resetKeys (c : Chip) (p : Nat → Bool) : Chip := { c with regs := c.regs.keep fun k => !p k }

/-! ### Free values (log entry 2, DESIGN CHOICE) -/

/-- The next open word. -/
def Chip.freeW (c : Chip) : Word × Chip := (Config.freeWord c.freeCtr, { c with freeCtr := c.freeCtr + 1 })

/-- The next open number below `n` (0 where `n` is 0). -/
def Chip.freeN (c : Chip) (n : Nat) : Nat × Chip := (Config.freeNat c.freeCtr % n, { c with freeCtr := c.freeCtr + 1 })

/-- The next open choice. -/
def Chip.freeB (c : Chip) : Bool × Chip := (Config.freeBool c.freeCtr, { c with freeCtr := c.freeCtr + 1 })

/-- Field `x` of the register at `k` takes an open value. -/
def Chip.setFree (c : Chip) (k : Nat) (x : Fld) : Chip := c.freeW.2.setF k x c.freeW.1.toNat

/-! ### Repeating and choosing -/

/-- `g` for 0, 1, …, n − 1 in turn. -/
def forN {α : Type} (n : Nat) (g : Nat → α → α) (a : α) : α := (List.range n).foldl (fun a i => g i a) a

/-- `g a` where `b` holds, else `a`. -/
def onlyIf {α : Type} (b : Bool) (g : α → α) (a : α) : α := if b then g a else a

/-! ### Memories -/

/-- The value of an unlisted byte of SRAM, DRAM and FRAM (log entry 3, DESIGN CHOICE). -/
def unwritten (_ : Nat) : Byte := Config.unwrittenByte

/-- The value of an unlisted byte of the flash devices (log entry 3, DESIGN CHOICE). -/
def erased (_ : Nat) : Byte := Config.erasedFlashByte

/-- The value of an unprogrammed OTP byte: a fuse not blown reads 0. -/
def unblown (_ : Nat) : Byte := 0

/-- The little-endian number of the bytes from `a` on. -/
def leBytes (m : Nat → Byte) (a : Nat) : Nat → Nat
  | 0 => 0
  | n + 1 => (m a).toNat + 256 * leBytes m (a + 1) n

/-- Writing the `n` low bytes of `v` from `a` on, least significant byte first. -/
def putBytes (d : Nat → Byte) (m : SMap Byte) (a v : Nat) : Nat → SMap Byte
  | 0 => m
  | n + 1 => putBytes d (m.put d a (BitVec.ofNat 8 v)) (a + 1) (v / 256) n

/-- Writing a list of bytes from `a` on. -/
def putList (d : Nat → Byte) (m : SMap Byte) (a : Nat) : List Byte → SMap Byte
  | [] => m
  | b :: t => putList d (m.put d a b) (a + 1) t

/-- The `n` bytes from `a` on. -/
def getList (d : Nat → Byte) (m : SMap Byte) (a n : Nat) : List Byte := (List.range n).map fun i => m.get d (a + i)

/-- The bytes of SRAM, whose offsets have 23 bits (20-bit offsets in units of 8 bytes: R490, R675; log entry 34, DEDUCED). -/
def sramSize : Nat := 2 ^ 23

/-- `n` bytes of SRAM from offset `a`. -/
def Mem.sramGet (m : Mem) (a n : Nat) : List Byte :=
  (List.range n).map fun i => SMap.get unwritten m.sram ((a + i) % sramSize)

/-- Bytes written to SRAM from offset `a`. -/
def Mem.sramPut (m : Mem) (a : Nat) : List Byte → Mem
  | [] => m
  | b :: t => Mem.sramPut { m with sram := m.sram.put unwritten (a % sramSize) b } (a + 1) t

/-- The number whose bytes these are, least significant first. -/
def leNat (l : List Byte) : Nat := l.foldr (fun b n => b.toNat + 256 * n) 0

/-- The 32-bit word of SRAM at offset `a`. -/
def Mem.sramW (m : Mem) (a : Nat) : Word := wd (leNat (m.sramGet a 4))

/-- The low `n` bytes of `v`, least significant first. -/
def bytesLE (n v : Nat) : List Byte := (List.range n).map fun i => BitVec.ofNat 8 (v / 256 ^ i)

/-- A 32-bit word is written to SRAM at offset `a`. -/
def Mem.sramPutW (m : Mem) (a : Nat) (w : Word) : Mem := m.sramPut a (bytesLE 4 w.toNat)

/-- The bytes of DRAM, whose offsets have 29 bits (R675; log entry 34, DEDUCED). -/
def dramSize : Nat := 2 ^ 29

/-- `n` bytes of DRAM from offset `a`. -/
def Mem.dramGet (m : Mem) (a n : Nat) : List Byte :=
  (List.range n).map fun i => SMap.get unwritten m.dram ((a + i) % dramSize)

/-- Bytes written to DRAM from offset `a`. -/
def Mem.dramPut (m : Mem) (a : Nat) : List Byte → Mem
  | [] => m
  | b :: t => Mem.dramPut { m with dram := m.dram.put unwritten (a % dramSize) b } (a + 1) t

/-! ### The two halves of the state -/

/-- A change of the chip alone: the queue and the memories stay. -/
def State.onChip (s : State) (g : Chip → Chip) : State := { s with chip := g s.chip }

/-- A change of the memories alone. -/
def State.onMem (s : State) (g : Mem → Mem) : State := { s with mem := g s.mem }

/-- Whether the main domain is powered (R20): every state but OFF and SURVIVAL. -/
def Chip.powered (c : Chip) : Bool := match c.mode with | .off | .survival => false | _ => true

/-- Whether the working clocks of the main domain run: powered, and the root has locked since the power-on reset (R103). -/
def Chip.clockOn (c : Chip) : Bool := c.powered && !c.time.gated

/-- The state code of SYS.STATE (*Architecture and Operating States*, section Device states). -/
def Mode.code : Mode → Nat
  | .off => 0 | .survival => 1 | .boot => 2 | .ready => 3 | .run => 4 | .degraded => 5 | .safe => 6 | .replay => 7

/-- Whether the device is in RUN or DEGRADED. -/
def Chip.running (c : Chip) : Bool := match c.mode with | .run | .degraded => true | _ => false

/-- The 16-bit key of the keyed command registers. -/
def theKey : BitVec 16 := 0xA5C3#16

/-- Herd time in whole nanoseconds (R119). -/
def Chip.htNs (c : Chip) : Nat := c.time.ht / 2 ^ 48 % 2 ^ 64

end Sys2Proof.Machine
end

