-- ==== Sys2Proof/Machine/Pkt.lean ====
section
/-!
DEFINITION. Reading and building packets (R454, R485): the header words, the payload words, the additional data of a
protected packet.
-/
namespace Sys2Proof
open Sys2Proof.Machine

/-- The header words of a packet (R454). -/
def Packet.header (p : Packet) : List Nat :=
  [p.vc.toNat * 2 ^ 29 + b2n p.dn * 2 ^ 28 + p.cast.toNat * 2 ^ 26 + b2n p.enc * 2 ^ 25 + p.hops.toNat * 2 ^ 17 + p.dest.toNat,
   p.kind.toNat * 2 ^ 24 + p.ses.toNat * 2 ^ 16 + p.src.toNat,
   p.words.length / 8 * 2 ^ 28 + p.hopLimit.toNat * 2 ^ 22 + p.pad.toNat * 2 ^ 16 + p.tag.toNat, p.age.toNat]

/-- Word `i` of a packet's payload. -/
def Packet.w (p : Packet) (i : Nat) : Nat := (nth p.words i 0#32).toNat

/-- The 64-bit value of words `i` and `i + 1`. -/
def Packet.w64 (p : Packet) (i : Nat) : Nat := p.w i + 2 ^ 32 * p.w (i + 1)

/-- The words of the header that the additional data holds: HOPS, DN and AGE as zero. -/
def Packet.aad (p : Packet) : List Word := ({ p with hops := 0#6, dn := false, age := 0#32 } : Packet).header.map wd

/-- The payload words of a packet without its padding. -/
def Packet.body (p : Packet) : List Word := p.words.take (p.words.length - p.pad.toNat % 32 / 4)

/-- The payload of a packet becomes `ws`, padded to whole units. -/
def Packet.withBody (p : Packet) (ws : List Word) : Packet :=
  { p with words := ws ++ List.replicate ((8 - ws.length % 8) % 8) 0#32,
           pad := BitVec.ofNat 6 ((32 - 4 * ws.length % 32) % 32) }

end Sys2Proof
end

