-- ==== Sys2Proof/Machine/Flags.lean ====
section
/-!
DEFINITION. The flags every page has: errors recorded in PG_ERR (R46 to R58), page events, their sources (R676) and what
an occurrence sets off wherever it is raised (R61 to R64, R131, R240, R341, R567, R678), and the records the Lap log
takes (R561 to R564).
-/
namespace Sys2Proof.Machine
open Sys2Proof

/-! ### Header offsets (R55) -/

namespace H
def ID : Nat := 0x0
def CAP : Nat := 0x4
def CTL : Nat := 0x8
def STAT : Nat := 0xC
def EVT : Nat := 0x10
def EVT_EN : Nat := 0x14
def EVT_SET : Nat := 0x18
def EVT_ROUTE : Nat := 0x1C
def TXN : Nat := 0x20
def LOCK : Nat := 0x24
def CRC : Nat := 0x28
def ERR : Nat := 0x2C
end H

/-! ### Packets to send -/

/-- The words padded with zeros to whole units of 8 (R454). -/
def padded (ws : List Nat) : List (BitVec 32) :=
  (ws ++ List.replicate ((8 - ws.length % 8) % 8) 0).map (BitVec.ofNat 32)

/-- A packet of `kind` from this device (R454), in the clear (`ses` none) or under a session. -/
def Chip.packet (c : Chip) (kind vc cast dest : Nat) (ses : Option Nat) (tag : Nat) (ws : List Nat) : Packet :=
  { vc := BitVec.ofNat 3 vc, dn := false, cast := BitVec.ofNat 2 cast, enc := ses.isSome, hops := 0#6,
    dest := BitVec.ofNat 15 dest, kind := BitVec.ofNat 8 kind, ses := BitVec.ofNat 8 (ses.getD 0),
    src := BitVec.ofNat 15 (c.f R.FAB_ID F.FAB_ID_ID), hopLimit := BitVec.ofNat 6 (c.f R.FAB_CTL F.FAB_CTL_HOP_LIMIT),
    pad := BitVec.ofNat 6 ((32 - 4 * ws.length % 32) % 32), tag := BitVec.ofNat 16 tag,
    age := BitVec.ofNat 32 c.htNs, words := padded ws }

/-- Packet `p` waits for injection on `planes`, or on a lane where it is link-local (R483, R471). -/
def Chip.emit (c : Chip) (p : Packet) (planes : Nat) (lane : Option Nat) : Chip :=
  { c with out := c.out ++ [⟨p, planes, lane, false⟩] }

/-- A packet of `kind` on virtual channel `vc` waits to be sent on a plane that has a route (R454, R455). -/
def Chip.send (c : Chip) (kind vc cast dest : Nat) (ses : Option Nat) (tag : Nat) (ws : List Nat) : Chip :=
  c.emit (c.packet kind vc cast dest ses tag ws) 0 none

/-- The session of a kind that may go in session 0 or in the clear: session 0 where FAB.CTL.HERD_AUTH asks for it. -/
def Chip.ses0 (c : Chip) : Option Nat := if c.is R.FAB_CTL F.FAB_CTL_HERD_AUTH then some 0 else none

/-- A 64-bit number as two words, low word first. -/
def words64 (n : Nat) : List Nat := [n % 2 ^ 32, n / 2 ^ 32 % 2 ^ 32]

/-! ### PG_ERR -/

/-- The error bits of PG_ERR (R55). -/
inductive PErr where
  | roWrite | unmapped | key | locked | txnOwned | txnArmed | state | width | security
  deriving DecidableEq, Repr

/-- The bit of PG_ERR that an error sets. -/
def PErr.bit : PErr → Nat
  | .roWrite => 0 | .unmapped => 1 | .key => 2 | .locked => 3 | .txnOwned => 4 | .txnArmed => 5 | .state => 6
  | .width => 7 | .security => 8

/-- Error `e` at register offset `k` by initiator code `i` is recorded in PG_ERR of the page of `k`. -/
def Chip.perr (c : Chip) (k : Nat) (e : PErr) (i : Nat) : Chip :=
  let p := pageBase k + H.ERR
  ((c.setBit p e.bit true).setF p ⟨31, 28⟩ i).setF p ⟨27, 16⟩ (k % 0x1000)

/-! ### Lap log records -/

/-- Whether the Lap log records: RECORDING or POST (R568), in a state in which it runs (R20). -/
def Chip.lapOn (c : Chip) : Bool :=
  (match c.mode with | .off | .survival | .boot => false | _ => true) && c.is R.LAP_CTL F.LAP_CTL_EN && (decide (c.f R.LAP_STAT F.LAP_STAT_STATE = 1) || decide (c.f R.LAP_STAT F.LAP_STAT_STATE = 2))

/-- The bytes held in the FIFO. -/
def LapSt.fill (l : LapSt) : Nat := (l.fifo.map LapRec.bytes).sum

/-- The record a gap takes: bytes lost, cycles spanned (R563); CK_SYS runs at 800 MHz. -/
def Chip.gapRec (c : Chip) : LapRec :=
  ⟨false, 0x02, 0, c.htNs, [c.lap.lost, (c.htNs - c.lap.lostAt) * 4 / 5]⟩

/-- The Lap log takes a record into its FIFO of 64 KiB, after a GAP where records were lost, or loses it where the FIFO is full
(R564). -/
def Chip.lapRec (c : Chip) (r : LapRec) : Chip :=
  if c.lapOn then
    let pre := if c.lap.lost = 0 then [] else [c.gapRec]
    if c.lap.fill < 65536 then
      { c with lap := { c.lap with fifo := c.lap.fifo ++ pre ++ [r], lost := 0 } }
    else
      { c with lap := { c.lap with lost := c.lap.lost + r.bytes,
                                   lostAt := if c.lap.lost = 0 then c.htNs else c.lap.lostAt } }
  else c

/-- A long record of the present herd time. -/
def Chip.lapLong (c : Chip) (kind sub : Nat) (data : List Nat) : Chip := c.lapRec ⟨false, kind, sub, c.htNs, data⟩

/-- Pairs of words as 64-bit units. -/
def unitsOf : List Nat → List Nat
  | a :: b :: r => (a + 2 ^ 32 * b) :: unitsOf r
  | [a] => [a]
  | [] => []

/-- A fabric delivery to consumer `sub` (R18, R563): 0 twin A, 1 twin B, 2 slots, 3 GDI queue, 4 TXN, 5 IMP, 6 register
engine. -/
def Chip.lapFab (c : Chip) (sub : Nat) (p : Packet) : Chip :=
  c.lapLong 0x05 sub (unitsOf (p.header ++ p.words.map (·.toNat)))

/-- A short record: a sample-bus frame (R562). -/
def Chip.lapFrame (c : Chip) (src : Nat) (w : Word) : Chip := c.lapRec ⟨true, src, 0, c.htNs, [w.toNat]⟩

/-! ### Level inputs and herd time in the Lap log -/

/-- The bitmap of a LEVEL record, in the order in which R563 names the inputs (log entry 42, DEDUCED): XMD protection outputs (HI, then
LO, of the 24 channels), the 16 comparators, TRIP_IN_00 to 03 as the trip sources that follow them show, then GFLT, GRDY,
PUL, PEN, SUP_OK and SHD_OFF of the 16 instances. -/
def Chip.levels (c : Chip) : Nat :=
  let bits : List Bool :=
    ((List.range 24).map fun k => (nth c.meas.xmd k {}).hi) ++ ((List.range 24).map fun k => (nth c.meas.xmd k {}).lo) ++
    ((List.range 16).map fun k => (nth c.meas.acmp k {}).toTrip) ++
    ((List.range 4).map fun k => (List.range 16).any fun j =>
      c.is (R.TRIP_SRC_STAT j) F.TRIP_SRC_STAT_ASSERTED && decide (c.f (R.TRIP_SRC_CFG j) F.TRIP_SRC_CFG_SEL = 0x58 + k)) ++
    [F.GDI_STAT_GFLT, F.GDI_STAT_GRDY, F.GDI_STAT_PUL, F.GDI_STAT_PEN, F.GDI_STAT_SUP_OK, F.GDI_STAT_SHD_OFF].flatMap
      fun x => (List.range 16).map fun n => c.is (R.GDI_STAT n) x
  bits.foldr (fun b n => b2n b + 2 * n) 0

/-- A LEVEL record where a level input differs from the last recorded (R563). -/
def Chip.lapLevels (c : Chip) : Chip :=
  if c.lapOn && decide (c.levels ≠ c.lap.lvl) then
    ({ c with lap := { c.lap with lvl := c.levels } }).lapLong 0x0A 0 ((List.range 4).map fun i => c.levels / 2 ^ (64 * i) % 2 ^ 64)
  else c

/-- An HTM record after firmware, the fabric or a discipline changed herd time, its rate or the adjustment (R563). -/
def Chip.lapHtm (c : Chip) : Chip :=
  c.lapLong 0x0B 0 [c.time.ht % 2 ^ 64, c.time.ht / 2 ^ 64 % 2 ^ 64, c.rdN R.HTM_RATE, unsgn 64 (c.time.adjRem.tdiv (2 ^ 40))]

/-! ### Event sources -/

/-- Event `bit` of the page at `b` as a source number (R676): rows of page base, first bit, number of bits, first
source. -/
def sourceRows : List (Nat × Nat × Nat × Nat) :=
  [(P.SYS, 0, 1, 0), (P.EVR, 0, 1, 1), (P.MEM, 0, 1, 2), (P.TXN, 0, 7, 4), (P.CLK, 0, 3, 11), (P.HTM, 0, 6, 16),
   (P.RTC, 0, 4, 22), (P.HPT, 0, 1, 26), (P.BOOT, 0, 2, 27), (P.SEC, 0, 2, 29), (P.OTP, 0, 1, 31), (P.AFE, 0, 4, 32),
   (P.SEQ, 0, 1, 36), (P.XMD 0, 0, 4, 40), (P.XMD 1, 0, 4, 44), (P.ACMP, 0, 4, 48), (P.STR, 0, 8, 64),
   (P.PCR, 0, 3, 72), (P.BPT, 0, 3, 75), (P.HRD, 0, 6, 78), (P.ISL, 0, 5, 84), (P.IMP, 0, 5, 89), (P.PWT, 0, 13, 96),
   (P.TRIP, 0, 1, 109), (P.MASK, 0, 1, 110), (P.MTR 0, 0, 6, 160), (P.MTR 1, 0, 2, 166), (P.PQM, 0, 3, 168)] ++
  ((List.range 8).map fun i => (P.LANE i, 0, 1, 176 + i)) ++
  [(P.QUAD 0, 0, 2, 184), (P.QUAD 1, 0, 2, 186), (P.ETH 0, 0, 2, 188), (P.ETH 1, 0, 2, 190), (P.FAB, 0, 6, 192),
   (P.SES, 0, 4, 198), (P.MUS, 0, 6, 202), (P.SHD, 0, 7, 208), (P.SHD, 7, 1, 222), (P.SIN, 0, 2, 215),
   (P.SOUT, 0, 2, 217), (P.SCOM, 0, 3, 219), (P.TWN 0, 0, 2, 224), (P.TWN 1, 0, 2, 226), (P.DCU, 0, 3, 228),
   (P.LAP, 0, 6, 231), (P.VAUX, 0, 3, 240), (P.VCR, 0, 5, 243), (P.SURV, 0, 3, 248), (P.HRV, 0, 1, 251),
   (P.STORE, 0, 3, 252)] ++
  ((List.range 16).map fun i => (P.GDI i, 0, 1, 112 + i)) ++ ((List.range 16).map fun i => (P.GDI i, 1, 1, 128 + i)) ++
  ((List.range 16).map fun i => (P.GDI i, 2, 1, 144 + i))

/-- The source number of event `bit` of the page at `b`, where it has one. -/
def evSource (b bit : Nat) : Option Nat :=
  match sourceRows.find? fun r => decide (r.1 = b) && decide (r.2.1 ≤ bit) && decide (bit < r.2.1 + r.2.2.1) with
  | some r => some (r.2.2.2 + (bit - r.2.1))
  | none => none

/-- The page and event bit of a source number, where it is assigned. -/
def sourceEv (s : Nat) : Option (Nat × Nat) :=
  match sourceRows.find? fun r => decide (r.2.2.2 ≤ s) && decide (s < r.2.2.2 + r.2.2.1) with
  | some r => some (r.1, r.2.1 + (s - r.2.2.2))
  | none => none

/-- An armed AT_EVENT transaction on source `s` has its edge fixed (R678, R83). -/
def Chip.txnArrival (c : Chip) (s : Nat) : Chip :=
  { c with bus := { c.bus with ctxs := c.bus.ctxs.map fun x =>
      if x.st = .armed && x.mode = .atEvent && x.event = s then { x with edgeFixed := true } else x } }

/-- The pulses pending at a twin. -/
def Chip.pend (c : Chip) (b : Bool) : List Nat := if b then c.bus.pendB else c.bus.pendA

/-- The pulses pending at a twin become `l`. -/
def Chip.setPend (c : Chip) (b : Bool) (l : List Nat) : Chip :=
  { c with bus := if b then { c.bus with pendB := l } else { c.bus with pendA := l } }

/-- An occurrence sets out for destination `d`. -/
def Chip.deliver (c : Chip) (s : Nat) (d : EvDest) : Chip :=
  { c with bus := { c.bus with deliveries := c.bus.deliveries ++ [(s, d)] } }

/-- EVR.SRC of source `s`. -/
def Chip.evr (c : Chip) (s : Nat) (x : Fld) : Nat := c.f (R.EVR_SRC s) x

/-- A step of the pending mask index, modulo LEN (R341). -/
def Chip.maskStep (c : Chip) : Chip :=
  let len := if c.f R.MASK_CFG F.MASK_CFG_LEN = 0 then 8 else c.f R.MASK_CFG F.MASK_CFG_LEN
  c.setF R.MASK_STAT F.MASK_STAT_PENDING ((c.f R.MASK_STAT F.MASK_STAT_PENDING + 1) % len)

/-- One more coalesced occurrence, of source `s` (R63). -/
def Chip.coalesced (c : Chip) (s : Nat) : Chip :=
  (c.incSat R.EVR_OVR F.EVR_OVR_COUNT).setF R.EVR_OVR F.EVR_OVR_SRC s

/-- Whether an occurrence of source `s` acts on an armed transaction, the output mask or the Pacer: an EVENT record with SUB 3
(R563). -/
def Chip.usedBy (c : Chip) (s : Nat) : Bool :=
  c.bus.ctxs.any (fun x => x.st = .armed && x.mode = .atEvent && x.event = s)
    || (c.is R.MASK_CFG F.MASK_CFG_SRC_EN && decide (c.f R.MASK_CFG F.MASK_CFG_SRC = s))
    || (List.range 16).any fun k => c.is (R.PCR_CH_ESRC k) F.PCR_CH_ESRC_EN && decide (c.f (R.PCR_CH_ESRC k) F.PCR_CH_ESRC_SRC = s)

/-- Capture unit `u` of HTM takes an occurrence of source `s` (R131); `go` raises what follows. -/
def Chip.capUnit (go : Nat → Nat → Chip → Chip) (s u : Nat) (c : Chip) : Chip :=
  let k := R.HTM_CAP_CFG u
  if c.is k F.HTM_CAP_CFG_EN && !c.is k F.HTM_CAP_CFG_PPS && decide (c.f k F.HTM_CAP_CFG_SRC = s) then
    if c.is k F.HTM_CAP_CFG_FULL then c.flag k F.HTM_CAP_CFG_LOST true
    else go P.HTM (3 + u) ((c.wr64 (R.HTM_CAP (2 * u)) c.htNs).flag k F.HTM_CAP_CFG_FULL true)
  else c

/-- The output mask takes an occurrence of source `s` (R341). -/
def Chip.maskTake (s : Nat) (c : Chip) : Chip :=
  if c.is R.MASK_CFG F.MASK_CFG_SRC_EN && decide (c.f R.MASK_CFG F.MASK_CFG_SRC = s) then c.maskStep else c

/-- Pacer channel `k` takes an occurrence of source `s` as its emergency (R240). -/
def Chip.pacerTake (go : Nat → Nat → Chip → Chip) (s k : Nat) (c : Chip) : Chip :=
  if c.is (R.PCR_CH_ESRC k) F.PCR_CH_ESRC_EN && decide (c.f (R.PCR_CH_ESRC k) F.PCR_CH_ESRC_SRC = s) && !c.bit R.PCR_ESTAT k then
    go P.PCR 1 (c.setBit R.PCR_ESTAT k true)
  else c

/-- The first enabled Lap trigger on source `s` fires where the triggers are armed (R567). -/
def Chip.lapTake (go : Nat → Nat → Chip → Chip) (s : Nat) (c : Chip) : Chip :=
  match (List.range 4).find? fun k => c.is (R.LAP_TRIG k) F.LAP_TRIG_EN && decide (c.f (R.LAP_TRIG k) F.LAP_TRIG_SRC = s) with
  | some k =>
    if c.is R.LAP_STAT F.LAP_STAT_ARMED && decide (c.f R.LAP_STAT F.LAP_STAT_STATE = 1) then
      let c := c.lapLong 0x0D k [s]
      go P.LAP 0 (((c.wr64 (R.LAP_FREEZE_T 0) c.htNs).setF R.LAP_STAT F.LAP_STAT_TRIG k).setF R.LAP_STAT F.LAP_STAT_STATE 2)
    else c
  | none => c

/-- Whether source `s` is routed to a twin. -/
def Chip.toTwinSrc (c : Chip) (s : Nat) (tw : Bool) : Bool := decide (c.evr s (if tw then F.EVR_SRC_TWB else F.EVR_SRC_TWA) = 1)

/-- A twin takes an occurrence of source `s`, a pulse or a level (R62); a pulse that is still pending there is coalesced with it. -/
def Chip.twinTake (s : Nat) (pulse tw : Bool) (c : Chip) : Chip :=
  if c.toTwinSrc s tw then
    if pulse then
      if (c.pend tw).contains s then c
      else (c.setPend tw (c.pend tw ++ [s])).deliver s (if tw then .twinB else .twinA)
    else c.deliver s (if tw then .twinB else .twinA)
  else c

/-- Both twins take an occurrence of source `s`; one coalesced at either twin, or at both, is counted once, and raises EVR_OVR unless it
is an occurrence of that source itself (R63). -/
def Chip.twinsTake (go : Nat → Nat → Chip → Chip) (s : Nat) (pulse : Bool) (c : Chip) : Chip :=
  let again := pulse && [false, true].any fun tw => c.toTwinSrc s tw && (c.pend tw).contains s
  let c : Chip := (c.twinTake s pulse false).twinTake s pulse true
  if again then if s = 1 then c.coalesced s else go P.EVR 0 (c.coalesced s) else c

/-- An occurrence of source `s` sets out for the Stride trigger, the Sheepdog and the fabric (R64). -/
def Chip.restTake (s : Nat) (c : Chip) : Chip :=
  let c : Chip := if c.evr s F.EVR_SRC_STR = 1 then c.deliver s (.stride (c.evr s F.EVR_SRC_STR_RG)) else c
  let c : Chip := if c.evr s F.EVR_SRC_SHD = 1 then c.deliver s .sheepdog else c
  if c.evr s F.EVR_SRC_FAB = 1 then c.deliver s (.fabric (c.evr s F.EVR_SRC_FAB_SES) (c.evr s F.EVR_SRC_PLANE) c.htNs) else c

/-- An occurrence of source `s` reaches TXN, the capture units, the mask, the Pacer, the Lap triggers and the destinations of EVR.SRC. -/
def Chip.occur (go : Nat → Nat → Chip → Chip) (s : Nat) (pulse : Bool) (c : Chip) : Chip :=
  let c : Chip := (if c.usedBy s then c.lapLong 0x07 3 [s] else c).txnArrival s
  let c : Chip := forN 2 (fun u c => c.capUnit go s u) c
  let c : Chip := forN 16 (fun k c => c.pacerTake go s k) (c.maskTake s)
  ((c.lapTake go s).twinsTake go s pulse).restTake s

/-- Event `bit` of the page at `b` occurs: its PG_EVT bit is set and, with its PG_EVT_EN bit 1, its source occurs. The number bounds the
chain of events that set off further events (log entry 12, DESIGN CHOICE). -/
def raiseN : Nat → Nat → Nat → Chip → Chip
  | 0, b, bit, c => c.setBit (b + H.EVT) bit true
  | n + 1, b, bit, c =>
    let c := c.setBit (b + H.EVT) bit true
    match c.bit (b + H.EVT_EN) bit, evSource b bit with
    | true, some s => c.occur (raiseN n) s (c.bit (b + H.EVT_ROUTE) bit)
    | _, _ => c

/-- The chains of events the device can set off are shorter than this (log entry 12, DESIGN CHOICE). -/
def raiseDepth : Nat := 6

/-- Event `bit` of the page at `b` occurs; with the main domain off it sets its PG_EVT bit alone (R610). -/
def Chip.raise (c : Chip) (b bit : Nat) : Chip := raiseN (if c.powered then raiseDepth else 0) b bit c

/-- The event occurs where `p` holds. -/
def Chip.raiseIf (c : Chip) (p : Bool) (b bit : Nat) : Chip := if p then c.raise b bit else c

/-- Why initiator `i` may not write the register at `k`, if so: the host while HPT.CTL.WR_EN is 0 (R637), debug access outside
READY, SAFE and REPLAY (R634; recorded as STATE, log entry 45, DEDUCED). -/
def Chip.barred (c : Chip) (k i : Nat) : Option PErr :=
  if i = 3 then
    if c.is R.HPT_CTL F.HPT_CTL_WR_EN || decide (k = R.HPT_MEM_CMD)
      || (decide (R.HPT_MBUF 0 ≤ k) && decide (k ≤ R.HPT_MBUF 15)) then none else some .security
  else if i = 5 then (match c.mode with | .ready | .safe | .replay => none | _ => some .state)
  else none

/-- A write by initiator `i` to the register at `k`, recorded where it is barred; otherwise `g`. -/
def Chip.gate (c : Chip) (k i : Nat) (g : Chip → Chip) : Chip :=
  match c.barred k i with
  | some e => c.perr k e i
  | none => g c

/-- Whether FREEZE halts the block of the page at `b` (R57). -/
def Chip.frozen (c : Chip) (b : Nat) : Bool := c.bit (b + H.CTL) 2

/-- Whether the block of the page at `b` stands still: halted by FREEZE (R57), or with its block enable PG_CTL.EN at 0 (R55; log entry 4,
DESIGN CHOICE). -/
def Chip.halted (c : Chip) (b : Nat) : Bool := c.frozen b || !c.bit (b + H.CTL) 0

/-- Whether any page is frozen (R57). -/
def Chip.anyFrozen (c : Chip) : Bool :=
  c.regs.any fun e => decide (e.1 < 0x240000) && decide (e.1 % 0x1000 = H.CTL) && nbit e.2.toNat 2

/-- A command register's write with a wrong key is ignored and recorded with KEY (R55); otherwise `g`. -/
def Chip.keyed (c : Chip) (k : Nat) (key : BitVec 16) (i : Nat) (g : Chip → Chip) : Chip :=
  if key = theKey then g c else c.perr k .key i

/-- A write not allowed in the present state is recorded with STATE. -/
def Chip.refuse (c : Chip) (k : Nat) (i : Nat) : Chip := c.perr k .state i

/-- Whether the level source of event `bit` at page `b` is asserted (R61). -/
def Chip.level (c : Chip) (b bit : Nat) : Bool :=
  c.bit (b + H.EVT) bit && c.bit (b + H.EVT_EN) bit && !c.bit (b + H.EVT_ROUTE) bit

end Sys2Proof.Machine
end

