-- ==== Sys2Proof/Machine/Gates.lean ====
section
/-!
DEFINITION. The way from a PWM channel's request to the gate outputs (R322 to R324, R340, R345, R346, R355, R356, R365,
R366): the overrides, both dead-time stages, and the blanking windows that the gate edges open (R185). It is used wherever a
request, an override, the device state or the Sheepdog's latch changes.
-/
namespace Sys2Proof.Machine
open Sys2Proof

/-! ### State of the power stage -/

/-- Timebase `n`. -/
def Chip.tb (c : Chip) (n : Nat) : PwmTb := nth c.pwm.tb n {}
/-- Channel `n`. -/
def Chip.pch (c : Chip) (n : Nat) : PwmCh := nth c.pwm.ch n {}
/-- Trip source `k`. -/
def Chip.trp (c : Chip) (k : Nat) : TripSrc := nth c.pwm.trip k {}
/-- Gate-drive instance `n`. -/
def Chip.gdi (c : Chip) (n : Nat) : GdiCh := nth c.pwm.gdi n {}
/-- A change of timebase `n`. -/
def Chip.updTb (c : Chip) (n : Nat) (g : PwmTb → PwmTb) : Chip := { c with pwm := { c.pwm with tb := upd c.pwm.tb n g } }
/-- A change of channel `n`. -/
def Chip.updCh (c : Chip) (n : Nat) (g : PwmCh → PwmCh) : Chip := { c with pwm := { c.pwm with ch := upd c.pwm.ch n g } }
/-- A change of trip source `k`. -/
def Chip.updTrp (c : Chip) (k : Nat) (g : TripSrc → TripSrc) : Chip :=
  { c with pwm := { c.pwm with trip := upd c.pwm.trip k g } }
/-- A change of gate-drive instance `n`. -/
def Chip.updGdi (c : Chip) (n : Nat) (g : GdiCh → GdiCh) : Chip := { c with pwm := { c.pwm with gdi := upd c.pwm.gdi n g } }

/-- Window comparator `n`. -/
def Chip.acmp (c : Chip) (n : Nat) : AcmpCh := nth c.meas.acmp n {}

/-- Comparator `n` is changed by `g`. -/
def Chip.updAcmp (c : Chip) (n : Nat) (g : AcmpCh → AcmpCh) : Chip :=
  { c with meas := { c.meas with acmp := upd c.meas.acmp n g } }

/-! ### Blanking windows -/

/-- An edge of kind `e` (0 GH rising, 1 GH falling, 2 GL rising, 3 GL falling) on the gates of channel `ch` opens or
restarts the blanking windows of the comparators and trip sources that name it; a window of no cycles is none (R185, R344). -/
def Chip.blankEdge (c : Chip) (ch e : Nat) : Chip :=
  let hit := fun k => decide (k = e) || decide (k = 4)
  let c : Chip := forN 16 (fun n c =>
    let w := c.rd (R.ACMP_CH_BLANK n)
    if fget w F.ACMP_CH_BLANK_EN = 1 && decide (fget w F.ACMP_CH_BLANK_CH = ch) && hit (fget w F.ACMP_CH_BLANK_EDGE)
        && decide (fget w F.ACMP_CH_BLANK_LEN ≠ 0) then
      (c.updAcmp n fun x => { x with blank := true }).flag (R.ACMP_CH_STAT n) F.ACMP_CH_STAT_IN_BLANK true
    else c) c
  forN 16 (fun k c =>
    let w := c.rd (R.TRIP_SRC_BLANK k)
    if fget w F.TRIP_SRC_BLANK_EN = 1 && decide (fget w F.TRIP_SRC_BLANK_CH = ch) && hit (fget w F.TRIP_SRC_BLANK_EDGE)
        && decide (fget w F.TRIP_SRC_BLANK_LEN ≠ 0) then
      c.flag (R.TRIP_SRC_STAT k) F.TRIP_SRC_STAT_IN_BLANK true
    else c) c

/-! ### Gate-drive instance -/

/-- SRC of instance `n`: 0 PWM, 1 FABRIC, 2 LEGACY. -/
def Chip.gdiSrc (c : Chip) (n : Nat) : Nat := c.f (R.GDI_CFG n) F.GDI_CFG_SRC

/-- The state code of instance `n` (R370). -/
def Chip.gdiState (c : Chip) (n : Nat) : Nat := c.f (R.GDI_STAT n) F.GDI_STAT_STATE

/-- Requests of the legacy pins (R363). -/
def Chip.gdiLegacy (c : Chip) (n : Nat) : Bool × Bool :=
  let s := fun x => c.is (R.GDI_STAT n) x
  let k := fun x => c.is (R.GDI_CFG n) x
  let pul := s F.GDI_STAT_PUL != k F.GDI_CFG_PUL_INV
  let pen := s F.GDI_STAT_PEN != k F.GDI_CFG_PEN_INV
  match c.f (R.GDI_CFG n) F.GDI_CFG_LEG_MODE with
  | 0 => (pen && pul, pen && !pul)
  | 1 => (pen && pul, false)
  | _ => (pul, pen)

/-- The requests of instance `n` after source selection and the state gate (R356, R357). -/
def Chip.gdiReq (c : Chip) (n : Nat) : Bool × Bool :=
  if !c.running then (false, false)
  else match c.gdiSrc n with
    | 0 => (c.is (R.PWMC_STAT n) F.PWMC_STAT_GH, c.is (R.PWMC_STAT n) F.PWMC_STAT_GL)
    | 1 => ((c.gdi n).fabH, (c.gdi n).fabL)
    | 2 => c.gdiLegacy n
    | _ => (false, false)

/-- The outputs of instance `n` follow its requests (R355, R364, R365): both requests on are noted for the retry state
machine; a rise waits for DT_MIN after the other output's fall, and one that waited is reported as it comes. -/
def Chip.gdiOut (c : Chip) (n : Nat) : Chip :=
  let (h, l) := c.gdiReq n
  let both := h && l
  let c : Chip := if both then c.updGdi n fun x => { x with shoot := true } else c
  let (h, l) := if both then (false, false) else if (c.gdi n).notch then (false, true) else (h, l)
  let x := c.gdi n
  let dt := decide (c.f (R.GDI_TIMING n) F.GDI_TIMING_DT_MIN ≠ 0)
  let fellH := x.h && !h
  let fellL := x.l && !l
  let dtL := x.dtL || (fellH && dt)
  let dtH := x.dtH || (fellL && dt)
  let h1 := x.h && h
  let l1 := x.l && l
  let riseH := h && !h1
  let riseL := l && !l1
  let h2 := h1 || (riseH && !l1 && !dtH)
  let l2 := l1 || (riseL && !h1 && !dtL)
  let delayed := (riseH && h2 && x.lateH) || (riseL && l2 && x.lateL)
  let c : Chip := c.updGdi n fun x =>
    { x with h := h2, l := l2, dtH := dtH, dtL := dtL, lateH := riseH && !h2, lateL := riseL && !l2 }
  let c : Chip := if delayed then (c.flag (R.GDI_STAT n) F.GDI_STAT_DT_ENF_SEEN true).raise (P.GDI n) 9 else c
  let on := decide (c.gdiState n = 3) && !x.async && !c.is (R.GDI_STAT n) F.GDI_STAT_SHD_OFF
  ((c.flag (R.GDI_STAT n) F.GDI_STAT_GH (on && h2)).flag (R.GDI_STAT n) F.GDI_STAT_GL (on && l2)).flag (R.GDI_STAT n)
    F.GDI_STAT_CAUSE_SHOOT both

/-! ### Channel outputs -/

/-- Whether trip source `k` overrides channel `n` (R345). -/
def Chip.tripHolds (c : Chip) (k n : Nat) : Bool :=
  (c.is (R.TRIP_SRC_STAT k) F.TRIP_SRC_STAT_ASSERTED && nbit (c.f (R.TRIP_SRC_CFG k) F.TRIP_SRC_CFG_CH) n)
    || nbit (c.trp k).held n

/-- The overrides of TRIP on channel `n` (R346): held in BOTH_OFF, held in LOW_ON. -/
def Chip.tripOver (c : Chip) (n : Nat) : Bool × Bool :=
  let l := (List.range 16).filter fun k => c.tripHolds k n
  let low := fun k => c.is (R.TRIP_SRC_CFG k) F.TRIP_SRC_CFG_ACTION
  let off := l.any fun k => !low k
  (off, !off && l.any low)

/-- The mask code of channel `n` (R340). -/
def Chip.maskCode (c : Chip) (n : Nat) : Nat :=
  if c.is R.MASK_CFG F.MASK_CFG_EN && nbit (c.f R.MASK_CFG F.MASK_CFG_CH) n then
    c.f (R.MASK_PAT (c.f R.MASK_STAT F.MASK_STAT_INDEX)) ⟨2 * n + 1, 2 * n⟩
  else 0

/-- The timebase of channel `n`. -/
def Chip.chTb (c : Chip) (n : Nat) : Nat := c.f (R.PWMC_CFG n) F.PWMC_CFG_TB

/-- Whether timebase `n` runs. -/
def Chip.tbRuns (c : Chip) (n : Nat) : Bool := c.is (R.PWT_TB_STAT n) F.PWT_TB_STAT_RUNNING

/-- Whether the channel hold of R322 holds channel `n`. -/
def Chip.chHold (c : Chip) (n : Nat) : Bool := !(c.pch n).en || !c.tbRuns (c.chTb n) || (c.pch n).stopHold

/-- The requests of channel `n` at the dead-time generator (R322). -/
def Chip.chReq (c : Chip) (n : Nat) : Bool × Bool :=
  let x := c.pch n
  let r := if c.running then (x.req, !x.req) else (false, false)
  let r := match c.maskCode n with | 1 => (false, false) | 2 => (false, true) | 3 => (r.1, false) | _ => r
  let (off, low) := c.tripOver n
  let r := if off then (false, false) else if low then (false, true) else r
  if c.chHold n then (false, false) else r

/-- The gate outputs of channel `n` become `h`, `l`; their edges open blanking windows (R185). -/
def Chip.chGates (c : Chip) (n : Nat) (h l : Bool) : Chip :=
  let oh := c.is (R.PWMC_STAT n) F.PWMC_STAT_GH
  let ol := c.is (R.PWMC_STAT n) F.PWMC_STAT_GL
  let c : Chip := (c.flag (R.PWMC_STAT n) F.PWMC_STAT_GH h).flag (R.PWMC_STAT n) F.PWMC_STAT_GL l
  let c : Chip := if h && !oh then c.blankEdge n 0 else if oh && !h then c.blankEdge n 1 else c
  if l && !ol then c.blankEdge n 2 else if ol && !l then c.blankEdge n 3 else c

/-- The outputs of channel `n` follow its requests through the dead-time generator (R323): a fall at once, a rise once the
other output is low and its dead time is over. A channel held by R322 shows no full-on period (R321). The gate-drive instance follows
(R305). -/
def Chip.chOut (c : Chip) (n : Nat) : Chip :=
  let (h, l) := c.chReq n
  let x := c.pch n
  let gh := c.is (R.PWMC_STAT n) F.PWMC_STAT_GH
  let gl := c.is (R.PWMC_STAT n) F.PWMC_STAT_GL
  let dtL := x.dtL || (gh && !h && decide (c.f (R.PWMC_DT n) F.PWMC_DT_DT_FALL ≠ 0))
  let dtH := x.dtH || (gl && !l && decide (c.f (R.PWMC_DT n) F.PWMC_DT_DT_RISE ≠ 0))
  let h1 := gh && h
  let l1 := gl && l
  let h2 := h1 || (h && !l1 && !dtH)
  let l2 := l1 || (l && !h && !h1 && !dtL)
  let (off, low) := c.tripOver n
  let c : Chip := c.updCh n fun x => { x with reqH := h, reqL := l, dtH := dtH, dtL := dtL }
  let c : Chip := (c.setBit R.TRIP_CH_STAT n off).setBit R.TRIP_CH_STAT (16 + n) low
  let c : Chip := (c.flag (R.PWMC_STAT n) F.PWMC_STAT_TRIPPED (off || low)).flag (R.PWMC_STAT n) F.PWMC_STAT_MASKED
    (decide (c.maskCode n ≠ 0))
  let c : Chip := if c.chHold n then c.flag (R.PWMC_STAT n) F.PWMC_STAT_FULL false else c
  (c.chGates n h2 l2).gdiOut n

/-- Every channel's outputs follow. -/
def Chip.gates (c : Chip) : Chip := forN 16 (fun n c => c.chOut n) c

/-- The Sheepdog holds every gate off, or no more (R29, R499). -/
def Chip.shdOff (c : Chip) (b : Bool) : Chip :=
  (forN 16 (fun n c => (c.flag (R.GDI_STAT n) F.GDI_STAT_SHD_OFF b).gdiOut n) c).lapLevels

end Sys2Proof.Machine
end

