-- ==== Sys2Proof/Machine/Safe.lean ====
section
/-!
DEFINITION. The device state and the safe state, shared by every chapter: changing the state (R20, R21, R43), the
Sheepdog's latch and its causes (R29 to R34, R499 to R501), the safety outputs (R504 to R507), the degraded mode
(R522, R523) and the change-log queue (R531 to R533).
-/
namespace Sys2Proof.Machine
open Sys2Proof

/-! ### PG_CRC (R59) -/

/-- One bit of the reflected CRC-32. -/
def crcBit (r : Nat) (b : Bool) : Nat :=
  if nbit r 0 != b then r / 2 ^^^ 0xEDB88320 else r / 2

/-- Eight bits of a byte, least significant first. -/
def crcByte (r x : Nat) : Nat := (List.range 8).foldl (fun r i => crcBit r (nbit x i)) r

/-- The four bytes of a word, least significant first. -/
def crcWord (r w : Nat) : Nat := (List.range 4).foldl (fun r i => crcByte r (w / 256 ^ i % 256)) r

/-- CRC-32 of a list of words. -/
def crc32 (ws : List Nat) : Nat := (ws.foldl crcWord 0xFFFFFFFF) ^^^ 0xFFFFFFFF

/-- CRC-32 of a list of bytes. -/
def crc32Bytes (bs : List Nat) : Nat := (bs.foldl crcByte 0xFFFFFFFF) ^^^ 0xFFFFFFFF

/-- The key under which PG_CRC reads offset `k`, for the register contents `g`: the session window shows the session that SES.SEL
selects (log entry 121, DESIGN CHOICE). -/
def crcKey (g : Nat → Word) (k : Nat) : Nat :=
  if pageBase k = P.SES ∧ 0x200 ≤ k % 0x1000 then Key.ses (fget (g R.SES_SEL) F.SES_SEL_SES) (k % 0x1000) else k

/-- The words that PG_CRC of the page at `b` covers, for the register contents `g`: each register with an RW or RWT field from
+0x100 upward, its other bits as 0, banked registers left out (R59). -/
def crcWords (g : Nat → Word) (b : Nat) : List Nat :=
  (List.range 0x3C0).filterMap fun i =>
    let k := crcKey g (b + 0x100 + 4 * i)
    if covered k = 0 then none else some (g k &&& covered k).toNat

/-- The words of both route banks of both planes, which FAB.PG_CRC covers too (R492): fed after the page's other registers, in the order
A 0, A 1, B 0, B 1, a place and an order that the spec does not give (log entry 121, DESIGN CHOICE). -/
def routeWords (g : Nat → Word) : List Nat :=
  (List.range 4).flatMap fun i => (List.range 385).map fun k =>
    (g (Key.route (i / 2) (i % 2) (if k < 384 then 0x800 + 4 * k else 0xE00))).toNat

/-- PG_CRC of the page at `b` for the register contents `g` (R59, R492). -/
def pageCrc (g : Nat → Word) (b : Nat) : Word :=
  wd <| crc32 <| crcWords g b ++ if b = P.FAB then routeWords g else []

/-- PG_CRC as it reads: the value last computed, or that of the page's reset values where none has been (R60). -/
def Chip.crcOf (c : Chip) (b : Nat) : Word :=
  match c.crc.find? fun e => e.1 = b with
  | some e => e.2
  | none => pageCrc regReset b

/-- PG_CRC takes the value of the present contents and CRC_BUSY clears (R60). -/
def Chip.crcDone (c : Chip) (b : Nat) : Chip :=
  { c with crc := SMap.insert (c.crc.erase b) b (pageCrc c.rd b), crcBusy := c.crcBusy.filter (· ≠ b) }

/-! ### The change log -/

/-- The calendar stamp of a log entry: seconds in bits 39:0, ticks in bits 54:40 (R532). -/
def Chip.calStamp (c : Chip) : Nat := c.time.calSec % 2 ^ 40 + 2 ^ 40 * (c.time.calSub % 2 ^ 15)

/-- The fills of the two queues as LOG_STAT shows them. -/
def Chip.logShow (c : Chip) : Chip :=
  (c.setF R.SHD_LOG_STAT F.SHD_LOG_STAT_SURV c.safe.survLog.length).setF R.SHD_LOG_STAT F.SHD_LOG_STAT_FIFO c.safe.log.length

/-- A log entry of `kind` with data `d` is queued: in the main-domain FIFO of 256 entries, or in the survival-domain
queue of 16 while the main domain, and with it SCFG.LOG_CFG, is off; with no room it is lost, counted and raised (R531, R533, R539). -/
def Chip.logIt (c : Chip) (kind : Nat) (d : List Byte) : Chip :=
  if c.powered && !c.is R.SCFG_LOG_CFG F.SCFG_LOG_CFG_EN then c
  else
    let e : LogEntry :=
      { kind := kind, cal := c.calStamp, ht := if c.powered then c.htNs else 0,
        cred := c.rdN R.SHD_CRED_ID, state := c.mode.code, cause := c.f R.SYS_SAFE_CAUSE F.SYS_SAFE_CAUSE_CAUSE,
        data := (d ++ List.replicate 32 0).take 32 }
    if c.powered && decide (c.safe.log.length < 256) then
      ({ c with safe := { c.safe with log := c.safe.log ++ [e] } }).logShow
    else if c.safe.survLog.length < 16 then ({ c with safe := { c.safe with survLog := c.safe.survLog ++ [e] } }).logShow
    else
      let c : Chip := { c with safe := { c.safe with lostDue := c.safe.lostDue + 1 } }
      (c.incSat R.SHD_LOG_STAT F.SHD_LOG_STAT_LOST).raiseIf c.powered P.SHD 5

/-- A LOST entry is queued once there is room for it (R533). -/
def Chip.logLost (c : Chip) : Chip :=
  if 0 < c.safe.lostDue ∧ c.safe.log.length < 256 then
    let n := c.safe.lostDue
    ({ c with safe := { c.safe with lostDue := 0 } }).logIt 0x0B (bytesLE 4 n)
  else c

/-! ### Safety outputs -/

/-- Whether channel `k` is ON (R504). -/
def Chip.soutOn (c : Chip) (k : Nat) : Bool :=
  let latch := c.is R.SHD_STAT F.SHD_STAT_LATCH
  match c.f (R.SCFG_SO_CFG k) F.SCFG_SO_CFG_FUNC with
  | 1 => c.safe.sgr && !latch
  | 2 => if c.is (R.SCFG_SO_CFG k) F.SCFG_SO_CFG_TRIP_LEVEL then (nth c.safe.sout k {}).trip
         else !c.is R.SHD_STAT F.SHD_STAT_SBT_TRIPPED
  | 3 => c.bit R.SOUT_REQ k && !latch && (c.mode = .ready || c.running)
  | _ => false

/-- Channel `k` is changed by `g`. -/
def Chip.updSout (c : Chip) (k : Nat) (g : SoutCh → SoutCh) : Chip :=
  { c with safe := { c.safe with sout := upd c.safe.sout k g } }

/-- The channels whose function is SGR. -/
def Chip.sgrChs (c : Chip) : List Nat := (List.range 8).filter fun k => c.f (R.SCFG_SO_CFG k) F.SCFG_SO_CFG_FUNC = 1

/-- SHD.STAT.SGR: removed, settling, or applied once every SGR channel is past the settle window of its switch-on (R505, R509). -/
def Chip.sgrStat (c : Chip) : Chip :=
  c.setF R.SHD_STAT F.SHD_STAT_SGR
    (if !c.safe.sgr then 0 else if c.sgrChs.any fun k => (nth c.safe.sout k {}).switched then 1 else 2)

/-- Every channel takes the state of R504; one that switches opens its settle window (R509). An off-pulse of a channel
that is switched off ends with it. -/
def Chip.soutUpdate (c : Chip) : Chip :=
  (forN 8 (fun k c =>
    if c.soutOn k != c.bit R.SOUT_STAT k then
      (c.setBit R.SOUT_STAT k (c.soutOn k)).updSout k fun x => { x with settle := true, switched := true, pulse := none }
    else c) c).sgrStat

/-- SGR is applied or removed (R505). -/
def Chip.setSgr (c : Chip) (b : Bool) : Chip := ({ c with safe := { c.safe with sgr := b } }).soutUpdate

/-- Every energise-to-trip channel starts its pulse (R504). -/
def Chip.tripPulses (c : Chip) : Chip :=
  forN 8 (fun k c =>
    if c.f (R.SCFG_SO_CFG k) F.SCFG_SO_CFG_FUNC = 2 && c.is (R.SCFG_SO_CFG k) F.SCFG_SO_CFG_TRIP_LEVEL then
      c.updSout k fun x => { x with trip := true }
    else c) c

/-- The breaker trips (R506). -/
def Chip.tripBreaker (c : Chip) : Chip :=
  if c.is R.SHD_STAT F.SHD_STAT_SBT_TRIPPED then c
  else ((c.flag R.SHD_STAT F.SHD_STAT_SBT_TRIPPED true).tripPulses).soutUpdate

/-- The breaker is released (R506). -/
def Chip.releaseBreaker (c : Chip) : Chip := (c.flag R.SHD_STAT F.SHD_STAT_SBT_TRIPPED false).soutUpdate

/-! ### Changing the state -/

/-- The state becomes `m`: SYS.STATE.PREV, STATE_HT and STATE_CHG follow, the Lap log records it (R43, R563), and the gates
follow their state gates (R324, R356). -/
def Chip.enter (c : Chip) (m : Mode) : Chip :=
  if c.mode = m then c
  else
    let c : Chip := { c.setF R.SYS_STATE F.SYS_STATE_PREV c.mode.code with mode := m }
    let was := match (fget (c.rd R.SYS_STATE) F.SYS_STATE_PREV) with | 4 => true | 5 => true | _ => false
    let c : Chip := (c.setF R.SYS_STATE F.SYS_STATE_STATE m.code).wr64 (R.SYS_STATE_HT 0) c.htNs
    let c : Chip := (c.raise P.SYS 0).lapLong 0x0C 0 [m.code, 0]
    if was != c.running then c.gates else c

/-- Entry to READY releases the breaker (R506) and ends a stop (R24). -/
def Chip.enterReady (c : Chip) : Chip :=
  let c : Chip := c.enter .ready
  ({ c with safe := { c.safe with stopping := false } }).releaseBreaker

/-- The Pacer channels with EMRG_ON_SAFE enter emergency (R240). -/
def Chip.pacerOnSafe (c : Chip) : Chip :=
  forN 16 (fun k c =>
    if c.is (R.PCR_CH_CFG k) F.PCR_CH_CFG_EMRG_ON_SAFE && !c.bit R.PCR_ESTAT k then
      (c.setBit R.PCR_ESTAT k true).raise P.PCR 1
    else c) c

/-- Entry to SAFE from the present state with the cause recorded (R29, R34). Leaving REPLAY stops the replay (R26). -/
def Chip.enterSafe (c : Chip) (code : Nat) : Chip :=
  if c.mode = .safe || !c.powered then c
  else
    let origin := c.mode.code
    let c : Chip := if c.mode = .replay then c.setF R.LAP_STAT F.LAP_STAT_STATE 3 else c
    let c : Chip := ((c.setF R.SYS_SAFE_CAUSE F.SYS_SAFE_CAUSE_CAUSE code).setF R.SYS_SAFE_CAUSE
      F.SYS_SAFE_CAUSE_ORIGIN origin).incSat R.SYS_SAFE_CAUSE F.SYS_SAFE_CAUSE_COUNT
    let c : Chip := { c with safe := { c.safe with stopping := false } }
    (c.enter .safe).pacerOnSafe

/-- The log entry SAFE_ENTRY: cause, origin state, class and index (R531). -/
def Chip.logSafe (c : Chip) (code origin cls idx : Nat) : Chip :=
  c.logIt 0x08 (bytesLE 1 code ++ bytesLE 1 origin ++ bytesLE 1 cls ++ bytesLE 1 idx)

/-- The latch alone: set with its first cause, or the cause added to CAUSES_SEEN; SGR removed, the breaker tripped
where SCFG.SBT_MASK has the cause, SAFE frames due, SAFE_ENTRY raised (R29, R499, R500, R505, R506, R539). -/
def Chip.latch (c : Chip) (code cls idx : Nat) : Chip :=
  let first := !c.is R.SHD_STAT F.SHD_STAT_LATCH
  let c : Chip :=
    if first then
      let c : Chip := (c.flag R.SHD_STAT F.SHD_STAT_LATCH true).wrN R.SHD_CAUSE (cls * 2 ^ 16 + idx % 256 * 256 + code)
      (({ c with safe := { c.safe with injectDue := true } }).shdOff true).raise P.SHD 0
    else c
  let c : Chip := c.orBits R.SHD_CAUSES_SEEN (2 ^ (code - 1))
  let c : Chip := if first then c.setSgr false else c
  if nbit (c.f R.SCFG_SBT_MASK F.SCFG_SBT_MASK_MASK) (code - 1) then c.tripBreaker else c

/-- A safety-relevant cause is met (R499, R21, R30): the latch and the entry to SAFE. In OFF and SURVIVAL the Sheepdog
is unpowered. -/
def Chip.cause (c : Chip) (code cls idx : Nat) : Chip :=
  if c.powered then
    let first := !c.is R.SHD_STAT F.SHD_STAT_LATCH
    let from' := c.mode.code
    let entered := first || decide (c.mode ≠ .safe)
    let c : Chip := (c.latch code cls idx).enterSafe code
    if entered then c.logSafe code from' cls idx else c
  else c

/-! ### Degraded mode -/

/-- Bits of SHD.DEG_SET after a fault of element bit `i` (R522, R523): from empty in RUN, the device enters DEGRADED and
the grace timer starts; each change is logged. -/
def Chip.degrade (c : Chip) (i : Nat) : Chip :=
  if c.bit R.SHD_DEG_SET i then c
  else
    let was := c.rd R.SHD_DEG_SET
    let c : Chip := (c.setBit R.SHD_DEG_SET i true).flag R.SHD_STAT F.SHD_STAT_DEGRADED true
    let c : Chip :=
      if was = 0 && decide (c.mode = .run) then
        let t := 60 * c.f R.SCFG_GEN F.SCFG_GEN_GRACE_MIN
        let c : Chip := (c.enter .degraded).wrN R.SHD_GRACE_REM t
        { c with safe := { c.safe with graceRun := true }, shd := { c.shd with graceEnd := c.htNs + t * 10 ^ 9 } }
      else c
    if was = 0 then (c.raise P.SHD 1).logIt 0x09 (bytesLE 4 (c.rdN R.SHD_DEG_SET)) else c

/-- Element `i` is repaired: with DEG_SET empty the timer stops and the device returns to RUN (R523). -/
def Chip.repair (c : Chip) (i : Nat) : Chip :=
  if !c.bit R.SHD_DEG_SET i then c
  else
    let c : Chip := c.setBit R.SHD_DEG_SET i false
    if c.rd R.SHD_DEG_SET ≠ 0 then c
    else
      let c : Chip := (c.flag R.SHD_STAT F.SHD_STAT_DEGRADED false).wrN R.SHD_GRACE_REM 0xFFFFFFFF
      let c : Chip := { c with safe := { c.safe with graceRun := false } }
      let c : Chip := if c.mode = .degraded then c.enter .run else c
      (c.raise P.SHD 2).logIt 0x0A (bytesLE 4 0)

/-- SCFG.PG_LOCK.STATE (R524): 0 in BOOT until the starting block has started the twins, 2 while the seal loop is open, a credential
is active and the device is in READY or SAFE, else 1. -/
def Chip.scfgLock (c : Chip) : Nat :=
  if decide (c.mode = .boot) && !c.shd.twinsUp then 0
  else if c.shd.sealOpen && c.is R.SHD_CRED_STAT F.SHD_CRED_STAT_ACTIVE && (decide (c.mode = .ready) || decide (c.mode = .safe))
  then 2 else 1

/-- FAULT_N is high in READY, RUN, DEGRADED and REPLAY while no latch is set (R20, R29). -/
def Chip.faultN (c : Chip) : Bool :=
  (match c.mode with | .ready | .run | .degraded | .replay => true | _ => false) && !c.is R.SHD_STAT F.SHD_STAT_LATCH

/-- The run permit (R22): every input pair permissive, every output's last read-back passed, PG_CRC of SCFG
as sealed with CRC_BUSY 0, and no redundant element at fault. -/
def Chip.permit (c : Chip) : Bool :=
  decide (c.f R.SIN_STAT F.SIN_STAT_PERMISSIVE = 0xFF)
    && decide (c.f R.SOUT_STAT F.SOUT_STAT_PASSED = 0xFF)
    && !c.crcBusy.contains P.SCFG && decide (c.crcOf P.SCFG = c.rd R.SHD_SEALED_CRC)
    && decide (c.rd R.SHD_DEG_SET = 0)

end Sys2Proof.Machine
end

