-- ==== Sys2Proof/Machine/Clock.lean ====
section
/-!
DEFINITION. The root clock, herd time and the calendar (*Root Clock, Herd Time and Calendar*): locking and hopping
(R99 to R114), clock outputs (R115 to R118), herd time and its discipline (R119 to R131), the calendar (R132 to R140).
The CALENDAR_SECOND and TIME_SYNC_RX commands are in Survival.lean and Fabric.lean.
-/
namespace Sys2Proof.Machine
open Sys2Proof

/-- A change of clock and time state alone. -/
def Chip.updTime (c : Chip) (g : TimeSt → TimeSt) : Chip := { c with time := g c.time }

/-- Work of the main domain on its working clocks: none in OFF and SURVIVAL, where it has no power, nor before the first lock (R103). -/
def Chip.via (c : Chip) (g : Chip → Chip) : Chip := if c.clockOn then g c else c

/-- Work that needs the power of the main domain but not its working clocks: the Sheepdog (R11, R103), the supplies and the root
synthesizer itself. -/
def Chip.viaShd (c : Chip) (g : Chip → Chip) : Chip := if c.powered then g c else c

/-- The protection bypass, fixed logic that no register write delays (R16), where a level input of the deterministic domain can change
(R563). -/
def Chip.bypass (c : Chip) (g : Chip → Chip) : Chip := c.viaShd fun c => (g c).lapLevels

/-- Work of the block of the page at `b` under its clock enable: none while the block stands still (R55, R57), nor before the first lock
(R103). -/
def Chip.clocked (c : Chip) (b : Nat) (g : Chip → Chip) : Chip := if c.clockOn && !c.halted b then g c else c

/-- The same, where a level input of the deterministic domain can change (R563). -/
def Chip.clockedLap (c : Chip) (b : Nat) (g : Chip → Chip) : Chip := c.clocked b fun c => (g c).lapLevels

/-- A write to the keyed command register at `k`. -/
def Chip.cmd (c : Chip) (k : Nat) (w : Writer) (key : BitVec 16) (g : Chip → Chip) : Chip :=
  c.via fun c => c.gate k w.ini.code fun c => c.keyed k key w.ini.code g

/-- A write to a command register without a key. -/
def Chip.put (c : Chip) (k : Nat) (w : Writer) (g : Chip → Chip) : Chip := c.via fun c => c.gate k w.ini.code g

/-- A write to the keyed command register at `k` that reaches memories. -/
def State.cmd (s : State) (k : Nat) (w : Writer) (key : BitVec 16) (g : State → State) : State :=
  if !s.chip.clockOn then s
  else match s.chip.barred k w.ini.code with
    | some e => s.onChip fun c => c.perr k e w.ini.code
    | none => if key = theKey then g s else s.onChip fun c => c.perr k .key w.ini.code

/-! ### Root synthesizer -/

/-- LOCK is cleared; LOCK_LOST where it was set (R145). -/
def Chip.unlock (c : Chip) : Chip :=
  if c.is R.CLK_STAT F.CLK_STAT_LOCK then (c.flag R.CLK_STAT F.CLK_STAT_LOCK false).raise P.CLK 0 else c

/-- A hop to slot `s` starts, abandoning any hop in progress (R111); a slot with a reserved source is refused (R99);
a hop to the active, locked slot only raises HOP_DONE. -/
def Chip.startHop (c : Chip) (s : Nat) : Chip :=
  if 4 ≤ c.f (R.CLK_SLOT s) F.CLK_SLOT_SRC then c
  else if c.is R.CLK_STAT F.CLK_STAT_LOCK && decide (c.f R.CLK_STAT F.CLK_STAT_ACTIVE = s) && c.time.hop.isNone then
    c.raise P.CLK 1
  else
    ((c.updTime fun t => { t with hop := some ⟨s, false, 0, 0⟩ }).flag R.CLK_STAT F.CLK_STAT_HOPPING true).unlock

/-- CLK.HOP_CMD (R111). -/
def doHopCmd (w : Writer) (key : BitVec 16) (slot : Fin 8) (c : Chip) : Chip :=
  c.cmd R.CLK_HOP_CMD w key fun c => c.startHop slot

/-- A change of the power state. -/
def Chip.updPow (c : Chip) (g : PowSt → PowSt) : Chip := { c with pow := g c.pow }

/-- The main domain starts: herd time takes the calendar, with a fraction of zero, VALID 0 and source CALENDAR (R120). It starts at the
first lock, since until then only the Sheepdog and the survival domain run (R103; log entry 118, DEDUCED); the time for which the
regulator's reference has moved (R586) goes on from the new count. -/
def Chip.htStart (c : Chip) : Chip :=
  let n := c.time.calSec * 10 ^ 9
  let c : Chip := (c.updPow fun p => { p with refT := n % 2 ^ 64 + p.refT - c.htNs }).updTime fun t => { t with ht := n % 2 ^ 64 * 2 ^ 48 }
  (c.setF R.HTM_STAT F.HTM_STAT_SRC 4).flag R.HTM_STAT F.HTM_STAT_VALID false

/-- Lock through slot `s` on band `band` (R101, R105): the slot keeps the band, LOCK is set, HOLDOVER ends, and a hop
that ends so raises HOP_DONE. The first lock starts the main domain (R103, R120). The Sheepdog's clock monitor sees the divided root again (R114). -/
def Chip.locked (c : Chip) (s : Nat) (band : Nat) : Chip :=
  let hopped := c.time.hop.isSome
  let c : Chip := if c.time.gated then c.htStart else c
  let c : Chip := (c.setF (R.CLK_SLOT s) F.CLK_SLOT_BAND band).flag (R.CLK_SLOT s) F.CLK_SLOT_BAND_VALID true
  let c : Chip := ((c.setF R.CLK_STAT F.CLK_STAT_BAND band).setF R.CLK_STAT F.CLK_STAT_ACTIVE s).flag R.CLK_STAT
    F.CLK_STAT_LOCK true
  let c : Chip := (c.flag R.CLK_STAT F.CLK_STAT_HOLDOVER false).flag R.CLK_STAT F.CLK_STAT_HOPPING false
  let c : Chip := (c.updTime fun t => { t with hop := none, gated := false }).flag R.SHD_STAT F.SHD_STAT_OSC_OK true
  c.raiseIf hopped P.CLK 1

/-- The band search completes and the root locks from cold: the first lock after power-on, which opens the working
clocks (R100, R103), or the end of a hop to a slot without a valid band (R107); it shows the phase error it locks with. -/
def doColdLock (band phaseErr : BitVec 12) (c : Chip) : Chip :=
  c.viaShd fun c =>
    match c.time.hop with
    | some h => (c.setF R.CLK_STAT F.CLK_STAT_PHASE_ERR phaseErr.toNat).locked h.slot band.toNat
    | none =>
      if c.is R.CLK_STAT F.CLK_STAT_LOCK then c
      else (c.setF R.CLK_STAT F.CLK_STAT_PHASE_ERR phaseErr.toNat).locked (c.f R.CLK_STAT F.CLK_STAT_ACTIVE) band.toNat

/-- A hop to a slot with a valid band acquires frequency; the phase error is shown (R106). -/
def doFreqAcquired (phaseErr : BitVec 12) (c : Chip) : Chip :=
  c.viaShd fun c =>
    match c.time.hop with
    | some h =>
      if c.is (R.CLK_SLOT h.slot) F.CLK_SLOT_BAND_VALID then
        (c.updTime fun t => { t with hop := some ⟨h.slot, true, 200 * phaseErr.toInt, 200 * phaseErr.toInt⟩ }).setF
          R.CLK_STAT F.CLK_STAT_PHASE_ERR phaseErr.toNat
      else c
    | none => c

/-- Whether phase mode FAST applies now (R109). -/
def Chip.fastPhase (c : Chip) : Bool := c.is R.CLK_CTL F.CLK_CTL_PHASE_MODE && !c.running

/-- Picoseconds in the unit of the herd-time accumulator, 2^−48 ns. -/
def psUnits (z : Int) : Int := roundDiv (z * 2 ^ 48) 1000

/-- Herd time moves by `z` units of 2^−48 ns, modulo its 64-bit count of nanoseconds. -/
def Chip.shiftHt (c : Chip) (z : Int) : Chip :=
  c.updTime fun t => { t with ht := ((t.ht + z) % (2 ^ 112 : Nat)).toNat }

/-- How far herd time has been displaced, in 2^−48 ns, by a phase that has moved from error `a` to error `b` (1/200 ps): by as much as the error
has fallen (R110; the sign is log entry 130's, DEDUCED). -/
def displaced (a b : Int) : Int := roundDiv ((a - b) * 2 ^ 48) 200000

/-- In HITLESS mode the root phase moves toward the alignment point by PSLEW at each CK_PER edge of an acquired hop, and herd time takes the
same displacement (R108, R110). A hop abandoned on the way leaves what has moved (R111). -/
def Chip.phaseEdge (c : Chip) : Chip :=
  match c.time.hop with
  | some h =>
    if h.freqOk && !c.fastPhase then
      let m : Int := (max 1 (c.f R.CLK_CTL F.CLK_CTL_PSLEW) : Nat)
      let e := h.err - clampI (-m) m h.err
      let z := displaced h.err0 e - displaced h.err0 h.err
      ((c.updTime fun t => { t with hop := some { h with err := e } }).setF R.CLK_STAT F.CLK_STAT_PHASE_ERR
        (unsgn 12 (e.tdiv 200))).clocked P.HTM fun c => c.shiftHt z
    else c
  | none => c

/-- Lock is declared with the phase error within ±20 ps (R108): in HITLESS mode that to which the phase has moved, in FAST mode the one the
realigned dividers have (R109). -/
def doRootLock (band : BitVec 12) (finalErr : BitVec 12) (c : Chip) : Chip :=
  c.viaShd fun c =>
    match c.time.hop with
    | some h =>
      if !h.freqOk then c
      else if c.fastPhase then
        if finalErr.toInt.natAbs ≤ 20 then (c.setF R.CLK_STAT F.CLK_STAT_PHASE_ERR finalErr.toNat).locked h.slot band.toNat
        else c
      else if h.err.natAbs ≤ 4000 then c.locked h.slot band.toNat
      else c
    | none => c

/-- Reference loss (R112): holdover, REF_LOSS, and the automatic hop. -/
def doRefLoss (c : Chip) : Chip :=
  c.viaShd fun c =>
    if c.time.gated then c
    else
      let c : Chip := ((c.flag R.CLK_STAT F.CLK_STAT_HOLDOVER true).unlock).raise P.CLK 2
      if c.is R.CLK_CTL F.CLK_CTL_AUTO_HOP then c.startHop (c.f R.CLK_CTL F.CLK_CTL_FALLBACK) else c

/-- The Sheepdog's clock monitor finds the divided root off by more than 2 % (R114). -/
def doClockMonitorFail (c : Chip) : Chip :=
  c.viaShd fun c => (c.flag R.SHD_STAT F.SHD_STAT_OSC_OK false).cause 0x0E 0xA 2

/-! ### Clock outputs -/

/-- F of output `n` from its divider and spread words (R115). -/
def outFrac (div ssc : Word) : Nat :=
  fget div F.CLK_OUT_DIV_F_HI * 2 ^ 16 + fget ssc F.CLK_OUT_SSC_F_MID * 2 ^ 12 + fget div F.CLK_OUT_DIV_F_LO

/-- Whether a format and a divider keep within R115: the frequency 6.4 GHz / (N + F / 2^24) at most the format's
limit (in MHz). -/
def clkOutOk (cfg div ssc : Word) : Bool :=
  let lim := match fget cfg F.CLK_OUT_CFG_FMT with | 0 => 200 | 1 => 800 | 2 => 400 | _ => 0
  decide (8 ≤ fget div F.CLK_OUT_DIV_N) &&
    decide (6400 * 2 ^ 24 ≤ lim * (fget div F.CLK_OUT_DIV_N * 2 ^ 24 + outFrac div ssc))

/-- The level that output `n` drives while it is disabled (R118); none while it runs. -/
def Chip.clkOutLevel (c : Chip) (n : Nat) : Option Bool :=
  if c.is (R.CLK_OUT_CFG n) F.CLK_OUT_CFG_EN then none else some (c.is (R.CLK_OUT_CFG n) F.CLK_OUT_CFG_OFF_STATE)

/-- The words written for output `n` take effect (R117). -/
def Chip.clkOutTake (c : Chip) (n : Nat) : Chip :=
  c.updTime fun t => { t with outDiv := upd t.outDiv n fun _ => c.rd (R.CLK_OUT_DIV n),
                              outSsc := upd t.outSsc n fun _ => c.rd (R.CLK_OUT_SSC n) }

/-- The end of the modulation period, or the next output edge with spread off (R117). -/
def doClockOutputUpdate (n : Fin 4) (c : Chip) : Chip := c.via fun c => c.clkOutTake n

/-! ### Herd time -/

/-- HTM.RATE takes `z`, clamped to ±500 ppm (R143). -/
def Chip.setRate (c : Chip) (z : Int) : Chip := c.wrN R.HTM_RATE (unsgn 32 (clampI (-549755814) 549755814 z))

/-- HTM.ADJ takes `z` (1/256 ns): the remaining adjustment is replaced (R126). -/
def Chip.setAdj (c : Chip) (z : Int) : Chip := c.updTime fun t => { t with adjRem := z * 2 ^ 40 }

/-- HTM.ADJ (R126). -/
def doHtmAdj (w : Writer) (adj : BitVec 32) (c : Chip) : Chip := c.put R.HTM_ADJ w fun c => (c.setAdj adj.toInt).lapHtm

/-- The share of the remaining adjustment that one CK_PER edge takes: at most SLEW_MAX ppm of 2.5 ns (R126). -/
def Chip.adjShare (c : Chip) : Int :=
  let m : Int := (c.f R.HTM_CTL F.HTM_CTL_SLEW_MAX * (5 * 2 ^ 47) / 1000000 : Nat)
  clampI (-m) m c.time.adjRem

/-- How far the next CK_PER edge advances herd time: 2.5 ns × (1 + RATE × 2^−40) and the share of the adjustment (R119). -/
def Chip.htAdvance (c : Chip) : Int := 5 * 2 ^ 47 + 640 * c.rdI R.HTM_RATE + c.adjShare

/-- One CK_PER edge advances herd time (R119). -/
def Chip.htEdge (c : Chip) : Chip :=
  let sh := c.adjShare
  (c.shiftHt c.htAdvance).updTime fun t => { t with adjRem := t.adjRem - sh }

/-- What HTM.ADJ_REM reads (1/256 ns). -/
def Chip.adjRemWord (c : Chip) : Word := wd (unsgn 32 (c.time.adjRem.tdiv (2 ^ 40)))

/-- No step may land (R129): a herd-locked timebase runs, or a transaction waits on herd time. -/
def Chip.stepBlocked (c : Chip) : Bool :=
  ((List.range 4).any fun n => nbit (c.f R.PWT_CTL F.PWT_CTL_RUN) n && c.is (R.PWT_TB_CFG n) F.PWT_TB_CFG_HL_EN)
    || c.bus.ctxs.any fun x =>
      (x.st = .armed && x.mode = .atHt) || x.st = .prepared || x.st = .inDoubt

/-- HTM.STEP_CMD (R129). -/
def doHtmStep (w : Writer) (key : BitVec 16) (go : Bool) (c : Chip) : Chip :=
  c.cmd R.HTM_STEP_CMD w key fun c =>
    if !go then c
    else if c.stepBlocked then (c.flag R.HTM_STAT F.HTM_STAT_STEP_REFUSED true).raise P.HTM 5
    else c.updTime fun t => { t with stepPend := true }

/-- An accepted step is applied and VALID clears (R129); its length is what STEP_LO and STEP_HI hold then (log entry 132, DESIGN CHOICE). -/
def doStepApply (c : Chip) : Chip :=
  c.clocked P.HTM fun c =>
    if c.time.stepPend then
      let z : Int := sgn 64 (c.rd64 (R.HTM_STEP 0))
      let c : Chip := (c.shiftHt (z * 2 ^ 48)).updTime fun t => { t with stepPend := false }
      ((c.flag R.HTM_STAT F.HTM_STAT_VALID false).raise P.HTM 5).lapHtm
    else c

/-- A discipline offset `e` in 2^−48 ns is shown, and VALID is set when its magnitude first falls below 50 ns; the
update ends holdover (R127, R128). -/
def Chip.htmOffset (c : Chip) (e : Int) (src : Nat) : Chip :=
  let c : Chip := c.setF R.HTM_STAT F.HTM_STAT_OFFSET (unsgn 24 (clampI (-0x800000) 0x7FFFFF (roundDiv e (2 ^ 44))))
  let c : Chip := (c.setF R.HTM_STAT F.HTM_STAT_SRC src).flag R.HTM_STAT F.HTM_STAT_HOLDOVER false
  if e.natAbs < 50 * 2 ^ 48 && !c.is R.HTM_STAT F.HTM_STAT_VALID then
    (c.flag R.HTM_STAT F.HTM_STAT_VALID true).raise P.HTM 2
  else c

/-- The law of R482 for an offset `e` (2^−48 ns) and a sync interval `i` in ns. -/
def Chip.htmSync (c : Chip) (e : Int) (i : Nat) : Chip :=
  let c : Chip := c.htmOffset e 1
  let c : Chip := c.setAdj (clampI (-0x80000000) 0x7FFFFFFF (roundDiv (-e) (2 ^ 40)))
  c.setRate (c.rdI R.HTM_RATE - roundDiv e (2 ^ 8 * 16 * max i 1))

/-- HTM.STAT.SRC shows the source in use (R121, R123, R124): a bellwether's PPS or PTP, else none, and a member's fabric unless it is never
disciplined. -/
def Chip.showSrc (c : Chip) : Chip :=
  let d := c.f R.HTM_CTL F.HTM_CTL_DISC_SRC
  c.setF R.HTM_STAT F.HTM_STAT_SRC
    (if c.is R.HTM_STAT F.HTM_STAT_BELLWETHER then if d = 2 ∨ d = 3 then d else 0 else if d = 0 then 0 else 1)

/-- The device becomes bellwether or loses the role (R124): one that runs free makes herd time valid as it becomes bellwether. -/
def Chip.bellwetherIs (c : Chip) (on : Bool) : Chip :=
  if c.is R.HTM_STAT F.HTM_STAT_BELLWETHER = on then c
  else
    let c : Chip := (c.flag R.HTM_STAT F.HTM_STAT_BELLWETHER on).showSrc
    if on && decide (c.f R.HTM_STAT F.HTM_STAT_SRC = 0) && !c.is R.HTM_STAT F.HTM_STAT_VALID then
      (c.flag R.HTM_STAT F.HTM_STAT_VALID true).raise P.HTM 2
    else c

/-- How far herd time stands from the nearest whole second, in 2^−48 ns: above it positive (R125). -/
def Chip.ppsErr (c : Chip) : Int :=
  let u : Nat := c.time.ht % (10 ^ 9 * 2 ^ 48)
  if u < 5 * 10 ^ 8 * 2 ^ 48 then Int.ofNat u else Int.ofNat u - 10 ^ 9 * 2 ^ 48

/-- A PPS_IN edge of the selected polarity (R123, R125, R131). A rejected edge is not captured either (log entry 131, DESIGN CHOICE). The
discipline law on PPS is not given by the spec: the rate and the adjustment it writes are free values (log entry 13, DESIGN CHOICE). -/
def doPpsInEdge (falling : Bool) (c : Chip) : Chip :=
  c.clocked P.HTM fun c =>
    if falling != c.is R.HTM_CTL F.HTM_CTL_PPS_POL then c
    else
      let e := c.ppsErr
      if 10 ^ 8 * 2 ^ 48 < e.natAbs then c.raise P.HTM 0
      else
        let c : Chip := forN 2 (fun k c =>
          if c.is (R.HTM_CAP_CFG k) F.HTM_CAP_CFG_EN && c.is (R.HTM_CAP_CFG k) F.HTM_CAP_CFG_PPS then
            if c.is (R.HTM_CAP_CFG k) F.HTM_CAP_CFG_FULL then c.flag (R.HTM_CAP_CFG k) F.HTM_CAP_CFG_LOST true
            else ((c.wr64 (R.HTM_CAP (2 * k)) c.htNs).flag (R.HTM_CAP_CFG k) F.HTM_CAP_CFG_FULL true).raise P.HTM (3 + k)
          else c) c
        if c.is R.HTM_STAT F.HTM_STAT_BELLWETHER && decide (c.f R.HTM_CTL F.HTM_CTL_DISC_SRC = 2) then
          let c : Chip := c.htmOffset e 2
          let (r, c) := c.freeW
          let (a, c) := c.freeW
          ((c.setRate r.toInt).setAdj a.toInt).lapHtm
        else c

/-- PPS_OUT goes active at the whole second plus offset (R130). -/
def doPpsOutPulse (c : Chip) : Chip :=
  c.clocked P.HTM fun c => if c.is R.HTM_PPS_CFG F.HTM_PPS_CFG_EN then c.updTime fun t => { t with ppsOut := true } else c

/-- PPS_OUT returns to its inactive level (R130). -/
def doPpsOutPulseEnd (c : Chip) : Chip := c.clocked P.HTM fun c => c.updTime fun t => { t with ppsOut := false }

/-- The level of PPS_OUT: POL 0 active high, 1 active low (R143). -/
def Chip.ppsLevel (c : Chip) : Bool := c.time.ppsOut != c.is R.HTM_PPS_CFG F.HTM_PPS_CFG_POL

/-- Three missed discipline updates: holdover, with TIME_LOSS where the updates come from the fabric (R128, R482). -/
def doDisciplineHoldover (c : Chip) : Chip :=
  c.clocked P.HTM fun c =>
    if c.is R.HTM_STAT F.HTM_STAT_HOLDOVER || decide (c.f R.HTM_CTL F.HTM_CTL_DISC_SRC = 0) then c
    else
      let c : Chip := (c.flag R.HTM_STAT F.HTM_STAT_HOLDOVER true).raise P.HTM 1
      if c.is R.HTM_STAT F.HTM_STAT_BELLWETHER then c else (c.flag R.FAB_STAT F.FAB_STAT_TIME_OK false).raise P.FAB 5

/-! ### Calendar -/

/-- Calendar seconds of alarm `n`. -/
def Chip.alarmSec (c : Chip) (n : Nat) : Nat :=
  c.rdN (R.RTC_ALARM_LO n) + 2 ^ 32 * c.f (R.RTC_ALARM_HI n) F.RTC_ALARM_HI_SEC_X

/-- Alarm `n` fires: its event, and the period added to its value (R139). -/
def Chip.alarmFire (c : Chip) (n : Nat) : Chip :=
  let v := c.alarmSec n + c.rdN (R.RTC_ALARM_PER n)
  ((c.wrN (R.RTC_ALARM_LO n) v).setF (R.RTC_ALARM_HI n) F.RTC_ALARM_HI_SEC_X (v / 2 ^ 32)).raise P.RTC n

/-- The enabled alarms fire that the calendar reaches in going from `old` to its present seconds (R139). -/
def Chip.alarms (c : Chip) (old : Nat) : Chip :=
  forN 2 (fun n c =>
    if c.is (R.RTC_ALARM_HI n) F.RTC_ALARM_HI_EN && decide (old < c.alarmSec n) && decide (c.alarmSec n ≤ c.time.calSec)
    then c.alarmFire n else c) c

/-- An alarm written with a value not above the present seconds fires (R139). -/
def Chip.alarmWritten (c : Chip) (n : Nat) : Chip :=
  if c.is (R.RTC_ALARM_HI n) F.RTC_ALARM_HI_EN && decide (c.alarmSec n ≤ c.time.calSec) then c.alarmFire n else c

/-- The calendar takes a value; RTC_LOAD is raised (R145) and alarms follow (R139). -/
def Chip.calLoad (c : Chip) (sec sub : Nat) : Chip :=
  let old := c.time.calSec
  ((c.updTime fun t => { t with calSec := sec % 2 ^ 40, calSub := sub % 2 ^ 15 }).raise P.RTC 3).alarms old

/-- Whether discipline of the calendar from herd time is active (R137, R138). -/
def Chip.calDisc (c : Chip) : Bool := c.is R.RTC_CTL F.RTC_CTL_DISC && c.is R.HTM_STAT F.HTM_STAT_VALID

/-- RTC.CMD SET (R138). -/
def Chip.rtcSet (c : Chip) (i : Nat) : Chip :=
  if c.calDisc then c.refuse R.RTC_CMD i
  else (c.updTime fun t => { t with setPend := true }).flag R.RTC_STAT F.RTC_STAT_BUSY true

/-- RTC.CMD SET (R138). -/
def doRtcSet (w : Writer) (key : BitVec 16) (c : Chip) : Chip := c.cmd R.RTC_CMD w key fun c => c.rtcSet w.ini.code

/-- RTC.CMD CAL_RC (R136). -/
def doRtcCalRc (w : Writer) (key : BitVec 16) (c : Chip) : Chip :=
  c.cmd R.RTC_CMD w key fun c => c.updTime fun t => { t with rcCal := true }

/-- Whether the survival domain has power: every state but OFF. -/
def Chip.survAlive (c : Chip) : Bool := decide (c.mode ≠ .off)

/-- The RC calibration ends with the measured trim code (R136). -/
def doRcCalDone (trim : BitVec 10) (c : Chip) : Chip :=
  if c.survAlive && c.time.rcCal then
    (c.updTime fun t => { t with rcCal := false }).setF R.RTC_TRIM F.RTC_TRIM_RC trim.toNat
  else c

/-- The correction at temperature `t`: linear between the points around it, clamped at the end points (R134); between
two whole ticks the spec names neither, so the tick taken is a free choice (log entry 14, DESIGN CHOICE). -/
def Chip.tcomp (c : Chip) (t : Int) : Int × Chip :=
  let tp := fun n => sgn 8 (c.f (R.RTC_TCOMP n) F.RTC_TCOMP_TEMP)
  let cr := fun n => sgn 16 (c.f (R.RTC_TCOMP n) F.RTC_TCOMP_CORR)
  if t ≤ tp 0 then (cr 0, c)
  else match (List.range 7).find? fun n => decide (t ≤ tp (n + 1)) with
    | none => (cr 7, c)
    | some n =>
      let d := tp (n + 1) - tp n
      let x := (cr (n + 1) - cr n) * (t - tp n)
      if d ≤ 0 then (cr (n + 1), c)
      else if x % d = 0 then (cr n + x / d, c)
      else
        let (b, c) := c.freeB
        (cr n + x / d + (if b then 1 else 0), c)

/-- The calendar gains `z` ticks. -/
def Chip.calTicks (c : Chip) (z : Int) : Chip :=
  let old := c.time.calSec
  let v := (((c.time.calSec * 2 ^ 15 + c.time.calSub : Nat) : Int) + z) % (2 ^ 55 : Nat)
  (c.updTime fun t => { t with calSec := v.toNat / 2 ^ 15, calSub := v.toNat % 2 ^ 15 }).alarms old

/-- Crystal failure switches the calendar to RC in any mode (R135). -/
def doXtalFail (c : Chip) : Chip :=
  if c.survAlive then
    let c : Chip := c.updTime fun t => { t with xtalFailed := true }
    ((c.flag R.RTC_STAT F.RTC_STAT_ON_RC true).flag R.RTC_STAT F.RTC_STAT_XTAL_FAIL true).raise P.RTC 2
  else c

/-- The calendar is loaded from herd time at a whole second where it differs by a tick or more (R137). -/
def doRtcDiscLoad (c : Chip) : Chip :=
  c.via fun c =>
    if c.calDisc then
      let ns := c.htNs
      let sec := ns / 10 ^ 9 % 2 ^ 40
      let sub := ns % 10 ^ 9 * 2 ^ 15 / 10 ^ 9
      if sec = c.time.calSec ∧ sub = c.time.calSub then c
      else (c.flag R.RTC_STAT F.RTC_STAT_DISCIPLINED true).calLoad sec sub
    else c

/-- The ageing correction is updated from the tick count against herd time (R137); the spec does not state the value
(log entry 2, DESIGN CHOICE). -/
def doAgingUpdate (c : Chip) : Chip :=
  c.via fun c => if c.calDisc then c.setFree R.RTC_TRIM F.RTC_TRIM_AGING else c

/-! ### The commands -/

/-- HOP_CMD (R111). -/
def execHopCmd (w : Writer) (key : BitVec 16) (slot : Fin 8) (s : State) : Host.Outcome State Fault Refusal :=
  .next (s.onChip (doHopCmd w key slot))
/-- COLD_LOCK (R100). -/
def execColdLock (band phaseErr : BitVec 12) (s : State) : Host.Outcome State Fault Refusal :=
  .next (s.onChip (doColdLock band phaseErr))
/-- FREQ_ACQUIRED (R106). -/
def execFreqAcquired (phaseErr : BitVec 12) (s : State) : Host.Outcome State Fault Refusal :=
  .next (s.onChip (doFreqAcquired phaseErr))
/-- ROOT_LOCK (R108). -/
def execRootLock (band : BitVec 12) (finalErr : BitVec 12) (s : State) : Host.Outcome State Fault Refusal :=
  .next (s.onChip (doRootLock band finalErr))
/-- REF_LOSS (R112). -/
def execRefLoss (s : State) : Host.Outcome State Fault Refusal :=
  .next (s.onChip doRefLoss)
/-- CLOCK_MONITOR_FAIL (R114). -/
def execClockMonitorFail (s : State) : Host.Outcome State Fault Refusal :=
  .next (s.onChip doClockMonitorFail)
/-- CLOCK_OUTPUT_UPDATE (R117). -/
def execClockOutputUpdate (n : Fin 4) (s : State) : Host.Outcome State Fault Refusal :=
  .next (s.onChip (doClockOutputUpdate n))
/-- HTM_ADJ (R126). -/
def execHtmAdj (w : Writer) (adj : BitVec 32) (s : State) : Host.Outcome State Fault Refusal :=
  .next (s.onChip (doHtmAdj w adj))
/-- HTM_STEP (R129). -/
def execHtmStep (w : Writer) (key : BitVec 16) (go : Bool) (s : State) : Host.Outcome State Fault Refusal :=
  .next (s.onChip (doHtmStep w key go))
/-- STEP_APPLY (R129). -/
def execStepApply (s : State) : Host.Outcome State Fault Refusal :=
  .next (s.onChip doStepApply)
/-- PPS_IN_EDGE (R125). -/
def execPpsInEdge (falling : Bool) (s : State) : Host.Outcome State Fault Refusal :=
  .next (s.onChip (doPpsInEdge falling))
/-- PPS_OUT_PULSE (R130). -/
def execPpsOutPulse (s : State) : Host.Outcome State Fault Refusal :=
  .next (s.onChip doPpsOutPulse)
/-- PPS_OUT_PULSE_END (R130). -/
def execPpsOutPulseEnd (s : State) : Host.Outcome State Fault Refusal :=
  .next (s.onChip doPpsOutPulseEnd)
/-- DISCIPLINE_HOLDOVER (R128). -/
def execDisciplineHoldover (s : State) : Host.Outcome State Fault Refusal :=
  .next (s.onChip doDisciplineHoldover)
/-- RTC_SET (R138). -/
def execRtcSet (w : Writer) (key : BitVec 16) (s : State) : Host.Outcome State Fault Refusal :=
  .next (s.onChip (doRtcSet w key))
/-- RTC_CAL_RC (R136). -/
def execRtcCalRc (w : Writer) (key : BitVec 16) (s : State) : Host.Outcome State Fault Refusal :=
  .next (s.onChip (doRtcCalRc w key))
/-- RC_CAL_DONE (R136). -/
def execRcCalDone (trim : BitVec 10) (s : State) : Host.Outcome State Fault Refusal :=
  .next (s.onChip (doRcCalDone trim))
/-- XTAL_FAIL (R135). -/
def execXtalFail (s : State) : Host.Outcome State Fault Refusal :=
  .next (s.onChip doXtalFail)
/-- RTC_DISC_LOAD (R137). -/
def execRtcDiscLoad (s : State) : Host.Outcome State Fault Refusal :=
  .next (s.onChip doRtcDiscLoad)
/-- AGING_UPDATE (R137). -/
def execAgingUpdate (s : State) : Host.Outcome State Fault Refusal :=
  .next (s.onChip doAgingUpdate)

end Sys2Proof.Machine
end

