-- ==== Sys2Proof/Machine/Line.lean ====
section
/-!
DEFINITION. The line code of a lane in TROTUM mode (R416) and the packet's CRC (R454).
-/
namespace Sys2Proof.Machine
open Sys2Proof

/-- The CRC-32 of a packet (R454). -/
def packetCrc (p : Packet) : Nat := crc32 (p.header ++ p.words.map (·.toNat))

/-- One bit through the self-synchronising scrambler x^58 + x^39 + 1 (R416): `r` holds the last 58 bits sent, the newest in bit 0. -/
def scrambleBit (r : BitVec 58) (b : Bool) : Bool × BitVec 58 :=
  let o := (b ^^ r.getLsbD 38) ^^ r.getLsbD 57
  (o, r <<< 1 ||| BitVec.ofNat 58 (b2n o))

/-- 64 bits through the scrambler, bit 0 first (R416; log entry 137, PRESUMED). -/
def scramble (r : BitVec 58) (d : BitVec 64) : BitVec 64 × BitVec 58 :=
  (List.range 64).foldl (fun (q : BitVec 64 × BitVec 58) i =>
    let (o, r) := scrambleBit q.2 (d.getLsbD i)
    (q.1 ||| BitVec.ofNat 64 (b2n o * 2 ^ i), r)) (0, r)

/-- The 66-bit block of 64 payload bits (R416): the sync header, 0b10 for control and 0b01 for data, and the scrambled bits. -/
def lineBlock (control : Bool) (r : BitVec 58) (d : BitVec 64) : BitVec 66 × BitVec 58 :=
  let (s, r) := scramble r d
  ((if control then 0b10#2 else 0b01#2) ++ s, r)

/-- Data blocks one after the other. -/
def lineBlocks (r : BitVec 58) : List (BitVec 64) → List (BitVec 66) × BitVec 58
  | [] => ([], r)
  | d :: l =>
    let (b, r) := lineBlock false r d
    let (bs, r) := lineBlocks r l
    (b :: bs, r)

/-- Words two to a block, the first in the low half. -/
def blockWords : List Nat → List (BitVec 64)
  | a :: b :: l => BitVec.ofNat 64 (a + 2 ^ 32 * b) :: blockWords l
  | _ => []

end Sys2Proof.Machine
end

