-- ==== Sys2Proof/Machine/TxnCore.lean ====
section
/-!
DEFINITION. The transaction contexts (R69 to R95, R678, R679): opening, arming, rolling back and freeing, and the herd-wide
protocol. Staging a write and applying a commit are in Write.lean.
-/
namespace Sys2Proof.Machine
open Sys2Proof

/-- Context `n` (1 to 15). -/
def Chip.ctx (c : Chip) (n : Nat) : Ctx := nth c.bus.ctxs (n - 1) Ctx.init

/-- A change of the bus state. -/
def Chip.updBus (c : Chip) (g : BusSt → BusSt) : Chip := { c with bus := g c.bus }

/-- A change of context `n`; there is no context 0. -/
def Chip.updCtx (c : Chip) (n : Nat) (g : Ctx → Ctx) : Chip :=
  if n = 0 then c else c.updBus fun b => { b with ctxs := upd b.ctxs (n - 1) g }

/-- The first context number for which `p` holds. -/
def Chip.findCtx (c : Chip) (p : Ctx → Bool) : Option Nat := ((List.range 15).map (· + 1)).find? fun n => p (c.ctx n)

/-- The context of bank `b` (R70). -/
def Chip.bankCtx (c : Chip) (b : Nat) : Option Nat := c.findCtx fun x => decide (x.st ≠ .free) && decide (x.ini = b)

/-- The banked register at `r` (its address in the TXN page) of initiator code `b`. -/
def bank (b r : Nat) : Nat := Key.txn b (r - P.TXN)

/-- The result code of the bank's last operation (R679). -/
def Chip.setRes (c : Chip) (b r : Nat) : Chip := c.updBus fun x => { x with bankRes := upd x.bankRes b fun _ => r }

/-- Result codes (R95). -/
def CtxState.code : CtxState → Nat
  | .free => 0 | .opened => 1 | .doomed => 2 | .armed => 3 | .prepared => 4 | .inDoubt => 5 | .coordinating => 6

namespace Res
def none : Nat := 0
def committed : Nat := 1
def committedLate : Nat := 2
def rolledBack : Nat := 3
def doomed : Nat := 4
def missed : Nat := 5
def votedNo : Nat := 6
def aborted : Nat := 7
def timeout : Nat := 8
def busy : Nat := 9
def lateT : Nat := 10
def state : Nat := 11
def key : Nat := 12
end Res

/-- Entries of the staging pool in use. -/
def Chip.poolUsed (c : Chip) : Nat := (c.bus.ctxs.map fun x => x.entries.length).sum

/-- The context that owns the register at key `k` (R73). -/
def Chip.holder (c : Chip) (k : Nat) : Option Nat := c.findCtx fun x => x.entries.any fun e => e.1 = k

/-- The word `v` for key `k` joins context `n` (R70); the pool's peak and POOL_LOW follow (R95, R96). -/
def Chip.addEntry (c : Chip) (n k : Nat) (v : Word) : Chip :=
  let c : Chip := c.updCtx n fun x => { x with entries := SMap.insert (SMap.erase x.entries k) k v }
  let u := c.poolUsed
  (c.updBus fun b => { b with poolPeak := max b.poolPeak u }).raiseIf (decide (u = 3841)) P.TXN 6

/-- A bank switch that this device misses stops forwarding on the planes that the context would have switched (R470). -/
def Chip.switchMissed (c : Chip) (x : Ctx) : Chip :=
  match x.entries.find? fun e => e.1 = R.FAB_CTL with
  | some e =>
    forN 2 (fun p c =>
      let rb := if p = 0 then F.FAB_CTL_RBANK_A else F.FAB_CTL_RBANK_B
      if fget e.2 rb ≠ c.f R.FAB_CTL rb then
        ({ c with fab := { c.fab with fwdOff := upd c.fab.fwdOff p fun _ => true } }).flag R.FAB_CTL
          (if p = 0 then F.FAB_CTL_FWD_A else F.FAB_CTL_FWD_B) false
      else c) c
  | none => c

/-- Context `n` is freed with result `r`: its entries are discarded, its bank shows the result, and the events of R96
follow. A herd context leaves its tag and result in HLAST_TAG and HLAST_RES. -/
def Chip.ctxEnd (c : Chip) (n r : Nat) : Chip :=
  let x := c.ctx n
  if x.st = .free ∨ n = 0 then c
  else
    let c : Chip := if r = Res.missed then c.switchMissed x else c
    let c : Chip := (c.updCtx n fun _ => { Ctx.init with ini := x.ini, result := r }).setRes x.ini r
    let c : Chip := if x.kind = .localCtx then c else (c.wrN R.TXN_HLAST_TAG x.tag).wrN R.TXN_HLAST_RES r
    let c : Chip := c.raiseIf (decide (r = Res.rolledBack ∨ r = Res.aborted ∨ r = Res.timeout ∨ r = Res.missed
      ∨ r = Res.votedNo)) P.TXN 1
    c.raiseIf (decide (r = Res.missed)) P.TXN 3

/-- Context `n` is doomed with a cause by a write at register key `k` (R76): its registers are released at once. The muster engine's own
context, which no initiator can free, is freed with it. -/
def Chip.doom (c : Chip) (n cause k : Nat) : Chip :=
  let own := decide ((c.ctx n).ini = 0)
  let c : Chip := c.updCtx n fun x => { x with st := .doomed, entries := [] }
  let c : Chip := (c.wrN R.TXN_DOOM_INFO (n * 2 ^ 28 + cause * 2 ^ 24 + k % 2 ^ 22)).raise P.TXN 2
  if own then c.ctxEnd n Res.doomed else c

/-- Whether `w` is a session other than the one that the context of the fabric bank belongs to (R72). -/
def Chip.foreign (c : Chip) (w : Writer) : Bool :=
  decide (w.ini.code = 4) && (match c.bankCtx 4 with | some n => decide ((c.ctx n).ses ≠ w.ses.val) | none => false)

/-- A write to TXN.CMD by initiator `i`: with a wrong key it is ignored with REFUSED_KEY (R95); an initiator without a bank
has nothing to command, and a fabric session that does not own the open fabric context is refused (R72). -/
def Chip.txnVia (c : Chip) (w : Writer) (key : BitVec 16) (g : Nat → Chip → Chip) : Chip :=
  c.put R.TXN_CMD w fun c =>
    let i := w.ini.code
    if i = 0 ∨ 5 < i then c
    else if c.foreign w then c.perr R.TXN_CMD .security i
    else if key = theKey then g i c
    else (c.perr R.TXN_CMD .key i).setRes i Res.key

/-- BEGIN, BEGIN_HERD or BEGIN_COORD (R679): the lowest free context opens. HTALLY of the bank starts at 0 with every context and with
every PREPARE: the spec does not say when it is cleared (log entry 122, DESIGN CHOICE). -/
def Chip.txnBegin (c : Chip) (i ses : Nat) (kind : CtxKind) : Chip :=
  match c.bankCtx i, c.findCtx fun x => decide (x.st = .free) with
  | none, some n =>
    let tag := if kind = .localCtx then 0 else c.rdN (bank i R.TXN_HTAG)
    ((c.updCtx n fun _ => { Ctx.init with st := .opened, kind := kind, ini := i, ses := ses, tag := tag }).setRes i
      Res.none).wrN (bank i R.TXN_HTALLY) 0
  | _, _ => c.setRes i Res.busy

/-- TXN.CMD BEGIN (R679). -/
def doTxnBegin (w : Writer) (key : BitVec 16) (c : Chip) : Chip := c.txnVia w key fun i c => c.txnBegin i w.ses .localCtx
/-- TXN.CMD BEGIN_HERD (R679). -/
def doTxnBeginHerd (w : Writer) (key : BitVec 16) (c : Chip) : Chip := c.txnVia w key fun i c => c.txnBegin i w.ses .herd
/-- TXN.CMD BEGIN_COORD (R679). -/
def doTxnBeginCoord (w : Writer) (key : BitVec 16) (c : Chip) : Chip :=
  c.txnVia w key fun i c => c.txnBegin i w.ses .coord

/-- COMMIT in mode `m` on context `n` of bank `i` (R80 to R82, R679). On a DOOMED context it frees the context with DOOMED also in MODE 3
and in AT_EVENT with TIMEOUT_US 0, which another line of R679 refuses (log entry 123, DESIGN CHOICE). -/
def Chip.txnCommit (c : Chip) (i m : Nat) : Chip :=
  match c.bankCtx i with
  | none => c.setRes i Res.state
  | some n =>
    let arg := c.rd (bank i R.TXN_EVT_ARG)
    let t := c.rd64 (bank i (R.TXN_T 0))
    match (c.ctx n).st with
    | .doomed => c.ctxEnd n Res.doomed
    | .opened =>
      match m with
      | 0 => (c.updCtx n fun x => { x with st := .armed, mode := .now, edgeFixed := true }).setRes i Res.none
      | 1 =>
        if fget arg F.TXN_EVT_ARG_TIMEOUT_US = 0 then c.setRes i Res.state
        else (c.updCtx n fun x => { x with
          st := .armed, mode := .atEvent, event := fget arg F.TXN_EVT_ARG_EVENT, edgeFixed := false }).setRes i Res.none
      | 2 =>
        if t * 2 ^ 48 < c.time.ht + 1000 * 2 ^ 48 then c.setRes i Res.lateT
        else (c.updCtx n fun x => { x with st := .armed, mode := .atHt, t := t, edgeFixed := false }).setRes i Res.none
      | _ => c.setRes i Res.state
    | _ => c.setRes i Res.state

/-- TXN.CMD COMMIT (R81). -/
def doTxnCommit (w : Writer) (key : BitVec 16) (mode : BitVec 2) (c : Chip) : Chip :=
  c.txnVia w key fun i c => c.txnCommit i mode.toNat

/-- ROLLBACK by bank `i` (R83, R89, R679): refused once the commit edge is fixed, and after a YES vote. A coordinator whose own H_COMMIT
came late is IN_DOUBT without a vote, so its ROLLBACK is accepted (log entry 124, DESIGN CHOICE). -/
def Chip.txnRollback (c : Chip) (i : Nat) : Chip :=
  match c.bankCtx i with
  | none => c.setRes i Res.state
  | some n =>
    let x := c.ctx n
    if x.st = .doomed then c.ctxEnd n Res.doomed
    else if x.voted = true ∨ (x.st = .armed ∧ x.edgeFixed = true) then c.setRes i Res.state
    else c.ctxEnd n Res.rolledBack

/-- TXN.CMD ROLLBACK (R83). -/
def doTxnRollback (w : Writer) (key : BitVec 16) (c : Chip) : Chip := c.txnVia w key fun i c => c.txnRollback i

/-- TXN.ABORT (R87). -/
def doTxnAbort (w : Writer) (key : BitVec 16) (n : Fin 16) (c : Chip) : Chip :=
  c.cmd R.TXN_ABORT w key fun c => c.ctxEnd n Res.aborted

/-- TIMEOUT_US elapses without the event (R82). -/
def doAtEventTimeout (n : Fin 16) (c : Chip) : Chip :=
  c.clocked P.TXN fun c =>
    let x := c.ctx n
    if x.st = .armed ∧ x.mode = .atEvent ∧ x.edgeFixed = false ∧ n.val ≠ 0 then c.ctxEnd n Res.timeout else c

/-- The contexts of initiator `i` at a twin restart (R85). -/
def Chip.txnTwinRestart (c : Chip) (i : Nat) : Chip :=
  match c.bankCtx i with
  | none => c
  | some n =>
    match (c.ctx n).st with
    | .opened => c.ctxEnd n Res.rolledBack
    | .doomed => c.ctxEnd n Res.doomed
    | _ => c

/-! ### Herd-wide commit (R88 to R94) -/

/-- The session under which a herd message goes to `dest` with a cast: the herd session for a broadcast, else the lowest
open session with that peer. -/
def Chip.sesTo (c : Chip) (cast dest : Nat) : Option Nat :=
  if cast ≠ 0 then some 0
  else
    some (((List.range 256).find? fun n => decide (n ≠ 0) && decide (c.f (Key.ses n 0x20C) F.SES_S_STAT_STATE = 1)
      && decide (c.f (Key.ses n 0x200) F.SES_S_CFG_PEER = dest)).getD 0)

/-- The cast and destination that a 15-bit destination field names (R452). -/
def destCast (d : Nat) : Nat × Nat := if d = 0x7FFF then (2, 0) else if d % 256 = 0xFF then (1, d) else (0, d)

/-- A herd message of `kind` goes from coordinator context `n` to HDEST (R459, R456). -/
def Chip.herdSend (c : Chip) (n kind vc : Nat) (ws : List Nat) : Chip :=
  let x := c.ctx n
  let (cast, dest) := destCast x.dest
  c.send kind vc cast dest (c.sesTo cast dest) (x.tag % 65536) (x.tag :: ws)

/-- Whether the present CK_SYS cycle is no later than the one that contains T − guard (R90), to the fraction of a nanosecond. -/
def Chip.inTime (c : Chip) (guardUs t : Nat) : Bool := decide (c.time.ht + 1000 * guardUs * 2 ^ 48 ≤ t * 2 ^ 48)

/-- The coordinator sends COMMIT_AT; its own COMMIT arrives as it is sent, so that R90 and R91 hold of its own context too: sent late,
it leaves the coordinator IN_DOUBT (log entry 124, DESIGN CHOICE). -/
def Chip.coordCommit (c : Chip) (n : Nat) : Chip :=
  let x := c.ctx n
  let c : Chip := c.herdSend n 0x13 2 (words64 x.t)
  if c.inTime x.guardUs x.t then
    c.updCtx n fun x => { x with st := .armed, mode := .atHt, edgeFixed := false, sent := true }
  else (c.updCtx n fun x => { x with st := .inDoubt, sent := true }).raise P.TXN 4

/-- The coordinator sends ABORT and its own context ends. -/
def Chip.coordAbort (c : Chip) (n : Nat) : Chip := (c.herdSend n 0x14 2 []).ctxEnd n Res.aborted

/-- The YES tally may have reached HEXPECT (R94, R96). A tally of 0 has reached a HEXPECT of 0 as PREPARE goes out (log entry 122,
DESIGN CHOICE). -/
def Chip.coordTally (c : Chip) (n : Nat) : Chip :=
  let x := c.ctx n
  if x.yes = x.expect then
    let c : Chip := c.raise P.TXN 5
    if x.auto && !x.sent && decide (x.no = 0) then c.coordCommit n else c
  else c

/-- The context of bank `i` opened by BEGIN_COORD, or the refusal of R679; one that is DOOMED is refused in the same way (log entry 123,
DESIGN CHOICE). -/
def Chip.withCoord (c : Chip) (i : Nat) (g : Nat → Chip → Chip) : Chip :=
  match c.bankCtx i with
  | some n => if (c.ctx n).kind = .coord ∧ (c.ctx n).st ≠ .doomed then g n c else c.setRes i Res.state
  | none => c.setRes i Res.state

/-- Context `n` takes its herd parameters from bank `i` (R95). -/
def Chip.coordLoad (c : Chip) (i n : Nat) : Chip :=
  let hp := c.rd (bank i R.TXN_HPARM)
  let hd := c.rd (bank i R.TXN_HDEST)
  c.updCtx n fun x => { x with
    tag := c.rdN (bank i R.TXN_HTAG), t := c.rd64 (bank i (R.TXN_T 0)), guardUs := fget hp F.TXN_HPARM_GUARD_US,
    timeoutMs := fget hp F.TXN_HPARM_TIMEOUT_MS, auto := decide (fget hd F.TXN_HDEST_AUTO = 1),
    dest := fget hd F.TXN_HDEST_DEST, expect := c.f (bank i R.TXN_HEXPECT) F.TXN_HEXPECT_COUNT }

/-- PREPARE goes out from coordinator context `n` with its tallies at zero (R88). -/
def Chip.coordPrepare (c : Chip) (n : Nat) : Chip :=
  let c : Chip := c.updCtx n fun x => { x with st := .coordinating, yes := 0, no := 0, sent := false }
  let x := c.ctx n
  c.herdSend n 0x22 4 (words64 x.t ++ [x.guardUs, x.timeoutMs])

/-- TXN.CMD H_PREPARE (R88). -/
def doTxnHPrepare (w : Writer) (key : BitVec 16) (c : Chip) : Chip :=
  c.txnVia w key fun i c => c.withCoord i fun n c =>
    (((c.coordLoad i n).coordPrepare n).wrN (bank i R.TXN_HTALLY) 0).coordTally n

/-- TXN.CMD H_COMMIT (R90). -/
def doTxnHCommit (w : Writer) (key : BitVec 16) (c : Chip) : Chip :=
  c.txnVia w key fun i c => c.withCoord i fun n c => (c.coordLoad i n).coordCommit n

/-- TXN.CMD H_ABORT (R93). -/
def doTxnHAbort (w : Writer) (key : BitVec 16) (c : Chip) : Chip :=
  c.txnVia w key fun i c => c.withCoord i fun n c => (c.coordLoad i n).coordAbort n

/-- TXN.CMD H_RESOLVE (R92, R459): COMMIT_AT with T2, or ABORT where T2 is zero (log entry 30, DESIGN CHOICE). -/
def doTxnHResolve (w : Writer) (key : BitVec 16) (c : Chip) : Chip :=
  c.txnVia w key fun i c => c.withCoord i fun n c =>
    let t2 := c.rd64 (bank i (R.TXN_T 0))
    let d := c.f (bank i R.TXN_HDEST) F.TXN_HDEST_DEST
    let (cast, dest) := destCast d
    let tag := (c.ctx n).tag
    c.send 0x15 2 cast dest (c.sesTo cast dest) (tag % 65536) ([tag] ++ words64 t2 ++ [if t2 = 0 then 2 ^ 31 else 0])

/-- The herd context with `tag` in a state for which `q` holds. -/
def Chip.herdCtx (c : Chip) (tag : Nat) (q : CtxState → Bool) : Option Nat :=
  c.findCtx fun x => decide (x.kind = .herd) && decide (x.tag = tag) && q x.st

/-- A VOTE goes back to the coordinator as the PREPARE came (R88, R459). -/
def Chip.vote (c : Chip) (p : Packet) (yes : Bool) (cause : Nat) : Chip :=
  c.send 0x23 3 0 p.src.toNat (if p.enc then some p.ses.toNat else none) p.tag.toNat
    [p.w 0, b2n yes * 2 ^ 31 + cause % 256]

/-- The context with `tag` that a NO vote rolls back: the open one, else one that is DOOMED or armed with its edge not yet fixed. One that
has voted YES, or whose edge is fixed, ends as R83 and R89 to R92 say (log entry 62, DEDUCED). -/
def Chip.noVoteCtx (c : Chip) (tag : Nat) : Option Nat :=
  match c.herdCtx tag fun s => decide (s = .opened) with
  | some n => some n
  | none => c.findCtx fun x => decide (x.kind = .herd) && decide (x.tag = tag) && !x.voted
      && (decide (x.st = .doomed) || (decide (x.st = .armed) && !x.edgeFixed))

/-- A NO vote: the context with the tag rolls back with VOTED_NO (R88). The codes of the NO causes are not stated: a free value (log
entry 2, DESIGN CHOICE). -/
def Chip.voteNo (c : Chip) (p : Packet) : Chip :=
  let (f, c) := c.freeW
  let c : Chip := c.vote p false f.toNat
  match c.noVoteCtx (p.w 0) with
  | some n => c.ctxEnd n Res.votedNo
  | none => c

/-- PREPARE at a participant (R88, R89). `locked` tells whether a page is locked. -/
def Chip.prepareRx (c : Chip) (p : Packet) (locked : Nat → Bool) : Chip :=
  let t := p.w64 1
  let g := p.w 3
  let ok := decide (2 ≤ g) && decide (c.time.ht + (1000 + 1000 * g) * 2 ^ 48 ≤ t * 2 ^ 48)
  match c.herdCtx (p.w 0) fun s => decide (s = .opened) with
  | some n =>
    if ok && !(c.ctx n).entries.any (fun e => locked (pageBase e.1)) then
      (c.updCtx n fun x => { x with
        st := .prepared, t := t, guardUs := g, timeoutMs := p.w 4, coordId := p.src.toNat, voted := true }).vote p true 0
    else c.voteNo p
  | none => c.voteNo p

/-- COMMIT_AT at a participant (R90, R91). -/
def Chip.commitAtRx (c : Chip) (p : Packet) : Chip :=
  match c.herdCtx (p.w 0) fun s => decide (s = .prepared) with
  | some n =>
    let t := p.w64 1
    if c.inTime (c.ctx n).guardUs t then
      c.updCtx n fun x => { x with st := .armed, mode := .atHt, t := t, edgeFixed := false }
    else c
  | none => c

/-- ABORT at a participant (R93). -/
def Chip.abortRx (c : Chip) (p : Packet) : Chip :=
  match c.herdCtx (p.w 0) fun s => decide (s = .prepared) with
  | some n => if c.htNs + 1000 * (c.ctx n).guardUs < (c.ctx n).t then c.ctxEnd n Res.aborted else c
  | none => c

/-- RESOLVE at a participant (R92). -/
def Chip.resolveRx (c : Chip) (p : Packet) : Chip :=
  match c.herdCtx (p.w 0) fun s => decide (s = .inDoubt) with
  | some n =>
    if nbit (p.w 3) 31 then c.ctxEnd n Res.missed
    else
      let t := p.w64 1
      if c.inTime (c.ctx n).guardUs t then
        c.updCtx n fun x => { x with st := .armed, mode := .atHt, t := t, late := true, edgeFixed := false }
      else c
  | none => c

/-- A VOTE at the coordinator (R94): counted in HTALLY as long as its context has a PREPARE out, COMMIT_AT sent or not (R95). -/
def Chip.voteRx (c : Chip) (p : Packet) : Chip :=
  match c.findCtx fun x => decide (x.kind = .coord) && decide (x.tag = p.w 0)
      && (decide (x.st = .coordinating) || x.sent) with
  | some n =>
    let yes := nbit (p.w 1) 31
    let c : Chip := c.updCtx n fun x => if yes then { x with yes := x.yes + 1 } else { x with no := x.no + 1 }
    let x := c.ctx n
    let c : Chip := if x.ini = 0 then c
      else c.wrN (bank x.ini R.TXN_HTALLY) (min x.no 0x7FFF * 2 ^ 16 + min x.yes 0x7FFF)
    if yes then c.coordTally n
    else if x.auto && !x.sent && decide (x.no = 1) then c.coordAbort n
    else c
  | none => c

/-- T − guard passes without COMMIT_AT or ABORT (R91). -/
def doGuardExpiry (n : Fin 16) (c : Chip) : Chip :=
  c.clocked P.TXN fun c =>
    let x := c.ctx n
    if x.st = .prepared ∧ n.val ≠ 0 then
      ((c.switchMissed x).updCtx n fun x => { x with st := .inDoubt }).raise P.TXN 4
    else c

/-- The in-doubt timeout expires (R92). -/
def doInDoubtTimeout (n : Fin 16) (c : Chip) : Chip :=
  c.clocked P.TXN fun c => if (c.ctx n).st = .inDoubt ∧ n.val ≠ 0 then c.ctxEnd n Res.missed else c

/-- T − 2 × guard with the tally short (R94). -/
def doAutoAbortDeadline (n : Fin 16) (c : Chip) : Chip :=
  c.clocked P.TXN fun c =>
    let x := c.ctx n
    if x.st = .coordinating ∧ x.auto = true ∧ x.sent = false ∧ x.yes < x.expect ∧ n.val ≠ 0 then c.coordAbort n else c

/-! ### The commands -/

/-- TXN_BEGIN (R679). -/
def execTxnBegin (w : Writer) (key : BitVec 16) (s : State) : Host.Outcome State Fault Refusal :=
  .next (s.onChip (doTxnBegin w key))
/-- TXN_BEGIN_HERD (R679). -/
def execTxnBeginHerd (w : Writer) (key : BitVec 16) (s : State) : Host.Outcome State Fault Refusal :=
  .next (s.onChip (doTxnBeginHerd w key))
/-- TXN_BEGIN_COORD (R679). -/
def execTxnBeginCoord (w : Writer) (key : BitVec 16) (s : State) : Host.Outcome State Fault Refusal :=
  .next (s.onChip (doTxnBeginCoord w key))
/-- TXN_COMMIT (R81). -/
def execTxnCommit (w : Writer) (key : BitVec 16) (mode : BitVec 2) (s : State) : Host.Outcome State Fault Refusal :=
  .next (s.onChip (doTxnCommit w key mode))
/-- TXN_ROLLBACK (R83). -/
def execTxnRollback (w : Writer) (key : BitVec 16) (s : State) : Host.Outcome State Fault Refusal :=
  .next (s.onChip (doTxnRollback w key))
/-- TXN_ABORT (R87). -/
def execTxnAbort (w : Writer) (key : BitVec 16) (n : Fin 16) (s : State) : Host.Outcome State Fault Refusal :=
  .next (s.onChip (doTxnAbort w key n))
/-- AT_EVENT_TIMEOUT (R82). -/
def execAtEventTimeout (n : Fin 16) (s : State) : Host.Outcome State Fault Refusal :=
  .next (s.onChip (doAtEventTimeout n))
/-- TXN_H_PREPARE (R88). -/
def execTxnHPrepare (w : Writer) (key : BitVec 16) (s : State) : Host.Outcome State Fault Refusal :=
  .next (s.onChip (doTxnHPrepare w key))
/-- TXN_H_COMMIT (R90). -/
def execTxnHCommit (w : Writer) (key : BitVec 16) (s : State) : Host.Outcome State Fault Refusal :=
  .next (s.onChip (doTxnHCommit w key))
/-- TXN_H_ABORT (R93). -/
def execTxnHAbort (w : Writer) (key : BitVec 16) (s : State) : Host.Outcome State Fault Refusal :=
  .next (s.onChip (doTxnHAbort w key))
/-- TXN_H_RESOLVE (R92). -/
def execTxnHResolve (w : Writer) (key : BitVec 16) (s : State) : Host.Outcome State Fault Refusal :=
  .next (s.onChip (doTxnHResolve w key))
/-- GUARD_EXPIRY (R91). -/
def execGuardExpiry (n : Fin 16) (s : State) : Host.Outcome State Fault Refusal :=
  .next (s.onChip (doGuardExpiry n))
/-- IN_DOUBT_TIMEOUT (R92). -/
def execInDoubtTimeout (n : Fin 16) (s : State) : Host.Outcome State Fault Refusal :=
  .next (s.onChip (doInDoubtTimeout n))
/-- AUTO_ABORT_DEADLINE (R94). -/
def execAutoAbortDeadline (n : Fin 16) (s : State) : Host.Outcome State Fault Refusal :=
  .next (s.onChip (doAutoAbortDeadline n))

end Sys2Proof.Machine
end

