-- ==== Sys2Proof/Machine/FabCore.lean ====
section
/-!
DEFINITION. The network layer (*Trotum Fabric and the Herd*): kinds and their checks (R456, R487), discards (R472),
protection of packets (R485 to R488), routing by the tables (R471 to R474), TREE cast (R467), admission at injection
(R475), and the packets that wait for a lane (R476).
-/
namespace Sys2Proof.Machine
open Sys2Proof

/-! ### State -/

/-- A change of the fabric state. -/
def Chip.updFab (c : Chip) (g : FabSt → FabSt) : Chip := { c with fab := g c.fab }
/-- Lane `n`. -/
def Chip.lane (c : Chip) (n : Nat) : LaneSt := nth c.lanes n {}
/-- A change of lane `n`. -/
def Chip.updLane (c : Chip) (n : Nat) (g : LaneSt → LaneSt) : Chip := { c with lanes := upd c.lanes n g }
/-- The state code of lane `n` (R418). -/
def Chip.laneState (c : Chip) (n : Nat) : Nat := c.f (R.LANE_STAT n) F.LANE_STAT_STATE
/-- Whether lane `n` is ACTIVE. -/
def Chip.laneUp (c : Chip) (n : Nat) : Bool := decide (c.laneState n = 5)
/-- The plane of lane `n` (0 A, 1 B). -/
def planeOf (n : Nat) : Nat := n / 4
/-- The lanes of plane `p`. -/
def lanesOf (p : Nat) : List Nat := (List.range 4).map (4 * p + ·)
/-- Whether plane `p` is enabled. -/
def Chip.planeOn (c : Chip) (p : Nat) : Bool := c.is R.FAB_CTL (if p = 0 then F.FAB_CTL_EN_A else F.FAB_CTL_EN_B)
/-- The level of this device on plane `p`; none where it has none (R462). -/
def Chip.plevel (c : Chip) (p : Nat) : Option Nat :=
  let l := c.f R.MUS_STAT (if p = 0 then F.MUS_STAT_LEVEL_A else F.MUS_STAT_LEVEL_B)
  if l = 0xFF then none else some l
/-- The parent lane on plane `p`. -/
def Chip.parent (c : Chip) (p : Nat) : Nat :=
  4 * p + c.f R.MUS_STAT (if p = 0 then F.MUS_STAT_PARENT_A else F.MUS_STAT_PARENT_B)
/-- This device's ID. -/
def Chip.myId (c : Chip) : Nat := c.f R.FAB_ID F.FAB_ID_ID
/-- The lanes to children on plane `p` (R474, R480): ACTIVE lanes whose partner announces a level above ours, the parent
lane left out (log entry 31, DEDUCED). -/
def Chip.children (c : Chip) (p : Nat) : List Nat :=
  (lanesOf p).filter fun n =>
    c.laneUp n && (decide (n ≠ c.parent p) || decide (c.plevel p = some 0)) &&
      match c.plevel p, (c.lane n).ann with
      | some l, some a => decide (l < a.level)
      | _, _ => false

/-! ### Discards (R472) -/

namespace Dc
def noRoute : Nat := 1
def hopLimit : Nat := 2
def scope : Nat := 3
def auth : Nat := 4
def rights : Nat := 5
def planeDown : Nat := 6
def closed : Nat := 7
def crc : Nat := 8
end Dc

/-- A packet is discarded with a cause (R472): reported, and for VC 4 an UNDELIV with its tag goes to the source. -/
def Chip.dropPkt (c : Chip) (p : Packet) (cause : Nat) : Chip :=
  let c : Chip := c.wrN R.FAB_DROP_INFO
    (p.kind.toNat * 2 ^ 24 + p.vc.toNat * 2 ^ 21 + cause * 2 ^ 16 + p.dest.toNat)
  let c : Chip := (c.incSat R.FAB_CNT_0 F.FAB_CNT_0_DROPS).raise P.FAB 2
  if p.vc = 4#3 ∧ cause ≠ Dc.crc then c.send 0x3F 3 0 p.src.toNat none p.tag.toNat [] else c

/-! ### Kinds (R456) and rights (R487) -/

/-- The session use of a kind. -/
inductive SesUse where
  | zeroOrNone | muster | any | zeroOrAny | never | asAuth
  deriving DecidableEq, Repr

/-- The row of a kind: virtual channel, casts (0 unicast or link-local, 1 region, 2 herd, 3 TREE), session use. -/
def kindRow (kind : Nat) : Option (Nat × List Nat × SesUse) :=
  match kind with
  | 0x01 | 0x02 | 0x03 => some (0, [0], .zeroOrNone)
  | 0x04 => some (2, [0], .muster)
  | 0x08 => some (1, [0, 2], .asAuth)
  | 0x10 => some (2, [0, 1, 2], .zeroOrNone)
  | 0x11 | 0x12 => some (2, [0], .any)
  | 0x13 | 0x14 | 0x15 => some (2, [0, 1, 2], .any)
  | 0x16 | 0x17 | 0x18 => some (2, [0], .zeroOrAny)
  | 0x20 => some (4, [0, 3], .any)
  | 0x21 => some (3, [0, 3], .any)
  | 0x22 => some (4, [0, 1, 2], .any)
  | 0x23 => some (3, [0], .any)
  | 0x24 => some (4, [0], .any)
  | 0x28 => some (4, [3], .muster)
  | 0x29 => some (3, [3], .muster)
  | 0x2A => some (4, [3], .muster)
  | 0x2B => some (3, [3], .muster)
  | 0x30 | 0x31 | 0x32 => some (5, [0], .never)
  | 0x38 => some (5, [0], .any)
  | 0x39 => some (4, [0], .any)
  | 0x3A => some (3, [0], .any)
  | 0x3F => some (3, [0], .never)
  | _ => none

/-- Whether a packet's kind, VC, cast and session use agree with R456. -/
def Chip.kindOk (c : Chip) (p : Packet) : Bool :=
  let auth := c.is R.FAB_CTL F.FAB_CTL_HERD_AUTH
  match kindRow p.kind.toNat with
  | none => false
  | some (vc, casts, use) =>
    decide (p.vc.toNat = vc) && casts.contains p.cast.toNat && decide (p.words.length ≤ 64) &&
      match use with
      | .zeroOrNone => if p.enc then decide (p.ses = 0#8) else !auth
      | .muster => if p.enc then decide (p.ses = 0#8) else !auth || c.is R.FAB_CTL F.FAB_CTL_OPEN_MUSTER
      | .any => p.enc
      | .zeroOrAny => p.enc || !auth
      | .never => !p.enc
      | .asAuth => if auth then p.enc && decide (p.ses = 0#8) else !p.enc

/-- Whether session `n` is OPEN. -/
def Chip.sesOpen (c : Chip) (n : Nat) : Bool := decide (c.f (Key.ses n 0x20C) F.SES_S_STAT_STATE = 1)

/-- Whether a packet's session allows it: OPEN, and its SRC the peer (any for session 0) (R486). -/
def Chip.sesPeerOk (c : Chip) (p : Packet) : Bool :=
  !p.enc || (c.sesOpen p.ses.toNat
    && (decide (p.ses = 0#8) || decide (c.f (Key.ses p.ses.toNat 0x200) F.SES_S_CFG_PEER = p.src.toNat)))

/-- Whether the packet's session grants right `x` (R487). -/
def Chip.right (c : Chip) (p : Packet) (x : Fld) : Bool := p.enc && c.is (Key.ses p.ses.toNat 0x204) x

/-- The right that a kind requires, beside the register rights of REG_REQ. -/
def kindRight (kind : Nat) : Option Fld :=
  match kind with
  | 0x11 => some F.SES_S_RIGHTS_GATE
  | 0x13 | 0x14 | 0x15 | 0x22 | 0x23 => some F.SES_S_RIGHTS_TXN
  | 0x24 => some F.SES_S_RIGHTS_RST
  | _ => none

/-- A packet at its consumer: discarded with SCOPE, AUTH or RIGHTS where R456, R486 or R487 ask for it, else taken by `g`. The
probe kinds need the IMP right where a session other than the herd's carries them. -/
def Chip.admitted (c : Chip) (p : Packet) : Option Nat :=
  if !c.kindOk p then some Dc.scope
  else if !c.sesPeerOk p then some Dc.auth
  else match kindRight p.kind.toNat with
    | some x => if c.right p x then none else some Dc.rights
    | none =>
      if 0x16 ≤ p.kind.toNat ∧ p.kind.toNat ≤ 0x18 ∧ p.enc ∧ p.ses ≠ 0#8 ∧ ¬ c.right p F.SES_S_RIGHTS_IMP then some Dc.rights
      else none

/-- `g` takes the packet where it is admitted; otherwise it is discarded. -/
def Chip.consume (c : Chip) (p : Packet) (g : Chip → Chip) : Chip :=
  c.via fun c => match c.admitted p with | some x => c.dropPkt p x | none => g c

/-! ### Protection (R485, R486, R488) -/

/-- The nonce of a packet: SRC, the session's salt and the sequence number. -/
def nonceOf (src salt seq : Nat) : Nat := src * 2 ^ 80 + salt * 2 ^ 64 + seq

/-- The words of a key (offset `o` in the session). -/
def Chip.sesKey (c : Chip) (n o : Nat) : List Word := (List.range 8).map fun i => c.rd (Key.ses n (o + 4 * i))

/-- Words combined with the key stream. -/
def gcmXor (key : List Word) (nonce : Nat) (ws : List Word) : List Word :=
  (List.range ws.length).map fun i => nth ws i 0#32 ^^^ Config.gcmStream key nonce i

/-- The tag as four words, low word first. -/
def tagWords (t : BitVec 128) : List Word := (List.range 4).map fun i => BitVec.ofNat 32 (t.toNat / 2 ^ (32 * i))

/-- Packet `p` protected under its session with its next sequence number (R485), or REKEY where that is 2^48 (R488). -/
def Chip.protect (c : Chip) (p : Packet) : Option Packet × Chip :=
  let n := p.ses.toNat
  let last := c.rd64 (Key.ses n 0x210)
  if n ≠ 0 ∧ 2 ^ 48 ≤ last then (none, c.flag (Key.ses n 0x20C) F.SES_S_STAT_REKEY true)
  else
    let seq := if n = 0 then c.htNs else last + 1
    let key := c.sesKey n 0x220
    let nonce := nonceOf p.src.toNat (c.f (Key.ses n 0x260) F.SES_S_SALT_TX) seq
    let ct := gcmXor key nonce p.body
    let frame := fun (t : List Word) => p.withBody ((words64 seq).map wd ++ ct ++ t)
    let shape := frame (List.replicate 4 0#32)
    let q := frame (tagWords (Config.gcmTag key nonce shape.aad ct))
    let c : Chip := c.wr64 (Key.ses n 0x210) seq
    (some q, if n ≠ 0 ∧ seq = 2 ^ 48 then c.flag (Key.ses n 0x20C) F.SES_S_STAT_REKEY true else c)

/-- The freshness test of R486 for sequence number `seq` of session `n`. -/
def Chip.fresh (c : Chip) (n seq : Nat) : Bool :=
  if n = 0 then
    decide (((seq : Int) - (c.htNs : Int)).natAbs ≤ c.f R.SES_S0_FRESH F.SES_S0_FRESH_MS * 10 ^ 6)
  else
    let top := c.rd64 (Key.ses n 0x218)
    let win := SMap.get (fun _ => 0) c.fab.win n
    decide (top < seq) || (decide (top < seq + 64) && !nbit win (top - seq))

/-- Sequence number `seq` of session `n` is taken: the highest accepted and the window of 64 follow. -/
def Chip.seqTaken (c : Chip) (n seq : Nat) : Chip :=
  let top := c.rd64 (Key.ses n 0x218)
  let win := SMap.get (fun _ => 0) c.fab.win n
  let w := if top < seq then (win * 2 ^ (seq - top) + 1) % 2 ^ 64 else win ||| 2 ^ (top - seq)
  let c : Chip := if top < seq then c.wr64 (Key.ses n 0x218) seq else c
  if n = 0 then c else c.updFab fun f => { f with win := f.win.put (fun _ => 0) n w }

/-- A failure of R486 is counted in the session and raises AUTH_FAIL; the packet is discarded with AUTH. -/
def Chip.authFail (c : Chip) (p : Packet) (x : Fld) : Chip :=
  ((c.incSat (Key.ses p.ses.toNat 0x264) x).raise P.SES 2).dropPkt p Dc.auth

/-- A protected packet at its destination (R486): its plain form, or its discard. -/
def Chip.unprotect (c : Chip) (p : Packet) : Option Packet × Chip :=
  if !p.enc then (some p, c)
  else if !c.sesPeerOk p then (none, c.authFail p F.SES_S_CNT_AUTH_FAIL)
  else
    let n := p.ses.toNat
    let body := p.body
    let seq := (nth body 0 0#32).toNat + 2 ^ 32 * (nth body 1 0#32).toNat
    let ct := (body.drop 2).take (body.length - 6)
    let key := c.sesKey n 0x240
    let nonce := nonceOf p.src.toNat (c.f (Key.ses n 0x260) F.SES_S_SALT_RX) seq
    if body.length < 6 ∨ body.drop (body.length - 4) ≠ tagWords (Config.gcmTag key nonce p.aad ct) then
      (none, c.authFail p F.SES_S_CNT_AUTH_FAIL)
    else if !c.fresh n seq then (none, c.authFail p F.SES_S_CNT_REPLAY)
    else (some (p.withBody (gcmXor key nonce ct)), c.seqTaken n seq)

/-! ### Routes (R471 to R475) -/

/-- The active bank of plane `p`. -/
def Chip.bankOf (c : Chip) (p : Nat) : Nat := c.f R.FAB_CTL (if p = 0 then F.FAB_CTL_RBANK_A else F.FAB_CTL_RBANK_B)

/-- Direction of lane `n` of a plane in its active bank: 0 UP, 1 DOWN, 2 UNUSED. -/
def Chip.laneDir (c : Chip) (n : Nat) : Nat :=
  c.f (Key.route (planeOf n) (c.bankOf (planeOf n)) 0xE00) ⟨2 * (n % 4) + 1, 2 * (n % 4)⟩

/-- The route entry of destination `d` on plane `p` (R471). -/
def Chip.routeEntry (c : Chip) (p d : Nat) : Word :=
  c.rd (Key.route p (c.bankOf p) (if d / 256 = c.myId / 256 then 0xA00 + 4 * (d % 256) else 0x800 + 4 * (d / 256)))

/-- Where a packet goes next. -/
inductive NextHop where
  | here | out (lane : Nat) | nowhere
  deriving DecidableEq, Repr

/-- The next hop of destination `d` on plane `p` (R471, R472): the primary, or the alternate where the primary's lane is not
ACTIVE. -/
def Chip.hop (c : Chip) (p d : Nat) (dn : Bool) : NextHop :=
  let e := c.routeEntry p d
  let prim := fget e (if dn then F.FAB_RT_R_P_DN else F.FAB_RT_R_P_UP)
  let alt := fget e (if dn then F.FAB_RT_R_A_DN else F.FAB_RT_R_A_UP)
  if fget e F.FAB_RT_R_VALID = 0 then .nowhere
  else if prim = 4 then .here
  else if prim < 4 then
    if c.laneUp (4 * p + prim) then .out (4 * p + prim)
    else if alt = 4 then .here
    else if alt < 4 ∧ c.laneUp (4 * p + alt) then .out (4 * p + alt)
    else .nowhere
  else .nowhere

/-- A packet joins those that wait for lane `n`, with the lane it came in on; a publication goes ahead of every other CTRL
packet (R483). -/
def Chip.enqueue (c : Chip) (n : Nat) (inL : Option Nat) (p : Packet) : Chip :=
  c.updLane n fun l =>
    let pub := fun (x : Option Nat × Packet) => x.2.kind = 0x10#8 && decide (x.2.src.toNat = c.myId)
    if pub (inL, p) then
      { l with vq := l.vq.filter pub ++ [(inL, p)] ++ l.vq.filter fun x => !pub x }
    else { l with vq := l.vq ++ [(inL, p)] }

/-- The buffer of a VC for each input lane (R475's table). -/
def vcBuf : List Nat := [2, 4, 8, 16, 16, 16]

/-- A packet has left the input buffer of its lane: its credit goes back to the partner (R476). -/
def Chip.giveBack (c : Chip) (inL : Option Nat) (vc : Nat) : Chip :=
  match inL with
  | some n => c.updLane n fun l => { l with freed := upd l.freed vc (· + 1) }
  | none => c

/-- A copy of `p` goes toward lane `n`: HOPS counts a forwarding (R455). -/
def Chip.toward (c : Chip) (n : Nat) (inL : Option Nat) (p : Packet) : Chip :=
  c.enqueue n inL { p with hops := if inL.isSome then p.hops + 1 else p.hops }

/-- A packet on plane `pl` is delivered here. -/
def Chip.deliverHere (c : Chip) (pl : Nat) (inL : Option Nat) (p : Packet) : Chip :=
  c.updFab fun f => { f with inbox := f.inbox ++ [(pl, inL, p)] }

/-- Whether plane `p` forwards transit packets (R470, R495). -/
def Chip.forwards (c : Chip) (p : Nat) : Bool :=
  c.is R.FAB_CTL (if p = 0 then F.FAB_CTL_FWD_A else F.FAB_CTL_FWD_B) && !c.fab.stopped

/-- Whether a transit packet may go on: the cause that stops it (R455, R470). -/
def Chip.transitBar (c : Chip) (pl : Nat) (inL : Option Nat) (p : Packet) : Option Nat :=
  if inL.isNone then none
  else if p.hops = p.hopLimit then some Dc.hopLimit
  else if !c.forwards pl then some Dc.planeDown
  else none

/-- A packet that leaves this device toward the lanes `ls`, or is discarded. -/
def Chip.forwardTo (c : Chip) (pl : Nat) (inL : Option Nat) (p : Packet) (ls : List Nat) : Chip :=
  match c.transitBar pl inL p with
  | some x => (c.dropPkt p x).giveBack inL p.vc.toNat
  | none =>
    match ls with
    | [] => c.giveBack inL p.vc.toNat
    | n :: r => r.foldl (fun c n => c.toward n none { p with hops := if inL.isSome then p.hops + 1 else p.hops })
        (c.toward n inL p)

/-- A unicast packet on plane `pl` (R471, R472). -/
def Chip.unicast (c : Chip) (pl : Nat) (inL : Option Nat) (p : Packet) : Chip :=
  match c.hop pl p.dest.toNat p.dn with
  | .here => c.deliverHere pl inL p
  | .out n => c.forwardTo pl inL p [n]
  | .nowhere =>
    let x := if inL.isSome && decide (p.hops = p.hopLimit) then Dc.hopLimit else Dc.noRoute
    (c.dropPkt p x).giveBack inL p.vc.toNat

/-- A region or herd broadcast on plane `pl` (R474): up the tree to the root, then down, delivered where the device lies in
scope. -/
def Chip.broadcast (c : Chip) (pl : Nat) (inL : Option Nat) (p : Packet) : Chip :=
  match c.plevel pl with
  | none => (c.dropPkt p Dc.noRoute).giveBack inL p.vc.toNat
  | some l =>
    let herd := decide (p.cast = 2#2)
    if !p.dn && decide (l ≠ 0) then
      if c.laneUp (c.parent pl) then c.forwardTo pl inL p [c.parent pl]
      else (c.dropPkt p Dc.noRoute).giveBack inL p.vc.toNat
    else if herd && p.dn && decide (inL ≠ some (c.parent pl)) then c.giveBack inL p.vc.toNat
    else
      let scope := herd || decide (p.dest.toNat / 256 = c.myId / 256)
      let c : Chip := if scope then c.deliverHere pl none p else c
      let mask := fget (c.routeEntry pl (if p.dest.toNat / 256 = c.myId / 256 then c.myId else p.dest.toNat)) F.FAB_RT_R_BCMASK
      let ls := if herd then c.children pl else (lanesOf pl).filter fun n => nbit mask (n % 4) && c.laneUp n
      c.forwardTo pl inL { p with dn := true } ls

/-- Entry `k` of a route record becomes lane `x` of the plane (R467). -/
def recPut (r k x : Nat) : Nat := r - r / 4 ^ k % 4 * 4 ^ k + x % 4 * 4 ^ k

/-- A TREE-cast packet on plane `pl` (R467): the record in words 0 and 1, direction and target level in word 2. -/
def Chip.treeCast (c : Chip) (pl : Nat) (inL : Option Nat) (p : Packet) : Chip :=
  match c.plevel pl with
  | none => (c.dropPkt p Dc.noRoute).giveBack inL p.vc.toNat
  | some k =>
    let r := p.w64 0
    let go := fun (c : Chip) (n : Nat) (q : Packet) =>
      if c.laneUp n then c.forwardTo pl inL q [n] else (c.dropPkt p Dc.noRoute).giveBack inL p.vc.toNat
    if !nbit (p.w 2) 1 then
      let q := match inL with
        | some x => { p with words := (words64 (recPut r k x)).map wd ++ p.words.drop 2 }
        | none => p
      if k = 0 then c.deliverHere pl inL q else go c (c.parent pl) q
    else
      let target := p.w 2 / 256 % 256
      if k = target then c.deliverHere pl inL p
      else if k < target then go c (4 * pl + r / 4 ^ k % 4) p
      else (c.dropPkt p Dc.noRoute).giveBack inL p.vc.toNat

/-- A packet on plane `pl` goes its way by its cast; a device too deep does not route on the plane (R451; the cause is DEDUCED, log entry
143). -/
def Chip.routePkt (c : Chip) (pl : Nat) (inL : Option Nat) (p : Packet) : Chip :=
  if !c.planeOn pl || nth c.fab.deep pl false then (c.dropPkt p Dc.planeDown).giveBack inL p.vc.toNat
  else match p.cast.toNat with
    | 0 => c.unicast pl inL p
    | 3 => c.treeCast pl inL p
    | _ => c.broadcast pl inL p

/-! ### Injection (R475, R478, R483) -/

/-- The planes a waiting packet goes out on: those named, or the first enabled plane that has a route. -/
def Chip.outPlanes (c : Chip) (o : OutPkt) : List Nat :=
  if o.planes = 0 then
    let ok := (List.range 2).filter c.planeOn
    match ok.find? fun p => decide (o.p.cast ≠ 0#2) || decide (c.hop p o.p.dest.toNat false ≠ .nowhere) with
    | some p => [p]
    | none => [match ok with | p :: _ => p | [] => 0]
  else (List.range 2).filter fun p => nbit o.planes p

/-- Whether the admission of its VC lets a packet of this device in now (R475), and the counts after it. -/
def Chip.admission (c : Chip) (o : OutPkt) (pls : List Nat) : Option Chip :=
  match o.p.vc.toNat with
  | 1 =>
    let ms := c.htNs / 10 ^ 6
    let used := fun p => let a := nth c.fab.safeAdm p (0, 0); if a.1 = ms then a.2 else 0
    if pls.all fun p => decide (used p < c.f R.FAB_ADM F.FAB_ADM_SAFE_MAX) then
      some (pls.foldl (fun c p => c.updFab fun f => { f with safeAdm := upd f.safeAdm p fun _ => (ms, used p + 1) }) c)
    else none
  | 2 =>
    if o.p.kind = 0x10#8 then some c
    else
      let w := c.htNs / 10 ^ 4
      let used := if c.fab.ctrlAdm.1 = w then c.fab.ctrlAdm.2 else 0
      if used < c.f R.FAB_ADM F.FAB_ADM_CTRL_TOK then some (c.updFab fun f => { f with ctrlAdm := (w, used + 1) }) else none
  | _ => some c

/-- One waiting packet: sent on its way, discarded where its session is not open, or left waiting. -/
def Chip.injectOne (c : Chip) (o : OutPkt) : Chip :=
  let keep := fun (c : Chip) => { c with out := c.out ++ [o] }
  if c.fab.stopped then keep c
  else
    let pls := match o.lane with | some _ => [] | none => c.outPlanes o
    match c.admission o pls with
    | none => keep c
    | some c =>
      if o.p.enc && !o.sealed && !c.sesOpen o.p.ses.toNat then c.dropPkt o.p Dc.closed
      else
        let (q, c) := if o.p.enc && !o.sealed then c.protect o.p else (some o.p, c)
        match q with
        | none => c.dropPkt o.p Dc.closed
        | some q =>
          if !c.kindOk q then c.dropPkt q Dc.scope
          else match o.lane with
          | some n => if c.laneUp n then c.enqueue n none q else c.dropPkt q Dc.noRoute
          | none => pls.foldl (fun c p => c.routePkt p none q) c

/-- The router takes the waiting packets in turn (log entry 32, DESIGN CHOICE). -/
def Chip.inject (c : Chip) : Chip := c.out.foldl Chip.injectOne { c with out := [] }

/-! ### Sending on a lane (R476, R477) -/

/-- The first packet of VC `v` that waits for lane `l`. -/
def LaneSt.head (l : LaneSt) (v : Nat) : Option (Option Nat × Packet) := l.vq.find? fun x => x.2.vc.toNat = v

/-- Whether AGE `a` is older than `b` in modulo 2^32 serial order. -/
def older (a b : Nat) : Bool := decide (a ≠ b) && decide ((b + 2 ^ 32 - a) % 2 ^ 32 < 2 ^ 31)

/-- The VC whose head goes next on lane `l` in microsecond `us` (R477): TIME (one packet per microsecond), SAFE, CTRL, then
the oldest head of RESP, REQ and BULK; each only with a credit. -/
def LaneSt.pick (l : LaneSt) (us : Nat) : Option Nat :=
  let can := fun v => (l.head v).isSome && decide (0 < nth l.cred v 0)
  if can 0 && decide (l.lastTime ≠ some us) then some 0
  else if can 1 then some 1
  else if can 2 then some 2
  else
    let age := fun v => match l.head v with | some x => x.2.age.toNat | none => 0
    ((List.range 3).map (3 + ·)).foldl (fun b v =>
      if !can v then b else match b with
        | none => some v
        | some u => if older (age v) (age u) then some v else some u) none

/-- The list without its first entry of VC `v`. -/
def dropHead (v : Nat) : List (Option Nat × Packet) → List (Option Nat × Packet)
  | [] => []
  | x :: r => if x.2.vc.toNat = v then r else x :: dropHead v r

/-- Lane `n` transmits the blocks of packet `p` (R416): header, payload and CRC. Where the link sequence number stands is open, and so is the
scrambler's register after the idle blocks before the packet (log entry 144, DESIGN CHOICE). -/
def Chip.lineSend (c : Chip) (n : Nat) (p : Packet) : Chip :=
  let (seqWord, c) := c.freeW
  let (r0, c) := c.freeW
  let (r1, c) := c.freeW
  let (bs, r) := lineBlocks ((r0 ++ r1).setWidth 58)
    (blockWords (p.header ++ p.words.map (·.toNat) ++ [packetCrc p, seqWord.toNat]))
  c.updLane n fun l => { l with line := l.line ++ bs, scr := r }

/-- Lane `n` transmits the packets `ps` in turn. -/
def Chip.transmit (c : Chip) (n : Nat) (ps : List Packet) : Chip :=
  ps.foldl (fun c p => c.lineSend n p) (c.updLane n fun l => { l with line := [] })

/-- Lane `n` sends: the packet takes the next link sequence number and stays in the retry buffer of 64 (R429, R430); DN is
set on a DOWN lane (R471). -/
def Chip.laneSend (c : Chip) (n : Nat) : Chip :=
  let l := c.lane n
  let down := decide (c.laneDir n = 1)
  if !c.laneUp n || decide (64 ≤ l.buf.length) then c
  else match l.pick (c.htNs / 1000) with
    | none => c
    | some v =>
      match l.head v with
      | none => c
      | some x =>
        let p : Packet := { x.2 with dn := x.2.dn || down }
        let c : Chip := c.updLane n fun l => { l with
          vq := dropHead v l.vq, buf := l.buf ++ [(l.seq, x.2.dn, p)], seq := (l.seq + 1) % 4096,
          cred := upd l.cred v (· - 1), lastTime := if v = 0 then some (c.htNs / 1000) else l.lastTime }
        (c.transmit n [p]).giveBack x.1 v

end Sys2Proof.Machine
end

