-- ==== Sys2Proof/Machine/Muster.lean ====
section
/-!
DEFINITION. The muster engine's own state (R450, R451, R460 to R470): ranks, the root, level and parent of each plane, the
phase, and the bellwether's map of the herd with its table transactions.
-/
namespace Sys2Proof.Machine
open Sys2Proof

/-! ### Ranks and roots -/

/-- This device's serial. -/
def Chip.serial (c : Chip) : Nat := c.rdN R.MUS_SERIAL_LO + 2 ^ 32 * c.f R.MUS_SERIAL_HI F.MUS_SERIAL_HI_SER

/-- This device's class (R460). -/
def Chip.musClass (c : Chip) : Nat :=
  let d := c.f R.HTM_CTL F.HTM_CTL_DISC_SRC
  if d = 2 ∨ d = 3 then
    if c.is R.HTM_STAT F.HTM_STAT_HOLDOVER then 2
    else if c.is R.HTM_STAT F.HTM_STAT_VALID then d - 2 else 0x10
  else 0x10

/-- This device's rank (R460). -/
def Chip.musRank (c : Chip) : Nat := c.f R.MUS_CFG F.MUS_CFG_PRIO * 2 ^ 56 + c.musClass * 2 ^ 48 + c.serial

/-- Whether root `a` is better than `b` (R462): PRIO and CLASS, then SEATED, then the serial. -/
def Root.better (a b : Root) : Bool :=
  decide (a.rank / 2 ^ 48 < b.rank / 2 ^ 48) ||
    (decide (a.rank / 2 ^ 48 = b.rank / 2 ^ 48) &&
      ((a.seated && !b.seated) || (a.seated == b.seated && decide (a.rank % 2 ^ 48 < b.rank % 2 ^ 48))))

/-- The better of a root and a possible one. -/
def Root.best (a : Option Root) (b : Root) : Option Root :=
  match a with
  | none => some b
  | some a => if b.better a then some b else some a

/-- Whether this device takes part in muster on plane `p`. -/
def Chip.joined (c : Chip) (p : Nat) : Bool := c.is R.MUS_CFG F.MUS_CFG_JOIN && c.planeOn p && !c.fab.left

/-- The root held on plane `p`. -/
def Chip.root (c : Chip) (p : Nat) : Option Root := nth c.fab.roots p none

/-- Whether this device announces itself as the root of plane `p`. -/
def Chip.rootClaim (c : Chip) (p : Nat) : Bool := nth c.fab.claim p false

/-- This device as a root of plane `p`. -/
def Chip.ownRoot (c : Chip) (p : Nat) : Root := ⟨c.musRank, c.myId, nth c.fab.seated p false⟩

/-- The announcements on the ACTIVE lanes of plane `p`, with their lanes. -/
def Chip.anns (c : Chip) (p : Nat) : List (Nat × Ann) :=
  (lanesOf p).filterMap fun n => if c.laneUp n then (c.lane n).ann.map fun a => (n, a) else none

/-- Whether announcement `a` is for root `r`. -/
def Ann.isFor (a : Ann) (r : Root) : Bool := decide (a.rank = r.rank) && decide (a.root = r.id)

/-- Of two announcements for a root, the one that makes the parent (R462): the lower level, then the lower partner ID, then
the lower lane. -/
def nearer (x y : Nat × Ann) : Nat × Ann :=
  if y.2.level < x.2.level ∨ (y.2.level = x.2.level ∧ y.2.id < x.2.id) then y else x

/-- The parent's announcement for root `r`. -/
def parentAnn (l : List (Nat × Ann)) (r : Root) : Option (Nat × Ann) :=
  match l.filter fun x => x.2.isFor r with
  | [] => none
  | x :: t => some (t.foldl nearer x)

/-- Level and parent of plane `p` are shown. -/
def Chip.setLevel (c : Chip) (p : Nat) (l : Nat) (par : Nat) : Chip :=
  (c.setF R.MUS_STAT (if p = 0 then F.MUS_STAT_LEVEL_A else F.MUS_STAT_LEVEL_B) l).setF R.MUS_STAT
    (if p = 0 then F.MUS_STAT_PARENT_A else F.MUS_STAT_PARENT_B) par

/-- Plane `p` takes root, level and parent from what it hears (R451, R461, R462). A root held that no lane announces stays,
with its level, until it is declared lost. -/
def Chip.electPlane (c : Chip) (p : Nat) : Chip :=
  if !c.joined p then
    (c.updFab fun f => { f with
      roots := upd f.roots p fun _ => none, claim := upd f.claim p fun _ => false,
      seated := upd f.seated p fun _ => false, deep := upd f.deep p fun _ => false }).setLevel p 0xFF 0
  else
    let l := c.anns p
    let own := c.rootClaim p
    let start := if own then some (c.ownRoot p) else c.root p
    let best := l.foldl (fun b x => Root.best b ⟨x.2.rank, x.2.root, x.2.seated⟩) start
    match best with
    | none => c.setLevel p 0xFF 0
    | some r =>
      if own && decide (r.rank = c.musRank) then
        (c.updFab fun f => { f with
          roots := upd f.roots p fun _ => some (c.ownRoot p), deep := upd f.deep p fun _ => false }).setLevel p 0 0
      else
        let seat := l.any fun x => x.2.isFor r && x.2.seated
        let heard := l.any fun x => x.2.isFor r
        let c : Chip := c.updFab fun f => { f with
          roots := upd f.roots p fun _ => some { r with seated := if heard then seat else r.seated },
          claim := upd f.claim p fun _ => false, seated := upd f.seated p fun _ => false }
        match parentAnn l r with
        | none => c
        | some (n, a) =>
          let deep := decide (32 ≤ a.level)
          (c.updFab fun f => { f with deep := upd f.deep p fun _ => deep }).setLevel p
            (if deep then 0xFF else a.level + 1) (n % 4)

/-- The bellwether as this device knows it: the better of the roots of the two planes. -/
def Chip.bellwether (c : Chip) : Option Root :=
  match c.root 0, c.root 1 with
  | some a, some b => Root.best (some a) b
  | some a, none => some a
  | none, b => b

/-- The phase of muster (R493; log entry 33, DEDUCED). -/
def Chip.musPhase (c : Chip) : Nat :=
  if c.fab.left then 5
  else if !c.joined 0 && !c.joined 1 then 0
  else if (c.plevel 0).isNone && (c.plevel 1).isNone then 1
  else if !c.is R.FAB_ID F.FAB_ID_VALID then 2
  else if !c.is R.FAB_STAT F.FAB_STAT_ROUTED_A && !c.is R.FAB_STAT F.FAB_STAT_ROUTED_B then 3
  else 4

/-- The phase is shown; reaching ROUTED or LEFT raises MUSTER_DONE. -/
def Chip.showPhase (c : Chip) : Chip :=
  let was := c.f R.MUS_STAT F.MUS_STAT_PHASE
  let now := c.musPhase
  (c.setF R.MUS_STAT F.MUS_STAT_PHASE now).raiseIf (decide (now ≠ was) && decide (4 ≤ now)) P.MUS 5

/-! ### The bellwether's map -/

/-- MEMBERS and the QUERY result follow the map. -/
def Chip.musShow (c : Chip) : Chip :=
  let c : Chip := c.wrN R.MUS_MEMBERS (c.fab.members.filter fun m => m.st = 1).length
  let q := c.f R.MUS_QUERY F.MUS_QUERY_ID
  match c.fab.members.find? fun m => m.id = q with
  | some m => (c.wrN R.MUS_QRES_LO m.serial).wrN R.MUS_QRES_HI (m.st * 2 ^ 30 + m.serial / 2 ^ 32)
  | none => (c.wrN R.MUS_QRES_LO 0).wrN R.MUS_QRES_HI 0

/-- The map becomes `l`. -/
def Chip.setMembers (c : Chip) (l : List Member) : Chip := (c.updFab fun f => { f with members := l }).musShow

/-- What this device reports of itself (R468): partner and state of each lane. -/
def Chip.myLanes (c : Chip) : List (Nat × Nat) :=
  (List.range 8).map fun n =>
    (c.f (R.LANE_PARTNER n) F.LANE_PARTNER_ID, if c.fab.leaving then 0xF else c.laneState n)

/-- Roots, levels, parents and phase follow what is heard (R460 to R464); BW_CHANGE where the bellwether changes. -/
def Chip.musFollow (c : Chip) : Chip :=
  let before := (c.rdN R.MUS_BW, c.rd64 (R.MUS_BW_RANK 0))
  let c : Chip := (c.electPlane 0).electPlane 1
  let c : Chip := c.flag R.MUS_STAT F.MUS_STAT_DEEP (c.fab.deep.any id)
  let now := match c.bellwether with | some r => (r.id, r.rank) | none => (0, 0)
  let c : Chip := (c.wrN R.MUS_BW now.1).wr64 (R.MUS_BW_RANK 0) now.2
  let isBw := match c.bellwether with
    | some r => decide (r.rank = c.musRank) && (c.rootClaim 0 || c.rootClaim 1)
    | none => false
  let c : Chip := (c.flag R.MUS_STAT F.MUS_STAT_IS_BW isBw).bellwetherIs isBw
  let c : Chip := if isBw then c else (c.updFab fun f => { f with members := [] }).musShow
  let c : Chip := c.raiseIf (decide (now ≠ before)) P.MUS 0
  c.showPhase

/-! ### Route tables by the bellwether (R469) -/

/-- The lane `n` of a plane as the DIR word of route bank `b` of plane `p` gives it: 0 UP, 1 DOWN, 2 UNUSED. -/
def Chip.dirOf (c : Chip) (p b n : Nat) : Nat := c.f (Key.route p b 0xE00) ⟨2 * n + 1, 2 * n⟩

/-- Whether entry `e` for the device's own member (`own`) or another keeps R473 under the directions `dir`. -/
def entryOk (dir : Nat → Nat) (own : Bool) (e : Word) : Bool :=
  let ports := [fget e F.FAB_RT_R_P_UP, fget e F.FAB_RT_R_A_UP, fget e F.FAB_RT_R_P_DN, fget e F.FAB_RT_R_A_DN]
  let downOk := fun x => decide (4 ≤ x) || decide (dir x = 1)
  decide (fget e F.FAB_RT_R_VALID = 0) ||
    (ports.all (fun x => decide (x ≤ 4) || decide (x = 7))
      && downOk (fget e F.FAB_RT_R_P_DN) && downOk (fget e F.FAB_RT_R_A_DN)
      && (List.range 4).all (fun n => !nbit (fget e F.FAB_RT_R_BCMASK) n || decide (dir n = 1))
      && (if own then decide (fget e F.FAB_RT_R_P_UP = 4) && decide (fget e F.FAB_RT_R_P_DN = 4)
          else ports.all fun x => decide (x ≠ 4)))

/-- Key of word `k` of a route bank: 0 to 127 the region table, 128 to 383 the member table, 384 DIR. -/
def routeKey (p b k : Nat) : Nat :=
  Key.route p b (if k < 128 then 0x800 + 4 * k else if k < 384 then 0xA00 + 4 * (k - 128) else 0xE00)

/-- Whether word `v` may be written as word `k` of route bank `b` of plane `p` (R473). -/
def Chip.routeOk (c : Chip) (p b k : Nat) (v : Word) : Bool :=
  if k < 384 then entryOk (c.dirOf p b) (decide (k = 128 + c.myId % 256)) v
  else
    let dir := fun n => fget v ⟨2 * n + 1, 2 * n⟩
    (List.range 4).all (fun n => decide (dir n ≠ 3)) && (List.range 384).all fun j =>
      entryOk dir (decide (j = 128 + c.myId % 256)) (c.rd (routeKey p b j))

/-- The bellwether's own inactive bank of plane `p` is loaded: words it computes, which R469 and R473 bound but do not
give (a free value, log entry 2, DESIGN CHOICE), the word of its own member LOCAL. -/
def Chip.loadOwn (c : Chip) (p : Nat) : Chip :=
  let b := 1 - c.bankOf p
  let (d, c) := c.freeW
  let dir := wd ((List.range 4).map (fun n => fget d ⟨2 * n + 1, 2 * n⟩ % 3 * 4 ^ n)).sum
  let c : Chip := (forN 384 (fun k c => c.wr (routeKey p b k) (regReset (routeKey p b k))) c).wr (routeKey p b 384) dir
  forN 384 (fun k c =>
    let (w, c) := c.freeW
    let v := if k = 128 + c.myId % 256 then
        fset (fset (fset w F.FAB_RT_R_VALID 1) F.FAB_RT_R_P_UP 4) F.FAB_RT_R_P_DN 4 else w
    if c.routeOk p b k v then c.wr (routeKey p b k) v else c) c

/-- The offset of word `k` of a bank in the window of the FAB page. -/
def windowOff (k : Nat) : Nat :=
  P.FAB + (if k < 128 then 0x800 + 4 * k else if k < 384 then 0xA00 + 4 * (k - 128) else 0xE00)

/-- The REG_REQ packets that load member `m`'s inactive bank of plane `p` by TREE cast (R469): SEL, then the bank, 25 pairs a
packet beside the route record and the protection. Which bank is inactive at the member and its words are free values (log entry 2, DESIGN CHOICE). -/
def Chip.loadMember (c : Chip) (m : Member) (p : Nat) : Chip :=
  let (bank, c) := c.freeN 2
  let (ws, c) : List Nat × Chip := (List.range 385).foldl (fun (a : List Nat × Chip) k =>
    let (w, c) := a.2.freeW
    (a.1 ++ [0x40000001 + windowOff k, w.toNat], c)) ([0x40000001 + R.FAB_SEL, 2 * bank + p], c)
  let unit := words64 m.route ++ [m.plane + 2 + 256 * m.lvl, 0, 0, 0, 0, 0]
  forN 16 (fun i c =>
    c.emit (c.packet 0x20 4 3 m.id (some 0) 0 (unit ++ (ws.drop (50 * i)).take 50)) (2 ^ m.plane) none) c

/-- The herd-wide bank switch of plane `p` starts (R469): the muster engine's own coordinator context stages FAB.CTL with RBANK
flipped and sends PREPARE. T, guard, timeout and tag are the engine's choice (free values, log entry 2, DESIGN CHOICE). With no free
context, or while another transaction owns FAB.CTL (R73, R84), the switch waits. -/
def Chip.startSwitch (c : Chip) (p : Nat) : Chip :=
  match c.findCtx fun x => decide (x.st = .free), c.holder R.FAB_CTL with
  | none, _ | _, some _ => c
  | some n, none =>
    let (tag, c) := c.freeW
    let (g, c) := c.freeN 65536
    let (tmo, c) := c.freeN 65536
    let (t, c) := c.freeN (50 * 10 ^ 6)
    let rb := if p = 0 then F.FAB_CTL_RBANK_A else F.FAB_CTL_RBANK_B
    let c : Chip := c.updFab fun f => { f with switchDue := f.switchDue.filter (· ≠ p) }
    let c : Chip := c.updCtx n fun _ => { Ctx.init with
      st := .opened, kind := .coord, tag := tag.toNat, t := c.htNs + t, guardUs := g, timeoutMs := tmo, auto := true,
      expect := (c.fab.members.filter fun m => m.st = 1 && m.id ≠ c.myId).length, dest := 0x7FFF }
    ((c.addEntry n R.FAB_CTL (fset (c.rd R.FAB_CTL) rb (1 - c.bankOf p))).coordPrepare n).coordTally n

/-- A switch that is due starts where none runs, plane A first. -/
def Chip.nextSwitch (c : Chip) : Chip :=
  if c.bus.ctxs.any fun x => decide (x.st ≠ .free) && decide (x.ini = 0) && decide (x.kind = .coord) then c
  else match c.fab.switchDue with
    | p :: _ => c.startSwitch p
    | [] => c

/-- The bellwether recomputes the tables of its members, loads them and switches the banks (R469). Whether a region is not
connected is found in the computation, which the spec does not give: a free value. -/
def Chip.recompute (c : Chip) : Chip :=
  let (split, c) := c.freeB
  let c : Chip := c.flag R.MUS_STAT F.MUS_STAT_REGION_SPLIT split
  let pls := (List.range 2).filter fun p => c.rootClaim p
  let c : Chip := pls.foldl (fun c p =>
    ((c.fab.members.filter fun m => m.st = 1 && m.id ≠ c.myId).foldl (fun c m => c.loadMember m p) c).loadOwn p) c
  (c.updFab fun f => { f with switchDue := pls }).nextSwitch

end Sys2Proof.Machine
end

