-- ==== Sys2Proof/Machine/Lanes.lean ====
section
/-!
DEFINITION. The serial lanes (*Serial Lanes*): synthesizers, bring-up, training, capability exchange, link-level retry, eye
scan, pattern generator and checker, and optical-module management (R413 to R435, R441 to R446).
-/
namespace Sys2Proof.Machine
open Sys2Proof

-- The lane states (R418).
namespace Ls
def disabled : Nat := 0
def detect : Nat := 1
def train : Nat := 2
def lock : Nat := 3
def caps : Nat := 4
def active : Nat := 5
def holdoff : Nat := 6
def pattern : Nat := 7
def ethDown : Nat := 8
def ethUp : Nat := 9
end Ls

-- The codes of STAT.LAST_FAIL (R446).
namespace Lf
def trainTmo : Nat := 1
def fomLow : Nat := 2
def lockTmo : Nat := 3
def capsTmo : Nat := 4
def version : Nat := 5
def plane : Nat := 6
def loop : Nat := 7
def blockLoss : Nat := 8
def retryExh : Nat := 9
def signalLoss : Nat := 10
end Lf

/-! ### Leaving and entering states -/

/-- Whether the eye scan may run in state `st` (R432). -/
def scanState (st : Nat) : Bool := [Ls.lock, Ls.caps, Ls.active, Ls.pattern, Ls.ethUp].contains st

/-- The running scan of lane `n` ends with ABORTED (R432); what it has counted so far is a free value. -/
def Chip.scanAbort (c : Chip) (n : Nat) : Chip :=
  if c.is (R.LANE_ES_STAT n) F.LANE_ES_STAT_BUSY then
    let c : Chip := (c.flag (R.LANE_ES_STAT n) F.LANE_ES_STAT_BUSY false).flag (R.LANE_ES_STAT n) F.LANE_ES_STAT_ABORTED true
    let (e, c) := c.freeW
    let (b, c) := c.freeW
    (c.wr (R.LANE_ES_ERR n) e).wr (R.LANE_ES_BITS n) b
  else c

/-- A packet that lane `n`'s loss returns to the router (R431, R472, R475): it keeps HOPS and DN, and goes by the alternates of
its route, or up another parent; one that has no way on is discarded with NO_ROUTE. -/
def Chip.reroute (c : Chip) (pl : Nat) (inL : Option Nat) (p : Packet) : Chip :=
  let bad := (c.dropPkt p Dc.noRoute).giveBack inL p.vc.toNat
  let up := fun (goesUp : Bool) =>
    if goesUp && decide (c.plevel pl ≠ some 0) && c.laneUp (c.parent pl) then c.enqueue (c.parent pl) inL p else bad
  if p.kind.toNat ≤ 4 then bad
  else match p.cast.toNat with
    | 0 =>
      match c.hop pl p.dest.toNat p.dn with
      | .here => c.deliverHere pl inL p
      | .out m => c.enqueue m inL p
      | .nowhere => bad
    | 3 => up (!nbit (p.w 2) 1)
    | _ => up !p.dn

/-- Whether a valid entry of lane `n`'s active bank names it as primary with an alternate that can be used (R475). -/
def Chip.repairable (c : Chip) (n : Nat) : Bool :=
  let pl := planeOf n
  let ok := fun (e : Word) (p a : Fld) =>
    decide (fget e p = n % 4) && (decide (fget e a = 4) || (decide (fget e a < 4) && c.laneUp (4 * pl + fget e a)))
  (List.range 384).any fun k =>
    let e := c.rd (Key.route pl (c.bankOf pl) (if k < 128 then 0x800 + 4 * k else 0xA00 + 4 * (k - 128)))
    decide (fget e F.FAB_RT_R_VALID = 1) &&
      (ok e F.FAB_RT_R_P_UP F.FAB_RT_R_A_UP || ok e F.FAB_RT_R_P_DN F.FAB_RT_R_A_DN)

/-- Lane `n` has left ACTIVE (R426, R427, R431, R475): PARTNER and LAT clear, the packets it held return to the router in
sequence order, those that waited for it after them. -/
def Chip.laneLeft (c : Chip) (n : Nat) : Chip :=
  let l := c.lane n
  let pl := planeOf n
  let c : Chip := ((c.incSat (R.LANE_CNT_1 n) F.LANE_CNT_1_DOWNS).wrN (R.LANE_PARTNER n) 0).wrN (R.LANE_LAT n) 0
  let c : Chip := c.updLane n fun l => { l with buf := [], vq := [], replays := 0, nak := false, ann := none, line := [] }
  let c : Chip := if c.repairable n then (c.incSat R.FAB_CNT_0 F.FAB_CNT_0_REPAIRS).raise P.FAB 1 else c
  let c : Chip := l.buf.foldl (fun c e => c.reroute pl none { e.2.2 with dn := e.2.1 }) c
  l.vq.foldl (fun c e => c.reroute pl e.1 e.2) c

/-- The checker of lane `n` is no longer in sync because it, or its lane, was turned off (R433, R434). The bits and errors counted since sync
come with no row: both counters take free values (log entry 138, DESIGN CHOICE). -/
def Chip.patStop (c : Chip) (n : Nat) : Chip :=
  if c.is (R.LANE_PAT_STAT n) F.LANE_PAT_STAT_SYNC then
    let (b, c) := c.freeN (2 ^ 48)
    let (e, c) := c.freeN (2 ^ 48)
    ((c.wr64 (R.LANE_PAT_BITS_LO n) b).wr64 (R.LANE_PAT_ERR_LO n) e).flag (R.LANE_PAT_STAT n) F.LANE_PAT_STAT_SYNC false
  else c

/-- Lane `n` goes to state `st`. -/
def Chip.laneTo (c : Chip) (n st : Nat) : Chip :=
  let was := c.laneState n
  if was = st then c
  else
    let c : Chip := c.setF (R.LANE_STAT n) F.LANE_STAT_STATE st
    let c : Chip := if scanState was && !scanState st then c.scanAbort n else c
    let c : Chip := if st = Ls.lock ∨ st = Ls.caps ∨ st = Ls.active then c
      else c.flag (R.LANE_STAT n) F.LANE_STAT_BLOCK_LOCK false
    let c : Chip := if st = Ls.pattern then c else c.patStop n
    let c : Chip := if st = Ls.active then
        c.updLane n fun l => { l with buf := [], seq := 0, replays := 0, rxSeq := 0, nak := false, vq := [], cred := vcBuf,
                                      freed := [0, 0, 0, 0, 0, 0], lastTime := none, ann := none }
      else c
    let c : Chip := if was = Ls.active then c.laneLeft n else c
    let c : Chip := if was = Ls.active ∨ st = Ls.active then c.musFollow else c
    c.raiseIf (decide (was = Ls.active) || decide (st = Ls.active) || decide (was = Ls.ethUp) || decide (st = Ls.ethUp))
      (P.LANE n) 0

/-- The taps in force at lane `n`'s transmitter (R422): the main cursor is 63 less the two magnitudes. -/
def Chip.setTaps (c : Chip) (n pre post : Nat) : Chip :=
  c.wrN (R.LANE_TXACT n) ((63 - pre - post) * 2 ^ 16 + post * 2 ^ 8 + pre)

/-- The taps of TXEQ are in force in PATTERN and ETHERNET mode (R433, R436). -/
def Chip.txeqFollow (c : Chip) (n : Nat) : Chip :=
  if Ls.pattern ≤ c.laneState n then
    c.setTaps n (c.f (R.LANE_TXEQ n) F.LANE_TXEQ_PRE) (c.f (R.LANE_TXEQ n) F.LANE_TXEQ_POST)
  else c

/-- The quad of lane `n`. -/
def quadOf (n : Nat) : Nat := n / 4

/-- Whether the synthesizer that feeds lane `n` in its mode is locked (R414, R415). -/
def Chip.laneFed (c : Chip) (n : Nat) : Bool :=
  match c.f (R.LANE_CTL n) F.LANE_CTL_MODE with
  | 0 | 1 => c.is (R.QUAD_STAT (quadOf n)) F.QUAD_STAT_SYN_LOCK
  | 2 => decide (n % 4 = 3) && c.is (R.QUAD_STAT (quadOf n)) F.QUAD_STAT_ECM_LOCK
  | _ => false

/-- ETH_nn.STAT follows the state of its lane: LINK with LINK_CHG where it changes, and no PCS outside the Ethernet states (R437, R447). -/
def Chip.ethLink (c : Chip) (n : Nat) : Chip :=
  let e := quadOf n
  let up := decide (n % 4 = 3) && decide (c.laneState n = Ls.ethUp)
  let c : Chip :=
    if n % 4 = 3 ∧ c.laneState n < Ls.ethDown then
      c.wr (R.ETH_STAT e) (c.rd (R.ETH_STAT e) &&& 0x8FFFFFFF#32)
    else c
  if n % 4 = 3 ∧ up ≠ c.is (R.ETH_STAT e) F.ETH_STAT_LINK then
    (c.flag (R.ETH_STAT e) F.ETH_STAT_LINK up).raise (P.ETH e) 2
  else c

/-- Lane `n` is in DISABLED at once (R448): its soft reset, or that of its quad. -/
def Chip.laneStop (c : Chip) (n : Nat) : Chip := (c.laneTo n Ls.disabled).ethLink n

/-- Lane `n` follows EN and its synthesizer (R418, R420, R436). -/
def Chip.laneFollow (c : Chip) (n : Nat) : Chip :=
  let on := c.is (R.LANE_CTL n) F.LANE_CTL_EN
  let c : Chip := if on then c
    else (c.setF (R.LANE_STAT n) F.LANE_STAT_RATE_ACT (c.f (R.LANE_CTL n) F.LANE_CTL_RATE)).updLane n fun l => { l with fails := 0 }
  let c : Chip :=
    if !on || !c.laneFed n then c.laneTo n Ls.disabled
    else if c.laneState n = Ls.disabled then
      match c.f (R.LANE_CTL n) F.LANE_CTL_MODE with
      | 0 => c.laneTo n Ls.detect
      | 1 => (c.laneTo n Ls.pattern).txeqFollow n
      | 2 => (c.laneTo n Ls.ethDown).txeqFollow n
      | _ => c
    else c
  c.ethLink n

/-- LANE_nn.CTL was written over `old`: a lane that is enabled starts at its RATE (R420). -/
def Chip.laneWritten (c : Chip) (n : Nat) (old : Word) : Chip :=
  (if fget old F.LANE_CTL_EN = 1 then c
   else c.setF (R.LANE_STAT n) F.LANE_STAT_RATE_ACT (c.f (R.LANE_CTL n) F.LANE_CTL_RATE)).laneFollow n

/-- Every lane of quad `q` follows. -/
def Chip.quadLanes (c : Chip) (q : Nat) : Chip := (lanesOf q).foldl Chip.laneFollow c

/-- QUAD_nn.CTL was written over `old` (R414, R415): a synthesizer that is off, or whose rate changes, is unlocked. -/
def Chip.quadFollow (c : Chip) (q : Nat) (old : Word) : Chip :=
  let c : Chip := if c.is (R.QUAD_CTL q) F.QUAD_CTL_SYN_EN then c else c.flag (R.QUAD_STAT q) F.QUAD_STAT_SYN_LOCK false
  let r := c.f (R.QUAD_CTL q) F.QUAD_CTL_ECM_RATE
  let c : Chip := if r = fget old F.QUAD_CTL_ECM_RATE ∧ r ≠ 0 then c else c.flag (R.QUAD_STAT q) F.QUAD_STAT_ECM_LOCK false
  c.quadLanes q

/-- Whether CTL word `w` asks for ETHERNET where R436 refuses it. -/
def Chip.ethRefused (c : Chip) (n : Nat) (w : Word) : Bool :=
  decide (fget w F.LANE_CTL_MODE = 2)
    && (decide (n % 4 ≠ 3) || decide (c.f (R.QUAD_CTL (quadOf n)) F.QUAD_CTL_ECM_RATE = 0))

/-- A synthesizer of quad `q` locks: the lane synthesizer, or the Ethernet rate converter (R415). -/
def doSynthLock (q : Fin 2) (ecm : Bool) (c : Chip) : Chip :=
  c.via fun c =>
    if ecm then
      if c.f (R.QUAD_CTL q) F.QUAD_CTL_ECM_RATE = 1 ∨ c.f (R.QUAD_CTL q) F.QUAD_CTL_ECM_RATE = 2 then
        (c.flag (R.QUAD_STAT q) F.QUAD_STAT_ECM_LOCK true).quadLanes q
      else c
    else if c.is (R.QUAD_CTL q) F.QUAD_CTL_SYN_EN then (c.flag (R.QUAD_STAT q) F.QUAD_STAT_SYN_LOCK true).quadLanes q
    else c

/-- A synthesizer of quad `q` loses lock (R415, R444). -/
def doSynthUnlock (q : Fin 2) (ecm : Bool) (c : Chip) : Chip :=
  c.via fun c =>
    if ecm then (c.flag (R.QUAD_STAT q) F.QUAD_STAT_ECM_LOCK false).quadLanes q
    else if c.is (R.QUAD_STAT q) F.QUAD_STAT_SYN_LOCK then
      (((c.flag (R.QUAD_STAT q) F.QUAD_STAT_SYN_LOCK false).flag (R.QUAD_STAT q) F.QUAD_STAT_SYN_LOST_SEEN true).raise
        (P.QUAD q) 0).quadLanes q
    else c

/-! ### Training (R420 to R424) -/

/-- The taps of preset `p`: pre and post magnitude (R422). -/
def preset (p : Nat) : Nat × Nat :=
  match p with
  | 0 => (0, 0) | 1 => (0, 4) | 2 => (0, 8) | 3 => (0, 12) | 4 => (3, 6) | 5 => (3, 10) | 6 => (6, 8) | _ => (4, 16)

/-- Lane `n` enters TRAIN with the TRAIN and TRAIN2 words of now (R424, R445). -/
def Chip.trainEnter (c : Chip) (n : Nat) (fast : Bool) : Chip :=
  let w := c.rd (R.LANE_TRAIN n)
  let m := if fget w F.LANE_TRAIN_PRESET_MASK = 0 then 0x10 else fget w F.LANE_TRAIN_PRESET_MASK
  let ps := (List.range 8).filter fun p => nbit m p
  let t : Train :=
    if fast then { cfg := w, cfg2 := c.rd (R.LANE_TRAIN2 n), step := .fast, sub := .adapt }
    else { cfg := w, cfg2 := c.rd (R.LANE_TRAIN2 n), step := .preset (ps.headD 4), sub := .req, todo := ps.drop 1 }
  (c.laneTo n Ls.train).updLane n fun l => { l with tr := t }

/-- Lane `n` fails to HOLDOFF with a cause. -/
def Chip.laneFail (c : Chip) (n cause : Nat) : Chip :=
  (c.setF (R.LANE_STAT n) F.LANE_STAT_LAST_FAIL cause).laneTo n Ls.holdoff

/-- TRAIN fails (R418, R420): after two failures in a row at one rate FALLBACK takes the next lower rate. -/
def Chip.trainFail (c : Chip) (n cause : Nat) : Chip :=
  let c : Chip := ((c.incSat (R.LANE_CNT_1 n) F.LANE_CNT_1_TRAIN_FAILS).raise (P.LANE n) 1).updLane n fun l =>
    { l with fails := l.fails + 1 }
  let r := c.f (R.LANE_STAT n) F.LANE_STAT_RATE_ACT
  let c : Chip :=
    if c.is (R.LANE_CTL n) F.LANE_CTL_FALLBACK && decide (2 ≤ (c.lane n).fails) && decide (0 < r) then
      (c.setF (R.LANE_STAT n) F.LANE_STAT_RATE_ACT (r - 1)).updLane n fun l => { l with fails := 0 }
    else c
  c.laneFail n cause

/-- Training completes once the own receiver is ready and 16 valid frames in a row carry RX_READY (R422). -/
def Chip.trainDone (c : Chip) (n : Nat) : Chip :=
  if (c.lane n).tr.ready && decide (16 ≤ (c.lane n).tr.rdy) then
    (c.laneTo n Ls.lock).updLane n fun l => { l with fails := 0 }
  else c

/-- The tap steps of a round, in the order of R424. -/
def tapAfter (post inc : Bool) : Option (Bool × Bool) :=
  match post, inc with
  | true, true => some (true, false)
  | true, false => some (false, true)
  | false, true => some (false, false)
  | false, false => none

/-- The search goes on after a tap step (R424): the next tap, another round, or its end. -/
def Chip.tapNext (c : Chip) (n : Nat) (post inc : Bool) : Chip :=
  let t := (c.lane n).tr
  let go := fun (s : TrStep) (imp : Bool) =>
    c.updLane n fun l => { l with tr := { l.tr with step := s, sub := .req, improved := imp, upd := false } }
  match tapAfter post inc with
  | some (p, i) => go (.tap p i) t.improved
  | none =>
    if t.improved && decide (t.best < fget t.cfg F.LANE_TRAIN_FOM_TARGET) then go (.tap true true) false
    else if fget t.cfg F.LANE_TRAIN_FOM_MIN ≤ t.best then
      (c.updLane n fun l => { l with tr := { l.tr with step := .done, ready := true } }).trainDone n
    else c.trainFail n Lf.fomLow

/-- The adaptation wait of lane `n` ends and its FOM is measured from the codes without a mismatch (R423, R424). -/
def doAdaptWaitEnd (n : Fin 8) (codes : BitVec 8) (c : Chip) : Chip :=
  c.clocked (P.LANE n) fun c =>
    let t := (c.lane n).tr
    if c.laneState n ≠ Ls.train ∨ t.sub ≠ .adapt then c
    else
      let f := min 255 (2 * codes.toNat)
      let c : Chip := c.setF (R.LANE_STAT n) F.LANE_STAT_FOM f
      let set := fun (c : Chip) (g : Train → Train) => c.updLane n fun l => { l with tr := g l.tr }
      match t.step with
      | .preset p =>
        let c : Chip := if t.best < f then set c fun t => { t with best := f, bp := some p } else c
        match t.todo with
        | q :: r => set c fun t => { t with step := .preset q, sub := .req, todo := r }
        | [] =>
          -- no preset with a FOM above 0: the procedure of R424 leaves bp open (log entry 2, DESIGN CHOICE)
          let (b, c) : Nat × Chip := match (c.lane n).tr.bp with | some b => (b, c) | none => c.freeN 8
          set c fun t => { t with step := .best, sub := .req, bp := some b }
      | .fast => set c fun t => { t with best := f, step := .tap true true, sub := .req }
      | .tap post inc =>
        if t.best + fget t.cfg F.LANE_TRAIN_FOM_STEP ≤ f then
          (set c fun t => { t with best := f, improved := true }).tapNext n post inc
        else set c fun t => { t with step := .undo post inc, sub := .req }
      | _ => c

/-- CRC-16 of the request and status fields (R421): polynomial 0x1021, initial value 0xFFFF, most significant bit first. -/
def crc16 (v : BitVec 32) : Nat :=
  (List.range 32).foldl (fun r i =>
    let x := nbit r 15 != v.getLsbD (31 - i)
    (r * 2 % 65536) ^^^ (if x then 0x1021 else 0)) 0xFFFF

/-- A pre-cursor or post-cursor request `q` on a magnitude `m` of at most `top`, with the other magnitude `o`: the new magnitude
and the status code while the request stands (R422). -/
def tapStep (q m top o : Nat) : Nat × Nat :=
  match q with
  | 1 => if m < top ∧ 27 + (m + 1) + o ≤ 63 then (m + 1, 1) else (m, 3)
  | 2 => if 0 < m then (m - 1, 1) else (m, 2)
  | _ => (m, 0)

/-- The partner's request is applied to this lane's transmitter, once while it stands (R422). -/
def Chip.applyRequest (c : Chip) (n : Nat) (req : BitVec 16) : Chip :=
  let t := (c.lane n).tr
  let w := c.rd (R.LANE_TXACT n)
  let pre := fget w F.LANE_TXACT_PRE
  let post := fget w F.LANE_TXACT_POST
  let set := fun (c : Chip) (a b : Nat) (s : Bool) => c.updLane n fun l => { l with tr := { l.tr with preSt := a, postSt := b, presetSt := s } }
  if req.getLsbD 15 || req.getLsbD 14 then
    let p := if req.getLsbD 15 then fget t.cfg F.LANE_TRAIN_P_INIT else req.toNat / 2 ^ 11 % 8
    set (if t.presetSt then c else c.setTaps n (preset p).1 (preset p).2) 0 0 true
  else
    let q1 := req.toNat / 4 % 4
    let q2 := req.toNat % 4
    let hold := fun q => decide (q = 0) || decide (q = 3)
    let (pre, s1) := if hold q1 then (pre, 0) else if t.preSt ≠ 0 then (pre, t.preSt) else tapStep q1 pre 12 post
    let (post, s2) := if hold q2 then (post, 0) else if t.postSt ≠ 0 then (post, t.postSt) else tapStep q2 post 24 pre
    set (c.setTaps n pre post) s1 s2 false

/-- The response to this lane's own request moves its search on (R422, R424): a request stands until the status answers it, and
hold until the status is NOT_UPDATED again. -/
def Chip.readStatus (c : Chip) (n : Nat) (st : BitVec 16) : Chip :=
  let t := (c.lane n).tr
  let pre := st.toNat / 2 ^ 13 % 4
  let post := st.toNat / 2 ^ 11 % 4
  let ps := st.getLsbD 10
  let set := fun (g : Train → Train) => c.updLane n fun l => { l with tr := g l.tr }
  let code := fun (p : Bool) => if p then post else pre
  match t.step, t.sub with
  | .preset _, .req | .best, .req => if ps then set fun t => { t with sub := .rel } else c
  | .preset _, .rel => if ps then c else set fun t => { t with sub := .adapt }
  | .best, .rel => if ps then c else set fun t => { t with step := .tap true true, sub := .req, improved := false }
  | .tap p _, .req | .undo p _, .req =>
    if code p = 0 then c else set fun t => { t with sub := .rel, upd := decide (code p = 1) }
  | .tap p i, .rel =>
    if code p ≠ 0 then c else if t.upd then set fun t => { t with sub := .adapt } else c.tapNext n p i
  | .undo p i, .rel => if code p ≠ 0 then c else c.tapNext n p i
  | _, _ => c

/-- A training frame reaches lane `n` in TRAIN (R421, R422): ignored where its CRC fails. -/
def doTrainingFrameRx (n : Fin 8) (request status crc : BitVec 16) (c : Chip) : Chip :=
  c.clocked (P.LANE n) fun c =>
    if c.laneState n ≠ Ls.train ∨ crc.toNat ≠ crc16 (request ++ status) then c
    else
      let c : Chip := c.applyRequest n request
      let c : Chip := c.updLane n fun l => { l with tr := { l.tr with rdy := if status.getLsbD 15 then l.tr.rdy + 1 else 0 } }
      let c : Chip := c.readStatus n status
      if c.laneState n = Ls.train then c.trainDone n else c

/-- TRAIN times out (R418). -/
def doTrainTimeout (n : Fin 8) (c : Chip) : Chip :=
  c.clocked (P.LANE n) fun c => if c.laneState n = Ls.train then c.trainFail n Lf.trainTmo else c

/-! ### Bring-up (R418, R425 to R427) -/

/-- Signal for 100 µs; `mlos` is the level of MLOS_nn over that time. -/
def doSignalDetect (n : Fin 8) (mlos : Bool) (c : Chip) : Chip :=
  c.clocked (P.LANE n) fun c =>
    let c : Chip := (c.flag (R.LANE_STAT n) F.LANE_STAT_SIGNAL true).flag (R.LANE_MOD_STAT n) F.LANE_MOD_STAT_LOS mlos
    if c.laneState n = Ls.detect && !(mlos && c.is (R.LANE_MOD_CFG n) F.LANE_MOD_CFG_LOS_EN) then c.trainEnter n false else c

/-- The signal is lost for 10 µs. -/
def doSignalLoss (n : Fin 8) (mlos : Bool) (c : Chip) : Chip :=
  c.clocked (P.LANE n) fun c =>
    let c : Chip := (c.flag (R.LANE_STAT n) F.LANE_STAT_SIGNAL false).flag (R.LANE_MOD_STAT n) F.LANE_MOD_STAT_LOS mlos
    if Ls.train ≤ c.laneState n ∧ c.laneState n ≤ Ls.active then c.laneFail n Lf.signalLoss else c

/-- 64 valid sync headers in a row (R417). -/
def doBlockLock (n : Fin 8) (c : Chip) : Chip :=
  c.clocked (P.LANE n) fun c =>
    if c.laneState n = Ls.lock then
      ((c.laneTo n Ls.caps).flag (R.LANE_STAT n) F.LANE_STAT_BLOCK_LOCK true).updLane n fun l => { l with capsAck := false }
    else c

/-- 1 ms without block lock (R418). -/
def doLockTimeout (n : Fin 8) (c : Chip) : Chip :=
  c.clocked (P.LANE n) fun c => if c.laneState n = Ls.lock then c.laneFail n Lf.lockTmo else c

/-- CAPS fails with a cause. -/
def Chip.capsFail (c : Chip) (n cause : Nat) : Chip := (c.incSat (R.LANE_CNT_1 n) F.LANE_CNT_1_CAPS_FAILS).laneFail n cause

/-- A capability block (R425): version, ID, plane and lane of the partner and its acknowledgement bit; `txPs` and `rxPs` are the
latencies that LAT shows from entry to ACTIVE (R427). -/
def doCapsBlockRx (n : Fin 8) (version : BitVec 8) (id : BitVec 15) (plane : Bool) (ln : BitVec 2) (ack : Bool)
    (txPs rxPs : BitVec 16) (c : Chip) : Chip :=
  c.clocked (P.LANE n) fun c =>
    if c.laneState n ≠ Ls.caps then c
    else if version ≠ 1 then c.capsFail n Lf.version
    else if b2n plane ≠ planeOf n then c.capsFail n Lf.plane
    else if id.toNat = c.myId ∧ id ≠ 0 then c.capsFail n Lf.loop
    else
      let c : Chip := c.updLane n fun l => { l with capsAck := true }
      if ack then
        let c : Chip := (c.wrN (R.LANE_PARTNER n)
          (version.toNat * 2 ^ 24 + ln.toNat * 2 ^ 18 + b2n plane * 2 ^ 16 + id.toNat)).wrN (R.LANE_LAT n)
          (txPs.toNat * 2 ^ 16 + rxPs.toNat)
        c.laneTo n Ls.active
      else c

/-- 10 ms without completion (R418). -/
def doCapsTimeout (n : Fin 8) (c : Chip) : Chip :=
  c.clocked (P.LANE n) fun c => if c.laneState n = Ls.caps then c.capsFail n Lf.capsTmo else c

/-- HOLDOFF_MS elapses (R418). -/
def doHoldoffExpiry (n : Fin 8) (c : Chip) : Chip :=
  c.clocked (P.LANE n) fun c => if c.laneState n = Ls.holdoff then c.laneTo n Ls.detect else c

/-- Block lock is lost (R417, R418). -/
def doBlockLockLoss (n : Fin 8) (c : Chip) : Chip :=
  c.clocked (P.LANE n) fun c =>
    let c : Chip := c.flag (R.LANE_STAT n) F.LANE_STAT_BLOCK_LOCK false
    if c.laneState n = Ls.active then
      (c.setF (R.LANE_STAT n) F.LANE_STAT_LAST_FAIL Lf.blockLoss).trainEnter n true
    else c

/-- LANE_nn.CMD (R418, R446): 1 RETRAIN in ACTIVE only, 2 CLR_STATS. -/
def Chip.laneCmd (c : Chip) (n op i : Nat) : Chip :=
  match op with
  | 1 => if c.laneState n = Ls.active then c.trainEnter n true else c.refuse (R.LANE_CMD n) i
  | 2 => (c.wrN (R.LANE_CNT_0 n) 0).wrN (R.LANE_CNT_1 n) 0
  | _ => c.refuse (R.LANE_CMD n) i

/-- LANE_nn.CMD RETRAIN (R418). -/
def doLaneRetrain (w : Writer) (key : BitVec 16) (n : Fin 8) (c : Chip) : Chip :=
  c.cmd (R.LANE_CMD n) w key fun c => c.laneCmd n 1 w.ini.code
/-- LANE_nn.CMD CLR_STATS (R446). -/
def doLaneClrStats (w : Writer) (key : BitVec 16) (n : Fin 8) (c : Chip) : Chip :=
  c.cmd (R.LANE_CMD n) w key fun c => c.laneCmd n 2 w.ini.code

/-- FOM measured again in ACTIVE, unless a scan holds the offset sampler (R424). -/
def doFomRemeasure (n : Fin 8) (codes : BitVec 8) (c : Chip) : Chip :=
  c.clocked (P.LANE n) fun c =>
    if c.laneState n = Ls.active && !c.is (R.LANE_ES_STAT n) F.LANE_ES_STAT_BUSY then
      c.setF (R.LANE_STAT n) F.LANE_STAT_FOM (min 255 (2 * codes.toNat))
    else c

/-! ### Link-level retry (R429 to R431) -/

/-- The buffer after a cumulative ACK for `seq`: every packet up to it is freed; an ACK for no held packet frees none. -/
def ackBuf (seq : Nat) (l : List (Nat × Bool × Packet)) : List (Nat × Bool × Packet) :=
  if l.any fun e => e.1 = seq then (l.dropWhile fun e => e.1 ≠ seq).drop 1 else l

/-- A cumulative ACK (R429, R430). -/
def doLinkAckRx (n : Fin 8) (seq : BitVec 12) (c : Chip) : Chip :=
  c.clocked (P.LANE n) fun c =>
    if c.laneUp n then
      c.updLane n fun l =>
        let b := ackBuf seq.toNat l.buf
        { l with buf := b, replays := if b.length < l.buf.length then 0 else l.replays }
    else c

/-- A replay from the oldest unacknowledged packet (R430); a ninth would be RETRY_EXH (R431). -/
def Chip.replay (c : Chip) (n : Nat) : Chip :=
  if !c.laneUp n || (c.lane n).buf.isEmpty then c
  else if (c.lane n).replays < 8 then
    let c : Chip := c.transmit n ((c.lane n).buf.map fun e => e.2.2)
    (c.updLane n fun l => { l with replays := l.replays + 1 }).incSat (R.LANE_CNT_0 n) F.LANE_CNT_0_REPLAYS
  else
    ((c.setF (R.LANE_STAT n) F.LANE_STAT_LAST_FAIL Lf.retryExh).raise (P.LANE n) 2).trainEnter n true

/-- A NAK (R430); the number it names does not change where the replay starts. -/
def doLinkNakRx (n : Fin 8) (_seq : BitVec 12) (c : Chip) : Chip := c.clocked (P.LANE n) fun c => c.replay n

/-- ACK_TMO passes without the acknowledged number advancing (R430); an ACK that advances it in this cycle prevents the replay (R37). -/
def doLinkAckTimeout (n : Fin 8) (advanced : Bool) (c : Chip) : Chip :=
  c.clocked (P.LANE n) fun c => if advanced then c else c.replay n

/-! ### Eye scan (R432) -/

/-- ES_CTL.START with its point. -/
def Chip.scanStart (c : Chip) (n i : Nat) (w : Word) : Chip :=
  if scanState (c.laneState n) && !c.is (R.LANE_ES_STAT n) F.LANE_ES_STAT_BUSY then
    (((c.wr (R.LANE_ES_CTL n) (fset w F.LANE_ES_CTL_START 0)).flag (R.LANE_ES_STAT n) F.LANE_ES_STAT_BUSY true).wrN
      (R.LANE_ES_ERR n) 0).wrN (R.LANE_ES_BITS n) 0
  else c.refuse (R.LANE_ES_CTL n) i

/-- ES_CTL written with START 1 (R432). -/
def doEyeScanStart (w : Writer) (n : Fin 8) (prescale : BitVec 4) (vofs : BitVec 8) (hofs : BitVec 7) (c : Chip) : Chip :=
  c.put (R.LANE_ES_CTL n) w fun c => c.scanStart n w.ini.code (wd (prescale.toNat * 2 ^ 16 + vofs.toNat * 2 ^ 8 + hofs.toNat))

/-- The point has compared its bits: `errs` of them differed (R432). -/
def doEyeScanDone (n : Fin 8) (errs : BitVec 32) (c : Chip) : Chip :=
  c.clocked (P.LANE n) fun c =>
    if c.is (R.LANE_ES_STAT n) F.LANE_ES_STAT_BUSY then
      let c : Chip := (c.flag (R.LANE_ES_STAT n) F.LANE_ES_STAT_BUSY false).flag (R.LANE_ES_STAT n) F.LANE_ES_STAT_DONE true
      ((c.wr (R.LANE_ES_ERR n) errs).wrN (R.LANE_ES_BITS n) (2 ^ (16 + c.f (R.LANE_ES_CTL n) F.LANE_ES_CTL_PRESCALE))).raise
        (P.LANE n) 4
    else c

/-! ### Pattern generator and checker (R433 to R435) -/

/-- PAT_CMD: bit 1 clears the counters, bit 0 injects one error. -/
def Chip.patCmd (c : Chip) (n bits : Nat) : Chip :=
  let c : Chip := if nbit bits 1 then
      (((c.wr64 (R.LANE_PAT_ERR_LO n) 0).wr64 (R.LANE_PAT_BITS_LO n) 0).setF (R.LANE_PAT_STAT n) F.LANE_PAT_STAT_SYNC_LOSSES 0)
    else c
  if nbit bits 0 && decide (c.laneState n = Ls.pattern) && c.is (R.LANE_PAT_CFG n) F.LANE_PAT_CFG_GEN then
    c.updLane n fun l => { l with inj := l.inj + 1 }
  else c

/-- PAT_CMD.INJECT (R435). -/
def doPatInject (w : Writer) (key : BitVec 16) (n : Fin 8) (c : Chip) : Chip :=
  c.cmd (R.LANE_PAT_CMD n) w key fun c => c.patCmd n 1
/-- PAT_CMD.CLR (R434). -/
def doPatClr (w : Writer) (key : BitVec 16) (n : Fin 8) (c : Chip) : Chip :=
  c.cmd (R.LANE_PAT_CMD n) w key fun c => c.patCmd n 2

/-- The checker's sync follows CHK and the mode. -/
def Chip.patFollow (c : Chip) (n : Nat) : Chip :=
  if c.is (R.LANE_PAT_CFG n) F.LANE_PAT_CFG_CHK then c else c.patStop n

/-- 64 error-free bits in a row (R434). -/
def doPatSync (n : Fin 8) (c : Chip) : Chip :=
  c.clocked (P.LANE n) fun c =>
    if c.laneState n = Ls.pattern && c.is (R.LANE_PAT_CFG n) F.LANE_PAT_CFG_CHK then
      c.flag (R.LANE_PAT_STAT n) F.LANE_PAT_STAT_SYNC true
    else c

/-- Sync is lost (R434); `bits` and `errs` were counted since sync or the last CLR. -/
def doPatSyncLoss (n : Fin 8) (bits errs : BitVec 48) (c : Chip) : Chip :=
  c.clocked (P.LANE n) fun c =>
    if c.is (R.LANE_PAT_STAT n) F.LANE_PAT_STAT_SYNC then
      let c : Chip := c.wr64 (R.LANE_PAT_BITS_LO n) ((c.rd64 (R.LANE_PAT_BITS_LO n) + bits.toNat) % 2 ^ 48)
      let c : Chip := c.wr64 (R.LANE_PAT_ERR_LO n) ((c.rd64 (R.LANE_PAT_ERR_LO n) + errs.toNat) % 2 ^ 48)
      let c : Chip := (c.flag (R.LANE_PAT_STAT n) F.LANE_PAT_STAT_SYNC false).flag (R.LANE_PAT_STAT n)
        F.LANE_PAT_STAT_SYNC_LOST_SEEN true
      (c.incSat (R.LANE_PAT_STAT n) F.LANE_PAT_STAT_SYNC_LOSSES).raise (P.LANE n) 3
    else c

/-! ### Optical modules (R441 to R443) -/

/-- MTXD_nn (R443). -/
def Chip.mtxd (c : Chip) (n : Nat) : Bool :=
  decide (c.laneState n = Ls.disabled) || decide (c.laneState n = Ls.holdoff) || c.is (R.LANE_MOD_CFG n) F.LANE_MOD_CFG_TXDIS

/-- ALARM is set and raised at the quad (R441). -/
def Chip.modAlarm (c : Chip) (n : Nat) : Chip :=
  (c.flag (R.LANE_MOD_STAT n) F.LANE_MOD_STAT_ALARM true).raise (P.QUAD (quadOf n)) 1

/-- A poll reads bytes 96 to 105 and 112 to 113 of A2h (R441). -/
def doModulePoll (n : Fin 8) (bytes : List (BitVec 8)) (c : Chip) : Chip :=
  c.clocked (P.LANE n) fun c =>
    if c.is (R.LANE_MOD_CFG n) F.LANE_MOD_CFG_EN && c.is (R.LANE_MOD_STAT n) F.LANE_MOD_STAT_PRESENT then
      let w := fun i => (nth bytes i 0).toNat * 256 + (nth bytes (i + 1) 0).toNat
      let c : Chip := ((c.wrN (R.LANE_MOD_DDM0 n) (w 0 * 65536 + w 2)).wrN (R.LANE_MOD_DDM1 n) (w 4 * 65536 + w 6)).wrN
        (R.LANE_MOD_DDM2 n) (w 8)
      let c : Chip := c.setF (R.LANE_MOD_STAT n) F.LANE_MOD_STAT_ALARM_FLAGS (w 10)
      if w 10 = 0 then c.flag (R.LANE_MOD_STAT n) F.LANE_MOD_STAT_ALARM false else c.modAlarm n
    else c

/-- MPRS_N_nn changes (R441). -/
def doModulePresenceChange (n : Fin 8) (present : Bool) (c : Chip) : Chip :=
  c.clocked (P.LANE n) fun c =>
    let was := c.is (R.LANE_MOD_STAT n) F.LANE_MOD_STAT_PRESENT
    let c : Chip := c.flag (R.LANE_MOD_STAT n) F.LANE_MOD_STAT_PRESENT present
    if was && !present && c.is (R.LANE_MOD_CFG n) F.LANE_MOD_CFG_EN then c.modAlarm n else c

/-- MOD_CMD starts a byte access; while one runs a further one is not taken (R442). -/
def Chip.modCmd (c : Chip) (n : Nat) (write dev : Bool) (ofs : Nat) : Chip :=
  if c.is (R.LANE_MOD_STAT n) F.LANE_MOD_STAT_BUSY then c
  else (c.flag (R.LANE_MOD_STAT n) F.LANE_MOD_STAT_BUSY true).updLane n fun l => { l with acc := some (write, dev, ofs) }

/-- MOD_CMD with WRITE 0 (R442). -/
def doModCmdRead (w : Writer) (key : BitVec 16) (n : Fin 8) (dev : Bool) (offset : BitVec 8) (c : Chip) : Chip :=
  c.cmd (R.LANE_MOD_CMD n) w key fun c => c.modCmd n false dev offset.toNat
/-- MOD_CMD with WRITE 1 (R442). -/
def doModCmdWrite (w : Writer) (key : BitVec 16) (n : Fin 8) (dev : Bool) (offset : BitVec 8) (c : Chip) : Chip :=
  c.cmd (R.LANE_MOD_CMD n) w key fun c => c.modCmd n true dev offset.toNat

/-- The access ends (R442): `data` is the byte a read returned. -/
def doModAccessDone (n : Fin 8) (ack : Bool) (data : BitVec 8) (c : Chip) : Chip :=
  c.clocked (P.LANE n) fun c =>
    match (c.lane n).acc with
    | none => c
    | some a =>
      let c : Chip := (c.updLane n fun l => { l with acc := none }).flag (R.LANE_MOD_STAT n) F.LANE_MOD_STAT_BUSY false
      let c : Chip := if !ack then c.flag (R.LANE_MOD_STAT n) F.LANE_MOD_STAT_NACK true
        else if a.1 then c else c.setF (R.LANE_MOD_DATA n) F.LANE_MOD_DATA_DATA data.toNat
      c.raise (P.LANE n) 5

/-! ### The commands -/

/-- SYNTH_LOCK (R415). -/
def execSynthLock (q : Fin 2) (ecm : Bool) (s : State) : Host.Outcome State Fault Refusal :=
  .next (s.onChip (doSynthLock q ecm))
/-- SYNTH_UNLOCK (R415). -/
def execSynthUnlock (q : Fin 2) (ecm : Bool) (s : State) : Host.Outcome State Fault Refusal :=
  .next (s.onChip (doSynthUnlock q ecm))
/-- ADAPT_WAIT_END (R424). -/
def execAdaptWaitEnd (n : Fin 8) (codes : BitVec 8) (s : State) : Host.Outcome State Fault Refusal :=
  .next (s.onChip (doAdaptWaitEnd n codes))
/-- TRAINING_FRAME_RX (R422). -/
def execTrainingFrameRx (n : Fin 8) (request : BitVec 16) (status : BitVec 16) (crc : BitVec 16)
    (s : State) : Host.Outcome State Fault Refusal :=
  .next (s.onChip (doTrainingFrameRx n request status crc))
/-- TRAIN_TIMEOUT (R418). -/
def execTrainTimeout (n : Fin 8) (s : State) : Host.Outcome State Fault Refusal :=
  .next (s.onChip (doTrainTimeout n))
/-- SIGNAL_DETECT (R418). -/
def execSignalDetect (n : Fin 8) (mlos : Bool) (s : State) : Host.Outcome State Fault Refusal :=
  .next (s.onChip (doSignalDetect n mlos))
/-- SIGNAL_LOSS (R418). -/
def execSignalLoss (n : Fin 8) (mlos : Bool) (s : State) : Host.Outcome State Fault Refusal :=
  .next (s.onChip (doSignalLoss n mlos))
/-- BLOCK_LOCK (R417). -/
def execBlockLock (n : Fin 8) (s : State) : Host.Outcome State Fault Refusal :=
  .next (s.onChip (doBlockLock n))
/-- LOCK_TIMEOUT (R418). -/
def execLockTimeout (n : Fin 8) (s : State) : Host.Outcome State Fault Refusal :=
  .next (s.onChip (doLockTimeout n))
/-- CAPS_BLOCK_RX (R425). -/
def execCapsBlockRx (n : Fin 8) (version : BitVec 8) (id : BitVec 15) (plane : Bool) (ln : BitVec 2) (ack : Bool) (txPs : BitVec 16) (rxPs : BitVec 16)
    (s : State) : Host.Outcome State Fault Refusal :=
  .next (s.onChip (doCapsBlockRx n version id plane ln ack txPs rxPs))
/-- CAPS_TIMEOUT (R418). -/
def execCapsTimeout (n : Fin 8) (s : State) : Host.Outcome State Fault Refusal :=
  .next (s.onChip (doCapsTimeout n))
/-- HOLDOFF_EXPIRY (R418). -/
def execHoldoffExpiry (n : Fin 8) (s : State) : Host.Outcome State Fault Refusal :=
  .next (s.onChip (doHoldoffExpiry n))
/-- BLOCK_LOCK_LOSS (R417). -/
def execBlockLockLoss (n : Fin 8) (s : State) : Host.Outcome State Fault Refusal :=
  .next (s.onChip (doBlockLockLoss n))
/-- LANE_RETRAIN (R418). -/
def execLaneRetrain (w : Writer) (key : BitVec 16) (n : Fin 8) (s : State) : Host.Outcome State Fault Refusal :=
  .next (s.onChip (doLaneRetrain w key n))
/-- LANE_CLR_STATS (R446). -/
def execLaneClrStats (w : Writer) (key : BitVec 16) (n : Fin 8) (s : State) : Host.Outcome State Fault Refusal :=
  .next (s.onChip (doLaneClrStats w key n))
/-- FOM_REMEASURE (R424). -/
def execFomRemeasure (n : Fin 8) (codes : BitVec 8) (s : State) : Host.Outcome State Fault Refusal :=
  .next (s.onChip (doFomRemeasure n codes))
/-- LINK_ACK_RX (R430). -/
def execLinkAckRx (n : Fin 8) (seq : BitVec 12) (s : State) : Host.Outcome State Fault Refusal :=
  .next (s.onChip (doLinkAckRx n seq))
/-- LINK_NAK_RX (R430). -/
def execLinkNakRx (n : Fin 8) (seq : BitVec 12) (s : State) : Host.Outcome State Fault Refusal :=
  .next (s.onChip (doLinkNakRx n seq))
/-- LINK_ACK_TIMEOUT (R430). -/
def execLinkAckTimeout (n : Fin 8) (advanced : Bool) (s : State) : Host.Outcome State Fault Refusal :=
  .next (s.onChip (doLinkAckTimeout n advanced))
/-- EYE_SCAN_START (R432). -/
def execEyeScanStart (w : Writer) (n : Fin 8) (prescale : BitVec 4) (vofs : BitVec 8) (hofs : BitVec 7)
    (s : State) : Host.Outcome State Fault Refusal :=
  .next (s.onChip (doEyeScanStart w n prescale vofs hofs))
/-- EYE_SCAN_DONE (R432). -/
def execEyeScanDone (n : Fin 8) (errs : BitVec 32) (s : State) : Host.Outcome State Fault Refusal :=
  .next (s.onChip (doEyeScanDone n errs))
/-- PAT_INJECT (R435). -/
def execPatInject (w : Writer) (key : BitVec 16) (n : Fin 8) (s : State) : Host.Outcome State Fault Refusal :=
  .next (s.onChip (doPatInject w key n))
/-- PAT_CLR (R434). -/
def execPatClr (w : Writer) (key : BitVec 16) (n : Fin 8) (s : State) : Host.Outcome State Fault Refusal :=
  .next (s.onChip (doPatClr w key n))
/-- PAT_SYNC (R434). -/
def execPatSync (n : Fin 8) (s : State) : Host.Outcome State Fault Refusal :=
  .next (s.onChip (doPatSync n))
/-- PAT_SYNC_LOSS (R434). -/
def execPatSyncLoss (n : Fin 8) (bits : BitVec 48) (errs : BitVec 48)
    (s : State) : Host.Outcome State Fault Refusal :=
  .next (s.onChip (doPatSyncLoss n bits errs))
/-- MODULE_POLL (R441). -/
def execModulePoll (n : Fin 8) (bytes : List (BitVec 8)) (s : State) : Host.Outcome State Fault Refusal :=
  .next (s.onChip (doModulePoll n bytes))
/-- MODULE_PRESENCE_CHANGE (R441). -/
def execModulePresenceChange (n : Fin 8) (present : Bool) (s : State) : Host.Outcome State Fault Refusal :=
  .next (s.onChip (doModulePresenceChange n present))
/-- MOD_CMD_READ (R442). -/
def execModCmdRead (w : Writer) (key : BitVec 16) (n : Fin 8) (dev : Bool) (offset : BitVec 8)
    (s : State) : Host.Outcome State Fault Refusal :=
  .next (s.onChip (doModCmdRead w key n dev offset))
/-- MOD_CMD_WRITE (R442). -/
def execModCmdWrite (w : Writer) (key : BitVec 16) (n : Fin 8) (dev : Bool) (offset : BitVec 8)
    (s : State) : Host.Outcome State Fault Refusal :=
  .next (s.onChip (doModCmdWrite w key n dev offset))
/-- MOD_ACCESS_DONE (R442). -/
def execModAccessDone (n : Fin 8) (ack : Bool) (data : BitVec 8) (s : State) : Host.Outcome State Fault Refusal :=
  .next (s.onChip (doModAccessDone n ack data))

end Sys2Proof.Machine
end

