-- ==== Sys2Proof/Machine/Arith.lean ====
section
/-!
DEFINITION. Exact arithmetic on slot words (R195 to R211): rounding half to even, words as mantissa and exponent, sums of
terms, conversions, the section types, and the integer square root of the Pacer.
-/
namespace Sys2Proof.Machine
open Sys2Proof

/-- `n / d` rounded to the nearest integer, half to even (`d` positive). -/
def rhe (n : Int) (d : Nat) : Int :=
  let q := n / (d : Int)
  let r := n % (d : Int)
  if 2 * r < d then q else if (d : Int) < 2 * r then q + 1 else if q % 2 = 0 then q else q + 1

/-- `m × 2^k` rounded half to even. -/
def scaleRhe (m k : Int) : Int := if 0 ≤ k then m * 2 ^ k.toNat else rhe m (2 ^ (-k).toNat)

/-- The greatest `r` below 2^n with r² ≤ v. -/
def isqrtN (v : Nat) : Nat → Nat → Nat
  | 0, r => r
  | n + 1, r => isqrtN v n (if (r + 2 ^ n) * (r + 2 ^ n) ≤ v then r + 2 ^ n else r)

/-- Floor square root of an unsigned 128-bit value (R237). -/
def isqrt (v : Nat) : Nat := isqrtN v 64 0

/-- Signed 64-bit saturation. -/
def sat64 (z : Int) : Int := clampI (-(2 ^ 63)) (2 ^ 63 - 1) z

/-! ### Slot words (R195) -/

/-- A slot word taken apart: mantissa, exponent, SAT, STALE. -/
structure Slot where
  m : Int
  e : Int
  sat : Bool
  stale : Bool
  deriving DecidableEq, Repr

/-- The word's parts. -/
def Slot.of (w : Word) : Slot :=
  ⟨sgn 24 (w.toNat / 256), sgn 6 w.toNat, nbit w.toNat 7, nbit w.toNat 6⟩

/-- The word of the parts. -/
def Slot.word (s : Slot) : Word :=
  wd (unsgn 24 s.m * 256 + b2n s.sat * 128 + b2n s.stale * 64 + unsgn 6 s.e)

/-- Zero without flags: what a disabled input reads (R211). -/
def Slot.zero : Slot := ⟨0, 0, false, false⟩

/-- The value of `m × 2^(e − 23)` in units of 2^−64 (exact, since e is at least −32). -/
def fx (m e : Int) : Int := m * 2 ^ (e + 41).toNat

/-- The greatest mantissa. -/
def mantMax : Int := 2 ^ 23 - 1

/-- The least mantissa. -/
def mantMin : Int := -(2 ^ 23)

/-- Saturation to 24 bits, and whether it acted. -/
def sat24 (z : Int) : Int × Bool := (clampI mantMin mantMax z, decide (z < mantMin) || decide (mantMax < z))

/-- A number `a × 2^w`, the value a conversion starts from. -/
structure Acc where
  a : Int
  w : Int
  deriving DecidableEq, Repr

/-- The mantissa, before saturation, of value `x` at exponent `e` (R202). -/
def Acc.mant (x : Acc) (e : Int) : Int := scaleRhe x.a (x.w + 23 - e)

/-- Conversion to exponent `e` (R202): mantissa and SAT. -/
def Acc.conv (x : Acc) (e : Int) : Int × Bool := sat24 (x.mant e)

/-- Whether the rounded mantissa at exponent `e` fits. -/
def Acc.fits (x : Acc) (e : Int) : Bool := !(x.conv e).2

/-- The smallest exponent from `emin` to 31 at which the mantissa fits; 31 when none does (R202). -/
def Acc.norm (x : Acc) (emin : Int) : Int :=
  match (List.range (32 - emin).toNat).find? fun i => x.fits (emin + i) with
  | some i => emin + i
  | none => 31

/-- The word a section writes for value `x` (R203). -/
def Acc.out (x : Acc) (normed : Bool) (oexp : Int) : Slot :=
  let e := if normed then x.norm oexp else oexp
  let (m, s) := x.conv e
  ⟨m, e, s, false⟩

/-- Normalised conversion with minimum −32 (R205). -/
def Acc.yn (x : Acc) : Slot := x.out true (-32)

/-- A term of a sum (R201): `m × 2^(t − 46)`. -/
structure Term where
  m : Int
  t : Int
  deriving DecidableEq, Repr

/-- The exact product of two mantissas. -/
def prod (m1 e1 m2 e2 : Int) : Term := ⟨m1 * m2, e1 + e2⟩

/-- A lone word as a term. -/
def lone (m e : Int) : Term := ⟨m * 2 ^ 23, e⟩

/-- The negated term. -/
def Term.neg (t : Term) : Term := ⟨-t.m, t.t⟩

/-- The sum of terms aligned to the largest term exponent, each rounded half to even at 2^(E_a − 46) (R201). -/
def sumTerms (ts : List Term) : Acc :=
  match ts with
  | [] => ⟨0, 0⟩
  | t :: r =>
    let ea := r.foldl (fun e x => max e x.t) t.t
    ⟨(ts.map fun x => rhe x.m (2 ^ (ea - x.t).toNat)).sum, ea - 46⟩

/-- The mantissa `m` reduced into 24-bit two's complement (R195, R206). -/
def wrap24 (m : Int) : Int := sgn 24 (unsgn 24 m)

/-! ### CORDIC (R209) -/

/-- α_i = atan(2^−i) × 2^26 / 2π, rounded half to even, for i = 0 to 23. -/
def cordicAlpha : List Int :=
  [8388608, 4952084, 2616545, 1328199, 666677, 333664, 166872, 83441, 41721, 20861, 10430, 5215,
   2608, 1304, 652, 326, 163, 81, 41, 20, 10, 5, 3, 1]

/-- K × 2^24 (R209). -/
def cordicK : Int := 10188014

/-- One iteration; `vec` chooses the direction rule of VECTOR. -/
def cordicStep (vec : Bool) (s : Int × Int × Int) (i : Nat) : Int × Int × Int :=
  let (x, y, z) := s
  let d : Int := if vec then (if y < 0 then 1 else -1) else (if 0 ≤ z then 1 else -1)
  (x - d * (y / 2 ^ i), y + d * (x / 2 ^ i), z - d * cordicAlpha.getD i 0)

/-- The 24 iterations. -/
def cordicRun (vec : Bool) (x y z : Int) : Int × Int × Int := (List.range 24).foldl (cordicStep vec) (x, y, z)

/-- `q` quarter turns counter-clockwise. -/
def quarter (q : Nat) (x y : Int) : Int × Int := forN q (fun _ p => (-p.2, p.1)) (x, y)

/-- An angle in turns as 26 bits (R209). -/
def cordicAngle (a : Slot) : Int := (scaleRhe a.m (a.e + 3)) % 2 ^ 26

/-- Rotation of a start vector by an angle: pre-rotation by quarter turns, then the iterations. -/
def cordicRotate (x y z : Int) : Int × Int :=
  let q := (z / 2 ^ 24).toNat % 4
  let (x, y) := quarter q x y
  let r := cordicRun false x y (z - (q : Int) * 2 ^ 24)
  (r.1, r.2.1)

/-- Two inputs aligned to their larger exponent as 26-bit values (24 bits and two guard bits), and that exponent. -/
def cordicAlign (a b : Slot) : Int × Int × Int :=
  let e := max a.e b.e
  (scaleRhe (4 * a.m) (a.e - e), scaleRhe (4 * b.m) (b.e - e), e)

/-- The quarter of a vector (R209). -/
def cordicQuadrant (x y : Int) : Nat :=
  if 0 < x ∧ 0 ≤ y then 0 else if x ≤ 0 ∧ 0 < y then 1 else if x < 0 ∧ y ≤ 0 then 2 else if 0 ≤ x ∧ y < 0 then 3 else 0

/-! ### Section types (R205 to R210) -/

/-- A section as one evaluation uses it: type, options, output conversion, minimum state exponent, coefficients with
their exponent, states with theirs, table parameters, and the words on its inputs. -/
structure SecIn where
  type : Nat
  opt : Nat
  norm : Bool
  oexp : Int
  smin : Int
  c : List Int
  ce : Int
  s1 : Int
  s2 : Int
  se : Int
  base : Nat
  len : Nat
  texp : Int
  x : List Slot
  tab : Nat → Int

/-- What an evaluation gives: the two output words and the new states. -/
structure SecOut where
  y0 : Slot
  y1 : Slot
  s1 : Int
  s2 : Int
  se : Int
  deriving DecidableEq, Repr

/-- Input `i`. -/
def SecIn.xi (s : SecIn) (i : Nat) : Slot := nth s.x i .zero

/-- Coefficient `k`. -/
def SecIn.ck (s : SecIn) (k : Nat) : Int := nth s.c k 0

/-- The product of coefficient `k` and the word `x`. -/
def SecIn.cx (s : SecIn) (k : Nat) (x : Slot) : Term := prod (s.ck k) s.ce x.m x.e

/-- Constants of CLARKE (R208), exponent 0. -/
def kx (k : Int) (x : Slot) : Term := prod k 0 x.m x.e

/-- The states after an evaluation: the smallest common exponent at which both fit, else saturated at 31 (R204). -/
def pickStates (a1 a2 : Acc) (smin : Int) : Int × Int × Int × Bool :=
  match (List.range (32 - smin).toNat).find? fun i => a1.fits (smin + i) && a2.fits (smin + i) with
  | some i => ((a1.conv (smin + i)).1, (a2.conv (smin + i)).1, smin + i, false)
  | none => ((a1.conv 31).1, (a2.conv 31).1, 31, true)

/-- An output that keeps the states. -/
def SecIn.keep (s : SecIn) (y0 y1 : Slot) : SecOut := ⟨y0, y1, s.s1, s.s2, s.se⟩

/-- The word of value `x` for this section. -/
def SecIn.out (s : SecIn) (x : Acc) : Slot := x.out s.norm s.oexp

/-- An exact value in units of 2^−64 as a conversion starts from it. -/
def acc64 (v : Int) : Acc := ⟨v, -64⟩

/-- BIQ (R205, R206). -/
def secBiq (s : SecIn) : SecOut :=
  let add := nbit s.opt 0
  let core := [s.cx 0 (s.xi 0), lone s.s1 s.se]
  let a0 := sumTerms core
  let ay := if add then sumTerms (core ++ [lone (s.xi 1).m (s.xi 1).e]) else a0
  if nbit s.opt 1 then
    let y0 : Slot := ⟨wrap24 (ay.mant s.oexp), s.oexp, false, false⟩
    let yn := (Acc.mk (wrap24 (a0.mant s.oexp)) (s.oexp - 23)).yn
    let n1 := sumTerms [s.cx 1 (s.xi 0), (s.cx 3 yn).neg, lone s.s2 s.se]
    let n2 := sumTerms [s.cx 2 (s.xi 0), (s.cx 4 yn).neg]
    ⟨y0, .zero, wrap24 (n1.mant s.oexp), wrap24 (n2.mant s.oexp), s.oexp⟩
  else
    let yn := a0.yn
    let n1 := sumTerms [s.cx 1 (s.xi 0), (s.cx 3 yn).neg, lone s.s2 s.se]
    let n2 := sumTerms [s.cx 2 (s.xi 0), (s.cx 4 yn).neg]
    let (p1, p2, e, sat) := pickStates n1 n2 s.smin
    let y0 := s.out ay
    ⟨{ y0 with sat := y0.sat || sat }, .zero, p1, p2, e⟩

/-- SUM. -/
def secSum (s : SecIn) : SecOut :=
  s.keep (s.out (sumTerms [s.cx 0 (s.xi 0), s.cx 1 (s.xi 1), s.cx 2 (s.xi 2), s.cx 3 (s.xi 3), lone (s.ck 4) s.ce])) .zero

/-- MUL. -/
def secMul (s : SecIn) : SecOut :=
  let p := (sumTerms [prod (s.xi 0).m (s.xi 0).e (s.xi 1).m (s.xi 1).e]).yn
  s.keep (s.out (sumTerms [s.cx 0 p, s.cx 1 (s.xi 2)])) .zero

/-- LIM (R207). -/
def secLim (s : SecIn) : SecOut :=
  let v := fun i => fx (s.xi i).m (s.xi i).e
  let k := fun i => fx (s.ck i) s.ce
  let bound := fun (lo hi z : Int) => max (min z hi) lo
  match s.opt % 4 with
  | 0 =>
    let y := bound (k 0) (k 1) (v 0)
    let w := s.out (acc64 y)
    s.keep { w with sat := w.sat || decide (y ≠ v 0) } .zero
  | 1 =>
    let y := bound (v 1) (v 2) (v 0)
    let w := s.out (acc64 y)
    s.keep { w with sat := w.sat || decide (y ≠ v 0) } .zero
  | 2 =>
    let d := v 0 - fx s.s1 s.se
    let r := bound (-(k 0)) (k 1) d
    let w := s.out (acc64 (fx s.s1 s.se + r))
    let (p1, p2, e, sat) := pickStates ⟨w.m, w.e - 23⟩ ⟨s.s2, s.se - 23⟩ s.smin
    ⟨{ w with sat := w.sat || decide (r ≠ d) || sat }, .zero, p1, p2, e⟩
  | _ =>
    let r := bound (-(k 0)) (k 0) (v 0)
    let w := s.out (acc64 (v 0 - r))
    s.keep { w with sat := w.sat || decide (r ≠ v 0) } .zero

/-- CLARKE and PARK (R208). -/
def secClarke (s : SecIn) : SecOut :=
  let k23 : Int := 5592405
  let k13 : Int := 2796203
  let kr3 : Int := 4843165
  let kh : Int := 4194304
  let ks : Int := 7264748
  if nbit s.opt 0 then
    s.keep (s.out (sumTerms [lone (s.xi 0).m (s.xi 0).e])) (s.out (sumTerms [(kx kh (s.xi 0)).neg, kx ks (s.xi 1)]))
  else
    s.keep (s.out (sumTerms [kx k23 (s.xi 0), (kx k13 (s.xi 1)).neg, (kx k13 (s.xi 2)).neg]))
      (s.out (sumTerms [kx kr3 (s.xi 1), (kx kr3 (s.xi 2)).neg]))

/-- PARK (R208). -/
def secPark (s : SecIn) : SecOut :=
  let p := fun i j => prod (s.xi i).m (s.xi i).e (s.xi j).m (s.xi j).e
  if nbit s.opt 0 then
    s.keep (s.out (sumTerms [p 0 2, (p 1 3).neg])) (s.out (sumTerms [p 0 3, p 1 2]))
  else
    s.keep (s.out (sumTerms [p 0 2, p 1 3])) (s.out (sumTerms [p 1 2, (p 0 3).neg]))

/-- CORDIC (R209). -/
def secCordic (s : SecIn) : SecOut :=
  match s.opt % 4 with
  | 0 =>
    let (x, y) := cordicRotate (cordicK * 4) 0 (cordicAngle (s.xi 0))
    s.keep (s.out ⟨x, -26⟩) (s.out ⟨y, -26⟩)
  | 1 =>
    let (a, b, e) := cordicAlign (s.xi 0) (s.xi 1)
    let (x, y) := cordicRotate a b (cordicAngle (s.xi 2))
    s.keep (s.out ⟨x * cordicK, e - 49⟩) (s.out ⟨y * cordicK, e - 49⟩)
  | _ =>
    let (a, b, e) := cordicAlign (s.xi 0) (s.xi 1)
    let q := cordicQuadrant a b
    let (x, y) := quarter ((4 - q) % 4) a b
    let (x, _, z) := cordicRun true x y ((q : Int) * 2 ^ 24)
    let z := (z + 2 ^ 25) % 2 ^ 26 - 2 ^ 25
    s.keep (s.out ⟨x * cordicK, e - 49⟩) (s.out ⟨z, -26⟩)

/-- Where a TBL section stands in its table (R210): u in entry units with 128 fraction bits, and the entry i. -/
def SecIn.tblAt (s : SecIn) : Int × Int :=
  let u := (fx (s.xi 0).m (s.xi 0).e - fx (s.ck 1) s.ce) * fx (s.ck 0) s.ce
  (u, clampI 0 ((s.len : Int) - 2) (u / 2 ^ 128))

/-- TBL (R210). -/
def secTbl (s : SecIn) : SecOut :=
  let (u, i) := s.tblAt
  let one : Int := 2 ^ 128
  let f := rhe (clampI 0 one (u - i * one) * 2 ^ 16) (2 ^ 128)
  let t0 := s.tab (s.base + i.toNat)
  let t1 := s.tab (s.base + i.toNat + 1)
  let w := s.out ⟨t0 * 2 ^ 16 + f * (t1 - t0), s.texp - 39⟩
  s.keep { w with sat := w.sat || decide (u < 0) || decide (((s.len : Int) - 1) * one < u) } .zero

/-- SEL (R205). -/
def secSel (s : SecIn) : SecOut :=
  let v := fun i => fx (s.xi i).m (s.xi i).e
  let p := if nbit s.opt 0 then decide (v 1 < v 0) else decide (v 1 ≤ v 0)
  s.keep (s.out (acc64 (if p then v 2 else v 3))) .zero

/-- One evaluation of a section (R205). -/
def SecIn.eval (s : SecIn) : SecOut :=
  match s.type with
  | 1 => secBiq s
  | 2 => secSum s
  | 3 => secMul s
  | 4 => secLim s
  | 5 => secClarke s
  | 6 => secPark s
  | 7 => secCordic s
  | 8 => secTbl s
  | 9 => secSel s
  | _ => s.keep .zero .zero

/-- The inputs that the computation of a type and option uses (R211). -/
def usedInputs (type opt : Nat) : List Nat :=
  match type with
  | 1 => if nbit opt 0 then [0, 1] else [0]
  | 2 => [0, 1, 2, 3]
  | 3 => [0, 1, 2]
  | 4 => if opt % 4 = 1 then [0, 1, 2] else [0]
  | 5 => if nbit opt 0 then [0, 1] else [0, 1, 2]
  | 6 => [0, 1, 2, 3]
  | 7 => match opt % 4 with | 0 => [0] | 1 => [0, 1, 2] | _ => [0, 1]
  | 8 => [0]
  | 9 => [0, 1, 2, 3]
  | _ => []

/-- The inputs that must be enabled (R211). -/
def neededInputs (type opt : Nat) : List Nat :=
  match type with
  | 1 => if nbit opt 0 then [0, 1] else [0]
  | 2 => [0]
  | 3 => [0, 1]
  | 4 => if opt % 4 = 1 then [0, 1, 2] else [0]
  | 5 => if nbit opt 0 then [0, 1] else [0, 1, 2]
  | 6 => [0, 1, 2, 3]
  | 7 => match opt % 4 with | 0 => [0] | 1 => [0, 1, 2] | _ => [0, 1]
  | 8 => [0]
  | 9 => [0, 1, 2, 3]
  | _ => []

/-- Whether a type writes OUT1 (R205, R211). -/
def hasOut1 (type : Nat) : Bool := decide (5 ≤ type) && decide (type ≤ 7)

/-- The option bits that are reserved for a type (R245). -/
def reservedOpt (type : Nat) : Nat :=
  match type with
  | 1 => 0xFC | 4 => 0xFC | 5 => 0xFE | 6 => 0xFE | 7 => 0xFC | 9 => 0xFE | _ => 0xFF

/-- Lane cycles of a section (R205). -/
def laneCycles (type opt : Nat) : Nat :=
  match type with
  | 1 => if nbit opt 0 then 6 else 5
  | 2 => 5 | 3 => 3 | 4 => 2 | 5 => 5 | 6 => 4 | 7 => 24 | 8 => 4 | 9 => 1 | _ => 0

/-- Result latency of a section in CK_SYS cycles (R226). -/
def secLatency (type : Nat) : Nat := match type with | 7 => 24 | 8 => 16 | _ => 12

end Sys2Proof.Machine
end

