-- ==== Sys2Proof/Machine/Slots.lean ====
section
/-!
DEFINITION. Signal slots and who writes them: claims and their release (R15, R154, R198, R199, R643, R680), the checks of
sections and output ports (R212), and a write to a slot with the output ports it feeds (R227).
-/
namespace Sys2Proof.Machine
open Sys2Proof

/-! ### Slots -/

/-- The word in slot `k`. -/
def Chip.slot (c : Chip) (k : Nat) : Word := c.rd (Key.slot k)

/-- A change of the Stride state. -/
def Chip.updStr (c : Chip) (g : StrSt → StrSt) : Chip := { c with str := g c.str }

/-- Output port `k` is blocked. -/
def Chip.portBad (c : Chip) (k : Nat) : Bool := c.bit (R.STR_OBAD (k / 32)) (k % 32)

/-- A word written to slot `k` goes on its way through every port enabled on that slot (R227); `from` is the group and
evaluation count of a writing section. -/
def Chip.putSlot (c : Chip) (k : Nat) (w : Word) (src : Option (Nat × Nat)) : Chip :=
  let c : Chip := c.wr (Key.slot k) w
  let ps := (List.range 48).filter fun p =>
    c.is (R.STR_OUT_CFG p) F.STR_OUT_CFG_EN && decide (c.f (R.STR_OUT_CFG p) F.STR_OUT_CFG_SLOT = k) && !c.portBad p
  c.updStr fun s => { s with ports := s.ports ++ ps.map fun p =>
    ⟨p, w, src.map (·.1), match src with | some x => x.2 | none => 0⟩ }

/-- STALE is set in the word that slot `k` holds; the rest of the word stays (R680). -/
def Chip.staleSlot (c : Chip) (k : Nat) : Chip := c.setBit (Key.slot k) 6 true

/-! ### Writers -/

namespace Cl
def afe (n : Nat) : Nat := 1 + n
def xmd (j : Nat) : Nat := 100 + j
def fw : Nat := 200
def hph (n : Nat) : Nat := 300 + n
def pcr (c : Nat) : Nat := 400 + c
def bpt (c : Nat) : Nat := 500 + c
def hrd : Nat := 600
def isl : Nat := 601
def imp : Nat := 602
def sub (k : Nat) : Nat := 700 + k
def sec (n : Nat) : Nat := 1000 + n
end Cl

/-- The writer that holds slot `k` (0 none). -/
def Chip.owner (c : Chip) (k : Nat) : Nat := SMap.get (fun _ => 0) c.str.owners k

/-- The sections whose record differs from its reset values, in ascending order (the others are of TYPE OFF). -/
def Chip.secList (c : Chip) : List Nat :=
  (List.range 512).filter fun n =>
    c.regs.any fun e => decide (Key.sec n 0 ≤ e.1) && decide (e.1 < Key.sec n 0x80)

/-- Word `o` of the record of section `n`. -/
def Chip.sec (c : Chip) (n o : Nat) : Word := c.rd (Key.sec n o)

/-- TYPE of section `n`. -/
def Chip.secType (c : Chip) (n : Nat) : Nat := fget (c.sec n 0) F.STRW_SEC_CFG_TYPE

/-- The output slots of section `n` (R205, R211). -/
def secSlots (cfg out : Word) : List Nat :=
  (if fget out F.STRW_SEC_OUT_OUT0_EN = 1 then [fget out F.STRW_SEC_OUT_OUT0] else []) ++
  (if fget out F.STRW_SEC_OUT_OUT1_EN = 1 && hasOut1 (fget cfg F.STRW_SEC_CFG_TYPE) then
    [fget out F.STRW_SEC_OUT_OUT1] else [])

/-- Whether input `i` is enabled, and its slot. -/
def secInput (in01 in23 : Word) (i : Nat) : Option Nat :=
  let w := if i < 2 then in01 else in23
  if i % 2 = 0 then (if nbit w.toNat 15 then some (w.toNat % 1024) else none)
  else (if nbit w.toNat 31 then some (w.toNat / 2 ^ 16 % 1024) else none)

/-- The cause that blocks section `n`, the claims of its slots apart (R212): TYPE 2, TABLE 3, FORMAT 5, INPUT 6, ECC 7. -/
def Chip.secCause (c : Chip) (n : Nat) : Option Nat :=
  let cfg := c.sec n 0
  let type := fget cfg F.STRW_SEC_CFG_TYPE
  let opt := fget cfg F.STRW_SEC_CFG_OPT
  let tp := c.sec n 0x10
  let lg := fget tp F.STRW_SEC_TPARAM_LOG2LEN
  if type = 0 then none
  else if 10 ≤ type ∨ opt &&& reservedOpt type ≠ 0 ∨ (type = 7 ∧ opt % 4 = 3) then some 2
  else if type = 8 ∧ (lg = 0 ∨ 10 < lg ∨ 4096 < fget tp F.STRW_SEC_TPARAM_BASE + 2 ^ lg) then some 3
  else if type = 1 ∧ nbit opt 1 ∧ nbit cfg.toNat 15 then some 5
  else if (neededInputs type opt).any (fun i => (secInput (c.sec n 4) (c.sec n 8) i).isNone)
      || !nbit (c.sec n 0xC).toNat 15 then some 6
  else if c.str.ecc.contains n then some 7
  else none

/-- `n` consecutive slots from `k`, within the 1,024. -/
def runSlots (k n : Nat) : List Nat := (List.range n).map fun i => (k + i) % 1024

/-- The slots that the enabled HRD, ISL and IMP units claim (R267, R281, R292). -/
def Chip.unitWants (c : Chip) : List (Nat × List Nat) :=
  (if c.is R.HRD_CTL F.HRD_CTL_EN then [(Cl.hrd, runSlots (c.f R.HRD_CTL F.HRD_CTL_OUT_BASE) 6)] else []) ++
  (if c.is R.ISL_CTL F.ISL_CTL_EN then [(Cl.isl, [c.f R.ISL_CTL F.ISL_CTL_OUT])] else []) ++
  (if c.is R.IMP_CTL F.IMP_CTL_EN then
    [(Cl.imp, c.f R.IMP_CTL F.IMP_CTL_OUT ::
      (if c.is R.IMP_CTL F.IMP_CTL_RES_EN then runSlots (c.f R.IMP_RES F.IMP_RES_RES) 2 else []))]
   else [])

/-- What the enabled claimants want, in ascending order of the register that holds the claim (R198): the claimant and its
slots. Each SEQ entry of a logical channel claims by itself (R154). -/
def Chip.wants (c : Chip) : List (Nat × List Nat) :=
  let seq := fun (g : Nat) => (List.range 64).filterMap fun k =>
    let lo := c.rd (if g = 0 then R.SEQ_E_LO0 k else R.SEQ_E_LO1 k)
    let hi := c.rd (if g = 0 then R.SEQ_E_HI0 k else R.SEQ_E_HI1 k)
    if fget lo F.SEQ_E_LO0_VALID = 1 && fget hi F.SEQ_E_HI0_SLOT_EN = 1 && decide (fget lo F.SEQ_E_LO0_LCH < 5) then
      some (Cl.afe (5 * g + fget lo F.SEQ_E_LO0_LCH), [fget hi F.SEQ_E_HI0_SLOT])
    else none
  let xmd := (List.range 24).filterMap fun j =>
    let w := c.rd (R.XMD_CH_CF (j / 12) (j % 12))
    if fget w F.XMD_CH_CF_SLOT_EN = 1 then some (Cl.xmd j, [fget w F.XMD_CH_CF_SLOT]) else none
  let fw := (List.range 32).flatMap fun i =>
    let w := (c.rd (R.STR_FWSLOT i)).toNat
    if w = 0 then [] else (List.range 32).filterMap fun b => if nbit w b then some (Cl.fw, [32 * i + b]) else none
  let hph := (List.range 4).filterMap fun n =>
    let w := c.rd (R.STR_HPH_CFG n)
    if fget w F.STR_HPH_CFG_EN = 1 then some (Cl.hph n, [fget w F.STR_HPH_CFG_SLOT]) else none
  let sec := c.secList.filterMap fun n =>
    if c.secType n ≠ 0 && (c.secCause n).isNone then some (Cl.sec n, secSlots (c.sec n 0) (c.sec n 0xC)) else none
  let pcr := (List.range 16).filterMap fun k =>
    let w := c.rd (R.PCR_CH_SLOTS k)
    if c.bit R.PCR_CTL k then
      some (Cl.pcr k, fget w F.PCR_CH_SLOTS_OSLOT ::
        (if c.is (R.PCR_CH_CFG k) F.PCR_CH_CFG_VOUT_EN then [fget w F.PCR_CH_SLOTS_VSLOT] else []))
    else none
  let bpt := (List.range 4).filterMap fun k =>
    if c.bit R.BPT_CTL k then some (Cl.bpt k, [c.f (R.BPT_CH_SLOTS1 k) F.BPT_CH_SLOTS1_OUT]) else none
  let sub := (List.range 64).filterMap fun k =>
    if c.is (R.FAB_SUB_A k) F.FAB_SUB_A_EN then
      some (Cl.sub k, runSlots (c.f (R.FAB_SUB_B k) F.FAB_SUB_B_FIRST) (c.f (R.FAB_SUB_B k) F.FAB_SUB_B_NWORDS))
    else none
  seq 0 ++ seq 1 ++ xmd ++ fw ++ hph ++ sec ++ pcr ++ bpt ++ c.unitWants ++ sub

/-! ### Releases and admissions -/

/-- The claims that have ended are released: STALE is set in each such slot (R680). -/
def Chip.releaseClaims (c : Chip) (ws : List (Nat × List Nat)) : Chip :=
  c.str.owners.foldl (fun c o =>
    if ws.any fun w => decide (w.1 = o.2) && w.2.contains o.1 then c
    else (c.updStr fun s => { s with owners := s.owners.erase o.1 }).staleSlot o.1) c

/-- Whether claimant `w.1` can hold its slots: each is free or its own. -/
def Chip.canClaim (c : Chip) (w : Nat × List Nat) : Bool :=
  w.2.all fun k => decide (c.owner k = 0) || decide (c.owner k = w.1)

/-- A claimant that cannot hold all its slots holds none of them: what it had is released (R198, R212, R680). -/
def Chip.dropClaims (c : Chip) (ws : List (Nat × List Nat)) : Chip :=
  ws.foldl (fun c w =>
    if c.canClaim w then c
    else w.2.foldl (fun c k =>
      if c.owner k = w.1 then (c.updStr fun s => { s with owners := s.owners.erase k }).staleSlot k else c) c) c

/-- The claims are admitted in turn, each wholly or not at all (R198). -/
def Chip.admitClaims (c : Chip) (ws : List (Nat × List Nat)) : Chip :=
  ws.foldl (fun c w =>
    if c.canClaim w then
      c.updStr fun s => { s with owners := w.2.foldl (fun o k => SMap.put (fun _ => 0) o k w.1) s.owners }
    else c) c

/-- Claimant `cl` holds slot `k`. -/
def Chip.holds (c : Chip) (cl k : Nat) : Bool := decide (c.owner k = cl)

/-- Cause `x` of source `src` in STR.ERR, and BLOCKED (R212, R225, R247). -/
def Chip.strBlock (c : Chip) (src x : Nat) : Chip :=
  ((c.setF R.STR_ERR F.STR_ERR_SRC src).setF R.STR_ERR F.STR_ERR_CAUSE x).raise P.STR 1

/-- Section `n`'s blocked bits follow the present cause (R212): a section newly blocked, or blocked for another cause, is recorded, and one
newly blocked sets STALE in each slot that it would have written and that no other writer holds. -/
def Chip.markSection (c : Chip) (n : Nat) : Chip :=
  let type := c.secType n
  let slots := secSlots (c.sec n 0) (c.sec n 0xC)
  let cause : Option Nat :=
    if type = 0 then none
    else match c.secCause n with
      | some x => some x
      | none => if slots.all (c.holds (Cl.sec n)) then none else some 1
  let was := SMap.get (fun _ => 0) c.str.causes n
  let now := cause.getD 0
  let c : Chip := (c.setBit (R.STR_BAD (n / 32)) (n % 32) cause.isSome).flag (Key.sec n 0x6C) F.STRW_SEC_SSTAT_BLOCKED cause.isSome
  if now = was then c
  else
    let c : Chip := c.updStr fun s => { s with causes := s.causes.put (fun _ => 0) n now }
    if now = 0 then c
    else
      let c : Chip := if was = 0 then slots.foldl (fun c k => if c.owner k = 0 then c.staleSlot k else c) c else c
      c.strBlock n now

/-- A firmware claim that is refused leaves its FWSLOT bit 0 (R198, R212). -/
def Chip.markFw (c : Chip) : Chip :=
  forN 32 (fun i c =>
    let w := c.rdN (R.STR_FWSLOT i)
    if w = 0 then c
    else forN 32 (fun b c =>
      if nbit w b && !c.holds Cl.fw (32 * i + b) then
        (c.setBit (R.STR_FWSLOT i) b false).strBlock 0x3FF 1
      else c) c) c

/-- The SEQ entry `k` of group `g`. -/
def Chip.seqEntry (c : Chip) (g k : Nat) : Word × Word :=
  (c.rd (if g = 0 then R.SEQ_E_LO0 k else R.SEQ_E_LO1 k), c.rd (if g = 0 then R.SEQ_E_HI0 k else R.SEQ_E_HI1 k))

/-- The modulator clock in Hz: 12.5 MHz, or 1.5625 MHz with LP = 1 (R149, R150). -/
def Chip.fmod (c : Chip) : Nat := if c.is R.AFE_CTL F.AFE_CTL_LP then 1562500 else 12500000

/-- The cause that makes a valid-marked SEQ entry invalid (R161). -/
def Chip.seqCause (c : Chip) (g k : Nat) : Option Nat :=
  let (lo, hi) := c.seqEntry g k
  let d1 := fget lo F.SEQ_E_LO0_D1
  let div := if fget lo F.SEQ_E_LO0_FILT = 0 then 2 * d1 else d1
  let lch := fget lo F.SEQ_E_LO0_LCH
  if fget lo F.SEQ_E_LO0_VALID = 0 then none
  else if d1 < 16 ∨ c.fmod < 100 * div ∨ 50000 * div < c.fmod then some 2
  else if 5 ≤ lch then some 3
  else if 0x15 ≤ fget lo F.SEQ_E_LO0_INP then some 4
  else if 5 ≤ fget lo F.SEQ_E_LO0_PGA then some 5
  else if fget hi F.SEQ_E_HI0_SLOT_EN = 1 ∧ c.owner (fget hi F.SEQ_E_HI0_SLOT) ≠ Cl.afe (5 * g + lch) then some 1
  else none

/-- The entries are checked: a newly invalid one is shown in SEQ.BAD and SEQ.ERR and raises SEQ_ERR (R161). -/
def Chip.markSeq (c : Chip) : Chip :=
  forN 2 (fun g c => forN 64 (fun k c =>
    let r := R.SEQ_BAD (2 * g + k / 32)
    match c.seqCause g k with
    | none => if c.bit r (k % 32) then c.setBit r (k % 32) false else c
    | some x =>
      if c.bit r (k % 32) then c
      else
        let c : Chip := (c.setBit r (k % 32) true).setF R.SEQ_ERR F.SEQ_ERR_ENTRY (64 * g + k)
        (c.setF R.SEQ_ERR F.SEQ_ERR_CAUSE x).raise P.SEQ 0) c) c

/-- Phase generator `n` writes nothing while its claim is refused, which OBAD_1 shows (R225). -/
def Chip.markHph (c : Chip) : Chip :=
  forN 4 (fun n c =>
    let w := c.rd (R.STR_HPH_CFG n)
    let bad := decide (fget w F.STR_HPH_CFG_EN = 1) && !c.holds (Cl.hph n) (fget w F.STR_HPH_CFG_SLOT)
    if bad && !c.bit (R.STR_OBAD 1) (16 + n) then (c.setBit (R.STR_OBAD 1) (16 + n) true).strBlock (0x240 + n) 1
    else c.setBit (R.STR_OBAD 1) (16 + n) bad) c

/-- Whether output port `k` has no valid destination (R212 cause DEST, R228): REG reserved, DUTY to PERIOD, or a
lower-numbered enabled port on the same register. -/
def Chip.portDest (c : Chip) (k : Nat) : Bool :=
  let w := c.rd (R.STR_OUT_CFG k)
  let dst := fun (w : Word) => (fget w F.STR_OUT_CFG_CH, fget w F.STR_OUT_CFG_REG)
  fget w F.STR_OUT_CFG_EN = 1 &&
    (fget w F.STR_OUT_CFG_REG = 3 || (fget w F.STR_OUT_CFG_REG = 2 && fget w F.STR_OUT_CFG_CONV = 0)
      || (List.range k).any fun j =>
        let v := c.rd (R.STR_OUT_CFG j)
        fget v F.STR_OUT_CFG_EN = 1 && dst v = dst w)

/-- The output ports are checked (R212). -/
def Chip.markPorts (c : Chip) : Chip :=
  forN 48 (fun k c =>
    let bad := c.portDest k
    let c' : Chip := c.setBit (R.STR_OBAD (k / 32)) (k % 32) bad
    if bad && !c.portBad k then c'.strBlock (0x200 + k) 4 else c') c

/-- Whether Pacer channel `k` has a configuration error (R242). -/
def Chip.pcrBad (c : Chip) (k : Nat) : Bool :=
  let neg := fun r => decide (sgn 24 (c.rdN r / 256) ≤ 0)
  let dt := c.rdN (R.PCR_CH_DT k)
  let os := c.f (R.PCR_CH_SLOTS k) F.PCR_CH_SLOTS_OSLOT
  neg (R.PCR_CH_VLIM k) || neg (R.PCR_CH_ALIM k) || neg (R.PCR_CH_JLIM k) || neg (R.PCR_CH_ERATE k)
    || decide (dt < 500) || decide (1000000000 < dt) || !c.holds (Cl.pcr k) os
    || (c.is (R.PCR_CH_CFG k) F.PCR_CH_CFG_VOUT_EN
        && !c.holds (Cl.pcr k) (c.f (R.PCR_CH_SLOTS k) F.PCR_CH_SLOTS_VSLOT))
    || (c.is (R.PCR_CH_CFG k) F.PCR_CH_CFG_TGT_SRC && decide (c.f (R.PCR_CH_CFG k) F.PCR_CH_CFG_TSLOT = os))

/-- The enabled Pacer channels are checked: a newly found error is shown and raises CFG_ERR (R242). -/
def Chip.markPcr (c : Chip) : Chip :=
  forN 16 (fun k c =>
    let bad := c.bit R.PCR_CTL k && c.pcrBad k
    let c' : Chip := c.setBit R.PCR_ESTAT (16 + k) bad
    if bad && !c.bit R.PCR_ESTAT (16 + k) then c'.raise P.PCR 2 else c') c

/-- Everything that follows a change to a claim or to a checked record: releases before admissions (R643), then the marks
of what is refused. -/
def Chip.claims (c : Chip) : Chip :=
  let ws := c.wants
  let c : Chip := (((c.releaseClaims ws).dropClaims ws).admitClaims ws).dropClaims ws
  let bad := (List.range 16).flatMap fun w =>
    let v := c.rdN (R.STR_BAD w)
    if v = 0 then [] else (List.range 32).filterMap fun b => if nbit v b then some (32 * w + b) else none
  let c : Chip := (c.secList ++ bad.filter fun n => !c.secList.contains n).foldl (fun c n => c.markSection n) c
  let c : Chip := (c.markFw.markSeq).markHph
  c.markPorts.markPcr

/-- An ECC error is counted (R213): one bit corrected, or an uncorrectable one. -/
def Chip.eccCount (c : Chip) (e : EccError) : Chip :=
  match e with
  | .none => c
  | .corrected => (c.incSat R.STR_ECC F.STR_ECC_CE).raise P.STR 8
  | _ => (c.incSat R.STR_ECC F.STR_ECC_UE).raise P.STR 4

/-- What ECC finds in the words of the slots `l` as a unit other than a section reads them (R213; log entry 119, DEDUCED): the error counted,
and the slot that reads as zero with STALE. -/
def Chip.eccSlots (c : Chip) (l : List Nat) (e : EccError) : Chip × Option Nat :=
  match e with
  | .corrected => if l = [] then (c, none) else (c.eccCount e, none)
  | .slot k => if l.contains k.val then (c.eccCount e, some k.val) else (c, none)
  | _ => (c, none)

end Sys2Proof.Machine
end

