-- ==== Sys2Proof/Machine/Fabric.lean ====
section
/-!
DEFINITION. The fabric above the lanes (*Trotum Fabric and the Herd*): muster commands and messages (R460 to R470, R491), route
tables (R471 to R473), herd time over the fabric (R480 to R482), publications (R483, R484), opening and closing sessions
(R488, R489), and the herd-transaction packets. The layouts of ANNOUNCE, ID_REQ, ID_GRANT, TOPO_REPORT and the TIME kinds,
which the spec does not give, are the model's (log entry 35, DESIGN CHOICE).
-/
namespace Sys2Proof.Machine
open Sys2Proof

/-! ### Credits -/

/-- A control block returns `k` credits for a VC (R476). -/
def doCreditRx (n : Fin 8) (vc : Fin 6) (k : BitVec 8) (c : Chip) : Chip :=
  c.clocked (P.LANE n) fun c => if c.laneUp n then c.updLane n fun l => { l with cred := upd l.cred vc (· + k.toNat) } else c

/-! ### Election (R460 to R464) -/

/-- The session of muster kinds: the herd session where HERD_AUTH asks for it and OPEN_MUSTER does not allow none (R456). -/
def Chip.musSes (c : Chip) : Option Nat :=
  if c.is R.FAB_CTL F.FAB_CTL_HERD_AUTH && !c.is R.FAB_CTL F.FAB_CTL_OPEN_MUSTER then some 0 else none

/-- Every ANN_MS: an ANNOUNCE on each ACTIVE lane of each plane on which a root is known (R461). Words: rank (2), root ID with
SEATED in bit 31, level (0xFF none), own ID. -/
def doAnnounceSend (c : Chip) : Chip :=
  -- the device's own rank follows its class (R460) as it announces it
  c.clocked P.MUS fun c => forN 8 (fun n c =>
    let p := planeOf n
    match c.root p with
    | some r =>
      if c.laneUp n && c.joined p then
        c.emit (c.packet 0x04 2 0 0 c.musSes 0
          (words64 r.rank ++ [b2n r.seated * 2 ^ 31 + r.id, (c.plevel p).getD 0xFF, c.myId])) 0 (some n)
      else c
    | none => c) c.musFollow

/-- An ANNOUNCE on lane `n` (R461, R462). -/
def doAnnounceRx (n : Fin 8) (p : Packet) (c : Chip) : Chip :=
  c.consume p fun c =>
    let a : Ann := ⟨p.w64 0, p.w 2 % 2 ^ 15, nbit (p.w 2) 31, p.w 3 % 256, p.w 4 % 2 ^ 15⟩
    (c.updLane n fun l => { l with ann := some a }).musFollow

/-- After listening without hearing a root, a capable device that knows no better rank announces itself (R461). -/
def doRootClaim (plane : Fin 2) (c : Chip) : Chip :=
  c.clocked P.MUS fun c =>
    let better := match c.bellwether with | some r => r.better (c.ownRoot plane) | none => false
    if c.joined plane && c.is R.MUS_CFG F.MUS_CFG_BW_CAPABLE && (c.root plane).isNone && !better then
      (c.updFab fun f => { f with
        claim := upd f.claim plane fun _ => true, seated := upd f.seated plane fun _ => false }).musFollow
    else c

/-- A root that has announced itself for 3 × ANN_MS without hearing a better rank is seated (R461). -/
def doRootSeat (plane : Fin 2) (c : Chip) : Chip :=
  c.clocked P.MUS fun c =>
    if c.rootClaim plane then (c.updFab fun f => { f with seated := upd f.seated plane fun _ => true }).musFollow else c

/-- 3 × ANN_MS without an ANNOUNCE for the root held on a plane: the root is lost there, unless one arrives in this cycle (R464). -/
def doRootLost (plane : Fin 2) (heard : Bool) (c : Chip) : Chip :=
  c.clocked P.MUS fun c =>
    match c.root plane with
    | some r =>
      if heard || c.rootClaim plane then c
      else
        let c : Chip := (lanesOf plane).foldl (fun c n => c.updLane n fun l =>
          { l with ann := l.ann.bind fun a => if a.isFor r then none else some a }) c
        (c.updFab fun f => { f with
          roots := upd f.roots plane fun _ => none, deep := upd f.deep plane fun _ => false }).musFollow
    | none => c

/-! ### IDs (R465, R466) -/

/-- The payload unit of a TREE-cast packet (R467): route record, plane and direction, target level. -/
def treeUnit (route plane level : Nat) (down : Bool) : List Nat :=
  words64 route ++ [plane + 2 * b2n down + 256 * level, 0, 0, 0, 0, 0]

/-- This device takes ID `id` by a grant (R465, R466). -/
def Chip.takeId (c : Chip) (id : Nat) : Chip :=
  if id = 0 then
    ((c.flag R.MUS_STAT F.MUS_STAT_CONFLICT true).wrN R.FAB_ID 0).raise P.MUS 2 |>.musFollow
  else ((c.wrN R.FAB_ID (2 ^ 31 + id)).raise P.MUS 1).musFollow

/-- An ID_GRANT of `id` for `serial` goes down the tree to a member; to this device itself it is taken at once. -/
def Chip.grantTo (c : Chip) (route plane level serial id tag : Nat) : Chip :=
  if serial = c.serial then c.takeId id
  else c.emit (c.packet 0x29 3 3 id c.musSes tag (treeUnit route plane level true ++ words64 serial ++ [id])) (2 ^ plane) none

/-- Whether no member holds `id`. -/
def Chip.idFree (c : Chip) (id : Nat) : Bool :=
  decide (0 < id) && decide (id < 0x7FFF) && c.fab.members.all fun m => decide (m.id ≠ id)

/-- Whether `id` keeps R453: member 0xFF only when every other ID of its region is taken. -/
def Chip.idLast (c : Chip) (id : Nat) : Bool :=
  decide (id % 256 ≠ 255) || (List.range 255).all fun m => !c.idFree (id / 256 * 256 + m)

/-- The ID that the bellwether chooses for `serial` with preference word `pref` (R465). -/
def Chip.idFor (c : Chip) (serial pref : Nat) : Nat :=
  let l := c.fab.members
  match l.find? fun m => m.st = 3 && m.serial = serial with
  | some m => m.id
  | none =>
    match l.find? fun m => m.serial = serial with
    | some m => m.id
    | none =>
      let want := pref % 2 ^ 15
      if nbit pref 31 && c.idFree want && c.idLast want then want
      else (((List.range (l.length + 1)).map (· + 1)).find? fun i => c.idFree i).getD 0

/-- The map has `id` for `serial`: MEMBER_JOIN where it was not an active member. -/
def Chip.mapMember (c : Chip) (m : Member) : Chip :=
  let was := c.fab.members.any fun x => x.id = m.id && x.serial = m.serial && x.st = 1
  let rest := c.fab.members.filter fun x => x.id ≠ m.id && x.serial ≠ m.serial
  (c.setMembers (rest ++ [m])).raiseIf (!was) P.MUS 3

/-- The bellwether grants an ID (R465). -/
def Chip.grantId (c : Chip) (route plane level serial pref tag : Nat) : Chip :=
  let id := c.idFor serial pref
  if id = 0 then c
  else (c.mapMember ⟨id, serial, 1, plane, level, route, []⟩).grantTo route plane level serial id tag

/-- A device without an ID asks for one up a plane's tree (R465). Words after the TREE unit: serial (2), ID_PREF. -/
def doIdReqSend (plane : Fin 2) (c : Chip) : Chip :=
  c.clocked P.MUS fun c =>
    match c.plevel plane with
    | none => c
    | some l =>
      if c.is R.FAB_ID F.FAB_ID_VALID then c
      else if l = 0 then c.grantId 0 plane 0 c.serial (c.rdN R.MUS_ID_PREF) 0
      else c.emit (c.packet 0x28 4 3 0 c.musSes 0
        (treeUnit 0 plane l false ++ words64 c.serial ++ [c.rdN R.MUS_ID_PREF])) (2 ^ plane.val) none

/-- An ID_REQ at the bellwether (R465). -/
def doIdReqRx (plane : Fin 2) (p : Packet) (c : Chip) : Chip :=
  c.consume p fun c =>
    if c.is R.MUS_STAT F.MUS_STAT_IS_BW then
      c.grantId (p.w64 0) plane (p.w 2 / 256 % 256) (p.w64 8 % 2 ^ 48) (p.w 10) p.tag.toNat
    else c

/-- An ID_GRANT reaches its target, named by serial (R465 to R467). -/
def doIdGrantRx (p : Packet) (c : Chip) : Chip :=
  c.consume p fun c => if p.w64 8 % 2 ^ 48 = c.serial then c.takeId (p.w 10 % 2 ^ 15) else c

/-! ### Reports (R468, R469, R491) -/

/-- The members that no active member reports an ACTIVE lane to any longer, where one did in `old`. -/
def lostMembers (old new : List Member) (me : Nat) : List Nat :=
  let sees := fun (l : List Member) (id : Nat) => l.any fun m => m.st = 1 && m.lanes.any fun x => x = (id, Ls.active)
  (new.filter fun m => m.st = 1 && m.id ≠ me && sees old m.id && !sees new m.id).map Member.id

/-- A report of member `id` with `serial` at the bellwether: the map follows, one ID held by two serials is kept for the lower,
a member that leaves or is lost is marked, and a change recomputes the tables. -/
def Chip.topoTake (c : Chip) (plane level route id serial : Nat) (lanes : List (Nat × Nat)) : Chip :=
  if !c.is R.MUS_STAT F.MUS_STAT_IS_BW then c
  else
    match c.fab.members.find? fun m => m.id = id && m.serial ≠ serial with
    | some m =>
      if m.st ≠ 1 ∨ m.serial < serial then c.grantTo route plane level serial 0 0
      else (c.mapMember ⟨id, serial, 1, plane, level, route, lanes⟩).grantTo m.route m.plane m.lvl m.serial 0 0
    | none =>
      let old := c.fab.members
      let prev := old.find? fun m => m.id = id
      let leaves := lanes.all fun x => x.2 = 0xF
      let m : Member := ⟨id, serial, if leaves then 2 else 1, plane, level, route, lanes⟩
      let was := match prev with | some p => decide (p.st = 1) | none => false
      let c : Chip := c.setMembers ((old.filter fun x => x.id ≠ id && x.serial ≠ serial) ++ [m])
      let c : Chip := if leaves then c.raiseIf was P.MUS 4 else c.raiseIf (!was) P.MUS 3
      let lost := (lostMembers old c.fab.members c.myId).filter (· ≠ id)
      let c : Chip := (c.setMembers (c.fab.members.map fun x => if lost.contains x.id then { x with st := 2 } else x)).raiseIf
        (!lost.isEmpty) P.MUS 4
      let same := match prev with | some p => decide (p.lanes = lanes) && decide (p.st = m.st) | none => false
      if same && lost.isEmpty then c else c.recompute

/-- A TOPO_REPORT goes up each plane on which the device has a level (R468). Words after the TREE unit: ID, serial (2), levels
(A in bits 7:0, B in 15:8), and for each lane the partner ID with the state in bits 19:16. -/
def Chip.topoReport (c : Chip) : Chip :=
  if !c.is R.FAB_ID F.FAB_ID_VALID then c
  else forN 2 (fun p c =>
    match c.plevel p with
    | none => c
    | some 0 => c.topoTake p 0 0 c.myId c.serial c.myLanes
    | some l => c.emit (c.packet 0x2A 4 3 0 c.musSes 0 (treeUnit 0 p l false ++ [c.myId] ++ words64 c.serial ++
        [(c.plevel 0).getD 0xFF + 256 * (c.plevel 1).getD 0xFF] ++ c.myLanes.map fun x => x.1 + 2 ^ 16 * x.2)) (2 ^ p) none) c

/-- TOPO_REPORT_SEND (R468). -/
def doTopoReportSend (c : Chip) : Chip := c.clocked P.MUS Chip.topoReport

/-- A TOPO_REPORT at the bellwether, which acknowledges it (R468, R469). -/
def doTopoReportRx (plane : Fin 2) (p : Packet) (c : Chip) : Chip :=
  c.consume p fun c =>
    let lanes := (List.range 8).map fun i => (p.w (12 + i) % 2 ^ 15, p.w (12 + i) / 2 ^ 16 % 16)
    let level := p.w 2 / 256 % 256
    let c : Chip := c.emit (c.packet 0x2B 3 3 (p.w 8 % 2 ^ 15) c.musSes p.tag.toNat
      (treeUnit (p.w64 0) plane level true ++ words64 (p.w64 9))) (2 ^ plane.val) none
    c.topoTake plane level (p.w64 0) (p.w 8 % 2 ^ 15) (p.w64 9 % 2 ^ 48) lanes

/-! ### MUS.CMD (R491, R493) -/

/-- Muster starts again, keeping the ID (R493, R495). -/
def Chip.musRestart (c : Chip) : Chip :=
  let c : Chip := forN 8 (fun n c => c.updLane n fun l => { l with ann := none }) c
  let c : Chip := c.updFab fun f => { f with
    roots := [none, none], claim := [false, false], seated := [false, false], deep := [false, false], members := [],
    leaving := false, left := false }
  (((c.setLevel 0 0xFF 0).setLevel 1 0xFF 0).musShow).musFollow

/-- MUS.CMD: 1 RESTART, 2 LEAVE, and of the bellwether only 3 RECOMPUTE, 4 REPLACE, 5 FORGET. -/
def Chip.musCmd (c : Chip) (op i : Nat) : Chip :=
  let bw := c.is R.MUS_STAT F.MUS_STAT_IS_BW
  match op with
  | 1 => c.musRestart
  | 2 => (c.updFab fun f => { f with leaving := true }).topoReport
  | 3 => if bw then c.recompute else c.refuse R.MUS_CMD i
  | 4 =>
    if bw then
      let id := c.f R.MUS_REPL_ID F.MUS_REPL_ID_ID
      let ser := c.rdN R.MUS_REPL_SER_LO + 2 ^ 32 * c.f R.MUS_REPL_SER_HI F.MUS_REPL_SER_HI_SER
      c.setMembers ((c.fab.members.filter fun m => m.id ≠ id) ++ [⟨id, ser, 3, 0, 0, 0, []⟩])
    else c.refuse R.MUS_CMD i
  | 5 =>
    if bw then c.setMembers (c.fab.members.filter fun m => m.id ≠ c.f R.MUS_QUERY F.MUS_QUERY_ID)
    else c.refuse R.MUS_CMD i
  | _ => c.refuse R.MUS_CMD i

/-- MUS.CMD RESTART (R493). -/
def doMusRestart (w : Writer) (key : BitVec 16) (c : Chip) : Chip := c.cmd R.MUS_CMD w key fun c => c.musCmd 1 w.ini.code
/-- MUS.CMD LEAVE (R491). -/
def doMusLeave (w : Writer) (key : BitVec 16) (c : Chip) : Chip := c.cmd R.MUS_CMD w key fun c => c.musCmd 2 w.ini.code
/-- MUS.CMD RECOMPUTE (R469). -/
def doMusRecompute (w : Writer) (key : BitVec 16) (c : Chip) : Chip := c.cmd R.MUS_CMD w key fun c => c.musCmd 3 w.ini.code
/-- MUS.CMD REPLACE (R465). -/
def doMusReplace (w : Writer) (key : BitVec 16) (c : Chip) : Chip := c.cmd R.MUS_CMD w key fun c => c.musCmd 4 w.ini.code
/-- MUS.CMD FORGET (R493). -/
def doMusForget (w : Writer) (key : BitVec 16) (c : Chip) : Chip := c.cmd R.MUS_CMD w key fun c => c.musCmd 5 w.ini.code

/-! ### Route tables (R471 to R473, R492) -/

/-- FAB.PG_CRC is stale after a change of a route bank (R60, R492). -/
def Chip.routesChanged (c : Chip) : Chip :=
  if c.crcBusy.contains P.FAB then c else { c with crcBusy := c.crcBusy ++ [P.FAB] }

/-- A table write refused (R473). -/
def Chip.tableRefused (c : Chip) (k i : Nat) : Chip :=
  ((c.refuse k i).incSat R.FAB_CNT_1 F.FAB_CNT_1_TBL_REJ).raise P.FAB 3

/-- Word `k` of the bank that FAB.SEL selects is written (R473): 0 to 127 RT_R, 128 to 383 RT_M, 384 RT_DIR. -/
def Chip.routeWrite (c : Chip) (k : Nat) (v : Word) (i : Nat) : Chip :=
  let p := c.f R.FAB_SEL F.FAB_SEL_PLANE
  let b := c.f R.FAB_SEL F.FAB_SEL_BANK
  let v := v &&& (if k < 384 then 0x8FFFF000#32 else 0xFF#32)
  if c.bankOf p = b || !c.routeOk p b k v then c.tableRefused (windowOff k) i
  else (c.wr (routeKey p b k) v).routesChanged

/-- ROUTE_TABLE_WRITE (R473). -/
def doRouteTableWrite (w : Writer) (k : Fin 385) (v : BitVec 32) (c : Chip) : Chip :=
  c.put (windowOff k) w fun c => c.routeWrite k v w.ini.code

/-- FAB.BANK_CMD.CLR (R492): every entry of the selected bank becomes invalid, if it is inactive. -/
def Chip.bankClear (c : Chip) (i : Nat) : Chip :=
  let p := c.f R.FAB_SEL F.FAB_SEL_PLANE
  let b := c.f R.FAB_SEL F.FAB_SEL_BANK
  if c.bankOf p = b then c.refuse R.FAB_BANK_CMD i
  else (forN 384 (fun k c => c.flag (routeKey p b k) F.FAB_RT_R_VALID false) c).routesChanged

/-- BANK_CLEAR (R492). -/
def doBankClear (w : Writer) (key : BitVec 16) (c : Chip) : Chip :=
  c.cmd R.FAB_BANK_CMD w key fun c => c.bankClear w.ini.code

/-- FAB.CTL was written over `old`: a plane whose RBANK changed has its new tables (R469, R470, R492, R495), and a device that
is leaving stops there (R491). -/
def Chip.fabCtlFollow (c : Chip) (old : Word) : Chip :=
  let c : Chip := forN 2 (fun p c =>
    if fget old (if p = 0 then F.FAB_CTL_RBANK_A else F.FAB_CTL_RBANK_B) = c.bankOf p then c
    else
      let c : Chip := (c.flag R.FAB_STAT (if p = 0 then F.FAB_STAT_ROUTED_A else F.FAB_STAT_ROUTED_B) true).incWrap R.FAB_STAT
        (if p = 0 then F.FAB_STAT_GEN_A else F.FAB_STAT_GEN_B)
      let c : Chip := if nth c.fab.fwdOff p false then
          c.flag R.FAB_CTL (if p = 0 then F.FAB_CTL_FWD_A else F.FAB_CTL_FWD_B) true else c
      let c : Chip := c.updFab fun f => { f with fwdOff := upd f.fwdOff p fun _ => false, stopped := false }
      let c : Chip := c.raise P.FAB 0
      if c.fab.leaving then
        ((c.flag R.FAB_CTL F.FAB_CTL_FWD_A false).flag R.FAB_CTL F.FAB_CTL_FWD_B false).updFab fun f =>
          { f with leaving := false, left := true }
      else c) c
  c.musFollow

/-! ### Herd time over the fabric (R480 to R482) -/

/-- The upstream lane (R480): the parent lane of the plane of TIME_PLANE, with AUTO plane A while its parent lane is ACTIVE. -/
def Chip.upstream (c : Chip) : Option Nat :=
  if c.is R.MUS_STAT F.MUS_STAT_IS_BW then none
  else
    let up := fun p => (c.plevel p).isSome && decide (c.plevel p ≠ some 0)
    let p := match c.f R.FAB_CTL F.FAB_CTL_TIME_PLANE with
      | 1 => 0
      | 2 => 1
      | _ => if up 0 && c.laneUp (c.parent 0) then 0 else 1
    if up p then some (c.parent p) else none

/-- The upstream lane is shown; delays measured on another lane are forgotten (R481). -/
def Chip.showUpstream (c : Chip) : Chip :=
  match c.upstream with
  | none => c
  | some n =>
    let c : Chip := (c.setF R.FAB_TIME_STAT F.FAB_TIME_STAT_PLANE (planeOf n)).setF R.FAB_TIME_STAT F.FAB_TIME_STAT_LANE (n % 4)
    if c.fab.dlyLane = some n then c
    else ((c.updFab fun f => { f with dlyLane := some n, dly := none }).updTime fun t => { t with delays := [] }).flag
      R.FAB_TIME_STAT F.FAB_TIME_STAT_VALID false

/-- Herd time now at lane `n`'s ball, in 2^−48 ns: transmission (`tx`) after TX_PS, arrival RX_PS before (R427, R481). -/
def Chip.ballTime (c : Chip) (n : Nat) (tx : Bool) : Int :=
  if tx then c.time.ht + psUnits (c.f (R.LANE_LAT n) F.LANE_LAT_TX_PS)
  else c.time.ht - psUnits (c.f (R.LANE_LAT n) F.LANE_LAT_RX_PS)

/-- A time in 2^−48 ns as three words: ns (2), then its fraction in 2^−32 ns. -/
def stampWords (t : Int) : List Nat :=
  let n := (t % (2 ^ 112 : Nat)).toNat
  words64 (n / 2 ^ 48) ++ [n / 2 ^ 16 % 2 ^ 32]

/-- The time that three words of a packet carry, in 2^−48 ns. -/
def stampOf (p : Packet) (i : Nat) : Int := (p.w64 i : Int) * 2 ^ 48 + (p.w (i + 2) : Int) * 2 ^ 16

/-- A link-local packet of the TIME class waits for lane `n`. -/
def Chip.timePkt (c : Chip) (n kind : Nat) (tag : Nat) (ws : List Nat) : Chip :=
  c.emit (c.packet kind 0 0 0 c.ses0 tag ws) 0 (some n)

/-- Every SYNC_US: a TIME_SYNC to each child (R480). -/
def doTimeSyncSend (c : Chip) : Chip :=
  c.clocked P.FAB fun c =>
    if c.is R.FAB_TIME_CFG F.FAB_TIME_CFG_EN then
      (c.children 0 ++ c.children 1).foldl (fun c n => c.timePkt n 0x01 0 (stampWords (c.ballTime n true))) c
    else c

/-- The link delay d (2^−48 ns): the average of the measurements held, 0 without any (R481). -/
def Chip.linkDelay (c : Chip) : Int :=
  match c.time.delays with
  | [] => 0
  | l => roundDiv (l.foldl (· + ·) 0 * 2 ^ 32) l.length

/-- A TIME_SYNC from the upstream neighbour (R482). A device whose DISC_SRC is 0 is not disciplined (R124). -/
def doTimeSyncRx (n : Fin 8) (p : Packet) (c : Chip) : Chip :=
  c.consume p fun c =>
    let c : Chip := c.showUpstream
    if c.upstream = some n.val ∧ c.f R.HTM_CTL F.HTM_CTL_DISC_SRC ≠ 0 then
      let e := c.ballTime n false - (stampOf p 0 + c.linkDelay)
      ((c.flag R.FAB_STAT F.FAB_STAT_TIME_OK true).htmSync e (1000 * c.f R.FAB_TIME_CFG F.FAB_TIME_CFG_SYNC_US)).lapHtm
    else c

/-- Every 16th sync interval: a DELAY_REQ upstream (R481). -/
def doDelayReqSend (c : Chip) : Chip :=
  c.clocked P.FAB fun c =>
    let c : Chip := c.showUpstream
    match c.upstream with
    | some n =>
      if c.laneUp n then (c.updFab fun f => { f with dly := some (n, c.ballTime n true) }).timePkt n 0x02 0 [] else c
    | none => c

/-- A DELAY_REQ is answered with its arrival and the answer's own transmission (R481). -/
def doDelayReqRx (n : Fin 8) (p : Packet) (c : Chip) : Chip :=
  c.consume p fun c =>
    c.timePkt n 0x03 p.tag.toNat (stampWords (c.ballTime n false) ++ stampWords (c.ballTime n true))

/-- A DELAY_RESP ends a measurement (R481): d is shown in ps, averaged over the last 8. -/
def doDelayRespRx (n : Fin 8) (p : Packet) (c : Chip) : Chip :=
  c.consume p fun c =>
    match c.fab.dly with
    | some (m, t1) =>
      if m = n.val then
        let d := (c.ballTime n false - t1 - (stampOf p 3 - stampOf p 0)) / 2
        let l := (roundDiv d (2 ^ 32) :: c.time.delays).take 8
        let c : Chip := (c.updFab fun f => { f with dly := none }).updTime fun t => { t with delays := l }
        let c : Chip := c.wrN R.FAB_TIME_DLY (unsgn 32 (roundDiv (c.linkDelay * 1000) (2 ^ 48)))
        c.flag R.FAB_TIME_STAT F.FAB_TIME_STAT_VALID (decide (l.length = 8))
      else c
    | none => c

/-! ### Publications (R483, R484) -/

/-- The number of the present cycle. -/
def Chip.cycleNo (c : Chip) : Nat :=
  (((c.htNs : Int) - (c.rd64 R.FAB_CYC_T0_LO : Int)) / (10 * max 1 (c.f R.FAB_CYCLE F.FAB_CYCLE_CYCLE) : Nat) %
    (2 ^ 32 : Nat)).toNat

/-- The CTRL slot in which herd time stands (R483): of the 1,024 of a cycle. -/
def Chip.ctrlSlot (c : Chip) : Nat :=
  let len := 10 * max 1 (c.f R.FAB_CYCLE F.FAB_CYCLE_CYCLE)
  ((((c.htNs : Int) - (c.rd64 R.FAB_CYC_T0_LO : Int)) % (len : Int)) * 1024 / len).toNat

/-- The slot of an enabled TX entry starts (R483); a slot word that ECC has lost is sent as zero with STALE (R213). -/
def doPubSlotStart (k : Fin 64) (ecc : EccError) (c : Chip) : Chip :=
  c.clocked P.FAB fun c =>
    let a := c.rd (R.FAB_TX_A k)
    let b := c.rd (R.FAB_TX_B k)
    if c.is R.FAB_CYCLE F.FAB_CYCLE_SCHED_EN && decide (fget a F.FAB_TX_A_EN = 1) && decide (c.ctrlSlot = fget a F.FAB_TX_A_SLOT) then
      let l := runSlots (fget b F.FAB_TX_B_FIRST) (fget b F.FAB_TX_B_NWORDS)
      let (c, lost) := c.eccSlots l ecc
      let ws := l.map fun s => if lost = some s then 0x40 else (c.slot s).toNat
      c.emit (c.packet 0x10 2 (fget a F.FAB_TX_A_CAST) (fget a F.FAB_TX_A_DEST) c.ses0 0
        ([fget b F.FAB_TX_B_PUB_ID, c.cycleNo] ++ words64 c.htNs ++ ws)) (fget a F.FAB_TX_A_PLANES) none
    else c

/-- A PUB reaches its subscriptions (R484): each takes the first of a cycle number, in serial order (log entry 139, DESIGN CHOICE). -/
def Chip.pubTake (c : Chip) (p : Packet) : Chip :=
  let cyc := p.w 1
  (forN 64 (fun k c =>
    let a := c.rd (R.FAB_SUB_A k)
    let b := c.rd (R.FAB_SUB_B k)
    let last := SMap.get (fun _ => 0) c.fab.subCyc k
    if fget a F.FAB_SUB_A_EN = 1 && decide (fget a F.FAB_SUB_A_SRC = p.src.toNat)
        && decide (fget a F.FAB_SUB_A_PUB_ID = p.w 0 % 256) && (decide (last = 0) || older (last - 1) cyc) then
      let c : Chip := c.updFab fun f => { f with subCyc := f.subCyc.put (fun _ => 0) k (cyc + 1) }
      forN (fget b F.FAB_SUB_B_NWORDS) (fun i c =>
        let s := (fget b F.FAB_SUB_B_FIRST + i) % 1024
        if c.holds (Cl.sub k) s then c.putSlot s (wd (p.w (4 + i))) none else c) c
    else c) c).lapFab 2 p

/-- PUB_RX (R484). -/
def doPubRx (p : Packet) (c : Chip) : Chip := c.consume p fun c => c.pubTake p

/-- MAX_AGE cycles without a PUB (R484), none arriving in this cycle (R37). -/
def doSubStale (k : Fin 64) (arrived : Bool) (c : Chip) : Chip :=
  c.clocked P.FAB fun c =>
    let b := c.rd (R.FAB_SUB_B k)
    if !arrived && c.is (R.FAB_SUB_A k) F.FAB_SUB_A_EN then
      ((runSlots (fget b F.FAB_SUB_B_FIRST) (fget b F.FAB_SUB_B_NWORDS)).foldl (fun c s =>
        if c.holds (Cl.sub k) s then c.staleSlot s else c) c).raise P.FAB 4
    else c

/-! ### Herd-transaction packets (R88 to R94, R459) -/

/-- A PREPARE at a participant (R88). -/
def Chip.prepareTake (c : Chip) (p : Packet) : Chip :=
  (c.prepareRx p fun b => decide (b = P.SCFG) && decide (c.scfgLock = 1)).lapFab 4 p
/-- PREPARE_RX (R88). -/
def doPrepareRx (p : Packet) (c : Chip) : Chip := c.consume p fun c => c.prepareTake p
/-- VOTE_RX (R94). -/
def doVoteRx (p : Packet) (c : Chip) : Chip := c.consume p fun c => (c.voteRx p).lapFab 4 p
/-- COMMIT_AT_RX (R90). -/
def doCommitAtRx (p : Packet) (c : Chip) : Chip := c.consume p fun c => (c.commitAtRx p).lapFab 4 p
/-- ABORT_RX (R93). -/
def doAbortRx (p : Packet) (c : Chip) : Chip := c.consume p fun c => (c.abortRx p).lapFab 4 p
/-- RESOLVE_RX (R92). -/
def doResolveRx (p : Packet) (c : Chip) : Chip := c.consume p fun c => (c.resolveRx p).lapFab 4 p

/-! ### Sessions (R488, R489, R494) -/

/-- The OPEN bit of session `n` follows its state. -/
def Chip.sesState (c : Chip) (n st : Nat) : Chip :=
  (c.setF (Key.ses n 0x20C) F.SES_S_STAT_STATE st).setBit (R.SES_OPEN (n / 32)) (n % 32) (decide (st = 1))

/-- SES.CMD OPEN (R494): counters to zero, state OPEN. -/
def Chip.sesOpenCmd (c : Chip) (n : Nat) : Chip :=
  let c : Chip := (c.wr64 (Key.ses n 0x210) 0).wr64 (Key.ses n 0x218) 0
  let c : Chip := (c.wrN (Key.ses n 0x264) 0).wrN (Key.ses n 0x20C) 0
  let c : Chip := c.updFab fun f => { f with
    win := f.win.erase n, reqs := f.reqs.filter fun r => r.ses ≠ n }
  (c.sesState n 1).raise P.SES 0

/-- An open session ends with state `st` (R489). -/
def Chip.sesEnd (c : Chip) (n st : Nat) : Chip :=
  if !c.sesOpen n then c
  else
    let c : Chip := (c.sesState n st).setF (Key.ses n 0x20C) F.SES_S_STAT_OUTSTANDING 0
    let mine := fun (p : Packet) => p.enc && decide (p.ses.toNat = n)
    let sent := fun (p : Packet) => mine p && decide (p.src.toNat = c.myId)
    let waiting := c.fab.ringWait.filter fun x => mine x.2.2
    let inbox := c.fab.inbox.filter fun x => mine x.2.2
    let out := c.out.filter fun o => mine o.p
    let queued := c.lanes.map fun l => l.vq.filter fun x => sent x.2
    let c : Chip := c.updFab fun f => { f with
      ringWait := f.ringWait.filter (fun x => !mine x.2.2), inbox := f.inbox.filter (fun x => !mine x.2.2),
      reqs := f.reqs.filter fun r => r.ses ≠ n }
    let c : Chip := { c with
      out := c.out.filter (fun o => !mine o.p), lanes := c.lanes.map fun l => { l with vq := l.vq.filter fun x => !sent x.2 } }
    let gone := fun (c : Chip) (inL : Option Nat) (p : Packet) => (c.dropPkt p Dc.closed).giveBack inL p.vc.toNat
    let c : Chip := waiting.foldl (fun c x => gone c x.2.1 x.2.2) c
    let c : Chip := inbox.foldl (fun c x => gone c x.2.1 x.2.2) c
    let c : Chip := out.foldl (fun c o => gone c none o.p) c
    let c : Chip := queued.flatten.foldl (fun c x => gone c x.1 x.2) c
    let c : Chip := match c.findCtx fun x => decide (x.ini = 4) && decide (x.ses = n)
        && (decide (x.st = .opened) || decide (x.st = .doomed) || decide (x.st = .coordinating)) with
      | some k => c.ctxEnd k (if (c.ctx k).st = .doomed then Res.doomed else Res.rolledBack)
      | none => c
    c.raise P.SES 1

/-- SES.CMD: 1 OPEN, 2 CLOSE. -/
def Chip.sesCmd (c : Chip) (n op i : Nat) : Chip :=
  match op with
  | 1 => c.sesOpenCmd n
  | 2 => c.sesEnd n 3
  | _ => c.refuse R.SES_CMD i

/-- SES.CMD OPEN (R494). -/
def doSesOpen (w : Writer) (key : BitVec 16) (n : Fin 256) (c : Chip) : Chip :=
  c.cmd R.SES_CMD w key fun c => c.sesCmd n 1 w.ini.code
/-- SES.CMD CLOSE (R494). -/
def doSesClose (w : Writer) (key : BitVec 16) (n : Fin 256) (c : Chip) : Chip :=
  c.cmd R.SES_CMD w key fun c => c.sesCmd n 2 w.ini.code

/-- A session's watchdog expires (R489), unless a packet arrives or is consumed in this cycle (R37). -/
def doSessionExpiry (n : Fin 256) (arrived : Bool) (c : Chip) : Chip :=
  c.clocked P.SES fun c => if arrived || decide (c.f (Key.ses n 0x208) F.SES_S_WDOG_WDOG_MS = 0) then c else c.sesEnd n 2

/-! ### The commands -/

/-- CREDIT_RX (R476). -/
def execCreditRx (n : Fin 8) (vc : Fin 6) (k : BitVec 8) (s : State) : Host.Outcome State Fault Refusal :=
  .next (s.onChip (doCreditRx n vc k))
/-- ANNOUNCE_SEND (R461). -/
def execAnnounceSend (s : State) : Host.Outcome State Fault Refusal :=
  .next (s.onChip doAnnounceSend)
/-- ANNOUNCE_RX (R462). -/
def execAnnounceRx (n : Fin 8) (p : Packet) (s : State) : Host.Outcome State Fault Refusal :=
  .next (s.onChip (doAnnounceRx n p))
/-- ROOT_CLAIM (R461). -/
def execRootClaim (plane : Fin 2) (s : State) : Host.Outcome State Fault Refusal :=
  .next (s.onChip (doRootClaim plane))
/-- ROOT_SEAT (R461). -/
def execRootSeat (plane : Fin 2) (s : State) : Host.Outcome State Fault Refusal :=
  .next (s.onChip (doRootSeat plane))
/-- ROOT_LOST (R464). -/
def execRootLost (plane : Fin 2) (heard : Bool) (s : State) : Host.Outcome State Fault Refusal :=
  .next (s.onChip (doRootLost plane heard))
/-- ID_REQ_SEND (R465). -/
def execIdReqSend (plane : Fin 2) (s : State) : Host.Outcome State Fault Refusal :=
  .next (s.onChip (doIdReqSend plane))
/-- ID_REQ_RX (R465). -/
def execIdReqRx (plane : Fin 2) (p : Packet) (s : State) : Host.Outcome State Fault Refusal :=
  .next (s.onChip (doIdReqRx plane p))
/-- ID_GRANT_RX (R466). -/
def execIdGrantRx (p : Packet) (s : State) : Host.Outcome State Fault Refusal :=
  .next (s.onChip (doIdGrantRx p))
/-- TOPO_REPORT_SEND (R468). -/
def execTopoReportSend (s : State) : Host.Outcome State Fault Refusal :=
  .next (s.onChip doTopoReportSend)
/-- TOPO_REPORT_RX (R469). -/
def execTopoReportRx (plane : Fin 2) (p : Packet) (s : State) : Host.Outcome State Fault Refusal :=
  .next (s.onChip (doTopoReportRx plane p))
/-- MUS_RESTART (R493). -/
def execMusRestart (w : Writer) (key : BitVec 16) (s : State) : Host.Outcome State Fault Refusal :=
  .next (s.onChip (doMusRestart w key))
/-- MUS_LEAVE (R491). -/
def execMusLeave (w : Writer) (key : BitVec 16) (s : State) : Host.Outcome State Fault Refusal :=
  .next (s.onChip (doMusLeave w key))
/-- MUS_RECOMPUTE (R493). -/
def execMusRecompute (w : Writer) (key : BitVec 16) (s : State) : Host.Outcome State Fault Refusal :=
  .next (s.onChip (doMusRecompute w key))
/-- MUS_REPLACE (R493). -/
def execMusReplace (w : Writer) (key : BitVec 16) (s : State) : Host.Outcome State Fault Refusal :=
  .next (s.onChip (doMusReplace w key))
/-- MUS_FORGET (R493). -/
def execMusForget (w : Writer) (key : BitVec 16) (s : State) : Host.Outcome State Fault Refusal :=
  .next (s.onChip (doMusForget w key))
/-- ROUTE_TABLE_WRITE (R473). -/
def execRouteTableWrite (w : Writer) (k : Fin 385) (v : BitVec 32) (s : State) : Host.Outcome State Fault Refusal :=
  .next (s.onChip (doRouteTableWrite w k v))
/-- BANK_CLEAR (R492). -/
def execBankClear (w : Writer) (key : BitVec 16) (s : State) : Host.Outcome State Fault Refusal :=
  .next (s.onChip (doBankClear w key))
/-- TIME_SYNC_SEND (R480). -/
def execTimeSyncSend (s : State) : Host.Outcome State Fault Refusal :=
  .next (s.onChip doTimeSyncSend)
/-- TIME_SYNC_RX (R482). -/
def execTimeSyncRx (n : Fin 8) (p : Packet) (s : State) : Host.Outcome State Fault Refusal :=
  .next (s.onChip (doTimeSyncRx n p))
/-- DELAY_REQ_SEND (R481). -/
def execDelayReqSend (s : State) : Host.Outcome State Fault Refusal :=
  .next (s.onChip doDelayReqSend)
/-- DELAY_REQ_RX (R481). -/
def execDelayReqRx (n : Fin 8) (p : Packet) (s : State) : Host.Outcome State Fault Refusal :=
  .next (s.onChip (doDelayReqRx n p))
/-- DELAY_RESP_RX (R481). -/
def execDelayRespRx (n : Fin 8) (p : Packet) (s : State) : Host.Outcome State Fault Refusal :=
  .next (s.onChip (doDelayRespRx n p))
/-- PUB_SLOT_START (R483). -/
def execPubSlotStart (k : Fin 64) (ecc : EccError) (s : State) : Host.Outcome State Fault Refusal :=
  .next (s.onChip (doPubSlotStart k ecc))
/-- PUB_RX (R484). -/
def execPubRx (p : Packet) (s : State) : Host.Outcome State Fault Refusal :=
  .next (s.onChip (doPubRx p))
/-- SUB_STALE (R484). -/
def execSubStale (k : Fin 64) (arrived : Bool) (s : State) : Host.Outcome State Fault Refusal :=
  .next (s.onChip (doSubStale k arrived))
/-- PREPARE_RX (R88). -/
def execPrepareRx (p : Packet) (s : State) : Host.Outcome State Fault Refusal :=
  .next (s.onChip (doPrepareRx p))
/-- VOTE_RX (R94). -/
def execVoteRx (p : Packet) (s : State) : Host.Outcome State Fault Refusal :=
  .next (s.onChip (doVoteRx p))
/-- COMMIT_AT_RX (R90). -/
def execCommitAtRx (p : Packet) (s : State) : Host.Outcome State Fault Refusal :=
  .next (s.onChip (doCommitAtRx p))
/-- ABORT_RX (R93). -/
def execAbortRx (p : Packet) (s : State) : Host.Outcome State Fault Refusal :=
  .next (s.onChip (doAbortRx p))
/-- RESOLVE_RX (R92). -/
def execResolveRx (p : Packet) (s : State) : Host.Outcome State Fault Refusal :=
  .next (s.onChip (doResolveRx p))
/-- SES_OPEN (R494). -/
def execSesOpen (w : Writer) (key : BitVec 16) (n : Fin 256) (s : State) : Host.Outcome State Fault Refusal :=
  .next (s.onChip (doSesOpen w key n))
/-- SES_CLOSE (R494). -/
def execSesClose (w : Writer) (key : BitVec 16) (n : Fin 256) (s : State) : Host.Outcome State Fault Refusal :=
  .next (s.onChip (doSesClose w key n))
/-- SESSION_EXPIRY (R489). -/
def execSessionExpiry (n : Fin 256) (arrived : Bool) (s : State) : Host.Outcome State Fault Refusal :=
  .next (s.onChip (doSessionExpiry n arrived))

end Sys2Proof.Machine
end

