-- ==== Sys2Proof/Machine/Float.lean ====
section
/-!
DEFINITION. IEEE 754 binary64 arithmetic with round-to-nearest-even (R250, R266, R291, R378) as exact integers: a value is
`m × 2^e`. Every value the units form keeps far inside the exponent range of binary64, so that infinities and subnormals
do not occur and only the 53-bit significand rounds.
-/
namespace Sys2Proof.Machine
open Sys2Proof

namespace F64

/-- Zero. -/
def zero : F64 := ⟨0, 0⟩

/-- `m × 2^e` rounded to 53 significant bits, half to even. -/
def round (m e : Int) : F64 :=
  if m = 0 then zero
  else
    let n := Nat.log2 m.natAbs + 1
    if n ≤ 53 then ⟨m, e⟩ else ⟨rhe m (2 ^ (n - 53)), e + (n - 53 : Nat)⟩

/-- An integer. -/
def ofInt (z : Int) : F64 := round z 0

/-- A natural number. -/
def ofNat (n : Nat) : F64 := ofInt n

/-- The value of a slot word's mantissa and exponent (exact). -/
def ofSlot (s : Slot) : F64 := round s.m (s.e - 23)

/-- `n × 2^k`. -/
def scaled (n k : Int) : F64 := round n k

def neg (x : F64) : F64 := ⟨-x.m, x.e⟩
def abs (x : F64) : F64 := ⟨x.m.natAbs, x.e⟩

/-- Both values over one exponent. -/
def align (x y : F64) : Int × Int × Int :=
  let e := min x.e y.e
  (x.m * 2 ^ (x.e - e).toNat, y.m * 2 ^ (y.e - e).toNat, e)

def add (x y : F64) : F64 :=
  if x.m = 0 then y else if y.m = 0 then x
  else let (a, b, e) := align x y; round (a + b) e

def sub (x y : F64) : F64 := add x (neg y)

def mul (x y : F64) : F64 := round (x.m * y.m) (x.e + y.e)

/-- The quotient, correctly rounded: 56 bits and a bit that tells whether a remainder is left. -/
def div (x y : F64) : F64 :=
  if x.m = 0 ∨ y.m = 0 then zero
  else
    let k := 56 + (Nat.log2 y.m.natAbs + 1) - Nat.log2 x.m.natAbs
    let n := x.m.natAbs * 2 ^ k
    let q := n / y.m.natAbs
    let s := 2 * q + b2n (decide (n % y.m.natAbs ≠ 0))
    round (x.m.sign * y.m.sign * (s : Nat)) (x.e - y.e - (k : Nat) - 1)

/-- The square root of a value that is not negative, correctly rounded. -/
def sqrt (x : F64) : F64 :=
  if x.m ≤ 0 then zero
  else
    let k := 112 - (Nat.log2 x.m.natAbs)
    let k := if (x.e - (k : Nat)) % 2 = 0 then k else k + 1
    let n := x.m.natAbs * 2 ^ k
    let r := isqrt n
    round (2 * (r : Int) + (b2n (decide (r * r ≠ n)) : Nat)) ((x.e - (k : Nat)) / 2 - 1)

/-- √(x² + y²), rounded once; the root is searched over all its bits. -/
def hypot (x y : F64) : F64 :=
  let (a, b, e) := align x y
  let n := a * a + b * b
  if n = 0 then zero
  else
    let k := 120 - Nat.log2 n.natAbs
    let k := if k % 2 = 0 then k else k + 1
    let v := n.natAbs * 2 ^ k
    let r := isqrtN v (Nat.log2 v / 2 + 2) 0
    round (2 * (r : Int) + (b2n (decide (r * r ≠ v)) : Nat)) (e - (k / 2 : Nat) - 1)

def lt (x y : F64) : Bool := let (a, b, _) := align x y; decide (a < b)
def le (x y : F64) : Bool := let (a, b, _) := align x y; decide (a ≤ b)
def sign (x : F64) : Int := x.m.sign
def min (x y : F64) : F64 := if le x y then x else y
def max (x y : F64) : F64 := if le x y then y else x

/-- The greatest integer not above `x`. -/
def floor (x : F64) : Int := if 0 ≤ x.e then x.m * 2 ^ x.e.toNat else x.m / 2 ^ (-x.e).toNat

/-- The nearest integer, half to even. -/
def nearest (x : F64) : Int := scaleRhe x.m x.e

/-- The value a conversion to a slot word starts from (R202). -/
def acc (x : F64) : Acc := ⟨x.m, x.e⟩

/-- The slot word of exponent `e`, with SAT on saturation (R250). -/
def slot (x : F64) (e : Int) : Slot := x.acc.out false e

/-- π rounded to binary64. -/
def pi : F64 := ⟨884279719003555, -48⟩

/-- The binary64 value nearest to `n / d`. -/
def ratio (n : Int) (d : Nat) : F64 := div ⟨n, 0⟩ ⟨d, 0⟩

end F64

/-! ### Sines and cosines of rational turns (R291) -/

/-- π × 2^200, rounded down. -/
def piFix : Nat :=
  5048344754617993871973410141242436836214643421488662971535368

/-- Terms of the Taylor series of cosine (`odd` false) or sine (`odd` true) of `x × 2^−200`, in units of 2^−200. -/
def trigSum (odd : Bool) (x : Int) : Int :=
  let x2 := x * x / 2 ^ 200
  let r := (List.range 40).foldl (fun (q : Int × Int) i =>
    let k : Nat := 2 * i + b2n odd
    let t := -(q.2 * x2 / 2 ^ 200) / (((k + 1) * (k + 2) : Nat) : Int)
    (q.1 + q.2, t)) (0, if odd then x else 2 ^ 200)
  r.1

/-- Cosine and sine of `a / b` turns, each the nearest binary64 value. -/
def cosSin (a b : Nat) : F64 × F64 :=
  let a := a % b
  let q := 4 * a / b
  let x : Int := ((2 * piFix * (4 * a % b) / (4 * b) : Nat) : Int)
  let c := if 4 * a % b = 0 then F64.ofInt 1 else F64.round (trigSum false x) (-200)
  let s := if 4 * a % b = 0 then F64.zero else F64.round (trigSum true x) (-200)
  match q with
  | 0 => (c, s)
  | 1 => (s.neg, c)
  | 2 => (c.neg, s.neg)
  | _ => (s, c.neg)

end Sys2Proof.Machine
end

