-- ==== Sys2Proof/Machine/Meter.lean ====
section
/-!
DEFINITION. Energy metering and power quality (*Energy Metering and Power Quality*): input histories and aligned ticks (R382
to R384), cycles and quantities (R385, R386), energy (R387 to R392), saves to FRAM and their restoring (R394 to R401),
current-only accounting (R403) and power-quality events (R406 to R409).
-/
namespace Sys2Proof.Machine
open Sys2Proof

/-- A change of the metering state. -/
def Chip.updMtr (c : Chip) (g : MtrSt → MtrSt) : Chip := { c with mtr := g c.mtr }

/-- Port `p`. -/
def Chip.mport (c : Chip) (p : Nat) : MtrPort := nth c.mtr.port p {}

/-- A change of port `p`. -/
def Chip.updPort (c : Chip) (p : Nat) (g : MtrPort → MtrPort) : Chip := c.updMtr fun m => { m with port := upd m.port p g }

/-- Power-quality port `p`. -/
def Chip.pqp (c : Chip) (p : Nat) : PqPort := nth c.mtr.pq p {}

/-- A change of power-quality port `p`. -/
def Chip.updPq (c : Chip) (p : Nat) (g : PqPort → PqPort) : Chip := c.updMtr fun m => { m with pq := upd m.pq p g }

/-! ### Inputs (R382 to R384) -/

/-- The value of a slot-layout word. -/
def wordVal (w : Word) : F64 := F64.ofSlot (Slot.of w)

/-- Source `src` delivers the result `x` sampled at `inst`: each enabled input on it counts the result and keeps every
2^DEC-th, converted by its factor, in a history of 8,192 (R382 to R384). -/
def Chip.mtrTake (c : Chip) (src : Nat) (inst : Int) (x : Slot) : Chip :=
  forN 2 (fun p c => forN 6 (fun k c =>
    let w := c.rd (R.MTR_IN_SRC p k)
    if fget w F.MTR_IN_SRC_EN = 1 && decide (fget w F.MTR_IN_SRC_SRC = src) then
      let n := nth (c.mport p).dec k 0 + 1
      if n < 2 ^ fget w F.MTR_IN_SRC_DEC then c.updPort p fun m => { m with dec := upd m.dec k fun _ => n }
      else
        let s : MtrSamp := ⟨inst, F64.mul (F64.ofSlot x) (wordVal (c.rd (R.MTR_IN_K p k))), x.stale⟩
        c.updPort p fun m =>
          { m with dec := upd m.dec k fun _ => 0, hist := upd m.hist k fun h => (s :: h).take 8192 }
    else c) c) c

/-- The sample instant `d` CK_PER cycles before now, in units of 2^−48 ns. -/
def Chip.sampleAt (c : Chip) (d : Nat) : Int := (c.time.ht : Int) - (d : Int) * (5 * 2 ^ 47)

/-- CK_PER cycles from the sample instant of an AFE result to its completion (R151, R152): 8 CK_AFE cycles and the group
delay of the filter with decimation `d1`. -/
def afeDelay (lp : Bool) (filt d1 : Nat) : Nat :=
  let per := if lp then 256 else 32
  32 + (if filt = 0 then (36 * d1 - 5) * per / 2 else 5 * (d1 - 1) * per / 2)

/-- CK_PER cycles from the sample instant of an XMD control output to its completion (R174): two CK_SYS cycles and
1.5 × (OSR − 1) bit periods at `mbps` Mb/s, the instant rounded down to a CK_PER edge. -/
def xmdDelay (osr mbps : Nat) : Nat :=
  let q := 3 * (osr - 1) * 400
  let d := 2 * max 1 mbps
  1 + (q + d - 1) / d

/-- The value of a history at instant `t` (R384): whether a pair brackets it, the value and whether a stale result
entered. The history is newest first. -/
def alignAt (t : Int) : List MtrSamp → Option (F64 × Bool)
  | b :: a :: r =>
    if a.inst ≤ t ∧ t ≤ b.inst then
      let f := F64.div (F64.ofInt (t - a.inst)) (F64.ofInt (b.inst - a.inst))
      some (F64.add a.v (F64.mul (F64.sub b.v a.v) f), a.stale || b.stale)
    else alignAt t (a :: r)
  | _ => none

/-- The kept result nearest to instant `t`. -/
def nearestAt (t : Int) : List MtrSamp → Option MtrSamp
  | [] => none
  | a :: r =>
    match nearestAt t r with
    | none => some a
    | some b => if (a.inst - t).natAbs ≤ (b.inst - t).natAbs then some a else some b

/-- The nominal tick rate in ticks per second (R384, R385). -/
def Chip.mtrRate (c : Chip) (p : Nat) : Nat := 4000 * 2 ^ c.f (R.MTR_CFG p) F.MTR_CFG_RATE

/-- Tm in ns. -/
def Chip.mtrTm (c : Chip) (p : Nat) : Nat := 250000 / 2 ^ c.f (R.MTR_CFG p) F.MTR_CFG_RATE

/-- The value of input `k` of port `p` at instant `t`: the value, whether a stale result entered, and whether the tick
missed. Where no result has been kept at all the spec states no value: it is free (log entry 2, DESIGN CHOICE). -/
def Chip.mtrInput (c : Chip) (p k : Nat) (t : Int) : (F64 × Bool × Bool) × Chip :=
  if !c.is (R.MTR_IN_SRC p k) F.MTR_IN_SRC_EN then ((F64.zero, false, false), c)
  else
    let h := nth (c.mport p).hist k []
    match alignAt t h, nearestAt t h with
    | some (v, s), _ => ((v, s, false), c)
    | none, some a => ((a.v, a.stale, true), c)
    | none, none => let (w, c) := c.freeW; ((wordVal w, false, true), c)

/-- Whether port `p` has a configuration error (R392). -/
def Chip.mtrBad (c : Chip) (p : Nat) : Bool :=
  let ref := c.f (R.MTR_CFG p) F.MTR_CFG_REF
  (List.range 6).any (fun k => c.is (R.MTR_IN_SRC p k) F.MTR_IN_SRC_EN && decide (33 < c.f (R.MTR_IN_SRC p k) F.MTR_IN_SRC_SRC))
    || decide (ref = 3) || !c.is (R.MTR_IN_SRC p ref) F.MTR_IN_SRC_EN
    || decide ((Slot.of (c.rd (R.PQM_P_UDIN p))).m ≤ 0)

/-- RUNNING and CFG_ERR of both ports follow (R392, R393); a port that stops drops the cycle in progress. -/
def Chip.mtrFollow (c : Chip) : Chip :=
  forN 2 (fun p c =>
    let en := c.is (R.MTR_CFG p) F.MTR_CFG_EN
    let bad := en && c.mtrBad p
    let run := en && !bad && c.clockOn && c.mtr.restored
    let c : Chip := (c.flag (R.MTR_STAT p) F.MTR_STAT_CFG_ERR bad).flag (R.MTR_STAT p) F.MTR_STAT_RUNNING run
    if run then c
    else (c.flag (R.MTR_STAT p) F.MTR_STAT_REF_OK false).updPort p fun m =>
      { m with ticks := [], n := 0, low := false, high := false, neg := none, stale := false }) c

/-! ### Power-quality events (R406 to R409) -/

/-- RMS of input `k` over the `n` newest ticks of `l`. -/
def rmsOf (l : List MtrTick) (k n : Nat) : F64 :=
  let xs := (l.take n).reverse.map fun m => nth m.x k F64.zero
  F64.sqrt (F64.div (xs.foldl (fun a x => F64.add a (F64.mul x x)) F64.zero) (F64.ofNat (max 1 xs.length)))

/-- Word `w` of record `r` of port `p` takes `v`. -/
def Chip.pqPut (c : Chip) (p r w v : Nat) : Chip := c.wrN (Key.pq p r w) v

/-- A fraction of UDIN in 2^−14, as W4 holds it. -/
def pqFrac (x : F64) : Nat := min 0xFFFF (F64.nearest (F64.mul x (F64.scaled 1 14))).toNat

/-- The index at which the next record of port `p` is written (R408): from NEXT on, skipping open records. -/
def Chip.pqIndex (c : Chip) (p : Nat) : Nat :=
  let nx := c.f (R.PQM_P_STAT p) F.PQM_P_STAT_NEXT
  (((List.range 64).map fun i => (nx + i) % 64).find? fun i => !c.bit (Key.pq p i 0) 15).getD nx

/-- Kind `e` (0 SAG, 1 SWELL, 2 INTERRUPTION): phases that meet its start condition, whether it starts, whether it ends,
and the extreme of the phases with its phase, for the phase values `u` (R407). -/
def Chip.pqCond (c : Chip) (p e : Nat) (u : List F64) : List Bool × Bool × Bool × F64 × Nat :=
  let th := fun (r : Nat → Nat) x => F64.scaled (c.f (r p) x : Nat) (-14)
  let hy := th R.PQM_P_TH_B F.PQM_P_TH_B_HYST
  let sag := th R.PQM_P_TH_A F.PQM_P_TH_A_SAG_TH
  let swl := th R.PQM_P_TH_A F.PQM_P_TH_A_SWELL_TH
  let int := th R.PQM_P_TH_B F.PQM_P_TH_B_INT_TH
  let best := fun (better : F64 → F64 → Bool) =>
    (List.range 3).foldl (fun b k => if better (nth u k F64.zero) (nth u b F64.zero) then k else b) 0
  match e with
  | 0 =>
    let m := u.map fun x => F64.lt x sag
    let k := best F64.lt
    (m, m.any id, u.all fun x => F64.le (F64.add sag hy) x, nth u k F64.zero, k)
  | 1 =>
    let m := u.map fun x => F64.lt swl x
    let k := best fun a b => F64.lt b a
    (m, m.any id, u.all fun x => F64.le x (F64.sub swl hy), nth u k F64.zero, k)
  | _ =>
    let m := u.map fun x => F64.lt x int
    let k := best F64.lt
    (m, m.all id, u.any fun x => F64.le (F64.add int hy) x, nth u k F64.zero, k)

/-- The phases of a list of flags as a mask. -/
def phaseMask (l : List Bool) : Nat := ((List.range 3).map fun k => b2n (nth l k false) * 2 ^ k).sum

/-- Kind `e` of port `p` at the phase values `u` of herd time `t` (R407, R408). -/
def Chip.pqKind (c : Chip) (p e t : Nat) (u : List F64) : Chip :=
  let (m, starts, ends, x, k) := c.pqCond p e u
  match nth (c.pqp p).opens e none with
  | none =>
    if !starts then c
    else
      let i := c.pqIndex p
      let lost := decide (c.rdN (Key.pq p i 0) % 16 ≠ 0)
      let seq := (c.pqp p).seq
      let c : Chip := if lost then (c.incSat (R.PQM_P_STAT p) F.PQM_P_STAT_OVERWRITES).raise P.PQM 2 else c
      let ws := [seq % 65536 * 2 ^ 16 + 2 ^ 15 + phaseMask m * 2 ^ 12 + k * 2 ^ 10 + (e + 1), t % 2 ^ 32, t / 2 ^ 32, 0,
        pqFrac x, c.time.calSec % 2 ^ 32, 0, 0]
      let c : Chip := forN 8 (fun w c => c.pqPut p i w (ws.getD w 0)) c
      let c : Chip := c.setF (R.PQM_P_STAT p) F.PQM_P_STAT_NEXT ((i + 1) % 64)
      let c : Chip := c.updPq p fun q => { q with
        seq := (q.seq + 1) % 65536, opens := upd q.opens e fun _ => some ⟨i, t, x⟩, dirty := i :: q.dirty.filter (· ≠ i) }
      (c.setBit (R.PQM_P_STAT p) (29 + e) true).raise P.PQM 0
  | some o =>
    let worse := if e = 1 then F64.lt o.ext x else F64.lt x o.ext
    let w0 := c.rdN (Key.pq p o.idx 0)
    let mask := w0 / 2 ^ 12 % 8 ||| phaseMask m
    let c : Chip := c.setF (Key.pq p o.idx 0) ⟨14, 12⟩ mask
    let c : Chip := if worse then (c.setF (Key.pq p o.idx 0) ⟨11, 10⟩ k).pqPut p o.idx 4 (pqFrac x) else c
    let c : Chip := c.updPq p fun q => { q with
      opens := upd q.opens e fun _ => some { o with ext := if worse then x else o.ext },
      dirty := if worse || ends || decide (mask ≠ w0 / 2 ^ 12 % 8) then o.idx :: q.dirty.filter (· ≠ o.idx) else q.dirty }
    if ends then
      let c : Chip := (c.pqPut p o.idx 3 (min 0xFFFFFFFF ((t - o.t) / 1000))).setBit (Key.pq p o.idx 0) 15 false
      let c : Chip := c.updPq p fun q => { q with opens := upd q.opens e fun _ => none }
      (c.setBit (R.PQM_P_STAT p) (29 + e) false).raise P.PQM 1
    else c

/-- Urms(1/2) of port `p` over the `n` ticks that are newest in `l` (R406). -/
def Chip.pqValue (c : Chip) (p : Nat) (l : List MtrTick) (n : Nat) : Chip :=
  if !c.is (R.PQM_P_CFG p) F.PQM_P_CFG_EN then c
  else
    let ud := wordVal (c.rd (R.PQM_P_UDIN p))
    let u := (List.range 3).map fun k => F64.div (rmsOf l k n) ud
    let t := match l with | m :: _ => m.t | [] => 0
    forN 3 (fun e c => c.pqKind p e t u) c

/-! ### Cycles, quantities and energy (R385 to R391) -/

/-- The sum of a list from its first entry on. -/
def sumF (l : List F64) : F64 := l.foldl F64.add F64.zero

/-- X1 of a list of samples (R386): (2/N) Σ x[m] e^(−j2πm/N), real and imaginary part. -/
def fundamental (xs : List F64) : F64 × F64 :=
  let n := xs.length
  let s := (List.range n).foldl (fun (a : F64 × F64) m =>
    let (co, si) := cosSin m n
    let x := nth xs m F64.zero
    (F64.add a.1 (F64.mul x co), F64.sub a.2 (F64.mul x si))) (F64.zero, F64.zero)
  let k := F64.ratio 2 n
  (F64.mul k s.1, F64.mul k s.2)

/-- Register E_j of port `p` gains `d` through its residue (R388), and INT_j follows (R389). -/
def Chip.energy (c : Chip) (p j : Nat) (d : F64) : Chip :=
  let r := F64.add (nth (c.mport p).res j F64.zero) d
  let q := r.floor
  let c : Chip := c.updPort p fun m => { m with res := upd m.res j fun _ => F64.sub r (F64.ofInt q) }
  let e := c.rd64 (R.MTR_E p (2 * j)) + q.toNat
  let c : Chip := (c.wr64 (R.MTR_E p (2 * j)) (e % 2 ^ 64)).wrN (R.MTR_INT p j) (e % 2 ^ 64 / 1000)
  if 2 ^ 64 ≤ e then (c.flag (R.MTR_STAT p) F.MTR_STAT_WRAP true).raise (P.MTR p) 0 else c

/-- The word of a quantity register (R386, R410). -/
def qtyWord (x : F64) : Word := (x.acc.out true (-32)).word

/-- The power-quality values of a cycle of `n` ticks (R406): at its half-cycle boundary, with the ticks before it, and at
its end. -/
def Chip.pqCycle (c : Chip) (p n : Nat) : Chip :=
  let l := (c.mport p).ticks
  let half := match (c.mport p).neg with | some k => k | none => n / 2
  (c.pqValue p (l.drop (n - half)) n).pqValue p l n

/-- A measurement cycle ends with the `n` ticks newest in the port (R386, R387, R391, R395). -/
def Chip.cycleEnd (c : Chip) (p : Nat) : Chip :=
  let m := c.mport p
  let n := m.n
  let l := (m.ticks.take n).reverse
  let tm := c.mtrTm p
  let col := fun k => l.map fun x => nth x.x k F64.zero
  let nf := F64.ofNat n
  let rms := fun k => rmsOf m.ticks k n
  let pw := F64.div (sumF (l.map fun x => sumF ((List.range 3).map fun k =>
    F64.mul (nth x.x k F64.zero) (nth x.x (3 + k) F64.zero)))) nf
  let q := sumF ((List.range 3).map fun k =>
    let (vr, vi) := fundamental (col k)
    let (ir, ii) := fundamental (col (3 + k))
    F64.mul (F64.ratio 1 2) (F64.sub (F64.mul vi ir) (F64.mul vr ii)))
  let s := sumF ((List.range 3).map fun k => F64.mul (rms k) (rms (3 + k)))
  let en := fun (x : F64) => F64.div (F64.mul (F64.mul x nf) (F64.ofNat tm)) (F64.ofNat 3600000)
  let pos := decide (0 ≤ pw.sign)
  let qpos := decide (0 ≤ q.sign)
  let qts := [pw, q, s] ++ (List.range 6).map rms
  let c : Chip := forN 9 (fun k c => c.wr (R.MTR_QTY p k) (qtyWord (nth qts k F64.zero))) c
  let freq := F64.nearest (F64.mul (F64.div (F64.ofNat 1) (F64.ratio (n * tm : Nat) (10 ^ 9))) (F64.ofNat (10 ^ 6)))
  let c : Chip := c.wrN (R.MTR_FREQ p) (min 0xFFFFFFFF freq.toNat)
  let c : Chip := c.energy p (if pos then 0 else 1) (en pw.abs)
  let c : Chip := c.energy p (if pos then (if qpos then 2 else 5) else (if qpos then 3 else 4)) (en q.abs)
  let c : Chip := c.energy p (if pos then 6 else 7) (en s)
  let c : Chip := if m.stale then c.countSat (R.MTR_STALE_CYC p) else c
  let t := match m.ticks with | x :: _ => x.t | [] => 0
  let c : Chip := c.updPort p fun m => { m with ps := ((t, pw.abs) :: m.ps).filter fun e => decide (t < e.1 + 10 ^ 9) }
  (c.pqCycle p n).updPort p fun m => { m with n := 0, neg := none, stale := false }

/-- One tick of port `p` at herd time `t` with values `x` (R385): a positive crossing taken starts a cycle, the tick joins
the present cycle, and a cycle at its limit closes. -/
def Chip.mtrCycle (c : Chip) (p t : Nat) (x : List F64) (stale : Bool) : Chip :=
  let rate := c.mtrRate p
  let h := F64.mul (F64.mul (F64.ratio 5 100) (F64.sqrt (F64.ofNat 2))) (wordVal (c.rd (R.PQM_P_UDIN p)))
  let r := nth x (c.f (R.MTR_CFG p) F.MTR_CFG_REF) F64.zero
  let m := c.mport p
  let up := m.low && decide (0 ≤ r.sign)
  let down := m.high && decide (r.sign ≤ 0)
  let take := up && decide (rate / 70 ≤ m.n) && decide (0 < m.n)
  let c : Chip := if take then (c.cycleEnd p).flag (R.MTR_STAT p) F.MTR_STAT_REF_OK true else c
  let c : Chip := c.updPort p fun m => { m with
    neg := if down && m.neg.isNone && decide (0 < m.n) then some m.n else m.neg,
    low := (m.low && !up) || F64.lt r h.neg,
    high := (m.high && !down) || F64.lt h r,
    stale := m.stale || stale, n := m.n + 1,
    ticks := (⟨t, x⟩ :: m.ticks).take 1600 }
  let n := (c.mport p).n
  if c.is (R.MTR_STAT p) F.MTR_STAT_REF_OK then
    if rate / 40 ≤ n then ((c.cycleEnd p).flag (R.MTR_STAT p) F.MTR_STAT_REF_OK false).raise (P.MTR p) 1 else c
  else
    let fn := if c.is (R.MTR_CFG p) F.MTR_CFG_FNOM then 60 else 50
    if (2 * rate + fn) / (2 * fn) ≤ n then c.cycleEnd p else c

/-- A metering tick of port `p` at the newest herd time that is a whole multiple of Tm, one for each such time (R384). -/
def doMeterTick (p : Fin 2) (c : Chip) : Chip :=
  c.clocked (P.MTR p) fun c =>
    let t := c.htNs / c.mtrTm p * c.mtrTm p
    if !c.is (R.MTR_STAT p) F.MTR_STAT_RUNNING || (c.mport p).ticks.head?.any (fun k => decide (k.t = t)) then c
    else
      let tau : Int := ((t : Int) - (c.f (R.MTR_CFG p) F.MTR_CFG_LAG_US * 1000 : Nat)) * 2 ^ 48
      let (vs, c) := (List.range 6).foldl (fun (a : List (F64 × Bool × Bool) × Chip) k =>
        let (v, c) := a.2.mtrInput p k tau; (a.1 ++ [v], c)) ([], c)
      let c : Chip := if vs.any fun v => v.2.2 then (c.incSat (R.MTR_STAT p) F.MTR_STAT_ALIGN_MISS).raise (P.MTR p) 6 else c
      c.mtrCycle p t (vs.map (·.1)) (vs.any fun v => v.2.1)

/-! ### Saves to FRAM (R394 to R399) -/

/-- The base address of the FRAM area (R394). -/
def Chip.framBase (c : Chip) : Nat := c.f (R.MTR_SAVE_CFG 0) F.MTR_SAVE_CFG_BASE * 8192

/-- The record of slot `b` (0 A, 1 B). -/
def State.saveSlot (s : State) (b : Nat) : List Byte := getList unwritten s.mem.fram (s.chip.framBase + 256 * b) 256

/-- The little-endian number of `n` bytes of a list from offset `o` on. -/
def numAt (l : List Byte) (o n : Nat) : Nat := leBytes (fun i => nth l i 0) o n

/-- Whether a record is valid (R396). -/
def recValid (l : List Byte) : Bool :=
  decide (numAt l 0 2 = 0x4D52) && decide (numAt l 2 1 = 1) &&
    decide (numAt l 0xFC 4 = crc32Bytes ((l.take 0xFC).map (·.toNat)))

/-- The slot of the newest valid record (R396), serial order modulo 2^32. -/
def State.newestSlot (s : State) : Option Nat :=
  let a := s.saveSlot 0
  let b := s.saveSlot 1
  match recValid a, recValid b with
  | false, false => none
  | true, false => some 0
  | false, true => some 1
  | true, true => if (numAt b 4 4 + 2 ^ 32 - numAt a 4 4) % 2 ^ 32 < 2 ^ 31 ∧ numAt b 4 4 ≠ numAt a 4 4 then some 1 else some 0

/-- P_last of port `p` (R395): the largest |P| of the cycles in the last second, in W. -/
def Chip.pLast (c : Chip) (p : Nat) : Nat :=
  let m := ((c.mport p).ps.filter fun e => decide (c.htNs < e.1 + 10 ^ 9)).foldl (fun a e => F64.max a e.2) F64.zero
  min 0xFFFFFFFF m.nearest.toNat

/-- The bytes of a record (R395). -/
def Chip.saveRecord (c : Chip) (kind seq unsaved : Nat) : List Byte :=
  let es := fun p => (List.range 8).flatMap fun j => bytesLE 8 (c.rd64 (R.MTR_E p (2 * j)))
  let l := bytesLE 2 0x4D52 ++ bytesLE 1 1 ++ bytesLE 1 kind ++ bytesLE 4 seq ++ bytesLE 8 c.calStamp ++ bytesLE 8 c.htNs
    ++ es 0 ++ es 1 ++ bytesLE 4 (c.pLast 0) ++ bytesLE 4 (c.pLast 1)
    ++ bytesLE 2 (c.f (R.MTR_CLEARS 0) F.MTR_CLEARS_CLEARS) ++ bytesLE 2 (c.f (R.MTR_CLEARS 1) F.MTR_CLEARS_CLEARS)
    ++ bytesLE 2 unsaved ++ List.replicate 86 0
  l ++ bytesLE 4 (crc32Bytes (l.map (·.toNat)))

/-- Bytes with their addresses from `a` on. -/
def addressed (a : Nat) (l : List Byte) : List (Nat × Byte) := (List.range l.length).zip l |>.map fun e => (a + e.1, e.2)

/-- The bytes of PQ record `r` of port `p`, with their addresses (R394). -/
def Chip.pqBytes (c : Chip) (e : Nat × Nat) : List (Nat × Byte) :=
  addressed (c.framBase + 0x200 + 0x800 * e.1 + 32 * e.2)
    ((List.range 8).flatMap fun w => bytesLE 4 (c.rdN (Key.pq e.1 e.2 w)))

/-- The PQ records new or changed since the last save, newest first within each port. -/
def Chip.pqDirty (c : Chip) : List (Nat × Nat) :=
  (c.pqp 0).dirty.map (fun i => (0, i)) ++ (c.pqp 1).dirty.map (fun i => (1, i))

/-- The start of a record, R409 W1 and W2, that orders the records of both ports by age. -/
def Chip.pqStart (c : Chip) (e : Nat × Nat) : Nat := c.rdN (Key.pq e.1 e.2 1) + 2 ^ 32 * c.rdN (Key.pq e.1 e.2 2)

/-- A record put into a list sorted newest first. -/
def Chip.pqInsert (c : Chip) (e : Nat × Nat) : List (Nat × Nat) → List (Nat × Nat)
  | [] => [e]
  | x :: r => if c.pqStart x < c.pqStart e then e :: x :: r else x :: c.pqInsert e r

/-- The records newest first. -/
def Chip.pqSorted (c : Chip) (l : List (Nat × Nat)) : List (Nat × Nat) := l.foldl (fun a e => c.pqInsert e a) []

/-- A save starts (R396 to R398): it takes the energies, the PQ records that are new or changed (at a power failure at
most 16), at a power failure the log tail, and the record for the slot without the newest valid one. -/
def State.saveStart (s : State) (fail : Bool) : State :=
  let c := s.chip
  let all := if fail then c.pqSorted c.pqDirty else c.pqDirty
  let recs := if fail then all.take 16 else all
  let tail := c.rd (R.MTR_LOG_TAIL 0)
  let tailBytes := if fail then
      addressed (c.framBase + 0x1200)
        (getList unwritten s.mem.sram (8 * fget tail F.MTR_LOG_TAIL_OFS8) (8 * min 64 (fget tail F.MTR_LOG_TAIL_LEN8)))
    else []
  let (slot, seq) := match s.newestSlot with
    | some b => (1 - b, (numAt (s.saveSlot b) 4 4 + 1) % 2 ^ 32)
    | none => (0, 1)
  let rec' := c.saveRecord (if fail then 2 else 1) seq (all.length - recs.length)
  let bytes := recs.flatMap c.pqBytes ++ tailBytes ++ addressed (c.framBase + 256 * slot) rec'
  let c : Chip := c.updMtr fun m => { m with
    save := some ⟨fail, seq, bytes, recs⟩, pq := m.pq.map fun q => { q with dirty := [] } }
  let left := all.drop recs.length
  let c : Chip := forN 2 (fun p c => c.updPq p fun q =>
    { q with dirty := left.filterMap fun e => if e.1 = p then some e.2 else none }) c
  { s with chip := c.flag (R.MTR_SAVE_STAT 0) F.MTR_SAVE_STAT_BUSY true }

/-- Bytes written to FRAM. -/
def Mem.framPut (m : Mem) (l : List (Nat × Byte)) : Mem :=
  { m with fram := l.foldl (fun f e => f.put unwritten e.1 e.2) m.fram }

/-- A save ends without its record: its PQ records still wait for a save. -/
def Chip.saveUndone (c : Chip) (r : SaveRun) : Chip :=
  let c : Chip := forN 2 (fun p c => c.updPq p fun q => { q with
    dirty := (r.recs.filterMap fun e => if e.1 = p then some e.2 else none).filter (fun i => !q.dirty.contains i) ++ q.dirty }) c
  (c.updMtr fun m => { m with save := none }).flag (R.MTR_SAVE_STAT 0) F.MTR_SAVE_STAT_BUSY false

/-- A save in progress ends at a byte boundary (R399): how many bytes it had written, short of its last, is open (log
entry 2). -/
def State.saveAbandon (s : State) : State :=
  match s.chip.mtr.save with
  | none => s
  | some r =>
    let (n, c) := s.chip.freeN r.bytes.length
    { s with chip := c.saveUndone r, mem := s.mem.framPut (r.bytes.take n) }

/-- A periodic save where no save runs (R397, R399). -/
def State.periodicSave (s : State) : State :=
  if s.chip.mtr.save.isSome || !s.chip.clockOn then s else s.saveStart false

/-- The save period elapses (R397). -/
def mdPeriodicSave (s : State) : State :=
  if s.chip.f (R.MTR_SAVE_CFG 0) F.MTR_SAVE_CFG_PERIOD_S = 0 then s else s.periodicSave

/-- MTR_00.CMD SAVE_NOW (R397, R410). -/
def mdMtrSaveNow (w : Writer) (key : BitVec 16) (s : State) : State :=
  s.cmd (R.MTR_CMD 0) w key State.periodicSave

/-- The energies of port `p`, their residues, INT_j and WRAP are cleared (R410). -/
def Chip.mtrClear (c : Chip) (p : Nat) : Chip :=
  let c : Chip := forN 16 (fun j c => c.wrN (R.MTR_E p j) 0) c
  let c : Chip := forN 8 (fun j c => c.wrN (R.MTR_INT p j) 0) c
  let c : Chip := c.updPort p fun m => { m with res := List.replicate 8 F64.zero }
  (c.flag (R.MTR_STAT p) F.MTR_STAT_WRAP false).incSat (R.MTR_CLEARS p) F.MTR_CLEARS_CLEARS

/-- MTR.CMD CLEAR (R397, R410): accepted in READY, followed by a periodic save where none runs. -/
def mdMtrClear (w : Writer) (key : BitVec 16) (p : Fin 2) (s : State) : State :=
  s.cmd (R.MTR_CMD p) w key fun s =>
    if s.chip.mode = .ready then (s.onChip fun c => c.mtrClear p).periodicSave
    else s.onChip fun c => c.refuse (R.MTR_CMD p) w.ini.code

/-- MTR_00.CMD CO_CLEAR (R410). -/
def doMtrCoClear (w : Writer) (key : BitVec 16) (c : Chip) : Chip :=
  c.cmd (R.MTR_CMD 0) w key fun c =>
    ((c.wrN (R.MTR_CO_CHG_LO 0) 0).wrN (R.MTR_CO_CHG_HI 0) 0).updMtr fun m => { m with coRes := F64.zero }

/-- The record of a save is written: SAVE_SEQ, LAST_KIND and SAVE_DONE. -/
def Chip.saveDone (c : Chip) (r : SaveRun) : Chip :=
  let c : Chip := (c.updMtr fun m => { m with save := none }).flag (R.MTR_SAVE_STAT 0) F.MTR_SAVE_STAT_BUSY false
  let c : Chip := (c.wrN (R.MTR_SAVE_SEQ 0) r.seq).setF (R.MTR_SAVE_STAT 0) F.MTR_SAVE_STAT_LAST_KIND (if r.fail then 2 else 1)
  c.raise (P.MTR 0) 2

/-- A periodic save has read its record back (R397): `ok` tells that it matches. On a mismatch what the FRAM holds in the
record's place is open (log entry 2, DESIGN CHOICE). -/
def mdSaveComplete (ok : Bool) (s : State) : State :=
  match s.chip.mtr.save with
  | none => s
  | some r =>
    if r.fail then s
    else if ok then { s with chip := s.chip.saveDone r, mem := s.mem.framPut r.bytes }
    else
      let bad := (r.bytes.drop (r.bytes.length - 256)).foldl (fun (a : List (Nat × Byte) × Chip) e =>
        let (w, c) := a.2.freeW
        (a.1 ++ [(e.1, BitVec.ofNat 8 w.toNat)], c)) ([], s.chip)
      let c : Chip := (bad.2.saveUndone r).flag (R.MTR_SAVE_STAT 0) F.MTR_SAVE_STAT_FAIL true
      { s with chip := c.raise (P.MTR 0) 3,
               mem := s.mem.framPut (r.bytes.take (r.bytes.length - 256) ++ bad.1) }

/-- The power-fail save completes with its record (R398). -/
def mdPowerFailSaveDone (s : State) : State :=
  match s.chip.mtr.save with
  | none => s
  | some r => if r.fail then { s with chip := s.chip.saveDone r, mem := s.mem.framPut r.bytes } else s

/-- The early warning at the meter (R398, R399): LOSS_SEC takes the calendar seconds and the power-fail save takes the
place of a periodic one. A power-fail save under way goes on. -/
def State.mtrPowerFail (s : State) : State :=
  let s : State := s.onChip fun c => c.wrN (R.MTR_LOSS_SEC 0) c.time.calSec
  match s.chip.mtr.save with
  | some r => if r.fail then s else s.saveAbandon.saveStart true
  | none => s.saveStart true

/-! ### Restoring (R400, R401) -/

/-- The loss bound of port `p` from the newest valid record `l`, with `pgCal` the calendar seconds at power-good (R401). -/
def Chip.lossBound (c : Chip) (p : Nat) (l : List Byte) (pgCal : Nat) : Nat :=
  let bound := c.rdN (R.MTR_BOUND_W p)
  let pb := if bound ≠ 0 then bound else numAt l (0x98 + 4 * p) 4
  let tr := numAt l 8 8 % 2 ^ 40
  let ls := c.rdN (R.MTR_LOSS_SEC 0)
  let dt := if tr % 2 ^ 32 < ls then ls - tr % 2 ^ 32 else pgCal - tr
  min 0xFFFFFFFF ((pb * dt + 3599) / 3600)

/-- The starting block restores the ports and the PQ records (R400, R401): `calLost` tells that the calendar was lost with
the survival domain, `pgCal` are the calendar seconds at power-good. -/
def State.mtrRestore (s : State) (calLost : Bool) (pgCal : Nat) : State :=
  let rec' := s.newestSlot.map s.saveSlot
  s.onChip fun c =>
    let c : Chip := forN 2 (fun p c => forN 64 (fun r c => forN 8 (fun w c =>
      c.pqPut p r w (leBytes (fun a => s.mem.fram.get unwritten a) (s.chip.framBase + 0x200 + 0x800 * p + 32 * r + 4 * w) 4)) c) c) c
    let c : Chip := forN 2 (fun p c => forN 8 (fun j c =>
      let e := match rec' with | some l => numAt l (0x18 + 64 * p + 8 * j) 8 | none => 0
      (c.wr64 (R.MTR_E p (2 * j)) e).wrN (R.MTR_INT p j) (e / 1000)) c) c
    let c : Chip := c.updMtr fun m => { m with
      restored := true, port := m.port.map fun q => { q with res := List.replicate 8 F64.zero } }
    let kind := match rec' with | some l => numAt l 3 1 | none => 0
    let c : Chip := match rec' with
      | some l => (c.wrN (R.MTR_SAVE_SEQ 0) (numAt l 4 4)).setF (R.MTR_SAVE_STAT 0) F.MTR_SAVE_STAT_LAST_KIND kind
      | none => c.flag (R.MTR_SAVE_STAT 0) F.MTR_SAVE_STAT_NO_RECORD true
    let c : Chip :=
      if kind = 2 then c
      else
        let c : Chip := (c.flag (R.MTR_SAVE_STAT 0) F.MTR_SAVE_STAT_INCOMPLETE true).updMtr fun m => { m with incDue := true }
        match rec', calLost with
        | some l, false => (c.wrN (R.MTR_LOSS_WH_0 0) (c.lossBound 0 l pgCal)).wrN (R.MTR_LOSS_WH_1 0) (c.lossBound 1 l pgCal)
        | _, _ => ((c.wrN (R.MTR_LOSS_WH_0 0) 0xFFFFFFFF).wrN (R.MTR_LOSS_WH_1 0) 0xFFFFFFFF).flag (R.MTR_SAVE_STAT 0)
            F.MTR_SAVE_STAT_CAL_UNKNOWN true
    c.mtrFollow

/-! ### Current-only accounting (R403, R404) -/

/-- CO_CHG gains the charge of one second of `codes` (R403). -/
def Chip.coSecond (c : Chip) (codes : List (BitVec 24)) : Chip :=
  let ofs := c.fs (R.MTR_CO_OFS 0) F.MTR_CO_OFS_OFS
  let sq := codes.foldl (fun a x => F64.add a (let d := F64.ofInt (x.toInt - ofs); F64.mul d d)) F64.zero
  let i := F64.mul (wordVal (c.rd (R.MTR_CO_K 0))) (F64.sqrt (F64.div sq (F64.ofNat (max 1 codes.length))))
  let r := F64.add c.mtr.coRes (F64.mul (F64.div i (F64.ofNat 3600)) (F64.ofNat (10 ^ 6)))
  let q := r.floor
  let c : Chip := c.updMtr fun m => { m with coRes := F64.sub r (F64.ofInt q) }
  let v := ((c.rdN (R.MTR_CO_CHG_LO 0) + 2 ^ 32 * c.rdN (R.MTR_CO_CHG_HI 0) : Nat) + q) % (2 ^ 64 : Nat)
  ((c.wrN (R.MTR_CO_CHG_LO 0) v.toNat).wrN (R.MTR_CO_CHG_HI 0) (v.toNat / 2 ^ 32)).flag (R.MTR_CO_STAT 0)
    F.MTR_CO_STAT_RAN true

/-- What a page soft reset of MTR page `p` and a device reset leave unchanged beside the survival registers (R393, R405): the
energies, INT_j, their snapshot copies, STAT.WRAP and CLEARS. -/
def mtrKept (o : Nat) : Bool :=
  (decide (0x150 ≤ o) && decide (o < 0x210)) || decide (o = 0x114) || (decide (0x318 ≤ o) && decide (o < 0x338))

/-! ### The commands -/

/-- METER_TICK (R384). -/
def execMeterTick (p : Fin 2) (s : State) : Host.Outcome State Fault Refusal :=
  .next (s.onChip (doMeterTick p))
/-- PERIODIC_SAVE (R397). -/
def execPeriodicSave (s : State) : Host.Outcome State Fault Refusal :=
  .next (mdPeriodicSave s)
/-- MTR_SAVE_NOW (R397). -/
def execMtrSaveNow (w : Writer) (key : BitVec 16) (s : State) : Host.Outcome State Fault Refusal :=
  .next (mdMtrSaveNow w key s)
/-- MTR_CLEAR (R410). -/
def execMtrClear (w : Writer) (key : BitVec 16) (p : Fin 2) (s : State) : Host.Outcome State Fault Refusal :=
  .next (mdMtrClear w key p s)
/-- MTR_CO_CLEAR (R410). -/
def execMtrCoClear (w : Writer) (key : BitVec 16) (s : State) : Host.Outcome State Fault Refusal :=
  .next (s.onChip (doMtrCoClear w key))
/-- SAVE_COMPLETE (R397). -/
def execSaveComplete (ok : Bool) (s : State) : Host.Outcome State Fault Refusal :=
  .next (mdSaveComplete ok s)
/-- POWER_FAIL_SAVE_DONE (R398). -/
def execPowerFailSaveDone (s : State) : Host.Outcome State Fault Refusal :=
  .next (mdPowerFailSaveDone s)

end Sys2Proof.Machine
end

