-- ==== Sys2Proof/Machine/Gdi.lean ====
section
/-!
DEFINITION. The gate-drive interface (*Gate-Drive Interface and Power-Stage Protection*, R355 to R381): command queues, legacy
pins, the interlock and the retry state machine, driver supervision and the bootstrap refresh. The output chain itself is
in Gates.lean.
-/
namespace Sys2Proof.Machine
open Sys2Proof

-- The states of the retry state machine (R370).
namespace Gs
def disabled : Nat := 0
def waitRdy : Nat := 1
def resume : Nat := 2
def active : Nat := 3
def retryWait : Nat := 4
def latched : Nat := 5
end Gs

/-- GRDY counts as lost (R368). -/
def Chip.gdiRdyLost (c : Chip) (n : Nat) : Bool :=
  c.is (R.GDI_CFG n) F.GDI_CFG_RDY_EN && c.is (R.GDI_STAT n) F.GDI_STAT_SUP_OK && !c.is (R.GDI_STAT n) F.GDI_STAT_GRDY

/-- The live cause bits, and what the Sheepdog sees of a latched instance (R369). -/
def Chip.gdiStat (c : Chip) (n : Nat) : Chip :=
  let c : Chip := (c.flag (R.GDI_STAT n) F.GDI_STAT_CAUSE_RDY (c.gdiRdyLost n)).flag (R.GDI_STAT n) F.GDI_STAT_CAUSE_FLT
    (c.is (R.GDI_STAT n) F.GDI_STAT_GFLT)
  let c : Chip := c.setF (R.GDI_STAT n) F.GDI_STAT_WIN_COUNT (min (c.gdi n).n 15)
  let on := decide (c.f (R.GDI_CFG n) F.GDI_CFG_SHD = 2) && decide (c.gdiState n = Gs.latched) && !(c.gdi n).inj
  let was := c.bit R.SHD_DEMAND_AG (16 + n)
  let c : Chip := c.setBit R.SHD_DEMAND_AG (16 + n) on
  if on && !was then c.cause 0x03 6 n else c

/-- Instance `n` goes to state `st`; entering ACTIVE releases the fault hold, unless GFLT_nn still acts (R366), DISABLED clears the count
(R370). -/
def Chip.gdiGo (c : Chip) (n st : Nat) : Chip :=
  let c : Chip := c.setF (R.GDI_STAT n) F.GDI_STAT_STATE st
  let flt := c.is (R.GDI_STAT n) F.GDI_STAT_GFLT
  let c : Chip := c.updGdi n fun x =>
    if st = Gs.active then { x with async := flt }
    else if st = Gs.disabled then { x with n := 0, win := false, faulted := false, async := flt, inj := false }
    else x
  (c.gdiOut n).gdiStat n

/-- A fault occurrence with cause 1 DRV_FAULT, 2 SHOOT or 3 RDY_LOSS (R370, R371); an injected one is not presented to the
Sheepdog (R375). -/
def Chip.gdiFault (c : Chip) (n cause : Nat) (injected : Bool) : Chip :=
  let c : Chip := c.updGdi n fun x => { x with n := x.n + 1, win := true, faulted := true, inj := injected }
  let c : Chip := (c.setF (R.GDI_STAT n) F.GDI_STAT_LAST_CAUSE cause).wr64 (R.GDI_LAST_T n 0) c.htNs
  let c : Chip := match cause with
    | 1 => c.incSat (R.GDI_CNT_0 n) F.GDI_CNT_0_DRV
    | 2 => c.incSat (R.GDI_CNT_0 n) F.GDI_CNT_0_SHOOT
    | _ => c.incSat (R.GDI_CNT_1 n) F.GDI_CNT_1_RDY
  let c : Chip := (c.raise (P.GDI n) 0).raise (P.GDI n) (2 + cause)
  let latched := decide (c.f (R.GDI_RETRY n) F.GDI_RETRY_MAX < (c.gdi n).n)
  let c : Chip := c.gdiGo n (if latched then Gs.latched else Gs.retryWait)
  let c : Chip := c.raiseIf latched (P.GDI n) 1
  if c.f (R.GDI_CFG n) F.GDI_CFG_SHD = 1 && !injected then c.cause 0x03 6 n else c

/-- Both requests on at the interlock are taken: SHOOT, and a fault where the state machine counts one (R364, R370). -/
def Chip.gdiShoots (c : Chip) : Chip :=
  forN 16 (fun n c =>
    if (c.gdi n).shoot then
      let c : Chip := c.updGdi n fun x => { x with shoot := false }
      if c.gdiState n = Gs.active ∨ c.gdiState n = Gs.resume then c.gdiFault n 2 false else c.raise (P.GDI n) 4
    else c) c

/-- WAIT_RDY ends with the supplies applied and the driver ready (R370). -/
def Chip.gdiReady (c : Chip) (n : Nat) : Chip :=
  if c.gdiState n = Gs.waitRdy && c.is (R.GDI_STAT n) F.GDI_STAT_SUP_OK
      && (!c.is (R.GDI_CFG n) F.GDI_CFG_RDY_EN || c.is (R.GDI_STAT n) F.GDI_STAT_GRDY) then c.gdiGo n Gs.resume
  else c

/-- The cause present now, if any (R372). -/
def Chip.gdiCause (c : Chip) (n : Nat) : Option Nat :=
  let r := c.gdiReq n
  if c.is (R.GDI_STAT n) F.GDI_STAT_GFLT && c.is (R.GDI_CFG n) F.GDI_CFG_FLT_EN then some 1
  else if r.1 && r.2 then some 2
  else if c.gdiRdyLost n then some 3 else none

/-- The resume point of instance `n` (R373). -/
def Chip.gdiResume (c : Chip) (n : Nat) : Chip :=
  if c.gdiState n ≠ Gs.resume then c
  else match c.gdiCause n with
    | some x => c.gdiFault n x false
    | none =>
      let again := (c.gdi n).faulted
      let c : Chip := (c.updGdi n fun x => { x with faulted := false }).gdiGo n Gs.active
      if again then (c.incSat (R.GDI_CNT_1 n) F.GDI_CNT_1_RETRIES).raise (P.GDI n) 6 else c

/-- The legacy source resumes once its pins give both requests off (R373). -/
def Chip.gdiLegacyResume (c : Chip) (n : Nat) : Chip :=
  if c.gdiSrc n = 2 && !(c.gdiLegacy n).1 && !(c.gdiLegacy n).2 then c.gdiResume n else c

/-- Whether instance `n` has a configuration error (R377). -/
def Chip.gdiBad (c : Chip) (n : Nat) : Bool :=
  let k := fun x => c.f (R.GDI_CFG n) x
  let dt := c.f (R.GDI_TIMING n) F.GDI_TIMING_DT_MIN
  let w := c.f (R.GDI_REFRESH n) F.GDI_REFRESH_W
  let wait := c.f (R.GDI_RETRY n) F.GDI_RETRY_WAIT
  decide (k F.GDI_CFG_SRC = 3) || decide (k F.GDI_CFG_LEG_MODE = 3) || decide (wait < 1) || decide (10000 < wait)
    || decide (c.f (R.GDI_RETRY n) F.GDI_RETRY_WINDOW = 0) || decide (8000 < dt)
    || (decide (k F.GDI_CFG_REFRESH = 1) && (decide (k F.GDI_CFG_SRC ≠ 0)
        || decide (c.f (R.GDI_REFRESH n) F.GDI_REFRESH_N = 0) || decide (w < 80) || decide (2000 < w) || decide (w ≤ dt)))

/-- STAT shows the pins of instance `n` under the polarities that replace those of the CFG word `o` (R366, R368). -/
def Chip.gdiPol (c : Chip) (n : Nat) (o : Word) : Chip :=
  let turn := fun (c : Chip) (p s : Fld) =>
    if fget o p = c.f (R.GDI_CFG n) p then c else c.flag (R.GDI_STAT n) s (!c.is (R.GDI_STAT n) s)
  let c : Chip := turn (turn c F.GDI_CFG_FLT_POL F.GDI_STAT_GFLT) F.GDI_CFG_RDY_POL F.GDI_STAT_GRDY
  c.updGdi n fun x => { x with async := x.async || c.is (R.GDI_STAT n) F.GDI_STAT_GFLT }

/-- Instance `n` follows its registers (R370, R377); without REFRESH it counts no full-on periods (R376). -/
def Chip.gdiFollow (c : Chip) (n : Nat) : Chip :=
  let bad := c.gdiBad n
  let c : Chip := c.flag (R.GDI_STAT n) F.GDI_STAT_CFG_ERR bad
  let c : Chip := if c.is (R.GDI_CFG n) F.GDI_CFG_REFRESH then c else c.updGdi n fun x => { x with fullN := 0, notch := false }
  let c : Chip :=
    if !c.is (R.GDI_CFG n) F.GDI_CFG_EN || bad then
      if c.gdiState n = Gs.disabled then c else c.gdiGo n Gs.disabled
    else if c.gdiState n = Gs.disabled then (c.gdiGo n Gs.waitRdy).gdiReady n
    else c.gdiReady n
  (((c.gdiOut n).gdiStat n).gdiLegacyResume n).gdiShoots

/-! ### Fabric-timed commands -/

/-- FQ_NEXT and FQ_STAT show the queue. -/
def Chip.gdiQueue (c : Chip) (n : Nat) : Chip :=
  let q := (c.gdi n).queue
  let c : Chip := c.setF (R.GDI_FQ_STAT n) F.GDI_FQ_STAT_FILL q.length
  match q with
  | e :: _ => (c.wr64 (R.GDI_FQ_NEXT n 0) e.t).setF (R.GDI_FQ_STAT n) F.GDI_FQ_STAT_NEXT_ST e.st
  | [] => (c.wr64 (R.GDI_FQ_NEXT n 0) 0).setF (R.GDI_FQ_STAT n) F.GDI_FQ_STAT_NEXT_ST 0

/-- The fabric source's requests become `h`, `l`. -/
def Chip.gdiFab (c : Chip) (n : Nat) (h l : Bool) : Chip :=
  ((c.updGdi n fun x => { x with fabH := h, fabL := l }).gdiOut n).gdiShoots

/-- The execution time of an entry in units of 1/128 ns (78.125 ps is 10 of them). -/
def gateTime (t f : Nat) : Nat := 128 * t + 10 * f

/-- An entry reaches the queue of instance `n` (R358 to R360). -/
def Chip.gdiPut (c : Chip) (n t f st : Nat) : Chip :=
  if st = 3 then c.incSat (R.GDI_CNT_2 n) F.GDI_CNT_2_OVF
  else
    let x := gateTime t f
    let q := (c.gdi n).queue
    let same := q.any fun e => gateTime e.t e.f = x
    if 8 ≤ q.length && !same then
      ((c.gdiFab n false false).incSat (R.GDI_CNT_2 n) F.GDI_CNT_2_OVF).raise (P.GDI n) 8
    else
      let late := decide (x * 2 ^ 41 < c.time.ht + 5 * 2 ^ 48)
      let q := q.filter fun e => gateTime e.t e.f ≠ x
      let q := (q.filter fun e => gateTime e.t e.f < x) ++ ⟨t, f, st, late, c.time.cyc + 2⟩ :: q.filter fun e =>
        x < gateTime e.t e.f
      let c : Chip := (c.updGdi n fun x => { x with queue := q }).gdiQueue n
      if late then (c.incSat (R.GDI_CNT_2 n) F.GDI_CNT_2_LATE).raise (P.GDI n) 7 else c

/-- A GATE_CMD delivers its entries in payload order (R458). -/
def Chip.gateCmdTake (c : Chip) (p : Packet) : Chip :=
  (forN (min 16 (p.body.length / 4)) (fun i c =>
    let w := p.w (4 * i)
    c.gdiPut (w / 2 ^ 28) (p.w64 (4 * i + 2)) (w / 2 ^ 21 % 32) (w / 2 ^ 26 % 4)) c).lapFab 3 p

/-- GATE_CMD_RX (R458). -/
def doGateCmdRx (p : Packet) (c : Chip) : Chip := c.consume p fun c => c.gateCmdTake p

/-- Whether entry `e` executes in the present CK_PER cycle: its time lies before the cycle's end, or it came late and its second cycle has
begun (R358, R360). -/
def Chip.gateDue (c : Chip) (e : GateEnt) : Bool :=
  if e.late then decide (e.due ≤ c.time.cyc) else decide (gateTime e.t e.f * 2 ^ 41 < c.time.ht + 5 * 2 ^ 47)

/-- The entry at the head of instance `n`'s queue executes, in its cycle; of a late one only the turn-off part does (R358, R360). For the
fabric source this is the resume point (R373). -/
def doGateEntryExecute (n : Fin 16) (c : Chip) : Chip :=
  c.clocked (P.GDI n) fun c =>
    match (c.gdi n).queue with
    | [] => c
    | e :: q =>
      if !c.gateDue e then c
      else
        let c : Chip := (c.updGdi n fun x => { x with queue := q }).gdiQueue n
        let c : Chip := c.setF (R.GDI_FQ_STAT n) F.GDI_FQ_STAT_CUR_ST e.st
        let c : Chip := c.gdiFab n (!e.late && decide (e.st = 1)) (!e.late && decide (e.st = 2))
        if c.gdiSrc n = 1 then c.gdiResume n else c

/-- No entry for TMO_US with a request on: both requests off and GD_CMDLOSS (R361). An entry that `arrived` in the cycle of expiry wins
(R37). -/
def doGateCmdTimeout (n : Fin 16) (arrived : Bool) (c : Chip) : Chip :=
  c.clocked (P.GDI n) fun c =>
    if !arrived && c.f (R.GDI_FCMD n) F.GDI_FCMD_TMO_US ≠ 0 && ((c.gdi n).fabH || (c.gdi n).fabL) then
      (c.gdiFab n false false).raise (P.GDI n) 2
    else c

/-! ### Pins -/

/-- The filtered levels of PUL_nn and PEN_nn (R362). -/
def doLegacyPinChange (n : Fin 16) (pul pen : Bool) (c : Chip) : Chip :=
  c.clockedLap (P.GDI n) fun c =>
    let c : Chip := (c.flag (R.GDI_STAT n) F.GDI_STAT_PUL pul).flag (R.GDI_STAT n) F.GDI_STAT_PEN pen
    ((c.gdiOut n).gdiShoots).gdiLegacyResume n

/-- The minimum dead time of the GH output (`high`) or of the GL output ends (R365). -/
def doDtMinExpiry (n : Fin 16) (high : Bool) (c : Chip) : Chip :=
  c.clocked (P.GDI n) fun c =>
    (c.updGdi n fun x => if high then { x with dtH := false } else { x with dtL := false }).gdiOut n

/-- The level of GFLT_nn after FLT_POL: asserted, it removes both gates at once, without a clock (R366); released, it ends
that hold where no fault was counted. -/
def doGfltAssert (n : Fin 16) (asserted : Bool) (c : Chip) : Chip :=
  c.bypass fun c =>
    let c : Chip := c.flag (R.GDI_STAT n) F.GDI_STAT_GFLT asserted
    let free := !asserted && !c.is (R.GDI_CFG n) F.GDI_CFG_FLT_EN
    let c : Chip := c.updGdi n fun x => { x with async := asserted || (x.async && !free), fresh := asserted || x.fresh }
    (c.gdiOut n).gdiStat n

/-- The synchronised assertion of GFLT_nn, once for each (R367). -/
def doGfltSyncFault (n : Fin 16) (c : Chip) : Chip :=
  c.bypass fun c =>
    let new := (c.gdi n).fresh
    let c : Chip := c.updGdi n fun x => { x with fresh := false }
    if !new then c
    else if c.gdiState n = Gs.active ∨ c.gdiState n = Gs.resume then
      if c.is (R.GDI_CFG n) F.GDI_CFG_FLT_EN then c.gdiFault n 1 false else c
    else c.flag (R.GDI_STAT n) F.GDI_STAT_FLT_SEEN true

/-- GRDY_nn has stayed low for RDY_FILT (R368). -/
def doGrdyLoss (n : Fin 16) (c : Chip) : Chip :=
  c.bypass fun c =>
    let c : Chip := (c.flag (R.GDI_STAT n) F.GDI_STAT_GRDY false).gdiStat n
    if c.gdiRdyLost n && (decide (c.gdiState n = Gs.active) || decide (c.gdiState n = Gs.resume)) then c.gdiFault n 3 false
    else c

/-- GRDY_nn has been ready for RDY_FILT (R370). -/
def doGrdyReady (n : Fin 16) (c : Chip) : Chip :=
  c.clockedLap (P.GDI n) fun c => (((c.flag (R.GDI_STAT n) F.GDI_STAT_GRDY true).gdiStat n).gdiReady n).gdiLegacyResume n

/-- SUP_OK of instance `n` as R507 gives it: an off-pulse, and the settle window after it, do not clear it. -/
def Chip.supOk (c : Chip) (n : Nat) : Bool :=
  let l := c.sgrChs.filter fun k => nbit (c.f (R.SCFG_SO_MAP k) F.SCFG_SO_MAP_HB) n
  if l.isEmpty then c.safe.sgr else l.all fun k => c.bit R.SOUT_STAT k && !(nth c.safe.sout k {}).switched

/-- SUP_OK of instance `n` becomes `ok`: where it falls, RESUME and ACTIVE end without a fault (R368, R370). -/
def Chip.supOkTo (c : Chip) (n : Nat) (ok : Bool) : Chip :=
  let c : Chip := (c.flag (R.GDI_STAT n) F.GDI_STAT_SUP_OK ok).gdiStat n
  if ok then (c.gdiReady n).gdiLegacyResume n
  else if c.gdiState n = Gs.active ∨ c.gdiState n = Gs.resume then c.gdiGo n Gs.waitRdy
  else c

/-- SUP_OK of instance `n` follows the Sheepdog's supplies (R370, R507). -/
def doSupOkChange (n : Fin 16) (c : Chip) : Chip := c.clockedLap (P.GDI n) fun c => c.supOkTo n (c.supOk n)

/-! ### Retry state machine -/

/-- The end of a retry wait (R370, R372). -/
def doRetryWaitEnd (n : Fin 16) (c : Chip) : Chip :=
  c.clocked (P.GDI n) fun c =>
    if c.gdiState n = Gs.retryWait then
      match c.gdiCause n with
      | some x => c.gdiFault n x false
      | none => (c.gdiGo n Gs.resume).gdiLegacyResume n
    else c

/-- RETRY.WINDOW has elapsed since the window opened: the count clears, unless the instance is LATCHED (R371). -/
def doRetryWindowEnd (n : Fin 16) (c : Chip) : Chip :=
  c.clocked (P.GDI n) fun c =>
    if (c.gdi n).win && decide (c.gdiState n ≠ Gs.latched) then (c.updGdi n fun x => { x with n := 0, win := false }).gdiStat n
    else c

/-- GDI_nn.CMD (R374, R375, R379): 1 CLEAR, 2 INJECT_FLT, 3 INJECT_SHOOT, 4 INJECT_RDY, 5 CLR_STATS. -/
def Chip.gdiCmd (c : Chip) (n op i : Nat) : Chip :=
  let inj := match c.mode with | .ready | .safe | .replay => decide (c.gdiState n = Gs.active) | _ => false
  match op with
  | 1 =>
    if c.gdiState n = Gs.latched && (c.gdiCause n).isNone then
      (((c.updGdi n fun x => { x with n := 0, win := false }).gdiGo n Gs.waitRdy).gdiReady n).gdiLegacyResume n
    else c.refuse (R.GDI_CMD n) i
  | 2 => if inj then c.gdiFault n 1 true else c.refuse (R.GDI_CMD n) i
  | 3 => if inj then c.gdiFault n 2 true else c.refuse (R.GDI_CMD n) i
  | 4 => if inj then c.gdiFault n 3 true else c.refuse (R.GDI_CMD n) i
  | 5 => ((c.wrN (R.GDI_CNT_0 n) 0).wrN (R.GDI_CNT_1 n) 0).wrN (R.GDI_CNT_2 n) 0
  | _ => c.refuse (R.GDI_CMD n) i

/-- GDI.CMD CLEAR (R374). -/
def doGdiClear (w : Writer) (key : BitVec 16) (n : Fin 16) (c : Chip) : Chip :=
  c.cmd (R.GDI_CMD n) w key fun c => c.gdiCmd n 1 w.ini.code
/-- GDI.CMD INJECT_FLT (R375). -/
def doGdiInjectFlt (w : Writer) (key : BitVec 16) (n : Fin 16) (c : Chip) : Chip :=
  c.cmd (R.GDI_CMD n) w key fun c => c.gdiCmd n 2 w.ini.code
/-- GDI.CMD INJECT_SHOOT (R375). -/
def doGdiInjectShoot (w : Writer) (key : BitVec 16) (n : Fin 16) (c : Chip) : Chip :=
  c.cmd (R.GDI_CMD n) w key fun c => c.gdiCmd n 3 w.ini.code
/-- GDI.CMD INJECT_RDY (R375). -/
def doGdiInjectRdy (w : Writer) (key : BitVec 16) (n : Fin 16) (c : Chip) : Chip :=
  c.cmd (R.GDI_CMD n) w key fun c => c.gdiCmd n 4 w.ini.code
/-- GDI.CMD CLR_STATS (R379). -/
def doGdiClrStats (w : Writer) (key : BitVec 16) (n : Fin 16) (c : Chip) : Chip :=
  c.cmd (R.GDI_CMD n) w key fun c => c.gdiCmd n 5 w.ini.code

/-! ### Bootstrap refresh (R376) -/

/-- A period of the channel has ended: full-on, or not. -/
def Chip.gdiFull (c : Chip) (n : Nat) (full : Bool) : Chip :=
  if c.is (R.GDI_CFG n) F.GDI_CFG_REFRESH && decide (c.gdiSrc n = 0) then
    c.updGdi n fun x => { x with fullN := if full then x.fullN + 1 else 0 }
  else c

/-- At a period start: the notch, once the count has reached N and the GH request is on. -/
def Chip.gdiNotch (c : Chip) (n : Nat) : Chip :=
  if c.is (R.GDI_CFG n) F.GDI_CFG_REFRESH && decide (c.gdiSrc n = 0) && decide (c.gdiState n ≠ Gs.disabled)
      && decide (c.f (R.GDI_REFRESH n) F.GDI_REFRESH_N ≤ (c.gdi n).fullN) && (c.gdiReq n).1 then
    let c : Chip := c.incWrap (R.GDI_CNT_2 n) F.GDI_CNT_2_REFRESHES
    (c.updGdi n fun x => { x with notch := true, fullN := 0 }).gdiOut n
  else c

/-- The notch ends after W cycles and the count restarts at 0. -/
def doRefreshNotchEnd (n : Fin 16) (c : Chip) : Chip :=
  c.clocked (P.GDI n) fun c =>
    if (c.gdi n).notch then (c.updGdi n fun x => { x with notch := false, fullN := 0 }).gdiOut n else c

/-- A page soft reset puts the instance in DISABLED and empties its queue (R380); `o` is the CFG word before it. -/
def Chip.gdiReset (c : Chip) (n : Nat) (o : Word) : Chip := ((c.updGdi n fun _ => {}).gdiPol n o).gdiFollow n

/-! ### The commands -/

/-- GATE_CMD_RX (R458). -/
def execGateCmdRx (p : Packet) (s : State) : Host.Outcome State Fault Refusal :=
  .next (s.onChip (doGateCmdRx p))
/-- GATE_ENTRY_EXECUTE (R358). -/
def execGateEntryExecute (n : Fin 16) (s : State) : Host.Outcome State Fault Refusal :=
  .next (s.onChip (doGateEntryExecute n))
/-- GATE_CMD_TIMEOUT (R361). -/
def execGateCmdTimeout (n : Fin 16) (arrived : Bool) (s : State) : Host.Outcome State Fault Refusal :=
  .next (s.onChip (doGateCmdTimeout n arrived))
/-- LEGACY_PIN_CHANGE (R362). -/
def execLegacyPinChange (n : Fin 16) (pul : Bool) (pen : Bool) (s : State) : Host.Outcome State Fault Refusal :=
  .next (s.onChip (doLegacyPinChange n pul pen))
/-- DT_MIN_EXPIRY (R365). -/
def execDtMinExpiry (n : Fin 16) (high : Bool) (s : State) : Host.Outcome State Fault Refusal :=
  .next (s.onChip (doDtMinExpiry n high))
/-- GFLT_ASSERT (R366). -/
def execGfltAssert (n : Fin 16) (asserted : Bool) (s : State) : Host.Outcome State Fault Refusal :=
  .next (s.onChip (doGfltAssert n asserted))
/-- GFLT_SYNC_FAULT (R367). -/
def execGfltSyncFault (n : Fin 16) (s : State) : Host.Outcome State Fault Refusal :=
  .next (s.onChip (doGfltSyncFault n))
/-- GRDY_LOSS (R368). -/
def execGrdyLoss (n : Fin 16) (s : State) : Host.Outcome State Fault Refusal :=
  .next (s.onChip (doGrdyLoss n))
/-- GRDY_READY (R370). -/
def execGrdyReady (n : Fin 16) (s : State) : Host.Outcome State Fault Refusal :=
  .next (s.onChip (doGrdyReady n))
/-- SUP_OK_CHANGE (R507). -/
def execSupOkChange (n : Fin 16) (s : State) : Host.Outcome State Fault Refusal :=
  .next (s.onChip (doSupOkChange n))
/-- RETRY_WAIT_END (R372). -/
def execRetryWaitEnd (n : Fin 16) (s : State) : Host.Outcome State Fault Refusal :=
  .next (s.onChip (doRetryWaitEnd n))
/-- RETRY_WINDOW_END (R371). -/
def execRetryWindowEnd (n : Fin 16) (s : State) : Host.Outcome State Fault Refusal :=
  .next (s.onChip (doRetryWindowEnd n))
/-- GDI_CLEAR (R374). -/
def execGdiClear (w : Writer) (key : BitVec 16) (n : Fin 16) (s : State) : Host.Outcome State Fault Refusal :=
  .next (s.onChip (doGdiClear w key n))
/-- GDI_INJECT_FLT (R375). -/
def execGdiInjectFlt (w : Writer) (key : BitVec 16) (n : Fin 16) (s : State) : Host.Outcome State Fault Refusal :=
  .next (s.onChip (doGdiInjectFlt w key n))
/-- GDI_INJECT_SHOOT (R375). -/
def execGdiInjectShoot (w : Writer) (key : BitVec 16) (n : Fin 16) (s : State) : Host.Outcome State Fault Refusal :=
  .next (s.onChip (doGdiInjectShoot w key n))
/-- GDI_INJECT_RDY (R375). -/
def execGdiInjectRdy (w : Writer) (key : BitVec 16) (n : Fin 16) (s : State) : Host.Outcome State Fault Refusal :=
  .next (s.onChip (doGdiInjectRdy w key n))
/-- GDI_CLR_STATS (R379). -/
def execGdiClrStats (w : Writer) (key : BitVec 16) (n : Fin 16) (s : State) : Host.Outcome State Fault Refusal :=
  .next (s.onChip (doGdiClrStats w key n))
/-- REFRESH_NOTCH_END (R376). -/
def execRefreshNotchEnd (n : Fin 16) (s : State) : Host.Outcome State Fault Refusal :=
  .next (s.onChip (doRefreshNotchEnd n))

end Sys2Proof.Machine
end

