-- ==== Sys2Proof/Machine/Measure.lean ====
section
/-!
DEFINITION. The measurement front end (*Measurement Front End*): logical channels and their entries (R146 to R162),
calibration and rotation (R163 to R168), external-modulator channels (R169 to R181) and window comparators (R182 to R189).
-/
namespace Sys2Proof.Machine
open Sys2Proof

/-- A change of the measurement state. -/
def Chip.updMeas (c : Chip) (g : MeasSt → MeasSt) : Chip := { c with meas := g c.meas }

/-- A frame joins those waiting: after every frame of an earlier completion cycle, by source number within its own (R14).
`same` tells that it completed in the CK_SYS cycle of the frame completed before it. -/
def Chip.addFrame (c : Chip) (same : Bool) (src slot : Nat) (w : Word) : Chip :=
  c.updMeas fun m =>
    let cyc := if same then m.cyc else m.cyc + 1
    let before := m.frames.filter fun f => decide (f.cyc < cyc) || decide (f.src ≤ src)
    let after := m.frames.filter fun f => !(decide (f.cyc < cyc) || decide (f.src ≤ src))
    { m with cyc := cyc, frames := before ++ ⟨cyc, src, slot, w⟩ :: after }

/-! ### Logical channels -/

/-- Logical channel `n`. -/
def Chip.afe (c : Chip) (n : Nat) : AfeCh := nth c.meas.afe n {}

/-- Logical channel `n` is changed by `g`. -/
def Chip.updAfe (c : Chip) (n : Nat) (g : AfeCh → AfeCh) : Chip := c.updMeas fun m => { m with afe := upd m.afe n g }

/-- The modulator that carries channel `n`. -/
def Chip.lchMod (c : Chip) (n : Nat) : Nat := c.f (R.AFE_LCH n) F.AFE_LCH_MOD

/-- Whether channel `n` runs a duet. -/
def Chip.lchDuet (c : Chip) (n : Nat) : Bool := c.is (R.AFE_LCH n) F.AFE_LCH_DUET

/-- Whether modulator `m` is bound to a channel other than `except` (R148). -/
def Chip.modBound (c : Chip) (m : Nat) (except : Option Nat) : Bool :=
  (List.range 10).any fun n =>
    decide (some n ≠ except) && (decide (c.lchMod n = m) || (c.lchDuet n && decide (c.lchMod n ^^^ 1 = m)))

/-- AFE.STAT.SPARE lists the modulators bound to no channel and not being calibrated by a rotation (R148, R167). -/
def Chip.spares (c : Chip) : Chip :=
  c.setF R.AFE_STAT F.AFE_STAT_SPARE <|
    ((List.range 12).map fun m =>
      if c.modBound m none || (match c.meas.rot with | some r => r.calibrating && decide (r.old = m) | none => false)
      then 0 else 2 ^ m).sum

/-- The valid entries of channel `n` in ascending order (R155, R161). -/
def Chip.entriesOf (c : Chip) (n : Nat) : List Nat :=
  (List.range 64).filter fun k =>
    let lo := (c.seqEntry (n / 5) k).1
    fget lo F.SEQ_E_LO0_VALID = 1 && decide (fget lo F.SEQ_E_LO0_LCH = n % 5)
      && !c.bit (R.SEQ_BAD (2 * (n / 5) + k / 32)) (k % 32)

/-- Results to discard after a release of the decimator (R151). -/
def discardOf (lo : Word) : Nat := if fget lo F.SEQ_E_LO0_FILT = 0 then 17 else 4

/-- Whether two entries have equal INP, PGA, FILT and D1 (R156). -/
def sameInput (a b : Word) : Bool :=
  [F.SEQ_E_LO0_INP, F.SEQ_E_LO0_PGA, F.SEQ_E_LO0_FILT, F.SEQ_E_LO0_D1].all fun x => decide (fget a x = fget b x)

/-- SEQ.POS shows entry `k` of channel `n`. -/
def Chip.setPos (c : Chip) (n k : Nat) : Chip :=
  c.setF (R.SEQ_POS (n / 5)) ⟨6 * (n % 5) + 5, 6 * (n % 5)⟩ k

/-- The output period of an entry in modulator clocks (R150). -/
def outPeriod (lo : Word) : Nat := if fget lo F.SEQ_E_LO0_FILT = 0 then 2 * fget lo F.SEQ_E_LO0_D1 else fget lo F.SEQ_E_LO0_D1

/-- The next multiple of `t` after `n` (log entry 127, DEDUCED: the boundary at which a decimator is released lies after the edge at which the
move that asks for it was made). -/
def nextMul (t n : Nat) : Nat := (n / t + 1) * t

/-- The group count of group `g` now, in modulator clocks since its enabling (R157): what its edges have shown, or more where more CK_PER
edges have passed since. -/
def Chip.groupNow (c : Chip) (g : Nat) : Nat :=
  max (nth c.meas.count g 0) ((c.time.cyc - nth c.meas.since g 0) / if c.is R.AFE_CTL F.AFE_CTL_LP then 256 else 32)

/-- The group count at the end of a settling wait of `us` µs that starts at count `now` (R156): CK_AFE runs at 100 MHz, the modulators at an
eighth of it, or in low power at a sixty-fourth (R149, R152). -/
def Chip.settled (c : Chip) (now us : Nat) : Nat :=
  let d := if c.is R.AFE_CTL F.AFE_CTL_LP then 16 else 2
  now + (25 * us + d - 1) / d

/-- A rotation of channel `n` starts over on the channel's present entry at group count `now` (R167, R168): the spare is released at the next
boundary without a settling wait. -/
def Chip.rotRestart (c : Chip) (n now : Nat) : Chip :=
  match c.meas.rot with
  | some r =>
    if r.lch = n && !r.calibrating then
      let lo := (c.afe n).lo
      c.updMeas fun m => { m with
        rot := some { r with first := nextMul (outPeriod lo) now + (discardOf lo + 1) * outPeriod lo } }
    else c
  | none => c

/-- Channel `n` moves to entry `k` at group count `now` (R156): a changed input, gain, filter or decimation opens a settling wait, releases
the decimator at the next multiple of the output period after it, and discards results. -/
def Chip.moveTo (c : Chip) (n k now : Nat) : Chip :=
  let e := c.seqEntry (n / 5) k
  let x := c.afe n
  let same := x.run && sameInput x.lo e.1
  let us := fget e.2 F.SEQ_E_HI0_SETTLE_US
  let t := outPeriod e.1
  let due := nextMul t (c.settled now us) + t
  let c : Chip := (c.updAfe n fun x => { x with
    run := true, entry := k, lo := e.1, hi := e.2, kept := 0, changed := false,
    settling := if same then x.settling else decide (us ≠ 0), discard := if same then x.discard else discardOf e.1,
    due := if same then x.due else due }).setPos n k
  if same && decide (x.entry = k) then c else c.rotRestart n now

/-- Channel `n` moves on at group count `now` (R155): the next higher valid entry, else the lowest; with none it stops (R160). -/
def Chip.nextEntry (c : Chip) (n now : Nat) : Chip :=
  let l := c.entriesOf n
  match (l.filter fun k => decide ((c.afe n).entry < k)) ++ l with
  | k :: _ => c.moveTo n k now
  | [] => c.updAfe n fun x => { x with run := false }

/-- Whether channel `n` is idle: its group is enabled and no valid entry names it (R160). -/
def Chip.idle (c : Chip) (n : Nat) : Bool := c.bit R.SEQ_CTL (n / 5) && (c.entriesOf n).isEmpty

/-- Group `g` is enabled (R160): its count restarts at 0 and its channels wait for their entries. -/
def Chip.groupStart (c : Chip) (g : Nat) : Chip :=
  let cyc := c.time.cyc
  (forN 5 (fun i c => c.updAfe (5 * g + i) fun _ => {}) (c.setBit R.SEQ_CTL g true)).updMeas fun m =>
    { m with since := upd m.since g fun _ => cyc, count := upd m.count g fun _ => 0 }

/-- Group `g` stops at once (R160); a rotation of its channel before the switch is abandoned (R168). -/
def Chip.groupStop (c : Chip) (g : Nat) : Chip :=
  let c : Chip := forN 5 (fun i c => c.updAfe (5 * g + i) fun _ => {}) (c.setBit R.SEQ_CTL g false)
  match c.meas.rot with
  | some r =>
    if r.lch / 5 = g && !r.calibrating then
      (((c.updMeas fun m => { m with rot := none }).flag R.AFE_STAT F.AFE_STAT_ROT_BUSY false).flag R.AFE_STAT
        F.AFE_STAT_ROT_ABANDONED true).spares
    else c
  | none => c

/-- Entry `k` of group `g` has changed: it is checked anew (R161), and a channel executing it leaves it at its next result (R159). -/
def Chip.seqChanged (c : Chip) (g k : Nat) : Chip :=
  forN 5 (fun i c =>
    let x := c.afe (5 * g + i)
    if x.run && decide (x.entry = k) then c.updAfe (5 * g + i) fun x => { x with changed := true } else c)
    (c.setBit (R.SEQ_BAD (2 * g + k / 32)) (k % 32) false)

/-- Every entry is checked anew: the clock mode or a channel's binding has changed (R161). -/
def Chip.seqRecheck (c : Chip) : Chip := forN 4 (fun i c => c.wr (R.SEQ_BAD i) 0) c

/-- The channels follow the checks: one without an entry starts at its lowest valid one (R160), and one whose entry has become invalid leaves
it at its next result (R155). -/
def Chip.seqFollow (c : Chip) : Chip :=
  forN 10 (fun n c =>
    let x := c.afe n
    if !c.bit R.SEQ_CTL (n / 5) then c
    else if x.run then
      if c.bit (R.SEQ_BAD (2 * (n / 5) + x.entry / 32)) (x.entry % 32) then c.updAfe n fun x => { x with changed := true } else c
    else match c.entriesOf n with
      | e :: _ => c.moveTo n e (c.groupNow (n / 5))
      | [] => c) c

/-- The settling wait of channel `n` ends (R156). -/
def doSettleExpiry (n : Fin 10) (c : Chip) : Chip :=
  c.clocked P.SEQ fun c => if (c.afe n).run then c.updAfe n fun x => { x with settling := false } else c

/-- The gain register of modulator `m` at PGA code `g`. -/
def calGain (m g : Nat) : Nat := R.AFE_CAL_GAIN0 m + 4 * g

/-- The corrected code of a raw one (R163), and whether it saturated. -/
def Chip.corrected (c : Chip) (m pga : Nat) (raw : Int) : Int × Bool :=
  let ofs := sgn 24 (c.f (R.AFE_CAL_OFS m) F.AFE_CAL_OFS_OFS)
  sat24 (rhe ((raw - ofs) * (c.f (calGain m pga) F.AFE_CAL_GAIN0_GAIN : Nat)) (2 ^ 22))

/-- A duet pair is compared (R162): the fail count, and DUET_FAIL from PERSIST pairs in a row until one is within
tolerance. -/
def Chip.duet (c : Chip) (n : Nat) (a b : Int) : Chip :=
  let tol := 256 * c.f R.AFE_DUET F.AFE_DUET_TOL
  let per := max 1 (c.f R.AFE_DUET F.AFE_DUET_PERSIST)
  if (a - b).natAbs ≤ tol then c.updAfe n fun x => { x with fails := 0, duetFail := false }
  else
    let was := (c.afe n).duetFail
    let fails := (c.afe n).fails + 1
    let bad := was || decide (per ≤ fails)
    (c.updAfe n fun x => { x with fails := fails, duetFail := bad }).raiseIf (bad && !was) P.AFE 1

/-- A kept result of channel `n` (R147, R153, R162). -/
def Chip.afeKept (c : Chip) (n : Nat) (raw partner : Int) (overload same : Bool) : Chip :=
  let x := c.afe n
  let pga := fget x.lo F.SEQ_E_LO0_PGA
  let m := c.lchMod n
  let (v, s) := c.corrected m pga raw
  let sat := overload || s
  let c : Chip := if c.lchDuet n then c.duet n v (c.corrected (m ^^^ 1) pga partner).1 else c
  let fail := c.lchDuet n && (c.afe n).duetFail
  let cnt := (c.f (R.AFE_RES n) F.AFE_RES_COUNT + 1) % 64
  let c : Chip := c.wrN (R.AFE_RES n) (unsgn 24 v * 256 + b2n sat * 128 + b2n fail * 64 + cnt)
  let c : Chip := c.raiseIf sat P.AFE 2
  let d := afeDelay (c.is R.AFE_CTL F.AFE_CTL_LP) (fget x.lo F.SEQ_E_LO0_FILT) (fget x.lo F.SEQ_E_LO0_D1)
  let c : Chip := c.mtrTake (24 + n) (c.sampleAt d) ⟨v, c.fs (R.AFE_LCH n) F.AFE_LCH_EXP, sat, false⟩
  let slot := fget x.hi F.SEQ_E_HI0_SLOT
  let c : Chip :=
    if fget x.hi F.SEQ_E_HI0_SLOT_EN = 1 && c.holds (Cl.afe n) slot then
      c.addFrame same (24 + n) slot (Slot.mk v (c.fs (R.AFE_LCH n) F.AFE_LCH_EXP) sat false).word
    else c
  c.updAfe n fun x => { x with kept := x.kept + 1 }

/-- The switch of a rotation to its spare (R167, step 2): the spare's first kept result is the channel's. -/
def Chip.rotSwitch (c : Chip) (r : AfeRot) : Chip :=
  let cal := c.is R.AFE_CTL F.AFE_CTL_ROT_CAL
  let c : Chip := c.setF (R.AFE_LCH r.lch) F.AFE_LCH_MOD r.spare
  let c : Chip := c.updMeas fun m => { m with rot := if cal then some { r with calibrating := true } else none }
  let c : Chip := (c.flag R.AFE_STAT F.AFE_STAT_ROT_BUSY cal).spares
  (c.updAfe r.lch fun x => { x with settling := false, discard := 0 }).raise P.AFE 3

/-- The rotation that has yet to switch channel `n`. -/
def Chip.rotOf (c : Chip) (n : Nat) : Option AfeRot :=
  match c.meas.rot with
  | some r => if r.lch = n && !r.calibrating then some r else none
  | none => none

/-- The edge, as a group count, at which a result of channel `n` completes next (R156, R157, R167): a multiple of the channel's output period
from its release on, no earlier than an edge of the group already past, or the spare's first kept result where that comes first; none while
the channel waits for its release. -/
def Chip.afeEdge (c : Chip) (n : Nat) : Option Nat :=
  let x := c.afe n
  let past := nth c.meas.count (n / 5) 0
  let t := outPeriod x.lo
  let own := if past ≤ x.due then x.due else (past + t - 1) / t * t
  let spare := (c.rotOf n).map fun r => max r.first past
  if !x.run then none
  else if x.settling then spare
  else match spare with | some e => some (min e own) | none => some own

/-- The edge at group count `e` completes a result of channel `n`: the count and the channel's next edge follow (R157). -/
def Chip.edgeTaken (c : Chip) (n e : Nat) : Chip :=
  (c.updMeas fun m => { m with count := upd m.count (n / 5) fun _ => e, newest := some (n / 5) }).updAfe n fun x =>
    { x with due := e + outPeriod x.lo }

/-- A decimator of channel `n` completes a result with raw code `raw` (and `partner` of a duet's second modulator) (R152, R153), in the cycle
of the completion before it where `sameCycle` says so or both complete at one edge of their group (R157). Results up to the release's
discards do not count (R151); from the spare's first kept result on a rotation takes the spare's, which `raw` then is (R167). An entry that
has changed ends with the result (R159). -/
def doAfeResult (n : Fin 10) (raw partner : BitVec 24) (overload sameCycle : Bool) (c : Chip) : Chip :=
  c.clocked P.AFE fun c =>
    match c.afeEdge n with
    | none => c
    | some e =>
      let same := sameCycle || (decide (c.meas.newest = some (n / 5)) && decide (nth c.meas.count (n / 5) 0 = e))
      let c : Chip := match c.rotOf n with
        | some r => if r.first ≤ e then c.rotSwitch r else c
        | none => c
      let c : Chip := c.edgeTaken n e
      let x := c.afe n
      if 0 < x.discard then
        let c : Chip := c.updAfe n fun x => { x with discard := x.discard - 1 }
        if x.changed then c.nextEntry n e else c
      else
        let c : Chip := c.afeKept n raw.toInt partner.toInt overload same
        let x := c.afe n
        let rep := fget x.hi F.SEQ_E_HI0_REPEAT
        if x.changed || (decide (rep ≠ 0) && decide (rep ≤ x.kept)) then c.nextEntry n e else c

/-! ### Calibration and rotation -/

/-- The half that holds modulator `m`. -/
def modHalf (m : Nat) : Nat := m / 6

/-- AFE.CMD CAL_g (R164). -/
def Chip.afeCal (c : Chip) (h i : Nat) : Chip :=
  let carries := (List.range 10).any fun n =>
    c.bit R.SEQ_CTL (n / 5) && (decide (modHalf (c.lchMod n) = h) || (c.lchDuet n && decide (modHalf (c.lchMod n ^^^ 1) = h)))
  if c.bit R.SEQ_CTL h || c.is R.AFE_CTL F.AFE_CTL_LP || c.meas.rot.isSome || carries then c.refuse R.AFE_CMD i
  else
    (c.updMeas fun m => { m with cal := upd m.cal h fun _ => (List.range 6).map (6 * h + ·) }).setBit R.AFE_STAT (29 + h) true

/-- AFE.CMD CAL_0 or CAL_1 (R164). -/
def doAfeCal (w : Writer) (key : BitVec 16) (half : Fin 2) (c : Chip) : Chip :=
  c.cmd R.AFE_CMD w key fun c => c.afeCal half w.ini.code

/-- The factors of modulator `m` are stored and valid (R164). -/
def Chip.calStore (c : Chip) (m : Nat) (ofs : Nat) (gains : List Nat) : Chip :=
  let c : Chip := c.setF (R.AFE_CAL_OFS m) F.AFE_CAL_OFS_OFS ofs
  let c : Chip := (List.range 5).foldl (fun c g => c.setF (calGain m g) F.AFE_CAL_GAIN0_GAIN (gains.getD g 0)) c
  c.setBit R.AFE_STAT (16 + m) true

/-- The calibration of modulator `m` ends with the measured factors (R164, R167 step 3). -/
def doModCalDone (m : Fin 12) (ofs g0 g1 g2 g3 g4 : BitVec 24) (c : Chip) : Chip :=
  c.clocked P.AFE fun c =>
    let gains := [g0.toNat, g1.toNat, g2.toNat, g3.toNat, g4.toNat]
    let h := modHalf m
    match c.meas.rot with
    | some r =>
      if r.calibrating && decide (r.old = m.val) then
        let c : Chip := (c.calStore m ofs.toNat gains).updMeas fun x => { x with rot := none }
        ((c.flag R.AFE_STAT F.AFE_STAT_ROT_BUSY false).spares).raise P.AFE 0
      else c
    | none =>
      match nth c.meas.cal h [] with
      | k :: rest =>
        if k = m.val then
          let c : Chip := (c.calStore m ofs.toNat gains).updMeas fun x => { x with cal := upd x.cal h fun _ => rest }
          if rest = [] then (c.setBit R.AFE_STAT (29 + h) false).raise P.AFE 0 else c
        else c
      | [] => c

/-- AFE.CMD ROTATE (R166, R167 step 1). -/
def Chip.afeRotate (c : Chip) (lch spare i : Nat) : Chip :=
  if decide (lch < 10) && c.bit R.AFE_STAT spare && decide (spare < 12) && c.bit R.AFE_STAT (16 + spare)
      && c.meas.rot.isNone && c.meas.cal.all List.isEmpty && !c.lchDuet lch && c.bit R.SEQ_CTL (lch / 5) then
    ((c.updMeas fun m => { m with rot := some ⟨lch, c.lchMod lch, spare, 0, false⟩ }).rotRestart lch (c.groupNow (lch / 5))).flag
      R.AFE_STAT F.AFE_STAT_ROT_BUSY true
  else c.refuse R.AFE_CMD i

/-- AFE.CMD ROTATE (R166). -/
def doAfeRotate (w : Writer) (key : BitVec 16) (lch spare : BitVec 4) (c : Chip) : Chip :=
  c.cmd R.AFE_CMD w key fun c => c.afeRotate lch.toNat spare.toNat w.ini.code

/-- Whether a write of `v` to AFE.LCH_n is allowed (R148). -/
def Chip.lchOk (c : Chip) (n : Nat) (v : Word) : Bool :=
  let m := fget v F.AFE_LCH_MOD
  let duet := fget v F.AFE_LCH_DUET = 1
  let rotating := fun k => match c.meas.rot with | some r => decide (r.old = k) || decide (r.spare = k) | none => false
  decide (m < 12) && !c.modBound m (some n)
    && !(duet && (c.modBound (m ^^^ 1) (some n) || rotating (m ^^^ 1)))
    && !(decide (m ≠ c.lchMod n) && c.bit R.SEQ_CTL (n / 5))

/-- Whether a change of AFE.CTL.LP is allowed (R149). -/
def Chip.lpOk (c : Chip) : Bool :=
  !c.bit R.SEQ_CTL 0 && !c.bit R.SEQ_CTL 1 && c.meas.rot.isNone && c.meas.cal.all List.isEmpty

/-! ### External-modulator channels -/

/-- Channel `ch` (0 to 23). -/
def Chip.xmd (c : Chip) (ch : Nat) : XmdCh := nth c.meas.xmd ch {}

/-- Channel `ch` is changed by `g`. -/
def Chip.updXmd (c : Chip) (ch : Nat) (g : XmdCh → XmdCh) : Chip := c.updMeas fun m => { m with xmd := upd m.xmd ch g }

/-- The mode of channel `ch`. -/
def Chip.xmdMode (c : Chip) (ch : Nat) : Nat := c.f (R.XMD_CH_IN (ch / 12) (ch % 12)) F.XMD_CH_IN_MODE

/-- The status register of channel `ch`. -/
def xmdStat (ch : Nat) : Nat := R.XMD_CH_STAT (ch / 12) (ch % 12)

/-- The frequency of modulator clock `n` in MHz, by word `cfg` of XMD.CLK_CFG (R169). -/
def xmcMHz (cfg : Word) (n : Nat) : Nat :=
  match cfg.toNat / 2 ^ (4 * n) % 4 with | 0 => 20 | 1 => 25 | 2 => 40 | _ => 50

/-- What XMC_0n shows: its frequency in MHz, or low while disabled (R169). -/
def Chip.xmc (c : Chip) (n : Nat) : Option Nat :=
  let cfg := c.rd (R.XMD_CLK_CFG 0)
  if nbit cfg.toNat (4 * n + 3) then some (xmcMHz cfg n) else none

/-- The smallest `b` with 2^b ≥ n. -/
def clog2 (n : Nat) : Nat := ((List.range 33).find? fun b => decide (n ≤ 2 ^ b)).getD 33

/-- The input word of channel `ch`. -/
def Chip.xmdIn (c : Chip) (ch : Nat) : Word := c.rd (R.XMD_CH_IN (ch / 12) (ch % 12))

/-- The bit rate of channel `ch` in Mb/s: that of the selected clock of page 0, which serves both pages, or the nominal Manchester rate (R170,
R171, R192). -/
def Chip.xmdRate (c : Chip) (ch : Nat) : Nat :=
  let inp := c.xmdIn ch
  if fget inp F.XMD_CH_IN_MODE = 2 then fget inp F.XMD_CH_IN_MAN_MBPS
  else xmcMHz (c.rd (R.XMD_CLK_CFG 0)) (fget inp F.XMD_CH_IN_XMC)

/-- Whether channel `ch` takes bits: in clocked mode from an enabled clock, or in Manchester mode. -/
def Chip.xmdLive (c : Chip) (ch : Nat) : Bool :=
  match c.xmdMode ch with
  | 1 => (c.xmc (fget (c.xmdIn ch) F.XMD_CH_IN_XMC)).isSome
  | 2 => true
  | _ => false

/-- Whether the Manchester decoder works at a rate that it is made for (R171); at another its bits are open (log entry 128, DESIGN CHOICE). -/
def Chip.manOk (c : Chip) (ch : Nat) : Bool :=
  decide (c.xmdMode ch ≠ 2) || (decide (10 ≤ c.xmdRate ch) && decide (c.xmdRate ch ≤ 40))

/-- Clocked mode at a CK_PER edge where the pin is at `v` (R170): with `p` CK_PER cycles to a clock period, a bit is sampled `off` cycles after
each rising clock edge. -/
def XmdTap.clocked (x : XmdTap) (p off : Nat) (v : Bool) : XmdTap × Option Bool :=
  ({ x with ph := (x.ph + 1) % p, level := v }, if x.ph % p = off % p then some v else none)

/-- Manchester mode at a CK_PER edge where the pin is at `v`, at `m` Mb/s (R171): a transition at least three quarters of a bit period after
the last one at mid-bit is at mid-bit itself, 1 where it rises; one before that lies between two bits (log entry 128, DESIGN CHOICE). -/
def XmdTap.manchester (x : XmdTap) (m : Nat) (v : Bool) : XmdTap × Option Bool :=
  if x.level != v && decide (300 ≤ m * (x.ph + 1)) then ({ x with ph := 0, level := v }, some v)
  else ({ x with ph := x.ph + 1, level := v }, none)

/-- One CK_PER edge of a filter's input on channel `ch`: the bit decoded there, if any, counts as +1 or −1, reversed by INV (R172). -/
def Chip.xmdEdge (c : Chip) (ch : Nat) (x : XmdTap) (v : Bool) : XmdTap × Option Bool :=
  let inp := c.xmdIn ch
  let p := 400 / c.xmdRate ch
  let (x, b) :=
    if fget inp F.XMD_CH_IN_MODE = 1 then
      x.clocked p ((if fget inp F.XMD_CH_IN_EDGE = 1 then p / 2 else 0) + fget inp F.XMD_CH_IN_DLY) v
    else x.manchester (c.xmdRate ch) v
  match b with
  | some b =>
    let b := b != decide (fget inp F.XMD_CH_IN_INV = 1)
    ({ x with bits := (b :: x.bits).take 768 }, some b)
  | none => (x, none)

/-- What the control filter has taken after the pin levels `wave`, and the bits among them. -/
def Chip.xmdTake (c : Chip) (ch : Nat) (tap : XmdTap) (wave : List Bool) : XmdTap × Nat :=
  wave.foldl (fun a v => let r := c.xmdEdge ch a.1 v; (r.1, a.2 + b2n r.2.isSome)) (tap, 0)

/-- The weight of the bit `j` bits before the newest in a sinc filter of order `k` (1 to 3) and length `n`: in how many ways `k` numbers
below `n` add up to `j`. -/
def sincWeight (k n j : Nat) : Nat :=
  match k with
  | 1 => if j < n then 1 else 0
  | 2 => if j < n then j + 1 else 2 * n - 1 - j
  | _ =>
    if j < n then (j + 1) * (j + 2) / 2
    else if j < 2 * n then (j + 1) * (j + 2) / 2 - 3 * ((j - n + 1) * (j - n + 2) / 2)
    else (3 * n - 1 - j) * (3 * n - 2 - j) / 2

/-- The sum of a sinc filter of order `k` and length `n` over counted bits, newest first (R173, R177). -/
def sincSum (k n : Nat) (bits : List Bool) : Int :=
  ((bits.take (k * (n - 1) + 1)).zipIdx.map fun e =>
    if e.1 then (sincWeight k n e.2 : Int) else -(sincWeight k n e.2 : Int)).sum

/-- A control filter completes an output; `wave` are the levels of XMD_nn at the CK_PER edges since the output before (R173, R174, R176). The
result is open while the window reaches back before the channel's first bit (log entry 128, DESIGN CHOICE). -/
def doXmdControlOutput (ch : Fin 24) (wave : List Bool) (sameCycle : Bool) (c : Chip) : Chip :=
  c.clocked (P.XMD (ch / 12)) fun c =>
    if !c.xmdLive ch then c
    else
      let cf := c.rd (R.XMD_CH_CF (ch / 12) (ch % 12))
      let osr := fget cf F.XMD_CH_CF_OSR
      let x := c.xmd ch
      let (tap, n) := c.xmdTake ch x.ctl wave
      let whole := c.manOk ch && decide (3 * osr ≤ tap.bits.length + 2)
      let (w, c) := if whole then (0, c) else c.freeW
      let acc := if whole then sincSum 3 osr tap.bits else w.toInt
      let (v, s) := sat24 (scaleRhe acc (23 - 3 * (clog2 osr : Int)))
      let good := x.good.map fun g => g + (n - x.before)
      let reach := match good with | some g => decide (g + 2 < 3 * osr) | none => false
      let stale := x.los || decide (0 < x.staleOut) || reach
      let m := if stale then sgn 24 x.last else v
      let sat := if stale then x.lastSat else s
      let edge := c.time.cyc - 1
      let c : Chip := c.updXmd ch fun x => { x with
        ctl := tap, phase := some (edge, 0), good := if reach then good else none, before := 0, staleOut := x.staleOut - 1,
        last := if stale then x.last else unsgn 24 v, lastSat := if stale then x.lastSat else s }
      let r := R.XMD_CH_RES (ch / 12) (ch % 12)
      let cnt := (c.f r F.XMD_CH_RES_COUNT + 1) % 64
      let c : Chip := c.wrN r (unsgn 24 m * 256 + b2n sat * 128 + b2n stale * 64 + cnt)
      let exp := sgn 6 (fget cf F.XMD_CH_CF_EXP)
      let c : Chip := c.mtrTake ch (c.sampleAt (xmdDelay osr (c.xmdRate ch))) ⟨m, exp, sat, stale⟩
      let c : Chip := c.updMeas fun m => { m with newest := none }
      let slot := fget cf F.XMD_CH_CF_SLOT
      if fget cf F.XMD_CH_CF_SLOT_EN = 1 && c.holds (Cl.xmd ch) slot then
        c.addFrame sameCycle ch slot (Slot.mk m exp sat stale).word
      else c

/-- The bits of channel `ch` that reach the Sheepdog demand the safe state: DEMAND_XMD follows, and an assertion meets
SAFE_INPUT (R178, R499). -/
def Chip.xmdDemand (c : Chip) (ch : Nat) : Chip :=
  let x := c.xmd ch
  let on := c.is (R.XMD_CH_PF (ch / 12) (ch % 12)) F.XMD_CH_PF_SHD && (x.hi || x.lo || x.los)
  let was := c.bit R.SHD_DEMAND_XMD ch
  let c : Chip := c.setBit R.SHD_DEMAND_XMD ch on
  if on && !was then c.cause 0x03 4 ch else c

/-- The protection filter of channel `ch` evaluates after a bit (R177): HI and LO assert after PERSIST bits beyond their limit and deassert at
the first bit within it. While LOS holds both stay deasserted (R180), and until k × OSR_P bits have come since the channel's first, or since
LOS cleared, nothing is evaluated (R181; log entry 141, DEDUCED). -/
def Chip.protEval (c : Chip) (ch : Nat) : Chip :=
  let x := c.xmd ch
  let pf := c.rd (R.XMD_CH_PF (ch / 12) (ch % 12))
  let n := fget pf F.XMD_CH_PF_OSR
  let k := fget pf F.XMD_CH_PF_ORDER + 1
  if x.los || decide (x.prot.bits.length < k * n) then c
  else
    let known := c.manOk ch && decide (4 ≤ n) && decide (n ≤ 32)
    let (w, c) := if known then (0, c) else c.freeW
    let q := if known then clampI (-32768) 32767 (rhe (sincSum k n x.prot.bits * 2 ^ 15) (n ^ k)) else sgn 16 w.toNat
    let lim := R.XMD_CH_LIM (ch / 12) (ch % 12)
    let hiN := if c.fs lim F.XMD_CH_LIM_LIM_HI < q then x.hiN + 1 else 0
    let loN := if q < c.fs lim F.XMD_CH_LIM_LIM_LO then x.loN + 1 else 0
    let hi := decide (fget pf F.XMD_CH_PF_PERSIST < hiN)
    let lo := decide (fget pf F.XMD_CH_PF_PERSIST < loN)
    let c : Chip := c.updXmd ch fun x => { x with hiN := hiN, loN := loN, hi := hi, lo := lo }
    let c : Chip := if hi && !x.hi then (c.flag (xmdStat ch) F.XMD_CH_STAT_HI_SEEN true).raise (P.XMD (ch / 12)) 1 else c
    let c : Chip := if lo && !x.lo then (c.flag (xmdStat ch) F.XMD_CH_STAT_LO_SEEN true).raise (P.XMD (ch / 12)) 2 else c
    c.xmdDemand ch

/-- The protection filter takes the levels `wave` of XMD_nn at the CK_PER edges since it was last given any: HI and LO follow bit by bit
(R177). -/
def doProtectionFilterChange (ch : Fin 24) (wave : List Bool) (c : Chip) : Chip :=
  c.bypass fun c =>
    if !c.xmdLive ch then c
    else wave.foldl (fun c v =>
      let r := c.xmdEdge ch (c.xmd ch).prot v
      let c : Chip := c.updXmd ch fun x => { x with prot := r.1 }
      if r.2.isSome then c.protEval ch else c) c

/-- Loss of signal on channel `ch` (R180). In Manchester mode the decoder loses its lock (log entry 16, DEDUCED). -/
def doXmdLos (ch : Fin 24) (c : Chip) : Chip :=
  c.bypass fun c =>
    if c.xmdMode ch = 0 || (c.xmd ch).los then c
    else
      let c : Chip := c.updXmd ch fun x => { x with los := true, hi := false, lo := false, hiN := 0, loN := 0 }
      let c : Chip := (c.flag (xmdStat ch) F.XMD_CH_STAT_LOS true).flag (xmdStat ch) F.XMD_CH_STAT_LOS_SEEN true
      let c : Chip := if c.xmdMode ch = 2 then c.flag (xmdStat ch) F.XMD_CH_STAT_MAN_LOCK false else c
      (c.raise (P.XMD (ch / 12)) 0).xmdDemand ch

/-- 3 × OSR_C good bits clear LOS, `before` bits after the last control-filter output: outputs stay STALE up to the first computed wholly from
bits after that, and HI and LO are evaluated again after k × OSR_P further bits (R181). -/
def doXmdLosClear (ch : Fin 24) (before : BitVec 9) (c : Chip) : Chip :=
  c.bypass fun c =>
    if (c.xmd ch).los then
      ((c.updXmd ch fun x => { x with
        los := false, good := some 0, before := before.toNat, prot := { x.prot with bits := [] } }).flag (xmdStat ch)
        F.XMD_CH_STAT_LOS false).xmdDemand ch
    else c

/-- The Manchester decoder locks after 16 valid bits (R171). -/
def doManchesterLock (ch : Fin 24) (c : Chip) : Chip :=
  c.clocked (P.XMD (ch / 12)) fun c => if c.xmdMode ch = 2 then c.flag (xmdStat ch) F.XMD_CH_STAT_MAN_LOCK true else c

/-- Channel `ch` re-phases at a period event of its timebase: the next three outputs are STALE (R175). -/
def Chip.xmdResync (c : Chip) (ch : Nat) : Chip :=
  ((c.updXmd ch fun x => { x with staleOut := 3 }).flag (xmdStat ch) F.XMD_CH_STAT_RESYNC_SEEN true).raise (P.XMD (ch / 12)) 3

/-- The check of channel `ch` at a period event (R175): the first bit-sampling edge at or after the event plus SDLY must end an output window,
and where it does not the filter is re-phased so that it does. Bits follow the last sampling edge known at the channel's rate, in Manchester
mode the nominal one (log entry 141, DEDUCED). -/
def Chip.xmdCheck (c : Chip) (ch : Nat) : Chip :=
  let t := c.time.cyc + c.f (R.XMD_CH_SDLY (ch / 12) (ch % 12)) F.XMD_CH_SDLY_SDLY
  let osr := max 1 (c.f (R.XMD_CH_CF (ch / 12) (ch % 12)) F.XMD_CH_CF_OSR)
  match (c.xmd ch).phase with
  | none => (c.updXmd ch fun x => { x with phase := some (t, 0) }).xmdResync ch
  | some (e, k) =>
    let i := ((t - e) * c.xmdRate ch + 399) / 400
    if i % osr = k % osr then c else (c.updXmd ch fun x => { x with phase := some (e, i % osr) }).xmdResync ch

/-- A period event of timebase `n`: the check of each running channel that follows it (R175). -/
def Chip.xmdPeriod (c : Chip) (n : Nat) : Chip :=
  forN 24 (fun ch c =>
    let cf := c.rd (R.XMD_CH_CF (ch / 12) (ch % 12))
    if c.xmdLive ch && decide (fget cf F.XMD_CH_CF_SYNC_EN = 1) && decide (fget cf F.XMD_CH_CF_TB = n)
        && !c.halted (P.XMD (ch / 12)) then c.xmdCheck ch
    else c) c

/-- Whether an input word and a control-filter word of an XMD channel are allowed with clock word `cfg` of page 0 (R170, R173):
clocked mode not on 50 MHz, OSR_C within 8 to 256 and at most 2.5 MS/s. -/
def xmdOk (cfg inp cf : Word) : Bool :=
  let mode := fget inp F.XMD_CH_IN_MODE
  let clk := xmcMHz cfg (fget inp F.XMD_CH_IN_XMC)
  let rate := if mode = 2 then fget inp F.XMD_CH_IN_MAN_MBPS else clk
  let osr := fget cf F.XMD_CH_CF_OSR
  mode = 0 || (!(mode = 1 && clk = 50) && 8 ≤ osr && osr ≤ 256 && 2 * rate ≤ 5 * osr)

/-! ### Window comparators -/

/-- The region of comparator `n` at an input of `uv` µV (R182). -/
def Chip.acmpRegion (c : Chip) (n uv : Nat) : Region :=
  let hi := c.f (R.ACMP_CH_TH n) F.ACMP_CH_TH_TH_HI * 1250000
  let lo := c.f (R.ACMP_CH_TH n) F.ACMP_CH_TH_TH_LO * 1250000
  let h := c.f (R.ACMP_CH_CFG n) F.ACMP_CH_CFG_HYST * 5000 * 1024
  let v := uv * 1024
  let free := if hi < v then .above else if v < lo then .below else .inside
  match (c.acmp n).region with
  | .above => if v + h < hi then free else .above
  | .below => if lo + h < v then free else .below
  | .inside => free

/-- Whether a comparator in region `r` is tripped (R183). -/
def Chip.acmpTripped (c : Chip) (n : Nat) (r : Region) : Bool :=
  match r with
  | .above => c.is (R.ACMP_CH_CFG n) F.ACMP_CH_CFG_TRIP_HI_EN
  | .below => c.is (R.ACMP_CH_CFG n) F.ACMP_CH_CFG_TRIP_LO_EN
  | .inside => false

/-- The outputs of comparator `n` follow its state unless a blanking window (`blank`) or a self-test holds them; its demand on the
Sheepdog meets SAFE_INPUT (R184 to R186, R189, R499). A sampled comparator drives neither (R187). -/
def Chip.acmpShow (c : Chip) (n : Nat) (blank : Bool) : Chip :=
  let x := c.acmp n
  let mode := c.f (R.ACMP_CH_CFG n) F.ACMP_CH_CFG_MODE
  let t := decide (mode = 1 ∨ mode = 2) && c.acmpTripped n x.region
  let toTrip := if x.testing then true else if blank then x.toTrip else t
  let toShd := if x.testing || blank then x.toShd else t
  let c : Chip := c.updAcmp n fun x => { x with toTrip := toTrip, toShd := toShd }
  let on := toShd && c.is (R.ACMP_CH_CFG n) F.ACMP_CH_CFG_SHD
  let was := c.bit R.SHD_DEMAND_AG n
  let c : Chip := c.setBit R.SHD_DEMAND_AG n on
  if on && !was then c.cause 0x03 5 n else c

/-- The outputs of comparator `n` follow its state, unless they are held. -/
def Chip.acmpOutputs (c : Chip) (n : Nat) : Chip := c.acmpShow n (c.acmp n).blank

/-- Comparator `n` takes region `r` (R182, R183): its live bits, and TRIP where it becomes tripped. -/
def Chip.acmpTake (c : Chip) (n : Nat) (r : Region) : Chip :=
  let was := c.is (R.ACMP_CH_STAT n) F.ACMP_CH_STAT_TRIPPED
  let t := c.acmpTripped n r
  let c : Chip := c.updAcmp n fun x => { x with region := r }
  let c : Chip := c.flag (R.ACMP_CH_STAT n) F.ACMP_CH_STAT_TRIPPED t
  let c : Chip := (c.flag (R.ACMP_CH_STAT n) F.ACMP_CH_STAT_ABOVE (decide (r = .above))).flag (R.ACMP_CH_STAT n)
    F.ACMP_CH_STAT_BELOW (decide (r = .below))
  if t && !was then (c.flag (R.ACMP_CH_STAT n) F.ACMP_CH_STAT_TRIP_SEEN true).raise P.ACMP 0 else c

/-- A running comparator sees `uv` µV on its input (R182); in the cycle in which a blanking window starts (`starting`) the change is
taken (R186). -/
def doAcmpChange (n : Fin 16) (uv : BitVec 24) (starting : Bool) (c : Chip) : Chip :=
  c.bypass fun c =>
    let mode := c.f (R.ACMP_CH_CFG n) F.ACMP_CH_CFG_MODE
    if mode = 1 ∨ mode = 2 then (c.acmpTake n (c.acmpRegion n uv.toNat)).acmpShow n ((c.acmp n).blank && !starting) else c

/-- The blanking window of comparator `n` is over. -/
def Chip.acmpUnblank (c : Chip) (n : Nat) : Chip :=
  (c.updAcmp n fun x => { x with blank := false }).flag (R.ACMP_CH_STAT n) F.ACMP_CH_STAT_IN_BLANK false

/-- Comparator `n` leaves OFF, or its supply returns (R183, R188). -/
def Chip.acmpStart (c : Chip) (n : Nat) : Chip :=
  let cfg := R.ACMP_CH_CFG n
  let r : Region :=
    if c.is cfg F.ACMP_CH_CFG_PU_STATE then
      if c.is cfg F.ACMP_CH_CFG_TRIP_HI_EN then .above else if c.is cfg F.ACMP_CH_CFG_TRIP_LO_EN then .below else .inside
    else .inside
  ((c.acmpUnblank n).acmpTake n r).acmpOutputs n

/-- Comparator `n` is switched off. -/
def Chip.acmpOff (c : Chip) (n : Nat) : Chip := ((c.acmpUnblank n).acmpTake n .inside).acmpOutputs n

/-- Whether a mode code keeps a comparator off: OFF or a reserved code (log entry 129, DESIGN CHOICE). -/
def acmpIdle (mode : Nat) : Bool := decide (mode = 0) || decide (3 < mode)

/-- A write to ACMP.CH_n_CFG, where the mode was `old` (R183): a comparator that leaves OFF starts; one that goes on is tripped by the new
enables. -/
def Chip.acmpMode (c : Chip) (n old : Nat) : Chip :=
  if acmpIdle (c.f (R.ACMP_CH_CFG n) F.ACMP_CH_CFG_MODE) then c.acmpOff n
  else if acmpIdle old then c.acmpStart n
  else (c.acmpTake n (c.acmp n).region).acmpOutputs n

/-- The FAST and NORMAL comparators restart when the main domain has power again (R188). -/
def Chip.acmpPower (c : Chip) : Chip :=
  forN 16 (fun n c =>
    let mode := c.f (R.ACMP_CH_CFG n) F.ACMP_CH_CFG_MODE
    if mode = 1 ∨ mode = 2 then c.acmpStart n else c) c

/-- No comparator is under test any more (R189): a reset has ended the tests. -/
def Chip.acmpUntest (c : Chip) : Chip :=
  forN 16 (fun n c => (c.updAcmp n fun x => { x with testing := false }).acmpOutputs n) (c.updMeas fun m => { m with tests := [] })

/-- The first marked comparator left is under test (R189). -/
def Chip.acmpNextTest (c : Chip) : Chip :=
  match c.meas.tests with
  | n :: _ => (c.updAcmp n fun x => { x with testing := true }).acmpOutputs n
  | [] => c

/-- ACMP.CMD SELFTEST (R189): accepted in BOOT, READY, SAFE and REPLAY. -/
def Chip.acmpSelftest (c : Chip) (mask i : Nat) : Chip :=
  if c.running then c.refuse R.ACMP_CMD i
  else
    let l := (List.range 16).filter fun n => nbit mask n
    if c.meas.tests = [] then ((c.updMeas fun m => { m with tests := l }).acmpNextTest).lapLevels
    else c.updMeas fun m => { m with tests := m.tests ++ l }

/-- ACMP.CMD SELFTEST (R189). -/
def doAcmpSelftest (w : Writer) (key : BitVec 16) (mask : BitVec 16) (c : Chip) : Chip :=
  c.cmd R.ACMP_CMD w key fun c => c.acmpSelftest mask.toNat w.ini.code

/-- One comparator's test ends (R189). -/
def doAcmpSelftestStep (pass : Bool) (c : Chip) : Chip :=
  c.clockedLap P.ACMP fun c =>
    match c.meas.tests with
    | [] => c
    | n :: rest =>
      let c : Chip := (c.updMeas fun m => { m with tests := rest }).updAcmp n fun x => { x with testing := false }
      let c : Chip := (c.flag (R.ACMP_CH_STAT n) F.ACMP_CH_STAT_ST_PASS pass).flag (R.ACMP_CH_STAT n)
        F.ACMP_CH_STAT_ST_FAIL (!pass)
      let c : Chip := (c.raiseIf (!pass) P.ACMP 2).acmpOutputs n
      if rest = [] then c.raise P.ACMP 1 else c.acmpNextTest

/-- A sampled comparator compares once at the end of its power-up (R187), at a calendar second that its period divides.
Answers the chip and whether a wake is requested. -/
def Chip.acmpSample (c : Chip) (n uv : Nat) : Chip × Bool :=
  let per := max 1 (c.f R.ACMP_SAMPLE_CFG F.ACMP_SAMPLE_CFG_PERIOD)
  if c.f (R.ACMP_CH_CFG n) F.ACMP_CH_CFG_MODE = 3 ∧ c.time.calSec % per = 0 then
    let was := c.is (R.ACMP_CH_STAT n) F.ACMP_CH_STAT_TRIPPED
    let c : Chip := c.acmpTake n (c.acmpRegion n uv)
    if was != c.is (R.ACMP_CH_STAT n) F.ACMP_CH_STAT_TRIPPED then
      ((c.flag (R.ACMP_CH_STAT n) F.ACMP_CH_STAT_SAMPLED_CHG true).raise P.ACMP 3,
        nbit (c.f R.ACMP_SAMPLE_CFG F.ACMP_SAMPLE_CFG_WAKE) n)
    else (c, false)
  else (c, false)

/-! ### The commands -/

/-- SETTLE_EXPIRY (R156). -/
def execSettleExpiry (n : Fin 10) (s : State) : Host.Outcome State Fault Refusal :=
  .next (s.onChip (doSettleExpiry n))
/-- AFE_RESULT (R153). -/
def execAfeResult (n : Fin 10) (raw : BitVec 24) (partner : BitVec 24) (overload : Bool) (sameCycle : Bool)
    (s : State) : Host.Outcome State Fault Refusal :=
  .next (s.onChip (doAfeResult n raw partner overload sameCycle))
/-- AFE_CAL (R164). -/
def execAfeCal (w : Writer) (key : BitVec 16) (half : Fin 2) (s : State) : Host.Outcome State Fault Refusal :=
  .next (s.onChip (doAfeCal w key half))
/-- MOD_CAL_DONE (R164). -/
def execModCalDone (m : Fin 12) (ofs : BitVec 24) (g0 : BitVec 24) (g1 : BitVec 24) (g2 : BitVec 24) (g3 : BitVec 24) (g4 : BitVec 24)
    (s : State) : Host.Outcome State Fault Refusal :=
  .next (s.onChip (doModCalDone m ofs g0 g1 g2 g3 g4))
/-- AFE_ROTATE (R166). -/
def execAfeRotate (w : Writer) (key : BitVec 16) (lch : BitVec 4) (spare : BitVec 4)
    (s : State) : Host.Outcome State Fault Refusal :=
  .next (s.onChip (doAfeRotate w key lch spare))
/-- XMD_CONTROL_OUTPUT (R174). -/
def execXmdControlOutput (ch : Fin 24) (wave : List Bool) (sameCycle : Bool)
    (s : State) : Host.Outcome State Fault Refusal :=
  .next (s.onChip (doXmdControlOutput ch wave sameCycle))
/-- PROTECTION_FILTER_CHANGE (R177). -/
def execProtectionFilterChange (ch : Fin 24) (wave : List Bool) (s : State) : Host.Outcome State Fault Refusal :=
  .next (s.onChip (doProtectionFilterChange ch wave))
/-- XMD_LOS (R180). -/
def execXmdLos (ch : Fin 24) (s : State) : Host.Outcome State Fault Refusal :=
  .next (s.onChip (doXmdLos ch))
/-- XMD_LOS_CLEAR (R181). -/
def execXmdLosClear (ch : Fin 24) (before : BitVec 9) (s : State) : Host.Outcome State Fault Refusal :=
  .next (s.onChip (doXmdLosClear ch before))
/-- MANCHESTER_LOCK (R171). -/
def execManchesterLock (ch : Fin 24) (s : State) : Host.Outcome State Fault Refusal :=
  .next (s.onChip (doManchesterLock ch))
/-- ACMP_CHANGE (R182). -/
def execAcmpChange (n : Fin 16) (uv : BitVec 24) (starting : Bool) (s : State) : Host.Outcome State Fault Refusal :=
  .next (s.onChip (doAcmpChange n uv starting))
/-- ACMP_SELFTEST (R189). -/
def execAcmpSelftest (w : Writer) (key : BitVec 16) (mask : BitVec 16)
    (s : State) : Host.Outcome State Fault Refusal :=
  .next (s.onChip (doAcmpSelftest w key mask))
/-- ACMP_SELFTEST_STEP (R189). -/
def execAcmpSelftestStep (pass : Bool) (s : State) : Host.Outcome State Fault Refusal :=
  .next (s.onChip (doAcmpSelftestStep pass))

end Sys2Proof.Machine
end

