-- ==== Sys2Proof/Machine/Stride.lean ====
section
/-!
DEFINITION. The Stride engine and the Pacer (*Stride Engine and Pacer*): triggers, dispatch, issue and result of sections,
duplicated evaluation, budgets, the graph check codes, and the Pacer profile. Output ports write PWM registers in
Pwm.lean, and the completion of an evaluation, on which the grid-function units act, is in Grid.lean.
-/
namespace Sys2Proof.Machine
open Sys2Proof

/-- Rate group `g`. -/
def Chip.grp (c : Chip) (g : Nat) : StrGrp := nth c.str.grp g {}

/-- Rate group `g` is changed by `h`. -/
def Chip.updGrp (c : Chip) (g : Nat) (h : StrGrp → StrGrp) : Chip :=
  c.updStr fun s => { s with grp := upd s.grp g h }

/-- STR.STAT.BUSY and PEND show the groups. -/
def Chip.strStat (c : Chip) (g : Nat) : Chip :=
  (c.setBit R.STR_STAT g (c.grp g).busy).setBit R.STR_STAT (16 + g) (c.grp g).pend

/-! ### Triggers (R215, R216, R220) -/

/-- A trigger of group `g` completes (R215, R220); the slots `miss` are trigger slots without a new frame (R216). Its divider counts anew, and
frames count anew from the dispatch that follows (R215). In BOOT the engine is off (R20). -/
def Chip.triggerMiss (c : Chip) (g : Nat) (miss : List Nat) : Chip :=
  let x := c.grp g
  if !x.en || decide (c.mode = .boot) then c
  else
    let c : Chip := c.updGrp g fun x => { x with div := 0 }
    if !x.busy then
      (c.updGrp g fun x => { x with
        busy := true, disp := false, win := false, got := [], trigHt := c.htNs, missing := miss }).strStat g
    else if !x.pend then
      (((c.updGrp g fun x => { x with pend := true, pendHt := c.htNs, missNext := miss }).strStat g).incSat (R.STR_RG_OVR g)
        F.STR_RG_OVR_OVERRUN).raise P.STR 0
    else c.incSat (R.STR_RG_OVR g) F.STR_RG_OVR_DROP

/-- A trigger of group `g` completes with no frame missing. -/
def Chip.trigger (c : Chip) (g : Nat) : Chip := c.triggerMiss g []

/-- The enabled trigger slots of a group (SLOT_A to SLOT_D). -/
def StrGrp.trigSlots (x : StrGrp) : List Nat :=
  (if nbit x.tsl0.toNat 15 then [fget x.tsl0 F.STR_RG_TSL0_SLOT_A] else []) ++
  (if nbit x.tsl0.toNat 31 then [fget x.tsl0 F.STR_RG_TSL0_SLOT_B] else []) ++
  (if nbit x.tsl1.toNat 15 then [fget x.tsl1 F.STR_RG_TSL1_SLOT_C] else []) ++
  (if nbit x.tsl1.toNat 31 then [fget x.tsl1 F.STR_RG_TSL1_SLOT_D] else [])

/-- The trigger mode in force. -/
def StrGrp.mode (x : StrGrp) : Nat := fget x.cfg F.STR_RG_CFG_MODE

/-- A frame into slot `k` counts for every enabled FRAMES group that names it, and the first opens the window (R216). -/
def Chip.frameTrig (c : Chip) (k : Nat) : Chip :=
  forN 8 (fun g c =>
    let x := c.grp g
    if x.en && decide (x.mode = 1) && x.trigSlots.contains k && !x.got.contains k then
      c.updGrp g fun x => { x with got := x.got ++ [k], win := x.win || (x.got.isEmpty && decide (fget x.per F.STR_RG_PER_WIN ≠ 0)) }
    else c) c

/-- An event occurrence reaches group `g` (R64, R215). -/
def Chip.eventTrig (c : Chip) (g : Nat) : Chip :=
  if (c.grp g).en && decide ((c.grp g).mode = 2) then c.updGrp g fun x => { x with due := x.due + 1 } else c

/-- The divider of a group (R215, R243). -/
def StrGrp.divN (x : StrGrp) : Nat := if fget x.cfg F.STR_RG_CFG_DIV = 0 then 256 else fget x.cfg F.STR_RG_CFG_DIV

/-- A sample-bus frame reaches its slot, the Lap log tap and the trigger logic (R13, R215). -/
def doSampleFrameDelivery (c : Chip) : Chip :=
  c.via fun c =>
    match c.meas.frames with
    | [] => c
    | f :: r =>
      let c : Chip := { c with meas := { c.meas with frames := r } }
      ((c.putSlot f.slot f.word none).lapFrame f.src f.word).frameTrig f.slot

/-- STR.SWTRIG completes a trigger of each named group (R215). -/
def doStrSwtrig (w : Writer) (trig : BitVec 8) (c : Chip) : Chip :=
  c.put R.STR_SWTRIG w fun c => forN 8 (fun g c => if nbit trig.toNat g then c.trigger g else c) c

/-- The trigger of group `g` completes where its frames, an event or its divider's count have arrived (R215). -/
def doRgTrigger (g : Fin 8) (c : Chip) : Chip :=
  c.clocked P.STR fun c =>
    let x := c.grp g
    match x.mode with
    | 1 =>
      if x.trigSlots ≠ [] && x.trigSlots.all x.got.contains then
        (c.updGrp g fun x => { x with got := [], win := false }).trigger g
      else c
    | 2 => if 0 < x.due then (c.updGrp g fun x => { x with due := x.due - 1 }).trigger g else c
    | 3 => if x.divN ≤ x.div then c.trigger g else c
    | _ => c

/-- A FRAMES window ends incomplete: the trigger completes with TRIG_WIN, and the slots without a frame read STALE in that
evaluation (R216). -/
def doTrigWindowEnd (g : Fin 8) (c : Chip) : Chip :=
  c.clocked P.STR fun c =>
    let x := c.grp g
    if x.en && x.win && decide (x.mode = 1) && !x.trigSlots.all x.got.contains then
      let miss := x.trigSlots.filter fun k => !x.got.contains k
      ((c.updGrp g fun x => { x with got := [], win := false }).triggerMiss g miss).raise P.STR 7
    else c

/-! ### Enabling, and writes that wait for a dispatch (R221, R222) -/

/-- The group's words in force follow the registers. -/
def Chip.grpTake (c : Chip) (g : Nat) : Chip :=
  c.updGrp g fun x => { x with cfg := c.rd (R.STR_RG_CFG g), tsl0 := c.rd (R.STR_RG_TSL0 g),
                               tsl1 := c.rd (R.STR_RG_TSL1 g), per := c.rd (R.STR_RG_PER g) }

/-- State writes waiting for group `g` take effect (R222): those to sections of the group. In duplicated evaluation both
copies take them (R232). -/
def Chip.applyDefer (c : Chip) (g : Nat) : Chip :=
  let mine := c.str.defer.filter fun d => fget (c.sec ((d.1 - Key.sec 0 0) / 0x80) 0) F.STRW_SEC_CFG_RG = g
  let c : Chip := mine.foldl (fun c d => (c.wr d.1 d.2).wr (d.1 + 0x100000) d.2) c
  c.updStr fun s => { s with defer := s.defer.filter fun d => !mine.contains d }

/-- A state word of section `n` is written (R222): at once where the section's group is disabled and idle, else at its next
dispatch. -/
def Chip.writeState (c : Chip) (n o : Nat) (v : Word) : Chip :=
  let g := fget (c.sec n 0) F.STRW_SEC_CFG_RG
  if (c.grp g).en || (c.grp g).busy then c.updStr fun s => { s with defer := s.defer ++ [(Key.sec n o, v)] }
  else (c.wr (Key.sec n o) v).wr (Key.sec2 n o) v

/-! ### Pacer (R235 to R242) -/

/-- The value of a limit word in slot units as a mantissa and exponent. -/
def limVal (w : Word) : Int × Int := (sgn 24 (w.toNat / 256), sgn 6 w.toNat)

/-- `m × 2^k / d` rounded half to even. -/
def scaleDivRhe (m k : Int) (d : Nat) : Int :=
  if 0 ≤ k then rhe (m * 2 ^ k.toNat) d else rhe m (d * 2 ^ (-k).toNat)

/-- The exponent of channel `k`'s output word. -/
def Chip.pcrExp (c : Chip) (k : Nat) : Int := c.fs (R.PCR_CH_CFG k) F.PCR_CH_CFG_EXP

/-- A limit in the channel's units: the word's value times DT^n (R236), rounded half to even, within 1 to 2^62. -/
def Chip.pcrLim (c : Chip) (k : Nat) (r n : Nat) : Int :=
  let (m, e) := limVal (c.rd r)
  clampI 1 (2 ^ 62) (scaleDivRhe (m * (c.rdN (R.PCR_CH_DT k)) ^ n) (e + 24 - c.pcrExp k) (10 ^ (9 * n)))

/-- A target word in the channel's units (R236). -/
def Chip.pcrTgt (c : Chip) (k : Nat) (w : Word) : Int :=
  let (m, e) := limVal w
  clampI (-(2 ^ 63 - 1)) (2 ^ 63 - 1) (scaleRhe m (e + 24 - c.pcrExp k))

/-- The word that holds channel `k`'s present target: CHc_TGT, or the target slot at the snapshot of its group's last dispatch (R238), as after
reset before there was one. -/
def Chip.pcrTgtWord (c : Chip) (k : Nat) : Word :=
  if c.is (R.PCR_CH_CFG k) F.PCR_CH_CFG_TGT_SRC then
    SMap.get regReset (c.grp (c.f (R.PCR_CH_CFG k) F.PCR_CH_CFG_RG)).slots (Key.slot (c.f (R.PCR_CH_CFG k) F.PCR_CH_CFG_TSLOT))
  else c.rd (R.PCR_CH_TGT k)

/-- The limits of one tick and what the channel is doing. -/
structure PcrIn where
  tgt : Int
  etgt : Int
  vt : Int
  at' : Int
  jt : Int
  et : Int
  holding : Bool
  emrg : Bool
  deriving DecidableEq, Repr

/-- One tick (R237). -/
def PcrIn.tick (i : PcrIn) (s : PcrCh) : PcrCh × Bool :=
  if i.emrg then
    let d := sat64 (i.etgt - s.p)
    if d.natAbs ≤ i.et then ({ s with p := i.etgt, v := 0, a := 0 }, false)
    else
      let v := d.sign * i.et
      ({ s with p := sat64 (s.p + v), v := v, a := 0 }, false)
  else
    let e := sat64 (i.tgt - s.p)
    let vd := if i.holding then 0 else e.sign * min i.vt (isqrt (2 * i.at'.toNat * e.natAbs))
    let dv := sat64 (vd - s.v)
    let ad := dv.sign * min i.at' (isqrt (2 * i.jt.toNat * dv.natAbs))
    let a := sat64 (s.a + clampI (-i.jt) i.jt (ad - s.a))
    let v := clampI (-i.vt) i.vt (sat64 (s.v + a))
    let p := sat64 (s.p + v)
    let crossed := (s.p ≤ i.tgt && i.tgt ≤ p) || (p ≤ i.tgt && i.tgt ≤ s.p)
    let n : PcrCh := if !i.holding && crossed && decide (v.natAbs ≤ 2 * i.at') then { s with p := i.tgt, v := 0, a := 0 }
      else { s with p := p, v := v, a := a }
    (n, decide (n.p = i.tgt) && decide (n.v = 0) && decide (n.a = 0))

/-- What channel `k` ticks with. -/
def Chip.pcrIn (c : Chip) (k : Nat) : PcrIn where
  tgt := c.pcrTgt k (c.pcrTgtWord k)
  etgt := c.pcrTgt k (c.rd (R.PCR_CH_ETGT k))
  vt := c.pcrLim k (R.PCR_CH_VLIM k) 1
  at' := c.pcrLim k (R.PCR_CH_ALIM k) 2
  jt := c.pcrLim k (R.PCR_CH_JLIM k) 3
  et := c.pcrLim k (R.PCR_CH_ERATE k) 1
  holding := c.bit R.PCR_STAT (16 + k)
  emrg := c.bit R.PCR_ESTAT k

/-- Channel `k`'s state becomes `x`, shown in CHc_P. -/
def Chip.setPcr (c : Chip) (k : Nat) (x : PcrCh) : Chip :=
  (c.updStr fun s => { s with pcr := upd s.pcr k fun _ => x }).wr64 (R.PCR_CH_P_LO k) (unsgn 64 x.p)

/-- The output word of position `p` (R235). -/
def Chip.pcrWord (c : Chip) (k : Nat) (p : Int) (stale : Bool) : Word :=
  let (m, s) := sat24 (rhe p (2 ^ 24))
  (Slot.mk m (c.pcrExp k) s stale).word

/-- The tick of channel `k` at a dispatch of its group, with its slot words (R235). -/
def Chip.pcrTick (c : Chip) (k : Nat) : Chip :=
  let i := c.pcrIn k
  let (x, at') := i.tick (nth c.str.pcr k {})
  let stale := c.is (R.PCR_CH_CFG k) F.PCR_CH_CFG_TGT_SRC && (Slot.of (c.pcrTgtWord k)).stale
  let w := c.pcrWord k x.p stale
  let vw := { (Acc.mk x.v (c.pcrExp k - 47)).yn with stale := stale }.word
  let was := c.bit R.PCR_STAT k
  let c : Chip := c.setPcr k x
  let c : Chip := (c.wr (R.PCR_CH_POS k) w).wr (R.PCR_CH_VEL k) vw
  let c : Chip := c.putSlot (c.f (R.PCR_CH_SLOTS k) F.PCR_CH_SLOTS_OSLOT) w none
  let c : Chip :=
    if c.is (R.PCR_CH_CFG k) F.PCR_CH_CFG_VOUT_EN then c.putSlot (c.f (R.PCR_CH_SLOTS k) F.PCR_CH_SLOTS_VSLOT) vw none
    else c
  let c : Chip := c.setBit R.PCR_STAT k at'
  c.raiseIf (at' && !was) P.PCR 0

/-- A Pacer command acts (R239 to R241): 1 HOLD, 2 RELEASE, 3 EMERGENCY, 4 CLEAR_EMERGENCY, 5 PRESET. -/
def Chip.pcrOp (c : Chip) (k op : Nat) : Chip :=
  let emrg := c.bit R.PCR_ESTAT k
  let x := nth c.str.pcr k {}
  match op with
  | 1 => if emrg then c else c.setBit R.PCR_STAT (16 + k) true
  | 2 => if emrg then c else c.setBit R.PCR_STAT (16 + k) false
  | 3 => if emrg then c else (c.setBit R.PCR_ESTAT k true).raise P.PCR 1
  | 4 =>
    if emrg && decide (x.p = c.pcrTgt k (c.rd (R.PCR_CH_ETGT k))) then
      (c.setBit R.PCR_ESTAT k false).setPcr k { x with v := 0, a := 0 }
    else c
  | _ => c.setPcr k { x with p := c.pcrTgt k (c.pcrTgtWord k), v := 0, a := 0 }

/-- The group that ticks channel `k`. -/
def Chip.pcrRg (c : Chip) (k : Nat) : Nat := c.f (R.PCR_CH_CFG k) F.PCR_CH_CFG_RG

/-- A Pacer command is accepted: it acts at the next dispatch of the channel's group, or at once while that group is
disabled and idle (R222). -/
def Chip.pcrCmd (c : Chip) (k op : Nat) : Chip :=
  let x := c.grp (c.pcrRg k)
  if x.en || x.busy then c.updStr fun s => { s with pcrCmds := s.pcrCmds ++ [(k, op)] } else c.pcrOp k op

/-- PRESET is accepted while the channel or its group is disabled, or in READY, SAFE and REPLAY (R241). -/
def Chip.presetOk (c : Chip) (k : Nat) : Bool :=
  !c.bit R.PCR_CTL k || !(c.grp (c.pcrRg k)).en || (match c.mode with | .ready | .safe | .replay => true | _ => false)

/-- PCR.CMD with operation `op` (R246); a code outside 1 to 5 is refused. -/
def Chip.pcrWrite (c : Chip) (k op i : Nat) : Chip :=
  if op = 0 ∨ 5 < op then c.refuse R.PCR_CMD i
  else if op = 5 ∧ !c.presetOk k then c.refuse R.PCR_CMD i
  else c.pcrCmd k op

/-- PCR.CMD HOLD (R239). -/
def doPacerHold (w : Writer) (key : BitVec 16) (ch : Fin 16) (c : Chip) : Chip :=
  c.cmd R.PCR_CMD w key fun c => c.pcrWrite ch 1 w.ini.code
/-- PCR.CMD RELEASE (R239). -/
def doPacerRelease (w : Writer) (key : BitVec 16) (ch : Fin 16) (c : Chip) : Chip :=
  c.cmd R.PCR_CMD w key fun c => c.pcrWrite ch 2 w.ini.code
/-- PCR.CMD EMERGENCY (R240). -/
def doPacerEmergency (w : Writer) (key : BitVec 16) (ch : Fin 16) (c : Chip) : Chip :=
  c.cmd R.PCR_CMD w key fun c => c.pcrWrite ch 3 w.ini.code
/-- PCR.CMD CLEAR_EMERGENCY (R240). -/
def doPacerClearEmergency (w : Writer) (key : BitVec 16) (ch : Fin 16) (c : Chip) : Chip :=
  c.cmd R.PCR_CMD w key fun c => c.pcrWrite ch 4 w.ini.code
/-- PCR.CMD PRESET (R241). -/
def doPacerPreset (w : Writer) (key : BitVec 16) (ch : Fin 16) (c : Chip) : Chip :=
  c.cmd R.PCR_CMD w key fun c => c.pcrWrite ch 5 w.ini.code

/-! ### Dispatch (R217, R222, R224, R225) -/

/-- The angle word of phase generator `n` at herd time `t` (R225): bits 55:32 of F × (t − T0), exponent −1. -/
def Chip.hphWord (c : Chip) (n t : Nat) : Word :=
  let z : Int := (c.rdN (R.STR_HPH_F n) : Int) * ((t : Int) - (c.rd64 (R.STR_HPH_T0_LO n) : Nat))
  (Slot.mk (sgn 24 ((z / 2 ^ 32) % 2 ^ 24).toNat) (-1) false false).word

/-- The phase generators of group `g` write their slots (R225). -/
def Chip.hphTick (c : Chip) (g : Nat) : Chip :=
  forN 4 (fun n c =>
    let w := c.rd (R.STR_HPH_CFG n)
    if fget w F.STR_HPH_CFG_EN = 1 && decide (fget w F.STR_HPH_CFG_RG = g) then
      let k := fget w F.STR_HPH_CFG_SLOT
      if c.holds (Cl.hph n) k then c.putSlot k (c.hphWord n (c.grp g).trigHt) none
      else (c.setBit (R.STR_OBAD 1) (16 + n) true).strBlock (0x240 + n) 1
    else c) c

/-- Registers with keys from `a` on and below `b`. -/
def Chip.regsIn (c : Chip) (a b : Nat) : SMap Word := c.regs.filter fun e => decide (a ≤ e.1) && decide (e.1 < b)

/-- Duplicated evaluation as STR.CTL.DUP stands takes effect at a dispatch of group 0; turning it on copies the states
(R232). -/
def Chip.dupTake (c : Chip) : Chip :=
  let want := c.is R.STR_CTL F.STR_CTL_DUP
  let c' : Chip :=
    if want && !c.is R.STR_STAT F.STR_STAT_DUP_ACTIVE then
      c.secList.foldl (fun c n => [0x60, 0x64, 0x68].foldl (fun c o => c.wr (Key.sec2 n o) (c.sec n o)) c) c
    else c
  c'.flag R.STR_STAT F.STR_STAT_DUP_ACTIVE want

/-- The waiting Pacer commands of group `g`'s channels act (R222). -/
def Chip.applyPcr (c : Chip) (g : Nat) : Chip :=
  let mine := c.str.pcrCmds.filter fun x => c.pcrRg x.1 = g
  let c : Chip := c.updStr fun s => { s with pcrCmds := s.pcrCmds.filter fun x => !mine.contains x }
  mine.foldl (fun c x => c.pcrOp x.1 x.2) c

/-- Group `g` is disabled and idle: what waits for its dispatch takes effect (R222). -/
def Chip.idleTake (c : Chip) (g : Nat) : Chip :=
  let c : Chip := ((c.grpTake g).applyDefer g).applyPcr g
  if g = 0 then c.dupTake else c

/-- STR.CTL.RG_EN as written takes effect (R221): a cleared group discards its pending trigger and its window; a set one is armed, with its
words as they stand unless an evaluation is still running (R222). A group in a reserved mode is not enabled (R215). -/
def Chip.rgEnable (c : Chip) : Chip :=
  forN 8 (fun g c =>
    let want := c.bit R.STR_CTL g
    let x := c.grp g
    let c : Chip :=
      if want && !x.en && decide (c.f (R.STR_RG_CFG g) F.STR_RG_CFG_MODE < 4) then
        let c : Chip := if x.busy then c else c.idleTake g
        (c.updGrp g fun x => { x with en := true, got := [], due := 0, div := 0, win := false }).strStat g
      else if !want && x.en then
        (c.updGrp g fun x => { x with en := false, pend := false, win := false, got := [], due := 0 }).strStat g
      else c
    if (c.grp g).en || (c.grp g).busy then c else c.idleTake g) c

/-- The enabled, unblocked sections of group `g` as they stand at its dispatch, in ascending order. -/
def Chip.readySecs (c : Chip) (g : Nat) : List Nat :=
  c.secList.filter fun n =>
    fget (c.sec n 0) F.STRW_SEC_CFG_EN = 1 && decide (fget (c.sec n 0) F.STRW_SEC_CFG_RG = g) && decide (c.secType n ≠ 0)
      && !c.bit (R.STR_BAD (n / 32)) (n % 32)

/-- Dispatch of group `g` after its trigger completed: waiting writes and commands take effect, phase generators and then
Pacer channels write, the snapshot is taken (R217), at which the Pacer's target slots are read (R238). -/
def Chip.dispatch (c : Chip) (g : Nat) : Chip :=
  let oldBank := fget (c.grp g).cfg F.STR_RG_CFG_BANK
  let c : Chip := (c.idleTake g).raiseIf (fget (c.rd (R.STR_RG_CFG g)) F.STR_RG_CFG_BANK ≠ oldBank) P.STR 5
  let c : Chip := c.hphTick g
  let c : Chip := forN 16 (fun k c =>
    if c.bit R.PCR_CTL k && decide (c.pcrRg k = g) && !c.bit R.PCR_ESTAT (16 + k) then c.pcrTick k else c) c
  c.updGrp g fun x =>
    { x with disp := true, secs := c.regsIn (Key.sec 0 0) (Key.sec 512 0), slots := c.regsIn (Key.slot 0) (Key.slot 1024),
             list := c.readySecs g, next := 0, fly := [], wrote := [],
             dup := decide (g = 0) && c.is R.STR_STAT F.STR_STAT_DUP_ACTIVE }

/-- The target slots that the Pacer channels of group `g` read (R238). -/
def Chip.pcrReads (c : Chip) (g : Nat) : List Nat :=
  ((List.range 16).filter fun k => c.bit R.PCR_CTL k && c.is (R.PCR_CH_CFG k) F.PCR_CH_CFG_TGT_SRC && decide (c.pcrRg k = g)).map
    fun k => c.f (R.PCR_CH_CFG k) F.PCR_CH_CFG_TSLOT

/-- Dispatch of a group whose trigger completed (R217); an uncorrectable error in a slot that a Pacer channel reads stands in the snapshot
(R213). -/
def doRgDispatch (g : Fin 8) (ecc : EccError) (c : Chip) : Chip :=
  c.clocked P.STR fun c =>
    if (c.grp g).busy && !(c.grp g).disp then
      let c : Chip := c.dispatch g
      let (c, lost) := c.eccSlots (c.pcrReads g) ecc
      match lost with
      | some k => c.updGrp g fun x => { x with slots := x.slots.put regReset (Key.slot k) (regReset (Key.slot k)) }
      | none => c
    else c

/-! ### Sections (R218, R219, R226, R230, R231) -/

/-- Word `o` of section `n` as sampled for the evaluation under way. -/
def StrGrp.sec (x : StrGrp) (n o : Nat) : Word := SMap.get regReset x.secs (Key.sec n o)


/-- The slots that section `n` writes, as sampled. -/
def StrGrp.outSlots (x : StrGrp) (n : Nat) : List Nat := secSlots (x.sec n 0) (x.sec n 0xC)

/-- What section `n` reads on slot `k` (R219): the new value where a section of this evaluation has written it, else the
snapshot, with STALE for a trigger slot whose frame is missing (R216). -/
def Chip.readSlot (c : Chip) (g k : Nat) : Word :=
  let x := c.grp g
  if x.wrote.any fun m => (x.outSlots m).contains k then c.slot k
  else
    let w := SMap.get regReset x.slots (Key.slot k)
    if x.missing.contains k then w ||| 0x40#32 else w

/-- Section `n` of group `g` as this evaluation uses it, with states `s1`, `s2`, `se`. -/
def Chip.secIn (c : Chip) (g n : Nat) (s1 s2 se : Word) : SecIn :=
  let x := c.grp g
  let cfg := x.sec n 0
  let b := if fget x.cfg F.STR_RG_CFG_BANK = 1 then 0x40 else 0x20
  let tp := x.sec n 0x10
  { type := fget cfg F.STRW_SEC_CFG_TYPE, opt := fget cfg F.STRW_SEC_CFG_OPT,
    norm := fget cfg F.STRW_SEC_CFG_OUT_NORM = 1, oexp := sgn 6 (fget cfg F.STRW_SEC_CFG_OUT_EXP),
    smin := sgn 6 (fget cfg F.STRW_SEC_CFG_SMIN),
    c := (List.range 5).map fun i => sgn 24 ((x.sec n (b + 4 * i)).toNat / 256), ce := sgn 6 (x.sec n (b + 0x14)).toNat,
    s1 := sgn 24 (s1.toNat / 256), s2 := sgn 24 (s2.toNat / 256), se := sgn 6 se.toNat,
    base := fget tp F.STRW_SEC_TPARAM_BASE, len := 2 ^ fget tp F.STRW_SEC_TPARAM_LOG2LEN,
    texp := sgn 6 (fget tp F.STRW_SEC_TPARAM_TEXP),
    x := (List.range 4).map fun i =>
      match secInput (x.sec n 4) (x.sec n 8) i with
      | some k => Slot.of (c.readSlot g k)
      | none => .zero,
    tab := fun i => sgn 24 ((c.rd (Key.table i)).toNat / 256) }

/-- The words of an evaluation: outputs with their slots, and states. `lost` says that a table entry it read carries STALE (R213). -/
def secWords (s : SecIn) (lost : Bool) (cfg out : Word) : List (Nat × Word) × List Word × Bool :=
  let r := s.eval
  let stale := lost || (usedInputs s.type s.opt).any fun i => (s.xi i).stale
  let y := fun (z : Slot) => { z with stale := stale }.word
  ((secSlots cfg out).zip [y r.y0, y r.y1],
    [wd (unsgn 24 r.s1 * 256), wd (unsgn 24 r.s2 * 256), wd (unsgn 6 r.se)], r.y0.sat || (hasOut1 s.type && r.y1.sat))

/-- Whether the section reads the word in which ECC finds error `e`; its input `i` is on slot `k` where `on i = some k`. -/
def SecIn.reads (s : SecIn) (on : Nat → Option Nat) (e : EccError) : Bool :=
  match e with
  | .none => false
  | .corrected | .record => true
  | .table k => decide (s.type = 8) && (decide (k.val = s.base + s.tblAt.2.toNat) || decide (k.val = s.base + s.tblAt.2.toNat + 1))
  | .slot k => (usedInputs s.type s.opt).any fun i => decide (on i = some k.val)

/-- The section reads zero in place of the word that error `e` lost, a slot with STALE (R213). -/
def SecIn.lose (s : SecIn) (on : Nat → Option Nat) (e : EccError) : SecIn :=
  match e with
  | .table k => { s with tab := fun i => if i = k.val then 0 else s.tab i }
  | .slot k => { s with x := s.x.mapIdx fun i z => if on i = some k.val then { Slot.zero with stale := true } else z }
  | _ => s

/-- Section `n` may issue (R214, R218): its group is dispatched, no higher group is, every lower-numbered section has
issued, and those that write its inputs have written. -/
def Chip.mayIssue (c : Chip) (g n : Nat) : Bool :=
  let x := c.grp g
  x.disp && (List.range g).all (fun h => !(c.grp h).disp) && x.list.contains n
    && (x.list.filter fun m => decide (x.next ≤ m) && decide (m < n)).isEmpty && decide (x.next ≤ n)
    && (List.range 4).all fun i =>
      match secInput (x.sec n 4) (x.sec n 8) i with
      | some k => x.fly.all fun r => !(decide (r.sec < n) && (x.outSlots r.sec).contains k)
      | none => true

/-- A section issues: its inputs are read and its evaluation, twice where duplicated, is under way (R218, R230). What ECC finds in the
words it reads acts on this evaluation; an uncorrectable error in its record blocks the section (R212, R213; log entry 119, DEDUCED). -/
def doSectionIssue (n : Fin 512) (ecc : EccError) (c : Chip) : Chip :=
  c.clocked P.STR fun c =>
    let g := (List.range 8).find? fun g => c.mayIssue g n
    match g with
    | none => c
    | some g =>
      let x := c.grp g
      let on := fun i => secInput (x.sec n 4) (x.sec n 8) i
      let st := fun (key : Nat → Nat → Nat) => (c.rd (key n 0x60), c.rd (key n 0x64), c.rd (key n 0x68))
      let si := fun (q : Word × Word × Word) => c.secIn g n q.1 q.2.1 q.2.2
      let e := if (si (st Key.sec)).reads on ecc then ecc else .none
      if e = .record then
        let c : Chip := (c.eccCount e).updStr fun s => { s with ecc := n.val :: s.ecc.filter fun m => decide (m ≠ n.val) }
        (c.updGrp g fun x => { x with list := x.list.filter fun m => decide (m ≠ n.val) }).claims
      else
        let lost := match e with | .table _ => true | _ => false
        let run := fun (q : Word × Word × Word) => secWords ((si q).lose on e) lost (x.sec n 0) (x.sec n 0xC)
        let r := run (st Key.sec)
        let r2 := if x.dup then run (st Key.sec2) else r
        let keys := fun (key : Nat → Nat → Nat) (ws : List Word) => [key n 0x60, key n 0x64, key n 0x68].zip ws
        (c.eccCount e).updGrp g fun x => { x with next := n + 1, fly := x.fly ++
          [⟨n, r.1, keys Key.sec r.2.1, if x.dup then keys Key.sec2 r2.2.1 else [],
            (r.1.zip r2.1).map fun q => decide (q.1 = q.2), r.2.2⟩] }

/-- A section writes its result slots and states (R226); in duplicated evaluation a word only where the copies match, else
DUP_MISMATCH and the safe state (R230, R231). `fault` marks the words in which a fault of a lane makes the copies differ. A slot whose
claim the section no longer holds is not written (log entry 20, DEDUCED). -/
def doSectionResult (n : Fin 512) (fault : BitVec 2) (c : Chip) : Chip :=
  c.clocked P.STR fun c =>
    match (List.range 8).find? fun g => (c.grp g).fly.any fun r => decide (r.sec = n.val) with
    | none => c
    | some g =>
      match (c.grp g).fly.find? fun r => decide (r.sec = n.val) with
      | none => c
      | some r =>
        let dup := (c.grp g).dup
        let eval := c.rdN (R.STR_RG_CNT g) % 65536
        let c : Chip := c.updGrp g fun x =>
          { x with fly := x.fly.filter fun q => decide (q.sec ≠ n.val), wrote := x.wrote ++ [n.val] }
        let c : Chip := c.setF (Key.sec n 0x6C) F.STRW_SEC_SSTAT_EVALS (c.f (Key.sec n 0x6C) F.STRW_SEC_SSTAT_EVALS + 1)
        let c : Chip := (r.st ++ r.st2).foldl (fun c x => c.wr x.1 x.2) c
        let ok := (List.range r.outs.length).map fun i => !dup || (nth r.same i true && !nbit fault.toNat i)
        let c : Chip := if r.sat then c.flag (Key.sec n 0x6C) F.STRW_SEC_SSTAT_SAT_SEEN true else c
        let c : Chip := (r.outs.zip ok).foldl (fun c x =>
          if x.2 && c.holds (Cl.sec n) x.1.1 then c.putSlot x.1.1 x.1.2 (some (g, eval)) else c) c
        if ok.all id then c else (c.raise P.STR 3).cause 0x12 9 0

/-! ### Completion (R217, R220) -/

/-- Whether group `g`'s evaluation has nothing left to issue, to write or to pass through a port. -/
def Chip.evalOver (c : Chip) (g : Nat) : Bool :=
  let x := c.grp g
  x.disp && x.fly.isEmpty && (x.list.filter fun n => decide (x.next ≤ n)).isEmpty
    && c.str.ports.all fun p => decide (p.grp ≠ some g)

/-- Group `g` completes an evaluation (R217, R220, R215): counts, latency, RG_DONE, the dividers that count it, and the
pending trigger. -/
def Chip.rgDone (c : Chip) (g : Nat) (cycles : Nat) : Chip :=
  let c : Chip := c.countWrap (R.STR_RG_CNT g)
  let c : Chip := c.setF (R.STR_RG_LAT g) F.STR_RG_LAT_LAST cycles
  let c : Chip := c.setF (R.STR_RG_LAT g) F.STR_RG_LAT_MAX (max (c.f (R.STR_RG_LAT g) F.STR_RG_LAT_MAX) cycles)
  let c : Chip := c.updGrp g fun x => { x with busy := false, disp := false, missing := x.missNext, missNext := [], secs := [], list := [] }
  let c : Chip := c.raiseIf (nbit (c.f R.STR_CTL F.STR_CTL_DONE_MASK) g) P.STR 6
  let c : Chip := forN 8 (fun h c =>
    if (c.grp h).en && decide ((c.grp h).mode = 3) && decide (fget (c.grp h).cfg F.STR_RG_CFG_SRC_RG = g) then
      c.updGrp h fun x => { x with div := x.div + 1 }
    else c) c
  let c : Chip :=
    if (c.grp g).pend then
      c.updGrp g fun x => { x with pend := false, busy := true, trigHt := x.pendHt, got := [], win := false }
    else c
  let c : Chip := if (c.grp g).en || (c.grp g).busy then c else c.idleTake g
  c.strStat g

/-! ### Statistics, budgets, check codes -/

/-- CLR_STATS clears RGn_OVR and RGn_LAT.MAX of every group (R243). -/
def Chip.strClrStats (c : Chip) : Chip :=
  forN 8 (fun g c => (c.wrN (R.STR_RG_OVR g) 0).setF (R.STR_RG_LAT g) F.STR_RG_LAT_MAX 0) c

/-- STR.CMD CLR_STATS (R243). -/
def doStrClrStats (w : Writer) (key : BitVec 16) (c : Chip) : Chip := c.cmd R.STR_CMD w key Chip.strClrStats

/-- Completion times of the sections of a list, each with its output slots (R233): a section's latency, plus 2 where
duplicated, after the latest of those that write its inputs. -/
def Chip.cpList (c : Chip) (extra : Nat) (l : List Nat) : List (List Nat × Nat) :=
  l.foldl (fun done n =>
    let type := c.secType n
    let ins := (usedInputs type (fget (c.sec n 0) F.STRW_SEC_CFG_OPT)).filterMap (secInput (c.sec n 4) (c.sec n 8))
    let before := (done.filter fun d => d.1.any ins.contains).map (·.2)
    done ++ [(secSlots (c.sec n 0) (c.sec n 0xC), secLatency type + extra + before.foldl max 0)]) []

/-- The group budgets are recomputed (R233): COST and CP of each group, and OVER_BUDGET, with BUDGET raised when it is newly
set while a group runs. -/
def Chip.budget (c : Chip) : Chip :=
  let dup := c.is R.STR_CTL F.STR_CTL_DUP
  let secs := c.readySecs
  let cost := fun (g : Nat) => ((secs g).map fun n => laneCycles (c.secType n) (fget (c.sec n 0) F.STRW_SEC_CFG_OPT)).sum
  let cp := fun (g : Nat) => ((c.cpList (if dup && decide (g = 0) then 2 else 0) (secs g)).map (·.2)).foldl max 0
  let per := fun (g : Nat) => max 400 (c.f (R.STR_RG_PER g) F.STR_RG_PER_PERIOD)
  let np := ((List.range 16).filter fun k => c.bit R.PCR_CTL k && decide (c.pcrRg k = 0)).length
  let k := if dup then 2 else 4
  let b0 := 60 + 2 * (np - 4) + (cost 0 + k - 1) / k + cp 0
  let load : Nat × Nat := (List.range 8).foldl (fun q g =>
    if c.bit R.STR_CTL g then
      (q.1 * per g + ((if dup && decide (g = 0) then 2 * cost g else cost g) + 8) * q.2, q.2 * per g)
    else q) (0, 1)
  let bad := decide (per 0 < b0) || decide (36 * load.2 < 10 * load.1)
  let was := c.is R.STR_STAT F.STR_STAT_OVER_BUDGET
  let c : Chip := forN 8 (fun g c =>
    (c.setF (R.STR_RG_BUDGET g) F.STR_RG_BUDGET_COST (min (cost g) 0xFFFF)).setF (R.STR_RG_BUDGET g) F.STR_RG_BUDGET_CP
      (min (cp g) 0xFFFF)) c
  let c : Chip := c.flag R.STR_STAT F.STR_STAT_OVER_BUDGET bad
  c.raiseIf (bad && !was && decide (c.f R.STR_CTL F.STR_CTL_RG_EN ≠ 0)) P.STR 2

/-- BUDGET_RECOMPUTE (R233). -/
def doBudgetRecompute (c : Chip) : Chip := c.clocked P.STR Chip.budget

/-- The record words that STR.GCRC covers (R243). -/
def gcrcOffs : List Nat :=
  [0x00, 0x04, 0x08, 0x0C, 0x10, 0x20, 0x24, 0x28, 0x2C, 0x30, 0x34, 0x40, 0x44, 0x48, 0x4C, 0x50, 0x54]

/-- GCRC over the section records and TCRC over the table words (R243). -/
def Chip.graphCrc (c : Chip) : Chip :=
  let g := crc32 ((List.range 512).flatMap fun n => gcrcOffs.map fun o => (c.sec n o).toNat)
  let t := crc32 ((List.range 4096).map fun i => c.rdN (Key.table i))
  let c : Chip := (c.wrN R.STR_GCRC g).wrN R.STR_TCRC t
  (c.flag R.STR_STAT F.STR_STAT_GCRC_BUSY false).flag R.STR_STAT F.STR_STAT_TCRC_BUSY false

/-- GRAPH_CRC_RECOMPUTE (R243). -/
def doGraphCrcRecompute (c : Chip) : Chip := c.clocked P.STR Chip.graphCrc

/-! ### The slot window (R199) -/

/-- A write to slot `k` through the window: stored where firmware owns the slot, else ignored and recorded (R199). -/
def Chip.slotWindow (c : Chip) (k : Nat) (v : Word) (i : Nat) : Chip :=
  if c.holds Cl.fw k then c.putSlot k v none else c.refuse (R.STR_SLOT (k % 512)) i

/-! ### The commands -/

/-- SAMPLE_FRAME_DELIVERY (R13). -/
def execSampleFrameDelivery (s : State) : Host.Outcome State Fault Refusal :=
  .next (s.onChip doSampleFrameDelivery)
/-- STR_SWTRIG (R215). -/
def execStrSwtrig (w : Writer) (trig : BitVec 8) (s : State) : Host.Outcome State Fault Refusal :=
  .next (s.onChip (doStrSwtrig w trig))
/-- RG_TRIGGER (R215). -/
def execRgTrigger (g : Fin 8) (s : State) : Host.Outcome State Fault Refusal :=
  .next (s.onChip (doRgTrigger g))
/-- TRIG_WINDOW_END (R216). -/
def execTrigWindowEnd (g : Fin 8) (s : State) : Host.Outcome State Fault Refusal :=
  .next (s.onChip (doTrigWindowEnd g))
/-- PACER_HOLD (R239). -/
def execPacerHold (w : Writer) (key : BitVec 16) (ch : Fin 16) (s : State) : Host.Outcome State Fault Refusal :=
  .next (s.onChip (doPacerHold w key ch))
/-- PACER_RELEASE (R239). -/
def execPacerRelease (w : Writer) (key : BitVec 16) (ch : Fin 16) (s : State) : Host.Outcome State Fault Refusal :=
  .next (s.onChip (doPacerRelease w key ch))
/-- PACER_EMERGENCY (R240). -/
def execPacerEmergency (w : Writer) (key : BitVec 16) (ch : Fin 16) (s : State) : Host.Outcome State Fault Refusal :=
  .next (s.onChip (doPacerEmergency w key ch))
/-- PACER_CLEAR_EMERGENCY (R240). -/
def execPacerClearEmergency (w : Writer) (key : BitVec 16) (ch : Fin 16)
    (s : State) : Host.Outcome State Fault Refusal :=
  .next (s.onChip (doPacerClearEmergency w key ch))
/-- PACER_PRESET (R241). -/
def execPacerPreset (w : Writer) (key : BitVec 16) (ch : Fin 16) (s : State) : Host.Outcome State Fault Refusal :=
  .next (s.onChip (doPacerPreset w key ch))
/-- RG_DISPATCH (R217). -/
def execRgDispatch (g : Fin 8) (ecc : EccError) (s : State) : Host.Outcome State Fault Refusal :=
  .next (s.onChip (doRgDispatch g ecc))
/-- SECTION_ISSUE (R218). -/
def execSectionIssue (n : Fin 512) (ecc : EccError) (s : State) : Host.Outcome State Fault Refusal :=
  .next (s.onChip (doSectionIssue n ecc))
/-- SECTION_RESULT (R226). -/
def execSectionResult (n : Fin 512) (fault : BitVec 2) (s : State) : Host.Outcome State Fault Refusal :=
  .next (s.onChip (doSectionResult n fault))
/-- STR_CLR_STATS (R243). -/
def execStrClrStats (w : Writer) (key : BitVec 16) (s : State) : Host.Outcome State Fault Refusal :=
  .next (s.onChip (doStrClrStats w key))
/-- BUDGET_RECOMPUTE (R233). -/
def execBudgetRecompute (s : State) : Host.Outcome State Fault Refusal :=
  .next (s.onChip doBudgetRecompute)
/-- GRAPH_CRC_RECOMPUTE (R243). -/
def execGraphCrcRecompute (s : State) : Host.Outcome State Fault Refusal :=
  .next (s.onChip doGraphCrcRecompute)

end Sys2Proof.Machine
end

