-- ==== Sys2Proof/Machine/Grid.lean ====
section
/-!
DEFINITION. The fixed units beside the Stride graph: the best-point tracker (*Grid-Following and Grid-Forming Control*,
R248 to R263), the Hurdle unit, the passive islanding detectors and the impedance probe (*Fault Ride-Through and
Islanding Detection*, R264 to R304), and the completion of an evaluation, on which they act.
-/
namespace Sys2Proof.Machine
open Sys2Proof

/-- The value of a word of mantissa and exponent. -/
def wordF (w : Word) : F64 := F64.ofSlot (Slot.of w)

/-- A per-unit field (R266). -/
def puF (u : Nat) : F64 := F64.scaled u (-14)

/-- The 10^−9 of the formulas. -/
def nano : F64 := F64.ratio 1 1000000000

/-- `w` with STALE set. -/
def staled (w : Word) : Word := w ||| 0x40#32

/-- Whether a slot word carries STALE. -/
def isStale (w : Word) : Bool := (Slot.of w).stale

/-- `x` in units of 2^−14 as an unsigned 16-bit number. -/
def pu16 (x : F64) : Nat := (clampI 0 0xFFFF (scaleRhe x.m (x.e + 14))).toNat

/-- The word of `1.0` or `0` in an exponent of 1 (R281, R298). -/
def oneWord (b : Bool) : Word := (Slot.mk (if b then 2 ^ 22 else 0) 1 false false).word

/-- A word to slot `k` where claimant `cl` holds it. -/
def Chip.putOwn (c : Chip) (cl k : Nat) (w : Word) : Chip := if c.holds cl k then c.putSlot k w none else c

/-! ### Best-point tracker -/

/-- Channel `k`. -/
def Chip.bptCh (c : Chip) (k : Nat) : BptCh := nth c.bpt k {}

/-- Channel `k` is changed by `g`. -/
def Chip.updBpt (c : Chip) (k : Nat) (g : BptCh → BptCh) : Chip := { c with bpt := upd c.bpt k g }

/-- The register at `r` as in force in the channel's window (R258). -/
def BptCh.w (x : BptCh) (r : Nat) : Word := SMap.get regReset x.par r

/-- The window of channel `k` is over: the next one starts with the next sample, with SKIP or without (R251, R256, R260). -/
def Chip.bptWindow (c : Chip) (k : Nat) (skip : Bool) : Chip := c.updBpt k fun x => { x with due := some skip }

/-- A window of channel `k` that is due starts with the sample at hand and takes the words then in the registers (R251, R258). -/
def Chip.bptOpen (c : Chip) (k : Nat) : Chip :=
  match (c.bptCh k).due with
  | none => c
  | some skip =>
    let par := c.regsIn (R.BPT_CH_CFG k) (R.BPT_CH_CFG (k + 1)) ++
      c.regsIn (R.BPT_CRV_SPD0 (64 * k)) (R.BPT_CRV_SPD0 (64 * k + 64))
    c.updBpt k fun x => { x with
      due := none, par := par, skip := if skip then c.f (R.BPT_CH_WIN k) F.BPT_CH_WIN_SKIP else 0, n := 0, stale := false,
      sumA := .zero, sumB := .zero, sumAb := .zero, sumPl := .zero }

/-- The slot that channel `k` writes. -/
def Chip.bptOut (c : Chip) (k : Nat) : Nat := c.f (R.BPT_CH_SLOTS1 k) F.BPT_CH_SLOTS1_OUT

/-- Word `w` to OUT, shown in CHc_REF. -/
def Chip.bptWrite (c : Chip) (k : Nat) (w : Word) : Chip :=
  if c.holds (Cl.bpt k) (c.bptOut k) then (c.putSlot (c.bptOut k) w none).wr (R.BPT_CH_REF k) w else c

/-- Mode of channel `k`: 0 P&O, 1 INC, 2 CURVE. -/
def Chip.bptMode (c : Chip) (k : Nat) : Nat := c.f (R.BPT_CH_CFG k) F.BPT_CH_CFG_MODE

/-- Channel `k` restarts (R256). -/
def Chip.bptRestart (c : Chip) (k : Nat) : Chip :=
  let start := wordF (c.rd (R.BPT_CH_START k))
  let up := c.is (R.BPT_CH_CFG k) F.BPT_CH_CFG_DIR_INIT
  let c : Chip := c.updBpt k fun x => { x with ref := start, up := up, first := true }
  let c : Chip := (c.flag (R.BPT_CH_DEC k) F.BPT_CH_DEC_DIR up).bptWindow k true
  if c.bptMode k < 2 then c.bptWrite k (start.slot (c.fs (R.BPT_CH_CFG k) F.BPT_CH_CFG_OUT_EXP)).word else c

/-- Whether the registers of channel `k` hold a configuration error (R259). -/
def Chip.bptBad (c : Chip) (k : Nat) : Bool :=
  let v := fun r => wordF (c.rd r)
  let mode := c.bptMode k
  let navg := c.f (R.BPT_CH_WIN k) F.BPT_CH_WIN_NAVG
  let npts := c.f (R.BPT_CH_CFG k) F.BPT_CH_CFG_NPTS
  let neg := fun r => decide (F64.sign (v r) < 0)
  mode = 3 || decide (F64.sign (v (R.BPT_CH_STEP k)) ≤ 0)
    || (decide (mode < 2) && (!(v (R.BPT_CH_VMIN k)).lt (v (R.BPT_CH_VMAX k))
        || (v (R.BPT_CH_START k)).lt (v (R.BPT_CH_VMIN k)) || (v (R.BPT_CH_VMAX k)).lt (v (R.BPT_CH_START k))))
    || decide (navg = 0) || decide (1024 < navg)
    || neg (R.BPT_CH_DBAND k) || neg (R.BPT_CH_DV_MIN k) || neg (R.BPT_CH_DI_MIN k) || neg (R.BPT_CH_TOL k)
    || (decide (mode = 2) && (decide (npts < 2) || decide (64 < npts) || (List.range (npts - 1)).any fun i =>
        !(v (R.BPT_CRV_SPD0 (64 * k + i))).lt (v (R.BPT_CRV_SPD0 (64 * k + i + 1)))))
    || !c.holds (Cl.bpt k) (c.bptOut k)

/-- The mark CFG_ERR of channel `k` takes `bad`, and its event is raised as it is set (R259). -/
def Chip.bptErr (c : Chip) (k : Nat) (bad : Bool) : Chip :=
  (c.setBit R.BPT_STAT k bad).raiseIf (bad && !c.bit R.BPT_STAT k) P.BPT 2

/-- The channels follow their enable bits, their claims and their groups (R256, R259, R260). New words count from the start of a window on
(R258), so that they are judged here only as the channel is enabled and while it is in error. -/
def Chip.bptMark (c : Chip) : Chip :=
  forN 4 (fun k c =>
    let en := c.bit R.BPT_CTL k
    let was := c.bit R.BPT_STAT k
    let started := en && !(c.bptCh k).en
    let bad := en && (((started || was) && c.bptBad k) || !c.holds (Cl.bpt k) (c.bptOut k))
    let c : Chip := (c.bptErr k bad).updBpt k fun x => { x with en := en }
    let c : Chip := if en && !bad && (started || was) then c.bptRestart k else c
    if en && !(c.grp (c.f (R.BPT_CH_CFG k) F.BPT_CH_CFG_RG)).en then c.bptWindow k true else c) c

/-- What a decision of R253 starts from: averages, limits and the channel's state. -/
structure BptIn where
  inc : Bool
  plimEn : Bool
  curtUp : Bool
  a : F64
  b : F64
  p : F64
  pl : F64
  step : F64
  vmin : F64
  vmax : F64
  dband : F64
  dvMin : F64
  diMin : F64
  tol : F64
  deriving DecidableEq, Repr

/-- What a decision gives: the new channel state, whether ref was clamped, curtailed, and INC's best point. -/
structure BptDec where
  ch : BptCh
  atLimit : Bool
  curtailed : Bool
  mpp : Bool
  deriving DecidableEq, Repr

/-- +1 or −1 for a direction. -/
def dirI (up : Bool) : Int := if up then 1 else -1

/-- The decision of R253. -/
def BptIn.decide' (i : BptIn) (x : BptCh) : BptDec :=
  let r : Int × Bool × Bool × Bool :=   -- move, new direction, curtailed, best point
    if i.plimEn && i.pl.lt i.p then (dirI i.curtUp, x.up, true, false)
    else if i.plimEn && (i.pl.sub i.dband).lt i.p then (0, x.up, true, false)
    else if x.first then (dirI x.up, x.up, false, false)
    else if !i.inc then
      let up := if !i.dband.lt (i.p.sub x.pPrev) then !x.up else x.up
      (dirI up, up, false, false)
    else
      let dv := i.a.sub x.aPrev
      let di := i.b.sub x.bPrev
      let move : Int :=
        if dv.abs.le i.dvMin then (if di.abs.le i.diMin then 0 else di.sign)
        else
          let g := (i.b.mul dv).add (i.a.mul di)
          if g.abs.le (i.tol.mul (i.a.mul dv).abs) then 0 else g.sign * dv.sign
      (move, if move = 0 then x.up else Decidable.decide (0 < move), false, Decidable.decide (move = 0))
  let ref := x.ref.add ((F64.ofInt r.1).mul i.step)
  let lim := ref.lt i.vmin || i.vmax.lt ref
  let ref := if ref.lt i.vmin then i.vmin else ref
  let ref := if i.vmax.lt ref then i.vmax else ref
  ⟨{ x with ref := ref, up := r.2.1, first := false, aPrev := i.a, bPrev := i.b, pPrev := i.p }, lim, r.2.2.1, r.2.2.2⟩

/-- The curve of R254: points (s_k, w_k) and the abscissa. -/
def curveAt (pts : List (F64 × F64)) (x : F64) : F64 :=
  match pts with
  | [] => .zero
  | (s, w) :: rest =>
    if x.le s then w
    else
      let rec go (s w : F64) (l : List (F64 × F64)) : F64 :=
        match l with
        | [] => w
        | (s', w') :: t => if s'.le x then go s' w' t else w.add (((x.sub s).mul (w'.sub w)).div (s'.sub s))
      go s w rest

/-- The end of a window of channel `k` with its averages (R252 to R255). -/
def Chip.bptDecide (c : Chip) (k : Nat) : Chip :=
  let x := c.bptCh k
  let v := fun r => wordF (x.w r)
  let cfg := x.w (R.BPT_CH_CFG k)
  let navg := F64.ofNat (fget (x.w (R.BPT_CH_WIN k)) F.BPT_CH_WIN_NAVG)
  let plimEn := fget cfg F.BPT_CH_CFG_PLIM_EN = 1
  let pl := x.sumPl.div navg
  let e := sgn 6 (fget cfg F.BPT_CH_CFG_OUT_EXP)
  let mode := fget cfg F.BPT_CH_CFG_MODE
  let a := x.sumA.div navg
  let shown := fun (c : Chip) (w : Word) (lim cur mpp : Bool) =>
    let wasL := c.bit R.BPT_STAT (16 + k)
    let wasC := c.bit R.BPT_STAT (20 + k)
    let c : Chip := ((c.setBit R.BPT_STAT (16 + k) lim).setBit R.BPT_STAT (20 + k) cur).setBit R.BPT_STAT (24 + k) mpp
    let c : Chip := c.incWrap (R.BPT_CH_DEC k) F.BPT_CH_DEC_DECISIONS
    let c : Chip := (c.flag (R.BPT_CH_DEC k) F.BPT_CH_DEC_DIR (c.bptCh k).up).bptWrite k w
    (c.raiseIf (lim && !wasL) P.BPT 0).raiseIf (cur && !wasC) P.BPT 1
  if mode = 2 then
    let pts := (List.range (fget cfg F.BPT_CH_CFG_NPTS)).map fun i =>
      (v (R.BPT_CRV_SPD0 (64 * k + i)), v (R.BPT_CRV_PWR0 (64 * k + i)))
    let y := curveAt pts a
    let cur := plimEn && pl.lt y
    shown c ((if cur then pl else y).slot e).word false cur false
  else
    let i : BptIn :=
      { inc := mode = 1, plimEn := plimEn, curtUp := fget cfg F.BPT_CH_CFG_CURT_DIR = 1, a := a,
        b := x.sumB.div navg, p := x.sumAb.div navg, pl := pl, step := v (R.BPT_CH_STEP k), vmin := v (R.BPT_CH_VMIN k),
        vmax := v (R.BPT_CH_VMAX k), dband := v (R.BPT_CH_DBAND k), dvMin := v (R.BPT_CH_DV_MIN k),
        diMin := v (R.BPT_CH_DI_MIN k), tol := v (R.BPT_CH_TOL k) }
    let d := i.decide' x
    let s := d.ch.ref.slot e
    shown (c.updBpt k fun _ => d.ch) { s with sat := s.sat || d.atLimit }.word d.atLimit d.curtailed d.mpp

/-- A sample of channel `k` after its group completed an evaluation, and what the end of its window brings (R249, R251,
R252). Slots are read as `c0` holds them, the chip before any unit wrote. -/
def Chip.bptSample (c c0 : Chip) (k : Nat) : Chip :=
  let c : Chip := c.bptOpen k
  let x := c.bptCh k
  let cfg := x.w (R.BPT_CH_CFG k)
  let po := fget cfg F.BPT_CH_CFG_MODE < 2
  let plimEn := fget cfg F.BPT_CH_CFG_PLIM_EN = 1
  let wa := c0.slot (c.f (R.BPT_CH_SLOTS0 k) F.BPT_CH_SLOTS0_IN_A)
  let wb := c0.slot (c.f (R.BPT_CH_SLOTS0 k) F.BPT_CH_SLOTS0_IN_B)
  let wp := c0.slot (c.f (R.BPT_CH_SLOTS1 k) F.BPT_CH_SLOTS1_PLIM)
  let stale := x.stale || isStale wa || (Decidable.decide po && isStale wb) || (Decidable.decide plimEn && isStale wp)
  if 0 < x.skip then c.updBpt k fun x => { x with skip := x.skip - 1, stale := stale }
  else
    let a := wordF wa
    let b := wordF wb
    let c : Chip := c.updBpt k fun x => { x with
      n := x.n + 1, stale := stale, sumA := x.sumA.add a, sumB := if po then x.sumB.add b else x.sumB,
      sumAb := if po then x.sumAb.add (a.mul b) else x.sumAb, sumPl := if plimEn then x.sumPl.add (wordF wp) else x.sumPl }
    let y := c.bptCh k
    let navg := fget (x.w (R.BPT_CH_WIN k)) F.BPT_CH_WIN_NAVG
    if y.n < navg then c
    else
      let avg := (if po then y.sumAb else y.sumA).div (F64.ofNat navg)
      let c : Chip := c.wr (R.BPT_CH_AVG k) (avg.acc.out true (-32)).word
      if stale then ((c.incSat (R.BPT_CH_DEC k) F.BPT_CH_DEC_STALE_HOLDS).raise P.BPT 3).bptWindow k false
      else (if c.bit R.BPT_STAT (12 + k) then c else c.bptDecide k).bptWindow k true

/-- Whether channel `k` samples as group `g` completes an evaluation. -/
def Chip.bptOn (c : Chip) (g k : Nat) : Bool :=
  c.bit R.BPT_CTL k && !c.bit R.BPT_STAT k && Decidable.decide (c.f (R.BPT_CH_CFG k) F.BPT_CH_CFG_RG = g)

/-- The channels bound to group `g` sample the slots as `c0` holds them (R249). A window that would start on a configuration error does not:
the channel is marked and makes no decisions (R258, R259). -/
def Chip.bptTick (c c0 : Chip) (g : Nat) : Chip :=
  forN 4 (fun k c =>
    if !c.bptOn g k then c
    else if (c.bptCh k).due.isSome && c.bptBad k then c.bptErr k true
    else c.bptSample c0 k) c

/-- BPT.CMD (R257): 1 HOLD, 2 RELEASE, 3 RESTART on an enabled channel. -/
def Chip.bptCmd (c : Chip) (k op i : Nat) : Chip :=
  if !c.bit R.BPT_CTL k || op = 0 || Decidable.decide (3 < op) then c.refuse R.BPT_CMD i
  else match op with
    | 1 => c.setBit R.BPT_STAT (12 + k) true
    | 2 => ((c.setBit R.BPT_STAT (12 + k) false).updBpt k fun x => { x with first := true }).bptWindow k true
    | _ => if c.bit R.BPT_STAT k then c else c.bptRestart k

/-! ### Hurdle unit -/

/-- A change of the Hurdle unit. -/
def Chip.updHrd (c : Chip) (g : HrdSt → HrdSt) : Chip := { c with hrd := g c.hrd }

namespace Hs
def off : Nat := 0
def normal : Nat := 1
def dip : Nat := 2
def zero : Nat := 3
def swell : Nat := 4
def recovery : Nat := 5
def tripped : Nat := 6
end Hs

/-- The state code of the Hurdle unit. -/
def Chip.hrdState (c : Chip) : Nat := c.f R.HRD_STAT F.HRD_STAT_STATE

/-- The Hurdle unit goes to state `st`; STAT.PREV keeps the one it leaves. -/
def Chip.hrdGo (c : Chip) (st : Nat) : Chip :=
  if c.hrdState = st then c
  else (c.setF R.HRD_STAT F.HRD_STAT_PREV c.hrdState).setF R.HRD_STAT F.HRD_STAT_STATE st

/-- The points of a curve (R278). -/
def Chip.hrdCurve (c : Chip) (hv : Bool) : List (Nat × Nat) :=
  (List.range (c.f R.HRD_CURVE_CFG (if hv then F.HRD_CURVE_CFG_HV_NPTS else F.HRD_CURVE_CFG_LV_NPTS))).map fun k =>
    let w := c.rd (if hv then R.HRD_HV k else R.HRD_LV k)
    (fget w F.HRD_LV_TIME_MS, fget w F.HRD_LV_U)

/-- Whether a curve of `n` points fails R279. -/
def curveBad (n : Nat) (l : List (Nat × Nat)) : Bool :=
  Decidable.decide (n < 1) || Decidable.decide (16 < n) || Decidable.decide ((nth l 0 (0, 0)).1 ≠ 0)
    || (l.zip l.tail).any fun p => Decidable.decide (p.2.1 < p.1.1)

/-- The value of a curve at `t` ms (R278). -/
def curveVal (l : List (Nat × Nat)) (t : F64) : F64 :=
  match l with
  | [] => .zero
  | (t0, u0) :: rest =>
    let rec go (t0 u0 : Nat) (l : List (Nat × Nat)) : F64 :=
      match l with
      | [] => puF u0
      | (t1, u1) :: r =>
        if (F64.ofNat t1).le t then go t1 u1 r
        else (puF u0).add (((t.sub (F64.ofNat t0)).mul ((puF u1).sub (puF u0))).div ((F64.ofNat t1).sub (F64.ofNat t0)))
    go t0 u0 rest

/-- Whether the Hurdle unit has a configuration error (R300). -/
def Chip.hrdBad (c : Chip) : Bool :=
  let le := fun r (x y : Fld) => Decidable.decide (c.f r x ≤ c.f r y)
  let cn := fun x => c.f R.HRD_CURVE_CFG x
  curveBad (cn F.HRD_CURVE_CFG_LV_NPTS) (c.hrdCurve false) || curveBad (cn F.HRD_CURVE_CFG_HV_NPTS) (c.hrdCurve true)
    || (!c.is R.HRD_CTL F.HRD_CTL_FAST_EN && !c.is R.HRD_CTL F.HRD_CTL_SEQ_EN)
    || le R.HRD_LV_TH F.HRD_LV_TH_U_REC F.HRD_LV_TH_U_DIP
    || le R.HRD_ZV_TH F.HRD_ZV_TH_U_ZERO_EXIT F.HRD_ZV_TH_U_ZERO
    || le R.HRD_HV_TH F.HRD_HV_TH_U_SWELL F.HRD_HV_TH_U_SWELL_REC
    || Decidable.decide ((wordF (c.rd R.HRD_VNOM)).sign ≤ 0) || Decidable.decide ((wordF (c.rd R.HRD_INOM)).sign ≤ 0)
    || (runSlots (c.f R.HRD_CTL F.HRD_CTL_OUT_BASE) 6).any fun k => !c.holds Cl.hrd k

/-- The Hurdle unit's configuration is judged as it is enabled and at each evaluation (R268, R300): in error it does not run; as the error
clears it restarts in NORMAL with everything clear, its signal and words unchanged until its next output write (R270). -/
def Chip.hrdJudge (c : Chip) : Chip :=
  let bad := c.hrdBad
  let was := c.is R.HRD_STAT F.HRD_STAT_CFG_ERR
  let back := Decidable.decide (Hs.normal < c.hrdState)
  let c : Chip := (c.flag R.HRD_STAT F.HRD_STAT_CFG_ERR bad).raiseIf (bad && !was) P.HRD 5
  if bad then c.updHrd fun h => { h with run := false }
  else if c.hrd.run then c
  else ((c.updHrd fun h => { en := true, run := true, out := h.out, blk := h.blk }).hrdGo Hs.normal).raiseIf back P.HRD 1

/-- The Hurdle unit follows its enable bit (R267): its signal ends with the unit. -/
def Chip.hrdMark (c : Chip) : Chip :=
  let en := c.is R.HRD_CTL F.HRD_CTL_EN
  if en = c.hrd.en then c
  else if en then (c.updHrd fun _ => { en := true }).hrdJudge
  else (((c.updHrd fun _ => {}).hrdGo Hs.off).flag R.HRD_STAT F.HRD_STAT_BLK false).flag R.HRD_STAT F.HRD_STAT_CFG_ERR false

/-- The inputs of one evaluation of the Hurdle unit. -/
structure HrdIn where
  uf : F64
  us : F64
  un : F64
  na : F64
  nb : F64
  th : F64
  om : F64
  iq : F64
  deriving DecidableEq, Repr

/-- A counter of R272. -/
def cnt (n : Nat) (b : Bool) : Nat := if b then min (n + 1) 255 else 0

/-- A persistence field, 0 read as 1. -/
def pers (n : Nat) : Nat := if n = 0 then 1 else n

/-- TS in ns as binary64. -/
def Chip.hrdTs (c : Chip) : F64 := F64.ofNat (c.rdN R.HRD_TS)

/-- imax (R274). -/
def Chip.hrdImax (c : Chip) : F64 := (puF (c.f R.HRD_LIM F.HRD_LIM_IMAX)).mul (wordF (c.rd R.HRD_INOM))

/-- enter(s) of R274; `t` is the herd time of the group's trigger. -/
def Chip.hrdEnter (c : Chip) (st t : Nat) (i : HrdIn) : Chip :=
  let c : Chip := (c.hrdGo st).updHrd fun h => { h with tEv := 0, iqPre := i.iq, ipMin := c.hrdImax, ramp := .zero }
  let c : Chip := (c.incSat R.HRD_STAT F.HRD_STAT_EVENTS).wr64 (R.HRD_LAST_T 0) t
  (c.setF R.HRD_LAST F.HRD_LAST_UMIN (pu16 i.us)).raise P.HRD 0

/-- start_recovery() of R274. -/
def Chip.hrdRecover (c : Chip) : Chip :=
  let z := c.is R.HRD_CTL F.HRD_CTL_REC_START
  (c.hrdGo Hs.recovery).updHrd fun h => { h with ramp := if z then .zero else h.ipMin }

/-- end_event() of R274. -/
def Chip.hrdEnd (c : Chip) : Chip := ((c.hrdGo Hs.normal).wrN R.HRD_LAST_DUR (c.hrd.tEv / 1000000)).raise P.HRD 1

/-- trip(cause) of R274. -/
def Chip.hrdTrip (c : Chip) (cause : Nat) : Chip :=
  ((c.hrdGo Hs.tripped).setF R.HRD_STAT F.HRD_STAT_TRIP_CAUSE cause).raise P.HRD 2

/-- act(a, e) of R274: event bit `e`, trip cause `tc`. -/
def Chip.hrdAct (c : Chip) (a e tc : Nat) : Chip :=
  let c : Chip := c.raise P.HRD e
  let till := c.hrd.now + 1000000 * c.f R.HRD_PJ F.HRD_PJ_HOLD_MS
  let later := fun (o : Option Nat) => some (match o with | some x => max x till | none => till)
  match a with
  | 1 => c.updHrd fun h => { h with block := later h.block }
  | 2 => c.hrdTrip tc
  | 3 => c.updHrd fun h => { h with freeze := later h.freeze }
  | _ => c

/-- x reduced to [−0.5, 0.5). -/
def wrapTurn (x : F64) : F64 := x.sub (F64.ofInt (F64.floor (x.add ⟨1, -1⟩)))

/-- ROCOF of the ring (R276), once it holds WIN + 1 entries. -/
def Chip.hrdRocof (c : Chip) : Option F64 :=
  let win := c.f R.HRD_RC F.HRD_RC_WIN
  match c.hrd.ring[0]?, c.hrd.ring[win]? with
  | some a, some b =>
    let d := (((((F64.ofNat 2).mul F64.pi).mul (F64.ofNat win)).mul (F64.ofNat (c.f R.HRD_RC F.HRD_RC_DEC))).mul c.hrdTs).mul nano
    some ((a.sub b).div d)
  | _, _ => none

/-- The six words and the blocking signal of a state (R280 to R282). -/
def Chip.hrdOutputs (c : Chip) (i : HrdIn) : Chip :=
  let st := c.hrdState
  let h := c.hrd
  let imax := c.hrdImax
  let inom := wordF (c.rd R.HRD_INOM)
  let uk := if c.is R.HRD_CTL F.HRD_CTL_KQ_SRC && c.is R.HRD_CTL F.HRD_CTL_FAST_EN then i.uf.min i.us else i.us
  let uref := if c.is R.HRD_CTL F.HRD_CTL_REF_SEL then h.upre else F64.ofNat 1
  let asym := (puF (c.f R.HRD_DB F.HRD_DB_ASYM_TH)).lt i.un
  let r : F64 × F64 × F64 × F64 × F64 × F64 :=   -- iq, ip, ina, inb, ramp, ipMin
    if st = Hs.normal then (i.iq, imax, .zero, .zero, h.ramp, h.ipMin)
    else if st = Hs.tripped then (.zero, .zero, .zero, .zero, h.ramp, h.ipMin)
    else
      let du := uref.sub uk
      let db := puF (c.f R.HRD_DB F.HRD_DB_DB)
      let k := F64.scaled (c.f R.HRD_KQ F.HRD_KQ_K) (-12)
      let sub := if c.is R.HRD_CTL F.HRD_CTL_DB_SUB then (F64.ofInt du.sign).mul db else .zero
      let dq := if du.abs.le db then .zero else (k.neg.mul (du.sub sub)).mul inom
      let iq := ((h.iqPre.add dq).max imax.neg).min imax
      let nm := c.f R.HRD_CTL F.HRD_CTL_NEG_MODE
      let g := if nm = 1 ∨ (nm = 2 ∧ asym) then
        ((F64.scaled (c.f R.HRD_KQ F.HRD_KQ_K_NEG) (-12)).mul inom).div (wordF (c.rd R.HRD_VNOM)) else .zero
      let ina := g.neg.mul i.nb
      let inb := g.mul i.na
      let m := F64.hypot ina inb
      let room := imax.sub iq.abs
      let (ina, inb, m) := if room.lt m then ((ina.mul room).div m, (inb.mul room).div m, room) else (ina, inb, m)
      let d := imax.sub m
      let lim := (((d.mul d).sub (iq.mul iq)).max .zero).sqrt
      let lim := if st = Hs.zero && c.is R.HRD_CTL F.HRD_CTL_ZERO_P0 then .zero else lim
      if st = Hs.recovery then
        let rate := F64.scaled (c.f R.HRD_LIM F.HRD_LIM_REC_RATE) (-8)
        let ramp := imax.min (h.ramp.add (((rate.mul inom).mul c.hrdTs).mul nano))
        (iq, ramp.min lim, ina, inb, ramp, h.ipMin)
      else (iq, lim, ina, inb, h.ramp, h.ipMin.min lim)
  let e := c.fs R.HRD_CTL F.HRD_CTL_OUT_EXP
  let fr := Decidable.decide (st = Hs.zero) || h.freeze.isSome
  let blk := Decidable.decide (st = Hs.tripped) || h.block.isSome
    || (Decidable.decide (st = Hs.zero) && c.is R.HRD_CTL F.HRD_CTL_ZERO_BLK)
  let ws := [(Slot.mk (st * 2 ^ 19 : Nat) 4 false false).word, oneWord fr, (r.1.slot e).word, (r.2.1.slot e).word,
    (r.2.2.1.slot e).word, (r.2.2.2.1.slot e).word]
  let c : Chip := c.updHrd fun h => { h with ramp := r.2.2.2.2.1, ipMin := r.2.2.2.2.2, out := ws, blk := blk }
  let c : Chip := ((c.flag R.HRD_STAT F.HRD_STAT_ASYM asym).flag R.HRD_STAT F.HRD_STAT_FREEZE fr).flag R.HRD_STAT
    F.HRD_STAT_BLK blk
  forN 6 (fun j c => c.putOwn Cl.hrd ((c.f R.HRD_CTL F.HRD_CTL_OUT_BASE + j) % 1024) (nth ws j 0)) c

/-- The slots the Hurdle unit reads, in the order of its inputs. -/
def Chip.hrdReads (c : Chip) : List Nat :=
  [c.f R.HRD_IN0 F.HRD_IN0_V_INST, c.f R.HRD_IN0 F.HRD_IN0_V_POS, c.f R.HRD_IN1 F.HRD_IN1_V_NEG_A,
   c.f R.HRD_IN1 F.HRD_IN1_V_NEG_B, c.f R.HRD_IN2 F.HRD_IN2_THETA, c.f R.HRD_IN2 F.HRD_IN2_OMEGA,
   c.f R.HRD_IN3 F.HRD_IN3_IQ_IN]

/-- The measures and inputs of an evaluation. -/
def Chip.hrdIn (c : Chip) (w : List Word) : HrdIn :=
  let v := fun k => wordF (nth w k 0)
  let vn := wordF (c.rd R.HRD_VNOM)
  { uf := (v 0).div vn, us := (v 1).div vn, un := (F64.hypot (v 2) (v 3)).div vn, na := v 2, nb := v 3, th := v 4,
    om := v 5, iq := v 6 }

/-- The counters of R272 after an evaluation with `i`. -/
def Chip.hrdCount (c : Chip) (i : HrdIn) : Chip :=
  let fe := c.is R.HRD_CTL F.HRD_CTL_FAST_EN
  let se := c.is R.HRD_CTL F.HRD_CTL_SEQ_EN
  let p := fun r x => puF (c.f r x)
  let dip := p R.HRD_LV_TH F.HRD_LV_TH_U_DIP
  let zro := p R.HRD_ZV_TH F.HRD_ZV_TH_U_ZERO
  let swl := p R.HRD_HV_TH F.HRD_HV_TH_U_SWELL
  let ge := fun u => (!fe || u.le i.uf) && (!se || u.le i.us)
  let le := fun (u : F64) => (!fe || i.uf.le u) && (!se || i.us.le u)
  c.updHrd fun h => { h with
    dipF := cnt h.dipF (fe && i.uf.lt dip), dipS := cnt h.dipS (se && i.us.lt dip),
    zroF := cnt h.zroF (fe && i.uf.lt zro), zroS := cnt h.zroS (se && i.us.lt zro),
    swlF := cnt h.swlF (fe && swl.lt i.uf), swlS := cnt h.swlS (se && swl.lt i.us),
    rcv := cnt h.rcv (ge (p R.HRD_LV_TH F.HRD_LV_TH_U_REC)), zex := cnt h.zex (ge (p R.HRD_ZV_TH F.HRD_ZV_TH_U_ZERO_EXIT)),
    swx := cnt h.swx (le (p R.HRD_HV_TH F.HRD_HV_TH_U_SWELL_REC)) }

/-- The switch of R274 on the conditions of R272, in its order (R275). -/
def Chip.hrdSwitch (c : Chip) (t : Nat) (i : HrdIn) : Chip :=
  let h := c.hrd
  let n := fun x => pers (c.f R.HRD_PERSIST x)
  let nf := n F.HRD_PERSIST_N_FAST
  let ns := n F.HRD_PERSIST_N_SEQ
  let ne := n F.HRD_PERSIST_N_EXIT
  let dip := Decidable.decide (nf ≤ h.dipF) || Decidable.decide (ns ≤ h.dipS)
  let zero := Decidable.decide (nf ≤ h.zroF) || Decidable.decide (ns ≤ h.zroS)
  let swell := Decidable.decide (nf ≤ h.swlF) || Decidable.decide (ns ≤ h.swlS)
  let rcv := Decidable.decide (ne ≤ h.rcv)
  let zex := Decidable.decide (ne ≤ h.zex)
  let swx := Decidable.decide (ne ≤ h.swx)
  match c.hrdState with
  | 1 => if zero then c.hrdEnter Hs.zero t i else if dip then c.hrdEnter Hs.dip t i
         else if swell then c.hrdEnter Hs.swell t i else c
  | 2 => if zero then c.hrdGo Hs.zero else if rcv then c.hrdRecover else c
  | 3 => if rcv then c.hrdRecover else if zex then c.hrdGo Hs.dip else c
  | 4 => if zero then c.hrdEnter Hs.zero t i else if dip then c.hrdEnter Hs.dip t i else if swx then c.hrdEnd else c
  | 5 => if zero then c.hrdEnter Hs.zero t i else if dip then c.hrdEnter Hs.dip t i
         else if swell then c.hrdEnter Hs.swell t i else if c.hrdImax.le h.ramp then c.hrdEnd else c
  | _ => c

/-- The curve checks of R274. -/
def Chip.hrdCurves (c : Chip) (i : HrdIn) : Chip :=
  let st := c.hrdState
  let n := pers (c.f R.HRD_PERSIST F.HRD_PERSIST_CURVE_N)
  let t := (F64.ofNat c.hrd.tEv).div (F64.ofNat 1000000)
  if st = Hs.dip ∨ st = Hs.zero then
    let bad := c.is R.HRD_CTL F.HRD_CTL_LV_EN && i.us.lt (curveVal (c.hrdCurve false) t)
    let c : Chip := c.updHrd fun h => { h with crv := cnt h.crv bad }
    if n ≤ c.hrd.crv then c.hrdTrip 1 else c
  else if st = Hs.swell then
    let bad := c.is R.HRD_CTL F.HRD_CTL_HV_EN && (curveVal (c.hrdCurve true) t).lt i.us
    let c : Chip := c.updHrd fun h => { h with crv := cnt h.crv bad }
    if n ≤ c.hrd.crv then c.hrdTrip 2 else c
  else c.updHrd fun h => { h with crv := 0 }

/-- The phase-jump and ROCOF detectors of R274, with the ring of R276. -/
def Chip.hrdDetect (c : Chip) (i : HrdIn) : Chip :=
  let c : Chip :=
    match c.hrd.prev with
    | some (th, om) =>
      let turn := (((om.mul c.hrdTs).mul nano).div ((F64.ofNat 2).mul F64.pi))
      let d := wrapTurn ((i.th.sub th).sub turn)
      if (F64.scaled (c.f R.HRD_PJ F.HRD_PJ_LIM) (-16)).lt d.abs then c.hrdAct (c.f R.HRD_PJ F.HRD_PJ_ACT) 3 3 else c
    | none => c
  let c : Chip := c.updHrd fun h => { h with prev := some (i.th, i.om) }
  let full := Decidable.decide (c.f R.HRD_RC F.HRD_RC_DEC ≤ c.hrd.dec + 1)
  let c : Chip := c.updHrd fun h =>
    if full then { h with dec := 0, ring := (i.om :: h.ring).take 64 } else { h with dec := h.dec + 1 }
  match c.hrdRocof with
  | some r =>
    if (F64.ratio (c.f R.HRD_RC F.HRD_RC_LIM) 100).lt r.abs then c.hrdAct (c.f R.HRD_RC F.HRD_RC_ACT) 4 4 else c
  | none => c

/-- Time passes for the unit: `now`, and the event time outside NORMAL and TRIPPED. -/
def Chip.hrdTime (c : Chip) : Chip :=
  let ts := c.rdN R.HRD_TS
  let ev := c.hrdState ≠ Hs.normal ∧ c.hrdState ≠ Hs.tripped
  c.updHrd fun h => { h with now := h.now + ts, tEv := if ev then h.tEv + ts else h.tEv }

/-- One evaluation of the Hurdle unit (R274) on the slots as `c0` holds them; with a STALE input only its timers advance, and the words it
holds in its slots turn STALE (R269). `t` is the herd time of the group's trigger. -/
def Chip.hrdEval (c c0 : Chip) (t : Nat) : Chip :=
  let w := c.hrdReads.map c0.slot
  if w.any isStale then
    let c : Chip := (c.hrdTime.countSat R.HRD_STALE_EVALS).updHrd fun h => { h with prev := none, stale := true }
    forN 6 (fun j c =>
      let k := (c.f R.HRD_CTL F.HRD_CTL_OUT_BASE + j) % 1024
      c.putOwn Cl.hrd k (staled (nth c.hrd.out j (c.slot k)))) c
  else
    let i := c.hrdIn w
    let c : Chip := ((c.updHrd fun h => { h with stale := false }).hrdCount i).hrdTime
    let c : Chip := (((c.hrdSwitch t i).hrdCurves i).hrdDetect i)
    let c : Chip :=
      if c.hrdState = Hs.normal then
        let tau := (F64.ofNat (c.f R.HRD_PRE F.HRD_PRE_TAU)).mul (F64.ofNat 10000000)
        c.updHrd fun h => { h with upre := h.upre.add (((i.us.sub h.upre).mul c.hrdTs).div tau) }
      else if c.hrdState ≠ Hs.tripped then
        c.setF R.HRD_LAST F.HRD_LAST_UMIN (min (c.f R.HRD_LAST F.HRD_LAST_UMIN) (pu16 i.us))
      else c
    c.hrdOutputs i

/-- The freeze timer (`block` false) or the block timer of the Hurdle unit ends, once its time has run out (R274, R281,
R282). After an evaluation with a STALE input the outputs stay as they are (R269). -/
def doHrdHoldTimerExpiry (block : Bool) (c : Chip) : Chip :=
  c.clocked P.HRD fun c =>
    let ended := fun (o : Option Nat) => match o with | some x => Decidable.decide (x ≤ c.hrd.now) | none => false
    if c.hrd.stale then c
    else if block then
      if ended c.hrd.block then
        let c : Chip := c.updHrd fun h => { h with block := none }
        let blk := Decidable.decide (c.hrdState = Hs.tripped)
          || (Decidable.decide (c.hrdState = Hs.zero) && c.is R.HRD_CTL F.HRD_CTL_ZERO_BLK)
        (c.updHrd fun h => { h with blk := blk }).flag R.HRD_STAT F.HRD_STAT_BLK blk
      else c
    else if ended c.hrd.freeze then
      let c : Chip := c.updHrd fun h => { h with freeze := none }
      let fr := Decidable.decide (c.hrdState = Hs.zero)
      let c : Chip := (c.flag R.HRD_STAT F.HRD_STAT_FREEZE fr).updHrd fun h => { h with out := upd h.out 1 fun _ => oneWord fr }
      c.putOwn Cl.hrd ((c.f R.HRD_CTL F.HRD_CTL_OUT_BASE + 1) % 1024) (oneWord fr)
    else c

/-- HRD.CMD (R277, R299): 1 CLEAR_TRIP, a return to NORMAL (R304), 2 CLEAR_STATS. -/
def Chip.hrdCmd (c : Chip) (op i : Nat) : Chip :=
  match op with
  | 1 =>
    if c.hrdState = Hs.tripped then
      ((c.hrdGo Hs.normal).updHrd fun h => { h with
        dipF := 0, dipS := 0, zroF := 0, zroS := 0, swlF := 0, swlS := 0, rcv := 0, zex := 0, swx := 0, crv := 0 }).raise P.HRD 1
    else c
  | 2 =>
    let c : Chip := (c.setF R.HRD_STAT F.HRD_STAT_EVENTS 0).wrN R.HRD_STALE_EVALS 0
    ((c.wr64 (R.HRD_LAST_T 0) 0).wrN R.HRD_LAST 0).wrN R.HRD_LAST_DUR 0
  | _ => c.refuse R.HRD_CMD i

/-- HRD.CMD CLEAR_TRIP (R277). -/
def doHrdClearTrip (w : Writer) (key : BitVec 16) (c : Chip) : Chip :=
  c.cmd R.HRD_CMD w key fun c => c.hrdCmd 1 w.ini.code

/-- HRD.CMD CLEAR_STATS (R299). -/
def doHrdClearStats (w : Writer) (key : BitVec 16) (c : Chip) : Chip :=
  c.cmd R.HRD_CMD w key fun c => c.hrdCmd 2 w.ini.code

/-! ### Passive islanding detectors -/

/-- A change of the detectors. -/
def Chip.updIsl (c : Chip) (g : IslSt → IslSt) : Chip := { c with isl := g c.isl }

/-- Evaluations per tick. -/
def Chip.islDec (c : Chip) : Nat := if c.f R.ISL_CTL F.ISL_CTL_DEC = 0 then 256 else c.f R.ISL_CTL F.ISL_CTL_DEC

/-- dt in seconds (R283). -/
def Chip.islDt (c : Chip) : F64 := ((F64.ofNat (c.rdN R.ISL_TS)).mul (F64.ofNat c.islDec)).mul nano

/-- nwin (R283), formed in binary64 (R266; log entry 135, DEDUCED). -/
def Chip.islWin (c : Chip) : Nat :=
  (((F64.ofNat (c.f R.ISL_ROC F.ISL_ROC_WIN_MS)).mul (F64.ratio 1 1000)).div c.islDt).nearest.toNat

/-- Whether the detectors have a configuration error (R302). -/
def Chip.islBad (c : Chip) : Bool :=
  Decidable.decide (c.islWin < 1) || Decidable.decide (512 < c.islWin) || !c.is R.ISL_IN1 F.ISL_IN1_V0_EN
    || Decidable.decide ((wordF (c.rd R.ISL_VNOM)).sign ≤ 0) || !c.holds Cl.isl (c.f R.ISL_CTL F.ISL_CTL_OUT)

/-- The detectors' configuration is judged as they are enabled and at each tick (R268, R302): in error they do not tick and keep what they
hold. -/
def Chip.islJudge (c : Chip) : Chip :=
  let bad := c.islBad
  let was := c.is R.ISL_STAT F.ISL_STAT_CFG_ERR
  ((c.flag R.ISL_STAT F.ISL_STAT_CFG_ERR bad).raiseIf (bad && !was) P.ISL 4).updIsl fun x => { x with run := !bad }

/-- The detectors follow their enable bit (R267); a latched action stays until CLEAR (R287, R298). -/
def Chip.islMark (c : Chip) : Chip :=
  let en := c.is R.ISL_CTL F.ISL_CTL_EN
  if en = c.isl.en then c
  else if en then (c.updIsl fun x => { en := true, blk := x.blk }).islJudge
  else (c.updIsl fun _ => { blk := c.is R.ISL_STAT F.ISL_STAT_TRIPPED }).wr R.ISL_STAT (c.rd R.ISL_STAT &&& 0xC0000000#32)

/-- A detector hits with action `a` (R287, R298); `fresh` tells a hit that was not there before. -/
def Chip.islHit (c : Chip) (a : Nat) (fresh : Bool) : Chip :=
  let c : Chip := c.raiseIf fresh P.ISL 0
  match a with
  | 2 =>
    let was := c.is R.ISL_STAT F.ISL_STAT_TRIPPED
    (c.flag R.ISL_STAT F.ISL_STAT_TRIPPED true).raiseIf (!was) P.ISL 1
  | 3 =>
    let was := c.is R.ISL_STAT F.ISL_STAT_ISLANDED
    (c.flag R.ISL_STAT F.ISL_STAT_ISLANDED true).raiseIf (!was) P.ISL 2
  | _ => c

/-- The detectors that hit now, each with its action. -/
def Chip.islHits (c : Chip) : List (Bool × Nat) :=
  let s := fun x => c.f R.ISL_STAT x ≠ 0
  let a := fun x => c.f R.ISL_ACT x
  [(s F.ISL_STAT_FT_HIT, a F.ISL_ACT_FT), (s F.ISL_STAT_VT_HIT, a F.ISL_ACT_VT), (s F.ISL_STAT_ROC_HIT, a F.ISL_ACT_ROC),
   (s F.ISL_STAT_VS_HIT, a F.ISL_ACT_VS), (s F.ISL_STAT_IMP_HIT, a F.ISL_ACT_IMP)]

/-- The word of OUT and ISL_BLK (R298, R270). -/
def Chip.islOutputs (c : Chip) : Chip :=
  let blk := c.is R.ISL_STAT F.ISL_STAT_TRIPPED || c.islHits.any fun h => h.1 && Decidable.decide (h.2 = 1)
  (c.updIsl fun x => { x with blk := blk }).putOwn Cl.isl (c.f R.ISL_CTL F.ISL_CTL_OUT)
    (oneWord (c.is R.ISL_STAT F.ISL_STAT_ISLANDED))

/-- A table's timers, in seconds, after a tick at which entry `k` compares `lo` (under) or `hi` (over) with its limit, in the limit's
own unit given by `lim` (R284; log entry 135, DEDUCED). -/
def Chip.islTimers (c : Chip) (en : Bool) (entry : Nat → Word) (lo hi : F64) (lim : Nat → F64) (l : List (F64 × Bool)) :
    List (F64 × Bool) :=
  (List.range 8).map fun k =>
    let w := entry k
    let x := lim (fget w F.ISL_FT_LIM_LIM)
    let outside := en && fget w F.ISL_FT_LIM_EN = 1 && (if fget w F.ISL_FT_LIM_DIR = 0 then lo.lt x else x.lt hi)
    if outside then ((nth l k (.zero, false)).1.add c.islDt, true) else (.zero, false)

/-- The hit bits of a table keep only the entries still outside. -/
def keepHits (n : Nat) (l : List (F64 × Bool)) : Nat :=
  ((List.range 8).map fun k => if nbit n k && (nth l k (.zero, false)).2 then 2 ^ k else 0).sum

/-- The slots that the enabled voltage inputs of the detectors read. -/
def Chip.islVolts (c : Chip) : List Nat :=
  [c.f R.ISL_IN1 F.ISL_IN1_V0] ++ (if c.is R.ISL_IN1 F.ISL_IN1_V1_EN then [c.f R.ISL_IN1 F.ISL_IN1_V1] else []) ++
    (if c.is R.ISL_IN2 F.ISL_IN2_V2_EN then [c.f R.ISL_IN2 F.ISL_IN2_V2] else [])

/-- A tick with a STALE input: timers under way advance by `dt`, and so does the return-to-service count (R269). -/
def IslSt.stall (x : IslSt) (dt : F64) : IslSt :=
  let more := fun (e : F64 × Bool) => if e.2 then (e.1.add dt, true) else e
  { x with
    stale := true, prev := none, ft := x.ft.map more, vt := x.vt.map more,
    rts := if x.rts.m = 0 then x.rts else x.rts.add dt }

/-- One tick of the detectors on the slots as `c0` holds them (R283 to R288). -/
def Chip.islTick (c c0 : Chip) : Chip :=
  let wom := c0.slot (c.f R.ISL_IN0 F.ISL_IN0_OMEGA)
  let wth := c0.slot (c.f R.ISL_IN0 F.ISL_IN0_THETA)
  let wv := c.islVolts.map c0.slot
  if ([wom, wth] ++ wv).any isStale then
    let c : Chip := (c.countSat R.ISL_STALE_EVALS).updIsl fun x => x.stall c.islDt
    c.putOwn Cl.isl (c.f R.ISL_CTL F.ISL_CTL_OUT) (staled (c.slot (c.f R.ISL_CTL F.ISL_CTL_OUT)))
  else
    let th := wordF wth
    let f := (wordF wom).div ((F64.ofNat 2).mul F64.pi)
    let us := wv.map fun w => (wordF w).div (wordF (c.rd R.ISL_VNOM))
    let lo := us.foldl F64.min (us.headD .zero)
    let hi := us.foldl F64.max (us.headD .zero)
    let n := c.islWin
    let roc := match c.isl.ring[n - 1]? with
      | some g => if n = 0 then none else some ((f.sub g).div ((F64.ofNat n).mul c.islDt))
      | none => none
    let vs := match c.isl.prev with
      | some (t, g) => some ((F64.ofNat 360).mul (wrapTurn ((th.sub t).sub (g.mul c.islDt))))
      | none => none
    let inh := c.is R.ISL_CTL F.ISL_CTL_HRD_INH && Decidable.decide (Hs.normal < c.hrdState)
    let rocOut := c.is R.ISL_CTL F.ISL_CTL_ROC_EN && !inh &&
      (match roc with | some r => (F64.ratio (c.f R.ISL_ROC F.ISL_ROC_LIM) 1000).lt r.abs | none => false)
    let rocN := if rocOut then c.isl.roc + 1 else 0
    let rocHit := rocOut && Decidable.decide (pers (c.f R.ISL_ROC F.ISL_ROC_PERSIST) ≤ rocN)
    let vsHit := c.is R.ISL_CTL F.ISL_CTL_VS_EN && !inh &&
      (match vs with | some v => (F64.ratio (c.f R.ISL_VS F.ISL_VS_LIM) 100).lt v.abs | none => false)
    let impHit := c.is R.IMP_STAT F.IMP_STAT_ISLAND
    let ft := c.islTimers (c.is R.ISL_CTL F.ISL_CTL_FT_EN) (fun k => c.rd (R.ISL_FT_LIM k)) f f
      (fun x => F64.ratio x 1000) c.isl.ft
    let vt := c.islTimers (c.is R.ISL_CTL F.ISL_CTL_VT_EN) (fun k => c.rd (R.ISL_VT_LIM k)) lo hi
      (fun x => puF (x % 2 ^ 16)) c.isl.vt
    let mHz := fun x => F64.ratio (c.f R.ISL_RTS_F x) 1000
    let fine := c.is R.ISL_CTL F.ISL_CTL_RTS_EN && (mHz F.ISL_RTS_F_F_LO).le f && f.le (mHz F.ISL_RTS_F_F_HI)
      && (puF (c.f R.ISL_RTS_V F.ISL_RTS_V_U_LO)).le lo && hi.le (puF (c.f R.ISL_RTS_V F.ISL_RTS_V_U_HI))
    let c : Chip := c.updIsl fun x => { x with
      stale := false, ft := ft, vt := vt, ring := (f :: x.ring).take 512, prev := some (th, f), roc := rocN,
      rts := if fine then x.rts.add c.islDt else .zero }
    let c : Chip := if fine then c else c.flag R.ISL_STAT F.ISL_STAT_RTS_OK false
    let c : Chip := (c.setF R.ISL_STAT F.ISL_STAT_FT_HIT (keepHits (c.f R.ISL_STAT F.ISL_STAT_FT_HIT) ft)).setF R.ISL_STAT
      F.ISL_STAT_VT_HIT (keepHits (c.f R.ISL_STAT F.ISL_STAT_VT_HIT) vt)
    let c : Chip := ((c.flag R.ISL_STAT F.ISL_STAT_ROC_HIT rocHit).flag R.ISL_STAT F.ISL_STAT_VS_HIT vsHit).flag R.ISL_STAT
      F.ISL_STAT_IMP_HIT impHit
    -- measured values
    let c : Chip := c.wrN R.ISL_MEAS_F (clampI 0 0xFFFFFFFF (f.mul (F64.ofNat 1000000)).nearest).toNat
    let s32 := fun (x : Option F64) => unsgn 32 (clampI (-0x80000000) 0x7FFFFFFF
      ((x.getD .zero).mul (F64.ofNat 1000)).nearest)
    let c : Chip := (c.wrN R.ISL_MEAS_ROC (s32 roc)).wrN R.ISL_MEAS_VS (s32 vs)
    let c : Chip := c.wrN R.ISL_MEAS_U (pu16 hi * 65536 + pu16 lo)
    -- actions of the detectors, and of table entries that still hit
    let on := fun (c : Chip) (hit fresh : Bool) a => if hit then c.islHit (c.f R.ISL_ACT a) fresh else c
    let c : Chip := on c rocHit true F.ISL_ACT_ROC
    let c : Chip := on c vsHit true F.ISL_ACT_VS
    let c : Chip := on c impHit true F.ISL_ACT_IMP
    let c : Chip := on c (Decidable.decide (c.f R.ISL_STAT F.ISL_STAT_FT_HIT ≠ 0)) false F.ISL_ACT_FT
    let c : Chip := on c (Decidable.decide (c.f R.ISL_STAT F.ISL_STAT_VT_HIT ≠ 0)) false F.ISL_ACT_VT
    c.islOutputs

/-- An evaluation of the detectors' group: every DEC evaluations they tick (R264), unless their configuration is in error. -/
def Chip.islEval (c c0 : Chip) : Chip :=
  if c.islDec ≤ c.isl.dec + 1 then
    let c : Chip := (c.updIsl fun x => { x with dec := 0 }).islJudge
    if c.isl.run then c.islTick c0 else c
  else c.updIsl fun x => { x with dec := x.dec + 1 }

/-- Entry `k` of the frequency table (`vt` false) or of the voltage table hits: its timer has reached TIME_MS at a tick on
which it is outside, and its action applies (R284, R287). -/
def doIslEntryHit (vt : Bool) (k : Fin 8) (c : Chip) : Chip :=
  c.clocked P.ISL fun c =>
    let e := nth (if vt then c.isl.vt else c.isl.ft) k (.zero, false)
    let time := F64.ratio (c.rdN (if vt then R.ISL_VT_TIME k else R.ISL_FT_TIME k)) 1000
    let b := if vt then 8 + k.val else 16 + k.val
    if c.isl.run && !c.isl.stale && e.2 && time.le e.1 && !c.bit R.ISL_STAT b then
      ((c.setBit R.ISL_STAT b true).islHit (c.f R.ISL_ACT (if vt then F.ISL_ACT_VT else F.ISL_ACT_FT)) true).islOutputs
    else c

/-- ISL.CMD (R287): 1 CLEAR. ISL_BLK follows at the next tick's output write (R270), or at once where the detectors do not run. -/
def Chip.islCmd (c : Chip) (op i : Nat) : Chip :=
  if op = 1 then
    ((c.flag R.ISL_STAT F.ISL_STAT_TRIPPED false).flag R.ISL_STAT F.ISL_STAT_ISLANDED false).updIsl fun x =>
      { x with blk := x.run && x.blk }
  else c.refuse R.ISL_CMD i

/-- ISL.CMD CLEAR (R287). -/
def doIslClear (w : Writer) (key : BitVec 16) (c : Chip) : Chip :=
  c.cmd R.ISL_CMD w key fun c => c.islCmd 1 w.ini.code

/-- The return-to-service count reaches TIME_S (R288). -/
def doRtsTimer (c : Chip) : Chip :=
  c.clocked P.ISL fun c =>
    if c.isl.run && !c.isl.stale && c.is R.ISL_CTL F.ISL_CTL_RTS_EN && !c.is R.ISL_STAT F.ISL_STAT_RTS_OK
        && Decidable.decide (0 < c.isl.rts.m) && (F64.ofNat (c.f R.ISL_RTS_T F.ISL_RTS_T_TIME_S)).le c.isl.rts then
      (c.flag R.ISL_STAT F.ISL_STAT_RTS_OK true).raise P.ISL 3
    else c

/-! ### Impedance probe -/

/-- A change of the probe. -/
def Chip.updImp (c : Chip) (g : ImpSt → ImpSt) : Chip := { c with imp := g c.imp }

namespace Ip
def idle : Nat := 0
def waitGrant : Nat := 1
def lead : Nat := 2
def window : Nat := 3
def gap : Nat := 4
def paused : Nat := 5
end Ip

/-- The order n of the sequence. -/
def Chip.impOrder (c : Chip) : Nat := c.f R.IMP_CTL F.IMP_CTL_ORDER

/-- CHIP_DIV (R289). -/
def Chip.impDiv (c : Chip) : Nat := c.f R.IMP_CTL F.IMP_CTL_CHIP_DIV

/-- Evaluations in a sequence period: Lp = N × CHIP_DIV (R289). -/
def Chip.impLp (c : Chip) : Nat := (2 ^ c.impOrder - 1) * c.impDiv

/-- The bits whose XOR enters bit 0 for each order (R289): exponents minus one. -/
def impTaps (n : Nat) : List Nat :=
  match n with
  | 7 => [6, 5] | 8 => [7, 5, 4, 3] | 9 => [8, 4] | 10 => [9, 6] | 11 => [10, 8] | 12 => [11, 10, 9, 3]
  | 13 => [12, 11, 10, 7] | 14 => [13, 12, 11, 1] | 15 => [14, 13] | _ => []

/-- The register shifted by one chip (R289). -/
def lfsrNext (n r : Nat) : Nat := (2 * r + ((impTaps n).map fun i => r / 2 ^ i).sum % 2) % 2 ^ n

/-- Whether the probe has a configuration error (R293). -/
def Chip.impBad (c : Chip) : Bool :=
  let n := c.impOrder
  let lp := c.impLp
  let ts := c.rdN R.IMP_TS
  let win := c.f R.IMP_WIN F.IMP_WIN_PERIODS * lp * ts
  let amp := c.f R.IMP_AMP F.IMP_AMP_AMP
  Decidable.decide (n < 7) || Decidable.decide (15 < n) || Decidable.decide (win < 50000000)
    || Decidable.decide (400000000 < win) || Decidable.decide (amp < 66) || Decidable.decide (1310 < amp)
    || (List.range 16).any fun k =>
      let line := c.f (R.IMP_BIN k) F.IMP_BIN_LINE
      c.is (R.IMP_BIN k) F.IMP_BIN_EN &&
        (Decidable.decide (line < 1) || Decidable.decide (2 ^ n - 1 ≤ line)
          || Decidable.decide (line * 1000000000 < 20 * lp * ts) || Decidable.decide (2500 * lp * ts < line * 1000000000))

/-- STAT.PHASE takes `p`. -/
def Chip.impPhase (c : Chip) (p : Nat) : Chip := c.setF R.IMP_STAT F.IMP_STAT_PHASE p

/-- The phase now. -/
def Chip.impPh (c : Chip) : Nat := c.f R.IMP_STAT F.IMP_STAT_PHASE

/-- The probe's configuration is judged as it is enabled and at each evaluation (R268): an error is marked and changes nothing else
(R293). -/
def Chip.impJudge (c : Chip) : Chip :=
  let bad := c.impBad
  (c.flag R.IMP_STAT F.IMP_STAT_CFG_ERR bad).raiseIf (bad && !c.is R.IMP_STAT F.IMP_STAT_CFG_ERR) P.IMP 4

/-- The probe follows its enable bit (R267); results that are due still come (R292). -/
def Chip.impMark (c : Chip) : Chip :=
  let en := c.is R.IMP_CTL F.IMP_CTL_EN
  if en = c.imp.en then c
  else if en then (c.updImp fun x => { x with en := true }).impJudge
  else ((c.updImp fun x => { due := x.due, reqs := x.reqs, pads := x.pads, grant := x.grant, more := x.more }).impPhase
    Ip.idle).flag R.IMP_STAT F.IMP_STAT_CFG_ERR false

/-- An injection begins (R289, R290): the register all ones, and the lead where WIN.LEAD asks for one. -/
def Chip.impBegin (c : Chip) : Chip :=
  (c.updImp fun x => { x with
    lfsr := 2 ^ c.impOrder - 1, pos := 0, per := 0, sums := List.replicate 16 {}, stop := false }).impPhase
    (if c.f R.IMP_WIN F.IMP_WIN_LEAD = 0 then Ip.window else Ip.lead)

/-- Zero, or a chip of sign `z`, to OUT (R289, R290). -/
def Chip.impOut (c : Chip) (z : Int) : Chip :=
  let a := ((F64.ofInt (z * c.f R.IMP_AMP F.IMP_AMP_AMP)).mul (wordF (c.rd R.IMP_INOM))).mul ⟨1, -16⟩
  c.putOwn Cl.imp (c.f R.IMP_CTL F.IMP_CTL_OUT) (a.slot ((Config.impOutExp % 64 : Nat) - 32)).word

/-- The bins accumulate the samples `v` and `i` at evaluation `m` of the period (R291). -/
def Chip.impAcc (c : Chip) (v i : F64) : Chip :=
  let lp := c.impLp
  let m := c.imp.pos
  let sums := (List.range 16).map fun b =>
    let x := nth c.imp.sums b {}
    if c.is (R.IMP_BIN b) F.IMP_BIN_EN then
      let (co, si) := cosSin (c.f (R.IMP_BIN b) F.IMP_BIN_LINE * m % lp) lp
      { vr := x.vr.add (v.mul co), vi := x.vi.sub (v.mul si), ir := x.ir.add (i.mul co), ii := x.ii.sub (i.mul si) : ImpSum }
    else x
  c.updImp fun x => { x with sums := sums }

/-- The window is complete: its results are due on the registers as they stand, and what follows depends on the mode (R290). -/
def Chip.impWindowEnd (c : Chip) : Chip :=
  let lw := c.f R.IMP_WIN F.IMP_WIN_PERIODS * c.impLp
  let par := c.regsIn R.IMP_CTL (R.IMP_BIN 16)
  let c : Chip := c.updImp fun x => { x with due := some (x.sums, lw, par), sums := List.replicate 16 {}, per := 0 }
  match c.f R.IMP_CTL F.IMP_CTL_MODE with
  | 1 =>
    let g := c.f R.IMP_WIN F.IMP_WIN_GAP
    if g = 0 then c else (c.updImp fun x => { x with gap := g }).impPhase Ip.gap
  | 2 => match c.imp.grant with
    | some g => if g.watch then c else (c.updImp fun x => { x with once := false }).impPhase Ip.idle
    | none => c.impPhase Ip.idle
  | _ => c.impPhase Ip.idle

/-- Whether the present chip is +1 (R289); for an order without a polynomial and for no evaluations per chip the spec states no
sequence, and the sign is open (log entry 136, DESIGN CHOICE). -/
def Chip.impSign (c : Chip) : Bool × Chip :=
  if impTaps c.impOrder = [] ∨ c.impDiv = 0 then c.freeB else (nbit c.imp.lfsr (c.impOrder - 1), c)

/-- One evaluation of the probe on the slots as `c0` holds them (R289 to R291); with a STALE input it holds where it is (R269). -/
def Chip.impEval (c c0 : Chip) : Chip :=
  let c : Chip := c.impJudge
  let wv := c0.slot (c.f R.IMP_IN F.IMP_IN_V_IN)
  let wi := c0.slot (c.f R.IMP_IN F.IMP_IN_I_IN)
  let o := c.f R.IMP_CTL F.IMP_CTL_OUT
  if isStale wv || isStale wi then c.putOwn Cl.imp o (staled (c.slot o))
  else if c.imp.stop then
    ((c.updImp fun x => { x with stop := false, sums := List.replicate 16 {}, once := false }).impPhase Ip.idle).impOut 0
  else if c.impPh = Ip.lead ∨ c.impPh = Ip.window then
    let (plus, c) := c.impSign
    let c : Chip := c.impOut (if plus then 1 else -1)
    let c : Chip := if c.impPh = Ip.window then c.impAcc (wordF wv) (wordF wi) else c
    let pos := c.imp.pos + 1
    let n := c.impOrder
    let c : Chip := c.updImp fun x => { x with
      lfsr := if pos % c.impDiv = 0 then lfsrNext n x.lfsr else x.lfsr,
      pos := if pos = c.impLp then 0 else pos, per := if pos = c.impLp then x.per + 1 else x.per }
    if c.impPh = Ip.lead then
      if c.f R.IMP_WIN F.IMP_WIN_LEAD ≤ c.imp.per then (c.updImp fun x => { x with per := 0 }).impPhase Ip.window else c
    else if c.f R.IMP_WIN F.IMP_WIN_PERIODS ≤ c.imp.per then c.impWindowEnd else c
  else if c.impPh = Ip.gap then
    let c : Chip := (c.updImp fun x => { x with gap := x.gap - 1 }).impOut 0
    if c.imp.gap = 0 then c.impBegin else c
  else c.impOut 0

/-- Bin `k` of a window of `lw` evaluations: Z and 2|I|/Lw; none where I is 0, of which the spec states no quotient. -/
def ImpSum.result (x : ImpSum) (lw : Nat) : Option (F64 × F64) × F64 :=
  let d := (x.ir.mul x.ir).add (x.ii.mul x.ii)
  let mag := ((F64.ofNat 2).mul (F64.hypot x.ir x.ii)).div (F64.ofNat lw)
  (if d.m = 0 then none
   else some ((((x.vr.mul x.ir).add (x.vi.mul x.ii)).div d), (((x.vi.mul x.ir).sub (x.vr.mul x.ii)).div d)), mag)

/-- The results of bin `k` are written, `imin` being the least line current of a valid bin (R291). The quotient by a current of 0 and
the magnitude over a window of no evaluations are open (log entry 136, DESIGN CHOICE). -/
def Chip.impBin (c : Chip) (k : Nat) (x : ImpSum) (lw : Nat) (imin : F64) : Chip :=
  let (z, mag) := x.result lw
  let (open', c) := c.freeW
  let wm := if lw = 0 then open' else (mag.acc.out true (-32)).word
  let stale := (if lw = 0 then wordF open' else mag).lt imin
  let w := fun (v : F64) => { v.acc.out true (-32) with stale := stale }.word
  let c : Chip := c.wr (R.IMP_I_MAG k) wm
  match z with
  | some (re, im) => (c.wr (R.IMP_Z_RE k) (w re)).wr (R.IMP_Z_IM k) (w im)
  | none =>
    let (a, c) := c.freeW
    let (b, c) := c.freeW
    ((c.wr (R.IMP_Z_RE k) a).setBit (R.IMP_Z_RE k) 6 stale |>.wr (R.IMP_Z_IM k) b).setBit (R.IMP_Z_IM k) 6 stale

/-- IMP completes the results of a window (R291, R292, R294), on the registers as they stood at its last evaluation (R268). -/
def doImpWindowDone (c : Chip) : Chip :=
  c.clocked P.IMP fun c =>
    match c.imp.due with
    | none => c
    | some (sums, lw, par) =>
      let v := SMap.get regReset par
      let c : Chip := c.updImp fun x => { x with due := none }
      let on := (List.range 16).filter fun k => fget (v (R.IMP_BIN k)) F.IMP_BIN_EN = 1
      let c : Chip := on.foldl (fun c k => c.impBin k (nth sums k {}) lw (wordF (v R.IMP_IMIN))) c
      let c : Chip :=
        if fget (v R.IMP_CTL) F.IMP_CTL_RES_EN = 1 then
          let r := fget (v R.IMP_RES) F.IMP_RES_RES
          (c.putOwn Cl.imp r (c.rd (R.IMP_Z_RE 0))).putOwn Cl.imp ((r + 1) % 1024) (c.rd (R.IMP_Z_IM 0))
        else c
      let c : Chip := c.incWrap R.IMP_STAT F.IMP_STAT_WINDOWS
      let valid := on.filter fun k =>
        nbit (fget (v R.IMP_ISL_CFG) F.IMP_ISL_CFG_BIN_MASK) k && !isStale (c.rd (R.IMP_Z_RE k))
      let zth := wordF (v R.IMP_ZTH)
      let high := valid.filter fun k =>
        match ((nth sums k {}).result lw).1 with
        | some (re, im) => zth.le (F64.hypot re im)
        | none => zth.le (F64.hypot (wordF (c.rd (R.IMP_Z_RE k))) (wordF (c.rd (R.IMP_Z_IM k))))
      let need := fget (v R.IMP_ISL_CFG) F.IMP_ISL_CFG_NEED
      let c : Chip := if need ≤ high.length then c.incSat R.IMP_STAT F.IMP_STAT_CONSEC_NOW
        else c.setF R.IMP_STAT F.IMP_STAT_CONSEC_NOW 0
      let c : Chip :=
        if fget (v R.IMP_ISL_CFG) F.IMP_ISL_CFG_CONSEC ≤ c.f R.IMP_STAT F.IMP_STAT_CONSEC_NOW
            ∧ need ≤ high.length ∧ ¬ c.is R.IMP_STAT F.IMP_STAT_ISLAND then
          (c.flag R.IMP_STAT F.IMP_STAT_ISLAND true).raise P.IMP 1
        else c
      c.raise P.IMP 0

/-- Length of the lead and window in ns. -/
def Chip.impLen (c : Chip) : Nat :=
  (c.f R.IMP_WIN F.IMP_WIN_LEAD + c.f R.IMP_WIN F.IMP_WIN_PERIODS) * c.impLp * c.rdN R.IMP_TS

/-- The bellwether queues a request (R296). -/
def Chip.impQueue (c : Chip) (p member len : Nat) : Chip :=
  if c.is R.MUS_STAT F.MUS_STAT_IS_BW && c.is (R.IMP_PDK p) F.IMP_PDK_EN then
    c.updImp fun x => { x with reqs := x.reqs ++ [(p, member, len)] }
  else c

/-- A message of the probe to `dest`: to this device itself by `here`, else a packet. -/
def Chip.impSend (c : Chip) (kind dest : Nat) (ws : List Nat) (here : Chip → Chip) : Chip :=
  if dest = c.f R.FAB_ID F.FAB_ID_ID then here c else c.send kind 2 0 dest c.ses0 0 ws

/-- IMP.CMD (R303): 1 START, 2 STOP, 3 REQUEST, 4 CLEAR_ISLAND. -/
def Chip.impCmd (c : Chip) (op i : Nat) : Chip :=
  let on := c.is R.IMP_CTL F.IMP_CTL_EN
  let herd := c.f R.IMP_CTL F.IMP_CTL_MODE = 2
  let pdk := c.f R.IMP_HERD F.IMP_HERD_PADDOCK
  match op with
  | 1 =>
    if !on then c.refuse R.IMP_CMD i
    else if c.impPh ≠ Ip.idle then c
    else if herd then c.impPhase Ip.waitGrant else c.impBegin
  | 2 => if c.impPh = Ip.idle then c else c.updImp fun x => { x with stop := true }
  | 3 =>
    if !on || !herd then c.refuse R.IMP_CMD i
    else
      let me := c.f R.FAB_ID F.FAB_ID_ID
      let c : Chip := if c.impPh = Ip.idle then (c.updImp fun x => { x with once := true }).impPhase Ip.waitGrant else c
      c.impSend 0x16 (c.f R.MUS_BW F.MUS_BW_ID) (pdk :: words64 c.impLen) fun c => c.impQueue pdk me c.impLen
  | 4 => c.flag R.IMP_STAT F.IMP_STAT_ISLAND false
  | _ => c.refuse R.IMP_CMD i

/-- IMP.CMD START (R303). -/
def doImpStart (w : Writer) (key : BitVec 16) (c : Chip) : Chip :=
  c.cmd R.IMP_CMD w key fun c => c.impCmd 1 w.ini.code
/-- IMP.CMD STOP (R303). -/
def doImpStop (w : Writer) (key : BitVec 16) (c : Chip) : Chip :=
  c.cmd R.IMP_CMD w key fun c => c.impCmd 2 w.ini.code
/-- IMP.CMD REQUEST (R296). -/
def doImpRequest (w : Writer) (key : BitVec 16) (c : Chip) : Chip :=
  c.cmd R.IMP_CMD w key fun c => c.impCmd 3 w.ini.code
/-- IMP.CMD CLEAR_ISLAND (R294). -/
def doImpClearIsland (w : Writer) (key : BitVec 16) (c : Chip) : Chip :=
  c.cmd R.IMP_CMD w key fun c => c.impCmd 4 w.ini.code

/-- A PROBE_REQ reaches the bellwether (R296, R459). -/
def Chip.probeReqTake (c : Chip) (p : Packet) : Chip := (c.impQueue (p.w 0 % 256) p.src.toNat (p.w64 1)).lapFab 5 p

/-- PROBE_REQ_RX (R296). -/
def doProbeReqRx (p : Packet) (c : Chip) : Chip := c.consume p fun c => c.probeReqTake p

/-- The member holds the grants `l`, in their order, none of them started; GRANT shows the first. -/
def Chip.holdGrants (c : Chip) (l : List Grant) : Chip :=
  let c : Chip := c.updImp fun x => { x with grant := l.head?, more := l.tail, inGrant := false }
  match l with
  | g :: _ => c.wr64 (R.IMP_GRANT 0) g.start
  | [] => c

/-- A grant reaches a member (R297): late, it is discarded and counted; else it is held, after the one held or under way. -/
def Chip.impGranted (c : Chip) (g : Grant) : Chip :=
  if g.start < c.htNs then (c.countSat R.IMP_GRANT_LATE).raise P.IMP 3
  else
    let c : Chip := c.flag R.IMP_STAT F.IMP_STAT_WATCH g.watch
    if c.imp.grant.isSome then c.updImp fun x => { x with more := x.more ++ [g] } else c.holdGrants [g]

/-- PROBE_GRANT at a member (R297, R459). -/
def Chip.probeGrantTake (c : Chip) (p : Packet) : Chip :=
  (if p.w 1 % 2 ^ 15 = c.f R.FAB_ID F.FAB_ID_ID then c.impGranted ⟨p.w64 2, p.w64 4, nbit (p.w 0) 31⟩ else c).lapFab 5 p

/-- PROBE_GRANT_RX (R297). -/
def doProbeGrantRx (p : Packet) (c : Chip) : Chip := c.consume p fun c => c.probeGrantTake p

/-- The schedule of paddock `p`. -/
def Chip.paddock (c : Chip) (p : Nat) : Paddock :=
  match c.imp.pads.find? fun x => x.pdk = p with
  | some x => x
  | none => { pdk := p, stop := 0, watchRun := 0, foreign := false }

/-- The schedule of a paddock becomes `s`. -/
def Chip.putPaddock (c : Chip) (s : Paddock) : Chip :=
  c.updImp fun x => { x with pads := (x.pads.filter fun q => q.pdk ≠ s.pdk) ++ [s] }

/-- The bellwether grants injection time in paddock `p` at a window boundary of its watch member (R296): to the oldest
request where RATIO − 1 watch windows have passed since the last foreign grant, else to the watch member, whose window
lasts `len`. The interval starts at `at` or, if that is later, GAP_US after the last one ended. -/
def doProbeGrantIssue (p : Fin 256) (at' len : BitVec 64) (c : Chip) : Chip :=
  c.clocked P.IMP fun c =>
    if !c.is R.MUS_STAT F.MUS_STAT_IS_BW || !c.is (R.IMP_PDK p) F.IMP_PDK_EN then c
    else
      let s := c.paddock p
      let watch := c.f (R.IMP_PDK p) F.IMP_PDK_WATCH
      let start := if s.stop = 0 then at'.toNat else max at'.toNat (s.stop + 1000 * c.f R.IMP_HERD F.IMP_HERD_GAP_US)
      let may := !s.foreign || Decidable.decide (c.f R.IMP_HERD F.IMP_HERD_RATIO ≤ s.watchRun + 1) || Decidable.decide (watch = 0)
      let give := fun (c : Chip) (id l : Nat) (w : Bool) (s' : Paddock) =>
        let stop := start + l
        let c : Chip := c.putPaddock { s' with stop := stop, opened := s'.opened ++ [id] }
        c.impSend 0x17 id ([p.val + b2n w * 2 ^ 31, id] ++ words64 start ++ words64 stop) fun c =>
          c.impGranted ⟨start, stop, w⟩
      match (if may then c.imp.reqs.find? fun q => q.1 = p.val else none) with
      | some q =>
        let c : Chip := c.updImp fun x => { x with reqs := x.reqs.erase q }
        give c q.2.1 q.2.2 false { s with watchRun := 0, foreign := true }
      | none => if watch = 0 then c else give c watch len.toNat true { s with watchRun := s.watchRun + 1 }

/-- The oldest granted interval of member `m` in paddock `n` is over; where it is the last one granted, the next may start from now on
(R296; log entry 142, DEDUCED). -/
def Chip.probeEnded (c : Chip) (n m : Nat) : Chip :=
  let s := c.paddock n
  let last := Decidable.decide (s.opened.idxOf m + 1 = s.opened.length)
  if c.is R.MUS_STAT F.MUS_STAT_IS_BW then
    c.putPaddock { s with stop := if last then min s.stop c.htNs else s.stop, opened := s.opened.erase m }
  else c

/-- PROBE_END at the bellwether (R459). -/
def Chip.probeEndTake (c : Chip) (p : Packet) : Chip := (c.probeEnded (p.w 0 % 256) (p.w 1 % 2 ^ 15)).lapFab 5 p

/-- PROBE_END_RX (R459). -/
def doProbeEndRx (p : Packet) (c : Chip) : Chip := c.consume p fun c => c.probeEndTake p

/-- Grants held that ended by herd time `t` without an injection are dropped. -/
def Chip.dropGrants (c : Chip) (t : Nat) : Chip :=
  match c.imp.grant with
  | some g =>
    if !c.imp.inGrant && Decidable.decide (g.stop ≤ t) then
      c.holdGrants (c.imp.more.dropWhile fun q => Decidable.decide (q.stop ≤ t))
    else c
  | none => c

/-- The first trigger at or after the grant's start begins the injection (R297). -/
def doGrantStart (c : Chip) : Chip :=
  c.clocked P.IMP fun c =>
    let t := (c.grp (c.f R.IMP_CTL F.IMP_CTL_RG)).trigHt
    let c : Chip := c.dropGrants t
    match c.imp.grant with
    | some g =>
      if !c.imp.inGrant && c.is R.IMP_CTL F.IMP_CTL_EN && Decidable.decide (g.start ≤ t) && Decidable.decide (t < g.stop)
          && (Decidable.decide (c.impPh = Ip.waitGrant) || Decidable.decide (c.impPh = Ip.paused)) then
        ((c.updImp fun x => { x with inGrant := true }).impBegin).raise P.IMP 2
      else c
    | none => c

/-- From the first evaluation whose trigger lies at or after the grant's end, zero is written to OUT (R297); the bellwether
learns the end. -/
def doGrantEnd (c : Chip) : Chip :=
  c.clocked P.IMP fun c =>
    match c.imp.grant with
    | some g =>
      let t := (c.grp (c.f R.IMP_CTL F.IMP_CTL_RG)).trigHt
      if c.imp.inGrant && Decidable.decide (g.stop ≤ t) then
        let next := if g.watch then Ip.paused else if c.imp.once then Ip.waitGrant else Ip.idle
        let pdk := c.f R.IMP_HERD F.IMP_HERD_PADDOCK
        let me := c.f R.FAB_ID F.FAB_ID_ID
        let c : Chip := ((c.holdGrants c.imp.more).impPhase next).impOut 0
        c.impSend 0x18 (c.f R.MUS_BW F.MUS_BW_ID) [pdk, me] fun c => c.probeEnded pdk me
      else c
    | none => c

/-! ### What follows a change of their registers, and a completed evaluation -/

/-- Claims and checks of every unit follow the registers. -/
def Chip.follow (c : Chip) : Chip := ((((c.claims.rgEnable).bptMark).hrdMark).islMark).impMark

/-- BPT.CMD HOLD (R257). -/
def doBptHold (w : Writer) (key : BitVec 16) (ch : Fin 4) (c : Chip) : Chip :=
  c.cmd R.BPT_CMD w key fun c => c.bptCmd ch 1 w.ini.code
/-- BPT.CMD RELEASE (R257). -/
def doBptRelease (w : Writer) (key : BitVec 16) (ch : Fin 4) (c : Chip) : Chip :=
  c.cmd R.BPT_CMD w key fun c => c.bptCmd ch 2 w.ini.code
/-- BPT.CMD RESTART (R257). -/
def doBptRestart (w : Writer) (key : BitVec 16) (ch : Fin 4) (c : Chip) : Chip :=
  c.cmd R.BPT_CMD w key fun c => c.bptCmd ch 3 w.ini.code

/-- Whether the Hurdle unit (`r` its control register and `f` its fields), the detectors or the probe are enabled on group `g`. -/
def Chip.unitOn (c : Chip) (r : Nat) (en rg : Fld) (g : Nat) : Bool := c.is r en && Decidable.decide (c.f r rg = g)

/-- The slots that the units bound to group `g` read as it completes an evaluation. -/
def Chip.unitReads (c : Chip) (g : Nat) : List Nat :=
  ((List.range 4).filter (c.bptOn g)).flatMap (fun k =>
      [c.f (R.BPT_CH_SLOTS0 k) F.BPT_CH_SLOTS0_IN_A] ++
      (if c.bptMode k < 2 then [c.f (R.BPT_CH_SLOTS0 k) F.BPT_CH_SLOTS0_IN_B] else []) ++
      (if c.is (R.BPT_CH_CFG k) F.BPT_CH_CFG_PLIM_EN then [c.f (R.BPT_CH_SLOTS1 k) F.BPT_CH_SLOTS1_PLIM] else [])) ++
    (if c.unitOn R.HRD_CTL F.HRD_CTL_EN F.HRD_CTL_RG g then c.hrdReads else []) ++
    (if c.unitOn R.ISL_CTL F.ISL_CTL_EN F.ISL_CTL_RG g then
      [c.f R.ISL_IN0 F.ISL_IN0_OMEGA, c.f R.ISL_IN0 F.ISL_IN0_THETA] ++ c.islVolts else []) ++
    (if c.unitOn R.IMP_CTL F.IMP_CTL_EN F.IMP_CTL_RG g then [c.f R.IMP_IN F.IMP_IN_V_IN, c.f R.IMP_IN F.IMP_IN_I_IN] else [])

/-- The units bound to group `g` act on its completed evaluation (R249, R264, R265). Each reads the slots as `c0` holds them, before any of
them writes. -/
def Chip.unitsTick (c c0 : Chip) (g t : Nat) : Chip :=
  let c : Chip := c.bptTick c0 g
  let c : Chip :=
    if c.unitOn R.HRD_CTL F.HRD_CTL_EN F.HRD_CTL_RG g then
      let c : Chip := c.hrdJudge
      if c.hrd.run then c.hrdEval c0 t else c
    else c
  let c : Chip := if c.unitOn R.ISL_CTL F.ISL_CTL_EN F.ISL_CTL_RG g then c.islEval c0 else c
  if c.unitOn R.IMP_CTL F.IMP_CTL_EN F.IMP_CTL_RG g then c.impEval c0 else c

/-- Group `g`'s evaluation completes `cycles` CK_SYS cycles after its dispatch (R217, R220), and the units bound to it
act; `ecc` is what ECC finds in a slot that one of them reads (R213), which then reads as zero with STALE. -/
def doRgComplete (g : Fin 8) (cycles : BitVec 16) (ecc : EccError) (c : Chip) : Chip :=
  c.clocked P.STR fun c =>
    if c.evalOver g then
      let t := (c.grp g).trigHt
      let c : Chip := c.rgDone g cycles.toNat
      let (c, lost) := c.eccSlots (c.unitReads g) ecc
      let c0 : Chip := match lost with | some k => c.wr (Key.slot k) (regReset (Key.slot k)) | none => c
      c.unitsTick c0 g t
    else c

/-! ### The commands -/

/-- HRD_HOLD_TIMER_EXPIRY (R274). -/
def execHrdHoldTimerExpiry (block : Bool) (s : State) : Host.Outcome State Fault Refusal :=
  .next (s.onChip (doHrdHoldTimerExpiry block))
/-- HRD_CLEAR_TRIP (R277). -/
def execHrdClearTrip (w : Writer) (key : BitVec 16) (s : State) : Host.Outcome State Fault Refusal :=
  .next (s.onChip (doHrdClearTrip w key))
/-- HRD_CLEAR_STATS (R299). -/
def execHrdClearStats (w : Writer) (key : BitVec 16) (s : State) : Host.Outcome State Fault Refusal :=
  .next (s.onChip (doHrdClearStats w key))
/-- ISL_ENTRY_HIT (R284). -/
def execIslEntryHit (vt : Bool) (k : Fin 8) (s : State) : Host.Outcome State Fault Refusal :=
  .next (s.onChip (doIslEntryHit vt k))
/-- ISL_CLEAR (R287). -/
def execIslClear (w : Writer) (key : BitVec 16) (s : State) : Host.Outcome State Fault Refusal :=
  .next (s.onChip (doIslClear w key))
/-- RTS_TIMER (R288). -/
def execRtsTimer (s : State) : Host.Outcome State Fault Refusal :=
  .next (s.onChip doRtsTimer)
/-- IMP_WINDOW_DONE (R292). -/
def execImpWindowDone (s : State) : Host.Outcome State Fault Refusal :=
  .next (s.onChip doImpWindowDone)
/-- IMP_START (R303). -/
def execImpStart (w : Writer) (key : BitVec 16) (s : State) : Host.Outcome State Fault Refusal :=
  .next (s.onChip (doImpStart w key))
/-- IMP_STOP (R303). -/
def execImpStop (w : Writer) (key : BitVec 16) (s : State) : Host.Outcome State Fault Refusal :=
  .next (s.onChip (doImpStop w key))
/-- IMP_REQUEST (R296). -/
def execImpRequest (w : Writer) (key : BitVec 16) (s : State) : Host.Outcome State Fault Refusal :=
  .next (s.onChip (doImpRequest w key))
/-- IMP_CLEAR_ISLAND (R294). -/
def execImpClearIsland (w : Writer) (key : BitVec 16) (s : State) : Host.Outcome State Fault Refusal :=
  .next (s.onChip (doImpClearIsland w key))
/-- PROBE_REQ_RX (R296). -/
def execProbeReqRx (p : Packet) (s : State) : Host.Outcome State Fault Refusal :=
  .next (s.onChip (doProbeReqRx p))
/-- PROBE_GRANT_RX (R297). -/
def execProbeGrantRx (p : Packet) (s : State) : Host.Outcome State Fault Refusal :=
  .next (s.onChip (doProbeGrantRx p))
/-- PROBE_GRANT_ISSUE (R296). -/
def execProbeGrantIssue (p : Fin 256) (start : BitVec 64) (len : BitVec 64)
    (s : State) : Host.Outcome State Fault Refusal :=
  .next (s.onChip (doProbeGrantIssue p start len))
/-- PROBE_END_RX (R459). -/
def execProbeEndRx (p : Packet) (s : State) : Host.Outcome State Fault Refusal :=
  .next (s.onChip (doProbeEndRx p))
/-- GRANT_START (R297). -/
def execGrantStart (s : State) : Host.Outcome State Fault Refusal :=
  .next (s.onChip doGrantStart)
/-- GRANT_END (R297). -/
def execGrantEnd (s : State) : Host.Outcome State Fault Refusal :=
  .next (s.onChip doGrantEnd)
/-- BPT_HOLD (R257). -/
def execBptHold (w : Writer) (key : BitVec 16) (ch : Fin 4) (s : State) : Host.Outcome State Fault Refusal :=
  .next (s.onChip (doBptHold w key ch))
/-- BPT_RELEASE (R257). -/
def execBptRelease (w : Writer) (key : BitVec 16) (ch : Fin 4) (s : State) : Host.Outcome State Fault Refusal :=
  .next (s.onChip (doBptRelease w key ch))
/-- BPT_RESTART (R257). -/
def execBptRestart (w : Writer) (key : BitVec 16) (ch : Fin 4) (s : State) : Host.Outcome State Fault Refusal :=
  .next (s.onChip (doBptRestart w key ch))
/-- RG_COMPLETE (R217). -/
def execRgComplete (g : Fin 8) (cycles : BitVec 16) (ecc : EccError) (s : State) : Host.Outcome State Fault Refusal :=
  .next (s.onChip (doRgComplete g cycles ecc))

end Sys2Proof.Machine
end

