-- ==== Sys2Proof/Machine/Pwm.lean ====
section
/-!
DEFINITION. PWM timebases and channels, the output mask and the trip block (*PWM Timebases and Channels*, R305 to R354), and
the output ports of the Stride engine that write them (R227 to R229). Instants within a period are counted in codes of
78.125 ps from the period start.
-/
namespace Sys2Proof.Machine
open Sys2Proof

/-! ### Timebases and codes -/

/-- Codes of 78.125 ps in one unit of timebase `n`'s codes (R306). -/
def Chip.tbUnit (c : Chip) (n : Nat) : Nat := if c.is (R.PWT_TB_CFG n) F.PWT_TB_CFG_RES then 32 else 1

/-- Whether timebase `n` counts up and down. -/
def Chip.tbUd (c : Chip) (n : Nat) : Bool := c.is (R.PWT_TB_CFG n) F.PWT_TB_CFG_MODE

/-- The active period code of timebase `n`. -/
def Chip.tbPer (c : Chip) (n : Nat) : Nat := c.rdN (R.PWT_TB_PER_ACT n)

/-- A nominal period of timebase `n` in codes of 78.125 ps (R308). -/
def Chip.tbNominal (c : Chip) (n : Nat) : Nat := (if c.tbUd n then 2 else 1) * c.tbPer n * c.tbUnit n

/-- The owner of timebase `n`. -/
def Chip.tbOwner (c : Chip) (n : Nat) : Nat := c.f (R.PWT_TB_CFG n) F.PWT_TB_CFG_OWNER

/-- The channels bound to timebase `n`. -/
def Chip.tbChs (c : Chip) (n : Nat) : List Nat := (List.range 16).filter fun k => c.chTb k = n

/-- A change of every channel of timebase `n`. -/
def Chip.eachCh (c : Chip) (n : Nat) (g : Nat → Chip → Chip) : Chip := (c.tbChs n).foldl (fun c k => g k c) c

/-- Whether timebase `n` has a configuration error (R312). -/
def Chip.tbBad (c : Chip) (n : Nat) : Bool :=
  let r := c.f (R.PWT_TB_CFG n) F.PWT_TB_CFG_RELOAD
  decide (c.chTb (c.tbOwner n) ≠ n) || decide (r = 3) || (!c.tbUd n && decide (r ≠ 0))

/-- Timebase `n` takes period code `v`, clamped (R307). -/
def Chip.tbLoad (c : Chip) (n v : Nat) : Chip :=
  let coarse := c.is (R.PWT_TB_CFG n) F.PWT_TB_CFG_RES
  let k := if c.tbUd n then 1 else 2
  let lo := if coarse then 400 * k else 12800 * k
  let hi := if coarse then 200000000 * k else 0xFFFFFFFE
  let w := max lo (min hi v)
  let c : Chip := c.wrN (R.PWT_TB_PER_ACT n) w
  if w = v then c else (c.flag (R.PWT_TB_STAT n) F.PWT_TB_STAT_PER_CLAMP true).raise P.PWT 13

/-- The instant, in codes from the period start, at which the CK_PER cycle `d` cycles after the present one starts. -/
def Chip.tbPos (c : Chip) (n d : Nat) : Int := 32 * ((c.rdN (R.PWT_TB_CNT n) + d : Nat) : Int) - (c.tb n).fine

/-! ### Compare stage (R318 to R321) -/

/-- Compare codes in force. -/
def Chip.actA (c : Chip) (k : Nat) : Nat := c.rdN (R.PWMC_ACT k 0)
def Chip.actB (c : Chip) (k : Nat) : Nat := c.rdN (R.PWMC_ACT k 1)

/-- Whether channel `k` is in mode ASYM. -/
def Chip.chAsym (c : Chip) (k : Nat) : Bool := c.is (R.PWMC_CFG k) F.PWMC_CFG_MODE

/-- The code that governs the down half of channel `k`. -/
def Chip.downCode (c : Chip) (k : Nat) : Nat := if c.chAsym k then c.actB k else c.actA k

/-- The compare state at the first position of a period, or of the down half (R319). -/
def Chip.segLevel (c : Chip) (k : Nat) (down : Bool) : Bool :=
  if down then decide (c.tbPer (c.chTb k) < c.downCode k)
  else if c.tbUd (c.chTb k) || !c.chAsym k then decide (0 < c.actA k)
  else decide (c.actB k = 0) && decide (0 < c.actA k)

/-- The edges of one period of channel `k` that R319 places: instants in codes from the period start, with the level each
gives; `half` is the instant of the peak. -/
def Chip.chEdges (c : Chip) (k : Nat) (half : Int) : List (Int × Bool) :=
  let tb := c.chTb k
  let per := c.tbPer tb
  let u := c.tbUnit tb
  let inside := fun x => decide (0 < x) && decide (x < per)
  let at' := fun (x : Nat) => (((x * u : Nat) : Int))
  let a := c.actA k
  let b := c.actB k
  if c.tbUd tb then
    let d := c.downCode k
    (if inside a then [(at' a, false)] else []) ++ (if inside d then [(half + at' (per - d), true)] else [])
  else if c.chAsym k then
    if a ≤ b then [] else (if inside b then [(at' b, true)] else []) ++ (if inside a then [(at' a, false)] else [])
  else if inside a then [(at' a, false)] else []

/-- The compare state that the codes in force give up to instant `t` of the present segment: an edge at `t` itself is still to come (R335). -/
def Chip.levelAt (c : Chip) (k : Nat) (t : Int) : Bool :=
  let tb := c.chTb k
  let u : Int := c.tbUnit tb
  if c.is (R.PWT_TB_STAT tb) F.PWT_TB_STAT_DOWN then
    let d := c.downCode k
    decide (((c.tbPer tb : Nat) : Int) * u - (t - (c.tb tb).half) < (d : Int) * u)
  else if c.tbUd tb || !c.chAsym k then decide (t ≤ (c.actA k : Int) * u)
  else decide ((c.actB k : Int) * u < t) && decide (t ≤ (c.actA k : Int) * u)

/-- What the compare state of channel `k` changes to, and when, in this period and the two after it if nothing changes
(R338). -/
def Chip.schedule (c : Chip) (k : Nat) : List (Int × Bool) :=
  let tb := c.chTb k
  let x := c.tb tb
  let nom : Int := c.tbNominal tb
  let halfN : Int := if c.tbUd tb then nom / 2 else nom
  let one := fun (s half : Int) =>
    let e := c.chEdges k half
    let up := e.filter fun q => q.1 < half
    let dn := e.filter fun q => half ≤ q.1
    ((0, c.segLevel k false) :: up ++ (if c.tbUd tb then (half, c.segLevel k true) :: dn else dn)).map fun q => (s + q.1, q.2)
  one 0 x.half ++ one x.len halfN ++ one (x.len + nom) halfN

/-- The instant of the next change of the GH request of channel `k` away from `lvl` after `t`. -/
def Chip.nextOpp (c : Chip) (k : Nat) (t : Int) (lvl : Bool) : Option Int :=
  let pol := c.is (R.PWMC_CFG k) F.PWMC_CFG_POL
  ((c.schedule k).find? fun q => decide (t < q.1) && ((q.2 != pol) != lvl)).map (·.1)

/-! ### Minimum pulse (R338, R339) -/

/-- m in codes. -/
def Chip.minPulse (c : Chip) (k : Nat) : Int := 32 * c.f (R.PWMC_MINPW k) F.PWMC_MINPW_MINPW

/-- A pulse of channel `k` was suppressed or stretched. -/
def Chip.minpwSeen (c : Chip) (k : Nat) : Chip :=
  let c : Chip := (c.setBit R.PWT_MINPW_CH k true).flag (R.PWMC_STAT k) F.PWMC_STAT_MINPW_SEEN true
  (c.raise P.PWT 10).raise (P.PWMC k) 2

/-- The GH request of channel `k` takes level `lvl` at instant `t`. -/
def Chip.reqPlace (c : Chip) (k : Nat) (t : Int) (lvl : Bool) : Chip :=
  (c.updCh k fun x => { x with req := lvl, lastEdge := some t, held := none, full := x.full && lvl }).chOut k

/-- The GH request of channel `k` is due to take level `lvl` at instant `t`, under the minimum-pulse rule. -/
def Chip.reqApply (c : Chip) (k : Nat) (t : Int) (lvl : Bool) : Chip :=
  let x := c.pch k
  let m := c.minPulse k
  if lvl = x.req then c.updCh k fun x => { x with held := none }
  else if m = 0 then c.reqPlace k t lvl
  else if (match x.lastEdge with | some s => decide (t - s < m) | none => false) then
    (c.updCh k fun x => { x with held := some lvl }).minpwSeen k
  else
    let short := match c.nextOpp k t lvl with | some s => decide (s - t < m) | none => false
    if short && !c.is (R.PWMC_CFG k) F.PWMC_CFG_MINPW_POL then c.minpwSeen k else c.reqPlace k t lvl

/-- The codes in force govern channel `k` from instant `t` on, and give it a level there (R335): a change to inactive is made at `t`, a change
to active is not placed before the next segment start (R336, R337). -/
def Chip.immJudge (c : Chip) (k : Nat) (t : Int) : Chip :=
  let pol := c.is (R.PWMC_CFG k) F.PWMC_CFG_POL
  let x := c.pch k
  let now := !x.lateHold && (x.cmp != pol)
  let lvl := c.levelAt k t
  let req := lvl != pol
  let c : Chip := c.updCh k fun x => { x with cmp := lvl, start := t }
  if req = now then c
  else
    let c : Chip := (c.setBit R.PWT_SPLIT_LATE k true).flag (R.PWMC_STAT k) F.PWMC_STAT_LATE_SEEN true
    let c : Chip := (c.raise P.PWT 9).raise (P.PWMC k) 1
    if req then c.updCh k fun x => { x with lateHold := true } else c.reqApply k t false

/-- A segment of channel `k` starts at instant `t` (R319, R336). An immediate write within two cycles before it governs the edges from its own
instant on (R335). -/
def Chip.segStart (c : Chip) (k : Nat) (t : Int) (down : Bool) : Chip :=
  let lvl := c.segLevel k down
  let pol := c.is (R.PWMC_CFG k) F.PWMC_CFG_POL
  let s := (c.pch k).start
  let c : Chip := (c.updCh k fun x => { x with cmp := lvl, lateHold := false, start := t }).reqApply k t (lvl != pol)
  if t < s then c.immJudge k s else c

/-! ### Shadow registers (R326 to R333) -/

/-- The written bits of channel `k`: PERIOD, CMP_A, CMP_B. -/
def Chip.written (c : Chip) (k : Nat) : Bool × Bool × Bool :=
  let s := fun x => c.is (R.PWMC_STAT k) x
  (s F.PWMC_STAT_PER_W, s F.PWMC_STAT_A_W, s F.PWMC_STAT_B_W)

/-- Whether channel `k` owns its timebase. -/
def Chip.isOwner (c : Chip) (k : Nat) : Bool := decide (c.tbOwner (c.chTb k) = k)

/-- The shadow state of channel `k` (R327, R329): 0 EMPTY, 1 PARTIAL, 2 COMPLETE, 3 ARMED. -/
def Chip.shadow (c : Chip) (k : Nat) : Nat :=
  let (p, a, b) := c.written k
  let set := [a] ++ (if c.chAsym k then [b] else []) ++ (if c.isOwner k then [p] else [])
  if (c.pch k).armed then 3 else if set.all id then 2 else if set.any id then 1 else 0

/-- STAT.SHADOW shows it. -/
def Chip.shadowStat (c : Chip) (k : Nat) : Chip := c.setF (R.PWMC_STAT k) F.PWMC_STAT_SHADOW (c.shadow k)

/-- A shadow write: `r` 0 PERIOD, 1 CMP_A, 2 CMP_B (R328). -/
def Chip.shadowWrite (c : Chip) (k r : Nat) (v : Word) : Chip :=
  let c : Chip := match r with
    | 0 => (c.wr (R.PWMC_PERIOD k) v).flag (R.PWMC_STAT k) F.PWMC_STAT_PER_W true
    | 1 => (c.wr (R.PWMC_CMP_A k) v).flag (R.PWMC_STAT k) F.PWMC_STAT_A_W true
    | _ => (c.wr (R.PWMC_CMP_B k) v).flag (R.PWMC_STAT k) F.PWMC_STAT_B_W true
  c.shadowStat k

/-- The written bits and ARMED are cleared. -/
def Chip.shadowClear (c : Chip) (k : Nat) : Chip :=
  let c : Chip := (c.flag (R.PWMC_STAT k) F.PWMC_STAT_PER_W false).flag (R.PWMC_STAT k) F.PWMC_STAT_A_W false
  ((c.flag (R.PWMC_STAT k) F.PWMC_STAT_B_W false).updCh k fun x => { x with armed := false }).shadowStat k

/-- Every written register of channel `k` loads (R329): an owner's PERIOD becomes the active period code. -/
def Chip.shadowLoad (c : Chip) (k : Nat) : Chip :=
  let (p, a, b) := c.written k
  let c : Chip := if a then c.wr (R.PWMC_ACT k 0) (c.rd (R.PWMC_CMP_A k)) else c
  let c : Chip := if b then c.wr (R.PWMC_ACT k 1) (c.rd (R.PWMC_CMP_B k)) else c
  let c : Chip := if p && c.isOwner k then c.tbLoad (c.chTb k) (c.rdN (R.PWMC_PERIOD k)) else c
  c.shadowClear k

/-- What channel `k` does at a reload (R24, R329, R332, R333). -/
def Chip.chReload (c : Chip) (k : Nat) : Chip :=
  let c : Chip := if c.safe.stopping then c.updCh k fun x => { x with stopHold := true } else c
  let c : Chip := if c.is (R.PWMC_CFG k) F.PWMC_CFG_EN then c else c.updCh k fun x => { x with en := false }
  let (p, a, b) := c.written k
  let c : Chip :=
    if !c.is (R.PWMC_CFG k) F.PWMC_CFG_PAIR then if p || a || b then c.shadowLoad k else c
    else match c.shadow k with
      | 0 => c
      | 1 =>
        let c : Chip := (c.setBit R.PWT_SPLIT_LATE (16 + k) true).flag (R.PWMC_STAT k) F.PWMC_STAT_SPLIT_SEEN true
        (c.raise P.PWT 8).raise (P.PWMC k) 0
      | _ => c.shadowLoad k
  c.chOut k

/-- The pending mask index becomes the applied one (R342). -/
def Chip.maskTakes (c : Chip) : Chip :=
  let p := c.f R.MASK_STAT F.MASK_STAT_PENDING
  if p = c.f R.MASK_STAT F.MASK_STAT_INDEX then c
  else ((c.setF R.MASK_STAT F.MASK_STAT_INDEX p).gates).raise P.MASK 0

/-- Where APPLY is 1, a reload of CFG.TB applies the pending mask index (R342). -/
def Chip.maskReload (c : Chip) (n : Nat) : Chip :=
  if c.is R.MASK_CFG F.MASK_CFG_APPLY && decide (c.f R.MASK_CFG F.MASK_CFG_TB = n) && !c.halted P.MASK then c.maskTakes else c

/-- A reload point of timebase `n` (R326): it reloads at every (RLD_DIV + 1)-th. -/
def Chip.tbReload (c : Chip) (n : Nat) : Chip :=
  let p := (c.tb n).points + 1
  let c : Chip := c.updTb n fun x => { x with points := p }
  if p % (c.f (R.PWT_TB_CFG n) F.PWT_TB_CFG_RLD_DIV + 1) = 0 then
    ((c.eachCh n fun k c => c.chReload k).updTb n fun x => { x with reloaded := true }).maskReload n
  else c

/-- PWMC.CMD (R330): ARM and DISCARD bits. -/
def Chip.pwmcCmd (c : Chip) (k : Nat) (arm discard : Bool) : Chip :=
  let (p, a, b) := c.written k
  let c : Chip := if arm && (p || a || b) then (c.updCh k fun x => { x with armed := true }).shadowStat k else c
  if discard then c.shadowClear k else c

/-- PWMC.CMD ARM (R330). -/
def doPwmcArm (w : Writer) (key : BitVec 16) (k : Fin 16) (c : Chip) : Chip :=
  c.cmd (R.PWMC_CMD k) w key fun c => c.pwmcCmd k true false

/-- PWMC.CMD DISCARD (R330). -/
def doPwmcDiscard (w : Writer) (key : BitVec 16) (k : Fin 16) (c : Chip) : Chip :=
  c.cmd (R.PWMC_CMD k) w key fun c => c.pwmcCmd k false true

/-! ### Trip overrides at segment starts (R345) -/

/-- At a segment start of timebase `n`, CYCLE overrides whose input is deasserted and cleared LATCH overrides end on its
channels. -/
def Chip.tripSegment (c : Chip) (n : Nat) : Chip :=
  let chs := ((c.tbChs n).map fun k => 2 ^ k).sum
  forN 16 (fun s c =>
    let x := c.trp s
    if x.held = 0 then c
    else
      let mode := c.f (R.TRIP_SRC_CFG s) F.TRIP_SRC_CFG_MODE
      let free := if mode = 1 then !c.is (R.TRIP_SRC_STAT s) F.TRIP_SRC_STAT_ASSERTED
        else if mode = 2 then x.cleared else true
      if free then
        let h := x.held &&& (0xFFFF ^^^ chs)
        let c : Chip := c.updTrp s fun x => { x with held := h }
        if h = 0 then (c.updTrp s fun x => { x with cleared := false }).flag (R.TRIP_SRC_STAT s) F.TRIP_SRC_STAT_LATCHED false
        else c
      else c) c

/-! ### Herd lock (R313 to R317) -/

/-- One code of 78.125 ps in units of 2^−48 ns. -/
def codeUnit : Int := 5 * 2 ^ 42

/-- The target period starts of timebase `n` in units of 2^−48 ns: the epoch with its offset, and the period. -/
def Chip.hlTarget (c : Chip) (n : Nat) : Int × Int :=
  ((c.rd64 (R.PWT_TB_T0_LO n) : Int) * 2 ^ 48 + c.rdI (R.PWT_TB_OFF n) * codeUnit, (c.tbNominal n : Int) * codeUnit)

/-- How far herd time `t` lies after the nearest target, in units of 2^−48 ns. -/
def Chip.hlError (c : Chip) (n : Nat) (t : Int) : Int :=
  let (s0, p) := c.hlTarget n
  if p = 0 then 0
  else
    let r := (t - s0) % p
    if 2 * r < p then r else r - p

/-- Codes from the present CK_PER edge to the target start within its cycle (a start that waits for its target). -/
def Chip.hlFine (c : Chip) (n : Nat) : Nat :=
  let d := -(c.hlError n c.time.ht) / codeUnit
  if 0 ≤ d ∧ d < 32 then d.toNat else 0

/-- At a period start of a herd-locked timebase: the error is measured and the correction applied to this period (R314,
R315). -/
def Chip.hlCorrect (c : Chip) (n : Nat) : Chip :=
  if !c.is (R.PWT_TB_CFG n) F.PWT_TB_CFG_HL_EN then c
  else
    let e := rhe (c.hlError n (c.time.ht + (c.tb n).fine * codeUnit)) codeUnit.toNat
    let slew : Int := c.f (R.PWT_TB_CFG n) F.PWT_TB_CFG_HL_SLEW
    let corr := clampI (-slew) slew (-e)
    let good := if e.natAbs ≤ 1 then (c.tb n).good + 1 else 0
    let was := c.is (R.PWT_TB_STAT n) F.PWT_TB_STAT_HL_LOCKED
    let c : Chip := c.updTb n fun x => { x with good := good, len := x.len + corr }
    let c : Chip := c.setF (R.PWT_TB_STAT n) F.PWT_TB_STAT_HL_ERR (unsgn 16 (clampI (-32768) 32767 e))
    if 16 ≤ good && !was then (c.flag (R.PWT_TB_STAT n) F.PWT_TB_STAT_HL_LOCKED true).raise P.PWT 11
    else if 64 < e.natAbs && was then (c.flag (R.PWT_TB_STAT n) F.PWT_TB_STAT_HL_LOCKED false).raise P.PWT 12
    else c

/-! ### Starting, stopping, periods -/

/-- A period of timebase `n` starts: counters, correction, segment starts, trip releases, the resume points and notches
of the gate drive, and the period event (R309, R319, R333, R345, R373, R376). -/
def Chip.tbPeriod (c : Chip) (n fine : Nat) (shift : Int) : Chip :=
  let nom := c.tbNominal n
  let c : Chip := c.updTb n fun x => { x with
    fine := fine, len := nom, half := if c.tbUd n then ((c.tbPer n * c.tbUnit n : Nat) : Int) else nom, jump := false }
  let c : Chip := (c.wrN (R.PWT_TB_CNT n) 0).countWrap (R.PWT_TB_PCOUNT n)
  let c : Chip := (c.flag (R.PWT_TB_STAT n) F.PWT_TB_STAT_DOWN false).hlCorrect n
  let c : Chip := c.eachCh n fun k c => c.updCh k fun x => { x with
    en := x.en || c.is (R.PWMC_CFG k) F.PWMC_CFG_EN,
    stopHold := x.stopHold && (!c.running || c.safe.stopping), full := true, lastEdge := x.lastEdge.map (· - shift),
    start := x.start - shift }
  let c : Chip := c.tripSegment n
  let c : Chip := c.eachCh n fun k c => (c.segStart k 0 false).updCh k fun x => { x with full := x.req }
  let c : Chip := c.eachCh n fun k c => c.chOut k
  let c : Chip := c.eachCh n fun k c => (if c.gdiSrc k = 0 then c.gdiResume k else c).gdiNotch k
  (c.raise P.PWT n).xmdPeriod n

/-- Timebase `n` starts (R310): a reload of every channel whatever its pair state, with the owner's PERIOD. A cleared EN takes effect (R333),
a STOP in progress holds the channels (R24), and the time since the stop separates the channels' edges (R339): a start that no target
delays lies in the second cycle after its cause. -/
def Chip.tbStart (c : Chip) (n : Nat) : Chip :=
  let own := c.tbOwner n
  let hl := c.is (R.PWT_TB_CFG n) F.PWT_TB_CFG_HL_EN
  let off : Int := 32 * ((c.time.cyc - (c.tb n).stopped + (if hl then 0 else 2) : Nat) : Int)
  let c : Chip := (c.updTb n fun x => { x with startDue := false, points := 0, good := 0, reloaded := true }).flag
    (R.PWT_TB_STAT n) F.PWT_TB_STAT_RUNNING true
  let c : Chip := c.eachCh n fun k c => (c.updCh k fun x => { x with
    en := x.en && c.is (R.PWMC_CFG k) F.PWMC_CFG_EN, stopHold := x.stopHold || c.safe.stopping }).shadowLoad k
  let c : Chip := (c.tbLoad n (c.rdN (R.PWMC_PERIOD own))).flag (R.PWMC_STAT own) F.PWMC_STAT_PER_W false
  ((c.shadowStat own).tbPeriod n (if hl then c.hlFine n else 0) off).maskReload n

/-- Timebase `n` stops `at'` codes after its last period start (R311, R315). -/
def Chip.tbStop (c : Chip) (n : Nat) (at' : Int) : Chip :=
  let cyc := c.time.cyc
  let c : Chip := (c.flag (R.PWT_TB_STAT n) F.PWT_TB_STAT_RUNNING false).flag (R.PWT_TB_STAT n) F.PWT_TB_STAT_HL_LOCKED false
  let c : Chip := (c.flag (R.PWT_TB_STAT n) F.PWT_TB_STAT_DOWN false).updTb n fun _ => { stopped := cyc }
  c.eachCh n fun k c => (c.updCh k fun x => { x with lastEdge := x.lastEdge.map (· - at'), start := 0, held := none }).chOut k

/-- Timebase `n` follows its RUN bit and configuration (R310 to R312, R315 to R317): a start happens at once, or waits for
a target start where the timebase is herd-locked. -/
def Chip.tbFollow (c : Chip) (n : Nat) : Chip :=
  let run := c.bit R.PWT_CTL n
  let bad := run && c.tbBad n
  let hl := c.is (R.PWT_TB_CFG n) F.PWT_TB_CFG_HL_EN
  let c : Chip := c.flag (R.PWT_TB_STAT n) F.PWT_TB_STAT_CFG_ERR bad
  let newHl := hl && !(c.tb n).hl
  let idle := (c.tbChs n).all fun k => !c.is (R.PWMC_CFG k) F.PWMC_CFG_EN
  let c : Chip := c.updTb n fun x => { x with hl := hl, jump := x.jump || (newHl && c.tbRuns n && (idle || !c.running)) }
  let c : Chip := if hl then c
    else (c.flag (R.PWT_TB_STAT n) F.PWT_TB_STAT_HL_LOCKED false).updTb n fun x => { x with good := 0 }
  if c.tbRuns n then c
  else if run && !bad then
    if hl then c.updTb n fun x => { x with startDue := true } else c.tbStart n
  else c.updTb n fun x => { x with startDue := false }

/-- An asserted source `k` overrides the channels of its mask beyond its assertion under CYCLE, and until a CLEAR under LATCH (R345); the
reserved mode never asserts. -/
def Chip.tripOverride (c : Chip) (k : Nat) : Chip :=
  let mode := c.f (R.TRIP_SRC_CFG k) F.TRIP_SRC_CFG_MODE
  if mode = 0 || !c.is (R.TRIP_SRC_STAT k) F.TRIP_SRC_STAT_ASSERTED then c
  else
    let chs := c.f (R.TRIP_SRC_CFG k) F.TRIP_SRC_CFG_CH
    (c.flag (R.TRIP_SRC_STAT k) F.TRIP_SRC_STAT_LATCHED (decide (mode = 2) || c.is (R.TRIP_SRC_STAT k) F.TRIP_SRC_STAT_LATCHED)).updTrp k
      fun x => { x with held := x.held ||| chs, cleared := false }

/-- Whether trip source `k` names a reserved input or mode (R343, R345). -/
def Chip.tripBad (c : Chip) (k : Nat) : Bool :=
  let s := c.f (R.TRIP_SRC_CFG k) F.TRIP_SRC_CFG_SEL
  decide (s = 0x5F) || decide (0x70 ≤ s) || decide (c.f (R.TRIP_SRC_CFG k) F.TRIP_SRC_CFG_MODE = 3)

/-- Everything of this chapter follows the registers. -/
def Chip.pwmFollow (c : Chip) : Chip :=
  let c : Chip := forN 4 (fun n c => c.tbFollow n) c
  let c : Chip := forN 16 (fun k c =>
    let c : Chip := c.flag (R.TRIP_SRC_STAT k) F.TRIP_SRC_STAT_CFG_ERR (c.tripBad k)
    if !c.is (R.TRIP_SRC_CFG k) F.TRIP_SRC_CFG_EN || c.tripBad k then c.flag (R.TRIP_SRC_STAT k) F.TRIP_SRC_STAT_ASSERTED false
    else c.tripOverride k) c
  let c : Chip := forN 16 (fun k c => c.shadowStat k) c
  c.gates.gdiShoots

/-- A STOP is complete once every running timebase has reloaded (R24): every channel, one of a stopped timebase too, is held off until the
next entry to RUN (R322). -/
def Chip.stopDone (c : Chip) : Chip :=
  if c.safe.stopping && (List.range 4).all fun n => !c.tbRuns n || (c.tb n).reloaded then
    (forN 16 (fun k c => (c.updCh k fun x => { x with stopHold := true }).chOut k) c).enterReady
  else c

/-- Timebase `n` starts a period (R309): full-on reports, a stop, a reload, the period itself. -/
def doPeriodStart (n : Fin 4) (c : Chip) : Chip :=
  c.clocked P.PWT fun c =>
    let c : Chip :=
      if (c.tb n).startDue then c.tbStart n
      else if !c.tbRuns n then c
      else
        let c : Chip := c.eachCh n fun k c =>
          let rep := !c.chHold k
          let full := rep && (c.pch k).full
          let c : Chip := c.flag (R.PWMC_STAT k) F.PWMC_STAT_FULL full
          if rep then c.gdiFull k full else c
        if !c.bit R.PWT_CTL n || c.tbBad n then c.tbStop n (c.tb n).len
        else
          let x := c.tb n
          let fine := if x.jump then c.hlFine n else ((x.fine + x.len) % 32).toNat
          let c : Chip := if c.f (R.PWT_TB_CFG n) F.PWT_TB_CFG_RELOAD = 1 then c else c.tbReload n
          c.tbPeriod n fine x.len
    (c.gdiShoots).stopDone

/-- An UPDOWN timebase enters its down half (R309): a reload where RELOAD names the peak, the down half's length where the
period code changed (R331), segment starts and the peak event. -/
def doPeakEvent (n : Fin 4) (c : Chip) : Chip :=
  c.clocked P.PWT fun c =>
    if c.tbRuns n && c.tbUd n && !c.is (R.PWT_TB_STAT n) F.PWT_TB_STAT_DOWN then
      let old := c.tbPer n
      let c : Chip := if c.f (R.PWT_TB_CFG n) F.PWT_TB_CFG_RELOAD = 0 then c else c.tbReload n
      let c : Chip := c.updTb n fun x => { x with len := x.len + ((c.tbPer n : Int) - old) * c.tbUnit n }
      let c : Chip := (c.flag (R.PWT_TB_STAT n) F.PWT_TB_STAT_DOWN true).tripSegment n
      let c : Chip := c.eachCh n fun k c => (c.segStart k (c.tb n).half true).chOut k
      ((c.raise P.PWT (4 + n.val)).gdiShoots).stopDone
    else c

/-- A placed edge of channel `k` occurs: the compare state becomes `rise` (R319). -/
def doCompareEdge (k : Fin 16) (rise : Bool) (c : Chip) : Chip :=
  c.clocked (P.PWMC k) fun c =>
    let tb := c.chTb k
    let x := c.tb tb
    let down := c.is (R.PWT_TB_STAT tb) F.PWT_TB_STAT_DOWN
    let lo := if down then x.half else 0
    let hi := if c.tbUd tb && !down then x.half else x.len
    match (c.chEdges k x.half).find? fun e =>
        decide (e.2 = rise) && decide (lo < e.1) && decide (e.1 < hi) && decide ((c.pch k).start ≤ e.1) with
    | some e =>
      if c.tbRuns tb && (c.pch k).cmp != rise then
        let c : Chip := c.updCh k fun x => { x with cmp := rise }
        let pol := c.is (R.PWMC_CFG k) F.PWMC_CFG_POL
        (if (c.pch k).lateHold then c else c.reqApply k e.1 (rise != pol)).gdiShoots
      else c
    | none => c

/-- The dead time ends that the GH output (`high`) or the GL output waits for, and the pending rise is made (R323). -/
def doDeadTimeExpiry (k : Fin 16) (high : Bool) (c : Chip) : Chip :=
  c.clocked (P.PWMC k) fun c =>
    ((c.updCh k fun x => if high then { x with dtH := false } else { x with dtL := false }).chOut k).gdiShoots

/-- An edge held by the minimum pulse is placed, m cycles after the last (R339). -/
def doMinpwHoldExpiry (k : Fin 16) (c : Chip) : Chip :=
  c.clocked (P.PWMC k) fun c =>
    match (c.pch k).held with
    | some lvl => (c.reqPlace k (((c.pch k).lastEdge.getD 0) + c.minPulse k) lvl).gdiShoots
    | none => c

/-! ### Immediate updates (R334 to R337) and output ports (R227 to R229) -/

/-- An immediate write of `v` to CMP_A (`isB` false) or CMP_B of channel `k`: it governs the edges from the second cycle on (R335). Where that
lies past the segment's end, no further edge of the segment is placed and the next segment is judged there. -/
def Chip.immWrite (c : Chip) (k : Nat) (isB : Bool) (v : Word) : Chip :=
  let tb := c.chTb k
  let c : Chip := c.wr (R.PWMC_ACT k (b2n isB)) v
  if !c.tbRuns tb then c
  else
    let t := c.tbPos tb 2
    let down := c.is (R.PWT_TB_STAT tb) F.PWT_TB_STAT_DOWN
    let hi := if c.tbUd tb && !down then (c.tb tb).half else (c.tb tb).len
    if hi ≤ t then c.updCh k fun x => { x with start := t } else c.immJudge k t

/-- The code that port word `w` gives (R227). -/
def Chip.portCode (c : Chip) (cfg w : Word) : Nat :=
  let s := Slot.of w
  if fget cfg F.STR_OUT_CFG_CONV = 0 then
    let per := c.tbPer (c.chTb (fget cfg F.STR_OUT_CFG_CH))
    if s.m ≤ 0 then 0
    else if (2 : Int) ^ 64 ≤ fx s.m s.e then 0xFFFFFFFF
    else (clampI 1 0xFFFFFFFE (scaleRhe (s.m * per) (s.e - 23))).toNat
  else (clampI 0 0xFFFFFFFF (scaleRhe s.m (s.e - 23 + sgn 6 (fget cfg F.STR_OUT_CFG_SH)))).toNat

/-- Output port `port` makes its next write (R227 to R229); `lat` is L in CK_SYS cycles. -/
def doOutputPortWrite (port : Fin 48) (lat : BitVec 16) (c : Chip) : Chip :=
  c.clocked P.STR fun c =>
    match c.str.ports.find? fun p => p.port = port.val with
    | none => c
    | some p =>
      let c : Chip := c.updStr fun s => { s with ports := s.ports.erase p }
      let cfg := c.rd (R.STR_OUT_CFG port)
      if fget cfg F.STR_OUT_CFG_EN = 0 || c.portBad port
          || (decide (fget cfg F.STR_OUT_CFG_HOLD_STALE = 1) && isStale p.word) then c
      else
        let k := fget cfg F.STR_OUT_CFG_CH
        let v := wd (c.portCode cfg p.word)
        let reg := fget cfg F.STR_OUT_CFG_REG
        let c : Chip := c.wr64 (R.STR_OUT_STAMP_LO port) c.htNs
        let c : Chip := c.setF (R.STR_OUT_INFO port) F.STR_OUT_INFO_LAT
          (match p.grp with | some _ => min lat.toNat 0xFFFE | none => 0xFFFF)
        let c : Chip := c.setF (R.STR_OUT_INFO port) F.STR_OUT_INFO_EVAL (match p.grp with | some _ => p.eval | none => 0)
        -- REG: 0 CMP_A, 1 CMP_B, 2 PERIOD
        if fget cfg F.STR_OUT_CFG_IMM = 1 && decide (reg < 2) then (c.immWrite k (decide (reg = 1)) v).gdiShoots
        else c.shadowWrite k (match reg with | 0 => 1 | 1 => 2 | _ => 0) v

/-! ### Output mask (R340 to R342) -/

/-- MASK.CMD STEP (R341); `coincident` tells that another step or a SET lands in the same CK_PER cycle, of which this one
is then merged. -/
def doMaskStep (w : Writer) (key : BitVec 16) (coincident : Bool) (c : Chip) : Chip :=
  c.cmd R.MASK_CMD w key fun c => if coincident then c.incSat R.MASK_STAT F.MASK_STAT_MERGED else c.maskStep

/-- MASK.CMD SET (R341). -/
def doMaskSet (w : Writer) (key : BitVec 16) (index : Fin 8) (c : Chip) : Chip :=
  c.cmd R.MASK_CMD w key fun c => c.setF R.MASK_STAT F.MASK_STAT_PENDING index

/-- MASK.CMD as written: SET wins over STEP (R341). -/
def Chip.maskCmd (c : Chip) (v : Word) : Chip :=
  if fget v F.MASK_CMD_SET = 1 then c.setF R.MASK_STAT F.MASK_STAT_PENDING (fget v F.MASK_CMD_INDEX)
  else if fget v F.MASK_CMD_STEP = 1 then c.maskStep else c

/-- The pending index becomes the applied one in the next cycle where APPLY is 0 (R342); where it is 1, a reload of CFG.TB does it. -/
def doMaskApply (c : Chip) : Chip :=
  c.clocked P.MASK fun c => if c.is R.MASK_CFG F.MASK_CFG_APPLY then c else c.maskTakes.gdiShoots

/-! ### Trip block (R343 to R348) -/

/-- The input of trip source `k`, after INV (R343, R344); none for a pin, whose level only the outside knows. -/
def Chip.tripInput (c : Chip) (k : Nat) : Option Bool :=
  let s := c.f (R.TRIP_SRC_CFG k) F.TRIP_SRC_CFG_SEL
  let inv := c.is (R.TRIP_SRC_CFG k) F.TRIP_SRC_CFG_INV
  let v : Option Bool :=
    if s < 0x18 then some (c.xmd s).hi
    else if s < 0x30 then some (c.xmd (s - 0x18)).lo
    else if s < 0x48 then some (c.xmd (s - 0x30)).los
    else if s < 0x58 then some (c.acmp (s - 0x48)).toTrip
    else if s < 0x5C then none
    else if s = 0x5C then some c.hrd.blk
    else if s = 0x5D then some c.isl.blk
    else if s = 0x5E then some (c.is R.TRIP_FORCE F.TRIP_FORCE_SW)
    else if s < 0x60 then some false
    else
      let g := c.gdiState (s - 0x60)
      some (decide (g = Gs.resume) || decide (g = Gs.retryWait) || decide (g = Gs.latched))
  v.map fun b => b != inv

/-- Trip source `k`, filtered and unblanked, is asserted or deasserted (R344 to R347): an assertion overrides its channels, a deassertion ends
a LEVEL override. -/
def Chip.tripTake (c : Chip) (k : Nat) (on : Bool) : Chip :=
  let st := R.TRIP_SRC_STAT k
  if on then
    if c.is (R.TRIP_SRC_CFG k) F.TRIP_SRC_CFG_EN && !c.tripBad k && !c.is st F.TRIP_SRC_STAT_ASSERTED
        && (c.tripInput k).getD true then
      let c : Chip := (c.flag st F.TRIP_SRC_STAT_ASSERTED true).flag st F.TRIP_SRC_STAT_TRIP_SEEN true
      let c : Chip := (c.incSat st F.TRIP_SRC_STAT_COUNT).tripOverride k
      ((c.gates).raise P.TRIP 0).gdiShoots
    else c
  else if c.is st F.TRIP_SRC_STAT_ASSERTED && !(c.tripInput k).getD false then
    ((c.flag st F.TRIP_SRC_STAT_ASSERTED false).gates).gdiShoots
  else c

/-- The input of trip source `k` changes, which a blanking window holds back (R344) unless it starts in the same cycle (R186). -/
def Chip.tripChange (c : Chip) (k : Nat) (on starting : Bool) : Chip :=
  if c.is (R.TRIP_SRC_STAT k) F.TRIP_SRC_STAT_IN_BLANK && !starting then c.updTrp k fun x => { x with due := some on }
  else c.tripTake k on

/-- Trip source `k` asserts after its filter (R344 to R347). -/
def doTripSourceAssert (k : Fin 16) (starting : Bool) (c : Chip) : Chip := c.bypass fun c => c.tripChange k true starting

/-- The input of trip source `k` deasserts (R344, R345). -/
def doTripSourceDeassert (k : Fin 16) (starting : Bool) (c : Chip) : Chip := c.bypass fun c => c.tripChange k false starting

/-- TRIP.CMD CLEAR for the sources in `m` (R348). -/
def Chip.tripClear (c : Chip) (m i : Nat) : Chip :=
  forN 16 (fun k c =>
    let st := R.TRIP_SRC_STAT k
    if nbit m k && c.is st F.TRIP_SRC_STAT_LATCHED && decide (c.f (R.TRIP_SRC_CFG k) F.TRIP_SRC_CFG_MODE = 2) then
      if c.is st F.TRIP_SRC_STAT_ASSERTED then (c.refuse R.TRIP_CMD i).raise P.TRIP 1
      else if (c.trp k).held = 0 then c.flag st F.TRIP_SRC_STAT_LATCHED false
      else c.updTrp k fun x => { x with cleared := true }
    else c) c

/-- TRIP.CMD CLEAR (R348). -/
def doTripClear (w : Writer) (key : BitVec 16) (m : BitVec 16) (c : Chip) : Chip :=
  c.cmd R.TRIP_CMD w key fun c => c.tripClear m.toNat w.ini.code

/-- A blanking window of a comparator, or of a trip source, ends (R186, R344). -/
def doBlankWindowEnd (trip : Bool) (n : Fin 16) (c : Chip) : Chip :=
  c.bypass fun c =>
    if trip then
      let due := (c.trp n).due
      let c : Chip := (c.flag (R.TRIP_SRC_STAT n) F.TRIP_SRC_STAT_IN_BLANK false).updTrp n fun x => { x with due := none }
      match due with | some on => c.tripTake n on | none => c
    else if (c.acmp n).blank then (c.acmpUnblank n).acmpOutputs n
    else c

/-! ### Page soft resets (R353) -/

/-- PWT: every timebase stops at once. -/
def Chip.pwtReset (c : Chip) : Chip := (forN 4 (fun n c => c.tbStop n (c.tbPos n 0)) c).pwmFollow

/-- PWMC_nn: the channel is disabled at once. -/
def Chip.pwmcReset (c : Chip) (k : Nat) : Chip := (c.updCh k fun _ => {}).pwmFollow

/-- TRIP: every override ends. -/
def Chip.tripReset (c : Chip) : Chip := (forN 16 (fun k c => c.updTrp k fun _ => {}) c).pwmFollow

/-! ### The commands -/

/-- PWMC_ARM (R330). -/
def execPwmcArm (w : Writer) (key : BitVec 16) (k : Fin 16) (s : State) : Host.Outcome State Fault Refusal :=
  .next (s.onChip (doPwmcArm w key k))
/-- PWMC_DISCARD (R330). -/
def execPwmcDiscard (w : Writer) (key : BitVec 16) (k : Fin 16) (s : State) : Host.Outcome State Fault Refusal :=
  .next (s.onChip (doPwmcDiscard w key k))
/-- PERIOD_START (R309). -/
def execPeriodStart (n : Fin 4) (s : State) : Host.Outcome State Fault Refusal :=
  .next (s.onChip (doPeriodStart n))
/-- PEAK_EVENT (R309). -/
def execPeakEvent (n : Fin 4) (s : State) : Host.Outcome State Fault Refusal :=
  .next (s.onChip (doPeakEvent n))
/-- COMPARE_EDGE (R319). -/
def execCompareEdge (k : Fin 16) (rise : Bool) (s : State) : Host.Outcome State Fault Refusal :=
  .next (s.onChip (doCompareEdge k rise))
/-- DEAD_TIME_EXPIRY (R323). -/
def execDeadTimeExpiry (k : Fin 16) (high : Bool) (s : State) : Host.Outcome State Fault Refusal :=
  .next (s.onChip (doDeadTimeExpiry k high))
/-- MINPW_HOLD_EXPIRY (R339). -/
def execMinpwHoldExpiry (k : Fin 16) (s : State) : Host.Outcome State Fault Refusal :=
  .next (s.onChip (doMinpwHoldExpiry k))
/-- OUTPUT_PORT_WRITE (R227). -/
def execOutputPortWrite (port : Fin 48) (lat : BitVec 16) (s : State) : Host.Outcome State Fault Refusal :=
  .next (s.onChip (doOutputPortWrite port lat))
/-- MASK_STEP (R341). -/
def execMaskStep (w : Writer) (key : BitVec 16) (coincident : Bool) (s : State) : Host.Outcome State Fault Refusal :=
  .next (s.onChip (doMaskStep w key coincident))
/-- MASK_SET (R341). -/
def execMaskSet (w : Writer) (key : BitVec 16) (index : Fin 8) (s : State) : Host.Outcome State Fault Refusal :=
  .next (s.onChip (doMaskSet w key index))
/-- MASK_APPLY (R342). -/
def execMaskApply (s : State) : Host.Outcome State Fault Refusal :=
  .next (s.onChip doMaskApply)
/-- TRIP_SOURCE_ASSERT (R347). -/
def execTripSourceAssert (k : Fin 16) (starting : Bool) (s : State) : Host.Outcome State Fault Refusal :=
  .next (s.onChip (doTripSourceAssert k starting))
/-- TRIP_SOURCE_DEASSERT (R345). -/
def execTripSourceDeassert (k : Fin 16) (starting : Bool) (s : State) : Host.Outcome State Fault Refusal :=
  .next (s.onChip (doTripSourceDeassert k starting))
/-- TRIP_CLEAR (R348). -/
def execTripClear (w : Writer) (key : BitVec 16) (m : BitVec 16) (s : State) : Host.Outcome State Fault Refusal :=
  .next (s.onChip (doTripClear w key m))
/-- BLANK_WINDOW_END (R186). -/
def execBlankWindowEnd (trip : Bool) (n : Fin 16) (s : State) : Host.Outcome State Fault Refusal :=
  .next (s.onChip (doBlankWindowEnd trip n))

end Sys2Proof.Machine
end

