-- ==== Sys2Proof/Machine/Lap.lean ====
section
/-!
DEFINITION. The Lap log (R561 to R569, R577): the ring in DRAM, anchors, triggers and freezing, and reading a record back for
a replay. What a replayed record does is in Replay.lean.
-/
namespace Sys2Proof.Machine
open Sys2Proof

/-- A change of the redundancy state. -/
def Chip.updRed (c : Chip) (g : RedSt → RedSt) : Chip := { c with red := g c.red }

/-- Twin `t` (false A). -/
def Chip.twin (c : Chip) (t : Bool) : TwinSt := nth c.red.twins (b2n t) {}

/-- Twin `t` is changed by `g`. -/
def Chip.updTwin (c : Chip) (t : Bool) (g : TwinSt → TwinSt) : Chip :=
  c.updRed fun x => { x with twins := upd x.twins (b2n t) g }

/-- LAP.STAT.STATE. -/
def Chip.lapState (c : Chip) : Nat := c.f R.LAP_STAT F.LAP_STAT_STATE

/-- LAP.STAT.STATE becomes `n`. -/
def Chip.setLap (c : Chip) (n : Nat) : Chip := c.setF R.LAP_STAT F.LAP_STAT_STATE n

namespace Ls
def off : Nat := 0
def recording : Nat := 1
def post : Nat := 2
def frozen : Nat := 3
def importing : Nat := 4
def replaying : Nat := 5
def paused : Nat := 6
def ended : Nat := 7
end Ls

/-! ### Level inputs (R563) -/

/-! ### The ring (R561 to R564) -/

/-- The size of the ring. -/
def ringSize : Nat := 192 * 2 ^ 20

/-- The DRAM offset of ring offset `o` (R577). -/
def ringAt (o : Nat) : Nat := 0x8000000 + o % ringSize

/-- The DRAM offset of the anchor slots (R577). -/
def slotBase : Nat := 0x14000000

/-- The size of an anchor slot. -/
def slotSize : Nat := 36 * 2 ^ 20

/-- The bytes of a record in the ring, `d` CK_SYS cycles after the one before it (R562). -/
def LapRec.image (r : LapRec) (d : Nat) : List Byte :=
  if r.short then bytesLE 1 (r.kind % 64) ++ bytesLE 2 (min d 65535) ++ [0] ++ bytesLE 4 (nth r.data 0 0)
  else
    bytesLE 1 (128 + r.kind % 128) ++ bytesLE 1 r.sub ++ bytesLE 2 (min d 65535) ++ bytesLE 2 r.data.length ++ [0, 0]
      ++ bytesLE 8 r.ht ++ r.data.flatMap (bytesLE 8)

/-- `n` bytes of the ring from offset `o`. -/
def Mem.ringGet (m : Mem) (o n : Nat) : List Byte :=
  (List.range n).map fun i => SMap.get unwritten m.dram (ringAt (o + i))

/-- Bytes written to the ring from offset `o`. -/
def Mem.ringPut (m : Mem) (o : Nat) : List Byte → Mem
  | [] => m
  | b :: t => Mem.ringPut { m with dram := m.dram.put unwritten (ringAt o) b } (o + 1) t

/-- LAP.TWA and LAP.TWB: the valid slots and the record of the older one (R577). -/
def Chip.showAnchors (c : Chip) : Chip :=
  [false, true].foldl (fun c t =>
    let s0 := nth c.red.slots (2 * b2n t) none
    let s1 := nth c.red.slots (2 * b2n t + 1) none
    let ofs := match s0, s1 with
      | some x, some y => if x.stamp ≤ y.stamp then x.ofs else y.ofs
      | some x, none => x.ofs
      | none, some y => y.ofs
      | none, none => 0
    c.wrN (if t then R.LAP_TWB else R.LAP_TWA) (b2n s1.isSome * 2 ^ 31 + b2n s0.isSome * 2 ^ 30 + ofs / 8)) c

/-- The anchors whose records are wholly in the ring; LAP.ANCHOR shows the oldest (R577). -/
def Chip.trimAnchors (c : Chip) : Chip :=
  let c : Chip := c.updRed fun x => { x with anchors := x.anchors.filter fun a => decide (x.tot ≤ a.pos + ringSize) }
  c.wrN R.LAP_ANCHOR (match c.red.anchors with | a :: _ => a.pos % ringSize / 8 | [] => 0)

/-- What a record taken by the ring at position `p` shows in the registers: a GAP counts (R564), a HW_ANCHOR and a TWIN_ANCHOR
are found by it (R565, R566), RATE holds the kB of the last second. -/
def Chip.lapShow (c : Chip) (r : LapRec) (p : Nat) : Chip :=
  let c : Chip := (c.wrN R.LAP_HEAD (p % ringSize / 8)).updRed fun x =>
    { x with tot := p + r.bytes, lastHt := r.ht,
             rate := (r.ht, r.bytes) :: x.rate.filter fun e => decide (r.ht < e.1 + 10 ^ 9) }
  let c : Chip := c.wrN R.LAP_RATE ((c.red.rate.map (·.2)).sum / 1000)
  let c : Chip := if ringSize < c.red.tot then c.flag R.LAP_STAT F.LAP_STAT_WRAPPED true else c
  let c : Chip :=
    if r.short then c
    else if r.kind = 0x02 then (c.incSat R.LAP_STAT F.LAP_STAT_GAPS).raise P.LAP 2
    else if r.kind = 0x03 then
      match c.red.taken with
      | a :: rest => c.updRed fun x => { x with taken := rest, anchors := x.anchors ++ [{ a with pos := p }] }
      | [] => c
    else if r.kind = 0x04 then
      (c.updRed fun x => { x with
        slots := upd x.slots (2 * r.sub + nth r.data 0 0) (Option.map fun a => { a with ofs := p % ringSize }) }).showAnchors
    else c
  c.trimAnchors

/-- The oldest record of the FIFO goes to the ring (R561, R564). -/
def State.lapOne (s : State) : State :=
  match s.chip.lap.fifo with
  | [] => s
  | r :: rest =>
    let p := s.chip.red.tot
    let m := s.mem.ringPut p (r.image ((r.ht - s.chip.red.lastHt) * 4 / 5))
    { s with mem := m }.onChip fun c => ({ c with lap := { c.lap with fifo := rest } }).lapShow r p

/-- The whole FIFO goes to the ring. -/
def State.lapDrain (s : State) : State := forN s.chip.lap.fifo.length (fun _ s => s.lapOne) s

/-- LAP_RING_WRITE (R564). -/
def mdLapRingWrite (s : State) : State := if s.chip.clockOn && !s.chip.halted P.LAP then s.lapOne else s

/-- A TIME record (R563). -/
def doLapTimeRecord (c : Chip) : Chip := c.clocked P.LAP fun c => c.lapLong 0x01 0 []

/-! ### Anchors (R565, R566) -/

/-- Whether the page at offset `b` belongs to the deterministic domain: TXN, the Stride engine, the Pacer, BPT, HRD, ISL, IMP, the
power stage and the gate-drive instances. -/
def detPage (b : Nat) : Bool :=
  decide (b = P.TXN) || (decide (P.STR ≤ b) && decide (b < 0x87000)) || (decide (P.PWT ≤ b) && decide (b < 0xF0000))

/-- Whether key `k` of the register file belongs to the deterministic domain, its banks and memories included. -/
def detKey (k : Nat) : Bool :=
  if k < 0x240000 then detPage (pageBase k) else decide (0x1000000 ≤ k) && decide (k < Key.route 0 0 0)

/-- The registers of the deterministic pages in page-map order. -/
def detRegs : List Nat :=
  (pageKinds.filter fun p => detPage p.base).flatMap fun p => (List.range p.inst).flatMap fun i =>
    (p.regs.filter fun e => !e.virt && (!e.inst0 || decide (i = 0))).flatMap fun e =>
      (List.range e.n).map fun j => p.base + 0x1000 * i + e.off + e.stride * j

/-- The words of the section, table and slot memories. -/
def detWords : List Nat :=
  ((List.range 512).flatMap fun n => (RegTable.strw.filter fun e => decide (0x800 ≤ e.off)).map fun e => Key.sec n (e.off - 0x800))
    ++ ((List.range 4096).map Key.table) ++ (List.range 1024).map Key.slot

/-- A HW_ANCHOR of the present state (R565). -/
def Chip.anchor (c : Chip) : HwAnchor :=
  ⟨0, c.regs.keep detKey, c.str, c.bpt, c.hrd, c.isl, c.imp, c.pwm, c.bus.ctxs⟩

/-- The deterministic hardware takes the state of an anchor (R571). -/
def Chip.loadAnchor (c : Chip) (a : HwAnchor) : Chip :=
  let c : Chip := c.resetKeys detKey
  let c : Chip := a.regs.foldl (fun c e => c.wr e.1 e.2) c
  { c with str := a.str, bpt := a.bpt, hrd := a.hrd, isl := a.isl, imp := a.imp, pwm := a.pwm,
           bus := { c.bus with ctxs := a.ctxs } }

/-- The anchor that an imported record holds: the register and memory words of its payload; what else its writer put into it
has no stated encoding, and its units start from reset (log entry 41, DEDUCED). -/
def importedAnchor (ws : List Nat) : HwAnchor :=
  ⟨0, ((detRegs ++ detWords).zip ws).foldl (fun m e => m.put regReset e.1 (wd e.2)) [], {}, List.replicate 4 {}, {}, {}, {},
   {}, List.replicate 15 Ctx.init⟩

/-- HW_ANCHOR (R565): taken while STR.STAT.BUSY is 0, else skipped. -/
def doHwAnchor (c : Chip) : Chip :=
  c.clocked P.LAP fun c =>
    if !c.lapOn then c
    else if c.f R.STR_STAT F.STR_STAT_BUSY ≠ 0 then c.raise P.LAP 5
    else if 65536 ≤ c.lap.fill then c.lapLong 0x03 0 []
    else
      let a := c.anchor
      (c.lapLong 0x03 0 (unitsOf ((detRegs ++ detWords).map c.rdN))).updRed fun x => { x with taken := x.taken ++ [a] }

/-- The slot of twin `t` that its next anchor takes: an empty one, else the older (R566). -/
def Chip.nextSlot (c : Chip) (t : Bool) : Nat :=
  match nth c.red.slots (2 * b2n t) none, nth c.red.slots (2 * b2n t + 1) none with
  | none, _ => 0
  | some _, none => 1
  | some x, some y => if x.stamp ≤ y.stamp then 0 else 1

/-- TWIN_ANCHOR_DONE (R566): the copy fills its slot and its record is taken. -/
def doTwinAnchorDone (t : Bool) (c : Chip) : Chip :=
  c.clocked P.LAP fun c =>
    match (c.twin t).copying with
    | none => c
    | some (stamp, priv) =>
      let c : Chip := c.updTwin t fun x => { x with copying := none }
      if !c.lapOn then c
      else
        let n := c.nextSlot t
        let c : Chip := c.updRed fun x => { x with slots := upd x.slots (2 * b2n t + n) fun _ => some ⟨0, stamp, priv⟩ }
        c.lapLong 0x04 (b2n t) [n, stamp, slotSize * (2 * b2n t + n)]

/-- A matched deep checkpoint starts an anchor copy where TW_ANCHOR_S have passed (R566). -/
def Chip.twAnchorStart (c : Chip) (t : Bool) (stamp : Nat) : Chip :=
  let due := match (c.twin t).anchorAt with
    | none => true
    | some a => decide (a + 10 ^ 9 * c.f R.LAP_CFG F.LAP_CFG_TW_ANCHOR_S ≤ c.htNs)
  if c.lapOn && due && (c.twin t).copying.isNone then
    let h := c.htNs
    c.updTwin t fun x => { x with copying := some (stamp, x.priv), anchorAt := some h }
  else c

/-! ### Triggers and freezing (R567 to R569) -/

/-- The ring freezes with every record taken so far (R568). -/
def State.lapFreeze (s : State) : State :=
  if s.chip.lapOn then s.lapDrain.onChip fun c => (c.setLap Ls.frozen).raise P.LAP 1 else s

/-- LAP.CMD (R577): the codes that need no replay; REPLAY_START and REPLAY_CONT are in Replay.lean. -/
def State.lapCmd (s : State) (op i : Nat) (head : Nat) : State :=
  let c := s.chip
  match op with
  | 1 => s.lapFreeze
  | 2 =>
    if c.lapState = Ls.frozen ∨ c.lapState = Ls.importing then s.onChip fun c =>
      (c.setLap (if c.is R.LAP_CTL F.LAP_CTL_EN then Ls.recording else Ls.off)).flag R.LAP_STAT F.LAP_STAT_WRAPPED false
    else s.onChip fun c => c.refuse R.LAP_CMD i
  | 3 => s.onChip fun c => c.flag R.LAP_STAT F.LAP_STAT_ARMED true
  | 4 => s.onChip fun c => c.flag R.LAP_STAT F.LAP_STAT_ARMED false
  | 5 =>
    if c.mode = .ready then s.onChip fun c =>
      let c : Chip := { c with lap := { c.lap with fifo := [], lost := 0 } }
      ((c.setLap Ls.importing).updRed fun x => { x with anchors := [], taken := [], tot := 8 * head, rate := [] }).wrN
        R.LAP_HEAD (head % 2 ^ 25)
    else s.onChip fun c => c.refuse R.LAP_CMD i
  | _ => s.onChip fun c => c.refuse R.LAP_CMD i

/-- A write to LAP.CMD. -/
def State.lapVia (s : State) (w : Writer) (key : BitVec 16) (g : State → State) : State :=
  s.cmd R.LAP_CMD w key g

/-- LAP.CMD FREEZE (R568). -/
def mdLapFreeze (w : Writer) (key : BitVec 16) (s : State) : State := s.lapVia w key fun s => s.lapCmd 1 w.ini.code 0
/-- LAP.CMD RESUME (R568). -/
def mdLapResume (w : Writer) (key : BitVec 16) (s : State) : State := s.lapVia w key fun s => s.lapCmd 2 w.ini.code 0
/-- LAP.CMD ARM (R567). -/
def mdLapArm (w : Writer) (key : BitVec 16) (s : State) : State := s.lapVia w key fun s => s.lapCmd 3 w.ini.code 0
/-- LAP.CMD DISARM (R567). -/
def mdLapDisarm (w : Writer) (key : BitVec 16) (s : State) : State := s.lapVia w key fun s => s.lapCmd 4 w.ini.code 0
/-- LAP.CMD IMPORT (R577): the export's newest record sets LAP.HEAD. -/
def mdLapImport (w : Writer) (key : BitVec 16) (head : BitVec 25) (s : State) : State :=
  s.lapVia w key fun s => s.lapCmd 5 w.ini.code head.toNat

/-- The armed interval ends (R567); an interval of 0 lasts until DISARM. -/
def doLapArmExpiry (c : Chip) : Chip :=
  c.clocked P.LAP fun c => if c.f R.LAP_ARM F.LAP_ARM_ARM_S = 0 then c else c.flag R.LAP_STAT F.LAP_STAT_ARMED false

/-- The post window ends (R568). -/
def mdLapPostEnd (s : State) : State :=
  if s.chip.clockOn && !s.chip.halted P.LAP && decide (s.chip.lapState = Ls.post) then s.lapFreeze else s

/-- LAP.CTL.EN was written: recording stops or starts (R577). -/
def Chip.lapFollow (c : Chip) : Chip :=
  if c.is R.LAP_CTL F.LAP_CTL_EN then
    if c.lapState = Ls.off then (c.setLap Ls.recording).flag R.LAP_STAT F.LAP_STAT_WRAPPED false else c
  else if c.lapState = Ls.recording ∨ c.lapState = Ls.post then c.setLap Ls.off
  else c

/-! ### Reading the ring (R562) -/

/-- The record at ring offset `o`, the herd time of the one before it being `t`. -/
def Mem.lapAt (m : Mem) (o t : Nat) : LapRec :=
  let h := m.ringGet o 8
  let b0 := (nth h 0 0).toNat
  let d := leNat ((h.drop (if b0 < 128 then 1 else 2)).take 2)
  if b0 < 128 then ⟨true, b0 % 64, 0, t + d * 5 / 4, [leNat (h.drop 4)]⟩
  else
    let n := leNat ((h.drop 4).take 2)
    ⟨false, b0 % 128, (nth h 1 0).toNat, leNat (m.ringGet (o + 8) 8),
     (List.range n).map fun i => leNat (m.ringGet (o + 16 + 8 * i) 8)⟩

/-! ### The commands -/

/-- LAP_RING_WRITE (R564). -/
def execLapRingWrite (s : State) : Host.Outcome State Fault Refusal :=
  .next (mdLapRingWrite s)
/-- LAP_TIME_RECORD (R563). -/
def execLapTimeRecord (s : State) : Host.Outcome State Fault Refusal :=
  .next (s.onChip doLapTimeRecord)
/-- HW_ANCHOR (R565). -/
def execHwAnchor (s : State) : Host.Outcome State Fault Refusal :=
  .next (s.onChip doHwAnchor)
/-- TWIN_ANCHOR_DONE (R566). -/
def execTwinAnchorDone (t : Bool) (s : State) : Host.Outcome State Fault Refusal :=
  .next (s.onChip (doTwinAnchorDone t))
/-- LAP_FREEZE (R568). -/
def execLapFreeze (w : Writer) (key : BitVec 16) (s : State) : Host.Outcome State Fault Refusal :=
  .next (mdLapFreeze w key s)
/-- LAP_RESUME (R568). -/
def execLapResume (w : Writer) (key : BitVec 16) (s : State) : Host.Outcome State Fault Refusal :=
  .next (mdLapResume w key s)
/-- LAP_ARM (R567). -/
def execLapArm (w : Writer) (key : BitVec 16) (s : State) : Host.Outcome State Fault Refusal :=
  .next (mdLapArm w key s)
/-- LAP_DISARM (R567). -/
def execLapDisarm (w : Writer) (key : BitVec 16) (s : State) : Host.Outcome State Fault Refusal :=
  .next (mdLapDisarm w key s)
/-- LAP_IMPORT (R577). -/
def execLapImport (w : Writer) (key : BitVec 16) (head : BitVec 25) (s : State) : Host.Outcome State Fault Refusal :=
  .next (mdLapImport w key head s)
/-- LAP_ARM_EXPIRY (R567). -/
def execLapArmExpiry (s : State) : Host.Outcome State Fault Refusal :=
  .next (s.onChip doLapArmExpiry)
/-- LAP_POST_END (R568). -/
def execLapPostEnd (s : State) : Host.Outcome State Fault Refusal :=
  .next (mdLapPostEnd s)

end Sys2Proof.Machine
end

