-- ==== Sys2Proof/Machine/Sheepdog.lean ====
section
/-!
DEFINITION. The Sheepdog's rules (*Safety Subsystem*) and the requests of SYS.STATE_REQ (*Architecture and Operating States*):
safety inputs (R512 to R514), outputs (R504 to R511), safe messages (R515 to R521), grace time (R523), seal and credential
(R524 to R530), the change log (R531 to R533) and state requests (R21 to R24, R42, R500, R501).
-/
namespace Sys2Proof.Machine
open Sys2Proof

/-- A change of the Sheepdog's own state. -/
def Chip.updShd (c : Chip) (g : ShdSt → ShdSt) : Chip := { c with shd := g c.shd }

/-! ### Safety inputs (R512 to R514) -/

-- The states of a pair (R513, R536).
namespace Sp
def permissive : Nat := 0
def waitOff : Nat := 1
def nonperm : Nat := 2
def waitOn : Nat := 3
def fault : Nat := 4
def disabled : Nat := 5
end Sp

/-- The field of SIN.STATE for pair `k`. -/
def pairFld (k : Nat) : Fld := ⟨3 * k + 2, 3 * k⟩

/-- The state of pair `k`. -/
def Chip.pairState (c : Chip) (k : Nat) : Nat := c.f R.SIN_STATE (pairFld k)

/-- Pair `k`. -/
def Chip.pair (c : Chip) (k : Nat) : PairSt := nth c.shd.pairs k {}

/-- Pair `k` is changed by `g`. -/
def Chip.updPair (c : Chip) (k : Nat) (g : PairSt → PairSt) : Chip := c.updShd fun x => { x with pairs := upd x.pairs k g }

/-- Pair `k` shows state `st`. -/
def Chip.showPair (c : Chip) (k st : Nat) : Chip :=
  ((c.setF R.SIN_STATE (pairFld k) st).setBit R.SIN_STAT k (decide (st = Sp.permissive) || decide (st = Sp.disabled))).setBit
    R.SIN_STAT (8 + k) (decide (st = Sp.fault))

/-- Whether contacts A and B of pair `k` are permissive, from the debounced levels (EQUIV or ANTIV). -/
def Chip.contacts (c : Chip) (k : Nat) : Bool × Bool :=
  let a := c.bit R.SIN_STAT (16 + 2 * k)
  let b := c.bit R.SIN_STAT (17 + 2 * k)
  (a, if c.is (R.SCFG_SIN k) F.SCFG_SIN_MODE then !b else b)

/-- A demand of pair `k` (R514). -/
def Chip.demand (c : Chip) (k : Nat) : Chip :=
  let c : Chip := (c.incSat (R.SIN_DEMANDS (k / 4)) ⟨8 * (k % 4) + 7, 8 * (k % 4)⟩).raise P.SIN 0
  match c.f (R.SCFG_SIN k) F.SCFG_SIN_ACT with
  | 0 => c.cause 0x03 1 k
  | 1 => c.updPair k fun x => { x with delays := x.delays + 1 }
  | _ => c

/-- Pair `k` goes to FAULT (R514). -/
def Chip.pairFault (c : Chip) (k : Nat) : Chip := ((c.showPair k Sp.fault).raise P.SIN 1).cause 0x04 1 k

/-- The state of a pair after its contacts go from `o` to `n` (permissive or not), with `first` the contact that started a
wait (true B): the new state and the contact that starts a new wait (R513). -/
def pairNext (st : Nat) (first : Bool) (o n : Bool × Bool) : Nat × Bool :=
  let offA := o.1 && !n.1
  let offB := o.2 && !n.2
  let onA := !o.1 && n.1
  let onB := !o.2 && n.2
  match st with
  | 0 => if offA && offB then (Sp.nonperm, first) else if offA then (Sp.waitOff, false) else if offB then (Sp.waitOff, true)
         else (st, first)
  | 1 => if (if first then offA else offB) then (Sp.nonperm, first) else (st, first)
  | 2 => if onA && onB then (Sp.permissive, first) else if onA then (Sp.waitOn, false) else if onB then (Sp.waitOn, true)
         else (st, first)
  | 3 => if (if first then offB else offA) then (Sp.nonperm, first)
         else if (if first then onA else onB) then (Sp.permissive, first) else (st, first)
  | 4 => if !n.1 && !n.2 then (Sp.nonperm, first) else (st, first)
  | _ => (st, first)

/-- Pair `k` is evaluated on its contacts as they stand against those of its last evaluation (R513). -/
def Chip.pairEval (c : Chip) (k : Nat) : Chip :=
  let n := c.contacts k
  let st := c.pairState k
  let (st', first) := pairNext st (c.pair k).first (c.pair k).seen n
  let c : Chip := c.updPair k fun x => { x with first := first, seen := n }
  if st' = st then c
  else
    let c : Chip := c.showPair k st'
    if st = Sp.permissive then c.demand k else c.raiseIf (decide (st' = Sp.permissive)) P.SIN 0

/-- Debounced levels of contacts A and B of pair `k` (R512, R513). -/
def doSinContactChange (k : Fin 8) (a b : Bool) (c : Chip) : Chip :=
  c.viaShd fun c => ((c.setBit R.SIN_STAT (16 + 2 * k.val) a).setBit R.SIN_STAT (17 + 2 * k.val) b).pairEval k

/-- The discrepancy time ends in a wait (R513). -/
def doDiscrepancyExpiry (k : Fin 8) (c : Chip) : Chip :=
  c.viaShd fun c => if c.pairState k = Sp.waitOff ∨ c.pairState k = Sp.waitOn then c.pairFault k else c

/-- A DELAYED time ends (R514). -/
def doSinDelayExpiry (k : Fin 8) (c : Chip) : Chip :=
  c.viaShd fun c =>
    if 0 < (c.pair k).delays then (c.updPair k fun x => { x with delays := x.delays - 1 }).cause 0x03 1 k else c

/-- Pair `k` follows SCFG.SIN_k: a pair newly enabled starts from its contacts (log entry 37, DEDUCED), and a change of MODE changes which
contacts are permissive. -/
def Chip.pairFollow (c : Chip) (k : Nat) : Chip :=
  if !c.is (R.SCFG_SIN k) F.SCFG_SIN_EN then c.showPair k Sp.disabled
  else if c.pairState k = Sp.disabled then
    (c.showPair k (if c.contacts k = (true, true) then Sp.permissive else Sp.nonperm)).updPair k fun x => { x with seen := c.contacts k }
  else c.pairEval k

/-! ### Safety outputs (R504 to R511) -/

/-- Output channel `k`. -/
def Chip.sout (c : Chip) (k : Nat) : SoutCh := nth c.safe.sout k {}

/-- Whether the last read-back class of channel `k` agrees with its state: HIGH when ON, LOW when OFF. -/
def Chip.rbAgrees (c : Chip) (k : Nat) : Bool :=
  decide (c.f R.SOUT_RB ⟨2 * k + 1, 2 * k⟩ = b2n (c.bit R.SOUT_STAT k))

/-- The continuous check of channel `k` passes (R510): outside pulse and settle its read-back agrees, and no failure of it
stands. -/
def Chip.soutCheck (c : Chip) (k : Nat) : Chip :=
  let fails := c.bit R.SOUT_FAIL k || c.bit R.SOUT_FAIL (8 + k) || c.bit R.SOUT_STAT (16 + k) || c.bit R.SOUT_STAT (24 + k)
  if !(c.sout k).settle && (c.sout k).pulse.isNone && c.rbAgrees k && !fails then c.setBit R.SOUT_STAT (8 + k) true else c

/-- An off-pulse starts on the next side of channel `k` (R509). -/
def Chip.pulseStart (c : Chip) (k : Nat) : Chip :=
  if c.bit R.SOUT_STAT k && (c.sout k).pulse.isNone then
    c.updSout k fun x => { x with pulse := some x.nextM, nextM := !x.nextM }
  else c

/-- PERIOD_MS elapses on a channel with TEST = 1 (R509). -/
def doOffPulseStart (k : Fin 8) (c : Chip) : Chip :=
  c.viaShd fun c => if c.is (R.SCFG_SO_CFG k) F.SCFG_SO_CFG_TEST then c.pulseStart k else c

/-- SOUT.CMD.TEST (R509). -/
def Chip.soutTest (c : Chip) (m : Nat) : Chip := forN 8 (fun k c => if nbit m k then c.pulseStart k else c) c

/-- SOUT_TEST (R509). -/
def doSoutTest (w : Writer) (key : BitVec 16) (m : BitVec 8) (c : Chip) : Chip :=
  c.cmd R.SOUT_CMD w key fun c => c.soutTest m.toNat

/-- An off-pulse ends, its last 10 samples all LOW or not (R509 to R511). -/
def doOffPulseEnd (k : Fin 8) (low : Bool) (c : Chip) : Chip :=
  c.viaShd fun c =>
    match (c.sout k).pulse with
    | none => c
    | some m =>
      let bitOf := fun (m : Bool) => if m then 24 + k.val else 16 + k.val
      -- SOUT.RB shows the last sample: LOW where all were, else open
      let (rb, c) := if low then (0, c) else c.freeN 3
      let c : Chip := (c.setF R.SOUT_RB ⟨2 * k.val + 1, 2 * k.val⟩ rb).updSout k fun x =>
        { x with pulse := none, settle := true, passP := if m then x.passP else low, passM := if m then low else x.passM }
      if low then
        let c : Chip := ((c.setBit R.SOUT_STAT (bitOf m) false).setBit R.SOUT_STAT (8 + k.val) true).incWrap R.SHD_ST_STAT
          F.SHD_ST_STAT_SOUT_TESTS
        if c.bit R.SOUT_STAT (bitOf (!m)) then c else c.repair (8 + k.val)
      else
        let c : Chip := (c.setBit R.SOUT_STAT (bitOf m) true).setBit R.SOUT_STAT (8 + k.val) false
        if (if m then (c.sout k).passP else (c.sout k).passM) then (c.raise P.SOUT 1).degrade (8 + k.val)
        else (c.raise P.SOUT 0).cause 0x05 2 k

/-- The settle window of channel `k` ends and read-back resumes with class `rb` (R508, R509). -/
def doSoutSettleEnd (k : Fin 8) (rb : Fin 3) (c : Chip) : Chip :=
  c.viaShd fun c =>
    (((c.setF R.SOUT_RB ⟨2 * k.val + 1, 2 * k.val⟩ rb.val).updSout k fun x =>
      { x with settle := false, switched := false }).sgrStat).soutCheck k

/-- Four samples in a row of class `rb` disagree with the state of channel `k` (R510). -/
def doReadbackFailure (k : Fin 8) (rb : Fin 3) (c : Chip) : Chip :=
  c.viaShd fun c =>
    let c : Chip := c.setF R.SOUT_RB ⟨2 * k.val + 1, 2 * k.val⟩ rb.val
    if (c.sout k).settle || (c.sout k).pulse.isSome || c.rbAgrees k then c
    else
      let c : Chip := (c.setBit R.SOUT_FAIL (if c.bit R.SOUT_STAT k then k.val else 8 + k.val) true).setBit R.SOUT_STAT
        (8 + k.val) false
      (c.raise P.SOUT 0).cause 0x05 2 k

/-- An energise-to-trip pulse ends (R504). -/
def doSbtTripPulseEnd (k : Fin 8) (c : Chip) : Chip :=
  c.viaShd fun c => (c.updSout k fun x => { x with trip := false }).soutUpdate

/-- SHD.CMD SGR_APPLY and SGR_REMOVE (R505): SGR_APPLY applies SGR in READY; where it is not refused in another state it has no effect. -/
def Chip.sgrCmd (c : Chip) (on : Bool) (i : Nat) : Chip :=
  if !on then c.setSgr false
  else if c.is R.SHD_STAT F.SHD_STAT_LATCH || decide (c.mode = .boot) || decide (c.mode = .replay) then c.refuse R.SHD_CMD i
  else if c.mode = .ready then c.setSgr true
  else c

/-- SGR_APPLY (R505). -/
def doSgrApply (w : Writer) (key : BitVec 16) (c : Chip) : Chip := c.cmd R.SHD_CMD w key fun c => c.sgrCmd true w.ini.code
/-- SGR_REMOVE (R505). -/
def doSgrRemove (w : Writer) (key : BitVec 16) (c : Chip) : Chip := c.cmd R.SHD_CMD w key fun c => c.sgrCmd false w.ini.code

/-- The start-up test ends (R503): a failure holds the latch until power-on reset. The first read-backs are checked. -/
def doShdStartupTestDone (pass : Bool) (c : Chip) : Chip :=
  c.viaShd fun c =>
    let c : Chip := forN 8 (fun k c => c.soutCheck k) c
    if pass then c.flag R.SHD_STAT F.SHD_STAT_STARTUP_OK true
    else ({ c with safe := { c.safe with startupFailed := true } }).cause 0x0B 0xA 0

/-! ### Safe messages (R515 to R521) -/

/-- A byte into the reflected CRC-32C. -/
def crc32cByte (r x : Nat) : Nat :=
  (List.range 8).foldl (fun r i => if nbit r 0 != nbit x i then r / 2 ^^^ 0x82F63B78 else r / 2) r

/-- A 32-bit number with its bits reversed. -/
def rev32 (n : Nat) : Nat := (List.range 32).foldl (fun r i => r * 2 + b2n (nbit n i)) 0

/-- The check code of the first seven words of a frame under a seed (R515). -/
def safeCrc (seed : Nat) (ws : List Nat) : Nat :=
  ((ws.take 7).foldl (fun r w => (List.range 4).foldl (fun r i => crc32cByte r (w / 256 ^ i % 256)) r) (rev32 seed)) ^^^ 0xFFFFFFFF

/-- The frame of TX connection `k` with sequence number `s` (R515). -/
def Chip.safeFrame (c : Chip) (k s : Nat) : List Nat :=
  let w4 := b2n (c.is R.SHD_STAT F.SHD_STAT_LATCH) * 2 ^ 31 + b2n (c.is R.SHD_STAT F.SHD_STAT_DEGRADED) * 2 ^ 30
    + c.mode.code * 2 ^ 24 + c.f R.SYS_SAFE_CAUSE F.SYS_SAFE_CAUSE_CAUSE * 2 ^ 16
    + c.f R.SIN_STAT F.SIN_STAT_PERMISSIVE * 2 ^ 8 + c.f R.SOUT_STAT F.SOUT_STAT_ON
  let ws := [c.f (R.SCFG_TX_B k) F.SCFG_TX_B_CONN_ID * 2 ^ 16 + 0x100, s] ++ words64 c.htNs ++ [w4, c.rdN (R.SCOM_TX_DATA k), 0]
  ws ++ [safeCrc (c.rdN R.SCFG_SCOM_SEED) ws]

/-- The pair of copies of TX connection `k`, as one packet for both planes, with the sequence number counted (R517). -/
def Chip.safePair (c : Chip) (k : Nat) : Packet × Chip :=
  let s := (nth c.shd.txSeq k 0 + 1) % 2 ^ 32
  let c : Chip := c.updShd fun x => { x with txSeq := upd x.txSeq k fun _ => s }
  (c.packet 0x08 1 (if c.is (R.SCFG_TX_A k) F.SCFG_TX_A_CAST then 2 else 0) (c.f (R.SCFG_TX_A k) F.SCFG_TX_A_DEST) c.ses0 0
    (c.safeFrame k s), c)

/-- PERIOD_MS of an enabled TX connection elapses (R517). -/
def doSafeTxPeriod (k : Fin 8) (c : Chip) : Chip :=
  c.viaShd fun c =>
    let ok := match c.mode with | .ready | .run | .degraded | .safe => true | _ => false
    if ok && c.is (R.SCFG_TX_A k) F.SCFG_TX_A_EN then
      let (p, c) := c.safePair k
      c.emit p 3 none
    else c

/-- The extra pairs after the latch is set, ahead of what waits (R30, R517). -/
def doSafeFrameInject (c : Chip) : Chip :=
  c.viaShd fun c =>
    if !c.safe.injectDue then c
    else
      let c : Chip := { c with safe := { c.safe with injectDue := false } }
      let (l, c) := (List.range 8).foldl (fun (a : List OutPkt × Chip) k =>
        if a.2.is (R.SCFG_TX_A k) F.SCFG_TX_A_EN then
          let (p, c) := a.2.safePair k
          (a.1 ++ [⟨p, 3, none, false⟩], c)
        else a) ([], c)
      { c with out := l ++ c.out }

/-- RX connection `k`. -/
def Chip.rxc (c : Chip) (k : Nat) : RxConn := nth c.shd.rx k {}
/-- RX connection `k` is changed by `g`. -/
def Chip.updRx (c : Chip) (k : Nat) (g : RxConn → RxConn) : Chip := c.updShd fun x => { x with rx := upd x.rx k g }

/-- The plane element of connection `k` fails (R520). -/
def Chip.planeFail (c : Chip) (k : Nat) : Chip :=
  let c : Chip := ((c.flag (R.SCOM_RX_STAT k) F.SCOM_RX_STAT_PLANE_FAULT true).raise P.SCOM 2).updRx k fun x => { x with same := 0 }
  if c.is R.SCFG_GEN F.SCFG_GEN_PLANE_DEG then c.degrade (16 + k) else c

/-- Plane `p` has delivered a copy. -/
def Chip.planeOk (c : Chip) (k p : Nat) (b : Bool) : Chip :=
  c.flag (R.SCOM_RX_STAT k) (if p = 0 then F.SCOM_RX_STAT_A_OK else F.SCOM_RX_STAT_B_OK) b

/-- A copy of the sequence number last accepted (R519, R520): the other plane's copy is compared, a difference is a plane
mismatch, and 16 identical pairs in a row repair the element. -/
def Chip.secondCopy (c : Chip) (k plane s : Nat) (ws : List Nat) : Chip :=
  let x := c.rxc k
  if x.copy ≠ some ws then
    (c.incSat R.SCOM_ERR_0 F.SCOM_ERR_0_MISMATCH).planeFail k
  else if nbit x.seen plane then c
  else
    let n := if s = (x.sameSeq + 1) % 2 ^ 32 then x.same + 1 else 1
    let c : Chip := (c.planeOk k plane true).updRx k fun x => { x with seen := 3, same := n, sameSeq := s }
    if 16 ≤ n then (c.flag (R.SCOM_RX_STAT k) F.SCOM_RX_STAT_PLANE_FAULT false).repair (16 + k) else c

/-- An accepted copy (R518, R521). -/
def Chip.acceptCopy (c : Chip) (k plane s : Nat) (ws : List Nat) : Chip :=
  let w4 := nth ws 4 0
  let c : Chip := c.updRx k fun x => { x with last := s, copy := some ws, seen := 2 ^ plane }
  let r := R.SCOM_RX_STAT k
  let c : Chip := (((c.setF r F.SCOM_RX_STAT_STATE 2).flag r F.SCOM_RX_STAT_SAFE (nbit w4 31)).flag r F.SCOM_RX_STAT_DEGR
    (nbit w4 30)).setF r F.SCOM_RX_STAT_PEER_STATE (w4 / 2 ^ 24 % 16)
  let c : Chip := ((c.setF r F.SCOM_RX_STAT_SEQ s).wrN (R.SCOM_RX_DATA k) (nth ws 5 0)).planeOk k plane true
  let c : Chip := c.raise P.SCOM 3
  if c.running && nbit w4 31 then
    let c : Chip := c.raise P.SCOM 1
    if c.is (R.SCFG_RX_A k) F.SCFG_RX_A_ACT_SAFE then c.cause 0x07 3 k else c
  else c

/-- A SAFE copy on a plane reaches the RX connections (R518 to R521). -/
def doSafeCopyRx (plane : Fin 2) (p : Packet) (c : Chip) : Chip :=
  c.consume p fun c =>
    let ws := (List.range 8).map p.w
    forN 8 (fun k c =>
      if c.is (R.SCFG_RX_A k) F.SCFG_RX_A_EN && decide (c.f (R.SCFG_RX_A k) F.SCFG_RX_A_SRC = p.src.toNat)
          && decide (c.f (R.SCFG_RX_B k) F.SCFG_RX_B_CONN_ID = p.w 0 / 2 ^ 16) then
        let s := p.w 1
        let age := ((p.w64 2 : Int) - (c.htNs : Int)).natAbs
        let d := (s + 2 ^ 32 - (c.rxc k).last) % 2 ^ 32
        if p.w 7 ≠ safeCrc (c.rdN R.SCFG_SCOM_SEED) ws then c.incSat R.SCOM_ERR_0 F.SCOM_ERR_0_CHECK
        else if c.f (R.SCFG_RX_B k) F.SCFG_RX_B_WDOG_MS * 10 ^ 6 < age then c.incSat R.SCOM_ERR_1 F.SCOM_ERR_1_AGE
        else if d = 0 && (c.rxc k).copy.isSome then c.secondCopy k plane s ws
        else if 1 ≤ d ∧ d < 2 ^ 31 then c.acceptCopy k plane s ws
        else c.incSat R.SCOM_ERR_1 F.SCOM_ERR_1_SEQ
      else c) c

/-- WDOG_MS passes without an accepted copy of connection `k`: in RUN or DEGRADED its watchdog expires (R521), in every state neither plane has
delivered one within WDOG_MS (R536). An accepted copy that `arrived` in the cycle of expiry wins: it has restarted the watchdog (R37). -/
def doScomWatchdogExpiry (k : Fin 8) (arrived : Bool) (c : Chip) : Chip :=
  c.viaShd fun c =>
    if !arrived && c.is (R.SCFG_RX_A k) F.SCFG_RX_A_EN then
      let c : Chip := (c.planeOk k 0 false).planeOk k 1 false
      if c.running then
        let c : Chip := (c.setF (R.SCOM_RX_STAT k) F.SCOM_RX_STAT_STATE 3).raise P.SCOM 0
        if c.is (R.SCFG_RX_A k) F.SCFG_RX_A_ACT_TMO then c else c.cause 0x06 3 k
      else c
    else c

/-- WDOG_MS passes with accepted copies from one plane only (R520), none from the silent one in this cycle (R37). -/
def doPlaneWatchdog (k : Fin 8) (silent : Fin 2) (arrived : Bool) (c : Chip) : Chip :=
  c.viaShd fun c =>
    if !arrived && c.is (R.SCFG_RX_A k) F.SCFG_RX_A_EN
        && c.is (R.SCOM_RX_STAT k) (if silent.val = 0 then F.SCOM_RX_STAT_B_OK else F.SCOM_RX_STAT_A_OK) then
      (c.planeOk k silent false).planeFail k
    else c

/-- RX connection `k` follows SCFG.RX_k_A.EN (R536). -/
def Chip.scomFollow (c : Chip) (k : Nat) : Chip :=
  if !c.is (R.SCFG_RX_A k) F.SCFG_RX_A_EN then (c.wrN (R.SCOM_RX_STAT k) 0).updRx k fun _ => {}
  else if c.f (R.SCOM_RX_STAT k) F.SCOM_RX_STAT_STATE = 0 then c.setF (R.SCOM_RX_STAT k) F.SCOM_RX_STAT_STATE 1
  else c

/-! ### Grace time (R523) -/

/-- The grace time expires (R523). -/
def doGraceExpiry (c : Chip) : Chip :=
  c.viaShd fun c =>
    if c.safe.graceRun then
      (({ c with safe := { c.safe with graceRun := false } }).wrN R.SHD_GRACE_REM 0xFFFFFFFF).cause 0x0C 0xA 1
    else c

/-- GRACE_REM as it reads: the seconds left. -/
def Chip.graceRem (c : Chip) : Word :=
  if c.safe.graceRun then wd ((c.shd.graceEnd - c.htNs + 10 ^ 9 - 1) / 10 ^ 9) else 0xFFFFFFFF#32

/-! ### Seal and credential (R524 to R530) -/

/-- A change of SCFG.PG_LOCK.STATE to 1 rolls back the contexts that hold entries in SCFG (R525). -/
def Chip.scfgRollback (c : Chip) : Chip :=
  if c.scfgLock ≠ 1 then c
  else forN 15 (fun i c =>
    if (c.ctx (i + 1)).entries.any fun e => pageBase e.1 = P.SCFG then c.ctxEnd (i + 1) Res.rolledBack else c) c

/-- SHD.CMD NEW_CHALLENGE (R527): random bits, free values. -/
def Chip.newChallenge (c : Chip) : Chip :=
  (forN 8 (fun i c => let (w, c) := c.freeW; c.wr (R.SHD_CHAL i) w) c).updShd fun x => { x with chalAt := some c.htNs }

/-- NEW_CHALLENGE (R527). -/
def doNewChallenge (w : Writer) (key : BitVec 16) (c : Chip) : Chip := c.cmd R.SHD_CMD w key Chip.newChallenge

/-- SHD.CMD VERIFY (R527): accepted with the seal open and a challenge unused and less than 10 min old, which it uses. -/
def State.credVerify (s : State) (i : Nat) : State :=
  let c := s.chip
  let fresh := match c.shd.chalAt with | some t => decide (c.htNs < t + 600 * 10 ^ 9) | none => false
  if c.shd.sealOpen && fresh && !c.is R.SHD_CRED_STAT F.SHD_CRED_STAT_BUSY then
    let b := s.mem.sramGet (8 * c.f R.SHD_CRED_PTR F.SHD_CRED_PTR_OFS8) 160
    s.onChip fun c => (c.flag R.SHD_CRED_STAT F.SHD_CRED_STAT_BUSY true).updShd fun x => { x with chalAt := none, credRec := b }
  else s.onChip fun c => c.refuse R.SHD_CMD i

/-- CRED_VERIFY (R527). -/
def mdCredVerify (w : Writer) (key : BitVec 16) (s : State) : State :=
  s.cmd R.SHD_CMD w key fun s => s.credVerify w.ini.code

/-- The number in `n` bytes at `o`, least significant first. -/
def fieldAt (l : List Byte) (o n : Nat) : Nat := leNat ((l.drop o).take n)

/-- The FAIL code of a credential (R527), 0 where it verifies; `sigOk` is the SEC engine's result on signature and chain. Where
several checks fail the first of this order shows (log entry 38, DESIGN CHOICE). -/
def Chip.credFail (c : Chip) (l : List Byte) (sigOk : Bool) : Nat :=
  let chal := (List.range 8).flatMap fun i => bytesLE 4 (c.rdN (R.SHD_CHAL i))
  if !c.shd.sealOpen then 6
  else if fieldAt l 0 2 ≠ 0x4352 ∨ fieldAt l 2 1 ≠ 1 then 5
  else if (l.drop 0x20).take 32 ≠ chal then 2
  else if fieldAt l 8 6 ≠ c.rdN R.MUS_SERIAL_LO + 2 ^ 32 * c.f R.MUS_SERIAL_HI F.MUS_SERIAL_HI_SER then 3
  else if !nbit (fieldAt l 3 1) 0 then 4
  else if !sigOk then 1 else 0

/-- Verification ends (R527). -/
def doCredVerifyDone (sigOk : Bool) (c : Chip) : Chip :=
  c.viaShd fun c =>
    if !c.is R.SHD_CRED_STAT F.SHD_CRED_STAT_BUSY then c
    else
      let l := c.shd.credRec
      let f := c.credFail l sigOk
      let c : Chip := ((c.updShd fun x => { x with credRec := [] }).flag R.SHD_CRED_STAT F.SHD_CRED_STAT_BUSY false).setF
        R.SHD_CRED_STAT F.SHD_CRED_STAT_FAIL f
      if f = 0 then
        let m := min (fieldAt l 0x0E 2) 240
        let c : Chip := ((c.flag R.SHD_CRED_STAT F.SHD_CRED_STAT_ACTIVE true).setF R.SHD_CRED_STAT
          F.SHD_CRED_STAT_MIN_REM m).wrN R.SHD_CRED_ID (fieldAt l 4 4)
        let c : Chip := c.updShd fun x => { x with credEnd := c.htNs + m * 60 * 10 ^ 9 }
        (c.raise P.SHD 3).logIt 0x03 ((l.drop 4).take 4 ++ (l.drop 0x0E).take 2 ++ (l.drop 3).take 1)
      else (c.raise P.SHD 3).logIt 0x05 ((l.drop 4).take 4 ++ bytesLE 1 f)

/-- The active credential ends with a reason (R528, R531). -/
def Chip.credStop (c : Chip) (reason : Nat) : Chip :=
  if !c.is R.SHD_CRED_STAT F.SHD_CRED_STAT_ACTIVE then c
  else
    let c : Chip := (c.flag R.SHD_CRED_STAT F.SHD_CRED_STAT_ACTIVE false).setF R.SHD_CRED_STAT F.SHD_CRED_STAT_MIN_REM 0
    let c : Chip := (c.raiseIf c.powered P.SHD 3).logIt 0x04 (bytesLE 1 reason)
    (c.wrN R.SHD_CRED_ID 0).scfgRollback

/-- CRED_STAT.MIN_REM as it reads: the minutes left. -/
def Chip.credMinutes (c : Chip) : Nat :=
  if c.is R.SHD_CRED_STAT F.SHD_CRED_STAT_ACTIVE then (c.shd.credEnd - c.htNs + 60 * 10 ^ 9 - 1) / (60 * 10 ^ 9) else 0

/-- END_CRED (R528). -/
def doEndCred (w : Writer) (key : BitVec 16) (c : Chip) : Chip := c.cmd R.SHD_CMD w key fun c => c.credStop 3

/-- The credential's time runs out (R528). -/
def doCredExpiry (c : Chip) : Chip := c.viaShd fun c => c.credStop 1


/-- The seal is closed and CRC_BUSY is 0: PG_CRC of SCFG becomes the sealed one (R529). -/
def doSealCrcCapture (c : Chip) : Chip :=
  c.viaShd fun c =>
    if c.shd.sealDue && !c.crcBusy.contains P.SCFG then
      let v := c.crcOf P.SCFG
      let c : Chip := (c.wr R.SHD_SEALED_CRC v).updShd fun x => { x with sealDue := false }
      (c.logIt 0x07 (bytesLE 4 v.toNat)).raise P.SHD 6
    else c

/-- The units that SCFG configures follow it. -/
def Chip.scfgFollow (c : Chip) : Chip :=
  let c : Chip := forN 8 (fun k c => (c.pairFollow k).scomFollow k) c.soutUpdate
  forN 8 (fun k c => c.soutCheck k) c

/-! ### The change log (R531 to R533) -/

/-- The bytes of an entry with sequence number `seq` before its hash (R532). -/
def LogEntry.bytes (e : LogEntry) (seq : Nat) : List Byte :=
  bytesLE 2 0x534C ++ [1#8, BitVec.ofNat 8 e.kind] ++ bytesLE 4 seq ++ bytesLE 8 e.cal ++ bytesLE 8 e.ht ++ bytesLE 4 e.cred
    ++ bytesLE 1 e.state ++ bytesLE 1 e.cause ++ [0#8, 0#8] ++ e.data

/-- The newest hash: 32 bytes of LOG_HEAD. -/
def Chip.logHead (c : Chip) : List Byte := (List.range 8).flatMap fun i => bytesLE 4 (c.rdN (R.SHD_LOG_HEAD i))

/-- The first 32 bytes of a SHA-384 hash, the most significant byte first. -/
def hash32 (l : List Byte) : List Byte := (List.range 32).map fun i => BitVec.ofNat 8 ((Config.sha384 l).toNat / 256 ^ (47 - i))

/-- The FRAM address of the entry with sequence number `seq`: 256 entries of 96 bytes (R531; log entry 39, DEDUCED). -/
def Chip.logAddr (c : Chip) (seq : Nat) : Nat :=
  c.f R.SCFG_LOG_CFG F.SCFG_LOG_CFG_BASE * 8192 + 96 * ((seq + 255) % 256)

/-- One queued entry is written: the survival queue first, then the FIFO. -/
def State.logPop (s : State) : State :=
  let c := s.chip
  let go := fun (e : LogEntry) (g : SafeSt → SafeSt) =>
    let seq := (c.rdN R.SHD_LOG_SEQ + 1) % 2 ^ 32
    let b := e.bytes seq
    let h := hash32 (c.logHead ++ b)
    let c : Chip := { c with safe := g c.safe }
    let c : Chip := forN 8 (fun i c => c.wrN (R.SHD_LOG_HEAD i) (fieldAt h (4 * i) 4)) (c.wrN R.SHD_LOG_SEQ seq)
    { s with chip := c.logLost.logShow,
             mem := { s.mem with fram := putList unwritten s.mem.fram (c.logAddr seq) (b ++ h) } }
  match c.safe.survLog, c.safe.log with
  | e :: r, _ => go e fun x => { x with survLog := r }
  | [], e :: r => go e fun x => { x with log := r }
  | [], [] => s

/-- A queued entry is written after the previous one was read back (R531): a mismatch sets FAIL. The survival domain's own FRAM
interface writes only while the main domain is on. -/
def mdLogWrite (readBackOk : Bool) (s : State) : State :=
  if !s.chip.powered || !s.chip.is R.SCFG_LOG_CFG F.SCFG_LOG_CFG_EN || (s.chip.safe.survLog.isEmpty && s.chip.safe.log.isEmpty)
  then s
  else
    let s := if readBackOk || decide (s.chip.rdN R.SHD_LOG_SEQ = 0) then s
      else s.onChip fun c => (c.flag R.SHD_LOG_STAT F.SHD_LOG_STAT_FAIL true).raise P.SHD 5
    s.logPop

/-! ### State requests (R21 to R24, R28, R42, R500, R501) -/

/-- The result code of SYS.STATE_REQ. -/
def Chip.reqResult (c : Chip) (r : Nat) : Chip := c.setF R.SYS_STATE F.SYS_STATE_REQ_RESULT r

/-- A write to SYS.STATE_REQ (R40): a wrong key is recorded; a request that loses to a trigger of the same CK_PER cycle (`late`) is refused
for wrong state, whatever it would find (R27, R28; log entry 126, DESIGN CHOICE: the queue gives the triggers of a cycle in the order of
R27, and the row tells that one went before), and REPLAY refuses every request but SAFE (R26). -/
def Chip.stateReq (c : Chip) (w : Writer) (key : BitVec 16) (late : Bool) (g : Chip → Chip) : Chip :=
  c.put R.SYS_STATE_REQ w fun c =>
    if key ≠ theKey then (c.perr R.SYS_STATE_REQ .key w.ini.code).reqResult 4
    else if late || decide (c.mode = .replay) then c.reqResult 2
    else g c

/-- STATE_REQ RUN (R22, R57, R505, R521): the supplies are applied at the entry to RUN, and the watchdogs restart. -/
def Chip.reqRun (c : Chip) : Chip :=
  if decide (c.mode ≠ .ready) || c.anyFrozen then c.reqResult 2
  else if !c.permit then c.reqResult 3
  else
    let c : Chip := forN 8 (fun k c =>
      if c.f (R.SCOM_RX_STAT k) F.SCOM_RX_STAT_STATE = 3 then c.setF (R.SCOM_RX_STAT k) F.SCOM_RX_STAT_STATE 1 else c) c
    ((((c.setSgr true).enter .run).scfgRollback).reqResult 1).gdiShoots

/-- STATE_REQ_RUN (R22). -/
def doStateReqRun (w : Writer) (key : BitVec 16) (late : Bool) (c : Chip) : Chip := c.stateReq w key late Chip.reqRun

/-- STATE_REQ STOP (R24). -/
def Chip.reqStop (c : Chip) : Chip :=
  if c.running then
    let c : Chip := { c with safe := { c.safe with stopping := true } }
    let c : Chip := forN 4 (fun n c => c.updTb n fun t => { t with reloaded := false }) c
    (c.reqResult 1).stopDone
  else c.reqResult 2

/-- STATE_REQ_STOP (R24). -/
def doStateReqStop (w : Writer) (key : BitVec 16) (late : Bool) (c : Chip) : Chip := c.stateReq w key late Chip.reqStop

/-- Whether RECOVER may end a cause (R34). -/
def recoverable (code : Nat) : Bool :=
  !([0x08, 0x09, 0x0A, 0x0B, 0x10, 0x11, 0x12].contains code) && decide (1 ≤ code) && decide (code ≤ 0x12)

/-- Whether the condition of a cause no longer holds (R34, R500). Of SIN_DISCREPANCY that is once no pair shows FAULT, which it leaves when
both contacts agree in being non-permissive (R513); contacts that agree in being permissive leave the FAULT standing (log entry 125,
DEDUCED). -/
def Chip.causeClear (c : Chip) (code : Nat) : Bool :=
  match code with
  | 0x03 =>
    (List.range 8).all (fun k => nbit (c.f R.SIN_STAT F.SIN_STAT_PERMISSIVE) k || decide (c.f (R.SCFG_SIN k) F.SCFG_SIN_ACT = 2))
      && decide (c.rd R.SHD_DEMAND_XMD = 0) && decide (c.rd R.SHD_DEMAND_AG = 0)
      && (List.range 256).all fun s => decide (c.evr s F.EVR_SRC_SHD = 0) ||
        match sourceEv s with | some e => !c.level e.1 e.2 | none => true
  | 0x04 => decide (c.f R.SIN_STAT F.SIN_STAT_FAULT = 0)
  | 0x05 => (List.range 8).all fun k =>
      (!(c.bit R.SOUT_FAIL k || c.bit R.SOUT_FAIL (8 + k)) || c.rbAgrees k)
        && !(c.bit R.SOUT_STAT (16 + k) && !(c.sout k).passM) && !(c.bit R.SOUT_STAT (24 + k) && !(c.sout k).passP)
  | 0x0C => decide (c.rd R.SHD_DEG_SET = 0)
  | 0x0D => !c.is R.VAUX_STAT F.VAUX_STAT_EW
  | 0x0E => c.is R.CLK_STAT F.CLK_STAT_LOCK && c.is R.SHD_STAT F.SHD_STAT_OSC_OK
  | 0x0F => !c.is R.VCR_STAT F.VCR_STAT_OT_WARN
  | _ => true

/-- The causes seen since the latch was set. -/
def Chip.causesSeen (c : Chip) : List Nat := ((List.range 18).map (· + 1)).filter fun x => nbit (c.rdN R.SHD_CAUSES_SEEN) (x - 1)

/-- The latch clears with SHD.CAUSE, CAUSES_SEEN and the failures that RECOVER clears (R501, R511). -/
def Chip.clearLatch (c : Chip) : Chip :=
  let c : Chip := ((c.flag R.SHD_STAT F.SHD_STAT_LATCH false).wrN R.SHD_CAUSE 0).wrN R.SHD_CAUSES_SEEN 0
  let c : Chip := c.wrN R.SOUT_FAIL 0
  forN 8 (fun k c => c.soutCheck k) (c.shdOff false).soutUpdate

/-- STATE_REQ RECOVER (R500, R501). -/
def Chip.reqRecover (c : Chip) : Chip :=
  if c.mode ≠ .safe then c.reqResult 2
  else if !c.causesSeen.all recoverable then c.reqResult 5
  else if !c.causesSeen.all c.causeClear then c.reqResult 2
  else (c.clearLatch.enterReady).reqResult 1

/-- STATE_REQ_RECOVER (R501). -/
def doStateReqRecover (w : Writer) (key : BitVec 16) (late : Bool) (c : Chip) : Chip := c.stateReq w key late Chip.reqRecover

/-- STATE_REQ SAFE by initiator `i` (R42): FIRMWARE_REQUEST from a twin, else HOST_REQUEST. It is itself a safe-state cause (R27). -/
def Chip.reqSafe (c : Chip) (i : Nat) : Chip := (c.cause (if i = 1 ∨ i = 2 then 0x01 else 0x02) 9 i).reqResult 1

/-- STATE_REQ_SAFE (R42). -/
def doStateReqSafe (w : Writer) (key : BitVec 16) (c : Chip) : Chip :=
  c.put R.SYS_STATE_REQ w fun c =>
    if key = theKey then c.reqSafe w.ini.code else (c.perr R.SYS_STATE_REQ .key w.ini.code).reqResult 4

/-! ### The commands -/

/-- SIN_CONTACT_CHANGE (R513). -/
def execSinContactChange (k : Fin 8) (a : Bool) (b : Bool) (s : State) : Host.Outcome State Fault Refusal :=
  .next (s.onChip (doSinContactChange k a b))
/-- DISCREPANCY_EXPIRY (R513). -/
def execDiscrepancyExpiry (k : Fin 8) (s : State) : Host.Outcome State Fault Refusal :=
  .next (s.onChip (doDiscrepancyExpiry k))
/-- SIN_DELAY_EXPIRY (R514). -/
def execSinDelayExpiry (k : Fin 8) (s : State) : Host.Outcome State Fault Refusal :=
  .next (s.onChip (doSinDelayExpiry k))
/-- OFF_PULSE_START (R509). -/
def execOffPulseStart (k : Fin 8) (s : State) : Host.Outcome State Fault Refusal :=
  .next (s.onChip (doOffPulseStart k))
/-- SOUT_TEST (R509). -/
def execSoutTest (w : Writer) (key : BitVec 16) (m : BitVec 8) (s : State) : Host.Outcome State Fault Refusal :=
  .next (s.onChip (doSoutTest w key m))
/-- OFF_PULSE_END (R510). -/
def execOffPulseEnd (k : Fin 8) (low : Bool) (s : State) : Host.Outcome State Fault Refusal :=
  .next (s.onChip (doOffPulseEnd k low))
/-- SOUT_SETTLE_END (R509). -/
def execSoutSettleEnd (k : Fin 8) (rb : Fin 3) (s : State) : Host.Outcome State Fault Refusal :=
  .next (s.onChip (doSoutSettleEnd k rb))
/-- READBACK_FAILURE (R510). -/
def execReadbackFailure (k : Fin 8) (rb : Fin 3) (s : State) : Host.Outcome State Fault Refusal :=
  .next (s.onChip (doReadbackFailure k rb))
/-- SBT_TRIP_PULSE_END (R504). -/
def execSbtTripPulseEnd (k : Fin 8) (s : State) : Host.Outcome State Fault Refusal :=
  .next (s.onChip (doSbtTripPulseEnd k))
/-- SGR_APPLY (R505). -/
def execSgrApply (w : Writer) (key : BitVec 16) (s : State) : Host.Outcome State Fault Refusal :=
  .next (s.onChip (doSgrApply w key))
/-- SGR_REMOVE (R505). -/
def execSgrRemove (w : Writer) (key : BitVec 16) (s : State) : Host.Outcome State Fault Refusal :=
  .next (s.onChip (doSgrRemove w key))
/-- SHD_STARTUP_TEST_DONE (R503). -/
def execShdStartupTestDone (pass : Bool) (s : State) : Host.Outcome State Fault Refusal :=
  .next (s.onChip (doShdStartupTestDone pass))
/-- SAFE_TX_PERIOD (R517). -/
def execSafeTxPeriod (k : Fin 8) (s : State) : Host.Outcome State Fault Refusal :=
  .next (s.onChip (doSafeTxPeriod k))
/-- SAFE_FRAME_INJECT (R517). -/
def execSafeFrameInject (s : State) : Host.Outcome State Fault Refusal :=
  .next (s.onChip doSafeFrameInject)
/-- SAFE_COPY_RX (R518). -/
def execSafeCopyRx (plane : Fin 2) (p : Packet) (s : State) : Host.Outcome State Fault Refusal :=
  .next (s.onChip (doSafeCopyRx plane p))
/-- SCOM_WATCHDOG_EXPIRY (R521). -/
def execScomWatchdogExpiry (k : Fin 8) (arrived : Bool) (s : State) : Host.Outcome State Fault Refusal :=
  .next (s.onChip (doScomWatchdogExpiry k arrived))
/-- PLANE_WATCHDOG (R520). -/
def execPlaneWatchdog (k : Fin 8) (silent : Fin 2) (arrived : Bool) (s : State) : Host.Outcome State Fault Refusal :=
  .next (s.onChip (doPlaneWatchdog k silent arrived))
/-- GRACE_EXPIRY (R523). -/
def execGraceExpiry (s : State) : Host.Outcome State Fault Refusal :=
  .next (s.onChip doGraceExpiry)
/-- NEW_CHALLENGE (R527). -/
def execNewChallenge (w : Writer) (key : BitVec 16) (s : State) : Host.Outcome State Fault Refusal :=
  .next (s.onChip (doNewChallenge w key))
/-- CRED_VERIFY (R527). -/
def execCredVerify (w : Writer) (key : BitVec 16) (s : State) : Host.Outcome State Fault Refusal :=
  .next (mdCredVerify w key s)
/-- CRED_VERIFY_DONE (R527). -/
def execCredVerifyDone (sigOk : Bool) (s : State) : Host.Outcome State Fault Refusal :=
  .next (s.onChip (doCredVerifyDone sigOk))
/-- END_CRED (R528). -/
def execEndCred (w : Writer) (key : BitVec 16) (s : State) : Host.Outcome State Fault Refusal :=
  .next (s.onChip (doEndCred w key))
/-- CRED_EXPIRY (R528). -/
def execCredExpiry (s : State) : Host.Outcome State Fault Refusal :=
  .next (s.onChip doCredExpiry)
/-- SEAL_CRC_CAPTURE (R529). -/
def execSealCrcCapture (s : State) : Host.Outcome State Fault Refusal :=
  .next (s.onChip doSealCrcCapture)
/-- LOG_WRITE (R531). -/
def execLogWrite (readBackOk : Bool) (s : State) : Host.Outcome State Fault Refusal :=
  .next (mdLogWrite readBackOk s)
/-- STATE_REQ_RUN (R22). -/
def execStateReqRun (w : Writer) (key : BitVec 16) (late : Bool) (s : State) : Host.Outcome State Fault Refusal :=
  .next (s.onChip (doStateReqRun w key late))
/-- STATE_REQ_STOP (R24). -/
def execStateReqStop (w : Writer) (key : BitVec 16) (late : Bool) (s : State) : Host.Outcome State Fault Refusal :=
  .next (s.onChip (doStateReqStop w key late))
/-- STATE_REQ_RECOVER (R501). -/
def execStateReqRecover (w : Writer) (key : BitVec 16) (late : Bool) (s : State) : Host.Outcome State Fault Refusal :=
  .next (s.onChip (doStateReqRecover w key late))
/-- STATE_REQ_SAFE (R42). -/
def execStateReqSafe (w : Writer) (key : BitVec 16) (s : State) : Host.Outcome State Fault Refusal :=
  .next (s.onChip (doStateReqSafe w key))

end Sys2Proof.Machine
end

