-- ==== Sys2Proof/Machine/Twins.lean ====
section
/-!
DEFINITION. The twins and their comparators (R540 to R560, R570, R575, R576): stores, checkpoints, verdicts, halts and warm restarts.
Performing a released write is in Release.lean.
-/
namespace Sys2Proof.Machine
open Sys2Proof

namespace Tw
def stopped : Nat := 0
def run : Nat := 1
def halted : Nat := 2
def restoring : Nat := 3
def replay : Nat := 4
end Tw

/-- TWN_x.STAT.STATE. -/
def Chip.twState (c : Chip) (t : Bool) : Nat := c.f (R.TWN_STAT (b2n t)) F.TWN_STAT_STATE

/-- TWN_x.STAT.STATE becomes `n`. -/
def Chip.setTw (c : Chip) (t : Bool) (n : Nat) : Chip := c.setF (R.TWN_STAT (b2n t)) F.TWN_STAT_STATE n

/-- Whether the cores of twin `t` run. -/
def Chip.twRuns (c : Chip) (t : Bool) : Bool := decide (c.twState t = Tw.run) || decide (c.twState t = Tw.replay)

/-- TWN_x.STAT.RB_FILL (R547). -/
def Chip.showRb (c : Chip) (t : Bool) : Chip :=
  c.setF (R.TWN_STAT (b2n t)) F.TWN_STAT_RB_FILL (min 512 (c.twin t).rb.length)

/-! ### The input forwarding queues (R544) and stalls (R544, R547) -/

/-- Whether the leading core of twin `t` stalls: its release buffer of 512 entries or its IFQ of 1,024 is full. -/
def Chip.twStalled (c : Chip) (t : Bool) : Bool :=
  decide (512 ≤ (c.twin t).rb.length) || decide (1024 ≤ (c.twin t).ifq.length)

/-- A stall of twin `t` is counted; the access that met it happens when the core goes on, as a command of its own (log entry 88, DESIGN
CHOICE). -/
def Chip.twStall (c : Chip) (t : Bool) : Chip := c.incSat (R.TWN_CNT_1 (b2n t)) F.TWN_CNT_1_STALLS

/-- The IFQ of twin `t` takes an input (R544). -/
def Chip.ifqPut (c : Chip) (t : Bool) (e : IfqEnt) : Chip := c.updTwin t fun x => { x with ifq := x.ifq ++ [e] }

/-- The trailing core of twin `t` has come to stamp `n`: it has taken the inputs of every instruction up to there (R544). -/
def Chip.trailed (c : Chip) (t : Bool) (n : Nat) : Chip :=
  c.updTwin t fun x => { x with ifq := x.ifq.filter fun e => decide (n < e.stamp) }

/-- Byte `b` of the register space as the newest unreleased store of twin `t` to it has it (R547). -/
def Chip.rbByte (c : Chip) (t : Bool) (b : Nat) : Option Nat :=
  ((c.twin t).rb.reverse.find? fun e => decide (e.space = .reg) && decide (e.a ≤ b) && nbit e.mask (b - e.a)).map
    fun e => e.data / 256 ^ (b - e.a) % 256

/-! ### Comparators (R553 to R557) -/

/-- DCU.STAT.INJ_ARMED (R576). -/
def Chip.showInj (c : Chip) : Chip :=
  c.flag R.DCU_STAT F.DCU_STAT_INJ_ARMED (decide ((c.twin false).inj ≠ 0) || decide ((c.twin true).inj ≠ 0))

/-- The armed injection of twin `t` is applied (R576). -/
def Chip.injected (c : Chip) (t : Bool) : Chip := ((c.updTwin t fun x => { x with inj := 0 }).showInj).raise P.DCU 3

/-- DCU.MISM and its stamps take a finding (R576). -/
def Chip.mism (c : Chip) (kind : Nat) (t x y : Bool) (addr stamp : Nat) : Chip :=
  ((c.wrN R.DCU_MISM (kind * 2 ^ 28 + b2n t * 2 ^ 24 + b2n x * 2 ^ 23 + b2n y * 2 ^ 22 + addr % 2 ^ 22)).wr64
    (R.DCU_MISM_STAMP 0) stamp).wr64 (R.DCU_MISM_T 0) c.htNs

/-- Twin `t` halts until a device reset (R557). -/
def Chip.halt (c : Chip) (t : Bool) : Chip := c.setTw t Tw.halted

/-- 24 hours in ns (R560). -/
def dayNs : Nat := 86400 * 10 ^ 9

/-- The private copy with the bytes written since the restart point put back (R558). -/
def TwinSt.rollback (x : TwinSt) : SMap Byte := x.undo.foldl (fun m e => m.put unwritten e.1 e.2) x.priv

/-- Steps 1 to 7 of a warm restart (R558), R85 for the twin's transaction. -/
def Chip.warmRestart (c : Chip) (t : Bool) : Chip :=
  let n := min 512 (c.twin t).rb.length
  let deep := c.rd64 (R.TWN_DEEP (b2n t) 0)
  let c : Chip := (c.setTw t Tw.restoring).incSat (R.TWN_CNT_0 (b2n t)) F.TWN_CNT_0_RB_DISCARD n
  let c : Chip := (c.flag (R.TWN_STAT (b2n t)) F.TWN_STAT_DEGR true).degrade (b2n t)
  let c : Chip := c.updTwin t fun x =>
    { x with rb := [], ifq := [], priv := x.rollback, undo := [], saved := some deep, cks := 0, warm := true, copying := none }
  (c.showRb t).txnTwinRestart (1 + b2n t)

/-- A latent divergence of twin `t` (R556, R558, R560): the restart, or the halt where it is a repeat. -/
def Chip.latent (c : Chip) (t : Bool) : Chip :=
  let x := c.twin t
  let near := match x.lastLat with | some a => decide (c.htNs ≤ a + dayNs) | none => false
  let h := c.htNs
  let n := if near then min 3 (x.hist + 1) else 1
  let c : Chip := (c.wr64 (R.TWN_LAST_T (b2n t) 0) h).updTwin t fun x => { x with lastLat := some h, hist := n }
  let c : Chip := (c.setF (R.TWN_STAT (b2n t)) F.TWN_STAT_HIST n).raise (P.TWN (b2n t)) 0
  if near || x.warm then (c.halt t).cause 0x09 8 (b2n t) else c.warmRestart t

/-- TWN_x.STAT.HIST as it reads: none once 24 h have passed since the last divergence (R560). -/
def Chip.histShown (c : Chip) (t : Bool) : Nat :=
  match (c.twin t).lastLat with
  | some a => if c.htNs ≤ a + dayNs then (c.twin t).hist else 0
  | none => 0

/-- Whether the armed injection of twin `t` alters a comparison: of a release pair, or of a signature or hash pair (R576). -/
def injHits (inj : Nat) (pair : Bool) : Bool :=
  match inj with | 1 => pair | 2 => !pair | 3 => true | _ => false

/-- The verdicts `x`, `y` (true MISMATCH) on a comparison of twin `t` with MISM kind `kind` lead to the reaction of R556; on
MATCH `g` follows. -/
def Chip.verdict (c : Chip) (t : Bool) (kind : Nat) (x y : Bool) (addr stamp : Nat) (g : Chip → Chip) : Chip :=
  let pair := decide (kind = 1) || decide (kind = 4)
  let i := (c.twin t).inj
  let hit := injHits i pair
  let c : Chip := if hit then c.injected t else c
  let x := if hit && decide (i ≠ 3) then true else x
  let y := if hit then (if i = 3 then !x else true) else y
  if x != y then
    (((c.mism 7 t x y (if pair then addr else 0) stamp).raise P.DCU 1).halt t).cause 0x0A 8 (b2n t)
  else if x then
    let c : Chip := c.mism kind t true true (if kind = 1 then addr else 0) stamp
    if pair then ((c.raise P.DCU 0).halt t).cause 0x08 8 (b2n t) else c.latent t
  else g c

/-- The first entry of the release buffer that the comparators have not matched. -/
def Chip.rbNext (c : Chip) (t : Bool) : Option RbEnt := (c.twin t).rb.find? fun e => !e.ok

/-- That entry is matched (R546). -/
def Chip.rbMatched (c : Chip) (t : Bool) : Chip :=
  c.updTwin t fun x =>
    { x with rb := x.rb.takeWhile (·.ok) ++ match x.rb.dropWhile (·.ok) with
                                            | e :: r => { e with ok := true } :: r
                                            | [] => [] }

/-- DCU_VERDICT (R556): on the oldest pair of the release buffer, or an uncorrectable error of a twin. -/
def doDcuVerdict (t : Bool) (k : DcuFinding) (x y : Bool) (c : Chip) : Chip :=
  c.clocked P.DCU fun c =>
    if !c.twRuns t then c
    else
      let st := c.rd64 (R.TWN_STAMP (b2n t) 0)
      match k with
      | .pair =>
        match c.rbNext t with
        | some e => (c.trailed t e.stamp).verdict t 1 x y (if e.space = .reg then e.a else 0) e.stamp fun c => c.rbMatched t
        | none => c
      | .rbUe =>
        match c.rbNext t with
        | some e => c.verdict t 4 true true 0 e.stamp id
        | none => c
      | .ifqUe => (c.mism 5 t x y 0 st).latent t
      | .undoUe => (c.mism 6 t x y 0 st).latent t

/-! ### Checkpoints (R549 to R552, R559) -/

/-- A checkpoint at `stamp` with `lag`, which both cores have come to (R549). -/
def Chip.checkpoint (c : Chip) (t : Bool) (stamp lag : Nat) : Chip :=
  (((c.wr64 (R.TWN_STAMP (b2n t) 0) stamp).setF (R.TWN_STAT (b2n t)) F.TWN_STAT_LAG lag).updTwin t fun x =>
    { x with cks := x.cks + 1 }).trailed t stamp

/-- CHECKPOINT (R549): the verdicts are on the signature pair. -/
def doCheckpoint (t : Bool) (stamp : BitVec 64) (lag : BitVec 12) (x y : Bool) (c : Chip) : Chip :=
  c.via fun c =>
    if !c.twRuns t then c
    else (c.checkpoint t stamp.toNat lag.toNat).verdict t 2 x y 0 stamp.toNat fun c => c.incWrap R.DCU_CNT F.DCU_CNT_CKPT

/-- A matched deep checkpoint becomes the restart point (R551, R552, R559, R566). -/
def Chip.deepMatch (c : Chip) (t : Bool) (stamp : Nat) : Chip :=
  let warm := (c.twin t).warm
  let c : Chip := (c.incWrap R.DCU_CNT F.DCU_CNT_DEEP).wr64 (R.TWN_DEEP (b2n t) 0) stamp
  let c : Chip := c.updTwin t fun x => { x with undo := [], cks := 0, warm := false }
  let c : Chip :=
    if warm then ((c.flag (R.TWN_STAT (b2n t)) F.TWN_STAT_DEGR false).repair (b2n t)).raise (P.TWN (b2n t)) 1 else c
  c.twAnchorStart t stamp

/-- DEEP_CHECKPOINT (R550): the verdicts are on the signature pair, then on the deep hash pair. One that comes before the 200th
checkpoint is counted as early (R552). -/
def doDeepCheckpoint (t : Bool) (stamp : BitVec 64) (lag : BitVec 12) (sx sy hx hy : Bool) (c : Chip) : Chip :=
  c.via fun c =>
    if !c.twRuns t then c
    else
      let early := decide ((c.twin t).cks + 1 < 200)
      let c : Chip := c.checkpoint t stamp.toNat lag.toNat
      let c : Chip := if early then c.incSat (R.TWN_CNT_0 (b2n t)) F.TWN_CNT_0_DEEP_EARLY else c
      c.verdict t 2 sx sy 0 stamp.toNat fun c =>
        (c.incWrap R.DCU_CNT F.DCU_CNT_CKPT).verdict t 3 hx hy 0 stamp.toNat fun c => c.deepMatch t stamp.toNat

/-! ### Restarts (R558) -/

/-- SYS.RST_CAUSE counts a restart of twin `t`. -/
def Chip.countRestart (c : Chip) (t : Bool) : Chip :=
  c.incSat R.SYS_RST_CAUSE (if t then F.SYS_RST_CAUSE_TWIN_B_RESTARTS else F.SYS_RST_CAUSE_TWIN_A_RESTARTS)

/-- WARM_RESTART_RUN (R558 step 8): the cores start with the stamp of the restart point. -/
def doWarmRestartRun (t : Bool) (c : Chip) : Chip :=
  c.via fun c =>
    if c.twState t = Tw.restoring then
      let c : Chip := ((c.setTw t Tw.run).wr64 (R.TWN_STAMP (b2n t) 0) (c.rd64 (R.TWN_DEEP (b2n t) 0))).countRestart t
      c.lapLong 0x0C 0 [c.mode.code, 1 + 256 * b2n t]
    else c

/-! ### Comparator self-test (R555) -/

/-- A wrong or missing test verdict on the lane of twin `t`. -/
def Chip.testFail (c : Chip) (t x y : Bool) : Chip :=
  ((c.mism 8 t x y 0 (c.rd64 (R.TWN_STAMP (b2n t) 0))).raise P.DCU 2).cause 0x0B 8 (b2n t)

/-- DCU_SELFTEST (R555): the verdicts of DCU-X and DCU-Y on the differing pair (`xd`, `yd`) and on the identical pair
(`xe`, `ye`); true is MISMATCH. -/
def doDcuSelftest (t xd yd xe ye : Bool) (c : Chip) : Chip :=
  c.clocked P.DCU fun c =>
    let inj := decide ((c.twin t).inj = 4)
    let c : Chip := if inj then c.injected t else c
    let xd := xd && !inj
    let x := xd && !xe
    let y := yd && !ye
    let c : Chip := (c.flag R.DCU_STAT F.DCU_STAT_ST_X_OK x).flag R.DCU_STAT F.DCU_STAT_ST_Y_OK y
    let c : Chip := c.updRed fun r => { r with testBit := upd r.testBit (b2n t) fun b => (b + 1) % 128 }
    if x && y then c.incWrap R.SHD_ST_STAT F.SHD_ST_STAT_DCU_TESTS else c.testFail t xd yd

/-- DCU_SELFTEST_MISSED (R555). -/
def doDcuSelftestMissed (t : Bool) (c : Chip) : Chip := c.clocked P.DCU fun c => c.testFail t false false

/-- DCU.CMD (R576). -/
def Chip.dcuCmd (c : Chip) (op : Nat) (t : Bool) (i : Nat) : Chip :=
  if (c.mode = .ready ∨ c.mode = .safe ∨ c.mode = .replay) ∧ 1 ≤ op ∧ op ≤ 4 then
    (c.updTwin t fun x => { x with inj := op }).showInj
  else c.refuse R.DCU_CMD i

/-- DCU.CMD INJECT_OUTPUT (R576). -/
def doDcuInjectOutput (w : Writer) (key : BitVec 16) (t : Bool) (c : Chip) : Chip :=
  c.cmd R.DCU_CMD w key fun c => c.dcuCmd 1 t w.ini.code
/-- DCU.CMD INJECT_LATENT (R576). -/
def doDcuInjectLatent (w : Writer) (key : BitVec 16) (t : Bool) (c : Chip) : Chip :=
  c.cmd R.DCU_CMD w key fun c => c.dcuCmd 2 t w.ini.code
/-- DCU.CMD INJECT_DISAGREE (R576). -/
def doDcuInjectDisagree (w : Writer) (key : BitVec 16) (t : Bool) (c : Chip) : Chip :=
  c.cmd R.DCU_CMD w key fun c => c.dcuCmd 3 t w.ini.code
/-- DCU.CMD INJECT_STMISS (R576). -/
def doDcuInjectStmiss (w : Writer) (key : BitVec 16) (t : Bool) (c : Chip) : Chip :=
  c.cmd R.DCU_CMD w key fun c => c.dcuCmd 4 t w.ini.code

/-! ### Private regions (R542, R552) -/

/-- The key in the private copy of byte `a` of SRAM or DRAM. -/
def privKey (space : MemSpace) (a : Nat) : Nat := if space = .dram then 2 ^ 29 + a else a

/-- Whether byte `a` of a memory lies in the private region of twin `t` (R542, R575). -/
def Chip.isPriv (c : Chip) (t : Bool) (space : MemSpace) (a : Nat) : Bool :=
  match space with
  | .reg => false
  | .sram =>
    let w := c.rd (R.TWN_PRIV_S (b2n t))
    decide (4096 * fget w F.TWN_PRIV_S_BASE ≤ a) && decide (a < 4096 * (fget w F.TWN_PRIV_S_BASE + fget w F.TWN_PRIV_S_SIZE))
  | .dram =>
    let w := c.rd (R.TWN_PRIV_D (b2n t))
    decide (65536 * fget w F.TWN_PRIV_D_BASE ≤ a) && decide (a < 65536 * (fget w F.TWN_PRIV_D_BASE + fget w F.TWN_PRIV_D_SIZE))

/-- One byte of the private copy is written, its old content kept once (R552). -/
def TwinSt.put (x : TwinSt) (k : Nat) (b : Byte) : TwinSt :=
  { x with priv := x.priv.put unwritten k b,
           undo := if x.undo.any fun e => e.1 = k then x.undo else x.undo ++ [(k, x.priv.get unwritten k)] }

/-- A store of the masked bytes of `data` to the private copy. -/
def Chip.privStore (c : Chip) (t : Bool) (space : MemSpace) (a data mask : Nat) : Chip :=
  c.updTwin t fun x => forN 8 (fun i x =>
    if nbit mask i then x.put (privKey space (a + i)) (BitVec.ofNat 8 (data / 256 ^ i)) else x) x

/-! ### Replay (R570) -/

/-- STATE_REQ ENTER_REPLAY (R21, R570): from READY with SGR removed and the Lap log FROZEN or IMPORT. -/
def Chip.reqReplay (c : Chip) : Chip :=
  if c.mode = .ready && !c.safe.sgr && (decide (c.lapState = Ls.frozen) || decide (c.lapState = Ls.importing)) then
    (((c.enter .replay).soutUpdate).scfgRollback).reqResult 1
  else c.reqResult 2

/-- STATE_REQ_ENTER_REPLAY (R570). -/
def doStateReqEnterReplay (w : Writer) (key : BitVec 16) (late : Bool) (c : Chip) : Chip := c.stateReq w key late Chip.reqReplay

/-! ### The commands -/

/-- DCU_VERDICT (R556). -/
def execDcuVerdict (t : Bool) (k : DcuFinding) (x y : Bool) (s : State) : Host.Outcome State Fault Refusal :=
  .next (s.onChip (doDcuVerdict t k x y))
/-- CHECKPOINT (R549). -/
def execCheckpoint (t : Bool) (stamp : BitVec 64) (lag : BitVec 12) (x y : Bool)
    (s : State) : Host.Outcome State Fault Refusal :=
  .next (s.onChip (doCheckpoint t stamp lag x y))
/-- DEEP_CHECKPOINT (R550). -/
def execDeepCheckpoint (t : Bool) (stamp : BitVec 64) (lag : BitVec 12) (sx sy hx hy : Bool)
    (s : State) : Host.Outcome State Fault Refusal :=
  .next (s.onChip (doDeepCheckpoint t stamp lag sx sy hx hy))
/-- WARM_RESTART_RUN (R558). -/
def execWarmRestartRun (t : Bool) (s : State) : Host.Outcome State Fault Refusal :=
  .next (s.onChip (doWarmRestartRun t))
/-- DCU_SELFTEST (R555). -/
def execDcuSelftest (t xd yd xe ye : Bool) (s : State) : Host.Outcome State Fault Refusal :=
  .next (s.onChip (doDcuSelftest t xd yd xe ye))
/-- DCU_SELFTEST_MISSED (R555). -/
def execDcuSelftestMissed (t : Bool) (s : State) : Host.Outcome State Fault Refusal :=
  .next (s.onChip (doDcuSelftestMissed t))
/-- DCU_INJECT_OUTPUT (R576). -/
def execDcuInjectOutput (w : Writer) (key : BitVec 16) (t : Bool) (s : State) : Host.Outcome State Fault Refusal :=
  .next (s.onChip (doDcuInjectOutput w key t))
/-- DCU_INJECT_LATENT (R576). -/
def execDcuInjectLatent (w : Writer) (key : BitVec 16) (t : Bool) (s : State) : Host.Outcome State Fault Refusal :=
  .next (s.onChip (doDcuInjectLatent w key t))
/-- DCU_INJECT_DISAGREE (R576). -/
def execDcuInjectDisagree (w : Writer) (key : BitVec 16) (t : Bool) (s : State) : Host.Outcome State Fault Refusal :=
  .next (s.onChip (doDcuInjectDisagree w key t))
/-- DCU_INJECT_STMISS (R576). -/
def execDcuInjectStmiss (w : Writer) (key : BitVec 16) (t : Bool) (s : State) : Host.Outcome State Fault Refusal :=
  .next (s.onChip (doDcuInjectStmiss w key t))
/-- STATE_REQ_ENTER_REPLAY (R570). -/
def execStateReqEnterReplay (w : Writer) (key : BitVec 16) (late : Bool)
    (s : State) : Host.Outcome State Fault Refusal :=
  .next (s.onChip (doStateReqEnterReplay w key late))

end Sys2Proof.Machine
end

