-- ==== Sys2Proof/Machine/Reset.lean ====
section
/-!
DEFINITION. What the resets leave unchanged (R10, R12, R41, R86, R98, R121, R140, R141, R165, R188, R393, R405, R530, R538, R578, R610,
R611, R650): the power-on reset, the loss of the main domain, the device reset and the reset after a false start.
-/
namespace Sys2Proof.Machine
open Sys2Proof

/-! ### Registers that a reset leaves -/

/-- The registers held in the survival domain (R140, R188, R405, R530, R532, R610, R645). -/
def survKey (k : Nat) : Bool :=
  let b := pageBase k
  decide (b = P.RTC) || decide (b = P.ACMP) || decide (b = P.SURV) || decide (b = P.HRV) || decide (b = P.STORE)
    || decide (k = R.BOOT_NEXT) || (decide (R.BOOT_FS 0 ≤ k) && decide (k ≤ R.BOOT_FS 3))
    || (decide (R.MTR_LOSS_SEC 0 ≤ k) && decide (k ≤ R.MTR_CO_STOP_SEC 0))
    || decide (k = R.SHD_SEALED_CRC) || decide (k = R.SHD_LOG_SEQ)
    || (decide (R.SHD_LOG_HEAD 0 ≤ k) && decide (k ≤ R.SHD_LOG_HEAD 7))

/-- Whether the page at `b` is a safety page (R538). -/
def safetyPage (b : Nat) : Bool := decide (P.SHD ≤ b) && decide (b ≤ P.SCFG)

/-- The registers that a device reset leaves unchanged as wholes. -/
def devKey (k : Nat) : Bool :=
  let b := pageBase k
  survKey k || safetyPage b || decide (b = P.CLK) || decide (b = P.HTM) || decide (k = R.EVR_OVR)
    || (decide (R.AFE_CAL_OFS 0 ≤ k) && decide (k ≤ R.AFE_CAL_GAIN4 11))
    || ((decide (b = P.MTR 0) || decide (b = P.MTR 1)) && mtrKept (k % 0x1000))
    || decide (k = R.PQM_P_STAT 0) || decide (k = R.PQM_P_STAT 1)
    || (decide (Key.pq 0 0 0 ≤ k) && decide (k < Key.pq 2 0 0))
    || decide (k = R.LAP_HEAD) || decide (k = R.LAP_RST_HEAD) || decide (k = R.LAP_TWA) || decide (k = R.LAP_TWB)

/-- Fields that a device reset leaves unchanged, or that show a pin, a strap, OTP or the regulator as it stands: registers with the
mask of those bits. -/
def devFields : List (Nat × Nat) :=
  [(R.SYS_RST_CAUSE, 0x1), (R.SYS_SAFE_CAUSE, 0xFF0000), (R.AFE_STAT, 0xFFF0000), (R.VAUX_STAT, 0xE0000000),
   (R.VCR_STAT, 0xDFC003FF), (R.BOOT_STAT, 0x38030000), (R.HPT_STAT, 0x80000000), (R.SEC_STAT, 0x7F)] ++
  ((List.range 2).map fun p => (R.MTR_STAT p, 2 ^ F.MTR_STAT_WRAP.lo)) ++ [(R.MTR_SAVE_STAT 0, 2 ^ F.MTR_SAVE_STAT_BUSY.lo)] ++
  ((List.range 4).map fun k => (R.VCR_PH_STAT k, 0xFFFFFFFF)) ++
  ((List.range 24).map fun k => (R.SEC_ID_PUB k, 0xFFFFFFFF)) ++
  ((List.range 16).map fun n => (R.GDI_STAT n, 0x3F00000)) ++
  ((List.range 8).map fun n => (R.LANE_MOD_STAT n, 0xC0000000))

/-- Every register for which `keep` does not hold returns to reset, but for the bits that `fields` names. -/
def Chip.resetRegs (c : Chip) (keep : Nat → Bool) (fields : List (Nat × Nat)) : Chip :=
  let c' : Chip := c.resetKeys fun k => !keep k
  fields.foldl (fun d e => d.wr e.1 ((regReset e.1 &&& ~~~ wd e.2) ||| (c.rd e.1 &&& wd e.2))) c'

/-- PG_CRC of the pages for which `whole` holds is that of their reset configuration; of the others it is recomputed
(R60). -/
def Chip.resetCrc (c : Chip) (kept : Nat → Bool) : Chip :=
  { c with crc := c.crc.keep kept, crcBusy := c.crcBusy.filter kept }

/-! ### Blocks -/

/-- The blocks of the main domain that hold configuration and run state return to reset (R86, R197, R244, R261, R271, R353,
R380, R448, R495); metering keeps its residues. -/
def Chip.resetBlocks (c : Chip) : Chip :=
  { c with
    bus := { BusSt.init with poolPeak := c.bus.poolPeak },
    meas := { acmp := c.meas.acmp.map fun x => { x with testing := false } },
    str := {}, bpt := List.replicate 4 {}, hrd := {}, isl := {}, imp := {}, pwm := {},
    mtr := { c.mtr with port := c.mtr.port.map fun p => { ({} : MtrPort) with res := p.res } },
    lanes := List.replicate 8 {}, ethBusy := [false, false], out := [], fab := { dly := c.fab.dly, dlyLane := c.fab.dlyLane } }

/-- The twins stop with empty buffers (R578); the Sheepdog's history of latent divergences stays (R560). -/
def Chip.resetTwins (c : Chip) : Chip :=
  c.updRed fun r => { r with
    twins := r.twins.map fun x => { ({} : TwinSt) with
      priv := x.priv, lastLat := x.lastLat, hist := x.hist, warm := x.warm, anchorAt := x.anchorAt },
    taken := [] }

/-! ### Power-on reset -/

/-- The main domain as power-on reset leaves it, the survival domain as it is (R10, R12, R140, R188, R405, R530, R532, R610): the
Sheepdog starts afresh but for the seal, which the survival domain watches, and its queue of log entries. -/
def Chip.porReset (c : Chip) : Chip :=
  let d : Chip := Chip.reset
  { d with
    mode := c.mode, regs := c.regs.keep survKey,
    crc := c.crc.keep fun b => survKey b, crcBusy := c.crcBusy.filter fun b => survKey b, freeCtr := c.freeCtr,
    safe := { d.safe with survLog := c.safe.survLog },
    time := { d.time with calSec := c.time.calSec, calSub := c.time.calSub, setPend := c.time.setPend, rcCal := c.time.rcCal,
                          xtalFailed := c.time.xtalFailed },
    meas := { d.meas with acmp := c.meas.acmp },
    mtr := { d.mtr with coRes := c.mtr.coRes, coStopDue := c.mtr.coStopDue },
    shd := { d.shd with sealOpen := c.shd.sealOpen },
    pow := c.pow,
    boot := { d.boot with idMade := c.boot.idMade } }

/-- The main domain is without power: its registers and memories are lost (R21); the survival domain goes on. -/
def State.mainLost (s : State) : State :=
  { s with chip := s.chip.porReset, mem := { s.mem with sram := [], dram := [] } }

/-- The power-on reset into BOOT (R21, R103). -/
def State.powerOn (s : State) : State :=
  s.mainLost.onChip fun c =>
    let c : Chip := { c with mode := .boot }
    let c : Chip := (c.setF R.SURV_STAT F.SURV_STAT_SUB 0).setF R.SURV_STAT F.SURV_STAT_TASK 0
    c.logShow

/-! ### Device reset -/

/-- The pages whose contents a device reset changes only in part. -/
def partKept (b : Nat) : Bool :=
  decide (b = P.BOOT) || decide (b = P.AFE) || decide (b = P.MTR 0) || decide (b = P.MTR 1) || decide (b = P.PQM)

/-- The CFG words of the gate-drive instances, whose polarities STAT shows the pins under. -/
def Chip.gdiCfgs (c : Chip) : List Word := (List.range 16).map fun n => c.rd (R.GDI_CFG n)

/-- Where the latch stands before a device reset in RUN or DEGRADED resets anything: the safe state with cause RESET_REQUEST
(R32). -/
def Chip.resetLatch (c : Chip) : Chip :=
  if c.running then (c.latch 0x11 9 0).logSafe 0x11 c.mode.code 9 0 else c

/-- The demands that show what XMD channels and GDI instances ask of the Sheepdog end with those blocks' reset; the comparators' stay
(R178, R184, R369, R536). -/
def Chip.demandsReset (c : Chip) : Chip := (c.wrN R.SHD_DEMAND_XMD 0).wr R.SHD_DEMAND_AG (c.rd R.SHD_DEMAND_AG &&& 0xFFFF#32)

/-- Registers, fields and blocks of the main domain return to reset; the safety pages stay (R41, R538, R578), but the demands follow the
blocks that made them. -/
def Chip.devReset (c : Chip) : Chip :=
  let frozen := decide (c.lapState = Ls.frozen) || decide (c.mode = .replay)
  let cfg := c.gdiCfgs
  let c : Chip := (c.resetRegs devKey devFields).resetCrc fun b => devKey b || partKept b
  let c : Chip := { c with
    crcBusy := c.crcBusy ++ [P.BOOT, P.AFE, P.MTR 0, P.MTR 1, P.PQM].filter fun b => !c.crcBusy.contains b }
  let c : Chip := { c.resetBlocks.resetTwins.demandsReset.acmpUntest with lap := {} }
  let c : Chip := forN 16 (fun n c => c.gdiPol n (nth cfg n 0)) c
  if frozen then c.setLap Ls.frozen else c

/-- The history of latent divergences ends with the safe state that a repeat caused (R560). -/
def Chip.histReset (c : Chip) (from' : Mode) (cause : Nat) : Chip :=
  if from' = .safe ∧ cause = 0x09 then
    c.updRed fun r => { r with twins := r.twins.map fun x => { x with lastLat := none, hist := 0, warm := false } }
  else c

/-- The chip after a device reset; `src` is the bit of SYS.RST_CAUSE of its source (R32, R41, R528). -/
def Chip.deviceReset (c : Chip) (src : Nat) : Chip :=
  let from' := c.mode
  let cause := c.f R.SYS_SAFE_CAUSE F.SYS_SAFE_CAUSE_CAUSE
  let c : Chip := ((c.credStop 4).resetLatch.devReset).histReset from' cause
  let c : Chip := { c with
    mode := .boot, safe := { c.safe with stopping := false }, shd := { c.shd with twinsUp := false },
    boot := { ({} : BootSt) with cold := false, mode := c.boot.mode, hostSel := c.boot.hostSel, idMade := c.boot.idMade } }
  let c : Chip := ((c.setF R.SYS_STATE F.SYS_STATE_PREV from'.code).setBit R.SYS_RST_CAUSE src true).wr64 (R.SYS_STATE_HT 0) c.htNs
  ((c.raise P.SYS 0).setSgr false).gates

/-- A device reset of the whole device in a powered state: the Lap log freezes first where FRZ_ON_RESET asks for it (R569). -/
def State.deviceReset (s : State) (src : Nat) : State :=
  if !s.chip.powered then s
  else
    let s := if s.chip.is R.LAP_CTL F.LAP_CTL_FRZ_ON_RESET then s.lapFreeze else s.lapDrain
    s.onChip fun c => c.deviceReset src

/-- The bit of SYS.RST_CAUSE for a writer of SYS.RST_CTL: FIRMWARE for a twin, FABRIC for a session, else HOST. -/
def rstBit (i : Nat) : Nat := match i with | 1 | 2 => 2 | 4 => 4 | _ => 3

/-- DEVICE_RESET through SYS.RST_CTL (R41). -/
def mdDeviceReset (w : Writer) (key : BitVec 16) (s : State) : State :=
  s.cmd R.SYS_RST_CTL w key fun s => s.deviceReset (rstBit w.ini.code)

/-- RESET_N is held for 1 µs (R35, R658). -/
def mdResetNAssert (s : State) : State :=
  (s.deviceReset 1).onChip fun c => { c with boot := { c.boot with held := true } }

/-- RESET_N is released; the starting block goes on from step 3 (R658). -/
def doResetNRelease (c : Chip) : Chip := { c with boot := { c.boot with held := false } }

/-- What a false start returns to reset (R626): every page but SYS, CLK, HTM, RTC, BOOT and the safety pages, by the rules of a
device reset. -/
def Chip.falseReset (c : Chip) : Chip :=
  let cfg := c.gdiCfgs
  let frozen := decide (c.lapState = Ls.frozen)
  let keep := fun k => devKey k || decide (pageBase k = P.SYS) || decide (pageBase k = P.BOOT)
  let c : Chip := (c.resetRegs keep (devFields.filter fun e => pageBase e.1 ≠ P.SYS ∧ pageBase e.1 ≠ P.BOOT)).resetCrc
    fun b => keep b || partKept b
  let c : Chip := forN 16 (fun n c => c.gdiPol n (nth cfg n 0)) c.resetBlocks.resetTwins.demandsReset.acmpUntest
  let c : Chip := { c.gates with lap := {} }
  let c : Chip := if frozen then c.setLap Ls.frozen else c
  let c : Chip := c.flag R.BOOT_LIVE F.BOOT_LIVE_BUSY false
  { c with
    shd := { c.shd with twinsUp := false },
    boot := { c.boot with live := none, ready := none, backs := [], before := [none, none], sec := none, otp := none, posted := [],
                          copy := none } }

/-! ### The commands -/

/-- DEVICE_RESET (R41). -/
def execDeviceReset (w : Writer) (key : BitVec 16) (s : State) : Host.Outcome State Fault Refusal :=
  .next (mdDeviceReset w key s)
/-- RESET_N_ASSERT (R35). -/
def execResetNAssert (s : State) : Host.Outcome State Fault Refusal :=
  .next (mdResetNAssert s)
/-- RESET_N_RELEASE (R658). -/
def execResetNRelease (s : State) : Host.Outcome State Fault Refusal :=
  .next (s.onChip doResetNRelease)

end Sys2Proof.Machine
end

