-- ==== Sys2Proof/Machine/Power.lean ====
section
/-!
DEFINITION. The supplies of the main domain (R580 to R592, R655, R656): the auxiliary input, the core regulator and its phases, and
the transitions between the powered and the unpowered states (R21).
-/
namespace Sys2Proof.Machine
open Sys2Proof

/-! ### The survival domain's supply and sub-state (R593, R601) -/

/-- VSTORE at rest as last compared, in mV (R596, R603). -/
def Chip.vstore (c : Chip) : Nat := c.pow.rest

/-- T_MEAS in mV. -/
def Chip.tMeas (c : Chip) : Nat := 10 * c.f R.STORE_THR1 F.STORE_THR1_T_MEAS

/-- The sub-state and the running task (R601): of SURVIVAL; the main domain powered is AWAKE. -/
def Chip.survShow (c : Chip) : Chip :=
  let bcn := match c.pow.bcn with | some b => decide (b.kind ≠ 3) | none => false
  let sub :=
    if c.mode ≠ .survival then 0
    else if bcn then 4
    else if c.pow.co then 3
    else if c.is R.SURV_CFG F.SURV_CFG_BASE && decide (c.tMeas ≤ c.vstore) then 2 else 1
  let enters := decide (c.f R.SURV_STAT F.SURV_STAT_SUB = 2) && decide (sub = 1) && !c.time.xtalFailed
  let c : Chip := (c.setF R.SURV_STAT F.SURV_STAT_SUB sub).setF R.SURV_STAT F.SURV_STAT_TASK
    (if bcn then 2 else if c.pow.co then 3 else 0)
  -- the RC oscillator is calibrated on entry to HIBERNATE from DORMANT (R136)
  let c : Chip := if enters then { c with time := { c.time with rcCal := true } } else c
  -- the calendar's source (R135, R144); the reserved mode leaves it
  match c.f R.RTC_CTL F.RTC_CTL_MODE with
  | 0 => c.flag R.RTC_STAT F.RTC_STAT_ON_RC c.time.xtalFailed
  | 1 => c.flag R.RTC_STAT F.RTC_STAT_ON_RC true
  | 2 => c.flag R.RTC_STAT F.RTC_STAT_ON_RC (c.time.xtalFailed || decide (sub = 1))
  | _ => c

/-- Whether the store is a lithium cell. -/
def Chip.storeLi (c : Chip) : Bool := !c.is R.STORE_CFG F.STORE_CFG_KIND

/-- A charge source is present: VAUX or the harvester. -/
def Chip.chgSource (c : Chip) : Bool :=
  c.is R.VAUX_STAT F.VAUX_STAT_PG || decide (c.f R.HRV_STAT F.HRV_STAT_ACTIVE ≠ 0)

/-- Whether the temperature of the lithium cell lies outside the window from `lo` to `hi` of STORE.NTC (R597, R598). -/
def Chip.cellOut (c : Chip) (lo hi : Fld) : Bool :=
  let t := c.fs R.STORE_STAT2 F.STORE_STAT2_LI_TEMP
  c.storeLi && (decide (t < c.fs R.STORE_NTC lo) || decide (c.fs R.STORE_NTC hi < t))

/-- CHARGING and LI_CONN follow what charging and protection allow (R597, R598). -/
def Chip.chgFollow (c : Chip) : Chip :=
  let go := c.is R.STORE_CFG F.STORE_CFG_CHG_EN && c.chgSource && !c.is R.STORE_STAT F.STORE_STAT_CHG_DONE
    && !nbit c.pow.prot 0 && !c.cellOut F.STORE_NTC_CHG_LO F.STORE_NTC_CHG_HI
  (c.flag R.STORE_STAT F.STORE_STAT_CHARGING go).flag R.STORE_STAT F.STORE_STAT_LI_CONN
    (c.storeLi && decide (c.pow.prot / 2 = 0))

/-- STORE.STAT.SUPPLY: VAUX while VAUX power-good holds (R593); VAUX is a charge source too (R597). -/
def Chip.supply (c : Chip) : Chip :=
  if c.pow.survUp then (c.flag R.STORE_STAT F.STORE_STAT_SUPPLY (c.is R.VAUX_STAT F.VAUX_STAT_PG)).chgFollow else c

/-- The survival domain starts from unpowered: its registers at reset, the thresholds of the strapped kind (R594, R617); the
calendar has lost its time (R401). -/
def Chip.survStart (c : Chip) : Chip :=
  let c : Chip := c.resetRegs (fun k => !survKey k) []
  let c : Chip := { c.resetCrc (fun b => !survKey b) with
    time := { c.time with calSec := 0, calSub := 0, setPend := false, rcCal := false, xtalFailed := false },
    safe := { c.safe with survLog := [] }, mtr := { c.mtr with coRes := ⟨0, 0⟩, coStopDue := false },
    meas := { c.meas with acmp := List.replicate 16 {} },
    pow := { ({} : PowSt) with ref := c.pow.ref, refT := c.pow.refT, rails := c.pow.rails, load := c.pow.load, cap := c.pow.cap } }
  if c.pow.cap then
    ((((c.wrN R.STORE_CFG 0xC014010E).wrN R.STORE_THR0 0xB400BE).wrN R.STORE_THR1 0xC800D2).wrN R.STORE_THR2 0xE6).wrN
      R.STORE_CEQ 0x2710
  else c

/-! ### Regulator reference (R585, R586) -/

/-- TARGET in 0.1 mV. -/
def Chip.target (c : Chip) : Nat := 10 * c.f R.VCR_CTL F.VCR_CTL_TARGET

/-- The reference in force and the time of its last update: one step of at most SLEW × 0.1 mV each microsecond (R586). -/
def Chip.refNow (c : Chip) : Nat × Nat :=
  let n := (c.htNs - c.pow.refT) / 1000
  let d := n * c.f R.VCR_CTL F.VCR_CTL_SLEW
  (if c.pow.ref ≤ c.target then min c.target (c.pow.ref + d) else max c.target (c.pow.ref - d), c.pow.refT + 1000 * n)

/-- The reference becomes `r` at time `t`, as VCR.STAT shows it. -/
def Chip.setRef (c : Chip) (r t : Nat) : Chip :=
  let c : Chip := c.updPow fun p => { p with ref := r, refT := t }
  (c.setF R.VCR_STAT F.VCR_STAT_REF (r / 10)).flag R.VCR_STAT F.VCR_STAT_SLEWING (decide (r ≠ c.target))

/-- Whether SLEW and TARGET may be written (R586). -/
def slewOk (slew target : Nat) : Bool :=
  decide (1 ≤ slew) && decide (slew ≤ 100) && decide (650 ≤ target) && decide (target ≤ 1000)

/-- A write to VCR.CTL (R586): retargets from the reference in force, or is refused. -/
def Chip.vcrCtl (c : Chip) (v : Word) (i : Nat) : Chip :=
  if slewOk (fget v F.VCR_CTL_SLEW) (fget v F.VCR_CTL_TARGET) then
    let (r, t) := c.refNow
    (c.wr R.VCR_CTL (v &&& 0xFF03FF#32)).setRef r t
  else c.refuse R.VCR_CTL i

/-- VCR_TARGET_WRITE (R586). -/
def doVcrTargetWrite (w : Writer) (v : BitVec 32) (c : Chip) : Chip := c.put R.VCR_CTL w fun c => c.vcrCtl v w.ini.code

/-- What the regulator does on its own clock, which the lock of the root does not gate (R103, R587), unless VCR is halted (R55). -/
def Chip.regulator (c : Chip) (g : Chip → Chip) : Chip := c.viaShd fun c => if c.halted P.VCR then c else g c

/-- The reference reaches TARGET (R586). -/
def doSlewDone (c : Chip) : Chip :=
  c.regulator fun c =>
    if c.is R.VCR_STAT F.VCR_STAT_SLEWING then (c.setRef c.target c.htNs).raise P.VCR 3 else c

/-! ### Phases (R587 to R592) -/

/-- Phase `n` is shut down, or in warning. -/
def Chip.phShut (c : Chip) (n : Nat) : Bool := c.is (R.VCR_PH_STAT n) F.VCR_PH_STAT_SHUT
/-- Phase `n` is in warning. -/
def Chip.phWarn (c : Chip) (n : Nat) : Bool := c.is (R.VCR_PH_STAT n) F.VCR_PH_STAT_WARN

/-- The available phases in ascending order from the rotation base (R590). -/
def Chip.phAvail (c : Chip) : List Nat :=
  let k := c.f R.VCR_STAT F.VCR_STAT_BASE
  ((List.range 4).map fun i => (k + i) % 4).filter fun n => !c.phShut n

/-- The number of active phases. -/
def Chip.phN (c : Chip) : Nat := ((List.range 4).filter fun n => nbit (c.f R.VCR_STAT F.VCR_STAT_ACTIVE) n).length

/-- The first `n` available phases, those in warning last (R590). -/
def Chip.phFirst (c : Chip) (n : Nat) : List Nat :=
  let av := c.phAvail
  ((av.filter fun k => !c.phWarn k) ++ av.filter c.phWarn).take n

/-- The active set of `n` phases as VCR.STAT shows it. -/
def Chip.phMask (c : Chip) (n : Nat) : Nat := ((c.phFirst n).map (2 ^ ·)).sum

/-- The active set becomes that of `n` phases; PH_CHG where the count changes (R590). -/
def Chip.setPhases (c : Chip) (n : Nat) : Chip :=
  let old := c.phN
  let new := (c.phFirst n).length
  let c : Chip := c.setF R.VCR_STAT F.VCR_STAT_ACTIVE (c.phMask n)
  c.raiseIf (decide (new ≠ old)) P.VCR 4

/-- The currents of the four phases averaged over one period are shown; the sum, in 0.1 A, and that of the period before (R588). -/
def Chip.phLoad (c : Chip) (i : List (BitVec 8)) : Nat × Nat × Chip :=
  let sum := (i.map (·.toNat)).sum
  let c' : Chip := forN 4 (fun n c => c.setF (R.VCR_PH_STAT n) F.VCR_PH_STAT_I (nth i n 0).toNat) c
  (sum, c.pow.load, c'.updPow fun p => { p with load := sum })

/-- I_ADD of `n` phases, I_SHED and STEP in 0.1 A; MAX_PH and MIN_PH. -/
def Chip.iAdd (c : Chip) (n : Nat) : Nat := n * c.f R.VCR_THR F.VCR_THR_I_ADD
/-- The greatest number of active phases. -/
def Chip.maxPh (c : Chip) : Nat := c.f R.VCR_PH_CFG F.VCR_PH_CFG_MAX_PH

/-- Whether the shed condition holds at load `i` (R588). -/
def Chip.shedCond (c : Chip) (i : Nat) : Bool :=
  decide (i < (c.phN - 1) * c.f R.VCR_THR F.VCR_THR_I_SHED) && decide (c.f R.VCR_PH_CFG F.VCR_PH_CFG_MIN_PH < c.phN)

/-- SHED_PEND shows whether a shed is pending. -/
def Chip.showShed (c : Chip) (b : Bool) : Chip := c.flag R.VCR_STAT F.VCR_STAT_SHED_PEND b

/-- The regulator takes the phase currents of one switching period (R588, R589): a step before an add, an add before a shed; `due` says
that the shed condition has now held for HYS_MS. -/
def Chip.phPeriod (c : Chip) (amps : List (BitVec 8)) (due : Bool) : Chip :=
  let (i, was, c) := c.phLoad amps
  let n := c.phN
  let av := c.phAvail.length
  if 2 * was + 5 * c.f R.VCR_THR F.VCR_THR_STEP < 2 * i then
    let m := max n (min c.maxPh av)
    let c : Chip := (c.setPhases m).incSat R.VCR_CNT_0 F.VCR_CNT_0_ADDS (m - n)
    ((c.incSat R.VCR_CNT_1 F.VCR_CNT_1_STEPS).showShed false).raise P.VCR 2
  else if c.iAdd n < i ∧ n < c.maxPh ∧ n < av then
    ((c.setPhases (n + 1)).incSat R.VCR_CNT_0 F.VCR_CNT_0_ADDS).showShed false
  else if due ∧ c.shedCond i then
    let c : Chip := (c.setPhases (n - 1)).incSat R.VCR_CNT_0 F.VCR_CNT_0_SHEDS
    c.showShed (c.shedCond i)
  else c.showShed (c.shedCond i)

/-- PHASE_ADD (R588, R589): I exceeds n × I_ADD. -/
def doPhaseAdd (i0 i1 i2 i3 : BitVec 8) (c : Chip) : Chip := c.regulator fun c => c.phPeriod [i0, i1, i2, i3] false

/-- PHASE_STEP (R588, R589): I exceeds that of the period before by more than STEP. -/
def doPhaseStep (i0 i1 i2 i3 : BitVec 8) (c : Chip) : Chip := c.regulator fun c => c.phPeriod [i0, i1, i2, i3] false

/-- PHASE_SHED (R588, R589): the shed condition has held for HYS_MS. -/
def doPhaseShed (i0 i1 i2 i3 : BitVec 8) (c : Chip) : Chip := c.regulator fun c => c.phPeriod [i0, i1, i2, i3] true

/-- PHASE_ROTATE (R590). -/
def doPhaseRotate (c : Chip) : Chip :=
  c.regulator fun c =>
    let n := c.phN
    if c.f R.VCR_PH_CFG F.VCR_PH_CFG_ROT_S ≠ 0 ∧ n < c.phAvail.length then
      (c.incWrap R.VCR_STAT F.VCR_STAT_BASE).setPhases n
    else c

/-- OT_WARN shows whether a phase is in warning. -/
def Chip.showWarn (c : Chip) : Chip := c.flag R.VCR_STAT F.VCR_STAT_OT_WARN ((List.range 4).any c.phWarn)

/-- The temperature of phase `n` as PHn_STAT shows it: 8 signed bits, held at their ends. -/
def Chip.phTemp (c : Chip) (n : Nat) (t : Int) : Chip :=
  c.setF (R.VCR_PH_STAT n) F.VCR_PH_STAT_TEMP (unsgn 8 (clampI (-128) 127 t))

/-- Phase `n` enters warning (R591): another available phase takes its place (R590; log entry 85, DEDUCED). -/
def Chip.phWarnOn (c : Chip) (n : Nat) : Chip :=
  if c.phWarn n then c
  else
    let c : Chip := (c.flag (R.VCR_PH_STAT n) F.VCR_PH_STAT_WARN true).showWarn
    (c.setPhases c.phN).raise P.VCR 0

/-- PHASE_OVER_TEMP (R591): phase `n` measures `temp`; 115 °C warns, 135 °C shuts it down with cause OVER_TEMPERATURE. -/
def doPhaseOverTemp (n : Fin 4) (temp : BitVec 9) (c : Chip) : Chip :=
  c.viaShd fun c =>
    let c : Chip := c.phTemp n temp.toInt
    if temp.toInt < 115 then c
    else
      let c : Chip := c.phWarnOn n
      if temp.toInt < 135 ∨ c.phShut n then c
      else
        let m := c.phN
        let c : Chip := (c.flag (R.VCR_PH_STAT n) F.VCR_PH_STAT_SHUT true).incSat R.VCR_CNT_1 F.VCR_CNT_1_SHUTS
        ((c.setPhases m).raise P.VCR 1).cause 0x0F 9 0

/-- OT_WARN_CLEAR (R591): phase `n` falls below 110 °C. -/
def doOtWarnClear (n : Fin 4) (temp : BitVec 9) (c : Chip) : Chip :=
  c.viaShd fun c =>
    let c : Chip := c.phTemp n temp.toInt
    if temp.toInt < 110 then
      let c : Chip := ((c.flag (R.VCR_PH_STAT n) F.VCR_PH_STAT_WARN false).flag (R.VCR_PH_STAT n) F.VCR_PH_STAT_SHUT false).showWarn
      c.setPhases c.phN
    else c

/-- Whether PH_CFG and THR may stand (R592). -/
def phCfgOk (cfg thr : Word) : Bool :=
  decide (fget cfg F.VCR_PH_CFG_MIN_PH ≠ 0) && decide (fget cfg F.VCR_PH_CFG_MIN_PH ≤ fget cfg F.VCR_PH_CFG_MAX_PH)
    && decide (fget thr F.VCR_THR_I_SHED < fget thr F.VCR_THR_I_ADD)

/-! ### Auxiliary input (R580 to R582) -/

/-- RPS_GATE_OFF (R580), in every state: by reverse current, a negative input (`high` false) or more than 62 V (`high` true); the main
domain, where it has power, records and raises it. -/
def doRpsGateOff (high : Bool) (c : Chip) : Chip :=
  if c.is R.VAUX_STAT F.VAUX_STAT_RPS_ON then
    (c.flag R.VAUX_STAT F.VAUX_STAT_RPS_ON false).viaShd fun c =>
      (c.flag R.VAUX_STAT (if high then F.VAUX_STAT_OV_SEEN else F.VAUX_STAT_REV_SEEN) true).raise P.VAUX 1
  else c

/-- RPS_GATE_ON (R580), in every state, with RPS_EN. -/
def doRpsGateOn (c : Chip) : Chip :=
  if c.is R.VAUX_CFG F.VAUX_CFG_RPS_EN then c.flag R.VAUX_STAT F.VAUX_STAT_RPS_ON true else c

/-- On the early warning the oldest 16 entries of the log FIFO move into the survival domain's queue, as far as it has room
(R533). -/
def Chip.logToSurv (c : Chip) : Chip :=
  let n := min 16 (16 - c.safe.survLog.length)
  ({ c with safe := { c.safe with survLog := c.safe.survLog ++ c.safe.log.take n, log := c.safe.log.drop n } }).logShow

/-- An early warning is asserted (R25, R398, R533, R582): in RUN and DEGRADED the device enters SAFE with cause SUPPLY_LOSS, the
power-fail save starts. A warning that coincides with one in force is the same one (R656). -/
def State.earlyWarning (s : State) : State :=
  if !s.chip.powered || s.chip.is R.VAUX_STAT F.VAUX_STAT_EW then s
  else
    let s := s.onChip fun c => (c.flag R.VAUX_STAT F.VAUX_STAT_EW true).incSat R.VAUX_STAT F.VAUX_STAT_EW_COUNT
    let s := s.onChip fun c => c.raise P.VAUX 0
    let s := s.onChip fun c => if c.running then c.cause 0x0D 9 0 else c
    s.mtrPowerFail.onChip Chip.logToSurv

/-- EARLY_WARNING (R582). -/
def mdEarlyWarning (s : State) : State := s.earlyWarning

/-- EW_CLEAR (R582). -/
def doEwClear (c : Chip) : Chip :=
  c.viaShd fun c => if c.is R.VAUX_STAT F.VAUX_STAT_EW then (c.flag R.VAUX_STAT F.VAUX_STAT_EW false).raise P.VAUX 2 else c

/-- A VCORE under-voltage warning (R583). -/
def State.underVoltage (s : State) : State :=
  if s.chip.powered then (s.onChip fun c => c.flag R.VAUX_STAT F.VAUX_STAT_UV_SEEN true).earlyWarning else s

/-- VCORE_UNDER_VOLTAGE (R583). -/
def mdVcoreUnderVoltage (s : State) : State := s.underVoltage

/-- RAIL_MONITOR_FAIL (R656). -/
def mdRailMonitorFail (s : State) : State := s.underVoltage

/-! ### Power good, power lost (R581, R583 to R585, R655) -/

/-- The core regulator starts from the VCORE it measures, in mV (R585). -/
def Chip.regStart (c : Chip) (mv : Nat) : Chip := c.setRef (10 * mv) c.htNs

/-- The device comes up through a power-on reset into BOOT from OFF or SURVIVAL (R21, R103); a survival domain without power
comes up first, and the main domain's comparators restart (R188). A beacon on the port goes on (R593); current-only accounting ends
(R403), and no task is due outside SURVIVAL. -/
def State.powerUp (s : State) (mv : Nat) : State :=
  let ofs := s.chip.is R.VAUX_STAT F.VAUX_STAT_RPS_ON
  let s := s.onChip fun c => if c.pow.survUp then c else (c.survStart).updPow fun p => { p with survUp := true, calLost := true }
  let s := s.onChip fun c => c.updPow fun p => { p with pgCal := c.time.calSec, co := false, wake := none }
  s.powerOn.onChip fun c =>
    let c : Chip := (c.flag R.VAUX_STAT F.VAUX_STAT_PG true).flag R.VAUX_STAT F.VAUX_STAT_RPS_ON ofs
    (((c.regStart mv).supply).survShow).acmpPower

/-- VAUX_POWER_GOOD (R581): in OFF or SURVIVAL the device boots once the rail monitors report good (R655). -/
def mdVauxPowerGood (mv : BitVec 10) (s : State) : State :=
  let s := s.onChip fun c => (c.flag R.VAUX_STAT F.VAUX_STAT_PG true).supply
  if s.chip.powered || !s.chip.pow.rails then s else s.powerUp mv.toNat

/-- POWER_ON_RESET (R103): with VAUX power-good, in OFF, SURVIVAL, or before VCORE power-good. -/
def mdPowerOnReset (mv : BitVec 10) (s : State) : State :=
  let c := s.chip
  if c.is R.VAUX_STAT F.VAUX_STAT_PG && (!c.powered || (decide (c.mode = .boot) && !c.is R.VCR_STAT F.VCR_STAT_PG)) then
    s.powerUp mv.toNat
  else s

/-- RAIL_MONITORS_GOOD (R655): the core regulator is released. -/
def mdRailMonitorsGood (mv : BitVec 10) (s : State) : State :=
  let s := s.onChip fun c => c.updPow fun p => { p with rails := true }
  if !s.chip.powered && s.chip.is R.VAUX_STAT F.VAUX_STAT_PG then s.powerUp mv.toNat else s

/-- VCORE_POWER_GOOD (R585): the main domain leaves reset with MIN_PH phases active. -/
def doVcorePowerGood (c : Chip) : Chip :=
  c.viaShd fun c =>
    let c : Chip := c.flag R.VCR_STAT F.VCR_STAT_PG true
    c.setPhases (max c.phN (c.f R.VCR_PH_CFG F.VCR_PH_CFG_MIN_PH))

/-- Current-only accounting starts at the entry to SURVIVAL where it is enabled and admitted (R404, R603). -/
def Chip.coStart (c : Chip) : Chip :=
  if c.is (R.MTR_CO_CFG 0) F.MTR_CO_CFG_EN then
    if c.tMeas ≤ c.vstore then c.updPow fun p => { p with co := true }
    else c.incSat R.SURV_RES F.SURV_RES_SKIPS
  else c

/-- VCORE_LOST (R21, R583, R584): the device enters SURVIVAL; the loss cause is VCORE while VAUX power-good holds, else
VAUX. A replay stops, and LAP.STAT.STATE returns to FROZEN (R26). -/
def mdVcoreLost (s : State) : State :=
  if !s.chip.powered then s
  else
    let pg := s.chip.is R.VAUX_STAT F.VAUX_STAT_PG
    let ofs := s.chip.is R.VAUX_STAT F.VAUX_STAT_RPS_ON
    let replay := decide (s.chip.mode = .replay)
    let s := s.saveAbandon.mainLost
    let s := s.onChip fun c => if replay then c.setF R.LAP_STAT F.LAP_STAT_STATE 3 else c
    s.onChip fun c =>
      let c : Chip := { c with mode := .survival }
      let c : Chip := c.setF R.SURV_STAT F.SURV_STAT_LOSS (if pg then 2 else 1)
      let c : Chip := (c.flag R.VAUX_STAT F.VAUX_STAT_PG pg).flag R.VAUX_STAT F.VAUX_STAT_RPS_ON ofs
      c.supply.coStart.survShow

/-- REGULATOR_RESTART (R584): 100 ms after a VCORE loss with VAUX power-good. -/
def mdRegulatorRestart (mv : BitVec 10) (s : State) : State :=
  if s.chip.mode = .survival ∧ s.chip.is R.VAUX_STAT F.VAUX_STAT_PG ∧ s.chip.pow.rails then s.powerUp mv.toNat else s

/-- VAUX_LOSS (R593): VAUX power-good ceases; the survival domain changes to VSTORE. -/
def doVauxLoss (c : Chip) : Chip := (c.flag R.VAUX_STAT F.VAUX_STAT_PG false).supply

/-! ### The commands -/

/-- VCR_TARGET_WRITE (R586). -/
def execVcrTargetWrite (w : Writer) (v : BitVec 32) (s : State) : Host.Outcome State Fault Refusal :=
  .next (s.onChip (doVcrTargetWrite w v))
/-- SLEW_DONE (R586). -/
def execSlewDone (s : State) : Host.Outcome State Fault Refusal :=
  .next (s.onChip doSlewDone)
/-- PHASE_ADD (R588). -/
def execPhaseAdd (i0 i1 i2 i3 : BitVec 8) (s : State) : Host.Outcome State Fault Refusal :=
  .next (s.onChip (doPhaseAdd i0 i1 i2 i3))
/-- PHASE_STEP (R588). -/
def execPhaseStep (i0 i1 i2 i3 : BitVec 8) (s : State) : Host.Outcome State Fault Refusal :=
  .next (s.onChip (doPhaseStep i0 i1 i2 i3))
/-- PHASE_SHED (R588). -/
def execPhaseShed (i0 i1 i2 i3 : BitVec 8) (s : State) : Host.Outcome State Fault Refusal :=
  .next (s.onChip (doPhaseShed i0 i1 i2 i3))
/-- PHASE_ROTATE (R590). -/
def execPhaseRotate (s : State) : Host.Outcome State Fault Refusal :=
  .next (s.onChip doPhaseRotate)
/-- PHASE_OVER_TEMP (R591). -/
def execPhaseOverTemp (n : Fin 4) (temp : BitVec 9) (s : State) : Host.Outcome State Fault Refusal :=
  .next (s.onChip (doPhaseOverTemp n temp))
/-- OT_WARN_CLEAR (R591). -/
def execOtWarnClear (n : Fin 4) (temp : BitVec 9) (s : State) : Host.Outcome State Fault Refusal :=
  .next (s.onChip (doOtWarnClear n temp))
/-- RPS_GATE_OFF (R580). -/
def execRpsGateOff (high : Bool) (s : State) : Host.Outcome State Fault Refusal :=
  .next (s.onChip (doRpsGateOff high))
/-- RPS_GATE_ON (R580). -/
def execRpsGateOn (s : State) : Host.Outcome State Fault Refusal :=
  .next (s.onChip doRpsGateOn)
/-- EARLY_WARNING (R582). -/
def execEarlyWarning (s : State) : Host.Outcome State Fault Refusal :=
  .next (mdEarlyWarning s)
/-- EW_CLEAR (R582). -/
def execEwClear (s : State) : Host.Outcome State Fault Refusal :=
  .next (s.onChip doEwClear)
/-- VCORE_UNDER_VOLTAGE (R583). -/
def execVcoreUnderVoltage (s : State) : Host.Outcome State Fault Refusal :=
  .next (mdVcoreUnderVoltage s)
/-- RAIL_MONITOR_FAIL (R656). -/
def execRailMonitorFail (s : State) : Host.Outcome State Fault Refusal :=
  .next (mdRailMonitorFail s)
/-- VAUX_POWER_GOOD (R581). -/
def execVauxPowerGood (mv : BitVec 10) (s : State) : Host.Outcome State Fault Refusal :=
  .next (mdVauxPowerGood mv s)
/-- POWER_ON_RESET (R103). -/
def execPowerOnReset (mv : BitVec 10) (s : State) : Host.Outcome State Fault Refusal :=
  .next (mdPowerOnReset mv s)
/-- RAIL_MONITORS_GOOD (R655). -/
def execRailMonitorsGood (mv : BitVec 10) (s : State) : Host.Outcome State Fault Refusal :=
  .next (mdRailMonitorsGood mv s)
/-- VCORE_POWER_GOOD (R585). -/
def execVcorePowerGood (s : State) : Host.Outcome State Fault Refusal :=
  .next (s.onChip doVcorePowerGood)
/-- VCORE_LOST (R584). -/
def execVcoreLost (s : State) : Host.Outcome State Fault Refusal :=
  .next (mdVcoreLost s)
/-- REGULATOR_RESTART (R584). -/
def execRegulatorRestart (mv : BitVec 10) (s : State) : Host.Outcome State Fault Refusal :=
  .next (mdRegulatorRestart mv s)
/-- VAUX_LOSS (R593). -/
def execVauxLoss (s : State) : Host.Outcome State Fault Refusal :=
  .next (s.onChip doVauxLoss)

end Sys2Proof.Machine
end

