-- ==== Sys2Proof/Machine/Survival.lean ====
section
/-!
DEFINITION. The survival domain (R593 to R612): the backup store and its protection, harvesting, tasks and their admission, the climate
record and the survival port; the calendar second that drives them (R139).
-/
namespace Sys2Proof.Machine
open Sys2Proof

/-! ### Levels and energy (R595, R596) -/

/-- The thresholds in force: T_CUT, T_KEEP, T_ABORT, T_MEAS, T_XMIT, VMAX in 10 mV. -/
def Chip.storeThr (c : Chip) : List Nat :=
  [c.f R.STORE_THR0 F.STORE_THR0_T_CUT, c.f R.STORE_THR0 F.STORE_THR0_T_KEEP, c.f R.STORE_THR1 F.STORE_THR1_T_ABORT,
   c.f R.STORE_THR1 F.STORE_THR1_T_MEAS, c.f R.STORE_THR2 F.STORE_THR2_T_XMIT, c.f R.STORE_CFG F.STORE_CFG_VMAX]

/-- Whether thresholds may stand (R595). -/
def thrOk (l : List Nat) : Bool :=
  ((List.range 5).all fun i => decide (nth l i 0 < nth l (i + 1) 0)) && decide (nth l 5 0 ≤ 420)

/-- The energy above T_ABORT in µJ at `mv` (R596). -/
def Chip.eAv (c : Chip) (mv : Nat) : Nat :=
  let t := 10 * c.f R.STORE_THR1 F.STORE_THR1_T_ABORT
  c.f R.STORE_CEQ F.STORE_CEQ_CEQ * (mv * mv - t * t) / 2000

/-- LEVEL at `mv` (R617). -/
def Chip.levelOf (c : Chip) (mv : Nat) : Nat := ((c.storeThr.take 5).filter fun t => 10 * t ≤ mv).length

/-- Current-only accounting stops below T_MEAS (R404). -/
def Chip.coCheck (c : Chip) : Chip :=
  if c.pow.co && decide (c.vstore < c.tMeas) then
    let c : Chip := c.updPow fun p => { p with co := false }
    let c : Chip := (c.wrN (R.MTR_CO_STOP_SEC 0) c.time.calSec).flag (R.MTR_CO_STAT 0) F.MTR_CO_STAT_STOPPED true
    c.updMtr fun m => { m with coStopDue := true }
  else c

/-- VSTORE measures `mv`: STAT shows it and its level (R595). -/
def Chip.storeShow (c : Chip) (mv : Nat) : Chip :=
  let l := c.levelOf mv
  let was := c.f R.STORE_STAT F.STORE_STAT_LEVEL
  let c : Chip := (c.setF R.STORE_STAT F.STORE_STAT_VSTORE mv).setF R.STORE_STAT F.STORE_STAT_LEVEL l
  c.raiseIf (decide (l ≠ was)) P.STORE 0

/-- VSTORE at rest measures `mv`: STAT, GAUGE and what depends on the level follow (R595, R596). -/
def Chip.storeCompare (c : Chip) (mv : Nat) : Chip :=
  let c : Chip := (c.storeShow mv).updPow fun p => { p with rest := mv }
  ((c.wrN R.STORE_GAUGE (min (c.eAv mv) 0xFFFFFFFF)).coCheck).survShow

/-- STORE_ABOVE_T_KEEP (R21): the device leaves OFF for SURVIVAL. -/
def doStoreAboveTKeep (mv : BitVec 16) (c : Chip) : Chip :=
  if c.mode = .off then
    let c : Chip := if c.pow.survUp then c else (c.survStart).updPow fun p => { p with survUp := true, calLost := true }
    let c : Chip := ({ c with mode := .survival }).storeCompare mv.toNat
    c.supply.coStart.survShow
  else c

/-- STORE_BELOW_T_CUT (R21): in SURVIVAL on VSTORE the device enters OFF and the survival domain loses power. -/
def doStoreBelowTCut (mv : BitVec 16) (c : Chip) : Chip :=
  if c.mode = .off then c
  else
    let c : Chip := c.storeCompare mv.toNat
    if c.mode = .survival ∧ ¬ c.is R.VAUX_STAT F.VAUX_STAT_PG then
      ({ c with mode := .off, shd := { c.shd with sealOpen := false } }).updPow fun p =>
        { p with survUp := false, bcn := none, wake := none, co := false }
    else c

/-! ### Charging and protection (R597, R598) -/

/-- What the survival domain does while it has power, outside OFF. -/
def Chip.inSurv (c : Chip) (g : Chip → Chip) : Chip := if c.pow.survUp && decide (c.mode ≠ .off) then g c else c

/-- What the harvest converter, the charger and the store monitor do while they have power: in OFF from QSC (R599). -/
def Chip.storeUp (c : Chip) (g : Chip → Chip) : Chip := if c.pow.survUp then g c else c

/-- CHARGE_END (R597). -/
def doChargeEnd (c : Chip) : Chip :=
  c.storeUp fun c =>
    let c : Chip := c.chgFollow
    if c.is R.STORE_STAT F.STORE_STAT_CHARGING then
      ((c.flag R.STORE_STAT F.STORE_STAT_CHG_DONE true).chgFollow).raise P.STORE 2
    else c

/-- CHARGE_RESTART (R597): VSTORE falls below VMAX − 100 mV. -/
def doChargeRestart (c : Chip) : Chip := c.storeUp fun c => (c.flag R.STORE_STAT F.STORE_STAT_CHG_DONE false).chgFollow

/-- Protection `k` (0 OV, 1 UV, 2 OC, 3 TEMP) of the lithium cell acts (R598). -/
def Chip.protOn (c : Chip) (k : Nat) : Chip :=
  if c.storeLi && !nbit c.pow.prot k then
    let c : Chip := (c.setF R.STORE_STAT F.STORE_STAT_PROT (k + 1)).incSat R.STORE_STAT2 F.STORE_STAT2_PROT_COUNT
    ((c.updPow fun p => { p with prot := p.prot + 2 ^ k }).chgFollow).raise P.STORE 1
  else c

/-- Protection `k` is released (R598): after an under-voltage only where a charge source is present. -/
def Chip.protOff (c : Chip) (k : Nat) : Chip :=
  if nbit c.pow.prot k && (decide (k ≠ 1) || c.chgSource) then
    (c.updPow fun p => { p with prot := p.prot - 2 ^ k }).chgFollow
  else c

/-- Charging and protection follow the cell's temperature and its windows (R597, R598). -/
def Chip.cellFollow (c : Chip) : Chip :=
  (if c.cellOut F.STORE_NTC_DIS_LO F.STORE_NTC_DIS_HI then c.protOn 3 else c.protOff 3).chgFollow

/-- CHARGE_TEMPERATURE_WINDOW (R597): the cell measures `temp`. -/
def doChargeTemperatureWindow (temp : BitVec 8) (c : Chip) : Chip :=
  c.storeUp fun c => (c.setF R.STORE_STAT2 F.STORE_STAT2_LI_TEMP temp.toNat).cellFollow

/-- LI_PROTECTION (R598): condition `k` of the lithium cell acts. -/
def doLiProtection (k : Fin 4) (c : Chip) : Chip := c.storeUp fun c => c.protOn k

/-- LI_PROTECTION_RELEASE (R598). -/
def doLiProtectionRelease (k : Fin 4) (c : Chip) : Chip := c.storeUp fun c => c.protOff k

/-- A word of the STORE page has been written, where `o` stood (R595, R597): VSTORE is compared continuously with T_CUT and T_ABORT,
with the other levels at the next second. -/
def Chip.storeWritten (c : Chip) (k : Nat) (o : Word) : Chip :=
  let v := c.rd k
  let now := (decide (k = R.STORE_THR0) && decide (fget o F.STORE_THR0_T_CUT ≠ fget v F.STORE_THR0_T_CUT))
    || (decide (k = R.STORE_THR1) && decide (fget o F.STORE_THR1_T_ABORT ≠ fget v F.STORE_THR1_T_ABORT))
  let c : Chip := if now then c.storeCompare c.vstore else c
  if k = R.STORE_NTC then c.cellFollow else c.chgFollow

/-! ### Harvesting (R599, R600) -/

/-- HRV.STAT.ACTIVE becomes `n`: without a source no power comes in. -/
def Chip.hrvActive (c : Chip) (n : Nat) : Chip :=
  let was := c.f R.HRV_STAT F.HRV_STAT_ACTIVE
  let c : Chip := if n = 0 then c.setF R.HRV_STAT F.HRV_STAT_P_IN 0 else c
  ((c.setF R.HRV_STAT F.HRV_STAT_ACTIVE n).raiseIf (decide (n ≠ was)) P.HRV 0).chgFollow

/-- The source follows HRV.CFG outside AUTO; under AUTO it stays until the next selection, TEG where none is active (R600). -/
def Chip.hrvFollow (c : Chip) : Chip :=
  let a := c.f R.HRV_STAT F.HRV_STAT_ACTIVE
  let n := if !c.is R.HRV_CFG F.HRV_CFG_EN then 0
    else match c.f R.HRV_CFG F.HRV_CFG_SRC with | 0 => 0 | 1 => 1 | 2 => 2 | _ => a
  if n = a then c else c.hrvActive n

/-- ROOSTER_START (R594, R599): the survival registers at reset, SV_KIND read (`cap` true for CAP). -/
def doRoosterStart (cap : Bool) (c : Chip) : Chip :=
  if c.mode = .off ∧ ¬ c.pow.survUp then
    let c : Chip := (c.updPow fun p => { p with cap := cap }).survStart
    ((c.updPow fun p => { p with survUp := true, calLost := true }).flag R.HRV_STAT F.HRV_STAT_COLD_START true).supply
  else c

/-- ROOSTER_RUNS_AGAIN (R599): QSC falls below 1.6 V before the device leaves OFF; the store monitor is without power. -/
def doRoosterRunsAgain (c : Chip) : Chip :=
  if c.mode = .off then c.updPow fun p => { p with survUp := false } else c

/-- HARVEST_SOURCE_SELECT (R600): the input powers of TEG and VIB in µW; in AUTO the stronger is selected. -/
def doHarvestSourceSelect (teg vib : BitVec 16) (c : Chip) : Chip :=
  c.storeUp fun c =>
    if c.is R.HRV_CFG F.HRV_CFG_EN && decide (c.f R.HRV_CFG F.HRV_CFG_SRC = 3) then
      let (n, p) := if teg = 0 ∧ vib = 0 then (0, 0) else if vib.toNat ≤ teg.toNat then (1, teg.toNat) else (2, vib.toNat)
      (c.setF R.HRV_STAT F.HRV_STAT_P_IN p).hrvActive n
    else c

/-- HARVEST_FOC_SAMPLE (R600): the open-circuit voltage of the active source in mV, its input power in µW and the energy in µJ
delivered since the last sample. -/
def doHarvestFocSample (mv uw : BitVec 16) (uj : BitVec 32) (c : Chip) : Chip :=
  c.storeUp fun c =>
    let a := c.f R.HRV_STAT F.HRV_STAT_ACTIVE
    if a = 0 then c
    else
      let c : Chip := c.setF R.HRV_VOC (if a = 1 then F.HRV_VOC_VOC_TEG else F.HRV_VOC_VOC_VIB) mv.toNat
      (c.setF R.HRV_STAT F.HRV_STAT_P_IN uw.toNat).wr64 (R.HRV_E 0) (c.rd64 (R.HRV_E 0) + uj.toNat)

/-! ### The survival port (R606 to R609) -/

/-- A byte into the CRC-16 of R606, bits least significant first. -/
def svpCrcByte (r x : Nat) : Nat :=
  (List.range 8).foldl (fun r i => if nbit r 0 != nbit x i then r / 2 ^^^ 0x8408 else r / 2) r

/-- The CRC-16 of a list of bytes. -/
def svpCrc (l : List Byte) : Nat := l.foldl (fun r b => svpCrcByte r b.toNat) 0xFFFF

/-- The tripped states of the SAMPLED comparators (R605, R606). -/
def Chip.sampledTrips (c : Chip) : Nat :=
  ((List.range 16).map fun n =>
    b2n (decide (c.f (R.ACMP_CH_CFG n) F.ACMP_CH_CFG_MODE = 3) && c.is (R.ACMP_CH_STAT n) F.ACMP_CH_STAT_TRIPPED) * 2 ^ n).sum

/-- The frame of a beacon of `kind` for wake source `src` (R606). -/
def Chip.frame (c : Chip) (kind src : Nat) : List Byte :=
  let flags := b2n c.shd.sealOpen + 2 * b2n (c.is R.STORE_STAT F.STORE_STAT_LI_CONN)
    + 4 * b2n (c.is R.STORE_STAT F.STORE_STAT_CHARGING) + 16 * src
  let body := bytesLE 1 23 ++ bytesLE 1 kind ++ bytesLE 2 (c.f R.SURV_SRC_ID F.SURV_SRC_ID_ID) ++ bytesLE 5 c.time.calSec
    ++ bytesLE 2 (c.f R.STORE_STAT F.STORE_STAT_VSTORE) ++ [c.pow.temp] ++ bytesLE 2 c.sampledTrips ++ bytesLE 1 flags
    ++ bytesLE 1 (c.f R.SURV_STAT F.SURV_STAT_LOSS) ++ bytesLE 4 (c.rdN (R.MTR_CO_CHG_LO 0))
    ++ bytesLE 2 (c.f R.HRV_STAT F.HRV_STAT_P_IN) ++ bytesLE 2 (c.f R.SURV_STAT F.SURV_STAT_BCN_SEQ)
  bytesLE 2 0xAAAA ++ bytesLE 2 0xD391 ++ body ++ bytesLE 2 (svpCrc body)

/-- A beacon starts on the port: BCN_SEQ counts it (R606). -/
def Chip.portStart (c : Chip) (kind src left : Nat) : Chip :=
  let c : Chip := c.setF R.SURV_STAT F.SURV_STAT_BCN_SEQ (c.f R.SURV_STAT F.SURV_STAT_BCN_SEQ + 1)
  (c.updPow fun p => { p with bcn := some ⟨kind, src, left, c.frame kind src, false, false⟩ }).survShow

/-- Whether a task of `level` (10 mV) and `budget` (µJ) is admitted: none, or the code of the skip (R603). -/
def Chip.skipCode (c : Chip) (level : Nat) (budget : Nat) : Option Nat :=
  if c.vstore < 10 * level then some 2
  else if c.eAv c.vstore < budget then some 3 else none

/-- A beacon task of `kind` is due (R595, R603, R604, R609): VSTORE at rest is compared, the task is admitted or skipped; a wake beacon not
sent stays due for its repeats. -/
def Chip.beacon (c : Chip) (kind src left : Nat) : Chip :=
  let c : Chip := c.storeCompare c.vstore
  match c.skipCode (c.f R.STORE_THR2 F.STORE_THR2_T_XMIT) (c.f R.SURV_BCN F.SURV_BCN_BUDGET_UJ) with
  | none => c.portStart kind src left
  | some k =>
    let c : Chip := (c.setF R.SURV_RES F.SURV_RES_BCN_RES k).incSat R.SURV_RES F.SURV_RES_SKIPS
    c.updPow fun p => { p with wake := if kind = 2 ∧ 0 < left then some (src, left - 1) else none }

/-- A climate record (R605). -/
def Chip.climRecord (c : Chip) : Chip :=
  let k := c.f R.SURV_CLIM_HEAD F.SURV_CLIM_HEAD_NEXT
  let c : Chip := ((c.wrN (R.SURV_CREC (4 * k)) c.time.calSec).wrN (R.SURV_CREC (4 * k + 1))
    (c.vstore * 2 ^ 16 + c.pow.temp.toNat * 2 ^ 8)).wrN (R.SURV_CREC (4 * k + 2)) (c.sampledTrips * 2 ^ 16)
  let c : Chip := c.wr (R.SURV_CREC (4 * k + 3)) (c.rd (R.MTR_CO_CHG_LO 0))
  let c : Chip := c.setF R.SURV_CLIM_HEAD F.SURV_CLIM_HEAD_NEXT (k + 1)
  if k = 63 then c.flag R.SURV_CLIM_HEAD F.SURV_CLIM_HEAD_WRAPPED true else c

/-- A climate task (R603, R605). -/
def Chip.climTask (c : Chip) : Chip :=
  match c.skipCode (c.f R.STORE_THR1 F.STORE_THR1_T_MEAS) (c.f R.SURV_CLIM F.SURV_CLIM_BUDGET_UJ) with
  | none => c.climRecord.setF R.SURV_RES F.SURV_RES_CLIM_RES 1
  | some k => (c.setF R.SURV_RES F.SURV_RES_CLIM_RES k).incSat R.SURV_RES F.SURV_RES_SKIPS

/-- Whether second `s` is a multiple of a period. -/
def everySec (s per : Nat) : Bool := decide (per ≠ 0) && decide (s % per = 0)

/-- The climate task of a calendar second in SURVIVAL (R603, R604). -/
def Chip.secClim (c : Chip) : Chip :=
  if c.mode = .survival ∧ c.is R.SURV_CFG F.SURV_CFG_CLIM_EN ∧ everySec c.time.calSec (c.f R.SURV_CLIM F.SURV_CLIM_PERIOD_S) then c.climTask
  else c

/-- The beacon of a calendar second in SURVIVAL, after CLIM (R603, R604): a wake beacon that is due, else a periodic one. -/
def Chip.secBeacon (c : Chip) : Chip :=
  if c.mode ≠ .survival then c
  else match c.pow.bcn, c.pow.wake with
    | none, some (src, left) => (c.updPow fun p => { p with wake := none }).beacon 2 src left
    | none, none =>
      if c.is R.SURV_CFG F.SURV_CFG_BCN_EN && everySec c.time.calSec (c.f R.SURV_BCN F.SURV_BCN_PERIOD_S) then c.beacon 1 0 0 else c
    | some _, _ => c

/-- A wake request of source `src` (0 alarm 0, 1 alarm 1, 2 comparator, 3 seal) (R603): in SURVIVAL, where WAKE_EN has it, a wake
beacon is due. -/
def Chip.wakeReq (c : Chip) (src : Nat) : Chip :=
  let c : Chip := c.raise P.SURV 2
  if c.mode = .survival ∧ nbit (c.f R.SURV_CFG F.SURV_CFG_WAKE_EN) src then
    let left := c.f R.SURV_CFG F.SURV_CFG_REPEAT
    if c.pow.bcn.isNone then c.beacon 2 (src + 1) left else c.updPow fun p => { p with wake := some (src + 1, left) }
  else c

/-- The calendar has moved from `c` to `d`: an alarm that fires in SURVIVAL is a wake request (R139, R603). -/
def Chip.alarmWakes (c d : Chip) : Chip :=
  if d.mode ≠ .survival then d
  else
    forN 2 (fun n d =>
      if c.is (R.RTC_ALARM_HI n) F.RTC_ALARM_HI_EN && decide (c.time.calSec < c.alarmSec n) && decide (c.alarmSec n ≤ d.time.calSec)
      then d.wakeReq n else d) d

/-- The SET value is loaded (R138). -/
def doRtcSetApply (c : Chip) : Chip :=
  if c.survAlive && c.time.setPend then
    let hi := c.rd R.RTC_SET_HI
    let c : Chip := (c.updTime fun t => { t with setPend := false }).flag R.RTC_STAT F.RTC_STAT_BUSY false
    c.alarmWakes <| c.calLoad (c.rdN R.RTC_SET_LO + 2 ^ 32 * fget hi F.RTC_SEC_HI_SEC_X) (fget hi F.RTC_SEC_HI_SUB)
  else c

/-- A 64 s compensation window with TCOMP = 1: the temperature is shown and ticks are added or removed (R134); the
ageing correction, in the same unit, is added (log entry 15, DESIGN CHOICE). -/
def doTcompWindow (temp : BitVec 8) (c : Chip) : Chip :=
  if c.survAlive && c.is R.RTC_CTL F.RTC_CTL_TCOMP then
    let c : Chip := (c.updPow fun p => { p with temp := temp }).setF R.RTC_STAT F.RTC_STAT_TEMP temp.toNat
    let (z, c) := c.tcomp temp.toInt
    c.alarmWakes <| c.calTicks (z + c.fs R.RTC_TRIM F.RTC_TRIM_AGING)
  else c

/-- CALENDAR_SECOND (R139, R187, R595, R603): VSTORE at rest and the survival-domain temperature are measured. -/
def doCalendarSecond (mv : BitVec 16) (temp : BitVec 8) (c : Chip) : Chip :=
  c.inSurv fun c =>
    let old := c.time.calSec
    let c : Chip := { c with time := { c.time with calSec := (old + 1) % 2 ^ 40, calSub := 0 } }
    let c : Chip := (c.updPow fun p => { p with temp := temp }).setF R.RTC_STAT F.RTC_STAT_TEMP temp.toNat
    let c : Chip := (c.storeCompare mv.toNat).secClim
    (({ c with time := { c.time with calSec := old } }).alarmWakes (c.alarms old)).secBeacon.survShow

/-- WAKE_REQUEST (R603). -/
def doWakeRequest (src : Fin 4) (c : Chip) : Chip := c.inSurv fun c => c.wakeReq src

/-- ACMP_SAMPLE_COMPARE (R187): comparator `n` measures `uv` microvolts at the end of its power-up. -/
def doAcmpSampleCompare (n : Fin 16) (uv : BitVec 24) (c : Chip) : Chip :=
  c.inSurv fun c =>
    let (c, wake) := c.acmpSample n uv.toNat
    if wake then c.wakeReq 2 else c

/-- CO_SECOND (R403): one second's results of modulator 11. -/
def doCoSecond (codes : List (BitVec 24)) (c : Chip) : Chip :=
  if c.mode = .survival ∧ c.pow.co then c.coSecond codes else c

/-- The beacon on the port is over; in SURVIVAL a wake beacon without an ACK is due again at the next second (R609). -/
def Chip.portEnd (c : Chip) (b : Beacon) : Chip :=
  let again := c.mode = .survival ∧ b.kind = 2 ∧ ¬ b.acked ∧ 0 < b.left
  (c.updPow fun p => { p with
    bcn := none,
    wake := match p.wake with
      | some w => some w
      | none => if again then some (b.src, b.left - 1) else none }).survShow

/-- BEACON_FRAME_END (R608, R609): the port drives idle and releases; with RXWIN_MS it listens. -/
def doBeaconFrameEnd (c : Chip) : Chip :=
  c.inSurv fun c =>
    match c.pow.bcn with
    | none => c
    | some b =>
      if b.listen then c
      else
        let c : Chip := if b.kind = 3 then c else c.setF R.SURV_RES F.SURV_RES_BCN_RES 1
        if c.f R.SURV_CFG F.SURV_CFG_RXWIN_MS = 0 then c.portEnd b
        else c.updPow fun p => { p with bcn := some { b with listen := true } }

/-- STORE_BELOW_T_ABORT (R595, R607): a beacon in progress ends with the short-frame marker; VSTORE then measured is not VSTORE at rest. -/
def doStoreBelowTAbort (mv : BitVec 16) (c : Chip) : Chip :=
  c.storeUp fun c =>
    match c.pow.bcn with
    | none => c.storeCompare mv.toNat
    | some b =>
      if b.listen ∨ b.kind = 3 then c.storeCompare mv.toNat
      else
        let c : Chip := c.storeShow mv.toNat
        let c : Chip := (c.setF R.SURV_RES F.SURV_RES_BCN_RES 4).incSat R.SURV_RES F.SURV_RES_ABORTS
        (c.raise P.SURV 0).portEnd b

/-- SVP_ACK_RX (R609): an ACK with valid sync and CRC; the port listens on to the end of its window. A TEST frame is no task. -/
def doSvpAckRx (seq : BitVec 16) (c : Chip) : Chip :=
  c.inSurv fun c =>
    match c.pow.bcn with
    | some b =>
      if b.listen ∧ seq.toNat = c.f R.SURV_STAT F.SURV_STAT_BCN_SEQ then
        (if b.kind = 3 then c else c.setF R.SURV_RES F.SURV_RES_BCN_RES 5).updPow fun p => { p with bcn := some { b with acked := true } }
      else c
    | none => c

/-- SVP_DATA_RX (R609): a DATA frame with its payload bytes. -/
def doSvpDataRx (data : List (BitVec 8)) (c : Chip) : Chip :=
  c.inSurv fun c =>
    match c.pow.bcn with
    | some b =>
      if b.listen ∧ ¬ c.is R.SURV_RXSTAT F.SURV_RXSTAT_FULL then
        let d := data.take 16
        let c : Chip := forN 4 (fun i c => c.wrN (R.SURV_RXBUF i) (leNat ((d.drop (4 * i)).take 4))) c
        ((c.setF R.SURV_RXSTAT F.SURV_RXSTAT_LEN d.length).flag R.SURV_RXSTAT F.SURV_RXSTAT_FULL true).raise P.SURV 1
      else c
    | none => c

/-- RX_WINDOW_END (R609). -/
def doRxWindowEnd (c : Chip) : Chip :=
  c.inSurv fun c =>
    match c.pow.bcn with
    | some b => if b.listen then c.portEnd b else c
    | none => c

/-- The seal loop is declared open or closed (R526): logged, raised; a closing ends the credential and lets the CRC be
captured (R528, R529). The survival domain finds it in SURVIVAL too, where it is a wake request (R603). -/
def doSealChange (isOpen : Bool) (c : Chip) : Chip :=
  if c.mode = .off ∨ c.shd.sealOpen = isOpen then c
  else
    let c : Chip := c.updShd fun x => { x with sealOpen := isOpen, sealDue := !isOpen && c.powered }
    let c : Chip := (c.logIt (if isOpen then 0x01 else 0x02) []).raiseIf c.powered P.SHD 4
    let c : Chip := if isOpen then c else (c.credStop 2).scfgRollback
    if c.mode = .survival then c.wakeReq 3 else c

/-- SURV.CMD (R612, R615). -/
def Chip.survCmd (c : Chip) (op i : Nat) : Chip :=
  match op with
  | 1 => if c.mode = .ready ∧ c.pow.bcn = none then c.portStart 3 0 0 else c.refuse R.SURV_CMD i
  | 2 => c.wrN R.SURV_RES 0
  | 3 => ((c.wrN R.SURV_RXSTAT 0).wrN (R.SURV_RXBUF 0) 0).wrN (R.SURV_RXBUF 1) 0 |>.wrN (R.SURV_RXBUF 2) 0 |>.wrN (R.SURV_RXBUF 3) 0
  | _ => c.refuse R.SURV_CMD i

/-- SURV.CMD TEST_BEACON (R612). -/
def doTestBeacon (w : Writer) (key : BitVec 16) (c : Chip) : Chip := c.cmd R.SURV_CMD w key fun c => c.survCmd 1 w.ini.code
/-- SURV.CMD CLR_STATS (R615). -/
def doSurvClrStats (w : Writer) (key : BitVec 16) (c : Chip) : Chip := c.cmd R.SURV_CMD w key fun c => c.survCmd 2 w.ini.code
/-- SURV.CMD CLR_RX (R615). -/
def doSurvClrRx (w : Writer) (key : BitVec 16) (c : Chip) : Chip := c.cmd R.SURV_CMD w key fun c => c.survCmd 3 w.ini.code

/-! ### The commands -/

/-- STORE_ABOVE_T_KEEP (R21). -/
def execStoreAboveTKeep (mv : BitVec 16) (s : State) : Host.Outcome State Fault Refusal :=
  .next (s.onChip (doStoreAboveTKeep mv))
/-- STORE_BELOW_T_CUT (R21). -/
def execStoreBelowTCut (mv : BitVec 16) (s : State) : Host.Outcome State Fault Refusal :=
  .next (s.onChip (doStoreBelowTCut mv))
/-- CHARGE_END (R597). -/
def execChargeEnd (s : State) : Host.Outcome State Fault Refusal :=
  .next (s.onChip doChargeEnd)
/-- CHARGE_RESTART (R597). -/
def execChargeRestart (s : State) : Host.Outcome State Fault Refusal :=
  .next (s.onChip doChargeRestart)
/-- CHARGE_TEMPERATURE_WINDOW (R597). -/
def execChargeTemperatureWindow (temp : BitVec 8) (s : State) : Host.Outcome State Fault Refusal :=
  .next (s.onChip (doChargeTemperatureWindow temp))
/-- LI_PROTECTION (R598). -/
def execLiProtection (k : Fin 4) (s : State) : Host.Outcome State Fault Refusal :=
  .next (s.onChip (doLiProtection k))
/-- LI_PROTECTION_RELEASE (R598). -/
def execLiProtectionRelease (k : Fin 4) (s : State) : Host.Outcome State Fault Refusal :=
  .next (s.onChip (doLiProtectionRelease k))
/-- ROOSTER_START (R599). -/
def execRoosterStart (cap : Bool) (s : State) : Host.Outcome State Fault Refusal :=
  .next (s.onChip (doRoosterStart cap))
/-- ROOSTER_RUNS_AGAIN (R599). -/
def execRoosterRunsAgain (s : State) : Host.Outcome State Fault Refusal :=
  .next (s.onChip doRoosterRunsAgain)
/-- HARVEST_SOURCE_SELECT (R600). -/
def execHarvestSourceSelect (teg vib : BitVec 16) (s : State) : Host.Outcome State Fault Refusal :=
  .next (s.onChip (doHarvestSourceSelect teg vib))
/-- HARVEST_FOC_SAMPLE (R600). -/
def execHarvestFocSample (mv uw : BitVec 16) (uj : BitVec 32) (s : State) : Host.Outcome State Fault Refusal :=
  .next (s.onChip (doHarvestFocSample mv uw uj))
/-- RTC_SET_APPLY (R138). -/
def execRtcSetApply (s : State) : Host.Outcome State Fault Refusal :=
  .next (s.onChip doRtcSetApply)
/-- TCOMP_WINDOW (R134). -/
def execTcompWindow (temp : BitVec 8) (s : State) : Host.Outcome State Fault Refusal :=
  .next (s.onChip (doTcompWindow temp))
/-- CALENDAR_SECOND (R139). -/
def execCalendarSecond (mv : BitVec 16) (temp : BitVec 8) (s : State) : Host.Outcome State Fault Refusal :=
  .next (s.onChip (doCalendarSecond mv temp))
/-- WAKE_REQUEST (R603). -/
def execWakeRequest (src : Fin 4) (s : State) : Host.Outcome State Fault Refusal :=
  .next (s.onChip (doWakeRequest src))
/-- ACMP_SAMPLE_COMPARE (R187). -/
def execAcmpSampleCompare (n : Fin 16) (uv : BitVec 24) (s : State) : Host.Outcome State Fault Refusal :=
  .next (s.onChip (doAcmpSampleCompare n uv))
/-- CO_SECOND (R403). -/
def execCoSecond (codes : List (BitVec 24)) (s : State) : Host.Outcome State Fault Refusal :=
  .next (s.onChip (doCoSecond codes))
/-- BEACON_FRAME_END (R608). -/
def execBeaconFrameEnd (s : State) : Host.Outcome State Fault Refusal :=
  .next (s.onChip doBeaconFrameEnd)
/-- STORE_BELOW_T_ABORT (R607). -/
def execStoreBelowTAbort (mv : BitVec 16) (s : State) : Host.Outcome State Fault Refusal :=
  .next (s.onChip (doStoreBelowTAbort mv))
/-- SVP_ACK_RX (R609). -/
def execSvpAckRx (seq : BitVec 16) (s : State) : Host.Outcome State Fault Refusal :=
  .next (s.onChip (doSvpAckRx seq))
/-- SVP_DATA_RX (R609). -/
def execSvpDataRx (data : List (BitVec 8)) (s : State) : Host.Outcome State Fault Refusal :=
  .next (s.onChip (doSvpDataRx data))
/-- RX_WINDOW_END (R609). -/
def execRxWindowEnd (s : State) : Host.Outcome State Fault Refusal :=
  .next (s.onChip doRxWindowEnd)
/-- SEAL_CHANGE (R526). -/
def execSealChange (isOpen : Bool) (s : State) : Host.Outcome State Fault Refusal :=
  .next (s.onChip (doSealChange isOpen))
/-- TEST_BEACON (R612). -/
def execTestBeacon (w : Writer) (key : BitVec 16) (s : State) : Host.Outcome State Fault Refusal :=
  .next (s.onChip (doTestBeacon w key))
/-- SURV_CLR_STATS (R615). -/
def execSurvClrStats (w : Writer) (key : BitVec 16) (s : State) : Host.Outcome State Fault Refusal :=
  .next (s.onChip (doSurvClrStats w key))
/-- SURV_CLR_RX (R615). -/
def execSurvClrRx (w : Writer) (key : BitVec 16) (s : State) : Host.Outcome State Fault Refusal :=
  .next (s.onChip (doSurvClrRx w key))

end Sys2Proof.Machine
end

