-- ==== Sys2Proof/Machine/Boot.lean ====
section
/-!
DEFINITION. The starting block and field service (*Boot, Live Update and Field Service*, R619 to R634, R638 to R651, and R675): the image
format, the boot sequence, false starts, live restarts, flash, SEC and OTP commands, host memory access. The host ports and the
register writes of this chapter are in Write.lean; TWINS_START is in Start.lean.
-/
namespace Sys2Proof.Machine
open Sys2Proof

/-- A change of the boot state. -/
def Chip.updBoot (c : Chip) (g : BootSt → BootSt) : Chip := { c with boot := g c.boot }

/-! ### Images (R620 to R622) -/

/-- Byte `i` of image `img` (0 flash A, 1 flash B, 2 the host image in SRAM). -/
def State.imgByte (s : State) (img : Nat) (i : Nat) : Byte :=
  match img with
  | 0 => SMap.get erased s.mem.flashA i
  | 1 => SMap.get erased s.mem.flashB i
  | _ => SMap.get unwritten s.mem.sram ((8 * s.chip.f R.BOOT_HOST_IMG F.BOOT_HOST_IMG_OFS8 + i) % sramSize)

/-- A section of an image (R621): kind, source offset, destination word and length. -/
structure Sect where
  kind : Nat
  src : Nat
  dst : Nat
  len : Nat
  deriving DecidableEq, Repr

namespace Im
def secver (g : Nat → Byte) : Nat := (g 4).toNat
def rootSlot (g : Nat → Byte) : Nat := (g 5).toNat
def build (g : Nat → Byte) : Nat := leBytes g 8 4
def len (g : Nat → Byte) : Nat := leBytes g 0x0C 4
def afeCal (g : Nat → Byte) : Bool := nbit (g 3).toNat 0
def nSect (g : Nat → Byte) : Nat := leBytes g 0x20 2
/-- The header's PRIV_S (`d` false) or PRIV_D of twin `t`. -/
def priv (g : Nat → Byte) (t d : Bool) : Word := wd (leBytes g (0x24 + 8 * b2n t + 4 * b2n d) 4)
/-- The section table. -/
def sects (g : Nat → Byte) : List Sect :=
  (List.range (nSect g)).map fun i =>
    let o := 0x40 + 16 * i
    ⟨(g o).toNat, leBytes g (o + 4) 4, leBytes g (o + 8) 4, leBytes g (o + 12) 4⟩
/-- The pairs of the sections of `kind` (REGS or SCFG), in list order. -/
def pairs (g : Nat → Byte) (kind : Nat) : List (Nat × Nat) :=
  ((sects g).filter fun x => x.kind = kind).flatMap fun x =>
    (List.range (x.len / 8)).map fun i => (leBytes g (x.src + 8 * i) 4, leBytes g (x.src + 8 * i + 4) 4)
/-- Header and table as R621 and R626 ask: tag, format, flags and reserved fields, L (with the signature and a chain within
8 MiB, R620) and S. -/
def formatOk (g : Nat → Byte) : Bool :=
  decide (leBytes g 0 2 = 0x4749) && decide (g 2 = 1#8) && decide ((g 3).toNat < 2) && decide (leBytes g 0x22 2 = 0)
    && decide (leBytes g 0x34 12 = 0) && decide (len g % 8 = 0) && decide (1 ≤ nSect g) && decide (nSect g ≤ 32)
    && decide (0x40 + 16 * nSect g ≤ len g) && decide (len g + 98 ≤ 2 ^ 23)
/-- The destination of a section as (in DRAM, first byte, length), CODE sections within the header's private regions; none for
sections that are not copied. -/
def dest (g : Nat → Byte) (x : Sect) : Option (Bool × Nat × Nat) :=
  let d := nbit x.dst 31
  let o := x.dst % 2 ^ 29
  match x.kind with
  | 1 => some (d, privBase (priv g false d) d + o, x.len)
  | 2 => some (d, privBase (priv g true d) d + o, x.len)
  | 3 => some (d, o, x.len)
  | _ => none
where
  /-- The first byte of a private region. -/
  privBase (w : Word) (d : Bool) : Nat := (if d then 65536 else 4096) * fget w F.TWN_PRIV_S_BASE
/-- The bytes of a private region. -/
def privSize (w : Word) (d : Bool) : Nat := (if d then 65536 else 4096) * fget w F.TWN_PRIV_S_SIZE
/-- Two byte ranges meet. -/
def meets (a b : Bool × Nat × Nat) : Bool :=
  decide (a.1 = b.1) && decide (a.2.1 < b.2.1 + b.2.2) && decide (b.2.1 < a.2.1 + a.2.2) && decide (a.2.2 ≠ 0)
    && decide (b.2.2 ≠ 0)
/-- Some two of the ranges meet. -/
def clash : List (Bool × Nat × Nat) → Bool
  | [] => false
  | a :: r => r.any (meets a) || clash r
/-- The private region of twin `t` in SRAM (`d` false) or DRAM that a header gives. -/
def region (g : Nat → Byte) (t d : Bool) : Bool × Nat × Nat := (d, dest.privBase (priv g t d) d, privSize (priv g t d) d)
end Im

/-- The DRAM offset of the staging area of a live load (R640). -/
def stagingAt : Nat := Config.stagingBase % (2 ^ 29 - 2 ^ 23)

/-- The ranges of DRAM that hold the ring, the anchor slots and the staging area. -/
def ringRange : Bool × Nat × Nat := (true, ringAt 0, ringSize)
def slotRange : Bool × Nat × Nat := (true, slotBase, 4 * slotSize)
def stagingRange : Bool × Nat × Nat := (true, stagingAt, 2 ^ 23)

namespace Im
/-- The layout is as R622 asks. -/
def layoutOk (g : Nat → Byte) : Bool :=
  let ss := sects g
  let first := 0x40 + 16 * nSect g
  let regions := [region g false false, region g false true, region g true false, region g true true]
  (ss.all fun x =>
    decide (first ≤ x.src) && decide (x.src + x.len ≤ len g)
    && (match x.kind with
        | 1 | 2 => decide (x.dst % 2 ^ 29 + x.len ≤ privSize (priv g (decide (x.kind = 2)) (nbit x.dst 31)) (nbit x.dst 31))
        | 3 => match dest g x with
          | some r => !(regions.any (meets r)) && !meets r ringRange && !meets r slotRange && !meets r stagingRange
          | none => true
        | _ => true))
  && !clash (ss.filterMap (dest g))
  && ((pairs g 5).all fun p => decide (p.1 / 0x1000 * 0x1000 = 0x40000000 + P.SCFG))
  && (pairs g 4).all fun p => !(decide (0x40000000 + P.SHD ≤ p.1) && decide (p.1 < 0x40000000 + P.SCFG + 0x1000))
end Im

/-! ### OTP contents (R630, R648) -/

/-- `n` bytes of OTP from `o` as a number. -/
def Mem.otpN (m : Mem) (o n : Nat) : Nat := leBytes (fun i => SMap.get unblown m.otp i) o n
/-- The blown anti-rollback bits. -/
def Mem.arb (m : Mem) : Nat := ((List.range 64).filter fun i => nbit (m.otpN 0x160 8) i).length
/-- Life cycle OPEN. -/
def Mem.lcOpen (m : Mem) : Bool := decide (m.otpN 0 1 % 4 = 0)
/-- Whether image root slot `k` is programmed, or revoked. -/
def Mem.rootSet (m : Mem) (k : Nat) : Bool := decide (k < 4) && decide (m.otpN (0x40 + 48 * k) 48 ≠ 0)
def Mem.rootRevoked (m : Mem) (k : Nat) : Bool := nbit (m.otpN 0x168 1) k

/-- BOOT.STAT.LC and SEC.STAT.ARB_COUNT show OTP. -/
def State.showOtp (s : State) : State :=
  s.onChip fun c => (c.setF R.BOOT_STAT F.BOOT_STAT_LC (b2n !s.mem.lcOpen)).setF R.SEC_STAT F.SEC_STAT_ARB_COUNT s.mem.arb

/-- The outcome of the check of image `img` under R621, R622 and R630 to R632: the cause code of R626, 0 where it passes, and
whether it passes unsigned. `sigOk` is the SEC engine's verdict on hash, signature and chain apart from the root slot's state. The tag
of an erased device is one of flash. -/
def State.imgCheck (s : State) (img : Nat) (readOk sigOk : Bool) : Nat × Bool :=
  let g := s.imgByte img
  let noRoot := (List.range 4).all fun k => !s.mem.rootSet k
  let free := s.mem.lcOpen && noRoot
  let root := s.mem.rootSet (Im.rootSlot g) && !s.mem.rootRevoked (Im.rootSlot g)
  if !readOk || (decide (img < 2) && decide (leBytes g 0 2 = 0xFFFF)) then (0x1, false)
  else if !Im.formatOk g then (0x2, false)
  else if !Im.layoutOk g then (0x3, false)
  else if !sigOk && !free then (0x4, false)
  else if !root && !free then (0x5, false)
  else if Im.secver g < s.mem.arb then (0x6, false)
  else (0, !root || !sigOk)

/-! ### The boot sequence (R623 to R628) -/

/-- The starting block works: in BOOT, or in SAFE after a cause met there, the working clocks run (R103), RESET_N is released, and `n` is
its next step. -/
def Chip.bootAt (c : Chip) (n : Nat) : Bool :=
  (decide (c.mode = .boot) || decide (c.mode = .safe)) && !c.time.gated && !c.boot.held && decide (c.boot.step = n)

/-- The chain of the log entry with sequence number `q` in the ring at `base` verifies: its hash follows from the hash of
the entry before it (R532). -/
def State.logLink (s : State) (base q : Nat) : Bool :=
  let at' := fun n => getList unwritten s.mem.fram (base + 96 * ((n + 255) % 256)) 96
  let e := at' q
  let p := at' (q - 1)
  let prev := if q = 1 then List.replicate 32 (0#8) else p.drop 64
  decide (fieldAt e 0 2 = 0x534C) && decide (fieldAt e 4 4 = q) && decide (1 ≤ q)
    && (decide (q = 1) || decide (fieldAt p 4 4 = q - 1)) && decide (e.drop 64 = hash32 (prev ++ e.take 64))

/-- The sealed CRC that the newest CFG_SEALED entry of the log holds whose chain verifies, 0 where none does (R530). -/
def State.sealedFromLog (s : State) : Nat :=
  let base := s.chip.f R.SCFG_LOG_CFG F.SCFG_LOG_CFG_BASE * 8192
  let ent := fun i => getList unwritten s.mem.fram (base + 96 * i) 96
  let l := (List.range 256).filter fun i =>
    decide (fieldAt (ent i) 3 1 = 7) && decide ((fieldAt (ent i) 4 4 + 255) % 256 = i) && s.logLink base (fieldAt (ent i) 4 4)
  match l with
  | [] => 0
  | i :: r =>
    let best := r.foldl (fun a b => if fieldAt (ent a) 4 4 < fieldAt (ent b) 4 4 then b else a) i
    fieldAt (ent best) 0x20 4

/-- The order of attempts (R627, R628). -/
def Chip.bootOrder (c : Chip) : List Nat :=
  if c.f R.BOOT_STAT F.BOOT_STAT_MODE = 1 then [2]
  else
    let pref := c.f R.BOOT_NEXT F.BOOT_NEXT_PREF
    let l := [pref, 1 - pref]
    if c.is R.BOOT_NEXT F.BOOT_NEXT_TRY_EN then
      let t := c.f R.BOOT_NEXT F.BOOT_NEXT_TRY
      t :: l.filter (· ≠ t)
    else l

/-- What the starting block restores after a power-on reset (R623 step 3, R400, R404, R530, R533): metering, the sealed CRC where
the survival domain was unpowered, the survival log queue; the ring is empty. -/
def State.coldRestore (s : State) : State :=
  let s := s.mtrRestore s.chip.pow.calLost s.chip.pow.pgCal
  let s := if s.chip.pow.calLost then s.onChip fun c => c.wrN R.SHD_SEALED_CRC s.sealedFromLog else s
  let s := forN s.chip.safe.survLog.length (fun _ s => s.logPop) s
  s.onChip fun c =>
    let c : Chip := ((c.wrN R.LAP_RST_HEAD 0).wrN R.LAP_HEAD 0).updRed fun r => { r with tot := 0, anchors := [], taken := [] }
    let c : Chip := if c.mtr.coStopDue then (c.updMtr fun m => { m with coStopDue := false }).raise (P.MTR 0) 5 else c
    c.updPow fun p => { p with calLost := false }

/-- BOOT_SURVIVAL_RESTORE (R623 step 3, R619, R625): once the root is locked. `straps` and `hostSel` are the levels sampled after a
power-on reset; after a device reset the values sampled then stand, and LAP.RST_HEAD marks the newest record (R36, R569). -/
def mdBootSurvivalRestore (straps : BitVec 2) (hostSel : Bool) (s : State) : State :=
  if !(s.chip.bootAt 3 && s.chip.is R.CLK_STAT F.CLK_STAT_LOCK) then s
  else
    let cold := s.chip.boot.cold
    let s := s.showOtp
    let s := if cold then
        (s.coldRestore).onChip fun c =>
          ((c.setF R.BOOT_STAT F.BOOT_STAT_MODE straps.toNat).flag R.HPT_STAT F.HPT_STAT_PORT hostSel).updBoot fun b =>
            { b with mode := straps.toNat, hostSel := hostSel }
      else s.onChip fun c => c.wr R.LAP_RST_HEAD (c.rd R.LAP_HEAD)
    s.onChip fun c =>
      let c : Chip := c.flag R.BOOT_STAT F.BOOT_STAT_STRAP_BAD (decide (2 ≤ c.f R.BOOT_STAT F.BOOT_STAT_MODE))
      let host := decide (c.f R.BOOT_STAT F.BOOT_STAT_MODE = 1)
      c.updBoot fun b => { b with step := 4, wait := host, order := c.bootOrder }

/-- A record of a false start of image `img` with its cause (R626). -/
def Chip.recordFalseStart (c : Chip) (img cause : Nat) : Chip :=
  let c : Chip := ((c.wr (R.BOOT_FS 3) (c.rd (R.BOOT_FS 2))).wr (R.BOOT_FS 2) (c.rd (R.BOOT_FS 1))).wr (R.BOOT_FS 1) (c.rd (R.BOOT_FS 0))
  let c : Chip := ((c.wrN (R.BOOT_FS 0) 0).setF (R.BOOT_FS 0) F.BOOT_FS_IMAGE img).setF (R.BOOT_FS 0) F.BOOT_FS_CAUSE cause
  (c.incSat R.BOOT_NEXT F.BOOT_NEXT_FS_TOTAL).incSat R.BOOT_STAT F.BOOT_STAT_FS_COUNT

/-- BOOT.STAT.ALIVE of twin `t`. -/
def aliveFld (t : Bool) : Fld := if t then F.BOOT_STAT_ALIVE_B else F.BOOT_STAT_ALIVE_A

/-- A false start (R626, R627): the twins halt, the main domain's pages return to reset, and the next image of the order is tried;
with none left the device enters SAFE with cause BOOT_FAILED. PWM_READY and the twins' ALIVE speak of one attempt (log entry 140, DEDUCED). -/
def Chip.falseStart (c : Chip) (img cause : Nat) : Chip :=
  let c : Chip := (c.recordFalseStart img cause).falseReset
  let c : Chip := ((c.flag R.BOOT_STAT F.BOOT_STAT_PWM_READY false).flag R.BOOT_STAT (aliveFld false) false).flag R.BOOT_STAT (aliveFld true)
    false
  let rest := c.boot.order.drop 1
  let c : Chip := c.updBoot fun b => { b with order := rest, step := if rest = [] then 0 else 4 }
  if rest = [] then c.cause 0x10 9 0 else c

/-- The sections of image bytes `g` for which `p` holds are copied to their destinations (R623 step 4): CODE sections to the private
copies of their twin. -/
def State.copySects (s : State) (g : Nat → Byte) (p : Sect → Bool) : State :=
  ((Im.sects g).filter p).foldl (fun s x =>
    match Im.dest g x with
    | none => s
    | some (d, a, n) =>
      let bs := (List.range n).map fun i => g (x.src + i)
      if x.kind = 3 then s.onMem fun m => if d then m.dramPut a bs else m.sramPut a bs
      else s.onChip fun c => c.updTwin (decide (x.kind = 2)) fun w =>
        { w with priv := putList unwritten w.priv (privKey (if d then .dram else .sram) a) bs }) s

/-- BOOT.VER_A or VER_B shows a scan of image `img` (R645). -/
def Chip.showVer (c : Chip) (img : Nat) (g : Nat → Byte) (ok : Bool) : Chip :=
  if 2 ≤ img then c
  else if ok then
    c.wrN (R.BOOT_VER img) (2 ^ 31 + Im.secver g % 128 * 2 ^ 24 + Im.build g % 2 ^ 24)
  else c.wrN (R.BOOT_VER img) 0

/-- BOOT_IMAGE_VERIFY (R623 step 4): the first image of the order is read, copied and checked. -/
def mdBootImageVerify (readOk sigOk : Bool) (s : State) : State :=
  if !(s.chip.bootAt 4) || s.chip.boot.wait then s
  else
    match s.chip.boot.order with
    | [] => s
    | img :: _ =>
      let tried := s.chip.is R.BOOT_NEXT F.BOOT_NEXT_TRY_EN && decide (img < 2) &&
        decide (s.chip.f R.BOOT_NEXT F.BOOT_NEXT_TRY ≠ s.chip.f R.BOOT_NEXT F.BOOT_NEXT_PREF)
      let s := if img < 2 then s.onChip fun c => c.flag R.BOOT_NEXT F.BOOT_NEXT_TRY_EN false else s
      let g := s.imgByte img
      let (cause, plain) := s.imgCheck img readOk sigOk
      let s := if cause = 0 ∨ 4 ≤ cause then s.copySects g (fun _ => true) else s
      s.onChip fun c =>
        let c : Chip := c.showVer img g (decide (cause = 0))
        if cause ≠ 0 then c.falseStart img cause
        else
          let c : Chip := (c.flag R.BOOT_STAT F.BOOT_STAT_TRIAL tried).flag R.BOOT_STAT F.BOOT_STAT_UNSIGNED plain
          c.updBoot fun b => { b with step := 5, img := img }

/-- HOST mode waits no longer (R628): BOOT.CMD HOST_GO from the host. -/
def Chip.hostGo (c : Chip) (i : Nat) : Chip :=
  if c.bootAt 4 && c.boot.wait && decide (i = 3) then c.updBoot fun b => { b with wait := false } else c.refuse R.BOOT_CMD i

/-- HOST_GO (R628). -/
def doHostGo (w : Writer) (key : BitVec 16) (c : Chip) : Chip := c.cmd R.BOOT_CMD w key fun c => c.hostGo w.ini.code

/-- HOST_TIMEOUT (R626, R628). -/
def doHostTimeout (c : Chip) : Chip :=
  c.via fun c => if c.bootAt 4 && c.boot.wait then (c.updBoot fun b => { b with wait := false }).falseStart 2 0x9 else c

/-! ### The end of BOOT (R33, R624) -/

/-- Whether R33 releases a cause at the end of BOOT. -/
def Chip.released (c : Chip) (code : Nat) : Bool :=
  !(c.safe.startupFailed && decide (code = 0x0B)) && (!recoverable code || c.causeClear code)

/-- BOOT ends once PWM_READY and both ALIVE bits are 1 (R624): the latch is released and the device enters READY, or it enters SAFE
with the first cause that R33 does not release (the first cause of the latch where that is one, else the lowest code). -/
def Chip.bootEnd (c : Chip) : Chip :=
  if c.boot.step = 7 ∧ c.is R.BOOT_STAT F.BOOT_STAT_PWM_READY = true ∧ c.is R.BOOT_STAT F.BOOT_STAT_ALIVE_A = true
      ∧ c.is R.BOOT_STAT F.BOOT_STAT_ALIVE_B = true then
    let c : Chip := c.updBoot fun b => { b with step := 8 }
    if c.mode ≠ .boot then c
    else if !c.is R.SHD_STAT F.SHD_STAT_LATCH then c.enterReady
    else
      let first := c.f R.SHD_CAUSE ⟨7, 0⟩
      match ((if c.causesSeen.contains first then [first] else []) ++ c.causesSeen).find? fun x => !c.released x with
      | none => c.clearLatch.enterReady
      | some x => (c.enterSafe x).logSafe x Mode.boot.code 9 0
  else c

/-- PWM_READY (R623 step 7): AFE calibration is over and every comparator in use has passed its self-test; `t` is the time from VAUX
power-good in 100 µs. -/
def doPwmReady (t : BitVec 16) (c : Chip) : Chip :=
  if c.bootAt 7 && !c.is R.BOOT_STAT F.BOOT_STAT_PWM_READY && c.meas.cal.all (·.isEmpty) && c.meas.tests.isEmpty
      && (List.range 16).all fun n =>
        decide (c.f (R.ACMP_CH_CFG n) F.ACMP_CH_CFG_MODE = 0) || c.is (R.ACMP_CH_STAT n) F.ACMP_CH_STAT_ST_PASS then
    ((c.flag R.BOOT_STAT F.BOOT_STAT_PWM_READY true).setF R.BOOT_TIMES F.BOOT_TIMES_PWMRDY t.toNat).bootEnd
  else c

/-- BOOT.CMD ALIVE (R624, R642): from a twin, for itself. -/
def Chip.bootAlive (c : Chip) (i : Nat) : Chip :=
  if i = 1 ∨ i = 2 then
    let t := decide (i = 2)
    ((c.flag R.BOOT_STAT (aliveFld t) true).updBoot fun b => { b with before := upd b.before (b2n t) fun _ => none }).bootEnd
  else c.refuse R.BOOT_CMD i

/-- BOOT_ALIVE (R624). -/
def doBootAlive (w : Writer) (key : BitVec 16) (c : Chip) : Chip := c.cmd R.BOOT_CMD w key fun c => c.bootAlive w.ini.code

/-- BOOT.STAT.CODE of twin `t`. -/
def codeFld (t : Bool) : Fld := if t then F.BOOT_STAT_CODE_B else F.BOOT_STAT_CODE_A

/-- BOOT.CMD CONFIRM (R629). -/
def Chip.bootConfirm (c : Chip) (i : Nat) : Chip :=
  let a := c.f R.BOOT_STAT F.BOOT_STAT_CODE_A
  if (i = 1 ∨ i = 2) ∧ a = c.f R.BOOT_STAT F.BOOT_STAT_CODE_B ∧ a < 2 then
    (c.setF R.BOOT_NEXT F.BOOT_NEXT_PREF a).flag R.BOOT_STAT F.BOOT_STAT_TRIAL false
  else c.refuse R.BOOT_CMD i

/-- BOOT_CONFIRM (R629). -/
def doBootConfirm (w : Writer) (key : BitVec 16) (c : Chip) : Chip := c.cmd R.BOOT_CMD w key fun c => c.bootConfirm w.ini.code

/-! ### Twin restart and live load (R639 to R642) -/

/-- A live load of image `img` for twin `t` starts staging. -/
def Chip.liveStart (c : Chip) (t : Bool) (img : Nat) (back : Bool) : Chip :=
  ((c.updBoot fun b => { b with live := some ⟨t, img, back⟩ }).flag R.BOOT_LIVE F.BOOT_LIVE_BUSY true).setF R.BOOT_LIVE
    F.BOOT_LIVE_FAIL 0

/-- A return that waited starts once no live load is in progress (R642). -/
def Chip.liveNext (c : Chip) : Chip :=
  match c.boot.backs with
  | [] => c
  | (t, img) :: r =>
    if c.boot.live.isSome || c.boot.ready.isSome then c else (c.updBoot fun b => { b with backs := r }).liveStart t img true

/-- SYS.RST_CTL asks for a restart of twin `t` (R639, R640). -/
def Chip.twinRestart (c : Chip) (t : Bool) (i : Nat) : Chip :=
  if (c.running && decide (c.twState (!t) ≠ Tw.run)) || decide (c.twState t = Tw.restoring) || c.boot.live.isSome
      || c.boot.ready.isSome then
    (c.refuse R.SYS_RST_CTL i).setF R.BOOT_LIVE F.BOOT_LIVE_FAIL 0xA
  else
    c.liveStart t (if c.is R.BOOT_LIVE F.BOOT_LIVE_ARM then c.f R.BOOT_LIVE F.BOOT_LIVE_IMAGE
      else c.f R.BOOT_STAT (codeFld t)) false

/-- TWIN_RESTART (R639). -/
def doTwinRestart (w : Writer) (key : BitVec 16) (t : Bool) (c : Chip) : Chip :=
  c.cmd R.SYS_RST_CTL w key fun c => c.twinRestart t w.ini.code

/-- The PG_CRC that SCFG would show with the SCFG pairs of an image applied to reset values (R640). -/
def scfgCrcOf (g : Nat → Byte) : Word :=
  let m := (Im.pairs g 5).foldl (fun m p =>
    let k := p.1 - 0x40000000
    SMap.put regReset m k ((regReset k &&& ~~~ covered k) ||| (wd p.2 &&& covered k))) []
  pageCrc (SMap.get regReset m) P.SCFG

/-- The bytes of an image up to the end of its chain: L, the signature, and the chain of R631. -/
def Im.total (g : Nat → Byte) : Nat :=
  let n := Im.len g + 96
  (forN (g n).toNat (fun _ e => e + 2 + leBytes g e 2) (n + 2))

/-- LIVE_STAGE_DONE (R640): the image is in the staging area and has been checked. -/
def mdLiveStageDone (readOk sigOk : Bool) (s : State) : State :=
  if !s.chip.clockOn then s
  else
    match s.chip.boot.live with
    | none => s
    | some l =>
      let g := s.imgByte l.img
      let (cause, plain) := s.imgCheck l.img readOk sigOk
      let own := decide (Im.priv g l.twin false = s.chip.rd (R.TWN_PRIV_S (b2n l.twin)))
        && decide (Im.priv g l.twin true = s.chip.rd (R.TWN_PRIV_D (b2n l.twin)))
        && (decide (s.chip.rd R.SHD_SEALED_CRC = 0) || decide (scfgCrcOf g = s.chip.rd R.SHD_SEALED_CRC))
      let cause := if cause ≠ 0 then cause else if own then 0 else 0x8
      let s := if cause = 1 then s else s.onMem fun m =>
        m.dramPut stagingAt ((List.range (min (2 ^ 23) (Im.total g))).map g)
      s.onChip fun c =>
        let c : Chip := (c.updBoot fun b => { b with live := none }).flag R.BOOT_LIVE F.BOOT_LIVE_BUSY false
        let c : Chip := c.showVer l.img g (decide (cause = 0))
        if cause = 0 then
          (c.flag R.BOOT_STAT F.BOOT_STAT_UNSIGNED (c.is R.BOOT_STAT F.BOOT_STAT_UNSIGNED || plain)).updBoot fun b =>
            { b with ready := some l }
        else ((c.setF R.BOOT_LIVE F.BOOT_LIVE_FAIL cause).raise P.BOOT 1).liveNext

/-- LIVE_HALT (R641): with its release buffer empty the twin halts, takes the CODE sections of the staged image, and starts. A twin
that a finding halted stays so (R557). -/
def mdLiveHalt (s : State) : State :=
  if !s.chip.clockOn then s
  else
    match s.chip.boot.ready with
    | none => s
    | some l =>
      if (s.chip.twin l.twin).rb ≠ [] ∨ s.chip.twState l.twin = Tw.halted then s
      else
        let g := fun i => SMap.get unwritten s.mem.dram ((stagingAt + i) % dramSize)
        let s := s.onChip fun c => c.txnTwinRestart (1 + b2n l.twin)
        let s := s.copySects g fun x => decide (x.kind = 1 + b2n l.twin)
        s.onChip fun c =>
          let old := c.f R.BOOT_STAT (codeFld l.twin)
          let c : Chip := c.updTwin l.twin fun x => { x with undo := [], ifq := [], saved := none, cks := 0, copying := none }
          let c : Chip := (((c.setTw l.twin Tw.run).wr64 (R.TWN_STAMP (b2n l.twin) 0) 0).wr64 (R.TWN_DEEP (b2n l.twin) 0) 0).countRestart
            l.twin
          let c : Chip := (c.setF R.BOOT_STAT (codeFld l.twin) l.img).flag R.BOOT_STAT (aliveFld l.twin) false
          let c : Chip := (c.flag R.BOOT_LIVE F.BOOT_LIVE_ARM false).updBoot fun b => { b with
            ready := none, before := upd b.before (b2n l.twin) fun _ => some (if l.back then 3 else old),
            secver := upd b.secver (b2n l.twin) fun _ => Im.secver g }
          ((c.raise P.BOOT 1).lapLong 0x0C 0 [c.mode.code, 2 + 256 * b2n l.twin]).liveNext

/-- ALIVE_TIMEOUT (R626, R627, R642): twin `t` has not written ALIVE within ALIVE_MS of its start: at boot a false start, after a live
restart the return to the image it ran before, after a live load in progress (log entry 140, DEDUCED), and then SAFE with cause
BOOT_FAILED. -/
def doAliveTimeout (t : Bool) (c : Chip) : Chip :=
  c.via fun c =>
    if c.is R.BOOT_STAT (aliveFld t) then c
    else
      match nth c.boot.before (b2n t) none with
      | some old =>
        let c : Chip := c.updBoot fun b => { b with before := upd b.before (b2n t) fun _ => none }
        let c : Chip := (c.recordFalseStart (c.f R.BOOT_STAT (codeFld t)) 0x7).raise P.BOOT 0
        if old = 3 then c.cause 0x10 9 0 else (c.updBoot fun b => { b with backs := b.backs ++ [(t, old)] }).liveNext
      | none => if c.bootAt 7 then c.falseStart c.boot.img 0x7 else c

/-! ### Flash (R645, R646) -/

/-- A write to BOOT.FL_CTL with the right key (R646): while a command runs a further one has no effect (log entry 43, DEDUCED). -/
def Chip.flashCmd (c : Chip) (opcode : Nat) (b addr wr : Bool) (i : Nat) : Chip :=
  let booted := decide (c.f R.BOOT_STAT F.BOOT_STAT_SOURCE = b2n b)
  if !(decide (i = 1) || decide (i = 2)) || (booted && ! [0x03, 0x05, 0x0B, 0x6C, 0x9F].contains opcode) then
    (c.flag R.BOOT_FL_STAT F.BOOT_FL_STAT_DENIED true).perr R.BOOT_FL_CTL .security i
  else if c.boot.flash.isSome then c
  else
    let f : FlashCmd := ⟨opcode, b, addr, wr, c.rdN R.BOOT_FL_ADDR, c.f R.BOOT_FL_BUF F.BOOT_FL_BUF_LEN,
      8 * c.f R.BOOT_FL_BUF F.BOOT_FL_BUF_OFS8⟩
    (c.updBoot fun x => { x with flash := some f }).flag R.BOOT_FL_STAT F.BOOT_FL_STAT_BUSY true

/-- FLASH_COMMAND (R646). -/
def doFlashCommand (w : Writer) (key : BitVec 16) (opcode : BitVec 8) (b addr wr : Bool) (c : Chip) : Chip :=
  c.cmd R.BOOT_FL_CTL w key fun c => c.flashCmd opcode.toNat b addr wr w.ini.code

/-- FLASH_COMMAND_DONE (R645): the flash has answered with `data` (the array's own bytes for the read command of R620), which go to
SRAM, and has changed its array at `prog`. -/
def mdFlashCommandDone (data : List (BitVec 8)) (prog : List (BitVec 32 × BitVec 8)) (s : State) : State :=
  if !s.chip.clockOn then s
  else
    match s.chip.boot.flash with
    | none => s
    | some f =>
      let img := b2n f.b
      let bs := if f.opcode = 0x6C ∧ f.addrOn = true then (List.range f.len).map fun i => s.imgByte img (f.addr + i)
        else (data ++ List.replicate f.len 0).take f.len
      let s := if f.write then s else s.onMem fun m => m.sramPut f.ofs bs
      let put := fun m => prog.foldl (fun m e => SMap.put erased m e.1.toNat e.2) m
      let s := if f.opcode = 0x6C then s else s.onMem fun m => if f.b then { m with flashB := put m.flashB } else { m with flashA := put m.flashA }
      s.onChip fun c =>
        ((c.updBoot fun b => { b with flash := none }).flag R.BOOT_FL_STAT F.BOOT_FL_STAT_BUSY false).flag R.BOOT_FL_STAT
          F.BOOT_FL_STAT_DONE true

/-! ### SEC (R630, R631, R633, R647, R648) -/

/-- Whether the device may run SEC command `op` now (R630, R633, R647). -/
def State.secAllowed (s : State) (op : Nat) : Bool :=
  let c := s.chip
  match op with
  | 2 => c.boot.idMade
  | 5 => !c.is R.BOOT_STAT F.BOOT_STAT_TRIAL
      && decide (c.f R.BOOT_STAT F.BOOT_STAT_CODE_A = c.f R.BOOT_STAT F.BOOT_STAT_CODE_B)
  | 6 => !c.boot.idMade && s.mem.lcOpen
  | 7 => decide (c.mode = .ready)
  | _ => decide (1 ≤ op) && decide (op ≤ 4)

/-- A write to SEC.CMD with the right key: refused while BUSY, with a reserved code, or where its own rule bars it; the last shows FAIL
STATE too. -/
def State.secCmd (s : State) (op arg i : Nat) : State :=
  if s.chip.boot.sec.isSome ∨ op = 0 ∨ 7 < op then s.onChip fun c => c.refuse R.SEC_CMD i
  else if !s.secAllowed op then s.onChip fun c => (c.refuse R.SEC_CMD i).setF R.SEC_STAT F.SEC_STAT_FAIL 7
  else s.onChip fun c =>
    ((c.updBoot fun b => { b with sec := some (op, arg, 8 * c.f R.SEC_PTR F.SEC_PTR_OFS8) }).flag R.SEC_STAT F.SEC_STAT_BUSY
      true).setF R.SEC_STAT F.SEC_STAT_FAIL 0

/-- A write to SEC.CMD. -/
def State.secVia (s : State) (w : Writer) (key : BitVec 16) (op arg : Nat) : State :=
  s.cmd R.SEC_CMD w key fun s => s.secCmd op arg w.ini.code

/-- SEC.CMD VERIFY_IMAGE (R647). -/
def mdSecVerifyImage (w : Writer) (key : BitVec 16) (b : Bool) (s : State) : State := s.secVia w key 1 (b2n b)
/-- SEC.CMD SIGN (R633). -/
def mdSecSign (w : Writer) (key : BitVec 16) (s : State) : State := s.secVia w key 2 0
/-- SEC.CMD VERIFY_CHAIN (R631). -/
def mdSecVerifyChain (w : Writer) (key : BitVec 16) (arg : BitVec 8) (s : State) : State := s.secVia w key 3 arg.toNat
/-- SEC.CMD RANDOM (R647). -/
def mdSecRandom (w : Writer) (key : BitVec 16) (s : State) : State := s.secVia w key 4 0
/-- SEC.CMD ARB_ADVANCE (R630). -/
def mdArbAdvance (w : Writer) (key : BitVec 16) (s : State) : State := s.secVia w key 5 0
/-- SEC.CMD GEN_ID (R633). -/
def mdGenId (w : Writer) (key : BitVec 16) (s : State) : State := s.secVia w key 6 0
/-- SEC.CMD REVOKE_ROOT (R648). -/
def mdRevokeRoot (w : Writer) (key : BitVec 16) (slot : BitVec 2) (s : State) : State := s.secVia w key 7 slot.toNat

/-- `n` open bytes written to SRAM from `a` (log entry 2, DESIGN CHOICE). -/
def State.freeBytes (s : State) (a n : Nat) : State :=
  forN n (fun i s =>
    let (x, c) := s.chip.freeW
    { s with chip := c, mem := s.mem.sramPut (a + i) [BitVec.ofNat 8 x.toNat] }) s

/-- The OTP word at byte offset `o` (4 bytes) takes the bits of `v` beside its own. -/
def State.otpOr (s : State) (o v : Nat) : State :=
  s.onMem fun m => { m with otp := (List.range 4).foldl (fun t i =>
    t.put unblown (o + i) (t.get unblown (o + i) ||| BitVec.ofNat 8 (v / 256 ^ i))) m.otp }

/-- The lowest unblown anti-rollback bits are blown until `n` are (R630). -/
def State.arbTo (s : State) (n : Nat) : State :=
  let free := (List.range 64).filter fun i => !nbit (s.mem.otpN 0x160 8) i
  (free.take (n - s.mem.arb)).foldl (fun s i => s.otpOr (0x160 + 4 * (i / 32)) (2 ^ (i % 32))) s

/-- What a SEC command does at its end, and its FAIL code: `sigOk`, `chainOk` and `validOk` are the engine's verdicts on the signature,
the chain and the validity periods (R631). -/
def State.secRun (s : State) (op arg ptr : Nat) (readOk sigOk chainOk validOk : Bool) : State × Nat :=
  let crypt := fun root => if !sigOk then 2 else if !chainOk then 3 else if !root then 4 else if !validOk then 6 else 0
  match op with
  | 1 =>
    let g := s.imgByte (arg % 2)
    let root := s.mem.rootSet (Im.rootSlot g) && !s.mem.rootRevoked (Im.rootSlot g)
    let f := if !readOk || !Im.formatOk g || !Im.layoutOk g then 1
      else
        let x := crypt root
        if x ≠ 0 ∧ x < 5 then x else if Im.secver g < s.mem.arb then 5 else x
    (s.onChip fun c => c.showVer (arg % 2) g (decide (f = 0)), f)
  | 2 => (s.freeBytes (ptr + 48) 96, 0)
  | 3 =>
    let root := match arg with
      | 0 => decide (s.mem.otpN 0x130 48 ≠ 0)
      | 1 => decide (s.mem.otpN 0x100 48 ≠ 0)
      | k => s.mem.rootSet (k - 2) && !s.mem.rootRevoked (k - 2)
    (s, if !readOk then 1 else crypt root)
  | 4 => (s.freeBytes ptr 32, 0)
  | 5 => ((s.arbTo (nth s.chip.boot.secver 0 0)).showOtp, 0)
  | 6 =>
    (s.onChip fun c =>
      (forN 24 (fun i c => let (x, c) := c.freeW; c.wr (R.SEC_ID_PUB i) x) c).updBoot fun b => { b with idMade := true }, 0)
  | _ => (s.otpOr 0x168 (2 ^ (arg % 4)), 0)

/-- SEC_COMMAND_DONE (R647, R651). -/
def mdSecCommandDone (readOk sigOk chainOk validOk : Bool) (s : State) : State :=
  if !s.chip.clockOn then s
  else
    match s.chip.boot.sec with
    | none => s
    | some (op, arg, ptr) =>
      let (s, f) := s.secRun op arg ptr readOk sigOk chainOk validOk
      s.onChip fun c =>
        let c : Chip := ((c.updBoot fun b => { b with sec := none }).flag R.SEC_STAT F.SEC_STAT_BUSY false).flag R.SEC_STAT
          F.SEC_STAT_DONE true
        ((c.setF R.SEC_STAT F.SEC_STAT_FAIL f).raise P.SEC 0).raiseIf (decide (f ≠ 0)) P.SEC 1

/-! ### OTP (R648, R649) -/

/-- Whether GO may program word `k` (R648, R649): outside the factory area, a locked area, and a word with a byte that only
ARB_ADVANCE or REVOKE_ROOT programs. -/
def Mem.otpOpen (m : Mem) (k : Nat) : Bool :=
  let o := 4 * k
  let locked := fun b => nbit (m.otpN 0 4) b
  if o = 0 then true
  else if o < 0x40 then false
  else if o < 0x100 then !locked 8
  else if o < 0x130 then !locked 9
  else if o < 0x160 then !locked 10
  else if o < 0x16C then false
  else !locked 11

/-- OTP.CMD with the right key (R649). -/
def State.otpCmd (s : State) (go : Bool) (k i : Nat) : State :=
  let c := s.chip
  if !go then s
  else if (i = 1 ∨ i = 2) ∧ c.mode = .ready ∧ c.is R.VAUX_STAT F.VAUX_STAT_EW = false ∧ s.mem.otpOpen k = true ∧ c.boot.otp.isNone = true then
    s.onChip fun c =>
      (c.updBoot fun b => { b with otp := some (k, c.rdN R.OTP_PDATA, s.mem.otpN (4 * k) 4) }).flag R.OTP_STAT F.OTP_STAT_BUSY true
  else s.onChip fun c => (c.flag R.OTP_STAT F.OTP_STAT_DENIED true).perr R.OTP_CMD .security i

/-- OTP_GO (R649). -/
def mdOtpGo (w : Writer) (key : BitVec 16) (go : Bool) (word : BitVec 9) (s : State) : State :=
  s.cmd R.OTP_CMD w key fun s => s.otpCmd go word.toNat w.ini.code

/-- Programming ends: the bits of PDATA in `blown` are in the word (R649). -/
def State.otpDone (s : State) (blown : Nat) : State :=
  match s.chip.boot.otp with
  | none => s
  | some (k, data, old) =>
    let s := s.otpOr (4 * k) (data &&& blown)
    let bad := decide (s.mem.otpN (4 * k) 4 ≠ old ||| data)
    (s.onChip fun c =>
      let c : Chip := ((c.updBoot fun b => { b with otp := none }).flag R.OTP_STAT F.OTP_STAT_BUSY false).flag R.OTP_STAT
        F.OTP_STAT_DONE true
      (if bad then c.flag R.OTP_STAT F.OTP_STAT_VERIFY_FAIL true else c).raise P.OTP 0).showOtp

/-- OTP_PROGRAM_DONE (R649): `blown` are the bits that took. -/
def mdOtpProgramDone (blown : BitVec 32) (s : State) : State := if s.chip.clockOn then s.otpDone blown.toNat else s

/-! ### Debug access and memory errors -/

/-- DEBUG_ACCESS_OPEN (R634): in life cycle SECURED, where the credential verifies (`ok`) with rights `rights`. -/
def mdDebugAccessOpen (ok : Bool) (rights : BitVec 8) (s : State) : State :=
  if s.chip.clockOn && !s.mem.lcOpen && ok && nbit rights.toNat 1 then
    s.onChip fun c => (c.flag R.SEC_DBG F.SEC_DBG_OPEN true).incSat R.SEC_DBG F.SEC_DBG_GRANTS
  else s

/-- MEM_UNCORRECTABLE (R675): the 64-bit word at byte offset `ofs` reads 0 from now on. -/
def mdMemUncorrectable (dram : Bool) (ofs : BitVec 29) (s : State) : State :=
  if !s.chip.clockOn then s
  else
    let a := ofs.toNat / 8 * 8
    let z : List Byte := List.replicate 8 0
    let s := s.onMem fun m => if dram then m.dramPut a z else m.sramPut a z
    s.onChip fun c =>
      (((c.incSat (if dram then R.MEM_ECC_DRAM else R.MEM_ECC_SRAM) ⟨15, 0⟩).flag R.MEM_UE_ADDR F.MEM_UE_ADDR_SPACE dram).setF
        R.MEM_UE_ADDR F.MEM_UE_ADDR_OFS ofs.toNat).raise P.MEM 0

/-! ### Host memory access (R638) -/

/-- Whether a range of memory may be copied for the host (R638). -/
def Chip.hostMayCopy (c : Chip) (r : Bool × Nat × Nat) : Bool :=
  let priv := fun (t : Bool) =>
    let w := c.rd (if r.1 then R.TWN_PRIV_D (b2n t) else R.TWN_PRIV_S (b2n t))
    (r.1, Im.dest.privBase w r.1, Im.privSize w r.1)
  c.is R.HPT_CTL F.HPT_CTL_MEM_EN && decide (r.2.1 + r.2.2 ≤ if r.1 then dramSize else sramSize)
    && !Im.meets r (priv false) && !Im.meets r (priv true) && !Im.meets r stagingRange
    && (decide (c.lapState = Ls.importing) || (!Im.meets r ringRange && !Im.meets r slotRange))

/-- HPT.MEM_CMD with the right key (R638): from the host only; a code other than READ and WRITE, and a further command while one
runs, is refused. -/
def Chip.memCmd (c : Chip) (op count i : Nat) : Chip :=
  if i ≠ 3 then c.perr R.HPT_MEM_CMD .security i
  else if op = 0 ∨ 2 < op ∨ c.boot.copy.isSome = true then c.refuse R.HPT_MEM_CMD i
  else
    let d := c.is R.HPT_MEM_ADDR F.HPT_MEM_ADDR_SPACE
    let a := c.f R.HPT_MEM_ADDR F.HPT_MEM_ADDR_OFS
    if c.hostMayCopy (d, a, 4 * (count + 1)) then
      (c.updBoot fun b => { b with copy := some (decide (op = 2), count + 1, d, a) }).flag R.HPT_MEM_STAT F.HPT_MEM_STAT_BUSY true
    else c.flag R.HPT_MEM_STAT F.HPT_MEM_STAT_DENIED true

/-- HOST_MEM_READ (R638). -/
def doHostMemRead (w : Writer) (key : BitVec 16) (count : BitVec 4) (c : Chip) : Chip :=
  c.cmd R.HPT_MEM_CMD w key fun c => c.memCmd 1 count.toNat w.ini.code
/-- HOST_MEM_WRITE (R638). -/
def doHostMemWrite (w : Writer) (key : BitVec 16) (count : BitVec 4) (c : Chip) : Chip :=
  c.cmd R.HPT_MEM_CMD w key fun c => c.memCmd 2 count.toNat w.ini.code

/-- Whether byte `a` of DRAM lies in an anchor slot that holds a recorded anchor, whose bytes have no stated layout. -/
def Chip.inAnchor (c : Chip) (a : Nat) : Bool :=
  decide (slotBase ≤ a) && decide (a < slotBase + 4 * slotSize) && (nth c.red.slots ((a - slotBase) / slotSize) none).isSome

/-- Word `i` of a copy from memory to MBUF. -/
def State.copyIn (s : State) (d : Bool) (a i : Nat) : State :=
  if d && s.chip.inAnchor (a + 4 * i) then s.onChip fun c => let (x, c) := c.freeW; c.wr (R.HPT_MBUF i) x
  else
    let bs := if d then s.mem.dramGet (a + 4 * i) 4 else s.mem.sramGet (a + 4 * i) 4
    s.onChip fun c => c.wrN (R.HPT_MBUF i) (leNat bs)

/-- MEM_COPY_DONE (R638). -/
def mdMemCopyDone (s : State) : State :=
  if !s.chip.clockOn then s
  else
    match s.chip.boot.copy with
    | none => s
    | some (wr, n, d, a) =>
      let s :=
        if wr then
          let bs := (List.range n).flatMap fun i => bytesLE 4 (s.chip.rdN (R.HPT_MBUF i))
          s.onMem fun m => if d then m.dramPut a bs else m.sramPut a bs
        else forN n (fun i s => s.copyIn d a i) s
      s.onChip fun c =>
        (((c.updBoot fun b => { b with copy := none }).flag R.HPT_MEM_STAT F.HPT_MEM_STAT_BUSY false).flag R.HPT_MEM_STAT
          F.HPT_MEM_STAT_DONE true).raise P.HPT 1

/-! ### The commands -/

/-- BOOT_SURVIVAL_RESTORE (R623). -/
def execBootSurvivalRestore (straps : BitVec 2) (hostSel : Bool) (s : State) : Host.Outcome State Fault Refusal :=
  .next (mdBootSurvivalRestore straps hostSel s)
/-- BOOT_IMAGE_VERIFY (R623). -/
def execBootImageVerify (readOk sigOk : Bool) (s : State) : Host.Outcome State Fault Refusal :=
  .next (mdBootImageVerify readOk sigOk s)
/-- HOST_GO (R628). -/
def execHostGo (w : Writer) (key : BitVec 16) (s : State) : Host.Outcome State Fault Refusal :=
  .next (s.onChip (doHostGo w key))
/-- HOST_TIMEOUT (R626). -/
def execHostTimeout (s : State) : Host.Outcome State Fault Refusal :=
  .next (s.onChip doHostTimeout)
/-- PWM_READY (R623). -/
def execPwmReady (t : BitVec 16) (s : State) : Host.Outcome State Fault Refusal :=
  .next (s.onChip (doPwmReady t))
/-- BOOT_ALIVE (R624). -/
def execBootAlive (w : Writer) (key : BitVec 16) (s : State) : Host.Outcome State Fault Refusal :=
  .next (s.onChip (doBootAlive w key))
/-- BOOT_CONFIRM (R629). -/
def execBootConfirm (w : Writer) (key : BitVec 16) (s : State) : Host.Outcome State Fault Refusal :=
  .next (s.onChip (doBootConfirm w key))
/-- TWIN_RESTART (R639). -/
def execTwinRestart (w : Writer) (key : BitVec 16) (t : Bool) (s : State) : Host.Outcome State Fault Refusal :=
  .next (s.onChip (doTwinRestart w key t))
/-- LIVE_STAGE_DONE (R640). -/
def execLiveStageDone (readOk sigOk : Bool) (s : State) : Host.Outcome State Fault Refusal :=
  .next (mdLiveStageDone readOk sigOk s)
/-- LIVE_HALT (R641). -/
def execLiveHalt (s : State) : Host.Outcome State Fault Refusal :=
  .next (mdLiveHalt s)
/-- ALIVE_TIMEOUT (R626). -/
def execAliveTimeout (t : Bool) (s : State) : Host.Outcome State Fault Refusal :=
  .next (s.onChip (doAliveTimeout t))
/-- FLASH_COMMAND (R646). -/
def execFlashCommand (w : Writer) (key : BitVec 16) (opcode : BitVec 8) (b addr wr : Bool)
    (s : State) : Host.Outcome State Fault Refusal :=
  .next (s.onChip (doFlashCommand w key opcode b addr wr))
/-- FLASH_COMMAND_DONE (R645). -/
def execFlashCommandDone (data : List (BitVec 8)) (prog : List (BitVec 32 × BitVec 8))
    (s : State) : Host.Outcome State Fault Refusal :=
  .next (mdFlashCommandDone data prog s)
/-- SEC_VERIFY_IMAGE (R647). -/
def execSecVerifyImage (w : Writer) (key : BitVec 16) (b : Bool) (s : State) : Host.Outcome State Fault Refusal :=
  .next (mdSecVerifyImage w key b s)
/-- SEC_SIGN (R633). -/
def execSecSign (w : Writer) (key : BitVec 16) (s : State) : Host.Outcome State Fault Refusal :=
  .next (mdSecSign w key s)
/-- SEC_VERIFY_CHAIN (R631). -/
def execSecVerifyChain (w : Writer) (key : BitVec 16) (arg : BitVec 8)
    (s : State) : Host.Outcome State Fault Refusal :=
  .next (mdSecVerifyChain w key arg s)
/-- SEC_RANDOM (R647). -/
def execSecRandom (w : Writer) (key : BitVec 16) (s : State) : Host.Outcome State Fault Refusal :=
  .next (mdSecRandom w key s)
/-- ARB_ADVANCE (R630). -/
def execArbAdvance (w : Writer) (key : BitVec 16) (s : State) : Host.Outcome State Fault Refusal :=
  .next (mdArbAdvance w key s)
/-- GEN_ID (R633). -/
def execGenId (w : Writer) (key : BitVec 16) (s : State) : Host.Outcome State Fault Refusal :=
  .next (mdGenId w key s)
/-- REVOKE_ROOT (R648). -/
def execRevokeRoot (w : Writer) (key : BitVec 16) (slot : BitVec 2) (s : State) : Host.Outcome State Fault Refusal :=
  .next (mdRevokeRoot w key slot s)
/-- SEC_COMMAND_DONE (R647). -/
def execSecCommandDone (readOk sigOk chainOk validOk : Bool) (s : State) : Host.Outcome State Fault Refusal :=
  .next (mdSecCommandDone readOk sigOk chainOk validOk s)
/-- OTP_GO (R649). -/
def execOtpGo (w : Writer) (key : BitVec 16) (go : Bool) (word : BitVec 9)
    (s : State) : Host.Outcome State Fault Refusal :=
  .next (mdOtpGo w key go word s)
/-- OTP_PROGRAM_DONE (R649). -/
def execOtpProgramDone (blown : BitVec 32) (s : State) : Host.Outcome State Fault Refusal :=
  .next (mdOtpProgramDone blown s)
/-- DEBUG_ACCESS_OPEN (R634). -/
def execDebugAccessOpen (ok : Bool) (rights : BitVec 8) (s : State) : Host.Outcome State Fault Refusal :=
  .next (mdDebugAccessOpen ok rights s)
/-- MEM_UNCORRECTABLE (R675). -/
def execMemUncorrectable (dram : Bool) (ofs : BitVec 29) (s : State) : Host.Outcome State Fault Refusal :=
  .next (mdMemUncorrectable dram ofs s)
/-- HOST_MEM_READ (R638). -/
def execHostMemRead (w : Writer) (key : BitVec 16) (count : BitVec 4)
    (s : State) : Host.Outcome State Fault Refusal :=
  .next (s.onChip (doHostMemRead w key count))
/-- HOST_MEM_WRITE (R638). -/
def execHostMemWrite (w : Writer) (key : BitVec 16) (count : BitVec 4)
    (s : State) : Host.Outcome State Fault Refusal :=
  .next (s.onChip (doHostMemWrite w key count))
/-- MEM_COPY_DONE (R638). -/
def execMemCopyDone (s : State) : Host.Outcome State Fault Refusal :=
  .next (mdMemCopyDone s)

end Sys2Proof.Machine
end

