-- ==== Sys2Proof/Machine/Eth.lean ====
section
/-!
DEFINITION. Ethernet on lanes 03 and 07 (R436 to R440, R447): the link, the receive and transmit rings in SRAM and the frame
filter.
-/
namespace Sys2Proof.Machine
open Sys2Proof

/-- The lane of MAC `e`, in an Ethernet state, is ETH_UP or ETH_DOWN by what its PCS shows (R437); FEC counts at 25 Gb/s only. -/
def Chip.ethEval (c : Chip) (e : Nat) : Chip :=
  let n := 4 * e + 3
  let shows := fun f => c.is (R.ETH_STAT e) f
  let fec := c.is (R.ETH_CTL e) F.ETH_CTL_FEC_EN && decide (c.f (R.QUAD_CTL e) F.QUAD_CTL_ECM_RATE = 2)
  let up := shows F.ETH_STAT_BLOCK_LOCK && !shows F.ETH_STAT_HI_BER && (!fec || shows F.ETH_STAT_FEC_ALIGN)
  if Ls.ethDown ≤ c.laneState n then
    ((c.laneTo n (if up then Ls.ethUp else Ls.ethDown)).flag (R.LANE_STAT n) F.LANE_STAT_BLOCK_LOCK (shows F.ETH_STAT_BLOCK_LOCK)).ethLink n
  else c

/-- The PCS of the Ethernet lane of MAC `e` changes (R437). -/
def doEthLinkChange (e : Fin 2) (blockLock hiBer fecAlign : Bool) (c : Chip) : Chip :=
  c.clocked (P.ETH e) fun c =>
    if c.laneState (4 * e.val + 3) < Ls.ethDown then c
    else
      (((c.flag (R.ETH_STAT e) F.ETH_STAT_BLOCK_LOCK blockLock).flag (R.ETH_STAT e) F.ETH_STAT_HI_BER hiBer).flag
        (R.ETH_STAT e) F.ETH_STAT_FEC_ALIGN fecAlign).ethEval e

/-- The SRAM offset of descriptor `i` of a ring register's word: base in units of 16 bytes (R447, R490). -/
def descAt (ring : Word) (i : Nat) : Nat := 16 * fget ring F.ETH_RX_RING_BASE + 16 * i

/-- The index after `i` in a ring: COUNT descriptors, 0 for 256. -/
def descNext (ring : Word) (i : Nat) : Nat :=
  (i + 1) % (if fget ring F.ETH_RX_RING_COUNT = 0 then 256 else fget ring F.ETH_RX_RING_COUNT)

/-- Whether MAC `e` takes frames to this destination address (R438), most significant byte first. -/
def Chip.ethAddrOk (c : Chip) (e : Nat) (d : List Byte) : Bool :=
  let lo := c.rdN (R.ETH_MAC_LO e)
  let hi := c.f (R.ETH_MAC_HI e) F.ETH_MAC_HI_MAC
  let mac : List Byte := (bytesLE 2 hi) ++ (bytesLE 4 lo).reverse
  [mac, List.replicate 6 0xFF#8, [0x01, 0x1B, 0x19, 0, 0, 0], [0x01, 0x80, 0xC2, 0, 0, 0x0E]].contains d

/-- A PAUSE frame of IEEE 802.3: MAC control with opcode 1. -/
def isPause (f : List Byte) : Bool := (f.drop 12).take 4 == [0x88#8, 0x08#8, 0x00#8, 0x01#8]

/-- Whether MAC `e` runs on a link that is up. -/
def Chip.ethUp (c : Chip) (e : Nat) : Bool :=
  c.is (R.ETH_CTL e) F.ETH_CTL_EN && decide (c.laneState (4 * e + 3) = Ls.ethUp)

/-- Bytes as 64-bit units, least significant byte first. -/
def units8 (l : List Byte) : List Nat :=
  (List.range ((l.length + 7) / 8)).map fun i => leNat ((l.drop (8 * i)).take 8)

/-- A received frame, from its destination address to before its FCS (R438 to R440): 64 to 1,522 bytes with the FCS. -/
def mdEthFrameRx (e : Fin 2) (frame : List (BitVec 8)) (fcsOk : Bool) (s : State) : State :=
  let c := s.chip
  if !c.clockOn || c.halted (P.ETH e) || !c.ethUp e || decide (frame.length < 60) || decide (1518 < frame.length) then s
  else if !fcsOk then s.onChip fun c => c.incSat (R.ETH_RX_ERR e) F.ETH_RX_ERR_FCS
  else if isPause frame then s.onChip fun c => c.incSat (R.ETH_RX_FILT e) F.ETH_RX_FILT_PAUSE
  else if !c.ethAddrOk e (frame.take 6) then s.onChip fun c => c.incSat (R.ETH_RX_FILT e) F.ETH_RX_FILT_FILTERED
  else
    let ring := c.rd (R.ETH_RX_RING e)
    let i := c.f (R.ETH_STAT e) F.ETH_STAT_RX_IDX
    let d := descAt ring i
    let w1 := s.mem.sramW (d + 4)
    if !nbit w1.toNat 31 then s.onChip fun c => c.incSat (R.ETH_RX_ERR e) F.ETH_RX_ERR_NO_DESC
    else
      let size := w1.toNat % 65536
      let cut := decide (size < frame.length)
      let m := s.mem.sramPut (s.mem.sramW d).toNat (frame.take size)
      let m := m.sramPutW (d + 4) (wd (2 ^ 30 + b2n cut * 2 ^ 29 + frame.length))
      let m := m.sramPut (d + 8) (bytesLE 8 c.htNs)
      { s with mem := m }.onChip fun c =>
        let c : Chip := (c.setF (R.ETH_STAT e) F.ETH_STAT_RX_IDX (descNext ring i)).countSat (R.ETH_RX_FRAMES e)
        (c.lapLong 0x05 1 (units8 frame)).raise (P.ETH e) 0

/-- The transmit ring of MAC `e` is examined: a frame starts where the next descriptor is the device's (R439). -/
def State.ethExamine (s : State) (e : Nat) : State :=
  let c := s.chip
  let own := nbit (s.mem.sramW (descAt (c.rd (R.ETH_TX_RING e)) (c.f (R.ETH_STAT e) F.ETH_STAT_TX_IDX) + 4)).toNat 31
  if c.is (R.ETH_CTL e) F.ETH_CTL_EN && !c.halted (P.ETH e) && !nth c.ethBusy e false && own then
    s.onChip fun c => { c with ethBusy := upd c.ethBusy e fun _ => true }
  else s

/-- TX_KICK (R439). -/
def mdEthTxKick (w : Writer) (e : Fin 2) (s : State) : State :=
  s.cmd (R.ETH_TX_KICK e) w theKey fun s => s.ethExamine e

/-- The frame under way has been sent (R439, R440). -/
def mdEthFrameSent (e : Fin 2) (s : State) : State :=
  let c := s.chip
  if !c.clockOn || c.halted (P.ETH e) || !nth c.ethBusy e false then s
  else
    let ring := c.rd (R.ETH_TX_RING e)
    let i := c.f (R.ETH_STAT e) F.ETH_STAT_TX_IDX
    let d := descAt ring i
    let w1 := s.mem.sramW (d + 4)
    let m := if nbit w1.toNat 30 then s.mem.sramPut (d + 8) (bytesLE 8 c.htNs) else s.mem
    let m := m.sramPutW (d + 4) (w1 &&& 0x7FFFFFFF#32)
    State.ethExamine ({ s with mem := m }.onChip fun c =>
      let c : Chip := { c with ethBusy := upd c.ethBusy e fun _ => false }
      ((c.setF (R.ETH_STAT e) F.ETH_STAT_TX_IDX (descNext ring i)).countSat (R.ETH_TX_FRAMES e)).raise (P.ETH e) 1) e

/-! ### The commands -/

/-- ETH_LINK_CHANGE (R437). -/
def execEthLinkChange (e : Fin 2) (blockLock : Bool) (hiBer : Bool) (fecAlign : Bool)
    (s : State) : Host.Outcome State Fault Refusal :=
  .next (s.onChip (doEthLinkChange e blockLock hiBer fecAlign))
/-- ETH_FRAME_RX (R438). -/
def execEthFrameRx (e : Fin 2) (frame : List (BitVec 8)) (fcsOk : Bool)
    (s : State) : Host.Outcome State Fault Refusal :=
  .next (mdEthFrameRx e frame fcsOk s)
/-- ETH_TX_KICK (R439). -/
def execEthTxKick (w : Writer) (e : Fin 2) (s : State) : Host.Outcome State Fault Refusal :=
  .next (mdEthTxKick w e s)
/-- ETH_FRAME_SENT (R439). -/
def execEthFrameSent (e : Fin 2) (s : State) : Host.Outcome State Fault Refusal :=
  .next (mdEthFrameSent e s)

end Sys2Proof.Machine
end

