-- ==== Sys2Proof/Machine/Replay.lean ====
section
/-!
DEFINITION. The replay of a recorded ring (R571 to R573): its start, its pauses and its end. What a replayed record does is in
Run.lean.
-/
namespace Sys2Proof.Machine
open Sys2Proof

/-- How many bytes ring offset `o` lies behind the newest record. -/
def Chip.behind (c : Chip) (o : Nat) : Nat := (8 * c.f R.LAP_HEAD F.LAP_HEAD_OFS + ringSize - o % ringSize) % ringSize

/-- The newest valid anchor of twin `t` whose record lies at or before ring offset `o` (R572). -/
def Chip.anchorBefore (c : Chip) (t : Bool) (o : Nat) : Option TwAnchor :=
  ((c.red.slots.drop (2 * b2n t)).take 2).foldl (fun m a =>
    match m, a with
    | _, none => m
    | none, some y => if c.behind o ≤ c.behind y.ofs then some y else none
    | some x, some y => if c.behind o ≤ c.behind y.ofs ∧ x.stamp < y.stamp then some y else m) none

/-- The first record from ring offset `o` on, within `fuel` records and before ring offset `stop`, that is a record of `kind` (RELEASE or
READ) of twin `t` with a stamp of at least `st`. -/
def Mem.nextOf (m : Mem) (kind : Nat) (t : Bool) (stop st : Nat) : Nat → Nat → Option (Nat × LapRec)
  | 0, _ => none
  | fuel + 1, o =>
    if o = stop then none
    else
      let r := m.lapAt o 0
      if !r.short && decide (r.kind = kind) && decide (r.sub = b2n t) && decide (st ≤ nth r.data 0 0) then some (o, r)
      else Mem.nextOf m kind t stop st fuel ((o + r.bytes) % ringSize)

/-- The ring offset after the record at offset `8 * o`. -/
def Mem.past (m : Mem) (o : Nat) : Nat := (8 * o + (m.lapAt (8 * o) 0).bytes) % ringSize

/-- The next RELEASE record of twin `t` from ring offset `o` on (R572). -/
def State.release (s : State) (t : Bool) (st o : Nat) : Option (Nat × LapRec) :=
  s.mem.nextOf 0x09 t (s.mem.past (s.chip.f R.LAP_HEAD F.LAP_HEAD_OFS)) st (ringSize / 8) o

/-- The record of the input that twin `t` read at stamp `st` (R572), from the oldest record on. -/
def State.readRecord (s : State) (t : Bool) (st : Nat) : Option LapRec :=
  let first := match s.chip.red.anchors with | x :: _ => x.pos % ringSize | [] => 8 * s.chip.f R.LAP_REPLAY_CFG F.LAP_REPLAY_CFG_START % ringSize
  match s.mem.nextOf 0x08 t (s.mem.past (s.chip.f R.LAP_HEAD F.LAP_HEAD_OFS)) st (ringSize / 8) first with
  | some (_, r) => if nth r.data 0 0 = st then some r else none
  | none => none

/-- Twin `t` at the start of a replay from ring offset `o`: with SCOPE = FULL it runs from an anchor, and its next RELEASE record is
the first after its restart point; else it stays halted (R20, R572). -/
def State.replayTwin (s : State) (t : Bool) (o : Nat) : State :=
  let c := s.chip
  match (if c.is R.LAP_REPLAY_CFG F.LAP_REPLAY_CFG_SCOPE then c.anchorBefore t o else none) with
  | some a =>
    let first := match c.red.anchors with | x :: _ => x.pos % ringSize | [] => o
    let rel := match s.release t (a.stamp + 1) first with | some (p, _) => p | none => o
    s.onChip fun c =>
      let c : Chip := c.updTwin t fun x => { x with priv := a.priv, undo := [], rb := [], ifq := [], rel := rel }
      (((c.wr64 (R.TWN_STAMP (b2n t) 0) a.stamp).wr64 (R.TWN_DEEP (b2n t) 0) a.stamp).showRb t).setTw t Tw.replay
  | none => if c.twRuns t then s.onChip fun c => c.setTw t Tw.halted else s

/-- LAP.CMD REPLAY_START by initiator `i` (R571, R577): without a HW_ANCHOR at START there is nothing to load. -/
def State.replayStart (s : State) (i : Nat) : State :=
  let c := s.chip
  let o := 8 * c.f R.LAP_REPLAY_CFG F.LAP_REPLAY_CFG_START % ringSize
  let st := c.lapState
  let r := s.mem.lapAt o 0
  if c.mode = .replay ∧ (st = Ls.frozen ∨ st = Ls.importing ∨ st = Ls.ended) ∧ r.short = false ∧ r.kind = 0x03 then
    let s := s.onChip fun c =>
      let a := (c.red.anchors.find? fun a => a.pos % ringSize = o).getD (importedAnchor (r.data.flatMap words64))
      let c : Chip := (c.loadAnchor a).updMeas fun m => { m with frames := [] }
      let c : Chip := (c.updTime fun t => { t with ht := r.ht * 2 ^ 48 }).updRed fun x =>
        { x with pos := (o + r.bytes) % ringSize, brk := false, rht := r.ht }
      (c.toReset R.LAP_DIV).setLap Ls.replaying
    (s.replayTwin false o).replayTwin true o
  else s.onChip fun c => c.refuse R.LAP_CMD i

/-- LAP.CMD REPLAY_CONT by initiator `i` (R573). -/
def Chip.replayCont (c : Chip) (i : Nat) : Chip :=
  if c.mode = .replay ∧ c.lapState = Ls.paused then c.setLap Ls.replaying else c.refuse R.LAP_CMD i

/-- REPLAY_START (R571). -/
def mdReplayStart (w : Writer) (key : BitVec 16) (s : State) : State :=
  s.lapVia w key fun s => s.replayStart w.ini.code

/-- REPLAY_CONT (R573). -/
def doReplayCont (w : Writer) (key : BitVec 16) (c : Chip) : Chip :=
  c.cmd R.LAP_CMD w key fun c => c.replayCont w.ini.code

/-- REPLAY_BREAK (R573): herd time has reached LAP.BREAK. -/
def doReplayBreak (c : Chip) : Chip :=
  c.clocked P.LAP fun c =>
    if c.lapState = Ls.replaying ∧ c.red.brk = true then (c.updRed fun x => { x with brk := false }).setLap Ls.paused else c

/-- Whether the replay is over, and if so whether at a GAP: after the record at LAP.STOP, at the newest record, or where a GAP is
next (R573). -/
def State.replayOver (s : State) : Option Bool :=
  let c := s.chip
  let r := s.mem.lapAt c.red.pos c.red.rht
  if c.red.pos = s.mem.past (c.f R.LAP_STOP F.LAP_STOP_OFS) ∨ c.red.pos = s.mem.past (c.f R.LAP_HEAD F.LAP_HEAD_OFS) then some false
  else if r.short = false ∧ r.kind = 0x02 then some true
  else none

/-- REPLAY_END (R573). -/
def mdReplayEnd (s : State) : State :=
  if s.chip.clockOn && !s.chip.halted P.LAP && decide (s.chip.lapState = Ls.replaying) then
    match s.replayOver with
    | some gap => s.onChip fun c => ((if gap then c.flag R.LAP_STAT F.LAP_STAT_GAP_STOP true else c).setLap Ls.ended).raise P.LAP 3
    | none => s
  else s

/-! ### The commands -/

/-- REPLAY_START (R571). -/
def execReplayStart (w : Writer) (key : BitVec 16) (s : State) : Host.Outcome State Fault Refusal :=
  .next (mdReplayStart w key s)
/-- REPLAY_CONT (R573). -/
def execReplayCont (w : Writer) (key : BitVec 16) (s : State) : Host.Outcome State Fault Refusal :=
  .next (s.onChip (doReplayCont w key))
/-- REPLAY_BREAK (R573). -/
def execReplayBreak (s : State) : Host.Outcome State Fault Refusal :=
  .next (s.onChip doReplayBreak)
/-- REPLAY_END (R573). -/
def execReplayEnd (s : State) : Host.Outcome State Fault Refusal :=
  .next (mdReplayEnd s)

end Sys2Proof.Machine
end

