-- ==== Sys2Proof/Machine/Sessions.lean ====
section
/-!
DEFINITION. The twin rings of the fabric (R478, R489, R490): packets for firmware, responses to its requests, and what it sends.
A ring is numbered 0 RXQ_A, 1 TXQ_A, 2 RSPQ_A, 3 RXQ_B, 4 TXQ_B, 5 RSPQ_B.
-/
namespace Sys2Proof.Machine
open Sys2Proof

/-- The register of ring `r`. -/
def ringReg (r : Nat) : Nat := R.SES_RXQ_A + 4 * r

/-- The SRAM offset of the next descriptor of ring `r`. -/
def Chip.ringDesc (c : Chip) (r : Nat) : Nat := descAt (c.rd (ringReg r)) (nth c.fab.ringIdx r 0)

/-- Ring `r` goes on to its next descriptor. -/
def Chip.ringStep (c : Chip) (r : Nat) : Chip :=
  c.updFab fun f => { f with ringIdx := upd f.ringIdx r (descNext (c.rd (ringReg r))) }

/-- The bytes of a packet as a buffer holds them: the header, then the payload (R490). -/
def packetBytes (p : Packet) : List Byte :=
  (p.header ++ p.body.map (·.toNat)).flatMap (bytesLE 4)

/-- One packet that waits for ring `r`: into the next descriptor where that is the device's (R439, R490), else it waits on. -/
def State.ringPut (s : State) (x : Nat × Option Nat × Packet) : State :=
  let r := x.1
  let p := x.2.2
  let d := s.chip.ringDesc r
  let w1 := s.mem.sramW (d + 4)
  if nbit w1.toNat 31 then
    let size := w1.toNat % 65536
    let b := packetBytes p
    let m := s.mem.sramPut (s.mem.sramW d).toNat (b.take size)
    let m := m.sramPutW (d + 4) (wd (b2n (decide (size < b.length)) * 2 ^ 29 + p.ses.toNat * 2 ^ 16 + b.length))
    { s with mem := m }.onChip fun c =>
      (((c.ringStep r).giveBack x.2.1 p.vc.toNat).lapFab (r / 3) p).raise P.SES 3
  else s.onChip fun c => c.updFab fun f => { f with ringWait := f.ringWait ++ [x] }

/-- The packets that wait for a descriptor are tried in turn (log entry 36, DESIGN CHOICE). -/
def State.ringFlush (s : State) : State :=
  s.chip.fab.ringWait.foldl State.ringPut (s.onChip fun c => c.updFab fun f => { f with ringWait := [] })

/-- A packet for ring `r` joins those that wait for one. -/
def State.toRing (s : State) (r : Nat) (inL : Option Nat) (p : Packet) : State :=
  (s.onChip fun c => c.updFab fun f => { f with ringWait := f.ringWait ++ [(r, inL, p)] }).ringFlush

/-- A packet at its consumer: discarded where R456, R486 or R487 ask for it, else taken by `g`. -/
def State.consume (s : State) (p : Packet) (g : State → State) : State :=
  if !s.chip.clockOn then s
  else match s.chip.admitted p with
    | some x => s.onChip fun c => c.dropPkt p x
    | none => g s

/-- The receive ring of the twin that serves the packet's session. -/
def Chip.rxRing (c : Chip) (p : Packet) : Nat := if c.is (Key.ses p.ses.toNat 0x200) F.SES_S_CFG_TWIN then 3 else 0

/-- A packet for the twin ring of its session. -/
def State.toTwin (s : State) (inL : Option Nat) (p : Packet) : State := s.toRing (s.chip.rxRing p) inL p

/-- EVT_NOTIFY_RX (R456). -/
def mdEvtNotifyRx (p : Packet) (s : State) : State := s.consume p fun s => s.toTwin none p
/-- DATA_RX (R456). -/
def mdDataRx (p : Packet) (s : State) : State := s.consume p fun s => s.toTwin none p
/-- FW_REQ_RX (R456). -/
def mdFwReqRx (p : Packet) (s : State) : State := s.consume p fun s => s.toTwin none p
/-- SES_HELLO_RX (R456): twin B's ring. -/
def mdSesHelloRx (p : Packet) (s : State) : State := s.consume p fun s => s.toRing 3 none p
/-- SES_REPLY_RX (R456): twin B's ring. -/
def mdSesReplyRx (p : Packet) (s : State) : State := s.consume p fun s => s.toRing 3 none p
/-- SES_FINISH_RX (R456): twin B's ring. -/
def mdSesFinishRx (p : Packet) (s : State) : State := s.consume p fun s => s.toRing 3 none p

/-- The outstanding requests of session `n` are shown. -/
def Chip.showOutstanding (c : Chip) (n : Nat) : Chip :=
  c.setF (Key.ses n 0x20C) F.SES_S_STAT_OUTSTANDING (min 255 (c.fab.reqs.filter fun r => r.ses = n).length)

/-- A response (or UNDELIV) to the request with its tag: into the response ring of the twin that asked (R478); one that a
hardware initiator awaits, or that nothing awaits, ends here. -/
def State.response (s : State) (inL : Option Nat) (p : Packet) : State :=
  match s.chip.fab.reqs.find? fun r => r.tag = p.tag.toNat && (!p.enc || r.ses = p.ses.toNat) with
  | some r =>
    let s := s.onChip fun c => (c.updFab fun f => { f with reqs := f.reqs.erase r }).showOutstanding r.ses
    match r.twin with
    | some b => s.toRing (if b then 5 else 2) inL p
    | none => s.onChip fun c => c.giveBack inL p.vc.toNat
  | none => s.onChip fun c => c.giveBack inL p.vc.toNat

/-- REG_RESP_RX (R478). -/
def mdRegRespRx (p : Packet) (s : State) : State := s.consume p fun s => s.response none p
/-- FW_RESP_RX (R456). -/
def mdFwRespRx (p : Packet) (s : State) : State := s.consume p fun s => s.response none p
/-- UNDELIV_RX (R472). -/
def mdUndelivRx (p : Packet) (s : State) : State := s.consume p fun s => s.response none p

/-- The free descriptors of ring `r`: those the device owns. -/
def State.ringFree (s : State) (r : Nat) : Nat :=
  let w := s.chip.rd (ringReg r)
  let n := if fget w F.SES_RXQ_A_COUNT = 0 then 256 else fget w F.SES_RXQ_A_COUNT
  ((List.range n).filter fun i => nbit (s.mem.sramW (descAt w i + 4)).toNat 31).length

/-- The packet that a transmit buffer of `len` bytes describes under session `ses` (R490): the device fills SRC, AGE, HOPS, DN
and HOP_LIMIT. -/
def State.txPacket (s : State) (a len ses : Nat) : Packet :=
  let h := fun i => (s.mem.sramW (a + 4 * i)).toNat
  let ws := (List.range ((len - 16 + 3) / 4)).map fun i => h (4 + i)
  s.chip.packet (h 1 / 2 ^ 24) (h 0 / 2 ^ 29) (h 0 / 2 ^ 26 % 4) (h 0 % 2 ^ 15)
    (if nbit (h 0) 25 then some ses else none) (h 2 % 2 ^ 16) ws

/-- One descriptor of twin `b`'s transmit ring (R478, R490): sent, or returned with ERR where a request has no response slot or
the packet is a publication. -/
def State.txOne (s : State) (b : Bool) : State :=
  let r := if b then 4 else 1
  let d := s.chip.ringDesc r
  let w1 := (s.mem.sramW (d + 4)).toNat
  if !nbit w1 31 then s
  else
    let ses := w1 / 2 ^ 16 % 256
    let p := s.txPacket (s.mem.sramW d).toNat (w1 % 65536) ses
    let req := decide (p.kind = 0x20#8) || decide (p.kind = 0x39#8)
    let twinReqs := (s.chip.fab.reqs.filter fun x => x.twin = some b).length
    let sesReqs := (s.chip.fab.reqs.filter fun x => x.ses = ses).length
    let slot := decide (twinReqs < s.ringFree (if b then 5 else 2))
      && decide (sesReqs < s.chip.f (Key.ses ses 0x208) F.SES_S_WDOG_RESP_CREDITS)
    let err := (req && !slot) || decide (p.kind = 0x10#8)
    let s := { s with mem := s.mem.sramPutW (d + 4) (wd (w1 % 2 ^ 29 + b2n (nbit w1 30) * 2 ^ 30 + b2n err * 2 ^ 29)) }
    s.onChip fun c =>
      let c : Chip := c.ringStep r
      if err then c
      else
        let c : Chip := if req then
            (c.updFab fun f => { f with reqs := f.reqs ++ [⟨p.tag.toNat, ses, some b⟩] }).showOutstanding ses
          else c
        c.emit p 0 none

/-- SES.KICK (R490): the twin's transmit ring is examined to its first descriptor that is not the device's. -/
def mdSesKick (w : Writer) (twin : Bool) (s : State) : State :=
  s.cmd (R.SES_KICK (b2n twin)) w theKey fun s => (forN 256 (fun _ s => s.txOne twin) s).ringFlush

/-! ### The commands -/

/-- EVT_NOTIFY_RX (R456). -/
def execEvtNotifyRx (p : Packet) (s : State) : Host.Outcome State Fault Refusal :=
  .next (mdEvtNotifyRx p s)
/-- DATA_RX (R490). -/
def execDataRx (p : Packet) (s : State) : Host.Outcome State Fault Refusal :=
  .next (mdDataRx p s)
/-- FW_REQ_RX (R456). -/
def execFwReqRx (p : Packet) (s : State) : Host.Outcome State Fault Refusal :=
  .next (mdFwReqRx p s)
/-- SES_HELLO_RX (R456). -/
def execSesHelloRx (p : Packet) (s : State) : Host.Outcome State Fault Refusal :=
  .next (mdSesHelloRx p s)
/-- SES_REPLY_RX (R456). -/
def execSesReplyRx (p : Packet) (s : State) : Host.Outcome State Fault Refusal :=
  .next (mdSesReplyRx p s)
/-- SES_FINISH_RX (R456). -/
def execSesFinishRx (p : Packet) (s : State) : Host.Outcome State Fault Refusal :=
  .next (mdSesFinishRx p s)
/-- REG_RESP_RX (R478). -/
def execRegRespRx (p : Packet) (s : State) : Host.Outcome State Fault Refusal :=
  .next (mdRegRespRx p s)
/-- FW_RESP_RX (R456). -/
def execFwRespRx (p : Packet) (s : State) : Host.Outcome State Fault Refusal :=
  .next (mdFwRespRx p s)
/-- UNDELIV_RX (R472). -/
def execUndelivRx (p : Packet) (s : State) : Host.Outcome State Fault Refusal :=
  .next (mdUndelivRx p s)
/-- SES_KICK (R490). -/
def execSesKick (w : Writer) (twin : Bool) (s : State) : Host.Outcome State Fault Refusal :=
  .next (mdSesKick w twin s)

end Sys2Proof.Machine
end

