-- ==== Sys2Proof/Machine/Access.lean ====
section
/-!
DEFINITION. Reading the register space: where an offset leads (banks and windows), the header of a page (R55, R61 to R65), the
registers whose content is computed when they are read, and the high-word latches (R46, R47, R52, R53).
-/
namespace Sys2Proof.Machine
open Sys2Proof

/-! ### Where an offset leads -/

/-- The key that holds the register at offset `k` for initiator code `i`: its own TXN bank (R95), what the windows of STR, STRW,
FAB, SES and PQM show (R245, R409, R492, R494), else the offset itself. -/
def Chip.keyOf (c : Chip) (i k : Nat) : Nat :=
  let b := pageBase k
  let o := k % 0x1000
  if b = P.TXN ∧ 0x100 ≤ o ∧ o < 0x128 then Key.txn i o
  else if b = P.STR ∧ 0x800 ≤ o then Key.slot (512 * c.f R.STR_SLOTSEL F.STR_SLOTSEL_HALF + (o - 0x800) / 4)
  else if b = P.STRW ∧ 0x400 ≤ o ∧ o < 0x800 then Key.table (256 * c.f R.STRW_SEL F.STRW_SEL_TBLK + (o - 0x400) / 4)
  else if b = P.STRW ∧ 0x800 ≤ o then
    Key.sec (16 * c.f R.STRW_SEL F.STRW_SEL_SBLK + (o - 0x800) / 0x80) (o % 0x80)
  else if b = P.FAB ∧ 0x800 ≤ o then Key.route (c.f R.FAB_SEL F.FAB_SEL_PLANE) (c.f R.FAB_SEL F.FAB_SEL_BANK) o
  else if b = P.SES ∧ 0x200 ≤ o then Key.ses (c.f R.SES_SEL F.SES_SEL_SES) o
  else if b = P.PQM ∧ 0x800 ≤ o then
    Key.pq (c.f R.PQM_SEL F.PQM_SEL_PORT) (16 * c.f R.PQM_SEL F.PQM_SEL_BLK + (o - 0x800) / 32) (o % 32 / 4)
  else k

/-- The page whose register a key holds. -/
def keyPage (k : Nat) : Nat :=
  if k < 0x240000 then pageBase k
  else if k < 0x2000000 then P.TXN
  else if k < 0x2100000 then P.STR
  else if k < 0x2400000 then P.STRW
  else if k < 0x2500000 then P.FAB
  else if k < 0x2800000 then P.SES
  else P.PQM

/-! ### The event router as it reads (R61 to R65) -/

/-- The sources pending at a twin: its pulses and the level sources routed to it. -/
def Chip.pending (c : Chip) (b : Bool) : List Nat :=
  (List.range 256).filter fun s => (c.pend b).contains s ||
    (decide (c.evr s (if b then F.EVR_SRC_TWB else F.EVR_SRC_TWA) = 1) &&
      match sourceEv s with | some e => c.level e.1 e.2 | none => false)

/-- EVR.TOP of a twin: the pending source of highest priority, the lowest number among equals (R65). -/
def Chip.topSource (c : Chip) (b : Bool) : Word :=
  let best := (c.pending b).foldl (fun m s =>
    match m with
    | none => some s
    | some t => if c.evr t F.EVR_SRC_PRIO < c.evr s F.EVR_SRC_PRIO then some s else some t) none
  match best with
  | some s => wd (2 ^ 31 + c.evr s F.EVR_SRC_PRIO * 2 ^ 8 + s)
  | none => 0

/-- The twin's event interrupt (R66). -/
def Chip.eventIrq (c : Chip) (b : Bool) : Bool :=
  nbit (c.topSource b).toNat 31
    && decide (c.f (R.EVR_THRESH (b2n b)) F.EVR_THRESH_MIN ≤ fget (c.topSource b) F.EVR_TOP_PRIO)

/-! ### The header as it reads (R55) -/

/-- The contexts with staged entries in the page at `b`. -/
def Chip.pageCtxs (c : Chip) (b : Nat) : List Nat :=
  ((List.range 15).map (· + 1)).filter fun n => (c.ctx n).entries.any fun e => keyPage e.1 = b

/-- PG_TXN of the page at `b`. -/
def Chip.pgTxn (c : Chip) (b : Nat) : Word :=
  let l := c.pageCtxs b
  let n := (l.map fun x => ((c.ctx x).entries.filter fun e => keyPage e.1 = b).length).sum
  wd (b2n (decide (1 < l.length)) * 2 ^ 20 + l.headD 0 * 2 ^ 16 + n % 2 ^ 16)

/-- PG_LOCK of the page at `b`: only SCFG can be locked. -/
def Chip.pgLock (c : Chip) (b : Nat) : Word :=
  wd (c.f R.SHD_CRED_STAT F.SHD_CRED_STAT_ACTIVE * 2 ^ 9 + b2n c.shd.sealOpen * 2 ^ 8 + if b = P.SCFG then c.scfgLock else 0)

/-- The header word at offset `o` of instance `i` of page kind `p`. BLOCK_CAP and BLOCK_STAT are not stated (log entry 44, DESIGN CHOICE). -/
def Chip.header (c : Chip) (p : PageKind) (i o : Nat) : Word :=
  let b := p.base + 0x1000 * i
  match o with
  | 0x00 => wd (2 ^ 24 + i * 2 ^ 16 + p.block)
  | 0x04 => wd (b2n (p.regs.any fun e => e.rwt ≠ 0) * 2 ^ 31 + b2n p.snap * 2 ^ 30 + b2n p.lockable * 2 ^ 29
      + Config.blockCap p.block % 2 ^ 24)
  | 0x08 => c.rd (b + H.CTL) &&& 5#32
  | 0x0C => wd (b2n (c.crcBusy.contains b) * 2 ^ 31 + b2n (c.frozen b) * 2 ^ 30 + Config.blockStat p.block % 2 ^ 30)
  | 0x20 => c.pgTxn b
  | 0x24 => c.pgLock b
  | 0x28 => c.crcOf b
  | 0x10 | 0x14 | 0x1C | 0x2C => c.rd (b + o)
  | _ => 0

/-! ### Registers that are computed when read -/

/-- TXN.CUR of bank `i` (R95). -/
def Chip.txnCur (c : Chip) (i : Nat) : Word :=
  let r := nth c.bus.bankRes i 0 * 2 ^ 28
  match c.bankCtx i with
  | some n => wd (r + (c.ctx n).st.code * 2 ^ 24 + n * 2 ^ 20 + (c.ctx n).entries.length)
  | none => wd r

/-- TXN.CTXS of context `n` (R95). -/
def Chip.txnCtx (c : Chip) (n : Nat) : Word :=
  let x := c.ctx n
  wd ((if x.st = .free then 0 else x.ini) * 2 ^ 28 + x.st.code * 2 ^ 24 + x.result * 2 ^ 20 + x.entries.length)

/-- HPT.STAT: the fill of the posted queue beside what the register holds (R652). -/
def Chip.hptStat (c : Chip) : Word :=
  let n := c.boot.posted.length
  fset (fset (fset (c.rd R.HPT_STAT) F.HPT_STAT_PQ_FILL n) F.HPT_STAT_PQ_EMPTY (b2n (decide (n = 0)))) F.HPT_STAT_PQ_FULL
    (b2n (decide (64 ≤ n)))

/-- The fields that read as 1 while they hold 0 (R190, R193, R299, R301, R493). -/
def readsAsOne (k : Nat) : List Fld :=
  if k = R.CLK_CTL then [F.CLK_CTL_PSLEW]
  else if k = R.AFE_DUET then [F.AFE_DUET_PERSIST]
  else if k = R.ACMP_SAMPLE_CFG then [F.ACMP_SAMPLE_CFG_PERIOD]
  else if k = R.HRD_PERSIST then [F.HRD_PERSIST_CURVE_N, F.HRD_PERSIST_N_EXIT, F.HRD_PERSIST_N_SEQ, F.HRD_PERSIST_N_FAST]
  else if k = R.ISL_ROC then [F.ISL_ROC_PERSIST]
  else if k = R.MUS_CFG then [F.MUS_CFG_ANN_MS]
  else []

/-- The content of the register at offset `k` for initiator code `i`, as it is now. -/
def State.live (s : State) (i k : Nat) : Word :=
  let c := s.chip
  let v := c.rd (c.keyOf i k)
  if k = R.TXN_CUR then c.txnCur i
  else if R.TXN_CTXS 0 ≤ k ∧ k ≤ R.TXN_CTXS 14 then c.txnCtx ((k - R.TXN_CTXS 0) / 4 + 1)
  else if k = R.TXN_POOL then wd (c.bus.poolPeak * 2 ^ 16 + (4096 - c.poolUsed))
  else if R.EVR_PEND_A 0 ≤ k ∧ k < R.EVR_TOP 0 then
    let w := (k - R.EVR_PEND_A 0) / 4
    let l := c.pending (decide (8 ≤ w))
    wd ((List.range 32).map fun j => b2n (l.contains (32 * (w % 8) + j)) * 2 ^ j).sum
  else if k = R.EVR_TOP 0 then c.topSource false
  else if k = R.EVR_TOP 1 then c.topSource true
  else if k = R.SEQ_STAT then wd ((List.range 10).map fun n => b2n (c.idle n) * 2 ^ (16 + n)).sum
  else if k = R.HTM_NS 0 then wd c.htNs
  else if k = R.HTM_NS 1 then wd (c.htNs / 2 ^ 32)
  else if k = R.HTM_ADJ_REM then c.adjRemWord
  else if k = R.RTC_SEC_LO then wd c.time.calSec
  else if k = R.RTC_SEC_HI then
    fset (fset 0 F.RTC_SEC_HI_SEC_X (c.time.calSec / 2 ^ 32)) F.RTC_SEC_HI_SUB c.time.calSub
  else if k = R.HPT_STAT then c.hptStat
  else if R.OTP_WIN 0 ≤ k ∧ k ≤ R.OTP_WIN 511 then
    wd (s.mem.otpN (k - R.OTP_WIN 0) 4)
  else if k = R.SHD_STAT then fset v F.SHD_STAT_PERMIT (b2n c.permit)
  else if k = R.SHD_GRACE_REM then c.graceRem
  else if k = R.SHD_CRED_STAT then fset v F.SHD_CRED_STAT_MIN_REM c.credMinutes
  else if k = R.TWN_STAT 0 then fset v F.TWN_STAT_HIST (c.histShown false)
  else if k = R.TWN_STAT 1 then fset v F.TWN_STAT_HIST (c.histShown true)
  else if k = R.VCR_STAT then
    fset (fset v F.VCR_STAT_REF (c.refNow.1 / 10)) F.VCR_STAT_SLEWING (b2n (decide (c.refNow.1 ≠ c.target)))
  else (readsAsOne k).foldl (fun v x => if fget v x = 0 then fset v x 1 else v) v

/-! ### Reading (R6, R8, R46, R47, R50 to R53) -/

/-- Whether offset `k` is the low word of a 64-bit register (R5): a list of (first low word, copies, spacing). -/
def lowWord (k : Nat) : Bool :=
  ([(R.SYS_STATE_HT 0, 1, 4), (R.TXN_T 0, 1, 4), (R.HTM_NS 0, 1, 4), (R.HTM_STEP 0, 1, 4), (R.HTM_CAP 0, 2, 8),
    (R.HTM_SNAP_NS 0, 1, 4), (R.RTC_SEC_LO, 1, 4), (R.RTC_SET_LO, 1, 4), (R.RTC_ALARM_LO 0, 2, 0xC), (R.STR_HPH_T0_LO 0, 4, 0x10),
    (R.STR_OUT_STAMP_LO 0, 48, 0x10), (R.PCR_CH_P_LO 0, 16, 0x40), (R.HRD_LAST_T 0, 1, 4), (R.IMP_GRANT 0, 1, 4),
    (R.PWT_TB_T0_LO 0, 4, 0x40), (R.GDI_LAST_T 0 0, 16, 0x1000), (R.GDI_FQ_NEXT 0 0, 16, 0x1000)] ++
   [(R.MTR_E 0 0, 8, 8), (R.MTR_E 1 0, 8, 8), (R.MTR_INT 0 0, 4, 8), (R.MTR_INT 1 0, 4, 8), (R.MTR_SE 0 0, 8, 8),
    (R.MTR_SE 1 0, 8, 8), (R.MTR_SINT 0 0, 4, 8), (R.MTR_SINT 1 0, 4, 8), (R.MTR_CO_CHG_LO 0, 1, 4),
    (R.LANE_PAT_ERR_LO 0, 8, 0x1000), (R.LANE_PAT_BITS_LO 0, 8, 0x1000), (R.FAB_CYC_T0_LO, 1, 4), (R.SES_S_TXSEQ_LO, 1, 4),
    (R.SES_S_RXSEQ_LO, 1, 4), (R.MUS_BW_RANK 0, 1, 4), (R.TWN_STAMP 0 0, 2, 0x1000), (R.TWN_DEEP 0 0, 2, 0x1000),
    (R.TWN_WARM_VEC 0 0, 2, 0x1000), (R.TWN_LAST_T 0 0, 2, 0x1000), (R.DCU_MISM_STAMP 0, 1, 4), (R.DCU_MISM_T 0, 1, 4),
    (R.LAP_FREEZE_T 0, 1, 4), (R.LAP_BREAK 0, 1, 4), (R.HRV_E 0, 1, 4)]).any fun r =>
      decide (r.1 ≤ k) && decide ((k - r.1) % r.2.2 = 0) && decide ((k - r.1) / r.2.2 < r.2.1)

/-- What a read of offset `k` by initiator code `i` returns but for the latch: 0 in no page and at a reserved offset (R9, R46), 0
for a write-only field (R6). -/
def State.readRaw (s : State) (i k : Nat) : Word :=
  if !s.chip.clockOn then 0
  else match pageAt k with
    | none => 0
    | some (p, n) =>
      let o := k % 0x1000
      if o < 0x100 then s.chip.header p n o
      else match p.entry n o with
        | some e => if e.wo = 0xFFFFFFFF then 0 else s.live i k
        | none => 0

/-- What a read of offset `k` by initiator code `i` returns: the latched high word where the latch holds this register (R53). -/
def State.readReg (s : State) (i k : Nat) : Word :=
  match nth s.chip.bus.hiLatch i none with
  | some (a, v) => if a = k ∧ s.chip.clockOn then v else s.readRaw i k
  | none => s.readRaw i k

/-- The state after a read of offset `k` by initiator code `i`: a low word loads the latch (R52); else nothing changes (R8). -/
def State.afterRead (s : State) (i k : Nat) : State :=
  if lowWord k && s.chip.clockOn then
    let v := s.readRaw i (k + 4)
    s.onChip fun c => c.updBus fun b => { b with hiLatch := upd b.hiLatch i fun _ => some (k + 4, v) }
  else s

/-- The offset that an address names, where it lies in register space and is a multiple of 4 (R44, R47). -/
def regOffset (a : Nat) : Option Nat :=
  if 0x40000000 ≤ a ∧ a < 0x40240000 ∧ a % 4 = 0 then some (a - 0x40000000) else none

/-- A load of the word at offset `k` by the leading core of twin `t`, in the instruction with the given stamp (R18, R544, R547, R563): a
stalled core does not load; the bytes that an unreleased store of its own has written come from there; in a replay the input comes from its
READ record (R572); outside one the IFQ entry is recorded. -/
def State.twinLoad (s : State) (t : Bool) (k stamp : Nat) : State :=
  let i := 1 + b2n t
  if !(s.chip.clockOn && s.chip.twRuns t) then s.afterRead i k
  else if s.chip.twStalled t then s.onChip fun c => c.twStall t
  else if s.chip.mode = .replay then
    match s.readRecord t stamp with
    | some r => s.onChip fun c => c.ifqPut t ⟨stamp, false, nth r.data 1 0, nth r.data 2 0⟩
    | none => s
  else
    let own := fun j => s.chip.rbByte t (k + j)
    let v := s.readReg i k
    let v := leNat ((List.range 4).map fun j => BitVec.ofNat 8 ((own j).getD (v.toNat / 256 ^ j)))
    let s := if (List.range 4).all fun j => (own j).isSome then s else s.afterRead i k
    s.onChip fun c => (c.ifqPut t ⟨stamp, false, 0x40000000 + k, v⟩).lapLong 0x08 (b2n t) [stamp, 0x40000000 + k, v]

/-- LOW_WORD_READ (R52): a read of the word at address `a`; by a twin it is its leading core's load, with the instruction's stamp. -/
def mdLowWordRead (w : Writer) (a : BitVec 32) (stamp : BitVec 64) (s : State) : State :=
  match regOffset a.toNat with
  | some k =>
    match w.ini with
    | .twinA => s.twinLoad false k stamp.toNat
    | .twinB => s.twinLoad true k stamp.toNat
    | _ => s.afterRead w.ini.code k
  | none => s

/-! ### The commands -/

/-- LOW_WORD_READ (R52). -/
def execLowWordRead (w : Writer) (a : BitVec 32) (stamp : BitVec 64) (s : State) : Host.Outcome State Fault Refusal :=
  .next (mdLowWordRead w a stamp s)

end Sys2Proof.Machine
end

