-- ==== Sys2Proof/Machine/Follow.lean ====
section
/-!
DEFINITION. What the blocks do once a register has taken a new word: the responses to one register, those of a block to any of its
registers, and the log of changes to the safety configuration (R531).
-/
namespace Sys2Proof.Machine
open Sys2Proof

/-- The instance of a page kind of `n` instances whose base is `b`. -/
def instOf (p : Nat → Nat) (n b : Nat) : Option Nat := (List.range n).find? fun i => p i = b

/-- A list without its repeats. -/
def distinct (l : List Nat) : List Nat := l.foldl (fun a x => if a.contains x then a else a ++ [x]) []

/-! ### Responses to one register -/

/-- An XMD channel whose mode or protection word was written (R171, R178, R180): a channel that is off shows no output. -/
def Chip.xmdWritten (c : Chip) (ch : Nat) (mode : Bool) : Chip :=
  let c : Chip := if mode then c.flag (xmdStat ch) F.XMD_CH_STAT_MAN_LOCK false else c
  let c : Chip :=
    if c.xmdMode ch = 0 then (c.updXmd ch fun x => { last := x.last, lastSat := x.lastSat }).flag (xmdStat ch) F.XMD_CH_STAT_LOS false
    else if mode then c.updXmd ch fun x => { x with ctl := {}, prot := {}, phase := none, hiN := 0, loN := 0 }
    else c
  c.xmdDemand ch

/-- EVR.SRC of source `s`, which held `o`, has taken a word: a level source that is asserted now (R61) is asserted to each destination that
the word newly names, and after a soft reset of EVR to each that it names (R98). -/
def Chip.evrWritten (c : Chip) (s : Nat) (o : Word) : Chip :=
  let was := if c.bus.evrCut.contains s then 0 else o
  let new := fun x => decide (c.evr s x = 1) && decide (fget was x = 0)
  let c : Chip := c.updBus fun b => { b with evrCut := b.evrCut.filter (· ≠ s) }
  if match sourceEv s with | some e => c.level e.1 e.2 | none => false then
    let go := fun (p : Bool) (d : EvDest) (c : Chip) => onlyIf p (fun c => c.deliver s d) c
    let rg := c.evr s F.EVR_SRC_STR_RG
    let c : Chip := go (new F.EVR_SRC_TWB) .twinB (go (new F.EVR_SRC_TWA) .twinA c)
    let c : Chip := go (new F.EVR_SRC_STR || (decide (c.evr s F.EVR_SRC_STR = 1) && decide (fget was F.EVR_SRC_STR_RG ≠ rg))) (.stride rg) c
    let c : Chip := go (new F.EVR_SRC_SHD) .sheepdog c
    go (new F.EVR_SRC_FAB) (.fabric (c.evr s F.EVR_SRC_FAB_SES) (c.evr s F.EVR_SRC_PLANE) c.htNs) c
  else c

/-- The register at key `k`, which held `o`, has taken a word: the effects that depend on which register it is. -/
def Chip.hook (c : Chip) (k : Nat) (o : Word) : Chip :=
  let b := keyPage k
  let x := k % 0x1000
  let v := c.rd k
  let set := fun g => c.bit k g && !nbit o.toNat g
  let cleared := fun g => !c.bit k g && nbit o.toNat g
  if Key.sec 0 0 ≤ k ∧ k < Key.sec2 0 0 then
    -- a write renews the ECC of the record (log entry 119, DEDUCED)
    let c : Chip := c.updStr fun s => { s with ecc := s.ecc.filter fun m => decide (m ≠ (k - Key.sec 0 0) / 0x80) }
    -- GCRC covers the word (R243)
    if gcrcOffs.contains ((k - Key.sec 0 0) % 0x80) && decide (v ≠ o) then c.flag R.STR_STAT F.STR_STAT_GCRC_BUSY true else c
  else if Key.table 0 ≤ k ∧ k < Key.table 4096 then if v ≠ o then c.flag R.STR_STAT F.STR_STAT_TCRC_BUSY true else c
  else if x < 0x100 then c
  else if b = P.SEQ then
    if k = R.SEQ_CTL then
      forN 2 (fun g c => if set g then c.groupStart g else if cleared g then c.groupStop g else c) c
    else if v ≠ o ∧ 0x200 ≤ x then c.seqChanged ((x - 0x200) / 0x200) ((x - 0x200) % 0x200 / 8)
    else c
  else if b = P.AFE then
    if 0x200 ≤ x then c.setBit R.AFE_STAT (16 + (x - 0x200) / 0x20) true
    else if 0x180 ≤ x then c.setBit R.AFE_STAT (16 + (x - 0x180) / 4) true
    else if 0x110 ≤ x then c.spares.seqRecheck
    else if k = R.AFE_CTL ∧ fget o F.AFE_CTL_LP ≠ fget v F.AFE_CTL_LP then c.seqRecheck
    else c
  else if b = P.ACMP then
    if x < 0x200 ∧ x % 0x10 = 0 then c.acmpMode ((x - 0x100) / 0x10) (fget o F.ACMP_CH_CFG_MODE) else c
  else if b = P.CLK then
    if 0x180 ≤ x ∧ c.is (R.CLK_OUT_CFG ((x - 0x180) / 0x10)) F.CLK_OUT_CFG_EN = false then c.clkOutTake ((x - 0x180) / 0x10) else c
  else if b = P.EVR then if x < 0x500 then c.evrWritten ((x - 0x100) / 4) o else c
  else if b = P.RTC then
    if 0x120 ≤ x ∧ x < 0x138 then if (x - 0x120) % 0xC = 8 then c else c.alarmWritten ((x - 0x120) / 0xC) else c.survShow
  else if b = P.HTM then
    if k = R.HTM_RATE then c.lapHtm
    else if k = R.HTM_CTL then if fget o F.HTM_CTL_DISC_SRC = fget v F.HTM_CTL_DISC_SRC then c else c.showSrc.musFollow
    else if (k = R.HTM_CAP_CFG 0 ∨ k = R.HTM_CAP_CFG 1) ∧ fget v F.HTM_CAP_CFG_FULL = 0 then c.flag k F.HTM_CAP_CFG_LOST false
    else c
  else if b = P.FAB then
    if k = R.FAB_CTL then c.fabCtlFollow o else if k = R.FAB_TIME_CFG then c.showUpstream
    else if R.FAB_SUB_A 0 ≤ k ∧ k ≤ R.FAB_SUB_A 63 ∧ k % 8 = 0 ∧ v ≠ o then
      -- a subscription to another publication, or enabled anew, has taken no cycle number yet (R484)
      c.updFab fun f => { f with subCyc := f.subCyc.erase ((k - R.FAB_SUB_A 0) / 8) }
    else c
  else if b = P.SES then
    -- a ring written anew is processed from entry 0 (R490; log entry 143, DEDUCED)
    if R.SES_RXQ_A ≤ k ∧ k ≤ R.SES_RSPQ_B ∧ v ≠ o then
      c.updFab fun f => { f with ringIdx := upd f.ringIdx ((k - R.SES_RXQ_A) / 4) fun _ => 0 }
    else c
  else if b = P.MUS then c.musFollow.musShow
  else if b = P.SOUT then if k = R.SOUT_REQ then forN 8 (fun j c => c.soutCheck j) c.soutUpdate else c
  else if b = P.SURV then c.survShow
  else if b = P.HRV then c.hrvFollow
  else if b = P.STORE then c.storeWritten k o
  else if b = P.VAUX then
    -- RPS_GATE is no longer driven (R580, R613)
    if k = R.VAUX_CFG ∧ ¬ c.is R.VAUX_CFG F.VAUX_CFG_RPS_EN then c.flag R.VAUX_STAT F.VAUX_STAT_RPS_ON false else c
  else if b = P.LAP then if k = R.LAP_CTL then c.lapFollow else c
  else match instOf P.XMD 2 b, instOf P.LANE 8 b, instOf P.QUAD 2 b with
    | some i, _, _ =>
      if 0x110 ≤ x ∧ (x % 0x20 = 0x10 ∨ x % 0x20 = 0x1C) then
        c.xmdWritten (12 * i + (x - 0x110) / 0x20) (decide (x % 0x20 = 0x10) && decide (fget v F.XMD_CH_IN_MODE ≠ fget o F.XMD_CH_IN_MODE))
      else c
    | _, some n, _ =>
      if k = R.LANE_CTL n then c.laneWritten n o
      else if k = R.LANE_TXEQ n then c.txeqFollow n
      else if k = R.LANE_PAT_CFG n then c.patFollow n
      else c
    | _, _, some q => if k = R.QUAD_CTL q then c.quadFollow q o else c
    | _, _, _ => match instOf P.GDI 16 b, instOf P.ETH 2 b with
      | some n, _ => if k = R.GDI_CFG n then c.gdiPol n o else c
      | _, some e =>
        if k = R.ETH_CTL e then c.ethEval e
        else if k = R.ETH_RX_RING e ∧ v ≠ o then c.setF (R.ETH_STAT e) F.ETH_STAT_RX_IDX 0
        else if k = R.ETH_TX_RING e ∧ v ≠ o then c.setF (R.ETH_STAT e) F.ETH_STAT_TX_IDX 0
        else c
      | _, _ => c

/-! ### Responses of a block -/

/-- Whether the page at `b` holds claims or records that the checks of R212 and of the grid units look at. -/
def claimPage (b : Nat) : Bool :=
  [P.AFE, P.SEQ, P.XMD 0, P.XMD 1, P.STR, P.STRW, P.PCR, P.BPT, P.HRD, P.ISL, P.IMP, P.FAB].contains b

/-- Whether the page at `b` belongs to the power stage. -/
def pwmPage (b : Nat) : Bool := decide (P.PWT ≤ b) && decide (b < P.GDI 0)

/-- The blocks of the pages `ps` follow their registers. -/
def Chip.followPages (c : Chip) (ps : List Nat) : Chip :=
  let c : Chip := if ps.any claimPage then c.follow.seqFollow else c
  let c : Chip := if ps.any pwmPage then c.pwmFollow else c
  let c : Chip := forN 16 (fun n c => if ps.contains (P.GDI n) then c.gdiFollow n else c) c
  let c : Chip := if ps.any fun b => decide (b = P.MTR 0) || decide (b = P.MTR 1) || decide (b = P.PQM) then c.mtrFollow else c
  if ps.contains P.SCFG then c.scfgFollow else c

/-- Groups of up to three. -/
def threes {α : Type} : List α → List (List α)
  | a :: b :: d :: r => [a, b, d] :: threes r
  | [] => []
  | l => [l]

/-- A register that has taken a new word: the transaction context (0 for a direct write), its key and the word it held. -/
structure Took where
  n : Nat
  k : Nat
  old : Word
  deriving DecidableEq, Repr

/-- The changes of SCFG registers among `l` are logged, three to an entry of one context (R531, R532), and raise CFG_COMMIT. -/
def Chip.scfgLog (c : Chip) (l : List Took) : Chip :=
  let ch := l.filter fun e => decide (keyPage e.k = P.SCFG) && decide (c.rd e.k ≠ e.old)
  if ch.isEmpty then c
  else
    let c : Chip := (distinct (ch.map Took.n)).foldl (fun c n =>
      (threes (ch.filter fun e => e.n = n)).foldl (fun c g =>
        let d := g.flatMap fun e => bytesLE 2 (e.k % 0x1000) ++ bytesLE 4 e.old.toNat ++ bytesLE 4 (c.rdN e.k)
        c.logIt 0x06 ((d ++ List.replicate 30 0).take 30 ++ bytesLE 1 g.length ++ bytesLE 1 n)) c) c
    c.raise P.SHD 7

/-- The registers `l` have taken new words: every response to them. -/
def Chip.wrote (c : Chip) (l : List Took) : Chip :=
  let c : Chip := l.foldl (fun c e => c.hook e.k e.old) c
  ((c.scfgLog l).followPages (distinct (l.map fun e => keyPage e.k))).lapLevels

end Sys2Proof.Machine
end

