-- ==== Sys2Proof/Machine/PageReset.lean ====
section
/-!
DEFINITION. The page soft reset (R56): what it returns to reset on each page, what it leaves, and what the block does (R86, R98, R121,
R140, R165, R197, R244, R353, R380, R393, R448, R495, R538, R578, R610, R611, R650, R674).
-/
namespace Sys2Proof.Machine
open Sys2Proof

/-- The pages whose soft reset returns only counters, W1C bits and the registers named, as masks of the bits returned (R140, R244,
R538, R578, R610, R650). None for the pages that it returns as wholes. -/
def softOnly (b : Nat) : Option (List (Nat × Nat)) :=
  let all := fun l : List Nat => some (l.map fun k => (k, 0xFFFFFFFF))
  if b = P.RTC then all ([R.RTC_CTL, b + H.EVT, b + H.EVT_EN, b + H.EVT_ROUTE] ++
    (List.range 2).flatMap fun n => [R.RTC_ALARM_LO n, R.RTC_ALARM_HI n, R.RTC_ALARM_PER n])
  else if b = P.STRW then all [R.STRW_SEL]
  else if b = P.BOOT then all [R.BOOT_LIVE, R.BOOT_FL_STAT]
  else if b = P.SHD then some [(b + H.EVT, 0xFFFFFFFF), (R.SHD_LOG_STAT, 0x8000FFFF), (R.SHD_ST_STAT, 0xFFFFFFFF)]
  else if b = P.SIN then all ((b + H.EVT) :: (List.range 2).map R.SIN_DEMANDS)
  else if b = P.SOUT then all [b + H.EVT]
  else if b = P.SCOM then all [b + H.EVT, R.SCOM_ERR_0, R.SCOM_ERR_1]
  else if b = P.TWN 0 then all [R.TWN_CNT_0 0, R.TWN_CNT_1 0]
  else if b = P.TWN 1 then all [R.TWN_CNT_0 1, R.TWN_CNT_1 1]
  else if b = P.DCU then all [R.DCU_CNT, R.DCU_MISM]
  else if b = P.SURV then some [(b + H.EVT, 0xFFFFFFFF), (R.SURV_RES, 0xFFFF), (R.SURV_RXSTAT, 0x80000000)]
  else if b = P.HRV then all [b + H.EVT, R.HRV_E 0, R.HRV_E 1]
  else if b = P.STORE then some [(b + H.EVT, 0xFFFFFFFF), (R.STORE_STAT2, 0xFFFF)]
  else none

/-- The registers that the soft reset of a page returned as a whole leaves: PG_ERR, and those its chapter names. -/
def softKept (k : Nat) : Bool :=
  let b := keyPage k
  decide (k = b + H.ERR) || (decide (Key.slot 0 ≤ k) && decide (k < Key.table 0))
    || (decide (R.AFE_CAL_OFS 0 ≤ k) && decide (k ≤ R.AFE_CAL_GAIN4 11))
    || ((decide (b = P.MTR 0) || decide (b = P.MTR 1)) && mtrKept (k % 0x1000))
    || decide (k = R.PQM_P_STAT 0) || decide (k = R.PQM_P_STAT 1) || decide (Key.pq 0 0 0 ≤ k)
    || [R.CLK_STAT, R.LAP_HEAD, R.LAP_RST_HEAD, R.LAP_ANCHOR, R.LAP_TWA, R.LAP_TWB, R.MUS_SERIAL_LO, R.MUS_SERIAL_HI].contains k

/-- Fields that the soft reset leaves, or that show the device state, a pin, a strap, OTP or the regulator as it stands. -/
def softFields (c : Chip) (b : Nat) : List (Nat × Nat) :=
  let l : List (Nat × Nat) :=
    if b = P.EVR then if c.scfgLock = 1 then (List.range 256).map fun s => (R.EVR_SRC s, 0x8000) else []
    else if b = P.HTM then [(R.HTM_STAT, 0xA0000000)]
    else if b = P.SYS then [(R.SYS_STATE, 0xF)]
    else if b = P.ETH 0 then [(R.ETH_STAT 0, 0xF0000000)]
    else if b = P.ETH 1 then [(R.ETH_STAT 1, 0xF0000000)]
    else devFields.filter fun e => pageBase e.1 = b
  l

/-- The registers `l` (with the mask of the bits meant) return to reset; a change of a covered field makes PG_CRC stale (R60). -/
def Chip.softRegs (c : Chip) (l : List (Nat × Nat)) : Chip :=
  l.foldl (fun c e => c.wr e.1 ((c.rd e.1 &&& ~~~ wd e.2) ||| (regReset e.1 &&& wd e.2))) c

/-- The registers listed for the page at `b`, those of its header but PG_ERR among them, that its soft reset returns. -/
def Chip.softList (c : Chip) (b : Nat) : List (Nat × Nat) :=
  match softOnly b with
  | some l => (b + H.CTL, 0xFFFFFFFF) :: l
  | none =>
    let keep := softFields c b
    (c.regs.filter fun e => decide (keyPage e.1 = b) && !softKept e.1).map fun e =>
      (e.1, match keep.find? fun x => x.1 = e.1 with | some x => 0xFFFFFFFF - x.2 | none => 0xFFFFFFFF)

/-- Whether delivery `d` is a pulse occurrence on its way to a twin, which a soft reset of EVR discards with the pending ones (R98). -/
def Chip.pulseToTwin (c : Chip) (d : Nat × EvDest) : Bool :=
  (match d.2 with | .twinA | .twinB => true | _ => false)
    && (match sourceEv d.1 with | some e => c.bit (e.1 + H.EVT_ROUTE) e.2 | none => true)

/-- What the block of the page at `b` holds beside its registers returns with them, before they do. -/
def Chip.softBlock (c : Chip) (b : Nat) : Chip :=
  if b = P.TXN then { c with bus := { BusSt.init with
    pendA := c.bus.pendA, pendB := c.bus.pendB, deliveries := c.bus.deliveries, hiLatch := c.bus.hiLatch, evrCut := c.bus.evrCut } }
  else if b = P.EVR then { c with bus := { c.bus with
    pendA := [], pendB := [], deliveries := c.bus.deliveries.filter fun d => !c.pulseToTwin d, evrCut := List.range 256 } }
  else if b = P.HTM then c.updTime fun t => { t with adjRem := 0, stepPend := false, delays := [] }
  else if b = P.HPT then c.updBoot fun x => { x with copy := none }
  else if b = P.BOOT then c.updBoot fun x => { x with live := none, ready := none, backs := [], flash := none }
  else if b = P.SEC then c.updBoot fun x => { x with sec := none }
  else if b = P.AFE then c.updMeas fun m => { m with rot := none, cal := m.cal.map fun _ => [] }
  else if b = P.ACMP then c.acmpUntest
  else if b = P.PCR then c.updStr fun s => { s with pcr := List.replicate 16 {}, pcrCmds := [] }
  else if b = P.XMD 0 ∨ b = P.XMD 1 then
    forN 12 (fun j c =>
      let ch := 12 * ((b - P.XMD 0) / (P.XMD 1 - P.XMD 0)) + j
      (c.updXmd ch fun _ => {}).xmdDemand ch) c
  else if b = P.LAP then { c with lap := {} }
  else if b = P.SES then forN 256 (fun n c => c.sesEnd n 0) c
  else match instOf P.LANE 8 b, instOf P.QUAD 2 b, instOf P.ETH 2 b with
    | some n, _, _ => (c.laneStop n).updLane n fun _ => {}
    | _, some q, _ => (lanesOf q).foldl Chip.laneStop c
    | _, _, some e => { c with ethBusy := upd c.ethBusy e fun _ => false }
    | _, _, _ => c

/-- What the block of the page at `b` does once its registers `l` (key and word held before) are at reset. -/
def Chip.softAfter (c : Chip) (b : Nat) (l : List (Nat × Word)) : Chip :=
  if b = P.HTM then c.showSrc
  else if b = P.EVR then c
  else if b = P.PWT then c.pwtReset
  else if b = P.TRIP then c.tripReset
  else if b = P.FAB then
    ((c.updFab fun f => { f with stopped := true, fwdOff := [false, false], subCyc := [] }).follow).musFollow
  else if b = P.MUS then c.musRestart
  else if b = P.LAP then c.setLap Ls.off
  else if b = P.PQM then c.mtrFollow
  else match instOf P.PWMC 16 b, instOf P.GDI 16 b, instOf P.MTR 2 b with
    | some k, _, _ => c.pwmcReset k
    | _, some n, _ => c.gdiReset n (match l.find? fun e => e.1 = R.GDI_CFG n with | some e => e.2 | none => regReset (R.GDI_CFG n))
    | _, _, some p => (c.updPort p fun m => { ({} : MtrPort) with res := m.res }).mtrFollow
    | _, _, _ => (l.foldl (fun c e => c.hook e.1 e.2) c).followPages [b]

/-- The contexts with entries in the page at `b` are doomed with cause PAGE_RESET (R76), by the write to its PG_CTL. -/
def Chip.softDoom (c : Chip) (b : Nat) : Chip := (c.pageCtxs b).foldl (fun c n => c.doom n 4 (b + H.CTL)) c

/-- The page at `b`, not SCFG, returns to reset. -/
def Chip.softReset (c : Chip) (b : Nat) : Chip :=
  let (r, t) := c.refNow
  let c : Chip := c.softBlock b
  let l := c.softList b
  let old := l.map fun e => (e.1, c.rd e.1)
  let c : Chip := (c.softRegs l).softAfter b old
  let c : Chip := if b = P.VCR then c.setRef r t else c
  c.lapLevels

/-- The page SCFG returns to reset (R538): logged as CFG_RESET with PG_CRC of its content before and after. -/
def Chip.scfgReset (c : Chip) : Chip :=
  let was := pageCrc c.rd P.SCFG
  let c : Chip := c.softRegs (c.softList P.SCFG)
  let c : Chip := c.logIt 0x0D (bytesLE 4 was.toNat ++ bytesLE 4 (pageCrc c.rd P.SCFG).toNat)
  (c.raise P.SHD 7).scfgFollow

/-- A page soft reset of the page at `b` (R56). A word of OTP being programmed is completed first (R650). -/
def State.softReset (s : State) (b : Nat) : State :=
  if b = P.SCFG then s.onChip fun c => (c.softDoom b).scfgReset
  else
    let s : State := if b = P.OTP then match s.chip.boot.otp with | some w => s.otpDone w.2.1 | none => s else s
    s.onChip fun c => (if b = P.TXN then c else c.softDoom b).softReset b

end Sys2Proof.Machine
end

