-- ==== Sys2Proof/Machine/Checks.lean ====
section
/-!
DEFINITION. What a write to a register must meet: the access codes that make the new word (R6), the values refused whatever the state, and
the refusals that depend on what the device holds when the word takes effect.
-/
namespace Sys2Proof.Machine
open Sys2Proof

/-! ### Table entries and access codes -/

/-- The register offset whose table entry describes key `k`: banked and windowed registers share one entry. -/
def keyOff (k : Nat) : Nat :=
  if k < 0x240000 then k
  else if k < 0x2000000 then P.TXN + k % 0x1000
  else if k < 0x2100000 then R.STR_SLOT ((k - Key.slot 0) % 512)
  else if k < 0x2200000 then P.STRW + 0x400 + 4 * ((k - Key.table 0) % 256)
  else if k < 0x2400000 then P.STRW + 0x800 + 0x80 * ((k - Key.sec 0 0) / 0x80 % 16) + k % 0x80
  else if k < 0x2500000 then P.FAB + k % 0x1000
  else if k < 0x2800000 then P.SES + k % 0x1000
  else P.PQM + 0x800 + k % 0x20

/-- The table entry of key `k`. -/
def keyEntry (k : Nat) : Option RegEntry := regEntry (keyOff k)

/-- The word that a register holding `old` takes when `v` is written to it: RW and RWT bits as written, a W1C bit cleared by 1, every
other bit unchanged (R6). -/
def newWord (e : RegEntry) (old v : Word) : Word :=
  let put := wd (e.rw ||| e.rwt)
  let clr := wd e.w1c
  (old &&& ~~~ (put ||| clr)) ||| (v &&& put) ||| (old &&& clr &&& ~~~ v)

/-- The word with which the register at key `k` follows a write of `v`: a field written only holds what was written, so that a
session's keys and salt are kept. -/
def Chip.nextWord (c : Chip) (k : Nat) (v : Word) : Word :=
  match keyEntry k with
  | some e => if e.wo = 0xFFFFFFFF then v else newWord e (c.rd k) v
  | none => c.rd k

/-! ### Values refused whatever the state -/

/-- `lo ≤ n ≤ hi`. -/
def within (lo hi n : Nat) : Bool := decide (lo ≤ n) && decide (n ≤ hi)

/-- Whether SCFG register `k` may hold `v` (R525 and the ranges of R535 to R537). -/
def scfgOk (k : Nat) (v : Word) : Bool :=
  let x := k % 0x1000
  if k = R.SCFG_GEN then within 1 4320 (fget v F.SCFG_GEN_GRACE_MIN)
  else if x < 0x120 then true
  else if x < 0x140 then
    decide (fget v F.SCFG_SIN_ACT ≠ 3) && within 1 1000 (fget v F.SCFG_SIN_DISC_MS) && within 0 1000 (fget v F.SCFG_SIN_DLY)
  else if x < 0x180 then
    if x % 8 = 0 then
      within 0 18 (fget v F.SCFG_SO_CFG_W) && decide (1 ≤ fget v F.SCFG_SO_CFG_TSET) && decide (1 ≤ fget v F.SCFG_SO_CFG_TRIP_MS)
    else within 10 60000 (fget v F.SCFG_SO_MAP_PERIOD_MS)
  else if x % 8 = 4 then within 1 1000 (fget v F.SCFG_TX_B_PERIOD_MS)
  else true

/-- Whether the register at key `k` may hold `v`, whatever the state (R422, R440, R484, R490, R525). -/
def valueOk (k : Nat) (v : Word) : Bool :=
  let b := keyPage k
  let ring := decide (fget v F.SES_RXQ_A_COUNT ≠ 1)
  if b = P.SCFG then scfgOk k v
  else if b = P.FAB then
    !(decide (R.FAB_TX_A 0 ≤ k) && decide (k ≤ R.FAB_TX_A 63) && decide (k % 8 = 0)
      && (decide (fget v F.FAB_TX_A_PLANES = 0) || decide (fget v F.FAB_TX_A_CAST = 3)))
  else if b = P.SES then !(decide (R.SES_RXQ_A ≤ k) && decide (k ≤ R.SES_RSPQ_B)) || ring
  else match instOf P.LANE 8 b, instOf P.ETH 2 b with
    | some n, _ => !decide (k = R.LANE_TXEQ n) || decide (fget v F.LANE_TXEQ_PRE + fget v F.LANE_TXEQ_POST ≤ 36)
    | _, some e => !(decide (k = R.ETH_RX_RING e) || decide (k = R.ETH_TX_RING e)) || ring
    | _, _ => true

/-! ### Refusals that depend on the state -/

/-- Whether words `o` and `v` differ in a bit of the mask. -/
def differ (o v : Word) (m : Nat) : Bool := decide ((o ^^^ v) &&& wd m ≠ 0#32)

/-- The SHD fields that lock with SCFG (R68, R179, R369): the mask of the field in register `k`. -/
def shdField (k : Nat) : Nat :=
  let b := pageBase k
  let x := k % 0x1000
  if x < 0x100 then 0
  else if b = P.EVR then if x < 0x500 then 0x8000 else 0
  else if b = P.ACMP then if x < 0x200 ∧ x % 0x10 = 0 then 0x80000000 else 0
  else if b = P.XMD 0 ∨ b = P.XMD 1 then if 0x110 ≤ x ∧ x % 0x20 = 0x1C then 0x80000000 else 0
  else if P.GDI 0 ≤ b ∧ b ≤ P.GDI 15 then if x = 0x100 then 0xC0000 else 0
  else 0

/-- Refused because a unit of the Stride engine, the Pacer or the grid chapters is enabled (R223, R233, R242, R258, R267): the
mask of the bits of `k` that may not change. -/
def Chip.heldBits (c : Chip) (k : Nat) : Nat :=
  let b := keyPage k
  let x := k % 0x1000
  if b = P.STRW then
    if Key.sec 0 0 ≤ k ∧ k % 0x80 = 0 ∧ fget (c.rd k) F.STRW_SEC_CFG_EN = 1 then 0x70000000 else 0
  else if b = P.PCR then
    if 0x200 ≤ x ∧ x % 0x40 = 0 ∧ c.bit R.PCR_CTL ((x - 0x200) / 0x40) then 0x70003F00 else 0
  else if b = P.BPT then
    if 0x200 ≤ x ∧ x < 0x300 ∧ c.bit R.BPT_CTL ((x - 0x200) / 0x40) then
      if x % 0x40 = 0 then 0xF83F007F else if x % 0x40 = 4 ∨ x % 0x40 = 8 then 0x3FF03FF else 0
    else 0
  else if b = P.HRD then
    if c.is R.HRD_CTL F.HRD_CTL_EN then
      if x = 0x100 then 0x7000FFFF else if 0x10C ≤ x ∧ x ≤ 0x118 then 0x3FF03FF else 0
    else 0
  else if b = P.ISL then
    if c.is R.ISL_CTL F.ISL_CTL_EN then
      if x = 0x100 then 0x7FF003FF else if 0x10C ≤ x ∧ x ≤ 0x114 then 0x3FF03FF else 0
    else 0
  else if b = P.IMP then
    if c.is R.IMP_CTL F.IMP_CTL_EN then
      if x = 0x100 then 0x70FFF3FF else if x = 0x110 ∨ x = 0x114 then 0x3FF03FF else 0
    else 0
  else match instOf P.GDI 16 b, instOf P.PWMC 16 b, instOf P.LANE 8 b, instOf P.ETH 2 b with
    | some n, _, _, _ => if k = R.GDI_CFG n ∧ c.is k F.GDI_CFG_EN then 0x7FFFFFFF else 0
    | _, some n, _, _ => if k = R.PWMC_CFG n ∧ c.is k F.PWMC_CFG_EN then 0x7FFFFFFF else 0
    | _, _, some n, _ => if k = R.LANE_CTL n ∧ c.is k F.LANE_CTL_EN then 0x7FFF0000 else 0
    | _, _, _, some e =>
      if (k = R.ETH_RX_RING e ∨ k = R.ETH_TX_RING e) ∧ c.is (R.ETH_CTL e) F.ETH_CTL_EN then 0x7FFFF else 0
    | _, _, _, _ => 0

/-- Whether the words that `c` would hold, register `k` holding a new word among them, are refused together (R115, R148, R149, R170,
R173, R233, R436, R592, R595); `c0` is the chip before. A group in a reserved mode is not enabled (R215; log entry 134, DESIGN CHOICE). -/
def Chip.clash (c0 c : Chip) (k : Nat) : Bool :=
  let b := keyPage k
  let x := k % 0x1000
  if b = P.AFE then
    if k = R.AFE_CTL then differ (c0.rd k) (c.rd k) 1 && !c0.lpOk
    else if 0x110 ≤ x ∧ x < 0x138 then !c0.lchOk ((x - 0x110) / 4) (c.rd k)
    else false
  else if b = P.CLK then
    let n := (x - 0x180) / 0x10
    decide (0x180 ≤ x) && !clkOutOk (c.rd (R.CLK_OUT_CFG n)) (c.rd (R.CLK_OUT_DIV n)) (c.rd (R.CLK_OUT_SSC n))
  else if b = P.VCR then
    (decide (k = R.VCR_PH_CFG) || decide (k = R.VCR_THR)) && !phCfgOk (c.rd R.VCR_PH_CFG) (c.rd R.VCR_THR)
  else if b = P.STORE then decide (0x100 ≤ x) && decide (x ≤ 0x10C) && !thrOk c.storeThr
  else if b = P.STR then
    let on := c.rd k &&& ~~~ c0.rd k &&& 0xFF#32
    decide (k = R.STR_CTL) && decide (on ≠ 0) && (c0.is R.STR_STAT F.STR_STAT_OVER_BUDGET
      || (List.range 8).any fun g => nbit on.toNat g && decide (4 ≤ c.f (R.STR_RG_CFG g) F.STR_RG_CFG_MODE))
  else match instOf P.XMD 2 b, instOf P.LANE 8 b with
    | some i, _ =>
      let ok := fun i j => xmdOk (c.rd (R.XMD_CLK_CFG 0)) (c.rd (R.XMD_CH_IN i j)) (c.rd (R.XMD_CH_CF i j))
      if k = R.XMD_CLK_CFG 0 then !(List.range 24).all fun ch => ok (ch / 12) (ch % 12)
      else if 0x110 ≤ x ∧ (x % 0x20 = 0x10 ∨ x % 0x20 = 0x14) then !ok i ((x - 0x110) / 0x20)
      else false
    | _, some n => decide (k = R.LANE_CTL n) && c.ethRefused n (c.rd k)
    | _, _ => false

/-- Why initiator `i`'s word for the register at key `k` does not take effect, if so: `c0` is the chip before, `c` the chip with every
word of the same write or commit in place. -/
def Chip.deny (c0 c : Chip) (i k : Nat) : Option PErr :=
  let o := c0.rd k
  let v := c.rd k
  if (k = R.TWN_PRIV_S 0 ∨ k = R.TWN_PRIV_S 1 ∨ k = R.TWN_PRIV_D 0 ∨ k = R.TWN_PRIV_D 1) ∧ i ≠ 6 then some .security
  else if k = R.HPT_CTL ∧ i ≠ 1 ∧ i ≠ 2 ∧ i ≠ 6 then some .security
  else if c0.scfgLock = 1 ∧ differ o v (shdField k) = true then some .locked
  else if differ o v (c0.heldBits k) || c0.clash c k then some .state
  else none

end Sys2Proof.Machine
end

