-- ==== Sys2Proof/Machine/Write.lean ====
section
/-!
DEFINITION. Writing the register space: staging in a transaction (R70 to R76), words taking effect at once or at a commit edge (R71, R77),
the header registers (R55 to R57), the command registers, and the one operation through which every write to a register passes.
-/
namespace Sys2Proof.Machine
open Sys2Proof

/-! ### Words that take effect -/

/-- Register `k` takes the word `v`, written by initiator `i`: by the operation of its own where it has one (R143, R199, R222, R328, R586),
HTM.CTL.SLEW_MAX within 1 to 500 (R143). -/
def Chip.setWord (c : Chip) (i k : Nat) (v : Word) : Chip :=
  if Key.slot 0 ≤ k ∧ k < Key.table 0 then c.slotWindow (k - Key.slot 0) v i
  else if Key.sec 0 0 ≤ k ∧ k < Key.sec2 0 0 ∧ (k % 0x80 = 0x60 ∨ k % 0x80 = 0x64 ∨ k % 0x80 = 0x68) then
    c.writeState ((k - Key.sec 0 0) / 0x80) (k % 0x80) v
  else if k = R.VCR_CTL then c.vcrCtl v i
  else if k = R.HTM_RATE then c.setRate v.toInt
  else if k = R.HTM_CTL then c.wr k (fset v F.HTM_CTL_SLEW_MAX (max 1 (min 500 (fget v F.HTM_CTL_SLEW_MAX))))
  else match instOf P.PWMC 16 (pageBase k) with
    | some n =>
      if k = R.PWMC_PERIOD n then c.shadowWrite n 0 v
      else if k = R.PWMC_CMP_A n then c.shadowWrite n 1 v
      else if k = R.PWMC_CMP_B n then c.shadowWrite n 2 v
      else c.wr k v
    | none => c.wr k v

/-- A word about to take effect: the context that staged it (0 none), the initiator, the register's key and the word. -/
structure Put where
  n : Nat
  i : Nat
  k : Nat
  v : Word
  deriving DecidableEq, Repr

/-- The words `ws` take effect together (R77); each that may not is refused and recorded. The Sheepdog is never refused (R49). -/
def Chip.takeWords (c : Chip) (ws : List Put) : Chip :=
  let all : Chip := ws.foldl (fun d e => d.wr e.k e.v) c
  let why := fun (e : Put) => if e.i = 7 then none else c.deny all e.i e.k
  let ok := ws.filter fun e => (why e).isNone
  let old := ok.map fun e => (⟨e.n, e.k, c.rd e.k⟩ : Took)
  let c : Chip := ws.foldl (fun c e => match why e with | some x => c.perr (keyOff e.k) x e.i | none => c) c
  (ok.foldl (fun c e => c.setWord e.i e.k e.v) c).wrote old

/-- A direct write of `v` to key `k` by initiator `i` (R71). -/
def Chip.direct (c : Chip) (i k : Nat) (v : Word) : Chip := c.takeWords [⟨0, i, k, c.nextWord k v⟩]

/-! ### Staging (R70 to R76) -/


/-- The open context that stages the RWT writes of `w`: that of its bank, of the fabric bank only for the session that opened it
(R70, R72). -/
def Chip.stager (c : Chip) (w : Writer) : Option Nat :=
  let i := w.ini.code
  if 1 ≤ i ∧ i ≤ 5 then
    match c.bankCtx i with
    | some n => if i = 4 ∧ (c.ctx n).ses ≠ w.ses.val then none else some n
    | none => none
  else none


/-- A staging write of `v` to key `k` in context `n` by initiator `i` (R70, R74, R76, R81). -/
def Chip.stage (c : Chip) (n i k : Nat) (v : Word) : Chip :=
  let x := c.ctx n
  match x.st with
  | .doomed => c
  | .opened =>
    match c.holder k with
    | some m =>
      if m = n then c.updCtx n fun x => { x with entries := SMap.insert (SMap.erase x.entries k) k v }
      else c.doom n 1 (keyOff k)
    | none =>
      if 1024 ≤ x.entries.length then c.doom n 3 (keyOff k)
      else if 4096 ≤ c.poolUsed then c.doom n 2 (keyOff k)
      else c.addEntry n k v
  | _ => c.perr (keyOff k) .txnArmed i

/-- An RWT write (R70, R71, R75). -/
def Chip.rwtWrite (c : Chip) (w : Writer) (k : Nat) (v : Word) : Chip :=
  match c.stager w with
  | some n => c.stage n w.ini.code k v
  | none => if (c.holder k).isSome then c.perr (keyOff k) .txnOwned w.ini.code else c.direct w.ini.code k v

/-- A write to a locked page (R58): recorded, and a staging write into an open transaction dooms it (R76). A write that would be staged by
an armed transaction is recorded with LOCKED alone: R81 and R58 both name it (log entry 120, DESIGN CHOICE). -/
def Chip.lockedWrite (c : Chip) (w : Writer) (k : Nat) : Chip :=
  let c : Chip := c.perr k .locked w.ini.code
  match c.stager w, regEntry k with
  | some n, some e =>
    if (c.ctx n).st = .opened ∧ 0x100 ≤ k % 0x1000 ∧ e.rwt ≠ 0 then c.doom n 5 k else c
  | _, _ => c

/-! ### The commit edge (R77 to R79) -/

/-- Whether this CK_PER edge is the one at which herd time, as it advances from edge to edge, is nearest to `t` ns; of two equally near
edges the earlier (R678). -/
def Chip.nearestEdge (c : Chip) (t : Nat) : Bool :=
  let d := 2 * ((t : Int) * 2 ^ 48 - c.time.ht)
  decide (-c.htAdvance < d) && decide (d ≤ c.htAdvance)

/-- Whether context `n` commits at this edge: armed, in mode AT_EVENT after its event, in mode AT_HT at the edge nearest to T (R678). -/
def Chip.commits (c : Chip) (n : Nat) : Bool :=
  let x := c.ctx n
  decide (x.st = .armed) && match x.mode with
    | .now => true
    | .atEvent => x.edgeFixed
    | .atHt => c.nearestEdge x.t

/-- Context `n` has committed with result `r`: it ends, but a bank's coordinator goes on COORDINATING without entries, so that it can
resolve members in doubt, until ROLLBACK, H_ABORT or TXN.ABORT ends it (log entry 61, DEDUCED). -/
def Chip.ctxCommitted (c : Chip) (n r : Nat) : Chip :=
  let x := c.ctx n
  if x.kind = .coord ∧ x.ini ≠ 0 then
    (((c.updCtx n fun x => { x with st := .coordinating, result := r, sent := true, edgeFixed := false }).setRes x.ini r).wrN
      R.TXN_HLAST_TAG x.tag).wrN R.TXN_HLAST_RES r
  else c.ctxEnd n r

/-- The contexts `l` commit at one edge: their words take effect together, ownership ends, COMMIT is raised (R77, R95, R96); the muster
engine's own context has switched a bank (R469). -/
def Chip.commitAll (c : Chip) (l : List Nat) : Chip :=
  let ws := l.flatMap fun n => (c.ctx n).entries.map fun e => (⟨n, (c.ctx n).ini, e.1, c.nextWord e.1 e.2⟩ : Put)
  let own := l.any fun n => decide ((c.ctx n).ini = 0)
  let late := l.filter fun n => (c.ctx n).late
  let c : Chip := l.foldl (fun c n => c.updCtx n fun x => { x with entries := [] }) c
  let c : Chip := c.takeWords ws
  let c : Chip := l.foldl (fun c n =>
    (c.ctxCommitted n (if late.contains n then Res.committedLate else Res.committed)).raise P.TXN 0) c
  if own then c.nextSwitch else c

/-- COMMIT_EDGE (R77): the CK_PER edge that is the commit edge of the armed contexts in `m`. -/
def doCommitEdge (m : BitVec 16) (c : Chip) : Chip :=
  c.clocked P.TXN fun c =>
    c.commitAll (((List.range 15).map (· + 1)).filter fun n => nbit m.toNat n && c.commits n)

/-! ### The header registers (R54 to R57) -/

/-- PG_CTL.SNAP: the snapshot copies of the page at `b` take what they copy (R54, R122, R302, R354, R410). -/
def Chip.snap (c : Chip) (b : Nat) : Chip :=
  let copy := fun (c : Chip) (l : List (Nat × Nat)) => l.foldl (fun d e => d.wr e.2 (c.rd e.1)) c
  if b = P.HTM then (c.wr64 (R.HTM_SNAP_NS 0) c.htNs).wrN R.HTM_SNAP_FRAC (c.time.ht / 2 ^ 32 % 2 ^ 16)
  else if b = P.PWT then
    copy c ((List.range 4).flatMap fun n => [(R.PWT_TB_CNT n, R.PWT_TB_SCNT n), (R.PWT_TB_PCOUNT n, R.PWT_TB_SPCOUNT n)])
  else if b = P.IMP then
    copy (c.wrN R.IMP_SWINDOWS (c.f R.IMP_STAT F.IMP_STAT_WINDOWS)) ((List.range 16).flatMap fun k =>
      [(R.IMP_Z_RE k, R.IMP_SZ_RE k), (R.IMP_Z_IM k, R.IMP_SZ_IM k), (R.IMP_I_MAG k, R.IMP_SI_MAG k)])
  else match instOf P.MTR 2 b with
    | some p =>
      copy c (((List.range 16).map fun j => (R.MTR_E p 0 + 4 * j, R.MTR_SE p 0 + 4 * j)) ++
        (List.range 8).map fun j => (R.MTR_INT p 0 + 4 * j, R.MTR_SINT p 0 + 4 * j))
    | none => c

/-- Whether FREEZE may halt the page at `b` (R57). -/
def Chip.mayFreeze (c : Chip) (b : Nat) : Bool :=
  !safetyPage b && (match c.mode with | .ready | .safe | .replay => true | _ => false)

/-- A write of `v` to PG_CTL of the page of kind `p` at `b` (R55 to R57); the Sheepdog's is never refused (R49). -/
def State.ctlWrite (s : State) (p : PageKind) (i b : Nat) (v : Word) : State :=
  if nbit v.toNat 1 then s.softReset b
  else if nbit v.toNat 2 && !s.chip.mayFreeze b && decide (i ≠ 7) then s.onChip fun c => c.refuse (b + H.CTL) i
  else s.onChip fun c =>
    let c : Chip := c.wr (b + H.CTL) (v &&& 5#32)
    if nbit v.toNat 3 && p.snap then c.snap b else c

/-- PG_EVT_SET: an occurrence of each event whose bit is 1 (R55). -/
def Chip.eventSet (c : Chip) (b : Nat) (v : Nat) : Chip := forN 32 (fun j c => if nbit v j then c.raise b j else c) c

/-- A write to the header register at offset `x` of the page of kind `p` at `b` (R55). -/
def State.headerWrite (s : State) (p : PageKind) (i b x : Nat) (v : Word) : State :=
  match x with
  | 0x08 => s.ctlWrite p i b v
  | 0x10 => s.onChip fun c => c.wr (b + x) (c.rd (b + x) &&& ~~~ v)
  | 0x14 | 0x1C => s.onChip fun c => c.wr (b + x) v
  | 0x18 => s.onChip fun c => c.eventSet b v.toNat
  | 0x2C => s.onChip fun c => c.wr (b + x) (c.rd (b + x) &&& ~~~ (v &&& 0x1FF#32))
  | 0x00 | 0x04 | 0x0C | 0x20 | 0x24 | 0x28 => s.onChip fun c => c.perr (b + x) .roWrite i
  | _ => s

/-! ### The command registers -/

/-- EVR.ACK: a pending pulse of source `n` is retired for a twin (R62). -/
def Chip.ack (c : Chip) (twin : Bool) (n : Nat) : Chip := c.setPend twin ((c.pend twin).filter (· ≠ n))

/-- TXN.CMD with operation `op` and mode `m` (R95). -/
def Chip.txnCmd (c : Chip) (w : Writer) (key : BitVec 16) (op m : Nat) : Chip :=
  match op with
  | 1 => doTxnBegin w key c
  | 2 => doTxnBeginHerd w key c
  | 3 => doTxnBeginCoord w key c
  | 4 => doTxnCommit w key (BitVec.ofNat 2 m) c
  | 5 => doTxnRollback w key c
  | 6 => doTxnHPrepare w key c
  | 7 => doTxnHCommit w key c
  | 8 => doTxnHAbort w key c
  | 9 => doTxnHResolve w key c
  | _ => c.txnVia w key fun i c => c.setRes i Res.state

/-- SYS.STATE_REQ with request `r` (R21, R40): a code that is none is refused. A write of this form falls in a cycle of its own
(log entry 126). -/
def Chip.stateCmd (c : Chip) (w : Writer) (key : BitVec 16) (r : Nat) : Chip :=
  match r with
  | 1 => doStateReqRun w key false c
  | 2 => doStateReqStop w key false c
  | 3 => doStateReqRecover w key false c
  | 4 => doStateReqEnterReplay w key false c
  | 5 => doStateReqSafe w key c
  | _ => c.stateReq w key false fun c => c.reqResult 2

/-- A write of `v` to SYS.RST_CTL (R41, R639): DEVICE, or a restart of each twin named. -/
def State.rstCmd (s : State) (w : Writer) (key : BitVec 16) (v : Word) : State :=
  if fget v F.SYS_RST_CTL_DEVICE = 1 then mdDeviceReset w key s
  else if v.toNat % 4 = 0 then s.onChip fun c => c.cmd R.SYS_RST_CTL w key id
  else s.onChip fun c =>
    let c : Chip := if fget v F.SYS_RST_CTL_TWIN_A = 1 then doTwinRestart w key false c else c
    if fget v F.SYS_RST_CTL_TWIN_B = 1 then doTwinRestart w key true c else c

/-- SHD.CMD with operation `op` (R505, R527, R528, R539). -/
def State.shdCmd (s : State) (w : Writer) (key : BitVec 16) (op : Nat) : State :=
  match op with
  | 1 => s.onChip (doSgrApply w key)
  | 2 => s.onChip (doSgrRemove w key)
  | 3 => s.onChip (doNewChallenge w key)
  | 4 => mdCredVerify w key s
  | 5 => s.onChip (doEndCred w key)
  | _ => s.onChip fun c => c.cmd R.SHD_CMD w key fun c => c.refuse R.SHD_CMD w.ini.code

/-- MTR.CMD of port `p` with operation `op` (R410). -/
def State.mtrCmd (s : State) (w : Writer) (key : BitVec 16) (p op : Nat) : State :=
  match op, p with
  | 1, 0 => mdMtrClear w key 0 s
  | 1, _ => mdMtrClear w key 1 s
  | 2, 0 => mdMtrSaveNow w key s
  | 3, 0 => s.onChip (doMtrCoClear w key)
  | _, _ => s.onChip fun c => c.cmd (R.MTR_CMD p) w key fun c => c.refuse (R.MTR_CMD p) w.ini.code

/-- BOOT.CMD with operation `op` (R627 to R629). -/
def Chip.bootCmd (c : Chip) (op i : Nat) : Chip :=
  match op with
  | 1 => c.bootAlive i
  | 2 => c.bootConfirm i
  | 3 => c.hostGo i
  | _ => c.refuse R.BOOT_CMD i

/-- LAP.CMD with operation `op` (R577); the newest record of an import is not in the command (log entry 2, DESIGN CHOICE). -/
def State.lapOp (s : State) (op i : Nat) : State :=
  match op with
  | 5 =>
    let (h, c) := s.chip.freeN (2 ^ 25)
    ({ s with chip := c }).lapCmd 5 i h
  | 6 => s.replayStart i
  | 7 => s.onChip fun c => c.replayCont i
  | n => s.lapCmd n i 0

/-- AFE.CMD (R164, R166). -/
def Chip.afeCmd (c : Chip) (v : Word) (i : Nat) : Chip :=
  let c : Chip := if fget v F.AFE_CMD_CAL_0 = 1 then c.afeCal 0 i else c
  let c : Chip := if fget v F.AFE_CMD_CAL_1 = 1 then c.afeCal 1 i else c
  if fget v F.AFE_CMD_ROTATE = 1 then c.afeRotate (fget v F.AFE_CMD_LCH) (fget v F.AFE_CMD_SPARE) i else c

/-- RTC.CMD (R134, R136). -/
def Chip.rtcCmd (c : Chip) (w : Writer) (key : BitVec 16) (v : Word) : Chip :=
  let c : Chip := if fget v F.RTC_CMD_SET = 1 then doRtcSet w key c else c
  if fget v F.RTC_CMD_CAL_RC = 1 then doRtcCalRc w key c
  else if v.toNat % 2 = 0 then c.cmd R.RTC_CMD w key id else c

/-- A write of `v` to the command register at `k` of a page without instances. -/
def State.command (s : State) (w : Writer) (k : Nat) (v : Word) : State :=
  let key := BitVec.ofNat 16 (v.toNat / 65536)
  let i := w.ini.code
  let op := v.toNat % 16
  let go := fun (g : Chip → Chip) => s.onChip fun c => c.cmd k w key g
  if k = R.SYS_RST_CTL then s.rstCmd w key v
  else if k = R.SYS_STATE_REQ then s.onChip fun c => c.stateCmd w key op
  else if k = R.TXN_CMD then s.onChip fun c => c.txnCmd w key op (fget v F.TXN_CMD_MODE)
  else if k = R.TXN_ABORT then go fun c => c.ctxEnd op Res.aborted
  else if k = R.EVR_ACK 0 ∨ k = R.EVR_ACK 1 then s.onChip fun c => c.ack (decide (k = R.EVR_ACK 1)) (v.toNat % 256)
  else if k = R.CLK_HOP_CMD then s.onChip (doHopCmd w key (Fin.ofNat 8 v.toNat))
  else if k = R.HTM_ADJ then s.onChip (doHtmAdj w v)
  else if k = R.HTM_STEP_CMD then s.onChip (doHtmStep w key (decide (v.toNat % 2 = 1)))
  else if k = R.RTC_CMD then s.onChip fun c => c.rtcCmd w key v
  else if k = R.HPT_MEM_CMD then go fun c => c.memCmd op (fget v F.HPT_MEM_CMD_COUNT) i
  else if k = R.BOOT_CMD then go fun c => c.bootCmd op i
  else if k = R.BOOT_FL_CTL then
    go fun c => c.flashCmd (fget v F.BOOT_FL_CTL_OPCODE) (nbit v.toNat 7) (nbit v.toNat 6) (nbit v.toNat 5) i
  else if k = R.SEC_CMD then s.secVia w key op (fget v F.SEC_CMD_ARG)
  else if k = R.OTP_CMD then mdOtpGo w key (nbit v.toNat 15) (BitVec.ofNat 9 v.toNat) s
  else if k = R.AFE_CMD then go fun c => c.afeCmd v i
  else if k = R.ACMP_CMD then go fun c => c.acmpSelftest (v.toNat % 65536) i
  else if k = R.STR_SWTRIG then s.onChip (doStrSwtrig w (BitVec.ofNat 8 v.toNat))
  else if k = R.STR_CMD then go fun c => if v.toNat % 2 = 1 then c.strClrStats else c
  else if k = R.PCR_CMD then go fun c => c.pcrWrite (fget v F.PCR_CMD_CH) op i
  else if k = R.BPT_CMD then go fun c => c.bptCmd (fget v F.BPT_CMD_CH) op i
  else if k = R.HRD_CMD then go fun c => c.hrdCmd op i
  else if k = R.ISL_CMD then go fun c => c.islCmd op i
  else if k = R.IMP_CMD then go fun c => c.impCmd op i
  else if k = R.TRIP_CMD then go fun c => c.tripClear (v.toNat % 65536) i
  else if k = R.MASK_CMD then go fun c => c.maskCmd v
  else if k = R.FAB_BANK_CMD then go fun c => if v.toNat % 2 = 1 then c.bankClear i else c
  else if k = R.SES_CMD then go fun c => c.sesCmd (fget v F.SES_CMD_SES) op i
  else if k = R.SES_KICK 0 ∨ k = R.SES_KICK 1 then mdSesKick w (decide (k = R.SES_KICK 1)) s
  else if k = R.MUS_CMD then go fun c => c.musCmd op i
  else if k = R.SHD_CMD then s.shdCmd w key op
  else if k = R.SOUT_CMD then s.onChip (doSoutTest w key (BitVec.ofNat 8 v.toNat))
  else if k = R.DCU_CMD then go fun c => c.dcuCmd op (nbit v.toNat 8) i
  else if k = R.LAP_CMD then s.lapVia w key fun s => s.lapOp op i
  else if k = R.SURV_CMD then go fun c => c.survCmd op i
  else s

/-- A write of `v` to the command register at `k`, in the page at `b`. -/
def State.commandAt (s : State) (w : Writer) (b k : Nat) (v : Word) : State :=
  let key := BitVec.ofNat 16 (v.toNat / 65536)
  let i := w.ini.code
  let op := v.toNat % 16
  let go := fun (g : Chip → Chip) => s.onChip fun c => c.cmd k w key g
  match instOf P.PWMC 16 b, instOf P.GDI 16 b, instOf P.LANE 8 b, instOf P.MTR 2 b, instOf P.ETH 2 b with
  | some n, _, _, _, _ => go fun c => c.pwmcCmd n (nbit v.toNat 0) (nbit v.toNat 1)
  | _, some n, _, _, _ => go fun c => c.gdiCmd n op i
  | _, _, some n, _, _ =>
    if k = R.LANE_CMD n then go fun c => c.laneCmd n op i
    else if k = R.LANE_PAT_CMD n then go fun c => c.patCmd n (v.toNat % 4)
    else go fun c => c.modCmd n (nbit v.toNat 15) (nbit v.toNat 14) (v.toNat % 256)
  | _, _, _, some p, _ => s.mtrCmd w key p op
  | _, _, _, _, some e => mdEthTxKick w (Fin.ofNat 2 e) s
  | _, _, _, _, none => s.command w k v

/-! ### Writing a register -/

/-- A write of `v` by `w` to the register at offset `k` with table entry `e`, which has fields to write (R6, R70, R95, R473). The Sheepdog
writes the fields that are not RWT, and nothing refuses it (R49). -/
def Chip.regWrite (c : Chip) (w : Writer) (k : Nat) (e : RegEntry) (v : Word) : Chip :=
  let i := w.ini.code
  let b := pageBase k
  let x := k % 0x1000
  let key := c.keyOf i k
  if b = P.TXN ∧ x < 0x128 then
    if i = 0 ∨ 5 < i then c else c.wr key (newWord e (c.rd key) v)
  else if i = 7 then if e.rwt ≠ 0 then c else c.direct i key v
  else if b = P.FAB ∧ 0x800 ≤ x then
    c.routeWrite (if x < 0xA00 then (x - 0x800) / 4 else if x < 0xE00 then 128 + (x - 0xA00) / 4 else 384) v i
  else if !valueOk key v then c.refuse k i
  else if e.rwt ≠ 0 then c.rwtWrite w key v
  else match instOf P.LANE 8 b with
    | some n => if k = R.LANE_ES_CTL n ∧ nbit v.toNat 31 = true then c.scanStart n i (v &&& 0x800FFF7F#32) else c.direct i key v
    | none => c.direct i key v

/-- The host's and the debug port's writes to the deterministic domain are recorded (R18, R563). -/
def Chip.lapWrite (c : Chip) (i k : Nat) (v : Word) : Chip :=
  if (i = 3 ∨ i = 5) ∧ detPage (pageBase k) = true then c.lapLong 0x06 i [0x40000000 + k + 2 ^ 32 * v.toNat] else c

/-- Whether a write to offset `k` of page kind `p`, instance `n`, is to a reserved offset of the page (R9). -/
def PageKind.reserved (p : PageKind) (n k : Nat) : Bool :=
  if k % 0x1000 < 0x100 then decide (0x30 ≤ k % 0x1000) else (p.entry n (k % 0x1000)).isNone

/-- A write by initiator `i` to offset `k` is recorded with UNMAPPED where no register of the page lies there, whatever else bars it (R9). -/
def Chip.markReserved (c : Chip) (p : PageKind) (n k i : Nat) : Chip := if p.reserved n k then c.perr k .unmapped i else c

/-- A write of `v` by `w` to offset `k` of the register space (R6, R9, R46, R58). -/
def State.writeReg (s : State) (w : Writer) (k : Nat) (v : Word) : State :=
  let i := w.ini.code
  if !s.chip.clockOn then s
  else match pageAt k with
    | none => s.onChip fun c => c.perr (P.SYS + k % 0x1000) .unmapped i
    | some (p, n) =>
      let s : State := s.onChip fun c => (c.lapWrite i k v).markReserved p n k i
      let x := k % 0x1000
      match s.chip.barred k i with
      | some e => s.onChip fun c => c.perr k e i
      | none =>
        if pageBase k = P.SCFG ∧ s.chip.scfgLock = 1 ∧ i ≠ 7 then s.onChip fun c => c.lockedWrite w k
        else if x < 0x100 then s.headerWrite p i (pageBase k) x v
        else match p.entry n x with
          | none => s
          | some e =>
            if pageBase k = P.TXN ∧ x < 0x128 ∧ s.chip.foreign w = true then s.onChip fun c => c.perr k .security i
            else if e.rw ||| e.rwt ||| e.w1c ||| e.wo = 0 then s.onChip fun c => c.perr k .roWrite i
            else if e.wo = 0xFFFFFFFF ∧ ¬ (pageBase k = P.SES ∧ 0x200 ≤ x) then s.commandAt w (pageBase k) k v
            else s.onChip fun c => c.regWrite w k e v

/-- A write to offset `k` that is not an aligned word is ignored and recorded with WIDTH (R47). -/
def Chip.badWidth (c : Chip) (k i : Nat) : Chip :=
  match pageAt k with
  | some (p, n) => (c.markReserved p n (k - k % 4) i).perr k .width i
  | none => c

/-- A write of `v` by `w` to address `a` (R44, R46, R47): one that is not an aligned word is ignored and recorded with WIDTH. -/
def State.writeAt (s : State) (w : Writer) (size a : Nat) (v : Word) : State :=
  if 0x40000000 ≤ a ∧ a < 0x40240000 ∧ (pageAt (a - 0x40000000)).isSome = true then
    let k := a - 0x40000000
    if size = 2 ∧ a % 4 = 0 then s.writeReg w k v
    else if s.chip.clockOn then s.onChip fun c => c.badWidth k w.ini.code else s
  else if s.chip.clockOn then s.onChip fun c => c.perr (P.SYS + a % 0x1000) .unmapped w.ini.code
  else s

/-! ### The commands -/

/-- COMMIT_EDGE (R77). -/
def execCommitEdge (m : BitVec 16) (s : State) : Host.Outcome State Fault Refusal :=
  .next (s.onChip (doCommitEdge m))

end Sys2Proof.Machine
end

