-- ==== Sys2Proof/Machine/Bus.lean ====
section
/-!
DEFINITION. The commands of the register pages: writes from every initiator, the host port and the QSPI target port (R635 to R637), event
occurrences and their delivery (R61 to R64), and the rows that are a write to one field.
-/
namespace Sys2Proof.Machine
open Sys2Proof

/-! ### Writes -/

/-- REGISTER_WRITE (R6, R47): `size` is the base-2 logarithm of the number of bytes. -/
def mdRegisterWrite (w : Writer) (size : BitVec 2) (a v : BitVec 32) (s : State) : State := s.writeAt w size.toNat a.toNat v

/-- STAGING_WRITE (R70): an aligned word write. -/
def mdStagingWrite (w : Writer) (a v : BitVec 32) (s : State) : State := s.writeAt w 2 a.toNat v

/-- PAGE_SOFT_RESET (R56): PG_CTL of page `pg` written with SOFT_RST. -/
def mdPageSoftReset (w : Writer) (pg : Fin 576) (s : State) : State := s.writeReg w (0x1000 * pg.val + H.CTL) 2#32

/-- PAGE_FREEZE (R57): PG_CTL written with FREEZE, EN as it is. -/
def mdPageFreeze (w : Writer) (pg : Fin 576) (s : State) : State :=
  let k := 0x1000 * pg.val + H.CTL
  s.writeReg w k (s.chip.rd k &&& 1#32 ||| 4#32)

/-- PAGE_SNAP (R54): PG_CTL written with SNAP, EN and FREEZE as they are. -/
def mdPageSnap (w : Writer) (pg : Fin 576) (s : State) : State :=
  let k := 0x1000 * pg.val + H.CTL
  s.writeReg w k (s.chip.rd k &&& 5#32 ||| 8#32)

/-- EVENT_SET (R55). -/
def mdEventSet (w : Writer) (pg : Fin 576) (bits : BitVec 32) (s : State) : State :=
  s.writeReg w (0x1000 * pg.val + H.EVT_SET) bits

/-- CRC_RECOMPUTE_DONE (R60). -/
def doCrcRecomputeDone (pg : Fin 576) (c : Chip) : Chip :=
  c.via fun c => if c.crcBusy.contains (0x1000 * pg.val) then c.crcDone (0x1000 * pg.val) else c

/-- EVENT_ACK (R62). -/
def doEventAck (w : Writer) (twin : Bool) (src : BitVec 8) (c : Chip) : Chip :=
  c.put (R.EVR_ACK (b2n twin)) w fun c => c.ack twin src.toNat

/-- A write of the register at `k` that sets or clears its bit `j`. -/
def State.writeBit (s : State) (w : Writer) (k j : Nat) (b : Bool) : State :=
  s.writeReg w k (fset (s.chip.rd k) ⟨j, j⟩ (b2n b))

/-- SEQ_GROUP_ENABLE (R160). -/
def mdSeqGroupEnable (w : Writer) (g : Fin 2) (s : State) : State := s.writeBit w R.SEQ_CTL g.val true
/-- SEQ_GROUP_DISABLE (R160). -/
def mdSeqGroupDisable (w : Writer) (g : Fin 2) (s : State) : State := s.writeBit w R.SEQ_CTL g.val false
/-- BPT_CHANNEL_ENABLE (R256). -/
def mdBptChannelEnable (w : Writer) (ch : Fin 4) (s : State) : State := s.writeBit w R.BPT_CTL ch.val true
/-- BPT_CHANNEL_DISABLE (R256). -/
def mdBptChannelDisable (w : Writer) (ch : Fin 4) (s : State) : State := s.writeBit w R.BPT_CTL ch.val false
/-- TIMEBASE_START (R310). -/
def mdTimebaseStart (w : Writer) (n : Fin 4) (s : State) : State := s.writeBit w R.PWT_CTL n.val true
/-- TIMEBASE_STOP (R311). -/
def mdTimebaseStop (w : Writer) (n : Fin 4) (s : State) : State := s.writeBit w R.PWT_CTL n.val false
/-- LANE_ENABLE (R418). -/
def mdLaneEnable (w : Writer) (n : Fin 8) (s : State) : State := s.writeBit w (R.LANE_CTL n) 31 true
/-- LANE_DISABLE (R418). -/
def mdLaneDisable (w : Writer) (n : Fin 8) (s : State) : State := s.writeBit w (R.LANE_CTL n) 31 false

/-- SHADOW_WRITE (R328): PERIOD, CMP_A or CMP_B of channel `k`. -/
def mdShadowWrite (w : Writer) (k : Fin 16) (reg : Fin 3) (v : BitVec 32) (s : State) : State :=
  s.writeReg w (R.PWMC_PERIOD k + 4 * reg.val) v

/-- SLOT_WINDOW_WRITE (R199): a write to the window word of slot `slot`, the half that holds it being selected. -/
def doSlotWindowWrite (w : Writer) (slot : Fin 1024) (v : BitVec 32) (c : Chip) : Chip :=
  let k := R.STR_SLOT (slot.val % 512)
  c.via fun c => (c.lapWrite w.ini.code k v).gate k w.ini.code fun c => c.rwtWrite w (Key.slot slot.val) v

/-! ### Host port and QSPI target port (R635, R636) -/

/-- A host write enters the posted queue; HP_FULL is raised where that fills it (R652). -/
def Chip.post (c : Chip) (k : Nat) (v : Word) : Chip :=
  (c.updBoot fun b => { b with posted := b.posted ++ [(k, v)] }).raiseIf (decide (c.boot.posted.length = 63)) P.HPT 0

/-- HOST_WRITE (R635): while the queue is full, HP_WAIT holds the write and it has not entered. -/
def doHostWrite (a : BitVec 22) (v : BitVec 32) (c : Chip) : Chip :=
  c.clocked P.HPT fun c =>
    if c.is R.HPT_STAT F.HPT_STAT_PORT then c
    else if 64 ≤ c.boot.posted.length then c.flag R.HPT_STAT F.HPT_STAT_WAIT_SEEN true
    else c.post (4 * a.toNat) v

/-- POSTED_WRITE_DELIVER (R51). -/
def mdPostedWriteDeliver (s : State) : State :=
  match s.chip.boot.posted with
  | [] => s
  | (k, v) :: r =>
    if s.chip.clockOn then
      (s.onChip fun c => c.updBoot fun b => { b with posted := r }).writeReg ⟨.host, 0⟩ k v
    else s

/-- QSPI_READ (R636): `n` words from word address `a`; each low word read loads the host's latch (R52). -/
def mdQspiRead (a : BitVec 22) (n : BitVec 16) (s : State) : State :=
  if s.chip.is R.HPT_STAT F.HPT_STAT_PORT then
    forN n.toNat (fun j s => s.afterRead 3 (4 * ((a.toNat + j) % 2 ^ 22))) s
  else s

/-- QSPI_WRITE (R636): each word is posted, or dropped and counted where the queue is full. -/
def doQspiWrite (a : BitVec 22) (ws : List (BitVec 32)) (c : Chip) : Chip :=
  c.clocked P.HPT fun c =>
    if c.is R.HPT_STAT F.HPT_STAT_PORT then
      forN ws.length (fun j c =>
        if 64 ≤ c.boot.posted.length then c.incSat R.HPT_STAT F.HPT_STAT_DROPPED
        else c.post (4 * ((a.toNat + j) % 2 ^ 22)) (nth ws j 0)) c
    else c

/-- The byte that QSPI command 0x05 returns (R636). -/
def Chip.qspiStatus (c : Chip) : Byte := BitVec.ofNat 8 (c.hptStat.toNat / 2 ^ 29 % 2 * 2 + c.hptStat.toNat / 2 ^ 30 % 2)

/-- QSPI_STATUS (R636) returns a byte (`Chip.qspiStatus`) and changes nothing. -/
def doQspiStatus (c : Chip) : Chip := c

/-! ### Events (R61 to R64) -/

/-- EVENT_OCCURRENCE (R61): event `bit` of page `pg` occurs. With the main domain off only the survival pages have events (R610). -/
def doEventOccurrence (pg : Fin 576) (bit : Fin 32) (c : Chip) : Chip :=
  let b := 0x1000 * pg.val
  if (pageAt b).isSome && (c.powered || (c.pow.survUp && survKey b)) && !(c.powered && c.halted b) then c.raise b bit.val else c

/-- Takes the first element for which `p` holds out of a list. -/
def pick {α : Type} (p : α → Bool) (l : List α) : Option (α × List α) :=
  match l.find? p with
  | some x => some (x, l.takeWhile (fun y => !p y) ++ (l.dropWhile fun y => !p y).drop 1)
  | none => none

/-- Whether a delivery goes to the fabric. -/
def toFabric (d : Nat × EvDest) : Bool := match d.2 with | .fabric _ _ _ => true | _ => false

/-- Twin `t` takes the delivery of source `s` in the instruction with the given stamp: recorded, and forwarded through its IFQ (R544, R563). -/
def Chip.twinDelivered (c : Chip) (t : Bool) (s stamp : Nat) : Chip :=
  let c : Chip := c.lapLong 0x07 (b2n t) [s, stamp]
  if c.twRuns t then c.ifqPut t ⟨stamp, true, s, 0⟩ else c

/-- An occurrence of source `s` reaches `d` (R64): recorded (R563), it starts a rate group or sets the Sheepdog's latch (R499). While a
replay runs its EVENT records start the rate groups and go to the twins (R571, R572). -/
def Chip.delivered (c : Chip) (s : Nat) (d : EvDest) (stamp : Nat) : Chip :=
  match d with
  | .twinA => if c.lapState = Ls.replaying then c else c.twinDelivered false s stamp
  | .twinB => if c.lapState = Ls.replaying then c else c.twinDelivered true s stamp
  | .stride g => if c.lapState = Ls.replaying then c else (c.lapLong 0x07 2 [s]).eventTrig g
  | .sheepdog => (c.lapLong 0x07 3 [s]).cause 0x03 7 s
  | .fabric ses plane t =>
    c.emit (c.packet 0x12 2 0 (c.f (Key.ses ses 0x200) F.SES_S_CFG_PEER) (some ses) 0 (s :: words64 t)) (2 ^ plane) none

/-- Whether destination `d` can take a delivery: a stalled core takes none (R544, R547). -/
def Chip.takes (c : Chip) (d : EvDest) : Bool :=
  match d with
  | .twinA => !(c.twRuns false && c.twStalled false)
  | .twinB => !(c.twRuns true && c.twStalled true)
  | _ => true

/-- EVENT_DELIVERY (R64): the oldest occurrence under way to a twin, a rate group or the Sheepdog arrives; `stamp` is that of the instruction
of a twin that takes it. -/
def doEventDelivery (stamp : BitVec 64) (c : Chip) : Chip :=
  c.clocked P.EVR fun c =>
    match pick (fun d => !toFabric d && c.takes d.2) c.bus.deliveries with
    | some (d, r) => (c.updBus fun b => { b with deliveries := r }).delivered d.1 d.2 stamp.toNat
    | none => c

/-- EVT_NOTIFY_SEND (R64): the oldest occurrence with FAB = 1 is injected. -/
def doEvtNotifySend (c : Chip) : Chip :=
  c.clocked P.EVR fun c =>
    match pick toFabric c.bus.deliveries with
    | some (d, r) => (c.updBus fun b => { b with deliveries := r }).delivered d.1 d.2 0
    | none => c

/-! ### The commands -/

/-- REGISTER_WRITE (R6). -/
def execRegisterWrite (w : Writer) (size : BitVec 2) (a v : BitVec 32)
    (s : State) : Host.Outcome State Fault Refusal :=
  .next (mdRegisterWrite w size a v s)
/-- STAGING_WRITE (R70). -/
def execStagingWrite (w : Writer) (a v : BitVec 32) (s : State) : Host.Outcome State Fault Refusal :=
  .next (mdStagingWrite w a v s)
/-- PAGE_SOFT_RESET (R56). -/
def execPageSoftReset (w : Writer) (pg : Fin 576) (s : State) : Host.Outcome State Fault Refusal :=
  .next (mdPageSoftReset w pg s)
/-- PAGE_FREEZE (R57). -/
def execPageFreeze (w : Writer) (pg : Fin 576) (s : State) : Host.Outcome State Fault Refusal :=
  .next (mdPageFreeze w pg s)
/-- PAGE_SNAP (R54). -/
def execPageSnap (w : Writer) (pg : Fin 576) (s : State) : Host.Outcome State Fault Refusal :=
  .next (mdPageSnap w pg s)
/-- EVENT_SET (R55). -/
def execEventSet (w : Writer) (pg : Fin 576) (bits : BitVec 32) (s : State) : Host.Outcome State Fault Refusal :=
  .next (mdEventSet w pg bits s)
/-- CRC_RECOMPUTE_DONE (R60). -/
def execCrcRecomputeDone (pg : Fin 576) (s : State) : Host.Outcome State Fault Refusal :=
  .next (s.onChip (doCrcRecomputeDone pg))
/-- EVENT_ACK (R62). -/
def execEventAck (w : Writer) (twin : Bool) (src : BitVec 8) (s : State) : Host.Outcome State Fault Refusal :=
  .next (s.onChip (doEventAck w twin src))
/-- SEQ_GROUP_ENABLE (R160). -/
def execSeqGroupEnable (w : Writer) (g : Fin 2) (s : State) : Host.Outcome State Fault Refusal :=
  .next (mdSeqGroupEnable w g s)
/-- SEQ_GROUP_DISABLE (R160). -/
def execSeqGroupDisable (w : Writer) (g : Fin 2) (s : State) : Host.Outcome State Fault Refusal :=
  .next (mdSeqGroupDisable w g s)
/-- BPT_CHANNEL_ENABLE (R256). -/
def execBptChannelEnable (w : Writer) (ch : Fin 4) (s : State) : Host.Outcome State Fault Refusal :=
  .next (mdBptChannelEnable w ch s)
/-- BPT_CHANNEL_DISABLE (R256). -/
def execBptChannelDisable (w : Writer) (ch : Fin 4) (s : State) : Host.Outcome State Fault Refusal :=
  .next (mdBptChannelDisable w ch s)
/-- TIMEBASE_START (R310). -/
def execTimebaseStart (w : Writer) (n : Fin 4) (s : State) : Host.Outcome State Fault Refusal :=
  .next (mdTimebaseStart w n s)
/-- TIMEBASE_STOP (R311). -/
def execTimebaseStop (w : Writer) (n : Fin 4) (s : State) : Host.Outcome State Fault Refusal :=
  .next (mdTimebaseStop w n s)
/-- LANE_ENABLE (R418). -/
def execLaneEnable (w : Writer) (n : Fin 8) (s : State) : Host.Outcome State Fault Refusal :=
  .next (mdLaneEnable w n s)
/-- LANE_DISABLE (R418). -/
def execLaneDisable (w : Writer) (n : Fin 8) (s : State) : Host.Outcome State Fault Refusal :=
  .next (mdLaneDisable w n s)
/-- SHADOW_WRITE (R328). -/
def execShadowWrite (w : Writer) (k : Fin 16) (reg : Fin 3) (v : BitVec 32)
    (s : State) : Host.Outcome State Fault Refusal :=
  .next (mdShadowWrite w k reg v s)
/-- SLOT_WINDOW_WRITE (R199). -/
def execSlotWindowWrite (w : Writer) (slot : Fin 1024) (v : BitVec 32)
    (s : State) : Host.Outcome State Fault Refusal :=
  .next (s.onChip (doSlotWindowWrite w slot v))
/-- HOST_WRITE (R635). -/
def execHostWrite (a : BitVec 22) (v : BitVec 32) (s : State) : Host.Outcome State Fault Refusal :=
  .next (s.onChip (doHostWrite a v))
/-- POSTED_WRITE_DELIVER (R51). -/
def execPostedWriteDeliver (s : State) : Host.Outcome State Fault Refusal :=
  .next (mdPostedWriteDeliver s)
/-- QSPI_READ (R636). -/
def execQspiRead (a : BitVec 22) (n : BitVec 16) (s : State) : Host.Outcome State Fault Refusal :=
  .next (mdQspiRead a n s)
/-- QSPI_WRITE (R636). -/
def execQspiWrite (a : BitVec 22) (ws : List (BitVec 32)) (s : State) : Host.Outcome State Fault Refusal :=
  .next (s.onChip (doQspiWrite a ws))
/-- QSPI_STATUS (R636). -/
def execQspiStatus (s : State) : Host.Outcome State Fault Refusal :=
  .next (s.onChip doQspiStatus)
/-- EVENT_OCCURRENCE (R61). -/
def execEventOccurrence (pg : Fin 576) (bit : Fin 32) (s : State) : Host.Outcome State Fault Refusal :=
  .next (s.onChip (doEventOccurrence pg bit))
/-- EVENT_DELIVERY (R64). -/
def execEventDelivery (stamp : BitVec 64) (s : State) : Host.Outcome State Fault Refusal :=
  .next (s.onChip (doEventDelivery stamp))
/-- EVT_NOTIFY_SEND (R64). -/
def execEvtNotifySend (s : State) : Host.Outcome State Fault Refusal :=
  .next (s.onChip doEvtNotifySend)

end Sys2Proof.Machine
end

