-- ==== Sys2Proof/Machine/Run.lean ====
section
/-!
DEFINITION. Packets on a lane and their delivery to a consumer (R429, R454, R471, R477), the register engine (R457), the stores that a
twin's leading core makes and their release (R545 to R548, R572), and the start of the twins (R623 steps 5 and 6, R677).
-/
namespace Sys2Proof.Machine
open Sys2Proof

/-! ### The register engine (R457) -/

/-- The pairs of a REG_REQ: an address, with bit 0 set for a write, and a data word. In TREE cast they follow the first unit. -/
def regPairs (p : Packet) : List (Nat × Word) :=
  let ws := if p.cast = 3#2 then p.body.drop 8 else p.body
  (List.range (min 32 (ws.length / 2))).map fun i => ((nth ws (2 * i) 0).toNat, nth ws (2 * i + 1) 0)

/-- PG_ERR bits 8:0 of the page whose errors a write to address `a` would record. -/
def Chip.errBits (c : Chip) (a : Nat) : Nat :=
  let k := match regOffset a with | some k => if (pageAt k).isSome then pageBase k else P.SYS | none => P.SYS
  c.rdN (k + H.ERR) % 2 ^ 9

/-- The state with the PG_ERR of address `a`'s page cleared: a write that records an error there is a refused one. -/
def State.noErr (s : State) (a : Nat) : State :=
  let k := match regOffset a with | some k => if (pageAt k).isSome then pageBase k else P.SYS | none => P.SYS
  s.onChip fun c => c.wrN (k + H.ERR) 0

/-- One pair performed for session `ses`, with the word that the REG_RESP carries for it. -/
def State.regPair (s : State) (ses : Fin 256) (x : Nat × Word) : State × Word :=
  let a := x.1 - x.1 % 2
  if x.1 % 2 = 1 then
    let go := fun (s : State) => s.writeAt ⟨.fabric, ses⟩ 2 a x.2
    let t := go s
    (t, if ((go (s.noErr a)).chip.errBits a) = 0 then 0 else wd (t.chip.errBits a))
  else
    match regOffset a with
    | some k => (s.afterRead 4 k, s.readReg 4 k)
    | none => (s, 0)

/-- The REG_RESP to request `p` with words `ws`: as the request came, a TREE request being answered in the other direction. -/
def Chip.regResp (c : Chip) (p : Packet) (ws : List Nat) : Chip :=
  let ses := if p.enc then some p.ses.toNat else none
  if p.cast = 3#2 then
    let pl := p.w 2 % 2
    let unit := if nbit (p.w 2) 1 then treeUnit 0 pl 0 false else treeUnit (p.w64 0) pl (p.w 2 / 256 % 256) true
    c.emit (c.packet 0x21 3 3 p.src.toNat ses p.tag.toNat (unit ++ ws)) (2 ^ pl) none
  else c.send 0x21 3 0 p.src.toNat ses p.tag.toNat ws

/-- The pairs `ps` performed in order for session `ses`, with the words of the REG_RESP. -/
def State.regPairsDo (s : State) (ses : Fin 256) (ps : List (Nat × Word)) : State × List Nat :=
  ps.foldl (fun r x =>
    let y := r.1.regPair ses x
    (y.1, r.2 ++ [y.2.toNat])) (s, [])

/-- A REG_REQ at the register engine (R457, R487): discarded with RIGHTS where a pair needs a right the session does not grant. -/
def State.regReq (s : State) (p : Packet) : State :=
  let ps := regPairs p
  let c := s.chip
  let needs := fun (w : Nat) (x : Fld) => ps.any (fun e => decide (e.1 % 2 = w)) && !c.right p x
  if needs 0 F.SES_S_RIGHTS_RD || needs 1 F.SES_S_RIGHTS_WR then s.onChip fun c => c.dropPkt p Dc.rights
  else
    let r := (s.onChip fun c => c.lapFab 6 p).regPairsDo (Fin.ofNat 256 p.ses.toNat) ps
    r.1.onChip fun c => c.regResp p r.2

/-- REG_REQ_RX (R457). -/
def mdRegReqRx (p : Packet) (s : State) : State := s.consume p fun s => s.regReq p

/-- DEV_RESET_RX (R456, R487): SYS.RST_CAUSE names the fabric. -/
def mdDevResetRx (p : Packet) (s : State) : State := s.consume p fun s => s.deviceReset 4

/-! ### Packets on a lane -/

/-- A delivered packet for a ring or a pending request: `g` takes it with its input buffer; where it is discarded the buffer is free. -/
def State.consumeOn (s : State) (inL : Option Nat) (p : Packet) (g : State → State) : State :=
  match s.chip.admitted p with
  | some x => s.onChip fun c => (c.dropPkt p x).giveBack inL p.vc.toNat
  | none => g s

/-- A plain packet that arrived on plane `pl`, through lane `inL` where it came from outside, reaches the consumer of its kind (R456). -/
def State.takePlain (s : State) (pl : Nat) (inL : Option Nat) (p : Packet) : State :=
  let pf : Fin 2 := Fin.ofNat 2 pl
  let n : Fin 8 := Fin.ofNat 8 (inL.getD 0)
  let chip := fun (g : Chip → Chip) => s.onChip fun c => (g c).giveBack inL p.vc.toNat
  let full := fun (g : State → State) => (g s).onChip fun c => c.giveBack inL p.vc.toNat
  match p.kind.toNat with
  | 0x01 => chip (doTimeSyncRx n p)
  | 0x02 => chip (doDelayReqRx n p)
  | 0x03 => chip (doDelayRespRx n p)
  | 0x04 => chip (doAnnounceRx n p)
  | 0x08 => chip (doSafeCopyRx pf p)
  | 0x10 => chip (doPubRx p)
  | 0x11 => chip (doGateCmdRx p)
  | 0x13 => chip (doCommitAtRx p)
  | 0x14 => chip (doAbortRx p)
  | 0x15 => chip (doResolveRx p)
  | 0x16 => chip (doProbeReqRx p)
  | 0x17 => chip (doProbeGrantRx p)
  | 0x18 => chip (doProbeEndRx p)
  | 0x20 => full (mdRegReqRx p)
  | 0x22 => chip (doPrepareRx p)
  | 0x23 => chip (doVoteRx p)
  | 0x24 => full (mdDevResetRx p)
  | 0x28 => chip (doIdReqRx pf p)
  | 0x29 => chip (doIdGrantRx p)
  | 0x2A => chip (doTopoReportRx pf p)
  | 0x12 | 0x38 | 0x39 => s.consumeOn inL p fun s => s.toTwin inL p
  | 0x30 | 0x31 | 0x32 => s.consumeOn inL p fun s => s.toRing 3 inL p
  | 0x21 | 0x3A | 0x3F => s.consumeOn inL p fun s => s.response inL p
  | _ => chip id

/-- A packet at its destination (R486): its protection is taken off and its consumer takes it. -/
def State.take (s : State) (x : Nat × Option Nat × Packet) : State :=
  if !s.chip.clockOn then s
  else
    match s.chip.unprotect x.2.2 with
    | (some p, c) => ({ s with chip := c }).takePlain x.1 x.2.1 p
    | (none, c) => { s with chip := c.giveBack x.2.1 x.2.2.vc.toNat }

/-- The packets delivered here reach their consumers in turn. -/
def State.drain (s : State) : State :=
  s.chip.fab.inbox.foldl State.take (s.onChip fun c => c.updFab fun f => { f with inbox := [] })

/-- A packet taken by the receiver of lane `n` goes on: VC 6 and 7 and a kind that R456 does not allow are discarded, TIME packets and
announcements belong to this link, every other packet goes its way. -/
def Chip.accept (c : Chip) (n : Nat) (p : Packet) : Chip :=
  if 6 ≤ p.vc.toNat then c
  else if !c.kindOk p then (c.dropPkt p Dc.scope).giveBack (some n) p.vc.toNat
  else if p.kind.toNat ≤ 4 then c.deliverHere (planeOf n) (some n) p
  else c.routePkt (planeOf n) (some n) p

/-- The receiver of lane `n` discards what came, and sends one NAK until the number it expects arrives (R429). -/
def Chip.linkNak (c : Chip) (n : Nat) : Chip :=
  if (c.lane n).nak then c else (c.updLane n fun l => { l with nak := true }).incSat (R.LANE_CNT_0 n) F.LANE_CNT_0_NAKS

/-- A packet with link sequence number `seq` and CRC `crc` arrives on lane `n` (R429, R454). -/
def Chip.linkRx (c : Chip) (n seq : Nat) (p : Packet) (crc : Nat) : Chip :=
  if !c.laneUp n then c
  else if crc ≠ packetCrc p then (c.dropPkt p Dc.crc).linkNak n
  else if seq ≠ (c.lane n).rxSeq then c.linkNak n
  else (c.updLane n fun l => { l with rxSeq := (l.rxSeq + 1) % 4096, nak := false }).accept n p

/-- PACKET_RX (R471). -/
def mdPacketRx (n : Fin 8) (seq : BitVec 12) (p : Packet) (crc : BitVec 32) (s : State) : State :=
  if s.chip.clockOn && !s.chip.halted (P.LANE n) then (s.onChip fun c => c.linkRx n seq.toNat p crc.toNat).drain else s

/-- PACKET_SEND (R477): the packets that wait for the router join the lanes' queues, and lane `n` sends. -/
def mdPacketSend (n : Fin 8) (s : State) : State :=
  if s.chip.clockOn && !s.chip.halted (P.LANE n) then (s.onChip fun c => (c.inject).laneSend n).drain else s

/-! ### Stores of the twins (R545 to R548) -/

/-- The initiator that performs twin `t`'s writes. -/
def twinWriter (t : Bool) : Writer := ⟨if t then .twinB else .twinA, 0⟩

/-- The words of a 64-bit write at offset `a` of the register space whose mask bytes are set: a part of a word is no word write (R47). -/
def State.writeHalves (s : State) (w : Writer) (a data mask : Nat) : State :=
  forN 2 (fun h s =>
    let m := mask / 16 ^ h % 16
    if m = 0 then s else s.writeAt w (if m = 15 then 2 else 0) (0x40000000 + a + 4 * h) (wd (data / 2 ^ (32 * h)))) s

/-- TWIN_STORE (R545, R547, R548): to its own TWN page and to its private region at once, else as an entry of the release buffer; a stalled
core does not store. -/
def mdTwinStore (t : Bool) (space : MemSpace) (a : BitVec 29) (data : BitVec 64) (mask : BitVec 8) (stamp : BitVec 64) (s : State) : State :=
  if !(s.chip.clockOn && s.chip.twRuns t) then s
  else if s.chip.twStalled t then s.onChip fun c => c.twStall t
  else if space = .reg ∧ pageBase a.toNat = P.TWN (b2n t) then s.writeHalves (twinWriter t) a.toNat data.toNat mask.toNat
  else s.onChip fun c =>
    if c.isPriv t space a.toNat then c.privStore t space a.toNat data.toNat mask.toNat
    else (c.updTwin t fun x => { x with rb := x.rb ++ [⟨space, a.toNat, data.toNat, mask.toNat, stamp.toNat, false⟩] }).showRb t

/-- The masked bytes of `data` go to SRAM or DRAM from offset `a`. -/
def Mem.storeMasked (m : Mem) (space : MemSpace) (a data mask : Nat) : Mem :=
  forN 8 (fun i m =>
    let b := BitVec.ofNat 8 (data / 256 ^ i)
    if !nbit mask i then m
    else match space with
      | .sram => m.sramPut (a + i) [b]
      | .dram => m.dramPut (a + i) [b]
      | .reg => m) m

/-- A released write to the deterministic domain is recorded (R563). -/
def Chip.lapRelease (c : Chip) (t : Bool) (e : RbEnt) : Chip :=
  if e.space = .reg ∧ detPage (pageBase e.a) = true then
    c.lapLong 0x09 (b2n t) [e.stamp, 0x40000000 + e.a, e.data, e.mask]
  else c

/-- A released entry of twin `t` outside a replay: performed as the twin's write; what it stores to memory may be a descriptor that
waiting packets and frames need. -/
def State.perform (s : State) (t : Bool) (e : RbEnt) : State :=
  match e.space with
  | .reg => (s.onChip fun c => c.lapRelease t e).writeHalves (twinWriter t) e.a e.data e.mask
  | sp => (((s.onMem fun m => m.storeMasked sp e.a e.data e.mask).ringFlush).ethExamine 0).ethExamine 1

/-- A released entry of twin `t` in a replay (R572): a store to memory stays the twin's; a register write is compared with the twin's next
RELEASE record where its page belongs to the domain, and has no effect of its own. -/
def State.performReplay (s : State) (t : Bool) (e : RbEnt) : State :=
  match e.space with
  | .reg =>
    if !detPage (pageBase e.a) then s
    else match s.release t 0 (s.chip.twin t).rel with
      | none => s
      | some (o, r) => s.onChip fun c =>
        let c : Chip := c.updTwin t fun x => { x with rel := (o + r.bytes) % ringSize }
        if r.data = [e.stamp, 0x40000000 + e.a, e.data, e.mask] ∨ c.is R.LAP_DIV F.LAP_DIV_FOUND = true then c
        else (c.wrN R.LAP_DIV (2 ^ 31 + o / 8)).raise P.LAP 4
  | sp => s.onMem fun m => m.storeMasked sp e.a e.data e.mask

/-- RELEASE_ENTRY (R546): the oldest entry leaves the buffer once both comparators have matched it. -/
def mdReleaseEntry (t : Bool) (s : State) : State :=
  if !s.chip.clockOn then s
  else
    match (s.chip.twin t).rb with
    | [] => s
    | e :: r =>
      if !e.ok then s
      else
        let s := s.onChip fun c => (c.updTwin t fun x => { x with rb := r }).showRb t
        if s.chip.mode = .replay then s.performReplay t e else s.perform t e

/-! ### The start of the twins (R623) -/

/-- The defaults of EVR.SRC (R677): first source, number of sources, twins (bit 0 A, bit 1 B), priority. -/
def evrDefaults : List (Nat × Nat × Nat × Nat) :=
  [(0, 1, 3, 12), (1, 1, 2, 4), (2, 1, 3, 14), (4, 7, 3, 6), (11, 3, 2, 10), (16, 6, 2, 8), (22, 4, 2, 4), (26, 1, 2, 4), (27, 2, 3, 12),
   (29, 2, 2, 6), (31, 1, 2, 6), (32, 4, 1, 6), (36, 1, 1, 6), (40, 8, 1, 10), (48, 4, 1, 10), (64, 8, 1, 8), (72, 3, 1, 8),
   (75, 3, 1, 6), (78, 6, 1, 12), (84, 5, 1, 12), (89, 5, 1, 6), (96, 8, 0, 0), (104, 5, 1, 8), (109, 1, 1, 12), (110, 1, 0, 0)] ++
  [(112, 16, 1, 12), (128, 16, 1, 14), (144, 16, 1, 12), (160, 6, 1, 4), (166, 2, 1, 4), (168, 3, 1, 4), (176, 8, 2, 8), (184, 1, 2, 10),
   (185, 1, 2, 6), (186, 1, 2, 10), (187, 1, 2, 6), (188, 4, 2, 6), (192, 6, 2, 8), (198, 4, 2, 8), (202, 6, 2, 8), (208, 7, 3, 14),
   (222, 1, 3, 14), (215, 2, 3, 14), (217, 2, 3, 14), (219, 3, 3, 14), (224, 2, 3, 13), (226, 2, 3, 13), (228, 3, 3, 13),
   (231, 6, 2, 6), (240, 3, 3, 15), (243, 5, 3, 10), (248, 3, 2, 4), (251, 1, 2, 4), (252, 3, 2, 4)]

/-- The word of a default: TWA, TWB and PRIO, every other field 0. -/
def evrDefault (tw prio : Nat) : Word :=
  fset (fset (fset 0 F.EVR_SRC_TWA (tw % 2)) F.EVR_SRC_TWB (tw / 2)) F.EVR_SRC_PRIO prio

/-- Every EVR.SRC of an assigned source takes its default (R67, R677). -/
def Chip.evrReset (c : Chip) : Chip :=
  evrDefaults.foldl (fun c e => forN e.2.1 (fun j c => c.wr (R.EVR_SRC (e.1 + j)) (evrDefault e.2.2.1 e.2.2.2)) c) c

/-- The pairs of the image's sections of `kind` are written by the starting block in list order. -/
def State.bootPairs (s : State) (ps : List (Nat × Nat)) : State :=
  ps.foldl (fun s p => s.writeAt ⟨.boot, 0⟩ 2 p.1 (wd p.2)) s

/-- The twins run (R623 step 6): STAMP and DEEP start from 0, and SCFG locks. -/
def Chip.twinsRun (c : Chip) : Chip :=
  let c : Chip := [false, true].foldl (fun c t =>
    let c : Chip := (c.wr64 (R.TWN_STAMP (b2n t) 0) 0).wr64 (R.TWN_DEEP (b2n t) 0) 0
    (c.updTwin t fun x => { x with undo := [], saved := none, cks := 0, copying := none }).setTw t Tw.run) c
  ({ c with shd := { c.shd with twinsUp := true } }).scfgRollback

/-- The comparators whose MODE is not off, as a mask. -/
def Chip.acmpUsed (c : Chip) : Nat :=
  ((List.range 16).map fun n => if c.f (R.ACMP_CH_CFG n) F.ACMP_CH_CFG_MODE = 0 then 0 else 2 ^ n).sum

/-- TWINS_START (R623 steps 5 and 6): `t` is the time from VAUX power-good in 100 µs. -/
def mdTwinsStart (t : BitVec 16) (s : State) : State :=
  if !s.chip.bootAt 5 then s
  else
    let img := s.chip.boot.img
    let g := s.imgByte img
    let s := s.onChip fun c =>
      let c : Chip := if Im.afeCal g then (c.afeCal 0 6).afeCal 1 6 else c
      let c : Chip := [false, true].foldl (fun c b =>
        (c.wr (R.TWN_PRIV_S (b2n b)) (Im.priv g b false)).wr (R.TWN_PRIV_D (b2n b)) (Im.priv g b true)) c
      c.evrReset
    let s := (s.bootPairs (Im.pairs g 5)).bootPairs (Im.pairs g 4)
    s.onChip fun c =>
      let (k, c) := c.freeW
      let c : Chip := c.logIt 0x0C (bytesLE 1 k.toNat ++ bytesLE 4 (c.rdN R.SHD_SEALED_CRC))
      let c : Chip := (c.acmpSelftest c.acmpUsed 6).twinsRun
      let c : Chip := ((c.setF R.BOOT_STAT F.BOOT_STAT_CODE_A img).setF R.BOOT_STAT F.BOOT_STAT_CODE_B img).setF R.BOOT_STAT
        F.BOOT_STAT_SOURCE img
      let c : Chip := (c.setF R.BOOT_TIMES F.BOOT_TIMES_TWINS t.toNat).updBoot fun b =>
        { b with step := 7, secver := [Im.secver g, Im.secver g] }
      let c : Chip := if c.mtr.incDue then (c.updMtr fun m => { m with incDue := false }).raise (P.MTR 0) 4 else c
      c.raiseIf (decide (c.f R.BOOT_STAT F.BOOT_STAT_FS_COUNT ≠ 0)) P.BOOT 0

/-! ### The commands -/

/-- REG_REQ_RX (R457). -/
def execRegReqRx (p : Packet) (s : State) : Host.Outcome State Fault Refusal :=
  .next (mdRegReqRx p s)
/-- DEV_RESET_RX (R487). -/
def execDevResetRx (p : Packet) (s : State) : Host.Outcome State Fault Refusal :=
  .next (mdDevResetRx p s)
/-- PACKET_RX (R471). -/
def execPacketRx (n : Fin 8) (seq : BitVec 12) (p : Packet) (crc : BitVec 32)
    (s : State) : Host.Outcome State Fault Refusal :=
  .next (mdPacketRx n seq p crc s)
/-- PACKET_SEND (R477). -/
def execPacketSend (n : Fin 8) (s : State) : Host.Outcome State Fault Refusal :=
  .next (mdPacketSend n s)
/-- TWIN_STORE (R545). -/
def execTwinStore (t : Bool) (space : MemSpace) (a : BitVec 29) (data : BitVec 64) (mask : BitVec 8) (stamp : BitVec 64)
    (s : State) : Host.Outcome State Fault Refusal :=
  .next (mdTwinStore t space a data mask stamp s)
/-- RELEASE_ENTRY (R546). -/
def execReleaseEntry (t : Bool) (s : State) : Host.Outcome State Fault Refusal :=
  .next (mdReleaseEntry t s)
/-- TWINS_START (R623). -/
def execTwinsStart (t : BitVec 16) (s : State) : Host.Outcome State Fault Refusal :=
  .next (mdTwinsStart t s)

end Sys2Proof.Machine
end

