-- ==== Sys2Proof/Machine/Dispatch.lean ====
section
/-!
DEFINITION. The dispatch: one arm per command, each a direct call of the command's meaning.
-/
namespace Sys2Proof.Machine

def exec (i : Instr) (s : State) : Host.Outcome State Fault Refusal :=
  match i with
  | .powerOnReset mv => Sys2Proof.Machine.execPowerOnReset mv s
  | .vauxPowerGood mv => Sys2Proof.Machine.execVauxPowerGood mv s
  | .vcorePowerGood => Sys2Proof.Machine.execVcorePowerGood s
  | .earlyWarning => Sys2Proof.Machine.execEarlyWarning s
  | .ewClear => Sys2Proof.Machine.execEwClear s
  | .vcoreUnderVoltage => Sys2Proof.Machine.execVcoreUnderVoltage s
  | .vcoreLost => Sys2Proof.Machine.execVcoreLost s
  | .regulatorRestart mv => Sys2Proof.Machine.execRegulatorRestart mv s
  | .railMonitorFail => Sys2Proof.Machine.execRailMonitorFail s
  | .railMonitorsGood mv => Sys2Proof.Machine.execRailMonitorsGood mv s
  | .rpsGateOff high => Sys2Proof.Machine.execRpsGateOff high s
  | .rpsGateOn => Sys2Proof.Machine.execRpsGateOn s
  | .storeAboveTKeep mv => Sys2Proof.Machine.execStoreAboveTKeep mv s
  | .storeBelowTCut mv => Sys2Proof.Machine.execStoreBelowTCut mv s
  | .storeBelowTAbort mv => Sys2Proof.Machine.execStoreBelowTAbort mv s
  | .resetNAssert => Sys2Proof.Machine.execResetNAssert s
  | .resetNRelease => Sys2Proof.Machine.execResetNRelease s
  | .deviceReset w key => Sys2Proof.Machine.execDeviceReset w key s
  | .twinRestart w key t => Sys2Proof.Machine.execTwinRestart w key t s
  | .stateReqRun w key late => Sys2Proof.Machine.execStateReqRun w key late s
  | .stateReqStop w key late => Sys2Proof.Machine.execStateReqStop w key late s
  | .stateReqRecover w key late => Sys2Proof.Machine.execStateReqRecover w key late s
  | .stateReqEnterReplay w key late => Sys2Proof.Machine.execStateReqEnterReplay w key late s
  | .stateReqSafe w key => Sys2Proof.Machine.execStateReqSafe w key s
  | .safeFrameInject => Sys2Proof.Machine.execSafeFrameInject s
  | .graceExpiry => Sys2Proof.Machine.execGraceExpiry s
  | .registerWrite w size a v => Sys2Proof.Machine.execRegisterWrite w size a v s
  | .lowWordRead w a stamp => Sys2Proof.Machine.execLowWordRead w a stamp s
  | .pageSoftReset w pg => Sys2Proof.Machine.execPageSoftReset w pg s
  | .pageFreeze w pg => Sys2Proof.Machine.execPageFreeze w pg s
  | .pageSnap w pg => Sys2Proof.Machine.execPageSnap w pg s
  | .eventSet w pg bits => Sys2Proof.Machine.execEventSet w pg bits s
  | .crcRecomputeDone pg => Sys2Proof.Machine.execCrcRecomputeDone pg s
  | .hostWrite a v => Sys2Proof.Machine.execHostWrite a v s
  | .postedWriteDeliver => Sys2Proof.Machine.execPostedWriteDeliver s
  | .qspiRead a n => Sys2Proof.Machine.execQspiRead a n s
  | .qspiWrite a ws => Sys2Proof.Machine.execQspiWrite a ws s
  | .qspiStatus => Sys2Proof.Machine.execQspiStatus s
  | .hostMemRead w key count => Sys2Proof.Machine.execHostMemRead w key count s
  | .hostMemWrite w key count => Sys2Proof.Machine.execHostMemWrite w key count s
  | .memCopyDone => Sys2Proof.Machine.execMemCopyDone s
  | .eventOccurrence pg bit => Sys2Proof.Machine.execEventOccurrence pg bit s
  | .eventDelivery stamp => Sys2Proof.Machine.execEventDelivery stamp s
  | .evtNotifySend => Sys2Proof.Machine.execEvtNotifySend s
  | .eventAck w twin src => Sys2Proof.Machine.execEventAck w twin src s
  | .txnBegin w key => Sys2Proof.Machine.execTxnBegin w key s
  | .txnBeginHerd w key => Sys2Proof.Machine.execTxnBeginHerd w key s
  | .txnBeginCoord w key => Sys2Proof.Machine.execTxnBeginCoord w key s
  | .txnCommit w key mode => Sys2Proof.Machine.execTxnCommit w key mode s
  | .txnRollback w key => Sys2Proof.Machine.execTxnRollback w key s
  | .txnHPrepare w key => Sys2Proof.Machine.execTxnHPrepare w key s
  | .txnHCommit w key => Sys2Proof.Machine.execTxnHCommit w key s
  | .txnHAbort w key => Sys2Proof.Machine.execTxnHAbort w key s
  | .txnHResolve w key => Sys2Proof.Machine.execTxnHResolve w key s
  | .txnAbort w key n => Sys2Proof.Machine.execTxnAbort w key n s
  | .stagingWrite w a v => Sys2Proof.Machine.execStagingWrite w a v s
  | .commitEdge m => Sys2Proof.Machine.execCommitEdge m s
  | .atEventTimeout n => Sys2Proof.Machine.execAtEventTimeout n s
  | .prepareRx p => Sys2Proof.Machine.execPrepareRx p s
  | .voteRx p => Sys2Proof.Machine.execVoteRx p s
  | .commitAtRx p => Sys2Proof.Machine.execCommitAtRx p s
  | .abortRx p => Sys2Proof.Machine.execAbortRx p s
  | .resolveRx p => Sys2Proof.Machine.execResolveRx p s
  | .guardExpiry n => Sys2Proof.Machine.execGuardExpiry n s
  | .inDoubtTimeout n => Sys2Proof.Machine.execInDoubtTimeout n s
  | .autoAbortDeadline n => Sys2Proof.Machine.execAutoAbortDeadline n s
  | .hopCmd w key slot => Sys2Proof.Machine.execHopCmd w key slot s
  | .coldLock band phaseErr => Sys2Proof.Machine.execColdLock band phaseErr s
  | .freqAcquired phaseErr => Sys2Proof.Machine.execFreqAcquired phaseErr s
  | .rootLock band finalErr => Sys2Proof.Machine.execRootLock band finalErr s
  | .refLoss => Sys2Proof.Machine.execRefLoss s
  | .clockMonitorFail => Sys2Proof.Machine.execClockMonitorFail s
  | .clockOutputUpdate n => Sys2Proof.Machine.execClockOutputUpdate n s
  | .htmAdj w adj => Sys2Proof.Machine.execHtmAdj w adj s
  | .htmStep w key go => Sys2Proof.Machine.execHtmStep w key go s
  | .stepApply => Sys2Proof.Machine.execStepApply s
  | .ppsInEdge falling => Sys2Proof.Machine.execPpsInEdge falling s
  | .ppsOutPulse => Sys2Proof.Machine.execPpsOutPulse s
  | .timeSyncRx n p => Sys2Proof.Machine.execTimeSyncRx n p s
  | .disciplineHoldover => Sys2Proof.Machine.execDisciplineHoldover s
  | .calendarSecond mv temp => Sys2Proof.Machine.execCalendarSecond mv temp s
  | .rtcSet w key => Sys2Proof.Machine.execRtcSet w key s
  | .rtcSetApply => Sys2Proof.Machine.execRtcSetApply s
  | .rtcCalRc w key => Sys2Proof.Machine.execRtcCalRc w key s
  | .rcCalDone trim => Sys2Proof.Machine.execRcCalDone trim s
  | .tcompWindow temp => Sys2Proof.Machine.execTcompWindow temp s
  | .xtalFail => Sys2Proof.Machine.execXtalFail s
  | .rtcDiscLoad => Sys2Proof.Machine.execRtcDiscLoad s
  | .agingUpdate => Sys2Proof.Machine.execAgingUpdate s
  | .afeCal w key half => Sys2Proof.Machine.execAfeCal w key half s
  | .modCalDone m ofs g0 g1 g2 g3 g4 => Sys2Proof.Machine.execModCalDone m ofs g0 g1 g2 g3 g4 s
  | .afeRotate w key lch spare => Sys2Proof.Machine.execAfeRotate w key lch spare s
  | .afeResult n raw partner overload sameCycle => Sys2Proof.Machine.execAfeResult n raw partner overload sameCycle s
  | .settleExpiry n => Sys2Proof.Machine.execSettleExpiry n s
  | .seqGroupEnable w g => Sys2Proof.Machine.execSeqGroupEnable w g s
  | .seqGroupDisable w g => Sys2Proof.Machine.execSeqGroupDisable w g s
  | .sampleFrameDelivery => Sys2Proof.Machine.execSampleFrameDelivery s
  | .xmdControlOutput ch wave sameCycle => Sys2Proof.Machine.execXmdControlOutput ch wave sameCycle s
  | .protectionFilterChange ch wave => Sys2Proof.Machine.execProtectionFilterChange ch wave s
  | .xmdLos ch => Sys2Proof.Machine.execXmdLos ch s
  | .xmdLosClear ch before => Sys2Proof.Machine.execXmdLosClear ch before s
  | .manchesterLock ch => Sys2Proof.Machine.execManchesterLock ch s
  | .acmpChange n uv starting => Sys2Proof.Machine.execAcmpChange n uv starting s
  | .blankWindowEnd trip n => Sys2Proof.Machine.execBlankWindowEnd trip n s
  | .acmpSampleCompare n uv => Sys2Proof.Machine.execAcmpSampleCompare n uv s
  | .acmpSelftest w key mask => Sys2Proof.Machine.execAcmpSelftest w key mask s
  | .acmpSelftestStep pass => Sys2Proof.Machine.execAcmpSelftestStep pass s
  | .strSwtrig w trig => Sys2Proof.Machine.execStrSwtrig w trig s
  | .rgTrigger g => Sys2Proof.Machine.execRgTrigger g s
  | .trigWindowEnd g => Sys2Proof.Machine.execTrigWindowEnd g s
  | .rgDispatch g ecc => Sys2Proof.Machine.execRgDispatch g ecc s
  | .sectionIssue n ecc => Sys2Proof.Machine.execSectionIssue n ecc s
  | .sectionResult n fault => Sys2Proof.Machine.execSectionResult n fault s
  | .outputPortWrite port lat => Sys2Proof.Machine.execOutputPortWrite port lat s
  | .rgComplete g cycles ecc => Sys2Proof.Machine.execRgComplete g cycles ecc s
  | .strClrStats w key => Sys2Proof.Machine.execStrClrStats w key s
  | .slotWindowWrite w slot v => Sys2Proof.Machine.execSlotWindowWrite w slot v s
  | .budgetRecompute => Sys2Proof.Machine.execBudgetRecompute s
  | .graphCrcRecompute => Sys2Proof.Machine.execGraphCrcRecompute s
  | .pacerHold w key ch => Sys2Proof.Machine.execPacerHold w key ch s
  | .pacerRelease w key ch => Sys2Proof.Machine.execPacerRelease w key ch s
  | .pacerEmergency w key ch => Sys2Proof.Machine.execPacerEmergency w key ch s
  | .pacerClearEmergency w key ch => Sys2Proof.Machine.execPacerClearEmergency w key ch s
  | .pacerPreset w key ch => Sys2Proof.Machine.execPacerPreset w key ch s
  | .bptChannelEnable w ch => Sys2Proof.Machine.execBptChannelEnable w ch s
  | .bptChannelDisable w ch => Sys2Proof.Machine.execBptChannelDisable w ch s
  | .bptHold w key ch => Sys2Proof.Machine.execBptHold w key ch s
  | .bptRelease w key ch => Sys2Proof.Machine.execBptRelease w key ch s
  | .bptRestart w key ch => Sys2Proof.Machine.execBptRestart w key ch s
  | .hrdHoldTimerExpiry block => Sys2Proof.Machine.execHrdHoldTimerExpiry block s
  | .hrdClearTrip w key => Sys2Proof.Machine.execHrdClearTrip w key s
  | .hrdClearStats w key => Sys2Proof.Machine.execHrdClearStats w key s
  | .islEntryHit vt k => Sys2Proof.Machine.execIslEntryHit vt k s
  | .islClear w key => Sys2Proof.Machine.execIslClear w key s
  | .rtsTimer => Sys2Proof.Machine.execRtsTimer s
  | .impWindowDone => Sys2Proof.Machine.execImpWindowDone s
  | .impStart w key => Sys2Proof.Machine.execImpStart w key s
  | .impStop w key => Sys2Proof.Machine.execImpStop w key s
  | .impRequest w key => Sys2Proof.Machine.execImpRequest w key s
  | .impClearIsland w key => Sys2Proof.Machine.execImpClearIsland w key s
  | .probeReqRx p => Sys2Proof.Machine.execProbeReqRx p s
  | .probeGrantIssue p start len => Sys2Proof.Machine.execProbeGrantIssue p start len s
  | .probeGrantRx p => Sys2Proof.Machine.execProbeGrantRx p s
  | .probeEndRx p => Sys2Proof.Machine.execProbeEndRx p s
  | .grantStart => Sys2Proof.Machine.execGrantStart s
  | .grantEnd => Sys2Proof.Machine.execGrantEnd s
  | .timebaseStart w n => Sys2Proof.Machine.execTimebaseStart w n s
  | .timebaseStop w n => Sys2Proof.Machine.execTimebaseStop w n s
  | .periodStart n => Sys2Proof.Machine.execPeriodStart n s
  | .peakEvent n => Sys2Proof.Machine.execPeakEvent n s
  | .compareEdge k rise => Sys2Proof.Machine.execCompareEdge k rise s
  | .deadTimeExpiry k high => Sys2Proof.Machine.execDeadTimeExpiry k high s
  | .minpwHoldExpiry k => Sys2Proof.Machine.execMinpwHoldExpiry k s
  | .shadowWrite w k reg v => Sys2Proof.Machine.execShadowWrite w k reg v s
  | .pwmcArm w key k => Sys2Proof.Machine.execPwmcArm w key k s
  | .pwmcDiscard w key k => Sys2Proof.Machine.execPwmcDiscard w key k s
  | .maskStep w key coincident => Sys2Proof.Machine.execMaskStep w key coincident s
  | .maskSet w key index => Sys2Proof.Machine.execMaskSet w key index s
  | .maskApply => Sys2Proof.Machine.execMaskApply s
  | .tripSourceAssert k starting => Sys2Proof.Machine.execTripSourceAssert k starting s
  | .tripSourceDeassert k starting => Sys2Proof.Machine.execTripSourceDeassert k starting s
  | .tripClear w key m => Sys2Proof.Machine.execTripClear w key m s
  | .gateCmdRx p => Sys2Proof.Machine.execGateCmdRx p s
  | .gateEntryExecute n => Sys2Proof.Machine.execGateEntryExecute n s
  | .gateCmdTimeout n arrived => Sys2Proof.Machine.execGateCmdTimeout n arrived s
  | .legacyPinChange n pul pen => Sys2Proof.Machine.execLegacyPinChange n pul pen s
  | .dtMinExpiry n high => Sys2Proof.Machine.execDtMinExpiry n high s
  | .gfltAssert n asserted => Sys2Proof.Machine.execGfltAssert n asserted s
  | .gfltSyncFault n => Sys2Proof.Machine.execGfltSyncFault n s
  | .grdyLoss n => Sys2Proof.Machine.execGrdyLoss n s
  | .grdyReady n => Sys2Proof.Machine.execGrdyReady n s
  | .supOkChange n => Sys2Proof.Machine.execSupOkChange n s
  | .retryWaitEnd n => Sys2Proof.Machine.execRetryWaitEnd n s
  | .retryWindowEnd n => Sys2Proof.Machine.execRetryWindowEnd n s
  | .gdiClear w key n => Sys2Proof.Machine.execGdiClear w key n s
  | .gdiInjectFlt w key n => Sys2Proof.Machine.execGdiInjectFlt w key n s
  | .gdiInjectShoot w key n => Sys2Proof.Machine.execGdiInjectShoot w key n s
  | .gdiInjectRdy w key n => Sys2Proof.Machine.execGdiInjectRdy w key n s
  | .gdiClrStats w key n => Sys2Proof.Machine.execGdiClrStats w key n s
  | .refreshNotchEnd n => Sys2Proof.Machine.execRefreshNotchEnd n s
  | .meterTick p => Sys2Proof.Machine.execMeterTick p s
  | .mtrClear w key p => Sys2Proof.Machine.execMtrClear w key p s
  | .mtrSaveNow w key => Sys2Proof.Machine.execMtrSaveNow w key s
  | .mtrCoClear w key => Sys2Proof.Machine.execMtrCoClear w key s
  | .periodicSave => Sys2Proof.Machine.execPeriodicSave s
  | .saveComplete ok => Sys2Proof.Machine.execSaveComplete ok s
  | .powerFailSaveDone => Sys2Proof.Machine.execPowerFailSaveDone s
  | .coSecond codes => Sys2Proof.Machine.execCoSecond codes s
  | .laneEnable w n => Sys2Proof.Machine.execLaneEnable w n s
  | .laneDisable w n => Sys2Proof.Machine.execLaneDisable w n s
  | .synthLock q ecm => Sys2Proof.Machine.execSynthLock q ecm s
  | .synthUnlock q ecm => Sys2Proof.Machine.execSynthUnlock q ecm s
  | .signalDetect n mlos => Sys2Proof.Machine.execSignalDetect n mlos s
  | .trainingFrameRx n request status crc => Sys2Proof.Machine.execTrainingFrameRx n request status crc s
  | .adaptWaitEnd n codes => Sys2Proof.Machine.execAdaptWaitEnd n codes s
  | .trainTimeout n => Sys2Proof.Machine.execTrainTimeout n s
  | .blockLock n => Sys2Proof.Machine.execBlockLock n s
  | .lockTimeout n => Sys2Proof.Machine.execLockTimeout n s
  | .capsBlockRx n version id plane ln ack txPs rxPs => Sys2Proof.Machine.execCapsBlockRx n version id plane ln ack txPs rxPs s
  | .capsTimeout n => Sys2Proof.Machine.execCapsTimeout n s
  | .holdoffExpiry n => Sys2Proof.Machine.execHoldoffExpiry n s
  | .signalLoss n mlos => Sys2Proof.Machine.execSignalLoss n mlos s
  | .blockLockLoss n => Sys2Proof.Machine.execBlockLockLoss n s
  | .laneRetrain w key n => Sys2Proof.Machine.execLaneRetrain w key n s
  | .laneClrStats w key n => Sys2Proof.Machine.execLaneClrStats w key n s
  | .fomRemeasure n codes => Sys2Proof.Machine.execFomRemeasure n codes s
  | .linkAckRx n seq => Sys2Proof.Machine.execLinkAckRx n seq s
  | .linkNakRx n seq => Sys2Proof.Machine.execLinkNakRx n seq s
  | .linkAckTimeout n advanced => Sys2Proof.Machine.execLinkAckTimeout n advanced s
  | .eyeScanStart w n prescale vofs hofs => Sys2Proof.Machine.execEyeScanStart w n prescale vofs hofs s
  | .eyeScanDone n errs => Sys2Proof.Machine.execEyeScanDone n errs s
  | .patInject w key n => Sys2Proof.Machine.execPatInject w key n s
  | .patClr w key n => Sys2Proof.Machine.execPatClr w key n s
  | .patSync n => Sys2Proof.Machine.execPatSync n s
  | .patSyncLoss n bits errs => Sys2Proof.Machine.execPatSyncLoss n bits errs s
  | .ethLinkChange e blockLock hiBer fecAlign => Sys2Proof.Machine.execEthLinkChange e blockLock hiBer fecAlign s
  | .ethFrameRx e frame fcsOk => Sys2Proof.Machine.execEthFrameRx e frame fcsOk s
  | .ethTxKick w e => Sys2Proof.Machine.execEthTxKick w e s
  | .ethFrameSent e => Sys2Proof.Machine.execEthFrameSent e s
  | .modulePoll n bytes => Sys2Proof.Machine.execModulePoll n bytes s
  | .modCmdRead w key n dev offset => Sys2Proof.Machine.execModCmdRead w key n dev offset s
  | .modCmdWrite w key n dev offset => Sys2Proof.Machine.execModCmdWrite w key n dev offset s
  | .modAccessDone n ack data => Sys2Proof.Machine.execModAccessDone n ack data s
  | .modulePresenceChange n present => Sys2Proof.Machine.execModulePresenceChange n present s
  | .packetRx n seq p crc => Sys2Proof.Machine.execPacketRx n seq p crc s
  | .packetSend n => Sys2Proof.Machine.execPacketSend n s
  | .creditRx n vc k => Sys2Proof.Machine.execCreditRx n vc k s
  | .announceSend => Sys2Proof.Machine.execAnnounceSend s
  | .announceRx n p => Sys2Proof.Machine.execAnnounceRx n p s
  | .rootClaim plane => Sys2Proof.Machine.execRootClaim plane s
  | .rootSeat plane => Sys2Proof.Machine.execRootSeat plane s
  | .rootLost plane heard => Sys2Proof.Machine.execRootLost plane heard s
  | .idReqSend plane => Sys2Proof.Machine.execIdReqSend plane s
  | .idReqRx plane p => Sys2Proof.Machine.execIdReqRx plane p s
  | .idGrantRx p => Sys2Proof.Machine.execIdGrantRx p s
  | .topoReportSend => Sys2Proof.Machine.execTopoReportSend s
  | .topoReportRx plane p => Sys2Proof.Machine.execTopoReportRx plane p s
  | .routeTableWrite w k v => Sys2Proof.Machine.execRouteTableWrite w k v s
  | .bankClear w key => Sys2Proof.Machine.execBankClear w key s
  | .timeSyncSend => Sys2Proof.Machine.execTimeSyncSend s
  | .delayReqSend => Sys2Proof.Machine.execDelayReqSend s
  | .delayReqRx n p => Sys2Proof.Machine.execDelayReqRx n p s
  | .delayRespRx n p => Sys2Proof.Machine.execDelayRespRx n p s
  | .pubSlotStart k ecc => Sys2Proof.Machine.execPubSlotStart k ecc s
  | .pubRx p => Sys2Proof.Machine.execPubRx p s
  | .subStale k arrived => Sys2Proof.Machine.execSubStale k arrived s
  | .regReqRx p => Sys2Proof.Machine.execRegReqRx p s
  | .regRespRx p => Sys2Proof.Machine.execRegRespRx p s
  | .undelivRx p => Sys2Proof.Machine.execUndelivRx p s
  | .devResetRx p => Sys2Proof.Machine.execDevResetRx p s
  | .evtNotifyRx p => Sys2Proof.Machine.execEvtNotifyRx p s
  | .dataRx p => Sys2Proof.Machine.execDataRx p s
  | .fwReqRx p => Sys2Proof.Machine.execFwReqRx p s
  | .fwRespRx p => Sys2Proof.Machine.execFwRespRx p s
  | .sesHelloRx p => Sys2Proof.Machine.execSesHelloRx p s
  | .sesReplyRx p => Sys2Proof.Machine.execSesReplyRx p s
  | .sesFinishRx p => Sys2Proof.Machine.execSesFinishRx p s
  | .sesKick w twin => Sys2Proof.Machine.execSesKick w twin s
  | .sesOpen w key n => Sys2Proof.Machine.execSesOpen w key n s
  | .sesClose w key n => Sys2Proof.Machine.execSesClose w key n s
  | .sessionExpiry n arrived => Sys2Proof.Machine.execSessionExpiry n arrived s
  | .musRestart w key => Sys2Proof.Machine.execMusRestart w key s
  | .musLeave w key => Sys2Proof.Machine.execMusLeave w key s
  | .musRecompute w key => Sys2Proof.Machine.execMusRecompute w key s
  | .musReplace w key => Sys2Proof.Machine.execMusReplace w key s
  | .musForget w key => Sys2Proof.Machine.execMusForget w key s
  | .sinContactChange k a b => Sys2Proof.Machine.execSinContactChange k a b s
  | .discrepancyExpiry k => Sys2Proof.Machine.execDiscrepancyExpiry k s
  | .sinDelayExpiry k => Sys2Proof.Machine.execSinDelayExpiry k s
  | .shdStartupTestDone pass => Sys2Proof.Machine.execShdStartupTestDone pass s
  | .sgrApply w key => Sys2Proof.Machine.execSgrApply w key s
  | .sgrRemove w key => Sys2Proof.Machine.execSgrRemove w key s
  | .newChallenge w key => Sys2Proof.Machine.execNewChallenge w key s
  | .credVerify w key => Sys2Proof.Machine.execCredVerify w key s
  | .credVerifyDone sigOk => Sys2Proof.Machine.execCredVerifyDone sigOk s
  | .endCred w key => Sys2Proof.Machine.execEndCred w key s
  | .credExpiry => Sys2Proof.Machine.execCredExpiry s
  | .sealChange isOpen => Sys2Proof.Machine.execSealChange isOpen s
  | .sealCrcCapture => Sys2Proof.Machine.execSealCrcCapture s
  | .offPulseStart k => Sys2Proof.Machine.execOffPulseStart k s
  | .offPulseEnd k low => Sys2Proof.Machine.execOffPulseEnd k low s
  | .soutTest w key m => Sys2Proof.Machine.execSoutTest w key m s
  | .soutSettleEnd k rb => Sys2Proof.Machine.execSoutSettleEnd k rb s
  | .readbackFailure k rb => Sys2Proof.Machine.execReadbackFailure k rb s
  | .sbtTripPulseEnd k => Sys2Proof.Machine.execSbtTripPulseEnd k s
  | .safeTxPeriod k => Sys2Proof.Machine.execSafeTxPeriod k s
  | .safeCopyRx plane p => Sys2Proof.Machine.execSafeCopyRx plane p s
  | .scomWatchdogExpiry k arrived => Sys2Proof.Machine.execScomWatchdogExpiry k arrived s
  | .planeWatchdog k silent arrived => Sys2Proof.Machine.execPlaneWatchdog k silent arrived s
  | .logWrite readBackOk => Sys2Proof.Machine.execLogWrite readBackOk s
  | .checkpoint t stamp lag x y => Sys2Proof.Machine.execCheckpoint t stamp lag x y s
  | .deepCheckpoint t stamp lag sx sy hx hy => Sys2Proof.Machine.execDeepCheckpoint t stamp lag sx sy hx hy s
  | .twinStore t space a data mask stamp => Sys2Proof.Machine.execTwinStore t space a data mask stamp s
  | .releaseEntry t => Sys2Proof.Machine.execReleaseEntry t s
  | .dcuVerdict t k x y => Sys2Proof.Machine.execDcuVerdict t k x y s
  | .warmRestartRun t => Sys2Proof.Machine.execWarmRestartRun t s
  | .dcuSelftest t xd yd xe ye => Sys2Proof.Machine.execDcuSelftest t xd yd xe ye s
  | .dcuSelftestMissed t => Sys2Proof.Machine.execDcuSelftestMissed t s
  | .dcuInjectOutput w key t => Sys2Proof.Machine.execDcuInjectOutput w key t s
  | .dcuInjectLatent w key t => Sys2Proof.Machine.execDcuInjectLatent w key t s
  | .dcuInjectDisagree w key t => Sys2Proof.Machine.execDcuInjectDisagree w key t s
  | .dcuInjectStmiss w key t => Sys2Proof.Machine.execDcuInjectStmiss w key t s
  | .lapRingWrite => Sys2Proof.Machine.execLapRingWrite s
  | .lapTimeRecord => Sys2Proof.Machine.execLapTimeRecord s
  | .hwAnchor => Sys2Proof.Machine.execHwAnchor s
  | .twinAnchorDone t => Sys2Proof.Machine.execTwinAnchorDone t s
  | .lapFreeze w key => Sys2Proof.Machine.execLapFreeze w key s
  | .lapResume w key => Sys2Proof.Machine.execLapResume w key s
  | .lapArm w key => Sys2Proof.Machine.execLapArm w key s
  | .lapDisarm w key => Sys2Proof.Machine.execLapDisarm w key s
  | .lapArmExpiry => Sys2Proof.Machine.execLapArmExpiry s
  | .lapPostEnd => Sys2Proof.Machine.execLapPostEnd s
  | .lapImport w key head => Sys2Proof.Machine.execLapImport w key head s
  | .replayStart w key => Sys2Proof.Machine.execReplayStart w key s
  | .replayCont w key => Sys2Proof.Machine.execReplayCont w key s
  | .replayBreak => Sys2Proof.Machine.execReplayBreak s
  | .replayEnd => Sys2Proof.Machine.execReplayEnd s
  | .vcrTargetWrite w v => Sys2Proof.Machine.execVcrTargetWrite w v s
  | .phaseAdd i0 i1 i2 i3 => Sys2Proof.Machine.execPhaseAdd i0 i1 i2 i3 s
  | .phaseStep i0 i1 i2 i3 => Sys2Proof.Machine.execPhaseStep i0 i1 i2 i3 s
  | .phaseShed i0 i1 i2 i3 => Sys2Proof.Machine.execPhaseShed i0 i1 i2 i3 s
  | .phaseRotate => Sys2Proof.Machine.execPhaseRotate s
  | .phaseOverTemp n temp => Sys2Proof.Machine.execPhaseOverTemp n temp s
  | .chargeEnd => Sys2Proof.Machine.execChargeEnd s
  | .chargeRestart => Sys2Proof.Machine.execChargeRestart s
  | .liProtection k => Sys2Proof.Machine.execLiProtection k s
  | .liProtectionRelease k => Sys2Proof.Machine.execLiProtectionRelease k s
  | .roosterStart cap => Sys2Proof.Machine.execRoosterStart cap s
  | .harvestSourceSelect teg vib => Sys2Proof.Machine.execHarvestSourceSelect teg vib s
  | .harvestFocSample mv uw uj => Sys2Proof.Machine.execHarvestFocSample mv uw uj s
  | .wakeRequest src => Sys2Proof.Machine.execWakeRequest src s
  | .beaconFrameEnd => Sys2Proof.Machine.execBeaconFrameEnd s
  | .svpAckRx seq => Sys2Proof.Machine.execSvpAckRx seq s
  | .svpDataRx data => Sys2Proof.Machine.execSvpDataRx data s
  | .rxWindowEnd => Sys2Proof.Machine.execRxWindowEnd s
  | .testBeacon w key => Sys2Proof.Machine.execTestBeacon w key s
  | .survClrStats w key => Sys2Proof.Machine.execSurvClrStats w key s
  | .survClrRx w key => Sys2Proof.Machine.execSurvClrRx w key s
  | .bootSurvivalRestore straps hostSel => Sys2Proof.Machine.execBootSurvivalRestore straps hostSel s
  | .bootImageVerify readOk sigOk => Sys2Proof.Machine.execBootImageVerify readOk sigOk s
  | .twinsStart t => Sys2Proof.Machine.execTwinsStart t s
  | .pwmReady t => Sys2Proof.Machine.execPwmReady t s
  | .bootAlive w key => Sys2Proof.Machine.execBootAlive w key s
  | .aliveTimeout t => Sys2Proof.Machine.execAliveTimeout t s
  | .bootConfirm w key => Sys2Proof.Machine.execBootConfirm w key s
  | .hostGo w key => Sys2Proof.Machine.execHostGo w key s
  | .hostTimeout => Sys2Proof.Machine.execHostTimeout s
  | .liveStageDone readOk sigOk => Sys2Proof.Machine.execLiveStageDone readOk sigOk s
  | .liveHalt => Sys2Proof.Machine.execLiveHalt s
  | .flashCommand w key opcode b addr wr => Sys2Proof.Machine.execFlashCommand w key opcode b addr wr s
  | .flashCommandDone data prog => Sys2Proof.Machine.execFlashCommandDone data prog s
  | .secVerifyImage w key b => Sys2Proof.Machine.execSecVerifyImage w key b s
  | .secSign w key => Sys2Proof.Machine.execSecSign w key s
  | .secVerifyChain w key arg => Sys2Proof.Machine.execSecVerifyChain w key arg s
  | .secRandom w key => Sys2Proof.Machine.execSecRandom w key s
  | .arbAdvance w key => Sys2Proof.Machine.execArbAdvance w key s
  | .genId w key => Sys2Proof.Machine.execGenId w key s
  | .revokeRoot w key slot => Sys2Proof.Machine.execRevokeRoot w key slot s
  | .secCommandDone readOk sigOk chainOk validOk => Sys2Proof.Machine.execSecCommandDone readOk sigOk chainOk validOk s
  | .otpGo w key go word => Sys2Proof.Machine.execOtpGo w key go word s
  | .otpProgramDone blown => Sys2Proof.Machine.execOtpProgramDone blown s
  | .debugAccessOpen ok rights => Sys2Proof.Machine.execDebugAccessOpen ok rights s
  | .memUncorrectable dram ofs => Sys2Proof.Machine.execMemUncorrectable dram ofs s
  | .vauxLoss => Sys2Proof.Machine.execVauxLoss s
  | .slewDone => Sys2Proof.Machine.execSlewDone s
  | .otWarnClear n temp => Sys2Proof.Machine.execOtWarnClear n temp s
  | .roosterRunsAgain => Sys2Proof.Machine.execRoosterRunsAgain s
  | .ppsOutPulseEnd => Sys2Proof.Machine.execPpsOutPulseEnd s
  | .chargeTemperatureWindow temp => Sys2Proof.Machine.execChargeTemperatureWindow temp s

end Sys2Proof.Machine
end

