-- ==== Sys2Proof/Machine/Tick.lean ====
section
/-!
DEFINITION. What the block does when no command waits: a CK_PER edge passes (log entry 1, DESIGN CHOICE), and a running replay takes its next record
(R571).
-/
namespace Sys2Proof.Machine
open Sys2Proof

/-! ### Replayed records (R571) -/

/-- The packet whose header and payload words are `ws` (R454). -/
def packetOf (ws : List Nat) : Packet :=
  let h := fun i => nth ws i 0
  { vc := BitVec.ofNat 3 (h 0 / 2 ^ 29), dn := nbit (h 0) 28, cast := BitVec.ofNat 2 (h 0 / 2 ^ 26), enc := nbit (h 0) 25,
    hops := BitVec.ofNat 6 (h 0 / 2 ^ 17), dest := BitVec.ofNat 15 (h 0), kind := BitVec.ofNat 8 (h 1 / 2 ^ 24),
    ses := BitVec.ofNat 8 (h 1 / 2 ^ 16), src := BitVec.ofNat 15 (h 1), hopLimit := BitVec.ofNat 6 (h 2 / 2 ^ 22),
    pad := BitVec.ofNat 6 (h 2 / 2 ^ 16), tag := BitVec.ofNat 16 (h 2), age := BitVec.ofNat 32 (h 3),
    words := ((ws.drop 4).take (8 * (h 2 / 2 ^ 28 % 16))).map wd }

/-- The slot that the sample-bus source `j` writes: an XMD channel's own; of an AFE channel the slot of its present entry where it
holds that, else the lowest it holds. -/
def Chip.frameSlot (c : Chip) (j : Nat) : Option Nat :=
  if j < 24 then
    let cf := c.rd (R.XMD_CH_CF (j / 12) (j % 12))
    let k := fget cf F.XMD_CH_CF_SLOT
    if fget cf F.XMD_CH_CF_SLOT_EN = 1 ∧ c.holds (Cl.xmd j) k = true then some k else none
  else
    let n := j - 24
    let k := fget (c.afe n).hi F.SEQ_E_HI0_SLOT
    if c.holds (Cl.afe n) k then some k
    else ((c.str.owners.filter fun e => e.2 = Cl.afe n).map (·.1)).head?

/-- A recorded sample frame reaches its slot and the trigger logic. -/
def Chip.frameReplay (c : Chip) (j : Nat) (w : Word) : Chip :=
  match c.frameSlot j with
  | some k => (c.putSlot k w none).frameTrig k
  | none => c

/-- A recorded fabric delivery: what the slots, the GDI queues, TXN, IMP and the register engine took; the twins take theirs from
their own records. Of register pairs only those of the deterministic pages act. -/
def State.fabReplay (s : State) (sub : Nat) (p : Packet) : State :=
  let det := fun (x : Nat × Word) => detPage (pageBase (x.1 - x.1 % 2 - 0x40000000)) && decide (0x40000000 ≤ x.1)
  match sub, p.kind.toNat with
  | 2, _ => s.onChip fun c => c.pubTake p
  | 3, _ => s.onChip fun c => c.gateCmdTake p
  | 4, 0x22 => s.onChip fun c => c.prepareTake p
  | 4, 0x23 => s.onChip fun c => c.voteRx p
  | 4, 0x13 => s.onChip fun c => c.commitAtRx p
  | 4, 0x14 => s.onChip fun c => c.abortRx p
  | 4, 0x15 => s.onChip fun c => c.resolveRx p
  | 5, 0x16 => s.onChip fun c => c.probeReqTake p
  | 5, 0x17 => s.onChip fun c => c.probeGrantTake p
  | 5, 0x18 => s.onChip fun c => c.probeEndTake p
  | 6, _ => (s.regPairsDo (Fin.ofNat 256 p.ses.toNat) ((regPairs p).filter det)).1
  | _, _ => s

/-- A recorded event: a delivery to a twin that replays, forwarded through its IFQ (R572), a Stride trigger, or an occurrence outside the
domain that acts on a transaction, the mask or the Pacer. -/
def Chip.eventReplay (c : Chip) (sub n stamp : Nat) : Chip :=
  match sub with
  | 0 | 1 =>
    let t := decide (sub = 1)
    if decide (c.twState t = Tw.replay) && !c.twStalled t then c.ifqPut t ⟨stamp, true, n, 0⟩ else c
  | 2 => c.eventTrig (c.evr n F.EVR_SRC_STR_RG)
  | 3 =>
    if (match sourceEv n with | some e => detPage e.1 | none => true) then c
    else
      forN 16 (fun k c => c.pacerTake (fun b i c => c.raise b i) n k) ((c.txnArrival n).maskTake n)
  | _ => c

/-- The level inputs of GDI instance `n` become what bitmap `m` says. -/
def Chip.gdiLevels (c : Chip) (m : Nat) (n : Fin 16) : Chip :=
  let bit := fun j => nbit m (68 + 16 * j + n.val)
  let is := fun (c : Chip) x => c.is (R.GDI_STAT n) x
  let c : Chip := if is c F.GDI_STAT_GFLT = bit 0 then c else doGfltAssert n (bit 0) c
  let c : Chip := if is c F.GDI_STAT_GRDY = bit 1 then c else if bit 1 then doGrdyReady n c else doGrdyLoss n c
  let c : Chip := if is c F.GDI_STAT_PUL = bit 2 ∧ is c F.GDI_STAT_PEN = bit 3 then c else doLegacyPinChange n (bit 2) (bit 3) c
  let c : Chip := if is c F.GDI_STAT_SUP_OK = bit 4 then c else c.supOkTo n (bit 4)
  if is c F.GDI_STAT_SHD_OFF = bit 5 then c else (c.flag (R.GDI_STAT n) F.GDI_STAT_SHD_OFF (bit 5)).gdiOut n

/-- A recorded change of the level inputs, in the order of `Chip.levels`: the protection and comparator outputs, the pins TRIP_IN
through the sources that follow them, and the inputs of the gate-drive instances. -/
def Chip.levelReplay (c : Chip) (m : Nat) : Chip :=
  let c : Chip := forN 24 (fun j c => c.updXmd j fun x => { x with hi := nbit m j, lo := nbit m (24 + j) }) c
  let c : Chip := forN 16 (fun j c => c.updAcmp j fun x => { x with toTrip := nbit m (48 + j) }) c
  let c : Chip := forN 16 (fun j c =>
    let k : Fin 16 := Fin.ofNat 16 j
    let sel := c.f (R.TRIP_SRC_CFG j) F.TRIP_SRC_CFG_SEL
    if sel < 0x58 ∨ 0x5C ≤ sel then c
    else if nbit m (64 + (sel - 0x58)) then doTripSourceAssert k false c
    else doTripSourceDeassert k false c) c
  forN 16 (fun n c => c.gdiLevels m (Fin.ofNat 16 n)) c

/-- Record `r` of the ring acts as it did when it was taken; a long record's header gives herd time. -/
def State.replayRec (s : State) (r : LapRec) : State :=
  let d := fun i => nth r.data i 0
  if r.short then s.onChip fun c => c.frameReplay r.kind (wd (d 0))
  else
    let s := s.onChip fun c => c.updTime fun t => { t with ht := r.ht * 2 ^ 48 }
    match r.kind with
    | 0x05 => s.fabReplay r.sub (packetOf (r.data.flatMap words64))
    | 0x06 =>
      let w : Writer := ⟨if r.sub = 5 then .debug else .host, 0⟩
      r.data.foldl (fun s x => s.writeAt w 2 (x % 2 ^ 32) (wd (x / 2 ^ 32))) s
    | 0x07 => s.onChip fun c => c.eventReplay r.sub (d 0) (d 1)
    | 0x09 => s.writeHalves (twinWriter (decide (r.sub = 1))) (d 1 - 0x40000000) (d 2) (d 3)
    | 0x0A => s.onChip fun c => c.levelReplay (d 0 + 2 ^ 64 * (d 1 + 2 ^ 64 * (d 2 + 2 ^ 64 * d 3)))
    | 0x0B => s.onChip fun c =>
      (c.wrN R.HTM_RATE (d 2)).updTime fun t => { t with ht := d 0 + 2 ^ 64 * (d 1 % 2 ^ 48), adjRem := sgn 64 (d 3) * 2 ^ 40 }
    | _ => s

/-! ### A CK_PER edge -/

/-- Herd time advances (R119), a hop's phase moves (R108), each running timebase counts (R307), and a bank switch that waits starts where it
can (R469). -/
def Chip.edge (c : Chip) : Chip :=
  if c.time.gated then c
  else
    let c : Chip := (c.updTime fun t => { t with cyc := t.cyc + 1 }).clocked P.HTM Chip.htEdge
    let c : Chip := c.phaseEdge
    let c : Chip := c.clocked P.PWT fun c => forN 4 (fun n c => if c.tbRuns n then c.countWrap (R.PWT_TB_CNT n) else c) c
    c.nextSwitch

/-- The edge of a replay: herd time that reaches LAP.BREAK holds the replay for REPLAY_BREAK (R573). -/
def Chip.replayEdge (c : Chip) : Chip :=
  let t := c.htNs
  let c : Chip := c.edge
  let b := c.rd64 (R.LAP_BREAK 0)
  if c.is R.LAP_REPLAY_CFG F.LAP_REPLAY_CFG_BREAK_EN && decide (t < b) && decide (b ≤ c.htNs) then
    c.updRed fun x => { x with brk := true }
  else c

/-- A replay goes on: the next record where its herd time has come, else an edge; nothing once it has met its break or its end. -/
def State.replayTick (s : State) : State :=
  let c := s.chip
  if c.red.brk || s.replayOver.isSome then s
  else
    let r := s.mem.lapAt c.red.pos c.red.rht
    if r.ht ≤ c.htNs then
      (s.onChip fun c => c.updRed fun x => { x with pos := (x.pos + r.bytes) % ringSize, rht := r.ht }).replayRec r
    else s.onChip Chip.replayEdge

/-- What a step does on an empty queue (log entry 1, DESIGN CHOICE): an edge passes in a powered device; a paused replay holds everything. -/
def State.tick (s : State) : State :=
  if !s.chip.powered || decide (s.chip.mode = .replay ∧ s.chip.lapState = Ls.paused) then s
  else if s.chip.mode = .replay ∧ s.chip.lapState = Ls.replaying then s.replayTick
  else s.onChip Chip.edge

end Sys2Proof.Machine
end

