-- ==== Sys2Proof/Machine/Step.lean ====
section
/-!
DEFINITION. The step: the command at the front of the queue takes effect with the rest of the queue behind it; with no command waiting an
edge of CK_PER passes (log entry 1, DESIGN CHOICE).
-/
namespace Sys2Proof.Machine
open Sys2Proof

/-- One step. -/
def step (s : State) : Host.Outcome State Fault Refusal :=
  match s.pending with
  | i :: rest => Sys2Proof.Machine.exec i { s with pending := rest }
  | [] => .next s.tick

/-- No row of spec/opcode_table.json gives bits, so no word spells a command and the queue stays as it is (log entry 5, DEDUCED). -/
def State.withFetchWord (s : State) (nbits w : Nat) : State :=
  match Sys2Proof.decodeTableWord nbits w with
  | some i => { s with pending := i :: s.pending }
  | none => s

end Sys2Proof.Machine
end

