-- ==== Sys2Proof/Safety.lean ====
section
/-!
DEFINITION. The words that the statements are made of: what a command's effect is, who may act, the canonical form of the memories, and
the registers that an event occurrence may touch.
-/
namespace Sys2Proof.Machine
open Sys2Proof

/-- Command `i` completes at `s`: exec answers a next state, and `P` holds of it. -/
def Does (i : Instr) (s : State) (P : State → Prop) : Prop := ∃ t, Sys2Proof.Machine.exec i s = .next t ∧ P t

/-- A step is safe where it answers a next state: it ends in no fault and in no refusal. -/
def SafeStep (s : State) : Prop := ∃ t, Sys2Proof.Machine.step s = .next t

/-- Nothing but the chip has changed: every memory and the queue of waiting commands are as before. -/
def Quiet (s t : State) : Prop := t.mem = s.mem ∧ t.pending = s.pending

/-- The whole device is powered, its working clocks run, and the block of the page at `b` does not stand still (R20, R55, R57, R103). -/
abbrev Awake (b : Nat) (s : State) : Prop := s.chip.powered = true ∧ s.chip.time.gated = false ∧ s.chip.halted b = false

/-- The whole device is powered, its working clocks run, and `w` is not barred from the register at `k` (R103, R634, R637). -/
abbrev May (w : Writer) (k : Nat) (s : State) : Prop :=
  s.chip.powered = true ∧ s.chip.time.gated = false ∧ s.chip.barred k w.ini.code = none

/-- A word `v` that `w` writes to the register at `k` takes effect at once: `w` is not barred, no transaction stages or owns it, and nothing
that the device holds speaks against it (R71, R73). -/
abbrev Direct (w : Writer) (k : Nat) (v : Word) (s : State) : Prop :=
  May w k s ∧ s.chip.stager w = none ∧ s.chip.holder k = none
    ∧ s.chip.deny (s.chip.wr k (s.chip.nextWord k v)) w.ini.code k = none

/-- Every memory is in its canonical form: offsets strictly rising, no entry equal to what an unlisted offset reads as. -/
def Mem.wf (m : Mem) : Bool :=
  SMap.wf unwritten m.sram && SMap.wf unwritten m.dram && SMap.wf unwritten m.fram && SMap.wf erased m.flashA
    && SMap.wf erased m.flashB && SMap.wf unblown m.otp

/-- The registers that an event occurrence may touch beside the page that raises it: PG_EVT of every page, the capture units (R131), the
mask index (R341), Pacer emergencies (R240), the Lap trigger (R567) and the coalescing counter (R63). -/
def evKey (k : Nat) : Bool :=
  decide (k % 0x1000 = H.EVT) || [R.HTM_CAP_CFG 0, R.HTM_CAP_CFG 1, R.HTM_CAP 0, R.HTM_CAP 1, R.HTM_CAP 2, R.HTM_CAP 3, R.MASK_STAT,
    R.PCR_ESTAT, R.LAP_FREEZE_T 0, R.LAP_FREEZE_T 1, R.LAP_STAT, R.EVR_OVR].contains k

/-- The parts of the chip beside its registers, as a frame names them. -/
inductive Part
  | mode | crc | stale | free | safe | bus | time | lap | meas | str | bpt | hrd | isl | imp | pwm | mtr | lanes | eth | out | fab | shd
  | red | pow | boot
  deriving DecidableEq, Repr

/-- Part `p` is the same in both chips. -/
def Part.same (p : Part) (c d : Chip) : Prop :=
  match p with
  | .mode => d.mode = c.mode
  | .crc => d.crc = c.crc
  | .stale => d.crcBusy = c.crcBusy
  | .free => d.freeCtr = c.freeCtr
  | .safe => d.safe = c.safe
  | .bus => d.bus = c.bus
  | .time => d.time = c.time
  | .lap => d.lap = c.lap
  | .meas => d.meas = c.meas
  | .str => d.str = c.str
  | .bpt => d.bpt = c.bpt
  | .hrd => d.hrd = c.hrd
  | .isl => d.isl = c.isl
  | .imp => d.imp = c.imp
  | .pwm => d.pwm = c.pwm
  | .mtr => d.mtr = c.mtr
  | .lanes => d.lanes = c.lanes
  | .eth => d.ethBusy = c.ethBusy
  | .out => d.out = c.out
  | .fab => d.fab = c.fab
  | .shd => d.shd = c.shd
  | .red => d.red = c.red
  | .pow => d.pow = c.pow
  | .boot => d.boot = c.boot

/-- From chip `c` to chip `d` the registers outside `ks` and the parts outside `ps` are kept. Where `ev` holds, event occurrences may
also have touched what `evKey` names, the event router and transactions (`bus`) and the Lap log (`lap`). Which pages have a stale
PG_CRC (`stale`) follows the registers that changed (R60), so it is kept where none may change. -/
structure Chip.Kept (ev : Bool) (ks : List Nat) (ps : List Part) (c d : Chip) : Prop where
  regs : ∀ k, (ev = true → evKey k = false) → k ∉ ks → d.rd k = c.rd k
  parts : ∀ p : Part, (ev = true → p ≠ .bus ∧ p ≠ .lap) → ((ev = true ∨ ks ≠ []) → p ≠ .stale) → p ∉ ps → p.same c d

/-- A command that raises no event: the queue and the memories are as before, and of the chip nothing but the registers `ks` and the
parts `ps` can have changed. -/
def Only (ks : List Nat) (ps : List Part) (s t : State) : Prop := Quiet s t ∧ Chip.Kept false ks ps s.chip t.chip

/-- A command that may raise events: the queue and the memories are as before, and of the chip nothing but the registers `ks`, the parts
`ps` and what event occurrences touch can have changed. -/
def OnlyEv (ks : List Nat) (ps : List Part) (s t : State) : Prop := Quiet s t ∧ Chip.Kept true ks ps s.chip t.chip

/-- The writer, the key and the register of a command that is a write to a keyed command register and does nothing beside it where the key
is wrong (the requests to SYS.STATE_REQ and TXN.CMD, which also show a result, are not among these). -/
def commandWrite (i : Instr) : Option (Writer × BitVec 16 × Nat) :=
  match i with
  | .deviceReset w key => some (w, key, R.SYS_RST_CTL)
  | .twinRestart w key _ => some (w, key, R.SYS_RST_CTL)
  | .hostMemRead w key _ => some (w, key, R.HPT_MEM_CMD)
  | .hostMemWrite w key _ => some (w, key, R.HPT_MEM_CMD)
  | .txnAbort w key _ => some (w, key, R.TXN_ABORT)
  | .hopCmd w key _ => some (w, key, R.CLK_HOP_CMD)
  | .htmStep w key _ => some (w, key, R.HTM_STEP_CMD)
  | .rtcSet w key => some (w, key, R.RTC_CMD)
  | .rtcCalRc w key => some (w, key, R.RTC_CMD)
  | .afeCal w key _ => some (w, key, R.AFE_CMD)
  | .afeRotate w key _ _ => some (w, key, R.AFE_CMD)
  | .acmpSelftest w key _ => some (w, key, R.ACMP_CMD)
  | .strClrStats w key => some (w, key, R.STR_CMD)
  | .pacerHold w key _ => some (w, key, R.PCR_CMD)
  | .pacerRelease w key _ => some (w, key, R.PCR_CMD)
  | .pacerEmergency w key _ => some (w, key, R.PCR_CMD)
  | .pacerClearEmergency w key _ => some (w, key, R.PCR_CMD)
  | .pacerPreset w key _ => some (w, key, R.PCR_CMD)
  | .bptHold w key _ => some (w, key, R.BPT_CMD)
  | .bptRelease w key _ => some (w, key, R.BPT_CMD)
  | .bptRestart w key _ => some (w, key, R.BPT_CMD)
  | .hrdClearTrip w key => some (w, key, R.HRD_CMD)
  | .hrdClearStats w key => some (w, key, R.HRD_CMD)
  | .islClear w key => some (w, key, R.ISL_CMD)
  | .impStart w key => some (w, key, R.IMP_CMD)
  | .impStop w key => some (w, key, R.IMP_CMD)
  | .impRequest w key => some (w, key, R.IMP_CMD)
  | .impClearIsland w key => some (w, key, R.IMP_CMD)
  | .pwmcArm w key k => some (w, key, R.PWMC_CMD k)
  | .pwmcDiscard w key k => some (w, key, R.PWMC_CMD k)
  | .maskStep w key _ => some (w, key, R.MASK_CMD)
  | .maskSet w key _ => some (w, key, R.MASK_CMD)
  | .tripClear w key _ => some (w, key, R.TRIP_CMD)
  | .gdiClear w key n => some (w, key, R.GDI_CMD n)
  | .gdiInjectFlt w key n => some (w, key, R.GDI_CMD n)
  | .gdiInjectShoot w key n => some (w, key, R.GDI_CMD n)
  | .gdiInjectRdy w key n => some (w, key, R.GDI_CMD n)
  | .gdiClrStats w key n => some (w, key, R.GDI_CMD n)
  | .mtrClear w key p => some (w, key, R.MTR_CMD p)
  | .mtrSaveNow w key => some (w, key, R.MTR_CMD 0)
  | .mtrCoClear w key => some (w, key, R.MTR_CMD 0)
  | .laneRetrain w key n => some (w, key, R.LANE_CMD n)
  | .laneClrStats w key n => some (w, key, R.LANE_CMD n)
  | .patInject w key n => some (w, key, R.LANE_PAT_CMD n)
  | .patClr w key n => some (w, key, R.LANE_PAT_CMD n)
  | .modCmdRead w key n _ _ => some (w, key, R.LANE_MOD_CMD n)
  | .modCmdWrite w key n _ _ => some (w, key, R.LANE_MOD_CMD n)
  | .bankClear w key => some (w, key, R.FAB_BANK_CMD)
  | .sesOpen w key _ => some (w, key, R.SES_CMD)
  | .sesClose w key _ => some (w, key, R.SES_CMD)
  | .musRestart w key => some (w, key, R.MUS_CMD)
  | .musLeave w key => some (w, key, R.MUS_CMD)
  | .musRecompute w key => some (w, key, R.MUS_CMD)
  | .musReplace w key => some (w, key, R.MUS_CMD)
  | .musForget w key => some (w, key, R.MUS_CMD)
  | .sgrApply w key => some (w, key, R.SHD_CMD)
  | .sgrRemove w key => some (w, key, R.SHD_CMD)
  | .newChallenge w key => some (w, key, R.SHD_CMD)
  | .credVerify w key => some (w, key, R.SHD_CMD)
  | .endCred w key => some (w, key, R.SHD_CMD)
  | .soutTest w key _ => some (w, key, R.SOUT_CMD)
  | .dcuInjectOutput w key _ => some (w, key, R.DCU_CMD)
  | .dcuInjectLatent w key _ => some (w, key, R.DCU_CMD)
  | .dcuInjectDisagree w key _ => some (w, key, R.DCU_CMD)
  | .dcuInjectStmiss w key _ => some (w, key, R.DCU_CMD)
  | .lapFreeze w key => some (w, key, R.LAP_CMD)
  | .lapResume w key => some (w, key, R.LAP_CMD)
  | .lapArm w key => some (w, key, R.LAP_CMD)
  | .lapDisarm w key => some (w, key, R.LAP_CMD)
  | .lapImport w key _ => some (w, key, R.LAP_CMD)
  | .replayStart w key => some (w, key, R.LAP_CMD)
  | .replayCont w key => some (w, key, R.LAP_CMD)
  | .testBeacon w key => some (w, key, R.SURV_CMD)
  | .survClrStats w key => some (w, key, R.SURV_CMD)
  | .survClrRx w key => some (w, key, R.SURV_CMD)
  | .bootAlive w key => some (w, key, R.BOOT_CMD)
  | .bootConfirm w key => some (w, key, R.BOOT_CMD)
  | .hostGo w key => some (w, key, R.BOOT_CMD)
  | .flashCommand w key _ _ _ _ => some (w, key, R.BOOT_FL_CTL)
  | .secVerifyImage w key _ => some (w, key, R.SEC_CMD)
  | .secSign w key => some (w, key, R.SEC_CMD)
  | .secVerifyChain w key _ => some (w, key, R.SEC_CMD)
  | .secRandom w key => some (w, key, R.SEC_CMD)
  | .arbAdvance w key => some (w, key, R.SEC_CMD)
  | .genId w key => some (w, key, R.SEC_CMD)
  | .revokeRoot w key _ => some (w, key, R.SEC_CMD)
  | .otpGo w key _ _ => some (w, key, R.OTP_CMD)
  | _ => none

end Sys2Proof.Machine
end

