-- ==== Sys2Proof/Certificates/Slice0/Obligations.lean ====
section
/-!
DEFINITION. The statements: what every command does where it takes effect, and what holds of every step.
-/
open Sys2Proof Sys2Proof.Machine

/-- O1 (00_scope.md). A step is exec of the command at the front of the queue. For every command and state, a step of the state with the
command at the front of its queue is exec of the command on the state with the rest of the queue. -/
def Obligations.StepTakesTheFrontCommand : Prop :=
  (∀ (i : Instr) (rest : List Instr) (s : State),
    Sys2Proof.Machine.step { s with pending := i :: rest } = Sys2Proof.Machine.exec i { s with pending := rest })

/-- O2 (03_clocks_time.md). With no command waiting a step is one edge of CK_PER (the model’s choice, log entry 1, DESIGN CHOICE). With an
empty queue a step is one edge of CK_PER, the choice of log entry 1, DESIGN CHOICE. -/
def Obligations.IdleStepIsOneClockEdge : Prop :=
  (∀ s : State, s.pending = [] → Sys2Proof.Machine.step s = .next s.tick)

/-- O3 (R10). The state after power-on reset. GDI_TIMING 15 is 0x000A0050 after reset. GDI_RETRY 15 is 0x30190064 after reset. HRD_LV_TH is
0x399A3666 after reset. HRD_ZV_TH is 0x0CCD0333 after reset. HRD_PERSIST is 0x02202003 after reset. HRD_TS is 0x00007A12 after reset.
HRD_KQ is 0x20002000 after reset. PWMC_DT 15 is 0 after reset. TRIP_SRC_CFG 15 is 0 after reset. The queue of commands is empty. The
device is in BOOT. -/
def Obligations.ResetRegisters : Prop :=
  (State.reset.chip.rd (R.GDI_TIMING 15) = 0x000A0050)
  ∧ (State.reset.chip.rd (R.GDI_RETRY 15) = 0x30190064)
  ∧ (State.reset.chip.rd (R.HRD_LV_TH) = 0x399A3666)
  ∧ (State.reset.chip.rd (R.HRD_ZV_TH) = 0x0CCD0333)
  ∧ (State.reset.chip.rd (R.HRD_PERSIST) = 0x02202003)
  ∧ (State.reset.chip.rd (R.HRD_TS) = 0x00007A12)
  ∧ (State.reset.chip.rd (R.HRD_KQ) = 0x20002000)
  ∧ (State.reset.chip.rd (R.PWMC_DT 15) = 0)
  ∧ (State.reset.chip.rd (R.TRIP_SRC_CFG 15) = 0)
  ∧ (State.reset.pending = [])
  ∧ (State.reset.chip.mode = .boot)

/-- O4 (R648, R577). The memories are in canonical form after reset. Every memory of the reset state is in its canonical form. -/
def Obligations.ResetMemoriesCanonical : Prop :=
  (State.reset.mem.wf = true)

/-- O5 (00_scope.md). Every command and every step answers a next state and takes one command from the queue. Every command answers a next
state and leaves the queue behind it as it is. Every step answers a next state. A step takes the front command from the queue and
nothing else. -/
def Obligations.EveryCommandCompletes : Prop :=
  (∀ (i : Instr) (s : State), ∃ t, Sys2Proof.Machine.exec i s = .next t ∧ t.pending = s.pending)
  ∧ (∀ s : State, SafeStep s)
  ∧ (∀ s t : State, Sys2Proof.Machine.step s = .next t → t.pending = s.pending.tail)

/-- O6 (R648, R577, R564, R490). Every step keeps the canonical form of every memory. From any state whose memories are in canonical form, a
step leads to one whose memories are. -/
def Obligations.MemoriesStayCanonical : Prop :=
  (∀ s t : State, s.mem.wf = true → Sys2Proof.Machine.step s = .next t → t.mem.wf = true)

/-- O7 (R648, R649, R630). OTP bits are programmed only from 0 to 1. Whatever a step does, a fuse that is blown stays blown. -/
def Obligations.FusesNeverClear : Prop :=
  (∀ (s t : State) (a b : Nat), Sys2Proof.Machine.step s = .next t → nbit (SMap.get unblown s.mem.otp a).toNat b = true →
    nbit (SMap.get unblown t.mem.otp a).toNat b = true)

/-- O8 (R55, R634, R637, R20, R103). Writes to keyed command registers that are recorded and have no other effect. A write with a wrong key
only records KEY in PG_ERR of the page. A write that the host port or debug access may not make is only recorded. With the main domain
off, or before the first lock, it has no effect. A record in PG_ERR sets the error’s bit and shows initiator and offset, and changes no
other register. -/
def Obligations.RefusedCommandWrites : Prop :=
  (∀ (i : Instr) (w : Writer) (key : BitVec 16) (k : Nat) (s : State), commandWrite i = some (w, key, k) → May w k s → key ≠ theKey →
    Does i s fun t => Quiet s t ∧ t.chip = s.chip.perr k .key w.ini.code)
  ∧ (∀ (i : Instr) (w : Writer) (key : BitVec 16) (k : Nat) (e : PErr) (s : State), commandWrite i = some (w, key, k) →
    s.chip.powered = true → s.chip.time.gated = false → s.chip.barred k w.ini.code = some e → Does i s fun t => Quiet s t ∧ t.chip =
      s.chip.perr k e w.ini.code)
  ∧ (∀ (i : Instr) (w : Writer) (key : BitVec 16) (k : Nat) (s : State), commandWrite i = some (w, key, k) → s.chip.clockOn = false →
    Does i s fun t => t = s)
  ∧ (∀ (c : Chip) (k i : Nat) (e : PErr), i < 16 →
    (c.perr k e i).bit (pageBase k + H.ERR) e.bit = true ∧ (c.perr k e i).f (pageBase k + H.ERR) ⟨31, 28⟩ = i ∧ (c.perr k e i).f
      (pageBase k + H.ERR) ⟨27, 16⟩ = k % 0x1000
    ∧ (∀ j, j ≠ pageBase k + H.ERR → (c.perr k e i).rd j = c.rd j))

/-- O9 (R29, R499, R505). The first safety cause holds every gate off and removes the gate-driver supplies. From any powered state without
the latch, a cause met sets the latch, enters SAFE, holds both gates of every instance low, removes the supplies and shows the cause. -/
def Obligations.FirstCauseHoldsGatesOff : Prop :=
  (∀ (c : Chip) (code cls idx n : Nat), c.powered = true → c.is R.SHD_STAT F.SHD_STAT_LATCH = false → 1 ≤ code → code ≤ 0x12 → cls < 16 → n
      < 16 →
    (c.cause code cls idx).mode = .safe ∧ (c.cause code cls idx).is R.SHD_STAT F.SHD_STAT_LATCH = true
    ∧ (c.cause code cls idx).is (R.GDI_STAT n) F.GDI_STAT_GH = false ∧ (c.cause code cls idx).is (R.GDI_STAT n) F.GDI_STAT_GL = false
    ∧ (c.cause code cls idx).is (R.GDI_STAT n) F.GDI_STAT_SHD_OFF = true ∧ (c.cause code cls idx).safe.sgr = false
    ∧ (c.cause code cls idx).f R.SHD_CAUSE F.SHD_CAUSE_CODE = code)

/-- O10 (R100, R103, R105, R106, R108, R110, R111, R112, R114, R117, R120). Root clock: what each command does where it takes effect, and
what it leaves alone. HOP_CMD to a slot with a source, other than the active locked one, starts the hop and clears LOCK. COLD_LOCK locks
the active slot, or the slot of the hop in progress, on the band found with the phase error shown, and opens the working clocks; the
first lock loads herd time from the calendar. FREQ_ACQUIRED on a slot with a valid band shows the phase error, from which the phase then
moves. ROOT_LOCK in phase mode FAST, with the dividers realigned within 20 ps, declares lock on the slot of the hop, herd time standing;
the first lock loads herd time from the calendar. Else it declares lock once the phase has moved to within 20 ps, herd time having taken
the displacement as it moved. REF_LOSS enters holdover, clears LOCK and, with AUTO_HOP, starts the hop to the fallback slot.
CLOCK_MONITOR_FAIL shows OSC_OK 0, latches the safe state and enters SAFE. CLOCK_OUTPUT_UPDATE takes the divider and spread words
written for the output. Commands that complete (exec answers a next state): hopCmd, coldLock, freqAcquired, rootLock, refLoss,
clockMonitorFail, clockOutputUpdate. -/
def Obligations.RootClockCommands : Prop :=
  (∀ (w : Writer) (slot : Fin 8) (s : State), May w R.CLK_HOP_CMD s → s.chip.f (R.CLK_SLOT slot) F.CLK_SLOT_SRC < 4 → (¬ (s.chip.is
      R.CLK_STAT F.CLK_STAT_LOCK = true ∧ s.chip.f R.CLK_STAT F.CLK_STAT_ACTIVE = slot ∧ s.chip.time.hop = none)) → ∃ t,
      Sys2Proof.Machine.exec (.hopCmd w theKey slot) s = .next t ∧
    OnlyEv [R.CLK_STAT] [.time] s t ∧ t.chip.time = { s.chip.time with hop := some ⟨slot, false, 0, 0⟩ } ∧ t.chip.is R.CLK_STAT
      F.CLK_STAT_HOPPING = true ∧ t.chip.is R.CLK_STAT F.CLK_STAT_LOCK = false)
  ∧ (∀ (band : BitVec 12) (e : BitVec 12) (n : Nat) (s : State), s.chip.powered = true → n < 8 → ((s.chip.time.hop = none ∧ s.chip.is
      R.CLK_STAT F.CLK_STAT_LOCK = false ∧ n = s.chip.f R.CLK_STAT F.CLK_STAT_ACTIVE) ∨ s.chip.time.hop.map Hop.slot = some n) → ∃ t,
      Sys2Proof.Machine.exec (.coldLock band e) s = .next t ∧
    OnlyEv [R.CLK_SLOT n, R.CLK_STAT, R.SHD_STAT, R.HTM_STAT] [.time, .pow] s t ∧ t.chip.time =
      { s.chip.time with hop := none, gated := false, ht := if s.chip.time.gated then s.chip.time.calSec * 10 ^ 9 % 2 ^ 64 * 2 ^ 48 else s.chip.time.ht }
      ∧ t.chip.pow = { s.chip.pow with refT := t.chip.pow.refT } ∧ (s.chip.time.gated = true → t.chip.is R.HTM_STAT F.HTM_STAT_VALID =
      false ∧ t.chip.f R.HTM_STAT F.HTM_STAT_SRC = 4) ∧ t.chip.is R.CLK_STAT F.CLK_STAT_LOCK = true ∧ t.chip.f R.CLK_STAT
      F.CLK_STAT_ACTIVE = n ∧ t.chip.f R.CLK_STAT F.CLK_STAT_BAND = band.toNat ∧ t.chip.f R.CLK_STAT F.CLK_STAT_PHASE_ERR = e.toNat ∧
      t.chip.f (R.CLK_SLOT n) F.CLK_SLOT_BAND = band.toNat ∧ t.chip.is (R.CLK_SLOT n) F.CLK_SLOT_BAND_VALID = true)
  ∧ (∀ (e : BitVec 12) (h : Hop) (s : State), s.chip.powered = true → s.chip.time.hop = some h → s.chip.is (R.CLK_SLOT h.slot)
      F.CLK_SLOT_BAND_VALID = true → ∃ t, Sys2Proof.Machine.exec (.freqAcquired e) s = .next t ∧
    Only [R.CLK_STAT] [.time] s t ∧ t.chip.time = { s.chip.time with hop := some ⟨h.slot, true, 200 * e.toInt, 200 * e.toInt⟩ } ∧
      t.chip.f R.CLK_STAT F.CLK_STAT_PHASE_ERR = e.toNat)
  ∧ (∀ (band : BitVec 12) (e : BitVec 12) (h : Hop) (s : State), s.chip.powered = true → s.chip.time.hop = some h → h.freqOk = true → h.slot
      < 8 → s.chip.fastPhase = true → e.toInt.natAbs ≤ 20 → ∃ t, Sys2Proof.Machine.exec (.rootLock band e) s = .next t ∧
    OnlyEv [R.CLK_SLOT h.slot, R.CLK_STAT, R.SHD_STAT, R.HTM_STAT] [.time, .pow] s t ∧ t.chip.is R.CLK_STAT F.CLK_STAT_LOCK = true ∧
      t.chip.f R.CLK_STAT F.CLK_STAT_ACTIVE = h.slot ∧ t.chip.f R.CLK_STAT F.CLK_STAT_PHASE_ERR = e.toNat ∧ t.chip.time =
      { s.chip.time with hop := none, gated := false, ht := if s.chip.time.gated then s.chip.time.calSec * 10 ^ 9 % 2 ^ 64 * 2 ^ 48 else s.chip.time.ht }
      ∧ t.chip.pow = { s.chip.pow with refT := t.chip.pow.refT } ∧ (s.chip.time.gated = true → t.chip.is R.HTM_STAT F.HTM_STAT_VALID =
      false ∧ t.chip.f R.HTM_STAT F.HTM_STAT_SRC = 4))
  ∧ (∀ (band : BitVec 12) (e : BitVec 12) (h : Hop) (s : State), s.chip.powered = true → s.chip.time.hop = some h → h.freqOk = true → h.slot
      < 8 → s.chip.fastPhase = false → h.err.natAbs ≤ 4000 → ∃ t, Sys2Proof.Machine.exec (.rootLock band e) s = .next t ∧
    OnlyEv [R.CLK_SLOT h.slot, R.CLK_STAT, R.SHD_STAT, R.HTM_STAT] [.time, .pow] s t ∧ t.chip.is R.CLK_STAT F.CLK_STAT_LOCK = true ∧
      t.chip.f R.CLK_STAT F.CLK_STAT_ACTIVE = h.slot ∧ t.chip.f R.CLK_STAT F.CLK_STAT_PHASE_ERR = s.chip.f R.CLK_STAT
      F.CLK_STAT_PHASE_ERR ∧ t.chip.time =
      { s.chip.time with hop := none, gated := false, ht := if s.chip.time.gated then s.chip.time.calSec * 10 ^ 9 % 2 ^ 64 * 2 ^ 48 else s.chip.time.ht }
      ∧ t.chip.pow = { s.chip.pow with refT := t.chip.pow.refT } ∧ (s.chip.time.gated = true → t.chip.is R.HTM_STAT F.HTM_STAT_VALID =
      false ∧ t.chip.f R.HTM_STAT F.HTM_STAT_SRC = 4))
  ∧ (∀ (s : State), s.chip.powered = true → s.chip.time.gated = false → ∃ t, Sys2Proof.Machine.exec (.refLoss) s = .next t ∧
    OnlyEv [R.CLK_STAT] [.time] s t ∧ t.chip.is R.CLK_STAT F.CLK_STAT_HOLDOVER = true ∧ t.chip.is R.CLK_STAT F.CLK_STAT_LOCK = false ∧
      t.chip.time =
      { s.chip.time with hop := if s.chip.is R.CLK_CTL F.CLK_CTL_AUTO_HOP = true ∧ s.chip.f (R.CLK_SLOT (s.chip.f R.CLK_CTL F.CLK_CTL_FALLBACK)) F.CLK_SLOT_SRC < 4 then some ⟨s.chip.f R.CLK_CTL F.CLK_CTL_FALLBACK, false, 0, 0⟩ else s.chip.time.hop })
  ∧ (∀ (s : State), s.chip.powered = true → ∃ t, Sys2Proof.Machine.exec (.clockMonitorFail) s = .next t ∧
    Quiet s t ∧ t.chip.is R.SHD_STAT F.SHD_STAT_OSC_OK = false ∧ t.chip.is R.SHD_STAT F.SHD_STAT_LATCH = true ∧ t.chip.mode = .safe)
  ∧ (∀ (n : Fin 4) (s : State), s.chip.powered = true → s.chip.time.gated = false → ∃ t, Sys2Proof.Machine.exec (.clockOutputUpdate n) s =
      .next t ∧
    Only [] [.time] s t ∧ t.chip.time =
      { s.chip.time with outDiv := upd s.chip.time.outDiv n fun _ => s.chip.rd (R.CLK_OUT_DIV n), outSsc := upd s.chip.time.outSsc n fun _ => s.chip.rd (R.CLK_OUT_SSC n) })

/-- O11 (R125, R126, R127, R128, R129, R130, Root Clock, Herd Time and Calendar). Herd time: what each command does where it takes effect,
and what it leaves alone. HTM_ADJ replaces the remaining adjustment. HTM_STEP with GO is accepted where nothing waits on herd time.
HTM_STEP is refused, shown in STEP_REFUSED, while a herd-locked timebase runs or a transaction waits. STEP_APPLY adds the 64-bit step in
nanoseconds to herd time and clears VALID. PPS_IN_EDGE within 100 ms disciplines a bellwether on PPS: the rate and the adjustment it
writes are free values, the law being no rule of the spec (log entry 13, DESIGN CHOICE). PPS_OUT_PULSE makes an enabled PPS_OUT active.
PPS_OUT_PULSE_END makes it inactive. DISCIPLINE_HOLDOVER enters holdover; a member loses TIME_OK. Commands that complete (exec answers a
next state): htmAdj, htmStep, stepApply, ppsInEdge, ppsOutPulse, ppsOutPulseEnd, disciplineHoldover. -/
def Obligations.HerdTimeCommands : Prop :=
  (∀ (w : Writer) (adj : BitVec 32) (s : State), May w R.HTM_ADJ s → ∃ t, Sys2Proof.Machine.exec (.htmAdj w adj) s = .next t ∧
    Only [] [.time, .lap] s t ∧ t.chip.time = { s.chip.time with adjRem := adj.toInt * 2 ^ 40 })
  ∧ (∀ (w : Writer) (s : State), May w R.HTM_STEP_CMD s → s.chip.stepBlocked = false → ∃ t, Sys2Proof.Machine.exec (.htmStep w theKey true) s
      = .next t ∧
    Only [] [.time] s t ∧ t.chip.time = { s.chip.time with stepPend := true })
  ∧ (∀ (w : Writer) (s : State), May w R.HTM_STEP_CMD s → s.chip.stepBlocked = true → ∃ t, Sys2Proof.Machine.exec (.htmStep w theKey true) s
      = .next t ∧
    OnlyEv [R.HTM_STAT] [] s t ∧ t.chip.is R.HTM_STAT F.HTM_STAT_STEP_REFUSED = true)
  ∧ (∀ (s : State), Awake P.HTM s → s.chip.time.stepPend = true → ∃ t, Sys2Proof.Machine.exec (.stepApply) s = .next t ∧
    OnlyEv [R.HTM_STAT] [.time] s t ∧ t.chip.time =
      { s.chip.time with stepPend := false, ht := ((s.chip.time.ht + sgn 64 (s.chip.rd64 (R.HTM_STEP 0)) * 2 ^ 48) % (2 ^ 112 : Nat)).toNat }
      ∧ t.chip.is R.HTM_STAT F.HTM_STAT_VALID = false)
  ∧ (∀ (falling : Bool) (s : State), Awake P.HTM s → (falling != s.chip.is R.HTM_CTL F.HTM_CTL_PPS_POL) = false → s.chip.ppsErr.natAbs ≤ 10 ^
      8 * 2 ^ 48 → s.chip.is R.HTM_STAT F.HTM_STAT_BELLWETHER = true → s.chip.f R.HTM_CTL F.HTM_CTL_DISC_SRC = 2 → ∃ t,
      Sys2Proof.Machine.exec (.ppsInEdge falling) s = .next t ∧
    t.chip.f R.HTM_STAT F.HTM_STAT_SRC = 2 ∧ t.chip.is R.HTM_STAT F.HTM_STAT_HOLDOVER = false ∧ OnlyEv [R.HTM_STAT, R.HTM_RATE] [.time,
      .free] s t ∧ t.chip.rd R.HTM_RATE = wd (unsgn 32 (clampI (-549755814) 549755814 (Config.freeWord s.chip.freeCtr).toInt)) ∧
      t.chip.time = { s.chip.time with adjRem := (Config.freeWord (s.chip.freeCtr + 1)).toInt * 2 ^ 40 })
  ∧ (∀ (s : State), Awake P.HTM s → s.chip.is R.HTM_PPS_CFG F.HTM_PPS_CFG_EN = true → ∃ t, Sys2Proof.Machine.exec (.ppsOutPulse) s = .next t
      ∧
    Only [] [.time] s t ∧ t.chip.time = { s.chip.time with ppsOut := true })
  ∧ (∀ (s : State), Awake P.HTM s → ∃ t, Sys2Proof.Machine.exec (.ppsOutPulseEnd) s = .next t ∧
    Only [] [.time] s t ∧ t.chip.time = { s.chip.time with ppsOut := false })
  ∧ (∀ (s : State), Awake P.HTM s → s.chip.is R.HTM_STAT F.HTM_STAT_HOLDOVER = false → s.chip.f R.HTM_CTL F.HTM_CTL_DISC_SRC ≠ 0 → ∃ t,
      Sys2Proof.Machine.exec (.disciplineHoldover) s = .next t ∧
    OnlyEv [R.HTM_STAT, R.FAB_STAT] [] s t ∧ t.chip.is R.HTM_STAT F.HTM_STAT_HOLDOVER = true ∧ (s.chip.is R.HTM_STAT
      F.HTM_STAT_BELLWETHER = false → t.chip.is R.FAB_STAT F.FAB_STAT_TIME_OK = false))

/-- O12 (R134, R135, R136, R137, R138, R139, Root Clock, Herd Time and Calendar). Calendar: what each command does where it takes effect,
and what it leaves alone. RTC_SET without discipline becomes pending with BUSY set. RTC_SET under discipline is only recorded as STATE.
RTC_CAL_RC starts the RC calibration. RTC_SET_APPLY loads the calendar from RTC.SET and clears BUSY, alarms following. In SURVIVAL it
does so too, an alarm that fires being a wake request. RC_CAL_DONE stores the measured trim code. TCOMP_WINDOW shows the temperature and
adds the correction and the ageing to the calendar (which of two ticks a correction between them takes is a free choice: log entries 14,
15). In SURVIVAL it does so too, an alarm that fires being a wake request. XTAL_FAIL switches the calendar to RC. RTC_DISC_LOAD loads
the calendar from herd time where it differs. AGING_UPDATE writes the ageing correction, a free value (log entry 2, DESIGN CHOICE).
Commands that complete (exec answers a next state): rtcSet, rtcCalRc, rtcSetApply, rcCalDone, tcompWindow, xtalFail, rtcDiscLoad,
agingUpdate. -/
def Obligations.CalendarCommands : Prop :=
  (∀ (w : Writer) (s : State), May w R.RTC_CMD s → s.chip.calDisc = false → ∃ t, Sys2Proof.Machine.exec (.rtcSet w theKey) s = .next t ∧
    Only [R.RTC_STAT] [.time] s t ∧ t.chip.time = { s.chip.time with setPend := true } ∧ t.chip.is R.RTC_STAT F.RTC_STAT_BUSY = true)
  ∧ (∀ (w : Writer) (s : State), May w R.RTC_CMD s → s.chip.calDisc = true → ∃ t, Sys2Proof.Machine.exec (.rtcSet w theKey) s = .next t ∧
    Quiet s t ∧ t.chip = s.chip.perr R.RTC_CMD .state w.ini.code)
  ∧ (∀ (w : Writer) (s : State), May w R.RTC_CMD s → ∃ t, Sys2Proof.Machine.exec (.rtcCalRc w theKey) s = .next t ∧
    Only [] [.time] s t ∧ t.chip.time = { s.chip.time with rcCal := true })
  ∧ (∀ (s : State), s.chip.mode ≠ .off → s.chip.mode ≠ .survival → s.chip.time.setPend = true → ∃ t, Sys2Proof.Machine.exec (.rtcSetApply) s
      = .next t ∧
    OnlyEv [R.RTC_STAT, R.RTC_ALARM_LO 0, R.RTC_ALARM_HI 0, R.RTC_ALARM_LO 1, R.RTC_ALARM_HI 1] [.time] s t ∧ t.chip.time =
      { s.chip.time with setPend := false, calSec := (s.chip.rdN R.RTC_SET_LO + 2 ^ 32 * s.chip.f R.RTC_SET_HI F.RTC_SEC_HI_SEC_X) % 2 ^ 40, calSub := s.chip.f R.RTC_SET_HI F.RTC_SEC_HI_SUB % 2 ^ 15 }
      ∧ t.chip.is R.RTC_STAT F.RTC_STAT_BUSY = false)
  ∧ (∀ (s : State), s.chip.mode = .survival → s.chip.time.setPend = true → ∃ t, Sys2Proof.Machine.exec (.rtcSetApply) s = .next t ∧
    Quiet s t ∧ t.chip.mode = .survival ∧ t.chip.time.setPend = false ∧ t.chip.time.calSec = (s.chip.rdN R.RTC_SET_LO + 2 ^ 32 *
      s.chip.f R.RTC_SET_HI F.RTC_SEC_HI_SEC_X) % 2 ^ 40 ∧ t.chip.time.calSub = s.chip.f R.RTC_SET_HI F.RTC_SEC_HI_SUB % 2 ^ 15 ∧
      t.chip.is R.RTC_STAT F.RTC_STAT_BUSY = false)
  ∧ (∀ (trim : BitVec 10) (s : State), s.chip.mode ≠ .off → s.chip.time.rcCal = true → ∃ t, Sys2Proof.Machine.exec (.rcCalDone trim) s =
      .next t ∧
    Only [R.RTC_TRIM] [.time] s t ∧ t.chip.time = { s.chip.time with rcCal := false } ∧ t.chip.f R.RTC_TRIM F.RTC_TRIM_RC = trim.toNat)
  ∧ (∀ (temp : BitVec 8) (s : State), s.chip.mode ≠ .off → s.chip.mode ≠ .survival → s.chip.is R.RTC_CTL F.RTC_CTL_TCOMP = true → ∃ t,
      Sys2Proof.Machine.exec (.tcompWindow temp) s = .next t ∧
    OnlyEv [R.RTC_STAT, R.RTC_ALARM_LO 0, R.RTC_ALARM_HI 0, R.RTC_ALARM_LO 1, R.RTC_ALARM_HI 1] [.time, .free, .pow] s t ∧ t.chip.f
      R.RTC_STAT F.RTC_STAT_TEMP = temp.toNat ∧ t.chip.pow = { s.chip.pow with temp := temp } ∧ t.chip.time.calSec * 2 ^ 15 +
      t.chip.time.calSub = ((((s.chip.time.calSec * 2 ^ 15 + s.chip.time.calSub : Nat) : Int) + (s.chip.tcomp temp.toInt).1 + s.chip.fs
      R.RTC_TRIM F.RTC_TRIM_AGING) % (2 ^ 55 : Nat)).toNat)
  ∧ (∀ (temp : BitVec 8) (s : State), s.chip.mode = .survival → s.chip.is R.RTC_CTL F.RTC_CTL_TCOMP = true → ∃ t, Sys2Proof.Machine.exec
      (.tcompWindow temp) s = .next t ∧
    Quiet s t ∧ t.chip.mode = .survival ∧ t.chip.f R.RTC_STAT F.RTC_STAT_TEMP = temp.toNat ∧ t.chip.pow.temp = temp ∧ t.chip.time.calSec
      * 2 ^ 15 + t.chip.time.calSub = ((((s.chip.time.calSec * 2 ^ 15 + s.chip.time.calSub : Nat) : Int) + (s.chip.tcomp temp.toInt).1 +
      s.chip.fs R.RTC_TRIM F.RTC_TRIM_AGING) % (2 ^ 55 : Nat)).toNat)
  ∧ (∀ (s : State), s.chip.mode ≠ .off → ∃ t, Sys2Proof.Machine.exec (.xtalFail) s = .next t ∧
    OnlyEv [R.RTC_STAT] [.time] s t ∧ t.chip.time = { s.chip.time with xtalFailed := true } ∧ t.chip.is R.RTC_STAT F.RTC_STAT_ON_RC =
      true ∧ t.chip.is R.RTC_STAT F.RTC_STAT_XTAL_FAIL = true)
  ∧ (∀ (s : State), s.chip.powered = true → s.chip.time.gated = false → s.chip.calDisc = true → (¬ (s.chip.htNs / 10 ^ 9 % 2 ^ 40 =
      s.chip.time.calSec ∧ s.chip.htNs % 10 ^ 9 * 2 ^ 15 / 10 ^ 9 = s.chip.time.calSub)) → ∃ t, Sys2Proof.Machine.exec (.rtcDiscLoad) s
      = .next t ∧
    OnlyEv [R.RTC_STAT, R.RTC_ALARM_LO 0, R.RTC_ALARM_HI 0, R.RTC_ALARM_LO 1, R.RTC_ALARM_HI 1] [.time] s t ∧ t.chip.time =
      { s.chip.time with calSec := s.chip.htNs / 10 ^ 9 % 2 ^ 40, calSub := s.chip.htNs % 10 ^ 9 * 2 ^ 15 / 10 ^ 9 } ∧ t.chip.is
      R.RTC_STAT F.RTC_STAT_DISCIPLINED = true)
  ∧ (∀ (s : State), s.chip.powered = true → s.chip.time.gated = false → s.chip.calDisc = true → ∃ t, Sys2Proof.Machine.exec (.agingUpdate) s
      = .next t ∧
    Only [R.RTC_TRIM] [.free] s t ∧ t.chip.f R.RTC_TRIM F.RTC_TRIM_AGING = (Config.freeWord s.chip.freeCtr).toNat % 2 ^ 16)

/-- O13 (R585, R586, R588, R589, R590, R591). Core regulator: what each command does where it takes effect. VCR_TARGET_WRITE with SLEW and
TARGET in range retargets from the reference in force. Outside the range it is only recorded as STATE. SLEW_DONE ends the slew at
TARGET. PHASE_ADD above the add threshold of the active phases, without a load step, adds one. PHASE_STEP on a load step turns on every
available phase up to MAX_PH and counts the step. PHASE_SHED below the shed threshold turns one phase off. PHASE_ROTATE moves the
rotation base by one. PHASE_OVER_TEMP from 115 to below 135 °C puts the phase into warning. From 135 °C it shuts the phase down and the
device enters SAFE. OT_WARN_CLEAR below 110 °C ends the warning and the shutdown of the phase. VCORE_POWER_GOOD sets PG with at least
MIN_PH phases active. Commands that complete (exec answers a next state): vcrTargetWrite, slewDone, phaseAdd, phaseStep, phaseShed,
phaseRotate, phaseOverTemp, otWarnClear, vcorePowerGood. -/
def Obligations.RegulatorCommands : Prop :=
  (∀ (w : Writer) (v : BitVec 32) (s : State), May w R.VCR_CTL s → slewOk (fget v F.VCR_CTL_SLEW) (fget v F.VCR_CTL_TARGET) = true → ∃ t,
      Sys2Proof.Machine.exec (.vcrTargetWrite w v) s = .next t ∧
    Only [R.VCR_CTL, R.VCR_STAT] [.pow] s t ∧ t.chip.rd R.VCR_CTL = v &&& 0xFF03FF#32 ∧ t.chip.pow =
      { s.chip.pow with ref := s.chip.refNow.1, refT := s.chip.refNow.2 })
  ∧ (∀ (w : Writer) (v : BitVec 32) (s : State), May w R.VCR_CTL s → slewOk (fget v F.VCR_CTL_SLEW) (fget v F.VCR_CTL_TARGET) = false → ∃ t,
      Sys2Proof.Machine.exec (.vcrTargetWrite w v) s = .next t ∧
    Quiet s t ∧ t.chip = s.chip.perr R.VCR_CTL .state w.ini.code)
  ∧ (∀ (s : State), s.chip.powered = true → s.chip.halted P.VCR = false → s.chip.is R.VCR_STAT F.VCR_STAT_SLEWING = true → ∃ t,
      Sys2Proof.Machine.exec (.slewDone) s = .next t ∧
    OnlyEv [R.VCR_STAT] [.pow] s t ∧ t.chip.pow = { s.chip.pow with ref := s.chip.target, refT := s.chip.htNs } ∧ t.chip.is R.VCR_STAT
      F.VCR_STAT_SLEWING = false)
  ∧ (∀ (i0 i1 i2 i3 : BitVec 8) (s : State), s.chip.powered = true → s.chip.halted P.VCR = false → 2 * (i0.toNat + i1.toNat + i2.toNat +
      i3.toNat) ≤ 2 * s.chip.pow.load + 5 * s.chip.f R.VCR_THR F.VCR_THR_STEP → s.chip.iAdd s.chip.phN < i0.toNat + i1.toNat + i2.toNat
      + i3.toNat → s.chip.phN < s.chip.maxPh → s.chip.phN < s.chip.phAvail.length → ∃ t, Sys2Proof.Machine.exec (.phaseAdd i0 i1 i2 i3)
      s = .next t ∧
    OnlyEv [R.VCR_STAT, R.VCR_CNT_0, R.VCR_PH_STAT 0, R.VCR_PH_STAT 1, R.VCR_PH_STAT 2, R.VCR_PH_STAT 3] [.pow] s t ∧ t.chip.f
      R.VCR_STAT F.VCR_STAT_ACTIVE = s.chip.phMask (s.chip.phN + 1) ∧ t.chip.f R.VCR_CNT_0 F.VCR_CNT_0_ADDS = min (s.chip.f R.VCR_CNT_0
      F.VCR_CNT_0_ADDS + 1) (2 ^ F.VCR_CNT_0_ADDS.width - 1) ∧ t.chip.is R.VCR_STAT F.VCR_STAT_SHED_PEND = false ∧ t.chip.pow =
      { s.chip.pow with load := i0.toNat + i1.toNat + i2.toNat + i3.toNat })
  ∧ (∀ (i0 i1 i2 i3 : BitVec 8) (s : State), s.chip.powered = true → s.chip.halted P.VCR = false → 2 * s.chip.pow.load + 5 * s.chip.f
      R.VCR_THR F.VCR_THR_STEP < 2 * (i0.toNat + i1.toNat + i2.toNat + i3.toNat) → ∃ t, Sys2Proof.Machine.exec (.phaseStep i0 i1 i2 i3)
      s = .next t ∧
    OnlyEv [R.VCR_STAT, R.VCR_CNT_0, R.VCR_CNT_1, R.VCR_PH_STAT 0, R.VCR_PH_STAT 1, R.VCR_PH_STAT 2, R.VCR_PH_STAT 3] [.pow] s t ∧
      t.chip.f R.VCR_STAT F.VCR_STAT_ACTIVE = s.chip.phMask (max s.chip.phN (min s.chip.maxPh s.chip.phAvail.length)) ∧ t.chip.f
      R.VCR_CNT_1 F.VCR_CNT_1_STEPS = min (s.chip.f R.VCR_CNT_1 F.VCR_CNT_1_STEPS + 1) (2 ^ F.VCR_CNT_1_STEPS.width - 1) ∧ t.chip.is
      R.VCR_STAT F.VCR_STAT_SHED_PEND = false)
  ∧ (∀ (i0 i1 i2 i3 : BitVec 8) (i : Nat) (s : State), s.chip.powered = true → s.chip.halted P.VCR = false → i = i0.toNat + i1.toNat +
      i2.toNat + i3.toNat → s.chip.shedCond i = true → i ≤ s.chip.iAdd s.chip.phN → 2 * i ≤ 2 * s.chip.pow.load + 5 * s.chip.f R.VCR_THR
      F.VCR_THR_STEP → ∃ t, Sys2Proof.Machine.exec (.phaseShed i0 i1 i2 i3) s = .next t ∧
    OnlyEv [R.VCR_STAT, R.VCR_CNT_0, R.VCR_PH_STAT 0, R.VCR_PH_STAT 1, R.VCR_PH_STAT 2, R.VCR_PH_STAT 3] [.pow] s t ∧ t.chip.f
      R.VCR_STAT F.VCR_STAT_ACTIVE = s.chip.phMask (s.chip.phN - 1) ∧ t.chip.f R.VCR_CNT_0 F.VCR_CNT_0_SHEDS = min (s.chip.f R.VCR_CNT_0
      F.VCR_CNT_0_SHEDS + 1) (2 ^ F.VCR_CNT_0_SHEDS.width - 1))
  ∧ (∀ (s : State), s.chip.powered = true → s.chip.halted P.VCR = false → s.chip.f R.VCR_PH_CFG F.VCR_PH_CFG_ROT_S ≠ 0 → s.chip.phN <
      s.chip.phAvail.length → ∃ t, Sys2Proof.Machine.exec (.phaseRotate) s = .next t ∧
    OnlyEv [R.VCR_STAT] [] s t ∧ t.chip.f R.VCR_STAT F.VCR_STAT_BASE = (s.chip.f R.VCR_STAT F.VCR_STAT_BASE + 1) % 4)
  ∧ (∀ (n : Fin 4) (temp : BitVec 9) (s : State), s.chip.powered = true → 115 ≤ temp.toInt → temp.toInt < 135 → ∃ t, Sys2Proof.Machine.exec
      (.phaseOverTemp n temp) s = .next t ∧
    OnlyEv [R.VCR_PH_STAT n, R.VCR_STAT] [] s t ∧ t.chip.is (R.VCR_PH_STAT n) F.VCR_PH_STAT_WARN = true)
  ∧ (∀ (n : Fin 4) (temp : BitVec 9) (s : State), s.chip.powered = true → 135 ≤ temp.toInt → s.chip.phShut n = false → ∃ t,
      Sys2Proof.Machine.exec (.phaseOverTemp n temp) s = .next t ∧
    Quiet s t ∧ t.chip.is (R.VCR_PH_STAT n) F.VCR_PH_STAT_SHUT = true ∧ t.chip.is R.SHD_STAT F.SHD_STAT_LATCH = true ∧ t.chip.mode =
      .safe)
  ∧ (∀ (n : Fin 4) (temp : BitVec 9) (s : State), s.chip.powered = true → temp.toInt < 110 → ∃ t, Sys2Proof.Machine.exec (.otWarnClear n
      temp) s = .next t ∧
    OnlyEv [R.VCR_PH_STAT n, R.VCR_STAT] [] s t ∧ t.chip.is (R.VCR_PH_STAT n) F.VCR_PH_STAT_WARN = false ∧ t.chip.is (R.VCR_PH_STAT n)
      F.VCR_PH_STAT_SHUT = false)
  ∧ (∀ (s : State), s.chip.powered = true → ∃ t, Sys2Proof.Machine.exec (.vcorePowerGood) s = .next t ∧
    OnlyEv [R.VCR_STAT] [] s t ∧ t.chip.is R.VCR_STAT F.VCR_STAT_PG = true ∧ t.chip.f R.VCR_STAT F.VCR_STAT_ACTIVE = s.chip.phMask (max
      s.chip.phN (s.chip.f R.VCR_PH_CFG F.VCR_PH_CFG_MIN_PH)))

/-- O14 (R21, R103, R580, R581, R582, R583, R584, R593, R655, R656). Auxiliary input, power good and power loss: what each command does
where it takes effect. RPS_GATE_OFF turns the ideal diode off and shows why. It does so without the main domain too. RPS_GATE_ON turns
it on where it is enabled. EARLY_WARNING is shown and counted; from RUN and DEGRADED the device enters SAFE. EW_CLEAR ends it.
VCORE_UNDER_VOLTAGE is an early warning with UV_SEEN. RAIL_MONITOR_FAIL is an early warning. VAUX_POWER_GOOD in OFF or SURVIVAL with
good rails brings the device into BOOT, the core regulator starting from the VCORE measured. In a powered state it is shown, and the
survival domain runs from VAUX. POWER_ON_RESET does so with VAUX power-good. RAIL_MONITORS_GOOD does so once the monitors report good.
REGULATOR_RESTART does so after a VCORE loss. VCORE_LOST takes the powered device into SURVIVAL and keeps why. VAUX_LOSS ends
power-good; the survival domain runs from VSTORE. Commands that complete (exec answers a next state): rpsGateOff, rpsGateOn,
earlyWarning, ewClear, vcoreUnderVoltage, railMonitorFail, vauxPowerGood, powerOnReset, railMonitorsGood, regulatorRestart, vcoreLost,
vauxLoss. -/
def Obligations.SupplyCommands : Prop :=
  (∀ (high : Bool) (s : State), s.chip.powered = true → s.chip.is R.VAUX_STAT F.VAUX_STAT_RPS_ON = true → ∃ t, Sys2Proof.Machine.exec
      (.rpsGateOff high) s = .next t ∧
    OnlyEv [R.VAUX_STAT] [] s t ∧ t.chip.is R.VAUX_STAT F.VAUX_STAT_RPS_ON = false ∧ t.chip.is R.VAUX_STAT (if high then
      F.VAUX_STAT_OV_SEEN else F.VAUX_STAT_REV_SEEN) = true)
  ∧ (∀ (high : Bool) (s : State), s.chip.powered = false → s.chip.is R.VAUX_STAT F.VAUX_STAT_RPS_ON = true → ∃ t, Sys2Proof.Machine.exec
      (.rpsGateOff high) s = .next t ∧
    Only [R.VAUX_STAT] [] s t ∧ t.chip.is R.VAUX_STAT F.VAUX_STAT_RPS_ON = false)
  ∧ (∀ (s : State), s.chip.is R.VAUX_CFG F.VAUX_CFG_RPS_EN = true → ∃ t, Sys2Proof.Machine.exec (.rpsGateOn) s = .next t ∧
    Only [R.VAUX_STAT] [] s t ∧ t.chip.is R.VAUX_STAT F.VAUX_STAT_RPS_ON = true)
  ∧ (∀ (s : State), s.chip.powered = true → s.chip.is R.VAUX_STAT F.VAUX_STAT_EW = false → ∃ t, Sys2Proof.Machine.exec (.earlyWarning) s =
      .next t ∧
    t.pending = s.pending ∧ t.chip.is R.VAUX_STAT F.VAUX_STAT_EW = true ∧ t.chip.f R.VAUX_STAT F.VAUX_STAT_EW_COUNT = min (s.chip.f
      R.VAUX_STAT F.VAUX_STAT_EW_COUNT + 1) (2 ^ F.VAUX_STAT_EW_COUNT.width - 1) ∧ (s.chip.running = true → t.chip.mode = .safe))
  ∧ (∀ (s : State), s.chip.powered = true → s.chip.is R.VAUX_STAT F.VAUX_STAT_EW = true → ∃ t, Sys2Proof.Machine.exec (.ewClear) s = .next t
      ∧
    OnlyEv [R.VAUX_STAT] [] s t ∧ t.chip.is R.VAUX_STAT F.VAUX_STAT_EW = false)
  ∧ (∀ (s : State), s.chip.powered = true → s.chip.is R.VAUX_STAT F.VAUX_STAT_EW = false → ∃ t, Sys2Proof.Machine.exec (.vcoreUnderVoltage) s
      = .next t ∧
    t.pending = s.pending ∧ t.chip.is R.VAUX_STAT F.VAUX_STAT_EW = true ∧ t.chip.f R.VAUX_STAT F.VAUX_STAT_EW_COUNT = min (s.chip.f
      R.VAUX_STAT F.VAUX_STAT_EW_COUNT + 1) (2 ^ F.VAUX_STAT_EW_COUNT.width - 1) ∧ (s.chip.running = true → t.chip.mode = .safe) ∧
      t.chip.is R.VAUX_STAT F.VAUX_STAT_UV_SEEN = true)
  ∧ (∀ (s : State), s.chip.powered = true → s.chip.is R.VAUX_STAT F.VAUX_STAT_EW = false → ∃ t, Sys2Proof.Machine.exec (.railMonitorFail) s =
      .next t ∧
    t.pending = s.pending ∧ t.chip.is R.VAUX_STAT F.VAUX_STAT_EW = true ∧ t.chip.f R.VAUX_STAT F.VAUX_STAT_EW_COUNT = min (s.chip.f
      R.VAUX_STAT F.VAUX_STAT_EW_COUNT + 1) (2 ^ F.VAUX_STAT_EW_COUNT.width - 1) ∧ (s.chip.running = true → t.chip.mode = .safe))
  ∧ (∀ (mv : BitVec 10) (s : State), s.chip.powered = false → s.chip.pow.rails = true → ∃ t, Sys2Proof.Machine.exec (.vauxPowerGood mv) s =
      .next t ∧
    t.pending = s.pending ∧ t.chip.mode = .boot ∧ t.chip.is R.VAUX_STAT F.VAUX_STAT_PG = true ∧ t.chip.pow.ref = 10 * mv.toNat)
  ∧ (∀ (mv : BitVec 10) (s : State), s.chip.powered = true → ∃ t, Sys2Proof.Machine.exec (.vauxPowerGood mv) s = .next t ∧
    Only [R.VAUX_STAT, R.STORE_STAT] [] s t ∧ t.chip.is R.VAUX_STAT F.VAUX_STAT_PG = true ∧ (s.chip.pow.survUp = true → t.chip.is
      R.STORE_STAT F.STORE_STAT_SUPPLY = true))
  ∧ (∀ (mv : BitVec 10) (s : State), s.chip.powered = false → s.chip.is R.VAUX_STAT F.VAUX_STAT_PG = true → ∃ t, Sys2Proof.Machine.exec
      (.powerOnReset mv) s = .next t ∧
    t.pending = s.pending ∧ t.chip.mode = .boot ∧ t.chip.is R.VAUX_STAT F.VAUX_STAT_PG = true ∧ t.chip.pow.ref = 10 * mv.toNat)
  ∧ (∀ (mv : BitVec 10) (s : State), s.chip.powered = false → s.chip.is R.VAUX_STAT F.VAUX_STAT_PG = true → ∃ t, Sys2Proof.Machine.exec
      (.railMonitorsGood mv) s = .next t ∧
    t.pending = s.pending ∧ t.chip.mode = .boot ∧ t.chip.is R.VAUX_STAT F.VAUX_STAT_PG = true ∧ t.chip.pow.ref = 10 * mv.toNat ∧
      t.chip.pow.rails = true)
  ∧ (∀ (mv : BitVec 10) (s : State), s.chip.mode = .survival → s.chip.is R.VAUX_STAT F.VAUX_STAT_PG = true → s.chip.pow.rails = true → ∃ t,
      Sys2Proof.Machine.exec (.regulatorRestart mv) s = .next t ∧
    t.pending = s.pending ∧ t.chip.mode = .boot ∧ t.chip.is R.VAUX_STAT F.VAUX_STAT_PG = true ∧ t.chip.pow.ref = 10 * mv.toNat)
  ∧ (∀ (s : State), s.chip.powered = true → ∃ t, Sys2Proof.Machine.exec (.vcoreLost) s = .next t ∧
    t.pending = s.pending ∧ t.chip.mode = .survival ∧ t.chip.f R.SURV_STAT F.SURV_STAT_LOSS = (if s.chip.is R.VAUX_STAT F.VAUX_STAT_PG
      then 2 else 1))
  ∧ (∀ (s : State), ∃ t, Sys2Proof.Machine.exec (.vauxLoss) s = .next t ∧
    Only [R.VAUX_STAT, R.STORE_STAT] [] s t ∧ t.chip.is R.VAUX_STAT F.VAUX_STAT_PG = false ∧ (s.chip.pow.survUp = true → t.chip.is
      R.STORE_STAT F.STORE_STAT_SUPPLY = false))

/-- O15 (R21, R187, R594, R595, R597, R598, R599, R600). Backup store, harvesting and comparator samples of the survival domain: what each
command does where it takes effect. STORE_ABOVE_T_KEEP takes the device from OFF to SURVIVAL. STORE_BELOW_T_CUT in SURVIVAL on VSTORE
takes it to OFF, the survival domain unpowered. CHARGE_END ends a charge in progress. CHARGE_RESTART lets charging resume.
CHARGE_TEMPERATURE_WINDOW shows the cell temperature; outside the charge window charging stops, and outside the discharge window the
cell is disconnected. LI_PROTECTION of a lithium cell shows the condition and holds it. LI_PROTECTION_RELEASE ends it, after an
under-voltage where a charge source is present. ROOSTER_START starts the unpowered survival domain with the strapped kind of store.
ROOSTER_RUNS_AGAIN in OFF leaves it unpowered. HARVEST_SOURCE_SELECT in AUTO takes the stronger source. HARVEST_FOC_SAMPLE adds the
energy of the active source and shows its power. ACMP_SAMPLE_COMPARE takes the sample of the comparator and, where it asks for it,
requests a wake. In SAMPLED mode, at a calendar second that PERIOD divides, the comparator takes the region of the voltage, and a change
of TRIPPED shows SAMPLED_CHG. At any other second, or in another mode, nothing changes. Commands that complete (exec answers a next
state): storeAboveTKeep, storeBelowTCut, chargeEnd, chargeRestart, chargeTemperatureWindow, liProtection, liProtectionRelease,
roosterStart, roosterRunsAgain, harvestSourceSelect, harvestFocSample, acmpSampleCompare. -/
def Obligations.SurvivalStoreCommands : Prop :=
  (∀ (mv : BitVec 16) (s : State), s.chip.mode = .off → ∃ t, Sys2Proof.Machine.exec (.storeAboveTKeep mv) s = .next t ∧
    t.pending = s.pending ∧ t.mem = s.mem ∧ t.chip.mode = .survival ∧ t.chip.f R.STORE_STAT F.STORE_STAT_VSTORE = mv.toNat)
  ∧ (∀ (mv : BitVec 16) (s : State), s.chip.mode = .survival → s.chip.is R.VAUX_STAT F.VAUX_STAT_PG = false → ∃ t, Sys2Proof.Machine.exec
      (.storeBelowTCut mv) s = .next t ∧
    Quiet s t ∧ t.chip.mode = .off ∧ t.chip.pow.survUp = false)
  ∧ (∀ (s : State), s.chip.pow.survUp = true → s.chip.chgFollow.is R.STORE_STAT F.STORE_STAT_CHARGING = true → ∃ t, Sys2Proof.Machine.exec
      (.chargeEnd) s = .next t ∧
    OnlyEv [R.STORE_STAT] [] s t ∧ t.chip.is R.STORE_STAT F.STORE_STAT_CHG_DONE = true ∧ t.chip.is R.STORE_STAT F.STORE_STAT_CHARGING =
      false)
  ∧ (∀ (s : State), s.chip.pow.survUp = true → ∃ t, Sys2Proof.Machine.exec (.chargeRestart) s = .next t ∧
    Only [R.STORE_STAT] [] s t ∧ t.chip.is R.STORE_STAT F.STORE_STAT_CHG_DONE = false)
  ∧ (∀ (temp : BitVec 8) (s : State), s.chip.pow.survUp = true → ∃ t, Sys2Proof.Machine.exec (.chargeTemperatureWindow temp) s = .next t ∧
    OnlyEv [R.STORE_STAT2, R.STORE_STAT] [.pow] s t ∧ t.chip.f R.STORE_STAT2 F.STORE_STAT2_LI_TEMP = temp.toNat ∧ t.chip.pow =
      { s.chip.pow with prot := t.chip.pow.prot } ∧ (s.chip.storeLi = true → temp.toInt < s.chip.fs R.STORE_NTC F.STORE_NTC_CHG_LO ∨
      s.chip.fs R.STORE_NTC F.STORE_NTC_CHG_HI < temp.toInt → t.chip.is R.STORE_STAT F.STORE_STAT_CHARGING = false) ∧ (s.chip.storeLi =
      true → nbit t.chip.pow.prot 3 = decide (temp.toInt < s.chip.fs R.STORE_NTC F.STORE_NTC_DIS_LO ∨ s.chip.fs R.STORE_NTC
      F.STORE_NTC_DIS_HI < temp.toInt)))
  ∧ (∀ (k : Fin 4) (s : State), s.chip.pow.survUp = true → s.chip.storeLi = true → nbit s.chip.pow.prot k = false → ∃ t,
      Sys2Proof.Machine.exec (.liProtection k) s = .next t ∧
    OnlyEv [R.STORE_STAT, R.STORE_STAT2] [.pow] s t ∧ t.chip.f R.STORE_STAT F.STORE_STAT_PROT = k + 1 ∧ t.chip.pow =
      { s.chip.pow with prot := s.chip.pow.prot + 2 ^ k.val })
  ∧ (∀ (k : Fin 4) (s : State), s.chip.pow.survUp = true → nbit s.chip.pow.prot k = true → (k ≠ 1 ∨ s.chip.chgSource = true) → ∃ t,
      Sys2Proof.Machine.exec (.liProtectionRelease k) s = .next t ∧
    Only [R.STORE_STAT] [.pow] s t ∧ t.chip.pow = { s.chip.pow with prot := s.chip.pow.prot - 2 ^ k.val })
  ∧ (∀ (cap : Bool) (s : State), s.chip.mode = .off → s.chip.pow.survUp = false → ∃ t, Sys2Proof.Machine.exec (.roosterStart cap) s = .next t
      ∧
    t.pending = s.pending ∧ t.mem = s.mem ∧ t.chip.pow.survUp = true ∧ t.chip.pow.cap = cap ∧ t.chip.is R.HRV_STAT F.HRV_STAT_COLD_START
      = true)
  ∧ (∀ (s : State), s.chip.mode = .off → ∃ t, Sys2Proof.Machine.exec (.roosterRunsAgain) s = .next t ∧
    Only [] [.pow] s t ∧ t.chip.pow = { s.chip.pow with survUp := false })
  ∧ (∀ (teg vib : BitVec 16) (s : State), s.chip.pow.survUp = true → s.chip.is R.HRV_CFG F.HRV_CFG_EN = true → s.chip.f R.HRV_CFG
      F.HRV_CFG_SRC = 3 → ∃ t, Sys2Proof.Machine.exec (.harvestSourceSelect teg vib) s = .next t ∧
    OnlyEv [R.HRV_STAT, R.STORE_STAT] [] s t ∧ t.chip.f R.HRV_STAT F.HRV_STAT_ACTIVE = (if teg = 0 ∧ vib = 0 then 0 else if vib.toNat ≤
      teg.toNat then 1 else 2))
  ∧ (∀ (mv uw : BitVec 16) (uj : BitVec 32) (s : State), s.chip.pow.survUp = true → s.chip.f R.HRV_STAT F.HRV_STAT_ACTIVE ≠ 0 → ∃ t,
      Sys2Proof.Machine.exec (.harvestFocSample mv uw uj) s = .next t ∧
    Only [R.HRV_VOC, R.HRV_STAT, R.HRV_E 0, R.HRV_E 1] [] s t ∧ t.chip.rd64 (R.HRV_E 0) = (s.chip.rd64 (R.HRV_E 0) + uj.toNat) % 2 ^ 64
      ∧ t.chip.f R.HRV_STAT F.HRV_STAT_P_IN = uw.toNat % 2 ^ F.HRV_STAT_P_IN.width)
  ∧ (∀ (n : Fin 16) (uv : BitVec 24) (s : State), s.chip.pow.survUp = true → s.chip.mode ≠ .off → ∃ t, Sys2Proof.Machine.exec
      (.acmpSampleCompare n uv) s = .next t ∧
    Quiet s t ∧ t.chip = (if (s.chip.acmpSample n uv.toNat).2 then (s.chip.acmpSample n uv.toNat).1.wakeReq 2 else (s.chip.acmpSample n
      uv.toNat).1))
  ∧ (∀ (n : Fin 16) (uv : BitVec 24) (s : State), s.chip.pow.survUp = true → s.chip.mode ≠ .off → s.chip.f (R.ACMP_CH_CFG n)
      F.ACMP_CH_CFG_MODE = 3 → s.chip.time.calSec % max 1 (s.chip.f R.ACMP_SAMPLE_CFG F.ACMP_SAMPLE_CFG_PERIOD) = 0 →
      s.chip.meas.acmp.length = 16 → ∃ t, Sys2Proof.Machine.exec (.acmpSampleCompare n uv) s = .next t ∧
    Quiet s t ∧ (nth t.chip.meas.acmp n {}).region = s.chip.acmpRegion n uv.toNat ∧ (t.chip.is (R.ACMP_CH_STAT n) F.ACMP_CH_STAT_TRIPPED
      ≠ s.chip.is (R.ACMP_CH_STAT n) F.ACMP_CH_STAT_TRIPPED → t.chip.is (R.ACMP_CH_STAT n) F.ACMP_CH_STAT_SAMPLED_CHG = true))
  ∧ (∀ (n : Fin 16) (uv : BitVec 24) (s : State), s.chip.pow.survUp = true → s.chip.mode ≠ .off → (s.chip.f (R.ACMP_CH_CFG n)
      F.ACMP_CH_CFG_MODE ≠ 3 ∨ s.chip.time.calSec % max 1 (s.chip.f R.ACMP_SAMPLE_CFG F.ACMP_SAMPLE_CFG_PERIOD) ≠ 0) → ∃ t,
      Sys2Proof.Machine.exec (.acmpSampleCompare n uv) s = .next t ∧
    Only [] [] s t)

/-- O16 (R139, R403, R603, R604, R606, R607, R608, R609, R612, R615). Tasks and port of the survival domain: what each command does where it
takes effect. CALENDAR_SECOND advances the calendar by one second and takes the store voltage and the temperature. WAKE_REQUEST of an
enabled source while a beacon is on the port makes a wake beacon due. On a free port the wake beacon is admitted or skipped at once.
CO_SECOND in current-only accounting adds the whole microampere-hours of one second of the modulator codes to CO_CHG, keeps the rest,
and shows RAN. BEACON_FRAME_END with a receive window opens it. Without one the beacon is over. STORE_BELOW_T_ABORT ends a beacon in
progress, shown as aborted. With no beacon on the port the voltage is that at rest. SVP_ACK_RX of the present sequence number in the
window acknowledges the beacon. SVP_DATA_RX fills the empty receive buffer. RX_WINDOW_END closes the window; in SURVIVAL a wake beacon
that no ACK answered is due again. TEST_BEACON in READY puts a test beacon on the free port. Outside READY it is only recorded as STATE.
SURV_CLR_STATS clears the results. SURV_CLR_RX empties the receive buffer. Commands that complete (exec answers a next state):
calendarSecond, wakeRequest, coSecond, beaconFrameEnd, storeBelowTAbort, svpAckRx, svpDataRx, rxWindowEnd, testBeacon, survClrStats,
survClrRx. -/
def Obligations.SurvivalTaskCommands : Prop :=
  (∀ (mv : BitVec 16) (temp : BitVec 8) (s : State), s.chip.pow.survUp = true → s.chip.mode ≠ .off → ∃ t, Sys2Proof.Machine.exec
      (.calendarSecond mv temp) s = .next t ∧
    Quiet s t ∧ t.chip.time.calSec = (s.chip.time.calSec + 1) % 2 ^ 40 ∧ t.chip.time.calSub = 0 ∧ t.chip.f R.STORE_STAT
      F.STORE_STAT_VSTORE = mv.toNat ∧ t.chip.pow.temp = temp)
  ∧ (∀ (src : Fin 4) (b : Beacon) (s : State), s.chip.pow.survUp = true → s.chip.mode = .survival → nbit (s.chip.f R.SURV_CFG
      F.SURV_CFG_WAKE_EN) src = true → s.chip.pow.bcn = some b → ∃ t, Sys2Proof.Machine.exec (.wakeRequest src) s = .next t ∧
    OnlyEv [] [.pow] s t ∧ t.chip.pow = { s.chip.pow with wake := some (src + 1, s.chip.f R.SURV_CFG F.SURV_CFG_REPEAT) })
  ∧ (∀ (src : Fin 4) (s : State), s.chip.pow.survUp = true → s.chip.mode = .survival → nbit (s.chip.f R.SURV_CFG F.SURV_CFG_WAKE_EN) src =
      true → s.chip.pow.bcn = none → ∃ t, Sys2Proof.Machine.exec (.wakeRequest src) s = .next t ∧
    Quiet s t ∧ t.chip = (s.chip.raise P.SURV 2).beacon 2 (src + 1) (s.chip.f R.SURV_CFG F.SURV_CFG_REPEAT))
  ∧ (∀ (codes : List (BitVec 24)) (i : F64) (r : F64) (s : State), s.chip.mode = .survival → s.chip.pow.co = true → i = (wordVal (s.chip.rd
      (R.MTR_CO_K 0))).mul (((codes.foldl (fun a x => a.add ((F64.ofInt (x.toInt - s.chip.fs (R.MTR_CO_OFS 0) F.MTR_CO_OFS_OFS)).mul
      (F64.ofInt (x.toInt - s.chip.fs (R.MTR_CO_OFS 0) F.MTR_CO_OFS_OFS)))) F64.zero).div (F64.ofNat (max 1 codes.length))).sqrt) → r =
      s.chip.mtr.coRes.add ((i.div (F64.ofNat 3600)).mul (F64.ofNat (10 ^ 6))) → ∃ t, Sys2Proof.Machine.exec (.coSecond codes) s = .next
      t ∧
    Only [R.MTR_CO_CHG_LO 0, R.MTR_CO_CHG_HI 0, R.MTR_CO_STAT 0] [.mtr] s t ∧ t.chip.is (R.MTR_CO_STAT 0) F.MTR_CO_STAT_RAN = true ∧
      t.chip.rdN (R.MTR_CO_CHG_LO 0) + 2 ^ 32 * t.chip.rdN (R.MTR_CO_CHG_HI 0) = (((s.chip.rdN (R.MTR_CO_CHG_LO 0) + 2 ^ 32 * s.chip.rdN
      (R.MTR_CO_CHG_HI 0) : Nat) + r.floor) % (2 ^ 64 : Nat)).toNat ∧ t.chip.mtr =
      { s.chip.mtr with coRes := r.sub (F64.ofInt r.floor) })
  ∧ (∀ (b : Beacon) (s : State), s.chip.pow.survUp = true → s.chip.mode ≠ .off → s.chip.pow.bcn = some b → b.listen = false → s.chip.f
      R.SURV_CFG F.SURV_CFG_RXWIN_MS ≠ 0 → ∃ t, Sys2Proof.Machine.exec (.beaconFrameEnd) s = .next t ∧
    Only [R.SURV_RES] [.pow] s t ∧ t.chip.pow = { s.chip.pow with bcn := some { b with listen := true } })
  ∧ (∀ (b : Beacon) (s : State), s.chip.pow.survUp = true → s.chip.mode ≠ .off → s.chip.pow.bcn = some b → b.listen = false → s.chip.f
      R.SURV_CFG F.SURV_CFG_RXWIN_MS = 0 → ∃ t, Sys2Proof.Machine.exec (.beaconFrameEnd) s = .next t ∧
    Only [R.SURV_RES, R.SURV_STAT, R.RTC_STAT] [.pow, .time] s t ∧ t.chip.pow.bcn = none)
  ∧ (∀ (mv : BitVec 16) (b : Beacon) (s : State), s.chip.pow.survUp = true → s.chip.pow.bcn = some b → b.listen = false → b.kind ≠ 3 → ∃ t,
      Sys2Proof.Machine.exec (.storeBelowTAbort mv) s = .next t ∧
    Quiet s t ∧ t.chip.pow.bcn = none ∧ t.chip.f R.SURV_RES F.SURV_RES_BCN_RES = 4 ∧ t.chip.f R.STORE_STAT F.STORE_STAT_VSTORE =
      mv.toNat ∧ t.chip.pow.rest = s.chip.pow.rest)
  ∧ (∀ (mv : BitVec 16) (s : State), s.chip.pow.survUp = true → s.chip.pow.bcn = none → ∃ t, Sys2Proof.Machine.exec (.storeBelowTAbort mv) s
      = .next t ∧
    Quiet s t ∧ t.chip.f R.STORE_STAT F.STORE_STAT_VSTORE = mv.toNat ∧ t.chip.pow.rest = mv.toNat)
  ∧ (∀ (seq : BitVec 16) (b : Beacon) (s : State), s.chip.pow.survUp = true → s.chip.mode ≠ .off → s.chip.pow.bcn = some b → b.listen = true
      → b.kind ≠ 3 → seq.toNat = s.chip.f R.SURV_STAT F.SURV_STAT_BCN_SEQ → ∃ t, Sys2Proof.Machine.exec (.svpAckRx seq) s = .next t ∧
    Only [R.SURV_RES] [.pow] s t ∧ t.chip.pow = { s.chip.pow with bcn := some { b with acked := true } } ∧ t.chip.f R.SURV_RES
      F.SURV_RES_BCN_RES = 5)
  ∧ (∀ (data : List (BitVec 8)) (b : Beacon) (s : State), s.chip.pow.survUp = true → s.chip.mode ≠ .off → s.chip.pow.bcn = some b → b.listen
      = true → s.chip.is R.SURV_RXSTAT F.SURV_RXSTAT_FULL = false → data.length ≤ 16 → ∃ t, Sys2Proof.Machine.exec (.svpDataRx data) s =
      .next t ∧
    OnlyEv [R.SURV_RXSTAT, R.SURV_RXBUF 0, R.SURV_RXBUF 1, R.SURV_RXBUF 2, R.SURV_RXBUF 3] [] s t ∧ t.chip.is R.SURV_RXSTAT
      F.SURV_RXSTAT_FULL = true ∧ t.chip.f R.SURV_RXSTAT F.SURV_RXSTAT_LEN = data.length ∧ (List.range 4).all (fun i => t.chip.rd
      (R.SURV_RXBUF i) = wd (leNat ((data.drop (4 * i)).take 4))))
  ∧ (∀ (b : Beacon) (s : State), s.chip.pow.survUp = true → s.chip.mode ≠ .off → s.chip.pow.bcn = some b → b.listen = true → ∃ t,
      Sys2Proof.Machine.exec (.rxWindowEnd) s = .next t ∧
    Only [R.SURV_STAT, R.RTC_STAT] [.pow, .time] s t ∧ t.chip.pow.bcn = none ∧ (s.chip.pow.wake = none → s.chip.mode = .survival →
      b.kind = 2 → b.acked = false → 0 < b.left → t.chip.pow.wake = some (b.src, b.left - 1)))
  ∧ (∀ (w : Writer) (s : State), May w R.SURV_CMD s → s.chip.mode = .ready → s.chip.pow.bcn = none → ∃ t, Sys2Proof.Machine.exec (.testBeacon
      w theKey) s = .next t ∧
    Only [R.SURV_STAT, R.RTC_STAT] [.pow, .time] s t ∧ t.chip.f R.SURV_STAT F.SURV_STAT_BCN_SEQ = (s.chip.f R.SURV_STAT
      F.SURV_STAT_BCN_SEQ + 1) % 2 ^ 16 ∧ t.chip.pow.bcn.map Beacon.kind = some 3)
  ∧ (∀ (w : Writer) (s : State), May w R.SURV_CMD s → s.chip.mode ≠ .ready → ∃ t, Sys2Proof.Machine.exec (.testBeacon w theKey) s = .next t ∧
    Quiet s t ∧ t.chip = s.chip.perr R.SURV_CMD .state w.ini.code)
  ∧ (∀ (w : Writer) (s : State), May w R.SURV_CMD s → ∃ t, Sys2Proof.Machine.exec (.survClrStats w theKey) s = .next t ∧
    Only [R.SURV_RES] [] s t ∧ t.chip.rd R.SURV_RES = 0)
  ∧ (∀ (w : Writer) (s : State), May w R.SURV_CMD s → ∃ t, Sys2Proof.Machine.exec (.survClrRx w theKey) s = .next t ∧
    Only [R.SURV_RXSTAT, R.SURV_RXBUF 0, R.SURV_RXBUF 1, R.SURV_RXBUF 2, R.SURV_RXBUF 3] [] s t ∧ t.chip.rd R.SURV_RXSTAT = 0 ∧
      (List.range 4).all (fun i => t.chip.rd (R.SURV_RXBUF i) = 0))

/-- O17 (R44, R46, R47, R50, R52, R53, R54, R55, R56, R57, R60). Register writes and the page header: what each command does where it takes
effect. REGISTER_WRITE to a register page that is not an aligned word is only recorded as WIDTH. An aligned write to PG_EVT_EN of any
page but SCFG, whose lock may stand in the way, stores the word. A direct write to HTM.PPS_CFG takes its fields. LOW_WORD_READ by
another reader than a twin of the low word of a 64-bit register loads the reader’s latch with the high word. By a running twin that does
not stall it enters the input forwarding queue with its stamp, its address and the word read. PAGE_SOFT_RESET of the MASK page returns
its registers to reset. PAGE_FREEZE of a page that may be frozen in READY, SAFE or REPLAY freezes it. Otherwise it is only recorded as
STATE. PAGE_SNAP of HTM copies herd time, and its fraction, to the snapshot registers. EVENT_SET sets the PG_EVT bit of each event
named. CRC_RECOMPUTE_DONE gives PG_CRC the value of the present contents and clears CRC_BUSY. Commands that complete (exec answers a
next state): registerWrite, lowWordRead, pageSoftReset, pageFreeze, pageSnap, eventSet, crcRecomputeDone. -/
def Obligations.HeaderAndWriteCommands : Prop :=
  (∀ (w : Writer) (size : BitVec 2) (a v : BitVec 32) (k : Nat) (s : State), a.toNat = 0x40000000 + k → (pageAt k).isSome = true → (¬
      (size.toNat = 2 ∧ k % 4 = 0)) → s.chip.powered = true → s.chip.time.gated = false → ∃ t, Sys2Proof.Machine.exec (.registerWrite w
      size a v) s = .next t ∧
    Only [pageBase k + H.ERR] [] s t ∧ t.chip.bit (pageBase k + H.ERR) PErr.width.bit = true)
  ∧ (∀ (w : Writer) (a v : BitVec 32) (b : Nat) (s : State), b % 0x1000 = 0 → (pageAt b).isSome = true → a.toNat = 0x40000000 + (b +
      H.EVT_EN) → May w (b + H.EVT_EN) s → b ≠ P.SCFG → ∃ t, Sys2Proof.Machine.exec (.registerWrite w 2 a v) s = .next t ∧
    Only [b + H.EVT_EN] [.lap] s t ∧ t.chip.rd (b + H.EVT_EN) = v)
  ∧ (∀ (w : Writer) (a v : BitVec 32) (s : State), a.toNat = 0x40000000 + R.HTM_PPS_CFG → Direct w R.HTM_PPS_CFG v s → ∃ t,
      Sys2Proof.Machine.exec (.registerWrite w 2 a v) s = .next t ∧
    OnlyEv [R.HTM_PPS_CFG] [] s t ∧ t.chip.is R.HTM_PPS_CFG F.HTM_PPS_CFG_EN = decide (fget v F.HTM_PPS_CFG_EN ≠ 0) ∧ t.chip.is
      R.HTM_PPS_CFG F.HTM_PPS_CFG_POL = decide (fget v F.HTM_PPS_CFG_POL ≠ 0) ∧ t.chip.f R.HTM_PPS_CFG F.HTM_PPS_CFG_WIDTH_US = fget v
      F.HTM_PPS_CFG_WIDTH_US)
  ∧ (∀ (w : Writer) (a : BitVec 32) (stamp : BitVec 64) (k : Nat) (s : State), regOffset a.toNat = some k → lowWord k = true → w.ini ≠ .twinA
      → w.ini ≠ .twinB → s.chip.powered = true → s.chip.time.gated = false → ∃ t, Sys2Proof.Machine.exec (.lowWordRead w a stamp) s =
      .next t ∧
    Only [] [.bus] s t ∧ t.chip.bus =
      { s.chip.bus with hiLatch := upd s.chip.bus.hiLatch w.ini.code fun _ => some (k + 4, s.readRaw w.ini.code (k + 4)) })
  ∧ (∀ (w : Writer) (a : BitVec 32) (stamp : BitVec 64) (k : Nat) (tw : Bool) (s : State), regOffset a.toNat = some k → w.ini = (if tw then
      Initiator.twinB else Initiator.twinA) → s.chip.powered = true → s.chip.time.gated = false → s.chip.twRuns tw = true →
      s.chip.twStalled tw = false → (s.chip.twin tw).rb = [] → s.chip.mode ≠ .replay → s.chip.red.twins.length = 2 → ∃ t,
      Sys2Proof.Machine.exec (.lowWordRead w a stamp) s = .next t ∧
    Only [] [.bus, .lap, .red] s t ∧ (t.chip.twin tw).ifq = (s.chip.twin tw).ifq ++ [⟨stamp.toNat, false, 0x40000000 + k, (s.readReg (1
      + b2n tw) k).toNat⟩])
  ∧ (∀ (w : Writer) (pg : Fin 576) (s : State), 0x1000 * pg.val = P.MASK → May w (P.MASK + H.CTL) s → ∃ t, Sys2Proof.Machine.exec
      (.pageSoftReset w pg) s = .next t ∧
    t.pending = s.pending ∧ t.chip.rd R.MASK_CFG = regReset R.MASK_CFG ∧ t.chip.rd R.MASK_STAT = regReset R.MASK_STAT)
  ∧ (∀ (w : Writer) (pg : Fin 576) (b : Nat) (s : State), b = 0x1000 * pg.val → (pageAt b).isSome = true → May w (b + H.CTL) s →
      s.chip.mayFreeze b = true → ∃ t, Sys2Proof.Machine.exec (.pageFreeze w pg) s = .next t ∧
    t.pending = s.pending ∧ t.mem = s.mem ∧ t.chip.frozen b = true)
  ∧ (∀ (w : Writer) (pg : Fin 576) (b : Nat) (s : State), b = 0x1000 * pg.val → b ≠ P.SCFG → (pageAt b).isSome = true → May w (b + H.CTL) s →
      s.chip.mayFreeze b = false → ∃ t, Sys2Proof.Machine.exec (.pageFreeze w pg) s = .next t ∧
    OnlyEv [b + H.ERR] [] s t ∧ t.chip.bit (b + H.ERR) 6 = true)
  ∧ (∀ (w : Writer) (pg : Fin 576) (s : State), 0x1000 * pg.val = P.HTM → May w (P.HTM + H.CTL) s → (s.chip.frozen P.HTM = false ∨
      s.chip.mayFreeze P.HTM = true) → ∃ t, Sys2Proof.Machine.exec (.pageSnap w pg) s = .next t ∧
    Only [P.HTM + H.CTL, R.HTM_SNAP_NS 0, R.HTM_SNAP_NS 1, R.HTM_SNAP_FRAC] [.lap] s t ∧ t.chip.rd64 (R.HTM_SNAP_NS 0) = s.chip.htNs ∧
      t.chip.rdN R.HTM_SNAP_FRAC = s.chip.time.ht / 2 ^ 32 % 2 ^ 16)
  ∧ (∀ (w : Writer) (pg : Fin 576) (bits : BitVec 32) (b : Nat) (s : State), b = 0x1000 * pg.val → b ≠ P.SCFG → (pageAt b).isSome = true →
      May w (b + H.EVT_SET) s → ∃ t, Sys2Proof.Machine.exec (.eventSet w pg bits) s = .next t ∧
    OnlyEv [] [] s t ∧ (∀ j < 32, nbit bits.toNat j = true → t.chip.bit (b + H.EVT) j = true))
  ∧ (∀ (pg : Fin 576) (s : State), s.chip.powered = true → s.chip.time.gated = false → s.chip.crcBusy.contains (0x1000 * pg.val) = true → ∃
      t, Sys2Proof.Machine.exec (.crcRecomputeDone pg) s = .next t ∧
    Only [] [.crc, .stale] s t ∧ t.chip.crcBusy = s.chip.crcBusy.filter (· ≠ 0x1000 * pg.val) ∧ t.chip.crcOf (0x1000 * pg.val) = pageCrc
      s.chip.rd (0x1000 * pg.val))

/-- O18 (R70, R71, R160, R256, R310, R311, R328, R418). Rows that write one enable bit: the bit reads as written. SEQ_GROUP_ENABLE sets the
group’s enable. SEQ_GROUP_DISABLE clears it. BPT_CHANNEL_ENABLE sets the channel’s enable. BPT_CHANNEL_DISABLE clears it. TIMEBASE_START
sets RUN of the timebase. TIMEBASE_STOP clears it. LANE_ENABLE sets EN of the lane. LANE_DISABLE clears it. SHADOW_WRITE in an open
transaction is staged: the register keeps its word. SLOT_WINDOW_WRITE in an open transaction is staged for the slot. STAGING_WRITE of a
transactional register joins the open context, and the register keeps its word. Commands that complete (exec answers a next state):
seqGroupEnable, seqGroupDisable, bptChannelEnable, bptChannelDisable, timebaseStart, timebaseStop, laneEnable, laneDisable, shadowWrite,
slotWindowWrite, stagingWrite. -/
def Obligations.EnableBitCommands : Prop :=
  (∀ (w : Writer) (g : Fin 2) (s : State), Direct w (R.SEQ_CTL) (fset (s.chip.rd (R.SEQ_CTL)) ⟨g.val, g.val⟩ 1) s → ∃ t,
      Sys2Proof.Machine.exec (.seqGroupEnable w g) s = .next t ∧
    t.pending = s.pending ∧ t.mem = s.mem ∧ t.chip.bit (R.SEQ_CTL) g.val = true)
  ∧ (∀ (w : Writer) (g : Fin 2) (s : State), Direct w (R.SEQ_CTL) (fset (s.chip.rd (R.SEQ_CTL)) ⟨g.val, g.val⟩ 0) s → ∃ t,
      Sys2Proof.Machine.exec (.seqGroupDisable w g) s = .next t ∧
    t.pending = s.pending ∧ t.mem = s.mem ∧ t.chip.bit (R.SEQ_CTL) g.val = false)
  ∧ (∀ (w : Writer) (ch : Fin 4) (s : State), Direct w (R.BPT_CTL) (fset (s.chip.rd (R.BPT_CTL)) ⟨ch.val, ch.val⟩ 1) s → ∃ t,
      Sys2Proof.Machine.exec (.bptChannelEnable w ch) s = .next t ∧
    t.pending = s.pending ∧ t.mem = s.mem ∧ t.chip.bit (R.BPT_CTL) ch.val = true)
  ∧ (∀ (w : Writer) (ch : Fin 4) (s : State), Direct w (R.BPT_CTL) (fset (s.chip.rd (R.BPT_CTL)) ⟨ch.val, ch.val⟩ 0) s → ∃ t,
      Sys2Proof.Machine.exec (.bptChannelDisable w ch) s = .next t ∧
    t.pending = s.pending ∧ t.mem = s.mem ∧ t.chip.bit (R.BPT_CTL) ch.val = false)
  ∧ (∀ (w : Writer) (n : Fin 4) (s : State), Direct w (R.PWT_CTL) (fset (s.chip.rd (R.PWT_CTL)) ⟨n.val, n.val⟩ 1) s → ∃ t,
      Sys2Proof.Machine.exec (.timebaseStart w n) s = .next t ∧
    t.pending = s.pending ∧ t.mem = s.mem ∧ t.chip.bit (R.PWT_CTL) n.val = true)
  ∧ (∀ (w : Writer) (n : Fin 4) (s : State), Direct w (R.PWT_CTL) (fset (s.chip.rd (R.PWT_CTL)) ⟨n.val, n.val⟩ 0) s → ∃ t,
      Sys2Proof.Machine.exec (.timebaseStop w n) s = .next t ∧
    t.pending = s.pending ∧ t.mem = s.mem ∧ t.chip.bit (R.PWT_CTL) n.val = false)
  ∧ (∀ (w : Writer) (n : Fin 8) (s : State), Direct w (R.LANE_CTL n) (fset (s.chip.rd (R.LANE_CTL n)) ⟨31, 31⟩ 1) s → ∃ t,
      Sys2Proof.Machine.exec (.laneEnable w n) s = .next t ∧
    t.pending = s.pending ∧ t.mem = s.mem ∧ t.chip.bit (R.LANE_CTL n) 31 = true)
  ∧ (∀ (w : Writer) (n : Fin 8) (s : State), Direct w (R.LANE_CTL n) (fset (s.chip.rd (R.LANE_CTL n)) ⟨31, 31⟩ 0) s → ∃ t,
      Sys2Proof.Machine.exec (.laneDisable w n) s = .next t ∧
    t.pending = s.pending ∧ t.mem = s.mem ∧ t.chip.bit (R.LANE_CTL n) 31 = false)
  ∧ (∀ (w : Writer) (k : Fin 16) (reg : Fin 3) (v : BitVec 32) (n : Nat) (s : State), May w (R.PWMC_PERIOD k + 4 * reg.val) s → s.chip.stager
      w = some n → (s.chip.ctx n).st = .opened → s.chip.holder (R.PWMC_PERIOD k + 4 * reg.val) = none → (s.chip.ctx n).entries.length <
      1024 → s.chip.poolUsed < 4096 → ∃ t, Sys2Proof.Machine.exec (.shadowWrite w k reg v) s = .next t ∧
    t.pending = s.pending ∧ t.mem = s.mem ∧ (t.chip.ctx n).entries = SMap.insert (SMap.erase (s.chip.ctx n).entries (R.PWMC_PERIOD k + 4
      * reg.val)) (R.PWMC_PERIOD k + 4 * reg.val) v ∧ t.chip.rd (R.PWMC_PERIOD k + 4 * reg.val) = s.chip.rd (R.PWMC_PERIOD k + 4 *
      reg.val))
  ∧ (∀ (w : Writer) (slot : Fin 1024) (v : BitVec 32) (n : Nat) (s : State), s.chip.powered = true → s.chip.time.gated = false → May w
      (R.STR_SLOT (slot.val % 512)) s → s.chip.stager w = some n → (s.chip.ctx n).st = .opened → s.chip.holder (Key.slot slot.val) =
      none → (s.chip.ctx n).entries.length < 1024 → s.chip.poolUsed < 4096 → ∃ t, Sys2Proof.Machine.exec (.slotWindowWrite w slot v) s =
      .next t ∧
    t.pending = s.pending ∧ t.mem = s.mem ∧ (t.chip.ctx n).entries = SMap.insert (SMap.erase (s.chip.ctx n).entries (Key.slot slot.val))
      (Key.slot slot.val) v)
  ∧ (∀ (w : Writer) (a v : BitVec 32) (n : Nat) (s : State), a.toNat = 0x40000000 + R.BPT_CTL → May w R.BPT_CTL s → s.chip.stager w = some n
      → (s.chip.ctx n).st = .opened → s.chip.holder R.BPT_CTL = none → (s.chip.ctx n).entries.length < 1024 → s.chip.poolUsed < 4096 → ∃
      t, Sys2Proof.Machine.exec (.stagingWrite w a v) s = .next t ∧
    t.pending = s.pending ∧ t.mem = s.mem ∧ (t.chip.ctx n).entries = SMap.insert (SMap.erase (s.chip.ctx n).entries R.BPT_CTL) R.BPT_CTL
      v ∧ t.chip.rd R.BPT_CTL = s.chip.rd R.BPT_CTL ∧ t.chip.bus.poolPeak = max s.chip.bus.poolPeak t.chip.poolUsed)

/-- O19 (R51, R52, R61, R62, R64, R635, R636, R652). Host port, QSPI target port and event delivery: what each command does where it takes
effect. HOST_WRITE enters the posted queue. While the queue is full it waits outside, shown in WAIT_SEEN. POSTED_WRITE_DELIVER takes the
oldest posted write, here one to HTM.PPS_CFG, out of the queue and performs it for the host. QSPI_READ changes nothing but the host’s
latch. QSPI_WRITE posts its words to consecutive addresses while there is room. QSPI_STATUS changes nothing: it only answers.
EVENT_OCCURRENCE sets the event’s PG_EVT bit. EVENT_DELIVERY to the Sheepdog latches the safe state. To a running twin that does not
stall it is taken out of what is under way and enters its input forwarding queue. EVT_NOTIFY_SEND puts the oldest occurrence for the
fabric into a packet with its time. EVENT_ACK retires a pending pulse of that twin. Commands that complete (exec answers a next state):
hostWrite, postedWriteDeliver, qspiRead, qspiWrite, qspiStatus, eventOccurrence, eventDelivery, evtNotifySend, eventAck. -/
def Obligations.PortAndEventCommands : Prop :=
  (∀ (a : BitVec 22) (v : BitVec 32) (s : State), Awake P.HPT s → s.chip.is R.HPT_STAT F.HPT_STAT_PORT = false → s.chip.boot.posted.length
      < 64 → ∃ t, Sys2Proof.Machine.exec (.hostWrite a v) s = .next t ∧
    OnlyEv [] [.boot] s t ∧ t.chip.boot = { s.chip.boot with posted := s.chip.boot.posted ++ [(4 * a.toNat, v)] })
  ∧ (∀ (a : BitVec 22) (v : BitVec 32) (s : State), Awake P.HPT s → s.chip.is R.HPT_STAT F.HPT_STAT_PORT = false → 64 ≤
      s.chip.boot.posted.length → ∃ t, Sys2Proof.Machine.exec (.hostWrite a v) s = .next t ∧
    Only [R.HPT_STAT] [] s t ∧ t.chip.is R.HPT_STAT F.HPT_STAT_WAIT_SEEN = true)
  ∧ (∀ (k : Nat) (v : Word) (r : List (Nat × Word)) (s : State), s.chip.powered = true → s.chip.time.gated = false → s.chip.boot.posted = (k,
      v) :: r → k = R.HTM_PPS_CFG → May ⟨.host, 0⟩ k s → s.chip.stager ⟨.host, 0⟩ = none → s.chip.holder k = none → s.chip.deny
      (s.chip.wr k (s.chip.nextWord k v)) 3 k = none → ∃ t, Sys2Proof.Machine.exec (.postedWriteDeliver) s = .next t ∧
    t.pending = s.pending ∧ t.mem = s.mem ∧ t.chip.boot.posted = r ∧ t.chip.f k F.HTM_PPS_CFG_WIDTH_US = fget v F.HTM_PPS_CFG_WIDTH_US)
  ∧ (∀ (a : BitVec 22) (n : BitVec 16) (s : State), s.chip.is R.HPT_STAT F.HPT_STAT_PORT = true → ∃ t, Sys2Proof.Machine.exec (.qspiRead a n)
      s = .next t ∧
    Only [] [.bus] s t ∧ (∀ j, j ≠ 3 → nth t.chip.bus.hiLatch j none = nth s.chip.bus.hiLatch j none) ∧ (n = 1 → lowWord (4 * a.toNat) =
      true → s.chip.powered = true → t.chip.bus.hiLatch = upd s.chip.bus.hiLatch 3 fun _ => some (4 * a.toNat + 4, s.readRaw 3 (4 *
      a.toNat + 4))))
  ∧ (∀ (a : BitVec 22) (ws : List (BitVec 32)) (s : State), Awake P.HPT s → s.chip.is R.HPT_STAT F.HPT_STAT_PORT = true →
      s.chip.boot.posted.length + ws.length ≤ 64 → ∃ t, Sys2Proof.Machine.exec (.qspiWrite a ws) s = .next t ∧
    OnlyEv [] [.boot] s t ∧ t.chip.boot =
      { s.chip.boot with posted := s.chip.boot.posted ++ ws.zipIdx.map fun e => (4 * ((a.toNat + e.2) % 2 ^ 22), e.1) })
  ∧ (∀ (s : State), ∃ t, Sys2Proof.Machine.exec (.qspiStatus) s = .next t ∧
    t = s)
  ∧ (∀ (pg : Fin 576) (bit : Fin 32) (s : State), (pageAt (0x1000 * pg.val)).isSome = true → s.chip.powered = true → s.chip.halted (0x1000 *
      pg.val) = false → ∃ t, Sys2Proof.Machine.exec (.eventOccurrence pg bit) s = .next t ∧
    OnlyEv [] [] s t ∧ t.chip.bit (0x1000 * pg.val + H.EVT) bit = true)
  ∧ (∀ (stamp : BitVec 64) (src : Nat) (r : List (Nat × EvDest)) (s : State), Awake P.EVR s → s.chip.bus.deliveries = (src, .sheepdog) :: r →
      ∃ t, Sys2Proof.Machine.exec (.eventDelivery stamp) s = .next t ∧
    Quiet s t ∧ t.chip.is R.SHD_STAT F.SHD_STAT_LATCH = true ∧ t.chip.mode = .safe)
  ∧ (∀ (stamp : BitVec 64) (src : Nat) (r : List (Nat × EvDest)) (s : State), Awake P.EVR s → s.chip.bus.deliveries = (src, .twinA) :: r →
      s.chip.twRuns false = true → s.chip.twStalled false = false → s.chip.lapState ≠ Ls.replaying → s.chip.red.twins.length = 2 → ∃ t,
      Sys2Proof.Machine.exec (.eventDelivery stamp) s = .next t ∧
    Only [] [.bus, .lap, .red] s t ∧ t.chip.bus = { s.chip.bus with deliveries := r } ∧ (t.chip.twin false).ifq = (s.chip.twin
      false).ifq ++ [⟨stamp.toNat, true, src, 0⟩])
  ∧ (∀ (src ses plane time : Nat) (r : List (Nat × EvDest)) (s : State), Awake P.EVR s → s.chip.bus.deliveries = (src, .fabric ses plane
      time) :: r → ∃ t, Sys2Proof.Machine.exec (.evtNotifySend) s = .next t ∧
    Only [] [.bus, .out] s t ∧ t.chip.bus = { s.chip.bus with deliveries := r } ∧ t.chip.out = s.chip.out ++ [⟨s.chip.packet 0x12 2 0
      (s.chip.f (Key.ses ses 0x200) F.SES_S_CFG_PEER) (some ses) 0 (src :: words64 time), 2 ^ plane, none, false⟩])
  ∧ (∀ (w : Writer) (twin : Bool) (src : BitVec 8) (s : State), May w (R.EVR_ACK (b2n twin)) s → ∃ t, Sys2Proof.Machine.exec (.eventAck w
      twin src) s = .next t ∧
    Only [] [.bus] s t ∧ t.chip.pend twin = (s.chip.pend twin).filter (· ≠ src.toNat) ∧ t.chip.pend (!twin) = s.chip.pend (!twin))

/-- O20 (R69, R72, R77, R80, R81, R82, R83, R87, R95, R679). Transactions of one device: what each command does where it takes effect.
TXN_BEGIN opens the lowest free context for a bank that holds none. TXN_BEGIN_HERD opens a herd context with the bank’s tag.
TXN_BEGIN_COORD opens a coordinator’s context with the bank’s tag. A bank that holds a context is BUSY. TXN_COMMIT NOW arms the open
context with its edge fixed. AT_EVENT with a timeout arms it for the event named. AT_HT at least 1 µs ahead arms it for that herd time.
Nearer than that it is LATE_T and the context stays open. TXN_ROLLBACK of an open context discards it. TXN_ABORT ends any context that
is in use. AT_EVENT_TIMEOUT ends a context whose event did not come. COMMIT_EDGE of an armed context without entries commits it. Where
it holds a word for CLK.SLOT2 the register takes it at that edge. Commands that complete (exec answers a next state): txnBegin,
txnBeginHerd, txnBeginCoord, txnCommit, txnRollback, txnAbort, atEventTimeout, commitEdge. -/
def Obligations.TransactionCommands : Prop :=
  (∀ (w : Writer) (n : Nat) (s : State), May w R.TXN_CMD s → 1 ≤ w.ini.code → w.ini.code ≤ 5 → s.chip.bankCtx w.ini.code = none →
      s.chip.findCtx (fun x => decide (x.st = .free)) = some n → ∃ t, Sys2Proof.Machine.exec (.txnBegin w theKey) s = .next t ∧
    Only [bank w.ini.code R.TXN_HTALLY] [.bus] s t ∧ t.chip.bus =
      { s.chip.bus with ctxs := upd s.chip.bus.ctxs (n - 1) fun _ => { Ctx.init with st := .opened, kind := .localCtx, ini := w.ini.code, ses := w.ses, tag := 0 }, bankRes := upd s.chip.bus.bankRes w.ini.code fun _ => Res.none }
      ∧ t.chip.rd (bank w.ini.code R.TXN_HTALLY) = 0)
  ∧ (∀ (w : Writer) (n : Nat) (s : State), May w R.TXN_CMD s → 1 ≤ w.ini.code → w.ini.code ≤ 5 → s.chip.bankCtx w.ini.code = none →
      s.chip.findCtx (fun x => decide (x.st = .free)) = some n → ∃ t, Sys2Proof.Machine.exec (.txnBeginHerd w theKey) s = .next t ∧
    Only [bank w.ini.code R.TXN_HTALLY] [.bus] s t ∧ t.chip.bus =
      { s.chip.bus with ctxs := upd s.chip.bus.ctxs (n - 1) fun _ => { Ctx.init with st := .opened, kind := .herd, ini := w.ini.code, ses := w.ses, tag := s.chip.rdN (bank w.ini.code R.TXN_HTAG) }, bankRes := upd s.chip.bus.bankRes w.ini.code fun _ => Res.none }
      ∧ t.chip.rd (bank w.ini.code R.TXN_HTALLY) = 0)
  ∧ (∀ (w : Writer) (n : Nat) (s : State), May w R.TXN_CMD s → 1 ≤ w.ini.code → w.ini.code ≤ 5 → s.chip.bankCtx w.ini.code = none →
      s.chip.findCtx (fun x => decide (x.st = .free)) = some n → ∃ t, Sys2Proof.Machine.exec (.txnBeginCoord w theKey) s = .next t ∧
    Only [bank w.ini.code R.TXN_HTALLY] [.bus] s t ∧ t.chip.bus =
      { s.chip.bus with ctxs := upd s.chip.bus.ctxs (n - 1) fun _ => { Ctx.init with st := .opened, kind := .coord, ini := w.ini.code, ses := w.ses, tag := s.chip.rdN (bank w.ini.code R.TXN_HTAG) }, bankRes := upd s.chip.bus.bankRes w.ini.code fun _ => Res.none }
      ∧ t.chip.rd (bank w.ini.code R.TXN_HTALLY) = 0)
  ∧ (∀ (w : Writer) (n : Nat) (s : State), May w R.TXN_CMD s → 1 ≤ w.ini.code → w.ini.code ≤ 5 → w.ini.code ≠ 4 → s.chip.bankCtx w.ini.code =
      some n → ∃ t, Sys2Proof.Machine.exec (.txnBegin w theKey) s = .next t ∧
    Only [] [.bus] s t ∧ t.chip.bus = { s.chip.bus with bankRes := upd s.chip.bus.bankRes w.ini.code fun _ => Res.busy })
  ∧ (∀ (w : Writer) (n : Nat) (s : State), May w R.TXN_CMD s → 1 ≤ w.ini.code → w.ini.code ≤ 5 → w.ini.code ≠ 4 → s.chip.bankCtx w.ini.code =
      some n → (s.chip.ctx n).st = .opened → ∃ t, Sys2Proof.Machine.exec (.txnCommit w theKey 0) s = .next t ∧
    Only [] [.bus] s t ∧ t.chip.bus =
      { s.chip.bus with ctxs := upd s.chip.bus.ctxs (n - 1) fun x => { x with st := .armed, mode := .now, edgeFixed := true }, bankRes := upd s.chip.bus.bankRes w.ini.code fun _ => Res.none })
  ∧ (∀ (w : Writer) (n : Nat) (s : State), May w R.TXN_CMD s → 1 ≤ w.ini.code → w.ini.code ≤ 5 → w.ini.code ≠ 4 → s.chip.bankCtx w.ini.code =
      some n → (s.chip.ctx n).st = .opened → s.chip.f (bank w.ini.code R.TXN_EVT_ARG) F.TXN_EVT_ARG_TIMEOUT_US ≠ 0 → ∃ t,
      Sys2Proof.Machine.exec (.txnCommit w theKey 1) s = .next t ∧
    Only [] [.bus] s t ∧ t.chip.bus =
      { s.chip.bus with ctxs := upd s.chip.bus.ctxs (n - 1) fun x => { x with st := .armed, mode := .atEvent, event := s.chip.f (bank w.ini.code R.TXN_EVT_ARG) F.TXN_EVT_ARG_EVENT, edgeFixed := false }, bankRes := upd s.chip.bus.bankRes w.ini.code fun _ => Res.none })
  ∧ (∀ (w : Writer) (n : Nat) (s : State), May w R.TXN_CMD s → 1 ≤ w.ini.code → w.ini.code ≤ 5 → w.ini.code ≠ 4 → s.chip.bankCtx w.ini.code =
      some n → (s.chip.ctx n).st = .opened → s.chip.time.ht + 1000 * 2 ^ 48 ≤ s.chip.rd64 (bank w.ini.code (R.TXN_T 0)) * 2 ^ 48 → ∃ t,
      Sys2Proof.Machine.exec (.txnCommit w theKey 2) s = .next t ∧
    Only [] [.bus] s t ∧ t.chip.bus =
      { s.chip.bus with ctxs := upd s.chip.bus.ctxs (n - 1) fun x => { x with st := .armed, mode := .atHt, t := s.chip.rd64 (bank w.ini.code (R.TXN_T 0)), edgeFixed := false }, bankRes := upd s.chip.bus.bankRes w.ini.code fun _ => Res.none })
  ∧ (∀ (w : Writer) (n : Nat) (s : State), May w R.TXN_CMD s → 1 ≤ w.ini.code → w.ini.code ≤ 5 → w.ini.code ≠ 4 → s.chip.bankCtx w.ini.code =
      some n → (s.chip.ctx n).st = .opened → s.chip.rd64 (bank w.ini.code (R.TXN_T 0)) * 2 ^ 48 < s.chip.time.ht + 1000 * 2 ^ 48 → ∃ t,
      Sys2Proof.Machine.exec (.txnCommit w theKey 2) s = .next t ∧
    Only [] [.bus] s t ∧ t.chip.bus = { s.chip.bus with bankRes := upd s.chip.bus.bankRes w.ini.code fun _ => Res.lateT })
  ∧ (∀ (w : Writer) (n : Nat) (s : State), May w R.TXN_CMD s → 1 ≤ w.ini.code → w.ini.code ≤ 5 → w.ini.code ≠ 4 → s.chip.bankCtx w.ini.code =
      some n → (s.chip.ctx n).st = .opened → (s.chip.ctx n).voted = false → ∃ t, Sys2Proof.Machine.exec (.txnRollback w theKey) s =
      .next t ∧
    OnlyEv [R.TXN_HLAST_TAG, R.TXN_HLAST_RES] [] s t ∧ t.chip.ctx n =
      { Ctx.init with ini := (s.chip.ctx n).ini, result := Res.rolledBack } ∧ t.chip.bus.bankRes = upd s.chip.bus.bankRes (s.chip.ctx
      n).ini fun _ => Res.rolledBack)
  ∧ (∀ (w : Writer) (n : Fin 16) (s : State), May w R.TXN_ABORT s → n ≠ 0 → (s.chip.ctx n).st ≠ .free → ∃ t, Sys2Proof.Machine.exec
      (.txnAbort w theKey n) s = .next t ∧
    OnlyEv [R.TXN_HLAST_TAG, R.TXN_HLAST_RES] [] s t ∧ t.chip.ctx n = { Ctx.init with ini := (s.chip.ctx n).ini, result := Res.aborted }
      ∧ t.chip.bus.bankRes = upd s.chip.bus.bankRes (s.chip.ctx n).ini fun _ => Res.aborted)
  ∧ (∀ (n : Fin 16) (s : State), Awake P.TXN s → n ≠ 0 → (s.chip.ctx n).st = .armed → (s.chip.ctx n).mode = .atEvent → (s.chip.ctx
      n).edgeFixed = false → ∃ t, Sys2Proof.Machine.exec (.atEventTimeout n) s = .next t ∧
    OnlyEv [R.TXN_HLAST_TAG, R.TXN_HLAST_RES] [] s t ∧ t.chip.ctx n = { Ctx.init with ini := (s.chip.ctx n).ini, result := Res.timeout }
      ∧ t.chip.bus.bankRes = upd s.chip.bus.bankRes (s.chip.ctx n).ini fun _ => Res.timeout)
  ∧ (∀ (m : BitVec 16) (n : Nat) (s : State), Awake P.TXN s → 1 ≤ n → n ≤ 15 → m.toNat = 2 ^ n → s.chip.commits n = true → (s.chip.ctx
      n).late = false → (s.chip.ctx n).ini ≠ 0 → (s.chip.ctx n).entries = [] → ∃ t, Sys2Proof.Machine.exec (.commitEdge m) s = .next t ∧
    t.pending = s.pending ∧ t.mem = s.mem ∧ t.chip.ctx n = { Ctx.init with ini := (s.chip.ctx n).ini, result := Res.committed } ∧
      t.chip.bus.bankRes = upd s.chip.bus.bankRes (s.chip.ctx n).ini fun _ => Res.committed)
  ∧ (∀ (m : BitVec 16) (n : Nat) (v : Word) (s : State), Awake P.TXN s → 1 ≤ n → n ≤ 15 → m.toNat = 2 ^ n → s.chip.commits n = true →
      (s.chip.ctx n).ini ≠ 0 → (s.chip.ctx n).ini ≠ 7 → (s.chip.ctx n).entries = [(R.CLK_SLOT 2, v)] → ∃ t, Sys2Proof.Machine.exec
      (.commitEdge m) s = .next t ∧
    t.pending = s.pending ∧ t.mem = s.mem ∧ t.chip.rd (R.CLK_SLOT 2) = s.chip.nextWord (R.CLK_SLOT 2) v ∧ (t.chip.ctx n).st = .free)

/-- O21 (R88, R89, R90, R91, R92, R93, R94, R95, R459). Herd-wide transactions: what each command does where it takes effect. TXN_H_PREPARE
sends PREPARE with the tallies at zero. With HEXPECT 0 and AUTO the tally is reached at once, so COMMIT_AT follows (log entry 122,
DESIGN CHOICE). TXN_H_COMMIT in time sends COMMIT_AT and arms the coordinator’s own context. TXN_H_ABORT sends ABORT and ends the
context. TXN_H_RESOLVE sends the resolution (with T2 zero it sends ABORT: log entry 30, DESIGN CHOICE). GUARD_EXPIRY leaves a prepared
context in doubt. IN_DOUBT_TIMEOUT ends it as MISSED. AUTO_ABORT_DEADLINE with the tally short sends ABORT. Commands that complete (exec
answers a next state): txnHPrepare, txnHCommit, txnHAbort, txnHResolve, guardExpiry, inDoubtTimeout, autoAbortDeadline. -/
def Obligations.HerdTransactionCommands : Prop :=
  (∀ (w : Writer) (n : Nat) (s : State), May w R.TXN_CMD s → 1 ≤ w.ini.code → w.ini.code ≤ 5 → w.ini.code ≠ 4 → s.chip.bankCtx w.ini.code =
      some n → (s.chip.ctx n).kind = .coord → (s.chip.ctx n).st ≠ .doomed → s.chip.f (bank w.ini.code R.TXN_HEXPECT) F.TXN_HEXPECT_COUNT
      ≠ 0 → ∃ t, Sys2Proof.Machine.exec (.txnHPrepare w theKey) s = .next t ∧
    Only [bank w.ini.code R.TXN_HTALLY] [.bus, .out] s t ∧ (t.chip.ctx n).st = .coordinating ∧ (t.chip.ctx n).yes = 0 ∧ (t.chip.ctx
      n).no = 0 ∧ t.chip.out.length = s.chip.out.length + 1)
  ∧ (∀ (w : Writer) (n : Nat) (s : State), May w R.TXN_CMD s → 1 ≤ w.ini.code → w.ini.code ≤ 5 → w.ini.code ≠ 4 → s.chip.bankCtx w.ini.code =
      some n → (s.chip.ctx n).kind = .coord → (s.chip.ctx n).st ≠ .doomed → s.chip.f (bank w.ini.code R.TXN_HEXPECT) F.TXN_HEXPECT_COUNT
      = 0 → s.chip.f (bank w.ini.code R.TXN_HDEST) F.TXN_HDEST_AUTO = 1 → s.chip.inTime (s.chip.f (bank w.ini.code R.TXN_HPARM)
      F.TXN_HPARM_GUARD_US) (s.chip.rd64 (bank w.ini.code (R.TXN_T 0))) = true → ∃ t, Sys2Proof.Machine.exec (.txnHPrepare w theKey) s =
      .next t ∧
    t.pending = s.pending ∧ t.mem = s.mem ∧ (t.chip.ctx n).st = .armed ∧ t.chip.out.length = s.chip.out.length + 2)
  ∧ (∀ (w : Writer) (n : Nat) (s : State), May w R.TXN_CMD s → 1 ≤ w.ini.code → w.ini.code ≤ 5 → w.ini.code ≠ 4 → s.chip.bankCtx w.ini.code =
      some n → (s.chip.ctx n).kind = .coord → (s.chip.ctx n).st ≠ .doomed → s.chip.inTime (s.chip.f (bank w.ini.code R.TXN_HPARM)
      F.TXN_HPARM_GUARD_US) (s.chip.rd64 (bank w.ini.code (R.TXN_T 0))) = true → ∃ t, Sys2Proof.Machine.exec (.txnHCommit w theKey) s =
      .next t ∧
    Only [] [.bus, .out] s t ∧ (t.chip.ctx n).st = .armed ∧ (t.chip.ctx n).mode = .atHt ∧ (t.chip.ctx n).t = s.chip.rd64 (bank
      w.ini.code (R.TXN_T 0)) ∧ t.chip.out.length = s.chip.out.length + 1)
  ∧ (∀ (w : Writer) (n : Nat) (s : State), May w R.TXN_CMD s → 1 ≤ w.ini.code → w.ini.code ≤ 5 → w.ini.code ≠ 4 → s.chip.bankCtx w.ini.code =
      some n → (s.chip.ctx n).kind = .coord → (s.chip.ctx n).st ≠ .doomed → (s.chip.ctx n).st ≠ .free → ∃ t, Sys2Proof.Machine.exec
      (.txnHAbort w theKey) s = .next t ∧
    OnlyEv [R.TXN_HLAST_TAG, R.TXN_HLAST_RES] [.out] s t ∧ (t.chip.ctx n).st = .free ∧ (t.chip.ctx n).result = Res.aborted ∧
      t.chip.out.length = s.chip.out.length + 1)
  ∧ (∀ (w : Writer) (n : Nat) (s : State), May w R.TXN_CMD s → 1 ≤ w.ini.code → w.ini.code ≤ 5 → w.ini.code ≠ 4 → s.chip.bankCtx w.ini.code =
      some n → (s.chip.ctx n).kind = .coord → (s.chip.ctx n).st ≠ .doomed → ∃ t, Sys2Proof.Machine.exec (.txnHResolve w theKey) s =
      .next t ∧
    Only [] [.out] s t ∧ t.chip.out.length = s.chip.out.length + 1)
  ∧ (∀ (n : Fin 16) (s : State), Awake P.TXN s → n ≠ 0 → (s.chip.ctx n).st = .prepared → ∃ t, Sys2Proof.Machine.exec (.guardExpiry n) s =
      .next t ∧
    OnlyEv [R.FAB_CTL] [.fab] s t ∧ (t.chip.ctx n).st = .inDoubt)
  ∧ (∀ (n : Fin 16) (s : State), Awake P.TXN s → n ≠ 0 → (s.chip.ctx n).st = .inDoubt → ∃ t, Sys2Proof.Machine.exec (.inDoubtTimeout n) s =
      .next t ∧
    OnlyEv [R.FAB_CTL, R.TXN_HLAST_TAG, R.TXN_HLAST_RES] [.fab] s t ∧ t.chip.ctx n =
      { Ctx.init with ini := (s.chip.ctx n).ini, result := Res.missed } ∧ t.chip.bus.bankRes = upd s.chip.bus.bankRes (s.chip.ctx n).ini
      fun _ => Res.missed)
  ∧ (∀ (n : Fin 16) (s : State), Awake P.TXN s → n ≠ 0 → (s.chip.ctx n).st = .coordinating → (s.chip.ctx n).auto = true → (s.chip.ctx n).yes
      < (s.chip.ctx n).expect → (s.chip.ctx n).sent = false → ∃ t, Sys2Proof.Machine.exec (.autoAbortDeadline n) s = .next t ∧
    OnlyEv [R.TXN_HLAST_TAG, R.TXN_HLAST_RES] [.out] s t ∧ (t.chip.ctx n).st = .free ∧ (t.chip.ctx n).result = Res.aborted ∧
      t.chip.out.length = s.chip.out.length + 1)

/-- O22 (R499, R503, R512, R513, R514, R523). Safety inputs, start-up test and grace time: what each command does where it takes effect.
SIN_CONTACT_CHANGE shows the debounced levels; from NONPERM, WAIT_ON and DISABLED no demand follows. Both contacts of a permissive pair
opening is a demand; with action SAFE it latches the safe state. DISCREPANCY_EXPIRY in a wait puts the pair into FAULT and latches the
safe state. SIN_DELAY_EXPIRY of a delayed demand latches the safe state. SHD_STARTUP_TEST_DONE passed shows STARTUP_OK. Failed it
latches the safe state until power-on reset. GRACE_EXPIRY latches the safe state. Commands that complete (exec answers a next state):
sinContactChange, discrepancyExpiry, sinDelayExpiry, shdStartupTestDone, graceExpiry. -/
def Obligations.SafetyInputCommands : Prop :=
  (∀ (k : Fin 8) (a b : Bool) (s : State), s.chip.powered = true → (s.chip.pairState k = 2 ∨ s.chip.pairState k = 3 ∨ s.chip.pairState k =
      5) → ∃ t, Sys2Proof.Machine.exec (.sinContactChange k a b) s = .next t ∧
    OnlyEv [R.SIN_STAT, R.SIN_STATE] [.shd] s t ∧ t.chip.bit R.SIN_STAT (16 + 2 * k.val) = a ∧ t.chip.bit R.SIN_STAT (17 + 2 * k.val) =
      b)
  ∧ (∀ (k : Fin 8) (a b : Bool) (s : State), s.chip.powered = true → s.chip.pairState k = 0 → (s.chip.pair k).seen = (true, true) → a = false
      → b = (s.chip.is (R.SCFG_SIN k) F.SCFG_SIN_MODE) → s.chip.f (R.SCFG_SIN k) F.SCFG_SIN_ACT = 0 → ∃ t, Sys2Proof.Machine.exec
      (.sinContactChange k a b) s = .next t ∧
    Quiet s t ∧ t.chip.pairState k = 2 ∧ t.chip.is R.SHD_STAT F.SHD_STAT_LATCH = true ∧ t.chip.mode = .safe)
  ∧ (∀ (k : Fin 8) (s : State), s.chip.powered = true → (s.chip.pairState k = 1 ∨ s.chip.pairState k = 3) → ∃ t, Sys2Proof.Machine.exec
      (.discrepancyExpiry k) s = .next t ∧
    Quiet s t ∧ t.chip.pairState k = 4 ∧ t.chip.is R.SHD_STAT F.SHD_STAT_LATCH = true ∧ t.chip.mode = .safe)
  ∧ (∀ (k : Fin 8) (s : State), s.chip.powered = true → 0 < (s.chip.pair k).delays → ∃ t, Sys2Proof.Machine.exec (.sinDelayExpiry k) s =
      .next t ∧
    Quiet s t ∧ (t.chip.pair k).delays = (s.chip.pair k).delays - 1 ∧ t.chip.is R.SHD_STAT F.SHD_STAT_LATCH = true ∧ t.chip.mode = .safe)
  ∧ (∀ (s : State), s.chip.powered = true → ∃ t, Sys2Proof.Machine.exec (.shdStartupTestDone true) s = .next t ∧
    Only [R.SHD_STAT, R.SOUT_STAT] [] s t ∧ t.chip.is R.SHD_STAT F.SHD_STAT_STARTUP_OK = true)
  ∧ (∀ (s : State), s.chip.powered = true → ∃ t, Sys2Proof.Machine.exec (.shdStartupTestDone false) s = .next t ∧
    Quiet s t ∧ t.chip.safe.startupFailed = true ∧ t.chip.is R.SHD_STAT F.SHD_STAT_LATCH = true ∧ t.chip.mode = .safe)
  ∧ (∀ (s : State), s.chip.powered = true → s.chip.safe.graceRun = true → ∃ t, Sys2Proof.Machine.exec (.graceExpiry) s = .next t ∧
    Quiet s t ∧ t.chip.safe.graceRun = false ∧ t.chip.rd R.SHD_GRACE_REM = 0xFFFFFFFF#32 ∧ t.chip.is R.SHD_STAT F.SHD_STAT_LATCH = true
      ∧ t.chip.mode = .safe)

/-- O23 (R504, R505, R508, R509, R510, R511). Safety outputs: what each command does where it takes effect. OFF_PULSE_START pulses the next
side of a channel that is ON. OFF_PULSE_END with the samples LOW passes. With both sides failing it latches the safe state. SOUT_TEST
pulses each channel named that is ON. SOUT_SETTLE_END resumes the read-back with the class sampled. READBACK_FAILURE latches the safe
state. SBT_TRIP_PULSE_END ends the trip pulse. SGR_APPLY applies the gate supplies. With the latch set, in BOOT and in REPLAY it is only
recorded as STATE. SGR_REMOVE removes them. Commands that complete (exec answers a next state): offPulseStart, offPulseEnd, soutTest,
soutSettleEnd, readbackFailure, sbtTripPulseEnd, sgrApply, sgrRemove. -/
def Obligations.SafetyOutputCommands : Prop :=
  (∀ (k : Fin 8) (s : State), s.chip.powered = true → s.chip.is (R.SCFG_SO_CFG k) F.SCFG_SO_CFG_TEST = true → s.chip.bit R.SOUT_STAT k =
      true → (s.chip.sout k).pulse = none → k.val < s.chip.safe.sout.length → ∃ t, Sys2Proof.Machine.exec (.offPulseStart k) s = .next t
      ∧
    Only [] [.safe] s t ∧ t.chip.safe =
      { s.chip.safe with sout := upd s.chip.safe.sout k fun x => { x with pulse := some x.nextM, nextM := !x.nextM } })
  ∧ (∀ (k : Fin 8) (m : Bool) (s : State), s.chip.powered = true → (s.chip.sout k).pulse = some m → ∃ t, Sys2Proof.Machine.exec (.offPulseEnd
      k true) s = .next t ∧
    Quiet s t ∧ (t.chip.sout k).pulse = none ∧ (t.chip.sout k).settle = true ∧ t.chip.bit R.SOUT_STAT (8 + k.val) = true)
  ∧ (∀ (k : Fin 8) (m : Bool) (s : State), s.chip.powered = true → (s.chip.sout k).pulse = some m → (if m then (s.chip.sout k).passP else
      (s.chip.sout k).passM) = false → ∃ t, Sys2Proof.Machine.exec (.offPulseEnd k false) s = .next t ∧
    Quiet s t ∧ (t.chip.sout k).pulse = none ∧ t.chip.is R.SHD_STAT F.SHD_STAT_LATCH = true ∧ t.chip.mode = .safe)
  ∧ (∀ (w : Writer) (m : BitVec 8) (k : Fin 8) (s : State), May w R.SOUT_CMD s → nbit m.toNat k = true → s.chip.bit R.SOUT_STAT k = true →
      (s.chip.sout k).pulse = none → k.val < s.chip.safe.sout.length → ∃ t, Sys2Proof.Machine.exec (.soutTest w theKey m) s = .next t ∧
    Only [] [.safe] s t ∧ (t.chip.sout k).pulse = some (s.chip.sout k).nextM)
  ∧ (∀ (k : Fin 8) (rb : Fin 3) (s : State), s.chip.powered = true → ∃ t, Sys2Proof.Machine.exec (.soutSettleEnd k rb) s = .next t ∧
    Only [R.SOUT_RB, R.SOUT_STAT, R.SHD_STAT] [.safe] s t ∧ t.chip.f R.SOUT_RB ⟨2 * k.val + 1, 2 * k.val⟩ = rb ∧ t.chip.safe =
      { s.chip.safe with sout := upd s.chip.safe.sout k fun x => { x with settle := false, switched := false } })
  ∧ (∀ (k : Fin 8) (rb : Fin 3) (s : State), s.chip.powered = true → (s.chip.sout k).settle = false → (s.chip.sout k).pulse = none → rb.val ≠
      b2n (s.chip.bit R.SOUT_STAT k) → ∃ t, Sys2Proof.Machine.exec (.readbackFailure k rb) s = .next t ∧
    Quiet s t ∧ t.chip.bit R.SOUT_STAT (8 + k.val) = false ∧ t.chip.f R.SOUT_RB ⟨2 * k.val + 1, 2 * k.val⟩ = rb ∧ t.chip.is R.SHD_STAT
      F.SHD_STAT_LATCH = true ∧ t.chip.mode = .safe)
  ∧ (∀ (k : Fin 8) (s : State), s.chip.powered = true → ∃ t, Sys2Proof.Machine.exec (.sbtTripPulseEnd k) s = .next t ∧
    Quiet s t ∧ (t.chip.sout k).trip = false)
  ∧ (∀ (w : Writer) (s : State), May w R.SHD_CMD s → s.chip.is R.SHD_STAT F.SHD_STAT_LATCH = false → s.chip.mode ≠ .boot → s.chip.mode ≠
      .replay → ∃ t, Sys2Proof.Machine.exec (.sgrApply w theKey) s = .next t ∧
    Only [R.SOUT_STAT, R.SHD_STAT] [.safe] s t ∧ t.chip.safe.sgr = true)
  ∧ (∀ (w : Writer) (s : State), May w R.SHD_CMD s → (s.chip.is R.SHD_STAT F.SHD_STAT_LATCH = true ∨ s.chip.mode = .boot ∨ s.chip.mode =
      .replay) → ∃ t, Sys2Proof.Machine.exec (.sgrApply w theKey) s = .next t ∧
    Quiet s t ∧ t.chip = s.chip.perr R.SHD_CMD .state w.ini.code)
  ∧ (∀ (w : Writer) (s : State), May w R.SHD_CMD s → ∃ t, Sys2Proof.Machine.exec (.sgrRemove w theKey) s = .next t ∧
    Only [R.SOUT_STAT, R.SHD_STAT] [.safe] s t ∧ t.chip.safe.sgr = false)

/-- O24 (R30, R515, R517, R518, R519, R520, R521). Safe messages: what each command does where it takes effect. SAFE_TX_PERIOD sends the
next frame of an enabled connection on both planes. SAFE_FRAME_INJECT puts one pair per enabled connection ahead of what waits.
SAFE_COPY_RX with a wrong check code is counted and changes nothing of its connection. A copy that passes every check with a newer
sequence number is accepted and its data shown. SCOM_WATCHDOG_EXPIRY in RUN or DEGRADED with action SAFE latches the safe state. A copy
that arrives in the cycle of expiry wins (R37). PLANE_WATCHDOG shows the plane fault of the silent plane. A copy on the silent plane
that arrives in that cycle wins (R37). Commands that complete (exec answers a next state): safeTxPeriod, safeFrameInject, safeCopyRx,
scomWatchdogExpiry, planeWatchdog. -/
def Obligations.SafeMessageCommands : Prop :=
  (∀ (k : Fin 8) (s : State), s.chip.powered = true → (s.chip.mode = .ready ∨ s.chip.mode = .run ∨ s.chip.mode = .degraded ∨ s.chip.mode =
      .safe) → s.chip.is (R.SCFG_TX_A k) F.SCFG_TX_A_EN = true → ∃ t, Sys2Proof.Machine.exec (.safeTxPeriod k) s = .next t ∧
    Only [] [.shd, .out] s t ∧ t.chip.out = s.chip.out ++ [⟨(s.chip.safePair k).1, 3, none, false⟩] ∧ t.chip.shd =
      { s.chip.shd with txSeq := upd s.chip.shd.txSeq k fun _ => (nth s.chip.shd.txSeq k 0 + 1) % 2 ^ 32 })
  ∧ (∀ (s : State), s.chip.powered = true → s.chip.safe.injectDue = true → ∃ t, Sys2Proof.Machine.exec (.safeFrameInject) s = .next t ∧
    Only [] [.safe, .shd, .out] s t ∧ t.chip.safe = { s.chip.safe with injectDue := false } ∧ t.chip.out.length = s.chip.out.length +
      ((List.range 8).filter fun k => s.chip.is (R.SCFG_TX_A k) F.SCFG_TX_A_EN).length ∧ s.chip.out <:+ t.chip.out)
  ∧ (∀ (plane : Fin 2) (p : Packet) (k : Nat) (s : State), s.chip.powered = true → s.chip.time.gated = false → s.chip.admitted p = none → k <
      8 → s.chip.is (R.SCFG_RX_A k) F.SCFG_RX_A_EN = true → ((∀ j < 8, j ≠ k → s.chip.is (R.SCFG_RX_A j) F.SCFG_RX_A_EN = false)) →
      s.chip.f (R.SCFG_RX_A k) F.SCFG_RX_A_SRC = p.src.toNat → s.chip.f (R.SCFG_RX_B k) F.SCFG_RX_B_CONN_ID = p.w 0 / 2 ^ 16 → p.w 7 ≠
      safeCrc (s.chip.rdN R.SCFG_SCOM_SEED) ((List.range 8).map p.w) → ∃ t, Sys2Proof.Machine.exec (.safeCopyRx plane p) s = .next t ∧
    t.pending = s.pending ∧ t.mem = s.mem ∧ t.chip.f R.SCOM_ERR_0 F.SCOM_ERR_0_CHECK = min (s.chip.f R.SCOM_ERR_0 F.SCOM_ERR_0_CHECK +
      1) (2 ^ F.SCOM_ERR_0_CHECK.width - 1) ∧ t.chip.f (R.SCOM_RX_STAT k) F.SCOM_RX_STAT_STATE = s.chip.f (R.SCOM_RX_STAT k)
      F.SCOM_RX_STAT_STATE)
  ∧ (∀ (plane : Fin 2) (p : Packet) (k : Nat) (s : State), s.chip.powered = true → s.chip.time.gated = false → s.chip.admitted p = none → k <
      8 → s.chip.running = false → s.chip.is (R.SCFG_RX_A k) F.SCFG_RX_A_EN = true → ((∀ j < 8, j ≠ k → s.chip.is (R.SCFG_RX_A j)
      F.SCFG_RX_A_EN = false)) → s.chip.f (R.SCFG_RX_A k) F.SCFG_RX_A_SRC = p.src.toNat → s.chip.f (R.SCFG_RX_B k) F.SCFG_RX_B_CONN_ID =
      p.w 0 / 2 ^ 16 → p.w 7 = safeCrc (s.chip.rdN R.SCFG_SCOM_SEED) ((List.range 8).map p.w) → ((p.w64 2 : Int) - (s.chip.htNs :
      Int)).natAbs ≤ s.chip.f (R.SCFG_RX_B k) F.SCFG_RX_B_WDOG_MS * 10 ^ 6 → 1 ≤ (p.w 1 + 2 ^ 32 - (s.chip.rxc k).last) % 2 ^ 32 → (p.w
      1 + 2 ^ 32 - (s.chip.rxc k).last) % 2 ^ 32 < 2 ^ 31 → ∃ t, Sys2Proof.Machine.exec (.safeCopyRx plane p) s = .next t ∧
    t.pending = s.pending ∧ t.mem = s.mem ∧ t.chip.f (R.SCOM_RX_STAT k) F.SCOM_RX_STAT_STATE = 2 ∧ t.chip.rdN (R.SCOM_RX_DATA k) = p.w 5)
  ∧ (∀ (k : Fin 8) (s : State), s.chip.powered = true → s.chip.running = true → s.chip.is (R.SCFG_RX_A k) F.SCFG_RX_A_EN = true → s.chip.is
      (R.SCFG_RX_A k) F.SCFG_RX_A_ACT_TMO = false → ∃ t, Sys2Proof.Machine.exec (.scomWatchdogExpiry k false) s = .next t ∧
    Quiet s t ∧ t.chip.f (R.SCOM_RX_STAT k) F.SCOM_RX_STAT_STATE = 3 ∧ t.chip.is R.SHD_STAT F.SHD_STAT_LATCH = true ∧ t.chip.mode =
      .safe)
  ∧ (∀ (k : Fin 8) (s : State), s.chip.powered = true → ∃ t, Sys2Proof.Machine.exec (.scomWatchdogExpiry k true) s = .next t ∧
    Only [] [] s t)
  ∧ (∀ (k : Fin 8) (silent : Fin 2) (s : State), s.chip.powered = true → s.chip.is (R.SCFG_RX_A k) F.SCFG_RX_A_EN = true → s.chip.is
      (R.SCOM_RX_STAT k) (if silent.val = 0 then F.SCOM_RX_STAT_B_OK else F.SCOM_RX_STAT_A_OK) = true → ∃ t, Sys2Proof.Machine.exec
      (.planeWatchdog k silent false) s = .next t ∧
    Quiet s t ∧ t.chip.is (R.SCOM_RX_STAT k) F.SCOM_RX_STAT_PLANE_FAULT = true ∧ t.chip.is (R.SCOM_RX_STAT k) (if silent.val = 0 then
      F.SCOM_RX_STAT_A_OK else F.SCOM_RX_STAT_B_OK) = false)
  ∧ (∀ (k : Fin 8) (silent : Fin 2) (s : State), s.chip.powered = true → ∃ t, Sys2Proof.Machine.exec (.planeWatchdog k silent true) s = .next
      t ∧
    Only [] [] s t)

/-- O25 (R21, R22, R24, R26, R34, R40, R42, R57, R500, R501, R570). State requests: what each command does where it takes effect.
STATE_REQ_RUN in READY with the run permit enters RUN with the gate supplies applied. Without the permit it is refused with result 3.
STATE_REQ_STOP in RUN or DEGRADED is accepted. Elsewhere it is refused. STATE_REQ_RECOVER in SAFE with every cause recoverable and over
clears the latch and enters READY. With a cause that needs a reset it is refused with result 5. STATE_REQ_ENTER_REPLAY in READY with the
supplies removed and the Lap log frozen enters REPLAY. One that loses to a trigger of its cycle is refused for wrong state (R28). One
that loses to a trigger of its cycle is refused for wrong state (R28). One that loses to a trigger of its cycle is refused for wrong
state (R28). One that loses to a trigger of its cycle is refused for wrong state (R28). STATE_REQ_SAFE latches the safe state. Commands
that complete (exec answers a next state): stateReqRun, stateReqStop, stateReqRecover, stateReqEnterReplay, stateReqSafe. -/
def Obligations.StateRequestCommands : Prop :=
  (∀ (w : Writer) (s : State), May w R.SYS_STATE_REQ s → s.chip.mode = .ready → s.chip.anyFrozen = false → s.chip.permit = true → ∃ t,
      Sys2Proof.Machine.exec (.stateReqRun w theKey false) s = .next t ∧
    Quiet s t ∧ t.chip.mode = .run ∧ t.chip.safe.sgr = true ∧ t.chip.f R.SYS_STATE F.SYS_STATE_REQ_RESULT = 1)
  ∧ (∀ (w : Writer) (s : State), May w R.SYS_STATE_REQ s → s.chip.mode = .ready → s.chip.anyFrozen = false → s.chip.permit = false → ∃ t,
      Sys2Proof.Machine.exec (.stateReqRun w theKey false) s = .next t ∧
    Only [R.SYS_STATE] [] s t ∧ t.chip.f R.SYS_STATE F.SYS_STATE_REQ_RESULT = 3)
  ∧ (∀ (w : Writer) (s : State), May w R.SYS_STATE_REQ s → s.chip.running = true → ∃ t, Sys2Proof.Machine.exec (.stateReqStop w theKey false)
      s = .next t ∧
    t.pending = s.pending ∧ t.mem = s.mem ∧ t.chip.f R.SYS_STATE F.SYS_STATE_REQ_RESULT = 1)
  ∧ (∀ (w : Writer) (s : State), May w R.SYS_STATE_REQ s → s.chip.running = false → ∃ t, Sys2Proof.Machine.exec (.stateReqStop w theKey
      false) s = .next t ∧
    Only [R.SYS_STATE] [] s t ∧ t.chip.f R.SYS_STATE F.SYS_STATE_REQ_RESULT = 2)
  ∧ (∀ (w : Writer) (s : State), May w R.SYS_STATE_REQ s → s.chip.mode = .safe → s.chip.causesSeen.all recoverable = true →
      s.chip.causesSeen.all s.chip.causeClear = true → ∃ t, Sys2Proof.Machine.exec (.stateReqRecover w theKey false) s = .next t ∧
    t.pending = s.pending ∧ t.mem = s.mem ∧ t.chip.mode = .ready ∧ t.chip.is R.SHD_STAT F.SHD_STAT_LATCH = false ∧ t.chip.rd
      R.SHD_CAUSES_SEEN = 0 ∧ t.chip.f R.SYS_STATE F.SYS_STATE_REQ_RESULT = 1)
  ∧ (∀ (w : Writer) (s : State), May w R.SYS_STATE_REQ s → s.chip.mode = .safe → s.chip.causesSeen.all recoverable = false → ∃ t,
      Sys2Proof.Machine.exec (.stateReqRecover w theKey false) s = .next t ∧
    Only [R.SYS_STATE] [] s t ∧ t.chip.f R.SYS_STATE F.SYS_STATE_REQ_RESULT = 5)
  ∧ (∀ (w : Writer) (s : State), May w R.SYS_STATE_REQ s → s.chip.mode = .ready → s.chip.safe.sgr = false → (s.chip.lapState = Ls.frozen ∨
      s.chip.lapState = Ls.importing) → ∃ t, Sys2Proof.Machine.exec (.stateReqEnterReplay w theKey false) s = .next t ∧
    t.pending = s.pending ∧ t.mem = s.mem ∧ t.chip.mode = .replay ∧ t.chip.f R.SYS_STATE F.SYS_STATE_REQ_RESULT = 1)
  ∧ (∀ (w : Writer) (s : State), May w R.SYS_STATE_REQ s → ∃ t, Sys2Proof.Machine.exec (.stateReqRun w theKey true) s = .next t ∧
    Only [R.SYS_STATE] [] s t ∧ t.chip.f R.SYS_STATE F.SYS_STATE_REQ_RESULT = 2)
  ∧ (∀ (w : Writer) (s : State), May w R.SYS_STATE_REQ s → ∃ t, Sys2Proof.Machine.exec (.stateReqStop w theKey true) s = .next t ∧
    Only [R.SYS_STATE] [] s t ∧ t.chip.f R.SYS_STATE F.SYS_STATE_REQ_RESULT = 2)
  ∧ (∀ (w : Writer) (s : State), May w R.SYS_STATE_REQ s → ∃ t, Sys2Proof.Machine.exec (.stateReqRecover w theKey true) s = .next t ∧
    Only [R.SYS_STATE] [] s t ∧ t.chip.f R.SYS_STATE F.SYS_STATE_REQ_RESULT = 2)
  ∧ (∀ (w : Writer) (s : State), May w R.SYS_STATE_REQ s → ∃ t, Sys2Proof.Machine.exec (.stateReqEnterReplay w theKey true) s = .next t ∧
    Only [R.SYS_STATE] [] s t ∧ t.chip.f R.SYS_STATE F.SYS_STATE_REQ_RESULT = 2)
  ∧ (∀ (w : Writer) (s : State), May w R.SYS_STATE_REQ s → ∃ t, Sys2Proof.Machine.exec (.stateReqSafe w theKey) s = .next t ∧
    Quiet s t ∧ t.chip.is R.SHD_STAT F.SHD_STAT_LATCH = true ∧ t.chip.mode = .safe ∧ t.chip.f R.SYS_STATE F.SYS_STATE_REQ_RESULT = 1)

/-- O26 (R526, R527, R528, R529, R531, R532, R533). Seal, credential and change log: what each command does where it takes effect.
NEW_CHALLENGE writes eight words of random bits, free values (log entry 2, DESIGN CHOICE). CRED_VERIFY with the seal open and a fresh
challenge uses the challenge and takes the record from SRAM. CRED_VERIFY_DONE shows why a credential fails (the order of the checks is
the model’s choice: log entry 38, DESIGN CHOICE) or makes it active. END_CRED ends the active credential. CRED_EXPIRY ends it.
SEAL_CHANGE is shown; a closing lets the CRC be captured. SEAL_CRC_CAPTURE seals the present PG_CRC of SCFG. LOG_WRITE takes the oldest
entry out of the queue, gives it the next sequence number and writes its 96 bytes of FRAM, and no other byte. Commands that complete
(exec answers a next state): newChallenge, credVerify, credVerifyDone, endCred, credExpiry, sealChange, sealCrcCapture, logWrite. -/
def Obligations.SealCredentialLogCommands : Prop :=
  (∀ (w : Writer) (s : State), May w R.SHD_CMD s → ∃ t, Sys2Proof.Machine.exec (.newChallenge w theKey) s = .next t ∧
    Only [R.SHD_CHAL 0, R.SHD_CHAL 1, R.SHD_CHAL 2, R.SHD_CHAL 3, R.SHD_CHAL 4, R.SHD_CHAL 5, R.SHD_CHAL 6, R.SHD_CHAL 7] [.shd, .free]
      s t ∧ t.chip.shd = { s.chip.shd with chalAt := some s.chip.htNs } ∧ (∀ i < 8, t.chip.rd (R.SHD_CHAL i) = Config.freeWord
      (s.chip.freeCtr + i)))
  ∧ (∀ (w : Writer) (t0 : Nat) (s : State), May w R.SHD_CMD s → s.chip.shd.sealOpen = true → s.chip.shd.chalAt = some t0 → s.chip.htNs < t0 +
      600 * 10 ^ 9 → s.chip.is R.SHD_CRED_STAT F.SHD_CRED_STAT_BUSY = false → ∃ t, Sys2Proof.Machine.exec (.credVerify w theKey) s =
      .next t ∧
    Only [R.SHD_CRED_STAT] [.shd] s t ∧ t.chip.is R.SHD_CRED_STAT F.SHD_CRED_STAT_BUSY = true ∧ t.chip.shd =
      { s.chip.shd with chalAt := none, credRec := s.mem.sramGet (8 * s.chip.f R.SHD_CRED_PTR F.SHD_CRED_PTR_OFS8) 160 })
  ∧ (∀ (sigOk : Bool) (s : State), s.chip.powered = true → s.chip.is R.SHD_CRED_STAT F.SHD_CRED_STAT_BUSY = true → ∃ t,
      Sys2Proof.Machine.exec (.credVerifyDone sigOk) s = .next t ∧
    Quiet s t ∧ t.chip.is R.SHD_CRED_STAT F.SHD_CRED_STAT_BUSY = false ∧ t.chip.f R.SHD_CRED_STAT F.SHD_CRED_STAT_FAIL = s.chip.credFail
      s.chip.shd.credRec sigOk ∧ (s.chip.credFail s.chip.shd.credRec sigOk = 0 → t.chip.is R.SHD_CRED_STAT F.SHD_CRED_STAT_ACTIVE =
      true))
  ∧ (∀ (w : Writer) (s : State), May w R.SHD_CMD s → s.chip.is R.SHD_CRED_STAT F.SHD_CRED_STAT_ACTIVE = true → ∃ t, Sys2Proof.Machine.exec
      (.endCred w theKey) s = .next t ∧
    Quiet s t ∧ t.chip.is R.SHD_CRED_STAT F.SHD_CRED_STAT_ACTIVE = false ∧ t.chip.rd R.SHD_CRED_ID = 0)
  ∧ (∀ (s : State), s.chip.powered = true → s.chip.is R.SHD_CRED_STAT F.SHD_CRED_STAT_ACTIVE = true → ∃ t, Sys2Proof.Machine.exec
      (.credExpiry) s = .next t ∧
    Quiet s t ∧ t.chip.is R.SHD_CRED_STAT F.SHD_CRED_STAT_ACTIVE = false ∧ t.chip.rd R.SHD_CRED_ID = 0)
  ∧ (∀ (isOpen : Bool) (s : State), s.chip.mode ≠ .off → s.chip.shd.sealOpen ≠ isOpen → ∃ t, Sys2Proof.Machine.exec (.sealChange isOpen) s =
      .next t ∧
    Quiet s t ∧ t.chip.shd.sealOpen = isOpen ∧ t.chip.shd.sealDue = (!isOpen && s.chip.powered))
  ∧ (∀ (s : State), s.chip.powered = true → s.chip.shd.sealDue = true → s.chip.crcBusy.contains P.SCFG = false → ∃ t, Sys2Proof.Machine.exec
      (.sealCrcCapture) s = .next t ∧
    Quiet s t ∧ t.chip.rd R.SHD_SEALED_CRC = s.chip.crcOf P.SCFG ∧ t.chip.shd.sealDue = false)
  ∧ (∀ (ok : Bool) (e : LogEntry) (r : List LogEntry) (s : State), s.chip.powered = true → s.chip.is R.SCFG_LOG_CFG F.SCFG_LOG_CFG_EN = true
      → s.chip.safe.survLog = [] → s.chip.safe.log = e :: r → s.chip.safe.lostDue = 0 → ∃ t, Sys2Proof.Machine.exec (.logWrite ok) s =
      .next t ∧
    t.pending = s.pending ∧ t.mem.sram = s.mem.sram ∧ t.mem.dram = s.mem.dram ∧ t.mem.flashA = s.mem.flashA ∧ t.mem.flashB =
      s.mem.flashB ∧ t.mem.otp = s.mem.otp ∧ t.chip.safe.log = r ∧ t.chip.rdN R.SHD_LOG_SEQ = (s.chip.rdN R.SHD_LOG_SEQ + 1) % 2 ^ 32 ∧
      (∀ a, ¬ (s.chip.logAddr ((s.chip.rdN R.SHD_LOG_SEQ + 1) % 2 ^ 32) ≤ a ∧ a < s.chip.logAddr ((s.chip.rdN R.SHD_LOG_SEQ + 1) % 2 ^
      32) + 96) → SMap.get unwritten t.mem.fram a = SMap.get unwritten s.mem.fram a))

/-- O27 (R546, R549, R550, R551, R552, R555, R556, R557, R558, R576). Twins and comparators: what each command does where it takes effect.
DCU_VERDICT MATCH on the oldest pair marks it matched. MISMATCH of both comparators halts the twin and latches the safe state.
CHECKPOINT with matching signatures shows stamp and lag and is counted. Comparators that disagree halt the twin and latch the safe
state. DEEP_CHECKPOINT with matching hashes becomes the restart point. WARM_RESTART_RUN starts the cores at the stamp of the restart
point. DCU_SELFTEST with the right verdicts passes and moves to the next bit. A wrong verdict latches the safe state.
DCU_SELFTEST_MISSED latches the safe state. DCU_INJECT_OUTPUT arms the injection for the twin in READY, SAFE or REPLAY.
DCU_INJECT_LATENT arms the injection for the twin in READY, SAFE or REPLAY. DCU_INJECT_DISAGREE arms the injection for the twin in
READY, SAFE or REPLAY. DCU_INJECT_STMISS arms the injection for the twin in READY, SAFE or REPLAY. Commands that complete (exec answers
a next state): dcuVerdict, checkpoint, deepCheckpoint, warmRestartRun, dcuSelftest, dcuSelftestMissed, dcuInjectOutput, dcuInjectLatent,
dcuInjectDisagree, dcuInjectStmiss. -/
def Obligations.TwinCommands : Prop :=
  (∀ (t0 : Bool) (e : RbEnt) (s : State), Awake P.DCU s → s.chip.twRuns t0 = true → (s.chip.twin t0).inj = 0 → s.chip.rbNext t0 = some e →
      ∃ t, Sys2Proof.Machine.exec (.dcuVerdict t0 .pair false false) s = .next t ∧
    Only [] [.red] s t ∧ t.chip.red = (s.chip.rbMatched t0).red)
  ∧ (∀ (t0 : Bool) (e : RbEnt) (s : State), Awake P.DCU s → s.chip.twRuns t0 = true → (s.chip.twin t0).inj = 0 → s.chip.rbNext t0 = some e →
      ∃ t, Sys2Proof.Machine.exec (.dcuVerdict t0 .pair true true) s = .next t ∧
    Quiet s t ∧ t.chip.twState t0 = Tw.halted ∧ t.chip.is R.SHD_STAT F.SHD_STAT_LATCH = true ∧ t.chip.mode = .safe)
  ∧ (∀ (t0 : Bool) (stamp : BitVec 64) (lag : BitVec 12) (s : State), s.chip.powered = true → s.chip.time.gated = false → s.chip.twRuns t0 =
      true → (s.chip.twin t0).inj = 0 → ∃ t, Sys2Proof.Machine.exec (.checkpoint t0 stamp lag false false) s = .next t ∧
    Only [R.TWN_STAMP (b2n t0) 0, R.TWN_STAMP (b2n t0) 1, R.TWN_STAT (b2n t0), R.DCU_CNT] [.red] s t ∧ t.chip.rd64 (R.TWN_STAMP (b2n t0)
      0) = stamp.toNat ∧ t.chip.f (R.TWN_STAT (b2n t0)) F.TWN_STAT_LAG = lag.toNat ∧ t.chip.f R.DCU_CNT F.DCU_CNT_CKPT = (s.chip.f
      R.DCU_CNT F.DCU_CNT_CKPT + 1) % 2 ^ F.DCU_CNT_CKPT.width)
  ∧ (∀ (t0 : Bool) (stamp : BitVec 64) (lag : BitVec 12) (s : State), s.chip.powered = true → s.chip.time.gated = false → s.chip.twRuns t0 =
      true → (s.chip.twin t0).inj = 0 → ∃ t, Sys2Proof.Machine.exec (.checkpoint t0 stamp lag true false) s = .next t ∧
    Quiet s t ∧ t.chip.twState t0 = Tw.halted ∧ t.chip.is R.SHD_STAT F.SHD_STAT_LATCH = true ∧ t.chip.mode = .safe)
  ∧ (∀ (t0 : Bool) (stamp : BitVec 64) (lag : BitVec 12) (s : State), s.chip.powered = true → s.chip.time.gated = false → s.chip.twRuns t0 =
      true → (s.chip.twin t0).inj = 0 → 199 ≤ (s.chip.twin t0).cks → (s.chip.twin t0).warm = false → ∃ t, Sys2Proof.Machine.exec
      (.deepCheckpoint t0 stamp lag false false false false) s = .next t ∧
    t.pending = s.pending ∧ t.mem = s.mem ∧ t.chip.rd64 (R.TWN_DEEP (b2n t0) 0) = stamp.toNat ∧ t.chip.f R.DCU_CNT F.DCU_CNT_DEEP =
      (s.chip.f R.DCU_CNT F.DCU_CNT_DEEP + 1) % 2 ^ F.DCU_CNT_DEEP.width)
  ∧ (∀ (t0 : Bool) (s : State), s.chip.powered = true → s.chip.time.gated = false → s.chip.twState t0 = Tw.restoring → ∃ t,
      Sys2Proof.Machine.exec (.warmRestartRun t0) s = .next t ∧
    OnlyEv [R.TWN_STAT (b2n t0), R.TWN_STAMP (b2n t0) 0, R.TWN_STAMP (b2n t0) 1, R.SYS_RST_CAUSE] [] s t ∧ t.chip.twState t0 = Tw.run ∧
      t.chip.rd64 (R.TWN_STAMP (b2n t0) 0) = s.chip.rd64 (R.TWN_DEEP (b2n t0) 0))
  ∧ (∀ (t0 : Bool) (s : State), Awake P.DCU s → (s.chip.twin t0).inj ≠ 4 → ∃ t, Sys2Proof.Machine.exec (.dcuSelftest t0 true true false
      false) s = .next t ∧
    Only [R.DCU_STAT, R.SHD_ST_STAT] [.red] s t ∧ t.chip.is R.DCU_STAT F.DCU_STAT_ST_X_OK = true ∧ t.chip.is R.DCU_STAT
      F.DCU_STAT_ST_Y_OK = true ∧ t.chip.red = { s.chip.red with testBit := upd s.chip.red.testBit (b2n t0) fun b => (b + 1) % 128 })
  ∧ (∀ (t0 xd yd xe ye : Bool) (s : State), Awake P.DCU s → (xd && yd && !xe && !ye) = false → ∃ t, Sys2Proof.Machine.exec (.dcuSelftest t0
      xd yd xe ye) s = .next t ∧
    Quiet s t ∧ t.chip.is R.SHD_STAT F.SHD_STAT_LATCH = true ∧ t.chip.mode = .safe)
  ∧ (∀ (t0 : Bool) (s : State), Awake P.DCU s → ∃ t, Sys2Proof.Machine.exec (.dcuSelftestMissed t0) s = .next t ∧
    Quiet s t ∧ t.chip.is R.SHD_STAT F.SHD_STAT_LATCH = true ∧ t.chip.mode = .safe)
  ∧ (∀ (w : Writer) (t0 : Bool) (s : State), May w R.DCU_CMD s → (s.chip.mode = .ready ∨ s.chip.mode = .safe ∨ s.chip.mode = .replay) → ∃ t,
      Sys2Proof.Machine.exec (.dcuInjectOutput w theKey t0) s = .next t ∧
    Only [R.DCU_STAT] [.red] s t ∧ t.chip.red.twins = upd s.chip.red.twins (b2n t0) (fun x => { x with inj := 1 }))
  ∧ (∀ (w : Writer) (t0 : Bool) (s : State), May w R.DCU_CMD s → (s.chip.mode = .ready ∨ s.chip.mode = .safe ∨ s.chip.mode = .replay) → ∃ t,
      Sys2Proof.Machine.exec (.dcuInjectLatent w theKey t0) s = .next t ∧
    Only [R.DCU_STAT] [.red] s t ∧ t.chip.red.twins = upd s.chip.red.twins (b2n t0) (fun x => { x with inj := 2 }))
  ∧ (∀ (w : Writer) (t0 : Bool) (s : State), May w R.DCU_CMD s → (s.chip.mode = .ready ∨ s.chip.mode = .safe ∨ s.chip.mode = .replay) → ∃ t,
      Sys2Proof.Machine.exec (.dcuInjectDisagree w theKey t0) s = .next t ∧
    Only [R.DCU_STAT] [.red] s t ∧ t.chip.red.twins = upd s.chip.red.twins (b2n t0) (fun x => { x with inj := 3 }))
  ∧ (∀ (w : Writer) (t0 : Bool) (s : State), May w R.DCU_CMD s → (s.chip.mode = .ready ∨ s.chip.mode = .safe ∨ s.chip.mode = .replay) → ∃ t,
      Sys2Proof.Machine.exec (.dcuInjectStmiss w theKey t0) s = .next t ∧
    Only [R.DCU_STAT] [.red] s t ∧ t.chip.red.twins = upd s.chip.red.twins (b2n t0) (fun x => { x with inj := 4 }))

/-- O28 (R32, R35, R41, R103, R558, R639, R658). Resets: what each command does where it takes effect. DEVICE_RESET takes the device into
BOOT with the gate supplies removed, shows its source and leaves the safety configuration, the sealed CRC and the calendar trim.
RESET_N_ASSERT does so and holds the starting block. RESET_N_RELEASE lets it go on. Commands that complete (exec answers a next state):
deviceReset, resetNAssert, resetNRelease. -/
def Obligations.ResetCommands : Prop :=
  (∀ (w : Writer) (s : State), May w R.SYS_RST_CTL s → ∃ t, Sys2Proof.Machine.exec (.deviceReset w theKey) s = .next t ∧
    t.pending = s.pending ∧ t.chip.mode = .boot ∧ t.chip.safe.sgr = false ∧ (∀ k, k ∈ [R.SCFG_GEN, R.SCFG_SCOM_SEED, R.SHD_SEALED_CRC,
      R.RTC_TRIM] → t.chip.rd k = s.chip.rd k) ∧ t.chip.bit R.SYS_RST_CAUSE (rstBit w.ini.code) = true)
  ∧ (∀ (s : State), s.chip.powered = true → ∃ t, Sys2Proof.Machine.exec (.resetNAssert) s = .next t ∧
    t.pending = s.pending ∧ t.chip.mode = .boot ∧ t.chip.safe.sgr = false ∧ (∀ k, k ∈ [R.SCFG_GEN, R.SCFG_SCOM_SEED, R.SHD_SEALED_CRC,
      R.RTC_TRIM] → t.chip.rd k = s.chip.rd k) ∧ t.chip.bit R.SYS_RST_CAUSE 1 = true ∧ t.chip.boot.held = true)
  ∧ (∀ (s : State), ∃ t, Sys2Proof.Machine.exec (.resetNRelease) s = .next t ∧
    Only [] [.boot] s t ∧ t.chip.boot = { s.chip.boot with held := false })

/-- O29 (R619, R623, R624, R626, R627, R628, R629). The starting block: what each command of the boot sequence does where it takes effect.
BOOT_SURVIVAL_RESTORE after a device reset keeps the sampled mode, marks the Lap head and sets the order of attempts. After a power-on
reset it samples mode and host port. BOOT_IMAGE_VERIFY of an image that passes every check goes on with that image. An image that does
not pass is a false start, recorded with its cause, and the next image of the order follows. With no image left the device latches the
safe state. HOST_GO from the host ends the wait of HOST mode. At any other time it is recorded as STATE. HOST_TIMEOUT of the wait is a
false start with cause 0x9 and, with no other image in HOST mode, the safe state. PWM_READY with calibration and comparator tests over
shows it and its time. With both twins alive and no cause latched it ends BOOT in READY. BOOT_ALIVE of a twin shows it alive and
confirms a live restart. From another initiator it is recorded as STATE. BOOT_CONFIRM makes the image that both twins run the preferred
one. With the twins on different images it is recorded as STATE. Commands that complete (exec answers a next state):
bootSurvivalRestore, bootImageVerify, hostGo, hostTimeout, pwmReady, bootAlive, bootConfirm. -/
def Obligations.StartCommands : Prop :=
  (∀ (straps : BitVec 2) (hostSel : Bool) (s : State), s.chip.bootAt 3 = true → s.chip.is R.CLK_STAT F.CLK_STAT_LOCK = true →
      s.chip.boot.cold = false → ∃ t, Sys2Proof.Machine.exec (.bootSurvivalRestore straps hostSel) s = .next t ∧
    Only [R.BOOT_STAT, R.SEC_STAT, R.LAP_RST_HEAD] [.boot] s t ∧ t.chip.boot.step = 4 ∧ t.chip.boot.order = s.chip.bootOrder ∧
      t.chip.boot.wait = decide (s.chip.f R.BOOT_STAT F.BOOT_STAT_MODE = 1) ∧ t.chip.rd R.LAP_RST_HEAD = s.chip.rd R.LAP_HEAD)
  ∧ (∀ (straps : BitVec 2) (hostSel : Bool) (s : State), s.chip.bootAt 3 = true → s.chip.is R.CLK_STAT F.CLK_STAT_LOCK = true →
      s.chip.boot.cold = true → ∃ t, Sys2Proof.Machine.exec (.bootSurvivalRestore straps hostSel) s = .next t ∧
    t.pending = s.pending ∧ t.chip.boot.step = 4 ∧ t.chip.boot.mode = straps.toNat ∧ t.chip.boot.hostSel = hostSel ∧ t.chip.f
      R.BOOT_STAT F.BOOT_STAT_MODE = straps.toNat ∧ t.chip.is R.BOOT_STAT F.BOOT_STAT_STRAP_BAD = decide (2 ≤ straps.toNat) ∧
      t.chip.boot.wait = decide (straps = 1))
  ∧ (∀ (readOk sigOk : Bool) (img : Nat) (r : List Nat) (s : State), s.chip.bootAt 4 = true → s.chip.boot.wait = false → s.chip.boot.order =
      img :: r → (s.imgCheck img readOk sigOk).1 = 0 → ∃ t, Sys2Proof.Machine.exec (.bootImageVerify readOk sigOk) s = .next t ∧
    t.pending = s.pending ∧ t.chip.boot.step = 5 ∧ t.chip.boot.img = img ∧ t.chip.is R.BOOT_STAT F.BOOT_STAT_UNSIGNED = (s.imgCheck img
      readOk sigOk).2 ∧ t.chip.mode = s.chip.mode ∧ t.mem.fram = s.mem.fram ∧ t.mem.otp = s.mem.otp)
  ∧ (∀ (readOk sigOk : Bool) (img : Nat) (x : Nat) (r : List Nat) (s : State), s.chip.bootAt 4 = true → s.chip.boot.wait = false →
      s.chip.boot.order = img :: x :: r → img < 2 → (s.imgCheck img readOk sigOk).1 ≠ 0 → ∃ t, Sys2Proof.Machine.exec (.bootImageVerify
      readOk sigOk) s = .next t ∧
    t.pending = s.pending ∧ t.chip.boot.step = 4 ∧ t.chip.boot.order = x :: r ∧ t.chip.f (R.BOOT_FS 0) F.BOOT_FS_IMAGE = img ∧ t.chip.f
      (R.BOOT_FS 0) F.BOOT_FS_CAUSE = (s.imgCheck img readOk sigOk).1 ∧ t.chip.rd (R.BOOT_FS 1) = s.chip.rd (R.BOOT_FS 0))
  ∧ (∀ (readOk sigOk : Bool) (img : Nat) (s : State), s.chip.bootAt 4 = true → s.chip.boot.wait = false → s.chip.boot.order = [img] →
      (s.imgCheck img readOk sigOk).1 ≠ 0 → ∃ t, Sys2Proof.Machine.exec (.bootImageVerify readOk sigOk) s = .next t ∧
    t.pending = s.pending ∧ t.chip.boot.order = [] ∧ t.chip.is R.SHD_STAT F.SHD_STAT_LATCH = true ∧ t.chip.mode = .safe)
  ∧ (∀ (w : Writer) (s : State), May w R.BOOT_CMD s → w.ini = .host → s.chip.bootAt 4 = true → s.chip.boot.wait = true → ∃ t,
      Sys2Proof.Machine.exec (.hostGo w theKey) s = .next t ∧
    Only [] [.boot] s t ∧ t.chip.boot = { s.chip.boot with wait := false })
  ∧ (∀ (w : Writer) (s : State), May w R.BOOT_CMD s → (s.chip.bootAt 4 && s.chip.boot.wait && decide (w.ini = .host)) = false → ∃ t,
      Sys2Proof.Machine.exec (.hostGo w theKey) s = .next t ∧
    Quiet s t ∧ t.chip = s.chip.perr R.BOOT_CMD .state w.ini.code)
  ∧ (∀ (s : State), s.chip.powered = true → s.chip.time.gated = false → s.chip.bootAt 4 = true → s.chip.boot.wait = true → s.chip.boot.order
      = [2] → ∃ t, Sys2Proof.Machine.exec (.hostTimeout) s = .next t ∧
    Quiet s t ∧ t.chip.f (R.BOOT_FS 0) F.BOOT_FS_CAUSE = 9 ∧ t.chip.is R.SHD_STAT F.SHD_STAT_LATCH = true ∧ t.chip.mode = .safe)
  ∧ (∀ (x : BitVec 16) (s : State), s.chip.powered = true → s.chip.bootAt 7 = true → s.chip.is R.BOOT_STAT F.BOOT_STAT_PWM_READY = false →
      s.chip.meas.cal.all (·.isEmpty) = true → s.chip.meas.tests = [] → ((∀ n < 16, s.chip.f (R.ACMP_CH_CFG n) F.ACMP_CH_CFG_MODE = 0 ∨
      s.chip.is (R.ACMP_CH_STAT n) F.ACMP_CH_STAT_ST_PASS = true)) → (s.chip.is R.BOOT_STAT F.BOOT_STAT_ALIVE_A = false ∨ s.chip.is
      R.BOOT_STAT F.BOOT_STAT_ALIVE_B = false) → ∃ t, Sys2Proof.Machine.exec (.pwmReady x) s = .next t ∧
    Only [R.BOOT_STAT, R.BOOT_TIMES] [] s t ∧ t.chip.is R.BOOT_STAT F.BOOT_STAT_PWM_READY = true ∧ t.chip.f R.BOOT_TIMES
      F.BOOT_TIMES_PWMRDY = x.toNat)
  ∧ (∀ (x : BitVec 16) (s : State), s.chip.powered = true → s.chip.bootAt 7 = true → s.chip.is R.BOOT_STAT F.BOOT_STAT_PWM_READY = false →
      s.chip.meas.cal.all (·.isEmpty) = true → s.chip.meas.tests = [] → ((∀ n < 16, s.chip.f (R.ACMP_CH_CFG n) F.ACMP_CH_CFG_MODE = 0 ∨
      s.chip.is (R.ACMP_CH_STAT n) F.ACMP_CH_STAT_ST_PASS = true)) → s.chip.is R.BOOT_STAT F.BOOT_STAT_ALIVE_A = true → s.chip.is
      R.BOOT_STAT F.BOOT_STAT_ALIVE_B = true → s.chip.mode = .boot → s.chip.is R.SHD_STAT F.SHD_STAT_LATCH = false → ∃ t,
      Sys2Proof.Machine.exec (.pwmReady x) s = .next t ∧
    Quiet s t ∧ t.chip.mode = .ready ∧ t.chip.boot.step = 8 ∧ t.chip.is R.BOOT_STAT F.BOOT_STAT_PWM_READY = true)
  ∧ (∀ (w : Writer) (x : Bool) (s : State), May w R.BOOT_CMD s → w.ini = (if x then Initiator.twinB else Initiator.twinA) → s.chip.is
      R.BOOT_STAT F.BOOT_STAT_PWM_READY = false → ∃ t, Sys2Proof.Machine.exec (.bootAlive w theKey) s = .next t ∧
    Only [R.BOOT_STAT] [.boot] s t ∧ t.chip.is R.BOOT_STAT (aliveFld x) = true ∧ t.chip.boot =
      { s.chip.boot with before := upd s.chip.boot.before (b2n x) fun _ => none })
  ∧ (∀ (w : Writer) (s : State), May w R.BOOT_CMD s → w.ini ≠ .twinA → w.ini ≠ .twinB → ∃ t, Sys2Proof.Machine.exec (.bootAlive w theKey) s =
      .next t ∧
    Quiet s t ∧ t.chip = s.chip.perr R.BOOT_CMD .state w.ini.code)
  ∧ (∀ (w : Writer) (s : State), May w R.BOOT_CMD s → (w.ini = .twinA ∨ w.ini = .twinB) → s.chip.f R.BOOT_STAT F.BOOT_STAT_CODE_A = s.chip.f
      R.BOOT_STAT F.BOOT_STAT_CODE_B → s.chip.f R.BOOT_STAT F.BOOT_STAT_CODE_A < 2 → ∃ t, Sys2Proof.Machine.exec (.bootConfirm w theKey)
      s = .next t ∧
    Only [R.BOOT_NEXT, R.BOOT_STAT] [] s t ∧ t.chip.f R.BOOT_NEXT F.BOOT_NEXT_PREF = s.chip.f R.BOOT_STAT F.BOOT_STAT_CODE_A ∧ t.chip.is
      R.BOOT_STAT F.BOOT_STAT_TRIAL = false)
  ∧ (∀ (w : Writer) (s : State), May w R.BOOT_CMD s → (w.ini = .twinA ∨ w.ini = .twinB) → s.chip.f R.BOOT_STAT F.BOOT_STAT_CODE_A ≠ s.chip.f
      R.BOOT_STAT F.BOOT_STAT_CODE_B → ∃ t, Sys2Proof.Machine.exec (.bootConfirm w theKey) s = .next t ∧
    Quiet s t ∧ t.chip = s.chip.perr R.BOOT_CMD .state w.ini.code)

/-- O30 (R626, R639, R640, R641, R642). Twin restart and live load: what each command does where it takes effect. TWIN_RESTART starts
staging the armed image, or the one the twin runs. While the other twin does not run, or another load is under way, it is refused.
LIVE_STAGE_DONE of an image that passes and keeps the twin’s private regions is ready for the halt; of the memories only the staging
area changes. One that does not pass shows the cause in FAIL. LIVE_HALT with the release buffer empty starts the twin from the staged
image at stamp 0. ALIVE_TIMEOUT of a twin that is alive changes nothing. After a live restart it returns to the image before. After such
a return it latches the safe state. During boot it is a false start with cause 0x7. Commands that complete (exec answers a next state):
twinRestart, liveStageDone, liveHalt, aliveTimeout. -/
def Obligations.LiveLoadCommands : Prop :=
  (∀ (w : Writer) (x : Bool) (s : State), May w R.SYS_RST_CTL s → s.chip.running = false → s.chip.twState x ≠ Tw.restoring →
      s.chip.boot.live = none → s.chip.boot.ready = none → ∃ t, Sys2Proof.Machine.exec (.twinRestart w theKey x) s = .next t ∧
    Only [R.BOOT_LIVE] [.boot] s t ∧ t.chip.boot =
      { s.chip.boot with live := some ⟨x, (if s.chip.is R.BOOT_LIVE F.BOOT_LIVE_ARM then s.chip.f R.BOOT_LIVE F.BOOT_LIVE_IMAGE else s.chip.f R.BOOT_STAT (codeFld x)), false⟩ }
      ∧ t.chip.is R.BOOT_LIVE F.BOOT_LIVE_BUSY = true ∧ t.chip.f R.BOOT_LIVE F.BOOT_LIVE_FAIL = 0)
  ∧ (∀ (w : Writer) (x : Bool) (s : State), May w R.SYS_RST_CTL s → ((s.chip.running = true ∧ s.chip.twState (!x) ≠ Tw.run) ∨
      s.chip.boot.live ≠ none ∨ s.chip.boot.ready ≠ none) → ∃ t, Sys2Proof.Machine.exec (.twinRestart w theKey x) s = .next t ∧
    Quiet s t ∧ t.chip = (s.chip.perr R.SYS_RST_CTL .state w.ini.code).setF R.BOOT_LIVE F.BOOT_LIVE_FAIL 0xA)
  ∧ (∀ (readOk sigOk : Bool) (l : Live) (s : State), s.chip.powered = true → s.chip.time.gated = false → s.chip.boot.live = some l →
      (s.imgCheck l.img readOk sigOk).1 = 0 → Im.priv (s.imgByte l.img) l.twin false = s.chip.rd (R.TWN_PRIV_S (b2n l.twin)) → Im.priv
      (s.imgByte l.img) l.twin true = s.chip.rd (R.TWN_PRIV_D (b2n l.twin)) → s.chip.rd R.SHD_SEALED_CRC = 0 → ∃ t,
      Sys2Proof.Machine.exec (.liveStageDone readOk sigOk) s = .next t ∧
    t.pending = s.pending ∧ t.mem.sram = s.mem.sram ∧ t.mem.fram = s.mem.fram ∧ t.mem.flashA = s.mem.flashA ∧ t.mem.flashB =
      s.mem.flashB ∧ t.mem.otp = s.mem.otp ∧ (∀ a, ¬ (stagingAt ≤ a ∧ a < stagingAt + 2 ^ 23) → SMap.get unwritten t.mem.dram a =
      SMap.get unwritten s.mem.dram a) ∧ Chip.Kept false [R.BOOT_LIVE, R.BOOT_STAT, R.BOOT_VER 0, R.BOOT_VER 1] [.boot] s.chip t.chip ∧
      t.chip.boot = { s.chip.boot with live := none, ready := some l } ∧ t.chip.is R.BOOT_LIVE F.BOOT_LIVE_BUSY = false)
  ∧ (∀ (readOk sigOk : Bool) (l : Live) (s : State), s.chip.powered = true → s.chip.time.gated = false → s.chip.boot.live = some l →
      (s.imgCheck l.img readOk sigOk).1 ≠ 0 → ∃ t, Sys2Proof.Machine.exec (.liveStageDone readOk sigOk) s = .next t ∧
    t.pending = s.pending ∧ t.chip.boot = { s.chip.boot with live := none } ∧ t.chip.is R.BOOT_LIVE F.BOOT_LIVE_BUSY = false ∧ t.chip.f
      R.BOOT_LIVE F.BOOT_LIVE_FAIL = (s.imgCheck l.img readOk sigOk).1 ∧ (∀ a, ¬ (stagingAt ≤ a ∧ a < stagingAt + 2 ^ 23) → SMap.get
      unwritten t.mem.dram a = SMap.get unwritten s.mem.dram a))
  ∧ (∀ (l : Live) (s : State), s.chip.powered = true → s.chip.time.gated = false → s.chip.boot.ready = some l → (s.chip.twin l.twin).rb = []
      → s.chip.twState l.twin ≠ Tw.halted → ∃ t, Sys2Proof.Machine.exec (.liveHalt) s = .next t ∧
    t.pending = s.pending ∧ t.mem = s.mem ∧ t.chip.twState l.twin = Tw.run ∧ t.chip.f R.BOOT_STAT (codeFld l.twin) = l.img % 4 ∧
      t.chip.is R.BOOT_STAT (aliveFld l.twin) = false ∧ t.chip.boot.ready = none ∧ t.chip.is R.BOOT_LIVE F.BOOT_LIVE_ARM = false ∧
      t.chip.rd64 (R.TWN_STAMP (b2n l.twin) 0) = 0)
  ∧ (∀ (x : Bool) (s : State), s.chip.powered = true → s.chip.time.gated = false → s.chip.is R.BOOT_STAT (aliveFld x) = true → ∃ t,
      Sys2Proof.Machine.exec (.aliveTimeout x) s = .next t ∧
    t = s)
  ∧ (∀ (x : Bool) (old : Nat) (s : State), s.chip.powered = true → s.chip.time.gated = false → s.chip.is R.BOOT_STAT (aliveFld x) = false →
      nth s.chip.boot.before (b2n x) none = some old → old ≠ 3 → ∃ t, Sys2Proof.Machine.exec (.aliveTimeout x) s = .next t ∧
    Quiet s t ∧ t.chip.boot.live = some ⟨x, old, true⟩ ∧ t.chip.is R.BOOT_LIVE F.BOOT_LIVE_BUSY = true ∧ t.chip.f (R.BOOT_FS 0)
      F.BOOT_FS_CAUSE = 7)
  ∧ (∀ (x : Bool) (s : State), s.chip.powered = true → s.chip.time.gated = false → s.chip.is R.BOOT_STAT (aliveFld x) = false → nth
      s.chip.boot.before (b2n x) none = some 3 → ∃ t, Sys2Proof.Machine.exec (.aliveTimeout x) s = .next t ∧
    Quiet s t ∧ t.chip.is R.SHD_STAT F.SHD_STAT_LATCH = true ∧ t.chip.mode = .safe)
  ∧ (∀ (x : Bool) (y : Nat) (r : List Nat) (s : State), s.chip.powered = true → s.chip.time.gated = false → s.chip.is R.BOOT_STAT (aliveFld
      x) = false → nth s.chip.boot.before (b2n x) none = none → s.chip.bootAt 7 = true → s.chip.boot.order = s.chip.boot.img :: y :: r →
      ∃ t, Sys2Proof.Machine.exec (.aliveTimeout x) s = .next t ∧
    Quiet s t ∧ t.chip.boot.step = 4 ∧ t.chip.boot.order = y :: r ∧ t.chip.f (R.BOOT_FS 0) F.BOOT_FS_CAUSE = 7)

/-- O31 (R630, R631, R633, R634, R645, R646, R647, R648, R649). Flash, SEC engine, OTP and debug access: what each command does where it
takes effect. FLASH_COMMAND of a twin starts a command, on the device booted from only a read. Anything else is denied and recorded as
SECURITY. FLASH_COMMAND_DONE ends it; a write leaves SRAM, a read by 0x6C the arrays, and a command the other device. SEC_VERIFY_IMAGE
starts where the device may run it. SEC_SIGN starts where the device may run it. SEC_VERIFY_CHAIN starts where the device may run it.
SEC_RANDOM starts where the device may run it. ARB_ADVANCE starts where the device may run it. GEN_ID starts where the device may run
it. REVOKE_ROOT starts where the device may run it. REVOKE_ROOT outside READY is refused with FAIL 7. SEC_COMMAND_DONE ends the command
with the FAIL code of its checks. The end of REVOKE_ROOT blows the slot’s revocation bit and no other byte of OTP beside its word.
OTP_GO of a twin in READY without an early warning programs an open word. Otherwise it is denied and recorded as SECURITY.
OTP_PROGRAM_DONE puts the bits that took into the word, beside those it had, and changes no other byte. DEBUG_ACCESS_OPEN of a
credential that verifies with the right opens debug access in life cycle SECURED. Otherwise it changes nothing. Commands that complete
(exec answers a next state): flashCommand, flashCommandDone, secVerifyImage, secSign, secVerifyChain, secRandom, arbAdvance, genId,
revokeRoot, secCommandDone, otpGo, otpProgramDone, debugAccessOpen. -/
def Obligations.FlashAndSecurityCommands : Prop :=
  (∀ (w : Writer) (op : BitVec 8) (b addr wr : Bool) (s : State), May w R.BOOT_FL_CTL s → (w.ini = .twinA ∨ w.ini = .twinB) → (s.chip.f
      R.BOOT_STAT F.BOOT_STAT_SOURCE ≠ b2n b ∨ op.toNat ∈ [0x03, 0x05, 0x0B, 0x6C, 0x9F]) → s.chip.boot.flash = none → ∃ t,
      Sys2Proof.Machine.exec (.flashCommand w theKey op b addr wr) s = .next t ∧
    Only [R.BOOT_FL_STAT] [.boot] s t ∧ t.chip.is R.BOOT_FL_STAT F.BOOT_FL_STAT_BUSY = true ∧ t.chip.boot =
      { s.chip.boot with flash := some ⟨op.toNat, b, addr, wr, s.chip.rdN R.BOOT_FL_ADDR, s.chip.f R.BOOT_FL_BUF F.BOOT_FL_BUF_LEN, 8 * s.chip.f R.BOOT_FL_BUF F.BOOT_FL_BUF_OFS8⟩ })
  ∧ (∀ (w : Writer) (op : BitVec 8) (b addr wr : Bool) (s : State), May w R.BOOT_FL_CTL s → ((w.ini ≠ .twinA ∧ w.ini ≠ .twinB) ∨ (s.chip.f
      R.BOOT_STAT F.BOOT_STAT_SOURCE = b2n b ∧ op.toNat ∉ [0x03, 0x05, 0x0B, 0x6C, 0x9F])) → ∃ t, Sys2Proof.Machine.exec (.flashCommand
      w theKey op b addr wr) s = .next t ∧
    Quiet s t ∧ t.chip.boot = s.chip.boot ∧ t.chip = (s.chip.flag R.BOOT_FL_STAT F.BOOT_FL_STAT_DENIED true).perr R.BOOT_FL_CTL
      .security w.ini.code)
  ∧ (∀ (data : List (BitVec 8)) (prog : List (BitVec 32 × BitVec 8)) (f : FlashCmd) (s : State), s.chip.powered = true → s.chip.time.gated =
      false → s.chip.boot.flash = some f → ∃ t, Sys2Proof.Machine.exec (.flashCommandDone data prog) s = .next t ∧
    t.pending = s.pending ∧ Chip.Kept false [R.BOOT_FL_STAT] [.boot] s.chip t.chip ∧ t.chip.boot = { s.chip.boot with flash := none } ∧
      t.chip.is R.BOOT_FL_STAT F.BOOT_FL_STAT_BUSY = false ∧ t.chip.is R.BOOT_FL_STAT F.BOOT_FL_STAT_DONE = true ∧ t.mem.dram =
      s.mem.dram ∧ t.mem.fram = s.mem.fram ∧ t.mem.otp = s.mem.otp ∧ (f.write = true → t.mem.sram = s.mem.sram) ∧ (f.opcode = 0x6C ∨ f.b
      = true → t.mem.flashA = s.mem.flashA) ∧ (f.opcode = 0x6C ∨ f.b = false → t.mem.flashB = s.mem.flashB))
  ∧ (∀ (w : Writer) (b : Bool) (s : State), May w R.SEC_CMD s → s.chip.boot.sec = none → ∃ t, Sys2Proof.Machine.exec (.secVerifyImage w
      theKey b) s = .next t ∧
    Only [R.SEC_STAT] [.boot] s t ∧ t.chip.boot = { s.chip.boot with sec := some (1, b2n b, 8 * s.chip.f R.SEC_PTR F.SEC_PTR_OFS8) } ∧
      t.chip.is R.SEC_STAT F.SEC_STAT_BUSY = true ∧ t.chip.f R.SEC_STAT F.SEC_STAT_FAIL = 0)
  ∧ (∀ (w : Writer) (s : State), May w R.SEC_CMD s → s.chip.boot.sec = none → s.chip.boot.idMade = true → ∃ t, Sys2Proof.Machine.exec
      (.secSign w theKey) s = .next t ∧
    Only [R.SEC_STAT] [.boot] s t ∧ t.chip.boot = { s.chip.boot with sec := some (2, 0, 8 * s.chip.f R.SEC_PTR F.SEC_PTR_OFS8) } ∧
      t.chip.is R.SEC_STAT F.SEC_STAT_BUSY = true ∧ t.chip.f R.SEC_STAT F.SEC_STAT_FAIL = 0)
  ∧ (∀ (w : Writer) (arg : BitVec 8) (s : State), May w R.SEC_CMD s → s.chip.boot.sec = none → ∃ t, Sys2Proof.Machine.exec (.secVerifyChain w
      theKey arg) s = .next t ∧
    Only [R.SEC_STAT] [.boot] s t ∧ t.chip.boot = { s.chip.boot with sec := some (3, arg.toNat, 8 * s.chip.f R.SEC_PTR F.SEC_PTR_OFS8) }
      ∧ t.chip.is R.SEC_STAT F.SEC_STAT_BUSY = true ∧ t.chip.f R.SEC_STAT F.SEC_STAT_FAIL = 0)
  ∧ (∀ (w : Writer) (s : State), May w R.SEC_CMD s → s.chip.boot.sec = none → ∃ t, Sys2Proof.Machine.exec (.secRandom w theKey) s = .next t ∧
    Only [R.SEC_STAT] [.boot] s t ∧ t.chip.boot = { s.chip.boot with sec := some (4, 0, 8 * s.chip.f R.SEC_PTR F.SEC_PTR_OFS8) } ∧
      t.chip.is R.SEC_STAT F.SEC_STAT_BUSY = true ∧ t.chip.f R.SEC_STAT F.SEC_STAT_FAIL = 0)
  ∧ (∀ (w : Writer) (s : State), May w R.SEC_CMD s → s.chip.boot.sec = none → s.chip.is R.BOOT_STAT F.BOOT_STAT_TRIAL = false → s.chip.f
      R.BOOT_STAT F.BOOT_STAT_CODE_A = s.chip.f R.BOOT_STAT F.BOOT_STAT_CODE_B → ∃ t, Sys2Proof.Machine.exec (.arbAdvance w theKey) s =
      .next t ∧
    Only [R.SEC_STAT] [.boot] s t ∧ t.chip.boot = { s.chip.boot with sec := some (5, 0, 8 * s.chip.f R.SEC_PTR F.SEC_PTR_OFS8) } ∧
      t.chip.is R.SEC_STAT F.SEC_STAT_BUSY = true ∧ t.chip.f R.SEC_STAT F.SEC_STAT_FAIL = 0)
  ∧ (∀ (w : Writer) (s : State), May w R.SEC_CMD s → s.chip.boot.sec = none → s.chip.boot.idMade = false → s.mem.lcOpen = true → ∃ t,
      Sys2Proof.Machine.exec (.genId w theKey) s = .next t ∧
    Only [R.SEC_STAT] [.boot] s t ∧ t.chip.boot = { s.chip.boot with sec := some (6, 0, 8 * s.chip.f R.SEC_PTR F.SEC_PTR_OFS8) } ∧
      t.chip.is R.SEC_STAT F.SEC_STAT_BUSY = true ∧ t.chip.f R.SEC_STAT F.SEC_STAT_FAIL = 0)
  ∧ (∀ (w : Writer) (slot : BitVec 2) (s : State), May w R.SEC_CMD s → s.chip.boot.sec = none → s.chip.mode = .ready → ∃ t,
      Sys2Proof.Machine.exec (.revokeRoot w theKey slot) s = .next t ∧
    Only [R.SEC_STAT] [.boot] s t ∧ t.chip.boot =
      { s.chip.boot with sec := some (7, slot.toNat, 8 * s.chip.f R.SEC_PTR F.SEC_PTR_OFS8) } ∧ t.chip.is R.SEC_STAT F.SEC_STAT_BUSY =
      true ∧ t.chip.f R.SEC_STAT F.SEC_STAT_FAIL = 0)
  ∧ (∀ (w : Writer) (slot : BitVec 2) (s : State), May w R.SEC_CMD s → s.chip.boot.sec = none → s.chip.mode ≠ .ready → ∃ t,
      Sys2Proof.Machine.exec (.revokeRoot w theKey slot) s = .next t ∧
    Quiet s t ∧ t.chip = (s.chip.perr R.SEC_CMD .state w.ini.code).setF R.SEC_STAT F.SEC_STAT_FAIL 7)
  ∧ (∀ (readOk sigOk chainOk validOk : Bool) (op arg ptr : Nat) (s : State), s.chip.powered = true → s.chip.time.gated = false →
      s.chip.boot.sec = some (op, arg, ptr) → ∃ t, Sys2Proof.Machine.exec (.secCommandDone readOk sigOk chainOk validOk) s = .next t ∧
    t.pending = s.pending ∧ t.chip.boot.sec = none ∧ t.chip.is R.SEC_STAT F.SEC_STAT_BUSY = false ∧ t.chip.is R.SEC_STAT F.SEC_STAT_DONE
      = true ∧ t.chip.f R.SEC_STAT F.SEC_STAT_FAIL = (s.secRun op arg ptr readOk sigOk chainOk validOk).2 % 16 ∧ t.mem.dram = s.mem.dram
      ∧ t.mem.fram = s.mem.fram ∧ t.mem.flashA = s.mem.flashA ∧ t.mem.flashB = s.mem.flashB)
  ∧ (∀ (readOk sigOk chainOk validOk : Bool) (slot ptr : Nat) (s : State), s.chip.powered = true → s.chip.time.gated = false →
      s.chip.boot.sec = some (7, slot, ptr) → slot < 4 → ∃ t, Sys2Proof.Machine.exec (.secCommandDone readOk sigOk chainOk validOk) s =
      .next t ∧
    t.pending = s.pending ∧ t.mem.sram = s.mem.sram ∧ SMap.get unblown t.mem.otp 0x168 = SMap.get unblown s.mem.otp 0x168 |||
      BitVec.ofNat 8 (2 ^ slot) ∧ (∀ a, a < 0x168 ∨ 0x16C ≤ a → SMap.get unblown t.mem.otp a = SMap.get unblown s.mem.otp a))
  ∧ (∀ (w : Writer) (k : BitVec 9) (s : State), May w R.OTP_CMD s → ((w.ini = .twinA ∨ w.ini = .twinB) ∧ s.chip.mode = .ready ∧ s.chip.is
      R.VAUX_STAT F.VAUX_STAT_EW = false ∧ s.mem.otpOpen k.toNat = true ∧ s.chip.boot.otp = none) → ∃ t, Sys2Proof.Machine.exec (.otpGo
      w theKey true k) s = .next t ∧
    Only [R.OTP_STAT] [.boot] s t ∧ t.chip.is R.OTP_STAT F.OTP_STAT_BUSY = true ∧ t.chip.boot =
      { s.chip.boot with otp := some (k.toNat, s.chip.rdN R.OTP_PDATA, s.mem.otpN (4 * k.toNat) 4) })
  ∧ (∀ (w : Writer) (k : BitVec 9) (s : State), May w R.OTP_CMD s → (¬ ((w.ini = .twinA ∨ w.ini = .twinB) ∧ s.chip.mode = .ready ∧ s.chip.is
      R.VAUX_STAT F.VAUX_STAT_EW = false ∧ s.mem.otpOpen k.toNat = true ∧ s.chip.boot.otp = none)) → ∃ t, Sys2Proof.Machine.exec (.otpGo
      w theKey true k) s = .next t ∧
    Quiet s t ∧ t.chip = (s.chip.flag R.OTP_STAT F.OTP_STAT_DENIED true).perr R.OTP_CMD .security w.ini.code)
  ∧ (∀ (blown : BitVec 32) (k data old : Nat) (s : State), s.chip.powered = true → s.chip.time.gated = false → s.chip.boot.otp = some (k,
      data, old) → ∃ t, Sys2Proof.Machine.exec (.otpProgramDone blown) s = .next t ∧
    t.pending = s.pending ∧ t.chip.boot.otp = none ∧ t.chip.is R.OTP_STAT F.OTP_STAT_BUSY = false ∧ t.chip.is R.OTP_STAT F.OTP_STAT_DONE
      = true ∧ (∀ i < 4, SMap.get unblown t.mem.otp (4 * k + i) = SMap.get unblown s.mem.otp (4 * k + i) ||| BitVec.ofNat 8 ((data &&&
      blown.toNat) / 256 ^ i)) ∧ (∀ a, a < 4 * k ∨ 4 * k + 4 ≤ a → SMap.get unblown t.mem.otp a = SMap.get unblown s.mem.otp a) ∧
      t.mem.sram = s.mem.sram ∧ t.mem.dram = s.mem.dram ∧ t.mem.fram = s.mem.fram ∧ t.mem.flashA = s.mem.flashA ∧ t.mem.flashB =
      s.mem.flashB)
  ∧ (∀ (ok : Bool) (rights : BitVec 8) (s : State), s.chip.powered = true → s.chip.time.gated = false → s.mem.lcOpen = false → ok = true →
      nbit rights.toNat 1 = true → ∃ t, Sys2Proof.Machine.exec (.debugAccessOpen ok rights) s = .next t ∧
    Only [R.SEC_DBG] [] s t ∧ t.chip.is R.SEC_DBG F.SEC_DBG_OPEN = true)
  ∧ (∀ (ok : Bool) (rights : BitVec 8) (s : State), (ok = false ∨ nbit rights.toNat 1 = false ∨ s.mem.lcOpen = true) → ∃ t,
      Sys2Proof.Machine.exec (.debugAccessOpen ok rights) s = .next t ∧
    t = s)

/-- O32 (R638, R675). Memory errors and host memory access: what each command does where it takes effect. MEM_UNCORRECTABLE in SRAM shows
its address; the 64-bit word reads 0 and no other byte changes. MEM_UNCORRECTABLE in DRAM shows its address; the 64-bit word reads 0 and
no other byte changes. HOST_MEM_READ of the host on a range it may copy starts the copy. On another range it is denied. HOST_MEM_WRITE
of the host on a range it may copy starts the copy. On another range it is denied. MEM_COPY_DONE of a write puts the words of MBUF into
SRAM, low byte first, and changes no other byte. Of a read it puts the words of SRAM into MBUF. Commands that complete (exec answers a
next state): memUncorrectable, hostMemRead, hostMemWrite, memCopyDone. -/
def Obligations.MemoryServiceCommands : Prop :=
  (∀ (ofs : BitVec 29) (s : State), s.chip.powered = true → s.chip.time.gated = false → ofs.toNat / 8 * 8 + 8 ≤ sramSize → ∃ t,
      Sys2Proof.Machine.exec (.memUncorrectable false ofs) s = .next t ∧
    t.pending = s.pending ∧ t.mem.dram = s.mem.dram ∧ t.mem.fram = s.mem.fram ∧ t.mem.flashA = s.mem.flashA ∧ t.mem.flashB =
      s.mem.flashB ∧ t.mem.otp = s.mem.otp ∧ (∀ i < 8, SMap.get unwritten t.mem.sram (ofs.toNat / 8 * 8 + i) = 0) ∧ (∀ a, a < ofs.toNat
      / 8 * 8 ∨ ofs.toNat / 8 * 8 + 8 ≤ a → SMap.get unwritten t.mem.sram a = SMap.get unwritten s.mem.sram a) ∧ t.chip.is R.MEM_UE_ADDR
      F.MEM_UE_ADDR_SPACE = false ∧ t.chip.f R.MEM_UE_ADDR F.MEM_UE_ADDR_OFS = ofs.toNat ∧ Chip.Kept true [R.MEM_ECC_SRAM,
      R.MEM_UE_ADDR] [] s.chip t.chip)
  ∧ (∀ (ofs : BitVec 29) (s : State), s.chip.powered = true → s.chip.time.gated = false → ofs.toNat / 8 * 8 + 8 ≤ dramSize → ∃ t,
      Sys2Proof.Machine.exec (.memUncorrectable true ofs) s = .next t ∧
    t.pending = s.pending ∧ t.mem.sram = s.mem.sram ∧ t.mem.fram = s.mem.fram ∧ t.mem.flashA = s.mem.flashA ∧ t.mem.flashB =
      s.mem.flashB ∧ t.mem.otp = s.mem.otp ∧ (∀ i < 8, SMap.get unwritten t.mem.dram (ofs.toNat / 8 * 8 + i) = 0) ∧ (∀ a, a < ofs.toNat
      / 8 * 8 ∨ ofs.toNat / 8 * 8 + 8 ≤ a → SMap.get unwritten t.mem.dram a = SMap.get unwritten s.mem.dram a) ∧ t.chip.is R.MEM_UE_ADDR
      F.MEM_UE_ADDR_SPACE = true ∧ t.chip.f R.MEM_UE_ADDR F.MEM_UE_ADDR_OFS = ofs.toNat ∧ Chip.Kept true [R.MEM_ECC_DRAM, R.MEM_UE_ADDR]
      [] s.chip t.chip)
  ∧ (∀ (w : Writer) (n : BitVec 4) (s : State), May w R.HPT_MEM_CMD s → w.ini = .host → s.chip.boot.copy = none → s.chip.hostMayCopy
      (s.chip.is R.HPT_MEM_ADDR F.HPT_MEM_ADDR_SPACE, s.chip.f R.HPT_MEM_ADDR F.HPT_MEM_ADDR_OFS, 4 * (n.toNat + 1)) = true → ∃ t,
      Sys2Proof.Machine.exec (.hostMemRead w theKey n) s = .next t ∧
    Only [R.HPT_MEM_STAT] [.boot] s t ∧ t.chip.is R.HPT_MEM_STAT F.HPT_MEM_STAT_BUSY = true ∧ t.chip.boot =
      { s.chip.boot with copy := some (false, n.toNat + 1, s.chip.is R.HPT_MEM_ADDR F.HPT_MEM_ADDR_SPACE, s.chip.f R.HPT_MEM_ADDR F.HPT_MEM_ADDR_OFS) })
  ∧ (∀ (w : Writer) (n : BitVec 4) (s : State), May w R.HPT_MEM_CMD s → w.ini = .host → s.chip.boot.copy = none → s.chip.hostMayCopy
      (s.chip.is R.HPT_MEM_ADDR F.HPT_MEM_ADDR_SPACE, s.chip.f R.HPT_MEM_ADDR F.HPT_MEM_ADDR_OFS, 4 * (n.toNat + 1)) = false → ∃ t,
      Sys2Proof.Machine.exec (.hostMemRead w theKey n) s = .next t ∧
    Only [R.HPT_MEM_STAT] [] s t ∧ t.chip.is R.HPT_MEM_STAT F.HPT_MEM_STAT_DENIED = true)
  ∧ (∀ (w : Writer) (n : BitVec 4) (s : State), May w R.HPT_MEM_CMD s → w.ini = .host → s.chip.boot.copy = none → s.chip.hostMayCopy
      (s.chip.is R.HPT_MEM_ADDR F.HPT_MEM_ADDR_SPACE, s.chip.f R.HPT_MEM_ADDR F.HPT_MEM_ADDR_OFS, 4 * (n.toNat + 1)) = true → ∃ t,
      Sys2Proof.Machine.exec (.hostMemWrite w theKey n) s = .next t ∧
    Only [R.HPT_MEM_STAT] [.boot] s t ∧ t.chip.is R.HPT_MEM_STAT F.HPT_MEM_STAT_BUSY = true ∧ t.chip.boot =
      { s.chip.boot with copy := some (true, n.toNat + 1, s.chip.is R.HPT_MEM_ADDR F.HPT_MEM_ADDR_SPACE, s.chip.f R.HPT_MEM_ADDR F.HPT_MEM_ADDR_OFS) })
  ∧ (∀ (w : Writer) (n : BitVec 4) (s : State), May w R.HPT_MEM_CMD s → w.ini = .host → s.chip.boot.copy = none → s.chip.hostMayCopy
      (s.chip.is R.HPT_MEM_ADDR F.HPT_MEM_ADDR_SPACE, s.chip.f R.HPT_MEM_ADDR F.HPT_MEM_ADDR_OFS, 4 * (n.toNat + 1)) = false → ∃ t,
      Sys2Proof.Machine.exec (.hostMemWrite w theKey n) s = .next t ∧
    Only [R.HPT_MEM_STAT] [] s t ∧ t.chip.is R.HPT_MEM_STAT F.HPT_MEM_STAT_DENIED = true)
  ∧ (∀ (n a : Nat) (s : State), s.chip.powered = true → s.chip.time.gated = false → s.chip.boot.copy = some (true, n, false, a) → a + 4 * n ≤
      sramSize → ∃ t, Sys2Proof.Machine.exec (.memCopyDone) s = .next t ∧
    t.pending = s.pending ∧ t.mem.dram = s.mem.dram ∧ t.mem.fram = s.mem.fram ∧ t.mem.flashA = s.mem.flashA ∧ t.mem.flashB =
      s.mem.flashB ∧ t.mem.otp = s.mem.otp ∧ t.chip.boot = { s.chip.boot with copy := none } ∧ t.chip.is R.HPT_MEM_STAT
      F.HPT_MEM_STAT_DONE = true ∧ t.chip.is R.HPT_MEM_STAT F.HPT_MEM_STAT_BUSY = false ∧ Chip.Kept true [R.HPT_MEM_STAT] [.boot] s.chip
      t.chip ∧ (∀ i < n, ∀ j < 4, SMap.get unwritten t.mem.sram (a + 4 * i + j) = BitVec.ofNat 8 (s.chip.rdN (R.HPT_MBUF i) / 256 ^ j))
      ∧ (∀ b, b < a ∨ a + 4 * n ≤ b → SMap.get unwritten t.mem.sram b = SMap.get unwritten s.mem.sram b))
  ∧ (∀ (n a : Nat) (s : State), s.chip.powered = true → s.chip.time.gated = false → s.chip.boot.copy = some (false, n, false, a) → n ≤ 16 → ∃
      t, Sys2Proof.Machine.exec (.memCopyDone) s = .next t ∧
    Quiet s t ∧ t.chip.boot = { s.chip.boot with copy := none } ∧ t.chip.is R.HPT_MEM_STAT F.HPT_MEM_STAT_DONE = true ∧ (∀ i < n,
      t.chip.rdN (R.HPT_MBUF i) = leNat (s.mem.sramGet (a + 4 * i) 4)))

/-- O33 (R461, R462, R464, R476). Credits, announcements and roots: what each command does where it takes effect. CREDIT_RX on an ACTIVE
lane adds the credits of the virtual channel. ANNOUNCE_SEND puts one ANNOUNCE on each ACTIVE lane of each plane on which a root is
known. ANNOUNCE_RX is held for its lane (the layout of its words is the model’s choice: log entry 35, DESIGN CHOICE). ROOT_CLAIM of a
capable device that hears no root makes it the root of the plane, not seated. ROOT_SEAT of a root that heard no better rank seats it.
ROOT_LOST forgets the root of the plane and, where no other is announced, leaves it without a level. A root heard again in that cycle is
kept (R37). Commands that complete (exec answers a next state): creditRx, announceSend, announceRx, rootClaim, rootSeat, rootLost. -/
def Obligations.MusterElectionCommands : Prop :=
  (∀ (n : Fin 8) (vc : Fin 6) (k : BitVec 8) (s : State), Awake (P.LANE n) s → s.chip.laneUp n = true → ∃ t, Sys2Proof.Machine.exec
      (.creditRx n vc k) s = .next t ∧
    Only [] [.lanes] s t ∧ t.chip.lanes = upd s.chip.lanes n fun l => { l with cred := upd l.cred vc (· + k.toNat) })
  ∧ (∀ (s : State), Awake P.MUS s → ∃ t, Sys2Proof.Machine.exec (.announceSend) s = .next t ∧
    OnlyEv [R.MUS_STAT, R.MUS_BW, R.MUS_BW_RANK 0, R.MUS_BW_RANK 1, R.MUS_MEMBERS, R.MUS_QRES_LO, R.MUS_QRES_HI, R.HTM_STAT] [.fab,
      .out] s t ∧ s.chip.out <+: t.chip.out ∧ t.chip.out.length = s.chip.out.length + ((List.range 8).filter fun n => (t.chip.root
      (planeOf n)).isSome && s.chip.laneUp n && s.chip.joined (planeOf n)).length)
  ∧ (∀ (n : Fin 8) (p : Packet) (s : State), s.chip.powered = true → s.chip.time.gated = false → s.chip.admitted p = none → ∃ t,
      Sys2Proof.Machine.exec (.announceRx n p) s = .next t ∧
    Quiet s t ∧ t.chip.lanes = upd s.chip.lanes n fun l =>
      { l with ann := some ⟨p.w64 0, p.w 2 % 2 ^ 15, nbit (p.w 2) 31, p.w 3 % 256, p.w 4 % 2 ^ 15⟩ })
  ∧ (∀ (plane : Fin 2) (s : State), Awake P.MUS s → s.chip.joined plane = true → s.chip.anns plane = [] → s.chip.fab.claim.length = 2 →
      s.chip.fab.roots.length = 2 → s.chip.fab.seated.length = 2 → s.chip.is R.MUS_CFG F.MUS_CFG_BW_CAPABLE = true → s.chip.root plane =
      none → s.chip.bellwether = none → ∃ t, Sys2Proof.Machine.exec (.rootClaim plane) s = .next t ∧
    Quiet s t ∧ t.chip.rootClaim plane = true ∧ t.chip.plevel plane = some 0 ∧ t.chip.root plane = some ⟨s.chip.musRank, s.chip.myId,
      false⟩)
  ∧ (∀ (plane : Fin 2) (s : State), Awake P.MUS s → s.chip.joined plane = true → s.chip.anns plane = [] → s.chip.fab.claim.length = 2 →
      s.chip.fab.roots.length = 2 → s.chip.fab.seated.length = 2 → s.chip.rootClaim plane = true → ∃ t, Sys2Proof.Machine.exec
      (.rootSeat plane) s = .next t ∧
    Quiet s t ∧ t.chip.plevel plane = some 0 ∧ t.chip.root plane = some ⟨s.chip.musRank, s.chip.myId, true⟩)
  ∧ (∀ (plane : Fin 2) (r : Root) (s : State), Awake P.MUS s → s.chip.joined plane = true → s.chip.root plane = some r → s.chip.rootClaim
      plane = false → s.chip.fab.roots.length = 2 → ((s.chip.anns plane).all fun x => x.2.isFor r) = true → ∃ t, Sys2Proof.Machine.exec
      (.rootLost plane false) s = .next t ∧
    Quiet s t ∧ t.chip.root plane = none ∧ t.chip.plevel plane = none)
  ∧ (∀ (plane : Fin 2) (s : State), s.chip.powered = true → s.chip.time.gated = false → ∃ t, Sys2Proof.Machine.exec (.rootLost plane true) s
      = .next t ∧
    Only [] [] s t)

/-- O34 (R465, R466, R467, R468, R469, R491, R493). IDs, reports and muster commands: what each command does where it takes effect.
ID_REQ_SEND of a device without an ID asks up the tree with its serial and preference. ID_REQ_RX at the bellwether enters the device in
the map and sends the grant down the tree. Another device does nothing with it. ID_GRANT_RX with this device’s serial gives it the ID. A
grant of 0 takes the ID away and shows the conflict. TOPO_REPORT_SEND reports on each plane on which the device has a level.
TOPO_REPORT_RX is acknowledged down the tree. At the bellwether an ID that a lower serial holds is taken from the reporter by a grant of
0. MUS_RESTART forgets roots and map and keeps the ID. MUS_LEAVE of a device without an ID only notes that it leaves. With an ID it
reports that at once on each plane where it has a level. MUS_RECOMPUTE of the bellwether computes the tables anew; with a switch under
way the new ones wait. MUS_REPLACE of the bellwether reserves the ID for the serial. MUS_FORGET takes the queried ID out of the map.
MUS_RECOMPUTE of any other device is recorded as STATE. MUS_REPLACE of any other device is recorded as STATE. MUS_FORGET of any other
device is recorded as STATE. Commands that complete (exec answers a next state): idReqSend, idReqRx, idGrantRx, topoReportSend,
topoReportRx, musRestart, musLeave, musRecompute, musReplace, musForget. -/
def Obligations.MusterMapCommands : Prop :=
  (∀ (plane : Fin 2) (l : Nat) (s : State), Awake P.MUS s → s.chip.plevel plane = some l → l ≠ 0 → s.chip.is R.FAB_ID F.FAB_ID_VALID =
      false → ∃ t, Sys2Proof.Machine.exec (.idReqSend plane) s = .next t ∧
    Only [] [.out] s t ∧ t.chip.out = s.chip.out ++ [⟨s.chip.packet 0x28 4 3 0 s.chip.musSes 0 (treeUnit 0 plane l false ++ words64
      s.chip.serial ++ [s.chip.rdN R.MUS_ID_PREF]), 2 ^ plane.val, none, false⟩])
  ∧ (∀ (plane : Fin 2) (p : Packet) (ser id : Nat) (s : State), s.chip.powered = true → s.chip.time.gated = false → s.chip.admitted p = none
      → s.chip.is R.MUS_STAT F.MUS_STAT_IS_BW = true → ser = p.w64 8 % 2 ^ 48 → id = s.chip.idFor ser (p.w 10) → id ≠ 0 → ser ≠
      s.chip.serial → ∃ t, Sys2Proof.Machine.exec (.idReqRx plane p) s = .next t ∧
    Quiet s t ∧ (t.chip.fab.members.any fun m => m.id = id && m.serial = ser && m.st = 1) = true ∧ s.chip.packet 0x29 3 3 id
      s.chip.musSes p.tag.toNat (treeUnit (p.w64 0) plane (p.w 2 / 256 % 256) true ++ words64 ser ++ [id]) ∈ t.chip.out.map (·.p))
  ∧ (∀ (plane : Fin 2) (p : Packet) (s : State), s.chip.powered = true → s.chip.time.gated = false → s.chip.admitted p = none → s.chip.is
      R.MUS_STAT F.MUS_STAT_IS_BW = false → ∃ t, Sys2Proof.Machine.exec (.idReqRx plane p) s = .next t ∧
    t = s)
  ∧ (∀ (p : Packet) (s : State), s.chip.powered = true → s.chip.time.gated = false → s.chip.admitted p = none → p.w64 8 % 2 ^ 48 =
      s.chip.serial → p.w 10 % 2 ^ 15 ≠ 0 → ∃ t, Sys2Proof.Machine.exec (.idGrantRx p) s = .next t ∧
    Quiet s t ∧ t.chip.f R.FAB_ID F.FAB_ID_ID = p.w 10 % 2 ^ 15 ∧ t.chip.is R.FAB_ID F.FAB_ID_VALID = true)
  ∧ (∀ (p : Packet) (s : State), s.chip.powered = true → s.chip.time.gated = false → s.chip.admitted p = none → p.w64 8 % 2 ^ 48 =
      s.chip.serial → p.w 10 % 2 ^ 15 = 0 → ∃ t, Sys2Proof.Machine.exec (.idGrantRx p) s = .next t ∧
    Quiet s t ∧ t.chip.rd R.FAB_ID = 0 ∧ t.chip.is R.MUS_STAT F.MUS_STAT_CONFLICT = true)
  ∧ (∀ (l : Nat) (s : State), Awake P.MUS s → s.chip.is R.FAB_ID F.FAB_ID_VALID = true → s.chip.plevel 0 = some l → l ≠ 0 → s.chip.plevel 1 =
      none → ∃ t, Sys2Proof.Machine.exec (.topoReportSend) s = .next t ∧
    Only [] [.out] s t ∧ t.chip.out.length = s.chip.out.length + 1)
  ∧ (∀ (plane : Fin 2) (p : Packet) (s : State), s.chip.powered = true → s.chip.time.gated = false → s.chip.admitted p = none → s.chip.is
      R.MUS_STAT F.MUS_STAT_IS_BW = false → ∃ t, Sys2Proof.Machine.exec (.topoReportRx plane p) s = .next t ∧
    Only [] [.out] s t ∧ t.chip.out = s.chip.out ++ [⟨s.chip.packet 0x2B 3 3 (p.w 8 % 2 ^ 15) s.chip.musSes p.tag.toNat (treeUnit (p.w64
      0) plane (p.w 2 / 256 % 256) true ++ words64 (p.w64 9)), 2 ^ plane.val, none, false⟩])
  ∧ (∀ (plane : Fin 2) (p : Packet) (m : Member) (s : State), s.chip.powered = true → s.chip.time.gated = false → s.chip.admitted p = none →
      s.chip.is R.MUS_STAT F.MUS_STAT_IS_BW = true → (s.chip.fab.members.find? fun m => m.id = p.w 8 % 2 ^ 15 && m.serial ≠ p.w64 9 % 2
      ^ 48) = some m → m.st = 1 → m.serial < p.w64 9 % 2 ^ 48 → p.w64 9 % 2 ^ 48 ≠ s.chip.serial → ∃ t, Sys2Proof.Machine.exec
      (.topoReportRx plane p) s = .next t ∧
    Only [] [.out] s t ∧ t.chip.out = s.chip.out ++ [⟨s.chip.packet 0x2B 3 3 (p.w 8 % 2 ^ 15) s.chip.musSes p.tag.toNat (treeUnit (p.w64
      0) plane (p.w 2 / 256 % 256) true ++ words64 (p.w64 9)), 2 ^ plane.val, none, false⟩, ⟨s.chip.packet 0x29 3 3 0 s.chip.musSes 0
      (treeUnit (p.w64 0) plane (p.w 2 / 256 % 256) true ++ words64 (p.w64 9 % 2 ^ 48) ++ [0]), 2 ^ plane.val, none, false⟩])
  ∧ (∀ (w : Writer) (s : State), May w R.MUS_CMD s → ∃ t, Sys2Proof.Machine.exec (.musRestart w theKey) s = .next t ∧
    Quiet s t ∧ t.chip.root 0 = none ∧ t.chip.root 1 = none ∧ t.chip.fab.members = [] ∧ t.chip.fab.left = false ∧ t.chip.rd R.FAB_ID =
      s.chip.rd R.FAB_ID)
  ∧ (∀ (w : Writer) (s : State), May w R.MUS_CMD s → s.chip.is R.FAB_ID F.FAB_ID_VALID = false → ∃ t, Sys2Proof.Machine.exec (.musLeave w
      theKey) s = .next t ∧
    Only [] [.fab] s t ∧ t.chip.fab = { s.chip.fab with leaving := true })
  ∧ (∀ (w : Writer) (l : Nat) (s : State), May w R.MUS_CMD s → s.chip.is R.FAB_ID F.FAB_ID_VALID = true → s.chip.plevel 0 = some l → l ≠ 0 →
      s.chip.plevel 1 = none → ∃ t, Sys2Proof.Machine.exec (.musLeave w theKey) s = .next t ∧
    Only [] [.fab, .out] s t ∧ t.chip.fab = { s.chip.fab with leaving := true } ∧ t.chip.out.length = s.chip.out.length + 1)
  ∧ (∀ (w : Writer) (s : State), May w R.MUS_CMD s → s.chip.is R.MUS_STAT F.MUS_STAT_IS_BW = true → (s.chip.bus.ctxs.any fun x => decide
      (x.st ≠ .free) && decide (x.ini = 0) && decide (x.kind = .coord)) = true → ∃ t, Sys2Proof.Machine.exec (.musRecompute w theKey) s
      = .next t ∧
    Quiet s t ∧ t.chip.fab.switchDue = (List.range 2).filter s.chip.rootClaim ∧ t.chip.fab.members = s.chip.fab.members)
  ∧ (∀ (w : Writer) (s : State), May w R.MUS_CMD s → s.chip.is R.MUS_STAT F.MUS_STAT_IS_BW = true → ∃ t, Sys2Proof.Machine.exec (.musReplace
      w theKey) s = .next t ∧
    Only [R.MUS_MEMBERS, R.MUS_QRES_LO, R.MUS_QRES_HI] [.fab] s t ∧ t.chip.fab =
      { s.chip.fab with members := (s.chip.fab.members.filter fun m => m.id ≠ s.chip.f R.MUS_REPL_ID F.MUS_REPL_ID_ID) ++ [⟨s.chip.f R.MUS_REPL_ID F.MUS_REPL_ID_ID, s.chip.rdN R.MUS_REPL_SER_LO + 2 ^ 32 * s.chip.f R.MUS_REPL_SER_HI F.MUS_REPL_SER_HI_SER, 3, 0, 0, 0, []⟩] })
  ∧ (∀ (w : Writer) (s : State), May w R.MUS_CMD s → s.chip.is R.MUS_STAT F.MUS_STAT_IS_BW = true → ∃ t, Sys2Proof.Machine.exec (.musForget w
      theKey) s = .next t ∧
    Only [R.MUS_MEMBERS, R.MUS_QRES_LO, R.MUS_QRES_HI] [.fab] s t ∧ t.chip.fab =
      { s.chip.fab with members := s.chip.fab.members.filter fun m => m.id ≠ s.chip.f R.MUS_QUERY F.MUS_QUERY_ID })
  ∧ (∀ (w : Writer) (s : State), May w R.MUS_CMD s → s.chip.is R.MUS_STAT F.MUS_STAT_IS_BW = false → ∃ t, Sys2Proof.Machine.exec
      (.musRecompute w theKey) s = .next t ∧
    Quiet s t ∧ t.chip = s.chip.perr R.MUS_CMD .state w.ini.code)
  ∧ (∀ (w : Writer) (s : State), May w R.MUS_CMD s → s.chip.is R.MUS_STAT F.MUS_STAT_IS_BW = false → ∃ t, Sys2Proof.Machine.exec (.musReplace
      w theKey) s = .next t ∧
    Quiet s t ∧ t.chip = s.chip.perr R.MUS_CMD .state w.ini.code)
  ∧ (∀ (w : Writer) (s : State), May w R.MUS_CMD s → s.chip.is R.MUS_STAT F.MUS_STAT_IS_BW = false → ∃ t, Sys2Proof.Machine.exec (.musForget
      w theKey) s = .next t ∧
    Quiet s t ∧ t.chip = s.chip.perr R.MUS_CMD .state w.ini.code)

/-- O35 (R471, R473, R480, R481, R482, R483, R484, R492, R213). Route tables, herd time over the fabric and publications: what each command
does where it takes effect. ROUTE_TABLE_WRITE of a word that keeps the rules of R473 goes into the selected inactive bank. To the active
bank, or against those rules, it is recorded as STATE and counted. BANK_CLEAR makes every entry of the selected inactive bank invalid.
TIME_SYNC_SEND puts a TIME_SYNC with the transmission time on the lane of each child. TIME_SYNC_RX from the upstream lane disciplines
herd time. From another lane it disciplines nothing. DELAY_REQ_SEND sends a DELAY_REQ upstream and keeps its transmission time.
DELAY_REQ_RX is answered with the times of arrival and of the answer’s transmission. DELAY_RESP_RX takes the measured link delay into
the average of the last eight. PUB_SLOT_START of an enabled entry sends its slots with number, cycle and herd time. An uncorrectable
error in one of those slots is counted, and that slot goes out as a stale word. PUB_RX of a subscribed publication puts its words into
the subscription’s slots. SUB_STALE marks the slots of the subscription stale. A publication that arrives in that cycle wins (R37).
Commands that complete (exec answers a next state): routeTableWrite, bankClear, timeSyncSend, timeSyncRx, delayReqSend, delayReqRx,
delayRespRx, pubSlotStart, pubRx, subStale. -/
def Obligations.FabricTableAndTimeCommands : Prop :=
  (∀ (w : Writer) (k : Fin 385) (v : BitVec 32) (s : State), May w (windowOff k) s → s.chip.bankOf (s.chip.f R.FAB_SEL F.FAB_SEL_PLANE) ≠
      s.chip.f R.FAB_SEL F.FAB_SEL_BANK → s.chip.routeOk (s.chip.f R.FAB_SEL F.FAB_SEL_PLANE) (s.chip.f R.FAB_SEL F.FAB_SEL_BANK) k (v
      &&& (if k.val < 384 then 0x8FFFF000#32 else 0xFF#32)) = true → ∃ t, Sys2Proof.Machine.exec (.routeTableWrite w k v) s = .next t ∧
    Only [routeKey (s.chip.f R.FAB_SEL F.FAB_SEL_PLANE) (s.chip.f R.FAB_SEL F.FAB_SEL_BANK) k] [] s t ∧ t.chip.rd (routeKey (s.chip.f
      R.FAB_SEL F.FAB_SEL_PLANE) (s.chip.f R.FAB_SEL F.FAB_SEL_BANK) k) = (v &&& (if k.val < 384 then 0x8FFFF000#32 else 0xFF#32)))
  ∧ (∀ (w : Writer) (k : Fin 385) (v : BitVec 32) (s : State), May w (windowOff k) s → (s.chip.bankOf (s.chip.f R.FAB_SEL F.FAB_SEL_PLANE) =
      s.chip.f R.FAB_SEL F.FAB_SEL_BANK ∨ s.chip.routeOk (s.chip.f R.FAB_SEL F.FAB_SEL_PLANE) (s.chip.f R.FAB_SEL F.FAB_SEL_BANK) k (v
      &&& (if k.val < 384 then 0x8FFFF000#32 else 0xFF#32)) = false) → ∃ t, Sys2Proof.Machine.exec (.routeTableWrite w k v) s = .next t
      ∧
    OnlyEv [P.FAB + H.ERR, R.FAB_CNT_1] [] s t ∧ t.chip.bit (P.FAB + H.ERR) 6 = true ∧ t.chip.f R.FAB_CNT_1 F.FAB_CNT_1_TBL_REJ = min
      (s.chip.f R.FAB_CNT_1 F.FAB_CNT_1_TBL_REJ + 1) (2 ^ F.FAB_CNT_1_TBL_REJ.width - 1))
  ∧ (∀ (w : Writer) (s : State), May w R.FAB_BANK_CMD s → s.chip.bankOf (s.chip.f R.FAB_SEL F.FAB_SEL_PLANE) ≠ s.chip.f R.FAB_SEL
      F.FAB_SEL_BANK → ∃ t, Sys2Proof.Machine.exec (.bankClear w theKey) s = .next t ∧
    Quiet s t ∧ (∀ k < 384, t.chip.is (routeKey (s.chip.f R.FAB_SEL F.FAB_SEL_PLANE) (s.chip.f R.FAB_SEL F.FAB_SEL_BANK) k)
      F.FAB_RT_R_VALID = false) ∧ t.chip.rd (routeKey (s.chip.f R.FAB_SEL F.FAB_SEL_PLANE) (s.chip.f R.FAB_SEL F.FAB_SEL_BANK) 384) =
      s.chip.rd (routeKey (s.chip.f R.FAB_SEL F.FAB_SEL_PLANE) (s.chip.f R.FAB_SEL F.FAB_SEL_BANK) 384))
  ∧ (∀ (s : State), Awake P.FAB s → s.chip.is R.FAB_TIME_CFG F.FAB_TIME_CFG_EN = true → ∃ t, Sys2Proof.Machine.exec (.timeSyncSend) s = .next
      t ∧
    Only [] [.out] s t ∧ t.chip.out = s.chip.out ++ (s.chip.children 0 ++ s.chip.children 1).map fun n => ⟨s.chip.packet 0x01 0 0 0
      s.chip.ses0 0 (stampWords (s.chip.ballTime n true)), 0, some n, false⟩)
  ∧ (∀ (n : Fin 8) (p : Packet) (s : State), s.chip.powered = true → s.chip.time.gated = false → s.chip.admitted p = none → s.chip.upstream =
      some n.val → s.chip.f R.HTM_CTL F.HTM_CTL_DISC_SRC ≠ 0 → ∃ t, Sys2Proof.Machine.exec (.timeSyncRx n p) s = .next t ∧
    Quiet s t ∧ t.chip.is R.FAB_STAT F.FAB_STAT_TIME_OK = true ∧ t.chip.f R.FAB_TIME_STAT F.FAB_TIME_STAT_LANE = n.val % 4 ∧ t.chip.f
      R.FAB_TIME_STAT F.FAB_TIME_STAT_PLANE = planeOf n)
  ∧ (∀ (n : Fin 8) (p : Packet) (s : State), s.chip.powered = true → s.chip.time.gated = false → s.chip.admitted p = none → s.chip.upstream ≠
      some n.val → ∃ t, Sys2Proof.Machine.exec (.timeSyncRx n p) s = .next t ∧
    Only [R.FAB_TIME_STAT] [.fab, .time] s t)
  ∧ (∀ (n : Nat) (s : State), Awake P.FAB s → s.chip.upstream = some n → s.chip.laneUp n = true → ∃ t, Sys2Proof.Machine.exec (.delayReqSend)
      s = .next t ∧
    Only [R.FAB_TIME_STAT] [.fab, .time, .out] s t ∧ t.chip.fab.dly = some (n, s.chip.ballTime n true) ∧ t.chip.out = s.chip.out ++
      [⟨s.chip.packet 0x02 0 0 0 s.chip.ses0 0 [], 0, some n, false⟩])
  ∧ (∀ (n : Fin 8) (p : Packet) (s : State), s.chip.powered = true → s.chip.time.gated = false → s.chip.admitted p = none → ∃ t,
      Sys2Proof.Machine.exec (.delayReqRx n p) s = .next t ∧
    Only [] [.out] s t ∧ t.chip.out = s.chip.out ++ [⟨s.chip.packet 0x03 0 0 0 s.chip.ses0 p.tag.toNat (stampWords (s.chip.ballTime n
      false) ++ stampWords (s.chip.ballTime n true)), 0, some n.val, false⟩])
  ∧ (∀ (n : Fin 8) (p : Packet) (t1 : Int) (s : State), s.chip.powered = true → s.chip.time.gated = false → s.chip.admitted p = none →
      s.chip.fab.dly = some (n.val, t1) → ∃ t, Sys2Proof.Machine.exec (.delayRespRx n p) s = .next t ∧
    Only [R.FAB_TIME_DLY, R.FAB_TIME_STAT] [.fab, .time] s t ∧ t.chip.fab = { s.chip.fab with dly := none } ∧ t.chip.time =
      { s.chip.time with delays := (roundDiv ((s.chip.ballTime n false - t1 - (stampOf p 3 - stampOf p 0)) / 2) (2 ^ 32) :: s.chip.time.delays).take 8 }
      ∧ t.chip.is R.FAB_TIME_STAT F.FAB_TIME_STAT_VALID = decide (7 ≤ s.chip.time.delays.length))
  ∧ (∀ (k : Fin 64) (s : State), Awake P.FAB s → s.chip.is R.FAB_CYCLE F.FAB_CYCLE_SCHED_EN = true → s.chip.is (R.FAB_TX_A k) F.FAB_TX_A_EN =
      true → s.chip.ctrlSlot = s.chip.f (R.FAB_TX_A k) F.FAB_TX_A_SLOT → ∃ t, Sys2Proof.Machine.exec (.pubSlotStart k .none) s = .next t
      ∧
    Only [] [.out] s t ∧ t.chip.out = s.chip.out ++ [⟨s.chip.packet 0x10 2 (fget (s.chip.rd (R.FAB_TX_A k)) F.FAB_TX_A_CAST) (fget
      (s.chip.rd (R.FAB_TX_A k)) F.FAB_TX_A_DEST) s.chip.ses0 0 ([fget (s.chip.rd (R.FAB_TX_B k)) F.FAB_TX_B_PUB_ID, s.chip.cycleNo] ++
      words64 s.chip.htNs ++ (runSlots (fget (s.chip.rd (R.FAB_TX_B k)) F.FAB_TX_B_FIRST) (fget (s.chip.rd (R.FAB_TX_B k))
      F.FAB_TX_B_NWORDS)).map fun x => (s.chip.slot x).toNat), fget (s.chip.rd (R.FAB_TX_A k)) F.FAB_TX_A_PLANES, none, false⟩])
  ∧ (∀ (k : Fin 64) (x : Fin 1024) (s : State), Awake P.FAB s → s.chip.is R.FAB_CYCLE F.FAB_CYCLE_SCHED_EN = true → s.chip.is (R.FAB_TX_A k)
      F.FAB_TX_A_EN = true → (runSlots (fget (s.chip.rd (R.FAB_TX_B k)) F.FAB_TX_B_FIRST) (fget (s.chip.rd (R.FAB_TX_B k))
      F.FAB_TX_B_NWORDS)).contains x.val = true → s.chip.ctrlSlot = s.chip.f (R.FAB_TX_A k) F.FAB_TX_A_SLOT → ∃ t,
      Sys2Proof.Machine.exec (.pubSlotStart k (.slot x)) s = .next t ∧
    OnlyEv [R.STR_ECC] [.out] s t ∧ t.chip.f R.STR_ECC F.STR_ECC_UE = min (s.chip.f R.STR_ECC F.STR_ECC_UE + 1) (2 ^ F.STR_ECC_UE.width
      - 1) ∧ t.chip.out = s.chip.out ++ [⟨s.chip.packet 0x10 2 (fget (s.chip.rd (R.FAB_TX_A k)) F.FAB_TX_A_CAST) (fget (s.chip.rd
      (R.FAB_TX_A k)) F.FAB_TX_A_DEST) s.chip.ses0 0 ([fget (s.chip.rd (R.FAB_TX_B k)) F.FAB_TX_B_PUB_ID, s.chip.cycleNo] ++ words64
      s.chip.htNs ++ (runSlots (fget (s.chip.rd (R.FAB_TX_B k)) F.FAB_TX_B_FIRST) (fget (s.chip.rd (R.FAB_TX_B k))
      F.FAB_TX_B_NWORDS)).map fun y => if x.val = y then 0x40 else (s.chip.slot y).toNat), fget (s.chip.rd (R.FAB_TX_A k))
      F.FAB_TX_A_PLANES, none, false⟩])
  ∧ (∀ (p : Packet) (k : Nat) (s : State), s.chip.powered = true → s.chip.time.gated = false → s.chip.admitted p = none → k < 64 → s.chip.is
      (R.FAB_SUB_A k) F.FAB_SUB_A_EN = true → s.chip.f (R.FAB_SUB_A k) F.FAB_SUB_A_SRC = p.src.toNat → s.chip.f (R.FAB_SUB_A k)
      F.FAB_SUB_A_PUB_ID = p.w 0 % 256 → SMap.get (fun _ => 0) s.chip.fab.subCyc k = 0 → s.chip.f (R.FAB_SUB_B k) F.FAB_SUB_B_NWORDS = 1
      → s.chip.holds (Cl.sub k) (s.chip.f (R.FAB_SUB_B k) F.FAB_SUB_B_FIRST % 1024) = true → ((∀ j < 64, j ≠ k → s.chip.is (R.FAB_SUB_A
      j) F.FAB_SUB_A_EN = false)) → ∃ t, Sys2Proof.Machine.exec (.pubRx p) s = .next t ∧
    Quiet s t ∧ SMap.get (fun _ => 0) t.chip.fab.subCyc k = p.w 1 + 1 ∧ t.chip.rdN (Key.slot (s.chip.f (R.FAB_SUB_B k) F.FAB_SUB_B_FIRST
      % 1024)) = p.w 4)
  ∧ (∀ (k : Fin 64) (s : State), Awake P.FAB s → s.chip.is (R.FAB_SUB_A k) F.FAB_SUB_A_EN = true → ∃ t, Sys2Proof.Machine.exec (.subStale k
      false) s = .next t ∧
    Quiet s t ∧ (∀ x ∈ runSlots (s.chip.f (R.FAB_SUB_B k) F.FAB_SUB_B_FIRST) (s.chip.f (R.FAB_SUB_B k) F.FAB_SUB_B_NWORDS), s.chip.holds
      (Cl.sub k) x = true → t.chip.bit (Key.slot x) 6 = true))
  ∧ (∀ (k : Fin 64) (s : State), s.chip.powered = true → s.chip.time.gated = false → ∃ t, Sys2Proof.Machine.exec (.subStale k true) s = .next
      t ∧
    Only [] [] s t)

/-- O36 (R88, R90, R91, R92, R93, R94, R459). Herd-transaction packets: what each does where it takes effect. PREPARE_RX with T far enough
ahead prepares the open herd context and votes YES. Without one it votes NO (the cause code is a free value: log entry 2, DESIGN
CHOICE). A doomed herd context of that tag is then rolled back as VOTED_NO. COMMIT_AT_RX in time arms the prepared context for T.
ABORT_RX before T − guard ends it as ABORTED. RESOLVE_RX with the abort flag ends a context in doubt as MISSED. Otherwise it arms it for
the late commit at T2. VOTE_RX counts a YES. With AUTO the first NO sends ABORT. Commands that complete (exec answers a next state):
prepareRx, commitAtRx, abortRx, resolveRx, voteRx. -/
def Obligations.HerdPacketCommands : Prop :=
  (∀ (p : Packet) (n : Nat) (s : State), s.chip.powered = true → s.chip.time.gated = false → s.chip.admitted p = none → s.chip.herdCtx (p.w
      0) (fun x => decide (x = .opened)) = some n → 2 ≤ p.w 3 → s.chip.time.ht + (1000 + 1000 * p.w 3) * 2 ^ 48 ≤ p.w64 1 * 2 ^ 48 →
      (s.chip.ctx n).entries = [] → ∃ t, Sys2Proof.Machine.exec (.prepareRx p) s = .next t ∧
    Quiet s t ∧ t.chip.ctx n =
      { s.chip.ctx n with st := .prepared, t := p.w64 1, guardUs := p.w 3, timeoutMs := p.w 4, coordId := p.src.toNat, voted := true } ∧
      t.chip.out = (s.chip.vote p true 0).out)
  ∧ (∀ (p : Packet) (s : State), s.chip.powered = true → s.chip.time.gated = false → s.chip.admitted p = none → s.chip.herdCtx (p.w 0) (fun x
      => decide (x = .opened)) = none → s.chip.noVoteCtx (p.w 0) = none → ∃ t, Sys2Proof.Machine.exec (.prepareRx p) s = .next t ∧
    Quiet s t ∧ t.chip.bus.ctxs = s.chip.bus.ctxs ∧ t.chip.out = (s.chip.vote p false (Config.freeWord s.chip.freeCtr).toNat).out)
  ∧ (∀ (p : Packet) (n : Nat) (s : State), s.chip.powered = true → s.chip.time.gated = false → s.chip.admitted p = none → s.chip.herdCtx (p.w
      0) (fun x => decide (x = .opened)) = none → s.chip.noVoteCtx (p.w 0) = some n → n ≠ 0 → ∃ t, Sys2Proof.Machine.exec (.prepareRx p)
      s = .next t ∧
    Quiet s t ∧ t.chip.ctx n = { Ctx.init with ini := (s.chip.ctx n).ini, result := Res.votedNo } ∧ t.chip.out = (s.chip.vote p false
      (Config.freeWord s.chip.freeCtr).toNat).out)
  ∧ (∀ (p : Packet) (n : Nat) (s : State), s.chip.powered = true → s.chip.time.gated = false → s.chip.admitted p = none → s.chip.herdCtx (p.w
      0) (fun x => decide (x = .prepared)) = some n → s.chip.inTime (s.chip.ctx n).guardUs (p.w64 1) = true → ∃ t,
      Sys2Proof.Machine.exec (.commitAtRx p) s = .next t ∧
    Quiet s t ∧ t.chip.ctx n = { s.chip.ctx n with st := .armed, mode := .atHt, t := p.w64 1, edgeFixed := false })
  ∧ (∀ (p : Packet) (n : Nat) (s : State), s.chip.powered = true → s.chip.time.gated = false → s.chip.admitted p = none → s.chip.herdCtx (p.w
      0) (fun x => decide (x = .prepared)) = some n → s.chip.htNs + 1000 * (s.chip.ctx n).guardUs < (s.chip.ctx n).t → ∃ t,
      Sys2Proof.Machine.exec (.abortRx p) s = .next t ∧
    Quiet s t ∧ t.chip.ctx n = { Ctx.init with ini := (s.chip.ctx n).ini, result := Res.aborted } ∧ t.chip.rdN R.TXN_HLAST_RES =
      Res.aborted)
  ∧ (∀ (p : Packet) (n : Nat) (s : State), s.chip.powered = true → s.chip.time.gated = false → s.chip.admitted p = none → s.chip.herdCtx (p.w
      0) (fun x => decide (x = .inDoubt)) = some n → nbit (p.w 3) 31 = true → ∃ t, Sys2Proof.Machine.exec (.resolveRx p) s = .next t ∧
    Quiet s t ∧ t.chip.ctx n = { Ctx.init with ini := (s.chip.ctx n).ini, result := Res.missed })
  ∧ (∀ (p : Packet) (n : Nat) (s : State), s.chip.powered = true → s.chip.time.gated = false → s.chip.admitted p = none → s.chip.herdCtx (p.w
      0) (fun x => decide (x = .inDoubt)) = some n → nbit (p.w 3) 31 = false → s.chip.inTime (s.chip.ctx n).guardUs (p.w64 1) = true → ∃
      t, Sys2Proof.Machine.exec (.resolveRx p) s = .next t ∧
    Quiet s t ∧ t.chip.ctx n = { s.chip.ctx n with st := .armed, mode := .atHt, t := p.w64 1, late := true, edgeFixed := false })
  ∧ (∀ (p : Packet) (n : Nat) (s : State), s.chip.powered = true → s.chip.time.gated = false → s.chip.admitted p = none → s.chip.findCtx (fun
      x => decide (x.kind = .coord) && decide (x.tag = p.w 0) && (decide (x.st = .coordinating) || x.sent)) = some n → nbit (p.w 1) 31 =
      true → (s.chip.ctx n).yes + 1 ≠ (s.chip.ctx n).expect → ∃ t, Sys2Proof.Machine.exec (.voteRx p) s = .next t ∧
    Quiet s t ∧ t.chip.ctx n = { s.chip.ctx n with yes := (s.chip.ctx n).yes + 1 })
  ∧ (∀ (p : Packet) (n : Nat) (s : State), s.chip.powered = true → s.chip.time.gated = false → s.chip.admitted p = none → s.chip.findCtx (fun
      x => decide (x.kind = .coord) && decide (x.tag = p.w 0) && (decide (x.st = .coordinating) || x.sent)) = some n → nbit (p.w 1) 31 =
      false → (s.chip.ctx n).auto = true → (s.chip.ctx n).no = 0 → (s.chip.ctx n).sent = false → ∃ t, Sys2Proof.Machine.exec (.voteRx p)
      s = .next t ∧
    Quiet s t ∧ t.chip.ctx n = { Ctx.init with ini := (s.chip.ctx n).ini, result := Res.aborted } ∧ t.chip.out.length =
      s.chip.out.length + 1)

/-- O37 (R456, R472, R478, R488, R489, R490, R494). Sessions and twin rings: what each command does where it takes effect. SES_OPEN opens
the session with its counters at zero. SES_CLOSE closes an open session. SESSION_EXPIRY ends it as expired. A packet that arrives in
that cycle keeps the session (R37). EVT_NOTIFY_RX waits while its ring has no free descriptor (log entry 36, DESIGN CHOICE). With one it
goes into its buffer; besides the descriptor no other byte of SRAM changes. DATA_RX waits while its ring has no free descriptor (log
entry 36, DESIGN CHOICE). With one it goes into its buffer; besides the descriptor no other byte of SRAM changes. FW_REQ_RX waits while
its ring has no free descriptor (log entry 36, DESIGN CHOICE). With one it goes into its buffer; besides the descriptor no other byte of
SRAM changes. SES_HELLO_RX waits while its ring has no free descriptor (log entry 36, DESIGN CHOICE). With one it goes into its buffer;
besides the descriptor no other byte of SRAM changes. SES_REPLY_RX waits while its ring has no free descriptor (log entry 36, DESIGN
CHOICE). With one it goes into its buffer; besides the descriptor no other byte of SRAM changes. SES_FINISH_RX waits while its ring has
no free descriptor (log entry 36, DESIGN CHOICE). With one it goes into its buffer; besides the descriptor no other byte of SRAM
changes. REG_RESP_RX ends the request of its tag and goes to the ring of the twin that asked. One that nothing awaits ends here.
FW_RESP_RX ends the request of its tag and goes to the ring of the twin that asked. One that nothing awaits ends here. UNDELIV_RX ends
the request of its tag and goes to the ring of the twin that asked. One that nothing awaits ends here. SES_KICK with no descriptor for
the device does nothing. With one it sends the packet described and gives the descriptor back, changing only its second word. Commands
that complete (exec answers a next state): sesOpen, sesClose, sessionExpiry, evtNotifyRx, dataRx, fwReqRx, sesHelloRx, sesReplyRx,
sesFinishRx, regRespRx, fwRespRx, undelivRx, sesKick. -/
def Obligations.SessionAndRingCommands : Prop :=
  (∀ (w : Writer) (n : Fin 256) (s : State), May w R.SES_CMD s → ∃ t, Sys2Proof.Machine.exec (.sesOpen w theKey n) s = .next t ∧
    OnlyEv [Key.ses n 0x20C, Key.ses n 0x210, Key.ses n 0x214, Key.ses n 0x218, Key.ses n 0x21C, Key.ses n 0x264, R.SES_OPEN (n.val /
      32)] [.fab] s t ∧ t.chip.sesOpen n = true ∧ t.chip.bit (R.SES_OPEN (n.val / 32)) (n.val % 32) = true ∧ t.chip.rd64 (Key.ses n
      0x210) = 0 ∧ t.chip.rd64 (Key.ses n 0x218) = 0)
  ∧ (∀ (w : Writer) (n : Fin 256) (s : State), May w R.SES_CMD s → s.chip.sesOpen n = true → ∃ t, Sys2Proof.Machine.exec (.sesClose w theKey
      n) s = .next t ∧
    Quiet s t ∧ t.chip.f (Key.ses n 0x20C) F.SES_S_STAT_STATE = 3 ∧ t.chip.bit (R.SES_OPEN (n.val / 32)) (n.val % 32) = false)
  ∧ (∀ (n : Fin 256) (s : State), Awake P.SES s → s.chip.f (Key.ses n 0x208) F.SES_S_WDOG_WDOG_MS ≠ 0 → s.chip.sesOpen n = true → ∃ t,
      Sys2Proof.Machine.exec (.sessionExpiry n false) s = .next t ∧
    Quiet s t ∧ t.chip.f (Key.ses n 0x20C) F.SES_S_STAT_STATE = 2 ∧ t.chip.bit (R.SES_OPEN (n.val / 32)) (n.val % 32) = false)
  ∧ (∀ (n : Fin 256) (s : State), s.chip.powered = true → s.chip.time.gated = false → ∃ t, Sys2Proof.Machine.exec (.sessionExpiry n true) s =
      .next t ∧
    Only [] [] s t)
  ∧ (∀ (p : Packet) (r d : Nat) (s : State), s.chip.powered = true → s.chip.time.gated = false → s.chip.admitted p = none → r = s.chip.rxRing
      p → d = s.chip.ringDesc r → s.chip.fab.ringWait = [] → nbit (s.mem.sramW (d + 4)).toNat 31 = false → ∃ t, Sys2Proof.Machine.exec
      (.evtNotifyRx p) s = .next t ∧
    Only [] [.fab] s t ∧ t.chip.fab = { s.chip.fab with ringWait := [(r, none, p)] })
  ∧ (∀ (p : Packet) (r d : Nat) (s : State), s.chip.powered = true → s.chip.time.gated = false → s.chip.admitted p = none → r = s.chip.rxRing
      p → d = s.chip.ringDesc r → s.chip.fab.ringWait = [] → nbit (s.mem.sramW (d + 4)).toNat 31 = true → ∃ t, Sys2Proof.Machine.exec
      (.evtNotifyRx p) s = .next t ∧
    t.pending = s.pending ∧ t.chip.fab.ringWait = [] ∧ t.chip.fab.ringIdx = upd s.chip.fab.ringIdx r (descNext (s.chip.rd (ringReg r)))
      ∧ t.mem.dram = s.mem.dram ∧ t.mem.fram = s.mem.fram ∧ t.mem.flashA = s.mem.flashA ∧ t.mem.flashB = s.mem.flashB ∧ t.mem.otp =
      s.mem.otp ∧ (∀ a, (∀ i < min (packetBytes p).length ((s.mem.sramW (d + 4)).toNat % 65536), a ≠ ((s.mem.sramW d).toNat + i) %
      sramSize) → (∀ i < 4, a ≠ (d + 4 + i) % sramSize) → SMap.get unwritten t.mem.sram a = SMap.get unwritten s.mem.sram a))
  ∧ (∀ (p : Packet) (r d : Nat) (s : State), s.chip.powered = true → s.chip.time.gated = false → s.chip.admitted p = none → r = s.chip.rxRing
      p → d = s.chip.ringDesc r → s.chip.fab.ringWait = [] → nbit (s.mem.sramW (d + 4)).toNat 31 = false → ∃ t, Sys2Proof.Machine.exec
      (.dataRx p) s = .next t ∧
    Only [] [.fab] s t ∧ t.chip.fab = { s.chip.fab with ringWait := [(r, none, p)] })
  ∧ (∀ (p : Packet) (r d : Nat) (s : State), s.chip.powered = true → s.chip.time.gated = false → s.chip.admitted p = none → r = s.chip.rxRing
      p → d = s.chip.ringDesc r → s.chip.fab.ringWait = [] → nbit (s.mem.sramW (d + 4)).toNat 31 = true → ∃ t, Sys2Proof.Machine.exec
      (.dataRx p) s = .next t ∧
    t.pending = s.pending ∧ t.chip.fab.ringWait = [] ∧ t.chip.fab.ringIdx = upd s.chip.fab.ringIdx r (descNext (s.chip.rd (ringReg r)))
      ∧ t.mem.dram = s.mem.dram ∧ t.mem.fram = s.mem.fram ∧ t.mem.flashA = s.mem.flashA ∧ t.mem.flashB = s.mem.flashB ∧ t.mem.otp =
      s.mem.otp ∧ (∀ a, (∀ i < min (packetBytes p).length ((s.mem.sramW (d + 4)).toNat % 65536), a ≠ ((s.mem.sramW d).toNat + i) %
      sramSize) → (∀ i < 4, a ≠ (d + 4 + i) % sramSize) → SMap.get unwritten t.mem.sram a = SMap.get unwritten s.mem.sram a))
  ∧ (∀ (p : Packet) (r d : Nat) (s : State), s.chip.powered = true → s.chip.time.gated = false → s.chip.admitted p = none → r = s.chip.rxRing
      p → d = s.chip.ringDesc r → s.chip.fab.ringWait = [] → nbit (s.mem.sramW (d + 4)).toNat 31 = false → ∃ t, Sys2Proof.Machine.exec
      (.fwReqRx p) s = .next t ∧
    Only [] [.fab] s t ∧ t.chip.fab = { s.chip.fab with ringWait := [(r, none, p)] })
  ∧ (∀ (p : Packet) (r d : Nat) (s : State), s.chip.powered = true → s.chip.time.gated = false → s.chip.admitted p = none → r = s.chip.rxRing
      p → d = s.chip.ringDesc r → s.chip.fab.ringWait = [] → nbit (s.mem.sramW (d + 4)).toNat 31 = true → ∃ t, Sys2Proof.Machine.exec
      (.fwReqRx p) s = .next t ∧
    t.pending = s.pending ∧ t.chip.fab.ringWait = [] ∧ t.chip.fab.ringIdx = upd s.chip.fab.ringIdx r (descNext (s.chip.rd (ringReg r)))
      ∧ t.mem.dram = s.mem.dram ∧ t.mem.fram = s.mem.fram ∧ t.mem.flashA = s.mem.flashA ∧ t.mem.flashB = s.mem.flashB ∧ t.mem.otp =
      s.mem.otp ∧ (∀ a, (∀ i < min (packetBytes p).length ((s.mem.sramW (d + 4)).toNat % 65536), a ≠ ((s.mem.sramW d).toNat + i) %
      sramSize) → (∀ i < 4, a ≠ (d + 4 + i) % sramSize) → SMap.get unwritten t.mem.sram a = SMap.get unwritten s.mem.sram a))
  ∧ (∀ (p : Packet) (r d : Nat) (s : State), s.chip.powered = true → s.chip.time.gated = false → s.chip.admitted p = none → r = 3 → d =
      s.chip.ringDesc r → s.chip.fab.ringWait = [] → nbit (s.mem.sramW (d + 4)).toNat 31 = false → ∃ t, Sys2Proof.Machine.exec
      (.sesHelloRx p) s = .next t ∧
    Only [] [.fab] s t ∧ t.chip.fab = { s.chip.fab with ringWait := [(r, none, p)] })
  ∧ (∀ (p : Packet) (r d : Nat) (s : State), s.chip.powered = true → s.chip.time.gated = false → s.chip.admitted p = none → r = 3 → d =
      s.chip.ringDesc r → s.chip.fab.ringWait = [] → nbit (s.mem.sramW (d + 4)).toNat 31 = true → ∃ t, Sys2Proof.Machine.exec
      (.sesHelloRx p) s = .next t ∧
    t.pending = s.pending ∧ t.chip.fab.ringWait = [] ∧ t.chip.fab.ringIdx = upd s.chip.fab.ringIdx r (descNext (s.chip.rd (ringReg r)))
      ∧ t.mem.dram = s.mem.dram ∧ t.mem.fram = s.mem.fram ∧ t.mem.flashA = s.mem.flashA ∧ t.mem.flashB = s.mem.flashB ∧ t.mem.otp =
      s.mem.otp ∧ (∀ a, (∀ i < min (packetBytes p).length ((s.mem.sramW (d + 4)).toNat % 65536), a ≠ ((s.mem.sramW d).toNat + i) %
      sramSize) → (∀ i < 4, a ≠ (d + 4 + i) % sramSize) → SMap.get unwritten t.mem.sram a = SMap.get unwritten s.mem.sram a))
  ∧ (∀ (p : Packet) (r d : Nat) (s : State), s.chip.powered = true → s.chip.time.gated = false → s.chip.admitted p = none → r = 3 → d =
      s.chip.ringDesc r → s.chip.fab.ringWait = [] → nbit (s.mem.sramW (d + 4)).toNat 31 = false → ∃ t, Sys2Proof.Machine.exec
      (.sesReplyRx p) s = .next t ∧
    Only [] [.fab] s t ∧ t.chip.fab = { s.chip.fab with ringWait := [(r, none, p)] })
  ∧ (∀ (p : Packet) (r d : Nat) (s : State), s.chip.powered = true → s.chip.time.gated = false → s.chip.admitted p = none → r = 3 → d =
      s.chip.ringDesc r → s.chip.fab.ringWait = [] → nbit (s.mem.sramW (d + 4)).toNat 31 = true → ∃ t, Sys2Proof.Machine.exec
      (.sesReplyRx p) s = .next t ∧
    t.pending = s.pending ∧ t.chip.fab.ringWait = [] ∧ t.chip.fab.ringIdx = upd s.chip.fab.ringIdx r (descNext (s.chip.rd (ringReg r)))
      ∧ t.mem.dram = s.mem.dram ∧ t.mem.fram = s.mem.fram ∧ t.mem.flashA = s.mem.flashA ∧ t.mem.flashB = s.mem.flashB ∧ t.mem.otp =
      s.mem.otp ∧ (∀ a, (∀ i < min (packetBytes p).length ((s.mem.sramW (d + 4)).toNat % 65536), a ≠ ((s.mem.sramW d).toNat + i) %
      sramSize) → (∀ i < 4, a ≠ (d + 4 + i) % sramSize) → SMap.get unwritten t.mem.sram a = SMap.get unwritten s.mem.sram a))
  ∧ (∀ (p : Packet) (r d : Nat) (s : State), s.chip.powered = true → s.chip.time.gated = false → s.chip.admitted p = none → r = 3 → d =
      s.chip.ringDesc r → s.chip.fab.ringWait = [] → nbit (s.mem.sramW (d + 4)).toNat 31 = false → ∃ t, Sys2Proof.Machine.exec
      (.sesFinishRx p) s = .next t ∧
    Only [] [.fab] s t ∧ t.chip.fab = { s.chip.fab with ringWait := [(r, none, p)] })
  ∧ (∀ (p : Packet) (r d : Nat) (s : State), s.chip.powered = true → s.chip.time.gated = false → s.chip.admitted p = none → r = 3 → d =
      s.chip.ringDesc r → s.chip.fab.ringWait = [] → nbit (s.mem.sramW (d + 4)).toNat 31 = true → ∃ t, Sys2Proof.Machine.exec
      (.sesFinishRx p) s = .next t ∧
    t.pending = s.pending ∧ t.chip.fab.ringWait = [] ∧ t.chip.fab.ringIdx = upd s.chip.fab.ringIdx r (descNext (s.chip.rd (ringReg r)))
      ∧ t.mem.dram = s.mem.dram ∧ t.mem.fram = s.mem.fram ∧ t.mem.flashA = s.mem.flashA ∧ t.mem.flashB = s.mem.flashB ∧ t.mem.otp =
      s.mem.otp ∧ (∀ a, (∀ i < min (packetBytes p).length ((s.mem.sramW (d + 4)).toNat % 65536), a ≠ ((s.mem.sramW d).toNat + i) %
      sramSize) → (∀ i < 4, a ≠ (d + 4 + i) % sramSize) → SMap.get unwritten t.mem.sram a = SMap.get unwritten s.mem.sram a))
  ∧ (∀ (p : Packet) (x : Req) (b : Bool) (s : State), s.chip.powered = true → s.chip.time.gated = false → s.chip.admitted p = none →
      (s.chip.fab.reqs.find? fun r => r.tag = p.tag.toNat && (!p.enc || r.ses = p.ses.toNat)) = some x → x.twin = some b →
      s.chip.fab.ringWait = [] → nbit (s.mem.sramW (s.chip.ringDesc (if b then 5 else 2) + 4)).toNat 31 = false → ∃ t,
      Sys2Proof.Machine.exec (.regRespRx p) s = .next t ∧
    Only [Key.ses x.ses 0x20C] [.fab] s t ∧ t.chip.fab =
      { s.chip.fab with reqs := s.chip.fab.reqs.erase x, ringWait := [((if b then 5 else 2), none, p)] })
  ∧ (∀ (p : Packet) (s : State), s.chip.powered = true → s.chip.time.gated = false → s.chip.admitted p = none → (s.chip.fab.reqs.find? fun r
      => r.tag = p.tag.toNat && (!p.enc || r.ses = p.ses.toNat)) = none → ∃ t, Sys2Proof.Machine.exec (.regRespRx p) s = .next t ∧
    t = s)
  ∧ (∀ (p : Packet) (x : Req) (b : Bool) (s : State), s.chip.powered = true → s.chip.time.gated = false → s.chip.admitted p = none →
      (s.chip.fab.reqs.find? fun r => r.tag = p.tag.toNat && (!p.enc || r.ses = p.ses.toNat)) = some x → x.twin = some b →
      s.chip.fab.ringWait = [] → nbit (s.mem.sramW (s.chip.ringDesc (if b then 5 else 2) + 4)).toNat 31 = false → ∃ t,
      Sys2Proof.Machine.exec (.fwRespRx p) s = .next t ∧
    Only [Key.ses x.ses 0x20C] [.fab] s t ∧ t.chip.fab =
      { s.chip.fab with reqs := s.chip.fab.reqs.erase x, ringWait := [((if b then 5 else 2), none, p)] })
  ∧ (∀ (p : Packet) (s : State), s.chip.powered = true → s.chip.time.gated = false → s.chip.admitted p = none → (s.chip.fab.reqs.find? fun r
      => r.tag = p.tag.toNat && (!p.enc || r.ses = p.ses.toNat)) = none → ∃ t, Sys2Proof.Machine.exec (.fwRespRx p) s = .next t ∧
    t = s)
  ∧ (∀ (p : Packet) (x : Req) (b : Bool) (s : State), s.chip.powered = true → s.chip.time.gated = false → s.chip.admitted p = none →
      (s.chip.fab.reqs.find? fun r => r.tag = p.tag.toNat && (!p.enc || r.ses = p.ses.toNat)) = some x → x.twin = some b →
      s.chip.fab.ringWait = [] → nbit (s.mem.sramW (s.chip.ringDesc (if b then 5 else 2) + 4)).toNat 31 = false → ∃ t,
      Sys2Proof.Machine.exec (.undelivRx p) s = .next t ∧
    Only [Key.ses x.ses 0x20C] [.fab] s t ∧ t.chip.fab =
      { s.chip.fab with reqs := s.chip.fab.reqs.erase x, ringWait := [((if b then 5 else 2), none, p)] })
  ∧ (∀ (p : Packet) (s : State), s.chip.powered = true → s.chip.time.gated = false → s.chip.admitted p = none → (s.chip.fab.reqs.find? fun r
      => r.tag = p.tag.toNat && (!p.enc || r.ses = p.ses.toNat)) = none → ∃ t, Sys2Proof.Machine.exec (.undelivRx p) s = .next t ∧
    t = s)
  ∧ (∀ (w : Writer) (b : Bool) (r d : Nat) (s : State), May w (R.SES_KICK (b2n b)) s → r = (if b then 4 else 1) → d = s.chip.ringDesc r →
      s.chip.fab.ringWait = [] → nbit (s.mem.sramW (d + 4)).toNat 31 = false → ∃ t, Sys2Proof.Machine.exec (.sesKick w b) s = .next t ∧
    t = s)
  ∧ (∀ (w : Writer) (b : Bool) (r d : Nat) (p : Packet) (s : State), May w (R.SES_KICK (b2n b)) s → r = (if b then 4 else 1) → d =
      s.chip.ringDesc r → s.chip.fab.ringWait = [] → s.chip.fab.ringIdx.length = 6 → nbit (s.mem.sramW (d + 4)).toNat 31 = true → descAt
      (s.chip.rd (ringReg r)) (descNext (s.chip.rd (ringReg r)) (nth s.chip.fab.ringIdx r 0)) % sramSize ≠ d % sramSize → nbit
      (s.mem.sramW (descAt (s.chip.rd (ringReg r)) (descNext (s.chip.rd (ringReg r)) (nth s.chip.fab.ringIdx r 0)) + 4)).toNat 31 =
      false → p = (s.txPacket (s.mem.sramW d).toNat ((s.mem.sramW (d + 4)).toNat % 65536) ((s.mem.sramW (d + 4)).toNat / 2 ^ 16 % 256))
      → p.kind ≠ 0x10 → p.kind ≠ 0x20 → p.kind ≠ 0x39 → ∃ t, Sys2Proof.Machine.exec (.sesKick w b) s = .next t ∧
    t.pending = s.pending ∧ t.chip.out = s.chip.out ++ [⟨p, 0, none, false⟩] ∧ t.chip.fab.ringIdx = upd s.chip.fab.ringIdx r (descNext
      (s.chip.rd (ringReg r))) ∧ t.mem.dram = s.mem.dram ∧ t.mem.fram = s.mem.fram ∧ t.mem.flashA = s.mem.flashA ∧ t.mem.flashB =
      s.mem.flashB ∧ t.mem.otp = s.mem.otp ∧ (∀ a, (∀ i < 4, a ≠ (d + 4 + i) % sramSize) → SMap.get unwritten t.mem.sram a = SMap.get
      unwritten s.mem.sram a))

/-- O38 (R414, R415, R417, R418, R424, R425, R427, R446). Lane synthesizers and bring-up: what each command does where it takes effect.
SYNTH_LOCK of an enabled lane synthesizer shows LOCK, and its enabled lanes in TROTUM mode go to DETECT. Of the Ethernet rate converter
it shows ECM_LOCK. SYNTH_UNLOCK clears it and shows the loss. Of the rate converter it clears ECM_LOCK. SIGNAL_DETECT in DETECT, where
the module’s LOS does not hold it back, enters TRAIN. SIGNAL_LOSS from TRAIN to ACTIVE fails to HOLDOFF. BLOCK_LOCK in LOCK goes on to
CAPS. LOCK_TIMEOUT in LOCK fails to HOLDOFF. CAPS_TIMEOUT in CAPS fails to HOLDOFF and is counted. CAPS_BLOCK_RX that fits and
acknowledges enters ACTIVE with partner and latencies shown. Without the acknowledgement it is acknowledged. Another version fails to
HOLDOFF. So does a lane of the other plane. HOLDOFF_EXPIRY goes back to DETECT. BLOCK_LOCK_LOSS in ACTIVE trains again, with partner and
latencies clear. LANE_RETRAIN in ACTIVE trains again. In any other state it is recorded as STATE. LANE_CLR_STATS clears the counters.
FOM_REMEASURE in ACTIVE shows the figure of merit. Commands that complete (exec answers a next state): synthLock, synthUnlock,
signalDetect, signalLoss, blockLock, lockTimeout, capsTimeout, capsBlockRx, holdoffExpiry, blockLockLoss, laneRetrain, laneClrStats,
fomRemeasure. -/
def Obligations.LaneBringUpCommands : Prop :=
  (∀ (q : Fin 2) (s : State), s.chip.powered = true → s.chip.time.gated = false → s.chip.is (R.QUAD_CTL q) F.QUAD_CTL_SYN_EN = true → ∃ t,
      Sys2Proof.Machine.exec (.synthLock q false) s = .next t ∧
    Quiet s t ∧ t.chip.is (R.QUAD_STAT q) F.QUAD_STAT_SYN_LOCK = true ∧ (∀ m < 8, quadOf m = q.val → s.chip.is (R.LANE_CTL m)
      F.LANE_CTL_EN = true → s.chip.f (R.LANE_CTL m) F.LANE_CTL_MODE = 0 → s.chip.laneState m = Ls.disabled → t.chip.laneState m =
      Ls.detect))
  ∧ (∀ (q : Fin 2) (s : State), s.chip.powered = true → s.chip.time.gated = false → (s.chip.f (R.QUAD_CTL q) F.QUAD_CTL_ECM_RATE = 1 ∨
      s.chip.f (R.QUAD_CTL q) F.QUAD_CTL_ECM_RATE = 2) → ∃ t, Sys2Proof.Machine.exec (.synthLock q true) s = .next t ∧
    Quiet s t ∧ t.chip.is (R.QUAD_STAT q) F.QUAD_STAT_ECM_LOCK = true)
  ∧ (∀ (q : Fin 2) (s : State), s.chip.powered = true → s.chip.time.gated = false → s.chip.is (R.QUAD_STAT q) F.QUAD_STAT_SYN_LOCK = true → ∃
      t, Sys2Proof.Machine.exec (.synthUnlock q false) s = .next t ∧
    Quiet s t ∧ t.chip.is (R.QUAD_STAT q) F.QUAD_STAT_SYN_LOCK = false ∧ t.chip.is (R.QUAD_STAT q) F.QUAD_STAT_SYN_LOST_SEEN = true)
  ∧ (∀ (q : Fin 2) (s : State), s.chip.powered = true → s.chip.time.gated = false → ∃ t, Sys2Proof.Machine.exec (.synthUnlock q true) s =
      .next t ∧
    Quiet s t ∧ t.chip.is (R.QUAD_STAT q) F.QUAD_STAT_ECM_LOCK = false)
  ∧ (∀ (n : Fin 8) (mlos : Bool) (s : State), Awake (P.LANE n) s → s.chip.laneState n = Ls.detect → (mlos && s.chip.is (R.LANE_MOD_CFG n)
      F.LANE_MOD_CFG_LOS_EN) = false → ∃ t, Sys2Proof.Machine.exec (.signalDetect n mlos) s = .next t ∧
    Quiet s t ∧ t.chip.laneState n = Ls.train ∧ t.chip.is (R.LANE_STAT n) F.LANE_STAT_SIGNAL = true)
  ∧ (∀ (n : Fin 8) (mlos : Bool) (s : State), Awake (P.LANE n) s → Ls.train ≤ s.chip.laneState n → s.chip.laneState n ≤ Ls.active → ∃ t,
      Sys2Proof.Machine.exec (.signalLoss n mlos) s = .next t ∧
    Quiet s t ∧ t.chip.laneState n = Ls.holdoff ∧ t.chip.f (R.LANE_STAT n) F.LANE_STAT_LAST_FAIL = Lf.signalLoss ∧ t.chip.is
      (R.LANE_STAT n) F.LANE_STAT_SIGNAL = false)
  ∧ (∀ (n : Fin 8) (s : State), Awake (P.LANE n) s → s.chip.laneState n = Ls.lock → ∃ t, Sys2Proof.Machine.exec (.blockLock n) s = .next t ∧
    Only [R.LANE_STAT n, R.LANE_PAT_STAT n] [.lanes] s t ∧ t.chip.laneState n = Ls.caps ∧ t.chip.is (R.LANE_STAT n)
      F.LANE_STAT_BLOCK_LOCK = true ∧ t.chip.lanes = upd s.chip.lanes n (fun l => { l with capsAck := false }))
  ∧ (∀ (n : Fin 8) (s : State), Awake (P.LANE n) s → s.chip.laneState n = Ls.lock → ∃ t, Sys2Proof.Machine.exec (.lockTimeout n) s = .next t
      ∧
    Quiet s t ∧ t.chip.laneState n = Ls.holdoff ∧ t.chip.f (R.LANE_STAT n) F.LANE_STAT_LAST_FAIL = Lf.lockTmo)
  ∧ (∀ (n : Fin 8) (s : State), Awake (P.LANE n) s → s.chip.laneState n = Ls.caps → ∃ t, Sys2Proof.Machine.exec (.capsTimeout n) s = .next t
      ∧
    Quiet s t ∧ t.chip.laneState n = Ls.holdoff ∧ t.chip.f (R.LANE_STAT n) F.LANE_STAT_LAST_FAIL = Lf.capsTmo ∧ t.chip.f (R.LANE_CNT_1
      n) F.LANE_CNT_1_CAPS_FAILS = min (s.chip.f (R.LANE_CNT_1 n) F.LANE_CNT_1_CAPS_FAILS + 1) (2 ^ F.LANE_CNT_1_CAPS_FAILS.width - 1))
  ∧ (∀ (n : Fin 8) (version : BitVec 8) (id : BitVec 15) (plane : Bool) (ln : BitVec 2) (ack : Bool) (txPs rxPs : BitVec 16) (s : State),
      Awake (P.LANE n) s → s.chip.laneState n = Ls.caps → version = 1 → b2n plane = planeOf n → (id.toNat ≠ s.chip.myId ∨ id = 0) → ack
      = true → ∃ t, Sys2Proof.Machine.exec (.capsBlockRx n version id plane ln ack txPs rxPs) s = .next t ∧
    Quiet s t ∧ t.chip.laneState n = Ls.active ∧ t.chip.f (R.LANE_PARTNER n) F.LANE_PARTNER_ID = id.toNat ∧ t.chip.f (R.LANE_PARTNER n)
      F.LANE_PARTNER_LANE = ln.toNat ∧ t.chip.is (R.LANE_PARTNER n) F.LANE_PARTNER_PLANE = plane ∧ t.chip.f (R.LANE_LAT n)
      F.LANE_LAT_TX_PS = txPs.toNat ∧ t.chip.f (R.LANE_LAT n) F.LANE_LAT_RX_PS = rxPs.toNat)
  ∧ (∀ (n : Fin 8) (version : BitVec 8) (id : BitVec 15) (plane : Bool) (ln : BitVec 2) (ack : Bool) (txPs rxPs : BitVec 16) (s : State),
      Awake (P.LANE n) s → s.chip.laneState n = Ls.caps → version = 1 → b2n plane = planeOf n → (id.toNat ≠ s.chip.myId ∨ id = 0) → ack
      = false → ∃ t, Sys2Proof.Machine.exec (.capsBlockRx n version id plane ln ack txPs rxPs) s = .next t ∧
    Only [] [.lanes] s t ∧ t.chip.lanes = upd s.chip.lanes n (fun l => { l with capsAck := true }))
  ∧ (∀ (n : Fin 8) (version : BitVec 8) (id : BitVec 15) (plane : Bool) (ln : BitVec 2) (ack : Bool) (txPs rxPs : BitVec 16) (s : State),
      Awake (P.LANE n) s → s.chip.laneState n = Ls.caps → version ≠ 1 → ∃ t, Sys2Proof.Machine.exec (.capsBlockRx n version id plane ln
      ack txPs rxPs) s = .next t ∧
    Quiet s t ∧ t.chip.laneState n = Ls.holdoff ∧ t.chip.f (R.LANE_STAT n) F.LANE_STAT_LAST_FAIL = Lf.version)
  ∧ (∀ (n : Fin 8) (version : BitVec 8) (id : BitVec 15) (plane : Bool) (ln : BitVec 2) (ack : Bool) (txPs rxPs : BitVec 16) (s : State),
      Awake (P.LANE n) s → s.chip.laneState n = Ls.caps → version = 1 → b2n plane ≠ planeOf n → ∃ t, Sys2Proof.Machine.exec
      (.capsBlockRx n version id plane ln ack txPs rxPs) s = .next t ∧
    Quiet s t ∧ t.chip.laneState n = Ls.holdoff ∧ t.chip.f (R.LANE_STAT n) F.LANE_STAT_LAST_FAIL = Lf.plane)
  ∧ (∀ (n : Fin 8) (s : State), Awake (P.LANE n) s → s.chip.laneState n = Ls.holdoff → ∃ t, Sys2Proof.Machine.exec (.holdoffExpiry n) s =
      .next t ∧
    Only [R.LANE_STAT n, R.LANE_PAT_STAT n] [] s t ∧ t.chip.laneState n = Ls.detect)
  ∧ (∀ (n : Fin 8) (s : State), Awake (P.LANE n) s → s.chip.laneState n = Ls.active → ∃ t, Sys2Proof.Machine.exec (.blockLockLoss n) s =
      .next t ∧
    Quiet s t ∧ t.chip.laneState n = Ls.train ∧ t.chip.f (R.LANE_STAT n) F.LANE_STAT_LAST_FAIL = Lf.blockLoss ∧ t.chip.rd
      (R.LANE_PARTNER n) = 0 ∧ t.chip.rd (R.LANE_LAT n) = 0)
  ∧ (∀ (w : Writer) (n : Fin 8) (s : State), May w (R.LANE_CMD n) s → s.chip.laneState n = Ls.active → ∃ t, Sys2Proof.Machine.exec
      (.laneRetrain w theKey n) s = .next t ∧
    Quiet s t ∧ t.chip.laneState n = Ls.train ∧ t.chip.rd (R.LANE_PARTNER n) = 0)
  ∧ (∀ (w : Writer) (n : Fin 8) (s : State), May w (R.LANE_CMD n) s → s.chip.laneState n ≠ Ls.active → ∃ t, Sys2Proof.Machine.exec
      (.laneRetrain w theKey n) s = .next t ∧
    Quiet s t ∧ t.chip = s.chip.perr (R.LANE_CMD n) .state w.ini.code)
  ∧ (∀ (w : Writer) (n : Fin 8) (s : State), May w (R.LANE_CMD n) s → ∃ t, Sys2Proof.Machine.exec (.laneClrStats w theKey n) s = .next t ∧
    Only [R.LANE_CNT_0 n, R.LANE_CNT_1 n] [] s t ∧ t.chip.rd (R.LANE_CNT_0 n) = 0 ∧ t.chip.rd (R.LANE_CNT_1 n) = 0)
  ∧ (∀ (n : Fin 8) (codes : BitVec 8) (s : State), Awake (P.LANE n) s → s.chip.laneState n = Ls.active → s.chip.is (R.LANE_ES_STAT n)
      F.LANE_ES_STAT_BUSY = false → ∃ t, Sys2Proof.Machine.exec (.fomRemeasure n codes) s = .next t ∧
    Only [R.LANE_STAT n] [] s t ∧ t.chip.f (R.LANE_STAT n) F.LANE_STAT_FOM = min 255 (2 * codes.toNat))

/-- O39 (R418, R420, R421, R422, R423, R424). Lane training: what each command does where it takes effect. ADAPT_WAIT_END in the preset
phase shows the figure of merit, keeps the best preset and asks for the next. After the last preset it asks for the best one. A tap step
without the improvement asked for is taken back. One with it is kept, and the next tap follows. TRAINING_FRAME_RX with a preset request
puts the taps of that preset in force once. The sixteenth frame in a row with RX_READY, the own receiver ready, goes on to LOCK. A frame
with a wrong CRC, or in another state, changes nothing. TRAIN_TIMEOUT in TRAIN fails to HOLDOFF and is counted. Commands that complete
(exec answers a next state): adaptWaitEnd, trainingFrameRx, trainTimeout. -/
def Obligations.LaneTrainingCommands : Prop :=
  (∀ (n : Fin 8) (codes : BitVec 8) (p q : Nat) (r : List Nat) (s : State), Awake (P.LANE n) s → s.chip.laneState n = Ls.train →
      (s.chip.lane n).tr.sub = .adapt → (s.chip.lane n).tr.step = .preset p → (s.chip.lane n).tr.todo = q :: r → ∃ t,
      Sys2Proof.Machine.exec (.adaptWaitEnd n codes) s = .next t ∧
    Only [R.LANE_STAT n] [.lanes] s t ∧ t.chip.f (R.LANE_STAT n) F.LANE_STAT_FOM = min 255 (2 * codes.toNat) ∧ (t.chip.lane n).tr.step =
      .preset q ∧ (t.chip.lane n).tr.sub = .req ∧ (t.chip.lane n).tr.todo = r ∧ (t.chip.lane n).tr.best = max (s.chip.lane n).tr.best
      (min 255 (2 * codes.toNat)) ∧ (t.chip.lane n).tr.bp = (if (s.chip.lane n).tr.best < min 255 (2 * codes.toNat) then some p else
      (s.chip.lane n).tr.bp))
  ∧ (∀ (n : Fin 8) (codes : BitVec 8) (p b : Nat) (s : State), Awake (P.LANE n) s → s.chip.laneState n = Ls.train → (s.chip.lane n).tr.sub =
      .adapt → (s.chip.lane n).tr.step = .preset p → (s.chip.lane n).tr.todo = [] → (if (s.chip.lane n).tr.best < min 255 (2 *
      codes.toNat) then some p else (s.chip.lane n).tr.bp) = some b → ∃ t, Sys2Proof.Machine.exec (.adaptWaitEnd n codes) s = .next t ∧
    Only [R.LANE_STAT n] [.lanes] s t ∧ (t.chip.lane n).tr.step = .best ∧ (t.chip.lane n).tr.sub = .req ∧ (t.chip.lane n).tr.bp = some b)
  ∧ (∀ (n : Fin 8) (codes : BitVec 8) (po inc : Bool) (s : State), Awake (P.LANE n) s → s.chip.laneState n = Ls.train → (s.chip.lane
      n).tr.sub = .adapt → (s.chip.lane n).tr.step = .tap po inc → min 255 (2 * codes.toNat) < (s.chip.lane n).tr.best + fget
      (s.chip.lane n).tr.cfg F.LANE_TRAIN_FOM_STEP → ∃ t, Sys2Proof.Machine.exec (.adaptWaitEnd n codes) s = .next t ∧
    Only [R.LANE_STAT n] [.lanes] s t ∧ (t.chip.lane n).tr.step = .undo po inc ∧ (t.chip.lane n).tr.sub = .req ∧ (t.chip.lane n).tr.best
      = (s.chip.lane n).tr.best)
  ∧ (∀ (n : Fin 8) (codes : BitVec 8) (po inc : Bool) (s : State), Awake (P.LANE n) s → s.chip.laneState n = Ls.train → (s.chip.lane
      n).tr.sub = .adapt → (s.chip.lane n).tr.step = .tap po inc → (po = true ∨ inc = true) → (s.chip.lane n).tr.best + fget
      (s.chip.lane n).tr.cfg F.LANE_TRAIN_FOM_STEP ≤ min 255 (2 * codes.toNat) → ∃ t, Sys2Proof.Machine.exec (.adaptWaitEnd n codes) s =
      .next t ∧
    Only [R.LANE_STAT n] [.lanes] s t ∧ some (t.chip.lane n).tr.step = (tapAfter po inc).map (fun x => .tap x.1 x.2) ∧ (t.chip.lane
      n).tr.improved = true ∧ (t.chip.lane n).tr.best = min 255 (2 * codes.toNat))
  ∧ (∀ (n : Fin 8) (rq st crc : BitVec 16) (s : State), Awake (P.LANE n) s → s.chip.laneState n = Ls.train → crc.toNat = crc16 (rq ++ st) →
      rq.getLsbD 15 = false → rq.getLsbD 14 = true → (s.chip.lane n).tr.presetSt = false → (s.chip.lane n).tr.step = .done → st.getLsbD
      15 = false → n.val < s.chip.lanes.length → ∃ t, Sys2Proof.Machine.exec (.trainingFrameRx n rq st crc) s = .next t ∧
    Only [R.LANE_TXACT n] [.lanes] s t ∧ t.chip.f (R.LANE_TXACT n) F.LANE_TXACT_PRE = (preset (rq.toNat / 2 ^ 11 % 8)).1 ∧ t.chip.f
      (R.LANE_TXACT n) F.LANE_TXACT_POST = (preset (rq.toNat / 2 ^ 11 % 8)).2 ∧ (t.chip.lane n).tr.presetSt = true ∧ (t.chip.lane
      n).tr.rdy = 0)
  ∧ (∀ (n : Fin 8) (rq st crc : BitVec 16) (s : State), Awake (P.LANE n) s → s.chip.laneState n = Ls.train → crc.toNat = crc16 (rq ++ st) →
      rq = 0 → (s.chip.lane n).tr.step = .done → (s.chip.lane n).tr.ready = true → st.getLsbD 15 = true → 15 ≤ (s.chip.lane n).tr.rdy →
      ∃ t, Sys2Proof.Machine.exec (.trainingFrameRx n rq st crc) s = .next t ∧
    Quiet s t ∧ t.chip.laneState n = Ls.lock)
  ∧ (∀ (n : Fin 8) (rq st crc : BitVec 16) (s : State), (crc.toNat ≠ crc16 (rq ++ st) ∨ s.chip.laneState n ≠ Ls.train) → ∃ t,
      Sys2Proof.Machine.exec (.trainingFrameRx n rq st crc) s = .next t ∧
    t = s)
  ∧ (∀ (n : Fin 8) (s : State), Awake (P.LANE n) s → s.chip.laneState n = Ls.train → ∃ t, Sys2Proof.Machine.exec (.trainTimeout n) s = .next
      t ∧
    Quiet s t ∧ t.chip.laneState n = Ls.holdoff ∧ t.chip.f (R.LANE_STAT n) F.LANE_STAT_LAST_FAIL = Lf.trainTmo ∧ t.chip.f (R.LANE_CNT_1
      n) F.LANE_CNT_1_TRAIN_FAILS = min (s.chip.f (R.LANE_CNT_1 n) F.LANE_CNT_1_TRAIN_FAILS + 1) (2 ^ F.LANE_CNT_1_TRAIN_FAILS.width -
      1))

/-- O40 (R429, R430, R431, R454, R471, R476, R477). Packets on a lane and link-level retry: what each command does where it takes effect.
LINK_ACK_RX frees every packet up to the one acknowledged. Where a LINK_ACK arrives in that cycle nothing is replayed (R37). LINK_NAK_RX
starts a replay, counted. A ninth trains again. LINK_ACK_TIMEOUT starts a replay, counted. A ninth trains again. PACKET_RX with a wrong
CRC is discarded and asked for again. One out of order is only asked for again. One in order for another device joins the queue of the
lane that the route table names, with HOPS counted. A DELAY_REQ reaches its consumer, which answers. PACKET_SEND with a credit takes the
packet of the virtual channel whose turn it is into the retry buffer under the next link number and sends it in data blocks. Commands
that complete (exec answers a next state): linkAckRx, linkAckTimeout, linkNakRx, packetRx, packetSend. -/
def Obligations.LaneLinkCommands : Prop :=
  (∀ (n : Fin 8) (seq : BitVec 12) (a : List (Nat × Bool × Packet)) (e : Nat × Bool × Packet) (b : List (Nat × Bool × Packet)) (s : State),
      Awake (P.LANE n) s → s.chip.laneState n = Ls.active → (s.chip.lane n).buf = a ++ e :: b → e.1 = seq.toNat → (a.all fun x => decide
      (x.1 ≠ seq.toNat)) = true → ∃ t, Sys2Proof.Machine.exec (.linkAckRx n seq) s = .next t ∧
    Only [] [.lanes] s t ∧ t.chip.lanes = upd s.chip.lanes n (fun l => { l with buf := b, replays := 0 }))
  ∧ (∀ (n : Fin 8) (s : State), s.chip.powered = true → s.chip.time.gated = false → ∃ t, Sys2Proof.Machine.exec (.linkAckTimeout n true) s =
      .next t ∧
    Only [] [] s t)
  ∧ (∀ (n : Fin 8) (seq : BitVec 12) (s : State), Awake (P.LANE n) s → s.chip.laneState n = Ls.active → (s.chip.lane n).buf ≠ [] →
      (s.chip.lane n).replays < 8 → ∃ t, Sys2Proof.Machine.exec (.linkNakRx n seq) s = .next t ∧
    Only [R.LANE_CNT_0 n] [.lanes, .free] s t ∧ (t.chip.lane n).replays = (s.chip.lane n).replays + 1 ∧ (t.chip.lane n).buf =
      (s.chip.lane n).buf ∧ (∀ m, m ≠ n.val → t.chip.lane m = s.chip.lane m) ∧ t.chip.f (R.LANE_CNT_0 n) F.LANE_CNT_0_REPLAYS = min
      (s.chip.f (R.LANE_CNT_0 n) F.LANE_CNT_0_REPLAYS + 1) (2 ^ F.LANE_CNT_0_REPLAYS.width - 1))
  ∧ (∀ (n : Fin 8) (seq : BitVec 12) (s : State), Awake (P.LANE n) s → s.chip.laneState n = Ls.active → (s.chip.lane n).buf ≠ [] → 8 ≤
      (s.chip.lane n).replays → ∃ t, Sys2Proof.Machine.exec (.linkNakRx n seq) s = .next t ∧
    Quiet s t ∧ t.chip.laneState n = Ls.train ∧ t.chip.f (R.LANE_STAT n) F.LANE_STAT_LAST_FAIL = Lf.retryExh)
  ∧ (∀ (n : Fin 8) (s : State), Awake (P.LANE n) s → s.chip.laneState n = Ls.active → (s.chip.lane n).buf ≠ [] → (s.chip.lane n).replays < 8
      → ∃ t, Sys2Proof.Machine.exec (.linkAckTimeout n false) s = .next t ∧
    Only [R.LANE_CNT_0 n] [.lanes, .free] s t ∧ (t.chip.lane n).replays = (s.chip.lane n).replays + 1 ∧ (t.chip.lane n).buf =
      (s.chip.lane n).buf ∧ (∀ m, m ≠ n.val → t.chip.lane m = s.chip.lane m) ∧ t.chip.f (R.LANE_CNT_0 n) F.LANE_CNT_0_REPLAYS = min
      (s.chip.f (R.LANE_CNT_0 n) F.LANE_CNT_0_REPLAYS + 1) (2 ^ F.LANE_CNT_0_REPLAYS.width - 1))
  ∧ (∀ (n : Fin 8) (s : State), Awake (P.LANE n) s → s.chip.laneState n = Ls.active → (s.chip.lane n).buf ≠ [] → 8 ≤ (s.chip.lane n).replays
      → ∃ t, Sys2Proof.Machine.exec (.linkAckTimeout n false) s = .next t ∧
    Quiet s t ∧ t.chip.laneState n = Ls.train ∧ t.chip.f (R.LANE_STAT n) F.LANE_STAT_LAST_FAIL = Lf.retryExh)
  ∧ (∀ (n : Fin 8) (seq : BitVec 12) (p : Packet) (crc : BitVec 32) (s : State), Awake (P.LANE n) s → s.chip.laneState n = Ls.active →
      s.chip.fab.inbox = [] → crc.toNat ≠ packetCrc p → ∃ t, Sys2Proof.Machine.exec (.packetRx n seq p crc) s = .next t ∧
    Quiet s t ∧ t.chip.lanes = upd s.chip.lanes n (fun l => { l with nak := true }) ∧ t.chip.out = s.chip.out ∧ t.chip.f R.FAB_CNT_0
      F.FAB_CNT_0_DROPS = min (s.chip.f R.FAB_CNT_0 F.FAB_CNT_0_DROPS + 1) (2 ^ F.FAB_CNT_0_DROPS.width - 1))
  ∧ (∀ (n : Fin 8) (seq : BitVec 12) (p : Packet) (crc : BitVec 32) (s : State), Awake (P.LANE n) s → s.chip.laneState n = Ls.active →
      s.chip.fab.inbox = [] → crc.toNat = packetCrc p → seq.toNat ≠ (s.chip.lane n).rxSeq → ∃ t, Sys2Proof.Machine.exec (.packetRx n seq
      p crc) s = .next t ∧
    Only [R.LANE_CNT_0 n] [.lanes] s t ∧ t.chip.lanes = upd s.chip.lanes n (fun l => { l with nak := true }))
  ∧ (∀ (n : Fin 8) (seq : BitVec 12) (p : Packet) (crc : BitVec 32) (m : Nat) (s : State), Awake (P.LANE n) s → s.chip.laneState n =
      Ls.active → s.chip.fab.inbox = [] → crc.toNat = packetCrc p → seq.toNat = (s.chip.lane n).rxSeq → s.chip.kindOk p = true → 4 <
      p.kind.toNat → p.cast = 0 → s.chip.planeOn (planeOf n) = true → nth s.chip.fab.deep (planeOf n) false = false → s.chip.hop
      (planeOf n) p.dest.toNat p.dn = .out m → p.hops ≠ p.hopLimit → s.chip.forwards (planeOf n) = true → ∃ t, Sys2Proof.Machine.exec
      (.packetRx n seq p crc) s = .next t ∧
    Only [] [.lanes, .fab] s t ∧ t.chip.lanes = ((s.chip.updLane n fun l =>
      { l with rxSeq := (l.rxSeq + 1) % 4096, nak := false }).enqueue m (some n.val) { p with hops := p.hops + 1 }).lanes ∧ t.chip.fab =
      s.chip.fab)
  ∧ (∀ (n : Fin 8) (seq : BitVec 12) (p : Packet) (crc : BitVec 32) (s : State), Awake (P.LANE n) s → s.chip.laneState n = Ls.active →
      s.chip.fab.inbox = [] → crc.toNat = packetCrc p → seq.toNat = (s.chip.lane n).rxSeq → p.kind = 2 → p.enc = false → s.chip.admitted
      p = none → ∃ t, Sys2Proof.Machine.exec (.packetRx n seq p crc) s = .next t ∧
    Quiet s t ∧ t.chip.fab.inbox = [] ∧ t.chip.out = s.chip.out ++ [⟨s.chip.packet 0x03 0 0 0 s.chip.ses0 p.tag.toNat (stampWords
      (s.chip.ballTime n false) ++ stampWords (s.chip.ballTime n true)), 0, some n.val, false⟩])
  ∧ (∀ (n : Fin 8) (v : Nat) (x : Option Nat × Packet) (s : State), Awake (P.LANE n) s → s.chip.laneState n = Ls.active → s.chip.fab.inbox =
      [] → s.chip.out = [] → (s.chip.lane n).buf.length < 64 → (s.chip.lane n).pick (s.chip.htNs / 1000) = some v → (s.chip.lane n).head
      v = some x → ∃ t, Sys2Proof.Machine.exec (.packetSend n) s = .next t ∧
    Only [] [.lanes, .free, .fab] s t ∧ t.chip.fab = s.chip.fab ∧ (t.chip.lane n).buf = (s.chip.lane n).buf ++ [((s.chip.lane n).seq,
      x.2.dn, { x.2 with dn := x.2.dn || decide (s.chip.laneDir n = 1) })] ∧ (t.chip.lane n).seq = ((s.chip.lane n).seq + 1) % 4096 ∧
      (t.chip.lane n).vq = dropHead v (s.chip.lane n).vq ∧ (t.chip.lane n).cred = upd (s.chip.lane n).cred v (· - 1) ∧ (t.chip.lane
      n).line ≠ [] ∧ (∀ b ∈ (t.chip.lane n).line, b.extractLsb (65) 64 = 0b01#2))

/-- O41 (R432, R433, R434, R435, R441, R442). Eye scan, patterns and optical modules: what each command does where it takes effect.
EYE_SCAN_START in a state that allows it starts the point. Elsewhere, or while one runs, it is recorded as STATE. EYE_SCAN_DONE shows
errors and bits. PAT_INJECT injects one error while the generator runs. PAT_CLR clears the counters. PAT_SYNC shows the checker in sync.
PAT_SYNC_LOSS takes bits and errors into the counters. MODULE_POLL of a module present shows its twelve bytes. MODULE_PRESENCE_CHANGE is
shown. MOD_CMD_READ starts a byte access. MOD_CMD_WRITE starts a byte access. MOD_ACCESS_DONE ends it, with the byte read or NACK.
Commands that complete (exec answers a next state): eyeScanStart, eyeScanDone, patInject, patClr, patSync, patSyncLoss, modulePoll,
modulePresenceChange, modCmdRead, modCmdWrite, modAccessDone. -/
def Obligations.LaneTestAndModuleCommands : Prop :=
  (∀ (w : Writer) (n : Fin 8) (pre : BitVec 4) (vo : BitVec 8) (ho : BitVec 7) (s : State), May w (R.LANE_ES_CTL n) s → scanState
      (s.chip.laneState n) = true → s.chip.is (R.LANE_ES_STAT n) F.LANE_ES_STAT_BUSY = false → ∃ t, Sys2Proof.Machine.exec
      (.eyeScanStart w n pre vo ho) s = .next t ∧
    Only [R.LANE_ES_CTL n, R.LANE_ES_STAT n, R.LANE_ES_ERR n, R.LANE_ES_BITS n] [] s t ∧ t.chip.is (R.LANE_ES_STAT n)
      F.LANE_ES_STAT_BUSY = true ∧ t.chip.rd (R.LANE_ES_ERR n) = 0 ∧ t.chip.rd (R.LANE_ES_BITS n) = 0 ∧ t.chip.f (R.LANE_ES_CTL n)
      F.LANE_ES_CTL_PRESCALE = pre.toNat)
  ∧ (∀ (w : Writer) (n : Fin 8) (pre : BitVec 4) (vo : BitVec 8) (ho : BitVec 7) (s : State), May w (R.LANE_ES_CTL n) s → (scanState
      (s.chip.laneState n) = false ∨ s.chip.is (R.LANE_ES_STAT n) F.LANE_ES_STAT_BUSY = true) → ∃ t, Sys2Proof.Machine.exec
      (.eyeScanStart w n pre vo ho) s = .next t ∧
    Quiet s t ∧ t.chip = s.chip.perr (R.LANE_ES_CTL n) .state w.ini.code)
  ∧ (∀ (n : Fin 8) (errs : BitVec 32) (s : State), Awake (P.LANE n) s → s.chip.is (R.LANE_ES_STAT n) F.LANE_ES_STAT_BUSY = true → ∃ t,
      Sys2Proof.Machine.exec (.eyeScanDone n errs) s = .next t ∧
    OnlyEv [R.LANE_ES_STAT n, R.LANE_ES_ERR n, R.LANE_ES_BITS n] [] s t ∧ t.chip.is (R.LANE_ES_STAT n) F.LANE_ES_STAT_BUSY = false ∧
      t.chip.is (R.LANE_ES_STAT n) F.LANE_ES_STAT_DONE = true ∧ t.chip.rd (R.LANE_ES_ERR n) = errs ∧ t.chip.rdN (R.LANE_ES_BITS n) = 2 ^
      (16 + s.chip.f (R.LANE_ES_CTL n) F.LANE_ES_CTL_PRESCALE))
  ∧ (∀ (w : Writer) (n : Fin 8) (s : State), May w (R.LANE_PAT_CMD n) s → s.chip.laneState n = Ls.pattern → s.chip.is (R.LANE_PAT_CFG n)
      F.LANE_PAT_CFG_GEN = true → ∃ t, Sys2Proof.Machine.exec (.patInject w theKey n) s = .next t ∧
    Only [] [.lanes] s t ∧ t.chip.lanes = upd s.chip.lanes n (fun l => { l with inj := l.inj + 1 }))
  ∧ (∀ (w : Writer) (n : Fin 8) (s : State), May w (R.LANE_PAT_CMD n) s → ∃ t, Sys2Proof.Machine.exec (.patClr w theKey n) s = .next t ∧
    Only [R.LANE_PAT_ERR_LO n, R.LANE_PAT_ERR_LO n + 4, R.LANE_PAT_BITS_LO n, R.LANE_PAT_BITS_LO n + 4, R.LANE_PAT_STAT n] [] s t ∧
      t.chip.rd64 (R.LANE_PAT_ERR_LO n) = 0 ∧ t.chip.rd64 (R.LANE_PAT_BITS_LO n) = 0 ∧ t.chip.f (R.LANE_PAT_STAT n)
      F.LANE_PAT_STAT_SYNC_LOSSES = 0)
  ∧ (∀ (n : Fin 8) (s : State), Awake (P.LANE n) s → s.chip.laneState n = Ls.pattern → s.chip.is (R.LANE_PAT_CFG n) F.LANE_PAT_CFG_CHK = true
      → ∃ t, Sys2Proof.Machine.exec (.patSync n) s = .next t ∧
    Only [R.LANE_PAT_STAT n] [] s t ∧ t.chip.is (R.LANE_PAT_STAT n) F.LANE_PAT_STAT_SYNC = true)
  ∧ (∀ (n : Fin 8) (bits errs : BitVec 48) (s : State), Awake (P.LANE n) s → s.chip.is (R.LANE_PAT_STAT n) F.LANE_PAT_STAT_SYNC = true → ∃ t,
      Sys2Proof.Machine.exec (.patSyncLoss n bits errs) s = .next t ∧
    OnlyEv [R.LANE_PAT_BITS_LO n, R.LANE_PAT_BITS_LO n + 4, R.LANE_PAT_ERR_LO n, R.LANE_PAT_ERR_LO n + 4, R.LANE_PAT_STAT n] [] s t ∧
      t.chip.is (R.LANE_PAT_STAT n) F.LANE_PAT_STAT_SYNC = false ∧ t.chip.is (R.LANE_PAT_STAT n) F.LANE_PAT_STAT_SYNC_LOST_SEEN = true ∧
      t.chip.rd64 (R.LANE_PAT_BITS_LO n) = (s.chip.rd64 (R.LANE_PAT_BITS_LO n) + bits.toNat) % 2 ^ 48 ∧ t.chip.rd64 (R.LANE_PAT_ERR_LO
      n) = (s.chip.rd64 (R.LANE_PAT_ERR_LO n) + errs.toNat) % 2 ^ 48)
  ∧ (∀ (n : Fin 8) (bytes : List (BitVec 8)) (s : State), Awake (P.LANE n) s → s.chip.is (R.LANE_MOD_CFG n) F.LANE_MOD_CFG_EN = true →
      s.chip.is (R.LANE_MOD_STAT n) F.LANE_MOD_STAT_PRESENT = true → ∃ t, Sys2Proof.Machine.exec (.modulePoll n bytes) s = .next t ∧
    OnlyEv [R.LANE_MOD_DDM0 n, R.LANE_MOD_DDM1 n, R.LANE_MOD_DDM2 n, R.LANE_MOD_STAT n] [] s t ∧ t.chip.rdN (R.LANE_MOD_DDM0 n) = ((nth
      bytes 0 0).toNat * 256 + (nth bytes 1 0).toNat) * 65536 + ((nth bytes 2 0).toNat * 256 + (nth bytes 3 0).toNat) ∧ t.chip.rdN
      (R.LANE_MOD_DDM1 n) = ((nth bytes 4 0).toNat * 256 + (nth bytes 5 0).toNat) * 65536 + ((nth bytes 6 0).toNat * 256 + (nth bytes 7
      0).toNat) ∧ t.chip.rdN (R.LANE_MOD_DDM2 n) = ((nth bytes 8 0).toNat * 256 + (nth bytes 9 0).toNat) ∧ t.chip.f (R.LANE_MOD_STAT n)
      F.LANE_MOD_STAT_ALARM_FLAGS = ((nth bytes 10 0).toNat * 256 + (nth bytes 11 0).toNat) % 2 ^ F.LANE_MOD_STAT_ALARM_FLAGS.width ∧
      t.chip.is (R.LANE_MOD_STAT n) F.LANE_MOD_STAT_ALARM = decide (((nth bytes 10 0).toNat * 256 + (nth bytes 11 0).toNat) ≠ 0))
  ∧ (∀ (n : Fin 8) (present : Bool) (s : State), Awake (P.LANE n) s → ∃ t, Sys2Proof.Machine.exec (.modulePresenceChange n present) s = .next
      t ∧
    OnlyEv [R.LANE_MOD_STAT n] [] s t ∧ t.chip.is (R.LANE_MOD_STAT n) F.LANE_MOD_STAT_PRESENT = present)
  ∧ (∀ (w : Writer) (n : Fin 8) (dev : Bool) (ofs : BitVec 8) (s : State), May w (R.LANE_MOD_CMD n) s → s.chip.is (R.LANE_MOD_STAT n)
      F.LANE_MOD_STAT_BUSY = false → ∃ t, Sys2Proof.Machine.exec (.modCmdRead w theKey n dev ofs) s = .next t ∧
    Only [R.LANE_MOD_STAT n] [.lanes] s t ∧ t.chip.is (R.LANE_MOD_STAT n) F.LANE_MOD_STAT_BUSY = true ∧ t.chip.lanes = upd s.chip.lanes
      n (fun l => { l with acc := some (false, dev, ofs.toNat) }))
  ∧ (∀ (w : Writer) (n : Fin 8) (dev : Bool) (ofs : BitVec 8) (s : State), May w (R.LANE_MOD_CMD n) s → s.chip.is (R.LANE_MOD_STAT n)
      F.LANE_MOD_STAT_BUSY = false → ∃ t, Sys2Proof.Machine.exec (.modCmdWrite w theKey n dev ofs) s = .next t ∧
    Only [R.LANE_MOD_STAT n] [.lanes] s t ∧ t.chip.is (R.LANE_MOD_STAT n) F.LANE_MOD_STAT_BUSY = true ∧ t.chip.lanes = upd s.chip.lanes
      n (fun l => { l with acc := some (true, dev, ofs.toNat) }))
  ∧ (∀ (n : Fin 8) (ack : Bool) (data : BitVec 8) (wr dev : Bool) (ofs : Nat) (s : State), Awake (P.LANE n) s → (s.chip.lane n).acc = some
      (wr, dev, ofs) → ∃ t, Sys2Proof.Machine.exec (.modAccessDone n ack data) s = .next t ∧
    OnlyEv [R.LANE_MOD_STAT n, R.LANE_MOD_DATA n] [.lanes] s t ∧ t.chip.is (R.LANE_MOD_STAT n) F.LANE_MOD_STAT_BUSY = false ∧
      (t.chip.lane n).acc = none ∧ (ack = false → t.chip.is (R.LANE_MOD_STAT n) F.LANE_MOD_STAT_NACK = true) ∧ (ack = true → wr = false
      → t.chip.f (R.LANE_MOD_DATA n) F.LANE_MOD_DATA_DATA = data.toNat))

/-- O42 (R436, R437, R438, R439, R440, R447). Ethernet: what each command does where it takes effect. ETH_LINK_CHANGE in ETHERNET mode shows
the link. In another state of the lane there is no link to change. ETH_FRAME_RX with a bad FCS is only counted. One for another address
is filtered. Without a descriptor it is lost and counted. With one it goes into its buffer, and no other byte of SRAM but the
descriptor’s changes. ETH_TX_KICK starts the frame of a descriptor that is the device’s. ETH_FRAME_SENT gives the descriptor back, with
a timestamp where asked for, and goes on to the next. Commands that complete (exec answers a next state): ethLinkChange, ethFrameRx,
ethTxKick, ethFrameSent. -/
def Obligations.EthernetCommands : Prop :=
  (∀ (e : Fin 2) (bl hb fa : Bool) (s : State), Awake (P.ETH e) s → Ls.ethDown ≤ s.chip.laneState (4 * e.val + 3) → ∃ t,
      Sys2Proof.Machine.exec (.ethLinkChange e bl hb fa) s = .next t ∧
    Quiet s t ∧ t.chip.laneState (4 * e.val + 3) = (if (bl && !hb && (!(s.chip.is (R.ETH_CTL e) F.ETH_CTL_FEC_EN && decide (s.chip.f
      (R.QUAD_CTL e) F.QUAD_CTL_ECM_RATE = 2)) || fa)) then Ls.ethUp else Ls.ethDown) ∧ t.chip.is (R.ETH_STAT e) F.ETH_STAT_LINK = (bl
      && !hb && (!(s.chip.is (R.ETH_CTL e) F.ETH_CTL_FEC_EN && decide (s.chip.f (R.QUAD_CTL e) F.QUAD_CTL_ECM_RATE = 2)) || fa)) ∧
      t.chip.is (R.ETH_STAT e) F.ETH_STAT_BLOCK_LOCK = bl)
  ∧ (∀ (e : Fin 2) (bl hb fa : Bool) (s : State), Awake (P.ETH e) s → s.chip.laneState (4 * e.val + 3) < Ls.ethDown → ∃ t,
      Sys2Proof.Machine.exec (.ethLinkChange e bl hb fa) s = .next t ∧
    Only [] [] s t)
  ∧ (∀ (e : Fin 2) (fr : List (BitVec 8)) (s : State), Awake (P.ETH e) s → s.chip.ethUp e = true → 60 ≤ fr.length → fr.length ≤ 1518 → ∃ t,
      Sys2Proof.Machine.exec (.ethFrameRx e fr false) s = .next t ∧
    Only [R.ETH_RX_ERR e] [] s t ∧ t.chip.f (R.ETH_RX_ERR e) F.ETH_RX_ERR_FCS = min (s.chip.f (R.ETH_RX_ERR e) F.ETH_RX_ERR_FCS + 1) (2
      ^ F.ETH_RX_ERR_FCS.width - 1))
  ∧ (∀ (e : Fin 2) (fr : List (BitVec 8)) (s : State), Awake (P.ETH e) s → s.chip.ethUp e = true → 60 ≤ fr.length → fr.length ≤ 1518 →
      isPause fr = false → s.chip.ethAddrOk e (fr.take 6) = false → ∃ t, Sys2Proof.Machine.exec (.ethFrameRx e fr true) s = .next t ∧
    Only [R.ETH_RX_FILT e] [] s t ∧ t.chip.f (R.ETH_RX_FILT e) F.ETH_RX_FILT_FILTERED = min (s.chip.f (R.ETH_RX_FILT e)
      F.ETH_RX_FILT_FILTERED + 1) (2 ^ F.ETH_RX_FILT_FILTERED.width - 1))
  ∧ (∀ (e : Fin 2) (fr : List (BitVec 8)) (d : Nat) (s : State), Awake (P.ETH e) s → s.chip.ethUp e = true → 60 ≤ fr.length → fr.length ≤
      1518 → isPause fr = false → s.chip.ethAddrOk e (fr.take 6) = true → d = descAt (s.chip.rd (R.ETH_RX_RING e)) (s.chip.f (R.ETH_STAT
      e) F.ETH_STAT_RX_IDX) → nbit (s.mem.sramW (d + 4)).toNat 31 = false → ∃ t, Sys2Proof.Machine.exec (.ethFrameRx e fr true) s =
      .next t ∧
    Only [R.ETH_RX_ERR e] [] s t ∧ t.chip.f (R.ETH_RX_ERR e) F.ETH_RX_ERR_NO_DESC = min (s.chip.f (R.ETH_RX_ERR e) F.ETH_RX_ERR_NO_DESC
      + 1) (2 ^ F.ETH_RX_ERR_NO_DESC.width - 1))
  ∧ (∀ (e : Fin 2) (fr : List (BitVec 8)) (d : Nat) (s : State), Awake (P.ETH e) s → s.chip.ethUp e = true → 60 ≤ fr.length → fr.length ≤
      1518 → isPause fr = false → s.chip.ethAddrOk e (fr.take 6) = true → d = descAt (s.chip.rd (R.ETH_RX_RING e)) (s.chip.f (R.ETH_STAT
      e) F.ETH_STAT_RX_IDX) → nbit (s.mem.sramW (d + 4)).toNat 31 = true → ∃ t, Sys2Proof.Machine.exec (.ethFrameRx e fr true) s = .next
      t ∧
    t.pending = s.pending ∧ t.mem.dram = s.mem.dram ∧ t.mem.fram = s.mem.fram ∧ t.mem.flashA = s.mem.flashA ∧ t.mem.flashB =
      s.mem.flashB ∧ t.mem.otp = s.mem.otp ∧ t.chip.f (R.ETH_STAT e) F.ETH_STAT_RX_IDX = descNext (s.chip.rd (R.ETH_RX_RING e))
      (s.chip.f (R.ETH_STAT e) F.ETH_STAT_RX_IDX) % 2 ^ F.ETH_STAT_RX_IDX.width ∧ Chip.Kept true [R.ETH_STAT e, R.ETH_RX_FRAMES e] []
      s.chip t.chip ∧ (∀ a, (∀ i < min fr.length ((s.mem.sramW (d + 4)).toNat % 65536), a ≠ ((s.mem.sramW d).toNat + i) % sramSize) → (∀
      i < 12, a ≠ (d + 4 + i) % sramSize) → SMap.get unwritten t.mem.sram a = SMap.get unwritten s.mem.sram a))
  ∧ (∀ (w : Writer) (e : Fin 2) (s : State), May w (R.ETH_TX_KICK e) s → s.chip.is (R.ETH_CTL e) F.ETH_CTL_EN = true → nbit (s.mem.sramW
      (descAt (s.chip.rd (R.ETH_TX_RING e)) (s.chip.f (R.ETH_STAT e) F.ETH_STAT_TX_IDX) + 4)).toNat 31 = true → ∃ t,
      Sys2Proof.Machine.exec (.ethTxKick w e) s = .next t ∧
    Only [] [.eth] s t ∧ nth t.chip.ethBusy e true = true)
  ∧ (∀ (e : Fin 2) (d : Nat) (s : State), s.chip.powered = true → s.chip.time.gated = false → nth s.chip.ethBusy e false = true → d = descAt
      (s.chip.rd (R.ETH_TX_RING e)) (s.chip.f (R.ETH_STAT e) F.ETH_STAT_TX_IDX) → ∃ t, Sys2Proof.Machine.exec (.ethFrameSent e) s =
      .next t ∧
    t.pending = s.pending ∧ t.mem.dram = s.mem.dram ∧ t.mem.fram = s.mem.fram ∧ t.mem.flashA = s.mem.flashA ∧ t.mem.flashB =
      s.mem.flashB ∧ t.mem.otp = s.mem.otp ∧ t.chip.f (R.ETH_STAT e) F.ETH_STAT_TX_IDX = descNext (s.chip.rd (R.ETH_TX_RING e))
      (s.chip.f (R.ETH_STAT e) F.ETH_STAT_TX_IDX) % 2 ^ F.ETH_STAT_TX_IDX.width ∧ Chip.Kept true [R.ETH_STAT e, R.ETH_TX_FRAMES e]
      [.eth] s.chip t.chip ∧ (∀ a, (∀ i < 12, a ≠ (d + 4 + i) % sramSize) → SMap.get unwritten t.mem.sram a = SMap.get unwritten
      s.mem.sram a))

/-- O43 (R456, R457, R487, R544, R545, R546, R547, R548, R572, R623). Register engine and twin stores: what each command does where it takes
effect. REG_REQ_RX that reads a page’s PG_ID under a session with the right answers with its word. Without the right it is discarded
with RIGHTS. DEV_RESET_RX under a session with the right resets the device and names the fabric as its source. TWIN_STORE outside the
private region enters the release buffer. One to the private region is performed at once on the twin’s own copy. While the twin stalls,
its release buffer or its IFQ being full, the stall is only counted. RELEASE_ENTRY of a matched store to SRAM takes it out of the buffer
and writes the bytes of its mask, and no other byte. With none, or one not yet matched, it changes nothing. TWINS_START starts both
twins at stamp 0 from the image of this boot and shows it. Commands that complete (exec answers a next state): regReqRx, devResetRx,
twinStore, releaseEntry, twinsStart. -/
def Obligations.RunCommands : Prop :=
  (∀ (p : Packet) (a : Nat) (v : Word) (k : Nat) (s : State), s.chip.powered = true → s.chip.time.gated = false → s.chip.admitted p = none
      → p.cast = 0 → regPairs p = [(a, v)] → a % 2 = 0 → regOffset a = some k → (pageAt k).isSome = true → k % 0x1000 = H.ID →
      s.chip.right p F.SES_S_RIGHTS_RD = true → ∃ t, Sys2Proof.Machine.exec (.regReqRx p) s = .next t ∧
    t.pending = s.pending ∧ t.mem = s.mem ∧ t.chip.out = s.chip.out ++ [⟨s.chip.packet 0x21 3 0 p.src.toNat (if p.enc then some
      p.ses.toNat else none) p.tag.toNat [(s.readReg 4 k).toNat], 0, none, false⟩])
  ∧ (∀ (p : Packet) (a : Nat) (v : Word) (s : State), s.chip.powered = true → s.chip.time.gated = false → s.chip.admitted p = none → p.cast =
      0 → regPairs p = [(a, v)] → a % 2 = 0 → s.chip.right p F.SES_S_RIGHTS_RD = false → ∃ t, Sys2Proof.Machine.exec (.regReqRx p) s =
      .next t ∧
    Quiet s t ∧ t.chip.f R.FAB_CNT_0 F.FAB_CNT_0_DROPS = min (s.chip.f R.FAB_CNT_0 F.FAB_CNT_0_DROPS + 1) (2 ^ F.FAB_CNT_0_DROPS.width -
      1) ∧ t.chip.rdN R.FAB_DROP_INFO = p.kind.toNat * 2 ^ 24 + p.vc.toNat * 2 ^ 21 + Dc.rights * 2 ^ 16 + p.dest.toNat)
  ∧ (∀ (p : Packet) (s : State), s.chip.powered = true → s.chip.time.gated = false → s.chip.admitted p = none → ∃ t, Sys2Proof.Machine.exec
      (.devResetRx p) s = .next t ∧
    t.pending = s.pending ∧ t.chip.mode = .boot ∧ t.chip.bit R.SYS_RST_CAUSE (rstBit 4) = true ∧ t.chip.safe.sgr = false)
  ∧ (∀ (x : Bool) (a : BitVec 29) (data : BitVec 64) (mask : BitVec 8) (stamp : BitVec 64) (s : State), s.chip.powered = true →
      s.chip.time.gated = false → s.chip.twRuns x = true → s.chip.twStalled x = false → s.chip.isPriv x .sram a.toNat = false → ∃ t,
      Sys2Proof.Machine.exec (.twinStore x .sram a data mask stamp) s = .next t ∧
    Only [R.TWN_STAT (b2n x)] [.red] s t ∧ t.chip.red =
      { s.chip.red with twins := upd s.chip.red.twins (b2n x) fun y => { y with rb := y.rb ++ [⟨.sram, a.toNat, data.toNat, mask.toNat, stamp.toNat, false⟩] } })
  ∧ (∀ (x : Bool) (a : BitVec 29) (data : BitVec 64) (mask : BitVec 8) (stamp : BitVec 64) (s : State), s.chip.powered = true →
      s.chip.time.gated = false → s.chip.twRuns x = true → s.chip.twStalled x = false → s.chip.isPriv x .sram a.toNat = true → ∃ t,
      Sys2Proof.Machine.exec (.twinStore x .sram a data mask stamp) s = .next t ∧
    Only [] [.red] s t ∧ (t.chip.twin x).rb = (s.chip.twin x).rb)
  ∧ (∀ (x : Bool) (sp : MemSpace) (a : BitVec 29) (data : BitVec 64) (mask : BitVec 8) (stamp : BitVec 64) (s : State), s.chip.powered = true
      → s.chip.time.gated = false → s.chip.twRuns x = true → s.chip.twStalled x = true → ∃ t, Sys2Proof.Machine.exec (.twinStore x sp a
      data mask stamp) s = .next t ∧
    Only [R.TWN_CNT_1 (b2n x)] [] s t ∧ t.chip.f (R.TWN_CNT_1 (b2n x)) F.TWN_CNT_1_STALLS = min 0xFFFF (s.chip.f (R.TWN_CNT_1 (b2n x))
      F.TWN_CNT_1_STALLS + 1))
  ∧ (∀ (x : Bool) (e : RbEnt) (r : List RbEnt) (s : State), s.chip.powered = true → s.chip.time.gated = false → (s.chip.twin x).rb = e :: r →
      e.ok = true → e.space = .sram → e.a + 8 ≤ sramSize → s.chip.mode ≠ .replay → s.chip.fab.ringWait = [] → s.chip.is (R.ETH_CTL 0)
      F.ETH_CTL_EN = false → s.chip.is (R.ETH_CTL 1) F.ETH_CTL_EN = false → ∃ t, Sys2Proof.Machine.exec (.releaseEntry x) s = .next t ∧
    t.pending = s.pending ∧ (t.chip.twin x).rb = r ∧ t.mem.dram = s.mem.dram ∧ t.mem.fram = s.mem.fram ∧ t.mem.flashA = s.mem.flashA ∧
      t.mem.flashB = s.mem.flashB ∧ t.mem.otp = s.mem.otp ∧ (∀ i < 8, SMap.get unwritten t.mem.sram (e.a + i) = if nbit e.mask i then
      BitVec.ofNat 8 (e.data / 256 ^ i) else SMap.get unwritten s.mem.sram (e.a + i)) ∧ (∀ b, b < e.a ∨ e.a + 8 ≤ b → SMap.get unwritten
      t.mem.sram b = SMap.get unwritten s.mem.sram b) ∧ Chip.Kept false [R.TWN_STAT (b2n x)] [.red] s.chip t.chip)
  ∧ (∀ (x : Bool) (s : State), ((s.chip.twin x).rb.head?.all fun e => !e.ok) = true → ∃ t, Sys2Proof.Machine.exec (.releaseEntry x) s = .next
      t ∧
    t = s)
  ∧ (∀ (x : BitVec 16) (s : State), s.chip.bootAt 5 = true → Im.nSect (s.imgByte s.chip.boot.img) = 0 → Im.afeCal (s.imgByte s.chip.boot.img)
      = false → s.chip.boot.img < 2 → ∃ t, Sys2Proof.Machine.exec (.twinsStart x) s = .next t ∧
    t.pending = s.pending ∧ t.mem = s.mem ∧ t.chip.twState false = Tw.run ∧ t.chip.twState true = Tw.run ∧ t.chip.f R.BOOT_STAT
      F.BOOT_STAT_SOURCE = s.chip.boot.img ∧ t.chip.f R.BOOT_STAT F.BOOT_STAT_CODE_A = s.chip.boot.img ∧ t.chip.f R.BOOT_TIMES
      F.BOOT_TIMES_TWINS = x.toNat ∧ t.chip.shd.twinsUp = true ∧ t.chip.rd64 (R.TWN_STAMP 0 0) = 0 ∧ t.chip.rd64 (R.TWN_STAMP 1 0) = 0)

/-- O44 (R147, R152, R153, R156, R163, R164, R166, R167). Measurement front end: what each command does where it takes effect. SETTLE_EXPIRY
ends the settling wait of a running channel. AFE_RESULT while results are discarded is discarded. A kept result is corrected and shown
with its saturation and count. With a slot of its own it goes out as a frame of the sample bus. AFE_CAL of a half with both groups
stopped starts the calibration of its six modulators. With its group running, LP set or a rotation under way it is recorded as STATE.
MOD_CAL_DONE stores the factors measured and shows them valid. Of the modulator a rotation freed it ends the rotation. AFE_ROTATE of a
running channel to a calibrated spare starts the rotation. Without a spare, of a duet or with one under way it is recorded as STATE.
Commands that complete (exec answers a next state): settleExpiry, afeResult, afeCal, modCalDone, afeRotate. -/
def Obligations.AfeCommands : Prop :=
  (∀ (n : Fin 10) (s : State), Awake P.SEQ s → (s.chip.afe n).run = true → ∃ t, Sys2Proof.Machine.exec (.settleExpiry n) s = .next t ∧
    Only [] [.meas] s t ∧ t.chip.meas = { s.chip.meas with afe := upd s.chip.meas.afe n fun x => { x with settling := false } })
  ∧ (∀ (n : Fin 10) (raw partner : BitVec 24) (ovl same : Bool) (e : Nat) (s : State), Awake P.AFE s → s.chip.afeEdge n = some e →
      s.chip.meas.rot = none → 0 < (s.chip.afe n).discard → (s.chip.afe n).changed = false → ∃ t, Sys2Proof.Machine.exec (.afeResult n
      raw partner ovl same) s = .next t ∧
    Only [] [.meas] s t ∧ t.chip.meas =
      { s.chip.meas with count := upd s.chip.meas.count (n / 5) (fun _ => e), newest := some (n.val / 5), afe := upd s.chip.meas.afe n fun x => { x with due := e + outPeriod x.lo, discard := x.discard - 1 } })
  ∧ (∀ (n : Fin 10) (raw partner : BitVec 24) (ovl same : Bool) (e : Nat) (s : State), Awake P.AFE s → s.chip.afeEdge n = some e →
      s.chip.meas.rot = none → (s.chip.afe n).discard = 0 → (s.chip.afe n).changed = false → fget (s.chip.afe n).hi F.SEQ_E_HI0_REPEAT =
      0 → fget (s.chip.afe n).hi F.SEQ_E_HI0_SLOT_EN = 0 → s.chip.lchDuet n = false → ∃ t, Sys2Proof.Machine.exec (.afeResult n raw
      partner ovl same) s = .next t ∧
    OnlyEv [R.AFE_RES n] [.meas, .mtr] s t ∧ t.chip.rdN (R.AFE_RES n) = unsgn 24 (s.chip.corrected (s.chip.lchMod n) (fget (s.chip.afe
      n).lo F.SEQ_E_LO0_PGA) raw.toInt).1 * 256 + b2n (ovl || (s.chip.corrected (s.chip.lchMod n) (fget (s.chip.afe n).lo
      F.SEQ_E_LO0_PGA) raw.toInt).2) * 128 + (s.chip.f (R.AFE_RES n) F.AFE_RES_COUNT + 1) % 64 ∧ t.chip.meas =
      { s.chip.meas with count := upd s.chip.meas.count (n / 5) (fun _ => e), newest := some (n.val / 5), afe := upd s.chip.meas.afe n fun x => { x with due := e + outPeriod x.lo, kept := x.kept + 1 } })
  ∧ (∀ (n : Fin 10) (raw partner : BitVec 24) (ovl same : Bool) (e : Nat) (s : State), Awake P.AFE s → s.chip.afeEdge n = some e →
      s.chip.meas.rot = none → (s.chip.afe n).discard = 0 → (s.chip.afe n).changed = false → fget (s.chip.afe n).hi F.SEQ_E_HI0_REPEAT =
      0 → fget (s.chip.afe n).hi F.SEQ_E_HI0_SLOT_EN = 1 → s.chip.holds (Cl.afe n) (fget (s.chip.afe n).hi F.SEQ_E_HI0_SLOT) = true →
      s.chip.lchDuet n = false → ∃ t, Sys2Proof.Machine.exec (.afeResult n raw partner ovl same) s = .next t ∧
    OnlyEv [R.AFE_RES n] [.meas, .mtr] s t ∧ (t.chip.meas.frames.any fun x => x.src = 24 + n.val && x.slot = (fget (s.chip.afe n).hi
      F.SEQ_E_HI0_SLOT) && x.word = (Slot.mk (s.chip.corrected (s.chip.lchMod n) (fget (s.chip.afe n).lo F.SEQ_E_LO0_PGA) raw.toInt).1
      (s.chip.fs (R.AFE_LCH n) F.AFE_LCH_EXP) (ovl || (s.chip.corrected (s.chip.lchMod n) (fget (s.chip.afe n).lo F.SEQ_E_LO0_PGA)
      raw.toInt).2) false).word) = true)
  ∧ (∀ (w : Writer) (h : Fin 2) (s : State), May w R.AFE_CMD s → s.chip.bit R.SEQ_CTL 0 = false → s.chip.bit R.SEQ_CTL 1 = false → s.chip.is
      R.AFE_CTL F.AFE_CTL_LP = false → s.chip.meas.rot = none → ∃ t, Sys2Proof.Machine.exec (.afeCal w theKey h) s = .next t ∧
    Only [R.AFE_STAT] [.meas] s t ∧ t.chip.meas =
      { s.chip.meas with cal := upd s.chip.meas.cal h fun _ => (List.range 6).map (6 * h.val + ·) } ∧ t.chip.bit R.AFE_STAT (29 + h.val)
      = true)
  ∧ (∀ (w : Writer) (h : Fin 2) (s : State), May w R.AFE_CMD s → (s.chip.bit R.SEQ_CTL h = true ∨ s.chip.is R.AFE_CTL F.AFE_CTL_LP = true ∨
      s.chip.meas.rot ≠ none) → ∃ t, Sys2Proof.Machine.exec (.afeCal w theKey h) s = .next t ∧
    Quiet s t ∧ t.chip = s.chip.perr R.AFE_CMD .state w.ini.code)
  ∧ (∀ (m : Fin 12) (o g0 g1 g2 g3 g4 : BitVec 24) (r : List Nat) (s : State), Awake P.AFE s → s.chip.meas.rot = none → nth s.chip.meas.cal
      (modHalf m) [] = m.val :: r → ∃ t, Sys2Proof.Machine.exec (.modCalDone m o g0 g1 g2 g3 g4) s = .next t ∧
    OnlyEv [R.AFE_CAL_OFS m, calGain m 0, calGain m 1, calGain m 2, calGain m 3, calGain m 4, R.AFE_STAT] [.meas] s t ∧ t.chip.f
      (R.AFE_CAL_OFS m) F.AFE_CAL_OFS_OFS = o.toNat ∧ t.chip.f (calGain m 0) F.AFE_CAL_GAIN0_GAIN = g0.toNat ∧ t.chip.f (calGain m 1)
      F.AFE_CAL_GAIN0_GAIN = g1.toNat ∧ t.chip.f (calGain m 2) F.AFE_CAL_GAIN0_GAIN = g2.toNat ∧ t.chip.f (calGain m 3)
      F.AFE_CAL_GAIN0_GAIN = g3.toNat ∧ t.chip.f (calGain m 4) F.AFE_CAL_GAIN0_GAIN = g4.toNat ∧ t.chip.bit R.AFE_STAT (16 + m.val) =
      true ∧ nth t.chip.meas.cal (modHalf m) [] = r)
  ∧ (∀ (m : Fin 12) (o g0 g1 g2 g3 g4 : BitVec 24) (x : AfeRot) (s : State), Awake P.AFE s → s.chip.meas.rot = some x → x.calibrating = true
      → x.old = m.val → ∃ t, Sys2Proof.Machine.exec (.modCalDone m o g0 g1 g2 g3 g4) s = .next t ∧
    OnlyEv [R.AFE_CAL_OFS m, calGain m 0, calGain m 1, calGain m 2, calGain m 3, calGain m 4, R.AFE_STAT] [.meas] s t ∧ t.chip.f
      (R.AFE_CAL_OFS m) F.AFE_CAL_OFS_OFS = o.toNat ∧ t.chip.bit R.AFE_STAT (16 + m.val) = true ∧ t.chip.meas.rot = none ∧ t.chip.is
      R.AFE_STAT F.AFE_STAT_ROT_BUSY = false)
  ∧ (∀ (w : Writer) (lch spare : BitVec 4) (s : State), May w R.AFE_CMD s → lch.toNat < 10 → spare.toNat < 12 → s.chip.bit R.AFE_STAT
      spare.toNat = true → s.chip.bit R.AFE_STAT (16 + spare.toNat) = true → s.chip.meas.rot = none → s.chip.meas.cal.all List.isEmpty =
      true → s.chip.lchDuet lch.toNat = false → s.chip.bit R.SEQ_CTL (lch.toNat / 5) = true → ∃ t, Sys2Proof.Machine.exec (.afeRotate w
      theKey lch spare) s = .next t ∧
    Only [R.AFE_STAT] [.meas] s t ∧ t.chip.meas =
      { s.chip.meas with rot := some ⟨lch.toNat, s.chip.lchMod lch.toNat, spare.toNat, nextMul (outPeriod (s.chip.afe lch.toNat).lo) (s.chip.groupNow (lch.toNat / 5)) + (discardOf (s.chip.afe lch.toNat).lo + 1) * outPeriod (s.chip.afe lch.toNat).lo, false⟩ }
      ∧ t.chip.is R.AFE_STAT F.AFE_STAT_ROT_BUSY = true)
  ∧ (∀ (w : Writer) (lch spare : BitVec 4) (s : State), May w R.AFE_CMD s → (10 ≤ lch.toNat ∨ s.chip.bit R.AFE_STAT spare.toNat = false ∨
      s.chip.meas.rot ≠ none ∨ s.chip.lchDuet lch.toNat = true) → ∃ t, Sys2Proof.Machine.exec (.afeRotate w theKey lch spare) s = .next
      t ∧
    Quiet s t ∧ t.chip = s.chip.perr R.AFE_CMD .state w.ini.code)

/-- O45 (R171, R173, R174, R176, R177, R178, R180, R181). External-modulator channels: what each command does where it takes effect.
XMD_CONTROL_OUTPUT sums the sinc3 window of the bits taken, scales it, rounds it to even, saturates it and shows it. While the signal is
lost the last good result is repeated with STALE. PROTECTION_FILTER_CHANGE with a counted bit sums the sinc window of ORDER and OSR_P
and sets HI and LO by the limits after PERSIST further sums. A channel that reaches the Sheepdog outside its limits latches the safe
state. A pin level that completes no bit only advances the filter’s tap. XMD_LOS shows the loss of signal and takes HI and LO back. Of a
channel that reaches the Sheepdog it latches the safe state. XMD_LOS_CLEAR ends it and counts the bits of the filters from here.
MANCHESTER_LOCK is shown in Manchester mode. Commands that complete (exec answers a next state): xmdControlOutput,
protectionFilterChange, xmdLos, xmdLosClear, manchesterLock. -/
def Obligations.XmdCommands : Prop :=
  (∀ (ch : Fin 24) (wave : List Bool) (same : Bool) (tap : XmdTap) (n : Nat) (s : State), Awake (P.XMD (ch.val / 12)) s → s.chip.xmdLive ch
      = true → s.chip.xmdTake ch (s.chip.xmd ch).ctl wave = (tap, n) → fget (s.chip.rd (R.XMD_CH_CF (ch.val / 12) (ch.val % 12)))
      F.XMD_CH_CF_SLOT_EN = 0 → ch.val < s.chip.meas.xmd.length → (s.chip.xmd ch).los = false → (s.chip.xmd ch).staleOut = 0 →
      (s.chip.xmd ch).good = none → s.chip.manOk ch = true → 3 * fget (s.chip.rd (R.XMD_CH_CF (ch.val / 12) (ch.val % 12)))
      F.XMD_CH_CF_OSR ≤ tap.bits.length + 2 → ∃ t, Sys2Proof.Machine.exec (.xmdControlOutput ch wave same) s = .next t ∧
    OnlyEv [R.XMD_CH_RES (ch.val / 12) (ch.val % 12)] [.meas, .mtr] s t ∧ t.chip.rdN (R.XMD_CH_RES (ch.val / 12) (ch.val % 12)) = unsgn
      24 (sat24 (scaleRhe (sincSum 3 (fget (s.chip.rd (R.XMD_CH_CF (ch.val / 12) (ch.val % 12))) F.XMD_CH_CF_OSR) tap.bits) (23 - 3 *
      (clog2 (fget (s.chip.rd (R.XMD_CH_CF (ch.val / 12) (ch.val % 12))) F.XMD_CH_CF_OSR) : Int)))).1 * 256 + b2n (sat24 (scaleRhe
      (sincSum 3 (fget (s.chip.rd (R.XMD_CH_CF (ch.val / 12) (ch.val % 12))) F.XMD_CH_CF_OSR) tap.bits) (23 - 3 * (clog2 (fget
      (s.chip.rd (R.XMD_CH_CF (ch.val / 12) (ch.val % 12))) F.XMD_CH_CF_OSR) : Int)))).2 * 128 + (s.chip.f (R.XMD_CH_RES (ch.val / 12)
      (ch.val % 12)) F.XMD_CH_RES_COUNT + 1) % 64 ∧ (t.chip.xmd ch).last = unsgn 24 (sat24 (scaleRhe (sincSum 3 (fget (s.chip.rd
      (R.XMD_CH_CF (ch.val / 12) (ch.val % 12))) F.XMD_CH_CF_OSR) tap.bits) (23 - 3 * (clog2 (fget (s.chip.rd (R.XMD_CH_CF (ch.val / 12)
      (ch.val % 12))) F.XMD_CH_CF_OSR) : Int)))).1 ∧ (t.chip.xmd ch).lastSat = (sat24 (scaleRhe (sincSum 3 (fget (s.chip.rd (R.XMD_CH_CF
      (ch.val / 12) (ch.val % 12))) F.XMD_CH_CF_OSR) tap.bits) (23 - 3 * (clog2 (fget (s.chip.rd (R.XMD_CH_CF (ch.val / 12) (ch.val %
      12))) F.XMD_CH_CF_OSR) : Int)))).2 ∧ (t.chip.xmd ch).ctl = tap ∧ (∀ j, j ≠ ch.val → t.chip.xmd j = s.chip.xmd j))
  ∧ (∀ (ch : Fin 24) (wave : List Bool) (same : Bool) (tap : XmdTap) (n : Nat) (s : State), Awake (P.XMD (ch.val / 12)) s → s.chip.xmdLive ch
      = true → s.chip.xmdTake ch (s.chip.xmd ch).ctl wave = (tap, n) → fget (s.chip.rd (R.XMD_CH_CF (ch.val / 12) (ch.val % 12)))
      F.XMD_CH_CF_SLOT_EN = 0 → ch.val < s.chip.meas.xmd.length → (s.chip.xmd ch).los = true → (s.chip.xmd ch).last < 2 ^ 24 →
      s.chip.manOk ch = true → 3 * fget (s.chip.rd (R.XMD_CH_CF (ch.val / 12) (ch.val % 12))) F.XMD_CH_CF_OSR ≤ tap.bits.length + 2 → ∃
      t, Sys2Proof.Machine.exec (.xmdControlOutput ch wave same) s = .next t ∧
    OnlyEv [R.XMD_CH_RES (ch.val / 12) (ch.val % 12)] [.meas, .mtr] s t ∧ t.chip.rdN (R.XMD_CH_RES (ch.val / 12) (ch.val % 12)) =
      (s.chip.xmd ch).last * 256 + b2n (s.chip.xmd ch).lastSat * 128 + 64 + (s.chip.f (R.XMD_CH_RES (ch.val / 12) (ch.val % 12))
      F.XMD_CH_RES_COUNT + 1) % 64 ∧ (t.chip.xmd ch).ctl = tap ∧ (∀ j, j ≠ ch.val → t.chip.xmd j = s.chip.xmd j))
  ∧ (∀ (ch : Fin 24) (v b : Bool) (tap : XmdTap) (s : State), s.chip.powered = true → s.chip.xmdLive ch = true → (s.chip.xmd ch).los = false
      → ch.val < s.chip.meas.xmd.length → s.chip.xmdEdge ch (s.chip.xmd ch).prot v = (tap, some b) → (s.chip.f (R.XMD_CH_PF (ch.val /
      12) (ch.val % 12)) F.XMD_CH_PF_ORDER + 1) * (s.chip.f (R.XMD_CH_PF (ch.val / 12) (ch.val % 12)) F.XMD_CH_PF_OSR) ≤ tap.bits.length
      → s.chip.manOk ch = true → 4 ≤ (s.chip.f (R.XMD_CH_PF (ch.val / 12) (ch.val % 12)) F.XMD_CH_PF_OSR) → (s.chip.f (R.XMD_CH_PF
      (ch.val / 12) (ch.val % 12)) F.XMD_CH_PF_OSR) ≤ 32 → s.chip.is (R.XMD_CH_PF (ch.val / 12) (ch.val % 12)) F.XMD_CH_PF_SHD = false →
      ∃ t, Sys2Proof.Machine.exec (.protectionFilterChange ch [v]) s = .next t ∧
    OnlyEv [xmdStat ch, R.SHD_DEMAND_XMD] [.meas] s t ∧ (t.chip.xmd ch).prot = tap ∧ (t.chip.xmd ch).hi = decide (s.chip.f (R.XMD_CH_PF
      (ch.val / 12) (ch.val % 12)) F.XMD_CH_PF_PERSIST < if s.chip.fs (R.XMD_CH_LIM (ch.val / 12) (ch.val % 12)) F.XMD_CH_LIM_LIM_HI <
      (clampI (-32768) 32767 (rhe (sincSum (s.chip.f (R.XMD_CH_PF (ch.val / 12) (ch.val % 12)) F.XMD_CH_PF_ORDER + 1) (s.chip.f
      (R.XMD_CH_PF (ch.val / 12) (ch.val % 12)) F.XMD_CH_PF_OSR) tap.bits * 2 ^ 15) ((s.chip.f (R.XMD_CH_PF (ch.val / 12) (ch.val % 12))
      F.XMD_CH_PF_OSR) ^ (s.chip.f (R.XMD_CH_PF (ch.val / 12) (ch.val % 12)) F.XMD_CH_PF_ORDER + 1)))) then (s.chip.xmd ch).hiN + 1 else
      0) ∧ (t.chip.xmd ch).lo = decide (s.chip.f (R.XMD_CH_PF (ch.val / 12) (ch.val % 12)) F.XMD_CH_PF_PERSIST < if (clampI (-32768)
      32767 (rhe (sincSum (s.chip.f (R.XMD_CH_PF (ch.val / 12) (ch.val % 12)) F.XMD_CH_PF_ORDER + 1) (s.chip.f (R.XMD_CH_PF (ch.val /
      12) (ch.val % 12)) F.XMD_CH_PF_OSR) tap.bits * 2 ^ 15) ((s.chip.f (R.XMD_CH_PF (ch.val / 12) (ch.val % 12)) F.XMD_CH_PF_OSR) ^
      (s.chip.f (R.XMD_CH_PF (ch.val / 12) (ch.val % 12)) F.XMD_CH_PF_ORDER + 1)))) < s.chip.fs (R.XMD_CH_LIM (ch.val / 12) (ch.val %
      12)) F.XMD_CH_LIM_LIM_LO then (s.chip.xmd ch).loN + 1 else 0))
  ∧ (∀ (ch : Fin 24) (v b : Bool) (tap : XmdTap) (s : State), s.chip.powered = true → s.chip.xmdLive ch = true → (s.chip.xmd ch).los = false
      → ch.val < s.chip.meas.xmd.length → s.chip.xmdEdge ch (s.chip.xmd ch).prot v = (tap, some b) → (s.chip.f (R.XMD_CH_PF (ch.val /
      12) (ch.val % 12)) F.XMD_CH_PF_ORDER + 1) * (s.chip.f (R.XMD_CH_PF (ch.val / 12) (ch.val % 12)) F.XMD_CH_PF_OSR) ≤ tap.bits.length
      → s.chip.manOk ch = true → 4 ≤ (s.chip.f (R.XMD_CH_PF (ch.val / 12) (ch.val % 12)) F.XMD_CH_PF_OSR) → (s.chip.f (R.XMD_CH_PF
      (ch.val / 12) (ch.val % 12)) F.XMD_CH_PF_OSR) ≤ 32 → s.chip.is (R.XMD_CH_PF (ch.val / 12) (ch.val % 12)) F.XMD_CH_PF_SHD = true →
      s.chip.bit R.SHD_DEMAND_XMD ch = false → (decide (s.chip.f (R.XMD_CH_PF (ch.val / 12) (ch.val % 12)) F.XMD_CH_PF_PERSIST < if
      s.chip.fs (R.XMD_CH_LIM (ch.val / 12) (ch.val % 12)) F.XMD_CH_LIM_LIM_HI < (clampI (-32768) 32767 (rhe (sincSum (s.chip.f
      (R.XMD_CH_PF (ch.val / 12) (ch.val % 12)) F.XMD_CH_PF_ORDER + 1) (s.chip.f (R.XMD_CH_PF (ch.val / 12) (ch.val % 12))
      F.XMD_CH_PF_OSR) tap.bits * 2 ^ 15) ((s.chip.f (R.XMD_CH_PF (ch.val / 12) (ch.val % 12)) F.XMD_CH_PF_OSR) ^ (s.chip.f (R.XMD_CH_PF
      (ch.val / 12) (ch.val % 12)) F.XMD_CH_PF_ORDER + 1)))) then (s.chip.xmd ch).hiN + 1 else 0) || decide (s.chip.f (R.XMD_CH_PF
      (ch.val / 12) (ch.val % 12)) F.XMD_CH_PF_PERSIST < if (clampI (-32768) 32767 (rhe (sincSum (s.chip.f (R.XMD_CH_PF (ch.val / 12)
      (ch.val % 12)) F.XMD_CH_PF_ORDER + 1) (s.chip.f (R.XMD_CH_PF (ch.val / 12) (ch.val % 12)) F.XMD_CH_PF_OSR) tap.bits * 2 ^ 15)
      ((s.chip.f (R.XMD_CH_PF (ch.val / 12) (ch.val % 12)) F.XMD_CH_PF_OSR) ^ (s.chip.f (R.XMD_CH_PF (ch.val / 12) (ch.val % 12))
      F.XMD_CH_PF_ORDER + 1)))) < s.chip.fs (R.XMD_CH_LIM (ch.val / 12) (ch.val % 12)) F.XMD_CH_LIM_LIM_LO then (s.chip.xmd ch).loN + 1
      else 0)) = true → ∃ t, Sys2Proof.Machine.exec (.protectionFilterChange ch [v]) s = .next t ∧
    Quiet s t ∧ t.chip.bit R.SHD_DEMAND_XMD ch = true ∧ t.chip.is R.SHD_STAT F.SHD_STAT_LATCH = true ∧ t.chip.mode = .safe)
  ∧ (∀ (ch : Fin 24) (v : Bool) (tap : XmdTap) (s : State), s.chip.powered = true → s.chip.xmdLive ch = true → s.chip.xmdEdge ch (s.chip.xmd
      ch).prot v = (tap, none) → ∃ t, Sys2Proof.Machine.exec (.protectionFilterChange ch [v]) s = .next t ∧
    Only [] [.meas] s t ∧ t.chip.meas = { s.chip.meas with xmd := upd s.chip.meas.xmd ch fun x => { x with prot := tap } })
  ∧ (∀ (ch : Fin 24) (s : State), s.chip.powered = true → s.chip.xmdMode ch ≠ 0 → (s.chip.xmd ch).los = false → s.chip.is (R.XMD_CH_PF
      (ch.val / 12) (ch.val % 12)) F.XMD_CH_PF_SHD = false → ∃ t, Sys2Proof.Machine.exec (.xmdLos ch) s = .next t ∧
    OnlyEv [xmdStat ch, R.SHD_DEMAND_XMD] [.meas] s t ∧ t.chip.is (xmdStat ch) F.XMD_CH_STAT_LOS = true ∧ t.chip.is (xmdStat ch)
      F.XMD_CH_STAT_LOS_SEEN = true ∧ t.chip.meas =
      { s.chip.meas with xmd := upd s.chip.meas.xmd ch fun x => { x with los := true, hi := false, lo := false, hiN := 0, loN := 0 } })
  ∧ (∀ (ch : Fin 24) (s : State), s.chip.powered = true → s.chip.xmdMode ch ≠ 0 → (s.chip.xmd ch).los = false → s.chip.is (R.XMD_CH_PF
      (ch.val / 12) (ch.val % 12)) F.XMD_CH_PF_SHD = true → ch.val < s.chip.meas.xmd.length → s.chip.bit R.SHD_DEMAND_XMD ch = false → ∃
      t, Sys2Proof.Machine.exec (.xmdLos ch) s = .next t ∧
    Quiet s t ∧ t.chip.bit R.SHD_DEMAND_XMD ch = true ∧ t.chip.is R.SHD_STAT F.SHD_STAT_LATCH = true ∧ t.chip.mode = .safe)
  ∧ (∀ (ch : Fin 24) (k : BitVec 9) (s : State), s.chip.powered = true → (s.chip.xmd ch).los = true → (s.chip.xmd ch).hi = false →
      (s.chip.xmd ch).lo = false → ∃ t, Sys2Proof.Machine.exec (.xmdLosClear ch k) s = .next t ∧
    Only [xmdStat ch, R.SHD_DEMAND_XMD] [.meas] s t ∧ t.chip.is (xmdStat ch) F.XMD_CH_STAT_LOS = false ∧ t.chip.bit R.SHD_DEMAND_XMD ch
      = false ∧ t.chip.meas =
      { s.chip.meas with xmd := upd s.chip.meas.xmd ch fun x => { x with los := false, good := some 0, before := k.toNat, prot := { x.prot with bits := [] } } })
  ∧ (∀ (ch : Fin 24) (s : State), Awake (P.XMD (ch.val / 12)) s → s.chip.xmdMode ch = 2 → ∃ t, Sys2Proof.Machine.exec (.manchesterLock ch) s
      = .next t ∧
    Only [xmdStat ch] [] s t ∧ t.chip.is (xmdStat ch) F.XMD_CH_STAT_MAN_LOCK = true)

/-- O46 (R182, R183, R184, R186, R189, R499). Window comparators: what each command does where it takes effect. ACMP_CHANGE of a running
comparator shows its region and whether that trips it. A trip that reaches the Sheepdog latches the safe state. ACMP_SELFTEST outside
RUN and DEGRADED tests the comparators named in turn. In RUN and DEGRADED it is recorded as STATE. ACMP_SELFTEST_STEP shows the verdict
of the comparator under test and goes on to the next. Commands that complete (exec answers a next state): acmpChange, acmpSelftest,
acmpSelftestStep. -/
def Obligations.ComparatorCommands : Prop :=
  (∀ (n : Fin 16) (uv : BitVec 24) (st : Bool) (s : State), s.chip.powered = true → (s.chip.f (R.ACMP_CH_CFG n) F.ACMP_CH_CFG_MODE = 1 ∨
      s.chip.f (R.ACMP_CH_CFG n) F.ACMP_CH_CFG_MODE = 2) → s.chip.is (R.ACMP_CH_CFG n) F.ACMP_CH_CFG_SHD = false → ∃ t,
      Sys2Proof.Machine.exec (.acmpChange n uv st) s = .next t ∧
    OnlyEv [R.ACMP_CH_STAT n, R.SHD_DEMAND_AG] [.meas] s t ∧ t.chip.is (R.ACMP_CH_STAT n) F.ACMP_CH_STAT_TRIPPED = s.chip.acmpTripped n
      (s.chip.acmpRegion n uv.toNat) ∧ t.chip.is (R.ACMP_CH_STAT n) F.ACMP_CH_STAT_ABOVE = decide ((s.chip.acmpRegion n uv.toNat) =
      .above) ∧ t.chip.is (R.ACMP_CH_STAT n) F.ACMP_CH_STAT_BELOW = decide ((s.chip.acmpRegion n uv.toNat) = .below))
  ∧ (∀ (n : Fin 16) (uv : BitVec 24) (st : Bool) (s : State), s.chip.powered = true → (s.chip.f (R.ACMP_CH_CFG n) F.ACMP_CH_CFG_MODE = 1 ∨
      s.chip.f (R.ACMP_CH_CFG n) F.ACMP_CH_CFG_MODE = 2) → s.chip.is (R.ACMP_CH_CFG n) F.ACMP_CH_CFG_SHD = true → n.val <
      s.chip.meas.acmp.length → (s.chip.acmp n).blank = false → (s.chip.acmp n).testing = false → s.chip.bit R.SHD_DEMAND_AG n = false →
      s.chip.acmpTripped n (s.chip.acmpRegion n uv.toNat) = true → ∃ t, Sys2Proof.Machine.exec (.acmpChange n uv st) s = .next t ∧
    Quiet s t ∧ t.chip.bit R.SHD_DEMAND_AG n = true ∧ t.chip.is R.SHD_STAT F.SHD_STAT_LATCH = true ∧ t.chip.mode = .safe)
  ∧ (∀ (w : Writer) (mask : BitVec 16) (s : State), May w R.ACMP_CMD s → s.chip.running = false → s.chip.meas.tests = [] → ∃ t,
      Sys2Proof.Machine.exec (.acmpSelftest w theKey mask) s = .next t ∧
    Quiet s t ∧ t.chip.meas.tests = (List.range 16).filter fun n => nbit mask.toNat n)
  ∧ (∀ (w : Writer) (mask : BitVec 16) (s : State), May w R.ACMP_CMD s → s.chip.running = true → ∃ t, Sys2Proof.Machine.exec (.acmpSelftest w
      theKey mask) s = .next t ∧
    Quiet s t ∧ t.chip = s.chip.perr R.ACMP_CMD .state w.ini.code)
  ∧ (∀ (pass : Bool) (n : Nat) (r : List Nat) (s : State), Awake P.ACMP s → s.chip.meas.tests = n :: r → n < 16 → ∃ t, Sys2Proof.Machine.exec
      (.acmpSelftestStep pass) s = .next t ∧
    Quiet s t ∧ t.chip.meas.tests = r ∧ t.chip.is (R.ACMP_CH_STAT n) F.ACMP_CH_STAT_ST_PASS = pass ∧ t.chip.is (R.ACMP_CH_STAT n)
      F.ACMP_CH_STAT_ST_FAIL = !pass)

/-- O47 (R13, R215, R216, R217, R218, R219, R220, R226, R231, R233, R243). Stride engine: what each command does where it takes effect.
SAMPLE_FRAME_DELIVERY puts the oldest frame into its slot. STR_SWTRIG of an enabled idle group completes its trigger. Of a busy one it
is pending and counted as an overrun. With one pending it is dropped and counted. RG_TRIGGER of a group with an event due completes its
trigger. Of a group whose frames have all arrived it does so too. And of a group whose divider has counted. TRIG_WINDOW_END of an
incomplete window completes the trigger with the missing slots noted. RG_DISPATCH of a triggered group takes its registers and snapshot
and starts its evaluation. SECTION_ISSUE of the next section reads its inputs and is under way. A corrected ECC error is counted and the
section is under way. An uncorrectable error in its record marks the section for cause ECC. An uncorrectable error in a slot it reads is
counted and the section is under way with that slot read as zero. An uncorrectable error in a table entry it reads is counted and the
section is under way. An uncorrectable error in a slot that it samples is counted, and the evaluation starts. SECTION_RESULT writes the
word to the slot the section holds. In duplicated evaluation a difference latches the safe state. STR_CLR_STATS clears the overrun
counts and maxima. BUDGET_RECOMPUTE shows the cost of each group’s sections. GRAPH_CRC_RECOMPUTE shows the check codes of records and
tables. Commands that complete (exec answers a next state): sampleFrameDelivery, strSwtrig, rgTrigger, trigWindowEnd, rgDispatch,
sectionIssue, sectionResult, strClrStats, budgetRecompute, graphCrcRecompute. -/
def Obligations.StrideCommands : Prop :=
  (∀ (f : Frame) (r : List Frame) (s : State), s.chip.powered = true → s.chip.time.gated = false → s.chip.meas.frames = f :: r → ∃ t,
      Sys2Proof.Machine.exec (.sampleFrameDelivery) s = .next t ∧
    Only [Key.slot f.slot] [.meas, .str, .lap] s t ∧ t.chip.rd (Key.slot f.slot) = f.word ∧ t.chip.meas =
      { s.chip.meas with frames := r })
  ∧ (∀ (w : Writer) (trig : BitVec 8) (g : Fin 8) (s : State), May w R.STR_SWTRIG s → trig.toNat = 2 ^ g.val → s.chip.mode ≠ .boot →
      (s.chip.grp g).en = true → (s.chip.grp g).busy = false → ∃ t, Sys2Proof.Machine.exec (.strSwtrig w trig) s = .next t ∧
    Only [R.STR_STAT] [.str] s t ∧ t.chip.str =
      { s.chip.str with grp := upd s.chip.str.grp g (fun x => { x with busy := true, disp := false, win := false, trigHt := s.chip.htNs, missing := [] }) }
      ∧ t.chip.bit R.STR_STAT g = true)
  ∧ (∀ (w : Writer) (trig : BitVec 8) (g : Fin 8) (s : State), May w R.STR_SWTRIG s → trig.toNat = 2 ^ g.val → s.chip.mode ≠ .boot →
      (s.chip.grp g).en = true → (s.chip.grp g).busy = true → (s.chip.grp g).pend = false → ∃ t, Sys2Proof.Machine.exec (.strSwtrig w
      trig) s = .next t ∧
    OnlyEv [R.STR_STAT, R.STR_RG_OVR g] [.str] s t ∧ t.chip.str =
      { s.chip.str with grp := upd s.chip.str.grp g (fun x => { x with pend := true, win := false, missNext := [] }) } ∧ t.chip.f
      (R.STR_RG_OVR g) F.STR_RG_OVR_OVERRUN = min (s.chip.f (R.STR_RG_OVR g) F.STR_RG_OVR_OVERRUN + 1) (2 ^ F.STR_RG_OVR_OVERRUN.width -
      1))
  ∧ (∀ (w : Writer) (trig : BitVec 8) (g : Fin 8) (s : State), May w R.STR_SWTRIG s → trig.toNat = 2 ^ g.val → s.chip.mode ≠ .boot →
      (s.chip.grp g).en = true → (s.chip.grp g).busy = true → (s.chip.grp g).pend = true → ∃ t, Sys2Proof.Machine.exec (.strSwtrig w
      trig) s = .next t ∧
    Only [R.STR_RG_OVR g] [] s t ∧ t.chip.f (R.STR_RG_OVR g) F.STR_RG_OVR_DROP = min (s.chip.f (R.STR_RG_OVR g) F.STR_RG_OVR_DROP + 1)
      (2 ^ F.STR_RG_OVR_DROP.width - 1))
  ∧ (∀ (g : Fin 8) (s : State), Awake P.STR s → s.chip.mode ≠ .boot → (s.chip.grp g).en = true → (s.chip.grp g).busy = false → (s.chip.grp
      g).mode = 2 → 0 < (s.chip.grp g).due → ∃ t, Sys2Proof.Machine.exec (.rgTrigger g) s = .next t ∧
    Only [R.STR_STAT] [.str] s t ∧ (t.chip.grp g).busy = true ∧ (t.chip.grp g).due = (s.chip.grp g).due - 1 ∧ (t.chip.grp g).trigHt =
      s.chip.htNs)
  ∧ (∀ (g : Fin 8) (s : State), Awake P.STR s → s.chip.mode ≠ .boot → (s.chip.grp g).en = true → (s.chip.grp g).busy = false → (s.chip.grp
      g).mode = 1 → (s.chip.grp g).trigSlots ≠ [] → (s.chip.grp g).trigSlots.all (s.chip.grp g).got.contains = true → ∃ t,
      Sys2Proof.Machine.exec (.rgTrigger g) s = .next t ∧
    Only [R.STR_STAT] [.str] s t ∧ (t.chip.grp g).busy = true ∧ (t.chip.grp g).got = [] ∧ (t.chip.grp g).missing = [])
  ∧ (∀ (g : Fin 8) (s : State), Awake P.STR s → s.chip.mode ≠ .boot → (s.chip.grp g).en = true → (s.chip.grp g).busy = false → (s.chip.grp
      g).mode = 3 → (s.chip.grp g).divN ≤ (s.chip.grp g).div → ∃ t, Sys2Proof.Machine.exec (.rgTrigger g) s = .next t ∧
    Only [R.STR_STAT] [.str] s t ∧ (t.chip.grp g).busy = true ∧ (t.chip.grp g).div = 0)
  ∧ (∀ (g : Fin 8) (s : State), Awake P.STR s → s.chip.mode ≠ .boot → (s.chip.grp g).en = true → (s.chip.grp g).busy = false → (s.chip.grp
      g).mode = 1 → (s.chip.grp g).win = true → (s.chip.grp g).trigSlots.all (s.chip.grp g).got.contains = false → ∃ t,
      Sys2Proof.Machine.exec (.trigWindowEnd g) s = .next t ∧
    OnlyEv [R.STR_STAT] [.str] s t ∧ (t.chip.grp g).busy = true ∧ (t.chip.grp g).win = false ∧ (t.chip.grp g).got = [] ∧ (t.chip.grp
      g).missing = (s.chip.grp g).trigSlots.filter fun k => !(s.chip.grp g).got.contains k)
  ∧ (∀ (g : Fin 8) (s : State), Awake P.STR s → (s.chip.grp g).busy = true → (s.chip.grp g).disp = false → ∃ t, Sys2Proof.Machine.exec
      (.rgDispatch g .none) s = .next t ∧
    Quiet s t ∧ (t.chip.grp g).disp = true ∧ (t.chip.grp g).next = 0 ∧ (t.chip.grp g).fly = [] ∧ (t.chip.grp g).wrote = [] ∧ (t.chip.grp
      g).cfg = s.chip.rd (R.STR_RG_CFG g))
  ∧ (∀ (n : Fin 512) (g : Nat) (s : State), Awake P.STR s → (List.range 8).find? (fun g => s.chip.mayIssue g n) = some g → ∃ t,
      Sys2Proof.Machine.exec (.sectionIssue n .none) s = .next t ∧
    Only [] [.str] s t ∧ (t.chip.grp g).next = n.val + 1 ∧ (t.chip.grp g).fly.map (·.sec) = (s.chip.grp g).fly.map (·.sec) ++ [n.val] ∧
      (t.chip.grp g).wrote = (s.chip.grp g).wrote)
  ∧ (∀ (n : Fin 512) (g : Nat) (s : State), Awake P.STR s → (List.range 8).find? (fun g => s.chip.mayIssue g n) = some g → ∃ t,
      Sys2Proof.Machine.exec (.sectionIssue n .corrected) s = .next t ∧
    OnlyEv [R.STR_ECC] [.str] s t ∧ t.chip.f R.STR_ECC F.STR_ECC_CE = min (s.chip.f R.STR_ECC F.STR_ECC_CE + 1) (2 ^ F.STR_ECC_CE.width
      - 1) ∧ (t.chip.grp g).next = n.val + 1 ∧ (t.chip.grp g).fly.map (·.sec) = (s.chip.grp g).fly.map (·.sec) ++ [n.val] ∧ (t.chip.grp
      g).wrote = (s.chip.grp g).wrote)
  ∧ (∀ (n : Fin 512) (g : Nat) (s : State), Awake P.STR s → (List.range 8).find? (fun g => s.chip.mayIssue g n) = some g → ∃ t,
      Sys2Proof.Machine.exec (.sectionIssue n .record) s = .next t ∧
    Quiet s t ∧ n.val ∈ t.chip.str.ecc)
  ∧ (∀ (n : Fin 512) (g : Nat) (k : Fin 1024) (s : State), Awake P.STR s → (List.range 8).find? (fun g => s.chip.mayIssue g n) = some g →
      fget (((s.chip.grp g)).sec n 0) F.STRW_SEC_CFG_TYPE = 9 → secInput (((s.chip.grp g)).sec n 4) (((s.chip.grp g)).sec n 8) 0 = some
      k.val → ∃ t, Sys2Proof.Machine.exec (.sectionIssue n (.slot k)) s = .next t ∧
    OnlyEv [R.STR_ECC] [.str] s t ∧ t.chip.f R.STR_ECC F.STR_ECC_UE = min (s.chip.f R.STR_ECC F.STR_ECC_UE + 1) (2 ^ F.STR_ECC_UE.width
      - 1) ∧ (t.chip.grp g).next = n.val + 1 ∧ (t.chip.grp g).fly.map (·.sec) = (s.chip.grp g).fly.map (·.sec) ++ [n.val] ∧ (t.chip.grp
      g).wrote = (s.chip.grp g).wrote)
  ∧ (∀ (n : Fin 512) (g : Nat) (e : Fin 4096) (s : State), Awake P.STR s → (List.range 8).find? (fun g => s.chip.mayIssue g n) = some g →
      (s.chip.secIn g n (s.chip.rd (Key.sec n 0x60)) (s.chip.rd (Key.sec n 0x64)) (s.chip.rd (Key.sec n 0x68))).reads (fun i => secInput
      (((s.chip.grp g)).sec n 4) (((s.chip.grp g)).sec n 8) i) (.table e) = true → ∃ t, Sys2Proof.Machine.exec (.sectionIssue n (.table
      e)) s = .next t ∧
    OnlyEv [R.STR_ECC] [.str] s t ∧ t.chip.f R.STR_ECC F.STR_ECC_UE = min (s.chip.f R.STR_ECC F.STR_ECC_UE + 1) (2 ^ F.STR_ECC_UE.width
      - 1) ∧ (t.chip.grp g).next = n.val + 1 ∧ (t.chip.grp g).fly.map (·.sec) = (s.chip.grp g).fly.map (·.sec) ++ [n.val])
  ∧ (∀ (g : Fin 8) (k : Fin 1024) (s : State), Awake P.STR s → (s.chip.grp g).busy = true → (s.chip.grp g).disp = false → ((s.chip.dispatch
      g).pcrReads g).contains k.val = true → ∃ t, Sys2Proof.Machine.exec (.rgDispatch g (.slot k)) s = .next t ∧
    Quiet s t ∧ (t.chip.grp g).disp = true ∧ (t.chip.grp g).next = 0 ∧ t.chip.f R.STR_ECC F.STR_ECC_UE = min (s.chip.f R.STR_ECC
      F.STR_ECC_UE + 1) (2 ^ F.STR_ECC_UE.width - 1))
  ∧ (∀ (n : Fin 512) (fault : BitVec 2) (g : Nat) (r : SecRes) (k : Nat) (v : Word) (s : State), Awake P.STR s → (List.range 8).find? (fun g
      => (s.chip.grp g).fly.any fun r => decide (r.sec = n.val)) = some g → (s.chip.grp g).fly.find? (fun r => decide (r.sec = n.val)) =
      some r → (s.chip.grp g).dup = false → r.outs = [(k, v)] → s.chip.holds (Cl.sec n) k = true → ∃ t, Sys2Proof.Machine.exec
      (.sectionResult n fault) s = .next t ∧
    Quiet s t ∧ t.chip.rd (Key.slot k) = v ∧ (t.chip.grp g).wrote = (s.chip.grp g).wrote ++ [n.val] ∧ (t.chip.grp g).fly = (s.chip.grp
      g).fly.filter fun q => decide (q.sec ≠ n.val))
  ∧ (∀ (n : Fin 512) (fault : BitVec 2) (g : Nat) (r : SecRes) (s : State), Awake P.STR s → (List.range 8).find? (fun g => (s.chip.grp
      g).fly.any fun r => decide (r.sec = n.val)) = some g → (s.chip.grp g).fly.find? (fun r => decide (r.sec = n.val)) = some r →
      (s.chip.grp g).dup = true → r.outs.length = 1 → (fault.getLsbD 0 = true ∨ r.same = [false]) → ∃ t, Sys2Proof.Machine.exec
      (.sectionResult n fault) s = .next t ∧
    Quiet s t ∧ t.chip.is R.SHD_STAT F.SHD_STAT_LATCH = true ∧ t.chip.mode = .safe)
  ∧ (∀ (w : Writer) (s : State), May w R.STR_CMD s → ∃ t, Sys2Proof.Machine.exec (.strClrStats w theKey) s = .next t ∧
    Only ((List.range 8).map R.STR_RG_OVR ++ (List.range 8).map R.STR_RG_LAT) [] s t ∧ (∀ g < 8, t.chip.rd (R.STR_RG_OVR g) = 0) ∧ (∀ g
      < 8, t.chip.f (R.STR_RG_LAT g) F.STR_RG_LAT_MAX = 0))
  ∧ (∀ (s : State), Awake P.STR s → ∃ t, Sys2Proof.Machine.exec (.budgetRecompute) s = .next t ∧
    OnlyEv (R.STR_STAT :: (List.range 8).map R.STR_RG_BUDGET) [] s t ∧ (∀ g < 8, t.chip.f (R.STR_RG_BUDGET g) F.STR_RG_BUDGET_COST = min
      (((s.chip.secList.filter fun n => fget (s.chip.sec n 0) F.STRW_SEC_CFG_EN = 1 && decide (fget (s.chip.sec n 0) F.STRW_SEC_CFG_RG =
      g) && decide (s.chip.secType n ≠ 0) && !s.chip.bit (R.STR_BAD (n / 32)) (n % 32)).map fun n => laneCycles (s.chip.secType n) (fget
      (s.chip.sec n 0) F.STRW_SEC_CFG_OPT)).sum) 0xFFFF))
  ∧ (∀ (s : State), Awake P.STR s → ∃ t, Sys2Proof.Machine.exec (.graphCrcRecompute) s = .next t ∧
    Only [R.STR_GCRC, R.STR_TCRC, R.STR_STAT] [] s t ∧ t.chip.rdN R.STR_GCRC = crc32 ((List.range 512).flatMap fun n => gcrcOffs.map fun
      o => (s.chip.sec n o).toNat) ∧ t.chip.rdN R.STR_TCRC = crc32 ((List.range 4096).map fun i => s.chip.rdN (Key.table i)) ∧ t.chip.is
      R.STR_STAT F.STR_STAT_GCRC_BUSY = false ∧ t.chip.is R.STR_STAT F.STR_STAT_TCRC_BUSY = false)

/-- O48 (R222, R236, R239, R240, R241, R246). Pacer: what each command does where it takes effect. PACER_HOLD while the group is disabled
and idle holds at once. PACER_RELEASE releases it. PACER_EMERGENCY enters emergency. PACER_CLEAR_EMERGENCY at the emergency target ends
it. PACER_PRESET puts the position at the target. Of a running channel in RUN it is recorded as STATE. PACER_HOLD while the group is
enabled waits for its next dispatch. PACER_RELEASE while the group is enabled waits for its next dispatch. PACER_EMERGENCY while the
group is enabled waits for its next dispatch. PACER_CLEAR_EMERGENCY while the group is enabled waits for its next dispatch. Commands
that complete (exec answers a next state): pacerHold, pacerRelease, pacerEmergency, pacerClearEmergency, pacerPreset. -/
def Obligations.PacerCommands : Prop :=
  (∀ (w : Writer) (k : Fin 16) (s : State), May w R.PCR_CMD s → (s.chip.grp (s.chip.pcrRg k)).en = false → (s.chip.grp (s.chip.pcrRg
      k)).busy = false → s.chip.bit R.PCR_ESTAT k = false → ∃ t, Sys2Proof.Machine.exec (.pacerHold w theKey k) s = .next t ∧
    Only [R.PCR_STAT] [] s t ∧ t.chip.bit R.PCR_STAT (16 + k.val) = true)
  ∧ (∀ (w : Writer) (k : Fin 16) (s : State), May w R.PCR_CMD s → (s.chip.grp (s.chip.pcrRg k)).en = false → (s.chip.grp (s.chip.pcrRg
      k)).busy = false → s.chip.bit R.PCR_ESTAT k = false → ∃ t, Sys2Proof.Machine.exec (.pacerRelease w theKey k) s = .next t ∧
    Only [R.PCR_STAT] [] s t ∧ t.chip.bit R.PCR_STAT (16 + k.val) = false)
  ∧ (∀ (w : Writer) (k : Fin 16) (s : State), May w R.PCR_CMD s → (s.chip.grp (s.chip.pcrRg k)).en = false → (s.chip.grp (s.chip.pcrRg
      k)).busy = false → s.chip.bit R.PCR_ESTAT k = false → ∃ t, Sys2Proof.Machine.exec (.pacerEmergency w theKey k) s = .next t ∧
    OnlyEv [] [] s t ∧ t.chip.bit R.PCR_ESTAT k = true)
  ∧ (∀ (w : Writer) (k : Fin 16) (s : State), May w R.PCR_CMD s → (s.chip.grp (s.chip.pcrRg k)).en = false → (s.chip.grp (s.chip.pcrRg
      k)).busy = false → s.chip.bit R.PCR_ESTAT k = true → (nth s.chip.str.pcr k {}).p = s.chip.pcrTgt k (s.chip.rd (R.PCR_CH_ETGT k)) →
      ∃ t, Sys2Proof.Machine.exec (.pacerClearEmergency w theKey k) s = .next t ∧
    Only [R.PCR_ESTAT, R.PCR_CH_P_LO k, R.PCR_CH_P_LO k + 4] [.str] s t ∧ t.chip.bit R.PCR_ESTAT k = false ∧ t.chip.str =
      { s.chip.str with pcr := upd s.chip.str.pcr k (fun _ => { (nth s.chip.str.pcr k {}) with v := 0, a := 0 }) })
  ∧ (∀ (w : Writer) (k : Fin 16) (s : State), May w R.PCR_CMD s → (s.chip.grp (s.chip.pcrRg k)).en = false → (s.chip.grp (s.chip.pcrRg
      k)).busy = false → ∃ t, Sys2Proof.Machine.exec (.pacerPreset w theKey k) s = .next t ∧
    Only [R.PCR_CH_P_LO k, R.PCR_CH_P_LO k + 4] [.str] s t ∧ t.chip.str =
      { s.chip.str with pcr := upd s.chip.str.pcr k (fun _ => { (nth s.chip.str.pcr k {}) with p := s.chip.pcrTgt k (s.chip.pcrTgtWord k), v := 0, a := 0 }) }
      ∧ t.chip.rd64 (R.PCR_CH_P_LO k) = unsgn 64 (s.chip.pcrTgt k (s.chip.pcrTgtWord k)))
  ∧ (∀ (w : Writer) (k : Fin 16) (s : State), May w R.PCR_CMD s → s.chip.presetOk k = false → ∃ t, Sys2Proof.Machine.exec (.pacerPreset w
      theKey k) s = .next t ∧
    Quiet s t ∧ t.chip = s.chip.perr R.PCR_CMD .state w.ini.code)
  ∧ (∀ (w : Writer) (k : Fin 16) (s : State), May w R.PCR_CMD s → (s.chip.grp (s.chip.pcrRg k)).en = true → ∃ t, Sys2Proof.Machine.exec
      (.pacerHold w theKey k) s = .next t ∧
    Only [] [.str] s t ∧ t.chip.str = { s.chip.str with pcrCmds := s.chip.str.pcrCmds ++ [(k.val, 1)] })
  ∧ (∀ (w : Writer) (k : Fin 16) (s : State), May w R.PCR_CMD s → (s.chip.grp (s.chip.pcrRg k)).en = true → ∃ t, Sys2Proof.Machine.exec
      (.pacerRelease w theKey k) s = .next t ∧
    Only [] [.str] s t ∧ t.chip.str = { s.chip.str with pcrCmds := s.chip.str.pcrCmds ++ [(k.val, 2)] })
  ∧ (∀ (w : Writer) (k : Fin 16) (s : State), May w R.PCR_CMD s → (s.chip.grp (s.chip.pcrRg k)).en = true → ∃ t, Sys2Proof.Machine.exec
      (.pacerEmergency w theKey k) s = .next t ∧
    Only [] [.str] s t ∧ t.chip.str = { s.chip.str with pcrCmds := s.chip.str.pcrCmds ++ [(k.val, 3)] })
  ∧ (∀ (w : Writer) (k : Fin 16) (s : State), May w R.PCR_CMD s → (s.chip.grp (s.chip.pcrRg k)).en = true → ∃ t, Sys2Proof.Machine.exec
      (.pacerClearEmergency w theKey k) s = .next t ∧
    Only [] [.str] s t ∧ t.chip.str = { s.chip.str with pcrCmds := s.chip.str.pcrCmds ++ [(k.val, 4)] })

/-- O49 (R229, R309, R311, R323, R327, R330, R339, R341, R342, R186). PWM timebases and channels, output ports and mask: what each command
does where it takes effect. OUTPUT_PORT_WRITE puts the converted word into the shadow register CMP_A, with its written bit and its
stamp. OUTPUT_PORT_WRITE puts the converted word into the shadow register CMP_B, with its written bit and its stamp. OUTPUT_PORT_WRITE
puts the converted word into the shadow register PERIOD, with its written bit and its stamp. PERIOD_START of a running timebase starts
its next period: CNT at 0, PCOUNT one higher, the up half. Of one whose start is due it starts the timebase. Of one whose RUN is cleared
it stops it. PEAK_EVENT of an up-down timebase in its up half starts the down half. COMPARE_EDGE of an edge that the codes place in this
segment gives the compare state its level. DEAD_TIME_EXPIRY while GL is low lets GH follow its request. DEAD_TIME_EXPIRY while GH is low
lets GL follow its request. MINPW_HOLD_EXPIRY places the held edge, the minimum pulse after the last. MASK_STEP in the cycle of another
is counted as merged. Any other advances the pending index by one, modulo LEN. MASK_SET loads the pending index. MASK_APPLY makes the
pending index the applied one. With APPLY set the change belongs to a reload of CFG.TB and the row changes nothing. BLANK_WINDOW_END
ends the window of the trip source. A change that came inside it is taken then. Or of the comparator, whose change then counts. Commands
that complete (exec answers a next state): outputPortWrite, periodStart, peakEvent, compareEdge, deadTimeExpiry, minpwHoldExpiry,
maskStep, maskSet, maskApply, blankWindowEnd. -/
def Obligations.PwmCommands : Prop :=
  (∀ (port : Fin 48) (lat : BitVec 16) (p : PortWr) (s : State), Awake P.STR s → s.chip.str.ports.find? (fun p => decide (p.port =
      port.val)) = some p → fget (s.chip.rd (R.STR_OUT_CFG port)) F.STR_OUT_CFG_EN = 1 → s.chip.portBad port = false → fget (s.chip.rd
      (R.STR_OUT_CFG port)) F.STR_OUT_CFG_HOLD_STALE = 0 → fget (s.chip.rd (R.STR_OUT_CFG port)) F.STR_OUT_CFG_IMM = 0 → fget (s.chip.rd
      (R.STR_OUT_CFG port)) F.STR_OUT_CFG_REG = 0 → ∃ t, Sys2Proof.Machine.exec (.outputPortWrite port lat) s = .next t ∧
    Only [R.STR_OUT_STAMP_LO port, R.STR_OUT_STAMP_HI port, R.STR_OUT_INFO port, R.PWMC_CMP_A (fget (s.chip.rd (R.STR_OUT_CFG port))
      F.STR_OUT_CFG_CH), R.PWMC_STAT (fget (s.chip.rd (R.STR_OUT_CFG port)) F.STR_OUT_CFG_CH)] [.str] s t ∧ t.chip.rd (R.PWMC_CMP_A
      (fget (s.chip.rd (R.STR_OUT_CFG port)) F.STR_OUT_CFG_CH)) = wd (s.chip.portCode (s.chip.rd (R.STR_OUT_CFG port)) p.word) ∧
      t.chip.is (R.PWMC_STAT (fget (s.chip.rd (R.STR_OUT_CFG port)) F.STR_OUT_CFG_CH)) F.PWMC_STAT_A_W = true ∧ t.chip.rd64
      (R.STR_OUT_STAMP_LO port) = s.chip.htNs % 2 ^ 64 ∧ t.chip.str = { s.chip.str with ports := s.chip.str.ports.erase p })
  ∧ (∀ (port : Fin 48) (lat : BitVec 16) (p : PortWr) (s : State), Awake P.STR s → s.chip.str.ports.find? (fun p => decide (p.port =
      port.val)) = some p → fget (s.chip.rd (R.STR_OUT_CFG port)) F.STR_OUT_CFG_EN = 1 → s.chip.portBad port = false → fget (s.chip.rd
      (R.STR_OUT_CFG port)) F.STR_OUT_CFG_HOLD_STALE = 0 → fget (s.chip.rd (R.STR_OUT_CFG port)) F.STR_OUT_CFG_IMM = 0 → fget (s.chip.rd
      (R.STR_OUT_CFG port)) F.STR_OUT_CFG_REG = 1 → ∃ t, Sys2Proof.Machine.exec (.outputPortWrite port lat) s = .next t ∧
    Only [R.STR_OUT_STAMP_LO port, R.STR_OUT_STAMP_HI port, R.STR_OUT_INFO port, R.PWMC_CMP_B (fget (s.chip.rd (R.STR_OUT_CFG port))
      F.STR_OUT_CFG_CH), R.PWMC_STAT (fget (s.chip.rd (R.STR_OUT_CFG port)) F.STR_OUT_CFG_CH)] [.str] s t ∧ t.chip.rd (R.PWMC_CMP_B
      (fget (s.chip.rd (R.STR_OUT_CFG port)) F.STR_OUT_CFG_CH)) = wd (s.chip.portCode (s.chip.rd (R.STR_OUT_CFG port)) p.word) ∧
      t.chip.is (R.PWMC_STAT (fget (s.chip.rd (R.STR_OUT_CFG port)) F.STR_OUT_CFG_CH)) F.PWMC_STAT_B_W = true ∧ t.chip.rd64
      (R.STR_OUT_STAMP_LO port) = s.chip.htNs % 2 ^ 64 ∧ t.chip.str = { s.chip.str with ports := s.chip.str.ports.erase p })
  ∧ (∀ (port : Fin 48) (lat : BitVec 16) (p : PortWr) (s : State), Awake P.STR s → s.chip.str.ports.find? (fun p => decide (p.port =
      port.val)) = some p → fget (s.chip.rd (R.STR_OUT_CFG port)) F.STR_OUT_CFG_EN = 1 → s.chip.portBad port = false → fget (s.chip.rd
      (R.STR_OUT_CFG port)) F.STR_OUT_CFG_HOLD_STALE = 0 → fget (s.chip.rd (R.STR_OUT_CFG port)) F.STR_OUT_CFG_IMM = 0 → fget (s.chip.rd
      (R.STR_OUT_CFG port)) F.STR_OUT_CFG_REG = 2 → ∃ t, Sys2Proof.Machine.exec (.outputPortWrite port lat) s = .next t ∧
    Only [R.STR_OUT_STAMP_LO port, R.STR_OUT_STAMP_HI port, R.STR_OUT_INFO port, R.PWMC_PERIOD (fget (s.chip.rd (R.STR_OUT_CFG port))
      F.STR_OUT_CFG_CH), R.PWMC_STAT (fget (s.chip.rd (R.STR_OUT_CFG port)) F.STR_OUT_CFG_CH)] [.str] s t ∧ t.chip.rd (R.PWMC_PERIOD
      (fget (s.chip.rd (R.STR_OUT_CFG port)) F.STR_OUT_CFG_CH)) = wd (s.chip.portCode (s.chip.rd (R.STR_OUT_CFG port)) p.word) ∧
      t.chip.is (R.PWMC_STAT (fget (s.chip.rd (R.STR_OUT_CFG port)) F.STR_OUT_CFG_CH)) F.PWMC_STAT_PER_W = true ∧ t.chip.rd64
      (R.STR_OUT_STAMP_LO port) = s.chip.htNs % 2 ^ 64 ∧ t.chip.str = { s.chip.str with ports := s.chip.str.ports.erase p })
  ∧ (∀ (n : Fin 4) (s : State), Awake P.PWT s → (s.chip.tb n).startDue = false → s.chip.tbRuns n = true → s.chip.bit R.PWT_CTL n = true →
      s.chip.tbBad n = false → ∃ t, Sys2Proof.Machine.exec (.periodStart n) s = .next t ∧
    Quiet s t ∧ t.chip.rdN (R.PWT_TB_CNT n) = 0 ∧ t.chip.rdN (R.PWT_TB_PCOUNT n) = (s.chip.rdN (R.PWT_TB_PCOUNT n) + 1) % 2 ^ 32 ∧
      t.chip.is (R.PWT_TB_STAT n) F.PWT_TB_STAT_DOWN = false)
  ∧ (∀ (n : Fin 4) (s : State), Awake P.PWT s → (s.chip.tb n).startDue = true → ∃ t, Sys2Proof.Machine.exec (.periodStart n) s = .next t ∧
    Quiet s t ∧ t.chip.rdN (R.PWT_TB_CNT n) = 0 ∧ t.chip.rdN (R.PWT_TB_PCOUNT n) = (s.chip.rdN (R.PWT_TB_PCOUNT n) + 1) % 2 ^ 32 ∧
      t.chip.tbRuns n = true)
  ∧ (∀ (n : Fin 4) (s : State), Awake P.PWT s → (s.chip.tb n).startDue = false → s.chip.tbRuns n = true → s.chip.bit R.PWT_CTL n = false → ∃
      t, Sys2Proof.Machine.exec (.periodStart n) s = .next t ∧
    Quiet s t ∧ t.chip.tbRuns n = false)
  ∧ (∀ (n : Fin 4) (s : State), Awake P.PWT s → s.chip.tbRuns n = true → s.chip.tbUd n = true → s.chip.is (R.PWT_TB_STAT n)
      F.PWT_TB_STAT_DOWN = false → ∃ t, Sys2Proof.Machine.exec (.peakEvent n) s = .next t ∧
    Quiet s t ∧ t.chip.is (R.PWT_TB_STAT n) F.PWT_TB_STAT_DOWN = true)
  ∧ (∀ (k : Fin 16) (rise : Bool) (e : Int × Bool) (s : State), Awake (P.PWMC k) s → (s.chip.chEdges k (s.chip.tb (s.chip.chTb
      k)).half).find? (fun q => decide (q.2 = rise) && decide ((if (s.chip.is (R.PWT_TB_STAT (s.chip.chTb k)) F.PWT_TB_STAT_DOWN) then
      (s.chip.tb (s.chip.chTb k)).half else 0) < q.1) && decide (q.1 < (if (s.chip.tbUd (s.chip.chTb k) && !(s.chip.is (R.PWT_TB_STAT
      (s.chip.chTb k)) F.PWT_TB_STAT_DOWN)) then (s.chip.tb (s.chip.chTb k)).half else (s.chip.tb (s.chip.chTb k)).len)) && decide
      ((s.chip.pch k).start ≤ q.1)) = some e → s.chip.tbRuns (s.chip.chTb k) = true → (s.chip.pch k).cmp ≠ rise → k.val <
      s.chip.pwm.ch.length → ∃ t, Sys2Proof.Machine.exec (.compareEdge k rise) s = .next t ∧
    Quiet s t ∧ (t.chip.pch k).cmp = rise)
  ∧ (∀ (k : Fin 16) (s : State), Awake (P.PWMC k) s → s.chip.is (R.PWMC_STAT k) F.PWMC_STAT_GL = false → s.chip.gdiSrc k = 0 →
      s.chip.pwm.gdi.all (fun x => !x.shoot) = true → k.val < s.chip.pwm.ch.length → ∃ t, Sys2Proof.Machine.exec (.deadTimeExpiry k
      true) s = .next t ∧
    Quiet s t ∧ t.chip.is (R.PWMC_STAT k) F.PWMC_STAT_GH = (s.chip.chReq k).1)
  ∧ (∀ (k : Fin 16) (s : State), Awake (P.PWMC k) s → s.chip.is (R.PWMC_STAT k) F.PWMC_STAT_GH = false → s.chip.gdiSrc k = 0 →
      s.chip.pwm.gdi.all (fun x => !x.shoot) = true → k.val < s.chip.pwm.ch.length → ∃ t, Sys2Proof.Machine.exec (.deadTimeExpiry k
      false) s = .next t ∧
    Quiet s t ∧ t.chip.is (R.PWMC_STAT k) F.PWMC_STAT_GL = (s.chip.chReq k).2)
  ∧ (∀ (k : Fin 16) (lvl : Bool) (s : State), Awake (P.PWMC k) s → (s.chip.pch k).held = some lvl → k.val < s.chip.pwm.ch.length → ∃ t,
      Sys2Proof.Machine.exec (.minpwHoldExpiry k) s = .next t ∧
    Quiet s t ∧ (t.chip.pch k).req = lvl ∧ (t.chip.pch k).held = none ∧ (t.chip.pch k).lastEdge = some ((s.chip.pch k).lastEdge.getD 0 +
      32 * s.chip.f (R.PWMC_MINPW k) F.PWMC_MINPW_MINPW))
  ∧ (∀ (w : Writer) (s : State), May w R.MASK_CMD s → ∃ t, Sys2Proof.Machine.exec (.maskStep w theKey true) s = .next t ∧
    Only [R.MASK_STAT] [] s t ∧ t.chip.f R.MASK_STAT F.MASK_STAT_MERGED = min (s.chip.f R.MASK_STAT F.MASK_STAT_MERGED + 1) (2 ^
      F.MASK_STAT_MERGED.width - 1) ∧ t.chip.f R.MASK_STAT F.MASK_STAT_PENDING = s.chip.f R.MASK_STAT F.MASK_STAT_PENDING)
  ∧ (∀ (w : Writer) (s : State), May w R.MASK_CMD s → s.chip.f R.MASK_CFG F.MASK_CFG_LEN ≤ 8 → ∃ t, Sys2Proof.Machine.exec (.maskStep w
      theKey false) s = .next t ∧
    Only [R.MASK_STAT] [] s t ∧ t.chip.f R.MASK_STAT F.MASK_STAT_PENDING = (s.chip.f R.MASK_STAT F.MASK_STAT_PENDING + 1) % (if s.chip.f
      R.MASK_CFG F.MASK_CFG_LEN = 0 then 8 else s.chip.f R.MASK_CFG F.MASK_CFG_LEN))
  ∧ (∀ (w : Writer) (index : Fin 8) (s : State), May w R.MASK_CMD s → ∃ t, Sys2Proof.Machine.exec (.maskSet w theKey index) s = .next t ∧
    Only [R.MASK_STAT] [] s t ∧ t.chip.f R.MASK_STAT F.MASK_STAT_PENDING = index.val ∧ t.chip.f R.MASK_STAT F.MASK_STAT_INDEX = s.chip.f
      R.MASK_STAT F.MASK_STAT_INDEX)
  ∧ (∀ (s : State), Awake P.MASK s → s.chip.is R.MASK_CFG F.MASK_CFG_APPLY = false → s.chip.f R.MASK_STAT F.MASK_STAT_PENDING ≠ s.chip.f
      R.MASK_STAT F.MASK_STAT_INDEX → ∃ t, Sys2Proof.Machine.exec (.maskApply) s = .next t ∧
    Quiet s t ∧ t.chip.f R.MASK_STAT F.MASK_STAT_INDEX = s.chip.f R.MASK_STAT F.MASK_STAT_PENDING)
  ∧ (∀ (s : State), s.chip.is R.MASK_CFG F.MASK_CFG_APPLY = true → ∃ t, Sys2Proof.Machine.exec (.maskApply) s = .next t ∧
    t = s)
  ∧ (∀ (n : Fin 16) (s : State), s.chip.powered = true → (s.chip.trp n).due = none → ∃ t, Sys2Proof.Machine.exec (.blankWindowEnd true n) s =
      .next t ∧
    Only [R.TRIP_SRC_STAT n] [.lap, .pwm] s t ∧ t.chip.is (R.TRIP_SRC_STAT n) F.TRIP_SRC_STAT_IN_BLANK = false)
  ∧ (∀ (n : Fin 16) (on : Bool) (s : State), s.chip.powered = true → (s.chip.trp n).due = some on → s.chip.is (R.TRIP_SRC_CFG n)
      F.TRIP_SRC_CFG_EN = true → s.chip.tripBad n = false → (s.chip.tripInput n).getD on = on → ∃ t, Sys2Proof.Machine.exec
      (.blankWindowEnd true n) s = .next t ∧
    Quiet s t ∧ t.chip.is (R.TRIP_SRC_STAT n) F.TRIP_SRC_STAT_IN_BLANK = false ∧ t.chip.is (R.TRIP_SRC_STAT n) F.TRIP_SRC_STAT_ASSERTED
      = on ∧ (t.chip.trp n).due = none)
  ∧ (∀ (n : Fin 16) (s : State), s.chip.powered = true → (s.chip.acmp n).blank = true → n.val < s.chip.meas.acmp.length → ∃ t,
      Sys2Proof.Machine.exec (.blankWindowEnd false n) s = .next t ∧
    Quiet s t ∧ (t.chip.acmp n).blank = false ∧ t.chip.is (R.ACMP_CH_STAT n) F.ACMP_CH_STAT_IN_BLANK = false)

/-- O50 (R330). PWMC.CMD arms and discards the shadow registers. PWMC_ARM with something written arms the shadow. With nothing written it
has no effect. PWMC_DISCARD clears every written bit and ARMED; the loaded values stay. Commands that complete (exec answers a next
state): pwmcArm, pwmcDiscard. -/
def Obligations.PwmShadowCommands : Prop :=
  (∀ (w : Writer) (k : Fin 16) (s : State), May w (R.PWMC_CMD k) s → (s.chip.is (R.PWMC_STAT k) F.PWMC_STAT_A_W = true ∨ s.chip.is
      (R.PWMC_STAT k) F.PWMC_STAT_B_W = true ∨ s.chip.is (R.PWMC_STAT k) F.PWMC_STAT_PER_W = true) → k.val < s.chip.pwm.ch.length → ∃ t,
      Sys2Proof.Machine.exec (.pwmcArm w theKey k) s = .next t ∧
    Only [R.PWMC_STAT k] [.pwm] s t ∧ (t.chip.pch k).armed = true ∧ t.chip.f (R.PWMC_STAT k) F.PWMC_STAT_SHADOW = 3)
  ∧ (∀ (w : Writer) (k : Fin 16) (s : State), May w (R.PWMC_CMD k) s → s.chip.is (R.PWMC_STAT k) F.PWMC_STAT_A_W = false → s.chip.is
      (R.PWMC_STAT k) F.PWMC_STAT_B_W = false → s.chip.is (R.PWMC_STAT k) F.PWMC_STAT_PER_W = false → ∃ t, Sys2Proof.Machine.exec
      (.pwmcArm w theKey k) s = .next t ∧
    t = s)
  ∧ (∀ (w : Writer) (k : Fin 16) (s : State), May w (R.PWMC_CMD k) s → ∃ t, Sys2Proof.Machine.exec (.pwmcDiscard w theKey k) s = .next t ∧
    Only [R.PWMC_STAT k] [.pwm] s t ∧ (t.chip.pch k).armed = false ∧ t.chip.is (R.PWMC_STAT k) F.PWMC_STAT_A_W = false ∧ t.chip.is
      (R.PWMC_STAT k) F.PWMC_STAT_B_W = false ∧ t.chip.is (R.PWMC_STAT k) F.PWMC_STAT_PER_W = false)

/-- O51 (R344, R345, R347, R348). Trip block: what each command does where it takes effect. TRIP_SOURCE_ASSERT of an enabled, unblanked
source shows and counts it. With the action off it removes both requests of every channel in its mask. TRIP_SOURCE_DEASSERT shows that
the input is gone. Inside a blanking window the change is held to its end. Inside a blanking window the change is held to its end.
TRIP_CLEAR of a latched source whose input is gone is accepted. Of one that holds no channel it ends the latch at once. With the input
still there it is recorded as STATE and refused. With no source latched it has no effect. Commands that complete (exec answers a next
state): tripSourceAssert, tripSourceDeassert, tripClear. -/
def Obligations.TripCommands : Prop :=
  (∀ (k : Fin 16) (st : Bool) (s : State), s.chip.powered = true → s.chip.is (R.TRIP_SRC_CFG k) F.TRIP_SRC_CFG_EN = true → s.chip.tripBad k
      = false → (s.chip.is (R.TRIP_SRC_STAT k) F.TRIP_SRC_STAT_IN_BLANK = false ∨ st = true) → s.chip.is (R.TRIP_SRC_STAT k)
      F.TRIP_SRC_STAT_ASSERTED = false → (s.chip.tripInput k).getD true = true → ∃ t, Sys2Proof.Machine.exec (.tripSourceAssert k st) s
      = .next t ∧
    Quiet s t ∧ t.chip.is (R.TRIP_SRC_STAT k) F.TRIP_SRC_STAT_ASSERTED = true ∧ t.chip.is (R.TRIP_SRC_STAT k) F.TRIP_SRC_STAT_TRIP_SEEN
      = true ∧ t.chip.f (R.TRIP_SRC_STAT k) F.TRIP_SRC_STAT_COUNT = min (s.chip.f (R.TRIP_SRC_STAT k) F.TRIP_SRC_STAT_COUNT + 1) (2 ^
      F.TRIP_SRC_STAT_COUNT.width - 1))
  ∧ (∀ (k : Fin 16) (st : Bool) (s : State), s.chip.powered = true → s.chip.is (R.TRIP_SRC_CFG k) F.TRIP_SRC_CFG_EN = true → s.chip.tripBad k
      = false → (s.chip.is (R.TRIP_SRC_STAT k) F.TRIP_SRC_STAT_IN_BLANK = false ∨ st = true) → s.chip.is (R.TRIP_SRC_STAT k)
      F.TRIP_SRC_STAT_ASSERTED = false → (s.chip.tripInput k).getD true = true → s.chip.is (R.TRIP_SRC_CFG k) F.TRIP_SRC_CFG_ACTION =
      false → ∃ t, Sys2Proof.Machine.exec (.tripSourceAssert k st) s = .next t ∧
    Quiet s t ∧ (∀ n < 16, nbit (s.chip.f (R.TRIP_SRC_CFG k) F.TRIP_SRC_CFG_CH) n = true → t.chip.chReq n = (false, false)))
  ∧ (∀ (k : Fin 16) (st : Bool) (s : State), s.chip.powered = true → s.chip.is (R.TRIP_SRC_STAT k) F.TRIP_SRC_STAT_ASSERTED = true →
      (s.chip.is (R.TRIP_SRC_STAT k) F.TRIP_SRC_STAT_IN_BLANK = false ∨ st = true) → (s.chip.tripInput k).getD false = false → ∃ t,
      Sys2Proof.Machine.exec (.tripSourceDeassert k st) s = .next t ∧
    Quiet s t ∧ t.chip.is (R.TRIP_SRC_STAT k) F.TRIP_SRC_STAT_ASSERTED = false)
  ∧ (∀ (k : Fin 16) (s : State), s.chip.powered = true → s.chip.is (R.TRIP_SRC_STAT k) F.TRIP_SRC_STAT_IN_BLANK = true → ∃ t,
      Sys2Proof.Machine.exec (.tripSourceAssert k false) s = .next t ∧
    Only [] [.pwm] s t ∧ t.chip.pwm = { s.chip.pwm with trip := upd s.chip.pwm.trip k (fun x => { x with due := some true }) })
  ∧ (∀ (k : Fin 16) (s : State), s.chip.powered = true → s.chip.is (R.TRIP_SRC_STAT k) F.TRIP_SRC_STAT_IN_BLANK = true → ∃ t,
      Sys2Proof.Machine.exec (.tripSourceDeassert k false) s = .next t ∧
    Only [] [.pwm] s t ∧ t.chip.pwm = { s.chip.pwm with trip := upd s.chip.pwm.trip k (fun x => { x with due := some false }) })
  ∧ (∀ (w : Writer) (m : BitVec 16) (k : Fin 16) (s : State), May w R.TRIP_CMD s → m.toNat = 2 ^ k.val → s.chip.is (R.TRIP_SRC_STAT k)
      F.TRIP_SRC_STAT_LATCHED = true → s.chip.f (R.TRIP_SRC_CFG k) F.TRIP_SRC_CFG_MODE = 2 → s.chip.is (R.TRIP_SRC_STAT k)
      F.TRIP_SRC_STAT_ASSERTED = false → (s.chip.trp k).held ≠ 0 → ∃ t, Sys2Proof.Machine.exec (.tripClear w theKey m) s = .next t ∧
    Only [] [.pwm] s t ∧ t.chip.pwm = { s.chip.pwm with trip := upd s.chip.pwm.trip k (fun x => { x with cleared := true }) })
  ∧ (∀ (w : Writer) (m : BitVec 16) (k : Fin 16) (s : State), May w R.TRIP_CMD s → m.toNat = 2 ^ k.val → s.chip.is (R.TRIP_SRC_STAT k)
      F.TRIP_SRC_STAT_LATCHED = true → s.chip.f (R.TRIP_SRC_CFG k) F.TRIP_SRC_CFG_MODE = 2 → s.chip.is (R.TRIP_SRC_STAT k)
      F.TRIP_SRC_STAT_ASSERTED = false → (s.chip.trp k).held = 0 → ∃ t, Sys2Proof.Machine.exec (.tripClear w theKey m) s = .next t ∧
    Only [R.TRIP_SRC_STAT k] [] s t ∧ t.chip.is (R.TRIP_SRC_STAT k) F.TRIP_SRC_STAT_LATCHED = false)
  ∧ (∀ (w : Writer) (m : BitVec 16) (k : Fin 16) (s : State), May w R.TRIP_CMD s → m.toNat = 2 ^ k.val → s.chip.is (R.TRIP_SRC_STAT k)
      F.TRIP_SRC_STAT_LATCHED = true → s.chip.f (R.TRIP_SRC_CFG k) F.TRIP_SRC_CFG_MODE = 2 → s.chip.is (R.TRIP_SRC_STAT k)
      F.TRIP_SRC_STAT_ASSERTED = true → ∃ t, Sys2Proof.Machine.exec (.tripClear w theKey m) s = .next t ∧
    Quiet s t ∧ t.chip = (s.chip.refuse R.TRIP_CMD w.ini.code).raise P.TRIP 1)
  ∧ (∀ (w : Writer) (m : BitVec 16) (s : State), May w R.TRIP_CMD s → ((∀ k < 16, s.chip.is (R.TRIP_SRC_STAT k) F.TRIP_SRC_STAT_LATCHED =
      false)) → ∃ t, Sys2Proof.Machine.exec (.tripClear w theKey m) s = .next t ∧
    t = s)

/-- O52 (R358, R359, R360, R361, R362, R365, R366, R376). Gate drive: fabric-timed commands and pins, what each command does where it takes
effect. GATE_CMD_RX puts an entry that is not late into its queue by its time, in place of one with the same time. GATE_ENTRY_EXECUTE
takes the first entry; its requests hold. Of a late one only the turn-off part. Before its time an entry stays. A command that arrives
in that cycle wins (R37). GATE_CMD_TIMEOUT sets both requests off. LEGACY_PIN_CHANGE shows the filtered pins. DT_MIN_EXPIRY lets a GH
rise that waited happen. And a GL rise. GFLT_ASSERT holds both gates low at once, without a clock. Released, it shows the cause gone.
REFRESH_NOTCH_END ends the notch; the count restarts at 0. Commands that complete (exec answers a next state): gateCmdRx,
gateEntryExecute, gateCmdTimeout, legacyPinChange, dtMinExpiry, gfltAssert, refreshNotchEnd. -/
def Obligations.GateCommandCommands : Prop :=
  (∀ (p : Packet) (s : State), s.chip.powered = true → s.chip.time.gated = false → s.chip.admitted p = none → p.body.length = 4 → (p.w 0) /
      2 ^ 26 % 4 < 3 → (s.chip.gdi ((p.w 0) / 2 ^ 28)).queue.length < 8 → s.chip.time.ht + 5 * 2 ^ 48 ≤ (gateTime (p.w64 2) ((p.w 0) / 2
      ^ 21 % 32) : Nat) * 2 ^ 41 → s.chip.pwm.gdi.length = 16 → ∃ t, Sys2Proof.Machine.exec (.gateCmdRx p) s = .next t ∧
    Quiet s t ∧ (t.chip.gdi ((p.w 0) / 2 ^ 28)).queue = (s.chip.gdi ((p.w 0) / 2 ^ 28)).queue.filter (fun q => decide (gateTime q.t q.f
      < gateTime (p.w64 2) ((p.w 0) / 2 ^ 21 % 32))) ++ ⟨p.w64 2, (p.w 0) / 2 ^ 21 % 32, (p.w 0) / 2 ^ 26 % 4, false, s.chip.time.cyc +
      2⟩ :: (s.chip.gdi ((p.w 0) / 2 ^ 28)).queue.filter (fun q => decide (gateTime (p.w64 2) ((p.w 0) / 2 ^ 21 % 32) < gateTime q.t
      q.f)))
  ∧ (∀ (n : Fin 16) (q : GateEnt) (r : List GateEnt) (s : State), Awake (P.GDI n) s → (s.chip.gdi n).queue = q :: r → q.late = false →
      s.chip.gateDue q = true → s.chip.gdiSrc n ≠ 1 → n.val < s.chip.pwm.gdi.length → ∃ t, Sys2Proof.Machine.exec (.gateEntryExecute n)
      s = .next t ∧
    Quiet s t ∧ (t.chip.gdi n).queue = r ∧ t.chip.f (R.GDI_FQ_STAT n) F.GDI_FQ_STAT_CUR_ST = q.st % 4 ∧ (t.chip.gdi n).fabH = decide
      (q.st = 1) ∧ (t.chip.gdi n).fabL = decide (q.st = 2))
  ∧ (∀ (n : Fin 16) (q : GateEnt) (r : List GateEnt) (s : State), Awake (P.GDI n) s → (s.chip.gdi n).queue = q :: r → q.late = true →
      s.chip.gateDue q = true → s.chip.gdiSrc n ≠ 1 → n.val < s.chip.pwm.gdi.length → ∃ t, Sys2Proof.Machine.exec (.gateEntryExecute n)
      s = .next t ∧
    Quiet s t ∧ (t.chip.gdi n).queue = r ∧ (t.chip.gdi n).fabH = false ∧ (t.chip.gdi n).fabL = false)
  ∧ (∀ (n : Fin 16) (q : GateEnt) (r : List GateEnt) (s : State), Awake (P.GDI n) s → (s.chip.gdi n).queue = q :: r → s.chip.gateDue q =
      false → ∃ t, Sys2Proof.Machine.exec (.gateEntryExecute n) s = .next t ∧
    Only [] [] s t)
  ∧ (∀ (n : Fin 16) (s : State), s.chip.powered = true → s.chip.time.gated = false → ∃ t, Sys2Proof.Machine.exec (.gateCmdTimeout n true) s =
      .next t ∧
    Only [] [] s t)
  ∧ (∀ (n : Fin 16) (s : State), Awake (P.GDI n) s → s.chip.f (R.GDI_FCMD n) F.GDI_FCMD_TMO_US ≠ 0 → ((s.chip.gdi n).fabH || (s.chip.gdi
      n).fabL) = true → n.val < s.chip.pwm.gdi.length → ∃ t, Sys2Proof.Machine.exec (.gateCmdTimeout n false) s = .next t ∧
    Quiet s t ∧ (t.chip.gdi n).fabH = false ∧ (t.chip.gdi n).fabL = false)
  ∧ (∀ (n : Fin 16) (pul pen : Bool) (s : State), Awake (P.GDI n) s → ∃ t, Sys2Proof.Machine.exec (.legacyPinChange n pul pen) s = .next t ∧
    Quiet s t ∧ t.chip.is (R.GDI_STAT n) F.GDI_STAT_PUL = pul ∧ t.chip.is (R.GDI_STAT n) F.GDI_STAT_PEN = pen)
  ∧ (∀ (n : Fin 16) (s : State), Awake (P.GDI n) s → s.chip.gdiReq n = (true, false) → (s.chip.gdi n).notch = false → (s.chip.gdi n).l =
      false → n.val < s.chip.pwm.gdi.length → ∃ t, Sys2Proof.Machine.exec (.dtMinExpiry n true) s = .next t ∧
    Quiet s t ∧ (t.chip.gdi n).h = true ∧ (t.chip.gdi n).dtH = false)
  ∧ (∀ (n : Fin 16) (s : State), Awake (P.GDI n) s → s.chip.gdiReq n = (false, true) → (s.chip.gdi n).h = false → n.val <
      s.chip.pwm.gdi.length → ∃ t, Sys2Proof.Machine.exec (.dtMinExpiry n false) s = .next t ∧
    Quiet s t ∧ (t.chip.gdi n).l = true ∧ (t.chip.gdi n).dtL = false)
  ∧ (∀ (n : Fin 16) (s : State), s.chip.powered = true → n.val < s.chip.pwm.gdi.length → ∃ t, Sys2Proof.Machine.exec (.gfltAssert n true) s =
      .next t ∧
    Quiet s t ∧ t.chip.is (R.GDI_STAT n) F.GDI_STAT_GFLT = true ∧ t.chip.is (R.GDI_STAT n) F.GDI_STAT_CAUSE_FLT = true ∧ (t.chip.gdi
      n).async = true ∧ t.chip.is (R.GDI_STAT n) F.GDI_STAT_GH = false ∧ t.chip.is (R.GDI_STAT n) F.GDI_STAT_GL = false)
  ∧ (∀ (n : Fin 16) (s : State), s.chip.powered = true → ∃ t, Sys2Proof.Machine.exec (.gfltAssert n false) s = .next t ∧
    Quiet s t ∧ t.chip.is (R.GDI_STAT n) F.GDI_STAT_GFLT = false ∧ t.chip.is (R.GDI_STAT n) F.GDI_STAT_CAUSE_FLT = false)
  ∧ (∀ (n : Fin 16) (s : State), Awake (P.GDI n) s → (s.chip.gdi n).notch = true → n.val < s.chip.pwm.gdi.length → ∃ t,
      Sys2Proof.Machine.exec (.refreshNotchEnd n) s = .next t ∧
    Quiet s t ∧ (t.chip.gdi n).notch = false ∧ (t.chip.gdi n).fullN = 0)

/-- O53 (R367, R368, R370, R371, R372, R374, R375). Gate drive: the retry state machine, what each command does where it takes effect.
GFLT_SYNC_FAULT in ACTIVE or RESUME counts a driver fault and waits to retry. Beyond RETRY.MAX it latches. Presented to the Sheepdog, it
latches the safe state. In any other state it only sets FLT_SEEN. Without a new assertion of GFLT nothing is counted. GRDY_LOSS in
ACTIVE or RESUME counts a ready loss. Elsewhere it is only shown. GRDY_READY with the supplies applied ends WAIT_RDY. SUP_OK_CHANGE to
no supplies ends ACTIVE or RESUME without a fault. To applied supplies it ends WAIT_RDY where the driver is ready. RETRY_WAIT_END with
no cause present goes to RESUME. With one it counts a further occurrence. RETRY_WINDOW_END clears the count, unless the instance is
LATCHED. GDI_CLR_STATS clears the counters. Commands that complete (exec answers a next state): gfltSyncFault, grdyLoss, grdyReady,
supOkChange, retryWaitEnd, retryWindowEnd, gdiClrStats. -/
def Obligations.GateFaultCommands : Prop :=
  (∀ (n : Fin 16) (s : State), s.chip.powered = true → (s.chip.gdi n).fresh = true → s.chip.is (R.GDI_CFG n) F.GDI_CFG_FLT_EN = true →
      n.val < s.chip.pwm.gdi.length → ((s.chip.gdiState n = Gs.active ∨ s.chip.gdiState n = Gs.resume)) → (s.chip.gdi n).n < s.chip.f
      (R.GDI_RETRY n) F.GDI_RETRY_MAX → ∃ t, Sys2Proof.Machine.exec (.gfltSyncFault n) s = .next t ∧
    Quiet s t ∧ t.chip.gdiState n = Gs.retryWait ∧ (t.chip.gdi n).n = (s.chip.gdi n).n + 1 ∧ t.chip.f (R.GDI_STAT n)
      F.GDI_STAT_LAST_CAUSE = 1 ∧ t.chip.rd64 (R.GDI_LAST_T n 0) = s.chip.htNs % 2 ^ 64 ∧ t.chip.f (R.GDI_CNT_0 n) F.GDI_CNT_0_DRV = min
      (s.chip.f (R.GDI_CNT_0 n) F.GDI_CNT_0_DRV + 1) (2 ^ F.GDI_CNT_0_DRV.width - 1))
  ∧ (∀ (n : Fin 16) (s : State), s.chip.powered = true → (s.chip.gdi n).fresh = true → s.chip.is (R.GDI_CFG n) F.GDI_CFG_FLT_EN = true →
      n.val < s.chip.pwm.gdi.length → ((s.chip.gdiState n = Gs.active ∨ s.chip.gdiState n = Gs.resume)) → s.chip.f (R.GDI_RETRY n)
      F.GDI_RETRY_MAX ≤ (s.chip.gdi n).n → ∃ t, Sys2Proof.Machine.exec (.gfltSyncFault n) s = .next t ∧
    Quiet s t ∧ t.chip.gdiState n = Gs.latched ∧ (t.chip.gdi n).n = (s.chip.gdi n).n + 1 ∧ t.chip.f (R.GDI_STAT n) F.GDI_STAT_LAST_CAUSE
      = 1 ∧ t.chip.rd64 (R.GDI_LAST_T n 0) = s.chip.htNs % 2 ^ 64 ∧ t.chip.f (R.GDI_CNT_0 n) F.GDI_CNT_0_DRV = min (s.chip.f
      (R.GDI_CNT_0 n) F.GDI_CNT_0_DRV + 1) (2 ^ F.GDI_CNT_0_DRV.width - 1))
  ∧ (∀ (n : Fin 16) (s : State), s.chip.powered = true → (s.chip.gdi n).fresh = true → s.chip.is (R.GDI_CFG n) F.GDI_CFG_FLT_EN = true →
      n.val < s.chip.pwm.gdi.length → ((s.chip.gdiState n = Gs.active ∨ s.chip.gdiState n = Gs.resume)) → s.chip.f (R.GDI_CFG n)
      F.GDI_CFG_SHD = 1 → ∃ t, Sys2Proof.Machine.exec (.gfltSyncFault n) s = .next t ∧
    Quiet s t ∧ t.chip.is R.SHD_STAT F.SHD_STAT_LATCH = true ∧ t.chip.mode = .safe)
  ∧ (∀ (n : Fin 16) (s : State), s.chip.powered = true → (s.chip.gdi n).fresh = true → s.chip.gdiState n ≠ Gs.active → s.chip.gdiState n ≠
      Gs.resume → ∃ t, Sys2Proof.Machine.exec (.gfltSyncFault n) s = .next t ∧
    Only [R.GDI_STAT n] [.lap, .pwm] s t ∧ t.chip.is (R.GDI_STAT n) F.GDI_STAT_FLT_SEEN = true ∧ t.chip.gdiState n = s.chip.gdiState n)
  ∧ (∀ (n : Fin 16) (s : State), s.chip.powered = true → (s.chip.gdi n).fresh = false → ∃ t, Sys2Proof.Machine.exec (.gfltSyncFault n) s =
      .next t ∧
    Only [] [.lap, .pwm] s t)
  ∧ (∀ (n : Fin 16) (s : State), s.chip.powered = true → s.chip.is (R.GDI_CFG n) F.GDI_CFG_RDY_EN = true → s.chip.is (R.GDI_STAT n)
      F.GDI_STAT_SUP_OK = true → n.val < s.chip.pwm.gdi.length → ((s.chip.gdiState n = Gs.active ∨ s.chip.gdiState n = Gs.resume)) →
      (s.chip.gdi n).n < s.chip.f (R.GDI_RETRY n) F.GDI_RETRY_MAX → ∃ t, Sys2Proof.Machine.exec (.grdyLoss n) s = .next t ∧
    Quiet s t ∧ t.chip.gdiState n = Gs.retryWait ∧ (t.chip.gdi n).n = (s.chip.gdi n).n + 1 ∧ t.chip.f (R.GDI_STAT n)
      F.GDI_STAT_LAST_CAUSE = 3 ∧ t.chip.rd64 (R.GDI_LAST_T n 0) = s.chip.htNs % 2 ^ 64 ∧ t.chip.f (R.GDI_CNT_1 n) F.GDI_CNT_1_RDY = min
      (s.chip.f (R.GDI_CNT_1 n) F.GDI_CNT_1_RDY + 1) (2 ^ F.GDI_CNT_1_RDY.width - 1) ∧ t.chip.is (R.GDI_STAT n) F.GDI_STAT_GRDY = false)
  ∧ (∀ (n : Fin 16) (s : State), s.chip.powered = true → s.chip.gdiState n ≠ Gs.active → s.chip.gdiState n ≠ Gs.resume → ∃ t,
      Sys2Proof.Machine.exec (.grdyLoss n) s = .next t ∧
    Quiet s t ∧ t.chip.is (R.GDI_STAT n) F.GDI_STAT_GRDY = false ∧ t.chip.gdiState n = s.chip.gdiState n)
  ∧ (∀ (n : Fin 16) (s : State), Awake (P.GDI n) s → s.chip.gdiState n = Gs.waitRdy → s.chip.is (R.GDI_STAT n) F.GDI_STAT_SUP_OK = true →
      s.chip.gdiSrc n ≠ 2 → ∃ t, Sys2Proof.Machine.exec (.grdyReady n) s = .next t ∧
    Quiet s t ∧ t.chip.gdiState n = Gs.resume ∧ t.chip.is (R.GDI_STAT n) F.GDI_STAT_GRDY = true)
  ∧ (∀ (n : Fin 16) (s : State), Awake (P.GDI n) s → s.chip.supOk n = false → ((s.chip.gdiState n = Gs.active ∨ s.chip.gdiState n =
      Gs.resume)) → ∃ t, Sys2Proof.Machine.exec (.supOkChange n) s = .next t ∧
    Quiet s t ∧ t.chip.is (R.GDI_STAT n) F.GDI_STAT_SUP_OK = false ∧ t.chip.gdiState n = Gs.waitRdy ∧ (t.chip.gdi n).n = (s.chip.gdi
      n).n)
  ∧ (∀ (n : Fin 16) (s : State), Awake (P.GDI n) s → s.chip.supOk n = true → s.chip.gdiState n = Gs.waitRdy → (s.chip.is (R.GDI_CFG n)
      F.GDI_CFG_RDY_EN = false ∨ s.chip.is (R.GDI_STAT n) F.GDI_STAT_GRDY = true) → s.chip.gdiSrc n ≠ 2 → ∃ t, Sys2Proof.Machine.exec
      (.supOkChange n) s = .next t ∧
    Quiet s t ∧ t.chip.is (R.GDI_STAT n) F.GDI_STAT_SUP_OK = true ∧ t.chip.gdiState n = Gs.resume)
  ∧ (∀ (n : Fin 16) (s : State), Awake (P.GDI n) s → s.chip.gdiState n = Gs.retryWait → s.chip.gdiCause n = none → s.chip.gdiSrc n ≠ 2 → ∃ t,
      Sys2Proof.Machine.exec (.retryWaitEnd n) s = .next t ∧
    Quiet s t ∧ t.chip.gdiState n = Gs.resume)
  ∧ (∀ (n : Fin 16) (s : State), Awake (P.GDI n) s → s.chip.gdiState n = Gs.retryWait → s.chip.gdiCause n = some 1 → (s.chip.gdi n).n <
      s.chip.f (R.GDI_RETRY n) F.GDI_RETRY_MAX → n.val < s.chip.pwm.gdi.length → ∃ t, Sys2Proof.Machine.exec (.retryWaitEnd n) s = .next
      t ∧
    Quiet s t ∧ t.chip.gdiState n = Gs.retryWait ∧ (t.chip.gdi n).n = (s.chip.gdi n).n + 1 ∧ t.chip.f (R.GDI_STAT n)
      F.GDI_STAT_LAST_CAUSE = 1 ∧ t.chip.rd64 (R.GDI_LAST_T n 0) = s.chip.htNs % 2 ^ 64 ∧ t.chip.f (R.GDI_CNT_0 n) F.GDI_CNT_0_DRV = min
      (s.chip.f (R.GDI_CNT_0 n) F.GDI_CNT_0_DRV + 1) (2 ^ F.GDI_CNT_0_DRV.width - 1))
  ∧ (∀ (n : Fin 16) (s : State), Awake (P.GDI n) s → (s.chip.gdi n).win = true → s.chip.gdiState n ≠ Gs.latched → n.val <
      s.chip.pwm.gdi.length → ∃ t, Sys2Proof.Machine.exec (.retryWindowEnd n) s = .next t ∧
    Quiet s t ∧ (t.chip.gdi n).n = 0 ∧ (t.chip.gdi n).win = false)
  ∧ (∀ (w : Writer) (n : Fin 16) (s : State), May w (R.GDI_CMD n) s → ∃ t, Sys2Proof.Machine.exec (.gdiClrStats w theKey n) s = .next t ∧
    Only [R.GDI_CNT_0 n, R.GDI_CNT_1 n, R.GDI_CNT_2 n] [] s t ∧ t.chip.rd (R.GDI_CNT_0 n) = 0 ∧ t.chip.rd (R.GDI_CNT_1 n) = 0 ∧
      t.chip.rd (R.GDI_CNT_2 n) = 0)

/-- O54 (R374, R375). Gate drive: CLEAR of a latched instance and injected causes. GDI_CLEAR of a latched instance with no cause present
clears n and the window and leaves LATCHED. In every other case it is refused and recorded with STATE in PG_ERR. GDI_INJECT_FLT in
READY, SAFE or REPLAY with the instance ACTIVE is taken as a real cause, with its count, cause and state, and is not presented to the
Sheepdog. In every other case it is refused and recorded with STATE in PG_ERR. GDI_INJECT_SHOOT in READY, SAFE or REPLAY with the
instance ACTIVE is taken as a real cause, with its count, cause and state, and is not presented to the Sheepdog. In every other case it
is refused and recorded with STATE in PG_ERR. GDI_INJECT_RDY in READY, SAFE or REPLAY with the instance ACTIVE is taken as a real cause,
with its count, cause and state, and is not presented to the Sheepdog. In every other case it is refused and recorded with STATE in
PG_ERR. Commands that complete (exec answers a next state): gdiClear, gdiInjectFlt, gdiInjectShoot, gdiInjectRdy. -/
def Obligations.GateRecoveryCommands : Prop :=
  (∀ (w : Writer) (n : Fin 16) (s : State), May w (R.GDI_CMD n) s → s.chip.gdiState n = Gs.latched → s.chip.gdiCause n = none → n.val <
      s.chip.pwm.gdi.length → ∃ t, Sys2Proof.Machine.exec (.gdiClear w theKey n) s = .next t ∧
    Quiet s t ∧ (t.chip.gdi n).n = 0 ∧ (t.chip.gdi n).win = false ∧ (t.chip.gdiState n = Gs.waitRdy ∨ t.chip.gdiState n = Gs.resume))
  ∧ (∀ (w : Writer) (n : Fin 16) (s : State), May w (R.GDI_CMD n) s → (s.chip.gdiState n ≠ Gs.latched ∨ (s.chip.gdiCause n).isNone = false) →
      ∃ t, Sys2Proof.Machine.exec (.gdiClear w theKey n) s = .next t ∧
    Quiet s t ∧ t.chip = s.chip.refuse (R.GDI_CMD n) w.ini.code ∧ t.chip.bit (P.GDI n + H.ERR) 6 = true ∧ t.chip.gdiState n =
      s.chip.gdiState n)
  ∧ (∀ (w : Writer) (n : Fin 16) (s : State), May w (R.GDI_CMD n) s → (s.chip.mode = .ready ∨ s.chip.mode = .safe ∨ s.chip.mode = .replay) →
      s.chip.gdiState n = Gs.active → n.val < s.chip.pwm.gdi.length → ∃ t, Sys2Proof.Machine.exec (.gdiInjectFlt w theKey n) s = .next t
      ∧
    Quiet s t ∧ t.chip.gdiState n = (if s.chip.f (R.GDI_RETRY n) F.GDI_RETRY_MAX < (s.chip.gdi n).n + 1 then Gs.latched else
      Gs.retryWait) ∧ (t.chip.gdi n).n = (s.chip.gdi n).n + 1 ∧ t.chip.f (R.GDI_STAT n) F.GDI_STAT_LAST_CAUSE = 1 ∧ t.chip.rd64
      (R.GDI_LAST_T n 0) = s.chip.htNs % 2 ^ 64 ∧ t.chip.f (R.GDI_CNT_0 n) F.GDI_CNT_0_DRV = min (s.chip.f (R.GDI_CNT_0 n)
      F.GDI_CNT_0_DRV + 1) (2 ^ F.GDI_CNT_0_DRV.width - 1) ∧ t.chip.mode = s.chip.mode ∧ t.chip.is R.SHD_STAT F.SHD_STAT_LATCH =
      s.chip.is R.SHD_STAT F.SHD_STAT_LATCH)
  ∧ (∀ (w : Writer) (n : Fin 16) (s : State), May w (R.GDI_CMD n) s → ((s.chip.mode ≠ .ready ∧ s.chip.mode ≠ .safe ∧ s.chip.mode ≠ .replay) ∨
      s.chip.gdiState n ≠ Gs.active) → ∃ t, Sys2Proof.Machine.exec (.gdiInjectFlt w theKey n) s = .next t ∧
    Quiet s t ∧ t.chip = s.chip.refuse (R.GDI_CMD n) w.ini.code ∧ t.chip.bit (P.GDI n + H.ERR) 6 = true ∧ t.chip.gdiState n =
      s.chip.gdiState n)
  ∧ (∀ (w : Writer) (n : Fin 16) (s : State), May w (R.GDI_CMD n) s → (s.chip.mode = .ready ∨ s.chip.mode = .safe ∨ s.chip.mode = .replay) →
      s.chip.gdiState n = Gs.active → n.val < s.chip.pwm.gdi.length → ∃ t, Sys2Proof.Machine.exec (.gdiInjectShoot w theKey n) s = .next
      t ∧
    Quiet s t ∧ t.chip.gdiState n = (if s.chip.f (R.GDI_RETRY n) F.GDI_RETRY_MAX < (s.chip.gdi n).n + 1 then Gs.latched else
      Gs.retryWait) ∧ (t.chip.gdi n).n = (s.chip.gdi n).n + 1 ∧ t.chip.f (R.GDI_STAT n) F.GDI_STAT_LAST_CAUSE = 2 ∧ t.chip.rd64
      (R.GDI_LAST_T n 0) = s.chip.htNs % 2 ^ 64 ∧ t.chip.f (R.GDI_CNT_0 n) F.GDI_CNT_0_SHOOT = min (s.chip.f (R.GDI_CNT_0 n)
      F.GDI_CNT_0_SHOOT + 1) (2 ^ F.GDI_CNT_0_SHOOT.width - 1) ∧ t.chip.mode = s.chip.mode ∧ t.chip.is R.SHD_STAT F.SHD_STAT_LATCH =
      s.chip.is R.SHD_STAT F.SHD_STAT_LATCH)
  ∧ (∀ (w : Writer) (n : Fin 16) (s : State), May w (R.GDI_CMD n) s → ((s.chip.mode ≠ .ready ∧ s.chip.mode ≠ .safe ∧ s.chip.mode ≠ .replay) ∨
      s.chip.gdiState n ≠ Gs.active) → ∃ t, Sys2Proof.Machine.exec (.gdiInjectShoot w theKey n) s = .next t ∧
    Quiet s t ∧ t.chip = s.chip.refuse (R.GDI_CMD n) w.ini.code ∧ t.chip.bit (P.GDI n + H.ERR) 6 = true ∧ t.chip.gdiState n =
      s.chip.gdiState n)
  ∧ (∀ (w : Writer) (n : Fin 16) (s : State), May w (R.GDI_CMD n) s → (s.chip.mode = .ready ∨ s.chip.mode = .safe ∨ s.chip.mode = .replay) →
      s.chip.gdiState n = Gs.active → n.val < s.chip.pwm.gdi.length → ∃ t, Sys2Proof.Machine.exec (.gdiInjectRdy w theKey n) s = .next t
      ∧
    Quiet s t ∧ t.chip.gdiState n = (if s.chip.f (R.GDI_RETRY n) F.GDI_RETRY_MAX < (s.chip.gdi n).n + 1 then Gs.latched else
      Gs.retryWait) ∧ (t.chip.gdi n).n = (s.chip.gdi n).n + 1 ∧ t.chip.f (R.GDI_STAT n) F.GDI_STAT_LAST_CAUSE = 3 ∧ t.chip.rd64
      (R.GDI_LAST_T n 0) = s.chip.htNs % 2 ^ 64 ∧ t.chip.f (R.GDI_CNT_1 n) F.GDI_CNT_1_RDY = min (s.chip.f (R.GDI_CNT_1 n)
      F.GDI_CNT_1_RDY + 1) (2 ^ F.GDI_CNT_1_RDY.width - 1) ∧ t.chip.mode = s.chip.mode ∧ t.chip.is R.SHD_STAT F.SHD_STAT_LATCH =
      s.chip.is R.SHD_STAT F.SHD_STAT_LATCH)
  ∧ (∀ (w : Writer) (n : Fin 16) (s : State), May w (R.GDI_CMD n) s → ((s.chip.mode ≠ .ready ∧ s.chip.mode ≠ .safe ∧ s.chip.mode ≠ .replay) ∨
      s.chip.gdiState n ≠ Gs.active) → ∃ t, Sys2Proof.Machine.exec (.gdiInjectRdy w theKey n) s = .next t ∧
    Quiet s t ∧ t.chip = s.chip.refuse (R.GDI_CMD n) w.ini.code ∧ t.chip.bit (P.GDI n + H.ERR) 6 = true ∧ t.chip.gdiState n =
      s.chip.gdiState n)

/-- O55 (R217, R249, R256, R257). Best-point tracker and completed evaluations: what each command does where it takes effect. RG_COMPLETE of
an evaluation that is over counts it, shows its latency and leaves the group idle. A trigger that was pending then completes. Whatever
units take words from it and whatever ECC finds in their words, the evaluation is counted. BPT_HOLD stops the decisions of an enabled
channel. BPT_RELEASE resumes them, as at first, with a new window with SKIP. BPT_RESTART starts the channel from START and DIR_INIT. In
P&O and INC it writes that reference to its slot. BPT_HOLD to a channel that is not enabled is recorded as STATE. BPT_RELEASE to a
channel that is not enabled is recorded as STATE. BPT_RESTART to a channel that is not enabled is recorded as STATE. Commands that
complete (exec answers a next state): rgComplete, bptHold, bptRelease, bptRestart. -/
def Obligations.TrackerCommands : Prop :=
  (∀ (g : Fin 8) (cycles : BitVec 16) (ecc : EccError) (s : State), Awake P.STR s → s.chip.evalOver g = true → (s.chip.grp g).pend = false
      → (s.chip.grp g).en = true → g.val < s.chip.str.grp.length → ((∀ k < 4, s.chip.bit R.BPT_CTL k = false)) → s.chip.hrd.run = false
      → s.chip.isl.run = false → s.chip.is R.IMP_CTL F.IMP_CTL_EN = false → ∃ t, Sys2Proof.Machine.exec (.rgComplete g cycles ecc) s =
      .next t ∧
    Quiet s t ∧ t.chip.rdN (R.STR_RG_CNT g) = (s.chip.rdN (R.STR_RG_CNT g) + 1) % 2 ^ 32 ∧ t.chip.f (R.STR_RG_LAT g) F.STR_RG_LAT_LAST =
      cycles.toNat ∧ t.chip.f (R.STR_RG_LAT g) F.STR_RG_LAT_MAX = max (s.chip.f (R.STR_RG_LAT g) F.STR_RG_LAT_MAX) cycles.toNat ∧
      (t.chip.grp g).busy = false ∧ (t.chip.grp g).disp = false)
  ∧ (∀ (g : Fin 8) (cycles : BitVec 16) (ecc : EccError) (s : State), Awake P.STR s → s.chip.evalOver g = true → (s.chip.grp g).pend = true →
      g.val < s.chip.str.grp.length → ((∀ k < 4, s.chip.bit R.BPT_CTL k = false)) → s.chip.hrd.run = false → s.chip.isl.run = false →
      s.chip.is R.IMP_CTL F.IMP_CTL_EN = false → ∃ t, Sys2Proof.Machine.exec (.rgComplete g cycles ecc) s = .next t ∧
    Quiet s t ∧ (t.chip.grp g).busy = true ∧ (t.chip.grp g).pend = false ∧ (t.chip.grp g).disp = false ∧ (t.chip.grp g).trigHt =
      s.chip.htNs)
  ∧ (∀ (g : Fin 8) (cycles : BitVec 16) (ecc : EccError) (s : State), Awake P.STR s → s.chip.evalOver g = true → ∃ t, Sys2Proof.Machine.exec
      (.rgComplete g cycles ecc) s = .next t ∧
    Quiet s t ∧ t.chip.rdN (R.STR_RG_CNT g) = (s.chip.rdN (R.STR_RG_CNT g) + 1) % 2 ^ 32 ∧ t.chip.f (R.STR_RG_LAT g) F.STR_RG_LAT_LAST =
      cycles.toNat)
  ∧ (∀ (w : Writer) (ch : Fin 4) (s : State), May w R.BPT_CMD s → s.chip.bit R.BPT_CTL ch = true → ∃ t, Sys2Proof.Machine.exec (.bptHold w
      theKey ch) s = .next t ∧
    Only [R.BPT_STAT] [] s t ∧ t.chip.bit R.BPT_STAT (12 + ch.val) = true)
  ∧ (∀ (w : Writer) (ch : Fin 4) (s : State), May w R.BPT_CMD s → s.chip.bit R.BPT_CTL ch = true → ch.val < s.chip.bpt.length → ∃ t,
      Sys2Proof.Machine.exec (.bptRelease w theKey ch) s = .next t ∧
    Only [R.BPT_STAT] [.bpt] s t ∧ t.chip.bit R.BPT_STAT (12 + ch.val) = false ∧ (t.chip.bptCh ch).first = true ∧ (t.chip.bptCh ch).due
      = some true)
  ∧ (∀ (w : Writer) (ch : Fin 4) (s : State), May w R.BPT_CMD s → s.chip.bit R.BPT_CTL ch = true → s.chip.bit R.BPT_STAT ch = false → ch.val
      < s.chip.bpt.length → ∃ t, Sys2Proof.Machine.exec (.bptRestart w theKey ch) s = .next t ∧
    Quiet s t ∧ (t.chip.bptCh ch).ref = wordF (s.chip.rd (R.BPT_CH_START ch)) ∧ (t.chip.bptCh ch).up = s.chip.is (R.BPT_CH_CFG ch)
      F.BPT_CH_CFG_DIR_INIT ∧ t.chip.is (R.BPT_CH_DEC ch) F.BPT_CH_DEC_DIR = s.chip.is (R.BPT_CH_CFG ch) F.BPT_CH_CFG_DIR_INIT ∧
      (t.chip.bptCh ch).first = true ∧ (t.chip.bptCh ch).due = some true)
  ∧ (∀ (w : Writer) (ch : Fin 4) (s : State), May w R.BPT_CMD s → s.chip.bit R.BPT_CTL ch = true → s.chip.bit R.BPT_STAT ch = false →
      s.chip.bptMode ch < 2 → s.chip.holds (Cl.bpt ch) (s.chip.bptOut ch) = true → ∃ t, Sys2Proof.Machine.exec (.bptRestart w theKey ch)
      s = .next t ∧
    Quiet s t ∧ t.chip.rd (Key.slot (s.chip.bptOut ch)) = ((wordF (s.chip.rd (R.BPT_CH_START ch))).slot (s.chip.fs (R.BPT_CH_CFG ch)
      F.BPT_CH_CFG_OUT_EXP)).word ∧ t.chip.rd (R.BPT_CH_REF ch) = t.chip.rd (Key.slot (s.chip.bptOut ch)))
  ∧ (∀ (w : Writer) (ch : Fin 4) (s : State), May w R.BPT_CMD s → s.chip.bit R.BPT_CTL ch = false → ∃ t, Sys2Proof.Machine.exec (.bptHold w
      theKey ch) s = .next t ∧
    Quiet s t ∧ t.chip = s.chip.refuse R.BPT_CMD w.ini.code)
  ∧ (∀ (w : Writer) (ch : Fin 4) (s : State), May w R.BPT_CMD s → s.chip.bit R.BPT_CTL ch = false → ∃ t, Sys2Proof.Machine.exec (.bptRelease
      w theKey ch) s = .next t ∧
    Quiet s t ∧ t.chip = s.chip.refuse R.BPT_CMD w.ini.code)
  ∧ (∀ (w : Writer) (ch : Fin 4) (s : State), May w R.BPT_CMD s → s.chip.bit R.BPT_CTL ch = false → ∃ t, Sys2Proof.Machine.exec (.bptRestart
      w theKey ch) s = .next t ∧
    Quiet s t ∧ t.chip = s.chip.refuse R.BPT_CMD w.ini.code)

/-- O56 (R277, R281, R282, R284, R287, R288, R298). Hurdle unit and islanding detectors: what each command does where it takes effect.
HRD_HOLD_TIMER_EXPIRY of the block timer ends its blocking; TRIPPED, and ZERO with ZERO_BLK, still block. Of the freeze timer it ends
the FREEZE word outside ZERO. While an input is STALE the outputs stand still and nothing ends. HRD_CLEAR_TRIP in TRIPPED goes to NORMAL
with every counter cleared. Elsewhere it changes nothing. HRD_CLEAR_STATS clears the counts and the records of the last event.
ISL_ENTRY_HIT of a voltage entry whose time is reached shows the hit; with the action TRIP it latches TRIPPED and blocks. With the
action ISLAND it latches ISLANDED. ISL_ENTRY_HIT of a frequency entry whose time is reached shows the hit; with the action TRIP it
latches TRIPPED and blocks. With the action ISLAND it latches ISLANDED. ISL_CLEAR ends the latched actions. RTS_TIMER shows that return
to service may go on. Commands that complete (exec answers a next state): hrdHoldTimerExpiry, hrdClearTrip, hrdClearStats, islEntryHit,
islClear, rtsTimer. -/
def Obligations.RideThroughCommands : Prop :=
  (∀ (x : Nat) (s : State), Awake P.HRD s → s.chip.hrd.stale = false → s.chip.hrd.block = some x → x ≤ s.chip.hrd.now → ∃ t,
      Sys2Proof.Machine.exec (.hrdHoldTimerExpiry true) s = .next t ∧
    Only [R.HRD_STAT] [.hrd] s t ∧ t.chip.hrd = { s.chip.hrd with block := none, blk := t.chip.hrd.blk } ∧ t.chip.hrd.blk = (decide
      (s.chip.hrdState = Hs.tripped) || (decide (s.chip.hrdState = Hs.zero) && s.chip.is R.HRD_CTL F.HRD_CTL_ZERO_BLK)) ∧ t.chip.is
      R.HRD_STAT F.HRD_STAT_BLK = t.chip.hrd.blk)
  ∧ (∀ (x : Nat) (s : State), Awake P.HRD s → s.chip.hrd.stale = false → s.chip.hrd.freeze = some x → x ≤ s.chip.hrd.now → s.chip.holds
      Cl.hrd ((s.chip.f R.HRD_CTL F.HRD_CTL_OUT_BASE + 1) % 1024) = true → ∃ t, Sys2Proof.Machine.exec (.hrdHoldTimerExpiry false) s =
      .next t ∧
    Quiet s t ∧ t.chip.hrd.freeze = none ∧ t.chip.is R.HRD_STAT F.HRD_STAT_FREEZE = decide (s.chip.hrdState = Hs.zero) ∧ t.chip.rd
      (Key.slot ((s.chip.f R.HRD_CTL F.HRD_CTL_OUT_BASE + 1) % 1024)) = oneWord (decide (s.chip.hrdState = Hs.zero)))
  ∧ (∀ (b : Bool) (s : State), Awake P.HRD s → s.chip.hrd.stale = true → ∃ t, Sys2Proof.Machine.exec (.hrdHoldTimerExpiry b) s = .next t ∧
    Only [] [] s t)
  ∧ (∀ (w : Writer) (s : State), May w R.HRD_CMD s → s.chip.hrdState = Hs.tripped → ∃ t, Sys2Proof.Machine.exec (.hrdClearTrip w theKey) s =
      .next t ∧
    OnlyEv [R.HRD_STAT] [.hrd] s t ∧ t.chip.hrdState = Hs.normal ∧ t.chip.f R.HRD_STAT F.HRD_STAT_PREV = Hs.tripped ∧ t.chip.hrd =
      { s.chip.hrd with dipF := 0, dipS := 0, zroF := 0, zroS := 0, swlF := 0, swlS := 0, rcv := 0, zex := 0, swx := 0, crv := 0 })
  ∧ (∀ (w : Writer) (s : State), May w R.HRD_CMD s → s.chip.hrdState ≠ Hs.tripped → ∃ t, Sys2Proof.Machine.exec (.hrdClearTrip w theKey) s =
      .next t ∧
    t = s)
  ∧ (∀ (w : Writer) (s : State), May w R.HRD_CMD s → ∃ t, Sys2Proof.Machine.exec (.hrdClearStats w theKey) s = .next t ∧
    Only [R.HRD_STAT, R.HRD_STALE_EVALS, R.HRD_LAST_T 0, R.HRD_LAST_T 1, R.HRD_LAST, R.HRD_LAST_DUR] [] s t ∧ t.chip.f R.HRD_STAT
      F.HRD_STAT_EVENTS = 0 ∧ t.chip.hrdState = s.chip.hrdState ∧ t.chip.rd R.HRD_STALE_EVALS = 0 ∧ t.chip.rd64 (R.HRD_LAST_T 0) = 0 ∧
      t.chip.rd R.HRD_LAST = 0 ∧ t.chip.rd R.HRD_LAST_DUR = 0)
  ∧ (∀ (k : Fin 8) (n : F64) (s : State), Awake P.ISL s → s.chip.isl.run = true → s.chip.isl.stale = false → nth s.chip.isl.vt k (F64.zero,
      false) = (n, true) → (F64.ratio (s.chip.rdN (R.ISL_VT_TIME k)) 1000).le n = true → s.chip.bit R.ISL_STAT (8 + k.val) = false →
      s.chip.f R.ISL_ACT F.ISL_ACT_VT = 2 → ∃ t, Sys2Proof.Machine.exec (.islEntryHit true k) s = .next t ∧
    Quiet s t ∧ t.chip.bit R.ISL_STAT (8 + k.val) = true ∧ t.chip.is R.ISL_STAT F.ISL_STAT_TRIPPED = true ∧ t.chip.isl.blk = true)
  ∧ (∀ (k : Fin 8) (n : F64) (s : State), Awake P.ISL s → s.chip.isl.run = true → s.chip.isl.stale = false → nth s.chip.isl.vt k (F64.zero,
      false) = (n, true) → (F64.ratio (s.chip.rdN (R.ISL_VT_TIME k)) 1000).le n = true → s.chip.bit R.ISL_STAT (8 + k.val) = false →
      s.chip.f R.ISL_ACT F.ISL_ACT_VT = 3 → ∃ t, Sys2Proof.Machine.exec (.islEntryHit true k) s = .next t ∧
    Quiet s t ∧ t.chip.bit R.ISL_STAT (8 + k.val) = true ∧ t.chip.is R.ISL_STAT F.ISL_STAT_ISLANDED = true)
  ∧ (∀ (k : Fin 8) (n : F64) (s : State), Awake P.ISL s → s.chip.isl.run = true → s.chip.isl.stale = false → nth s.chip.isl.ft k (F64.zero,
      false) = (n, true) → (F64.ratio (s.chip.rdN (R.ISL_FT_TIME k)) 1000).le n = true → s.chip.bit R.ISL_STAT (16 + k.val) = false →
      s.chip.f R.ISL_ACT F.ISL_ACT_FT = 2 → ∃ t, Sys2Proof.Machine.exec (.islEntryHit false k) s = .next t ∧
    Quiet s t ∧ t.chip.bit R.ISL_STAT (16 + k.val) = true ∧ t.chip.is R.ISL_STAT F.ISL_STAT_TRIPPED = true ∧ t.chip.isl.blk = true)
  ∧ (∀ (k : Fin 8) (n : F64) (s : State), Awake P.ISL s → s.chip.isl.run = true → s.chip.isl.stale = false → nth s.chip.isl.ft k (F64.zero,
      false) = (n, true) → (F64.ratio (s.chip.rdN (R.ISL_FT_TIME k)) 1000).le n = true → s.chip.bit R.ISL_STAT (16 + k.val) = false →
      s.chip.f R.ISL_ACT F.ISL_ACT_FT = 3 → ∃ t, Sys2Proof.Machine.exec (.islEntryHit false k) s = .next t ∧
    Quiet s t ∧ t.chip.bit R.ISL_STAT (16 + k.val) = true ∧ t.chip.is R.ISL_STAT F.ISL_STAT_ISLANDED = true)
  ∧ (∀ (w : Writer) (s : State), May w R.ISL_CMD s → ∃ t, Sys2Proof.Machine.exec (.islClear w theKey) s = .next t ∧
    Only [R.ISL_STAT] [.isl] s t ∧ t.chip.isl = { s.chip.isl with blk := s.chip.isl.run && s.chip.isl.blk } ∧ t.chip.is R.ISL_STAT
      F.ISL_STAT_TRIPPED = false ∧ t.chip.is R.ISL_STAT F.ISL_STAT_ISLANDED = false ∧ t.chip.f R.ISL_STAT F.ISL_STAT_FT_HIT = s.chip.f
      R.ISL_STAT F.ISL_STAT_FT_HIT)
  ∧ (∀ (s : State), Awake P.ISL s → s.chip.isl.run = true → s.chip.isl.stale = false → s.chip.is R.ISL_CTL F.ISL_CTL_RTS_EN = true → 0 <
      s.chip.isl.rts.m → (F64.ofNat (s.chip.f R.ISL_RTS_T F.ISL_RTS_T_TIME_S)).le s.chip.isl.rts = true → ∃ t, Sys2Proof.Machine.exec
      (.rtsTimer) s = .next t ∧
    OnlyEv [R.ISL_STAT] [] s t ∧ t.chip.is R.ISL_STAT F.ISL_STAT_RTS_OK = true)

/-- O57 (R289, R290, R291, R294, R296, R297, R303). Impedance probe: what each command does where it takes effect. IMP_WINDOW_DONE writes
the impedance and current of every enabled bin, with STALE below IMIN. It counts the window. IMP_START of an idle enabled probe begins
an injection. In HERD mode it waits for a grant. Disabled or with a configuration error it is recorded as STATE. IMP_STOP of a probe
that is not idle is noted for its next evaluation. IMP_REQUEST in HERD mode asks the bellwether for one window. Elsewhere it is recorded
as STATE. IMP_CLEAR_ISLAND takes the island signal back. PROBE_REQ_RX at the bellwether queues the request. PROBE_GRANT_RX of a grant to
this device that is not late holds it. While another is held it waits behind it. A late one is discarded and counted. PROBE_GRANT_ISSUE
with no request grants the next interval to the watch member, GAP_US after the last. It grants it to the oldest request where enough
watch windows have passed. PROBE_END_RX at the bellwether of the interval granted last ends it, and the next may follow. Of an earlier
one it leaves the schedule (log entry 142, DEDUCED). GRANT_START begins the injection at the first trigger inside the grant. GRANT_END
ends it: zero goes to OUT, and the bellwether is told. The slot that it holds then reads zero. Commands that complete (exec answers a
next state): impWindowDone, impStart, impStop, impRequest, impClearIsland, probeReqRx, probeGrantRx, probeGrantIssue, probeEndRx,
grantStart, grantEnd. -/
def Obligations.ProbeCommands : Prop :=
  (∀ (sums : List ImpSum) (lw : Nat) (par : SMap Word) (k : Fin 16) (z : F64 × F64) (s : State), Awake P.IMP s → s.chip.imp.due = some
      (sums, lw, par) → fget (SMap.get regReset par (R.IMP_BIN k)) F.IMP_BIN_EN = 1 → ((nth sums k {}).result lw).1 = some z → ∃ t,
      Sys2Proof.Machine.exec (.impWindowDone) s = .next t ∧
    Quiet s t ∧ t.chip.rd (R.IMP_Z_RE k) =
      ({ z.1.acc.out true (-32) with stale := ((nth sums k {}).result lw).2.lt (wordF (SMap.get regReset par R.IMP_IMIN)) } : Slot).word
      ∧ t.chip.rd (R.IMP_Z_IM k) =
      ({ z.2.acc.out true (-32) with stale := ((nth sums k {}).result lw).2.lt (wordF (SMap.get regReset par R.IMP_IMIN)) } : Slot).word
      ∧ t.chip.rd (R.IMP_I_MAG k) = (((nth sums k {}).result lw).2.acc.out true (-32)).word ∧ t.chip.imp.due = none)
  ∧ (∀ (sums : List ImpSum) (lw : Nat) (par : SMap Word) (s : State), Awake P.IMP s → s.chip.imp.due = some (sums, lw, par) → ∃ t,
      Sys2Proof.Machine.exec (.impWindowDone) s = .next t ∧
    Quiet s t ∧ t.chip.imp.due = none ∧ t.chip.f R.IMP_STAT F.IMP_STAT_WINDOWS = (s.chip.f R.IMP_STAT F.IMP_STAT_WINDOWS + 1) % 2 ^
      F.IMP_STAT_WINDOWS.width)
  ∧ (∀ (w : Writer) (s : State), May w R.IMP_CMD s → s.chip.is R.IMP_CTL F.IMP_CTL_EN = true → s.chip.is R.IMP_STAT F.IMP_STAT_CFG_ERR =
      false → s.chip.impPh = Ip.idle → s.chip.f R.IMP_CTL F.IMP_CTL_MODE ≠ 2 → ∃ t, Sys2Proof.Machine.exec (.impStart w theKey) s =
      .next t ∧
    Only [R.IMP_STAT] [.imp] s t ∧ t.chip.imp =
      { s.chip.imp with lfsr := 2 ^ s.chip.f R.IMP_CTL F.IMP_CTL_ORDER - 1, pos := 0, per := 0, sums := List.replicate 16 {}, stop := false }
      ∧ t.chip.impPh = (if s.chip.f R.IMP_WIN F.IMP_WIN_LEAD = 0 then Ip.window else Ip.lead))
  ∧ (∀ (w : Writer) (s : State), May w R.IMP_CMD s → s.chip.is R.IMP_CTL F.IMP_CTL_EN = true → s.chip.is R.IMP_STAT F.IMP_STAT_CFG_ERR =
      false → s.chip.impPh = Ip.idle → s.chip.f R.IMP_CTL F.IMP_CTL_MODE = 2 → ∃ t, Sys2Proof.Machine.exec (.impStart w theKey) s =
      .next t ∧
    Only [R.IMP_STAT] [] s t ∧ t.chip.impPh = Ip.waitGrant)
  ∧ (∀ (w : Writer) (s : State), May w R.IMP_CMD s → (s.chip.is R.IMP_CTL F.IMP_CTL_EN = false ∨ s.chip.is R.IMP_STAT F.IMP_STAT_CFG_ERR =
      true) → ∃ t, Sys2Proof.Machine.exec (.impStart w theKey) s = .next t ∧
    Quiet s t ∧ t.chip = s.chip.refuse R.IMP_CMD w.ini.code)
  ∧ (∀ (w : Writer) (s : State), May w R.IMP_CMD s → s.chip.impPh ≠ Ip.idle → ∃ t, Sys2Proof.Machine.exec (.impStop w theKey) s = .next t ∧
    Only [] [.imp] s t ∧ t.chip.imp = { s.chip.imp with stop := true })
  ∧ (∀ (w : Writer) (s : State), May w R.IMP_CMD s → s.chip.is R.IMP_CTL F.IMP_CTL_EN = true → s.chip.is R.IMP_STAT F.IMP_STAT_CFG_ERR =
      false → s.chip.f R.IMP_CTL F.IMP_CTL_MODE = 2 → s.chip.impPh = Ip.idle → s.chip.f R.MUS_BW F.MUS_BW_ID ≠ s.chip.f R.FAB_ID
      F.FAB_ID_ID → ∃ t, Sys2Proof.Machine.exec (.impRequest w theKey) s = .next t ∧
    Only [R.IMP_STAT] [.imp, .out] s t ∧ t.chip.impPh = Ip.waitGrant ∧ t.chip.imp = { s.chip.imp with once := true } ∧ t.chip.out =
      s.chip.out ++ [⟨s.chip.packet 0x16 2 0 (s.chip.f R.MUS_BW F.MUS_BW_ID) s.chip.ses0 0 (s.chip.f R.IMP_HERD F.IMP_HERD_PADDOCK ::
      words64 s.chip.impLen), 0, none, false⟩])
  ∧ (∀ (w : Writer) (s : State), May w R.IMP_CMD s → (s.chip.is R.IMP_CTL F.IMP_CTL_EN = false ∨ s.chip.is R.IMP_STAT F.IMP_STAT_CFG_ERR =
      true ∨ s.chip.f R.IMP_CTL F.IMP_CTL_MODE ≠ 2) → ∃ t, Sys2Proof.Machine.exec (.impRequest w theKey) s = .next t ∧
    Quiet s t ∧ t.chip = s.chip.refuse R.IMP_CMD w.ini.code)
  ∧ (∀ (w : Writer) (s : State), May w R.IMP_CMD s → ∃ t, Sys2Proof.Machine.exec (.impClearIsland w theKey) s = .next t ∧
    Only [R.IMP_STAT] [] s t ∧ t.chip.is R.IMP_STAT F.IMP_STAT_ISLAND = false)
  ∧ (∀ (p : Packet) (s : State), s.chip.powered = true → s.chip.time.gated = false → s.chip.admitted p = none → s.chip.is R.MUS_STAT
      F.MUS_STAT_IS_BW = true → s.chip.is (R.IMP_PDK (p.w 0 % 256)) F.IMP_PDK_EN = true → ∃ t, Sys2Proof.Machine.exec (.probeReqRx p) s
      = .next t ∧
    Quiet s t ∧ t.chip.imp = { s.chip.imp with reqs := s.chip.imp.reqs ++ [(p.w 0 % 256, p.src.toNat, p.w64 1)] })
  ∧ (∀ (p : Packet) (s : State), s.chip.powered = true → s.chip.time.gated = false → s.chip.admitted p = none → p.w 1 % 2 ^ 15 = s.chip.f
      R.FAB_ID F.FAB_ID_ID → s.chip.htNs ≤ p.w64 2 → s.chip.imp.grant = none → ∃ t, Sys2Proof.Machine.exec (.probeGrantRx p) s = .next t
      ∧
    Quiet s t ∧ t.chip.imp = { s.chip.imp with grant := some ⟨p.w64 2, p.w64 4, nbit (p.w 0) 31⟩, more := [], inGrant := false } ∧
      t.chip.rd64 (R.IMP_GRANT 0) = p.w64 2 ∧ t.chip.is R.IMP_STAT F.IMP_STAT_WATCH = nbit (p.w 0) 31)
  ∧ (∀ (p : Packet) (g : Grant) (s : State), s.chip.powered = true → s.chip.time.gated = false → s.chip.admitted p = none → p.w 1 % 2 ^ 15 =
      s.chip.f R.FAB_ID F.FAB_ID_ID → s.chip.htNs ≤ p.w64 2 → s.chip.imp.grant = some g → ∃ t, Sys2Proof.Machine.exec (.probeGrantRx p)
      s = .next t ∧
    Quiet s t ∧ t.chip.imp = { s.chip.imp with more := s.chip.imp.more ++ [⟨p.w64 2, p.w64 4, nbit (p.w 0) 31⟩] })
  ∧ (∀ (p : Packet) (s : State), s.chip.powered = true → s.chip.time.gated = false → s.chip.admitted p = none → p.w 1 % 2 ^ 15 = s.chip.f
      R.FAB_ID F.FAB_ID_ID → p.w64 2 < s.chip.htNs → ∃ t, Sys2Proof.Machine.exec (.probeGrantRx p) s = .next t ∧
    Quiet s t ∧ t.chip.imp = s.chip.imp ∧ t.chip.rdN R.IMP_GRANT_LATE = min (s.chip.rdN R.IMP_GRANT_LATE + 1) (2 ^ 32 - 1))
  ∧ (∀ (p : Fin 256) (start len : BitVec 64) (s : State), Awake P.IMP s → s.chip.is R.MUS_STAT F.MUS_STAT_IS_BW = true → s.chip.is (R.IMP_PDK
      p) F.IMP_PDK_EN = true → s.chip.imp.reqs.find? (fun q => decide (q.1 = p.val)) = none → (s.chip.f (R.IMP_PDK p) F.IMP_PDK_WATCH) ≠
      0 → (s.chip.f (R.IMP_PDK p) F.IMP_PDK_WATCH) ≠ s.chip.f R.FAB_ID F.FAB_ID_ID → ∃ t, Sys2Proof.Machine.exec (.probeGrantIssue p
      start len) s = .next t ∧
    Only [] [.imp, .out] s t ∧ t.chip.out = s.chip.out ++ [⟨s.chip.packet 0x17 2 0 (s.chip.f (R.IMP_PDK p) F.IMP_PDK_WATCH) s.chip.ses0
      0 ([p.val + 2147483648, (s.chip.f (R.IMP_PDK p) F.IMP_PDK_WATCH)] ++ words64 (if (s.chip.paddock p).stop = 0 then start.toNat else
      max start.toNat ((s.chip.paddock p).stop + 1000 * s.chip.f R.IMP_HERD F.IMP_HERD_GAP_US)) ++ words64 ((if (s.chip.paddock p).stop
      = 0 then start.toNat else max start.toNat ((s.chip.paddock p).stop + 1000 * s.chip.f R.IMP_HERD F.IMP_HERD_GAP_US)) + len.toNat)),
      0, none, false⟩] ∧ t.chip.imp =
      { s.chip.imp with pads := (s.chip.imp.pads.filter fun q => decide (q.pdk ≠ p.val)) ++ [{ (s.chip.paddock p) with watchRun := (s.chip.paddock p).watchRun + 1, stop := (if (s.chip.paddock p).stop = 0 then start.toNat else max start.toNat ((s.chip.paddock p).stop + 1000 * s.chip.f R.IMP_HERD F.IMP_HERD_GAP_US)) + len.toNat, opened := (s.chip.paddock p).opened ++ [(s.chip.f (R.IMP_PDK p) F.IMP_PDK_WATCH)] }] })
  ∧ (∀ (p : Fin 256) (start len : BitVec 64) (q : Nat × Nat × Nat) (s : State), Awake P.IMP s → s.chip.is R.MUS_STAT F.MUS_STAT_IS_BW = true
      → s.chip.is (R.IMP_PDK p) F.IMP_PDK_EN = true → s.chip.imp.reqs.find? (fun q => decide (q.1 = p.val)) = some q → (!(s.chip.paddock
      p).foreign || decide (s.chip.f R.IMP_HERD F.IMP_HERD_RATIO ≤ (s.chip.paddock p).watchRun + 1) || decide ((s.chip.f (R.IMP_PDK p)
      F.IMP_PDK_WATCH) = 0)) = true → q.2.1 ≠ s.chip.f R.FAB_ID F.FAB_ID_ID → ∃ t, Sys2Proof.Machine.exec (.probeGrantIssue p start len)
      s = .next t ∧
    Only [] [.imp, .out] s t ∧ t.chip.out = s.chip.out ++ [⟨s.chip.packet 0x17 2 0 q.2.1 s.chip.ses0 0 ([p.val + 0, q.2.1] ++ words64
      (if (s.chip.paddock p).stop = 0 then start.toNat else max start.toNat ((s.chip.paddock p).stop + 1000 * s.chip.f R.IMP_HERD
      F.IMP_HERD_GAP_US)) ++ words64 ((if (s.chip.paddock p).stop = 0 then start.toNat else max start.toNat ((s.chip.paddock p).stop +
      1000 * s.chip.f R.IMP_HERD F.IMP_HERD_GAP_US)) + q.2.2)), 0, none, false⟩] ∧ t.chip.imp =
      { s.chip.imp with reqs := s.chip.imp.reqs.erase q, pads := (s.chip.imp.pads.filter fun q => decide (q.pdk ≠ p.val)) ++ [{ (s.chip.paddock p) with watchRun := 0, foreign := true, stop := (if (s.chip.paddock p).stop = 0 then start.toNat else max start.toNat ((s.chip.paddock p).stop + 1000 * s.chip.f R.IMP_HERD F.IMP_HERD_GAP_US)) + q.2.2, opened := (s.chip.paddock p).opened ++ [q.2.1] }] })
  ∧ (∀ (p : Packet) (s : State), s.chip.powered = true → s.chip.time.gated = false → s.chip.admitted p = none → s.chip.is R.MUS_STAT
      F.MUS_STAT_IS_BW = true → (s.chip.paddock (p.w 0 % 256)).opened.idxOf (p.w 1 % 2 ^ 15) + 1 = (s.chip.paddock (p.w 0 %
      256)).opened.length → ∃ t, Sys2Proof.Machine.exec (.probeEndRx p) s = .next t ∧
    Quiet s t ∧ t.chip.imp =
      { s.chip.imp with pads := (s.chip.imp.pads.filter fun q => decide (q.pdk ≠ p.w 0 % 256)) ++ [{ (s.chip.paddock (p.w 0 % 256)) with stop := min (s.chip.paddock (p.w 0 % 256)).stop s.chip.htNs, opened := (s.chip.paddock (p.w 0 % 256)).opened.erase (p.w 1 % 2 ^ 15) }] })
  ∧ (∀ (p : Packet) (s : State), s.chip.powered = true → s.chip.time.gated = false → s.chip.admitted p = none → s.chip.is R.MUS_STAT
      F.MUS_STAT_IS_BW = true → (s.chip.paddock (p.w 0 % 256)).opened.idxOf (p.w 1 % 2 ^ 15) + 1 ≠ (s.chip.paddock (p.w 0 %
      256)).opened.length → ∃ t, Sys2Proof.Machine.exec (.probeEndRx p) s = .next t ∧
    Quiet s t ∧ t.chip.imp =
      { s.chip.imp with pads := (s.chip.imp.pads.filter fun q => decide (q.pdk ≠ p.w 0 % 256)) ++ [{ (s.chip.paddock (p.w 0 % 256)) with stop := (s.chip.paddock (p.w 0 % 256)).stop, opened := (s.chip.paddock (p.w 0 % 256)).opened.erase (p.w 1 % 2 ^ 15) }] })
  ∧ (∀ (g : Grant) (s : State), Awake P.IMP s → s.chip.imp.grant = some g → s.chip.imp.inGrant = false → s.chip.is R.IMP_CTL F.IMP_CTL_EN =
      true → g.start ≤ (s.chip.grp (s.chip.f R.IMP_CTL F.IMP_CTL_RG)).trigHt → (s.chip.grp (s.chip.f R.IMP_CTL F.IMP_CTL_RG)).trigHt <
      g.stop → (s.chip.impPh = Ip.waitGrant ∨ s.chip.impPh = Ip.paused) → ∃ t, Sys2Proof.Machine.exec (.grantStart) s = .next t ∧
    OnlyEv [R.IMP_STAT] [.imp] s t ∧ t.chip.imp =
      { s.chip.imp with inGrant := true, lfsr := 2 ^ s.chip.f R.IMP_CTL F.IMP_CTL_ORDER - 1, pos := 0, per := 0, sums := List.replicate 16 {}, stop := false }
      ∧ t.chip.impPh = (if s.chip.f R.IMP_WIN F.IMP_WIN_LEAD = 0 then Ip.window else Ip.lead))
  ∧ (∀ (g : Grant) (s : State), Awake P.IMP s → s.chip.imp.grant = some g → s.chip.imp.inGrant = true → g.stop ≤ (s.chip.grp (s.chip.f
      R.IMP_CTL F.IMP_CTL_RG)).trigHt → s.chip.f R.MUS_BW F.MUS_BW_ID ≠ s.chip.f R.FAB_ID F.FAB_ID_ID → ∃ t, Sys2Proof.Machine.exec
      (.grantEnd) s = .next t ∧
    Quiet s t ∧ t.chip.imp = { s.chip.imp with grant := s.chip.imp.more.head?, more := s.chip.imp.more.tail, inGrant := false } ∧
      t.chip.impPh = (if g.watch then Ip.paused else if s.chip.imp.once then Ip.waitGrant else Ip.idle) ∧ t.chip.out = s.chip.out ++
      [⟨s.chip.packet 0x18 2 0 (s.chip.f R.MUS_BW F.MUS_BW_ID) s.chip.ses0 0 [s.chip.f R.IMP_HERD F.IMP_HERD_PADDOCK, s.chip.f R.FAB_ID
      F.FAB_ID_ID], 0, none, false⟩])
  ∧ (∀ (g : Grant) (s : State), Awake P.IMP s → s.chip.imp.grant = some g → s.chip.imp.inGrant = true → g.stop ≤ (s.chip.grp (s.chip.f
      R.IMP_CTL F.IMP_CTL_RG)).trigHt → s.chip.f R.MUS_BW F.MUS_BW_ID ≠ s.chip.f R.FAB_ID F.FAB_ID_ID → s.chip.holds Cl.imp (s.chip.f
      R.IMP_CTL F.IMP_CTL_OUT) = true → ∃ t, Sys2Proof.Machine.exec (.grantEnd) s = .next t ∧
    Quiet s t ∧ fget (t.chip.rd (Key.slot (s.chip.f R.IMP_CTL F.IMP_CTL_OUT))) ⟨31, 8⟩ = 0)

/-- O58 (R384, R385, R388, R396, R397, R398, R399, R410). Energy metering and saves: what each command does where it takes effect.
METER_TICK takes every input at the one instant τ by linear interpolation between the results that bracket it, and adds the tick to the
cycle. A positive crossing of the reference ends the measurement cycle and starts the next; FREQ shows the cycle’s frequency. An
addition to an energy register passes through its residue: the register gains the whole part modulo 2^64, and passing 2^64 − 1 sets
WRAP. MTR_CLEAR in READY clears the energies of the port, counts the clear and starts a periodic save. Outside READY it is recorded as
STATE. MTR_SAVE_NOW starts a periodic save. During any save it is skipped. PERIODIC_SAVE starts one. With the period off there is none.
MTR_CO_CLEAR clears the charge. SAVE_COMPLETE that reads its record back has written the FRAM and shows the sequence number and kind. On
a mismatch it shows FAIL; what the FRAM then holds in place of the record is open. POWER_FAIL_SAVE_DONE has written records, log tail
and the record of kind POWER_FAIL. Commands that complete (exec answers a next state): meterTick, mtrClear, mtrSaveNow, periodicSave,
mtrCoClear, saveComplete, powerFailSaveDone. -/
def Obligations.MeterCommands : Prop :=
  (∀ (p : Fin 2) (tau : Int) (s : State), Awake (P.MTR p) s → s.chip.is (R.MTR_STAT p) F.MTR_STAT_RUNNING = true → tau = ((((s.chip.htNs /
      s.chip.mtrTm p * s.chip.mtrTm p) : Nat) : Int) - ((s.chip.f (R.MTR_CFG p) F.MTR_CFG_LAG_US * 1000 : Nat) : Int)) * 2 ^ 48 → ((∀ k
      < 6, s.chip.is (R.MTR_IN_SRC p k) F.MTR_IN_SRC_EN = false ∨ (alignAt tau (nth (s.chip.mport p).hist k [])).isSome = true)) →
      (s.chip.mport p).low = false → s.chip.is (R.MTR_STAT p) F.MTR_STAT_REF_OK = true → (s.chip.mport p).n + 1 < s.chip.mtrRate p / 40
      → p.val < s.chip.mtr.port.length → ∃ t, Sys2Proof.Machine.exec (.meterTick p) s = .next t ∧
    Only [] [.mtr] s t ∧ (t.chip.mport p).n = (s.chip.mport p).n + 1 ∧ (t.chip.mport p).ticks = (⟨(s.chip.htNs / s.chip.mtrTm p *
      s.chip.mtrTm p), ((List.range 6).map fun k => if s.chip.is (R.MTR_IN_SRC p k) F.MTR_IN_SRC_EN then ((alignAt tau (nth
      (s.chip.mport p).hist k [])).getD (F64.zero, false)).1 else F64.zero)⟩ :: (s.chip.mport p).ticks).take 1600 ∧ (t.chip.mport
      p).hist = (s.chip.mport p).hist)
  ∧ (∀ (p : Fin 2) (tau : Int) (s : State), Awake (P.MTR p) s → s.chip.is (R.MTR_STAT p) F.MTR_STAT_RUNNING = true → tau = ((((s.chip.htNs /
      s.chip.mtrTm p * s.chip.mtrTm p) : Nat) : Int) - ((s.chip.f (R.MTR_CFG p) F.MTR_CFG_LAG_US * 1000 : Nat) : Int)) * 2 ^ 48 → ((∀ k
      < 6, s.chip.is (R.MTR_IN_SRC p k) F.MTR_IN_SRC_EN = false ∨ (alignAt tau (nth (s.chip.mport p).hist k [])).isSome = true)) →
      (s.chip.mport p).low = true → s.chip.f (R.MTR_CFG p) F.MTR_CFG_REF < 6 → 0 ≤ (nth ((List.range 6).map fun k => if s.chip.is
      (R.MTR_IN_SRC p k) F.MTR_IN_SRC_EN then ((alignAt tau (nth (s.chip.mport p).hist k [])).getD (F64.zero, false)).1 else F64.zero)
      (s.chip.f (R.MTR_CFG p) F.MTR_CFG_REF) F64.zero).sign → s.chip.mtrRate p / 70 ≤ (s.chip.mport p).n → 0 < (s.chip.mport p).n →
      p.val < s.chip.mtr.port.length → ∃ t, Sys2Proof.Machine.exec (.meterTick p) s = .next t ∧
    Quiet s t ∧ (t.chip.mport p).n = 1 ∧ t.chip.is (R.MTR_STAT p) F.MTR_STAT_REF_OK = true ∧ t.chip.rdN (R.MTR_FREQ p) = min 0xFFFFFFFF
      (F64.nearest (F64.mul (F64.div (F64.ofNat 1) (F64.ratio ((s.chip.mport p).n * s.chip.mtrTm p : Nat) (10 ^ 9))) (F64.ofNat (10 ^
      6)))).toNat)
  ∧ (∀ (c : Chip) (p : Fin 2) (j : Fin 8) (d : F64) (e : Nat),
    e = c.rd64 (R.MTR_E p (2 * j)) + (F64.add (nth (c.mport p).res j F64.zero) d).floor.toNat →
    (c.energy p j d).rd64 (R.MTR_E p (2 * j)) = e % 2 ^ 64 ∧ (c.energy p j d).rdN (R.MTR_INT p j) = e % 2 ^ 64 / 1000 % 2 ^ 32
    ∧ (2 ^ 64 ≤ e → (c.energy p j d).is (R.MTR_STAT p) F.MTR_STAT_WRAP = true))
  ∧ (∀ (w : Writer) (p : Fin 2) (s : State), May w (R.MTR_CMD p) s → s.chip.mode = .ready → s.chip.mtr.save = none → ∃ t,
      Sys2Proof.Machine.exec (.mtrClear w theKey p) s = .next t ∧
    t.mem = s.mem ∧ t.pending = s.pending ∧ t.chip.is (R.MTR_SAVE_STAT 0) F.MTR_SAVE_STAT_BUSY = true ∧ (t.chip.mtr.save.map (·.fail)) =
      some false ∧ (∀ j < 8, t.chip.rd64 (R.MTR_E p (2 * j)) = 0) ∧ (∀ j < 8, t.chip.rd (R.MTR_INT p j) = 0) ∧ t.chip.is (R.MTR_STAT p)
      F.MTR_STAT_WRAP = false ∧ t.chip.f (R.MTR_CLEARS p) F.MTR_CLEARS_CLEARS = min (s.chip.f (R.MTR_CLEARS p) F.MTR_CLEARS_CLEARS + 1)
      (2 ^ 16 - 1))
  ∧ (∀ (w : Writer) (p : Fin 2) (s : State), May w (R.MTR_CMD p) s → s.chip.mode ≠ .ready → ∃ t, Sys2Proof.Machine.exec (.mtrClear w theKey
      p) s = .next t ∧
    Quiet s t ∧ t.chip = s.chip.refuse (R.MTR_CMD p) w.ini.code)
  ∧ (∀ (w : Writer) (s : State), May w (R.MTR_CMD 0) s → s.chip.mtr.save = none → ∃ t, Sys2Proof.Machine.exec (.mtrSaveNow w theKey) s =
      .next t ∧
    t.mem = s.mem ∧ t.pending = s.pending ∧ t.chip.is (R.MTR_SAVE_STAT 0) F.MTR_SAVE_STAT_BUSY = true ∧ (t.chip.mtr.save.map (·.fail)) =
      some false)
  ∧ (∀ (w : Writer) (r : SaveRun) (s : State), May w (R.MTR_CMD 0) s → s.chip.mtr.save = some r → ∃ t, Sys2Proof.Machine.exec (.mtrSaveNow w
      theKey) s = .next t ∧
    t = s)
  ∧ (∀ (s : State), s.chip.powered = true → s.chip.time.gated = false → s.chip.f (R.MTR_SAVE_CFG 0) F.MTR_SAVE_CFG_PERIOD_S ≠ 0 →
      s.chip.mtr.save = none → ∃ t, Sys2Proof.Machine.exec (.periodicSave) s = .next t ∧
    t.mem = s.mem ∧ t.pending = s.pending ∧ t.chip.is (R.MTR_SAVE_STAT 0) F.MTR_SAVE_STAT_BUSY = true ∧ (t.chip.mtr.save.map (·.fail)) =
      some false)
  ∧ (∀ (s : State), s.chip.f (R.MTR_SAVE_CFG 0) F.MTR_SAVE_CFG_PERIOD_S = 0 → ∃ t, Sys2Proof.Machine.exec (.periodicSave) s = .next t ∧
    t = s)
  ∧ (∀ (w : Writer) (s : State), May w (R.MTR_CMD 0) s → ∃ t, Sys2Proof.Machine.exec (.mtrCoClear w theKey) s = .next t ∧
    Only [R.MTR_CO_CHG_LO 0, R.MTR_CO_CHG_HI 0] [.mtr] s t ∧ t.chip.rd (R.MTR_CO_CHG_LO 0) = 0 ∧ t.chip.rd (R.MTR_CO_CHG_HI 0) = 0)
  ∧ (∀ (r : SaveRun) (s : State), s.chip.mtr.save = some r → r.fail = false → ∃ t, Sys2Proof.Machine.exec (.saveComplete true) s = .next t ∧
    t.pending = s.pending ∧ t.mem = s.mem.framPut r.bytes ∧ t.mem.sram = s.mem.sram ∧ t.mem.dram = s.mem.dram ∧ (∀ a, a ∉ r.bytes.map
      (·.1) → SMap.get unwritten t.mem.fram a = SMap.get unwritten s.mem.fram a) ∧ t.chip.mtr.save = none ∧ t.chip.rdN (R.MTR_SAVE_SEQ
      0) = r.seq % 2 ^ 32 ∧ t.chip.f (R.MTR_SAVE_STAT 0) F.MTR_SAVE_STAT_LAST_KIND = 1)
  ∧ (∀ (r : SaveRun) (s : State), s.chip.mtr.save = some r → r.fail = false → ∃ t, Sys2Proof.Machine.exec (.saveComplete false) s = .next t ∧
    t.pending = s.pending ∧ t.mem.sram = s.mem.sram ∧ t.mem.dram = s.mem.dram ∧ (∀ a, a ∉ r.bytes.map (·.1) → SMap.get unwritten
      t.mem.fram a = SMap.get unwritten s.mem.fram a) ∧ t.chip.mtr.save = none ∧ t.chip.is (R.MTR_SAVE_STAT 0) F.MTR_SAVE_STAT_FAIL =
      true)
  ∧ (∀ (r : SaveRun) (s : State), s.chip.mtr.save = some r → r.fail = true → ∃ t, Sys2Proof.Machine.exec (.powerFailSaveDone) s = .next t ∧
    t.pending = s.pending ∧ t.mem = s.mem.framPut r.bytes ∧ t.mem.sram = s.mem.sram ∧ t.mem.dram = s.mem.dram ∧ (∀ a, a ∉ r.bytes.map
      (·.1) → SMap.get unwritten t.mem.fram a = SMap.get unwritten s.mem.fram a) ∧ t.chip.mtr.save = none ∧ t.chip.rdN (R.MTR_SAVE_SEQ
      0) = r.seq % 2 ^ 32 ∧ t.chip.f (R.MTR_SAVE_STAT 0) F.MTR_SAVE_STAT_LAST_KIND = 2)

/-- O59 (R561, R563, R564, R565, R566, R567, R568, R577). Lap log: what each command does where it takes effect. LAP_RING_WRITE moves the
oldest record of the FIFO into the ring; HEAD shows its offset. LAP_TIME_RECORD puts a TIME record into the FIFO. A record that finds
the FIFO full is lost and counted. HW_ANCHOR while a group is busy is skipped. Else it takes the state of the deterministic domain as
one record. TWIN_ANCHOR_DONE fills the older of the twin’s two slots and puts its record into the FIFO. LAP_FREEZE freezes the ring with
every record taken so far. LAP_RESUME of a frozen ring records again. Elsewhere it is recorded as STATE. LAP_ARM arms the triggers.
LAP_DISARM disarms them. LAP_ARM_EXPIRY does so at the end of the armed interval. An interval of 0 lasts until LAP_DISARM. LAP_POST_END
freezes the ring at the end of the post window. LAP_IMPORT in READY takes the head of the export. Outside READY it is recorded as STATE.
Commands that complete (exec answers a next state): lapRingWrite, lapTimeRecord, hwAnchor, twinAnchorDone, lapFreeze, lapResume, lapArm,
lapDisarm, lapArmExpiry, lapPostEnd, lapImport. -/
def Obligations.LapCommands : Prop :=
  (∀ (r : LapRec) (rest : List LapRec) (s : State), Awake P.LAP s → s.chip.lap.fifo = r :: rest → ∃ t, Sys2Proof.Machine.exec
      (.lapRingWrite) s = .next t ∧
    t.pending = s.pending ∧ t.mem = s.mem.ringPut s.chip.red.tot (r.image ((r.ht - s.chip.red.lastHt) * 4 / 5)) ∧ t.mem.sram =
      s.mem.sram ∧ t.mem.fram = s.mem.fram ∧ (∀ a, (∀ i < (r.image ((r.ht - s.chip.red.lastHt) * 4 / 5)).length, a ≠ ringAt
      (s.chip.red.tot + i)) → SMap.get unwritten t.mem.dram a = SMap.get unwritten s.mem.dram a) ∧ t.chip.lap.fifo = rest ∧ t.chip.rdN
      R.LAP_HEAD = s.chip.red.tot % ringSize / 8 ∧ t.chip.red.tot = s.chip.red.tot + r.bytes)
  ∧ (∀ (s : State), Awake P.LAP s → s.chip.lapOn = true → s.chip.lap.lost = 0 → s.chip.lap.fill < 65536 → ∃ t, Sys2Proof.Machine.exec
      (.lapTimeRecord) s = .next t ∧
    Only [] [.lap] s t ∧ t.chip.lap = { s.chip.lap with fifo := s.chip.lap.fifo ++ [⟨false, 0x01, 0, s.chip.htNs, []⟩] })
  ∧ (∀ (s : State), Awake P.LAP s → s.chip.lapOn = true → 65536 ≤ s.chip.lap.fill → ∃ t, Sys2Proof.Machine.exec (.lapTimeRecord) s = .next t
      ∧
    Only [] [.lap] s t ∧ t.chip.lap.fifo = s.chip.lap.fifo ∧ t.chip.lap.lost = s.chip.lap.lost + 16)
  ∧ (∀ (s : State), Awake P.LAP s → s.chip.lapOn = true → s.chip.f R.STR_STAT F.STR_STAT_BUSY ≠ 0 → ∃ t, Sys2Proof.Machine.exec (.hwAnchor) s
      = .next t ∧
    OnlyEv [] [] s t)
  ∧ (∀ (s : State), Awake P.LAP s → s.chip.lapOn = true → s.chip.f R.STR_STAT F.STR_STAT_BUSY = 0 → s.chip.lap.fill < 65536 → ∃ t,
      Sys2Proof.Machine.exec (.hwAnchor) s = .next t ∧
    Only [] [.lap, .red] s t ∧ t.chip.red = { s.chip.red with taken := s.chip.red.taken ++ [s.chip.anchor] } ∧
      (t.chip.lap.fifo.getLast?.map fun r => (r.short, r.kind)) = some (false, 3))
  ∧ (∀ (d : Bool) (stamp : Nat) (priv : SMap Byte) (s : State), Awake P.LAP s → s.chip.lapOn = true → (s.chip.twin d).copying = some (stamp,
      priv) → s.chip.red.twins.length = 2 → s.chip.red.slots.length = 4 → s.chip.lap.fill < 65536 → s.chip.lap.lost = 0 → ∃ t,
      Sys2Proof.Machine.exec (.twinAnchorDone d) s = .next t ∧
    Only [] [.lap, .red] s t ∧ (t.chip.twin d).copying = none ∧ nth t.chip.red.slots (2 * b2n d + s.chip.nextSlot d) none = some ⟨0,
      stamp, priv⟩ ∧ t.chip.lap =
      { s.chip.lap with fifo := s.chip.lap.fifo ++ [⟨false, 0x04, b2n d, s.chip.htNs, [s.chip.nextSlot d, stamp, slotSize * (2 * b2n d + s.chip.nextSlot d)]⟩] })
  ∧ (∀ (w : Writer) (s : State), May w R.LAP_CMD s → s.chip.lapOn = true → ∃ t, Sys2Proof.Machine.exec (.lapFreeze w theKey) s = .next t ∧
    t.pending = s.pending ∧ t.mem.sram = s.mem.sram ∧ t.mem.fram = s.mem.fram ∧ t.chip.lapState = Ls.frozen ∧ t.chip.lap.fifo = [])
  ∧ (∀ (w : Writer) (s : State), May w R.LAP_CMD s → (s.chip.lapState = Ls.frozen ∨ s.chip.lapState = Ls.importing) → ∃ t,
      Sys2Proof.Machine.exec (.lapResume w theKey) s = .next t ∧
    Only [R.LAP_STAT] [] s t ∧ t.chip.lapState = (if s.chip.is R.LAP_CTL F.LAP_CTL_EN then Ls.recording else Ls.off) ∧ t.chip.is
      R.LAP_STAT F.LAP_STAT_WRAPPED = false)
  ∧ (∀ (w : Writer) (s : State), May w R.LAP_CMD s → s.chip.lapState ≠ Ls.frozen → s.chip.lapState ≠ Ls.importing → ∃ t,
      Sys2Proof.Machine.exec (.lapResume w theKey) s = .next t ∧
    Quiet s t ∧ t.chip = s.chip.refuse R.LAP_CMD w.ini.code)
  ∧ (∀ (w : Writer) (s : State), May w R.LAP_CMD s → ∃ t, Sys2Proof.Machine.exec (.lapArm w theKey) s = .next t ∧
    Only [R.LAP_STAT] [] s t ∧ t.chip.is R.LAP_STAT F.LAP_STAT_ARMED = true)
  ∧ (∀ (w : Writer) (s : State), May w R.LAP_CMD s → ∃ t, Sys2Proof.Machine.exec (.lapDisarm w theKey) s = .next t ∧
    Only [R.LAP_STAT] [] s t ∧ t.chip.is R.LAP_STAT F.LAP_STAT_ARMED = false)
  ∧ (∀ (s : State), Awake P.LAP s → s.chip.f R.LAP_ARM F.LAP_ARM_ARM_S ≠ 0 → ∃ t, Sys2Proof.Machine.exec (.lapArmExpiry) s = .next t ∧
    Only [R.LAP_STAT] [] s t ∧ t.chip.is R.LAP_STAT F.LAP_STAT_ARMED = false)
  ∧ (∀ (s : State), s.chip.f R.LAP_ARM F.LAP_ARM_ARM_S = 0 → ∃ t, Sys2Proof.Machine.exec (.lapArmExpiry) s = .next t ∧
    t = s)
  ∧ (∀ (s : State), Awake P.LAP s → s.chip.lapOn = true → s.chip.lapState = Ls.post → ∃ t, Sys2Proof.Machine.exec (.lapPostEnd) s = .next t ∧
    t.pending = s.pending ∧ t.mem.sram = s.mem.sram ∧ t.mem.fram = s.mem.fram ∧ t.chip.lapState = Ls.frozen ∧ t.chip.lap.fifo = [])
  ∧ (∀ (w : Writer) (head : BitVec 25) (s : State), May w R.LAP_CMD s → s.chip.mode = .ready → ∃ t, Sys2Proof.Machine.exec (.lapImport w
      theKey head) s = .next t ∧
    Only [R.LAP_STAT, R.LAP_HEAD] [.lap, .red] s t ∧ t.chip.lapState = Ls.importing ∧ t.chip.f R.LAP_HEAD F.LAP_HEAD_OFS = head.toNat ∧
      t.chip.lap.fifo = [])
  ∧ (∀ (w : Writer) (head : BitVec 25) (s : State), May w R.LAP_CMD s → s.chip.mode ≠ .ready → ∃ t, Sys2Proof.Machine.exec (.lapImport w
      theKey head) s = .next t ∧
    Quiet s t ∧ t.chip = s.chip.refuse R.LAP_CMD w.ini.code)

/-- O60 (R571, R573, R577). Replay: what each command does where it takes effect. REPLAY_START in REPLAY with a HW_ANCHOR at START loads it
and replays from the record after it, at its herd time. The deterministic units take the anchor’s state. Outside REPLAY it is recorded
as STATE. REPLAY_CONT resumes a paused replay. Elsewhere it is recorded as STATE. REPLAY_BREAK at the break time pauses the replay.
REPLAY_END after the last record ends the replay. At a GAP it also sets GAP_STOP. With records left it changes nothing. Commands that
complete (exec answers a next state): replayStart, replayCont, replayBreak, replayEnd. -/
def Obligations.ReplayCommands : Prop :=
  (∀ (w : Writer) (r : LapRec) (s : State), May w R.LAP_CMD s → s.chip.mode = .replay → (s.chip.lapState = Ls.frozen ∨ s.chip.lapState =
      Ls.importing ∨ s.chip.lapState = Ls.ended) → s.mem.lapAt (8 * s.chip.f R.LAP_REPLAY_CFG F.LAP_REPLAY_CFG_START % ringSize) 0 = r →
      r.short = false → r.kind = 0x03 → ∃ t, Sys2Proof.Machine.exec (.replayStart w theKey) s = .next t ∧
    Quiet s t ∧ t.chip.lapState = Ls.replaying ∧ t.chip.time.ht = r.ht * 2 ^ 48 ∧ t.chip.red.pos = ((8 * s.chip.f R.LAP_REPLAY_CFG
      F.LAP_REPLAY_CFG_START % ringSize) + r.bytes) % ringSize ∧ t.chip.meas.frames = [] ∧ t.chip.mode = .replay)
  ∧ (∀ (w : Writer) (r : LapRec) (a : HwAnchor) (s : State), May w R.LAP_CMD s → s.chip.mode = .replay → s.chip.lapState = Ls.frozen →
      s.mem.lapAt (8 * s.chip.f R.LAP_REPLAY_CFG F.LAP_REPLAY_CFG_START % ringSize) 0 = r → r.short = false → r.kind = 0x03 →
      s.chip.red.anchors.find? (fun a => decide (a.pos % ringSize = (8 * s.chip.f R.LAP_REPLAY_CFG F.LAP_REPLAY_CFG_START % ringSize)))
      = some a → ∃ t, Sys2Proof.Machine.exec (.replayStart w theKey) s = .next t ∧
    Quiet s t ∧ t.chip.str = a.str ∧ t.chip.bpt = a.bpt ∧ t.chip.hrd = a.hrd ∧ t.chip.isl = a.isl ∧ t.chip.imp = a.imp ∧ t.chip.pwm =
      a.pwm)
  ∧ (∀ (w : Writer) (s : State), May w R.LAP_CMD s → s.chip.mode ≠ .replay → ∃ t, Sys2Proof.Machine.exec (.replayStart w theKey) s = .next t
      ∧
    Quiet s t ∧ t.chip = s.chip.refuse R.LAP_CMD w.ini.code)
  ∧ (∀ (w : Writer) (s : State), May w R.LAP_CMD s → s.chip.mode = .replay → s.chip.lapState = Ls.paused → ∃ t, Sys2Proof.Machine.exec
      (.replayCont w theKey) s = .next t ∧
    Only [R.LAP_STAT] [] s t ∧ t.chip.lapState = Ls.replaying)
  ∧ (∀ (w : Writer) (s : State), May w R.LAP_CMD s → (s.chip.mode ≠ .replay ∨ s.chip.lapState ≠ Ls.paused) → ∃ t, Sys2Proof.Machine.exec
      (.replayCont w theKey) s = .next t ∧
    Quiet s t ∧ t.chip = s.chip.refuse R.LAP_CMD w.ini.code)
  ∧ (∀ (s : State), Awake P.LAP s → s.chip.lapState = Ls.replaying → s.chip.red.brk = true → ∃ t, Sys2Proof.Machine.exec (.replayBreak) s =
      .next t ∧
    Only [R.LAP_STAT] [.red] s t ∧ t.chip.lapState = Ls.paused ∧ t.chip.red = { s.chip.red with brk := false })
  ∧ (∀ (s : State), Awake P.LAP s → s.chip.lapState = Ls.replaying → s.replayOver = some false → ∃ t, Sys2Proof.Machine.exec (.replayEnd) s =
      .next t ∧
    OnlyEv [R.LAP_STAT] [] s t ∧ t.chip.lapState = Ls.ended ∧ t.chip.is R.LAP_STAT F.LAP_STAT_GAP_STOP = s.chip.is R.LAP_STAT
      F.LAP_STAT_GAP_STOP)
  ∧ (∀ (s : State), Awake P.LAP s → s.chip.lapState = Ls.replaying → s.replayOver = some true → ∃ t, Sys2Proof.Machine.exec (.replayEnd) s =
      .next t ∧
    OnlyEv [R.LAP_STAT] [] s t ∧ t.chip.lapState = Ls.ended ∧ t.chip.is R.LAP_STAT F.LAP_STAT_GAP_STOP = true)
  ∧ (∀ (s : State), s.chip.powered = true → s.chip.time.gated = false → s.chip.lapState = Ls.replaying → s.replayOver = none → ∃ t,
      Sys2Proof.Machine.exec (.replayEnd) s = .next t ∧
    t = s)
end

