-- ==== Sys2Proof/Laws/Maps.lean ====
section
/-!
SUPPORT. Laws of sparse maps: what a read after a write gives, and that every operation keeps the canonical form.
-/
namespace Sys2Proof.Machine
open Sys2Proof
set_option Elab.async false

/-! ### Reading -/

/-- A removed key reads as unlisted, every other key as before. -/
theorem SMap.get_erase {α : Type} (d : Nat → α) (m : SMap α) (k j : Nat) :
    SMap.get d (m.erase k) j = if k = j then d j else SMap.get d m j := by
  induction m with
  | nil => simp [SMap.erase, SMap.get]
  | cons e t ih =>
    obtain ⟨i, v⟩ := e
    simp only [SMap.erase, SMap.get]
    by_cases h : i = k
    · subst h; simp only [if_true, ih]; by_cases hj : i = j <;> simp [hj]
    · simp only [h, if_false, SMap.get, ih]
      by_cases hj : i = j
      · subst hj; simp [Ne.symm h]
      · simp [hj]

/-- An inserted key reads its value where the map did not list it. -/
theorem SMap.get_insert {α : Type} (d : Nat → α) (m : SMap α) (k j : Nat) (v : α) (h : ∀ w, (k, w) ∉ m) :
    SMap.get d (SMap.insert m k v) j = if k = j then v else SMap.get d m j := by
  induction m with
  | nil => simp [SMap.insert, SMap.get]
  | cons e t ih =>
    obtain ⟨i, w⟩ := e
    have hi : i ≠ k := fun h' => h w (by simp [h'])
    have ht : ∀ w, (k, w) ∉ t := fun w hw => h w (by simp [hw])
    simp only [SMap.insert]
    by_cases hk : k < i
    · simp [hk, SMap.get]
    · simp only [hk, if_false, SMap.get, ih ht]
      by_cases hj : i = j
      · subst hj; simp [Ne.symm hi]
      · simp [hj]

/-- A removed key is not listed. -/
theorem SMap.not_mem_erase {α : Type} (m : SMap α) (k : Nat) (w : α) : (k, w) ∉ m.erase k := by
  induction m with
  | nil => simp [SMap.erase]
  | cons e t ih =>
    obtain ⟨i, v⟩ := e
    simp only [SMap.erase]
    by_cases h : i = k
    · simpa [h] using ih
    · simp [h, ih, Ne.symm h]

/-- A read after a write: the value written at its key, else what was there. -/
theorem SMap.get_put {α : Type} [DecidableEq α] (d : Nat → α) (m : SMap α) (k j : Nat) (v : α) :
    SMap.get d (SMap.put d m k v) j = if k = j then v else SMap.get d m j := by
  unfold SMap.put
  by_cases h : v = d k
  · rw [if_pos h, SMap.get_erase]
    by_cases hj : k = j
    · subst hj; simp [h]
    · simp [hj]
  · rw [if_neg h, SMap.get_insert d _ _ _ _ (SMap.not_mem_erase m k), SMap.get_erase]
    by_cases hj : k = j <;> simp [hj]

/-- A kept key reads as before, every other as unlisted. -/
theorem SMap.get_keep {α : Type} (d : Nat → α) (p : Nat → Bool) (m : SMap α) (j : Nat) :
    SMap.get d (m.keep p) j = if p j then SMap.get d m j else d j := by
  induction m with
  | nil => simp [SMap.keep, SMap.get]
  | cons e t ih =>
    obtain ⟨i, v⟩ := e
    have ih' : SMap.get d (List.filter (fun e => p e.1) t) j = if p j then SMap.get d t j else d j := ih
    by_cases hj : i = j
    · subst hj
      by_cases hp : p i <;> simp_all [SMap.keep, SMap.get]
    · by_cases hp : p i <;> simp_all [SMap.keep, SMap.get]

/-! ### The canonical form -/

/-- Keys that rise from above a bound rise from above a lower one. -/
theorem SMap.risesFrom_none {α : Type} (m : SMap α) (lo : Option Nat) (h : SMap.risesFrom lo m = true) :
    SMap.risesFrom none m = true := by
  cases m with
  | nil => rfl
  | cons e t => obtain ⟨k, v⟩ := e; simp_all [SMap.risesFrom]

/-- Keys that rise from above `b` rise from above every `a` below it. -/
theorem SMap.risesFrom_mono {α : Type} (m : SMap α) (a b : Nat) (hab : a ≤ b) (h : SMap.risesFrom (some b) m = true) :
    SMap.risesFrom (some a) m = true := by
  cases m with
  | nil => rfl
  | cons e t => obtain ⟨k, v⟩ := e; simp_all [SMap.risesFrom]; omega

/-- A filtered map keeps rising keys. -/
theorem SMap.risesFrom_filter {α : Type} (q : Nat × α → Bool) (m : SMap α) (lo : Option Nat)
    (h : SMap.risesFrom lo m = true) : SMap.risesFrom lo (m.filter q) = true := by
  induction m generalizing lo with
  | nil => simp [SMap.risesFrom]
  | cons e t ih =>
    obtain ⟨k, v⟩ := e
    simp only [SMap.risesFrom, Bool.and_eq_true] at h
    by_cases hq : q (k, v) = true
    · simp only [List.filter_cons, hq, if_true, SMap.risesFrom, Bool.and_eq_true]
      exact ⟨h.1, ih _ h.2⟩
    · simp only [List.filter_cons, hq]
      refine ih _ ?_
      cases lo with
      | none => exact SMap.risesFrom_none _ _ h.2
      | some l => exact SMap.risesFrom_mono _ _ _ (by simpa using Nat.le_of_lt (by simpa using h.1)) h.2

/-- Removing a key is filtering. -/
theorem SMap.erase_eq_filter {α : Type} (m : SMap α) (k : Nat) : m.erase k = m.filter fun e => decide (e.1 ≠ k) := by
  induction m with
  | nil => rfl
  | cons e t ih =>
    obtain ⟨i, v⟩ := e
    by_cases h : i = k <;> simp [SMap.erase, h, ih]

/-- An inserted key keeps the keys rising where the map did not list it. -/
theorem SMap.risesFrom_insert {α : Type} (m : SMap α) (k : Nat) (v : α) (lo : Option Nat) (hlo : ∀ l, lo = some l → l < k)
    (hk : ∀ w, (k, w) ∉ m) (h : SMap.risesFrom lo m = true) : SMap.risesFrom lo (SMap.insert m k v) = true := by
  induction m generalizing lo with
  | nil => cases lo <;> simp_all [SMap.insert, SMap.risesFrom]
  | cons e t ih =>
    obtain ⟨i, w⟩ := e
    have hi : i ≠ k := fun h' => hk w (by simp [h'])
    simp only [SMap.risesFrom, Bool.and_eq_true] at h
    by_cases hlt : k < i
    · simp only [SMap.insert, hlt, if_true, SMap.risesFrom, Bool.and_eq_true]
      refine ⟨?_, by simp, h.2⟩
      cases lo with
      | none => rfl
      | some l => simpa using hlo l rfl
    · simp only [SMap.insert, hlt, if_false, SMap.risesFrom, Bool.and_eq_true]
      exact ⟨h.1, ih _ (by rintro l ⟨⟩; omega) (fun w hw => hk w (by simp [hw])) h.2⟩

/-- Every entry of an inserted map is the new one or an old one. -/
theorem SMap.mem_insert {α : Type} (m : SMap α) (k : Nat) (v : α) (e : Nat × α) (h : e ∈ SMap.insert m k v) :
    e = (k, v) ∨ e ∈ m := by
  induction m with
  | nil => simp_all [SMap.insert]
  | cons x t ih =>
    obtain ⟨i, w⟩ := x
    by_cases hlt : k < i <;> simp only [SMap.insert, hlt, if_true, if_false, List.mem_cons] at h ⊢
    · exact h
    · rcases h with h | h
      · exact .inr (.inl h)
      · rcases ih h with h | h
        · exact .inl h
        · exact .inr (.inr h)

/-- Removing a key keeps the canonical form. -/
theorem SMap.wf_erase {α : Type} [DecidableEq α] (d : Nat → α) (m : SMap α) (k : Nat) (h : SMap.wf d m = true) :
    SMap.wf d (m.erase k) = true := by
  simp only [SMap.wf, Bool.and_eq_true, List.all_eq_true] at h ⊢
  rw [SMap.erase_eq_filter]
  exact ⟨SMap.risesFrom_filter _ _ _ h.1, fun e he => h.2 e (List.mem_of_mem_filter he)⟩

/-- Keeping some keys keeps the canonical form. -/
theorem SMap.wf_keep {α : Type} [DecidableEq α] (d : Nat → α) (p : Nat → Bool) (m : SMap α) (h : SMap.wf d m = true) :
    SMap.wf d (m.keep p) = true := by
  simp only [SMap.wf, Bool.and_eq_true, List.all_eq_true] at h ⊢
  exact ⟨SMap.risesFrom_filter _ _ _ h.1, fun e he => h.2 e (List.mem_of_mem_filter he)⟩

/-- A write keeps the canonical form. -/
theorem SMap.wf_put {α : Type} [DecidableEq α] (d : Nat → α) (m : SMap α) (k : Nat) (v : α) (h : SMap.wf d m = true) :
    SMap.wf d (SMap.put d m k v) = true := by
  unfold SMap.put
  have he := SMap.wf_erase d m k h
  by_cases hv : v = d k
  · rwa [if_pos hv]
  · rw [if_neg hv]
    simp only [SMap.wf, Bool.and_eq_true, List.all_eq_true] at he ⊢
    refine ⟨SMap.risesFrom_insert _ _ _ _ (by simp) (SMap.not_mem_erase m k) he.1, fun e hm => ?_⟩
    rcases SMap.mem_insert _ _ _ _ hm with rfl | hm
    · simpa using hv
    · exact he.2 e hm

/-- Writing a list of bytes keeps the canonical form. -/
theorem putList_wf (d : Nat → Byte) (l : List Byte) (m : SMap Byte) (a : Nat) (h : SMap.wf d m = true) :
    SMap.wf d (putList d m a l) = true := by
  induction l generalizing m a with
  | nil => exact h
  | cons b t ih => exact ih _ _ (SMap.wf_put d m a b h)

end Sys2Proof.Machine
end

