-- ==== Sys2Proof/Laws/State.lean ====
section
/-!
SUPPORT. One lemma for each field and each update of the state: a field that an update does not name is as before.
-/
namespace Sys2Proof.Machine
open Sys2Proof
set_option Elab.async false

@[simp] theorem State.onChip_chip (s : State) (g : Chip → Chip) : (s.onChip g).chip = g s.chip := rfl
@[simp] theorem State.onChip_mem (s : State) (g : Chip → Chip) : (s.onChip g).mem = s.mem := rfl
@[simp] theorem State.onChip_pending (s : State) (g : Chip → Chip) : (s.onChip g).pending = s.pending := rfl
@[simp] theorem State.onMem_chip (s : State) (g : Mem → Mem) : (s.onMem g).chip = s.chip := rfl
@[simp] theorem State.onMem_mem (s : State) (g : Mem → Mem) : (s.onMem g).mem = g s.mem := rfl
@[simp] theorem State.onMem_pending (s : State) (g : Mem → Mem) : (s.onMem g).pending = s.pending := rfl

@[simp] theorem Chip.updBoot_mode (c : Chip) (g : BootSt → BootSt) : (c.updBoot g).mode = c.mode := rfl
@[simp] theorem Chip.updBoot_regs (c : Chip) (g : BootSt → BootSt) : (c.updBoot g).regs = c.regs := rfl
@[simp] theorem Chip.updBoot_crc (c : Chip) (g : BootSt → BootSt) : (c.updBoot g).crc = c.crc := rfl
@[simp] theorem Chip.updBoot_crcBusy (c : Chip) (g : BootSt → BootSt) : (c.updBoot g).crcBusy = c.crcBusy := rfl
@[simp] theorem Chip.updBoot_freeCtr (c : Chip) (g : BootSt → BootSt) : (c.updBoot g).freeCtr = c.freeCtr := rfl
@[simp] theorem Chip.updBoot_safe (c : Chip) (g : BootSt → BootSt) : (c.updBoot g).safe = c.safe := rfl
@[simp] theorem Chip.updBoot_bus (c : Chip) (g : BootSt → BootSt) : (c.updBoot g).bus = c.bus := rfl
@[simp] theorem Chip.updBoot_time (c : Chip) (g : BootSt → BootSt) : (c.updBoot g).time = c.time := rfl
@[simp] theorem Chip.updBoot_lap (c : Chip) (g : BootSt → BootSt) : (c.updBoot g).lap = c.lap := rfl
@[simp] theorem Chip.updBoot_meas (c : Chip) (g : BootSt → BootSt) : (c.updBoot g).meas = c.meas := rfl
@[simp] theorem Chip.updBoot_str (c : Chip) (g : BootSt → BootSt) : (c.updBoot g).str = c.str := rfl
@[simp] theorem Chip.updBoot_bpt (c : Chip) (g : BootSt → BootSt) : (c.updBoot g).bpt = c.bpt := rfl
@[simp] theorem Chip.updBoot_hrd (c : Chip) (g : BootSt → BootSt) : (c.updBoot g).hrd = c.hrd := rfl
@[simp] theorem Chip.updBoot_isl (c : Chip) (g : BootSt → BootSt) : (c.updBoot g).isl = c.isl := rfl
@[simp] theorem Chip.updBoot_imp (c : Chip) (g : BootSt → BootSt) : (c.updBoot g).imp = c.imp := rfl
@[simp] theorem Chip.updBoot_pwm (c : Chip) (g : BootSt → BootSt) : (c.updBoot g).pwm = c.pwm := rfl
@[simp] theorem Chip.updBoot_mtr (c : Chip) (g : BootSt → BootSt) : (c.updBoot g).mtr = c.mtr := rfl
@[simp] theorem Chip.updBoot_lanes (c : Chip) (g : BootSt → BootSt) : (c.updBoot g).lanes = c.lanes := rfl
@[simp] theorem Chip.updBoot_ethBusy (c : Chip) (g : BootSt → BootSt) : (c.updBoot g).ethBusy = c.ethBusy := rfl
@[simp] theorem Chip.updBoot_out (c : Chip) (g : BootSt → BootSt) : (c.updBoot g).out = c.out := rfl
@[simp] theorem Chip.updBoot_fab (c : Chip) (g : BootSt → BootSt) : (c.updBoot g).fab = c.fab := rfl
@[simp] theorem Chip.updBoot_shd (c : Chip) (g : BootSt → BootSt) : (c.updBoot g).shd = c.shd := rfl
@[simp] theorem Chip.updBoot_red (c : Chip) (g : BootSt → BootSt) : (c.updBoot g).red = c.red := rfl
@[simp] theorem Chip.updBoot_pow (c : Chip) (g : BootSt → BootSt) : (c.updBoot g).pow = c.pow := rfl

@[simp] theorem Chip.updTime_mode (c : Chip) (g : TimeSt → TimeSt) : (c.updTime g).mode = c.mode := rfl
@[simp] theorem Chip.updTime_regs (c : Chip) (g : TimeSt → TimeSt) : (c.updTime g).regs = c.regs := rfl
@[simp] theorem Chip.updTime_crc (c : Chip) (g : TimeSt → TimeSt) : (c.updTime g).crc = c.crc := rfl
@[simp] theorem Chip.updTime_crcBusy (c : Chip) (g : TimeSt → TimeSt) : (c.updTime g).crcBusy = c.crcBusy := rfl
@[simp] theorem Chip.updTime_freeCtr (c : Chip) (g : TimeSt → TimeSt) : (c.updTime g).freeCtr = c.freeCtr := rfl
@[simp] theorem Chip.updTime_safe (c : Chip) (g : TimeSt → TimeSt) : (c.updTime g).safe = c.safe := rfl
@[simp] theorem Chip.updTime_bus (c : Chip) (g : TimeSt → TimeSt) : (c.updTime g).bus = c.bus := rfl
@[simp] theorem Chip.updTime_lap (c : Chip) (g : TimeSt → TimeSt) : (c.updTime g).lap = c.lap := rfl
@[simp] theorem Chip.updTime_meas (c : Chip) (g : TimeSt → TimeSt) : (c.updTime g).meas = c.meas := rfl
@[simp] theorem Chip.updTime_str (c : Chip) (g : TimeSt → TimeSt) : (c.updTime g).str = c.str := rfl
@[simp] theorem Chip.updTime_bpt (c : Chip) (g : TimeSt → TimeSt) : (c.updTime g).bpt = c.bpt := rfl
@[simp] theorem Chip.updTime_hrd (c : Chip) (g : TimeSt → TimeSt) : (c.updTime g).hrd = c.hrd := rfl
@[simp] theorem Chip.updTime_isl (c : Chip) (g : TimeSt → TimeSt) : (c.updTime g).isl = c.isl := rfl
@[simp] theorem Chip.updTime_imp (c : Chip) (g : TimeSt → TimeSt) : (c.updTime g).imp = c.imp := rfl
@[simp] theorem Chip.updTime_pwm (c : Chip) (g : TimeSt → TimeSt) : (c.updTime g).pwm = c.pwm := rfl
@[simp] theorem Chip.updTime_mtr (c : Chip) (g : TimeSt → TimeSt) : (c.updTime g).mtr = c.mtr := rfl
@[simp] theorem Chip.updTime_lanes (c : Chip) (g : TimeSt → TimeSt) : (c.updTime g).lanes = c.lanes := rfl
@[simp] theorem Chip.updTime_ethBusy (c : Chip) (g : TimeSt → TimeSt) : (c.updTime g).ethBusy = c.ethBusy := rfl
@[simp] theorem Chip.updTime_out (c : Chip) (g : TimeSt → TimeSt) : (c.updTime g).out = c.out := rfl
@[simp] theorem Chip.updTime_fab (c : Chip) (g : TimeSt → TimeSt) : (c.updTime g).fab = c.fab := rfl
@[simp] theorem Chip.updTime_shd (c : Chip) (g : TimeSt → TimeSt) : (c.updTime g).shd = c.shd := rfl
@[simp] theorem Chip.updTime_red (c : Chip) (g : TimeSt → TimeSt) : (c.updTime g).red = c.red := rfl
@[simp] theorem Chip.updTime_pow (c : Chip) (g : TimeSt → TimeSt) : (c.updTime g).pow = c.pow := rfl
@[simp] theorem Chip.updTime_boot (c : Chip) (g : TimeSt → TimeSt) : (c.updTime g).boot = c.boot := rfl

@[simp] theorem Chip.updFab_mode (c : Chip) (g : FabSt → FabSt) : (c.updFab g).mode = c.mode := rfl
@[simp] theorem Chip.updFab_regs (c : Chip) (g : FabSt → FabSt) : (c.updFab g).regs = c.regs := rfl
@[simp] theorem Chip.updFab_crc (c : Chip) (g : FabSt → FabSt) : (c.updFab g).crc = c.crc := rfl
@[simp] theorem Chip.updFab_crcBusy (c : Chip) (g : FabSt → FabSt) : (c.updFab g).crcBusy = c.crcBusy := rfl
@[simp] theorem Chip.updFab_freeCtr (c : Chip) (g : FabSt → FabSt) : (c.updFab g).freeCtr = c.freeCtr := rfl
@[simp] theorem Chip.updFab_safe (c : Chip) (g : FabSt → FabSt) : (c.updFab g).safe = c.safe := rfl
@[simp] theorem Chip.updFab_bus (c : Chip) (g : FabSt → FabSt) : (c.updFab g).bus = c.bus := rfl
@[simp] theorem Chip.updFab_time (c : Chip) (g : FabSt → FabSt) : (c.updFab g).time = c.time := rfl
@[simp] theorem Chip.updFab_lap (c : Chip) (g : FabSt → FabSt) : (c.updFab g).lap = c.lap := rfl
@[simp] theorem Chip.updFab_meas (c : Chip) (g : FabSt → FabSt) : (c.updFab g).meas = c.meas := rfl
@[simp] theorem Chip.updFab_str (c : Chip) (g : FabSt → FabSt) : (c.updFab g).str = c.str := rfl
@[simp] theorem Chip.updFab_bpt (c : Chip) (g : FabSt → FabSt) : (c.updFab g).bpt = c.bpt := rfl
@[simp] theorem Chip.updFab_hrd (c : Chip) (g : FabSt → FabSt) : (c.updFab g).hrd = c.hrd := rfl
@[simp] theorem Chip.updFab_isl (c : Chip) (g : FabSt → FabSt) : (c.updFab g).isl = c.isl := rfl
@[simp] theorem Chip.updFab_imp (c : Chip) (g : FabSt → FabSt) : (c.updFab g).imp = c.imp := rfl
@[simp] theorem Chip.updFab_pwm (c : Chip) (g : FabSt → FabSt) : (c.updFab g).pwm = c.pwm := rfl
@[simp] theorem Chip.updFab_mtr (c : Chip) (g : FabSt → FabSt) : (c.updFab g).mtr = c.mtr := rfl
@[simp] theorem Chip.updFab_lanes (c : Chip) (g : FabSt → FabSt) : (c.updFab g).lanes = c.lanes := rfl
@[simp] theorem Chip.updFab_ethBusy (c : Chip) (g : FabSt → FabSt) : (c.updFab g).ethBusy = c.ethBusy := rfl
@[simp] theorem Chip.updFab_out (c : Chip) (g : FabSt → FabSt) : (c.updFab g).out = c.out := rfl
@[simp] theorem Chip.updFab_shd (c : Chip) (g : FabSt → FabSt) : (c.updFab g).shd = c.shd := rfl
@[simp] theorem Chip.updFab_red (c : Chip) (g : FabSt → FabSt) : (c.updFab g).red = c.red := rfl
@[simp] theorem Chip.updFab_pow (c : Chip) (g : FabSt → FabSt) : (c.updFab g).pow = c.pow := rfl
@[simp] theorem Chip.updFab_boot (c : Chip) (g : FabSt → FabSt) : (c.updFab g).boot = c.boot := rfl

@[simp] theorem Chip.updLane_mode (c : Chip) (n : Nat) (g : LaneSt → LaneSt) : (c.updLane n g).mode = c.mode := rfl
@[simp] theorem Chip.updLane_regs (c : Chip) (n : Nat) (g : LaneSt → LaneSt) : (c.updLane n g).regs = c.regs := rfl
@[simp] theorem Chip.updLane_crc (c : Chip) (n : Nat) (g : LaneSt → LaneSt) : (c.updLane n g).crc = c.crc := rfl
@[simp] theorem Chip.updLane_crcBusy (c : Chip) (n : Nat) (g : LaneSt → LaneSt) : (c.updLane n g).crcBusy = c.crcBusy := rfl
@[simp] theorem Chip.updLane_freeCtr (c : Chip) (n : Nat) (g : LaneSt → LaneSt) : (c.updLane n g).freeCtr = c.freeCtr := rfl
@[simp] theorem Chip.updLane_safe (c : Chip) (n : Nat) (g : LaneSt → LaneSt) : (c.updLane n g).safe = c.safe := rfl
@[simp] theorem Chip.updLane_bus (c : Chip) (n : Nat) (g : LaneSt → LaneSt) : (c.updLane n g).bus = c.bus := rfl
@[simp] theorem Chip.updLane_time (c : Chip) (n : Nat) (g : LaneSt → LaneSt) : (c.updLane n g).time = c.time := rfl
@[simp] theorem Chip.updLane_lap (c : Chip) (n : Nat) (g : LaneSt → LaneSt) : (c.updLane n g).lap = c.lap := rfl
@[simp] theorem Chip.updLane_meas (c : Chip) (n : Nat) (g : LaneSt → LaneSt) : (c.updLane n g).meas = c.meas := rfl
@[simp] theorem Chip.updLane_str (c : Chip) (n : Nat) (g : LaneSt → LaneSt) : (c.updLane n g).str = c.str := rfl
@[simp] theorem Chip.updLane_bpt (c : Chip) (n : Nat) (g : LaneSt → LaneSt) : (c.updLane n g).bpt = c.bpt := rfl
@[simp] theorem Chip.updLane_hrd (c : Chip) (n : Nat) (g : LaneSt → LaneSt) : (c.updLane n g).hrd = c.hrd := rfl
@[simp] theorem Chip.updLane_isl (c : Chip) (n : Nat) (g : LaneSt → LaneSt) : (c.updLane n g).isl = c.isl := rfl
@[simp] theorem Chip.updLane_imp (c : Chip) (n : Nat) (g : LaneSt → LaneSt) : (c.updLane n g).imp = c.imp := rfl
@[simp] theorem Chip.updLane_pwm (c : Chip) (n : Nat) (g : LaneSt → LaneSt) : (c.updLane n g).pwm = c.pwm := rfl
@[simp] theorem Chip.updLane_mtr (c : Chip) (n : Nat) (g : LaneSt → LaneSt) : (c.updLane n g).mtr = c.mtr := rfl
@[simp] theorem Chip.updLane_ethBusy (c : Chip) (n : Nat) (g : LaneSt → LaneSt) : (c.updLane n g).ethBusy = c.ethBusy := rfl
@[simp] theorem Chip.updLane_out (c : Chip) (n : Nat) (g : LaneSt → LaneSt) : (c.updLane n g).out = c.out := rfl
@[simp] theorem Chip.updLane_fab (c : Chip) (n : Nat) (g : LaneSt → LaneSt) : (c.updLane n g).fab = c.fab := rfl
@[simp] theorem Chip.updLane_shd (c : Chip) (n : Nat) (g : LaneSt → LaneSt) : (c.updLane n g).shd = c.shd := rfl
@[simp] theorem Chip.updLane_red (c : Chip) (n : Nat) (g : LaneSt → LaneSt) : (c.updLane n g).red = c.red := rfl
@[simp] theorem Chip.updLane_pow (c : Chip) (n : Nat) (g : LaneSt → LaneSt) : (c.updLane n g).pow = c.pow := rfl
@[simp] theorem Chip.updLane_boot (c : Chip) (n : Nat) (g : LaneSt → LaneSt) : (c.updLane n g).boot = c.boot := rfl

@[simp] theorem Chip.updTb_mode (c : Chip) (n : Nat) (g : PwmTb → PwmTb) : (c.updTb n g).mode = c.mode := rfl
@[simp] theorem Chip.updTb_regs (c : Chip) (n : Nat) (g : PwmTb → PwmTb) : (c.updTb n g).regs = c.regs := rfl
@[simp] theorem Chip.updTb_crc (c : Chip) (n : Nat) (g : PwmTb → PwmTb) : (c.updTb n g).crc = c.crc := rfl
@[simp] theorem Chip.updTb_crcBusy (c : Chip) (n : Nat) (g : PwmTb → PwmTb) : (c.updTb n g).crcBusy = c.crcBusy := rfl
@[simp] theorem Chip.updTb_freeCtr (c : Chip) (n : Nat) (g : PwmTb → PwmTb) : (c.updTb n g).freeCtr = c.freeCtr := rfl
@[simp] theorem Chip.updTb_safe (c : Chip) (n : Nat) (g : PwmTb → PwmTb) : (c.updTb n g).safe = c.safe := rfl
@[simp] theorem Chip.updTb_bus (c : Chip) (n : Nat) (g : PwmTb → PwmTb) : (c.updTb n g).bus = c.bus := rfl
@[simp] theorem Chip.updTb_time (c : Chip) (n : Nat) (g : PwmTb → PwmTb) : (c.updTb n g).time = c.time := rfl
@[simp] theorem Chip.updTb_lap (c : Chip) (n : Nat) (g : PwmTb → PwmTb) : (c.updTb n g).lap = c.lap := rfl
@[simp] theorem Chip.updTb_meas (c : Chip) (n : Nat) (g : PwmTb → PwmTb) : (c.updTb n g).meas = c.meas := rfl
@[simp] theorem Chip.updTb_str (c : Chip) (n : Nat) (g : PwmTb → PwmTb) : (c.updTb n g).str = c.str := rfl
@[simp] theorem Chip.updTb_bpt (c : Chip) (n : Nat) (g : PwmTb → PwmTb) : (c.updTb n g).bpt = c.bpt := rfl
@[simp] theorem Chip.updTb_hrd (c : Chip) (n : Nat) (g : PwmTb → PwmTb) : (c.updTb n g).hrd = c.hrd := rfl
@[simp] theorem Chip.updTb_isl (c : Chip) (n : Nat) (g : PwmTb → PwmTb) : (c.updTb n g).isl = c.isl := rfl
@[simp] theorem Chip.updTb_imp (c : Chip) (n : Nat) (g : PwmTb → PwmTb) : (c.updTb n g).imp = c.imp := rfl
@[simp] theorem Chip.updTb_mtr (c : Chip) (n : Nat) (g : PwmTb → PwmTb) : (c.updTb n g).mtr = c.mtr := rfl
@[simp] theorem Chip.updTb_lanes (c : Chip) (n : Nat) (g : PwmTb → PwmTb) : (c.updTb n g).lanes = c.lanes := rfl
@[simp] theorem Chip.updTb_ethBusy (c : Chip) (n : Nat) (g : PwmTb → PwmTb) : (c.updTb n g).ethBusy = c.ethBusy := rfl
@[simp] theorem Chip.updTb_out (c : Chip) (n : Nat) (g : PwmTb → PwmTb) : (c.updTb n g).out = c.out := rfl
@[simp] theorem Chip.updTb_fab (c : Chip) (n : Nat) (g : PwmTb → PwmTb) : (c.updTb n g).fab = c.fab := rfl
@[simp] theorem Chip.updTb_shd (c : Chip) (n : Nat) (g : PwmTb → PwmTb) : (c.updTb n g).shd = c.shd := rfl
@[simp] theorem Chip.updTb_red (c : Chip) (n : Nat) (g : PwmTb → PwmTb) : (c.updTb n g).red = c.red := rfl
@[simp] theorem Chip.updTb_pow (c : Chip) (n : Nat) (g : PwmTb → PwmTb) : (c.updTb n g).pow = c.pow := rfl
@[simp] theorem Chip.updTb_boot (c : Chip) (n : Nat) (g : PwmTb → PwmTb) : (c.updTb n g).boot = c.boot := rfl

@[simp] theorem Chip.updCh_mode (c : Chip) (n : Nat) (g : PwmCh → PwmCh) : (c.updCh n g).mode = c.mode := rfl
@[simp] theorem Chip.updCh_regs (c : Chip) (n : Nat) (g : PwmCh → PwmCh) : (c.updCh n g).regs = c.regs := rfl
@[simp] theorem Chip.updCh_crc (c : Chip) (n : Nat) (g : PwmCh → PwmCh) : (c.updCh n g).crc = c.crc := rfl
@[simp] theorem Chip.updCh_crcBusy (c : Chip) (n : Nat) (g : PwmCh → PwmCh) : (c.updCh n g).crcBusy = c.crcBusy := rfl
@[simp] theorem Chip.updCh_freeCtr (c : Chip) (n : Nat) (g : PwmCh → PwmCh) : (c.updCh n g).freeCtr = c.freeCtr := rfl
@[simp] theorem Chip.updCh_safe (c : Chip) (n : Nat) (g : PwmCh → PwmCh) : (c.updCh n g).safe = c.safe := rfl
@[simp] theorem Chip.updCh_bus (c : Chip) (n : Nat) (g : PwmCh → PwmCh) : (c.updCh n g).bus = c.bus := rfl
@[simp] theorem Chip.updCh_time (c : Chip) (n : Nat) (g : PwmCh → PwmCh) : (c.updCh n g).time = c.time := rfl
@[simp] theorem Chip.updCh_lap (c : Chip) (n : Nat) (g : PwmCh → PwmCh) : (c.updCh n g).lap = c.lap := rfl
@[simp] theorem Chip.updCh_meas (c : Chip) (n : Nat) (g : PwmCh → PwmCh) : (c.updCh n g).meas = c.meas := rfl
@[simp] theorem Chip.updCh_str (c : Chip) (n : Nat) (g : PwmCh → PwmCh) : (c.updCh n g).str = c.str := rfl
@[simp] theorem Chip.updCh_bpt (c : Chip) (n : Nat) (g : PwmCh → PwmCh) : (c.updCh n g).bpt = c.bpt := rfl
@[simp] theorem Chip.updCh_hrd (c : Chip) (n : Nat) (g : PwmCh → PwmCh) : (c.updCh n g).hrd = c.hrd := rfl
@[simp] theorem Chip.updCh_isl (c : Chip) (n : Nat) (g : PwmCh → PwmCh) : (c.updCh n g).isl = c.isl := rfl
@[simp] theorem Chip.updCh_imp (c : Chip) (n : Nat) (g : PwmCh → PwmCh) : (c.updCh n g).imp = c.imp := rfl
@[simp] theorem Chip.updCh_mtr (c : Chip) (n : Nat) (g : PwmCh → PwmCh) : (c.updCh n g).mtr = c.mtr := rfl
@[simp] theorem Chip.updCh_lanes (c : Chip) (n : Nat) (g : PwmCh → PwmCh) : (c.updCh n g).lanes = c.lanes := rfl
@[simp] theorem Chip.updCh_ethBusy (c : Chip) (n : Nat) (g : PwmCh → PwmCh) : (c.updCh n g).ethBusy = c.ethBusy := rfl
@[simp] theorem Chip.updCh_out (c : Chip) (n : Nat) (g : PwmCh → PwmCh) : (c.updCh n g).out = c.out := rfl
@[simp] theorem Chip.updCh_fab (c : Chip) (n : Nat) (g : PwmCh → PwmCh) : (c.updCh n g).fab = c.fab := rfl
@[simp] theorem Chip.updCh_shd (c : Chip) (n : Nat) (g : PwmCh → PwmCh) : (c.updCh n g).shd = c.shd := rfl
@[simp] theorem Chip.updCh_red (c : Chip) (n : Nat) (g : PwmCh → PwmCh) : (c.updCh n g).red = c.red := rfl
@[simp] theorem Chip.updCh_pow (c : Chip) (n : Nat) (g : PwmCh → PwmCh) : (c.updCh n g).pow = c.pow := rfl
@[simp] theorem Chip.updCh_boot (c : Chip) (n : Nat) (g : PwmCh → PwmCh) : (c.updCh n g).boot = c.boot := rfl

@[simp] theorem Chip.updTrp_mode (c : Chip) (n : Nat) (g : TripSrc → TripSrc) : (c.updTrp n g).mode = c.mode := rfl
@[simp] theorem Chip.updTrp_regs (c : Chip) (n : Nat) (g : TripSrc → TripSrc) : (c.updTrp n g).regs = c.regs := rfl
@[simp] theorem Chip.updTrp_crc (c : Chip) (n : Nat) (g : TripSrc → TripSrc) : (c.updTrp n g).crc = c.crc := rfl
@[simp] theorem Chip.updTrp_crcBusy (c : Chip) (n : Nat) (g : TripSrc → TripSrc) : (c.updTrp n g).crcBusy = c.crcBusy := rfl
@[simp] theorem Chip.updTrp_freeCtr (c : Chip) (n : Nat) (g : TripSrc → TripSrc) : (c.updTrp n g).freeCtr = c.freeCtr := rfl
@[simp] theorem Chip.updTrp_safe (c : Chip) (n : Nat) (g : TripSrc → TripSrc) : (c.updTrp n g).safe = c.safe := rfl
@[simp] theorem Chip.updTrp_bus (c : Chip) (n : Nat) (g : TripSrc → TripSrc) : (c.updTrp n g).bus = c.bus := rfl
@[simp] theorem Chip.updTrp_time (c : Chip) (n : Nat) (g : TripSrc → TripSrc) : (c.updTrp n g).time = c.time := rfl
@[simp] theorem Chip.updTrp_lap (c : Chip) (n : Nat) (g : TripSrc → TripSrc) : (c.updTrp n g).lap = c.lap := rfl
@[simp] theorem Chip.updTrp_meas (c : Chip) (n : Nat) (g : TripSrc → TripSrc) : (c.updTrp n g).meas = c.meas := rfl
@[simp] theorem Chip.updTrp_str (c : Chip) (n : Nat) (g : TripSrc → TripSrc) : (c.updTrp n g).str = c.str := rfl
@[simp] theorem Chip.updTrp_bpt (c : Chip) (n : Nat) (g : TripSrc → TripSrc) : (c.updTrp n g).bpt = c.bpt := rfl
@[simp] theorem Chip.updTrp_hrd (c : Chip) (n : Nat) (g : TripSrc → TripSrc) : (c.updTrp n g).hrd = c.hrd := rfl
@[simp] theorem Chip.updTrp_isl (c : Chip) (n : Nat) (g : TripSrc → TripSrc) : (c.updTrp n g).isl = c.isl := rfl
@[simp] theorem Chip.updTrp_imp (c : Chip) (n : Nat) (g : TripSrc → TripSrc) : (c.updTrp n g).imp = c.imp := rfl
@[simp] theorem Chip.updTrp_mtr (c : Chip) (n : Nat) (g : TripSrc → TripSrc) : (c.updTrp n g).mtr = c.mtr := rfl
@[simp] theorem Chip.updTrp_lanes (c : Chip) (n : Nat) (g : TripSrc → TripSrc) : (c.updTrp n g).lanes = c.lanes := rfl
@[simp] theorem Chip.updTrp_ethBusy (c : Chip) (n : Nat) (g : TripSrc → TripSrc) : (c.updTrp n g).ethBusy = c.ethBusy := rfl
@[simp] theorem Chip.updTrp_out (c : Chip) (n : Nat) (g : TripSrc → TripSrc) : (c.updTrp n g).out = c.out := rfl
@[simp] theorem Chip.updTrp_fab (c : Chip) (n : Nat) (g : TripSrc → TripSrc) : (c.updTrp n g).fab = c.fab := rfl
@[simp] theorem Chip.updTrp_shd (c : Chip) (n : Nat) (g : TripSrc → TripSrc) : (c.updTrp n g).shd = c.shd := rfl
@[simp] theorem Chip.updTrp_red (c : Chip) (n : Nat) (g : TripSrc → TripSrc) : (c.updTrp n g).red = c.red := rfl
@[simp] theorem Chip.updTrp_pow (c : Chip) (n : Nat) (g : TripSrc → TripSrc) : (c.updTrp n g).pow = c.pow := rfl
@[simp] theorem Chip.updTrp_boot (c : Chip) (n : Nat) (g : TripSrc → TripSrc) : (c.updTrp n g).boot = c.boot := rfl

@[simp] theorem Chip.updGdi_mode (c : Chip) (n : Nat) (g : GdiCh → GdiCh) : (c.updGdi n g).mode = c.mode := rfl
@[simp] theorem Chip.updGdi_regs (c : Chip) (n : Nat) (g : GdiCh → GdiCh) : (c.updGdi n g).regs = c.regs := rfl
@[simp] theorem Chip.updGdi_crc (c : Chip) (n : Nat) (g : GdiCh → GdiCh) : (c.updGdi n g).crc = c.crc := rfl
@[simp] theorem Chip.updGdi_crcBusy (c : Chip) (n : Nat) (g : GdiCh → GdiCh) : (c.updGdi n g).crcBusy = c.crcBusy := rfl
@[simp] theorem Chip.updGdi_freeCtr (c : Chip) (n : Nat) (g : GdiCh → GdiCh) : (c.updGdi n g).freeCtr = c.freeCtr := rfl
@[simp] theorem Chip.updGdi_safe (c : Chip) (n : Nat) (g : GdiCh → GdiCh) : (c.updGdi n g).safe = c.safe := rfl
@[simp] theorem Chip.updGdi_bus (c : Chip) (n : Nat) (g : GdiCh → GdiCh) : (c.updGdi n g).bus = c.bus := rfl
@[simp] theorem Chip.updGdi_time (c : Chip) (n : Nat) (g : GdiCh → GdiCh) : (c.updGdi n g).time = c.time := rfl
@[simp] theorem Chip.updGdi_lap (c : Chip) (n : Nat) (g : GdiCh → GdiCh) : (c.updGdi n g).lap = c.lap := rfl
@[simp] theorem Chip.updGdi_meas (c : Chip) (n : Nat) (g : GdiCh → GdiCh) : (c.updGdi n g).meas = c.meas := rfl
@[simp] theorem Chip.updGdi_str (c : Chip) (n : Nat) (g : GdiCh → GdiCh) : (c.updGdi n g).str = c.str := rfl
@[simp] theorem Chip.updGdi_bpt (c : Chip) (n : Nat) (g : GdiCh → GdiCh) : (c.updGdi n g).bpt = c.bpt := rfl
@[simp] theorem Chip.updGdi_hrd (c : Chip) (n : Nat) (g : GdiCh → GdiCh) : (c.updGdi n g).hrd = c.hrd := rfl
@[simp] theorem Chip.updGdi_isl (c : Chip) (n : Nat) (g : GdiCh → GdiCh) : (c.updGdi n g).isl = c.isl := rfl
@[simp] theorem Chip.updGdi_imp (c : Chip) (n : Nat) (g : GdiCh → GdiCh) : (c.updGdi n g).imp = c.imp := rfl
@[simp] theorem Chip.updGdi_mtr (c : Chip) (n : Nat) (g : GdiCh → GdiCh) : (c.updGdi n g).mtr = c.mtr := rfl
@[simp] theorem Chip.updGdi_lanes (c : Chip) (n : Nat) (g : GdiCh → GdiCh) : (c.updGdi n g).lanes = c.lanes := rfl
@[simp] theorem Chip.updGdi_ethBusy (c : Chip) (n : Nat) (g : GdiCh → GdiCh) : (c.updGdi n g).ethBusy = c.ethBusy := rfl
@[simp] theorem Chip.updGdi_out (c : Chip) (n : Nat) (g : GdiCh → GdiCh) : (c.updGdi n g).out = c.out := rfl
@[simp] theorem Chip.updGdi_fab (c : Chip) (n : Nat) (g : GdiCh → GdiCh) : (c.updGdi n g).fab = c.fab := rfl
@[simp] theorem Chip.updGdi_shd (c : Chip) (n : Nat) (g : GdiCh → GdiCh) : (c.updGdi n g).shd = c.shd := rfl
@[simp] theorem Chip.updGdi_red (c : Chip) (n : Nat) (g : GdiCh → GdiCh) : (c.updGdi n g).red = c.red := rfl
@[simp] theorem Chip.updGdi_pow (c : Chip) (n : Nat) (g : GdiCh → GdiCh) : (c.updGdi n g).pow = c.pow := rfl
@[simp] theorem Chip.updGdi_boot (c : Chip) (n : Nat) (g : GdiCh → GdiCh) : (c.updGdi n g).boot = c.boot := rfl

@[simp] theorem Chip.updAcmp_mode (c : Chip) (n : Nat) (g : AcmpCh → AcmpCh) : (c.updAcmp n g).mode = c.mode := rfl
@[simp] theorem Chip.updAcmp_regs (c : Chip) (n : Nat) (g : AcmpCh → AcmpCh) : (c.updAcmp n g).regs = c.regs := rfl
@[simp] theorem Chip.updAcmp_crc (c : Chip) (n : Nat) (g : AcmpCh → AcmpCh) : (c.updAcmp n g).crc = c.crc := rfl
@[simp] theorem Chip.updAcmp_crcBusy (c : Chip) (n : Nat) (g : AcmpCh → AcmpCh) : (c.updAcmp n g).crcBusy = c.crcBusy := rfl
@[simp] theorem Chip.updAcmp_freeCtr (c : Chip) (n : Nat) (g : AcmpCh → AcmpCh) : (c.updAcmp n g).freeCtr = c.freeCtr := rfl
@[simp] theorem Chip.updAcmp_safe (c : Chip) (n : Nat) (g : AcmpCh → AcmpCh) : (c.updAcmp n g).safe = c.safe := rfl
@[simp] theorem Chip.updAcmp_bus (c : Chip) (n : Nat) (g : AcmpCh → AcmpCh) : (c.updAcmp n g).bus = c.bus := rfl
@[simp] theorem Chip.updAcmp_time (c : Chip) (n : Nat) (g : AcmpCh → AcmpCh) : (c.updAcmp n g).time = c.time := rfl
@[simp] theorem Chip.updAcmp_lap (c : Chip) (n : Nat) (g : AcmpCh → AcmpCh) : (c.updAcmp n g).lap = c.lap := rfl
@[simp] theorem Chip.updAcmp_str (c : Chip) (n : Nat) (g : AcmpCh → AcmpCh) : (c.updAcmp n g).str = c.str := rfl
@[simp] theorem Chip.updAcmp_bpt (c : Chip) (n : Nat) (g : AcmpCh → AcmpCh) : (c.updAcmp n g).bpt = c.bpt := rfl
@[simp] theorem Chip.updAcmp_hrd (c : Chip) (n : Nat) (g : AcmpCh → AcmpCh) : (c.updAcmp n g).hrd = c.hrd := rfl
@[simp] theorem Chip.updAcmp_isl (c : Chip) (n : Nat) (g : AcmpCh → AcmpCh) : (c.updAcmp n g).isl = c.isl := rfl
@[simp] theorem Chip.updAcmp_imp (c : Chip) (n : Nat) (g : AcmpCh → AcmpCh) : (c.updAcmp n g).imp = c.imp := rfl
@[simp] theorem Chip.updAcmp_pwm (c : Chip) (n : Nat) (g : AcmpCh → AcmpCh) : (c.updAcmp n g).pwm = c.pwm := rfl
@[simp] theorem Chip.updAcmp_mtr (c : Chip) (n : Nat) (g : AcmpCh → AcmpCh) : (c.updAcmp n g).mtr = c.mtr := rfl
@[simp] theorem Chip.updAcmp_lanes (c : Chip) (n : Nat) (g : AcmpCh → AcmpCh) : (c.updAcmp n g).lanes = c.lanes := rfl
@[simp] theorem Chip.updAcmp_ethBusy (c : Chip) (n : Nat) (g : AcmpCh → AcmpCh) : (c.updAcmp n g).ethBusy = c.ethBusy := rfl
@[simp] theorem Chip.updAcmp_out (c : Chip) (n : Nat) (g : AcmpCh → AcmpCh) : (c.updAcmp n g).out = c.out := rfl
@[simp] theorem Chip.updAcmp_fab (c : Chip) (n : Nat) (g : AcmpCh → AcmpCh) : (c.updAcmp n g).fab = c.fab := rfl
@[simp] theorem Chip.updAcmp_shd (c : Chip) (n : Nat) (g : AcmpCh → AcmpCh) : (c.updAcmp n g).shd = c.shd := rfl
@[simp] theorem Chip.updAcmp_red (c : Chip) (n : Nat) (g : AcmpCh → AcmpCh) : (c.updAcmp n g).red = c.red := rfl
@[simp] theorem Chip.updAcmp_pow (c : Chip) (n : Nat) (g : AcmpCh → AcmpCh) : (c.updAcmp n g).pow = c.pow := rfl
@[simp] theorem Chip.updAcmp_boot (c : Chip) (n : Nat) (g : AcmpCh → AcmpCh) : (c.updAcmp n g).boot = c.boot := rfl

@[simp] theorem Chip.updBpt_mode (c : Chip) (n : Nat) (g : BptCh → BptCh) : (c.updBpt n g).mode = c.mode := rfl
@[simp] theorem Chip.updBpt_regs (c : Chip) (n : Nat) (g : BptCh → BptCh) : (c.updBpt n g).regs = c.regs := rfl
@[simp] theorem Chip.updBpt_crc (c : Chip) (n : Nat) (g : BptCh → BptCh) : (c.updBpt n g).crc = c.crc := rfl
@[simp] theorem Chip.updBpt_crcBusy (c : Chip) (n : Nat) (g : BptCh → BptCh) : (c.updBpt n g).crcBusy = c.crcBusy := rfl
@[simp] theorem Chip.updBpt_freeCtr (c : Chip) (n : Nat) (g : BptCh → BptCh) : (c.updBpt n g).freeCtr = c.freeCtr := rfl
@[simp] theorem Chip.updBpt_safe (c : Chip) (n : Nat) (g : BptCh → BptCh) : (c.updBpt n g).safe = c.safe := rfl
@[simp] theorem Chip.updBpt_bus (c : Chip) (n : Nat) (g : BptCh → BptCh) : (c.updBpt n g).bus = c.bus := rfl
@[simp] theorem Chip.updBpt_time (c : Chip) (n : Nat) (g : BptCh → BptCh) : (c.updBpt n g).time = c.time := rfl
@[simp] theorem Chip.updBpt_lap (c : Chip) (n : Nat) (g : BptCh → BptCh) : (c.updBpt n g).lap = c.lap := rfl
@[simp] theorem Chip.updBpt_meas (c : Chip) (n : Nat) (g : BptCh → BptCh) : (c.updBpt n g).meas = c.meas := rfl
@[simp] theorem Chip.updBpt_str (c : Chip) (n : Nat) (g : BptCh → BptCh) : (c.updBpt n g).str = c.str := rfl
@[simp] theorem Chip.updBpt_hrd (c : Chip) (n : Nat) (g : BptCh → BptCh) : (c.updBpt n g).hrd = c.hrd := rfl
@[simp] theorem Chip.updBpt_isl (c : Chip) (n : Nat) (g : BptCh → BptCh) : (c.updBpt n g).isl = c.isl := rfl
@[simp] theorem Chip.updBpt_imp (c : Chip) (n : Nat) (g : BptCh → BptCh) : (c.updBpt n g).imp = c.imp := rfl
@[simp] theorem Chip.updBpt_pwm (c : Chip) (n : Nat) (g : BptCh → BptCh) : (c.updBpt n g).pwm = c.pwm := rfl
@[simp] theorem Chip.updBpt_mtr (c : Chip) (n : Nat) (g : BptCh → BptCh) : (c.updBpt n g).mtr = c.mtr := rfl
@[simp] theorem Chip.updBpt_lanes (c : Chip) (n : Nat) (g : BptCh → BptCh) : (c.updBpt n g).lanes = c.lanes := rfl
@[simp] theorem Chip.updBpt_ethBusy (c : Chip) (n : Nat) (g : BptCh → BptCh) : (c.updBpt n g).ethBusy = c.ethBusy := rfl
@[simp] theorem Chip.updBpt_out (c : Chip) (n : Nat) (g : BptCh → BptCh) : (c.updBpt n g).out = c.out := rfl
@[simp] theorem Chip.updBpt_fab (c : Chip) (n : Nat) (g : BptCh → BptCh) : (c.updBpt n g).fab = c.fab := rfl
@[simp] theorem Chip.updBpt_shd (c : Chip) (n : Nat) (g : BptCh → BptCh) : (c.updBpt n g).shd = c.shd := rfl
@[simp] theorem Chip.updBpt_red (c : Chip) (n : Nat) (g : BptCh → BptCh) : (c.updBpt n g).red = c.red := rfl
@[simp] theorem Chip.updBpt_pow (c : Chip) (n : Nat) (g : BptCh → BptCh) : (c.updBpt n g).pow = c.pow := rfl
@[simp] theorem Chip.updBpt_boot (c : Chip) (n : Nat) (g : BptCh → BptCh) : (c.updBpt n g).boot = c.boot := rfl

@[simp] theorem Chip.updHrd_mode (c : Chip) (g : HrdSt → HrdSt) : (c.updHrd g).mode = c.mode := rfl
@[simp] theorem Chip.updHrd_regs (c : Chip) (g : HrdSt → HrdSt) : (c.updHrd g).regs = c.regs := rfl
@[simp] theorem Chip.updHrd_crc (c : Chip) (g : HrdSt → HrdSt) : (c.updHrd g).crc = c.crc := rfl
@[simp] theorem Chip.updHrd_crcBusy (c : Chip) (g : HrdSt → HrdSt) : (c.updHrd g).crcBusy = c.crcBusy := rfl
@[simp] theorem Chip.updHrd_freeCtr (c : Chip) (g : HrdSt → HrdSt) : (c.updHrd g).freeCtr = c.freeCtr := rfl
@[simp] theorem Chip.updHrd_safe (c : Chip) (g : HrdSt → HrdSt) : (c.updHrd g).safe = c.safe := rfl
@[simp] theorem Chip.updHrd_bus (c : Chip) (g : HrdSt → HrdSt) : (c.updHrd g).bus = c.bus := rfl
@[simp] theorem Chip.updHrd_time (c : Chip) (g : HrdSt → HrdSt) : (c.updHrd g).time = c.time := rfl
@[simp] theorem Chip.updHrd_lap (c : Chip) (g : HrdSt → HrdSt) : (c.updHrd g).lap = c.lap := rfl
@[simp] theorem Chip.updHrd_meas (c : Chip) (g : HrdSt → HrdSt) : (c.updHrd g).meas = c.meas := rfl
@[simp] theorem Chip.updHrd_str (c : Chip) (g : HrdSt → HrdSt) : (c.updHrd g).str = c.str := rfl
@[simp] theorem Chip.updHrd_bpt (c : Chip) (g : HrdSt → HrdSt) : (c.updHrd g).bpt = c.bpt := rfl
@[simp] theorem Chip.updHrd_isl (c : Chip) (g : HrdSt → HrdSt) : (c.updHrd g).isl = c.isl := rfl
@[simp] theorem Chip.updHrd_imp (c : Chip) (g : HrdSt → HrdSt) : (c.updHrd g).imp = c.imp := rfl
@[simp] theorem Chip.updHrd_pwm (c : Chip) (g : HrdSt → HrdSt) : (c.updHrd g).pwm = c.pwm := rfl
@[simp] theorem Chip.updHrd_mtr (c : Chip) (g : HrdSt → HrdSt) : (c.updHrd g).mtr = c.mtr := rfl
@[simp] theorem Chip.updHrd_lanes (c : Chip) (g : HrdSt → HrdSt) : (c.updHrd g).lanes = c.lanes := rfl
@[simp] theorem Chip.updHrd_ethBusy (c : Chip) (g : HrdSt → HrdSt) : (c.updHrd g).ethBusy = c.ethBusy := rfl
@[simp] theorem Chip.updHrd_out (c : Chip) (g : HrdSt → HrdSt) : (c.updHrd g).out = c.out := rfl
@[simp] theorem Chip.updHrd_fab (c : Chip) (g : HrdSt → HrdSt) : (c.updHrd g).fab = c.fab := rfl
@[simp] theorem Chip.updHrd_shd (c : Chip) (g : HrdSt → HrdSt) : (c.updHrd g).shd = c.shd := rfl
@[simp] theorem Chip.updHrd_red (c : Chip) (g : HrdSt → HrdSt) : (c.updHrd g).red = c.red := rfl
@[simp] theorem Chip.updHrd_pow (c : Chip) (g : HrdSt → HrdSt) : (c.updHrd g).pow = c.pow := rfl
@[simp] theorem Chip.updHrd_boot (c : Chip) (g : HrdSt → HrdSt) : (c.updHrd g).boot = c.boot := rfl

@[simp] theorem Chip.updIsl_mode (c : Chip) (g : IslSt → IslSt) : (c.updIsl g).mode = c.mode := rfl
@[simp] theorem Chip.updIsl_regs (c : Chip) (g : IslSt → IslSt) : (c.updIsl g).regs = c.regs := rfl
@[simp] theorem Chip.updIsl_crc (c : Chip) (g : IslSt → IslSt) : (c.updIsl g).crc = c.crc := rfl
@[simp] theorem Chip.updIsl_crcBusy (c : Chip) (g : IslSt → IslSt) : (c.updIsl g).crcBusy = c.crcBusy := rfl
@[simp] theorem Chip.updIsl_freeCtr (c : Chip) (g : IslSt → IslSt) : (c.updIsl g).freeCtr = c.freeCtr := rfl
@[simp] theorem Chip.updIsl_safe (c : Chip) (g : IslSt → IslSt) : (c.updIsl g).safe = c.safe := rfl
@[simp] theorem Chip.updIsl_bus (c : Chip) (g : IslSt → IslSt) : (c.updIsl g).bus = c.bus := rfl
@[simp] theorem Chip.updIsl_time (c : Chip) (g : IslSt → IslSt) : (c.updIsl g).time = c.time := rfl
@[simp] theorem Chip.updIsl_lap (c : Chip) (g : IslSt → IslSt) : (c.updIsl g).lap = c.lap := rfl
@[simp] theorem Chip.updIsl_meas (c : Chip) (g : IslSt → IslSt) : (c.updIsl g).meas = c.meas := rfl
@[simp] theorem Chip.updIsl_str (c : Chip) (g : IslSt → IslSt) : (c.updIsl g).str = c.str := rfl
@[simp] theorem Chip.updIsl_bpt (c : Chip) (g : IslSt → IslSt) : (c.updIsl g).bpt = c.bpt := rfl
@[simp] theorem Chip.updIsl_hrd (c : Chip) (g : IslSt → IslSt) : (c.updIsl g).hrd = c.hrd := rfl
@[simp] theorem Chip.updIsl_imp (c : Chip) (g : IslSt → IslSt) : (c.updIsl g).imp = c.imp := rfl
@[simp] theorem Chip.updIsl_pwm (c : Chip) (g : IslSt → IslSt) : (c.updIsl g).pwm = c.pwm := rfl
@[simp] theorem Chip.updIsl_mtr (c : Chip) (g : IslSt → IslSt) : (c.updIsl g).mtr = c.mtr := rfl
@[simp] theorem Chip.updIsl_lanes (c : Chip) (g : IslSt → IslSt) : (c.updIsl g).lanes = c.lanes := rfl
@[simp] theorem Chip.updIsl_ethBusy (c : Chip) (g : IslSt → IslSt) : (c.updIsl g).ethBusy = c.ethBusy := rfl
@[simp] theorem Chip.updIsl_out (c : Chip) (g : IslSt → IslSt) : (c.updIsl g).out = c.out := rfl
@[simp] theorem Chip.updIsl_fab (c : Chip) (g : IslSt → IslSt) : (c.updIsl g).fab = c.fab := rfl
@[simp] theorem Chip.updIsl_shd (c : Chip) (g : IslSt → IslSt) : (c.updIsl g).shd = c.shd := rfl
@[simp] theorem Chip.updIsl_red (c : Chip) (g : IslSt → IslSt) : (c.updIsl g).red = c.red := rfl
@[simp] theorem Chip.updIsl_pow (c : Chip) (g : IslSt → IslSt) : (c.updIsl g).pow = c.pow := rfl
@[simp] theorem Chip.updIsl_boot (c : Chip) (g : IslSt → IslSt) : (c.updIsl g).boot = c.boot := rfl

@[simp] theorem Chip.updImp_mode (c : Chip) (g : ImpSt → ImpSt) : (c.updImp g).mode = c.mode := rfl
@[simp] theorem Chip.updImp_regs (c : Chip) (g : ImpSt → ImpSt) : (c.updImp g).regs = c.regs := rfl
@[simp] theorem Chip.updImp_crc (c : Chip) (g : ImpSt → ImpSt) : (c.updImp g).crc = c.crc := rfl
@[simp] theorem Chip.updImp_crcBusy (c : Chip) (g : ImpSt → ImpSt) : (c.updImp g).crcBusy = c.crcBusy := rfl
@[simp] theorem Chip.updImp_freeCtr (c : Chip) (g : ImpSt → ImpSt) : (c.updImp g).freeCtr = c.freeCtr := rfl
@[simp] theorem Chip.updImp_safe (c : Chip) (g : ImpSt → ImpSt) : (c.updImp g).safe = c.safe := rfl
@[simp] theorem Chip.updImp_bus (c : Chip) (g : ImpSt → ImpSt) : (c.updImp g).bus = c.bus := rfl
@[simp] theorem Chip.updImp_time (c : Chip) (g : ImpSt → ImpSt) : (c.updImp g).time = c.time := rfl
@[simp] theorem Chip.updImp_lap (c : Chip) (g : ImpSt → ImpSt) : (c.updImp g).lap = c.lap := rfl
@[simp] theorem Chip.updImp_meas (c : Chip) (g : ImpSt → ImpSt) : (c.updImp g).meas = c.meas := rfl
@[simp] theorem Chip.updImp_str (c : Chip) (g : ImpSt → ImpSt) : (c.updImp g).str = c.str := rfl
@[simp] theorem Chip.updImp_bpt (c : Chip) (g : ImpSt → ImpSt) : (c.updImp g).bpt = c.bpt := rfl
@[simp] theorem Chip.updImp_hrd (c : Chip) (g : ImpSt → ImpSt) : (c.updImp g).hrd = c.hrd := rfl
@[simp] theorem Chip.updImp_isl (c : Chip) (g : ImpSt → ImpSt) : (c.updImp g).isl = c.isl := rfl
@[simp] theorem Chip.updImp_pwm (c : Chip) (g : ImpSt → ImpSt) : (c.updImp g).pwm = c.pwm := rfl
@[simp] theorem Chip.updImp_mtr (c : Chip) (g : ImpSt → ImpSt) : (c.updImp g).mtr = c.mtr := rfl
@[simp] theorem Chip.updImp_lanes (c : Chip) (g : ImpSt → ImpSt) : (c.updImp g).lanes = c.lanes := rfl
@[simp] theorem Chip.updImp_ethBusy (c : Chip) (g : ImpSt → ImpSt) : (c.updImp g).ethBusy = c.ethBusy := rfl
@[simp] theorem Chip.updImp_out (c : Chip) (g : ImpSt → ImpSt) : (c.updImp g).out = c.out := rfl
@[simp] theorem Chip.updImp_fab (c : Chip) (g : ImpSt → ImpSt) : (c.updImp g).fab = c.fab := rfl
@[simp] theorem Chip.updImp_shd (c : Chip) (g : ImpSt → ImpSt) : (c.updImp g).shd = c.shd := rfl
@[simp] theorem Chip.updImp_red (c : Chip) (g : ImpSt → ImpSt) : (c.updImp g).red = c.red := rfl
@[simp] theorem Chip.updImp_pow (c : Chip) (g : ImpSt → ImpSt) : (c.updImp g).pow = c.pow := rfl
@[simp] theorem Chip.updImp_boot (c : Chip) (g : ImpSt → ImpSt) : (c.updImp g).boot = c.boot := rfl

@[simp] theorem Chip.updRed_mode (c : Chip) (g : RedSt → RedSt) : (c.updRed g).mode = c.mode := rfl
@[simp] theorem Chip.updRed_regs (c : Chip) (g : RedSt → RedSt) : (c.updRed g).regs = c.regs := rfl
@[simp] theorem Chip.updRed_crc (c : Chip) (g : RedSt → RedSt) : (c.updRed g).crc = c.crc := rfl
@[simp] theorem Chip.updRed_crcBusy (c : Chip) (g : RedSt → RedSt) : (c.updRed g).crcBusy = c.crcBusy := rfl
@[simp] theorem Chip.updRed_freeCtr (c : Chip) (g : RedSt → RedSt) : (c.updRed g).freeCtr = c.freeCtr := rfl
@[simp] theorem Chip.updRed_safe (c : Chip) (g : RedSt → RedSt) : (c.updRed g).safe = c.safe := rfl
@[simp] theorem Chip.updRed_bus (c : Chip) (g : RedSt → RedSt) : (c.updRed g).bus = c.bus := rfl
@[simp] theorem Chip.updRed_time (c : Chip) (g : RedSt → RedSt) : (c.updRed g).time = c.time := rfl
@[simp] theorem Chip.updRed_lap (c : Chip) (g : RedSt → RedSt) : (c.updRed g).lap = c.lap := rfl
@[simp] theorem Chip.updRed_meas (c : Chip) (g : RedSt → RedSt) : (c.updRed g).meas = c.meas := rfl
@[simp] theorem Chip.updRed_str (c : Chip) (g : RedSt → RedSt) : (c.updRed g).str = c.str := rfl
@[simp] theorem Chip.updRed_bpt (c : Chip) (g : RedSt → RedSt) : (c.updRed g).bpt = c.bpt := rfl
@[simp] theorem Chip.updRed_hrd (c : Chip) (g : RedSt → RedSt) : (c.updRed g).hrd = c.hrd := rfl
@[simp] theorem Chip.updRed_isl (c : Chip) (g : RedSt → RedSt) : (c.updRed g).isl = c.isl := rfl
@[simp] theorem Chip.updRed_imp (c : Chip) (g : RedSt → RedSt) : (c.updRed g).imp = c.imp := rfl
@[simp] theorem Chip.updRed_pwm (c : Chip) (g : RedSt → RedSt) : (c.updRed g).pwm = c.pwm := rfl
@[simp] theorem Chip.updRed_mtr (c : Chip) (g : RedSt → RedSt) : (c.updRed g).mtr = c.mtr := rfl
@[simp] theorem Chip.updRed_lanes (c : Chip) (g : RedSt → RedSt) : (c.updRed g).lanes = c.lanes := rfl
@[simp] theorem Chip.updRed_ethBusy (c : Chip) (g : RedSt → RedSt) : (c.updRed g).ethBusy = c.ethBusy := rfl
@[simp] theorem Chip.updRed_out (c : Chip) (g : RedSt → RedSt) : (c.updRed g).out = c.out := rfl
@[simp] theorem Chip.updRed_fab (c : Chip) (g : RedSt → RedSt) : (c.updRed g).fab = c.fab := rfl
@[simp] theorem Chip.updRed_shd (c : Chip) (g : RedSt → RedSt) : (c.updRed g).shd = c.shd := rfl
@[simp] theorem Chip.updRed_pow (c : Chip) (g : RedSt → RedSt) : (c.updRed g).pow = c.pow := rfl
@[simp] theorem Chip.updRed_boot (c : Chip) (g : RedSt → RedSt) : (c.updRed g).boot = c.boot := rfl

@[simp] theorem Chip.updTwin_mode (c : Chip) (t : Bool) (g : TwinSt → TwinSt) : (c.updTwin t g).mode = c.mode := rfl
@[simp] theorem Chip.updTwin_regs (c : Chip) (t : Bool) (g : TwinSt → TwinSt) : (c.updTwin t g).regs = c.regs := rfl
@[simp] theorem Chip.updTwin_crc (c : Chip) (t : Bool) (g : TwinSt → TwinSt) : (c.updTwin t g).crc = c.crc := rfl
@[simp] theorem Chip.updTwin_crcBusy (c : Chip) (t : Bool) (g : TwinSt → TwinSt) : (c.updTwin t g).crcBusy = c.crcBusy := rfl
@[simp] theorem Chip.updTwin_freeCtr (c : Chip) (t : Bool) (g : TwinSt → TwinSt) : (c.updTwin t g).freeCtr = c.freeCtr := rfl
@[simp] theorem Chip.updTwin_safe (c : Chip) (t : Bool) (g : TwinSt → TwinSt) : (c.updTwin t g).safe = c.safe := rfl
@[simp] theorem Chip.updTwin_bus (c : Chip) (t : Bool) (g : TwinSt → TwinSt) : (c.updTwin t g).bus = c.bus := rfl
@[simp] theorem Chip.updTwin_time (c : Chip) (t : Bool) (g : TwinSt → TwinSt) : (c.updTwin t g).time = c.time := rfl
@[simp] theorem Chip.updTwin_lap (c : Chip) (t : Bool) (g : TwinSt → TwinSt) : (c.updTwin t g).lap = c.lap := rfl
@[simp] theorem Chip.updTwin_meas (c : Chip) (t : Bool) (g : TwinSt → TwinSt) : (c.updTwin t g).meas = c.meas := rfl
@[simp] theorem Chip.updTwin_str (c : Chip) (t : Bool) (g : TwinSt → TwinSt) : (c.updTwin t g).str = c.str := rfl
@[simp] theorem Chip.updTwin_bpt (c : Chip) (t : Bool) (g : TwinSt → TwinSt) : (c.updTwin t g).bpt = c.bpt := rfl
@[simp] theorem Chip.updTwin_hrd (c : Chip) (t : Bool) (g : TwinSt → TwinSt) : (c.updTwin t g).hrd = c.hrd := rfl
@[simp] theorem Chip.updTwin_isl (c : Chip) (t : Bool) (g : TwinSt → TwinSt) : (c.updTwin t g).isl = c.isl := rfl
@[simp] theorem Chip.updTwin_imp (c : Chip) (t : Bool) (g : TwinSt → TwinSt) : (c.updTwin t g).imp = c.imp := rfl
@[simp] theorem Chip.updTwin_pwm (c : Chip) (t : Bool) (g : TwinSt → TwinSt) : (c.updTwin t g).pwm = c.pwm := rfl
@[simp] theorem Chip.updTwin_mtr (c : Chip) (t : Bool) (g : TwinSt → TwinSt) : (c.updTwin t g).mtr = c.mtr := rfl
@[simp] theorem Chip.updTwin_lanes (c : Chip) (t : Bool) (g : TwinSt → TwinSt) : (c.updTwin t g).lanes = c.lanes := rfl
@[simp] theorem Chip.updTwin_ethBusy (c : Chip) (t : Bool) (g : TwinSt → TwinSt) : (c.updTwin t g).ethBusy = c.ethBusy := rfl
@[simp] theorem Chip.updTwin_out (c : Chip) (t : Bool) (g : TwinSt → TwinSt) : (c.updTwin t g).out = c.out := rfl
@[simp] theorem Chip.updTwin_fab (c : Chip) (t : Bool) (g : TwinSt → TwinSt) : (c.updTwin t g).fab = c.fab := rfl
@[simp] theorem Chip.updTwin_shd (c : Chip) (t : Bool) (g : TwinSt → TwinSt) : (c.updTwin t g).shd = c.shd := rfl
@[simp] theorem Chip.updTwin_pow (c : Chip) (t : Bool) (g : TwinSt → TwinSt) : (c.updTwin t g).pow = c.pow := rfl
@[simp] theorem Chip.updTwin_boot (c : Chip) (t : Bool) (g : TwinSt → TwinSt) : (c.updTwin t g).boot = c.boot := rfl

@[simp] theorem Chip.updMeas_mode (c : Chip) (g : MeasSt → MeasSt) : (c.updMeas g).mode = c.mode := rfl
@[simp] theorem Chip.updMeas_regs (c : Chip) (g : MeasSt → MeasSt) : (c.updMeas g).regs = c.regs := rfl
@[simp] theorem Chip.updMeas_crc (c : Chip) (g : MeasSt → MeasSt) : (c.updMeas g).crc = c.crc := rfl
@[simp] theorem Chip.updMeas_crcBusy (c : Chip) (g : MeasSt → MeasSt) : (c.updMeas g).crcBusy = c.crcBusy := rfl
@[simp] theorem Chip.updMeas_freeCtr (c : Chip) (g : MeasSt → MeasSt) : (c.updMeas g).freeCtr = c.freeCtr := rfl
@[simp] theorem Chip.updMeas_safe (c : Chip) (g : MeasSt → MeasSt) : (c.updMeas g).safe = c.safe := rfl
@[simp] theorem Chip.updMeas_bus (c : Chip) (g : MeasSt → MeasSt) : (c.updMeas g).bus = c.bus := rfl
@[simp] theorem Chip.updMeas_time (c : Chip) (g : MeasSt → MeasSt) : (c.updMeas g).time = c.time := rfl
@[simp] theorem Chip.updMeas_lap (c : Chip) (g : MeasSt → MeasSt) : (c.updMeas g).lap = c.lap := rfl
@[simp] theorem Chip.updMeas_str (c : Chip) (g : MeasSt → MeasSt) : (c.updMeas g).str = c.str := rfl
@[simp] theorem Chip.updMeas_bpt (c : Chip) (g : MeasSt → MeasSt) : (c.updMeas g).bpt = c.bpt := rfl
@[simp] theorem Chip.updMeas_hrd (c : Chip) (g : MeasSt → MeasSt) : (c.updMeas g).hrd = c.hrd := rfl
@[simp] theorem Chip.updMeas_isl (c : Chip) (g : MeasSt → MeasSt) : (c.updMeas g).isl = c.isl := rfl
@[simp] theorem Chip.updMeas_imp (c : Chip) (g : MeasSt → MeasSt) : (c.updMeas g).imp = c.imp := rfl
@[simp] theorem Chip.updMeas_pwm (c : Chip) (g : MeasSt → MeasSt) : (c.updMeas g).pwm = c.pwm := rfl
@[simp] theorem Chip.updMeas_mtr (c : Chip) (g : MeasSt → MeasSt) : (c.updMeas g).mtr = c.mtr := rfl
@[simp] theorem Chip.updMeas_lanes (c : Chip) (g : MeasSt → MeasSt) : (c.updMeas g).lanes = c.lanes := rfl
@[simp] theorem Chip.updMeas_ethBusy (c : Chip) (g : MeasSt → MeasSt) : (c.updMeas g).ethBusy = c.ethBusy := rfl
@[simp] theorem Chip.updMeas_out (c : Chip) (g : MeasSt → MeasSt) : (c.updMeas g).out = c.out := rfl
@[simp] theorem Chip.updMeas_fab (c : Chip) (g : MeasSt → MeasSt) : (c.updMeas g).fab = c.fab := rfl
@[simp] theorem Chip.updMeas_shd (c : Chip) (g : MeasSt → MeasSt) : (c.updMeas g).shd = c.shd := rfl
@[simp] theorem Chip.updMeas_red (c : Chip) (g : MeasSt → MeasSt) : (c.updMeas g).red = c.red := rfl
@[simp] theorem Chip.updMeas_pow (c : Chip) (g : MeasSt → MeasSt) : (c.updMeas g).pow = c.pow := rfl
@[simp] theorem Chip.updMeas_boot (c : Chip) (g : MeasSt → MeasSt) : (c.updMeas g).boot = c.boot := rfl

@[simp] theorem Chip.updAfe_mode (c : Chip) (n : Nat) (g : AfeCh → AfeCh) : (c.updAfe n g).mode = c.mode := rfl
@[simp] theorem Chip.updAfe_regs (c : Chip) (n : Nat) (g : AfeCh → AfeCh) : (c.updAfe n g).regs = c.regs := rfl
@[simp] theorem Chip.updAfe_crc (c : Chip) (n : Nat) (g : AfeCh → AfeCh) : (c.updAfe n g).crc = c.crc := rfl
@[simp] theorem Chip.updAfe_crcBusy (c : Chip) (n : Nat) (g : AfeCh → AfeCh) : (c.updAfe n g).crcBusy = c.crcBusy := rfl
@[simp] theorem Chip.updAfe_freeCtr (c : Chip) (n : Nat) (g : AfeCh → AfeCh) : (c.updAfe n g).freeCtr = c.freeCtr := rfl
@[simp] theorem Chip.updAfe_safe (c : Chip) (n : Nat) (g : AfeCh → AfeCh) : (c.updAfe n g).safe = c.safe := rfl
@[simp] theorem Chip.updAfe_bus (c : Chip) (n : Nat) (g : AfeCh → AfeCh) : (c.updAfe n g).bus = c.bus := rfl
@[simp] theorem Chip.updAfe_time (c : Chip) (n : Nat) (g : AfeCh → AfeCh) : (c.updAfe n g).time = c.time := rfl
@[simp] theorem Chip.updAfe_lap (c : Chip) (n : Nat) (g : AfeCh → AfeCh) : (c.updAfe n g).lap = c.lap := rfl
@[simp] theorem Chip.updAfe_str (c : Chip) (n : Nat) (g : AfeCh → AfeCh) : (c.updAfe n g).str = c.str := rfl
@[simp] theorem Chip.updAfe_bpt (c : Chip) (n : Nat) (g : AfeCh → AfeCh) : (c.updAfe n g).bpt = c.bpt := rfl
@[simp] theorem Chip.updAfe_hrd (c : Chip) (n : Nat) (g : AfeCh → AfeCh) : (c.updAfe n g).hrd = c.hrd := rfl
@[simp] theorem Chip.updAfe_isl (c : Chip) (n : Nat) (g : AfeCh → AfeCh) : (c.updAfe n g).isl = c.isl := rfl
@[simp] theorem Chip.updAfe_imp (c : Chip) (n : Nat) (g : AfeCh → AfeCh) : (c.updAfe n g).imp = c.imp := rfl
@[simp] theorem Chip.updAfe_pwm (c : Chip) (n : Nat) (g : AfeCh → AfeCh) : (c.updAfe n g).pwm = c.pwm := rfl
@[simp] theorem Chip.updAfe_mtr (c : Chip) (n : Nat) (g : AfeCh → AfeCh) : (c.updAfe n g).mtr = c.mtr := rfl
@[simp] theorem Chip.updAfe_lanes (c : Chip) (n : Nat) (g : AfeCh → AfeCh) : (c.updAfe n g).lanes = c.lanes := rfl
@[simp] theorem Chip.updAfe_ethBusy (c : Chip) (n : Nat) (g : AfeCh → AfeCh) : (c.updAfe n g).ethBusy = c.ethBusy := rfl
@[simp] theorem Chip.updAfe_out (c : Chip) (n : Nat) (g : AfeCh → AfeCh) : (c.updAfe n g).out = c.out := rfl
@[simp] theorem Chip.updAfe_fab (c : Chip) (n : Nat) (g : AfeCh → AfeCh) : (c.updAfe n g).fab = c.fab := rfl
@[simp] theorem Chip.updAfe_shd (c : Chip) (n : Nat) (g : AfeCh → AfeCh) : (c.updAfe n g).shd = c.shd := rfl
@[simp] theorem Chip.updAfe_red (c : Chip) (n : Nat) (g : AfeCh → AfeCh) : (c.updAfe n g).red = c.red := rfl
@[simp] theorem Chip.updAfe_pow (c : Chip) (n : Nat) (g : AfeCh → AfeCh) : (c.updAfe n g).pow = c.pow := rfl
@[simp] theorem Chip.updAfe_boot (c : Chip) (n : Nat) (g : AfeCh → AfeCh) : (c.updAfe n g).boot = c.boot := rfl

@[simp] theorem Chip.updXmd_mode (c : Chip) (n : Nat) (g : XmdCh → XmdCh) : (c.updXmd n g).mode = c.mode := rfl
@[simp] theorem Chip.updXmd_regs (c : Chip) (n : Nat) (g : XmdCh → XmdCh) : (c.updXmd n g).regs = c.regs := rfl
@[simp] theorem Chip.updXmd_crc (c : Chip) (n : Nat) (g : XmdCh → XmdCh) : (c.updXmd n g).crc = c.crc := rfl
@[simp] theorem Chip.updXmd_crcBusy (c : Chip) (n : Nat) (g : XmdCh → XmdCh) : (c.updXmd n g).crcBusy = c.crcBusy := rfl
@[simp] theorem Chip.updXmd_freeCtr (c : Chip) (n : Nat) (g : XmdCh → XmdCh) : (c.updXmd n g).freeCtr = c.freeCtr := rfl
@[simp] theorem Chip.updXmd_safe (c : Chip) (n : Nat) (g : XmdCh → XmdCh) : (c.updXmd n g).safe = c.safe := rfl
@[simp] theorem Chip.updXmd_bus (c : Chip) (n : Nat) (g : XmdCh → XmdCh) : (c.updXmd n g).bus = c.bus := rfl
@[simp] theorem Chip.updXmd_time (c : Chip) (n : Nat) (g : XmdCh → XmdCh) : (c.updXmd n g).time = c.time := rfl
@[simp] theorem Chip.updXmd_lap (c : Chip) (n : Nat) (g : XmdCh → XmdCh) : (c.updXmd n g).lap = c.lap := rfl
@[simp] theorem Chip.updXmd_str (c : Chip) (n : Nat) (g : XmdCh → XmdCh) : (c.updXmd n g).str = c.str := rfl
@[simp] theorem Chip.updXmd_bpt (c : Chip) (n : Nat) (g : XmdCh → XmdCh) : (c.updXmd n g).bpt = c.bpt := rfl
@[simp] theorem Chip.updXmd_hrd (c : Chip) (n : Nat) (g : XmdCh → XmdCh) : (c.updXmd n g).hrd = c.hrd := rfl
@[simp] theorem Chip.updXmd_isl (c : Chip) (n : Nat) (g : XmdCh → XmdCh) : (c.updXmd n g).isl = c.isl := rfl
@[simp] theorem Chip.updXmd_imp (c : Chip) (n : Nat) (g : XmdCh → XmdCh) : (c.updXmd n g).imp = c.imp := rfl
@[simp] theorem Chip.updXmd_pwm (c : Chip) (n : Nat) (g : XmdCh → XmdCh) : (c.updXmd n g).pwm = c.pwm := rfl
@[simp] theorem Chip.updXmd_mtr (c : Chip) (n : Nat) (g : XmdCh → XmdCh) : (c.updXmd n g).mtr = c.mtr := rfl
@[simp] theorem Chip.updXmd_lanes (c : Chip) (n : Nat) (g : XmdCh → XmdCh) : (c.updXmd n g).lanes = c.lanes := rfl
@[simp] theorem Chip.updXmd_ethBusy (c : Chip) (n : Nat) (g : XmdCh → XmdCh) : (c.updXmd n g).ethBusy = c.ethBusy := rfl
@[simp] theorem Chip.updXmd_out (c : Chip) (n : Nat) (g : XmdCh → XmdCh) : (c.updXmd n g).out = c.out := rfl
@[simp] theorem Chip.updXmd_fab (c : Chip) (n : Nat) (g : XmdCh → XmdCh) : (c.updXmd n g).fab = c.fab := rfl
@[simp] theorem Chip.updXmd_shd (c : Chip) (n : Nat) (g : XmdCh → XmdCh) : (c.updXmd n g).shd = c.shd := rfl
@[simp] theorem Chip.updXmd_red (c : Chip) (n : Nat) (g : XmdCh → XmdCh) : (c.updXmd n g).red = c.red := rfl
@[simp] theorem Chip.updXmd_pow (c : Chip) (n : Nat) (g : XmdCh → XmdCh) : (c.updXmd n g).pow = c.pow := rfl
@[simp] theorem Chip.updXmd_boot (c : Chip) (n : Nat) (g : XmdCh → XmdCh) : (c.updXmd n g).boot = c.boot := rfl

@[simp] theorem Chip.updMtr_mode (c : Chip) (g : MtrSt → MtrSt) : (c.updMtr g).mode = c.mode := rfl
@[simp] theorem Chip.updMtr_regs (c : Chip) (g : MtrSt → MtrSt) : (c.updMtr g).regs = c.regs := rfl
@[simp] theorem Chip.updMtr_crc (c : Chip) (g : MtrSt → MtrSt) : (c.updMtr g).crc = c.crc := rfl
@[simp] theorem Chip.updMtr_crcBusy (c : Chip) (g : MtrSt → MtrSt) : (c.updMtr g).crcBusy = c.crcBusy := rfl
@[simp] theorem Chip.updMtr_freeCtr (c : Chip) (g : MtrSt → MtrSt) : (c.updMtr g).freeCtr = c.freeCtr := rfl
@[simp] theorem Chip.updMtr_safe (c : Chip) (g : MtrSt → MtrSt) : (c.updMtr g).safe = c.safe := rfl
@[simp] theorem Chip.updMtr_bus (c : Chip) (g : MtrSt → MtrSt) : (c.updMtr g).bus = c.bus := rfl
@[simp] theorem Chip.updMtr_time (c : Chip) (g : MtrSt → MtrSt) : (c.updMtr g).time = c.time := rfl
@[simp] theorem Chip.updMtr_lap (c : Chip) (g : MtrSt → MtrSt) : (c.updMtr g).lap = c.lap := rfl
@[simp] theorem Chip.updMtr_meas (c : Chip) (g : MtrSt → MtrSt) : (c.updMtr g).meas = c.meas := rfl
@[simp] theorem Chip.updMtr_str (c : Chip) (g : MtrSt → MtrSt) : (c.updMtr g).str = c.str := rfl
@[simp] theorem Chip.updMtr_bpt (c : Chip) (g : MtrSt → MtrSt) : (c.updMtr g).bpt = c.bpt := rfl
@[simp] theorem Chip.updMtr_hrd (c : Chip) (g : MtrSt → MtrSt) : (c.updMtr g).hrd = c.hrd := rfl
@[simp] theorem Chip.updMtr_isl (c : Chip) (g : MtrSt → MtrSt) : (c.updMtr g).isl = c.isl := rfl
@[simp] theorem Chip.updMtr_imp (c : Chip) (g : MtrSt → MtrSt) : (c.updMtr g).imp = c.imp := rfl
@[simp] theorem Chip.updMtr_pwm (c : Chip) (g : MtrSt → MtrSt) : (c.updMtr g).pwm = c.pwm := rfl
@[simp] theorem Chip.updMtr_lanes (c : Chip) (g : MtrSt → MtrSt) : (c.updMtr g).lanes = c.lanes := rfl
@[simp] theorem Chip.updMtr_ethBusy (c : Chip) (g : MtrSt → MtrSt) : (c.updMtr g).ethBusy = c.ethBusy := rfl
@[simp] theorem Chip.updMtr_out (c : Chip) (g : MtrSt → MtrSt) : (c.updMtr g).out = c.out := rfl
@[simp] theorem Chip.updMtr_fab (c : Chip) (g : MtrSt → MtrSt) : (c.updMtr g).fab = c.fab := rfl
@[simp] theorem Chip.updMtr_shd (c : Chip) (g : MtrSt → MtrSt) : (c.updMtr g).shd = c.shd := rfl
@[simp] theorem Chip.updMtr_red (c : Chip) (g : MtrSt → MtrSt) : (c.updMtr g).red = c.red := rfl
@[simp] theorem Chip.updMtr_pow (c : Chip) (g : MtrSt → MtrSt) : (c.updMtr g).pow = c.pow := rfl
@[simp] theorem Chip.updMtr_boot (c : Chip) (g : MtrSt → MtrSt) : (c.updMtr g).boot = c.boot := rfl

@[simp] theorem Chip.updPort_mode (c : Chip) (n : Nat) (g : MtrPort → MtrPort) : (c.updPort n g).mode = c.mode := rfl
@[simp] theorem Chip.updPort_regs (c : Chip) (n : Nat) (g : MtrPort → MtrPort) : (c.updPort n g).regs = c.regs := rfl
@[simp] theorem Chip.updPort_crc (c : Chip) (n : Nat) (g : MtrPort → MtrPort) : (c.updPort n g).crc = c.crc := rfl
@[simp] theorem Chip.updPort_crcBusy (c : Chip) (n : Nat) (g : MtrPort → MtrPort) : (c.updPort n g).crcBusy = c.crcBusy := rfl
@[simp] theorem Chip.updPort_freeCtr (c : Chip) (n : Nat) (g : MtrPort → MtrPort) : (c.updPort n g).freeCtr = c.freeCtr := rfl
@[simp] theorem Chip.updPort_safe (c : Chip) (n : Nat) (g : MtrPort → MtrPort) : (c.updPort n g).safe = c.safe := rfl
@[simp] theorem Chip.updPort_bus (c : Chip) (n : Nat) (g : MtrPort → MtrPort) : (c.updPort n g).bus = c.bus := rfl
@[simp] theorem Chip.updPort_time (c : Chip) (n : Nat) (g : MtrPort → MtrPort) : (c.updPort n g).time = c.time := rfl
@[simp] theorem Chip.updPort_lap (c : Chip) (n : Nat) (g : MtrPort → MtrPort) : (c.updPort n g).lap = c.lap := rfl
@[simp] theorem Chip.updPort_meas (c : Chip) (n : Nat) (g : MtrPort → MtrPort) : (c.updPort n g).meas = c.meas := rfl
@[simp] theorem Chip.updPort_str (c : Chip) (n : Nat) (g : MtrPort → MtrPort) : (c.updPort n g).str = c.str := rfl
@[simp] theorem Chip.updPort_bpt (c : Chip) (n : Nat) (g : MtrPort → MtrPort) : (c.updPort n g).bpt = c.bpt := rfl
@[simp] theorem Chip.updPort_hrd (c : Chip) (n : Nat) (g : MtrPort → MtrPort) : (c.updPort n g).hrd = c.hrd := rfl
@[simp] theorem Chip.updPort_isl (c : Chip) (n : Nat) (g : MtrPort → MtrPort) : (c.updPort n g).isl = c.isl := rfl
@[simp] theorem Chip.updPort_imp (c : Chip) (n : Nat) (g : MtrPort → MtrPort) : (c.updPort n g).imp = c.imp := rfl
@[simp] theorem Chip.updPort_pwm (c : Chip) (n : Nat) (g : MtrPort → MtrPort) : (c.updPort n g).pwm = c.pwm := rfl
@[simp] theorem Chip.updPort_lanes (c : Chip) (n : Nat) (g : MtrPort → MtrPort) : (c.updPort n g).lanes = c.lanes := rfl
@[simp] theorem Chip.updPort_ethBusy (c : Chip) (n : Nat) (g : MtrPort → MtrPort) : (c.updPort n g).ethBusy = c.ethBusy := rfl
@[simp] theorem Chip.updPort_out (c : Chip) (n : Nat) (g : MtrPort → MtrPort) : (c.updPort n g).out = c.out := rfl
@[simp] theorem Chip.updPort_fab (c : Chip) (n : Nat) (g : MtrPort → MtrPort) : (c.updPort n g).fab = c.fab := rfl
@[simp] theorem Chip.updPort_shd (c : Chip) (n : Nat) (g : MtrPort → MtrPort) : (c.updPort n g).shd = c.shd := rfl
@[simp] theorem Chip.updPort_red (c : Chip) (n : Nat) (g : MtrPort → MtrPort) : (c.updPort n g).red = c.red := rfl
@[simp] theorem Chip.updPort_pow (c : Chip) (n : Nat) (g : MtrPort → MtrPort) : (c.updPort n g).pow = c.pow := rfl
@[simp] theorem Chip.updPort_boot (c : Chip) (n : Nat) (g : MtrPort → MtrPort) : (c.updPort n g).boot = c.boot := rfl

@[simp] theorem Chip.updPq_mode (c : Chip) (n : Nat) (g : PqPort → PqPort) : (c.updPq n g).mode = c.mode := rfl
@[simp] theorem Chip.updPq_regs (c : Chip) (n : Nat) (g : PqPort → PqPort) : (c.updPq n g).regs = c.regs := rfl
@[simp] theorem Chip.updPq_crc (c : Chip) (n : Nat) (g : PqPort → PqPort) : (c.updPq n g).crc = c.crc := rfl
@[simp] theorem Chip.updPq_crcBusy (c : Chip) (n : Nat) (g : PqPort → PqPort) : (c.updPq n g).crcBusy = c.crcBusy := rfl
@[simp] theorem Chip.updPq_freeCtr (c : Chip) (n : Nat) (g : PqPort → PqPort) : (c.updPq n g).freeCtr = c.freeCtr := rfl
@[simp] theorem Chip.updPq_safe (c : Chip) (n : Nat) (g : PqPort → PqPort) : (c.updPq n g).safe = c.safe := rfl
@[simp] theorem Chip.updPq_bus (c : Chip) (n : Nat) (g : PqPort → PqPort) : (c.updPq n g).bus = c.bus := rfl
@[simp] theorem Chip.updPq_time (c : Chip) (n : Nat) (g : PqPort → PqPort) : (c.updPq n g).time = c.time := rfl
@[simp] theorem Chip.updPq_lap (c : Chip) (n : Nat) (g : PqPort → PqPort) : (c.updPq n g).lap = c.lap := rfl
@[simp] theorem Chip.updPq_meas (c : Chip) (n : Nat) (g : PqPort → PqPort) : (c.updPq n g).meas = c.meas := rfl
@[simp] theorem Chip.updPq_str (c : Chip) (n : Nat) (g : PqPort → PqPort) : (c.updPq n g).str = c.str := rfl
@[simp] theorem Chip.updPq_bpt (c : Chip) (n : Nat) (g : PqPort → PqPort) : (c.updPq n g).bpt = c.bpt := rfl
@[simp] theorem Chip.updPq_hrd (c : Chip) (n : Nat) (g : PqPort → PqPort) : (c.updPq n g).hrd = c.hrd := rfl
@[simp] theorem Chip.updPq_isl (c : Chip) (n : Nat) (g : PqPort → PqPort) : (c.updPq n g).isl = c.isl := rfl
@[simp] theorem Chip.updPq_imp (c : Chip) (n : Nat) (g : PqPort → PqPort) : (c.updPq n g).imp = c.imp := rfl
@[simp] theorem Chip.updPq_pwm (c : Chip) (n : Nat) (g : PqPort → PqPort) : (c.updPq n g).pwm = c.pwm := rfl
@[simp] theorem Chip.updPq_lanes (c : Chip) (n : Nat) (g : PqPort → PqPort) : (c.updPq n g).lanes = c.lanes := rfl
@[simp] theorem Chip.updPq_ethBusy (c : Chip) (n : Nat) (g : PqPort → PqPort) : (c.updPq n g).ethBusy = c.ethBusy := rfl
@[simp] theorem Chip.updPq_out (c : Chip) (n : Nat) (g : PqPort → PqPort) : (c.updPq n g).out = c.out := rfl
@[simp] theorem Chip.updPq_fab (c : Chip) (n : Nat) (g : PqPort → PqPort) : (c.updPq n g).fab = c.fab := rfl
@[simp] theorem Chip.updPq_shd (c : Chip) (n : Nat) (g : PqPort → PqPort) : (c.updPq n g).shd = c.shd := rfl
@[simp] theorem Chip.updPq_red (c : Chip) (n : Nat) (g : PqPort → PqPort) : (c.updPq n g).red = c.red := rfl
@[simp] theorem Chip.updPq_pow (c : Chip) (n : Nat) (g : PqPort → PqPort) : (c.updPq n g).pow = c.pow := rfl
@[simp] theorem Chip.updPq_boot (c : Chip) (n : Nat) (g : PqPort → PqPort) : (c.updPq n g).boot = c.boot := rfl

@[simp] theorem Chip.updPow_mode (c : Chip) (g : PowSt → PowSt) : (c.updPow g).mode = c.mode := rfl
@[simp] theorem Chip.updPow_regs (c : Chip) (g : PowSt → PowSt) : (c.updPow g).regs = c.regs := rfl
@[simp] theorem Chip.updPow_crc (c : Chip) (g : PowSt → PowSt) : (c.updPow g).crc = c.crc := rfl
@[simp] theorem Chip.updPow_crcBusy (c : Chip) (g : PowSt → PowSt) : (c.updPow g).crcBusy = c.crcBusy := rfl
@[simp] theorem Chip.updPow_freeCtr (c : Chip) (g : PowSt → PowSt) : (c.updPow g).freeCtr = c.freeCtr := rfl
@[simp] theorem Chip.updPow_safe (c : Chip) (g : PowSt → PowSt) : (c.updPow g).safe = c.safe := rfl
@[simp] theorem Chip.updPow_bus (c : Chip) (g : PowSt → PowSt) : (c.updPow g).bus = c.bus := rfl
@[simp] theorem Chip.updPow_time (c : Chip) (g : PowSt → PowSt) : (c.updPow g).time = c.time := rfl
@[simp] theorem Chip.updPow_lap (c : Chip) (g : PowSt → PowSt) : (c.updPow g).lap = c.lap := rfl
@[simp] theorem Chip.updPow_meas (c : Chip) (g : PowSt → PowSt) : (c.updPow g).meas = c.meas := rfl
@[simp] theorem Chip.updPow_str (c : Chip) (g : PowSt → PowSt) : (c.updPow g).str = c.str := rfl
@[simp] theorem Chip.updPow_bpt (c : Chip) (g : PowSt → PowSt) : (c.updPow g).bpt = c.bpt := rfl
@[simp] theorem Chip.updPow_hrd (c : Chip) (g : PowSt → PowSt) : (c.updPow g).hrd = c.hrd := rfl
@[simp] theorem Chip.updPow_isl (c : Chip) (g : PowSt → PowSt) : (c.updPow g).isl = c.isl := rfl
@[simp] theorem Chip.updPow_imp (c : Chip) (g : PowSt → PowSt) : (c.updPow g).imp = c.imp := rfl
@[simp] theorem Chip.updPow_pwm (c : Chip) (g : PowSt → PowSt) : (c.updPow g).pwm = c.pwm := rfl
@[simp] theorem Chip.updPow_mtr (c : Chip) (g : PowSt → PowSt) : (c.updPow g).mtr = c.mtr := rfl
@[simp] theorem Chip.updPow_lanes (c : Chip) (g : PowSt → PowSt) : (c.updPow g).lanes = c.lanes := rfl
@[simp] theorem Chip.updPow_ethBusy (c : Chip) (g : PowSt → PowSt) : (c.updPow g).ethBusy = c.ethBusy := rfl
@[simp] theorem Chip.updPow_out (c : Chip) (g : PowSt → PowSt) : (c.updPow g).out = c.out := rfl
@[simp] theorem Chip.updPow_fab (c : Chip) (g : PowSt → PowSt) : (c.updPow g).fab = c.fab := rfl
@[simp] theorem Chip.updPow_shd (c : Chip) (g : PowSt → PowSt) : (c.updPow g).shd = c.shd := rfl
@[simp] theorem Chip.updPow_red (c : Chip) (g : PowSt → PowSt) : (c.updPow g).red = c.red := rfl
@[simp] theorem Chip.updPow_boot (c : Chip) (g : PowSt → PowSt) : (c.updPow g).boot = c.boot := rfl

@[simp] theorem Chip.updSout_mode (c : Chip) (n : Nat) (g : SoutCh → SoutCh) : (c.updSout n g).mode = c.mode := rfl
@[simp] theorem Chip.updSout_regs (c : Chip) (n : Nat) (g : SoutCh → SoutCh) : (c.updSout n g).regs = c.regs := rfl
@[simp] theorem Chip.updSout_crc (c : Chip) (n : Nat) (g : SoutCh → SoutCh) : (c.updSout n g).crc = c.crc := rfl
@[simp] theorem Chip.updSout_crcBusy (c : Chip) (n : Nat) (g : SoutCh → SoutCh) : (c.updSout n g).crcBusy = c.crcBusy := rfl
@[simp] theorem Chip.updSout_freeCtr (c : Chip) (n : Nat) (g : SoutCh → SoutCh) : (c.updSout n g).freeCtr = c.freeCtr := rfl
@[simp] theorem Chip.updSout_bus (c : Chip) (n : Nat) (g : SoutCh → SoutCh) : (c.updSout n g).bus = c.bus := rfl
@[simp] theorem Chip.updSout_time (c : Chip) (n : Nat) (g : SoutCh → SoutCh) : (c.updSout n g).time = c.time := rfl
@[simp] theorem Chip.updSout_lap (c : Chip) (n : Nat) (g : SoutCh → SoutCh) : (c.updSout n g).lap = c.lap := rfl
@[simp] theorem Chip.updSout_meas (c : Chip) (n : Nat) (g : SoutCh → SoutCh) : (c.updSout n g).meas = c.meas := rfl
@[simp] theorem Chip.updSout_str (c : Chip) (n : Nat) (g : SoutCh → SoutCh) : (c.updSout n g).str = c.str := rfl
@[simp] theorem Chip.updSout_bpt (c : Chip) (n : Nat) (g : SoutCh → SoutCh) : (c.updSout n g).bpt = c.bpt := rfl
@[simp] theorem Chip.updSout_hrd (c : Chip) (n : Nat) (g : SoutCh → SoutCh) : (c.updSout n g).hrd = c.hrd := rfl
@[simp] theorem Chip.updSout_isl (c : Chip) (n : Nat) (g : SoutCh → SoutCh) : (c.updSout n g).isl = c.isl := rfl
@[simp] theorem Chip.updSout_imp (c : Chip) (n : Nat) (g : SoutCh → SoutCh) : (c.updSout n g).imp = c.imp := rfl
@[simp] theorem Chip.updSout_pwm (c : Chip) (n : Nat) (g : SoutCh → SoutCh) : (c.updSout n g).pwm = c.pwm := rfl
@[simp] theorem Chip.updSout_mtr (c : Chip) (n : Nat) (g : SoutCh → SoutCh) : (c.updSout n g).mtr = c.mtr := rfl
@[simp] theorem Chip.updSout_lanes (c : Chip) (n : Nat) (g : SoutCh → SoutCh) : (c.updSout n g).lanes = c.lanes := rfl
@[simp] theorem Chip.updSout_ethBusy (c : Chip) (n : Nat) (g : SoutCh → SoutCh) : (c.updSout n g).ethBusy = c.ethBusy := rfl
@[simp] theorem Chip.updSout_out (c : Chip) (n : Nat) (g : SoutCh → SoutCh) : (c.updSout n g).out = c.out := rfl
@[simp] theorem Chip.updSout_fab (c : Chip) (n : Nat) (g : SoutCh → SoutCh) : (c.updSout n g).fab = c.fab := rfl
@[simp] theorem Chip.updSout_shd (c : Chip) (n : Nat) (g : SoutCh → SoutCh) : (c.updSout n g).shd = c.shd := rfl
@[simp] theorem Chip.updSout_red (c : Chip) (n : Nat) (g : SoutCh → SoutCh) : (c.updSout n g).red = c.red := rfl
@[simp] theorem Chip.updSout_pow (c : Chip) (n : Nat) (g : SoutCh → SoutCh) : (c.updSout n g).pow = c.pow := rfl
@[simp] theorem Chip.updSout_boot (c : Chip) (n : Nat) (g : SoutCh → SoutCh) : (c.updSout n g).boot = c.boot := rfl

@[simp] theorem Chip.updShd_mode (c : Chip) (g : ShdSt → ShdSt) : (c.updShd g).mode = c.mode := rfl
@[simp] theorem Chip.updShd_regs (c : Chip) (g : ShdSt → ShdSt) : (c.updShd g).regs = c.regs := rfl
@[simp] theorem Chip.updShd_crc (c : Chip) (g : ShdSt → ShdSt) : (c.updShd g).crc = c.crc := rfl
@[simp] theorem Chip.updShd_crcBusy (c : Chip) (g : ShdSt → ShdSt) : (c.updShd g).crcBusy = c.crcBusy := rfl
@[simp] theorem Chip.updShd_freeCtr (c : Chip) (g : ShdSt → ShdSt) : (c.updShd g).freeCtr = c.freeCtr := rfl
@[simp] theorem Chip.updShd_safe (c : Chip) (g : ShdSt → ShdSt) : (c.updShd g).safe = c.safe := rfl
@[simp] theorem Chip.updShd_bus (c : Chip) (g : ShdSt → ShdSt) : (c.updShd g).bus = c.bus := rfl
@[simp] theorem Chip.updShd_time (c : Chip) (g : ShdSt → ShdSt) : (c.updShd g).time = c.time := rfl
@[simp] theorem Chip.updShd_lap (c : Chip) (g : ShdSt → ShdSt) : (c.updShd g).lap = c.lap := rfl
@[simp] theorem Chip.updShd_meas (c : Chip) (g : ShdSt → ShdSt) : (c.updShd g).meas = c.meas := rfl
@[simp] theorem Chip.updShd_str (c : Chip) (g : ShdSt → ShdSt) : (c.updShd g).str = c.str := rfl
@[simp] theorem Chip.updShd_bpt (c : Chip) (g : ShdSt → ShdSt) : (c.updShd g).bpt = c.bpt := rfl
@[simp] theorem Chip.updShd_hrd (c : Chip) (g : ShdSt → ShdSt) : (c.updShd g).hrd = c.hrd := rfl
@[simp] theorem Chip.updShd_isl (c : Chip) (g : ShdSt → ShdSt) : (c.updShd g).isl = c.isl := rfl
@[simp] theorem Chip.updShd_imp (c : Chip) (g : ShdSt → ShdSt) : (c.updShd g).imp = c.imp := rfl
@[simp] theorem Chip.updShd_pwm (c : Chip) (g : ShdSt → ShdSt) : (c.updShd g).pwm = c.pwm := rfl
@[simp] theorem Chip.updShd_mtr (c : Chip) (g : ShdSt → ShdSt) : (c.updShd g).mtr = c.mtr := rfl
@[simp] theorem Chip.updShd_lanes (c : Chip) (g : ShdSt → ShdSt) : (c.updShd g).lanes = c.lanes := rfl
@[simp] theorem Chip.updShd_ethBusy (c : Chip) (g : ShdSt → ShdSt) : (c.updShd g).ethBusy = c.ethBusy := rfl
@[simp] theorem Chip.updShd_out (c : Chip) (g : ShdSt → ShdSt) : (c.updShd g).out = c.out := rfl
@[simp] theorem Chip.updShd_fab (c : Chip) (g : ShdSt → ShdSt) : (c.updShd g).fab = c.fab := rfl
@[simp] theorem Chip.updShd_red (c : Chip) (g : ShdSt → ShdSt) : (c.updShd g).red = c.red := rfl
@[simp] theorem Chip.updShd_pow (c : Chip) (g : ShdSt → ShdSt) : (c.updShd g).pow = c.pow := rfl
@[simp] theorem Chip.updShd_boot (c : Chip) (g : ShdSt → ShdSt) : (c.updShd g).boot = c.boot := rfl

@[simp] theorem Chip.updPair_mode (c : Chip) (n : Nat) (g : PairSt → PairSt) : (c.updPair n g).mode = c.mode := rfl
@[simp] theorem Chip.updPair_regs (c : Chip) (n : Nat) (g : PairSt → PairSt) : (c.updPair n g).regs = c.regs := rfl
@[simp] theorem Chip.updPair_crc (c : Chip) (n : Nat) (g : PairSt → PairSt) : (c.updPair n g).crc = c.crc := rfl
@[simp] theorem Chip.updPair_crcBusy (c : Chip) (n : Nat) (g : PairSt → PairSt) : (c.updPair n g).crcBusy = c.crcBusy := rfl
@[simp] theorem Chip.updPair_freeCtr (c : Chip) (n : Nat) (g : PairSt → PairSt) : (c.updPair n g).freeCtr = c.freeCtr := rfl
@[simp] theorem Chip.updPair_safe (c : Chip) (n : Nat) (g : PairSt → PairSt) : (c.updPair n g).safe = c.safe := rfl
@[simp] theorem Chip.updPair_bus (c : Chip) (n : Nat) (g : PairSt → PairSt) : (c.updPair n g).bus = c.bus := rfl
@[simp] theorem Chip.updPair_time (c : Chip) (n : Nat) (g : PairSt → PairSt) : (c.updPair n g).time = c.time := rfl
@[simp] theorem Chip.updPair_lap (c : Chip) (n : Nat) (g : PairSt → PairSt) : (c.updPair n g).lap = c.lap := rfl
@[simp] theorem Chip.updPair_meas (c : Chip) (n : Nat) (g : PairSt → PairSt) : (c.updPair n g).meas = c.meas := rfl
@[simp] theorem Chip.updPair_str (c : Chip) (n : Nat) (g : PairSt → PairSt) : (c.updPair n g).str = c.str := rfl
@[simp] theorem Chip.updPair_bpt (c : Chip) (n : Nat) (g : PairSt → PairSt) : (c.updPair n g).bpt = c.bpt := rfl
@[simp] theorem Chip.updPair_hrd (c : Chip) (n : Nat) (g : PairSt → PairSt) : (c.updPair n g).hrd = c.hrd := rfl
@[simp] theorem Chip.updPair_isl (c : Chip) (n : Nat) (g : PairSt → PairSt) : (c.updPair n g).isl = c.isl := rfl
@[simp] theorem Chip.updPair_imp (c : Chip) (n : Nat) (g : PairSt → PairSt) : (c.updPair n g).imp = c.imp := rfl
@[simp] theorem Chip.updPair_pwm (c : Chip) (n : Nat) (g : PairSt → PairSt) : (c.updPair n g).pwm = c.pwm := rfl
@[simp] theorem Chip.updPair_mtr (c : Chip) (n : Nat) (g : PairSt → PairSt) : (c.updPair n g).mtr = c.mtr := rfl
@[simp] theorem Chip.updPair_lanes (c : Chip) (n : Nat) (g : PairSt → PairSt) : (c.updPair n g).lanes = c.lanes := rfl
@[simp] theorem Chip.updPair_ethBusy (c : Chip) (n : Nat) (g : PairSt → PairSt) : (c.updPair n g).ethBusy = c.ethBusy := rfl
@[simp] theorem Chip.updPair_out (c : Chip) (n : Nat) (g : PairSt → PairSt) : (c.updPair n g).out = c.out := rfl
@[simp] theorem Chip.updPair_fab (c : Chip) (n : Nat) (g : PairSt → PairSt) : (c.updPair n g).fab = c.fab := rfl
@[simp] theorem Chip.updPair_red (c : Chip) (n : Nat) (g : PairSt → PairSt) : (c.updPair n g).red = c.red := rfl
@[simp] theorem Chip.updPair_pow (c : Chip) (n : Nat) (g : PairSt → PairSt) : (c.updPair n g).pow = c.pow := rfl
@[simp] theorem Chip.updPair_boot (c : Chip) (n : Nat) (g : PairSt → PairSt) : (c.updPair n g).boot = c.boot := rfl

@[simp] theorem Chip.updRx_mode (c : Chip) (n : Nat) (g : RxConn → RxConn) : (c.updRx n g).mode = c.mode := rfl
@[simp] theorem Chip.updRx_regs (c : Chip) (n : Nat) (g : RxConn → RxConn) : (c.updRx n g).regs = c.regs := rfl
@[simp] theorem Chip.updRx_crc (c : Chip) (n : Nat) (g : RxConn → RxConn) : (c.updRx n g).crc = c.crc := rfl
@[simp] theorem Chip.updRx_crcBusy (c : Chip) (n : Nat) (g : RxConn → RxConn) : (c.updRx n g).crcBusy = c.crcBusy := rfl
@[simp] theorem Chip.updRx_freeCtr (c : Chip) (n : Nat) (g : RxConn → RxConn) : (c.updRx n g).freeCtr = c.freeCtr := rfl
@[simp] theorem Chip.updRx_safe (c : Chip) (n : Nat) (g : RxConn → RxConn) : (c.updRx n g).safe = c.safe := rfl
@[simp] theorem Chip.updRx_bus (c : Chip) (n : Nat) (g : RxConn → RxConn) : (c.updRx n g).bus = c.bus := rfl
@[simp] theorem Chip.updRx_time (c : Chip) (n : Nat) (g : RxConn → RxConn) : (c.updRx n g).time = c.time := rfl
@[simp] theorem Chip.updRx_lap (c : Chip) (n : Nat) (g : RxConn → RxConn) : (c.updRx n g).lap = c.lap := rfl
@[simp] theorem Chip.updRx_meas (c : Chip) (n : Nat) (g : RxConn → RxConn) : (c.updRx n g).meas = c.meas := rfl
@[simp] theorem Chip.updRx_str (c : Chip) (n : Nat) (g : RxConn → RxConn) : (c.updRx n g).str = c.str := rfl
@[simp] theorem Chip.updRx_bpt (c : Chip) (n : Nat) (g : RxConn → RxConn) : (c.updRx n g).bpt = c.bpt := rfl
@[simp] theorem Chip.updRx_hrd (c : Chip) (n : Nat) (g : RxConn → RxConn) : (c.updRx n g).hrd = c.hrd := rfl
@[simp] theorem Chip.updRx_isl (c : Chip) (n : Nat) (g : RxConn → RxConn) : (c.updRx n g).isl = c.isl := rfl
@[simp] theorem Chip.updRx_imp (c : Chip) (n : Nat) (g : RxConn → RxConn) : (c.updRx n g).imp = c.imp := rfl
@[simp] theorem Chip.updRx_pwm (c : Chip) (n : Nat) (g : RxConn → RxConn) : (c.updRx n g).pwm = c.pwm := rfl
@[simp] theorem Chip.updRx_mtr (c : Chip) (n : Nat) (g : RxConn → RxConn) : (c.updRx n g).mtr = c.mtr := rfl
@[simp] theorem Chip.updRx_lanes (c : Chip) (n : Nat) (g : RxConn → RxConn) : (c.updRx n g).lanes = c.lanes := rfl
@[simp] theorem Chip.updRx_ethBusy (c : Chip) (n : Nat) (g : RxConn → RxConn) : (c.updRx n g).ethBusy = c.ethBusy := rfl
@[simp] theorem Chip.updRx_out (c : Chip) (n : Nat) (g : RxConn → RxConn) : (c.updRx n g).out = c.out := rfl
@[simp] theorem Chip.updRx_fab (c : Chip) (n : Nat) (g : RxConn → RxConn) : (c.updRx n g).fab = c.fab := rfl
@[simp] theorem Chip.updRx_red (c : Chip) (n : Nat) (g : RxConn → RxConn) : (c.updRx n g).red = c.red := rfl
@[simp] theorem Chip.updRx_pow (c : Chip) (n : Nat) (g : RxConn → RxConn) : (c.updRx n g).pow = c.pow := rfl
@[simp] theorem Chip.updRx_boot (c : Chip) (n : Nat) (g : RxConn → RxConn) : (c.updRx n g).boot = c.boot := rfl

@[simp] theorem Chip.updStr_mode (c : Chip) (g : StrSt → StrSt) : (c.updStr g).mode = c.mode := rfl
@[simp] theorem Chip.updStr_regs (c : Chip) (g : StrSt → StrSt) : (c.updStr g).regs = c.regs := rfl
@[simp] theorem Chip.updStr_crc (c : Chip) (g : StrSt → StrSt) : (c.updStr g).crc = c.crc := rfl
@[simp] theorem Chip.updStr_crcBusy (c : Chip) (g : StrSt → StrSt) : (c.updStr g).crcBusy = c.crcBusy := rfl
@[simp] theorem Chip.updStr_freeCtr (c : Chip) (g : StrSt → StrSt) : (c.updStr g).freeCtr = c.freeCtr := rfl
@[simp] theorem Chip.updStr_safe (c : Chip) (g : StrSt → StrSt) : (c.updStr g).safe = c.safe := rfl
@[simp] theorem Chip.updStr_bus (c : Chip) (g : StrSt → StrSt) : (c.updStr g).bus = c.bus := rfl
@[simp] theorem Chip.updStr_time (c : Chip) (g : StrSt → StrSt) : (c.updStr g).time = c.time := rfl
@[simp] theorem Chip.updStr_lap (c : Chip) (g : StrSt → StrSt) : (c.updStr g).lap = c.lap := rfl
@[simp] theorem Chip.updStr_meas (c : Chip) (g : StrSt → StrSt) : (c.updStr g).meas = c.meas := rfl
@[simp] theorem Chip.updStr_bpt (c : Chip) (g : StrSt → StrSt) : (c.updStr g).bpt = c.bpt := rfl
@[simp] theorem Chip.updStr_hrd (c : Chip) (g : StrSt → StrSt) : (c.updStr g).hrd = c.hrd := rfl
@[simp] theorem Chip.updStr_isl (c : Chip) (g : StrSt → StrSt) : (c.updStr g).isl = c.isl := rfl
@[simp] theorem Chip.updStr_imp (c : Chip) (g : StrSt → StrSt) : (c.updStr g).imp = c.imp := rfl
@[simp] theorem Chip.updStr_pwm (c : Chip) (g : StrSt → StrSt) : (c.updStr g).pwm = c.pwm := rfl
@[simp] theorem Chip.updStr_mtr (c : Chip) (g : StrSt → StrSt) : (c.updStr g).mtr = c.mtr := rfl
@[simp] theorem Chip.updStr_lanes (c : Chip) (g : StrSt → StrSt) : (c.updStr g).lanes = c.lanes := rfl
@[simp] theorem Chip.updStr_ethBusy (c : Chip) (g : StrSt → StrSt) : (c.updStr g).ethBusy = c.ethBusy := rfl
@[simp] theorem Chip.updStr_out (c : Chip) (g : StrSt → StrSt) : (c.updStr g).out = c.out := rfl
@[simp] theorem Chip.updStr_fab (c : Chip) (g : StrSt → StrSt) : (c.updStr g).fab = c.fab := rfl
@[simp] theorem Chip.updStr_shd (c : Chip) (g : StrSt → StrSt) : (c.updStr g).shd = c.shd := rfl
@[simp] theorem Chip.updStr_red (c : Chip) (g : StrSt → StrSt) : (c.updStr g).red = c.red := rfl
@[simp] theorem Chip.updStr_pow (c : Chip) (g : StrSt → StrSt) : (c.updStr g).pow = c.pow := rfl
@[simp] theorem Chip.updStr_boot (c : Chip) (g : StrSt → StrSt) : (c.updStr g).boot = c.boot := rfl

@[simp] theorem Chip.updGrp_mode (c : Chip) (n : Nat) (g : StrGrp → StrGrp) : (c.updGrp n g).mode = c.mode := rfl
@[simp] theorem Chip.updGrp_regs (c : Chip) (n : Nat) (g : StrGrp → StrGrp) : (c.updGrp n g).regs = c.regs := rfl
@[simp] theorem Chip.updGrp_crc (c : Chip) (n : Nat) (g : StrGrp → StrGrp) : (c.updGrp n g).crc = c.crc := rfl
@[simp] theorem Chip.updGrp_crcBusy (c : Chip) (n : Nat) (g : StrGrp → StrGrp) : (c.updGrp n g).crcBusy = c.crcBusy := rfl
@[simp] theorem Chip.updGrp_freeCtr (c : Chip) (n : Nat) (g : StrGrp → StrGrp) : (c.updGrp n g).freeCtr = c.freeCtr := rfl
@[simp] theorem Chip.updGrp_safe (c : Chip) (n : Nat) (g : StrGrp → StrGrp) : (c.updGrp n g).safe = c.safe := rfl
@[simp] theorem Chip.updGrp_bus (c : Chip) (n : Nat) (g : StrGrp → StrGrp) : (c.updGrp n g).bus = c.bus := rfl
@[simp] theorem Chip.updGrp_time (c : Chip) (n : Nat) (g : StrGrp → StrGrp) : (c.updGrp n g).time = c.time := rfl
@[simp] theorem Chip.updGrp_lap (c : Chip) (n : Nat) (g : StrGrp → StrGrp) : (c.updGrp n g).lap = c.lap := rfl
@[simp] theorem Chip.updGrp_meas (c : Chip) (n : Nat) (g : StrGrp → StrGrp) : (c.updGrp n g).meas = c.meas := rfl
@[simp] theorem Chip.updGrp_bpt (c : Chip) (n : Nat) (g : StrGrp → StrGrp) : (c.updGrp n g).bpt = c.bpt := rfl
@[simp] theorem Chip.updGrp_hrd (c : Chip) (n : Nat) (g : StrGrp → StrGrp) : (c.updGrp n g).hrd = c.hrd := rfl
@[simp] theorem Chip.updGrp_isl (c : Chip) (n : Nat) (g : StrGrp → StrGrp) : (c.updGrp n g).isl = c.isl := rfl
@[simp] theorem Chip.updGrp_imp (c : Chip) (n : Nat) (g : StrGrp → StrGrp) : (c.updGrp n g).imp = c.imp := rfl
@[simp] theorem Chip.updGrp_pwm (c : Chip) (n : Nat) (g : StrGrp → StrGrp) : (c.updGrp n g).pwm = c.pwm := rfl
@[simp] theorem Chip.updGrp_mtr (c : Chip) (n : Nat) (g : StrGrp → StrGrp) : (c.updGrp n g).mtr = c.mtr := rfl
@[simp] theorem Chip.updGrp_lanes (c : Chip) (n : Nat) (g : StrGrp → StrGrp) : (c.updGrp n g).lanes = c.lanes := rfl
@[simp] theorem Chip.updGrp_ethBusy (c : Chip) (n : Nat) (g : StrGrp → StrGrp) : (c.updGrp n g).ethBusy = c.ethBusy := rfl
@[simp] theorem Chip.updGrp_out (c : Chip) (n : Nat) (g : StrGrp → StrGrp) : (c.updGrp n g).out = c.out := rfl
@[simp] theorem Chip.updGrp_fab (c : Chip) (n : Nat) (g : StrGrp → StrGrp) : (c.updGrp n g).fab = c.fab := rfl
@[simp] theorem Chip.updGrp_shd (c : Chip) (n : Nat) (g : StrGrp → StrGrp) : (c.updGrp n g).shd = c.shd := rfl
@[simp] theorem Chip.updGrp_red (c : Chip) (n : Nat) (g : StrGrp → StrGrp) : (c.updGrp n g).red = c.red := rfl
@[simp] theorem Chip.updGrp_pow (c : Chip) (n : Nat) (g : StrGrp → StrGrp) : (c.updGrp n g).pow = c.pow := rfl
@[simp] theorem Chip.updGrp_boot (c : Chip) (n : Nat) (g : StrGrp → StrGrp) : (c.updGrp n g).boot = c.boot := rfl

@[simp] theorem Chip.updBus_mode (c : Chip) (g : BusSt → BusSt) : (c.updBus g).mode = c.mode := rfl
@[simp] theorem Chip.updBus_regs (c : Chip) (g : BusSt → BusSt) : (c.updBus g).regs = c.regs := rfl
@[simp] theorem Chip.updBus_crc (c : Chip) (g : BusSt → BusSt) : (c.updBus g).crc = c.crc := rfl
@[simp] theorem Chip.updBus_crcBusy (c : Chip) (g : BusSt → BusSt) : (c.updBus g).crcBusy = c.crcBusy := rfl
@[simp] theorem Chip.updBus_freeCtr (c : Chip) (g : BusSt → BusSt) : (c.updBus g).freeCtr = c.freeCtr := rfl
@[simp] theorem Chip.updBus_safe (c : Chip) (g : BusSt → BusSt) : (c.updBus g).safe = c.safe := rfl
@[simp] theorem Chip.updBus_time (c : Chip) (g : BusSt → BusSt) : (c.updBus g).time = c.time := rfl
@[simp] theorem Chip.updBus_lap (c : Chip) (g : BusSt → BusSt) : (c.updBus g).lap = c.lap := rfl
@[simp] theorem Chip.updBus_meas (c : Chip) (g : BusSt → BusSt) : (c.updBus g).meas = c.meas := rfl
@[simp] theorem Chip.updBus_str (c : Chip) (g : BusSt → BusSt) : (c.updBus g).str = c.str := rfl
@[simp] theorem Chip.updBus_bpt (c : Chip) (g : BusSt → BusSt) : (c.updBus g).bpt = c.bpt := rfl
@[simp] theorem Chip.updBus_hrd (c : Chip) (g : BusSt → BusSt) : (c.updBus g).hrd = c.hrd := rfl
@[simp] theorem Chip.updBus_isl (c : Chip) (g : BusSt → BusSt) : (c.updBus g).isl = c.isl := rfl
@[simp] theorem Chip.updBus_imp (c : Chip) (g : BusSt → BusSt) : (c.updBus g).imp = c.imp := rfl
@[simp] theorem Chip.updBus_pwm (c : Chip) (g : BusSt → BusSt) : (c.updBus g).pwm = c.pwm := rfl
@[simp] theorem Chip.updBus_mtr (c : Chip) (g : BusSt → BusSt) : (c.updBus g).mtr = c.mtr := rfl
@[simp] theorem Chip.updBus_lanes (c : Chip) (g : BusSt → BusSt) : (c.updBus g).lanes = c.lanes := rfl
@[simp] theorem Chip.updBus_ethBusy (c : Chip) (g : BusSt → BusSt) : (c.updBus g).ethBusy = c.ethBusy := rfl
@[simp] theorem Chip.updBus_out (c : Chip) (g : BusSt → BusSt) : (c.updBus g).out = c.out := rfl
@[simp] theorem Chip.updBus_fab (c : Chip) (g : BusSt → BusSt) : (c.updBus g).fab = c.fab := rfl
@[simp] theorem Chip.updBus_shd (c : Chip) (g : BusSt → BusSt) : (c.updBus g).shd = c.shd := rfl
@[simp] theorem Chip.updBus_red (c : Chip) (g : BusSt → BusSt) : (c.updBus g).red = c.red := rfl
@[simp] theorem Chip.updBus_pow (c : Chip) (g : BusSt → BusSt) : (c.updBus g).pow = c.pow := rfl
@[simp] theorem Chip.updBus_boot (c : Chip) (g : BusSt → BusSt) : (c.updBus g).boot = c.boot := rfl

@[simp] theorem Chip.wr_mode (c : Chip) (k : Nat) (v : Word) : (c.wr k v).mode = c.mode := rfl
@[simp] theorem Chip.wr_crc (c : Chip) (k : Nat) (v : Word) : (c.wr k v).crc = c.crc := rfl
@[simp] theorem Chip.wr_freeCtr (c : Chip) (k : Nat) (v : Word) : (c.wr k v).freeCtr = c.freeCtr := rfl
@[simp] theorem Chip.wr_safe (c : Chip) (k : Nat) (v : Word) : (c.wr k v).safe = c.safe := rfl
@[simp] theorem Chip.wr_bus (c : Chip) (k : Nat) (v : Word) : (c.wr k v).bus = c.bus := rfl
@[simp] theorem Chip.wr_time (c : Chip) (k : Nat) (v : Word) : (c.wr k v).time = c.time := rfl
@[simp] theorem Chip.wr_lap (c : Chip) (k : Nat) (v : Word) : (c.wr k v).lap = c.lap := rfl
@[simp] theorem Chip.wr_meas (c : Chip) (k : Nat) (v : Word) : (c.wr k v).meas = c.meas := rfl
@[simp] theorem Chip.wr_str (c : Chip) (k : Nat) (v : Word) : (c.wr k v).str = c.str := rfl
@[simp] theorem Chip.wr_bpt (c : Chip) (k : Nat) (v : Word) : (c.wr k v).bpt = c.bpt := rfl
@[simp] theorem Chip.wr_hrd (c : Chip) (k : Nat) (v : Word) : (c.wr k v).hrd = c.hrd := rfl
@[simp] theorem Chip.wr_isl (c : Chip) (k : Nat) (v : Word) : (c.wr k v).isl = c.isl := rfl
@[simp] theorem Chip.wr_imp (c : Chip) (k : Nat) (v : Word) : (c.wr k v).imp = c.imp := rfl
@[simp] theorem Chip.wr_pwm (c : Chip) (k : Nat) (v : Word) : (c.wr k v).pwm = c.pwm := rfl
@[simp] theorem Chip.wr_mtr (c : Chip) (k : Nat) (v : Word) : (c.wr k v).mtr = c.mtr := rfl
@[simp] theorem Chip.wr_lanes (c : Chip) (k : Nat) (v : Word) : (c.wr k v).lanes = c.lanes := rfl
@[simp] theorem Chip.wr_ethBusy (c : Chip) (k : Nat) (v : Word) : (c.wr k v).ethBusy = c.ethBusy := rfl
@[simp] theorem Chip.wr_out (c : Chip) (k : Nat) (v : Word) : (c.wr k v).out = c.out := rfl
@[simp] theorem Chip.wr_fab (c : Chip) (k : Nat) (v : Word) : (c.wr k v).fab = c.fab := rfl
@[simp] theorem Chip.wr_shd (c : Chip) (k : Nat) (v : Word) : (c.wr k v).shd = c.shd := rfl
@[simp] theorem Chip.wr_red (c : Chip) (k : Nat) (v : Word) : (c.wr k v).red = c.red := rfl
@[simp] theorem Chip.wr_pow (c : Chip) (k : Nat) (v : Word) : (c.wr k v).pow = c.pow := rfl
@[simp] theorem Chip.wr_boot (c : Chip) (k : Nat) (v : Word) : (c.wr k v).boot = c.boot := rfl

@[simp] theorem Chip.toReset_mode (c : Chip) (k : Nat) : (c.toReset k).mode = c.mode := rfl
@[simp] theorem Chip.toReset_crc (c : Chip) (k : Nat) : (c.toReset k).crc = c.crc := rfl
@[simp] theorem Chip.toReset_crcBusy (c : Chip) (k : Nat) : (c.toReset k).crcBusy = c.crcBusy := rfl
@[simp] theorem Chip.toReset_freeCtr (c : Chip) (k : Nat) : (c.toReset k).freeCtr = c.freeCtr := rfl
@[simp] theorem Chip.toReset_safe (c : Chip) (k : Nat) : (c.toReset k).safe = c.safe := rfl
@[simp] theorem Chip.toReset_bus (c : Chip) (k : Nat) : (c.toReset k).bus = c.bus := rfl
@[simp] theorem Chip.toReset_time (c : Chip) (k : Nat) : (c.toReset k).time = c.time := rfl
@[simp] theorem Chip.toReset_lap (c : Chip) (k : Nat) : (c.toReset k).lap = c.lap := rfl
@[simp] theorem Chip.toReset_meas (c : Chip) (k : Nat) : (c.toReset k).meas = c.meas := rfl
@[simp] theorem Chip.toReset_str (c : Chip) (k : Nat) : (c.toReset k).str = c.str := rfl
@[simp] theorem Chip.toReset_bpt (c : Chip) (k : Nat) : (c.toReset k).bpt = c.bpt := rfl
@[simp] theorem Chip.toReset_hrd (c : Chip) (k : Nat) : (c.toReset k).hrd = c.hrd := rfl
@[simp] theorem Chip.toReset_isl (c : Chip) (k : Nat) : (c.toReset k).isl = c.isl := rfl
@[simp] theorem Chip.toReset_imp (c : Chip) (k : Nat) : (c.toReset k).imp = c.imp := rfl
@[simp] theorem Chip.toReset_pwm (c : Chip) (k : Nat) : (c.toReset k).pwm = c.pwm := rfl
@[simp] theorem Chip.toReset_mtr (c : Chip) (k : Nat) : (c.toReset k).mtr = c.mtr := rfl
@[simp] theorem Chip.toReset_lanes (c : Chip) (k : Nat) : (c.toReset k).lanes = c.lanes := rfl
@[simp] theorem Chip.toReset_ethBusy (c : Chip) (k : Nat) : (c.toReset k).ethBusy = c.ethBusy := rfl
@[simp] theorem Chip.toReset_out (c : Chip) (k : Nat) : (c.toReset k).out = c.out := rfl
@[simp] theorem Chip.toReset_fab (c : Chip) (k : Nat) : (c.toReset k).fab = c.fab := rfl
@[simp] theorem Chip.toReset_shd (c : Chip) (k : Nat) : (c.toReset k).shd = c.shd := rfl
@[simp] theorem Chip.toReset_red (c : Chip) (k : Nat) : (c.toReset k).red = c.red := rfl
@[simp] theorem Chip.toReset_pow (c : Chip) (k : Nat) : (c.toReset k).pow = c.pow := rfl
@[simp] theorem Chip.toReset_boot (c : Chip) (k : Nat) : (c.toReset k).boot = c.boot := rfl

@[simp] theorem Chip.resetKeys_mode (c : Chip) (p : Nat → Bool) : (c.resetKeys p).mode = c.mode := rfl
@[simp] theorem Chip.resetKeys_crc (c : Chip) (p : Nat → Bool) : (c.resetKeys p).crc = c.crc := rfl
@[simp] theorem Chip.resetKeys_crcBusy (c : Chip) (p : Nat → Bool) : (c.resetKeys p).crcBusy = c.crcBusy := rfl
@[simp] theorem Chip.resetKeys_freeCtr (c : Chip) (p : Nat → Bool) : (c.resetKeys p).freeCtr = c.freeCtr := rfl
@[simp] theorem Chip.resetKeys_safe (c : Chip) (p : Nat → Bool) : (c.resetKeys p).safe = c.safe := rfl
@[simp] theorem Chip.resetKeys_bus (c : Chip) (p : Nat → Bool) : (c.resetKeys p).bus = c.bus := rfl
@[simp] theorem Chip.resetKeys_time (c : Chip) (p : Nat → Bool) : (c.resetKeys p).time = c.time := rfl
@[simp] theorem Chip.resetKeys_lap (c : Chip) (p : Nat → Bool) : (c.resetKeys p).lap = c.lap := rfl
@[simp] theorem Chip.resetKeys_meas (c : Chip) (p : Nat → Bool) : (c.resetKeys p).meas = c.meas := rfl
@[simp] theorem Chip.resetKeys_str (c : Chip) (p : Nat → Bool) : (c.resetKeys p).str = c.str := rfl
@[simp] theorem Chip.resetKeys_bpt (c : Chip) (p : Nat → Bool) : (c.resetKeys p).bpt = c.bpt := rfl
@[simp] theorem Chip.resetKeys_hrd (c : Chip) (p : Nat → Bool) : (c.resetKeys p).hrd = c.hrd := rfl
@[simp] theorem Chip.resetKeys_isl (c : Chip) (p : Nat → Bool) : (c.resetKeys p).isl = c.isl := rfl
@[simp] theorem Chip.resetKeys_imp (c : Chip) (p : Nat → Bool) : (c.resetKeys p).imp = c.imp := rfl
@[simp] theorem Chip.resetKeys_pwm (c : Chip) (p : Nat → Bool) : (c.resetKeys p).pwm = c.pwm := rfl
@[simp] theorem Chip.resetKeys_mtr (c : Chip) (p : Nat → Bool) : (c.resetKeys p).mtr = c.mtr := rfl
@[simp] theorem Chip.resetKeys_lanes (c : Chip) (p : Nat → Bool) : (c.resetKeys p).lanes = c.lanes := rfl
@[simp] theorem Chip.resetKeys_ethBusy (c : Chip) (p : Nat → Bool) : (c.resetKeys p).ethBusy = c.ethBusy := rfl
@[simp] theorem Chip.resetKeys_out (c : Chip) (p : Nat → Bool) : (c.resetKeys p).out = c.out := rfl
@[simp] theorem Chip.resetKeys_fab (c : Chip) (p : Nat → Bool) : (c.resetKeys p).fab = c.fab := rfl
@[simp] theorem Chip.resetKeys_shd (c : Chip) (p : Nat → Bool) : (c.resetKeys p).shd = c.shd := rfl
@[simp] theorem Chip.resetKeys_red (c : Chip) (p : Nat → Bool) : (c.resetKeys p).red = c.red := rfl
@[simp] theorem Chip.resetKeys_pow (c : Chip) (p : Nat → Bool) : (c.resetKeys p).pow = c.pow := rfl
@[simp] theorem Chip.resetKeys_boot (c : Chip) (p : Nat → Bool) : (c.resetKeys p).boot = c.boot := rfl

@[simp] theorem Chip.emit_mode (c : Chip) (p : Packet) (n : Nat) (l : Option Nat) : (c.emit p n l).mode = c.mode := rfl
@[simp] theorem Chip.emit_regs (c : Chip) (p : Packet) (n : Nat) (l : Option Nat) : (c.emit p n l).regs = c.regs := rfl
@[simp] theorem Chip.emit_crc (c : Chip) (p : Packet) (n : Nat) (l : Option Nat) : (c.emit p n l).crc = c.crc := rfl
@[simp] theorem Chip.emit_crcBusy (c : Chip) (p : Packet) (n : Nat) (l : Option Nat) : (c.emit p n l).crcBusy = c.crcBusy := rfl
@[simp] theorem Chip.emit_freeCtr (c : Chip) (p : Packet) (n : Nat) (l : Option Nat) : (c.emit p n l).freeCtr = c.freeCtr := rfl
@[simp] theorem Chip.emit_safe (c : Chip) (p : Packet) (n : Nat) (l : Option Nat) : (c.emit p n l).safe = c.safe := rfl
@[simp] theorem Chip.emit_bus (c : Chip) (p : Packet) (n : Nat) (l : Option Nat) : (c.emit p n l).bus = c.bus := rfl
@[simp] theorem Chip.emit_time (c : Chip) (p : Packet) (n : Nat) (l : Option Nat) : (c.emit p n l).time = c.time := rfl
@[simp] theorem Chip.emit_lap (c : Chip) (p : Packet) (n : Nat) (l : Option Nat) : (c.emit p n l).lap = c.lap := rfl
@[simp] theorem Chip.emit_meas (c : Chip) (p : Packet) (n : Nat) (l : Option Nat) : (c.emit p n l).meas = c.meas := rfl
@[simp] theorem Chip.emit_str (c : Chip) (p : Packet) (n : Nat) (l : Option Nat) : (c.emit p n l).str = c.str := rfl
@[simp] theorem Chip.emit_bpt (c : Chip) (p : Packet) (n : Nat) (l : Option Nat) : (c.emit p n l).bpt = c.bpt := rfl
@[simp] theorem Chip.emit_hrd (c : Chip) (p : Packet) (n : Nat) (l : Option Nat) : (c.emit p n l).hrd = c.hrd := rfl
@[simp] theorem Chip.emit_isl (c : Chip) (p : Packet) (n : Nat) (l : Option Nat) : (c.emit p n l).isl = c.isl := rfl
@[simp] theorem Chip.emit_imp (c : Chip) (p : Packet) (n : Nat) (l : Option Nat) : (c.emit p n l).imp = c.imp := rfl
@[simp] theorem Chip.emit_pwm (c : Chip) (p : Packet) (n : Nat) (l : Option Nat) : (c.emit p n l).pwm = c.pwm := rfl
@[simp] theorem Chip.emit_mtr (c : Chip) (p : Packet) (n : Nat) (l : Option Nat) : (c.emit p n l).mtr = c.mtr := rfl
@[simp] theorem Chip.emit_lanes (c : Chip) (p : Packet) (n : Nat) (l : Option Nat) : (c.emit p n l).lanes = c.lanes := rfl
@[simp] theorem Chip.emit_ethBusy (c : Chip) (p : Packet) (n : Nat) (l : Option Nat) : (c.emit p n l).ethBusy = c.ethBusy := rfl
@[simp] theorem Chip.emit_fab (c : Chip) (p : Packet) (n : Nat) (l : Option Nat) : (c.emit p n l).fab = c.fab := rfl
@[simp] theorem Chip.emit_shd (c : Chip) (p : Packet) (n : Nat) (l : Option Nat) : (c.emit p n l).shd = c.shd := rfl
@[simp] theorem Chip.emit_red (c : Chip) (p : Packet) (n : Nat) (l : Option Nat) : (c.emit p n l).red = c.red := rfl
@[simp] theorem Chip.emit_pow (c : Chip) (p : Packet) (n : Nat) (l : Option Nat) : (c.emit p n l).pow = c.pow := rfl
@[simp] theorem Chip.emit_boot (c : Chip) (p : Packet) (n : Nat) (l : Option Nat) : (c.emit p n l).boot = c.boot := rfl

@[simp] theorem Chip.deliver_mode (c : Chip) (n : Nat) (d : EvDest) : (c.deliver n d).mode = c.mode := rfl
@[simp] theorem Chip.deliver_regs (c : Chip) (n : Nat) (d : EvDest) : (c.deliver n d).regs = c.regs := rfl
@[simp] theorem Chip.deliver_crc (c : Chip) (n : Nat) (d : EvDest) : (c.deliver n d).crc = c.crc := rfl
@[simp] theorem Chip.deliver_crcBusy (c : Chip) (n : Nat) (d : EvDest) : (c.deliver n d).crcBusy = c.crcBusy := rfl
@[simp] theorem Chip.deliver_freeCtr (c : Chip) (n : Nat) (d : EvDest) : (c.deliver n d).freeCtr = c.freeCtr := rfl
@[simp] theorem Chip.deliver_safe (c : Chip) (n : Nat) (d : EvDest) : (c.deliver n d).safe = c.safe := rfl
@[simp] theorem Chip.deliver_time (c : Chip) (n : Nat) (d : EvDest) : (c.deliver n d).time = c.time := rfl
@[simp] theorem Chip.deliver_lap (c : Chip) (n : Nat) (d : EvDest) : (c.deliver n d).lap = c.lap := rfl
@[simp] theorem Chip.deliver_meas (c : Chip) (n : Nat) (d : EvDest) : (c.deliver n d).meas = c.meas := rfl
@[simp] theorem Chip.deliver_str (c : Chip) (n : Nat) (d : EvDest) : (c.deliver n d).str = c.str := rfl
@[simp] theorem Chip.deliver_bpt (c : Chip) (n : Nat) (d : EvDest) : (c.deliver n d).bpt = c.bpt := rfl
@[simp] theorem Chip.deliver_hrd (c : Chip) (n : Nat) (d : EvDest) : (c.deliver n d).hrd = c.hrd := rfl
@[simp] theorem Chip.deliver_isl (c : Chip) (n : Nat) (d : EvDest) : (c.deliver n d).isl = c.isl := rfl
@[simp] theorem Chip.deliver_imp (c : Chip) (n : Nat) (d : EvDest) : (c.deliver n d).imp = c.imp := rfl
@[simp] theorem Chip.deliver_pwm (c : Chip) (n : Nat) (d : EvDest) : (c.deliver n d).pwm = c.pwm := rfl
@[simp] theorem Chip.deliver_mtr (c : Chip) (n : Nat) (d : EvDest) : (c.deliver n d).mtr = c.mtr := rfl
@[simp] theorem Chip.deliver_lanes (c : Chip) (n : Nat) (d : EvDest) : (c.deliver n d).lanes = c.lanes := rfl
@[simp] theorem Chip.deliver_ethBusy (c : Chip) (n : Nat) (d : EvDest) : (c.deliver n d).ethBusy = c.ethBusy := rfl
@[simp] theorem Chip.deliver_out (c : Chip) (n : Nat) (d : EvDest) : (c.deliver n d).out = c.out := rfl
@[simp] theorem Chip.deliver_fab (c : Chip) (n : Nat) (d : EvDest) : (c.deliver n d).fab = c.fab := rfl
@[simp] theorem Chip.deliver_shd (c : Chip) (n : Nat) (d : EvDest) : (c.deliver n d).shd = c.shd := rfl
@[simp] theorem Chip.deliver_red (c : Chip) (n : Nat) (d : EvDest) : (c.deliver n d).red = c.red := rfl
@[simp] theorem Chip.deliver_pow (c : Chip) (n : Nat) (d : EvDest) : (c.deliver n d).pow = c.pow := rfl
@[simp] theorem Chip.deliver_boot (c : Chip) (n : Nat) (d : EvDest) : (c.deliver n d).boot = c.boot := rfl

@[simp] theorem Chip.setPend_mode (c : Chip) (b : Bool) (l : List Nat) : (c.setPend b l).mode = c.mode := rfl
@[simp] theorem Chip.setPend_regs (c : Chip) (b : Bool) (l : List Nat) : (c.setPend b l).regs = c.regs := rfl
@[simp] theorem Chip.setPend_crc (c : Chip) (b : Bool) (l : List Nat) : (c.setPend b l).crc = c.crc := rfl
@[simp] theorem Chip.setPend_crcBusy (c : Chip) (b : Bool) (l : List Nat) : (c.setPend b l).crcBusy = c.crcBusy := rfl
@[simp] theorem Chip.setPend_freeCtr (c : Chip) (b : Bool) (l : List Nat) : (c.setPend b l).freeCtr = c.freeCtr := rfl
@[simp] theorem Chip.setPend_safe (c : Chip) (b : Bool) (l : List Nat) : (c.setPend b l).safe = c.safe := rfl
@[simp] theorem Chip.setPend_time (c : Chip) (b : Bool) (l : List Nat) : (c.setPend b l).time = c.time := rfl
@[simp] theorem Chip.setPend_lap (c : Chip) (b : Bool) (l : List Nat) : (c.setPend b l).lap = c.lap := rfl
@[simp] theorem Chip.setPend_meas (c : Chip) (b : Bool) (l : List Nat) : (c.setPend b l).meas = c.meas := rfl
@[simp] theorem Chip.setPend_str (c : Chip) (b : Bool) (l : List Nat) : (c.setPend b l).str = c.str := rfl
@[simp] theorem Chip.setPend_bpt (c : Chip) (b : Bool) (l : List Nat) : (c.setPend b l).bpt = c.bpt := rfl
@[simp] theorem Chip.setPend_hrd (c : Chip) (b : Bool) (l : List Nat) : (c.setPend b l).hrd = c.hrd := rfl
@[simp] theorem Chip.setPend_isl (c : Chip) (b : Bool) (l : List Nat) : (c.setPend b l).isl = c.isl := rfl
@[simp] theorem Chip.setPend_imp (c : Chip) (b : Bool) (l : List Nat) : (c.setPend b l).imp = c.imp := rfl
@[simp] theorem Chip.setPend_pwm (c : Chip) (b : Bool) (l : List Nat) : (c.setPend b l).pwm = c.pwm := rfl
@[simp] theorem Chip.setPend_mtr (c : Chip) (b : Bool) (l : List Nat) : (c.setPend b l).mtr = c.mtr := rfl
@[simp] theorem Chip.setPend_lanes (c : Chip) (b : Bool) (l : List Nat) : (c.setPend b l).lanes = c.lanes := rfl
@[simp] theorem Chip.setPend_ethBusy (c : Chip) (b : Bool) (l : List Nat) : (c.setPend b l).ethBusy = c.ethBusy := rfl
@[simp] theorem Chip.setPend_out (c : Chip) (b : Bool) (l : List Nat) : (c.setPend b l).out = c.out := rfl
@[simp] theorem Chip.setPend_fab (c : Chip) (b : Bool) (l : List Nat) : (c.setPend b l).fab = c.fab := rfl
@[simp] theorem Chip.setPend_shd (c : Chip) (b : Bool) (l : List Nat) : (c.setPend b l).shd = c.shd := rfl
@[simp] theorem Chip.setPend_red (c : Chip) (b : Bool) (l : List Nat) : (c.setPend b l).red = c.red := rfl
@[simp] theorem Chip.setPend_pow (c : Chip) (b : Bool) (l : List Nat) : (c.setPend b l).pow = c.pow := rfl
@[simp] theorem Chip.setPend_boot (c : Chip) (b : Bool) (l : List Nat) : (c.setPend b l).boot = c.boot := rfl

@[simp] theorem Chip.txnArrival_mode (c : Chip) (n : Nat) : (c.txnArrival n).mode = c.mode := rfl
@[simp] theorem Chip.txnArrival_regs (c : Chip) (n : Nat) : (c.txnArrival n).regs = c.regs := rfl
@[simp] theorem Chip.txnArrival_crc (c : Chip) (n : Nat) : (c.txnArrival n).crc = c.crc := rfl
@[simp] theorem Chip.txnArrival_crcBusy (c : Chip) (n : Nat) : (c.txnArrival n).crcBusy = c.crcBusy := rfl
@[simp] theorem Chip.txnArrival_freeCtr (c : Chip) (n : Nat) : (c.txnArrival n).freeCtr = c.freeCtr := rfl
@[simp] theorem Chip.txnArrival_safe (c : Chip) (n : Nat) : (c.txnArrival n).safe = c.safe := rfl
@[simp] theorem Chip.txnArrival_time (c : Chip) (n : Nat) : (c.txnArrival n).time = c.time := rfl
@[simp] theorem Chip.txnArrival_lap (c : Chip) (n : Nat) : (c.txnArrival n).lap = c.lap := rfl
@[simp] theorem Chip.txnArrival_meas (c : Chip) (n : Nat) : (c.txnArrival n).meas = c.meas := rfl
@[simp] theorem Chip.txnArrival_str (c : Chip) (n : Nat) : (c.txnArrival n).str = c.str := rfl
@[simp] theorem Chip.txnArrival_bpt (c : Chip) (n : Nat) : (c.txnArrival n).bpt = c.bpt := rfl
@[simp] theorem Chip.txnArrival_hrd (c : Chip) (n : Nat) : (c.txnArrival n).hrd = c.hrd := rfl
@[simp] theorem Chip.txnArrival_isl (c : Chip) (n : Nat) : (c.txnArrival n).isl = c.isl := rfl
@[simp] theorem Chip.txnArrival_imp (c : Chip) (n : Nat) : (c.txnArrival n).imp = c.imp := rfl
@[simp] theorem Chip.txnArrival_pwm (c : Chip) (n : Nat) : (c.txnArrival n).pwm = c.pwm := rfl
@[simp] theorem Chip.txnArrival_mtr (c : Chip) (n : Nat) : (c.txnArrival n).mtr = c.mtr := rfl
@[simp] theorem Chip.txnArrival_lanes (c : Chip) (n : Nat) : (c.txnArrival n).lanes = c.lanes := rfl
@[simp] theorem Chip.txnArrival_ethBusy (c : Chip) (n : Nat) : (c.txnArrival n).ethBusy = c.ethBusy := rfl
@[simp] theorem Chip.txnArrival_out (c : Chip) (n : Nat) : (c.txnArrival n).out = c.out := rfl
@[simp] theorem Chip.txnArrival_fab (c : Chip) (n : Nat) : (c.txnArrival n).fab = c.fab := rfl
@[simp] theorem Chip.txnArrival_shd (c : Chip) (n : Nat) : (c.txnArrival n).shd = c.shd := rfl
@[simp] theorem Chip.txnArrival_red (c : Chip) (n : Nat) : (c.txnArrival n).red = c.red := rfl
@[simp] theorem Chip.txnArrival_pow (c : Chip) (n : Nat) : (c.txnArrival n).pow = c.pow := rfl
@[simp] theorem Chip.txnArrival_boot (c : Chip) (n : Nat) : (c.txnArrival n).boot = c.boot := rfl

@[simp] theorem Chip.setF_mode (c : Chip) (k n : Nat) (x : Fld) : (c.setF k x n).mode = c.mode := rfl
@[simp] theorem Chip.setF_crc (c : Chip) (k n : Nat) (x : Fld) : (c.setF k x n).crc = c.crc := rfl
@[simp] theorem Chip.setF_freeCtr (c : Chip) (k n : Nat) (x : Fld) : (c.setF k x n).freeCtr = c.freeCtr := rfl
@[simp] theorem Chip.setF_safe (c : Chip) (k n : Nat) (x : Fld) : (c.setF k x n).safe = c.safe := rfl
@[simp] theorem Chip.setF_bus (c : Chip) (k n : Nat) (x : Fld) : (c.setF k x n).bus = c.bus := rfl
@[simp] theorem Chip.setF_time (c : Chip) (k n : Nat) (x : Fld) : (c.setF k x n).time = c.time := rfl
@[simp] theorem Chip.setF_lap (c : Chip) (k n : Nat) (x : Fld) : (c.setF k x n).lap = c.lap := rfl
@[simp] theorem Chip.setF_meas (c : Chip) (k n : Nat) (x : Fld) : (c.setF k x n).meas = c.meas := rfl
@[simp] theorem Chip.setF_str (c : Chip) (k n : Nat) (x : Fld) : (c.setF k x n).str = c.str := rfl
@[simp] theorem Chip.setF_bpt (c : Chip) (k n : Nat) (x : Fld) : (c.setF k x n).bpt = c.bpt := rfl
@[simp] theorem Chip.setF_hrd (c : Chip) (k n : Nat) (x : Fld) : (c.setF k x n).hrd = c.hrd := rfl
@[simp] theorem Chip.setF_isl (c : Chip) (k n : Nat) (x : Fld) : (c.setF k x n).isl = c.isl := rfl
@[simp] theorem Chip.setF_imp (c : Chip) (k n : Nat) (x : Fld) : (c.setF k x n).imp = c.imp := rfl
@[simp] theorem Chip.setF_pwm (c : Chip) (k n : Nat) (x : Fld) : (c.setF k x n).pwm = c.pwm := rfl
@[simp] theorem Chip.setF_mtr (c : Chip) (k n : Nat) (x : Fld) : (c.setF k x n).mtr = c.mtr := rfl
@[simp] theorem Chip.setF_lanes (c : Chip) (k n : Nat) (x : Fld) : (c.setF k x n).lanes = c.lanes := rfl
@[simp] theorem Chip.setF_ethBusy (c : Chip) (k n : Nat) (x : Fld) : (c.setF k x n).ethBusy = c.ethBusy := rfl
@[simp] theorem Chip.setF_out (c : Chip) (k n : Nat) (x : Fld) : (c.setF k x n).out = c.out := rfl
@[simp] theorem Chip.setF_fab (c : Chip) (k n : Nat) (x : Fld) : (c.setF k x n).fab = c.fab := rfl
@[simp] theorem Chip.setF_shd (c : Chip) (k n : Nat) (x : Fld) : (c.setF k x n).shd = c.shd := rfl
@[simp] theorem Chip.setF_red (c : Chip) (k n : Nat) (x : Fld) : (c.setF k x n).red = c.red := rfl
@[simp] theorem Chip.setF_pow (c : Chip) (k n : Nat) (x : Fld) : (c.setF k x n).pow = c.pow := rfl
@[simp] theorem Chip.setF_boot (c : Chip) (k n : Nat) (x : Fld) : (c.setF k x n).boot = c.boot := rfl

@[simp] theorem Chip.flag_mode (c : Chip) (k : Nat) (x : Fld) (b : Bool) : (c.flag k x b).mode = c.mode := rfl
@[simp] theorem Chip.flag_crc (c : Chip) (k : Nat) (x : Fld) (b : Bool) : (c.flag k x b).crc = c.crc := rfl
@[simp] theorem Chip.flag_freeCtr (c : Chip) (k : Nat) (x : Fld) (b : Bool) : (c.flag k x b).freeCtr = c.freeCtr := rfl
@[simp] theorem Chip.flag_safe (c : Chip) (k : Nat) (x : Fld) (b : Bool) : (c.flag k x b).safe = c.safe := rfl
@[simp] theorem Chip.flag_bus (c : Chip) (k : Nat) (x : Fld) (b : Bool) : (c.flag k x b).bus = c.bus := rfl
@[simp] theorem Chip.flag_time (c : Chip) (k : Nat) (x : Fld) (b : Bool) : (c.flag k x b).time = c.time := rfl
@[simp] theorem Chip.flag_lap (c : Chip) (k : Nat) (x : Fld) (b : Bool) : (c.flag k x b).lap = c.lap := rfl
@[simp] theorem Chip.flag_meas (c : Chip) (k : Nat) (x : Fld) (b : Bool) : (c.flag k x b).meas = c.meas := rfl
@[simp] theorem Chip.flag_str (c : Chip) (k : Nat) (x : Fld) (b : Bool) : (c.flag k x b).str = c.str := rfl
@[simp] theorem Chip.flag_bpt (c : Chip) (k : Nat) (x : Fld) (b : Bool) : (c.flag k x b).bpt = c.bpt := rfl
@[simp] theorem Chip.flag_hrd (c : Chip) (k : Nat) (x : Fld) (b : Bool) : (c.flag k x b).hrd = c.hrd := rfl
@[simp] theorem Chip.flag_isl (c : Chip) (k : Nat) (x : Fld) (b : Bool) : (c.flag k x b).isl = c.isl := rfl
@[simp] theorem Chip.flag_imp (c : Chip) (k : Nat) (x : Fld) (b : Bool) : (c.flag k x b).imp = c.imp := rfl
@[simp] theorem Chip.flag_pwm (c : Chip) (k : Nat) (x : Fld) (b : Bool) : (c.flag k x b).pwm = c.pwm := rfl
@[simp] theorem Chip.flag_mtr (c : Chip) (k : Nat) (x : Fld) (b : Bool) : (c.flag k x b).mtr = c.mtr := rfl
@[simp] theorem Chip.flag_lanes (c : Chip) (k : Nat) (x : Fld) (b : Bool) : (c.flag k x b).lanes = c.lanes := rfl
@[simp] theorem Chip.flag_ethBusy (c : Chip) (k : Nat) (x : Fld) (b : Bool) : (c.flag k x b).ethBusy = c.ethBusy := rfl
@[simp] theorem Chip.flag_out (c : Chip) (k : Nat) (x : Fld) (b : Bool) : (c.flag k x b).out = c.out := rfl
@[simp] theorem Chip.flag_fab (c : Chip) (k : Nat) (x : Fld) (b : Bool) : (c.flag k x b).fab = c.fab := rfl
@[simp] theorem Chip.flag_shd (c : Chip) (k : Nat) (x : Fld) (b : Bool) : (c.flag k x b).shd = c.shd := rfl
@[simp] theorem Chip.flag_red (c : Chip) (k : Nat) (x : Fld) (b : Bool) : (c.flag k x b).red = c.red := rfl
@[simp] theorem Chip.flag_pow (c : Chip) (k : Nat) (x : Fld) (b : Bool) : (c.flag k x b).pow = c.pow := rfl
@[simp] theorem Chip.flag_boot (c : Chip) (k : Nat) (x : Fld) (b : Bool) : (c.flag k x b).boot = c.boot := rfl

@[simp] theorem Chip.setBit_mode (c : Chip) (k i : Nat) (b : Bool) : (c.setBit k i b).mode = c.mode := rfl
@[simp] theorem Chip.setBit_crc (c : Chip) (k i : Nat) (b : Bool) : (c.setBit k i b).crc = c.crc := rfl
@[simp] theorem Chip.setBit_freeCtr (c : Chip) (k i : Nat) (b : Bool) : (c.setBit k i b).freeCtr = c.freeCtr := rfl
@[simp] theorem Chip.setBit_safe (c : Chip) (k i : Nat) (b : Bool) : (c.setBit k i b).safe = c.safe := rfl
@[simp] theorem Chip.setBit_bus (c : Chip) (k i : Nat) (b : Bool) : (c.setBit k i b).bus = c.bus := rfl
@[simp] theorem Chip.setBit_time (c : Chip) (k i : Nat) (b : Bool) : (c.setBit k i b).time = c.time := rfl
@[simp] theorem Chip.setBit_lap (c : Chip) (k i : Nat) (b : Bool) : (c.setBit k i b).lap = c.lap := rfl
@[simp] theorem Chip.setBit_meas (c : Chip) (k i : Nat) (b : Bool) : (c.setBit k i b).meas = c.meas := rfl
@[simp] theorem Chip.setBit_str (c : Chip) (k i : Nat) (b : Bool) : (c.setBit k i b).str = c.str := rfl
@[simp] theorem Chip.setBit_bpt (c : Chip) (k i : Nat) (b : Bool) : (c.setBit k i b).bpt = c.bpt := rfl
@[simp] theorem Chip.setBit_hrd (c : Chip) (k i : Nat) (b : Bool) : (c.setBit k i b).hrd = c.hrd := rfl
@[simp] theorem Chip.setBit_isl (c : Chip) (k i : Nat) (b : Bool) : (c.setBit k i b).isl = c.isl := rfl
@[simp] theorem Chip.setBit_imp (c : Chip) (k i : Nat) (b : Bool) : (c.setBit k i b).imp = c.imp := rfl
@[simp] theorem Chip.setBit_pwm (c : Chip) (k i : Nat) (b : Bool) : (c.setBit k i b).pwm = c.pwm := rfl
@[simp] theorem Chip.setBit_mtr (c : Chip) (k i : Nat) (b : Bool) : (c.setBit k i b).mtr = c.mtr := rfl
@[simp] theorem Chip.setBit_lanes (c : Chip) (k i : Nat) (b : Bool) : (c.setBit k i b).lanes = c.lanes := rfl
@[simp] theorem Chip.setBit_ethBusy (c : Chip) (k i : Nat) (b : Bool) : (c.setBit k i b).ethBusy = c.ethBusy := rfl
@[simp] theorem Chip.setBit_out (c : Chip) (k i : Nat) (b : Bool) : (c.setBit k i b).out = c.out := rfl
@[simp] theorem Chip.setBit_fab (c : Chip) (k i : Nat) (b : Bool) : (c.setBit k i b).fab = c.fab := rfl
@[simp] theorem Chip.setBit_shd (c : Chip) (k i : Nat) (b : Bool) : (c.setBit k i b).shd = c.shd := rfl
@[simp] theorem Chip.setBit_red (c : Chip) (k i : Nat) (b : Bool) : (c.setBit k i b).red = c.red := rfl
@[simp] theorem Chip.setBit_pow (c : Chip) (k i : Nat) (b : Bool) : (c.setBit k i b).pow = c.pow := rfl
@[simp] theorem Chip.setBit_boot (c : Chip) (k i : Nat) (b : Bool) : (c.setBit k i b).boot = c.boot := rfl

@[simp] theorem Chip.wrN_mode (c : Chip) (k n : Nat) : (c.wrN k n).mode = c.mode := rfl
@[simp] theorem Chip.wrN_crc (c : Chip) (k n : Nat) : (c.wrN k n).crc = c.crc := rfl
@[simp] theorem Chip.wrN_freeCtr (c : Chip) (k n : Nat) : (c.wrN k n).freeCtr = c.freeCtr := rfl
@[simp] theorem Chip.wrN_safe (c : Chip) (k n : Nat) : (c.wrN k n).safe = c.safe := rfl
@[simp] theorem Chip.wrN_bus (c : Chip) (k n : Nat) : (c.wrN k n).bus = c.bus := rfl
@[simp] theorem Chip.wrN_time (c : Chip) (k n : Nat) : (c.wrN k n).time = c.time := rfl
@[simp] theorem Chip.wrN_lap (c : Chip) (k n : Nat) : (c.wrN k n).lap = c.lap := rfl
@[simp] theorem Chip.wrN_meas (c : Chip) (k n : Nat) : (c.wrN k n).meas = c.meas := rfl
@[simp] theorem Chip.wrN_str (c : Chip) (k n : Nat) : (c.wrN k n).str = c.str := rfl
@[simp] theorem Chip.wrN_bpt (c : Chip) (k n : Nat) : (c.wrN k n).bpt = c.bpt := rfl
@[simp] theorem Chip.wrN_hrd (c : Chip) (k n : Nat) : (c.wrN k n).hrd = c.hrd := rfl
@[simp] theorem Chip.wrN_isl (c : Chip) (k n : Nat) : (c.wrN k n).isl = c.isl := rfl
@[simp] theorem Chip.wrN_imp (c : Chip) (k n : Nat) : (c.wrN k n).imp = c.imp := rfl
@[simp] theorem Chip.wrN_pwm (c : Chip) (k n : Nat) : (c.wrN k n).pwm = c.pwm := rfl
@[simp] theorem Chip.wrN_mtr (c : Chip) (k n : Nat) : (c.wrN k n).mtr = c.mtr := rfl
@[simp] theorem Chip.wrN_lanes (c : Chip) (k n : Nat) : (c.wrN k n).lanes = c.lanes := rfl
@[simp] theorem Chip.wrN_ethBusy (c : Chip) (k n : Nat) : (c.wrN k n).ethBusy = c.ethBusy := rfl
@[simp] theorem Chip.wrN_out (c : Chip) (k n : Nat) : (c.wrN k n).out = c.out := rfl
@[simp] theorem Chip.wrN_fab (c : Chip) (k n : Nat) : (c.wrN k n).fab = c.fab := rfl
@[simp] theorem Chip.wrN_shd (c : Chip) (k n : Nat) : (c.wrN k n).shd = c.shd := rfl
@[simp] theorem Chip.wrN_red (c : Chip) (k n : Nat) : (c.wrN k n).red = c.red := rfl
@[simp] theorem Chip.wrN_pow (c : Chip) (k n : Nat) : (c.wrN k n).pow = c.pow := rfl
@[simp] theorem Chip.wrN_boot (c : Chip) (k n : Nat) : (c.wrN k n).boot = c.boot := rfl

@[simp] theorem Chip.wr64_mode (c : Chip) (k n : Nat) : (c.wr64 k n).mode = c.mode := rfl
@[simp] theorem Chip.wr64_crc (c : Chip) (k n : Nat) : (c.wr64 k n).crc = c.crc := rfl
@[simp] theorem Chip.wr64_freeCtr (c : Chip) (k n : Nat) : (c.wr64 k n).freeCtr = c.freeCtr := rfl
@[simp] theorem Chip.wr64_safe (c : Chip) (k n : Nat) : (c.wr64 k n).safe = c.safe := rfl
@[simp] theorem Chip.wr64_bus (c : Chip) (k n : Nat) : (c.wr64 k n).bus = c.bus := rfl
@[simp] theorem Chip.wr64_time (c : Chip) (k n : Nat) : (c.wr64 k n).time = c.time := rfl
@[simp] theorem Chip.wr64_lap (c : Chip) (k n : Nat) : (c.wr64 k n).lap = c.lap := rfl
@[simp] theorem Chip.wr64_meas (c : Chip) (k n : Nat) : (c.wr64 k n).meas = c.meas := rfl
@[simp] theorem Chip.wr64_str (c : Chip) (k n : Nat) : (c.wr64 k n).str = c.str := rfl
@[simp] theorem Chip.wr64_bpt (c : Chip) (k n : Nat) : (c.wr64 k n).bpt = c.bpt := rfl
@[simp] theorem Chip.wr64_hrd (c : Chip) (k n : Nat) : (c.wr64 k n).hrd = c.hrd := rfl
@[simp] theorem Chip.wr64_isl (c : Chip) (k n : Nat) : (c.wr64 k n).isl = c.isl := rfl
@[simp] theorem Chip.wr64_imp (c : Chip) (k n : Nat) : (c.wr64 k n).imp = c.imp := rfl
@[simp] theorem Chip.wr64_pwm (c : Chip) (k n : Nat) : (c.wr64 k n).pwm = c.pwm := rfl
@[simp] theorem Chip.wr64_mtr (c : Chip) (k n : Nat) : (c.wr64 k n).mtr = c.mtr := rfl
@[simp] theorem Chip.wr64_lanes (c : Chip) (k n : Nat) : (c.wr64 k n).lanes = c.lanes := rfl
@[simp] theorem Chip.wr64_ethBusy (c : Chip) (k n : Nat) : (c.wr64 k n).ethBusy = c.ethBusy := rfl
@[simp] theorem Chip.wr64_out (c : Chip) (k n : Nat) : (c.wr64 k n).out = c.out := rfl
@[simp] theorem Chip.wr64_fab (c : Chip) (k n : Nat) : (c.wr64 k n).fab = c.fab := rfl
@[simp] theorem Chip.wr64_shd (c : Chip) (k n : Nat) : (c.wr64 k n).shd = c.shd := rfl
@[simp] theorem Chip.wr64_red (c : Chip) (k n : Nat) : (c.wr64 k n).red = c.red := rfl
@[simp] theorem Chip.wr64_pow (c : Chip) (k n : Nat) : (c.wr64 k n).pow = c.pow := rfl
@[simp] theorem Chip.wr64_boot (c : Chip) (k n : Nat) : (c.wr64 k n).boot = c.boot := rfl

@[simp] theorem Chip.orBits_mode (c : Chip) (k m : Nat) : (c.orBits k m).mode = c.mode := rfl
@[simp] theorem Chip.orBits_crc (c : Chip) (k m : Nat) : (c.orBits k m).crc = c.crc := rfl
@[simp] theorem Chip.orBits_freeCtr (c : Chip) (k m : Nat) : (c.orBits k m).freeCtr = c.freeCtr := rfl
@[simp] theorem Chip.orBits_safe (c : Chip) (k m : Nat) : (c.orBits k m).safe = c.safe := rfl
@[simp] theorem Chip.orBits_bus (c : Chip) (k m : Nat) : (c.orBits k m).bus = c.bus := rfl
@[simp] theorem Chip.orBits_time (c : Chip) (k m : Nat) : (c.orBits k m).time = c.time := rfl
@[simp] theorem Chip.orBits_lap (c : Chip) (k m : Nat) : (c.orBits k m).lap = c.lap := rfl
@[simp] theorem Chip.orBits_meas (c : Chip) (k m : Nat) : (c.orBits k m).meas = c.meas := rfl
@[simp] theorem Chip.orBits_str (c : Chip) (k m : Nat) : (c.orBits k m).str = c.str := rfl
@[simp] theorem Chip.orBits_bpt (c : Chip) (k m : Nat) : (c.orBits k m).bpt = c.bpt := rfl
@[simp] theorem Chip.orBits_hrd (c : Chip) (k m : Nat) : (c.orBits k m).hrd = c.hrd := rfl
@[simp] theorem Chip.orBits_isl (c : Chip) (k m : Nat) : (c.orBits k m).isl = c.isl := rfl
@[simp] theorem Chip.orBits_imp (c : Chip) (k m : Nat) : (c.orBits k m).imp = c.imp := rfl
@[simp] theorem Chip.orBits_pwm (c : Chip) (k m : Nat) : (c.orBits k m).pwm = c.pwm := rfl
@[simp] theorem Chip.orBits_mtr (c : Chip) (k m : Nat) : (c.orBits k m).mtr = c.mtr := rfl
@[simp] theorem Chip.orBits_lanes (c : Chip) (k m : Nat) : (c.orBits k m).lanes = c.lanes := rfl
@[simp] theorem Chip.orBits_ethBusy (c : Chip) (k m : Nat) : (c.orBits k m).ethBusy = c.ethBusy := rfl
@[simp] theorem Chip.orBits_out (c : Chip) (k m : Nat) : (c.orBits k m).out = c.out := rfl
@[simp] theorem Chip.orBits_fab (c : Chip) (k m : Nat) : (c.orBits k m).fab = c.fab := rfl
@[simp] theorem Chip.orBits_shd (c : Chip) (k m : Nat) : (c.orBits k m).shd = c.shd := rfl
@[simp] theorem Chip.orBits_red (c : Chip) (k m : Nat) : (c.orBits k m).red = c.red := rfl
@[simp] theorem Chip.orBits_pow (c : Chip) (k m : Nat) : (c.orBits k m).pow = c.pow := rfl
@[simp] theorem Chip.orBits_boot (c : Chip) (k m : Nat) : (c.orBits k m).boot = c.boot := rfl

@[simp] theorem Chip.updBoot_boot (c : Chip) (g : BootSt → BootSt) : (c.updBoot g).boot = g c.boot := rfl
@[simp] theorem Chip.updBoot_rd (c : Chip) (g : BootSt → BootSt) (k : Nat) : (c.updBoot g).rd k = c.rd k := rfl
@[simp] theorem Chip.updBoot_f (c : Chip) (g : BootSt → BootSt) (k : Nat) (y : Fld) : (c.updBoot g).f k y = c.f k y := rfl
@[simp] theorem Chip.updBoot_is (c : Chip) (g : BootSt → BootSt) (k : Nat) (y : Fld) : (c.updBoot g).is k y = c.is k y := rfl
@[simp] theorem Chip.updTime_time (c : Chip) (g : TimeSt → TimeSt) : (c.updTime g).time = g c.time := rfl
@[simp] theorem Chip.updTime_rd (c : Chip) (g : TimeSt → TimeSt) (k : Nat) : (c.updTime g).rd k = c.rd k := rfl
@[simp] theorem Chip.updTime_f (c : Chip) (g : TimeSt → TimeSt) (k : Nat) (y : Fld) : (c.updTime g).f k y = c.f k y := rfl
@[simp] theorem Chip.updTime_is (c : Chip) (g : TimeSt → TimeSt) (k : Nat) (y : Fld) : (c.updTime g).is k y = c.is k y := rfl
@[simp] theorem Chip.updFab_fab (c : Chip) (g : FabSt → FabSt) : (c.updFab g).fab = g c.fab := rfl
@[simp] theorem Chip.updFab_rd (c : Chip) (g : FabSt → FabSt) (k : Nat) : (c.updFab g).rd k = c.rd k := rfl
@[simp] theorem Chip.updFab_f (c : Chip) (g : FabSt → FabSt) (k : Nat) (y : Fld) : (c.updFab g).f k y = c.f k y := rfl
@[simp] theorem Chip.updFab_is (c : Chip) (g : FabSt → FabSt) (k : Nat) (y : Fld) : (c.updFab g).is k y = c.is k y := rfl
@[simp] theorem Chip.updLane_lanes (c : Chip) (n : Nat) (g : LaneSt → LaneSt) : (c.updLane n g).lanes = upd c.lanes n g := rfl
@[simp] theorem Chip.updLane_rd (c : Chip) (n : Nat) (g : LaneSt → LaneSt) (k : Nat) : (c.updLane n g).rd k = c.rd k := rfl
@[simp] theorem Chip.updLane_f (c : Chip) (n : Nat) (g : LaneSt → LaneSt) (k : Nat) (y : Fld) : (c.updLane n g).f k y = c.f k y := rfl
@[simp] theorem Chip.updLane_is (c : Chip) (n : Nat) (g : LaneSt → LaneSt) (k : Nat) (y : Fld) : (c.updLane n g).is k y = c.is k y := rfl
@[simp] theorem Chip.updTb_rd (c : Chip) (n : Nat) (g : PwmTb → PwmTb) (k : Nat) : (c.updTb n g).rd k = c.rd k := rfl
@[simp] theorem Chip.updTb_f (c : Chip) (n : Nat) (g : PwmTb → PwmTb) (k : Nat) (y : Fld) : (c.updTb n g).f k y = c.f k y := rfl
@[simp] theorem Chip.updTb_is (c : Chip) (n : Nat) (g : PwmTb → PwmTb) (k : Nat) (y : Fld) : (c.updTb n g).is k y = c.is k y := rfl
@[simp] theorem Chip.updCh_rd (c : Chip) (n : Nat) (g : PwmCh → PwmCh) (k : Nat) : (c.updCh n g).rd k = c.rd k := rfl
@[simp] theorem Chip.updCh_f (c : Chip) (n : Nat) (g : PwmCh → PwmCh) (k : Nat) (y : Fld) : (c.updCh n g).f k y = c.f k y := rfl
@[simp] theorem Chip.updCh_is (c : Chip) (n : Nat) (g : PwmCh → PwmCh) (k : Nat) (y : Fld) : (c.updCh n g).is k y = c.is k y := rfl
@[simp] theorem Chip.updTrp_rd (c : Chip) (n : Nat) (g : TripSrc → TripSrc) (k : Nat) : (c.updTrp n g).rd k = c.rd k := rfl
@[simp] theorem Chip.updTrp_f (c : Chip) (n : Nat) (g : TripSrc → TripSrc) (k : Nat) (y : Fld) : (c.updTrp n g).f k y = c.f k y := rfl
@[simp] theorem Chip.updTrp_is (c : Chip) (n : Nat) (g : TripSrc → TripSrc) (k : Nat) (y : Fld) : (c.updTrp n g).is k y = c.is k y := rfl
@[simp] theorem Chip.updGdi_rd (c : Chip) (n : Nat) (g : GdiCh → GdiCh) (k : Nat) : (c.updGdi n g).rd k = c.rd k := rfl
@[simp] theorem Chip.updGdi_f (c : Chip) (n : Nat) (g : GdiCh → GdiCh) (k : Nat) (y : Fld) : (c.updGdi n g).f k y = c.f k y := rfl
@[simp] theorem Chip.updGdi_is (c : Chip) (n : Nat) (g : GdiCh → GdiCh) (k : Nat) (y : Fld) : (c.updGdi n g).is k y = c.is k y := rfl
@[simp] theorem Chip.updAcmp_rd (c : Chip) (n : Nat) (g : AcmpCh → AcmpCh) (k : Nat) : (c.updAcmp n g).rd k = c.rd k := rfl
@[simp] theorem Chip.updAcmp_f (c : Chip) (n : Nat) (g : AcmpCh → AcmpCh) (k : Nat) (y : Fld) : (c.updAcmp n g).f k y = c.f k y := rfl
@[simp] theorem Chip.updAcmp_is (c : Chip) (n : Nat) (g : AcmpCh → AcmpCh) (k : Nat) (y : Fld) : (c.updAcmp n g).is k y = c.is k y := rfl
@[simp] theorem Chip.updBpt_bpt (c : Chip) (n : Nat) (g : BptCh → BptCh) : (c.updBpt n g).bpt = upd c.bpt n g := rfl
@[simp] theorem Chip.updBpt_rd (c : Chip) (n : Nat) (g : BptCh → BptCh) (k : Nat) : (c.updBpt n g).rd k = c.rd k := rfl
@[simp] theorem Chip.updBpt_f (c : Chip) (n : Nat) (g : BptCh → BptCh) (k : Nat) (y : Fld) : (c.updBpt n g).f k y = c.f k y := rfl
@[simp] theorem Chip.updBpt_is (c : Chip) (n : Nat) (g : BptCh → BptCh) (k : Nat) (y : Fld) : (c.updBpt n g).is k y = c.is k y := rfl
@[simp] theorem Chip.updHrd_hrd (c : Chip) (g : HrdSt → HrdSt) : (c.updHrd g).hrd = g c.hrd := rfl
@[simp] theorem Chip.updHrd_rd (c : Chip) (g : HrdSt → HrdSt) (k : Nat) : (c.updHrd g).rd k = c.rd k := rfl
@[simp] theorem Chip.updHrd_f (c : Chip) (g : HrdSt → HrdSt) (k : Nat) (y : Fld) : (c.updHrd g).f k y = c.f k y := rfl
@[simp] theorem Chip.updHrd_is (c : Chip) (g : HrdSt → HrdSt) (k : Nat) (y : Fld) : (c.updHrd g).is k y = c.is k y := rfl
@[simp] theorem Chip.updIsl_isl (c : Chip) (g : IslSt → IslSt) : (c.updIsl g).isl = g c.isl := rfl
@[simp] theorem Chip.updIsl_rd (c : Chip) (g : IslSt → IslSt) (k : Nat) : (c.updIsl g).rd k = c.rd k := rfl
@[simp] theorem Chip.updIsl_f (c : Chip) (g : IslSt → IslSt) (k : Nat) (y : Fld) : (c.updIsl g).f k y = c.f k y := rfl
@[simp] theorem Chip.updIsl_is (c : Chip) (g : IslSt → IslSt) (k : Nat) (y : Fld) : (c.updIsl g).is k y = c.is k y := rfl
@[simp] theorem Chip.updImp_imp (c : Chip) (g : ImpSt → ImpSt) : (c.updImp g).imp = g c.imp := rfl
@[simp] theorem Chip.updImp_rd (c : Chip) (g : ImpSt → ImpSt) (k : Nat) : (c.updImp g).rd k = c.rd k := rfl
@[simp] theorem Chip.updImp_f (c : Chip) (g : ImpSt → ImpSt) (k : Nat) (y : Fld) : (c.updImp g).f k y = c.f k y := rfl
@[simp] theorem Chip.updImp_is (c : Chip) (g : ImpSt → ImpSt) (k : Nat) (y : Fld) : (c.updImp g).is k y = c.is k y := rfl
@[simp] theorem Chip.updRed_red (c : Chip) (g : RedSt → RedSt) : (c.updRed g).red = g c.red := rfl
@[simp] theorem Chip.updRed_rd (c : Chip) (g : RedSt → RedSt) (k : Nat) : (c.updRed g).rd k = c.rd k := rfl
@[simp] theorem Chip.updRed_f (c : Chip) (g : RedSt → RedSt) (k : Nat) (y : Fld) : (c.updRed g).f k y = c.f k y := rfl
@[simp] theorem Chip.updRed_is (c : Chip) (g : RedSt → RedSt) (k : Nat) (y : Fld) : (c.updRed g).is k y = c.is k y := rfl
@[simp] theorem Chip.updTwin_rd (c : Chip) (t : Bool) (g : TwinSt → TwinSt) (k : Nat) : (c.updTwin t g).rd k = c.rd k := rfl
@[simp] theorem Chip.updTwin_f (c : Chip) (t : Bool) (g : TwinSt → TwinSt) (k : Nat) (y : Fld) : (c.updTwin t g).f k y = c.f k y := rfl
@[simp] theorem Chip.updTwin_is (c : Chip) (t : Bool) (g : TwinSt → TwinSt) (k : Nat) (y : Fld) : (c.updTwin t g).is k y = c.is k y := rfl
@[simp] theorem Chip.updMeas_meas (c : Chip) (g : MeasSt → MeasSt) : (c.updMeas g).meas = g c.meas := rfl
@[simp] theorem Chip.updMeas_rd (c : Chip) (g : MeasSt → MeasSt) (k : Nat) : (c.updMeas g).rd k = c.rd k := rfl
@[simp] theorem Chip.updMeas_f (c : Chip) (g : MeasSt → MeasSt) (k : Nat) (y : Fld) : (c.updMeas g).f k y = c.f k y := rfl
@[simp] theorem Chip.updMeas_is (c : Chip) (g : MeasSt → MeasSt) (k : Nat) (y : Fld) : (c.updMeas g).is k y = c.is k y := rfl
@[simp] theorem Chip.updAfe_rd (c : Chip) (n : Nat) (g : AfeCh → AfeCh) (k : Nat) : (c.updAfe n g).rd k = c.rd k := rfl
@[simp] theorem Chip.updAfe_f (c : Chip) (n : Nat) (g : AfeCh → AfeCh) (k : Nat) (y : Fld) : (c.updAfe n g).f k y = c.f k y := rfl
@[simp] theorem Chip.updAfe_is (c : Chip) (n : Nat) (g : AfeCh → AfeCh) (k : Nat) (y : Fld) : (c.updAfe n g).is k y = c.is k y := rfl
@[simp] theorem Chip.updXmd_rd (c : Chip) (n : Nat) (g : XmdCh → XmdCh) (k : Nat) : (c.updXmd n g).rd k = c.rd k := rfl
@[simp] theorem Chip.updXmd_f (c : Chip) (n : Nat) (g : XmdCh → XmdCh) (k : Nat) (y : Fld) : (c.updXmd n g).f k y = c.f k y := rfl
@[simp] theorem Chip.updXmd_is (c : Chip) (n : Nat) (g : XmdCh → XmdCh) (k : Nat) (y : Fld) : (c.updXmd n g).is k y = c.is k y := rfl
@[simp] theorem Chip.updMtr_mtr (c : Chip) (g : MtrSt → MtrSt) : (c.updMtr g).mtr = g c.mtr := rfl
@[simp] theorem Chip.updMtr_rd (c : Chip) (g : MtrSt → MtrSt) (k : Nat) : (c.updMtr g).rd k = c.rd k := rfl
@[simp] theorem Chip.updMtr_f (c : Chip) (g : MtrSt → MtrSt) (k : Nat) (y : Fld) : (c.updMtr g).f k y = c.f k y := rfl
@[simp] theorem Chip.updMtr_is (c : Chip) (g : MtrSt → MtrSt) (k : Nat) (y : Fld) : (c.updMtr g).is k y = c.is k y := rfl
@[simp] theorem Chip.updPort_rd (c : Chip) (n : Nat) (g : MtrPort → MtrPort) (k : Nat) : (c.updPort n g).rd k = c.rd k := rfl
@[simp] theorem Chip.updPort_f (c : Chip) (n : Nat) (g : MtrPort → MtrPort) (k : Nat) (y : Fld) : (c.updPort n g).f k y = c.f k y := rfl
@[simp] theorem Chip.updPort_is (c : Chip) (n : Nat) (g : MtrPort → MtrPort) (k : Nat) (y : Fld) : (c.updPort n g).is k y = c.is k y := rfl
@[simp] theorem Chip.updPq_rd (c : Chip) (n : Nat) (g : PqPort → PqPort) (k : Nat) : (c.updPq n g).rd k = c.rd k := rfl
@[simp] theorem Chip.updPq_f (c : Chip) (n : Nat) (g : PqPort → PqPort) (k : Nat) (y : Fld) : (c.updPq n g).f k y = c.f k y := rfl
@[simp] theorem Chip.updPq_is (c : Chip) (n : Nat) (g : PqPort → PqPort) (k : Nat) (y : Fld) : (c.updPq n g).is k y = c.is k y := rfl
@[simp] theorem Chip.updPow_pow (c : Chip) (g : PowSt → PowSt) : (c.updPow g).pow = g c.pow := rfl
@[simp] theorem Chip.updPow_rd (c : Chip) (g : PowSt → PowSt) (k : Nat) : (c.updPow g).rd k = c.rd k := rfl
@[simp] theorem Chip.updPow_f (c : Chip) (g : PowSt → PowSt) (k : Nat) (y : Fld) : (c.updPow g).f k y = c.f k y := rfl
@[simp] theorem Chip.updPow_is (c : Chip) (g : PowSt → PowSt) (k : Nat) (y : Fld) : (c.updPow g).is k y = c.is k y := rfl
@[simp] theorem Chip.updSout_rd (c : Chip) (n : Nat) (g : SoutCh → SoutCh) (k : Nat) : (c.updSout n g).rd k = c.rd k := rfl
@[simp] theorem Chip.updSout_f (c : Chip) (n : Nat) (g : SoutCh → SoutCh) (k : Nat) (y : Fld) : (c.updSout n g).f k y = c.f k y := rfl
@[simp] theorem Chip.updSout_is (c : Chip) (n : Nat) (g : SoutCh → SoutCh) (k : Nat) (y : Fld) : (c.updSout n g).is k y = c.is k y := rfl
@[simp] theorem Chip.updShd_shd (c : Chip) (g : ShdSt → ShdSt) : (c.updShd g).shd = g c.shd := rfl
@[simp] theorem Chip.updShd_rd (c : Chip) (g : ShdSt → ShdSt) (k : Nat) : (c.updShd g).rd k = c.rd k := rfl
@[simp] theorem Chip.updShd_f (c : Chip) (g : ShdSt → ShdSt) (k : Nat) (y : Fld) : (c.updShd g).f k y = c.f k y := rfl
@[simp] theorem Chip.updShd_is (c : Chip) (g : ShdSt → ShdSt) (k : Nat) (y : Fld) : (c.updShd g).is k y = c.is k y := rfl
@[simp] theorem Chip.updPair_rd (c : Chip) (n : Nat) (g : PairSt → PairSt) (k : Nat) : (c.updPair n g).rd k = c.rd k := rfl
@[simp] theorem Chip.updPair_f (c : Chip) (n : Nat) (g : PairSt → PairSt) (k : Nat) (y : Fld) : (c.updPair n g).f k y = c.f k y := rfl
@[simp] theorem Chip.updPair_is (c : Chip) (n : Nat) (g : PairSt → PairSt) (k : Nat) (y : Fld) : (c.updPair n g).is k y = c.is k y := rfl
@[simp] theorem Chip.updRx_rd (c : Chip) (n : Nat) (g : RxConn → RxConn) (k : Nat) : (c.updRx n g).rd k = c.rd k := rfl
@[simp] theorem Chip.updRx_f (c : Chip) (n : Nat) (g : RxConn → RxConn) (k : Nat) (y : Fld) : (c.updRx n g).f k y = c.f k y := rfl
@[simp] theorem Chip.updRx_is (c : Chip) (n : Nat) (g : RxConn → RxConn) (k : Nat) (y : Fld) : (c.updRx n g).is k y = c.is k y := rfl
@[simp] theorem Chip.updStr_str (c : Chip) (g : StrSt → StrSt) : (c.updStr g).str = g c.str := rfl
@[simp] theorem Chip.updStr_rd (c : Chip) (g : StrSt → StrSt) (k : Nat) : (c.updStr g).rd k = c.rd k := rfl
@[simp] theorem Chip.updStr_f (c : Chip) (g : StrSt → StrSt) (k : Nat) (y : Fld) : (c.updStr g).f k y = c.f k y := rfl
@[simp] theorem Chip.updStr_is (c : Chip) (g : StrSt → StrSt) (k : Nat) (y : Fld) : (c.updStr g).is k y = c.is k y := rfl
@[simp] theorem Chip.updGrp_rd (c : Chip) (n : Nat) (g : StrGrp → StrGrp) (k : Nat) : (c.updGrp n g).rd k = c.rd k := rfl
@[simp] theorem Chip.updGrp_f (c : Chip) (n : Nat) (g : StrGrp → StrGrp) (k : Nat) (y : Fld) : (c.updGrp n g).f k y = c.f k y := rfl
@[simp] theorem Chip.updGrp_is (c : Chip) (n : Nat) (g : StrGrp → StrGrp) (k : Nat) (y : Fld) : (c.updGrp n g).is k y = c.is k y := rfl
@[simp] theorem Chip.updBus_bus (c : Chip) (g : BusSt → BusSt) : (c.updBus g).bus = g c.bus := rfl
@[simp] theorem Chip.updBus_rd (c : Chip) (g : BusSt → BusSt) (k : Nat) : (c.updBus g).rd k = c.rd k := rfl
@[simp] theorem Chip.updBus_f (c : Chip) (g : BusSt → BusSt) (k : Nat) (y : Fld) : (c.updBus g).f k y = c.f k y := rfl
@[simp] theorem Chip.updBus_is (c : Chip) (g : BusSt → BusSt) (k : Nat) (y : Fld) : (c.updBus g).is k y = c.is k y := rfl
@[simp] theorem Chip.emit_rd (c : Chip) (p : Packet) (n : Nat) (l : Option Nat) (k : Nat) : (c.emit p n l).rd k = c.rd k := rfl
@[simp] theorem Chip.emit_f (c : Chip) (p : Packet) (n : Nat) (l : Option Nat) (k : Nat) (y : Fld) : (c.emit p n l).f k y = c.f k y := rfl
@[simp] theorem Chip.emit_is (c : Chip) (p : Packet) (n : Nat) (l : Option Nat) (k : Nat) (y : Fld) : (c.emit p n l).is k y = c.is k y := rfl
@[simp] theorem Chip.deliver_rd (c : Chip) (n : Nat) (d : EvDest) (k : Nat) : (c.deliver n d).rd k = c.rd k := rfl
@[simp] theorem Chip.deliver_f (c : Chip) (n : Nat) (d : EvDest) (k : Nat) (y : Fld) : (c.deliver n d).f k y = c.f k y := rfl
@[simp] theorem Chip.deliver_is (c : Chip) (n : Nat) (d : EvDest) (k : Nat) (y : Fld) : (c.deliver n d).is k y = c.is k y := rfl
@[simp] theorem Chip.setPend_rd (c : Chip) (b : Bool) (l : List Nat) (k : Nat) : (c.setPend b l).rd k = c.rd k := rfl
@[simp] theorem Chip.setPend_f (c : Chip) (b : Bool) (l : List Nat) (k : Nat) (y : Fld) : (c.setPend b l).f k y = c.f k y := rfl
@[simp] theorem Chip.setPend_is (c : Chip) (b : Bool) (l : List Nat) (k : Nat) (y : Fld) : (c.setPend b l).is k y = c.is k y := rfl
@[simp] theorem Chip.txnArrival_rd (c : Chip) (n : Nat) (k : Nat) : (c.txnArrival n).rd k = c.rd k := rfl
@[simp] theorem Chip.txnArrival_f (c : Chip) (n : Nat) (k : Nat) (y : Fld) : (c.txnArrival n).f k y = c.f k y := rfl
@[simp] theorem Chip.txnArrival_is (c : Chip) (n : Nat) (k : Nat) (y : Fld) : (c.txnArrival n).is k y = c.is k y := rfl

end Sys2Proof.Machine
end

