-- ==== Sys2Proof/Laws/Words.lean ====
section
/-!
SUPPORT. Laws of words and their fields: a field reads what was set in it, and a set field leaves the others alone.
-/
namespace Sys2Proof.Machine
open Sys2Proof
set_option Elab.async false

/-- Bit `i` of a field. -/
theorem testBit_fget (w : Word) (x : Fld) (i : Nat) :
    (fget w x).testBit i = (decide (i < x.hi + 1 - x.lo) && w.toNat.testBit (i + x.lo)) := by
  rw [fget, Nat.testBit_mod_two_pow, Nat.testBit_div_two_pow]

/-- Bits that lie at disjoint places add without a carry. -/
theorem testBit_fset (w : Word) (x : Fld) (n i : Nat) :
    (fset w x n).toNat.testBit i =
      (decide (i < 32) && if x.lo ≤ i ∧ i < x.lo + (x.hi + 1 - x.lo) then n.testBit (i - x.lo) else w.toNat.testBit i) := by
  have hsub : w.toNat - fget w x * 2 ^ x.lo + n % 2 ^ (x.hi + 1 - x.lo) * 2 ^ x.lo
      = 2 ^ x.lo * (2 ^ (x.hi + 1 - x.lo) * (w.toNat / 2 ^ x.lo / 2 ^ (x.hi + 1 - x.lo)) + n % 2 ^ (x.hi + 1 - x.lo))
        + w.toNat % 2 ^ x.lo := by
    have h1 := Nat.div_add_mod w.toNat (2 ^ x.lo)
    have h2 := Nat.div_add_mod (w.toNat / 2 ^ x.lo) (2 ^ (x.hi + 1 - x.lo))
    rw [fget]
    generalize hq : w.toNat / 2 ^ x.lo / 2 ^ (x.hi + 1 - x.lo) = q at *
    generalize hr : w.toNat / 2 ^ x.lo % 2 ^ (x.hi + 1 - x.lo) = r at *
    generalize hs : w.toNat % 2 ^ x.lo = s at *
    generalize n % 2 ^ (x.hi + 1 - x.lo) = m
    rw [← h2] at h1
    have : w.toNat = 2 ^ x.lo * (2 ^ (x.hi + 1 - x.lo) * q) + r * 2 ^ x.lo + s := by rw [← h1]; ring
    rw [this]
    have e : 2 ^ x.lo * (2 ^ (x.hi + 1 - x.lo) * q) + r * 2 ^ x.lo + s - r * 2 ^ x.lo
        = 2 ^ x.lo * (2 ^ (x.hi + 1 - x.lo) * q) + s := by omega
    rw [e]; ring
  rw [fset, hsub, BitVec.toNat_ofNat, Nat.testBit_mod_two_pow, Nat.testBit_two_pow_mul_add _ (Nat.mod_lt _ (by positivity))]
  congr 1
  by_cases hlo : i < x.lo
  · rw [if_pos hlo, if_neg (by omega), Nat.testBit_mod_two_pow]; simp [hlo]
  · rw [if_neg hlo, Nat.testBit_two_pow_mul_add _ (Nat.mod_lt _ (by positivity))]
    by_cases hhi : i < x.lo + (x.hi + 1 - x.lo)
    · rw [if_pos (by omega), if_pos (by omega), Nat.testBit_mod_two_pow]
      simp; omega
    · rw [if_neg (by omega), if_neg (by omega), Nat.testBit_div_two_pow, Nat.testBit_div_two_pow]
      congr 1; omega

/-- A field reads what was set in it. -/
theorem fget_fset (w : Word) (x : Fld) (n : Nat) (h : x.hi < 32) : fget (fset w x n) x = n % 2 ^ (x.hi + 1 - x.lo) := by
  apply Nat.eq_of_testBit_eq
  intro i
  rw [testBit_fget, testBit_fset, Nat.testBit_mod_two_pow]
  by_cases hi : i < x.hi + 1 - x.lo
  · rw [if_pos (by omega)]; simp [hi]; omega
  · simp [hi]

/-- A set field leaves a field beside it alone. -/
theorem fget_fset_of_disjoint (w : Word) (x y : Fld) (n : Nat) (hy : y.hi < 32) (h : y.hi < x.lo ∨ x.hi < y.lo) :
    fget (fset w x n) y = fget w y := by
  apply Nat.eq_of_testBit_eq
  intro i
  rw [testBit_fget, testBit_fget, testBit_fset]
  by_cases hi : i < y.hi + 1 - y.lo
  · rw [if_neg (by omega)]
    have : i + y.lo < 32 := by omega
    simp [this]
  · simp [hi]

@[simp] theorem b2n_true : b2n true = 1 := rfl
@[simp] theorem b2n_false : b2n false = 0 := rfl

/-- A flag is its bit. -/
theorem b2n_mod_two (b : Bool) : b2n b % 2 = b2n b := by cases b <;> rfl

/-- A flag is 1 where it is true. -/
theorem b2n_eq_one (b : Bool) : b2n b = 1 ↔ b = true := by cases b <;> simp

end Sys2Proof.Machine
end

