-- ==== Sys2Proof/Laws/Ops.lean ====
section
/-!
SUPPORT. What each shared operation does, said once: reading registers after writes, the gates in front of a command, and what an event
occurrence, a Lap record or a recorded error leaves alone.
-/
namespace Sys2Proof.Machine
open Sys2Proof
set_option Elab.async false

/-! ### Registers -/

theorem Chip.rd_wr (c : Chip) (k j : Nat) (v : Word) : (c.wr k v).rd j = if k = j then v else c.rd j :=
  SMap.get_put _ _ _ _ _

@[simp] theorem Chip.rd_wr_same (c : Chip) (k : Nat) (v : Word) : (c.wr k v).rd k = v := by simp [Chip.rd_wr]

theorem Chip.rd_wr_ne (c : Chip) (k j : Nat) (v : Word) (h : k ≠ j) : (c.wr k v).rd j = c.rd j := by simp [Chip.rd_wr, h]

theorem Chip.rd_setF_ne (c : Chip) (k j n : Nat) (x : Fld) (h : k ≠ j) : (c.setF k x n).rd j = c.rd j :=
  Chip.rd_wr_ne _ _ _ _ h

/-- A register's field reads what was set in it. -/
theorem Chip.f_setF (c : Chip) (k n : Nat) (x : Fld) (h : x.hi < 32) : (c.setF k x n).f k x = n % 2 ^ (x.hi + 1 - x.lo) := by
  simp [Chip.f, Chip.setF, fget_fset _ _ _ h]

/-- A field beside the one that was set is as before. -/
theorem Chip.f_setF_beside (c : Chip) (k n : Nat) (x y : Fld) (hy : y.hi < 32) (h : y.hi < x.lo ∨ x.hi < y.lo) :
    (c.setF k x n).f k y = c.f k y := by
  simp [Chip.f, Chip.setF, fget_fset_of_disjoint _ _ _ _ hy h]

/-- A field of another register is as before. -/
theorem Chip.f_setF_ne (c : Chip) (k j n : Nat) (x y : Fld) (h : k ≠ j) : (c.setF k x n).f j y = c.f j y := by
  simp [Chip.f, Chip.rd_setF_ne _ _ _ _ _ h]

/-- A one-bit field reads the flag that was set in it. -/
theorem Chip.is_flag (c : Chip) (k : Nat) (x : Fld) (b : Bool) (h : x.hi < 32) (hw : x.hi = x.lo) : (c.flag k x b).is k x = b := by
  have : x.hi + 1 - x.lo = 1 := by omega
  rw [Chip.is, Chip.flag, Chip.f_setF _ _ _ _ h, this]
  cases b <;> simp

/-- A flag beside the one that was set, or in another register, is as before. -/
theorem Chip.is_flag_beside (c : Chip) (k : Nat) (x y : Fld) (b : Bool) (hy : y.hi < 32) (h : y.hi < x.lo ∨ x.hi < y.lo) :
    (c.flag k x b).is k y = c.is k y := by
  simp [Chip.is, Chip.flag, Chip.f_setF_beside _ _ _ _ _ hy h]

theorem Chip.is_flag_ne (c : Chip) (k j : Nat) (x y : Fld) (b : Bool) (h : k ≠ j) : (c.flag k x b).is j y = c.is j y := by
  simp [Chip.is, Chip.flag, Chip.f_setF_ne _ _ _ _ _ _ h]

/-- A register back at reset reads its reset value, every other as before. -/
theorem Chip.rd_toReset (c : Chip) (k j : Nat) : (c.toReset k).rd j = if k = j then regReset j else c.rd j :=
  SMap.get_erase _ _ _ _

/-- The keys that return to reset read so, every other as before. -/
theorem Chip.rd_resetKeys (c : Chip) (p : Nat → Bool) (j : Nat) : (c.resetKeys p).rd j = if p j then regReset j else c.rd j := by
  have h := SMap.get_keep regReset (fun k => !p k) c.regs j
  unfold Chip.rd Chip.resetKeys
  rw [h]; by_cases hp : p j <;> simp [hp]

/-! ### Gates in front of a command -/

/-- In a powered device whose working clocks run, work is done. -/
theorem Chip.via_of_clock (c : Chip) (g : Chip → Chip) (h : c.powered = true) (hg : c.time.gated = false) : c.via g = g c := by
  simp [Chip.via, Chip.clockOn, h, hg]

/-- A block that runs does its work. -/
theorem Chip.clocked_of (c : Chip) (b : Nat) (g : Chip → Chip) (h : c.powered = true) (hg : c.time.gated = false)
    (hf : c.halted b = false) : c.clocked b g = g c := by simp [Chip.clocked, Chip.clockOn, h, hg, hf]

/-- A write with the right key by a writer that is not barred takes effect. -/
theorem Chip.cmd_of (c : Chip) (k : Nat) (w : Writer) (g : Chip → Chip) (h : c.powered = true) (hg : c.time.gated = false)
    (hb : c.barred k w.ini.code = none) : c.cmd k w theKey g = g c := by
  simp [Chip.cmd, Chip.via, Chip.clockOn, Chip.gate, Chip.keyed, h, hg, hb]

theorem Chip.put_of (c : Chip) (k : Nat) (w : Writer) (g : Chip → Chip) (h : c.powered = true) (hg : c.time.gated = false)
    (hb : c.barred k w.ini.code = none) : c.put k w g = g c := by
  simp [Chip.put, Chip.via, Chip.clockOn, Chip.gate, h, hg, hb]

theorem State.cmd_of (s : State) (k : Nat) (w : Writer) (g : State → State) (h : s.chip.powered = true) (hg : s.chip.time.gated = false)
    (hb : s.chip.barred k w.ini.code = none) : s.cmd k w theKey g = g s := by
  simp [State.cmd, Chip.clockOn, h, hg, hb]

/-- A write with a wrong key is recorded with KEY and does nothing else. -/
theorem Chip.cmd_wrong_key (c : Chip) (k : Nat) (w : Writer) (key : BitVec 16) (g : Chip → Chip) (h : c.powered = true)
    (hg : c.time.gated = false) (hb : c.barred k w.ini.code = none) (hk : key ≠ theKey) :
    c.cmd k w key g = c.perr k .key w.ini.code := by
  simp [Chip.cmd, Chip.via, Chip.clockOn, Chip.gate, Chip.keyed, h, hg, hb, hk]

/-! ### Repetition -/

/-- What holds before a repetition and is kept by each turn holds after it. -/
theorem forN_inv {α : Type} (P : α → Prop) (n : Nat) (g : Nat → α → α) (a : α) (h : P a) (hg : ∀ i a, P a → P (g i a)) :
    P (forN n g a) := by
  unfold forN
  generalize List.range n = l
  induction l generalizing a with
  | nil => exact h
  | cons x t ih => exact ih _ (hg _ _ h)

/-- What holds before a fold and is kept by each turn holds after it. -/
theorem foldl_inv {α β : Type} (P : α → Prop) (l : List β) (g : α → β → α) (a : α) (h : P a) (hg : ∀ a x, P a → P (g a x)) :
    P (l.foldl g a) := by
  induction l generalizing a with
  | nil => exact h
  | cons x t ih => exact ih _ (hg _ _ h)

/-! ### What an event occurrence leaves alone -/

/-- The parts of the chip that no event occurrence, Lap record or register write touches. -/
structure Chip.Beside (c d : Chip) : Prop where
  mode : d.mode = c.mode
  crc : d.crc = c.crc
  freeCtr : d.freeCtr = c.freeCtr
  safe : d.safe = c.safe
  time : d.time = c.time
  meas : d.meas = c.meas
  str : d.str = c.str
  bpt : d.bpt = c.bpt
  hrd : d.hrd = c.hrd
  isl : d.isl = c.isl
  imp : d.imp = c.imp
  pwm : d.pwm = c.pwm
  mtr : d.mtr = c.mtr
  lanes : d.lanes = c.lanes
  ethBusy : d.ethBusy = c.ethBusy
  out : d.out = c.out
  fab : d.fab = c.fab
  shd : d.shd = c.shd
  red : d.red = c.red
  pow : d.pow = c.pow
  boot : d.boot = c.boot

theorem Chip.Beside.refl (c : Chip) : c.Beside c := by constructor <;> rfl

theorem Chip.Beside.trans {a b c : Chip} (h : a.Beside b) (g : b.Beside c) : a.Beside c := by
  cases h; cases g; constructor <;> simp_all

theorem Chip.wr_beside (c : Chip) (k : Nat) (v : Word) : c.Beside (c.wr k v) := by constructor <;> rfl
theorem Chip.deliver_beside (c : Chip) (n : Nat) (d : EvDest) : c.Beside (c.deliver n d) := by constructor <;> rfl
theorem Chip.setPend_beside (c : Chip) (b : Bool) (l : List Nat) : c.Beside (c.setPend b l) := by constructor <;> rfl
theorem Chip.txnArrival_beside (c : Chip) (n : Nat) : c.Beside (c.txnArrival n) := by constructor <;> rfl

/-- A Lap record changes the Lap log's own state alone. -/
theorem Chip.lapRec_beside (c : Chip) (r : LapRec) : c.Beside (c.lapRec r) := by
  unfold Chip.lapRec; split
  · simp only []; split <;> constructor <;> rfl
  · exact .refl c

@[simp] theorem Chip.rd_lapRec (c : Chip) (r : LapRec) (k : Nat) : (c.lapRec r).rd k = c.rd k := by
  unfold Chip.lapRec; split
  · simp only []; split <;> rfl
  · rfl


/-- A property of the chip that no event occurrence can end: it survives a write to a register that `evKey` names, a set PG_EVT bit, a Lap record, an
arrival at TXN, and an occurrence setting out or becoming pending. -/
structure EvKept (P : Chip → Prop) : Prop where
  wr : ∀ c k v, evKey k = true → k % 0x1000 ≠ H.EVT → P c → P (c.wr k v)
  evt : ∀ c b i, b % 0x1000 = 0 → P c → P (c.setBit (b + H.EVT) i true)
  lap : ∀ c r, P c → P (c.lapRec r)
  txn : ∀ c n, P c → P (c.txnArrival n)
  pend : ∀ c b l, P c → P (c.setPend b l)
  send : ∀ c n d, P c → P (c.deliver n d)

theorem EvKept.setF {P : Chip → Prop} (h : EvKept P) (c : Chip) (k n : Nat) (x : Fld) (hk : evKey k = true ∧ k % 0x1000 ≠ H.EVT) (hc : P c) :
    P (c.setF k x n) := h.wr _ _ _ hk.1 hk.2 hc

theorem EvKept.wr64 {P : Chip → Prop} (h : EvKept P) (c : Chip) (k n : Nat) (hk : evKey k = true ∧ k % 0x1000 ≠ H.EVT)
    (hk4 : evKey (k + 4) = true ∧ (k + 4) % 0x1000 ≠ H.EVT) (hc : P c) : P (c.wr64 k n) :=
  h.wr _ _ _ hk4.1 hk4.2 (h.wr _ _ _ hk.1 hk.2 hc)

theorem evKey_evt (b : Nat) (hb : b % 0x1000 = 0) : evKey (b + H.EVT) = true := by
  have : (b + H.EVT) % 0x1000 = H.EVT := by simp [H.EVT]; omega
  simp [evKey, this]

theorem evKey_cap : ∀ u < 2, (evKey (R.HTM_CAP_CFG u) = true ∧ R.HTM_CAP_CFG u % 0x1000 ≠ H.EVT)
    ∧ (evKey (R.HTM_CAP (2 * u)) = true ∧ R.HTM_CAP (2 * u) % 0x1000 ≠ H.EVT)
    ∧ (evKey (R.HTM_CAP (2 * u) + 4) = true ∧ (R.HTM_CAP (2 * u) + 4) % 0x1000 ≠ H.EVT) := by
  decide

section
variable {P : Chip → Prop} {go : Nat → Nat → Chip → Chip}

theorem EvKept.capUnit (h : EvKept P) (hgo : ∀ b i c, b % 0x1000 = 0 → P c → P (go b i c)) (s u : Nat) (hu : u < 2) (c : Chip)
    (hc : P c) : P (c.capUnit go s u) := by
  obtain ⟨k1, k2, k3⟩ := evKey_cap u hu
  unfold Chip.capUnit; simp only []; split
  · split
    · exact h.setF _ _ _ _ k1 hc
    · exact hgo _ _ _ (by decide) (h.setF _ _ _ _ k1 (h.wr64 _ _ _ k2 k3 hc))
  · exact hc

theorem EvKept.maskTake (h : EvKept P) (s : Nat) (c : Chip) (hc : P c) : P (c.maskTake s) := by
  unfold Chip.maskTake; split
  · exact h.setF _ _ _ _ (by decide) hc
  · exact hc

theorem EvKept.pacerTake (h : EvKept P) (hgo : ∀ b i c, b % 0x1000 = 0 → P c → P (go b i c)) (s k : Nat) (c : Chip)
    (hc : P c) : P (c.pacerTake go s k) := by
  unfold Chip.pacerTake; split
  · exact hgo _ _ _ (by decide) (h.setF _ _ _ _ (by decide) hc)
  · exact hc

theorem EvKept.lapTake (h : EvKept P) (hgo : ∀ b i c, b % 0x1000 = 0 → P c → P (go b i c)) (s : Nat) (c : Chip)
    (hc : P c) : P (c.lapTake go s) := by
  unfold Chip.lapTake; split
  · split
    · exact hgo _ _ _ (by decide) (h.setF _ _ _ _ (by decide) (h.setF _ _ _ _ (by decide)
        (h.wr64 _ _ _ (by decide) (by decide) (h.lap _ _ hc))))
    · exact hc
  · exact hc

theorem EvKept.twinTake (h : EvKept P) (s : Nat) (pulse tw : Bool) (c : Chip) (hc : P c) : P (c.twinTake s pulse tw) := by
  unfold Chip.twinTake
  generalize (if tw = true then EvDest.twinB else EvDest.twinA) = x
  split <;> [skip; exact hc]
  split <;> [skip; exact h.send _ _ _ hc]
  split <;> [exact hc; exact h.send _ _ _ (h.pend _ _ _ hc)]

theorem EvKept.twinsTake (h : EvKept P) (hgo : ∀ b i c, b % 0x1000 = 0 → P c → P (go b i c)) (s : Nat) (pulse : Bool) (c : Chip)
    (hc : P c) : P (c.twinsTake go s pulse) := by
  have co : ∀ d, P d → P (d.coalesced s) := fun d hd => h.setF _ _ _ _ (by decide) (h.setF _ _ _ _ (by decide) hd)
  have tk := h.twinTake s pulse true _ (h.twinTake s pulse false c hc)
  unfold Chip.twinsTake; simp only []
  split <;> [skip; exact tk]
  split <;> [exact co _ tk; exact hgo _ _ _ (by decide) (co _ tk)]

theorem EvKept.restTake (h : EvKept P) (s : Nat) (c : Chip) (hc : P c) : P (c.restTake s) := by
  have one : ∀ (d : Chip) (p : Prop) [Decidable p] (x : EvDest), P d → P (if p then d.deliver s x else d) := by
    intro d p _ x hd; split <;> [exact h.send _ _ _ hd; exact hd]
  unfold Chip.restTake
  exact one _ _ _ (one _ _ _ (one _ _ _ hc))

theorem EvKept.occur (h : EvKept P) (hgo : ∀ b i c, b % 0x1000 = 0 → P c → P (go b i c)) (s : Nat) (pulse : Bool) (c : Chip)
    (hc : P c) : P (c.occur go s pulse) := by
  unfold Chip.occur; simp only []
  have h1 : P ((if c.usedBy s then c.lapLong 0x07 3 [s] else c).txnArrival s) := by
    apply h.txn; split <;> [exact h.lap _ _ hc; exact hc]
  refine h.restTake _ _ (h.twinsTake hgo _ _ _ (h.lapTake hgo _ _ (forN_inv P _ _ _ (h.maskTake _ _ ?_)
    fun k d hd => h.pacerTake hgo _ _ _ hd)))
  exact h.capUnit hgo _ 1 (by omega) _ (h.capUnit hgo _ 0 (by omega) _ h1)

end

/-- An event occurrence keeps every property that `EvKept` describes. -/
theorem EvKept.raiseN {P : Chip → Prop} (h : EvKept P) (n b bit : Nat) (c : Chip) (hb : b % 0x1000 = 0) (hc : P c) :
    P (raiseN n b bit c) := by
  induction n generalizing b bit c with
  | zero => exact h.evt _ _ _ hb hc
  | succ n ih =>
    have h0 := h.evt c b bit hb hc
    unfold Machine.raiseN; simp only []; split
    · exact h.occur (fun b i c hb hc => ih b i c hb hc) _ _ _ h0
    · exact h0

theorem EvKept.raise {P : Chip → Prop} (h : EvKept P) (c : Chip) (b bit : Nat) (hb : b % 0x1000 = 0) (hc : P c) :
    P (c.raise b bit) := h.raiseN _ _ _ _ hb hc

/-- A register that `evKey` does not name is kept. -/
theorem evKept_rd (k : Nat) (v : Word) (hk : evKey k = false) : EvKept fun c => c.rd k = v where
  wr c j w hj _ hc := (Chip.rd_wr_ne _ _ _ _ fun e => by rw [e, hk] at hj; exact absurd hj (by simp)).trans hc
  evt c b i hb hc := (Chip.rd_setF_ne _ _ _ _ _ fun e => by rw [← e, evKey_evt b hb] at hk; exact absurd hk (by simp)).trans hc
  lap _ _ hc := (Chip.rd_lapRec _ _ _).trans hc
  txn _ _ hc := hc
  pend _ _ _ hc := hc
  send _ _ _ hc := hc

/-- Everything but the registers, the event router, the transactions and the Lap log is kept. -/
theorem evKept_beside (d : Chip) : EvKept fun c => d.Beside c where
  wr _ _ _ _ _ hc := hc.trans (Chip.wr_beside _ _ _)
  evt _ _ _ _ hc := hc.trans (Chip.wr_beside _ _ _)
  lap _ _ hc := hc.trans (Chip.lapRec_beside _ _)
  txn _ _ hc := hc.trans (Chip.txnArrival_beside _ _)
  pend _ _ _ hc := hc.trans (Chip.setPend_beside _ _ _)
  send _ _ _ hc := hc.trans (Chip.deliver_beside _ _ _)

/-- An event occurrence keeps every register that `evKey` does not name. -/
theorem Chip.rd_raise (c : Chip) (b bit k : Nat) (hb : b % 0x1000 = 0) (hk : evKey k = false) : (c.raise b bit).rd k = c.rd k :=
  (evKept_rd k _ hk).raise c b bit hb rfl

theorem Chip.raise_beside (c : Chip) (b bit : Nat) (hb : b % 0x1000 = 0) : c.Beside (c.raise b bit) :=
  (evKept_beside c).raise c b bit hb (.refl c)

theorem Chip.f_raise (c : Chip) (b bit k : Nat) (x : Fld) (hb : b % 0x1000 = 0) (hk : evKey k = false) :
    (c.raise b bit).f k x = c.f k x := by simp [Chip.f, Chip.rd_raise _ _ _ _ hb hk]

theorem Chip.is_raise (c : Chip) (b bit k : Nat) (x : Fld) (hb : b % 0x1000 = 0) (hk : evKey k = false) :
    (c.raise b bit).is k x = c.is k x := by simp [Chip.is, Chip.f_raise _ _ _ _ _ hb hk]

/-! An event occurrence and each part of the chip. -/

theorem Chip.raise_mode (c : Chip) (b i : Nat) (hb : b % 0x1000 = 0) : (c.raise b i).mode = c.mode := (Chip.raise_beside c b i hb).mode
theorem Chip.raise_crc (c : Chip) (b i : Nat) (hb : b % 0x1000 = 0) : (c.raise b i).crc = c.crc := (Chip.raise_beside c b i hb).crc
theorem Chip.raise_freeCtr (c : Chip) (b i : Nat) (hb : b % 0x1000 = 0) : (c.raise b i).freeCtr = c.freeCtr := (Chip.raise_beside c b i hb).freeCtr
theorem Chip.raise_safe (c : Chip) (b i : Nat) (hb : b % 0x1000 = 0) : (c.raise b i).safe = c.safe := (Chip.raise_beside c b i hb).safe
theorem Chip.raise_time (c : Chip) (b i : Nat) (hb : b % 0x1000 = 0) : (c.raise b i).time = c.time := (Chip.raise_beside c b i hb).time
theorem Chip.raise_meas (c : Chip) (b i : Nat) (hb : b % 0x1000 = 0) : (c.raise b i).meas = c.meas := (Chip.raise_beside c b i hb).meas
theorem Chip.raise_str (c : Chip) (b i : Nat) (hb : b % 0x1000 = 0) : (c.raise b i).str = c.str := (Chip.raise_beside c b i hb).str
theorem Chip.raise_bpt (c : Chip) (b i : Nat) (hb : b % 0x1000 = 0) : (c.raise b i).bpt = c.bpt := (Chip.raise_beside c b i hb).bpt
theorem Chip.raise_hrd (c : Chip) (b i : Nat) (hb : b % 0x1000 = 0) : (c.raise b i).hrd = c.hrd := (Chip.raise_beside c b i hb).hrd
theorem Chip.raise_isl (c : Chip) (b i : Nat) (hb : b % 0x1000 = 0) : (c.raise b i).isl = c.isl := (Chip.raise_beside c b i hb).isl
theorem Chip.raise_imp (c : Chip) (b i : Nat) (hb : b % 0x1000 = 0) : (c.raise b i).imp = c.imp := (Chip.raise_beside c b i hb).imp
theorem Chip.raise_pwm (c : Chip) (b i : Nat) (hb : b % 0x1000 = 0) : (c.raise b i).pwm = c.pwm := (Chip.raise_beside c b i hb).pwm
theorem Chip.raise_mtr (c : Chip) (b i : Nat) (hb : b % 0x1000 = 0) : (c.raise b i).mtr = c.mtr := (Chip.raise_beside c b i hb).mtr
theorem Chip.raise_lanes (c : Chip) (b i : Nat) (hb : b % 0x1000 = 0) : (c.raise b i).lanes = c.lanes := (Chip.raise_beside c b i hb).lanes
theorem Chip.raise_ethBusy (c : Chip) (b i : Nat) (hb : b % 0x1000 = 0) : (c.raise b i).ethBusy = c.ethBusy := (Chip.raise_beside c b i hb).ethBusy
theorem Chip.raise_out (c : Chip) (b i : Nat) (hb : b % 0x1000 = 0) : (c.raise b i).out = c.out := (Chip.raise_beside c b i hb).out
theorem Chip.raise_fab (c : Chip) (b i : Nat) (hb : b % 0x1000 = 0) : (c.raise b i).fab = c.fab := (Chip.raise_beside c b i hb).fab
theorem Chip.raise_shd (c : Chip) (b i : Nat) (hb : b % 0x1000 = 0) : (c.raise b i).shd = c.shd := (Chip.raise_beside c b i hb).shd
theorem Chip.raise_red (c : Chip) (b i : Nat) (hb : b % 0x1000 = 0) : (c.raise b i).red = c.red := (Chip.raise_beside c b i hb).red
theorem Chip.raise_pow (c : Chip) (b i : Nat) (hb : b % 0x1000 = 0) : (c.raise b i).pow = c.pow := (Chip.raise_beside c b i hb).pow
theorem Chip.raise_boot (c : Chip) (b i : Nat) (hb : b % 0x1000 = 0) : (c.raise b i).boot = c.boot := (Chip.raise_beside c b i hb).boot

end Sys2Proof.Machine
end

