-- ==== Sys2Proof/Laws/Frames.lean ====
section
/-!
SUPPORT. What each shared operation keeps, in the form in which the frames are composed: from the frame up to an operation follows the
frame behind it.
-/
namespace Sys2Proof.Machine
open Sys2Proof
set_option Elab.async false

namespace Chip.Kept
variable {ev : Bool} {ks : List Nat} {ps : List Part} {c d e : Chip}

theorem refl : Chip.Kept ev ks ps c c := ⟨fun _ _ _ => rfl, fun p _ _ _ => by cases p <;> rfl⟩

theorem trans (h : Chip.Kept ev ks ps c d) (g : Chip.Kept ev ks ps d e) : Chip.Kept ev ks ps c e :=
  ⟨fun k h1 h2 => (g.regs k h1 h2).trans (h.regs k h1 h2), fun p h1 h2 h3 => by
    have a := h.parts p h1 h2 h3
    have b := g.parts p h1 h2 h3
    cases p <;> exact Eq.trans b a⟩

/-- Frames grow. -/
theorem mono {js : List Nat} {qs : List Part} (h : Chip.Kept ev js qs c d) (hk : ∀ k ∈ js, k ∈ ks) (hp : ∀ p ∈ qs, p ∈ ps) :
    Chip.Kept ev ks ps c d :=
  ⟨fun k h1 h2 => h.regs k h1 fun m => h2 (hk _ m), fun p h1 h2 h3 => h.parts p h1
    (fun m => h2 (m.imp_right fun n e => by
      cases js with
      | nil => exact n rfl
      | cons a t => have := hk a (by simp); rw [e] at this; simp at this)) fun m => h3 (hp _ m)⟩

/-- A frame without events is one with them. -/
theorem toEv (h : Chip.Kept false ks ps c d) : Chip.Kept true ks ps c d :=
  ⟨fun k _ h2 => h.regs k (by simp) h2, fun p h1 h2 h3 => h.parts p (by simp) (fun _ => h2 (.inl rfl)) h3⟩

theorem wr (h : Chip.Kept ev ks ps c d) {k : Nat} {v : Word} (hk : k ∈ ks) : Chip.Kept ev ks ps c (d.wr k v) :=
  h.trans ⟨fun j _ h2 => Chip.rd_wr_ne _ _ _ _ fun e => h2 (e ▸ hk), fun p _ h2 _ => by
    have : ks ≠ [] := by rintro rfl; simp at hk
    cases p <;> first | rfl | exact absurd rfl (h2 (.inr this))⟩

/-- A register that event occurrences touch. -/
theorem wrEv (h : Chip.Kept true ks ps c d) {k : Nat} {v : Word} (hk : evKey k = true) : Chip.Kept true ks ps c (d.wr k v) :=
  h.trans ⟨fun j h1 _ => Chip.rd_wr_ne _ _ _ _ fun e => by have := h1 rfl; rw [← e, hk] at this; simp at this, fun p _ h2 _ => by
    cases p <;> first | rfl | exact absurd rfl (h2 (.inl rfl))⟩

theorem setF (h : Chip.Kept ev ks ps c d) {k n : Nat} {x : Fld} (hk : k ∈ ks) : Chip.Kept ev ks ps c (d.setF k x n) := h.wr hk
theorem setFEv (h : Chip.Kept true ks ps c d) {k n : Nat} {x : Fld} (hk : evKey k = true) :
    Chip.Kept true ks ps c (d.setF k x n) := h.wrEv hk
theorem flag (h : Chip.Kept ev ks ps c d) {k : Nat} {x : Fld} {b : Bool} (hk : k ∈ ks) : Chip.Kept ev ks ps c (d.flag k x b) := h.wr hk
theorem flagEv (h : Chip.Kept true ks ps c d) {k : Nat} {x : Fld} {b : Bool} (hk : evKey k = true) :
    Chip.Kept true ks ps c (d.flag k x b) := h.wrEv hk
theorem setBit (h : Chip.Kept ev ks ps c d) {k i : Nat} {b : Bool} (hk : k ∈ ks) : Chip.Kept ev ks ps c (d.setBit k i b) := h.wr hk
theorem orBits (h : Chip.Kept ev ks ps c d) {k m : Nat} (hk : k ∈ ks) : Chip.Kept ev ks ps c (d.orBits k m) := h.wr hk
theorem wrN (h : Chip.Kept ev ks ps c d) {k n : Nat} (hk : k ∈ ks) : Chip.Kept ev ks ps c (d.wrN k n) := h.wr hk
theorem wr64 (h : Chip.Kept ev ks ps c d) {k n : Nat} (hk : k ∈ ks) (hk4 : k + 4 ∈ ks) : Chip.Kept ev ks ps c (d.wr64 k n) :=
  (h.wr hk).wr hk4
theorem incSat (h : Chip.Kept ev ks ps c d) {k n : Nat} {x : Fld} (hk : k ∈ ks) : Chip.Kept ev ks ps c (d.incSat k x n) := h.wr hk
theorem incWrap (h : Chip.Kept ev ks ps c d) {k : Nat} {x : Fld} (hk : k ∈ ks) : Chip.Kept ev ks ps c (d.incWrap k x) := h.wr hk
theorem countSat (h : Chip.Kept ev ks ps c d) {k n : Nat} (hk : k ∈ ks) : Chip.Kept ev ks ps c (d.countSat k n) := h.wr hk
theorem countWrap (h : Chip.Kept ev ks ps c d) {k n : Nat} (hk : k ∈ ks) : Chip.Kept ev ks ps c (d.countWrap k n) := h.wr hk

/-- A part that the frame names takes any value. -/
theorem part (h : Chip.Kept ev ks ps c d) (p : Part) (hp : p ∈ ps) (hr : e.regs = d.regs) (hs : e.crcBusy = d.crcBusy)
    (ho : ∀ q : Part, q ≠ p → q ≠ .stale → q.same d e) : Chip.Kept ev ks ps c e :=
  h.trans ⟨fun k _ _ => by simp [Chip.rd, hr], fun q _ _ h3 => by
    by_cases hq : q = .stale
    · subst hq; exact hs
    · exact ho q (fun x => h3 (x ▸ hp)) hq⟩

/-! A change of one part's state. -/

theorem updBoot (h : Chip.Kept ev ks ps c d) {g : BootSt → BootSt} (hp : .boot ∈ ps) : Chip.Kept ev ks ps c (d.updBoot g) :=
  h.part .boot hp rfl rfl fun q _ _ => by cases q <;> first | rfl | contradiction
theorem updTime (h : Chip.Kept ev ks ps c d) {g : TimeSt → TimeSt} (hp : .time ∈ ps) : Chip.Kept ev ks ps c (d.updTime g) :=
  h.part .time hp rfl rfl fun q _ _ => by cases q <;> first | rfl | contradiction
theorem updFab (h : Chip.Kept ev ks ps c d) {g : FabSt → FabSt} (hp : .fab ∈ ps) : Chip.Kept ev ks ps c (d.updFab g) :=
  h.part .fab hp rfl rfl fun q _ _ => by cases q <;> first | rfl | contradiction
theorem updHrd (h : Chip.Kept ev ks ps c d) {g : HrdSt → HrdSt} (hp : .hrd ∈ ps) : Chip.Kept ev ks ps c (d.updHrd g) :=
  h.part .hrd hp rfl rfl fun q _ _ => by cases q <;> first | rfl | contradiction
theorem updIsl (h : Chip.Kept ev ks ps c d) {g : IslSt → IslSt} (hp : .isl ∈ ps) : Chip.Kept ev ks ps c (d.updIsl g) :=
  h.part .isl hp rfl rfl fun q _ _ => by cases q <;> first | rfl | contradiction
theorem updImp (h : Chip.Kept ev ks ps c d) {g : ImpSt → ImpSt} (hp : .imp ∈ ps) : Chip.Kept ev ks ps c (d.updImp g) :=
  h.part .imp hp rfl rfl fun q _ _ => by cases q <;> first | rfl | contradiction
theorem updRed (h : Chip.Kept ev ks ps c d) {g : RedSt → RedSt} (hp : .red ∈ ps) : Chip.Kept ev ks ps c (d.updRed g) :=
  h.part .red hp rfl rfl fun q _ _ => by cases q <;> first | rfl | contradiction
theorem updMeas (h : Chip.Kept ev ks ps c d) {g : MeasSt → MeasSt} (hp : .meas ∈ ps) : Chip.Kept ev ks ps c (d.updMeas g) :=
  h.part .meas hp rfl rfl fun q _ _ => by cases q <;> first | rfl | contradiction
theorem updMtr (h : Chip.Kept ev ks ps c d) {g : MtrSt → MtrSt} (hp : .mtr ∈ ps) : Chip.Kept ev ks ps c (d.updMtr g) :=
  h.part .mtr hp rfl rfl fun q _ _ => by cases q <;> first | rfl | contradiction
theorem updPow (h : Chip.Kept ev ks ps c d) {g : PowSt → PowSt} (hp : .pow ∈ ps) : Chip.Kept ev ks ps c (d.updPow g) :=
  h.part .pow hp rfl rfl fun q _ _ => by cases q <;> first | rfl | contradiction
theorem updShd (h : Chip.Kept ev ks ps c d) {g : ShdSt → ShdSt} (hp : .shd ∈ ps) : Chip.Kept ev ks ps c (d.updShd g) :=
  h.part .shd hp rfl rfl fun q _ _ => by cases q <;> first | rfl | contradiction
theorem updStr (h : Chip.Kept ev ks ps c d) {g : StrSt → StrSt} (hp : .str ∈ ps) : Chip.Kept ev ks ps c (d.updStr g) :=
  h.part .str hp rfl rfl fun q _ _ => by cases q <;> first | rfl | contradiction
theorem updBus (h : Chip.Kept ev ks ps c d) {g : BusSt → BusSt} (hp : .bus ∈ ps) : Chip.Kept ev ks ps c (d.updBus g) :=
  h.part .bus hp rfl rfl fun q _ _ => by cases q <;> first | rfl | contradiction
theorem updLane (h : Chip.Kept ev ks ps c d) {n : Nat} {g : LaneSt → LaneSt} (hp : .lanes ∈ ps) : Chip.Kept ev ks ps c (d.updLane n g) :=
  h.part .lanes hp rfl rfl fun q _ _ => by cases q <;> first | rfl | contradiction
theorem updTb (h : Chip.Kept ev ks ps c d) {n : Nat} {g : PwmTb → PwmTb} (hp : .pwm ∈ ps) : Chip.Kept ev ks ps c (d.updTb n g) :=
  h.part .pwm hp rfl rfl fun q _ _ => by cases q <;> first | rfl | contradiction
theorem updCh (h : Chip.Kept ev ks ps c d) {n : Nat} {g : PwmCh → PwmCh} (hp : .pwm ∈ ps) : Chip.Kept ev ks ps c (d.updCh n g) :=
  h.part .pwm hp rfl rfl fun q _ _ => by cases q <;> first | rfl | contradiction
theorem updTrp (h : Chip.Kept ev ks ps c d) {n : Nat} {g : TripSrc → TripSrc} (hp : .pwm ∈ ps) : Chip.Kept ev ks ps c (d.updTrp n g) :=
  h.part .pwm hp rfl rfl fun q _ _ => by cases q <;> first | rfl | contradiction
theorem updGdi (h : Chip.Kept ev ks ps c d) {n : Nat} {g : GdiCh → GdiCh} (hp : .pwm ∈ ps) : Chip.Kept ev ks ps c (d.updGdi n g) :=
  h.part .pwm hp rfl rfl fun q _ _ => by cases q <;> first | rfl | contradiction
theorem updAcmp (h : Chip.Kept ev ks ps c d) {n : Nat} {g : AcmpCh → AcmpCh} (hp : .meas ∈ ps) : Chip.Kept ev ks ps c (d.updAcmp n g) :=
  h.part .meas hp rfl rfl fun q _ _ => by cases q <;> first | rfl | contradiction
theorem updBpt (h : Chip.Kept ev ks ps c d) {n : Nat} {g : BptCh → BptCh} (hp : .bpt ∈ ps) : Chip.Kept ev ks ps c (d.updBpt n g) :=
  h.part .bpt hp rfl rfl fun q _ _ => by cases q <;> first | rfl | contradiction
theorem updTwin (h : Chip.Kept ev ks ps c d) {n : Bool} {g : TwinSt → TwinSt} (hp : .red ∈ ps) : Chip.Kept ev ks ps c (d.updTwin n g) :=
  h.part .red hp rfl rfl fun q _ _ => by cases q <;> first | rfl | contradiction
theorem updAfe (h : Chip.Kept ev ks ps c d) {n : Nat} {g : AfeCh → AfeCh} (hp : .meas ∈ ps) : Chip.Kept ev ks ps c (d.updAfe n g) :=
  h.part .meas hp rfl rfl fun q _ _ => by cases q <;> first | rfl | contradiction
theorem updXmd (h : Chip.Kept ev ks ps c d) {n : Nat} {g : XmdCh → XmdCh} (hp : .meas ∈ ps) : Chip.Kept ev ks ps c (d.updXmd n g) :=
  h.part .meas hp rfl rfl fun q _ _ => by cases q <;> first | rfl | contradiction
theorem updPort (h : Chip.Kept ev ks ps c d) {n : Nat} {g : MtrPort → MtrPort} (hp : .mtr ∈ ps) : Chip.Kept ev ks ps c (d.updPort n g) :=
  h.part .mtr hp rfl rfl fun q _ _ => by cases q <;> first | rfl | contradiction
theorem updPq (h : Chip.Kept ev ks ps c d) {n : Nat} {g : PqPort → PqPort} (hp : .mtr ∈ ps) : Chip.Kept ev ks ps c (d.updPq n g) :=
  h.part .mtr hp rfl rfl fun q _ _ => by cases q <;> first | rfl | contradiction
theorem updSout (h : Chip.Kept ev ks ps c d) {n : Nat} {g : SoutCh → SoutCh} (hp : .safe ∈ ps) : Chip.Kept ev ks ps c (d.updSout n g) :=
  h.part .safe hp rfl rfl fun q _ _ => by cases q <;> first | rfl | contradiction
theorem updPair (h : Chip.Kept ev ks ps c d) {n : Nat} {g : PairSt → PairSt} (hp : .shd ∈ ps) : Chip.Kept ev ks ps c (d.updPair n g) :=
  h.part .shd hp rfl rfl fun q _ _ => by cases q <;> first | rfl | contradiction
theorem updRx (h : Chip.Kept ev ks ps c d) {n : Nat} {g : RxConn → RxConn} (hp : .shd ∈ ps) : Chip.Kept ev ks ps c (d.updRx n g) :=
  h.part .shd hp rfl rfl fun q _ _ => by cases q <;> first | rfl | contradiction
theorem updGrp (h : Chip.Kept ev ks ps c d) {n : Nat} {g : StrGrp → StrGrp} (hp : .str ∈ ps) : Chip.Kept ev ks ps c (d.updGrp n g) :=
  h.part .str hp rfl rfl fun q _ _ => by cases q <;> first | rfl | contradiction
theorem updCtx (h : Chip.Kept ev ks ps c d) {n : Nat} {g : Ctx → Ctx} (hp : .bus ∈ ps) : Chip.Kept ev ks ps c (d.updCtx n g) := by
  unfold Chip.updCtx; split <;> [exact h; exact h.updBus hp]

/-- A Lap record, in a frame that names the Lap log. -/
theorem lapRecIn (h : Chip.Kept ev ks ps c d) {r : LapRec} (hp : .lap ∈ ps) : Chip.Kept ev ks ps c (d.lapRec r) := by
  unfold Chip.lapRec; split
  · simp only []; split <;> exact h.part .lap hp rfl rfl fun q _ _ => by cases q <;> first | rfl | contradiction
  · exact h

theorem lapLevelsIn (h : Chip.Kept ev ks ps c d) (hp : .lap ∈ ps) : Chip.Kept ev ks ps c d.lapLevels := by
  unfold Chip.lapLevels Chip.lapLong
  generalize d.levels = v
  split
  · refine Chip.Kept.lapRecIn ?_ hp
    exact h.part .lap hp rfl rfl fun q _ _ => by cases q <;> first | rfl | contradiction
  · exact h

theorem lapHtmIn (h : Chip.Kept ev ks ps c d) (hp : .lap ∈ ps) : Chip.Kept ev ks ps c d.lapHtm := h.lapRecIn hp

/-- Open values taken, in a frame that names their counter. -/
theorem freeW (h : Chip.Kept ev ks ps c d) (hp : .free ∈ ps) : Chip.Kept ev ks ps c d.freeW.2 :=
  h.part .free hp rfl rfl fun q _ _ => by cases q <;> first | rfl | contradiction
theorem freeN (h : Chip.Kept ev ks ps c d) {n : Nat} (hp : .free ∈ ps) : Chip.Kept ev ks ps c (d.freeN n).2 :=
  h.part .free hp rfl rfl fun q _ _ => by cases q <;> first | rfl | contradiction
theorem freeB (h : Chip.Kept ev ks ps c d) (hp : .free ∈ ps) : Chip.Kept ev ks ps c d.freeB.2 :=
  h.part .free hp rfl rfl fun q _ _ => by cases q <;> first | rfl | contradiction

/-- A packet waiting to be sent. -/
theorem emit (h : Chip.Kept ev ks ps c d) {p : Packet} {n : Nat} {l : Option Nat} (hp : .out ∈ ps) :
    Chip.Kept ev ks ps c (d.emit p n l) :=
  h.part .out hp rfl rfl fun q _ _ => by cases q <;> first | rfl | contradiction
theorem send (h : Chip.Kept ev ks ps c d) {kind vc cast dest tag : Nat} {ses : Option Nat} {ws : List Nat} (hp : .out ∈ ps) :
    Chip.Kept ev ks ps c (d.send kind vc cast dest ses tag ws) := h.emit hp

/-- An error recorded in PG_ERR. -/
theorem perr (h : Chip.Kept ev ks ps c d) {k i : Nat} {e : PErr} (hk : pageBase k + H.ERR ∈ ks) :
    Chip.Kept ev ks ps c (d.perr k e i) := ((h.wr hk).wr hk).wr hk
theorem refuse (h : Chip.Kept ev ks ps c d) {k i : Nat} (hk : pageBase k + H.ERR ∈ ks) : Chip.Kept ev ks ps c (d.refuse k i) := h.perr hk

/-- A repetition whose every turn keeps the frame. -/
theorem forN (h : Chip.Kept ev ks ps c d) {n : Nat} {g : Nat → Chip → Chip}
    (hg : ∀ i e, Chip.Kept ev ks ps c e → Chip.Kept ev ks ps c (g i e)) : Chip.Kept ev ks ps c (Machine.forN n g d) :=
  forN_inv _ n g d h hg

/-- The Lap log's own state, in a frame that allows event occurrences. -/
theorem inLap (h : Chip.Kept true ks ps c d) (hr : e.regs = d.regs) (hs : e.crcBusy = d.crcBusy)
    (ho : ∀ q : Part, q ≠ .lap → q ≠ .stale → q.same d e) : Chip.Kept true ks ps c e :=
  h.trans ⟨fun k _ _ => by simp [Chip.rd, hr], fun q h1 _ _ => by
    by_cases hq : q = .stale
    · subst hq; exact hs
    · exact ho q (h1 rfl).2 hq⟩

/-- An event occurrence, in a frame that allows them. -/
theorem raise (h : Chip.Kept true ks ps c d) {b i : Nat} (hb : b % 0x1000 = 0) : Chip.Kept true ks ps c (d.raise b i) :=
  h.trans ⟨fun k h1 _ => Chip.rd_raise _ _ _ _ hb (h1 rfl), fun p h1 h2 _ => by
    have := Chip.raise_beside d b i hb
    cases p <;> first
      | exact absurd rfl (h1 rfl).1 | exact absurd rfl (h1 rfl).2 | exact absurd rfl (h2 (.inl rfl)) | (cases this; assumption)⟩

/-- A Lap record, in a frame that allows it. -/
theorem lapRec (h : Chip.Kept true ks ps c d) {r : LapRec} : Chip.Kept true ks ps c (d.lapRec r) :=
  h.trans ⟨fun k _ _ => Chip.rd_lapRec _ _ _, fun p h1 h2 _ => by
    have := Chip.lapRec_beside d r
    cases p <;> first
      | exact absurd rfl (h1 rfl).1 | exact absurd rfl (h1 rfl).2 | exact absurd rfl (h2 (.inl rfl)) | (cases this; assumption)⟩
theorem lapLevels (h : Chip.Kept true ks ps c d) : Chip.Kept true ks ps c d.lapLevels := by
  unfold Chip.lapLevels Chip.lapLong
  generalize d.levels = v
  split
  · refine Chip.Kept.lapRec ?_
    refine h.inLap rfl rfl fun q _ _ => ?_
    cases q <;> first | rfl | contradiction
  · exact h
theorem lapHtm (h : Chip.Kept true ks ps c d) : Chip.Kept true ks ps c d.lapHtm := h.lapRec
theorem raiseIf (h : Chip.Kept true ks ps c d) {p : Bool} {b i : Nat} (hb : b % 0x1000 = 0) : Chip.Kept true ks ps c (d.raiseIf p b i) := by
  unfold Chip.raiseIf; split
  · exact h.raise hb
  · exact h

end Chip.Kept
end Sys2Proof.Machine
end

