-- ==== Sys2Proof/Laws/Memory.lean ====
section
/-!
SUPPORT. The memories: every operation over them keeps their canonical form, and a store changes only the bytes that it stores.
-/
namespace Sys2Proof.Machine
open Sys2Proof
set_option Elab.async false

theorem Mem.wf_iff (m : Mem) : m.wf = true ↔
    (SMap.wf unwritten m.sram = true ∧ SMap.wf unwritten m.dram = true ∧ SMap.wf unwritten m.fram = true)
      ∧ SMap.wf erased m.flashA = true ∧ SMap.wf erased m.flashB = true ∧ SMap.wf unblown m.otp = true := by
  simp only [Mem.wf, Bool.and_eq_true]
  constructor
  · rintro ⟨⟨⟨⟨⟨a, b⟩, c⟩, d⟩, e⟩, f⟩
    exact ⟨⟨a, b, c⟩, d, e, f⟩
  · rintro ⟨⟨a, b, c⟩, d, e, f⟩
    exact ⟨⟨⟨⟨⟨a, b⟩, c⟩, d⟩, e⟩, f⟩

/-! ### One memory replaced -/

theorem Mem.wf_sram {m : Mem} (h : m.wf = true) (x : SMap Byte) (hx : SMap.wf unwritten x = true) :
    ({ m with sram := x } : Mem).wf = true := by
  rw [Mem.wf_iff] at *
  exact ⟨⟨hx, h.1.2⟩, h.2⟩

theorem Mem.wf_dram {m : Mem} (h : m.wf = true) (x : SMap Byte) (hx : SMap.wf unwritten x = true) :
    ({ m with dram := x } : Mem).wf = true := by
  rw [Mem.wf_iff] at *
  exact ⟨⟨h.1.1, hx, h.1.2.2⟩, h.2⟩

theorem Mem.wf_fram {m : Mem} (h : m.wf = true) (x : SMap Byte) (hx : SMap.wf unwritten x = true) :
    ({ m with fram := x } : Mem).wf = true := by
  rw [Mem.wf_iff] at *
  exact ⟨⟨h.1.1, h.1.2.1, hx⟩, h.2⟩

theorem Mem.wf_flashA {m : Mem} (h : m.wf = true) (x : SMap Byte) (hx : SMap.wf erased x = true) :
    ({ m with flashA := x } : Mem).wf = true := by
  rw [Mem.wf_iff] at *
  exact ⟨h.1, hx, h.2.2⟩

theorem Mem.wf_flashB {m : Mem} (h : m.wf = true) (x : SMap Byte) (hx : SMap.wf erased x = true) :
    ({ m with flashB := x } : Mem).wf = true := by
  rw [Mem.wf_iff] at *
  exact ⟨h.1, h.2.1, hx, h.2.2.2⟩

theorem Mem.wf_otp {m : Mem} (h : m.wf = true) (x : SMap Byte) (hx : SMap.wf unblown x = true) :
    ({ m with otp := x } : Mem).wf = true := by
  rw [Mem.wf_iff] at *
  exact ⟨h.1, h.2.1, h.2.2.1, hx⟩

/-! ### Stores -/

theorem Mem.wf_sramPut (l : List Byte) (m : Mem) (a : Nat) (h : m.wf = true) : (m.sramPut a l).wf = true := by
  induction l generalizing m a with
  | nil => exact h
  | cons b t ih => exact ih _ _ (Mem.wf_sram h _ (SMap.wf_put _ _ _ _ ((Mem.wf_iff m).1 h).1.1))

theorem Mem.wf_sramPutW (m : Mem) (a : Nat) (w : Word) (h : m.wf = true) : (m.sramPutW a w).wf = true := Mem.wf_sramPut _ m a h

theorem Mem.wf_dramPut (l : List Byte) (m : Mem) (a : Nat) (h : m.wf = true) : (m.dramPut a l).wf = true := by
  induction l generalizing m a with
  | nil => exact h
  | cons b t ih => exact ih _ _ (Mem.wf_dram h _ (SMap.wf_put _ _ _ _ ((Mem.wf_iff m).1 h).1.2.1))

theorem Mem.wf_ringPut (l : List Byte) (m : Mem) (o : Nat) (h : m.wf = true) : (m.ringPut o l).wf = true := by
  induction l generalizing m o with
  | nil => exact h
  | cons b t ih => exact ih _ _ (Mem.wf_dram h _ (SMap.wf_put _ _ _ _ ((Mem.wf_iff m).1 h).1.2.1))

theorem wf_foldl_put (d : Nat → Byte) (l : List (Nat × Byte)) (x : SMap Byte) (h : SMap.wf d x = true) :
    SMap.wf d (l.foldl (fun f e => f.put d e.1 e.2) x) = true := by
  induction l generalizing x with
  | nil => exact h
  | cons e t ih => exact ih _ (SMap.wf_put d x e.1 e.2 h)

theorem Mem.wf_framPut (m : Mem) (l : List (Nat × Byte)) (h : m.wf = true) : (m.framPut l).wf = true :=
  Mem.wf_fram h _ (wf_foldl_put _ l _ ((Mem.wf_iff m).1 h).1.2.2)

theorem wf_forN {α : Type} (p : α → Prop) (n : Nat) (g : Nat → α → α) (a : α) (h : p a) (hg : ∀ i x, p x → p (g i x)) :
    p (forN n g a) := by
  unfold forN
  generalize List.range n = l
  induction l generalizing a with
  | nil => exact h
  | cons i t ih => exact ih _ (hg i a h)

theorem Mem.wf_storeMasked (m : Mem) (sp : MemSpace) (a data mask : Nat) (h : m.wf = true) :
    (m.storeMasked sp a data mask).wf = true := by
  refine wf_forN (fun m : Mem => m.wf = true) 8 _ m h fun i x hx => ?_
  dsimp only
  split
  · exact hx
  · cases sp
    · exact hx
    · exact Mem.wf_sramPut _ _ _ hx
    · exact Mem.wf_dramPut _ _ _ hx

theorem putBytes_wf (d : Nat → Byte) (n : Nat) (x : SMap Byte) (a v : Nat) (h : SMap.wf d x = true) :
    SMap.wf d (putBytes d x a v n) = true := by
  induction n generalizing x a v with
  | zero => exact h
  | succ n ih => exact ih _ _ _ (SMap.wf_put d x a _ h)

theorem Mem.wf_clear {m : Mem} (h : m.wf = true) : ({ m with sram := [], dram := [] } : Mem).wf = true :=
  Mem.wf_dram (Mem.wf_sram h [] rfl) [] rfl

/-! ### What a store leaves alone -/

theorem Mem.sramPut_get (l : List Byte) (m : Mem) (a b : Nat) (h : ∀ i < l.length, b ≠ (a + i) % sramSize) :
    SMap.get unwritten (m.sramPut a l).sram b = SMap.get unwritten m.sram b := by
  induction l generalizing m a with
  | nil => rfl
  | cons x t ih =>
    have h0 := h 0 (by simp)
    rw [Mem.sramPut, ih _ _ fun i hi => by have := h (i + 1) (by simpa using hi); rwa [show a + 1 + i = a + (i + 1) by omega]]
    simp only [SMap.get_put, Nat.add_zero] at *
    exact if_neg fun e => h0 e.symm

theorem Mem.dramPut_get (l : List Byte) (m : Mem) (a b : Nat) (h : ∀ i < l.length, b ≠ (a + i) % dramSize) :
    SMap.get unwritten (m.dramPut a l).dram b = SMap.get unwritten m.dram b := by
  induction l generalizing m a with
  | nil => rfl
  | cons x t ih =>
    have h0 := h 0 (by simp)
    rw [Mem.dramPut, ih _ _ fun i hi => by have := h (i + 1) (by simpa using hi); rwa [show a + 1 + i = a + (i + 1) by omega]]
    simp only [SMap.get_put, Nat.add_zero] at *
    exact if_neg fun e => h0 e.symm

theorem Mem.ringPut_get (l : List Byte) (m : Mem) (o b : Nat) (h : ∀ i < l.length, b ≠ ringAt (o + i)) :
    SMap.get unwritten (m.ringPut o l).dram b = SMap.get unwritten m.dram b := by
  induction l generalizing m o with
  | nil => rfl
  | cons x t ih =>
    have h0 := h 0 (by simp)
    rw [Mem.ringPut, ih _ _ fun i hi => by have := h (i + 1) (by simpa using hi); rwa [show o + 1 + i = o + (i + 1) by omega]]
    simp only [SMap.get_put, Nat.add_zero] at *
    exact if_neg fun e => h0 e.symm

theorem get_foldl_put (d : Nat → Byte) (l : List (Nat × Byte)) (x : SMap Byte) (b : Nat) (h : b ∉ l.map (·.1)) :
    SMap.get d (l.foldl (fun f e => f.put d e.1 e.2) x) b = SMap.get d x b := by
  induction l generalizing x with
  | nil => rfl
  | cons e t ih =>
    simp only [List.map_cons, List.mem_cons, not_or] at h
    rw [List.foldl_cons, ih _ h.2, SMap.get_put, if_neg fun q => h.1 q.symm]

theorem Mem.framPut_get (m : Mem) (l : List (Nat × Byte)) (b : Nat) (h : b ∉ l.map (·.1)) :
    SMap.get unwritten (m.framPut l).fram b = SMap.get unwritten m.fram b := get_foldl_put _ l _ b h

@[simp] theorem Mem.sramPut_dram (l : List Byte) (m : Mem) (a : Nat) : (m.sramPut a l).dram = m.dram := by
  induction l generalizing m a with
  | nil => rfl
  | cons _ _ ih => exact ih _ _

@[simp] theorem Mem.sramPut_fram (l : List Byte) (m : Mem) (a : Nat) : (m.sramPut a l).fram = m.fram := by
  induction l generalizing m a with
  | nil => rfl
  | cons _ _ ih => exact ih _ _

@[simp] theorem Mem.sramPut_otp (l : List Byte) (m : Mem) (a : Nat) : (m.sramPut a l).otp = m.otp := by
  induction l generalizing m a with
  | nil => rfl
  | cons _ _ ih => exact ih _ _

@[simp] theorem Mem.dramPut_sram (l : List Byte) (m : Mem) (a : Nat) : (m.dramPut a l).sram = m.sram := by
  induction l generalizing m a with
  | nil => rfl
  | cons _ _ ih => exact ih _ _

@[simp] theorem Mem.dramPut_fram (l : List Byte) (m : Mem) (a : Nat) : (m.dramPut a l).fram = m.fram := by
  induction l generalizing m a with
  | nil => rfl
  | cons _ _ ih => exact ih _ _

@[simp] theorem Mem.dramPut_otp (l : List Byte) (m : Mem) (a : Nat) : (m.dramPut a l).otp = m.otp := by
  induction l generalizing m a with
  | nil => rfl
  | cons _ _ ih => exact ih _ _

@[simp] theorem Mem.ringPut_sram (l : List Byte) (m : Mem) (o : Nat) : (m.ringPut o l).sram = m.sram := by
  induction l generalizing m o with
  | nil => rfl
  | cons _ _ ih => exact ih _ _

@[simp] theorem Mem.ringPut_fram (l : List Byte) (m : Mem) (o : Nat) : (m.ringPut o l).fram = m.fram := by
  induction l generalizing m o with
  | nil => rfl
  | cons _ _ ih => exact ih _ _

@[simp] theorem Mem.ringPut_otp (l : List Byte) (m : Mem) (o : Nat) : (m.ringPut o l).otp = m.otp := by
  induction l generalizing m o with
  | nil => rfl
  | cons _ _ ih => exact ih _ _

end Sys2Proof.Machine
end

