-- ==== Sys2Proof/WellFormed.lean ====
section
/-!
DEFINITION. The commands whose list operands the outside can present: the packets, frames and sample lists that the spec's own sizes allow.
-/
namespace Sys2Proof

/-- A packet as R454 allows it: whole units of 32 bytes, at most 8 of them, and padding within the last one. -/
def Packet.wf (p : Packet) : Bool :=
  decide (p.words.length % 8 = 0) && decide (p.words.length ≤ 64) && decide (p.pad.toNat < 32)
    && (decide (p.pad = 0#6) || !p.words.isEmpty)

/-- A well-formed command. Operands that are no lists take every value of their type. -/
def Instr.wf (i : Instr) : Bool :=
  match i with
  -- a QSPI write carries at least one word (R636)
  | .qspiWrite _ ws => !ws.isEmpty
  -- 1,250 results in one second of current-only accounting (R403)
  | .coSecond codes => decide (codes.length = 1250)
  -- bytes 96 to 105 and 112 to 113 of the module (R441)
  | .modulePoll _ bytes => decide (bytes.length = 12)
  -- at most the 16 bytes that SURV.RXBUF holds (R609)
  | .svpDataRx data => decide (data.length ≤ 16)
  | .prepareRx p | .voteRx p | .commitAtRx p | .abortRx p | .resolveRx p | .timeSyncRx _ p | .probeReqRx p | .probeGrantRx p
  | .probeEndRx p | .gateCmdRx p | .packetRx _ _ p _ | .announceRx _ p | .idReqRx _ p | .idGrantRx p | .topoReportRx _ p
  | .delayReqRx _ p | .delayRespRx _ p | .pubRx p | .regReqRx p | .regRespRx p | .undelivRx p | .devResetRx p | .evtNotifyRx p
  | .dataRx p | .fwReqRx p | .fwRespRx p | .sesHelloRx p | .sesReplyRx p | .sesFinishRx p | .safeCopyRx _ p => p.wf
  | _ => true

end Sys2Proof
end

