-- ==== Sys2Proof/Tests/Slice0.lean ====
section
/-!
SUPPORT. Tests: ill-formed commands that WellFormed refuses, small runs whose results the spec's own numbers give, and for every statement
with hypotheses states and operands that meet them.
-/
namespace Sys2Proof.Machine
open Sys2Proof
set_option Elab.async false

/-- A twin as writer. -/
def host : Writer := ⟨.twinA, 0⟩

/-- The reset state once the working clocks run, with its chip changed by `g`. -/
def at0 (g : Chip → Chip) : State := State.reset.onChip fun c => g (c.updTime fun t => { t with gated := false })

/-- A plain packet of `kind` from `src`. -/
def pkt (kind : BitVec 8) (src : BitVec 15) (ws : List (BitVec 32)) : Packet :=
  { vc := 1, dn := false, cast := 0, enc := false, hops := 0, dest := 0, kind := kind, ses := 0, src := src, hopLimit := 0,
    pad := 0, tag := 0, age := 0, words := ws }

/-- Whether the outcome is a next state with `p`. -/
def chk (o : Host.Outcome State Fault Refusal) (p : State → Bool) : Bool := match o with | .next t => p t | _ => false

/-! ### Ill-formed commands -/

theorem test_wf_qspi : (Instr.qspiWrite 0 []).wf = false := by decide
theorem test_wf_coSecond : (Instr.coSecond [0, 0, 0]).wf = false := by decide
theorem test_wf_modulePoll : (Instr.modulePoll 0 [1, 2, 3]).wf = false := by decide
theorem test_wf_svpData : (Instr.svpDataRx (List.replicate 17 0)).wf = false := by decide
theorem test_wf_packet_units : (Instr.dataRx (pkt 0x10 5 [0])).wf = false := by decide
theorem test_wf_packet_long : (Instr.dataRx (pkt 0x10 5 (List.replicate 72 0))).wf = false := by decide
theorem test_wf_packet_pad : (Instr.dataRx { pkt 0x10 5 (List.replicate 8 0) with pad := 32 }).wf = false := by decide
theorem test_wf_packet_pad_empty : (Instr.dataRx { pkt 0x10 5 [] with pad := 4 }).wf = false := by decide
theorem test_wf_packet : (Instr.dataRx (pkt 0x10 5 (List.replicate 64 0))).wf = true := by decide

/-- States and operands that meet the hypotheses of IdleStepIsOneClockEdge. -/
theorem witness_IdleStepIsOneClockEdge :
      (let s : State := State.reset
       s.pending = []) := by decide +kernel

/-- States and operands that meet the hypotheses of EveryCommandCompletes. -/
theorem witness_EveryCommandCompletes :
      (let s : State := State.reset
       s.pending.tail = []) := by decide +kernel

/-- States and operands that meet the hypotheses of MemoriesStayCanonical. -/
theorem witness_MemoriesStayCanonical :
      (let s : State := State.reset
       s.mem.wf = true) := by decide +kernel

/-- States and operands that meet the hypotheses of FusesNeverClear. -/
theorem witness_FusesNeverClear :
      (let s : State := { State.reset with mem := { State.reset.mem with otp := [(5, 0x10)] } }
       nbit (SMap.get unblown s.mem.otp 5).toNat 4 = true) := by decide +kernel

/-- States and operands that meet the hypotheses of RefusedCommandWrites. -/
theorem witness_RefusedCommandWrites :
      (let i : Instr := .tripClear host 0xA5C2 1
       let w : Writer := host
       let key : BitVec 16 := 0xA5C2
       let k : Nat := R.TRIP_CMD
       let s : State := at0 id
       commandWrite i = some (w, key, k) ∧ May w k s ∧ key ≠ theKey)
    ∧ (let i : Instr := .tripClear ⟨.host, 0⟩ theKey 1
       let w : Writer := ⟨.host, 0⟩
       let key : BitVec 16 := theKey
       let k : Nat := R.TRIP_CMD
       let e : PErr := .security
       let s : State := at0 fun c => c.flag R.HPT_CTL F.HPT_CTL_WR_EN false
       commandWrite i = some (w, key, k) ∧ s.chip.powered = true ∧ s.chip.time.gated = false ∧ s.chip.barred k w.ini.code = some e)
    ∧ (let i : Instr := .tripClear host theKey 1
       let w : Writer := host
       let key : BitVec 16 := theKey
       let k : Nat := R.TRIP_CMD
       let s : State := at0 fun c => { c with mode := .survival }
       commandWrite i = some (w, key, k) ∧ s.chip.clockOn = false)
    ∧ (let i : Nat := 7
       i < 16) := by decide +kernel

/-- States and operands that meet the hypotheses of FirstCauseHoldsGatesOff. -/
theorem witness_FirstCauseHoldsGatesOff :
      (let c : Chip := ({ State.reset.chip with mode := .run } : Chip).flag (R.GDI_STAT 15) F.GDI_STAT_GH true
       let code : Nat := 3
       let cls : Nat := 6
       let n : Nat := 15
       c.powered = true ∧ c.is R.SHD_STAT F.SHD_STAT_LATCH = false ∧ 1 ≤ code ∧ code ≤ 0x12 ∧ cls < 16 ∧ n < 16) := by decide +kernel

/-- States and operands that meet the hypotheses of RootClockCommands (part 1). -/
theorem witness_RootClockCommands_1 :
      (let w : Writer := host
       let slot : Fin 8 := 7
       let s : State := at0 id
       (May w R.CLK_HOP_CMD s) ∧ (s.chip.f (R.CLK_SLOT slot) F.CLK_SLOT_SRC < 4) ∧ (¬ (s.chip.is R.CLK_STAT F.CLK_STAT_LOCK = true ∧ s.chip.f
          R.CLK_STAT F.CLK_STAT_ACTIVE = slot ∧ s.chip.time.hop = none)))
    ∧ (let n : Nat := 0
       let s : State := State.reset
       (s.chip.powered = true) ∧ (n < 8) ∧ ((s.chip.time.hop = none ∧ s.chip.is R.CLK_STAT F.CLK_STAT_LOCK = false ∧ n = s.chip.f R.CLK_STAT
          F.CLK_STAT_ACTIVE) ∨ s.chip.time.hop.map Hop.slot = some n))
    ∧ (let h : Hop := ⟨1, false, 0, 0⟩
       let s : State := at0 fun c => (c.updTime fun t => { t with hop := some ⟨1, false, 0, 0⟩ }).flag (R.CLK_SLOT 1) F.CLK_SLOT_BAND_VALID true
       (s.chip.powered = true) ∧ (s.chip.time.hop = some h) ∧ (s.chip.is (R.CLK_SLOT h.slot) F.CLK_SLOT_BAND_VALID = true))
    ∧ (let e : BitVec 12 := -20
       let h : Hop := ⟨1, true, 0, 0⟩
       let s : State := at0 fun c => (c.updTime fun t => { t with hop := some ⟨1, true, 0, 0⟩ }).flag R.CLK_CTL F.CLK_CTL_PHASE_MODE true
       (s.chip.powered = true) ∧ (s.chip.time.hop = some h) ∧ (h.freqOk = true) ∧ (h.slot < 8) ∧ (s.chip.fastPhase = true) ∧ (e.toInt.natAbs ≤
          20))
    ∧ (let h : Hop := ⟨1, true, 900, 4000⟩
       let s : State := at0 fun c => c.updTime fun t => { t with hop := some ⟨1, true, 900, 4000⟩ }
       (s.chip.powered = true) ∧ (s.chip.time.hop = some h) ∧ (h.freqOk = true) ∧ (h.slot < 8) ∧ (s.chip.fastPhase = false) ∧ (h.err.natAbs ≤
          4000))
    ∧ (let s : State := at0 fun c => c.updTime fun t => { t with gated := false }
       (s.chip.powered = true) ∧ (s.chip.time.gated = false)) := by decide +kernel

/-- States and operands that meet the hypotheses of RootClockCommands (part 2). -/
theorem witness_RootClockCommands_2 :
      (let s : State := State.reset
       (s.chip.powered = true))
    ∧ (let s : State := at0 id
       (s.chip.powered = true) ∧ (s.chip.time.gated = false)) := by decide +kernel

/-- States and operands that meet the hypotheses of HerdTimeCommands (part 1). -/
theorem witness_HerdTimeCommands_1 :
      (let w : Writer := host
       let s : State := at0 id
       (May w R.HTM_ADJ s))
    ∧ (let w : Writer := host
       let s : State := at0 id
       (May w R.HTM_STEP_CMD s) ∧ (s.chip.stepBlocked = false))
    ∧ (let w : Writer := host
       let s : State := at0 fun c => c.updCtx 1 fun x => { x with st := .inDoubt }
       (May w R.HTM_STEP_CMD s) ∧ (s.chip.stepBlocked = true))
    ∧ (let s : State := at0 fun c => c.updTime fun t => { t with stepPend := true }
       (Awake P.HTM s) ∧ (s.chip.time.stepPend = true))
    ∧ (let falling : Bool := false
       let s : State := at0 fun c => (c.flag R.HTM_STAT F.HTM_STAT_BELLWETHER true).setF R.HTM_CTL F.HTM_CTL_DISC_SRC 2
       (Awake P.HTM s) ∧ ((falling != s.chip.is R.HTM_CTL F.HTM_CTL_PPS_POL) = false) ∧ (s.chip.ppsErr.natAbs ≤ 10 ^ 8 * 2 ^ 48) ∧ (s.chip.is
          R.HTM_STAT F.HTM_STAT_BELLWETHER = true) ∧ (s.chip.f R.HTM_CTL F.HTM_CTL_DISC_SRC = 2))
    ∧ (let s : State := at0 fun c => c.flag R.HTM_PPS_CFG F.HTM_PPS_CFG_EN true
       (Awake P.HTM s) ∧ (s.chip.is R.HTM_PPS_CFG F.HTM_PPS_CFG_EN = true)) := by decide +kernel

/-- States and operands that meet the hypotheses of HerdTimeCommands (part 2). -/
theorem witness_HerdTimeCommands_2 :
      (let s : State := at0 id
       (Awake P.HTM s))
    ∧ (let s : State := at0 fun c => c.setF R.HTM_CTL F.HTM_CTL_DISC_SRC 1
       (Awake P.HTM s) ∧ (s.chip.is R.HTM_STAT F.HTM_STAT_HOLDOVER = false) ∧ (s.chip.f R.HTM_CTL F.HTM_CTL_DISC_SRC ≠ 0)) := by decide +kernel

/-- States and operands that meet the hypotheses of CalendarCommands (part 1). -/
theorem witness_CalendarCommands_1 :
      (let w : Writer := host
       let s : State := at0 id
       (May w R.RTC_CMD s) ∧ (s.chip.calDisc = false))
    ∧ (let w : Writer := host
       let s : State := at0 fun c => (c.flag R.RTC_CTL F.RTC_CTL_DISC true).flag R.HTM_STAT F.HTM_STAT_VALID true
       (May w R.RTC_CMD s) ∧ (s.chip.calDisc = true))
    ∧ (let w : Writer := host
       let s : State := at0 id
       (May w R.RTC_CMD s))
    ∧ (let s : State := at0 fun c => c.updTime fun t => { t with setPend := true }
       (s.chip.mode ≠ .off) ∧ (s.chip.mode ≠ .survival) ∧ (s.chip.time.setPend = true))
    ∧ (let s : State := at0 fun c => ({ c with mode := .survival } : Chip).updTime fun t => { t with setPend := true }
       (s.chip.mode = .survival) ∧ (s.chip.time.setPend = true))
    ∧ (let s : State := at0 fun c => c.updTime fun t => { t with rcCal := true }
       (s.chip.mode ≠ .off) ∧ (s.chip.time.rcCal = true)) := by decide +kernel

/-- States and operands that meet the hypotheses of CalendarCommands (part 2). -/
theorem witness_CalendarCommands_2 :
      (let s : State := at0 fun c => c.flag R.RTC_CTL F.RTC_CTL_TCOMP true
       (s.chip.mode ≠ .off) ∧ (s.chip.mode ≠ .survival) ∧ (s.chip.is R.RTC_CTL F.RTC_CTL_TCOMP = true))
    ∧ (let s : State := at0 fun c => ({ c with mode := .survival } : Chip).flag R.RTC_CTL F.RTC_CTL_TCOMP true
       (s.chip.mode = .survival) ∧ (s.chip.is R.RTC_CTL F.RTC_CTL_TCOMP = true))
    ∧ (let s : State := State.reset
       (s.chip.mode ≠ .off))
    ∧ (let s : State := at0 fun c => ((c.flag R.RTC_CTL F.RTC_CTL_DISC true).flag R.HTM_STAT F.HTM_STAT_VALID true).updTime fun t => { t with ht := 10 ^ 9 * 2 ^ 48 }
       (s.chip.powered = true) ∧ (s.chip.time.gated = false) ∧ (s.chip.calDisc = true) ∧ (¬ (s.chip.htNs / 10 ^ 9 % 2 ^ 40 = s.chip.time.calSec
          ∧ s.chip.htNs % 10 ^ 9 * 2 ^ 15 / 10 ^ 9 = s.chip.time.calSub)))
    ∧ (let s : State := at0 fun c => (c.flag R.RTC_CTL F.RTC_CTL_DISC true).flag R.HTM_STAT F.HTM_STAT_VALID true
       (s.chip.powered = true) ∧ (s.chip.time.gated = false) ∧ (s.chip.calDisc = true)) := by decide +kernel

/-- States and operands that meet the hypotheses of RegulatorCommands (part 1). -/
theorem witness_RegulatorCommands_1 :
      (let w : Writer := host
       let v : BitVec 32 := 0x0A0320#32
       let s : State := at0 id
       (May w R.VCR_CTL s) ∧ (slewOk (fget v F.VCR_CTL_SLEW) (fget v F.VCR_CTL_TARGET) = true))
    ∧ (let w : Writer := host
       let v : BitVec 32 := 0
       let s : State := at0 id
       (May w R.VCR_CTL s) ∧ (slewOk (fget v F.VCR_CTL_SLEW) (fget v F.VCR_CTL_TARGET) = false))
    ∧ (let s : State := at0 fun c => c.flag R.VCR_STAT F.VCR_STAT_SLEWING true
       (s.chip.powered = true) ∧ (s.chip.halted P.VCR = false) ∧ (s.chip.is R.VCR_STAT F.VCR_STAT_SLEWING = true))
    ∧ (let i0 : BitVec 8 := 255
       let i1 : BitVec 8 := 255
       let i2 : BitVec 8 := 255
       let i3 : BitVec 8 := 255
       let s : State := at0 fun c => (c.updPow fun p => { p with load := 1020 }).setF R.VCR_STAT F.VCR_STAT_ACTIVE 1
       (s.chip.powered = true) ∧ (s.chip.halted P.VCR = false) ∧ (2 * (i0.toNat + i1.toNat + i2.toNat + i3.toNat) ≤ 2 * s.chip.pow.load + 5 *
          s.chip.f R.VCR_THR F.VCR_THR_STEP) ∧ (s.chip.iAdd s.chip.phN < i0.toNat + i1.toNat + i2.toNat + i3.toNat) ∧ (s.chip.phN <
          s.chip.maxPh) ∧ (s.chip.phN < s.chip.phAvail.length))
    ∧ (let i0 : BitVec 8 := 255
       let i1 : BitVec 8 := 255
       let i2 : BitVec 8 := 255
       let i3 : BitVec 8 := 255
       let s : State := State.reset
       (s.chip.powered = true) ∧ (s.chip.halted P.VCR = false) ∧ (2 * s.chip.pow.load + 5 * s.chip.f R.VCR_THR F.VCR_THR_STEP < 2 * (i0.toNat +
          i1.toNat + i2.toNat + i3.toNat)))
    ∧ (let i0 : BitVec 8 := 0
       let i1 : BitVec 8 := 0
       let i2 : BitVec 8 := 0
       let i3 : BitVec 8 := 0
       let i : Nat := 0
       let s : State := at0 fun c => c.setF R.VCR_STAT F.VCR_STAT_ACTIVE 15
       (s.chip.powered = true) ∧ (s.chip.halted P.VCR = false) ∧ (i = i0.toNat + i1.toNat + i2.toNat + i3.toNat) ∧ (s.chip.shedCond i = true) ∧
          (i ≤ s.chip.iAdd s.chip.phN) ∧ (2 * i ≤ 2 * s.chip.pow.load + 5 * s.chip.f R.VCR_THR F.VCR_THR_STEP)) := by decide +kernel

/-- States and operands that meet the hypotheses of RegulatorCommands (part 2). -/
theorem witness_RegulatorCommands_2 :
      (let s : State := at0 fun c => c.setF R.VCR_PH_CFG F.VCR_PH_CFG_ROT_S 1
       (s.chip.powered = true) ∧ (s.chip.halted P.VCR = false) ∧ (s.chip.f R.VCR_PH_CFG F.VCR_PH_CFG_ROT_S ≠ 0) ∧ (s.chip.phN <
          s.chip.phAvail.length))
    ∧ (let temp : BitVec 9 := 134
       let s : State := State.reset
       (s.chip.powered = true) ∧ (115 ≤ temp.toInt) ∧ (temp.toInt < 135))
    ∧ (let n : Fin 4 := 0
       let temp : BitVec 9 := 135
       let s : State := State.reset
       (s.chip.powered = true) ∧ (135 ≤ temp.toInt) ∧ (s.chip.phShut n = false))
    ∧ (let temp : BitVec 9 := 109
       let s : State := State.reset
       (s.chip.powered = true) ∧ (temp.toInt < 110))
    ∧ (let s : State := State.reset
       (s.chip.powered = true)) := by decide +kernel

/-- States and operands that meet the hypotheses of SupplyCommands (part 1). -/
theorem witness_SupplyCommands_1 :
      (let s : State := at0 fun c => c.flag R.VAUX_STAT F.VAUX_STAT_RPS_ON true
       (s.chip.powered = true) ∧ (s.chip.is R.VAUX_STAT F.VAUX_STAT_RPS_ON = true))
    ∧ (let s : State := at0 fun c => ({ c with mode := .survival } : Chip).flag R.VAUX_STAT F.VAUX_STAT_RPS_ON true
       (s.chip.powered = false) ∧ (s.chip.is R.VAUX_STAT F.VAUX_STAT_RPS_ON = true))
    ∧ (let s : State := at0 fun c => c.flag R.VAUX_CFG F.VAUX_CFG_RPS_EN true
       (s.chip.is R.VAUX_CFG F.VAUX_CFG_RPS_EN = true))
    ∧ (let s : State := at0 fun c => { c with mode := .run }
       (s.chip.powered = true) ∧ (s.chip.is R.VAUX_STAT F.VAUX_STAT_EW = false))
    ∧ (let s : State := at0 fun c => c.flag R.VAUX_STAT F.VAUX_STAT_EW true
       (s.chip.powered = true) ∧ (s.chip.is R.VAUX_STAT F.VAUX_STAT_EW = true))
    ∧ (let s : State := at0 fun c => { c with mode := .run }
       (s.chip.powered = true) ∧ (s.chip.is R.VAUX_STAT F.VAUX_STAT_EW = false)) := by decide +kernel

/-- States and operands that meet the hypotheses of SupplyCommands (part 2). -/
theorem witness_SupplyCommands_2 :
      (let s : State := at0 fun c => { c with mode := .run }
       (s.chip.powered = true) ∧ (s.chip.is R.VAUX_STAT F.VAUX_STAT_EW = false))
    ∧ (let s : State := at0 fun c => { c with mode := .survival }
       (s.chip.powered = false) ∧ (s.chip.pow.rails = true))
    ∧ (let s : State := State.reset
       (s.chip.powered = true))
    ∧ (let s : State := at0 fun c => { c.flag R.VAUX_STAT F.VAUX_STAT_PG true with mode := .off }
       (s.chip.powered = false) ∧ (s.chip.is R.VAUX_STAT F.VAUX_STAT_PG = true))
    ∧ (let s : State := at0 fun c => ({ c.flag R.VAUX_STAT F.VAUX_STAT_PG true with mode := .off } : Chip).updPow fun p => { p with rails := false }
       (s.chip.powered = false) ∧ (s.chip.is R.VAUX_STAT F.VAUX_STAT_PG = true))
    ∧ (let s : State := at0 fun c => { c.flag R.VAUX_STAT F.VAUX_STAT_PG true with mode := .survival }
       (s.chip.mode = .survival) ∧ (s.chip.is R.VAUX_STAT F.VAUX_STAT_PG = true) ∧ (s.chip.pow.rails = true)) := by decide +kernel

/-- States and operands that meet the hypotheses of SupplyCommands (part 3). -/
theorem witness_SupplyCommands_3 :
      (let s : State := State.reset
       (s.chip.powered = true)) := by decide +kernel

/-- States and operands that meet the hypotheses of SurvivalStoreCommands (part 1). -/
theorem witness_SurvivalStoreCommands_1 :
      (let s : State := at0 fun c => { c with mode := .off }
       (s.chip.mode = .off))
    ∧ (let s : State := at0 fun c => { c with mode := .survival }
       (s.chip.mode = .survival) ∧ (s.chip.is R.VAUX_STAT F.VAUX_STAT_PG = false))
    ∧ (let s : State := at0 fun c => (c.flag R.VAUX_STAT F.VAUX_STAT_PG true).flag R.STORE_CFG F.STORE_CFG_CHG_EN true
       (s.chip.pow.survUp = true) ∧ (s.chip.chgFollow.is R.STORE_STAT F.STORE_STAT_CHARGING = true))
    ∧ (let s : State := State.reset
       (s.chip.pow.survUp = true))
    ∧ (let s : State := State.reset
       (s.chip.pow.survUp = true))
    ∧ (let k : Fin 4 := 3
       let s : State := State.reset
       (s.chip.pow.survUp = true) ∧ (s.chip.storeLi = true) ∧ (nbit s.chip.pow.prot k = false)) := by decide +kernel

/-- States and operands that meet the hypotheses of SurvivalStoreCommands (part 2). -/
theorem witness_SurvivalStoreCommands_2 :
      (let k : Fin 4 := 2
       let s : State := at0 fun c => c.updPow fun p => { p with prot := 4 }
       (s.chip.pow.survUp = true) ∧ (nbit s.chip.pow.prot k = true) ∧ (k ≠ 1 ∨ s.chip.chgSource = true))
    ∧ (let s : State := at0 fun c => ({ c with mode := .off } : Chip).updPow fun p => { p with survUp := false }
       (s.chip.mode = .off) ∧ (s.chip.pow.survUp = false))
    ∧ (let s : State := at0 fun c => { c with mode := .off }
       (s.chip.mode = .off))
    ∧ (let s : State := at0 fun c => (c.flag R.HRV_CFG F.HRV_CFG_EN true).setF R.HRV_CFG F.HRV_CFG_SRC 3
       (s.chip.pow.survUp = true) ∧ (s.chip.is R.HRV_CFG F.HRV_CFG_EN = true) ∧ (s.chip.f R.HRV_CFG F.HRV_CFG_SRC = 3))
    ∧ (let s : State := at0 fun c => c.setF R.HRV_STAT F.HRV_STAT_ACTIVE 1
       (s.chip.pow.survUp = true) ∧ (s.chip.f R.HRV_STAT F.HRV_STAT_ACTIVE ≠ 0))
    ∧ (let s : State := State.reset
       (s.chip.pow.survUp = true) ∧ (s.chip.mode ≠ .off)) := by decide +kernel

/-- States and operands that meet the hypotheses of SurvivalStoreCommands (part 3). -/
theorem witness_SurvivalStoreCommands_3 :
      (let n : Fin 16 := 15
       let s : State := at0 fun c => ((c.setF (R.ACMP_CH_CFG 15) F.ACMP_CH_CFG_MODE 3).setF (R.ACMP_CH_CFG 15) F.ACMP_CH_CFG_TRIP_HI_EN 1)
       (s.chip.pow.survUp = true) ∧ (s.chip.mode ≠ .off) ∧ (s.chip.f (R.ACMP_CH_CFG n) F.ACMP_CH_CFG_MODE = 3) ∧ (s.chip.time.calSec % max 1
          (s.chip.f R.ACMP_SAMPLE_CFG F.ACMP_SAMPLE_CFG_PERIOD) = 0) ∧ (s.chip.meas.acmp.length = 16))
    ∧ (let n : Fin 16 := 15
       let s : State := State.reset
       (s.chip.pow.survUp = true) ∧ (s.chip.mode ≠ .off) ∧ (s.chip.f (R.ACMP_CH_CFG n) F.ACMP_CH_CFG_MODE ≠ 3 ∨ s.chip.time.calSec % max 1
          (s.chip.f R.ACMP_SAMPLE_CFG F.ACMP_SAMPLE_CFG_PERIOD) ≠ 0)) := by decide +kernel

/-- States and operands that meet the hypotheses of SurvivalTaskCommands (part 1). -/
theorem witness_SurvivalTaskCommands_1 :
      (let s : State := State.reset
       (s.chip.pow.survUp = true) ∧ (s.chip.mode ≠ .off))
    ∧ (let src : Fin 4 := 3
       let b : Beacon := ⟨1, 0, 0, [], true, false⟩
       let s : State := at0 fun c => (({ c with mode := .survival } : Chip).setF R.SURV_CFG F.SURV_CFG_WAKE_EN 15).updPow fun p => { p with bcn := some ⟨1, 0, 0, [], true, false⟩ }
       (s.chip.pow.survUp = true) ∧ (s.chip.mode = .survival) ∧ (nbit (s.chip.f R.SURV_CFG F.SURV_CFG_WAKE_EN) src = true) ∧ (s.chip.pow.bcn =
          some b))
    ∧ (let src : Fin 4 := 0
       let s : State := at0 fun c => (({ c with mode := .survival } : Chip).setF R.SURV_CFG F.SURV_CFG_WAKE_EN 15)
       (s.chip.pow.survUp = true) ∧ (s.chip.mode = .survival) ∧ (nbit (s.chip.f R.SURV_CFG F.SURV_CFG_WAKE_EN) src = true) ∧ (s.chip.pow.bcn =
          none)) := by decide +kernel

/-- States and operands that meet the hypotheses of SurvivalTaskCommands (part 2). -/
theorem witness_SurvivalTaskCommands_2 :
      (let codes : List (BitVec 24) := [3, 4]
       let i : F64 := (wordVal ((at0 fun c => ((({ c with mode := .survival } : Chip).updPow fun p => { p with co := true }).wr (R.MTR_CO_K 0) (Slot.mk 0x400000 20 false false).word).wrN (R.MTR_CO_CHG_LO 0) 0xFFFFFFFF).chip.rd (R.MTR_CO_K 0))).mul (((([3, 4] : List (BitVec 24)).foldl (fun a x => a.add ((F64.ofInt (x.toInt - (at0 fun c => ((({ c with mode := .survival } : Chip).updPow fun p => { p with co := true }).wr (R.MTR_CO_K 0) (Slot.mk 0x400000 20 false false).word).wrN (R.MTR_CO_CHG_LO 0) 0xFFFFFFFF).chip.fs (R.MTR_CO_OFS 0) F.MTR_CO_OFS_OFS)).mul (F64.ofInt (x.toInt - (at0 fun c => ((({ c with mode := .survival } : Chip).updPow fun p => { p with co := true }).wr (R.MTR_CO_K 0) (Slot.mk 0x400000 20 false false).word).wrN (R.MTR_CO_CHG_LO 0) 0xFFFFFFFF).chip.fs (R.MTR_CO_OFS 0) F.MTR_CO_OFS_OFS)))) F64.zero).div (F64.ofNat (max 1 ([3, 4] : List (BitVec 24)).length))).sqrt)
       let r : F64 := (at0 fun c => ((({ c with mode := .survival } : Chip).updPow fun p => { p with co := true }).wr (R.MTR_CO_K 0) (Slot.mk 0x400000 20 false false).word).wrN (R.MTR_CO_CHG_LO 0) 0xFFFFFFFF).chip.mtr.coRes.add ((((wordVal ((at0 fun c => ((({ c with mode := .survival } : Chip).updPow fun p => { p with co := true }).wr (R.MTR_CO_K 0) (Slot.mk 0x400000 20 false false).word).wrN (R.MTR_CO_CHG_LO 0) 0xFFFFFFFF).chip.rd (R.MTR_CO_K 0))).mul (((([3, 4] : List (BitVec 24)).foldl (fun a x => a.add ((F64.ofInt (x.toInt - (at0 fun c => ((({ c with mode := .survival } : Chip).updPow fun p => { p with co := true }).wr (R.MTR_CO_K 0) (Slot.mk 0x400000 20 false false).word).wrN (R.MTR_CO_CHG_LO 0) 0xFFFFFFFF).chip.fs (R.MTR_CO_OFS 0) F.MTR_CO_OFS_OFS)).mul (F64.ofInt (x.toInt - (at0 fun c => ((({ c with mode := .survival } : Chip).updPow fun p => { p with co := true }).wr (R.MTR_CO_K 0) (Slot.mk 0x400000 20 false false).word).wrN (R.MTR_CO_CHG_LO 0) 0xFFFFFFFF).chip.fs (R.MTR_CO_OFS 0) F.MTR_CO_OFS_OFS)))) F64.zero).div (F64.ofNat (max 1 ([3, 4] : List (BitVec 24)).length))).sqrt)).div (F64.ofNat 3600)).mul (F64.ofNat (10 ^ 6)))
       let s : State := at0 fun c => ((({ c with mode := .survival } : Chip).updPow fun p => { p with co := true }).wr (R.MTR_CO_K 0) (Slot.mk 0x400000 20 false false).word).wrN (R.MTR_CO_CHG_LO 0) 0xFFFFFFFF
       (s.chip.mode = .survival) ∧ (s.chip.pow.co = true) ∧ (i = (wordVal (s.chip.rd (R.MTR_CO_K 0))).mul (((codes.foldl (fun a x => a.add
          ((F64.ofInt (x.toInt - s.chip.fs (R.MTR_CO_OFS 0) F.MTR_CO_OFS_OFS)).mul (F64.ofInt (x.toInt - s.chip.fs (R.MTR_CO_OFS 0)
          F.MTR_CO_OFS_OFS)))) F64.zero).div (F64.ofNat (max 1 codes.length))).sqrt)) ∧ (r = s.chip.mtr.coRes.add ((i.div (F64.ofNat
          3600)).mul (F64.ofNat (10 ^ 6))))) := by decide +kernel

/-- States and operands that meet the hypotheses of SurvivalTaskCommands (part 3). -/
theorem witness_SurvivalTaskCommands_3 :
      (let b : Beacon := ⟨1, 0, 0, [], false, false⟩
       let s : State := at0 fun c => ((fun c => (({ c with mode := .survival } : Chip).updPow fun p => { p with bcn := some ⟨1, 0, 0, [], false, false⟩ })) c).setF R.SURV_CFG F.SURV_CFG_RXWIN_MS 9
       (s.chip.pow.survUp = true) ∧ (s.chip.mode ≠ .off) ∧ (s.chip.pow.bcn = some b) ∧ (b.listen = false) ∧ (s.chip.f R.SURV_CFG
          F.SURV_CFG_RXWIN_MS ≠ 0))
    ∧ (let b : Beacon := ⟨1, 0, 0, [], false, false⟩
       let s : State := at0 fun c => ((fun c => (({ c with mode := .survival } : Chip).updPow fun p => { p with bcn := some ⟨1, 0, 0, [], false, false⟩ })) c).setF R.SURV_CFG F.SURV_CFG_RXWIN_MS 0
       (s.chip.pow.survUp = true) ∧ (s.chip.mode ≠ .off) ∧ (s.chip.pow.bcn = some b) ∧ (b.listen = false) ∧ (s.chip.f R.SURV_CFG
          F.SURV_CFG_RXWIN_MS = 0))
    ∧ (let b : Beacon := ⟨1, 0, 0, [], false, false⟩
       let s : State := at0 fun c => (({ c with mode := .survival } : Chip).updPow fun p => { p with bcn := some ⟨1, 0, 0, [], false, false⟩ })
       (s.chip.pow.survUp = true) ∧ (s.chip.pow.bcn = some b) ∧ (b.listen = false) ∧ (b.kind ≠ 3))
    ∧ (let s : State := State.reset
       (s.chip.pow.survUp = true) ∧ (s.chip.pow.bcn = none))
    ∧ (let seq : BitVec 16 := 0
       let b : Beacon := ⟨1, 0, 0, [], true, false⟩
       let s : State := at0 fun c => (({ c with mode := .survival } : Chip).updPow fun p => { p with bcn := some ⟨1, 0, 0, [], true, false⟩ })
       (s.chip.pow.survUp = true) ∧ (s.chip.mode ≠ .off) ∧ (s.chip.pow.bcn = some b) ∧ (b.listen = true) ∧ (b.kind ≠ 3) ∧ (seq.toNat = s.chip.f
          R.SURV_STAT F.SURV_STAT_BCN_SEQ)) := by decide +kernel

/-- States and operands that meet the hypotheses of SurvivalTaskCommands (part 4). -/
theorem witness_SurvivalTaskCommands_4 :
      (let data : List (BitVec 8) := [1, 2, 3, 4, 5]
       let b : Beacon := ⟨1, 0, 0, [], true, false⟩
       let s : State := at0 fun c => (({ c with mode := .survival } : Chip).updPow fun p => { p with bcn := some ⟨1, 0, 0, [], true, false⟩ })
       (s.chip.pow.survUp = true) ∧ (s.chip.mode ≠ .off) ∧ (s.chip.pow.bcn = some b) ∧ (b.listen = true) ∧ (s.chip.is R.SURV_RXSTAT
          F.SURV_RXSTAT_FULL = false) ∧ (data.length ≤ 16))
    ∧ (let b : Beacon := ⟨2, 1, 3, [], true, false⟩
       let s : State := at0 fun c => ({ c with mode := .survival } : Chip).updPow fun p => { p with bcn := some ⟨2, 1, 3, [], true, false⟩ }
       (s.chip.pow.survUp = true) ∧ (s.chip.mode ≠ .off) ∧ (s.chip.pow.bcn = some b) ∧ (b.listen = true))
    ∧ (let w : Writer := host
       let s : State := at0 fun c => { c with mode := .ready }
       (May w R.SURV_CMD s) ∧ (s.chip.mode = .ready) ∧ (s.chip.pow.bcn = none))
    ∧ (let w : Writer := host
       let s : State := at0 id
       (May w R.SURV_CMD s) ∧ (s.chip.mode ≠ .ready))
    ∧ (let w : Writer := host
       let s : State := at0 id
       (May w R.SURV_CMD s))
    ∧ (let w : Writer := host
       let s : State := at0 id
       (May w R.SURV_CMD s)) := by decide +kernel

/-- States and operands that meet the hypotheses of HeaderAndWriteCommands (part 1). -/
theorem witness_HeaderAndWriteCommands_1 :
      (let size : BitVec 2 := 1
       let a : BitVec 32 := 0x40000000 + 0x41FE
       let k : Nat := 0x41FE
       let s : State := at0 id
       (a.toNat = 0x40000000 + k) ∧ ((pageAt k).isSome = true) ∧ (¬ (size.toNat = 2 ∧ k % 4 = 0)) ∧ (s.chip.powered = true) ∧
          (s.chip.time.gated = false))
    ∧ (let w : Writer := host
       let a : BitVec 32 := BitVec.ofNat 32 (0x40000000 + P.LAP + H.EVT_EN)
       let b : Nat := P.LAP
       let s : State := at0 id
       (b % 0x1000 = 0) ∧ ((pageAt b).isSome = true) ∧ (a.toNat = 0x40000000 + (b + H.EVT_EN)) ∧ (May w (b + H.EVT_EN) s) ∧ (b ≠ P.SCFG))
    ∧ (let w : Writer := host
       let a : BitVec 32 := BitVec.ofNat 32 (0x40000000 + R.HTM_PPS_CFG)
       let v : BitVec 32 := -1
       let s : State := at0 id
       (a.toNat = 0x40000000 + R.HTM_PPS_CFG) ∧ (Direct w R.HTM_PPS_CFG v s))
    ∧ (let w : Writer := ⟨.host, 0⟩
       let a : BitVec 32 := BitVec.ofNat 32 (0x40000000 + R.HTM_NS 0)
       let k : Nat := R.HTM_NS 0
       let s : State := at0 id
       (regOffset a.toNat = some k) ∧ (lowWord k = true) ∧ (w.ini ≠ .twinA) ∧ (w.ini ≠ .twinB) ∧ (s.chip.powered = true) ∧ (s.chip.time.gated =
          false))
    ∧ (let w : Writer := ⟨.twinB, 0⟩
       let a : BitVec 32 := BitVec.ofNat 32 (0x40000000 + R.HTM_NS 0)
       let k : Nat := R.HTM_NS 0
       let tw : Bool := true
       let s : State := at0 fun c => c.setF (R.TWN_STAT 1) F.TWN_STAT_STATE Tw.run
       (regOffset a.toNat = some k) ∧ (w.ini = (if tw then Initiator.twinB else Initiator.twinA)) ∧ (s.chip.powered = true) ∧
          (s.chip.time.gated = false) ∧ (s.chip.twRuns tw = true) ∧ (s.chip.twStalled tw = false) ∧ ((s.chip.twin tw).rb = []) ∧
          (s.chip.mode ≠ .replay) ∧ (s.chip.red.twins.length = 2))
    ∧ (let w : Writer := host
       let pg : Fin 576 := ⟨P.MASK / 0x1000, by decide⟩
       let s : State := at0 fun c => c.wr R.MASK_CFG 5
       (0x1000 * pg.val = P.MASK) ∧ (May w (P.MASK + H.CTL) s)) := by decide +kernel

/-- States and operands that meet the hypotheses of HeaderAndWriteCommands (part 2). -/
theorem witness_HeaderAndWriteCommands_2 :
      (let w : Writer := host
       let pg : Fin 576 := 5
       let b : Nat := 0x5000
       let s : State := at0 fun c => { c with mode := .ready }
       (b = 0x1000 * pg.val) ∧ ((pageAt b).isSome = true) ∧ (May w (b + H.CTL) s) ∧ (s.chip.mayFreeze b = true))
    ∧ (let w : Writer := host
       let pg : Fin 576 := 5
       let b : Nat := 0x5000
       let s : State := at0 id
       (b = 0x1000 * pg.val) ∧ (b ≠ P.SCFG) ∧ ((pageAt b).isSome = true) ∧ (May w (b + H.CTL) s) ∧ (s.chip.mayFreeze b = false))
    ∧ (let w : Writer := host
       let pg : Fin 576 := ⟨P.HTM / 0x1000, by decide⟩
       let s : State := at0 fun c => c.updTime fun t => { t with ht := 3 * 2 ^ 47 }
       (0x1000 * pg.val = P.HTM) ∧ (May w (P.HTM + H.CTL) s) ∧ (s.chip.frozen P.HTM = false ∨ s.chip.mayFreeze P.HTM = true))
    ∧ (let w : Writer := host
       let pg : Fin 576 := 5
       let b : Nat := 0x5000
       let s : State := at0 id
       (b = 0x1000 * pg.val) ∧ (b ≠ P.SCFG) ∧ ((pageAt b).isSome = true) ∧ (May w (b + H.EVT_SET) s))
    ∧ (let pg : Fin 576 := 5
       let s : State := at0 fun c => { c with crcBusy := [0x5000] }
       (s.chip.powered = true) ∧ (s.chip.time.gated = false) ∧ (s.chip.crcBusy.contains (0x1000 * pg.val) = true)) := by decide +kernel

/-- States and operands that meet the hypotheses of EnableBitCommands (part 1). -/
theorem witness_EnableBitCommands_1 :
      (let w : Writer := host
       let g : Fin 2 := 1
       let s : State := at0 id
       (Direct w (R.SEQ_CTL) (fset (s.chip.rd (R.SEQ_CTL)) ⟨g.val, g.val⟩ 1) s))
    ∧ (let w : Writer := host
       let g : Fin 2 := 0
       let s : State := at0 fun c => c.setBit R.SEQ_CTL 0 true
       (Direct w (R.SEQ_CTL) (fset (s.chip.rd (R.SEQ_CTL)) ⟨g.val, g.val⟩ 0) s))
    ∧ (let w : Writer := host
       let ch : Fin 4 := 3
       let s : State := at0 id
       (Direct w (R.BPT_CTL) (fset (s.chip.rd (R.BPT_CTL)) ⟨ch.val, ch.val⟩ 1) s))
    ∧ (let w : Writer := host
       let ch : Fin 4 := 2
       let s : State := at0 fun c => c.setBit R.BPT_CTL 2 true
       (Direct w (R.BPT_CTL) (fset (s.chip.rd (R.BPT_CTL)) ⟨ch.val, ch.val⟩ 0) s))
    ∧ (let w : Writer := host
       let n : Fin 4 := 3
       let s : State := at0 id
       (Direct w (R.PWT_CTL) (fset (s.chip.rd (R.PWT_CTL)) ⟨n.val, n.val⟩ 1) s))
    ∧ (let w : Writer := host
       let n : Fin 4 := 0
       let s : State := at0 fun c => c.setBit R.PWT_CTL 0 true
       (Direct w (R.PWT_CTL) (fset (s.chip.rd (R.PWT_CTL)) ⟨n.val, n.val⟩ 0) s)) := by decide +kernel

/-- States and operands that meet the hypotheses of EnableBitCommands (part 2). -/
theorem witness_EnableBitCommands_2 :
      (let w : Writer := host
       let n : Fin 8 := 0
       let s : State := at0 fun c => c.wr (R.LANE_CTL 0) 0
       (Direct w (R.LANE_CTL n) (fset (s.chip.rd (R.LANE_CTL n)) ⟨31, 31⟩ 1) s))
    ∧ (let w : Writer := host
       let n : Fin 8 := 7
       let s : State := at0 fun c => c.wr (R.LANE_CTL 7) 0
       (Direct w (R.LANE_CTL n) (fset (s.chip.rd (R.LANE_CTL n)) ⟨31, 31⟩ 0) s))
    ∧ (let w : Writer := host
       let k : Fin 16 := 15
       let reg : Fin 3 := 2
       let n : Nat := 3
       let s : State := at0 fun c => c.updCtx 3 fun x => { x with st := .opened, ini := 1 }
       (May w (R.PWMC_PERIOD k + 4 * reg.val) s) ∧ (s.chip.stager w = some n) ∧ ((s.chip.ctx n).st = .opened) ∧ (s.chip.holder (R.PWMC_PERIOD k
          + 4 * reg.val) = none) ∧ ((s.chip.ctx n).entries.length < 1024) ∧ (s.chip.poolUsed < 4096))
    ∧ (let w : Writer := host
       let slot : Fin 1024 := 1023
       let n : Nat := 1
       let s : State := at0 fun c => c.updCtx 1 fun x => { x with st := .opened, ini := 1 }
       (s.chip.powered = true) ∧ (s.chip.time.gated = false) ∧ (May w (R.STR_SLOT (slot.val % 512)) s) ∧ (s.chip.stager w = some n) ∧
          ((s.chip.ctx n).st = .opened) ∧ (s.chip.holder (Key.slot slot.val) = none) ∧ ((s.chip.ctx n).entries.length < 1024) ∧
          (s.chip.poolUsed < 4096))
    ∧ (let w : Writer := host
       let a : BitVec 32 := BitVec.ofNat 32 (0x40000000 + R.BPT_CTL)
       let n : Nat := 2
       let s : State := at0 fun c => c.updCtx 2 fun x => { x with st := .opened, ini := 1 }
       (a.toNat = 0x40000000 + R.BPT_CTL) ∧ (May w R.BPT_CTL s) ∧ (s.chip.stager w = some n) ∧ ((s.chip.ctx n).st = .opened) ∧ (s.chip.holder
          R.BPT_CTL = none) ∧ ((s.chip.ctx n).entries.length < 1024) ∧ (s.chip.poolUsed < 4096)) := by decide +kernel

/-- States and operands that meet the hypotheses of PortAndEventCommands (part 1). -/
theorem witness_PortAndEventCommands_1 :
      (let s : State := at0 id
       (Awake P.HPT s) ∧ (s.chip.is R.HPT_STAT F.HPT_STAT_PORT = false) ∧ (s.chip.boot.posted.length < 64))
    ∧ (let s : State := at0 fun c => c.updBoot fun b => { b with posted := List.replicate 64 (0, 0) }
       (Awake P.HPT s) ∧ (s.chip.is R.HPT_STAT F.HPT_STAT_PORT = false) ∧ (64 ≤ s.chip.boot.posted.length))
    ∧ (let k : Nat := R.HTM_PPS_CFG
       let v : Word := 77
       let r : List (Nat × Word) := []
       let s : State := at0 fun c => (c.updBoot fun b => { b with posted := [(R.HTM_PPS_CFG, 77)] }).flag R.HPT_CTL F.HPT_CTL_WR_EN true
       (s.chip.powered = true) ∧ (s.chip.time.gated = false) ∧ (s.chip.boot.posted = (k, v) :: r) ∧ (k = R.HTM_PPS_CFG) ∧ (May ⟨.host, 0⟩ k s)
          ∧ (s.chip.stager ⟨.host, 0⟩ = none) ∧ (s.chip.holder k = none) ∧ (s.chip.deny (s.chip.wr k (s.chip.nextWord k v)) 3 k = none))
    ∧ (let s : State := at0 fun c => c.flag R.HPT_STAT F.HPT_STAT_PORT true
       (s.chip.is R.HPT_STAT F.HPT_STAT_PORT = true))
    ∧ (let ws : List (BitVec 32) := [8, 9]
       let s : State := at0 fun c => c.flag R.HPT_STAT F.HPT_STAT_PORT true
       (Awake P.HPT s) ∧ (s.chip.is R.HPT_STAT F.HPT_STAT_PORT = true) ∧ (s.chip.boot.posted.length + ws.length ≤ 64))
    ∧ (let pg : Fin 576 := 5
       let s : State := State.reset
       ((pageAt (0x1000 * pg.val)).isSome = true) ∧ (s.chip.powered = true) ∧ (s.chip.halted (0x1000 * pg.val) = false)) := by decide +kernel

/-- States and operands that meet the hypotheses of PortAndEventCommands (part 2). -/
theorem witness_PortAndEventCommands_2 :
      (let src : Nat := 9
       let r : List (Nat × EvDest) := []
       let s : State := at0 fun c => c.updBus fun b => { b with deliveries := [(9, .sheepdog)] }
       (Awake P.EVR s) ∧ (s.chip.bus.deliveries = (src, .sheepdog) :: r))
    ∧ (let src : Nat := 9
       let r : List (Nat × EvDest) := []
       let s : State := at0 fun c => (c.updBus fun b => { b with deliveries := [(9, .twinA)] }).setF (R.TWN_STAT 0) F.TWN_STAT_STATE Tw.run
       (Awake P.EVR s) ∧ (s.chip.bus.deliveries = (src, .twinA) :: r) ∧ (s.chip.twRuns false = true) ∧ (s.chip.twStalled false = false) ∧
          (s.chip.lapState ≠ Ls.replaying) ∧ (s.chip.red.twins.length = 2))
    ∧ (let src : Nat := 9
       let ses : Nat := 2
       let plane : Nat := 1
       let time : Nat := 5
       let r : List (Nat × EvDest) := []
       let s : State := at0 fun c => c.updBus fun b => { b with deliveries := [(9, .fabric 2 1 5)] }
       (Awake P.EVR s) ∧ (s.chip.bus.deliveries = (src, .fabric ses plane time) :: r))
    ∧ (let w : Writer := host
       let twin : Bool := true
       let s : State := at0 fun c => c.setPend true [4, 5]
       (May w (R.EVR_ACK (b2n twin)) s)) := by decide +kernel

/-- States and operands that meet the hypotheses of TransactionCommands (part 1). -/
theorem witness_TransactionCommands_1 :
      (let w : Writer := host
       let n : Nat := 1
       let s : State := at0 id
       (May w R.TXN_CMD s) ∧ (1 ≤ w.ini.code) ∧ (w.ini.code ≤ 5) ∧ (s.chip.bankCtx w.ini.code = none) ∧ (s.chip.findCtx (fun x => decide (x.st
          = .free)) = some n))
    ∧ (let w : Writer := host
       let n : Nat := 1
       let s : State := at0 id
       (May w R.TXN_CMD s) ∧ (1 ≤ w.ini.code) ∧ (w.ini.code ≤ 5) ∧ (s.chip.bankCtx w.ini.code = none) ∧ (s.chip.findCtx (fun x => decide (x.st
          = .free)) = some n))
    ∧ (let w : Writer := host
       let n : Nat := 1
       let s : State := at0 id
       (May w R.TXN_CMD s) ∧ (1 ≤ w.ini.code) ∧ (w.ini.code ≤ 5) ∧ (s.chip.bankCtx w.ini.code = none) ∧ (s.chip.findCtx (fun x => decide (x.st
          = .free)) = some n))
    ∧ (let w : Writer := host
       let n : Nat := 2
       let s : State := at0 fun c => c.updCtx 2 fun x => { x with st := .opened, ini := 1 }
       (May w R.TXN_CMD s) ∧ (1 ≤ w.ini.code) ∧ (w.ini.code ≤ 5) ∧ (w.ini.code ≠ 4) ∧ (s.chip.bankCtx w.ini.code = some n))
    ∧ (let w : Writer := host
       let n : Nat := 1
       let s : State := at0 fun c => c.updCtx 1 fun x => { x with st := .opened, ini := 1 }
       (May w R.TXN_CMD s) ∧ (1 ≤ w.ini.code) ∧ (w.ini.code ≤ 5) ∧ (w.ini.code ≠ 4) ∧ (s.chip.bankCtx w.ini.code = some n) ∧ ((s.chip.ctx n).st
          = .opened))
    ∧ (let w : Writer := host
       let n : Nat := 1
       let s : State := at0 fun c => (c.updCtx 1 fun x => { x with st := .opened, ini := 1 }).setF (bank 1 R.TXN_EVT_ARG) F.TXN_EVT_ARG_TIMEOUT_US 9
       (May w R.TXN_CMD s) ∧ (1 ≤ w.ini.code) ∧ (w.ini.code ≤ 5) ∧ (w.ini.code ≠ 4) ∧ (s.chip.bankCtx w.ini.code = some n) ∧ ((s.chip.ctx n).st
          = .opened) ∧ (s.chip.f (bank w.ini.code R.TXN_EVT_ARG) F.TXN_EVT_ARG_TIMEOUT_US ≠ 0)) := by decide +kernel

/-- States and operands that meet the hypotheses of TransactionCommands (part 2). -/
theorem witness_TransactionCommands_2 :
      (let w : Writer := host
       let n : Nat := 1
       let s : State := at0 fun c => (c.updCtx 1 fun x => { x with st := .opened, ini := 1 }).wr64 (bank 1 (R.TXN_T 0)) 1000
       (May w R.TXN_CMD s) ∧ (1 ≤ w.ini.code) ∧ (w.ini.code ≤ 5) ∧ (w.ini.code ≠ 4) ∧ (s.chip.bankCtx w.ini.code = some n) ∧ ((s.chip.ctx n).st
          = .opened) ∧ (s.chip.time.ht + 1000 * 2 ^ 48 ≤ s.chip.rd64 (bank w.ini.code (R.TXN_T 0)) * 2 ^ 48))
    ∧ (let w : Writer := host
       let n : Nat := 1
       let s : State := at0 fun c => c.updCtx 1 fun x => { x with st := .opened, ini := 1 }
       (May w R.TXN_CMD s) ∧ (1 ≤ w.ini.code) ∧ (w.ini.code ≤ 5) ∧ (w.ini.code ≠ 4) ∧ (s.chip.bankCtx w.ini.code = some n) ∧ ((s.chip.ctx n).st
          = .opened) ∧ (s.chip.rd64 (bank w.ini.code (R.TXN_T 0)) * 2 ^ 48 < s.chip.time.ht + 1000 * 2 ^ 48))
    ∧ (let w : Writer := host
       let n : Nat := 1
       let s : State := at0 fun c => c.updCtx 1 fun x => { x with st := .opened, ini := 1 }
       (May w R.TXN_CMD s) ∧ (1 ≤ w.ini.code) ∧ (w.ini.code ≤ 5) ∧ (w.ini.code ≠ 4) ∧ (s.chip.bankCtx w.ini.code = some n) ∧ ((s.chip.ctx n).st
          = .opened) ∧ ((s.chip.ctx n).voted = false))
    ∧ (let w : Writer := host
       let n : Fin 16 := 15
       let s : State := at0 fun c => c.updCtx 15 fun x => { x with st := .armed, ini := 2 }
       (May w R.TXN_ABORT s) ∧ (n ≠ 0) ∧ ((s.chip.ctx n).st ≠ .free))
    ∧ (let n : Fin 16 := 4
       let s : State := at0 fun c => c.updCtx 4 fun x => { x with st := .armed, ini := 2, mode := .atEvent }
       (Awake P.TXN s) ∧ (n ≠ 0) ∧ ((s.chip.ctx n).st = .armed) ∧ ((s.chip.ctx n).mode = .atEvent) ∧ ((s.chip.ctx n).edgeFixed = false)) := by decide +kernel

/-- States and operands that meet the hypotheses of TransactionCommands (part 3). -/
theorem witness_TransactionCommands_3 :
      (let m : BitVec 16 := 4
       let n : Nat := 2
       let s : State := at0 fun c => c.updCtx 2 fun x => { x with st := .armed, ini := 2 }
       (Awake P.TXN s) ∧ (1 ≤ n) ∧ (n ≤ 15) ∧ (m.toNat = 2 ^ n) ∧ (s.chip.commits n = true) ∧ ((s.chip.ctx n).late = false) ∧ ((s.chip.ctx
          n).ini ≠ 0) ∧ ((s.chip.ctx n).entries = []))
    ∧ (let m : BitVec 16 := 4
       let n : Nat := 2
       let v : Word := 0xF0000000
       let s : State := at0 fun c => c.updCtx 2 fun x => { x with st := .armed, ini := 2, entries := [(R.CLK_SLOT 2, 0xF0000000)] }
       (Awake P.TXN s) ∧ (1 ≤ n) ∧ (n ≤ 15) ∧ (m.toNat = 2 ^ n) ∧ (s.chip.commits n = true) ∧ ((s.chip.ctx n).ini ≠ 0) ∧ ((s.chip.ctx n).ini ≠
          7) ∧ ((s.chip.ctx n).entries = [(R.CLK_SLOT 2, v)])) := by decide +kernel

/-- States and operands that meet the hypotheses of HerdTransactionCommands (part 1). -/
theorem witness_HerdTransactionCommands_1 :
      (let w : Writer := host
       let n : Nat := 1
       let s : State := at0 fun c => ((c.updCtx 1 fun x => { x with st := .opened, kind := .coord, ini := 1 }).wr64 (bank 1 (R.TXN_T 0)) 1000000).setF (bank 1 R.TXN_HEXPECT) F.TXN_HEXPECT_COUNT 2
       (May w R.TXN_CMD s) ∧ (1 ≤ w.ini.code) ∧ (w.ini.code ≤ 5) ∧ (w.ini.code ≠ 4) ∧ (s.chip.bankCtx w.ini.code = some n) ∧ ((s.chip.ctx
          n).kind = .coord) ∧ ((s.chip.ctx n).st ≠ .doomed) ∧ (s.chip.f (bank w.ini.code R.TXN_HEXPECT) F.TXN_HEXPECT_COUNT ≠ 0))
    ∧ (let w : Writer := host
       let n : Nat := 1
       let s : State := at0 fun c => ((c.updCtx 1 fun x => { x with st := .opened, kind := .coord, ini := 1 }).wr64 (bank 1 (R.TXN_T 0)) 1000000).setF (bank 1 R.TXN_HDEST) F.TXN_HDEST_AUTO 1
       (May w R.TXN_CMD s) ∧ (1 ≤ w.ini.code) ∧ (w.ini.code ≤ 5) ∧ (w.ini.code ≠ 4) ∧ (s.chip.bankCtx w.ini.code = some n) ∧ ((s.chip.ctx
          n).kind = .coord) ∧ ((s.chip.ctx n).st ≠ .doomed) ∧ (s.chip.f (bank w.ini.code R.TXN_HEXPECT) F.TXN_HEXPECT_COUNT = 0) ∧
          (s.chip.f (bank w.ini.code R.TXN_HDEST) F.TXN_HDEST_AUTO = 1) ∧ (s.chip.inTime (s.chip.f (bank w.ini.code R.TXN_HPARM)
          F.TXN_HPARM_GUARD_US) (s.chip.rd64 (bank w.ini.code (R.TXN_T 0))) = true))
    ∧ (let w : Writer := host
       let n : Nat := 1
       let s : State := at0 fun c => ((c.updCtx 1 fun x => { x with st := .opened, kind := .coord, ini := 1 }).wr64 (bank 1 (R.TXN_T 0)) 1000000)
       (May w R.TXN_CMD s) ∧ (1 ≤ w.ini.code) ∧ (w.ini.code ≤ 5) ∧ (w.ini.code ≠ 4) ∧ (s.chip.bankCtx w.ini.code = some n) ∧ ((s.chip.ctx
          n).kind = .coord) ∧ ((s.chip.ctx n).st ≠ .doomed) ∧ (s.chip.inTime (s.chip.f (bank w.ini.code R.TXN_HPARM)
          F.TXN_HPARM_GUARD_US) (s.chip.rd64 (bank w.ini.code (R.TXN_T 0))) = true)) := by decide +kernel

/-- States and operands that meet the hypotheses of HerdTransactionCommands (part 2). -/
theorem witness_HerdTransactionCommands_2 :
      (let w : Writer := host
       let n : Nat := 1
       let s : State := at0 fun c => ((c.updCtx 1 fun x => { x with st := .opened, kind := .coord, ini := 1 }).wr64 (bank 1 (R.TXN_T 0)) 1000000)
       (May w R.TXN_CMD s) ∧ (1 ≤ w.ini.code) ∧ (w.ini.code ≤ 5) ∧ (w.ini.code ≠ 4) ∧ (s.chip.bankCtx w.ini.code = some n) ∧ ((s.chip.ctx
          n).kind = .coord) ∧ ((s.chip.ctx n).st ≠ .doomed) ∧ ((s.chip.ctx n).st ≠ .free))
    ∧ (let w : Writer := host
       let n : Nat := 1
       let s : State := at0 fun c => ((c.updCtx 1 fun x => { x with st := .opened, kind := .coord, ini := 1 }).wr64 (bank 1 (R.TXN_T 0)) 1000000)
       (May w R.TXN_CMD s) ∧ (1 ≤ w.ini.code) ∧ (w.ini.code ≤ 5) ∧ (w.ini.code ≠ 4) ∧ (s.chip.bankCtx w.ini.code = some n) ∧ ((s.chip.ctx
          n).kind = .coord) ∧ ((s.chip.ctx n).st ≠ .doomed))
    ∧ (let n : Fin 16 := 3
       let s : State := at0 fun c => c.updCtx 3 fun x => { x with st := .prepared }
       (Awake P.TXN s) ∧ (n ≠ 0) ∧ ((s.chip.ctx n).st = .prepared))
    ∧ (let n : Fin 16 := 3
       let s : State := at0 fun c => c.updCtx 3 fun x => { x with st := .inDoubt }
       (Awake P.TXN s) ∧ (n ≠ 0) ∧ ((s.chip.ctx n).st = .inDoubt))
    ∧ (let n : Fin 16 := 3
       let s : State := at0 fun c => c.updCtx 3 fun x => { x with st := .coordinating, auto := true, expect := 1 }
       (Awake P.TXN s) ∧ (n ≠ 0) ∧ ((s.chip.ctx n).st = .coordinating) ∧ ((s.chip.ctx n).auto = true) ∧ ((s.chip.ctx n).yes < (s.chip.ctx
          n).expect) ∧ ((s.chip.ctx n).sent = false)) := by decide +kernel

/-- States and operands that meet the hypotheses of SafetyInputCommands (part 1). -/
theorem witness_SafetyInputCommands_1 :
      (let k : Fin 8 := 7
       let s : State := at0 fun c => c.showPair 7 2
       (s.chip.powered = true) ∧ (s.chip.pairState k = 2 ∨ s.chip.pairState k = 3 ∨ s.chip.pairState k = 5))
    ∧ (let k : Fin 8 := 0
       let a : Bool := false
       let b : Bool := false
       let s : State := at0 fun c => (((c.showPair 0 0).updPair 0 fun x => { x with seen := (true, true) }).wr (R.SCFG_SIN 0) 0)
       (s.chip.powered = true) ∧ (s.chip.pairState k = 0) ∧ ((s.chip.pair k).seen = (true, true)) ∧ (a = false) ∧ (b = (s.chip.is (R.SCFG_SIN
          k) F.SCFG_SIN_MODE)) ∧ (s.chip.f (R.SCFG_SIN k) F.SCFG_SIN_ACT = 0))
    ∧ (let k : Fin 8 := 7
       let s : State := at0 fun c => c.showPair 7 3
       (s.chip.powered = true) ∧ (s.chip.pairState k = 1 ∨ s.chip.pairState k = 3))
    ∧ (let k : Fin 8 := 7
       let s : State := at0 fun c => c.updPair 7 fun x => { x with delays := 1 }
       (s.chip.powered = true) ∧ (0 < (s.chip.pair k).delays))
    ∧ (let s : State := State.reset
       (s.chip.powered = true))
    ∧ (let s : State := State.reset
       (s.chip.powered = true)) := by decide +kernel

/-- States and operands that meet the hypotheses of SafetyInputCommands (part 2). -/
theorem witness_SafetyInputCommands_2 :
      (let s : State := at0 fun c => { c with safe := { c.safe with graceRun := true } }
       (s.chip.powered = true) ∧ (s.chip.safe.graceRun = true)) := by decide +kernel

/-- States and operands that meet the hypotheses of SafetyOutputCommands (part 1). -/
theorem witness_SafetyOutputCommands_1 :
      (let k : Fin 8 := 7
       let s : State := at0 fun c => (c.flag (R.SCFG_SO_CFG 7) F.SCFG_SO_CFG_TEST true).setBit R.SOUT_STAT 7 true
       (s.chip.powered = true) ∧ (s.chip.is (R.SCFG_SO_CFG k) F.SCFG_SO_CFG_TEST = true) ∧ (s.chip.bit R.SOUT_STAT k = true) ∧ ((s.chip.sout
          k).pulse = none) ∧ (k.val < s.chip.safe.sout.length))
    ∧ (let k : Fin 8 := 7
       let m : Bool := true
       let s : State := at0 fun c => c.updSout 7 fun x => { x with pulse := some true }
       (s.chip.powered = true) ∧ ((s.chip.sout k).pulse = some m))
    ∧ (let k : Fin 8 := 7
       let m : Bool := true
       let s : State := at0 fun c => c.updSout 7 fun x => { x with pulse := some true, passP := false }
       (s.chip.powered = true) ∧ ((s.chip.sout k).pulse = some m) ∧ ((if m then (s.chip.sout k).passP else (s.chip.sout k).passM) = false))
    ∧ (let w : Writer := host
       let m : BitVec 8 := 128
       let k : Fin 8 := 7
       let s : State := at0 fun c => c.setBit R.SOUT_STAT 7 true
       (May w R.SOUT_CMD s) ∧ (nbit m.toNat k = true) ∧ (s.chip.bit R.SOUT_STAT k = true) ∧ ((s.chip.sout k).pulse = none) ∧ (k.val <
          s.chip.safe.sout.length))
    ∧ (let s : State := State.reset
       (s.chip.powered = true))
    ∧ (let k : Fin 8 := 7
       let rb : Fin 3 := 2
       let s : State := State.reset
       (s.chip.powered = true) ∧ ((s.chip.sout k).settle = false) ∧ ((s.chip.sout k).pulse = none) ∧ (rb.val ≠ b2n (s.chip.bit R.SOUT_STAT k))) := by decide +kernel

/-- States and operands that meet the hypotheses of SafetyOutputCommands (part 2). -/
theorem witness_SafetyOutputCommands_2 :
      (let s : State := at0 fun c => c.updSout 7 fun x => { x with trip := true }
       (s.chip.powered = true))
    ∧ (let w : Writer := host
       let s : State := at0 fun c => { c with mode := .ready }
       (May w R.SHD_CMD s) ∧ (s.chip.is R.SHD_STAT F.SHD_STAT_LATCH = false) ∧ (s.chip.mode ≠ .boot) ∧ (s.chip.mode ≠ .replay))
    ∧ (let w : Writer := host
       let s : State := at0 id
       (May w R.SHD_CMD s) ∧ (s.chip.is R.SHD_STAT F.SHD_STAT_LATCH = true ∨ s.chip.mode = .boot ∨ s.chip.mode = .replay))
    ∧ (let w : Writer := host
       let s : State := at0 id
       (May w R.SHD_CMD s)) := by decide +kernel

/-- States and operands that meet the hypotheses of SafeMessageCommands (part 1). -/
theorem witness_SafeMessageCommands_1 :
      (let k : Fin 8 := 7
       let s : State := at0 fun c => ({ c with mode := .safe } : Chip).flag (R.SCFG_TX_A 7) F.SCFG_TX_A_EN true
       (s.chip.powered = true) ∧ (s.chip.mode = .ready ∨ s.chip.mode = .run ∨ s.chip.mode = .degraded ∨ s.chip.mode = .safe) ∧ (s.chip.is
          (R.SCFG_TX_A k) F.SCFG_TX_A_EN = true))
    ∧ (let s : State := at0 fun c => { c.flag (R.SCFG_TX_A 7) F.SCFG_TX_A_EN true with safe := { c.safe with injectDue := true } }
       (s.chip.powered = true) ∧ (s.chip.safe.injectDue = true))
    ∧ (let p : Packet := pkt 0x08 5 [0, 1, 0, 0, 0, 0, 0, 0]
       let k : Nat := 7
       let s : State := at0 fun c => (c.flag (R.SCFG_RX_A 7) F.SCFG_RX_A_EN true).setF (R.SCFG_RX_A 7) F.SCFG_RX_A_SRC 5
       (s.chip.powered = true) ∧ (s.chip.time.gated = false) ∧ (s.chip.admitted p = none) ∧ (k < 8) ∧ (s.chip.is (R.SCFG_RX_A k) F.SCFG_RX_A_EN
          = true) ∧ ((∀ j < 8, j ≠ k → s.chip.is (R.SCFG_RX_A j) F.SCFG_RX_A_EN = false)) ∧ (s.chip.f (R.SCFG_RX_A k) F.SCFG_RX_A_SRC =
          p.src.toNat) ∧ (s.chip.f (R.SCFG_RX_B k) F.SCFG_RX_B_CONN_ID = p.w 0 / 2 ^ 16) ∧ (p.w 7 ≠ safeCrc (s.chip.rdN
          R.SCFG_SCOM_SEED) ((List.range 8).map p.w))) := by decide +kernel

/-- States and operands that meet the hypotheses of SafeMessageCommands (part 2). -/
theorem witness_SafeMessageCommands_2 :
      (let p : Packet := pkt 0x08 5 [0, 1, 0, 0, 0, 9, 0, BitVec.ofNat 32 (safeCrc (State.reset.chip.rdN R.SCFG_SCOM_SEED) [0, 1, 0, 0, 0, 9, 0, 0])]
       let k : Nat := 7
       let s : State := at0 fun c => (c.flag (R.SCFG_RX_A 7) F.SCFG_RX_A_EN true).setF (R.SCFG_RX_A 7) F.SCFG_RX_A_SRC 5
       (s.chip.powered = true) ∧ (s.chip.time.gated = false) ∧ (s.chip.admitted p = none) ∧ (k < 8) ∧ (s.chip.running = false) ∧ (s.chip.is
          (R.SCFG_RX_A k) F.SCFG_RX_A_EN = true) ∧ ((∀ j < 8, j ≠ k → s.chip.is (R.SCFG_RX_A j) F.SCFG_RX_A_EN = false)) ∧ (s.chip.f
          (R.SCFG_RX_A k) F.SCFG_RX_A_SRC = p.src.toNat) ∧ (s.chip.f (R.SCFG_RX_B k) F.SCFG_RX_B_CONN_ID = p.w 0 / 2 ^ 16) ∧ (p.w 7 =
          safeCrc (s.chip.rdN R.SCFG_SCOM_SEED) ((List.range 8).map p.w)) ∧ (((p.w64 2 : Int) - (s.chip.htNs : Int)).natAbs ≤ s.chip.f
          (R.SCFG_RX_B k) F.SCFG_RX_B_WDOG_MS * 10 ^ 6) ∧ (1 ≤ (p.w 1 + 2 ^ 32 - (s.chip.rxc k).last) % 2 ^ 32) ∧ ((p.w 1 + 2 ^ 32 -
          (s.chip.rxc k).last) % 2 ^ 32 < 2 ^ 31))
    ∧ (let k : Fin 8 := 7
       let s : State := at0 fun c => (({ c with mode := .run } : Chip).flag (R.SCFG_RX_A 7) F.SCFG_RX_A_EN true).flag (R.SCFG_RX_A 7) F.SCFG_RX_A_ACT_TMO false
       (s.chip.powered = true) ∧ (s.chip.running = true) ∧ (s.chip.is (R.SCFG_RX_A k) F.SCFG_RX_A_EN = true) ∧ (s.chip.is (R.SCFG_RX_A k)
          F.SCFG_RX_A_ACT_TMO = false))
    ∧ (let s : State := State.reset
       (s.chip.powered = true))
    ∧ (let k : Fin 8 := 7
       let silent : Fin 2 := 1
       let s : State := at0 fun c => (c.flag (R.SCFG_RX_A 7) F.SCFG_RX_A_EN true).flag (R.SCOM_RX_STAT 7) F.SCOM_RX_STAT_A_OK true
       (s.chip.powered = true) ∧ (s.chip.is (R.SCFG_RX_A k) F.SCFG_RX_A_EN = true) ∧ (s.chip.is (R.SCOM_RX_STAT k) (if silent.val = 0 then
          F.SCOM_RX_STAT_B_OK else F.SCOM_RX_STAT_A_OK) = true))
    ∧ (let s : State := State.reset
       (s.chip.powered = true)) := by decide +kernel

/-- States and operands that meet the hypotheses of StateRequestCommands (part 1). -/
theorem witness_StateRequestCommands_1 :
      (let w : Writer := host
       let s : State := at0 fun c => ((({ c with mode := .ready, crc := [(P.SCFG, 7)] } : Chip).setF R.SIN_STAT F.SIN_STAT_PERMISSIVE 0xFF).setF R.SOUT_STAT F.SOUT_STAT_PASSED 0xFF).wr R.SHD_SEALED_CRC 7
       (May w R.SYS_STATE_REQ s) ∧ (s.chip.mode = .ready) ∧ (s.chip.anyFrozen = false) ∧ (s.chip.permit = true))
    ∧ (let w : Writer := host
       let s : State := at0 fun c => { c with mode := .ready }
       (May w R.SYS_STATE_REQ s) ∧ (s.chip.mode = .ready) ∧ (s.chip.anyFrozen = false) ∧ (s.chip.permit = false))
    ∧ (let w : Writer := host
       let s : State := at0 fun c => { c with mode := .run }
       (May w R.SYS_STATE_REQ s) ∧ (s.chip.running = true))
    ∧ (let w : Writer := host
       let s : State := at0 id
       (May w R.SYS_STATE_REQ s) ∧ (s.chip.running = false))
    ∧ (let w : Writer := host
       let s : State := at0 fun c => ({ c with mode := .safe } : Chip).flag R.SHD_STAT F.SHD_STAT_LATCH true
       (May w R.SYS_STATE_REQ s) ∧ (s.chip.mode = .safe) ∧ (s.chip.causesSeen.all recoverable = true) ∧ (s.chip.causesSeen.all
          s.chip.causeClear = true))
    ∧ (let w : Writer := host
       let s : State := at0 fun c => ({ c with mode := .safe } : Chip).wr R.SHD_CAUSES_SEEN 0x80
       (May w R.SYS_STATE_REQ s) ∧ (s.chip.mode = .safe) ∧ (s.chip.causesSeen.all recoverable = false)) := by decide +kernel

/-- States and operands that meet the hypotheses of StateRequestCommands (part 2). -/
theorem witness_StateRequestCommands_2 :
      (let w : Writer := host
       let s : State := at0 fun c => ({ c with mode := .ready } : Chip).setF R.LAP_STAT F.LAP_STAT_STATE Ls.frozen
       (May w R.SYS_STATE_REQ s) ∧ (s.chip.mode = .ready) ∧ (s.chip.safe.sgr = false) ∧ (s.chip.lapState = Ls.frozen ∨ s.chip.lapState =
          Ls.importing))
    ∧ (let w : Writer := host
       let s : State := at0 id
       (May w R.SYS_STATE_REQ s))
    ∧ (let w : Writer := host
       let s : State := at0 id
       (May w R.SYS_STATE_REQ s))
    ∧ (let w : Writer := host
       let s : State := at0 id
       (May w R.SYS_STATE_REQ s))
    ∧ (let w : Writer := host
       let s : State := at0 id
       (May w R.SYS_STATE_REQ s))
    ∧ (let w : Writer := host
       let s : State := at0 id
       (May w R.SYS_STATE_REQ s)) := by decide +kernel

/-- States and operands that meet the hypotheses of SealCredentialLogCommands (part 1). -/
theorem witness_SealCredentialLogCommands_1 :
      (let w : Writer := host
       let s : State := at0 id
       (May w R.SHD_CMD s))
    ∧ (let w : Writer := host
       let t0 : Nat := 0
       let s : State := at0 fun c => c.updShd fun x => { x with sealOpen := true, chalAt := some 0 }
       (May w R.SHD_CMD s) ∧ (s.chip.shd.sealOpen = true) ∧ (s.chip.shd.chalAt = some t0) ∧ (s.chip.htNs < t0 + 600 * 10 ^ 9) ∧ (s.chip.is
          R.SHD_CRED_STAT F.SHD_CRED_STAT_BUSY = false))
    ∧ (let s : State := at0 fun c => c.flag R.SHD_CRED_STAT F.SHD_CRED_STAT_BUSY true
       (s.chip.powered = true) ∧ (s.chip.is R.SHD_CRED_STAT F.SHD_CRED_STAT_BUSY = true))
    ∧ (let w : Writer := host
       let s : State := at0 fun c => (c.flag R.SHD_CRED_STAT F.SHD_CRED_STAT_ACTIVE true).wr R.SHD_CRED_ID 5
       (May w R.SHD_CMD s) ∧ (s.chip.is R.SHD_CRED_STAT F.SHD_CRED_STAT_ACTIVE = true))
    ∧ (let s : State := at0 fun c => (c.flag R.SHD_CRED_STAT F.SHD_CRED_STAT_ACTIVE true).wr R.SHD_CRED_ID 5
       (s.chip.powered = true) ∧ (s.chip.is R.SHD_CRED_STAT F.SHD_CRED_STAT_ACTIVE = true))
    ∧ (let isOpen : Bool := true
       let s : State := State.reset
       (s.chip.mode ≠ .off) ∧ (s.chip.shd.sealOpen ≠ isOpen)) := by decide +kernel

/-- States and operands that meet the hypotheses of SealCredentialLogCommands (part 2). -/
theorem witness_SealCredentialLogCommands_2 :
      (let s : State := at0 fun c => ({ c with crc := [(P.SCFG, 7)] } : Chip).updShd fun x => { x with sealDue := true }
       (s.chip.powered = true) ∧ (s.chip.shd.sealDue = true) ∧ (s.chip.crcBusy.contains P.SCFG = false))
    ∧ (let e : LogEntry := ⟨1, 0, 0, 0, 0, 0, List.replicate 32 0⟩
       let r : List LogEntry := []
       let s : State := at0 fun c => { c.flag R.SCFG_LOG_CFG F.SCFG_LOG_CFG_EN true with safe := { c.safe with log := [⟨1, 0, 0, 0, 0, 0, List.replicate 32 0⟩] } }
       (s.chip.powered = true) ∧ (s.chip.is R.SCFG_LOG_CFG F.SCFG_LOG_CFG_EN = true) ∧ (s.chip.safe.survLog = []) ∧ (s.chip.safe.log = e :: r)
          ∧ (s.chip.safe.lostDue = 0)) := by decide +kernel

/-- States and operands that meet the hypotheses of TwinCommands (part 1). -/
theorem witness_TwinCommands_1 :
      (let t0 : Bool := false
       let e : RbEnt := ⟨.reg, 0, 0, 0, 0, false⟩
       let s : State := at0 fun c => (c.setTw false 1).updTwin false fun x => { x with rb := [⟨.reg, 0, 0, 0, 0, false⟩] }
       (Awake P.DCU s) ∧ (s.chip.twRuns t0 = true) ∧ ((s.chip.twin t0).inj = 0) ∧ (s.chip.rbNext t0 = some e))
    ∧ (let t0 : Bool := false
       let e : RbEnt := ⟨.reg, 0, 0, 0, 0, false⟩
       let s : State := at0 fun c => (c.setTw false 1).updTwin false fun x => { x with rb := [⟨.reg, 0, 0, 0, 0, false⟩] }
       (Awake P.DCU s) ∧ (s.chip.twRuns t0 = true) ∧ ((s.chip.twin t0).inj = 0) ∧ (s.chip.rbNext t0 = some e))
    ∧ (let t0 : Bool := false
       let s : State := at0 fun c => c.setTw false 1
       (s.chip.powered = true) ∧ (s.chip.time.gated = false) ∧ (s.chip.twRuns t0 = true) ∧ ((s.chip.twin t0).inj = 0))
    ∧ (let t0 : Bool := false
       let s : State := at0 fun c => c.setTw false 1
       (s.chip.powered = true) ∧ (s.chip.time.gated = false) ∧ (s.chip.twRuns t0 = true) ∧ ((s.chip.twin t0).inj = 0))
    ∧ (let t0 : Bool := false
       let s : State := at0 fun c => (c.setTw false 1).updTwin false fun x => { x with cks := 199 }
       (s.chip.powered = true) ∧ (s.chip.time.gated = false) ∧ (s.chip.twRuns t0 = true) ∧ ((s.chip.twin t0).inj = 0) ∧ (199 ≤ (s.chip.twin
          t0).cks) ∧ ((s.chip.twin t0).warm = false))
    ∧ (let t0 : Bool := true
       let s : State := at0 fun c => (c.setTw true 3).wr (R.TWN_DEEP 1 0) 9
       (s.chip.powered = true) ∧ (s.chip.time.gated = false) ∧ (s.chip.twState t0 = Tw.restoring)) := by decide +kernel

/-- States and operands that meet the hypotheses of TwinCommands (part 2). -/
theorem witness_TwinCommands_2 :
      (let t0 : Bool := true
       let s : State := at0 id
       (Awake P.DCU s) ∧ ((s.chip.twin t0).inj ≠ 4))
    ∧ (let xd : Bool := true
       let yd : Bool := false
       let xe : Bool := false
       let ye : Bool := false
       let s : State := at0 id
       (Awake P.DCU s) ∧ ((xd && yd && !xe && !ye) = false))
    ∧ (let s : State := at0 id
       (Awake P.DCU s))
    ∧ (let w : Writer := host
       let s : State := at0 fun c => { c with mode := .ready }
       (May w R.DCU_CMD s) ∧ (s.chip.mode = .ready ∨ s.chip.mode = .safe ∨ s.chip.mode = .replay))
    ∧ (let w : Writer := host
       let s : State := at0 fun c => { c with mode := .ready }
       (May w R.DCU_CMD s) ∧ (s.chip.mode = .ready ∨ s.chip.mode = .safe ∨ s.chip.mode = .replay))
    ∧ (let w : Writer := host
       let s : State := at0 fun c => { c with mode := .ready }
       (May w R.DCU_CMD s) ∧ (s.chip.mode = .ready ∨ s.chip.mode = .safe ∨ s.chip.mode = .replay)) := by decide +kernel

/-- States and operands that meet the hypotheses of TwinCommands (part 3). -/
theorem witness_TwinCommands_3 :
      (let w : Writer := host
       let s : State := at0 fun c => { c with mode := .ready }
       (May w R.DCU_CMD s) ∧ (s.chip.mode = .ready ∨ s.chip.mode = .safe ∨ s.chip.mode = .replay)) := by decide +kernel

/-- States and operands that meet the hypotheses of ResetCommands. -/
theorem witness_ResetCommands :
      (let w : Writer := host
       let s : State := at0 fun c => { c with mode := .ready }
       (May w R.SYS_RST_CTL s))
    ∧ (let s : State := at0 fun c => { c with mode := .run }
       (s.chip.powered = true)) := by decide +kernel

/-- States and operands that meet the hypotheses of StartCommands (part 1). -/
theorem witness_StartCommands_1 :
      (let s : State := at0 fun c => (c.flag R.CLK_STAT F.CLK_STAT_LOCK true).updBoot fun b => { b with cold := false }
       (s.chip.bootAt 3 = true) ∧ (s.chip.is R.CLK_STAT F.CLK_STAT_LOCK = true) ∧ (s.chip.boot.cold = false))
    ∧ (let s : State := at0 fun c => c.flag R.CLK_STAT F.CLK_STAT_LOCK true
       (s.chip.bootAt 3 = true) ∧ (s.chip.is R.CLK_STAT F.CLK_STAT_LOCK = true) ∧ (s.chip.boot.cold = true))
    ∧ (let readOk : Bool := true
       let sigOk : Bool := false
       let img : Nat := 0
       let r : List Nat := [1]
       let s : State := ({ (at0 id) with mem := { State.reset.mem with flashA := [(0, 73), (1, 71), (2, 1), (3, 0), (4, 2), (5, 0), (6, 0), (7, 0), (8, 5), (9, 0), (10, 0), (11, 0), (12, 80), (13, 0), (14, 0), (15, 0), (16, 0), (17, 0), (18, 0), (19, 0), (20, 0), (21, 0), (22, 0), (23, 0), (24, 0), (25, 0), (26, 0), (27, 0), (28, 0), (29, 0), (30, 0), (31, 0), (32, 1), (33, 0), (34, 0), (35, 0), (36, 0), (37, 0), (38, 0), (39, 0), (40, 0), (41, 0), (42, 0), (43, 0), (44, 0), (45, 0), (46, 0), (47, 0), (48, 0), (49, 0), (50, 0), (51, 0), (52, 0), (53, 0), (54, 0), (55, 0), (56, 0), (57, 0), (58, 0), (59, 0), (60, 0), (61, 0), (62, 0), (63, 0), (64, 4), (65, 0), (66, 0), (67, 0), (68, 80), (69, 0), (70, 0), (71, 0), (72, 0), (73, 0), (74, 0), (75, 0), (76, 0), (77, 0), (78, 0), (79, 0), (176, 0)] } } : State).onChip fun c => c.updBoot fun b => { b with step := 4, order := [0, 1] }
       (s.chip.bootAt 4 = true) ∧ (s.chip.boot.wait = false) ∧ (s.chip.boot.order = img :: r) ∧ ((s.imgCheck img readOk sigOk).1 = 0)) := by decide +kernel

/-- States and operands that meet the hypotheses of StartCommands (part 2). -/
theorem witness_StartCommands_2 :
      (let readOk : Bool := false
       let sigOk : Bool := false
       let img : Nat := 1
       let x : Nat := 0
       let r : List Nat := []
       let s : State := at0 fun c => c.updBoot fun b => { b with step := 4, order := [1, 0] }
       (s.chip.bootAt 4 = true) ∧ (s.chip.boot.wait = false) ∧ (s.chip.boot.order = img :: x :: r) ∧ (img < 2) ∧ ((s.imgCheck img readOk
          sigOk).1 ≠ 0))
    ∧ (let readOk : Bool := false
       let sigOk : Bool := false
       let img : Nat := 1
       let s : State := at0 fun c => c.updBoot fun b => { b with step := 4, order := [1] }
       (s.chip.bootAt 4 = true) ∧ (s.chip.boot.wait = false) ∧ (s.chip.boot.order = [img]) ∧ ((s.imgCheck img readOk sigOk).1 ≠ 0))
    ∧ (let w : Writer := ⟨.host, 0⟩
       let s : State := at0 fun c => c.updBoot fun b => { b with step := 4, wait := true }
       (May w R.BOOT_CMD s) ∧ (w.ini = .host) ∧ (s.chip.bootAt 4 = true) ∧ (s.chip.boot.wait = true))
    ∧ (let w : Writer := host
       let s : State := at0 id
       (May w R.BOOT_CMD s) ∧ ((s.chip.bootAt 4 && s.chip.boot.wait && decide (w.ini = .host)) = false))
    ∧ (let s : State := at0 fun c => c.updBoot fun b => { b with step := 4, wait := true, order := [2] }
       (s.chip.powered = true) ∧ (s.chip.time.gated = false) ∧ (s.chip.bootAt 4 = true) ∧ (s.chip.boot.wait = true) ∧ (s.chip.boot.order = [2]))
    ∧ (let s : State := at0 fun c => c.updBoot fun b => { b with step := 7 }
       (s.chip.powered = true) ∧ (s.chip.bootAt 7 = true) ∧ (s.chip.is R.BOOT_STAT F.BOOT_STAT_PWM_READY = false) ∧ (s.chip.meas.cal.all
          (·.isEmpty) = true) ∧ (s.chip.meas.tests = []) ∧ ((∀ n < 16, s.chip.f (R.ACMP_CH_CFG n) F.ACMP_CH_CFG_MODE = 0 ∨ s.chip.is
          (R.ACMP_CH_STAT n) F.ACMP_CH_STAT_ST_PASS = true)) ∧ (s.chip.is R.BOOT_STAT F.BOOT_STAT_ALIVE_A = false ∨ s.chip.is
          R.BOOT_STAT F.BOOT_STAT_ALIVE_B = false)) := by decide +kernel

/-- States and operands that meet the hypotheses of StartCommands (part 3). -/
theorem witness_StartCommands_3 :
      (let s : State := at0 fun c => ((c.updBoot fun b => { b with step := 7 }).flag R.BOOT_STAT F.BOOT_STAT_ALIVE_A true).flag R.BOOT_STAT F.BOOT_STAT_ALIVE_B true
       (s.chip.powered = true) ∧ (s.chip.bootAt 7 = true) ∧ (s.chip.is R.BOOT_STAT F.BOOT_STAT_PWM_READY = false) ∧ (s.chip.meas.cal.all
          (·.isEmpty) = true) ∧ (s.chip.meas.tests = []) ∧ ((∀ n < 16, s.chip.f (R.ACMP_CH_CFG n) F.ACMP_CH_CFG_MODE = 0 ∨ s.chip.is
          (R.ACMP_CH_STAT n) F.ACMP_CH_STAT_ST_PASS = true)) ∧ (s.chip.is R.BOOT_STAT F.BOOT_STAT_ALIVE_A = true) ∧ (s.chip.is
          R.BOOT_STAT F.BOOT_STAT_ALIVE_B = true) ∧ (s.chip.mode = .boot) ∧ (s.chip.is R.SHD_STAT F.SHD_STAT_LATCH = false))
    ∧ (let w : Writer := ⟨.twinB, 0⟩
       let x : Bool := true
       let s : State := at0 id
       (May w R.BOOT_CMD s) ∧ (w.ini = (if x then Initiator.twinB else Initiator.twinA)) ∧ (s.chip.is R.BOOT_STAT F.BOOT_STAT_PWM_READY =
          false))
    ∧ (let w : Writer := ⟨.host, 0⟩
       let s : State := at0 id
       (May w R.BOOT_CMD s) ∧ (w.ini ≠ .twinA) ∧ (w.ini ≠ .twinB))
    ∧ (let w : Writer := host
       let s : State := at0 fun c => (c.setF R.BOOT_STAT F.BOOT_STAT_CODE_A 1).setF R.BOOT_STAT F.BOOT_STAT_CODE_B 1
       (May w R.BOOT_CMD s) ∧ (w.ini = .twinA ∨ w.ini = .twinB) ∧ (s.chip.f R.BOOT_STAT F.BOOT_STAT_CODE_A = s.chip.f R.BOOT_STAT
          F.BOOT_STAT_CODE_B) ∧ (s.chip.f R.BOOT_STAT F.BOOT_STAT_CODE_A < 2))
    ∧ (let w : Writer := host
       let s : State := at0 fun c => (c.setF R.BOOT_STAT F.BOOT_STAT_CODE_A 1).setF R.BOOT_STAT F.BOOT_STAT_CODE_B 0
       (May w R.BOOT_CMD s) ∧ (w.ini = .twinA ∨ w.ini = .twinB) ∧ (s.chip.f R.BOOT_STAT F.BOOT_STAT_CODE_A ≠ s.chip.f R.BOOT_STAT
          F.BOOT_STAT_CODE_B)) := by decide +kernel

/-- States and operands that meet the hypotheses of LiveLoadCommands (part 1). -/
theorem witness_LiveLoadCommands_1 :
      (let w : Writer := host
       let x : Bool := true
       let s : State := at0 fun c => (c.flag R.BOOT_LIVE F.BOOT_LIVE_ARM true).setF R.BOOT_LIVE F.BOOT_LIVE_IMAGE 1
       (May w R.SYS_RST_CTL s) ∧ (s.chip.running = false) ∧ (s.chip.twState x ≠ Tw.restoring) ∧ (s.chip.boot.live = none) ∧ (s.chip.boot.ready
          = none))
    ∧ (let w : Writer := host
       let x : Bool := false
       let s : State := at0 fun c => { c with mode := .run }
       (May w R.SYS_RST_CTL s) ∧ ((s.chip.running = true ∧ s.chip.twState (!x) ≠ Tw.run) ∨ s.chip.boot.live ≠ none ∨ s.chip.boot.ready ≠ none)) := by decide +kernel

/-- States and operands that meet the hypotheses of LiveLoadCommands (part 2). -/
theorem witness_LiveLoadCommands_2 :
      (let readOk : Bool := true
       let sigOk : Bool := false
       let l : Live := ⟨true, 0, false⟩
       let s : State := ({ (at0 id) with mem := { (at0 id).mem with flashA := [(0, 73), (1, 71), (2, 1), (3, 0), (4, 2), (5, 0), (6, 0), (7, 0), (8, 5), (9, 0), (10, 0), (11, 0), (12, 80), (13, 0), (14, 0), (15, 0), (16, 0), (17, 0), (18, 0), (19, 0), (20, 0), (21, 0), (22, 0), (23, 0), (24, 0), (25, 0), (26, 0), (27, 0), (28, 0), (29, 0), (30, 0), (31, 0), (32, 1), (33, 0), (34, 0), (35, 0), (36, 0), (37, 0), (38, 0), (39, 0), (40, 0), (41, 0), (42, 0), (43, 0), (44, 0), (45, 0), (46, 0), (47, 0), (48, 0), (49, 0), (50, 0), (51, 0), (52, 0), (53, 0), (54, 0), (55, 0), (56, 0), (57, 0), (58, 0), (59, 0), (60, 0), (61, 0), (62, 0), (63, 0), (64, 4), (65, 0), (66, 0), (67, 0), (68, 80), (69, 0), (70, 0), (71, 0), (72, 0), (73, 0), (74, 0), (75, 0), (76, 0), (77, 0), (78, 0), (79, 0), (176, 0)] } } : State).onChip fun c => c.updBoot fun b => { b with live := some ⟨true, 0, false⟩ }
       (s.chip.powered = true) ∧ (s.chip.time.gated = false) ∧ (s.chip.boot.live = some l) ∧ ((s.imgCheck l.img readOk sigOk).1 = 0) ∧ (Im.priv
          (s.imgByte l.img) l.twin false = s.chip.rd (R.TWN_PRIV_S (b2n l.twin))) ∧ (Im.priv (s.imgByte l.img) l.twin true = s.chip.rd
          (R.TWN_PRIV_D (b2n l.twin))) ∧ (s.chip.rd R.SHD_SEALED_CRC = 0))
    ∧ (let readOk : Bool := false
       let sigOk : Bool := false
       let l : Live := ⟨true, 1, false⟩
       let s : State := at0 fun c => c.updBoot fun b => { b with live := some ⟨true, 1, false⟩ }
       (s.chip.powered = true) ∧ (s.chip.time.gated = false) ∧ (s.chip.boot.live = some l) ∧ ((s.imgCheck l.img readOk sigOk).1 ≠ 0)) := by decide +kernel

/-- States and operands that meet the hypotheses of LiveLoadCommands (part 3). -/
theorem witness_LiveLoadCommands_3 :
      (let l : Live := ⟨true, 0, false⟩
       let s : State := at0 fun c => (c.setTw true 1).updBoot fun b => { b with ready := some ⟨true, 0, false⟩ }
       (s.chip.powered = true) ∧ (s.chip.time.gated = false) ∧ (s.chip.boot.ready = some l) ∧ ((s.chip.twin l.twin).rb = []) ∧ (s.chip.twState
          l.twin ≠ Tw.halted))
    ∧ (let x : Bool := true
       let s : State := at0 fun c => c.flag R.BOOT_STAT F.BOOT_STAT_ALIVE_B true
       (s.chip.powered = true) ∧ (s.chip.time.gated = false) ∧ (s.chip.is R.BOOT_STAT (aliveFld x) = true))
    ∧ (let x : Bool := true
       let old : Nat := 1
       let s : State := at0 fun c => c.updBoot fun b => { b with before := [none, some 1] }
       (s.chip.powered = true) ∧ (s.chip.time.gated = false) ∧ (s.chip.is R.BOOT_STAT (aliveFld x) = false) ∧ (nth s.chip.boot.before (b2n x)
          none = some old) ∧ (old ≠ 3))
    ∧ (let x : Bool := true
       let s : State := at0 fun c => c.updBoot fun b => { b with before := [none, some 3] }
       (s.chip.powered = true) ∧ (s.chip.time.gated = false) ∧ (s.chip.is R.BOOT_STAT (aliveFld x) = false) ∧ (nth s.chip.boot.before (b2n x)
          none = some 3))
    ∧ (let x : Bool := true
       let y : Nat := 1
       let r : List Nat := []
       let s : State := at0 fun c => c.updBoot fun b => { b with step := 7, order := [0, 1] }
       (s.chip.powered = true) ∧ (s.chip.time.gated = false) ∧ (s.chip.is R.BOOT_STAT (aliveFld x) = false) ∧ (nth s.chip.boot.before (b2n x)
          none = none) ∧ (s.chip.bootAt 7 = true) ∧ (s.chip.boot.order = s.chip.boot.img :: y :: r)) := by decide +kernel

/-- States and operands that meet the hypotheses of FlashAndSecurityCommands (part 1). -/
theorem witness_FlashAndSecurityCommands_1 :
      (let w : Writer := host
       let op : BitVec 8 := 0x9F
       let b : Bool := false
       let s : State := at0 id
       (May w R.BOOT_FL_CTL s) ∧ (w.ini = .twinA ∨ w.ini = .twinB) ∧ (s.chip.f R.BOOT_STAT F.BOOT_STAT_SOURCE ≠ b2n b ∨ op.toNat ∈ [0x03, 0x05,
          0x0B, 0x6C, 0x9F]) ∧ (s.chip.boot.flash = none))
    ∧ (let w : Writer := host
       let op : BitVec 8 := 0xD8
       let b : Bool := false
       let s : State := at0 id
       (May w R.BOOT_FL_CTL s) ∧ ((w.ini ≠ .twinA ∧ w.ini ≠ .twinB) ∨ (s.chip.f R.BOOT_STAT F.BOOT_STAT_SOURCE = b2n b ∧ op.toNat ∉ [0x03,
          0x05, 0x0B, 0x6C, 0x9F])))
    ∧ (let f : FlashCmd := ⟨0x9F, true, false, false, 0, 2, 0⟩
       let s : State := at0 fun c => c.updBoot fun b => { b with flash := some ⟨0x9F, true, false, false, 0, 2, 0⟩ }
       (s.chip.powered = true) ∧ (s.chip.time.gated = false) ∧ (s.chip.boot.flash = some f))
    ∧ (let w : Writer := host
       let s : State := at0 id
       (May w R.SEC_CMD s) ∧ (s.chip.boot.sec = none))
    ∧ (let w : Writer := host
       let s : State := at0 fun c => c.updBoot fun b => { b with idMade := true }
       (May w R.SEC_CMD s) ∧ (s.chip.boot.sec = none) ∧ (s.chip.boot.idMade = true))
    ∧ (let w : Writer := host
       let s : State := at0 id
       (May w R.SEC_CMD s) ∧ (s.chip.boot.sec = none)) := by decide +kernel

/-- States and operands that meet the hypotheses of FlashAndSecurityCommands (part 2). -/
theorem witness_FlashAndSecurityCommands_2 :
      (let w : Writer := host
       let s : State := at0 id
       (May w R.SEC_CMD s) ∧ (s.chip.boot.sec = none))
    ∧ (let w : Writer := host
       let s : State := at0 fun c => (c.flag R.BOOT_STAT F.BOOT_STAT_TRIAL false).setF R.BOOT_STAT F.BOOT_STAT_CODE_A (c.f R.BOOT_STAT F.BOOT_STAT_CODE_B)
       (May w R.SEC_CMD s) ∧ (s.chip.boot.sec = none) ∧ (s.chip.is R.BOOT_STAT F.BOOT_STAT_TRIAL = false) ∧ (s.chip.f R.BOOT_STAT
          F.BOOT_STAT_CODE_A = s.chip.f R.BOOT_STAT F.BOOT_STAT_CODE_B))
    ∧ (let w : Writer := host
       let s : State := at0 id
       (May w R.SEC_CMD s) ∧ (s.chip.boot.sec = none) ∧ (s.chip.boot.idMade = false) ∧ (s.mem.lcOpen = true))
    ∧ (let w : Writer := host
       let s : State := at0 fun c => { c with mode := .ready }
       (May w R.SEC_CMD s) ∧ (s.chip.boot.sec = none) ∧ (s.chip.mode = .ready))
    ∧ (let w : Writer := host
       let s : State := at0 id
       (May w R.SEC_CMD s) ∧ (s.chip.boot.sec = none) ∧ (s.chip.mode ≠ .ready))
    ∧ (let op : Nat := 3
       let arg : Nat := 0
       let ptr : Nat := 0
       let s : State := at0 fun c => c.updBoot fun b => { b with sec := some (3, 0, 0) }
       (s.chip.powered = true) ∧ (s.chip.time.gated = false) ∧ (s.chip.boot.sec = some (op, arg, ptr))) := by decide +kernel

/-- States and operands that meet the hypotheses of FlashAndSecurityCommands (part 3). -/
theorem witness_FlashAndSecurityCommands_3 :
      (let slot : Nat := 3
       let ptr : Nat := 0
       let s : State := at0 fun c => c.updBoot fun b => { b with sec := some (7, 3, 0) }
       (s.chip.powered = true) ∧ (s.chip.time.gated = false) ∧ (s.chip.boot.sec = some (7, slot, ptr)) ∧ (slot < 4))
    ∧ (let w : Writer := host
       let k : BitVec 9 := 16
       let s : State := at0 fun c => { c with mode := .ready }
       (May w R.OTP_CMD s) ∧ ((w.ini = .twinA ∨ w.ini = .twinB) ∧ s.chip.mode = .ready ∧ s.chip.is R.VAUX_STAT F.VAUX_STAT_EW = false ∧
          s.mem.otpOpen k.toNat = true ∧ s.chip.boot.otp = none))
    ∧ (let w : Writer := host
       let k : BitVec 9 := 511
       let s : State := at0 id
       (May w R.OTP_CMD s) ∧ (¬ ((w.ini = .twinA ∨ w.ini = .twinB) ∧ s.chip.mode = .ready ∧ s.chip.is R.VAUX_STAT F.VAUX_STAT_EW = false ∧
          s.mem.otpOpen k.toNat = true ∧ s.chip.boot.otp = none)))
    ∧ (let k : Nat := 16
       let data : Nat := 7
       let old : Nat := 0
       let s : State := at0 fun c => c.updBoot fun b => { b with otp := some (16, 7, 0) }
       (s.chip.powered = true) ∧ (s.chip.time.gated = false) ∧ (s.chip.boot.otp = some (k, data, old)))
    ∧ (let ok : Bool := true
       let rights : BitVec 8 := 255
       let s : State := { (at0 id) with mem := { (at0 id).mem with otp := [(0, 1)] } }
       (s.chip.powered = true) ∧ (s.chip.time.gated = false) ∧ (s.mem.lcOpen = false) ∧ (ok = true) ∧ (nbit rights.toNat 1 = true))
    ∧ (let ok : Bool := true
       let rights : BitVec 8 := 0
       let s : State := State.reset
       (ok = false ∨ nbit rights.toNat 1 = false ∨ s.mem.lcOpen = true)) := by decide +kernel

/-- States and operands that meet the hypotheses of MemoryServiceCommands (part 1). -/
theorem witness_MemoryServiceCommands_1 :
      (let ofs : BitVec 29 := 17
       let s : State := at0 id
       (s.chip.powered = true) ∧ (s.chip.time.gated = false) ∧ (ofs.toNat / 8 * 8 + 8 ≤ sramSize))
    ∧ (let ofs : BitVec 29 := 17
       let s : State := at0 id
       (s.chip.powered = true) ∧ (s.chip.time.gated = false) ∧ (ofs.toNat / 8 * 8 + 8 ≤ dramSize))
    ∧ (let w : Writer := ⟨.host, 0⟩
       let n : BitVec 4 := 15
       let s : State := at0 fun c => c.flag R.HPT_CTL F.HPT_CTL_MEM_EN true
       (May w R.HPT_MEM_CMD s) ∧ (w.ini = .host) ∧ (s.chip.boot.copy = none) ∧ (s.chip.hostMayCopy (s.chip.is R.HPT_MEM_ADDR
          F.HPT_MEM_ADDR_SPACE, s.chip.f R.HPT_MEM_ADDR F.HPT_MEM_ADDR_OFS, 4 * (n.toNat + 1)) = true))
    ∧ (let w : Writer := ⟨.host, 0⟩
       let n : BitVec 4 := 15
       let s : State := at0 fun c => c.flag R.HPT_CTL F.HPT_CTL_MEM_EN false
       (May w R.HPT_MEM_CMD s) ∧ (w.ini = .host) ∧ (s.chip.boot.copy = none) ∧ (s.chip.hostMayCopy (s.chip.is R.HPT_MEM_ADDR
          F.HPT_MEM_ADDR_SPACE, s.chip.f R.HPT_MEM_ADDR F.HPT_MEM_ADDR_OFS, 4 * (n.toNat + 1)) = false))
    ∧ (let w : Writer := ⟨.host, 0⟩
       let n : BitVec 4 := 15
       let s : State := at0 fun c => c.flag R.HPT_CTL F.HPT_CTL_MEM_EN true
       (May w R.HPT_MEM_CMD s) ∧ (w.ini = .host) ∧ (s.chip.boot.copy = none) ∧ (s.chip.hostMayCopy (s.chip.is R.HPT_MEM_ADDR
          F.HPT_MEM_ADDR_SPACE, s.chip.f R.HPT_MEM_ADDR F.HPT_MEM_ADDR_OFS, 4 * (n.toNat + 1)) = true))
    ∧ (let w : Writer := ⟨.host, 0⟩
       let n : BitVec 4 := 15
       let s : State := at0 fun c => c.flag R.HPT_CTL F.HPT_CTL_MEM_EN false
       (May w R.HPT_MEM_CMD s) ∧ (w.ini = .host) ∧ (s.chip.boot.copy = none) ∧ (s.chip.hostMayCopy (s.chip.is R.HPT_MEM_ADDR
          F.HPT_MEM_ADDR_SPACE, s.chip.f R.HPT_MEM_ADDR F.HPT_MEM_ADDR_OFS, 4 * (n.toNat + 1)) = false)) := by decide +kernel

/-- States and operands that meet the hypotheses of MemoryServiceCommands (part 2). -/
theorem witness_MemoryServiceCommands_2 :
      (let n : Nat := 16
       let a : Nat := 8
       let s : State := at0 fun c => c.updBoot fun b => { b with copy := some (true, 16, false, 8) }
       (s.chip.powered = true) ∧ (s.chip.time.gated = false) ∧ (s.chip.boot.copy = some (true, n, false, a)) ∧ (a + 4 * n ≤ sramSize))
    ∧ (let n : Nat := 16
       let a : Nat := 8
       let s : State := at0 fun c => c.updBoot fun b => { b with copy := some (false, 16, false, 8) }
       (s.chip.powered = true) ∧ (s.chip.time.gated = false) ∧ (s.chip.boot.copy = some (false, n, false, a)) ∧ (n ≤ 16)) := by decide +kernel

/-- States and operands that meet the hypotheses of MusterElectionCommands (part 1). -/
theorem witness_MusterElectionCommands_1 :
      (let n : Fin 8 := 7
       let s : State := at0 fun c => c.setF (R.LANE_STAT 7) F.LANE_STAT_STATE 5
       (Awake (P.LANE n) s) ∧ (s.chip.laneUp n = true))
    ∧ (let s : State := at0 fun c => ((((c.flag R.MUS_CFG F.MUS_CFG_JOIN true).flag R.FAB_CTL F.FAB_CTL_EN_A true).setF (R.LANE_STAT 3) F.LANE_STAT_STATE 5).updFab fun f => { f with roots := [some ⟨0, 1, true⟩, none] })
       (Awake P.MUS s))
    ∧ (let p : Packet := { pkt 4 5 [1, 0, 7, 0, 9, 0, 0, 0] with vc := 2 }
       let s : State := at0 id
       (s.chip.powered = true) ∧ (s.chip.time.gated = false) ∧ (s.chip.admitted p = none))
    ∧ (let plane : Fin 2 := 1
       let s : State := at0 fun c => ((c.flag R.MUS_CFG F.MUS_CFG_JOIN true).flag R.MUS_CFG F.MUS_CFG_BW_CAPABLE true).flag R.FAB_CTL F.FAB_CTL_EN_B true
       (Awake P.MUS s) ∧ (s.chip.joined plane = true) ∧ (s.chip.anns plane = []) ∧ (s.chip.fab.claim.length = 2) ∧ (s.chip.fab.roots.length =
          2) ∧ (s.chip.fab.seated.length = 2) ∧ (s.chip.is R.MUS_CFG F.MUS_CFG_BW_CAPABLE = true) ∧ (s.chip.root plane = none) ∧
          (s.chip.bellwether = none))
    ∧ (let plane : Fin 2 := 1
       let s : State := at0 fun c => (((c.flag R.MUS_CFG F.MUS_CFG_JOIN true).flag R.MUS_CFG F.MUS_CFG_BW_CAPABLE true).flag R.FAB_CTL F.FAB_CTL_EN_B true).updFab fun f => { f with claim := [false, true] }
       (Awake P.MUS s) ∧ (s.chip.joined plane = true) ∧ (s.chip.anns plane = []) ∧ (s.chip.fab.claim.length = 2) ∧ (s.chip.fab.roots.length =
          2) ∧ (s.chip.fab.seated.length = 2) ∧ (s.chip.rootClaim plane = true)) := by decide +kernel

/-- States and operands that meet the hypotheses of MusterElectionCommands (part 2). -/
theorem witness_MusterElectionCommands_2 :
      (let plane : Fin 2 := 1
       let r : Root := ⟨0, 1, true⟩
       let s : State := at0 fun c => (((c.flag R.MUS_CFG F.MUS_CFG_JOIN true).flag R.MUS_CFG F.MUS_CFG_BW_CAPABLE true).flag R.FAB_CTL F.FAB_CTL_EN_B true).updFab fun f => { f with roots := [none, some ⟨0, 1, true⟩] }
       (Awake P.MUS s) ∧ (s.chip.joined plane = true) ∧ (s.chip.root plane = some r) ∧ (s.chip.rootClaim plane = false) ∧
          (s.chip.fab.roots.length = 2) ∧ (((s.chip.anns plane).all fun x => x.2.isFor r) = true))
    ∧ (let s : State := at0 id
       (s.chip.powered = true) ∧ (s.chip.time.gated = false)) := by decide +kernel

/-- States and operands that meet the hypotheses of MusterMapCommands (part 1). -/
theorem witness_MusterMapCommands_1 :
      (let plane : Fin 2 := 1
       let l : Nat := 3
       let s : State := at0 fun c => c.setLevel 1 3 0
       (Awake P.MUS s) ∧ (s.chip.plevel plane = some l) ∧ (l ≠ 0) ∧ (s.chip.is R.FAB_ID F.FAB_ID_VALID = false))
    ∧ (let p : Packet := { pkt 0x28 0 [0, 0, 0x203, 0, 0, 0, 0, 0, 77, 0, 0x80000005, 0, 0, 0, 0, 0] with vc := 4, cast := 3 }
       let ser : Nat := 77
       let id : Nat := 5
       let s : State := at0 fun c => c.flag R.MUS_STAT F.MUS_STAT_IS_BW true
       (s.chip.powered = true) ∧ (s.chip.time.gated = false) ∧ (s.chip.admitted p = none) ∧ (s.chip.is R.MUS_STAT F.MUS_STAT_IS_BW = true) ∧
          (ser = p.w64 8 % 2 ^ 48) ∧ (id = s.chip.idFor ser (p.w 10)) ∧ (id ≠ 0) ∧ (ser ≠ s.chip.serial))
    ∧ (let p : Packet := { pkt 0x28 0 [0, 0, 0x203, 0, 0, 0, 0, 0] with vc := 4, cast := 3 }
       let s : State := at0 fun c => c.flag R.MUS_STAT F.MUS_STAT_IS_BW false
       (s.chip.powered = true) ∧ (s.chip.time.gated = false) ∧ (s.chip.admitted p = none) ∧ (s.chip.is R.MUS_STAT F.MUS_STAT_IS_BW = false))
    ∧ (let p : Packet := { pkt 0x29 0 [0, 0, 0x303, 0, 0, 0, 0, 0, BitVec.ofNat 32 State.reset.chip.serial, BitVec.ofNat 32 (State.reset.chip.serial / 2 ^ 32), 9, 0, 0, 0, 0, 0] with vc := 3, cast := 3 }
       let s : State := at0 id
       (s.chip.powered = true) ∧ (s.chip.time.gated = false) ∧ (s.chip.admitted p = none) ∧ (p.w64 8 % 2 ^ 48 = s.chip.serial) ∧ (p.w 10 % 2 ^
          15 ≠ 0))
    ∧ (let p : Packet := { pkt 0x29 0 [0, 0, 0x303, 0, 0, 0, 0, 0, BitVec.ofNat 32 State.reset.chip.serial, BitVec.ofNat 32 (State.reset.chip.serial / 2 ^ 32), 0, 0, 0, 0, 0, 0] with vc := 3, cast := 3 }
       let s : State := at0 id
       (s.chip.powered = true) ∧ (s.chip.time.gated = false) ∧ (s.chip.admitted p = none) ∧ (p.w64 8 % 2 ^ 48 = s.chip.serial) ∧ (p.w 10 % 2 ^
          15 = 0)) := by decide +kernel

/-- States and operands that meet the hypotheses of MusterMapCommands (part 2). -/
theorem witness_MusterMapCommands_2 :
      (let l : Nat := 2
       let s : State := at0 fun c => (c.flag R.FAB_ID F.FAB_ID_VALID true).setLevel 0 2 0
       (Awake P.MUS s) ∧ (s.chip.is R.FAB_ID F.FAB_ID_VALID = true) ∧ (s.chip.plevel 0 = some l) ∧ (l ≠ 0) ∧ (s.chip.plevel 1 = none))
    ∧ (let p : Packet := { pkt 0x2A 0 [0, 0, 0x202, 0, 0, 0, 0, 0, 9, 77, 0, 0, 0, 0, 0, 0, 0, 0, 0, 0, 0, 0, 0, 0] with vc := 4, cast := 3 }
       let s : State := at0 fun c => c.flag R.MUS_STAT F.MUS_STAT_IS_BW false
       (s.chip.powered = true) ∧ (s.chip.time.gated = false) ∧ (s.chip.admitted p = none) ∧ (s.chip.is R.MUS_STAT F.MUS_STAT_IS_BW = false))
    ∧ (let p : Packet := { pkt 0x2A 0 [0, 0, 0x202, 0, 0, 0, 0, 0, 9, 77, 0, 0, 0, 0, 0, 0, 0, 0, 0, 0, 0, 0, 0, 0] with vc := 4, cast := 3 }
       let m : Member := ⟨9, 3, 1, 0, 1, 0, []⟩
       let s : State := at0 fun c => (c.flag R.MUS_STAT F.MUS_STAT_IS_BW true).updFab fun f => { f with members := [⟨9, 3, 1, 0, 1, 0, []⟩] }
       (s.chip.powered = true) ∧ (s.chip.time.gated = false) ∧ (s.chip.admitted p = none) ∧ (s.chip.is R.MUS_STAT F.MUS_STAT_IS_BW = true) ∧
          ((s.chip.fab.members.find? fun m => m.id = p.w 8 % 2 ^ 15 && m.serial ≠ p.w64 9 % 2 ^ 48) = some m) ∧ (m.st = 1) ∧ (m.serial <
          p.w64 9 % 2 ^ 48) ∧ (p.w64 9 % 2 ^ 48 ≠ s.chip.serial))
    ∧ (let w : Writer := host
       let s : State := at0 fun c => c.updFab fun f => { f with roots := [some ⟨0, 1, true⟩, none], left := true }
       (May w R.MUS_CMD s))
    ∧ (let w : Writer := host
       let s : State := at0 fun c => c.flag R.FAB_ID F.FAB_ID_VALID false
       (May w R.MUS_CMD s) ∧ (s.chip.is R.FAB_ID F.FAB_ID_VALID = false))
    ∧ (let w : Writer := host
       let l : Nat := 1
       let s : State := at0 fun c => (c.flag R.FAB_ID F.FAB_ID_VALID true).setLevel 0 1 0
       (May w R.MUS_CMD s) ∧ (s.chip.is R.FAB_ID F.FAB_ID_VALID = true) ∧ (s.chip.plevel 0 = some l) ∧ (l ≠ 0) ∧ (s.chip.plevel 1 = none)) := by decide +kernel

/-- States and operands that meet the hypotheses of MusterMapCommands (part 3). -/
theorem witness_MusterMapCommands_3 :
      (let w : Writer := host
       let s : State := at0 fun c => (c.flag R.MUS_STAT F.MUS_STAT_IS_BW true).updCtx 3 fun x => { x with st := .coordinating, kind := .coord }
       (May w R.MUS_CMD s) ∧ (s.chip.is R.MUS_STAT F.MUS_STAT_IS_BW = true) ∧ ((s.chip.bus.ctxs.any fun x => decide (x.st ≠ .free) && decide
          (x.ini = 0) && decide (x.kind = .coord)) = true))
    ∧ (let w : Writer := host
       let s : State := at0 fun c => c.flag R.MUS_STAT F.MUS_STAT_IS_BW true
       (May w R.MUS_CMD s) ∧ (s.chip.is R.MUS_STAT F.MUS_STAT_IS_BW = true))
    ∧ (let w : Writer := host
       let s : State := at0 fun c => c.flag R.MUS_STAT F.MUS_STAT_IS_BW true
       (May w R.MUS_CMD s) ∧ (s.chip.is R.MUS_STAT F.MUS_STAT_IS_BW = true))
    ∧ (let w : Writer := host
       let s : State := at0 fun c => c.flag R.MUS_STAT F.MUS_STAT_IS_BW false
       (May w R.MUS_CMD s) ∧ (s.chip.is R.MUS_STAT F.MUS_STAT_IS_BW = false))
    ∧ (let w : Writer := host
       let s : State := at0 fun c => c.flag R.MUS_STAT F.MUS_STAT_IS_BW false
       (May w R.MUS_CMD s) ∧ (s.chip.is R.MUS_STAT F.MUS_STAT_IS_BW = false))
    ∧ (let w : Writer := host
       let s : State := at0 fun c => c.flag R.MUS_STAT F.MUS_STAT_IS_BW false
       (May w R.MUS_CMD s) ∧ (s.chip.is R.MUS_STAT F.MUS_STAT_IS_BW = false)) := by decide +kernel

/-- States and operands that meet the hypotheses of FabricTableAndTimeCommands (part 1). -/
theorem witness_FabricTableAndTimeCommands_1 :
      (let w : Writer := host
       let k : Fin 385 := 384
       let v : BitVec 32 := 0x55
       let s : State := at0 fun c => c.setF R.FAB_SEL F.FAB_SEL_BANK 1
       (May w (windowOff k) s) ∧ (s.chip.bankOf (s.chip.f R.FAB_SEL F.FAB_SEL_PLANE) ≠ s.chip.f R.FAB_SEL F.FAB_SEL_BANK) ∧ (s.chip.routeOk
          (s.chip.f R.FAB_SEL F.FAB_SEL_PLANE) (s.chip.f R.FAB_SEL F.FAB_SEL_BANK) k (v &&& (if k.val < 384 then 0x8FFFF000#32 else
          0xFF#32)) = true))
    ∧ (let w : Writer := host
       let k : Fin 385 := 384
       let v : BitVec 32 := 0x55
       let s : State := at0 id
       (May w (windowOff k) s) ∧ (s.chip.bankOf (s.chip.f R.FAB_SEL F.FAB_SEL_PLANE) = s.chip.f R.FAB_SEL F.FAB_SEL_BANK ∨ s.chip.routeOk
          (s.chip.f R.FAB_SEL F.FAB_SEL_PLANE) (s.chip.f R.FAB_SEL F.FAB_SEL_BANK) k (v &&& (if k.val < 384 then 0x8FFFF000#32 else
          0xFF#32)) = false))
    ∧ (let w : Writer := host
       let s : State := at0 fun c => (c.setF R.FAB_SEL F.FAB_SEL_BANK 1).wr (routeKey 0 1 5) 0x80000000
       (May w R.FAB_BANK_CMD s) ∧ (s.chip.bankOf (s.chip.f R.FAB_SEL F.FAB_SEL_PLANE) ≠ s.chip.f R.FAB_SEL F.FAB_SEL_BANK))
    ∧ (let s : State := at0 fun c => ((((c.flag R.FAB_TIME_CFG F.FAB_TIME_CFG_EN true).setLevel 0 0 0).setF (R.LANE_STAT 3) F.LANE_STAT_STATE 5).updLane 3 fun l => { l with ann := some ⟨0, 1, true, 1, 5⟩ })
       (Awake P.FAB s) ∧ (s.chip.is R.FAB_TIME_CFG F.FAB_TIME_CFG_EN = true))
    ∧ (let n : Fin 8 := 2
       let p : Packet := { pkt 1 5 [0, 0, 0, 0, 0, 0, 0, 0] with vc := 0 }
       let s : State := at0 fun c => ((((c.setLevel 0 1 2).setF (R.LANE_STAT 2) F.LANE_STAT_STATE 5).setF R.FAB_CTL F.FAB_CTL_TIME_PLANE 1).flag R.MUS_STAT F.MUS_STAT_IS_BW false).setF R.HTM_CTL F.HTM_CTL_DISC_SRC 1
       (s.chip.powered = true) ∧ (s.chip.time.gated = false) ∧ (s.chip.admitted p = none) ∧ (s.chip.upstream = some n.val) ∧ (s.chip.f
          R.HTM_CTL F.HTM_CTL_DISC_SRC ≠ 0)) := by decide +kernel

/-- States and operands that meet the hypotheses of FabricTableAndTimeCommands (part 2). -/
theorem witness_FabricTableAndTimeCommands_2 :
      (let n : Fin 8 := 3
       let p : Packet := { pkt 1 5 [0, 0, 0, 0, 0, 0, 0, 0] with vc := 0 }
       let s : State := at0 id
       (s.chip.powered = true) ∧ (s.chip.time.gated = false) ∧ (s.chip.admitted p = none) ∧ (s.chip.upstream ≠ some n.val))
    ∧ (let n : Nat := 2
       let s : State := at0 fun c => ((((c.setLevel 0 1 2).setF (R.LANE_STAT 2) F.LANE_STAT_STATE 5).setF R.FAB_CTL F.FAB_CTL_TIME_PLANE 1).flag R.MUS_STAT F.MUS_STAT_IS_BW false)
       (Awake P.FAB s) ∧ (s.chip.upstream = some n) ∧ (s.chip.laneUp n = true))
    ∧ (let p : Packet := { pkt 2 5 [] with vc := 0 }
       let s : State := at0 id
       (s.chip.powered = true) ∧ (s.chip.time.gated = false) ∧ (s.chip.admitted p = none))
    ∧ (let n : Fin 8 := 2
       let p : Packet := { pkt 3 5 [] with vc := 0 }
       let t1 : Int := 0
       let s : State := at0 fun c => c.updFab fun f => { f with dly := some (2, 0) }
       (s.chip.powered = true) ∧ (s.chip.time.gated = false) ∧ (s.chip.admitted p = none) ∧ (s.chip.fab.dly = some (n.val, t1)))
    ∧ (let k : Fin 64 := 63
       let s : State := at0 fun c => (c.flag R.FAB_CYCLE F.FAB_CYCLE_SCHED_EN true).flag (R.FAB_TX_A 63) F.FAB_TX_A_EN true
       (Awake P.FAB s) ∧ (s.chip.is R.FAB_CYCLE F.FAB_CYCLE_SCHED_EN = true) ∧ (s.chip.is (R.FAB_TX_A k) F.FAB_TX_A_EN = true) ∧
          (s.chip.ctrlSlot = s.chip.f (R.FAB_TX_A k) F.FAB_TX_A_SLOT)) := by decide +kernel

/-- States and operands that meet the hypotheses of FabricTableAndTimeCommands (part 3). -/
theorem witness_FabricTableAndTimeCommands_3 :
      (let k : Fin 64 := 63
       let x : Fin 1024 := 8
       let s : State := at0 fun c => ((c.flag R.FAB_CYCLE F.FAB_CYCLE_SCHED_EN true).flag (R.FAB_TX_A 63) F.FAB_TX_A_EN true).wr (R.FAB_TX_B 63) (fset (fset 0#32 F.FAB_TX_B_FIRST 8) F.FAB_TX_B_NWORDS 1)
       (Awake P.FAB s) ∧ (s.chip.is R.FAB_CYCLE F.FAB_CYCLE_SCHED_EN = true) ∧ (s.chip.is (R.FAB_TX_A k) F.FAB_TX_A_EN = true) ∧ ((runSlots
          (fget (s.chip.rd (R.FAB_TX_B k)) F.FAB_TX_B_FIRST) (fget (s.chip.rd (R.FAB_TX_B k)) F.FAB_TX_B_NWORDS)).contains x.val = true)
          ∧ (s.chip.ctrlSlot = s.chip.f (R.FAB_TX_A k) F.FAB_TX_A_SLOT))
    ∧ (let p : Packet := { pkt 0x10 5 [0, 3, 0, 0, 77, 0, 0, 0] with vc := 2 }
       let k : Nat := 63
       let s : State := at0 fun c => (((c.flag (R.FAB_SUB_A 63) F.FAB_SUB_A_EN true).setF (R.FAB_SUB_A 63) F.FAB_SUB_A_SRC 5).setF (R.FAB_SUB_B 63) F.FAB_SUB_B_NWORDS 1).updStr fun x => { x with owners := [(0, Cl.sub 63)] }
       (s.chip.powered = true) ∧ (s.chip.time.gated = false) ∧ (s.chip.admitted p = none) ∧ (k < 64) ∧ (s.chip.is (R.FAB_SUB_A k)
          F.FAB_SUB_A_EN = true) ∧ (s.chip.f (R.FAB_SUB_A k) F.FAB_SUB_A_SRC = p.src.toNat) ∧ (s.chip.f (R.FAB_SUB_A k)
          F.FAB_SUB_A_PUB_ID = p.w 0 % 256) ∧ (SMap.get (fun _ => 0) s.chip.fab.subCyc k = 0) ∧ (s.chip.f (R.FAB_SUB_B k)
          F.FAB_SUB_B_NWORDS = 1) ∧ (s.chip.holds (Cl.sub k) (s.chip.f (R.FAB_SUB_B k) F.FAB_SUB_B_FIRST % 1024) = true) ∧ ((∀ j < 64, j
          ≠ k → s.chip.is (R.FAB_SUB_A j) F.FAB_SUB_A_EN = false)))
    ∧ (let k : Fin 64 := 63
       let s : State := at0 fun c => (((c.flag (R.FAB_SUB_A 63) F.FAB_SUB_A_EN true).setF (R.FAB_SUB_A 63) F.FAB_SUB_A_SRC 5).setF (R.FAB_SUB_B 63) F.FAB_SUB_B_NWORDS 1).updStr fun x => { x with owners := [(0, Cl.sub 63)] }
       (Awake P.FAB s) ∧ (s.chip.is (R.FAB_SUB_A k) F.FAB_SUB_A_EN = true))
    ∧ (let s : State := at0 id
       (s.chip.powered = true) ∧ (s.chip.time.gated = false)) := by decide +kernel

/-- States and operands that meet the hypotheses of HerdPacketCommands (part 1). -/
theorem witness_HerdPacketCommands_1 :
      (let p : Packet := { pkt 0x22 5 [7, 100000, 0, 2, 9, 0, 0, 0] with vc := 4, enc := true }
       let n : Nat := 3
       let s : State := at0 fun c => ((c.sesState 0 1).flag (Key.ses 0 0x204) F.SES_S_RIGHTS_TXN true).updCtx 3 fun x => { x with st := .opened, kind := .herd, tag := 7 }
       (s.chip.powered = true) ∧ (s.chip.time.gated = false) ∧ (s.chip.admitted p = none) ∧ (s.chip.herdCtx (p.w 0) (fun x => decide (x =
          .opened)) = some n) ∧ (2 ≤ p.w 3) ∧ (s.chip.time.ht + (1000 + 1000 * p.w 3) * 2 ^ 48 ≤ p.w64 1 * 2 ^ 48) ∧ ((s.chip.ctx
          n).entries = []))
    ∧ (let p : Packet := { pkt 0x22 5 [7, 100000, 0, 2, 9, 0, 0, 0] with vc := 4, enc := true }
       let s : State := at0 fun c => ((c.sesState 0 1).flag (Key.ses 0 0x204) F.SES_S_RIGHTS_TXN true)
       (s.chip.powered = true) ∧ (s.chip.time.gated = false) ∧ (s.chip.admitted p = none) ∧ (s.chip.herdCtx (p.w 0) (fun x => decide (x =
          .opened)) = none) ∧ (s.chip.noVoteCtx (p.w 0) = none))
    ∧ (let p : Packet := { pkt 0x22 5 [7, 100000, 0, 2, 9, 0, 0, 0] with vc := 4, enc := true }
       let n : Nat := 3
       let s : State := at0 fun c => ((c.sesState 0 1).flag (Key.ses 0 0x204) F.SES_S_RIGHTS_TXN true).updCtx 3 fun x => { x with st := .doomed, kind := .herd, tag := 7 }
       (s.chip.powered = true) ∧ (s.chip.time.gated = false) ∧ (s.chip.admitted p = none) ∧ (s.chip.herdCtx (p.w 0) (fun x => decide (x =
          .opened)) = none) ∧ (s.chip.noVoteCtx (p.w 0) = some n) ∧ (n ≠ 0)) := by decide +kernel

/-- States and operands that meet the hypotheses of HerdPacketCommands (part 2). -/
theorem witness_HerdPacketCommands_2 :
      (let p : Packet := { pkt 0x13 5 [7, 100000, 0, 0, 0, 0, 0, 0] with vc := 2, enc := true }
       let n : Nat := 3
       let s : State := at0 fun c => ((c.sesState 0 1).flag (Key.ses 0 0x204) F.SES_S_RIGHTS_TXN true).updCtx 3 fun x => { x with st := .prepared, kind := .herd, tag := 7 }
       (s.chip.powered = true) ∧ (s.chip.time.gated = false) ∧ (s.chip.admitted p = none) ∧ (s.chip.herdCtx (p.w 0) (fun x => decide (x =
          .prepared)) = some n) ∧ (s.chip.inTime (s.chip.ctx n).guardUs (p.w64 1) = true))
    ∧ (let p : Packet := { pkt 0x14 5 [7, 0, 0, 0, 0, 0, 0, 0] with vc := 2, enc := true }
       let n : Nat := 3
       let s : State := at0 fun c => ((c.sesState 0 1).flag (Key.ses 0 0x204) F.SES_S_RIGHTS_TXN true).updCtx 3 fun x => { x with st := .prepared, kind := .herd, tag := 7, t := 1000 }
       (s.chip.powered = true) ∧ (s.chip.time.gated = false) ∧ (s.chip.admitted p = none) ∧ (s.chip.herdCtx (p.w 0) (fun x => decide (x =
          .prepared)) = some n) ∧ (s.chip.htNs + 1000 * (s.chip.ctx n).guardUs < (s.chip.ctx n).t))
    ∧ (let p : Packet := { pkt 0x15 5 [7, 0, 0, 0x80000000, 0, 0, 0, 0] with vc := 2, enc := true }
       let n : Nat := 3
       let s : State := at0 fun c => ((c.sesState 0 1).flag (Key.ses 0 0x204) F.SES_S_RIGHTS_TXN true).updCtx 3 fun x => { x with st := .inDoubt, kind := .herd, tag := 7 }
       (s.chip.powered = true) ∧ (s.chip.time.gated = false) ∧ (s.chip.admitted p = none) ∧ (s.chip.herdCtx (p.w 0) (fun x => decide (x =
          .inDoubt)) = some n) ∧ (nbit (p.w 3) 31 = true)) := by decide +kernel

/-- States and operands that meet the hypotheses of HerdPacketCommands (part 3). -/
theorem witness_HerdPacketCommands_3 :
      (let p : Packet := { pkt 0x15 5 [7, 1000, 0, 0, 0, 0, 0, 0] with vc := 2, enc := true }
       let n : Nat := 3
       let s : State := at0 fun c => ((c.sesState 0 1).flag (Key.ses 0 0x204) F.SES_S_RIGHTS_TXN true).updCtx 3 fun x => { x with st := .inDoubt, kind := .herd, tag := 7 }
       (s.chip.powered = true) ∧ (s.chip.time.gated = false) ∧ (s.chip.admitted p = none) ∧ (s.chip.herdCtx (p.w 0) (fun x => decide (x =
          .inDoubt)) = some n) ∧ (nbit (p.w 3) 31 = false) ∧ (s.chip.inTime (s.chip.ctx n).guardUs (p.w64 1) = true))
    ∧ (let p : Packet := { pkt 0x23 5 [7, 0x80000000, 0, 0, 0, 0, 0, 0] with vc := 3, enc := true }
       let n : Nat := 3
       let s : State := at0 fun c => ((c.sesState 0 1).flag (Key.ses 0 0x204) F.SES_S_RIGHTS_TXN true).updCtx 3 fun x => { x with st := .coordinating, kind := .coord, tag := 7, ini := 1, expect := 5 }
       (s.chip.powered = true) ∧ (s.chip.time.gated = false) ∧ (s.chip.admitted p = none) ∧ (s.chip.findCtx (fun x => decide (x.kind = .coord)
          && decide (x.tag = p.w 0) && (decide (x.st = .coordinating) || x.sent)) = some n) ∧ (nbit (p.w 1) 31 = true) ∧ ((s.chip.ctx
          n).yes + 1 ≠ (s.chip.ctx n).expect))
    ∧ (let p : Packet := { pkt 0x23 5 [7, 0, 0, 0, 0, 0, 0, 0] with vc := 3, enc := true }
       let n : Nat := 3
       let s : State := at0 fun c => ((c.sesState 0 1).flag (Key.ses 0 0x204) F.SES_S_RIGHTS_TXN true).updCtx 3 fun x => { x with st := .coordinating, kind := .coord, tag := 7, ini := 1, auto := true, expect := 2 }
       (s.chip.powered = true) ∧ (s.chip.time.gated = false) ∧ (s.chip.admitted p = none) ∧ (s.chip.findCtx (fun x => decide (x.kind = .coord)
          && decide (x.tag = p.w 0) && (decide (x.st = .coordinating) || x.sent)) = some n) ∧ (nbit (p.w 1) 31 = false) ∧ ((s.chip.ctx
          n).auto = true) ∧ ((s.chip.ctx n).no = 0) ∧ ((s.chip.ctx n).sent = false)) := by decide +kernel

/-- States and operands that meet the hypotheses of SessionAndRingCommands (part 1). -/
theorem witness_SessionAndRingCommands_1 :
      (let w : Writer := host
       let s : State := at0 fun c => c.wr64 (Key.ses 255 0x210) 7
       (May w R.SES_CMD s))
    ∧ (let w : Writer := host
       let n : Fin 256 := 255
       let s : State := at0 fun c => c.sesState 255 1
       (May w R.SES_CMD s) ∧ (s.chip.sesOpen n = true))
    ∧ (let n : Fin 256 := 255
       let s : State := at0 fun c => (c.sesState 255 1).setF (Key.ses 255 0x208) F.SES_S_WDOG_WDOG_MS 5
       (Awake P.SES s) ∧ (s.chip.f (Key.ses n 0x208) F.SES_S_WDOG_WDOG_MS ≠ 0) ∧ (s.chip.sesOpen n = true))
    ∧ (let s : State := at0 id
       (s.chip.powered = true) ∧ (s.chip.time.gated = false))
    ∧ (let p : Packet := { pkt 0x12 5 [1, 2, 3, 4, 5, 6, 7, 8] with vc := 2, cast := 0, enc := true }
       let r : Nat := 3
       let d : Nat := 0
       let s : State := at0 fun c => c.sesState 0 1
       (s.chip.powered = true) ∧ (s.chip.time.gated = false) ∧ (s.chip.admitted p = none) ∧ (r = s.chip.rxRing p) ∧ (d = s.chip.ringDesc r) ∧
          (s.chip.fab.ringWait = []) ∧ (nbit (s.mem.sramW (d + 4)).toNat 31 = false))
    ∧ (let p : Packet := { pkt 0x12 5 [1, 2, 3, 4, 5, 6, 7, 8] with vc := 2, cast := 0, enc := true }
       let r : Nat := 3
       let d : Nat := 0
       let s : State := ({ (at0 id) with mem := { (at0 id).mem with sram := [(0, 0x00), (1, 0x10), (4, 0x40), (7, 0x80)] } } : State).onChip fun c => c.sesState 0 1
       (s.chip.powered = true) ∧ (s.chip.time.gated = false) ∧ (s.chip.admitted p = none) ∧ (r = s.chip.rxRing p) ∧ (d = s.chip.ringDesc r) ∧
          (s.chip.fab.ringWait = []) ∧ (nbit (s.mem.sramW (d + 4)).toNat 31 = true)) := by decide +kernel

/-- States and operands that meet the hypotheses of SessionAndRingCommands (part 2). -/
theorem witness_SessionAndRingCommands_2 :
      (let p : Packet := { pkt 0x38 5 [1, 2, 3, 4, 5, 6, 7, 8] with vc := 5, cast := 0, enc := true }
       let r : Nat := 3
       let d : Nat := 0
       let s : State := at0 fun c => c.sesState 0 1
       (s.chip.powered = true) ∧ (s.chip.time.gated = false) ∧ (s.chip.admitted p = none) ∧ (r = s.chip.rxRing p) ∧ (d = s.chip.ringDesc r) ∧
          (s.chip.fab.ringWait = []) ∧ (nbit (s.mem.sramW (d + 4)).toNat 31 = false))
    ∧ (let p : Packet := { pkt 0x38 5 [1, 2, 3, 4, 5, 6, 7, 8] with vc := 5, cast := 0, enc := true }
       let r : Nat := 3
       let d : Nat := 0
       let s : State := ({ (at0 id) with mem := { (at0 id).mem with sram := [(0, 0x00), (1, 0x10), (4, 0x40), (7, 0x80)] } } : State).onChip fun c => c.sesState 0 1
       (s.chip.powered = true) ∧ (s.chip.time.gated = false) ∧ (s.chip.admitted p = none) ∧ (r = s.chip.rxRing p) ∧ (d = s.chip.ringDesc r) ∧
          (s.chip.fab.ringWait = []) ∧ (nbit (s.mem.sramW (d + 4)).toNat 31 = true))
    ∧ (let p : Packet := { pkt 0x39 5 [1, 2, 3, 4, 5, 6, 7, 8] with vc := 4, cast := 0, enc := true }
       let r : Nat := 3
       let d : Nat := 0
       let s : State := at0 fun c => c.sesState 0 1
       (s.chip.powered = true) ∧ (s.chip.time.gated = false) ∧ (s.chip.admitted p = none) ∧ (r = s.chip.rxRing p) ∧ (d = s.chip.ringDesc r) ∧
          (s.chip.fab.ringWait = []) ∧ (nbit (s.mem.sramW (d + 4)).toNat 31 = false))
    ∧ (let p : Packet := { pkt 0x39 5 [1, 2, 3, 4, 5, 6, 7, 8] with vc := 4, cast := 0, enc := true }
       let r : Nat := 3
       let d : Nat := 0
       let s : State := ({ (at0 id) with mem := { (at0 id).mem with sram := [(0, 0x00), (1, 0x10), (4, 0x40), (7, 0x80)] } } : State).onChip fun c => c.sesState 0 1
       (s.chip.powered = true) ∧ (s.chip.time.gated = false) ∧ (s.chip.admitted p = none) ∧ (r = s.chip.rxRing p) ∧ (d = s.chip.ringDesc r) ∧
          (s.chip.fab.ringWait = []) ∧ (nbit (s.mem.sramW (d + 4)).toNat 31 = true)) := by decide +kernel

/-- States and operands that meet the hypotheses of SessionAndRingCommands (part 3). -/
theorem witness_SessionAndRingCommands_3 :
      (let p : Packet := { pkt 0x30 5 [1, 2, 3, 4, 5, 6, 7, 8] with vc := 5, cast := 0, enc := false }
       let r : Nat := 3
       let d : Nat := 0
       let s : State := at0 fun c => c
       (s.chip.powered = true) ∧ (s.chip.time.gated = false) ∧ (s.chip.admitted p = none) ∧ (r = 3) ∧ (d = s.chip.ringDesc r) ∧
          (s.chip.fab.ringWait = []) ∧ (nbit (s.mem.sramW (d + 4)).toNat 31 = false))
    ∧ (let p : Packet := { pkt 0x30 5 [1, 2, 3, 4, 5, 6, 7, 8] with vc := 5, cast := 0, enc := false }
       let r : Nat := 3
       let d : Nat := 0
       let s : State := ({ (at0 id) with mem := { (at0 id).mem with sram := [(0, 0x00), (1, 0x10), (4, 0x40), (7, 0x80)] } } : State).onChip fun c => c
       (s.chip.powered = true) ∧ (s.chip.time.gated = false) ∧ (s.chip.admitted p = none) ∧ (r = 3) ∧ (d = s.chip.ringDesc r) ∧
          (s.chip.fab.ringWait = []) ∧ (nbit (s.mem.sramW (d + 4)).toNat 31 = true))
    ∧ (let p : Packet := { pkt 0x31 5 [1, 2, 3, 4, 5, 6, 7, 8] with vc := 5, cast := 0, enc := false }
       let r : Nat := 3
       let d : Nat := 0
       let s : State := at0 fun c => c
       (s.chip.powered = true) ∧ (s.chip.time.gated = false) ∧ (s.chip.admitted p = none) ∧ (r = 3) ∧ (d = s.chip.ringDesc r) ∧
          (s.chip.fab.ringWait = []) ∧ (nbit (s.mem.sramW (d + 4)).toNat 31 = false))
    ∧ (let p : Packet := { pkt 0x31 5 [1, 2, 3, 4, 5, 6, 7, 8] with vc := 5, cast := 0, enc := false }
       let r : Nat := 3
       let d : Nat := 0
       let s : State := ({ (at0 id) with mem := { (at0 id).mem with sram := [(0, 0x00), (1, 0x10), (4, 0x40), (7, 0x80)] } } : State).onChip fun c => c
       (s.chip.powered = true) ∧ (s.chip.time.gated = false) ∧ (s.chip.admitted p = none) ∧ (r = 3) ∧ (d = s.chip.ringDesc r) ∧
          (s.chip.fab.ringWait = []) ∧ (nbit (s.mem.sramW (d + 4)).toNat 31 = true)) := by decide +kernel

/-- States and operands that meet the hypotheses of SessionAndRingCommands (part 4). -/
theorem witness_SessionAndRingCommands_4 :
      (let p : Packet := { pkt 0x32 5 [1, 2, 3, 4, 5, 6, 7, 8] with vc := 5, cast := 0, enc := false }
       let r : Nat := 3
       let d : Nat := 0
       let s : State := at0 fun c => c
       (s.chip.powered = true) ∧ (s.chip.time.gated = false) ∧ (s.chip.admitted p = none) ∧ (r = 3) ∧ (d = s.chip.ringDesc r) ∧
          (s.chip.fab.ringWait = []) ∧ (nbit (s.mem.sramW (d + 4)).toNat 31 = false))
    ∧ (let p : Packet := { pkt 0x32 5 [1, 2, 3, 4, 5, 6, 7, 8] with vc := 5, cast := 0, enc := false }
       let r : Nat := 3
       let d : Nat := 0
       let s : State := ({ (at0 id) with mem := { (at0 id).mem with sram := [(0, 0x00), (1, 0x10), (4, 0x40), (7, 0x80)] } } : State).onChip fun c => c
       (s.chip.powered = true) ∧ (s.chip.time.gated = false) ∧ (s.chip.admitted p = none) ∧ (r = 3) ∧ (d = s.chip.ringDesc r) ∧
          (s.chip.fab.ringWait = []) ∧ (nbit (s.mem.sramW (d + 4)).toNat 31 = true))
    ∧ (let p : Packet := { pkt 0x21 5 [1, 2, 3, 4, 5, 6, 7, 8] with vc := 3, cast := 0, enc := true }
       let x : Req := ⟨0, 0, some true⟩
       let b : Bool := true
       let s : State := at0 fun c => (c.sesState 0 1).updFab fun f => { f with reqs := [⟨0, 0, some true⟩] }
       (s.chip.powered = true) ∧ (s.chip.time.gated = false) ∧ (s.chip.admitted p = none) ∧ ((s.chip.fab.reqs.find? fun r => r.tag =
          p.tag.toNat && (!p.enc || r.ses = p.ses.toNat)) = some x) ∧ (x.twin = some b) ∧ (s.chip.fab.ringWait = []) ∧ (nbit
          (s.mem.sramW (s.chip.ringDesc (if b then 5 else 2) + 4)).toNat 31 = false))
    ∧ (let p : Packet := { pkt 0x21 5 [1, 2, 3, 4, 5, 6, 7, 8] with vc := 3, cast := 0, enc := true }
       let s : State := at0 fun c => (c.sesState 0 1)
       (s.chip.powered = true) ∧ (s.chip.time.gated = false) ∧ (s.chip.admitted p = none) ∧ ((s.chip.fab.reqs.find? fun r => r.tag =
          p.tag.toNat && (!p.enc || r.ses = p.ses.toNat)) = none)) := by decide +kernel

/-- States and operands that meet the hypotheses of SessionAndRingCommands (part 5). -/
theorem witness_SessionAndRingCommands_5 :
      (let p : Packet := { pkt 0x3A 5 [1, 2, 3, 4, 5, 6, 7, 8] with vc := 3, cast := 0, enc := true }
       let x : Req := ⟨0, 0, some true⟩
       let b : Bool := true
       let s : State := at0 fun c => (c.sesState 0 1).updFab fun f => { f with reqs := [⟨0, 0, some true⟩] }
       (s.chip.powered = true) ∧ (s.chip.time.gated = false) ∧ (s.chip.admitted p = none) ∧ ((s.chip.fab.reqs.find? fun r => r.tag =
          p.tag.toNat && (!p.enc || r.ses = p.ses.toNat)) = some x) ∧ (x.twin = some b) ∧ (s.chip.fab.ringWait = []) ∧ (nbit
          (s.mem.sramW (s.chip.ringDesc (if b then 5 else 2) + 4)).toNat 31 = false))
    ∧ (let p : Packet := { pkt 0x3A 5 [1, 2, 3, 4, 5, 6, 7, 8] with vc := 3, cast := 0, enc := true }
       let s : State := at0 fun c => (c.sesState 0 1)
       (s.chip.powered = true) ∧ (s.chip.time.gated = false) ∧ (s.chip.admitted p = none) ∧ ((s.chip.fab.reqs.find? fun r => r.tag =
          p.tag.toNat && (!p.enc || r.ses = p.ses.toNat)) = none))
    ∧ (let p : Packet := { pkt 0x3F 5 [1, 2, 3, 4, 5, 6, 7, 8] with vc := 3, cast := 0, enc := false }
       let x : Req := ⟨0, 0, some true⟩
       let b : Bool := true
       let s : State := at0 fun c => c.updFab fun f => { f with reqs := [⟨0, 0, some true⟩] }
       (s.chip.powered = true) ∧ (s.chip.time.gated = false) ∧ (s.chip.admitted p = none) ∧ ((s.chip.fab.reqs.find? fun r => r.tag =
          p.tag.toNat && (!p.enc || r.ses = p.ses.toNat)) = some x) ∧ (x.twin = some b) ∧ (s.chip.fab.ringWait = []) ∧ (nbit
          (s.mem.sramW (s.chip.ringDesc (if b then 5 else 2) + 4)).toNat 31 = false))
    ∧ (let p : Packet := { pkt 0x3F 5 [1, 2, 3, 4, 5, 6, 7, 8] with vc := 3, cast := 0, enc := false }
       let s : State := at0 fun c => c
       (s.chip.powered = true) ∧ (s.chip.time.gated = false) ∧ (s.chip.admitted p = none) ∧ ((s.chip.fab.reqs.find? fun r => r.tag =
          p.tag.toNat && (!p.enc || r.ses = p.ses.toNat)) = none)) := by decide +kernel

/-- States and operands that meet the hypotheses of SessionAndRingCommands (part 6). -/
theorem witness_SessionAndRingCommands_6 :
      (let w : Writer := host
       let b : Bool := true
       let r : Nat := 4
       let d : Nat := 0
       let s : State := at0 id
       (May w (R.SES_KICK (b2n b)) s) ∧ (r = (if b then 4 else 1)) ∧ (d = s.chip.ringDesc r) ∧ (s.chip.fab.ringWait = []) ∧ (nbit (s.mem.sramW
          (d + 4)).toNat 31 = false))
    ∧ (let w : Writer := host
       let b : Bool := true
       let r : Nat := 4
       let d : Nat := 0
       let p : Packet := (({ State.reset with mem := { State.reset.mem with sram := [(0, 0x00), (1, 0x10), (4, 0x40), (7, 0x80)] } } : State).txPacket (({ State.reset with mem := { State.reset.mem with sram := [(0, 0x00), (1, 0x10), (4, 0x40), (7, 0x80)] } } : State).mem.sramW 0).toNat ((({ State.reset with mem := { State.reset.mem with sram := [(0, 0x00), (1, 0x10), (4, 0x40), (7, 0x80)] } } : State).mem.sramW (0 + 4)).toNat % 65536) ((({ State.reset with mem := { State.reset.mem with sram := [(0, 0x00), (1, 0x10), (4, 0x40), (7, 0x80)] } } : State).mem.sramW (0 + 4)).toNat / 2 ^ 16 % 256))
       let s : State := { (at0 id) with mem := { (at0 id).mem with sram := [(0, 0x00), (1, 0x10), (4, 0x40), (7, 0x80)] } }
       (May w (R.SES_KICK (b2n b)) s) ∧ (r = (if b then 4 else 1)) ∧ (d = s.chip.ringDesc r) ∧ (s.chip.fab.ringWait = []) ∧
          (s.chip.fab.ringIdx.length = 6) ∧ (nbit (s.mem.sramW (d + 4)).toNat 31 = true) ∧ (descAt (s.chip.rd (ringReg r)) (descNext
          (s.chip.rd (ringReg r)) (nth s.chip.fab.ringIdx r 0)) % sramSize ≠ d % sramSize) ∧ (nbit (s.mem.sramW (descAt (s.chip.rd
          (ringReg r)) (descNext (s.chip.rd (ringReg r)) (nth s.chip.fab.ringIdx r 0)) + 4)).toNat 31 = false) ∧ (p = (s.txPacket
          (s.mem.sramW d).toNat ((s.mem.sramW (d + 4)).toNat % 65536) ((s.mem.sramW (d + 4)).toNat / 2 ^ 16 % 256))) ∧ (p.kind ≠ 0x10) ∧
          (p.kind ≠ 0x20) ∧ (p.kind ≠ 0x39)) := by decide +kernel

/-- States and operands that meet the hypotheses of LaneBringUpCommands (part 1). -/
theorem witness_LaneBringUpCommands_1 :
      (let q : Fin 2 := 1
       let s : State := at0 fun c => (c.flag (R.QUAD_CTL 1) F.QUAD_CTL_SYN_EN true).flag (R.LANE_CTL 7) F.LANE_CTL_EN true
       (s.chip.powered = true) ∧ (s.chip.time.gated = false) ∧ (s.chip.is (R.QUAD_CTL q) F.QUAD_CTL_SYN_EN = true))
    ∧ (let q : Fin 2 := 1
       let s : State := at0 fun c => c.setF (R.QUAD_CTL 1) F.QUAD_CTL_ECM_RATE 2
       (s.chip.powered = true) ∧ (s.chip.time.gated = false) ∧ (s.chip.f (R.QUAD_CTL q) F.QUAD_CTL_ECM_RATE = 1 ∨ s.chip.f (R.QUAD_CTL q)
          F.QUAD_CTL_ECM_RATE = 2))
    ∧ (let q : Fin 2 := 1
       let s : State := at0 fun c => c.flag (R.QUAD_STAT 1) F.QUAD_STAT_SYN_LOCK true
       (s.chip.powered = true) ∧ (s.chip.time.gated = false) ∧ (s.chip.is (R.QUAD_STAT q) F.QUAD_STAT_SYN_LOCK = true))
    ∧ (let s : State := at0 id
       (s.chip.powered = true) ∧ (s.chip.time.gated = false))
    ∧ (let n : Fin 8 := 7
       let mlos : Bool := false
       let s : State := at0 fun c => (c.setF (R.LANE_STAT 7) F.LANE_STAT_STATE 1)
       (Awake (P.LANE n) s) ∧ (s.chip.laneState n = Ls.detect) ∧ ((mlos && s.chip.is (R.LANE_MOD_CFG n) F.LANE_MOD_CFG_LOS_EN) = false))
    ∧ (let n : Fin 8 := 7
       let s : State := at0 fun c => (c.setF (R.LANE_STAT 7) F.LANE_STAT_STATE 5)
       (Awake (P.LANE n) s) ∧ (Ls.train ≤ s.chip.laneState n) ∧ (s.chip.laneState n ≤ Ls.active)) := by decide +kernel

/-- States and operands that meet the hypotheses of LaneBringUpCommands (part 2). -/
theorem witness_LaneBringUpCommands_2 :
      (let n : Fin 8 := 7
       let s : State := at0 fun c => (c.setF (R.LANE_STAT 7) F.LANE_STAT_STATE 3)
       (Awake (P.LANE n) s) ∧ (s.chip.laneState n = Ls.lock))
    ∧ (let n : Fin 8 := 7
       let s : State := at0 fun c => (c.setF (R.LANE_STAT 7) F.LANE_STAT_STATE 3)
       (Awake (P.LANE n) s) ∧ (s.chip.laneState n = Ls.lock))
    ∧ (let n : Fin 8 := 7
       let s : State := at0 fun c => (c.setF (R.LANE_STAT 7) F.LANE_STAT_STATE 4)
       (Awake (P.LANE n) s) ∧ (s.chip.laneState n = Ls.caps))
    ∧ (let n : Fin 8 := 7
       let version : BitVec 8 := 1
       let id : BitVec 15 := 0x7FFE
       let plane : Bool := true
       let ack : Bool := true
       let s : State := at0 fun c => (c.setF (R.LANE_STAT 7) F.LANE_STAT_STATE 4)
       (Awake (P.LANE n) s) ∧ (s.chip.laneState n = Ls.caps) ∧ (version = 1) ∧ (b2n plane = planeOf n) ∧ (id.toNat ≠ s.chip.myId ∨ id = 0) ∧
          (ack = true))
    ∧ (let n : Fin 8 := 7
       let version : BitVec 8 := 1
       let id : BitVec 15 := 0x7FFE
       let plane : Bool := true
       let ack : Bool := false
       let s : State := at0 fun c => (c.setF (R.LANE_STAT 7) F.LANE_STAT_STATE 4)
       (Awake (P.LANE n) s) ∧ (s.chip.laneState n = Ls.caps) ∧ (version = 1) ∧ (b2n plane = planeOf n) ∧ (id.toNat ≠ s.chip.myId ∨ id = 0) ∧
          (ack = false))
    ∧ (let n : Fin 8 := 7
       let version : BitVec 8 := 2
       let s : State := at0 fun c => (c.setF (R.LANE_STAT 7) F.LANE_STAT_STATE 4)
       (Awake (P.LANE n) s) ∧ (s.chip.laneState n = Ls.caps) ∧ (version ≠ 1)) := by decide +kernel

/-- States and operands that meet the hypotheses of LaneBringUpCommands (part 3). -/
theorem witness_LaneBringUpCommands_3 :
      (let n : Fin 8 := 7
       let version : BitVec 8 := 1
       let plane : Bool := false
       let s : State := at0 fun c => (c.setF (R.LANE_STAT 7) F.LANE_STAT_STATE 4)
       (Awake (P.LANE n) s) ∧ (s.chip.laneState n = Ls.caps) ∧ (version = 1) ∧ (b2n plane ≠ planeOf n))
    ∧ (let n : Fin 8 := 7
       let s : State := at0 fun c => (c.setF (R.LANE_STAT 7) F.LANE_STAT_STATE 6)
       (Awake (P.LANE n) s) ∧ (s.chip.laneState n = Ls.holdoff))
    ∧ (let n : Fin 8 := 7
       let s : State := at0 fun c => (c.setF (R.LANE_STAT 7) F.LANE_STAT_STATE 5)
       (Awake (P.LANE n) s) ∧ (s.chip.laneState n = Ls.active))
    ∧ (let w : Writer := host
       let n : Fin 8 := 7
       let s : State := at0 fun c => (c.setF (R.LANE_STAT 7) F.LANE_STAT_STATE 5)
       (May w (R.LANE_CMD n) s) ∧ (s.chip.laneState n = Ls.active))
    ∧ (let w : Writer := host
       let n : Fin 8 := 7
       let s : State := at0 id
       (May w (R.LANE_CMD n) s) ∧ (s.chip.laneState n ≠ Ls.active))
    ∧ (let w : Writer := host
       let n : Fin 8 := 7
       let s : State := at0 fun c => c.wr (R.LANE_CNT_0 7) 5
       (May w (R.LANE_CMD n) s)) := by decide +kernel

/-- States and operands that meet the hypotheses of LaneBringUpCommands (part 4). -/
theorem witness_LaneBringUpCommands_4 :
      (let n : Fin 8 := 7
       let s : State := at0 fun c => (c.setF (R.LANE_STAT 7) F.LANE_STAT_STATE 5)
       (Awake (P.LANE n) s) ∧ (s.chip.laneState n = Ls.active) ∧ (s.chip.is (R.LANE_ES_STAT n) F.LANE_ES_STAT_BUSY = false)) := by decide +kernel

/-- States and operands that meet the hypotheses of LaneTrainingCommands (part 1). -/
theorem witness_LaneTrainingCommands_1 :
      (let n : Fin 8 := 7
       let p : Nat := 2
       let q : Nat := 5
       let r : List Nat := [6]
       let s : State := at0 fun c => ((c.setF (R.LANE_STAT 7) F.LANE_STAT_STATE 2).updLane 7 fun l => { l with tr := { step := .preset 2, sub := .adapt, todo := [5, 6], best := 3 } })
       (Awake (P.LANE n) s) ∧ (s.chip.laneState n = Ls.train) ∧ ((s.chip.lane n).tr.sub = .adapt) ∧ ((s.chip.lane n).tr.step = .preset p) ∧
          ((s.chip.lane n).tr.todo = q :: r))
    ∧ (let n : Fin 8 := 7
       let codes : BitVec 8 := 9
       let p : Nat := 2
       let b : Nat := 2
       let s : State := at0 fun c => ((c.setF (R.LANE_STAT 7) F.LANE_STAT_STATE 2).updLane 7 fun l => { l with tr := { step := .preset 2, sub := .adapt, best := 3 } })
       (Awake (P.LANE n) s) ∧ (s.chip.laneState n = Ls.train) ∧ ((s.chip.lane n).tr.sub = .adapt) ∧ ((s.chip.lane n).tr.step = .preset p) ∧
          ((s.chip.lane n).tr.todo = []) ∧ ((if (s.chip.lane n).tr.best < min 255 (2 * codes.toNat) then some p else (s.chip.lane
          n).tr.bp) = some b))
    ∧ (let n : Fin 8 := 7
       let codes : BitVec 8 := 1
       let po : Bool := true
       let inc : Bool := false
       let s : State := at0 fun c => ((c.setF (R.LANE_STAT 7) F.LANE_STAT_STATE 2).updLane 7 fun l => { l with tr := { step := .tap true false, sub := .adapt, best := 3 } })
       (Awake (P.LANE n) s) ∧ (s.chip.laneState n = Ls.train) ∧ ((s.chip.lane n).tr.sub = .adapt) ∧ ((s.chip.lane n).tr.step = .tap po inc) ∧
          (min 255 (2 * codes.toNat) < (s.chip.lane n).tr.best + fget (s.chip.lane n).tr.cfg F.LANE_TRAIN_FOM_STEP)) := by decide +kernel

/-- States and operands that meet the hypotheses of LaneTrainingCommands (part 2). -/
theorem witness_LaneTrainingCommands_2 :
      (let n : Fin 8 := 7
       let codes : BitVec 8 := 100
       let po : Bool := true
       let inc : Bool := false
       let s : State := at0 fun c => ((c.setF (R.LANE_STAT 7) F.LANE_STAT_STATE 2).updLane 7 fun l => { l with tr := { step := .tap true false, sub := .adapt, best := 3 } })
       (Awake (P.LANE n) s) ∧ (s.chip.laneState n = Ls.train) ∧ ((s.chip.lane n).tr.sub = .adapt) ∧ ((s.chip.lane n).tr.step = .tap po inc) ∧
          (po = true ∨ inc = true) ∧ ((s.chip.lane n).tr.best + fget (s.chip.lane n).tr.cfg F.LANE_TRAIN_FOM_STEP ≤ min 255 (2 *
          codes.toNat)))
    ∧ (let n : Fin 8 := 7
       let rq : BitVec 16 := 0x7800
       let st : BitVec 16 := 0
       let crc : BitVec 16 := BitVec.ofNat 16 (crc16 ((0x7800 : BitVec 16) ++ (0 : BitVec 16)))
       let s : State := at0 fun c => ((c.setF (R.LANE_STAT 7) F.LANE_STAT_STATE 2).updLane 7 fun l => { l with tr := {  } })
       (Awake (P.LANE n) s) ∧ (s.chip.laneState n = Ls.train) ∧ (crc.toNat = crc16 (rq ++ st)) ∧ (rq.getLsbD 15 = false) ∧ (rq.getLsbD 14 =
          true) ∧ ((s.chip.lane n).tr.presetSt = false) ∧ ((s.chip.lane n).tr.step = .done) ∧ (st.getLsbD 15 = false) ∧ (n.val <
          s.chip.lanes.length))
    ∧ (let n : Fin 8 := 7
       let rq : BitVec 16 := 0
       let st : BitVec 16 := 0x8000
       let crc : BitVec 16 := BitVec.ofNat 16 (crc16 ((0 : BitVec 16) ++ (0x8000 : BitVec 16)))
       let s : State := at0 fun c => ((c.setF (R.LANE_STAT 7) F.LANE_STAT_STATE 2).updLane 7 fun l => { l with tr := { ready := true, rdy := 15 } })
       (Awake (P.LANE n) s) ∧ (s.chip.laneState n = Ls.train) ∧ (crc.toNat = crc16 (rq ++ st)) ∧ (rq = 0) ∧ ((s.chip.lane n).tr.step = .done) ∧
          ((s.chip.lane n).tr.ready = true) ∧ (st.getLsbD 15 = true) ∧ (15 ≤ (s.chip.lane n).tr.rdy)) := by decide +kernel

/-- States and operands that meet the hypotheses of LaneTrainingCommands (part 3). -/
theorem witness_LaneTrainingCommands_3 :
      (let n : Fin 8 := 7
       let rq : BitVec 16 := 0
       let st : BitVec 16 := 0x8000
       let crc : BitVec 16 := 0
       let s : State := State.reset
       (crc.toNat ≠ crc16 (rq ++ st) ∨ s.chip.laneState n ≠ Ls.train))
    ∧ (let n : Fin 8 := 7
       let s : State := at0 fun c => (c.setF (R.LANE_STAT 7) F.LANE_STAT_STATE 2)
       (Awake (P.LANE n) s) ∧ (s.chip.laneState n = Ls.train)) := by decide +kernel

/-- States and operands that meet the hypotheses of LaneLinkCommands (part 1). -/
theorem witness_LaneLinkCommands_1 :
      (let n : Fin 8 := 7
       let seq : BitVec 12 := 3
       let a : List (Nat × Bool × Packet) := [(2, false, { pkt 1 5 [] with vc := 0 })]
       let e : Nat × Bool × Packet := (3, false, { pkt 1 5 [] with vc := 0 })
       let b : List (Nat × Bool × Packet) := [(4, false, { pkt 1 5 [] with vc := 0 })]
       let s : State := at0 fun c => (c.setF (R.LANE_STAT 7) F.LANE_STAT_STATE 5).updLane 7 fun l => { l with replays := 2, buf := [(2, false, { pkt 1 5 [] with vc := 0 }), (3, false, { pkt 1 5 [] with vc := 0 }), (4, false, { pkt 1 5 [] with vc := 0 })] }
       (Awake (P.LANE n) s) ∧ (s.chip.laneState n = Ls.active) ∧ ((s.chip.lane n).buf = a ++ e :: b) ∧ (e.1 = seq.toNat) ∧ ((a.all fun x =>
          decide (x.1 ≠ seq.toNat)) = true))
    ∧ (let s : State := at0 id
       (s.chip.powered = true) ∧ (s.chip.time.gated = false))
    ∧ (let n : Fin 8 := 7
       let s : State := at0 fun c => (c.setF (R.LANE_STAT 7) F.LANE_STAT_STATE 5).updLane 7 fun l => { l with buf := [(2, false, { pkt 1 5 [] with vc := 0 })] }
       (Awake (P.LANE n) s) ∧ (s.chip.laneState n = Ls.active) ∧ ((s.chip.lane n).buf ≠ []) ∧ ((s.chip.lane n).replays < 8))
    ∧ (let n : Fin 8 := 7
       let s : State := at0 fun c => (c.setF (R.LANE_STAT 7) F.LANE_STAT_STATE 5).updLane 7 fun l => { l with buf := [(2, false, { pkt 1 5 [] with vc := 0 })], replays := 8 }
       (Awake (P.LANE n) s) ∧ (s.chip.laneState n = Ls.active) ∧ ((s.chip.lane n).buf ≠ []) ∧ (8 ≤ (s.chip.lane n).replays))
    ∧ (let n : Fin 8 := 7
       let s : State := at0 fun c => (c.setF (R.LANE_STAT 7) F.LANE_STAT_STATE 5).updLane 7 fun l => { l with buf := [(2, false, { pkt 1 5 [] with vc := 0 })] }
       (Awake (P.LANE n) s) ∧ (s.chip.laneState n = Ls.active) ∧ ((s.chip.lane n).buf ≠ []) ∧ ((s.chip.lane n).replays < 8)) := by decide +kernel

/-- States and operands that meet the hypotheses of LaneLinkCommands (part 2). -/
theorem witness_LaneLinkCommands_2 :
      (let n : Fin 8 := 7
       let s : State := at0 fun c => (c.setF (R.LANE_STAT 7) F.LANE_STAT_STATE 5).updLane 7 fun l => { l with buf := [(2, false, { pkt 1 5 [] with vc := 0 })], replays := 8 }
       (Awake (P.LANE n) s) ∧ (s.chip.laneState n = Ls.active) ∧ ((s.chip.lane n).buf ≠ []) ∧ (8 ≤ (s.chip.lane n).replays))
    ∧ (let n : Fin 8 := 7
       let p : Packet := { pkt 2 5 [] with vc := 0 }
       let crc : BitVec 32 := 0
       let s : State := at0 fun c => (c.setF (R.LANE_STAT 7) F.LANE_STAT_STATE 5)
       (Awake (P.LANE n) s) ∧ (s.chip.laneState n = Ls.active) ∧ (s.chip.fab.inbox = []) ∧ (crc.toNat ≠ packetCrc p))
    ∧ (let n : Fin 8 := 7
       let seq : BitVec 12 := 9
       let p : Packet := { pkt 2 5 [] with vc := 0 }
       let crc : BitVec 32 := BitVec.ofNat 32 (packetCrc { pkt 2 5 [] with vc := 0 })
       let s : State := at0 fun c => (c.setF (R.LANE_STAT 7) F.LANE_STAT_STATE 5)
       (Awake (P.LANE n) s) ∧ (s.chip.laneState n = Ls.active) ∧ (s.chip.fab.inbox = []) ∧ (crc.toNat = packetCrc p) ∧ (seq.toNat ≠
          (s.chip.lane n).rxSeq)) := by decide +kernel

/-- States and operands that meet the hypotheses of LaneLinkCommands (part 3). -/
theorem witness_LaneLinkCommands_3 :
      (let n : Fin 8 := 7
       let seq : BitVec 12 := 0
       let p : Packet := { pkt 0x3F 5 [] with vc := 3, dest := 1, hopLimit := 9 }
       let crc : BitVec 32 := BitVec.ofNat 32 (packetCrc { pkt 0x3F 5 [] with vc := 3, dest := 1, hopLimit := 9 })
       let m : Nat := 5
       let s : State := at0 fun c => (((((c.setF (R.LANE_STAT 7) F.LANE_STAT_STATE 5).setF (R.LANE_STAT 5) F.LANE_STAT_STATE 5).flag R.FAB_CTL F.FAB_CTL_EN_B true).flag R.FAB_CTL F.FAB_CTL_FWD_B true).wr (routeKey 1 0 129) (fset (fset 0 F.FAB_RT_R_VALID 1) F.FAB_RT_R_P_UP 1))
       (Awake (P.LANE n) s) ∧ (s.chip.laneState n = Ls.active) ∧ (s.chip.fab.inbox = []) ∧ (crc.toNat = packetCrc p) ∧ (seq.toNat =
          (s.chip.lane n).rxSeq) ∧ (s.chip.kindOk p = true) ∧ (4 < p.kind.toNat) ∧ (p.cast = 0) ∧ (s.chip.planeOn (planeOf n) = true) ∧
          (nth s.chip.fab.deep (planeOf n) false = false) ∧ (s.chip.hop (planeOf n) p.dest.toNat p.dn = .out m) ∧ (p.hops ≠ p.hopLimit)
          ∧ (s.chip.forwards (planeOf n) = true))
    ∧ (let n : Fin 8 := 7
       let seq : BitVec 12 := 0
       let p : Packet := { pkt 2 5 [] with vc := 0 }
       let crc : BitVec 32 := BitVec.ofNat 32 (packetCrc { pkt 2 5 [] with vc := 0 })
       let s : State := at0 fun c => (c.setF (R.LANE_STAT 7) F.LANE_STAT_STATE 5)
       (Awake (P.LANE n) s) ∧ (s.chip.laneState n = Ls.active) ∧ (s.chip.fab.inbox = []) ∧ (crc.toNat = packetCrc p) ∧ (seq.toNat =
          (s.chip.lane n).rxSeq) ∧ (p.kind = 2) ∧ (p.enc = false) ∧ (s.chip.admitted p = none)) := by decide +kernel

/-- States and operands that meet the hypotheses of LaneLinkCommands (part 4). -/
theorem witness_LaneLinkCommands_4 :
      (let n : Fin 8 := 7
       let v : Nat := 0
       let x : Option Nat × Packet := (none, { pkt 1 5 [] with vc := 0 })
       let s : State := at0 fun c => (c.setF (R.LANE_STAT 7) F.LANE_STAT_STATE 5).updLane 7 fun l => { l with vq := [(none, { pkt 1 5 [] with vc := 0 })], cred := [1, 0, 0, 0, 0, 0] }
       (Awake (P.LANE n) s) ∧ (s.chip.laneState n = Ls.active) ∧ (s.chip.fab.inbox = []) ∧ (s.chip.out = []) ∧ ((s.chip.lane n).buf.length <
          64) ∧ ((s.chip.lane n).pick (s.chip.htNs / 1000) = some v) ∧ ((s.chip.lane n).head v = some x)) := by decide +kernel

/-- States and operands that meet the hypotheses of LaneTestAndModuleCommands (part 1). -/
theorem witness_LaneTestAndModuleCommands_1 :
      (let w : Writer := host
       let n : Fin 8 := 7
       let s : State := at0 fun c => (c.setF (R.LANE_STAT 7) F.LANE_STAT_STATE 5)
       (May w (R.LANE_ES_CTL n) s) ∧ (scanState (s.chip.laneState n) = true) ∧ (s.chip.is (R.LANE_ES_STAT n) F.LANE_ES_STAT_BUSY = false))
    ∧ (let w : Writer := host
       let n : Fin 8 := 7
       let s : State := at0 id
       (May w (R.LANE_ES_CTL n) s) ∧ (scanState (s.chip.laneState n) = false ∨ s.chip.is (R.LANE_ES_STAT n) F.LANE_ES_STAT_BUSY = true))
    ∧ (let n : Fin 8 := 7
       let s : State := at0 fun c => c.flag (R.LANE_ES_STAT 7) F.LANE_ES_STAT_BUSY true
       (Awake (P.LANE n) s) ∧ (s.chip.is (R.LANE_ES_STAT n) F.LANE_ES_STAT_BUSY = true))
    ∧ (let w : Writer := host
       let n : Fin 8 := 7
       let s : State := at0 fun c => (c.setF (R.LANE_STAT 7) F.LANE_STAT_STATE 7).flag (R.LANE_PAT_CFG 7) F.LANE_PAT_CFG_GEN true
       (May w (R.LANE_PAT_CMD n) s) ∧ (s.chip.laneState n = Ls.pattern) ∧ (s.chip.is (R.LANE_PAT_CFG n) F.LANE_PAT_CFG_GEN = true))
    ∧ (let w : Writer := host
       let n : Fin 8 := 7
       let s : State := at0 fun c => c.wr64 (R.LANE_PAT_ERR_LO 7) 9
       (May w (R.LANE_PAT_CMD n) s))
    ∧ (let n : Fin 8 := 7
       let s : State := at0 fun c => (c.setF (R.LANE_STAT 7) F.LANE_STAT_STATE 7).flag (R.LANE_PAT_CFG 7) F.LANE_PAT_CFG_CHK true
       (Awake (P.LANE n) s) ∧ (s.chip.laneState n = Ls.pattern) ∧ (s.chip.is (R.LANE_PAT_CFG n) F.LANE_PAT_CFG_CHK = true)) := by decide +kernel

/-- States and operands that meet the hypotheses of LaneTestAndModuleCommands (part 2). -/
theorem witness_LaneTestAndModuleCommands_2 :
      (let n : Fin 8 := 7
       let s : State := at0 fun c => c.flag (R.LANE_PAT_STAT 7) F.LANE_PAT_STAT_SYNC true
       (Awake (P.LANE n) s) ∧ (s.chip.is (R.LANE_PAT_STAT n) F.LANE_PAT_STAT_SYNC = true))
    ∧ (let n : Fin 8 := 7
       let s : State := at0 fun c => (c.flag (R.LANE_MOD_CFG 7) F.LANE_MOD_CFG_EN true).flag (R.LANE_MOD_STAT 7) F.LANE_MOD_STAT_PRESENT true
       (Awake (P.LANE n) s) ∧ (s.chip.is (R.LANE_MOD_CFG n) F.LANE_MOD_CFG_EN = true) ∧ (s.chip.is (R.LANE_MOD_STAT n) F.LANE_MOD_STAT_PRESENT
          = true))
    ∧ (let n : Fin 8 := 7
       let s : State := at0 fun c => (c.flag (R.LANE_MOD_CFG 7) F.LANE_MOD_CFG_EN true).flag (R.LANE_MOD_STAT 7) F.LANE_MOD_STAT_PRESENT true
       (Awake (P.LANE n) s))
    ∧ (let w : Writer := host
       let n : Fin 8 := 7
       let s : State := at0 id
       (May w (R.LANE_MOD_CMD n) s) ∧ (s.chip.is (R.LANE_MOD_STAT n) F.LANE_MOD_STAT_BUSY = false))
    ∧ (let w : Writer := host
       let n : Fin 8 := 7
       let s : State := at0 id
       (May w (R.LANE_MOD_CMD n) s) ∧ (s.chip.is (R.LANE_MOD_STAT n) F.LANE_MOD_STAT_BUSY = false))
    ∧ (let n : Fin 8 := 7
       let wr : Bool := false
       let dev : Bool := true
       let ofs : Nat := 3
       let s : State := at0 fun c => c.updLane 7 fun l => { l with acc := some (false, true, 3) }
       (Awake (P.LANE n) s) ∧ ((s.chip.lane n).acc = some (wr, dev, ofs))) := by decide +kernel

/-- States and operands that meet the hypotheses of EthernetCommands (part 1). -/
theorem witness_EthernetCommands_1 :
      (let e : Fin 2 := 1
       let s : State := at0 fun c => (c.setF (R.LANE_STAT 7) F.LANE_STAT_STATE 8)
       (Awake (P.ETH e) s) ∧ (Ls.ethDown ≤ s.chip.laneState (4 * e.val + 3)))
    ∧ (let e : Fin 2 := 1
       let s : State := at0 id
       (Awake (P.ETH e) s) ∧ (s.chip.laneState (4 * e.val + 3) < Ls.ethDown))
    ∧ (let e : Fin 2 := 1
       let fr : List (BitVec 8) := List.replicate 6 (0xFF : BitVec 8) ++ List.replicate 54 (0 : BitVec 8)
       let s : State := at0 fun c => ((c.setF (R.LANE_STAT 7) F.LANE_STAT_STATE 9).flag (R.ETH_CTL 1) F.ETH_CTL_EN true)
       (Awake (P.ETH e) s) ∧ (s.chip.ethUp e = true) ∧ (60 ≤ fr.length) ∧ (fr.length ≤ 1518))
    ∧ (let e : Fin 2 := 1
       let fr : List (BitVec 8) := List.replicate 60 (7 : BitVec 8)
       let s : State := at0 fun c => ((c.setF (R.LANE_STAT 7) F.LANE_STAT_STATE 9).flag (R.ETH_CTL 1) F.ETH_CTL_EN true)
       (Awake (P.ETH e) s) ∧ (s.chip.ethUp e = true) ∧ (60 ≤ fr.length) ∧ (fr.length ≤ 1518) ∧ (isPause fr = false) ∧ (s.chip.ethAddrOk e
          (fr.take 6) = false))
    ∧ (let e : Fin 2 := 1
       let fr : List (BitVec 8) := List.replicate 6 (0xFF : BitVec 8) ++ List.replicate 54 (0 : BitVec 8)
       let d : Nat := 0
       let s : State := at0 fun c => ((c.setF (R.LANE_STAT 7) F.LANE_STAT_STATE 9).flag (R.ETH_CTL 1) F.ETH_CTL_EN true)
       (Awake (P.ETH e) s) ∧ (s.chip.ethUp e = true) ∧ (60 ≤ fr.length) ∧ (fr.length ≤ 1518) ∧ (isPause fr = false) ∧ (s.chip.ethAddrOk e
          (fr.take 6) = true) ∧ (d = descAt (s.chip.rd (R.ETH_RX_RING e)) (s.chip.f (R.ETH_STAT e) F.ETH_STAT_RX_IDX)) ∧ (nbit
          (s.mem.sramW (d + 4)).toNat 31 = false)) := by decide +kernel

/-- States and operands that meet the hypotheses of EthernetCommands (part 2). -/
theorem witness_EthernetCommands_2 :
      (let e : Fin 2 := 1
       let fr : List (BitVec 8) := List.replicate 6 (0xFF : BitVec 8) ++ List.replicate 54 (0 : BitVec 8)
       let d : Nat := 0
       let s : State := ({ (at0 id) with mem := { (at0 id).mem with sram := [(1, 0x10), (4, 0x40), (7, 0x80)] } } : State).onChip fun c => ((c.setF (R.LANE_STAT 7) F.LANE_STAT_STATE 9).flag (R.ETH_CTL 1) F.ETH_CTL_EN true)
       (Awake (P.ETH e) s) ∧ (s.chip.ethUp e = true) ∧ (60 ≤ fr.length) ∧ (fr.length ≤ 1518) ∧ (isPause fr = false) ∧ (s.chip.ethAddrOk e
          (fr.take 6) = true) ∧ (d = descAt (s.chip.rd (R.ETH_RX_RING e)) (s.chip.f (R.ETH_STAT e) F.ETH_STAT_RX_IDX)) ∧ (nbit
          (s.mem.sramW (d + 4)).toNat 31 = true))
    ∧ (let w : Writer := host
       let e : Fin 2 := 1
       let s : State := ({ (at0 id) with mem := { (at0 id).mem with sram := [(7, 0x80)] } } : State).onChip fun c => c.flag (R.ETH_CTL 1) F.ETH_CTL_EN true
       (May w (R.ETH_TX_KICK e) s) ∧ (s.chip.is (R.ETH_CTL e) F.ETH_CTL_EN = true) ∧ (nbit (s.mem.sramW (descAt (s.chip.rd (R.ETH_TX_RING e))
          (s.chip.f (R.ETH_STAT e) F.ETH_STAT_TX_IDX) + 4)).toNat 31 = true))
    ∧ (let e : Fin 2 := 1
       let d : Nat := 0
       let s : State := ({ (at0 id) with mem := { (at0 id).mem with sram := [(7, 0xC0)] } } : State).onChip fun c => { c with ethBusy := [false, true] }
       (s.chip.powered = true) ∧ (s.chip.time.gated = false) ∧ (nth s.chip.ethBusy e false = true) ∧ (d = descAt (s.chip.rd (R.ETH_TX_RING e))
          (s.chip.f (R.ETH_STAT e) F.ETH_STAT_TX_IDX))) := by decide +kernel

/-- States and operands that meet the hypotheses of RunCommands (part 1). -/
theorem witness_RunCommands_1 :
      (let p : Packet := { { pkt 0x20 5 [0x40005000, 0, 0, 0, 0, 0, 0, 0] with vc := 4, enc := true } with pad := 24 }
       let a : Nat := 0x40005000
       let v : Word := 0
       let k : Nat := 0x5000
       let s : State := at0 fun c => ((c.sesState 0 1).wr (Key.ses 0 0x204) 0xFFFFFFFF)
       (s.chip.powered = true) ∧ (s.chip.time.gated = false) ∧ (s.chip.admitted p = none) ∧ (p.cast = 0) ∧ (regPairs p = [(a, v)]) ∧ (a % 2 =
          0) ∧ (regOffset a = some k) ∧ ((pageAt k).isSome = true) ∧ (k % 0x1000 = H.ID) ∧ (s.chip.right p F.SES_S_RIGHTS_RD = true))
    ∧ (let p : Packet := { { pkt 0x20 5 [0x40005000, 0, 0, 0, 0, 0, 0, 0] with vc := 4, enc := true } with pad := 24 }
       let a : Nat := 0x40005000
       let v : Word := 0
       let s : State := at0 fun c => c.sesState 0 1
       (s.chip.powered = true) ∧ (s.chip.time.gated = false) ∧ (s.chip.admitted p = none) ∧ (p.cast = 0) ∧ (regPairs p = [(a, v)]) ∧ (a % 2 =
          0) ∧ (s.chip.right p F.SES_S_RIGHTS_RD = false))
    ∧ (let p : Packet := { pkt 0x24 5 [] with vc := 4, enc := true }
       let s : State := at0 fun c => ((c.sesState 0 1).wr (Key.ses 0 0x204) 0xFFFFFFFF)
       (s.chip.powered = true) ∧ (s.chip.time.gated = false) ∧ (s.chip.admitted p = none))
    ∧ (let x : Bool := true
       let a : BitVec 29 := 77
       let s : State := at0 fun c => c.setTw true 1
       (s.chip.powered = true) ∧ (s.chip.time.gated = false) ∧ (s.chip.twRuns x = true) ∧ (s.chip.twStalled x = false) ∧ (s.chip.isPriv x .sram
          a.toNat = false))
    ∧ (let x : Bool := true
       let a : BitVec 29 := 0
       let s : State := at0 fun c => (c.setTw true 1).setF (R.TWN_PRIV_S 1) F.TWN_PRIV_S_SIZE 1
       (s.chip.powered = true) ∧ (s.chip.time.gated = false) ∧ (s.chip.twRuns x = true) ∧ (s.chip.twStalled x = false) ∧ (s.chip.isPriv x .sram
          a.toNat = true)) := by decide +kernel

/-- States and operands that meet the hypotheses of RunCommands (part 2). -/
theorem witness_RunCommands_2 :
      (let x : Bool := true
       let s : State := at0 fun c => (c.setTw true 1).updTwin true fun y => { y with rb := List.replicate 512 ⟨.sram, 0, 0, 0, 0, false⟩ }
       (s.chip.powered = true) ∧ (s.chip.time.gated = false) ∧ (s.chip.twRuns x = true) ∧ (s.chip.twStalled x = true))
    ∧ (let x : Bool := true
       let e : RbEnt := ⟨.sram, 5, 0x0102030405060708, 0x81, 0, true⟩
       let r : List RbEnt := []
       let s : State := at0 fun c => c.updTwin true fun y => { y with rb := [⟨.sram, 5, 0x0102030405060708, 0x81, 0, true⟩] }
       (s.chip.powered = true) ∧ (s.chip.time.gated = false) ∧ ((s.chip.twin x).rb = e :: r) ∧ (e.ok = true) ∧ (e.space = .sram) ∧ (e.a + 8 ≤
          sramSize) ∧ (s.chip.mode ≠ .replay) ∧ (s.chip.fab.ringWait = []) ∧ (s.chip.is (R.ETH_CTL 0) F.ETH_CTL_EN = false) ∧ (s.chip.is
          (R.ETH_CTL 1) F.ETH_CTL_EN = false))
    ∧ (let x : Bool := true
       let s : State := State.reset
       (((s.chip.twin x).rb.head?.all fun e => !e.ok) = true))
    ∧ (let s : State := ({ (at0 id) with mem := { State.reset.mem with flashA := (List.range 16).map (fun i => (i, 0)) ++ [(32, 0), (33, 0)] } } : State).onChip fun c => c.updBoot fun b => { b with step := 5 }
       (s.chip.bootAt 5 = true) ∧ (Im.nSect (s.imgByte s.chip.boot.img) = 0) ∧ (Im.afeCal (s.imgByte s.chip.boot.img) = false) ∧
          (s.chip.boot.img < 2)) := by decide +kernel

/-- States and operands that meet the hypotheses of AfeCommands (part 1). -/
theorem witness_AfeCommands_1 :
      (let n : Fin 10 := 9
       let s : State := at0 fun c => c.updAfe 9 fun x => { x with run := true, settling := true }
       (Awake P.SEQ s) ∧ ((s.chip.afe n).run = true))
    ∧ (let n : Fin 10 := 9
       let e : Nat := 0
       let s : State := at0 fun c => c.updAfe 9 fun x => { x with run := true, discard := 3 }
       (Awake P.AFE s) ∧ (s.chip.afeEdge n = some e) ∧ (s.chip.meas.rot = none) ∧ (0 < (s.chip.afe n).discard) ∧ ((s.chip.afe n).changed =
          false))
    ∧ (let n : Fin 10 := 9
       let e : Nat := 0
       let s : State := at0 fun c => c.updAfe 9 fun x => { x with run := true }
       (Awake P.AFE s) ∧ (s.chip.afeEdge n = some e) ∧ (s.chip.meas.rot = none) ∧ ((s.chip.afe n).discard = 0) ∧ ((s.chip.afe n).changed =
          false) ∧ (fget (s.chip.afe n).hi F.SEQ_E_HI0_REPEAT = 0) ∧ (fget (s.chip.afe n).hi F.SEQ_E_HI0_SLOT_EN = 0) ∧ (s.chip.lchDuet
          n = false))
    ∧ (let n : Fin 10 := 9
       let e : Nat := 0
       let s : State := at0 fun c => (c.updAfe 9 fun x => { x with run := true, hi := fset (fset 0 F.SEQ_E_HI0_SLOT_EN 1) F.SEQ_E_HI0_SLOT 77 }).updStr fun x => { x with owners := [(77, Cl.afe 9)] }
       (Awake P.AFE s) ∧ (s.chip.afeEdge n = some e) ∧ (s.chip.meas.rot = none) ∧ ((s.chip.afe n).discard = 0) ∧ ((s.chip.afe n).changed =
          false) ∧ (fget (s.chip.afe n).hi F.SEQ_E_HI0_REPEAT = 0) ∧ (fget (s.chip.afe n).hi F.SEQ_E_HI0_SLOT_EN = 1) ∧ (s.chip.holds
          (Cl.afe n) (fget (s.chip.afe n).hi F.SEQ_E_HI0_SLOT) = true) ∧ (s.chip.lchDuet n = false))
    ∧ (let w : Writer := host
       let s : State := at0 id
       (May w R.AFE_CMD s) ∧ (s.chip.bit R.SEQ_CTL 0 = false) ∧ (s.chip.bit R.SEQ_CTL 1 = false) ∧ (s.chip.is R.AFE_CTL F.AFE_CTL_LP = false) ∧
          (s.chip.meas.rot = none)) := by decide +kernel

/-- States and operands that meet the hypotheses of AfeCommands (part 2). -/
theorem witness_AfeCommands_2 :
      (let w : Writer := host
       let h : Fin 2 := 1
       let s : State := at0 fun c => c.setBit R.SEQ_CTL 1 true
       (May w R.AFE_CMD s) ∧ (s.chip.bit R.SEQ_CTL h = true ∨ s.chip.is R.AFE_CTL F.AFE_CTL_LP = true ∨ s.chip.meas.rot ≠ none))
    ∧ (let m : Fin 12 := 11
       let r : List Nat := []
       let s : State := at0 fun c => c.updMeas fun x => { x with cal := [[], [11]] }
       (Awake P.AFE s) ∧ (s.chip.meas.rot = none) ∧ (nth s.chip.meas.cal (modHalf m) [] = m.val :: r))
    ∧ (let m : Fin 12 := 11
       let x : AfeRot := ⟨0, 11, 3, 0, true⟩
       let s : State := at0 fun c => c.updMeas fun x => { x with rot := some ⟨0, 11, 3, 0, true⟩ }
       (Awake P.AFE s) ∧ (s.chip.meas.rot = some x) ∧ (x.calibrating = true) ∧ (x.old = m.val))
    ∧ (let w : Writer := host
       let lch : BitVec 4 := 9
       let spare : BitVec 4 := 11
       let s : State := at0 fun c => ((c.setBit R.AFE_STAT 11 true).setBit R.AFE_STAT 27 true).setBit R.SEQ_CTL 1 true
       (May w R.AFE_CMD s) ∧ (lch.toNat < 10) ∧ (spare.toNat < 12) ∧ (s.chip.bit R.AFE_STAT spare.toNat = true) ∧ (s.chip.bit R.AFE_STAT (16 +
          spare.toNat) = true) ∧ (s.chip.meas.rot = none) ∧ (s.chip.meas.cal.all List.isEmpty = true) ∧ (s.chip.lchDuet lch.toNat =
          false) ∧ (s.chip.bit R.SEQ_CTL (lch.toNat / 5) = true))
    ∧ (let w : Writer := host
       let lch : BitVec 4 := 10
       let spare : BitVec 4 := 11
       let s : State := at0 id
       (May w R.AFE_CMD s) ∧ (10 ≤ lch.toNat ∨ s.chip.bit R.AFE_STAT spare.toNat = false ∨ s.chip.meas.rot ≠ none ∨ s.chip.lchDuet lch.toNat =
          true)) := by decide +kernel

/-- States and operands that meet the hypotheses of XmdCommands (part 1). -/
theorem witness_XmdCommands_1 :
      (let ch : Fin 24 := 23
       let wave : List Bool := []
       let tap : XmdTap := { bits := List.replicate 22 true }
       let n : Nat := 0
       let s : State := at0 fun c => (((c.setF (R.XMD_CH_IN 1 11) F.XMD_CH_IN_MODE 2).setF (R.XMD_CH_IN 1 11) F.XMD_CH_IN_MAN_MBPS 20).setF (R.XMD_CH_CF 1 11) F.XMD_CH_CF_OSR 8).updXmd 23 fun x => { x with ctl := { bits := List.replicate 22 true } }
       (Awake (P.XMD (ch.val / 12)) s) ∧ (s.chip.xmdLive ch = true) ∧ (s.chip.xmdTake ch (s.chip.xmd ch).ctl wave = (tap, n)) ∧ (fget
          (s.chip.rd (R.XMD_CH_CF (ch.val / 12) (ch.val % 12))) F.XMD_CH_CF_SLOT_EN = 0) ∧ (ch.val < s.chip.meas.xmd.length) ∧
          ((s.chip.xmd ch).los = false) ∧ ((s.chip.xmd ch).staleOut = 0) ∧ ((s.chip.xmd ch).good = none) ∧ (s.chip.manOk ch = true) ∧ (3
          * fget (s.chip.rd (R.XMD_CH_CF (ch.val / 12) (ch.val % 12))) F.XMD_CH_CF_OSR ≤ tap.bits.length + 2))
    ∧ (let ch : Fin 24 := 23
       let wave : List Bool := []
       let tap : XmdTap := { bits := List.replicate 22 true }
       let n : Nat := 0
       let s : State := at0 fun c => (((c.setF (R.XMD_CH_IN 1 11) F.XMD_CH_IN_MODE 2).setF (R.XMD_CH_IN 1 11) F.XMD_CH_IN_MAN_MBPS 20).setF (R.XMD_CH_CF 1 11) F.XMD_CH_CF_OSR 8).updXmd 23 fun x => { x with ctl := { bits := List.replicate 22 true }, los := true, last := 0x800001, lastSat := true }
       (Awake (P.XMD (ch.val / 12)) s) ∧ (s.chip.xmdLive ch = true) ∧ (s.chip.xmdTake ch (s.chip.xmd ch).ctl wave = (tap, n)) ∧ (fget
          (s.chip.rd (R.XMD_CH_CF (ch.val / 12) (ch.val % 12))) F.XMD_CH_CF_SLOT_EN = 0) ∧ (ch.val < s.chip.meas.xmd.length) ∧
          ((s.chip.xmd ch).los = true) ∧ ((s.chip.xmd ch).last < 2 ^ 24) ∧ (s.chip.manOk ch = true) ∧ (3 * fget (s.chip.rd (R.XMD_CH_CF
          (ch.val / 12) (ch.val % 12))) F.XMD_CH_CF_OSR ≤ tap.bits.length + 2)) := by decide +kernel

/-- States and operands that meet the hypotheses of XmdCommands (part 2). -/
theorem witness_XmdCommands_2 :
      (let ch : Fin 24 := 23
       let v : Bool := true
       let b : Bool := true
       let tap : XmdTap := { level := true, bits := List.replicate 32 true }
       let s : State := at0 fun c => ((((c.setF (R.XMD_CH_IN 1 11) F.XMD_CH_IN_MODE 2).setF (R.XMD_CH_IN 1 11) F.XMD_CH_IN_MAN_MBPS 20).setF (R.XMD_CH_PF 1 11) F.XMD_CH_PF_OSR 8).setF (R.XMD_CH_LIM 1 11) F.XMD_CH_LIM_LIM_HI 5).updXmd 23 fun x => { x with prot := { ph := 20, bits := List.replicate 31 true } }
       (s.chip.powered = true) ∧ (s.chip.xmdLive ch = true) ∧ ((s.chip.xmd ch).los = false) ∧ (ch.val < s.chip.meas.xmd.length) ∧
          (s.chip.xmdEdge ch (s.chip.xmd ch).prot v = (tap, some b)) ∧ ((s.chip.f (R.XMD_CH_PF (ch.val / 12) (ch.val % 12))
          F.XMD_CH_PF_ORDER + 1) * (s.chip.f (R.XMD_CH_PF (ch.val / 12) (ch.val % 12)) F.XMD_CH_PF_OSR) ≤ tap.bits.length) ∧
          (s.chip.manOk ch = true) ∧ (4 ≤ (s.chip.f (R.XMD_CH_PF (ch.val / 12) (ch.val % 12)) F.XMD_CH_PF_OSR)) ∧ ((s.chip.f
          (R.XMD_CH_PF (ch.val / 12) (ch.val % 12)) F.XMD_CH_PF_OSR) ≤ 32) ∧ (s.chip.is (R.XMD_CH_PF (ch.val / 12) (ch.val % 12))
          F.XMD_CH_PF_SHD = false)) := by decide +kernel

/-- States and operands that meet the hypotheses of XmdCommands (part 3). -/
theorem witness_XmdCommands_3 :
      (let ch : Fin 24 := 23
       let v : Bool := true
       let b : Bool := true
       let tap : XmdTap := { level := true, bits := List.replicate 32 true }
       let s : State := at0 fun c => (((((c.setF (R.XMD_CH_IN 1 11) F.XMD_CH_IN_MODE 2).setF (R.XMD_CH_IN 1 11) F.XMD_CH_IN_MAN_MBPS 20).flag (R.XMD_CH_PF 1 11) F.XMD_CH_PF_SHD true).setF (R.XMD_CH_PF 1 11) F.XMD_CH_PF_OSR 8).setF (R.XMD_CH_LIM 1 11) F.XMD_CH_LIM_LIM_HI 5).updXmd 23 fun x => { x with prot := { ph := 20, bits := List.replicate 31 true } }
       (s.chip.powered = true) ∧ (s.chip.xmdLive ch = true) ∧ ((s.chip.xmd ch).los = false) ∧ (ch.val < s.chip.meas.xmd.length) ∧
          (s.chip.xmdEdge ch (s.chip.xmd ch).prot v = (tap, some b)) ∧ ((s.chip.f (R.XMD_CH_PF (ch.val / 12) (ch.val % 12))
          F.XMD_CH_PF_ORDER + 1) * (s.chip.f (R.XMD_CH_PF (ch.val / 12) (ch.val % 12)) F.XMD_CH_PF_OSR) ≤ tap.bits.length) ∧
          (s.chip.manOk ch = true) ∧ (4 ≤ (s.chip.f (R.XMD_CH_PF (ch.val / 12) (ch.val % 12)) F.XMD_CH_PF_OSR)) ∧ ((s.chip.f
          (R.XMD_CH_PF (ch.val / 12) (ch.val % 12)) F.XMD_CH_PF_OSR) ≤ 32) ∧ (s.chip.is (R.XMD_CH_PF (ch.val / 12) (ch.val % 12))
          F.XMD_CH_PF_SHD = true) ∧ (s.chip.bit R.SHD_DEMAND_XMD ch = false) ∧ ((decide (s.chip.f (R.XMD_CH_PF (ch.val / 12) (ch.val %
          12)) F.XMD_CH_PF_PERSIST < if s.chip.fs (R.XMD_CH_LIM (ch.val / 12) (ch.val % 12)) F.XMD_CH_LIM_LIM_HI < (clampI (-32768)
          32767 (rhe (sincSum (s.chip.f (R.XMD_CH_PF (ch.val / 12) (ch.val % 12)) F.XMD_CH_PF_ORDER + 1) (s.chip.f (R.XMD_CH_PF (ch.val
          / 12) (ch.val % 12)) F.XMD_CH_PF_OSR) tap.bits * 2 ^ 15) ((s.chip.f (R.XMD_CH_PF (ch.val / 12) (ch.val % 12)) F.XMD_CH_PF_OSR)
          ^ (s.chip.f (R.XMD_CH_PF (ch.val / 12) (ch.val % 12)) F.XMD_CH_PF_ORDER + 1)))) then (s.chip.xmd ch).hiN + 1 else 0) || decide
          (s.chip.f (R.XMD_CH_PF (ch.val / 12) (ch.val % 12)) F.XMD_CH_PF_PERSIST < if (clampI (-32768) 32767 (rhe (sincSum (s.chip.f
          (R.XMD_CH_PF (ch.val / 12) (ch.val % 12)) F.XMD_CH_PF_ORDER + 1) (s.chip.f (R.XMD_CH_PF (ch.val / 12) (ch.val % 12))
          F.XMD_CH_PF_OSR) tap.bits * 2 ^ 15) ((s.chip.f (R.XMD_CH_PF (ch.val / 12) (ch.val % 12)) F.XMD_CH_PF_OSR) ^ (s.chip.f
          (R.XMD_CH_PF (ch.val / 12) (ch.val % 12)) F.XMD_CH_PF_ORDER + 1)))) < s.chip.fs (R.XMD_CH_LIM (ch.val / 12) (ch.val % 12))
          F.XMD_CH_LIM_LIM_LO then (s.chip.xmd ch).loN + 1 else 0)) = true)) := by decide +kernel

/-- States and operands that meet the hypotheses of XmdCommands (part 4). -/
theorem witness_XmdCommands_4 :
      (let ch : Fin 24 := 23
       let v : Bool := false
       let tap : XmdTap := { ph := 1 }
       let s : State := at0 fun c => ((c.setF (R.XMD_CH_IN 1 11) F.XMD_CH_IN_MODE 2).setF (R.XMD_CH_IN 1 11) F.XMD_CH_IN_MAN_MBPS 20)
       (s.chip.powered = true) ∧ (s.chip.xmdLive ch = true) ∧ (s.chip.xmdEdge ch (s.chip.xmd ch).prot v = (tap, none)))
    ∧ (let ch : Fin 24 := 23
       let s : State := at0 fun c => (c.setF (R.XMD_CH_IN 1 11) F.XMD_CH_IN_MODE 2)
       (s.chip.powered = true) ∧ (s.chip.xmdMode ch ≠ 0) ∧ ((s.chip.xmd ch).los = false) ∧ (s.chip.is (R.XMD_CH_PF (ch.val / 12) (ch.val % 12))
          F.XMD_CH_PF_SHD = false))
    ∧ (let ch : Fin 24 := 23
       let s : State := at0 fun c => (c.setF (R.XMD_CH_IN 1 11) F.XMD_CH_IN_MODE 2).flag (R.XMD_CH_PF 1 11) F.XMD_CH_PF_SHD true
       (s.chip.powered = true) ∧ (s.chip.xmdMode ch ≠ 0) ∧ ((s.chip.xmd ch).los = false) ∧ (s.chip.is (R.XMD_CH_PF (ch.val / 12) (ch.val % 12))
          F.XMD_CH_PF_SHD = true) ∧ (ch.val < s.chip.meas.xmd.length) ∧ (s.chip.bit R.SHD_DEMAND_XMD ch = false))
    ∧ (let ch : Fin 24 := 23
       let s : State := at0 fun c => c.updXmd 23 fun x => { x with los := true }
       (s.chip.powered = true) ∧ ((s.chip.xmd ch).los = true) ∧ ((s.chip.xmd ch).hi = false) ∧ ((s.chip.xmd ch).lo = false))
    ∧ (let ch : Fin 24 := 23
       let s : State := at0 fun c => (c.setF (R.XMD_CH_IN 1 11) F.XMD_CH_IN_MODE 2)
       (Awake (P.XMD (ch.val / 12)) s) ∧ (s.chip.xmdMode ch = 2)) := by decide +kernel

/-- States and operands that meet the hypotheses of ComparatorCommands. -/
theorem witness_ComparatorCommands :
      (let n : Fin 16 := 15
       let s : State := at0 fun c => (((c.setF (R.ACMP_CH_CFG 15) F.ACMP_CH_CFG_MODE 1).flag (R.ACMP_CH_CFG 15) F.ACMP_CH_CFG_TRIP_HI_EN true).setF (R.ACMP_CH_TH 15) F.ACMP_CH_TH_TH_HI 100)
       (s.chip.powered = true) ∧ (s.chip.f (R.ACMP_CH_CFG n) F.ACMP_CH_CFG_MODE = 1 ∨ s.chip.f (R.ACMP_CH_CFG n) F.ACMP_CH_CFG_MODE = 2) ∧
          (s.chip.is (R.ACMP_CH_CFG n) F.ACMP_CH_CFG_SHD = false))
    ∧ (let n : Fin 16 := 15
       let uv : BitVec 24 := 900000
       let s : State := at0 fun c => (((c.setF (R.ACMP_CH_CFG 15) F.ACMP_CH_CFG_MODE 1).flag (R.ACMP_CH_CFG 15) F.ACMP_CH_CFG_TRIP_HI_EN true).setF (R.ACMP_CH_TH 15) F.ACMP_CH_TH_TH_HI 100).flag (R.ACMP_CH_CFG 15) F.ACMP_CH_CFG_SHD true
       (s.chip.powered = true) ∧ (s.chip.f (R.ACMP_CH_CFG n) F.ACMP_CH_CFG_MODE = 1 ∨ s.chip.f (R.ACMP_CH_CFG n) F.ACMP_CH_CFG_MODE = 2) ∧
          (s.chip.is (R.ACMP_CH_CFG n) F.ACMP_CH_CFG_SHD = true) ∧ (n.val < s.chip.meas.acmp.length) ∧ ((s.chip.acmp n).blank = false) ∧
          ((s.chip.acmp n).testing = false) ∧ (s.chip.bit R.SHD_DEMAND_AG n = false) ∧ (s.chip.acmpTripped n (s.chip.acmpRegion n
          uv.toNat) = true))
    ∧ (let w : Writer := host
       let s : State := at0 id
       (May w R.ACMP_CMD s) ∧ (s.chip.running = false) ∧ (s.chip.meas.tests = []))
    ∧ (let w : Writer := host
       let s : State := at0 fun c => { c with mode := .run }
       (May w R.ACMP_CMD s) ∧ (s.chip.running = true))
    ∧ (let n : Nat := 15
       let r : List Nat := [3]
       let s : State := at0 fun c => c.updMeas fun m => { m with tests := [15, 3] }
       (Awake P.ACMP s) ∧ (s.chip.meas.tests = n :: r) ∧ (n < 16)) := by decide +kernel

/-- States and operands that meet the hypotheses of StrideCommands (part 1). -/
theorem witness_StrideCommands_1 :
      (let f : Frame := ⟨1, 24, 1023, 0x7FFFFF00⟩
       let r : List Frame := [⟨2, 24, 3, 0⟩]
       let s : State := at0 fun c => { c with meas := { c.meas with frames := [⟨1, 24, 1023, 0x7FFFFF00⟩, ⟨2, 24, 3, 0⟩] } }
       (s.chip.powered = true) ∧ (s.chip.time.gated = false) ∧ (s.chip.meas.frames = f :: r))
    ∧ (let w : Writer := host
       let trig : BitVec 8 := 128
       let g : Fin 8 := 7
       let s : State := at0 fun c => ({ c with mode := .ready } : Chip).updGrp 7 fun x => { x with en := true }
       (May w R.STR_SWTRIG s) ∧ (trig.toNat = 2 ^ g.val) ∧ (s.chip.mode ≠ .boot) ∧ ((s.chip.grp g).en = true) ∧ ((s.chip.grp g).busy = false))
    ∧ (let w : Writer := host
       let trig : BitVec 8 := 128
       let g : Fin 8 := 7
       let s : State := at0 fun c => ({ c with mode := .ready } : Chip).updGrp 7 fun x => { x with en := true, busy := true }
       (May w R.STR_SWTRIG s) ∧ (trig.toNat = 2 ^ g.val) ∧ (s.chip.mode ≠ .boot) ∧ ((s.chip.grp g).en = true) ∧ ((s.chip.grp g).busy = true) ∧
          ((s.chip.grp g).pend = false))
    ∧ (let w : Writer := host
       let trig : BitVec 8 := 128
       let g : Fin 8 := 7
       let s : State := at0 fun c => ({ c with mode := .ready } : Chip).updGrp 7 fun x => { x with en := true, busy := true, pend := true }
       (May w R.STR_SWTRIG s) ∧ (trig.toNat = 2 ^ g.val) ∧ (s.chip.mode ≠ .boot) ∧ ((s.chip.grp g).en = true) ∧ ((s.chip.grp g).busy = true) ∧
          ((s.chip.grp g).pend = true))
    ∧ (let g : Fin 8 := 7
       let s : State := at0 fun c => ({ c with mode := .ready } : Chip).updGrp 7 fun x => { x with en := true, cfg := fset 0x10000 F.STR_RG_CFG_MODE 2, due := 3 }
       (Awake P.STR s) ∧ (s.chip.mode ≠ .boot) ∧ ((s.chip.grp g).en = true) ∧ ((s.chip.grp g).busy = false) ∧ ((s.chip.grp g).mode = 2) ∧ (0 <
          (s.chip.grp g).due)) := by decide +kernel

/-- States and operands that meet the hypotheses of StrideCommands (part 2). -/
theorem witness_StrideCommands_2 :
      (let g : Fin 8 := 7
       let s : State := at0 fun c => ({ c with mode := .ready } : Chip).updGrp 7 fun x => { x with en := true, cfg := fset 0x10000 F.STR_RG_CFG_MODE 1, tsl0 := 0x8005, got := [5] }
       (Awake P.STR s) ∧ (s.chip.mode ≠ .boot) ∧ ((s.chip.grp g).en = true) ∧ ((s.chip.grp g).busy = false) ∧ ((s.chip.grp g).mode = 1) ∧
          ((s.chip.grp g).trigSlots ≠ []) ∧ ((s.chip.grp g).trigSlots.all (s.chip.grp g).got.contains = true))
    ∧ (let g : Fin 8 := 7
       let s : State := at0 fun c => ({ c with mode := .ready } : Chip).updGrp 7 fun x => { x with en := true, cfg := fset (fset 0x10000 F.STR_RG_CFG_MODE 3) F.STR_RG_CFG_DIV 2, div := 2 }
       (Awake P.STR s) ∧ (s.chip.mode ≠ .boot) ∧ ((s.chip.grp g).en = true) ∧ ((s.chip.grp g).busy = false) ∧ ((s.chip.grp g).mode = 3) ∧
          ((s.chip.grp g).divN ≤ (s.chip.grp g).div))
    ∧ (let g : Fin 8 := 7
       let s : State := at0 fun c => ({ c with mode := .ready } : Chip).updGrp 7 fun x => { x with en := true, cfg := fset 0x10000 F.STR_RG_CFG_MODE 1, tsl0 := 0x8005, win := true }
       (Awake P.STR s) ∧ (s.chip.mode ≠ .boot) ∧ ((s.chip.grp g).en = true) ∧ ((s.chip.grp g).busy = false) ∧ ((s.chip.grp g).mode = 1) ∧
          ((s.chip.grp g).win = true) ∧ ((s.chip.grp g).trigSlots.all (s.chip.grp g).got.contains = false))
    ∧ (let g : Fin 8 := 7
       let s : State := at0 fun c => ({ c with mode := .ready } : Chip).updGrp 7 fun x => { x with en := true, busy := true }
       (Awake P.STR s) ∧ ((s.chip.grp g).busy = true) ∧ ((s.chip.grp g).disp = false))
    ∧ (let n : Fin 512 := 0
       let g : Nat := 0
       let s : State := at0 fun c => c.updGrp 0 fun x => { x with disp := true, list := [0], secs := [(Key.sec 0 0, fset (fset 0 F.STRW_SEC_CFG_EN 1) F.STRW_SEC_CFG_TYPE 1)] }
       (Awake P.STR s) ∧ ((List.range 8).find? (fun g => s.chip.mayIssue g n) = some g)) := by decide +kernel

/-- States and operands that meet the hypotheses of StrideCommands (part 3). -/
theorem witness_StrideCommands_3 :
      (let n : Fin 512 := 0
       let g : Nat := 0
       let s : State := at0 fun c => c.updGrp 0 fun x => { x with disp := true, list := [0], secs := [(Key.sec 0 0, fset (fset 0 F.STRW_SEC_CFG_EN 1) F.STRW_SEC_CFG_TYPE 1)] }
       (Awake P.STR s) ∧ ((List.range 8).find? (fun g => s.chip.mayIssue g n) = some g))
    ∧ (let n : Fin 512 := 0
       let g : Nat := 0
       let s : State := at0 fun c => c.updGrp 0 fun x => { x with disp := true, list := [0], secs := [(Key.sec 0 0, fset (fset 0 F.STRW_SEC_CFG_EN 1) F.STRW_SEC_CFG_TYPE 1)] }
       (Awake P.STR s) ∧ ((List.range 8).find? (fun g => s.chip.mayIssue g n) = some g))
    ∧ (let n : Fin 512 := 0
       let g : Nat := 0
       let k : Fin 1024 := 1023
       let s : State := at0 fun c => c.updGrp 0 fun x => { x with disp := true, list := [0], secs := [(Key.sec 0 0, fset (fset 0 F.STRW_SEC_CFG_EN 1) F.STRW_SEC_CFG_TYPE 9), (Key.sec 0 4, 0x83FF)] }
       (Awake P.STR s) ∧ ((List.range 8).find? (fun g => s.chip.mayIssue g n) = some g) ∧ (fget (((s.chip.grp g)).sec n 0) F.STRW_SEC_CFG_TYPE
          = 9) ∧ (secInput (((s.chip.grp g)).sec n 4) (((s.chip.grp g)).sec n 8) 0 = some k.val))
    ∧ (let n : Fin 512 := 0
       let g : Nat := 0
       let e : Fin 4096 := 0
       let s : State := at0 fun c => c.updGrp 0 fun x => { x with disp := true, list := [0], secs := [(Key.sec 0 0, fset (fset 0 F.STRW_SEC_CFG_EN 1) F.STRW_SEC_CFG_TYPE 8)] }
       (Awake P.STR s) ∧ ((List.range 8).find? (fun g => s.chip.mayIssue g n) = some g) ∧ ((s.chip.secIn g n (s.chip.rd (Key.sec n 0x60))
          (s.chip.rd (Key.sec n 0x64)) (s.chip.rd (Key.sec n 0x68))).reads (fun i => secInput (((s.chip.grp g)).sec n 4) (((s.chip.grp
          g)).sec n 8) i) (.table e) = true)) := by decide +kernel

/-- States and operands that meet the hypotheses of StrideCommands (part 4). -/
theorem witness_StrideCommands_4 :
      (let g : Fin 8 := 7
       let k : Fin 1024 := 9
       let s : State := at0 fun c => ((({ c with mode := .ready } : Chip).updGrp 7 fun x => { x with en := true, busy := true }).setBit R.PCR_CTL 3 true).wr (R.PCR_CH_CFG 3) (fset (fset (fset 0#32 F.PCR_CH_CFG_RG 7) F.PCR_CH_CFG_TGT_SRC 1) F.PCR_CH_CFG_TSLOT 9)
       (Awake P.STR s) ∧ ((s.chip.grp g).busy = true) ∧ ((s.chip.grp g).disp = false) ∧ (((s.chip.dispatch g).pcrReads g).contains k.val =
          true))
    ∧ (let n : Fin 512 := 511
       let g : Nat := 3
       let r : SecRes := ⟨511, [(77, 0x7FFFFF00)], [], [], [true], false⟩
       let k : Nat := 77
       let v : Word := 0x7FFFFF00
       let s : State := at0 fun c => (c.updGrp 3 fun x => { x with dup := false, fly := [⟨511, [(77, 0x7FFFFF00)], [], [], [true], false⟩] }).updStr fun x => { x with owners := [(77, Cl.sec 511)] }
       (Awake P.STR s) ∧ ((List.range 8).find? (fun g => (s.chip.grp g).fly.any fun r => decide (r.sec = n.val)) = some g) ∧ ((s.chip.grp
          g).fly.find? (fun r => decide (r.sec = n.val)) = some r) ∧ ((s.chip.grp g).dup = false) ∧ (r.outs = [(k, v)]) ∧ (s.chip.holds
          (Cl.sec n) k = true))
    ∧ (let n : Fin 512 := 511
       let fault : BitVec 2 := 1
       let g : Nat := 3
       let r : SecRes := ⟨511, [(77, 0x7FFFFF00)], [], [], [true], false⟩
       let s : State := at0 fun c => (c.updGrp 3 fun x => { x with dup := true, fly := [⟨511, [(77, 0x7FFFFF00)], [], [], [true], false⟩] }).updStr fun x => { x with owners := [(77, Cl.sec 511)] }
       (Awake P.STR s) ∧ ((List.range 8).find? (fun g => (s.chip.grp g).fly.any fun r => decide (r.sec = n.val)) = some g) ∧ ((s.chip.grp
          g).fly.find? (fun r => decide (r.sec = n.val)) = some r) ∧ ((s.chip.grp g).dup = true) ∧ (r.outs.length = 1) ∧ (fault.getLsbD
          0 = true ∨ r.same = [false]))
    ∧ (let w : Writer := host
       let s : State := at0 fun c => c.wr (R.STR_RG_OVR 7) 5
       (May w R.STR_CMD s)) := by decide +kernel

/-- States and operands that meet the hypotheses of StrideCommands (part 5). -/
theorem witness_StrideCommands_5 :
      (let s : State := at0 id
       (Awake P.STR s))
    ∧ (let s : State := at0 id
       (Awake P.STR s)) := by decide +kernel

/-- States and operands that meet the hypotheses of PacerCommands (part 1). -/
theorem witness_PacerCommands_1 :
      (let w : Writer := host
       let k : Fin 16 := 15
       let s : State := at0 id
       (May w R.PCR_CMD s) ∧ ((s.chip.grp (s.chip.pcrRg k)).en = false) ∧ ((s.chip.grp (s.chip.pcrRg k)).busy = false) ∧ (s.chip.bit
          R.PCR_ESTAT k = false))
    ∧ (let w : Writer := host
       let k : Fin 16 := 15
       let s : State := at0 fun c => c.setBit R.PCR_STAT 31 true
       (May w R.PCR_CMD s) ∧ ((s.chip.grp (s.chip.pcrRg k)).en = false) ∧ ((s.chip.grp (s.chip.pcrRg k)).busy = false) ∧ (s.chip.bit
          R.PCR_ESTAT k = false))
    ∧ (let w : Writer := host
       let k : Fin 16 := 15
       let s : State := at0 id
       (May w R.PCR_CMD s) ∧ ((s.chip.grp (s.chip.pcrRg k)).en = false) ∧ ((s.chip.grp (s.chip.pcrRg k)).busy = false) ∧ (s.chip.bit
          R.PCR_ESTAT k = false))
    ∧ (let w : Writer := host
       let k : Fin 16 := 15
       let s : State := at0 fun c => c.setBit R.PCR_ESTAT 15 true
       (May w R.PCR_CMD s) ∧ ((s.chip.grp (s.chip.pcrRg k)).en = false) ∧ ((s.chip.grp (s.chip.pcrRg k)).busy = false) ∧ (s.chip.bit
          R.PCR_ESTAT k = true) ∧ ((nth s.chip.str.pcr k {}).p = s.chip.pcrTgt k (s.chip.rd (R.PCR_CH_ETGT k))))
    ∧ (let w : Writer := host
       let k : Fin 16 := 15
       let s : State := at0 fun c => c.wr (R.PCR_CH_TGT 15) 0x800001
       (May w R.PCR_CMD s) ∧ ((s.chip.grp (s.chip.pcrRg k)).en = false) ∧ ((s.chip.grp (s.chip.pcrRg k)).busy = false))
    ∧ (let w : Writer := host
       let k : Fin 16 := 15
       let s : State := at0 fun c => (({ c with mode := .run } : Chip).setBit R.PCR_CTL 15 true).updGrp 0 fun x => { x with en := true }
       (May w R.PCR_CMD s) ∧ (s.chip.presetOk k = false)) := by decide +kernel

/-- States and operands that meet the hypotheses of PacerCommands (part 2). -/
theorem witness_PacerCommands_2 :
      (let w : Writer := host
       let k : Fin 16 := 15
       let s : State := at0 fun c => c.updGrp 0 fun x => { x with en := true }
       (May w R.PCR_CMD s) ∧ ((s.chip.grp (s.chip.pcrRg k)).en = true))
    ∧ (let w : Writer := host
       let k : Fin 16 := 15
       let s : State := at0 fun c => c.updGrp 0 fun x => { x with en := true }
       (May w R.PCR_CMD s) ∧ ((s.chip.grp (s.chip.pcrRg k)).en = true))
    ∧ (let w : Writer := host
       let k : Fin 16 := 15
       let s : State := at0 fun c => c.updGrp 0 fun x => { x with en := true }
       (May w R.PCR_CMD s) ∧ ((s.chip.grp (s.chip.pcrRg k)).en = true))
    ∧ (let w : Writer := host
       let k : Fin 16 := 15
       let s : State := at0 fun c => c.updGrp 0 fun x => { x with en := true }
       (May w R.PCR_CMD s) ∧ ((s.chip.grp (s.chip.pcrRg k)).en = true)) := by decide +kernel

/-- States and operands that meet the hypotheses of PwmCommands (part 1). -/
theorem witness_PwmCommands_1 :
      (let port : Fin 48 := 47
       let p : PortWr := ⟨47, 0x40000000, some 3, 5⟩
       let s : State := at0 fun c => (c.wr (R.STR_OUT_CFG 47) (fset (fset (fset 0 F.STR_OUT_CFG_EN 1) F.STR_OUT_CFG_CH 15) F.STR_OUT_CFG_REG 0)).updStr fun x => { x with ports := [⟨2, 3, none, 0⟩, ⟨47, 0x40000000, some 3, 5⟩] }
       (Awake P.STR s) ∧ (s.chip.str.ports.find? (fun p => decide (p.port = port.val)) = some p) ∧ (fget (s.chip.rd (R.STR_OUT_CFG port))
          F.STR_OUT_CFG_EN = 1) ∧ (s.chip.portBad port = false) ∧ (fget (s.chip.rd (R.STR_OUT_CFG port)) F.STR_OUT_CFG_HOLD_STALE = 0) ∧
          (fget (s.chip.rd (R.STR_OUT_CFG port)) F.STR_OUT_CFG_IMM = 0) ∧ (fget (s.chip.rd (R.STR_OUT_CFG port)) F.STR_OUT_CFG_REG = 0))
    ∧ (let port : Fin 48 := 47
       let p : PortWr := ⟨47, 0x40000000, some 3, 5⟩
       let s : State := at0 fun c => (c.wr (R.STR_OUT_CFG 47) (fset (fset (fset 0 F.STR_OUT_CFG_EN 1) F.STR_OUT_CFG_CH 15) F.STR_OUT_CFG_REG 1)).updStr fun x => { x with ports := [⟨2, 3, none, 0⟩, ⟨47, 0x40000000, some 3, 5⟩] }
       (Awake P.STR s) ∧ (s.chip.str.ports.find? (fun p => decide (p.port = port.val)) = some p) ∧ (fget (s.chip.rd (R.STR_OUT_CFG port))
          F.STR_OUT_CFG_EN = 1) ∧ (s.chip.portBad port = false) ∧ (fget (s.chip.rd (R.STR_OUT_CFG port)) F.STR_OUT_CFG_HOLD_STALE = 0) ∧
          (fget (s.chip.rd (R.STR_OUT_CFG port)) F.STR_OUT_CFG_IMM = 0) ∧ (fget (s.chip.rd (R.STR_OUT_CFG port)) F.STR_OUT_CFG_REG = 1)) := by decide +kernel

/-- States and operands that meet the hypotheses of PwmCommands (part 2). -/
theorem witness_PwmCommands_2 :
      (let port : Fin 48 := 47
       let p : PortWr := ⟨47, 0x40000000, some 3, 5⟩
       let s : State := at0 fun c => (c.wr (R.STR_OUT_CFG 47) (fset (fset (fset 0 F.STR_OUT_CFG_EN 1) F.STR_OUT_CFG_CH 15) F.STR_OUT_CFG_REG 2)).updStr fun x => { x with ports := [⟨2, 3, none, 0⟩, ⟨47, 0x40000000, some 3, 5⟩] }
       (Awake P.STR s) ∧ (s.chip.str.ports.find? (fun p => decide (p.port = port.val)) = some p) ∧ (fget (s.chip.rd (R.STR_OUT_CFG port))
          F.STR_OUT_CFG_EN = 1) ∧ (s.chip.portBad port = false) ∧ (fget (s.chip.rd (R.STR_OUT_CFG port)) F.STR_OUT_CFG_HOLD_STALE = 0) ∧
          (fget (s.chip.rd (R.STR_OUT_CFG port)) F.STR_OUT_CFG_IMM = 0) ∧ (fget (s.chip.rd (R.STR_OUT_CFG port)) F.STR_OUT_CFG_REG = 2))
    ∧ (let n : Fin 4 := 3
       let s : State := at0 fun c => ((((c.setBit R.PWT_CTL 3 true).setF (R.PWMC_CFG 15) F.PWMC_CFG_TB 3).setF (R.PWT_TB_CFG 3) F.PWT_TB_CFG_OWNER 15).flag (R.PWT_TB_STAT 3) F.PWT_TB_STAT_RUNNING true)
       (Awake P.PWT s) ∧ ((s.chip.tb n).startDue = false) ∧ (s.chip.tbRuns n = true) ∧ (s.chip.bit R.PWT_CTL n = true) ∧ (s.chip.tbBad n =
          false))
    ∧ (let n : Fin 4 := 3
       let s : State := at0 fun c => c.updTb 3 fun x => { x with startDue := true }
       (Awake P.PWT s) ∧ ((s.chip.tb n).startDue = true))
    ∧ (let n : Fin 4 := 3
       let s : State := at0 fun c => (c.flag (R.PWT_TB_STAT 3) F.PWT_TB_STAT_RUNNING true)
       (Awake P.PWT s) ∧ ((s.chip.tb n).startDue = false) ∧ (s.chip.tbRuns n = true) ∧ (s.chip.bit R.PWT_CTL n = false))
    ∧ (let n : Fin 4 := 3
       let s : State := at0 fun c => (c.flag (R.PWT_TB_STAT 3) F.PWT_TB_STAT_RUNNING true).flag (R.PWT_TB_CFG 3) F.PWT_TB_CFG_MODE true
       (Awake P.PWT s) ∧ (s.chip.tbRuns n = true) ∧ (s.chip.tbUd n = true) ∧ (s.chip.is (R.PWT_TB_STAT n) F.PWT_TB_STAT_DOWN = false)) := by decide +kernel

/-- States and operands that meet the hypotheses of PwmCommands (part 3). -/
theorem witness_PwmCommands_3 :
      (let k : Fin 16 := 15
       let rise : Bool := false
       let e : Int × Bool := (40, false)
       let s : State := at0 fun c => ((((c.wrN (R.PWT_TB_PER_ACT 3) 100).wrN (R.PWMC_ACT 15 0) 40).setF (R.PWMC_CFG 15) F.PWMC_CFG_TB 3).flag (R.PWT_TB_STAT 3) F.PWT_TB_STAT_RUNNING true).updTb 3 (fun x => { x with len := 100, half := 100 }) |>.updCh 15 (fun x => { x with cmp := true })
       (Awake (P.PWMC k) s) ∧ ((s.chip.chEdges k (s.chip.tb (s.chip.chTb k)).half).find? (fun q => decide (q.2 = rise) && decide ((if
          (s.chip.is (R.PWT_TB_STAT (s.chip.chTb k)) F.PWT_TB_STAT_DOWN) then (s.chip.tb (s.chip.chTb k)).half else 0) < q.1) && decide
          (q.1 < (if (s.chip.tbUd (s.chip.chTb k) && !(s.chip.is (R.PWT_TB_STAT (s.chip.chTb k)) F.PWT_TB_STAT_DOWN)) then (s.chip.tb
          (s.chip.chTb k)).half else (s.chip.tb (s.chip.chTb k)).len)) && decide ((s.chip.pch k).start ≤ q.1)) = some e) ∧
          (s.chip.tbRuns (s.chip.chTb k) = true) ∧ ((s.chip.pch k).cmp ≠ rise) ∧ (k.val < s.chip.pwm.ch.length))
    ∧ (let k : Fin 16 := 15
       let s : State := at0 fun c => ({ c with mode := .run } : Chip).updCh 15 fun x => { x with dtH := true }
       (Awake (P.PWMC k) s) ∧ (s.chip.is (R.PWMC_STAT k) F.PWMC_STAT_GL = false) ∧ (s.chip.gdiSrc k = 0) ∧ (s.chip.pwm.gdi.all (fun x =>
          !x.shoot) = true) ∧ (k.val < s.chip.pwm.ch.length))
    ∧ (let k : Fin 16 := 15
       let s : State := at0 fun c => ({ c with mode := .run } : Chip).updCh 15 fun x => { x with dtH := true }
       (Awake (P.PWMC k) s) ∧ (s.chip.is (R.PWMC_STAT k) F.PWMC_STAT_GH = false) ∧ (s.chip.gdiSrc k = 0) ∧ (s.chip.pwm.gdi.all (fun x =>
          !x.shoot) = true) ∧ (k.val < s.chip.pwm.ch.length)) := by decide +kernel

/-- States and operands that meet the hypotheses of PwmCommands (part 4). -/
theorem witness_PwmCommands_4 :
      (let k : Fin 16 := 15
       let lvl : Bool := true
       let s : State := at0 fun c => c.updCh 15 fun x => { x with held := some true, lastEdge := some 7 }
       (Awake (P.PWMC k) s) ∧ ((s.chip.pch k).held = some lvl) ∧ (k.val < s.chip.pwm.ch.length))
    ∧ (let w : Writer := host
       let s : State := at0 id
       (May w R.MASK_CMD s))
    ∧ (let w : Writer := host
       let s : State := at0 fun c => c.setF R.MASK_CFG F.MASK_CFG_LEN 6
       (May w R.MASK_CMD s) ∧ (s.chip.f R.MASK_CFG F.MASK_CFG_LEN ≤ 8))
    ∧ (let w : Writer := host
       let s : State := at0 id
       (May w R.MASK_CMD s))
    ∧ (let s : State := at0 fun c => c.setF R.MASK_STAT F.MASK_STAT_PENDING 5
       (Awake P.MASK s) ∧ (s.chip.is R.MASK_CFG F.MASK_CFG_APPLY = false) ∧ (s.chip.f R.MASK_STAT F.MASK_STAT_PENDING ≠ s.chip.f R.MASK_STAT
          F.MASK_STAT_INDEX))
    ∧ (let s : State := at0 fun c => c.flag R.MASK_CFG F.MASK_CFG_APPLY true
       (s.chip.is R.MASK_CFG F.MASK_CFG_APPLY = true)) := by decide +kernel

/-- States and operands that meet the hypotheses of PwmCommands (part 5). -/
theorem witness_PwmCommands_5 :
      (let n : Fin 16 := 15
       let s : State := at0 fun c => c.flag (R.TRIP_SRC_STAT 15) F.TRIP_SRC_STAT_IN_BLANK true
       (s.chip.powered = true) ∧ ((s.chip.trp n).due = none))
    ∧ (let n : Fin 16 := 15
       let on : Bool := true
       let s : State := at0 fun c => ((c.flag (R.TRIP_SRC_STAT 15) F.TRIP_SRC_STAT_IN_BLANK true).wr (R.TRIP_SRC_CFG 15) (fset (fset 0#32 F.TRIP_SRC_CFG_EN 1) F.TRIP_SRC_CFG_SEL 0x58)).updTrp 15 fun x => { x with due := some true }
       (s.chip.powered = true) ∧ ((s.chip.trp n).due = some on) ∧ (s.chip.is (R.TRIP_SRC_CFG n) F.TRIP_SRC_CFG_EN = true) ∧ (s.chip.tripBad n =
          false) ∧ ((s.chip.tripInput n).getD on = on))
    ∧ (let n : Fin 16 := 15
       let s : State := at0 fun c => (c.flag (R.ACMP_CH_STAT 15) F.ACMP_CH_STAT_IN_BLANK true).updAcmp 15 fun x => { x with blank := true }
       (s.chip.powered = true) ∧ ((s.chip.acmp n).blank = true) ∧ (n.val < s.chip.meas.acmp.length)) := by decide +kernel

/-- States and operands that meet the hypotheses of PwmShadowCommands. -/
theorem witness_PwmShadowCommands :
      (let w : Writer := host
       let k : Fin 16 := 15
       let s : State := at0 fun c => c.flag (R.PWMC_STAT 15) F.PWMC_STAT_B_W true
       (May w (R.PWMC_CMD k) s) ∧ (s.chip.is (R.PWMC_STAT k) F.PWMC_STAT_A_W = true ∨ s.chip.is (R.PWMC_STAT k) F.PWMC_STAT_B_W = true ∨
          s.chip.is (R.PWMC_STAT k) F.PWMC_STAT_PER_W = true) ∧ (k.val < s.chip.pwm.ch.length))
    ∧ (let w : Writer := host
       let k : Fin 16 := 15
       let s : State := at0 id
       (May w (R.PWMC_CMD k) s) ∧ (s.chip.is (R.PWMC_STAT k) F.PWMC_STAT_A_W = false) ∧ (s.chip.is (R.PWMC_STAT k) F.PWMC_STAT_B_W = false) ∧
          (s.chip.is (R.PWMC_STAT k) F.PWMC_STAT_PER_W = false))
    ∧ (let w : Writer := host
       let k : Fin 16 := 15
       let s : State := at0 fun c => (c.flag (R.PWMC_STAT 15) F.PWMC_STAT_B_W true).updCh 15 fun x => { x with armed := true }
       (May w (R.PWMC_CMD k) s)) := by decide +kernel

/-- States and operands that meet the hypotheses of TripCommands (part 1). -/
theorem witness_TripCommands_1 :
      (let k : Fin 16 := 15
       let st : Bool := false
       let s : State := at0 fun c => (((c.flag (R.TRIP_SRC_CFG 15) F.TRIP_SRC_CFG_EN true).setF (R.TRIP_SRC_CFG 15) F.TRIP_SRC_CFG_SEL 0x58).setF (R.TRIP_SRC_CFG 15) F.TRIP_SRC_CFG_CH 0x8001)
       (s.chip.powered = true) ∧ (s.chip.is (R.TRIP_SRC_CFG k) F.TRIP_SRC_CFG_EN = true) ∧ (s.chip.tripBad k = false) ∧ (s.chip.is
          (R.TRIP_SRC_STAT k) F.TRIP_SRC_STAT_IN_BLANK = false ∨ st = true) ∧ (s.chip.is (R.TRIP_SRC_STAT k) F.TRIP_SRC_STAT_ASSERTED =
          false) ∧ ((s.chip.tripInput k).getD true = true))
    ∧ (let k : Fin 16 := 15
       let st : Bool := false
       let s : State := at0 fun c => (((c.flag (R.TRIP_SRC_CFG 15) F.TRIP_SRC_CFG_EN true).setF (R.TRIP_SRC_CFG 15) F.TRIP_SRC_CFG_SEL 0x58).setF (R.TRIP_SRC_CFG 15) F.TRIP_SRC_CFG_CH 0x8001)
       (s.chip.powered = true) ∧ (s.chip.is (R.TRIP_SRC_CFG k) F.TRIP_SRC_CFG_EN = true) ∧ (s.chip.tripBad k = false) ∧ (s.chip.is
          (R.TRIP_SRC_STAT k) F.TRIP_SRC_STAT_IN_BLANK = false ∨ st = true) ∧ (s.chip.is (R.TRIP_SRC_STAT k) F.TRIP_SRC_STAT_ASSERTED =
          false) ∧ ((s.chip.tripInput k).getD true = true) ∧ (s.chip.is (R.TRIP_SRC_CFG k) F.TRIP_SRC_CFG_ACTION = false))
    ∧ (let k : Fin 16 := 15
       let st : Bool := true
       let s : State := at0 fun c => (((c.flag (R.TRIP_SRC_CFG 15) F.TRIP_SRC_CFG_EN true).setF (R.TRIP_SRC_CFG 15) F.TRIP_SRC_CFG_SEL 0x58).setF (R.TRIP_SRC_CFG 15) F.TRIP_SRC_CFG_CH 0x8001).flag (R.TRIP_SRC_STAT 15) F.TRIP_SRC_STAT_ASSERTED true
       (s.chip.powered = true) ∧ (s.chip.is (R.TRIP_SRC_STAT k) F.TRIP_SRC_STAT_ASSERTED = true) ∧ (s.chip.is (R.TRIP_SRC_STAT k)
          F.TRIP_SRC_STAT_IN_BLANK = false ∨ st = true) ∧ ((s.chip.tripInput k).getD false = false)) := by decide +kernel

/-- States and operands that meet the hypotheses of TripCommands (part 2). -/
theorem witness_TripCommands_2 :
      (let k : Fin 16 := 15
       let s : State := at0 fun c => c.flag (R.TRIP_SRC_STAT 15) F.TRIP_SRC_STAT_IN_BLANK true
       (s.chip.powered = true) ∧ (s.chip.is (R.TRIP_SRC_STAT k) F.TRIP_SRC_STAT_IN_BLANK = true))
    ∧ (let k : Fin 16 := 15
       let s : State := at0 fun c => c.flag (R.TRIP_SRC_STAT 15) F.TRIP_SRC_STAT_IN_BLANK true
       (s.chip.powered = true) ∧ (s.chip.is (R.TRIP_SRC_STAT k) F.TRIP_SRC_STAT_IN_BLANK = true))
    ∧ (let w : Writer := host
       let m : BitVec 16 := 0x8000
       let k : Fin 16 := 15
       let s : State := at0 fun c => (((((c.flag (R.TRIP_SRC_CFG 15) F.TRIP_SRC_CFG_EN true).setF (R.TRIP_SRC_CFG 15) F.TRIP_SRC_CFG_SEL 0x58).setF (R.TRIP_SRC_CFG 15) F.TRIP_SRC_CFG_CH 0x8001).setF (R.TRIP_SRC_CFG 15) F.TRIP_SRC_CFG_MODE 2).flag (R.TRIP_SRC_STAT 15) F.TRIP_SRC_STAT_LATCHED true).updTrp 15 fun x => { x with held := 3 }
       (May w R.TRIP_CMD s) ∧ (m.toNat = 2 ^ k.val) ∧ (s.chip.is (R.TRIP_SRC_STAT k) F.TRIP_SRC_STAT_LATCHED = true) ∧ (s.chip.f
          (R.TRIP_SRC_CFG k) F.TRIP_SRC_CFG_MODE = 2) ∧ (s.chip.is (R.TRIP_SRC_STAT k) F.TRIP_SRC_STAT_ASSERTED = false) ∧ ((s.chip.trp
          k).held ≠ 0))
    ∧ (let w : Writer := host
       let m : BitVec 16 := 0x8000
       let k : Fin 16 := 15
       let s : State := at0 fun c => ((((c.flag (R.TRIP_SRC_CFG 15) F.TRIP_SRC_CFG_EN true).setF (R.TRIP_SRC_CFG 15) F.TRIP_SRC_CFG_SEL 0x58).setF (R.TRIP_SRC_CFG 15) F.TRIP_SRC_CFG_CH 0x8001).setF (R.TRIP_SRC_CFG 15) F.TRIP_SRC_CFG_MODE 2).flag (R.TRIP_SRC_STAT 15) F.TRIP_SRC_STAT_LATCHED true
       (May w R.TRIP_CMD s) ∧ (m.toNat = 2 ^ k.val) ∧ (s.chip.is (R.TRIP_SRC_STAT k) F.TRIP_SRC_STAT_LATCHED = true) ∧ (s.chip.f
          (R.TRIP_SRC_CFG k) F.TRIP_SRC_CFG_MODE = 2) ∧ (s.chip.is (R.TRIP_SRC_STAT k) F.TRIP_SRC_STAT_ASSERTED = false) ∧ ((s.chip.trp
          k).held = 0)) := by decide +kernel

/-- States and operands that meet the hypotheses of TripCommands (part 3). -/
theorem witness_TripCommands_3 :
      (let w : Writer := host
       let m : BitVec 16 := 0x8000
       let k : Fin 16 := 15
       let s : State := at0 fun c => (((((c.flag (R.TRIP_SRC_CFG 15) F.TRIP_SRC_CFG_EN true).setF (R.TRIP_SRC_CFG 15) F.TRIP_SRC_CFG_SEL 0x58).setF (R.TRIP_SRC_CFG 15) F.TRIP_SRC_CFG_CH 0x8001).setF (R.TRIP_SRC_CFG 15) F.TRIP_SRC_CFG_MODE 2).flag (R.TRIP_SRC_STAT 15) F.TRIP_SRC_STAT_LATCHED true).flag (R.TRIP_SRC_STAT 15) F.TRIP_SRC_STAT_ASSERTED true
       (May w R.TRIP_CMD s) ∧ (m.toNat = 2 ^ k.val) ∧ (s.chip.is (R.TRIP_SRC_STAT k) F.TRIP_SRC_STAT_LATCHED = true) ∧ (s.chip.f
          (R.TRIP_SRC_CFG k) F.TRIP_SRC_CFG_MODE = 2) ∧ (s.chip.is (R.TRIP_SRC_STAT k) F.TRIP_SRC_STAT_ASSERTED = true))
    ∧ (let w : Writer := host
       let s : State := at0 id
       (May w R.TRIP_CMD s) ∧ ((∀ k < 16, s.chip.is (R.TRIP_SRC_STAT k) F.TRIP_SRC_STAT_LATCHED = false))) := by decide +kernel

/-- States and operands that meet the hypotheses of GateCommandCommands (part 1). -/
theorem witness_GateCommandCommands_1 :
      (let p : Packet := { pkt 0x11 5 [0xF4600000, 0, 1000000, 0, 0, 0, 0, 0] with vc := 2, enc := true, pad := 16 }
       let s : State := at0 fun c => ((c.sesState 0 1).flag (Key.ses 0 0x204) F.SES_S_RIGHTS_GATE true)
       (s.chip.powered = true) ∧ (s.chip.time.gated = false) ∧ (s.chip.admitted p = none) ∧ (p.body.length = 4) ∧ ((p.w 0) / 2 ^ 26 % 4 < 3) ∧
          ((s.chip.gdi ((p.w 0) / 2 ^ 28)).queue.length < 8) ∧ (s.chip.time.ht + 5 * 2 ^ 48 ≤ (gateTime (p.w64 2) ((p.w 0) / 2 ^ 21 %
          32) : Nat) * 2 ^ 41) ∧ (s.chip.pwm.gdi.length = 16))
    ∧ (let n : Fin 16 := 15
       let q : GateEnt := ⟨0, 0, 1, false, 0⟩
       let r : List GateEnt := []
       let s : State := at0 fun c => c.updGdi 15 fun x => { x with queue := [⟨0, 0, 1, false, 0⟩] }
       (Awake (P.GDI n) s) ∧ ((s.chip.gdi n).queue = q :: r) ∧ (q.late = false) ∧ (s.chip.gateDue q = true) ∧ (s.chip.gdiSrc n ≠ 1) ∧ (n.val <
          s.chip.pwm.gdi.length))
    ∧ (let n : Fin 16 := 15
       let q : GateEnt := ⟨9, 3, 1, true, 0⟩
       let r : List GateEnt := []
       let s : State := at0 fun c => c.updGdi 15 fun x => { x with queue := [⟨9, 3, 1, true, 0⟩], fabL := true }
       (Awake (P.GDI n) s) ∧ ((s.chip.gdi n).queue = q :: r) ∧ (q.late = true) ∧ (s.chip.gateDue q = true) ∧ (s.chip.gdiSrc n ≠ 1) ∧ (n.val <
          s.chip.pwm.gdi.length))
    ∧ (let n : Fin 16 := 15
       let q : GateEnt := ⟨9, 3, 1, false, 0⟩
       let r : List GateEnt := []
       let s : State := at0 fun c => c.updGdi 15 fun x => { x with queue := [⟨9, 3, 1, false, 0⟩] }
       (Awake (P.GDI n) s) ∧ ((s.chip.gdi n).queue = q :: r) ∧ (s.chip.gateDue q = false))
    ∧ (let s : State := at0 id
       (s.chip.powered = true) ∧ (s.chip.time.gated = false)) := by decide +kernel

/-- States and operands that meet the hypotheses of GateCommandCommands (part 2). -/
theorem witness_GateCommandCommands_2 :
      (let n : Fin 16 := 15
       let s : State := at0 fun c => (c.setF (R.GDI_FCMD 15) F.GDI_FCMD_TMO_US 5).updGdi 15 fun x => { x with fabL := true }
       (Awake (P.GDI n) s) ∧ (s.chip.f (R.GDI_FCMD n) F.GDI_FCMD_TMO_US ≠ 0) ∧ (((s.chip.gdi n).fabH || (s.chip.gdi n).fabL) = true) ∧ (n.val <
          s.chip.pwm.gdi.length))
    ∧ (let n : Fin 16 := 15
       let s : State := at0 id
       (Awake (P.GDI n) s))
    ∧ (let n : Fin 16 := 15
       let s : State := at0 fun c => (({ c with mode := .run } : Chip).setF (R.GDI_CFG 15) F.GDI_CFG_SRC 1).updGdi 15 fun x => { x with fabH := true, dtH := true }
       (Awake (P.GDI n) s) ∧ (s.chip.gdiReq n = (true, false)) ∧ ((s.chip.gdi n).notch = false) ∧ ((s.chip.gdi n).l = false) ∧ (n.val <
          s.chip.pwm.gdi.length))
    ∧ (let n : Fin 16 := 15
       let s : State := at0 fun c => (({ c with mode := .run } : Chip).setF (R.GDI_CFG 15) F.GDI_CFG_SRC 1).updGdi 15 fun x => { x with fabL := true, dtL := true }
       (Awake (P.GDI n) s) ∧ (s.chip.gdiReq n = (false, true)) ∧ ((s.chip.gdi n).h = false) ∧ (n.val < s.chip.pwm.gdi.length))
    ∧ (let n : Fin 16 := 15
       let s : State := at0 fun c => c.flag (R.GDI_STAT 15) F.GDI_STAT_GH true
       (s.chip.powered = true) ∧ (n.val < s.chip.pwm.gdi.length))
    ∧ (let s : State := at0 fun c => c.flag (R.GDI_STAT 15) F.GDI_STAT_GFLT true
       (s.chip.powered = true)) := by decide +kernel

/-- States and operands that meet the hypotheses of GateCommandCommands (part 3). -/
theorem witness_GateCommandCommands_3 :
      (let n : Fin 16 := 15
       let s : State := at0 fun c => c.updGdi 15 fun x => { x with notch := true, fullN := 9 }
       (Awake (P.GDI n) s) ∧ ((s.chip.gdi n).notch = true) ∧ (n.val < s.chip.pwm.gdi.length)) := by decide +kernel

/-- States and operands that meet the hypotheses of GateFaultCommands (part 1). -/
theorem witness_GateFaultCommands_1 :
      (let n : Fin 16 := 15
       let s : State := at0 fun c => (c.setF (R.GDI_STAT 15) F.GDI_STAT_STATE 3).updGdi 15 fun x => { x with fresh := true }
       (s.chip.powered = true) ∧ ((s.chip.gdi n).fresh = true) ∧ (s.chip.is (R.GDI_CFG n) F.GDI_CFG_FLT_EN = true) ∧ (n.val <
          s.chip.pwm.gdi.length) ∧ ((s.chip.gdiState n = Gs.active ∨ s.chip.gdiState n = Gs.resume)) ∧ ((s.chip.gdi n).n < s.chip.f
          (R.GDI_RETRY n) F.GDI_RETRY_MAX))
    ∧ (let n : Fin 16 := 15
       let s : State := at0 fun c => (c.setF (R.GDI_STAT 15) F.GDI_STAT_STATE 3).updGdi 15 fun x => { x with fresh := true, n := 3 }
       (s.chip.powered = true) ∧ ((s.chip.gdi n).fresh = true) ∧ (s.chip.is (R.GDI_CFG n) F.GDI_CFG_FLT_EN = true) ∧ (n.val <
          s.chip.pwm.gdi.length) ∧ ((s.chip.gdiState n = Gs.active ∨ s.chip.gdiState n = Gs.resume)) ∧ (s.chip.f (R.GDI_RETRY n)
          F.GDI_RETRY_MAX ≤ (s.chip.gdi n).n))
    ∧ (let n : Fin 16 := 15
       let s : State := at0 fun c => ((c.setF (R.GDI_STAT 15) F.GDI_STAT_STATE 3).setF (R.GDI_CFG 15) F.GDI_CFG_SHD 1).updGdi 15 fun x => { x with fresh := true }
       (s.chip.powered = true) ∧ ((s.chip.gdi n).fresh = true) ∧ (s.chip.is (R.GDI_CFG n) F.GDI_CFG_FLT_EN = true) ∧ (n.val <
          s.chip.pwm.gdi.length) ∧ ((s.chip.gdiState n = Gs.active ∨ s.chip.gdiState n = Gs.resume)) ∧ (s.chip.f (R.GDI_CFG n)
          F.GDI_CFG_SHD = 1))
    ∧ (let n : Fin 16 := 15
       let s : State := at0 fun c => c.updGdi 15 fun x => { x with fresh := true }
       (s.chip.powered = true) ∧ ((s.chip.gdi n).fresh = true) ∧ (s.chip.gdiState n ≠ Gs.active) ∧ (s.chip.gdiState n ≠ Gs.resume))
    ∧ (let n : Fin 16 := 15
       let s : State := State.reset
       (s.chip.powered = true) ∧ ((s.chip.gdi n).fresh = false)) := by decide +kernel

/-- States and operands that meet the hypotheses of GateFaultCommands (part 2). -/
theorem witness_GateFaultCommands_2 :
      (let n : Fin 16 := 15
       let s : State := at0 fun c => (c.setF (R.GDI_STAT 15) F.GDI_STAT_STATE 3).flag (R.GDI_STAT 15) F.GDI_STAT_SUP_OK true
       (s.chip.powered = true) ∧ (s.chip.is (R.GDI_CFG n) F.GDI_CFG_RDY_EN = true) ∧ (s.chip.is (R.GDI_STAT n) F.GDI_STAT_SUP_OK = true) ∧
          (n.val < s.chip.pwm.gdi.length) ∧ ((s.chip.gdiState n = Gs.active ∨ s.chip.gdiState n = Gs.resume)) ∧ ((s.chip.gdi n).n <
          s.chip.f (R.GDI_RETRY n) F.GDI_RETRY_MAX))
    ∧ (let n : Fin 16 := 15
       let s : State := at0 fun c => c.flag (R.GDI_STAT 15) F.GDI_STAT_GRDY true
       (s.chip.powered = true) ∧ (s.chip.gdiState n ≠ Gs.active) ∧ (s.chip.gdiState n ≠ Gs.resume))
    ∧ (let n : Fin 16 := 15
       let s : State := at0 fun c => (c.setF (R.GDI_STAT 15) F.GDI_STAT_STATE 1).flag (R.GDI_STAT 15) F.GDI_STAT_SUP_OK true
       (Awake (P.GDI n) s) ∧ (s.chip.gdiState n = Gs.waitRdy) ∧ (s.chip.is (R.GDI_STAT n) F.GDI_STAT_SUP_OK = true) ∧ (s.chip.gdiSrc n ≠ 2))
    ∧ (let n : Fin 16 := 15
       let s : State := at0 fun c => (c.setF (R.GDI_STAT 15) F.GDI_STAT_STATE 3).flag (R.GDI_STAT 15) F.GDI_STAT_SUP_OK true
       (Awake (P.GDI n) s) ∧ (s.chip.supOk n = false) ∧ ((s.chip.gdiState n = Gs.active ∨ s.chip.gdiState n = Gs.resume)))
    ∧ (let n : Fin 16 := 15
       let s : State := at0 fun c => { (c.setF (R.GDI_STAT 15) F.GDI_STAT_STATE 1).flag (R.GDI_STAT 15) F.GDI_STAT_GRDY true with safe := { c.safe with sgr := true } }
       (Awake (P.GDI n) s) ∧ (s.chip.supOk n = true) ∧ (s.chip.gdiState n = Gs.waitRdy) ∧ (s.chip.is (R.GDI_CFG n) F.GDI_CFG_RDY_EN = false ∨
          s.chip.is (R.GDI_STAT n) F.GDI_STAT_GRDY = true) ∧ (s.chip.gdiSrc n ≠ 2))
    ∧ (let n : Fin 16 := 15
       let s : State := at0 fun c => c.setF (R.GDI_STAT 15) F.GDI_STAT_STATE 4
       (Awake (P.GDI n) s) ∧ (s.chip.gdiState n = Gs.retryWait) ∧ (s.chip.gdiCause n = none) ∧ (s.chip.gdiSrc n ≠ 2)) := by decide +kernel

/-- States and operands that meet the hypotheses of GateFaultCommands (part 3). -/
theorem witness_GateFaultCommands_3 :
      (let n : Fin 16 := 15
       let s : State := at0 fun c => (c.setF (R.GDI_STAT 15) F.GDI_STAT_STATE 4).flag (R.GDI_STAT 15) F.GDI_STAT_GFLT true
       (Awake (P.GDI n) s) ∧ (s.chip.gdiState n = Gs.retryWait) ∧ (s.chip.gdiCause n = some 1) ∧ ((s.chip.gdi n).n < s.chip.f (R.GDI_RETRY n)
          F.GDI_RETRY_MAX) ∧ (n.val < s.chip.pwm.gdi.length))
    ∧ (let n : Fin 16 := 15
       let s : State := at0 fun c => c.updGdi 15 fun x => { x with win := true, n := 3 }
       (Awake (P.GDI n) s) ∧ ((s.chip.gdi n).win = true) ∧ (s.chip.gdiState n ≠ Gs.latched) ∧ (n.val < s.chip.pwm.gdi.length))
    ∧ (let w : Writer := host
       let n : Fin 16 := 15
       let s : State := at0 fun c => c.wr (R.GDI_CNT_2 15) 7
       (May w (R.GDI_CMD n) s)) := by decide +kernel

/-- States and operands that meet the hypotheses of GateRecoveryCommands (part 1). -/
theorem witness_GateRecoveryCommands_1 :
      (let w : Writer := host
       let n : Fin 16 := 15
       let s : State := at0 fun c => (c.setF (R.GDI_STAT 15) F.GDI_STAT_STATE 5).updGdi 15 fun x => { x with win := true, n := 4 }
       (May w (R.GDI_CMD n) s) ∧ (s.chip.gdiState n = Gs.latched) ∧ (s.chip.gdiCause n = none) ∧ (n.val < s.chip.pwm.gdi.length))
    ∧ (let w : Writer := host
       let n : Fin 16 := 15
       let s : State := at0 id
       (May w (R.GDI_CMD n) s) ∧ (s.chip.gdiState n ≠ Gs.latched ∨ (s.chip.gdiCause n).isNone = false))
    ∧ (let w : Writer := host
       let n : Fin 16 := 15
       let s : State := at0 fun c => (({ c with mode := .ready } : Chip).setF (R.GDI_STAT 15) F.GDI_STAT_STATE 3).setF (R.GDI_CFG 15) F.GDI_CFG_SHD 1
       (May w (R.GDI_CMD n) s) ∧ (s.chip.mode = .ready ∨ s.chip.mode = .safe ∨ s.chip.mode = .replay) ∧ (s.chip.gdiState n = Gs.active) ∧
          (n.val < s.chip.pwm.gdi.length))
    ∧ (let w : Writer := host
       let n : Fin 16 := 15
       let s : State := at0 fun c => ({ c with mode := .run } : Chip).setF (R.GDI_STAT 15) F.GDI_STAT_STATE 3
       (May w (R.GDI_CMD n) s) ∧ ((s.chip.mode ≠ .ready ∧ s.chip.mode ≠ .safe ∧ s.chip.mode ≠ .replay) ∨ s.chip.gdiState n ≠ Gs.active))
    ∧ (let w : Writer := host
       let n : Fin 16 := 15
       let s : State := at0 fun c => (({ c with mode := .ready } : Chip).setF (R.GDI_STAT 15) F.GDI_STAT_STATE 3).setF (R.GDI_CFG 15) F.GDI_CFG_SHD 1
       (May w (R.GDI_CMD n) s) ∧ (s.chip.mode = .ready ∨ s.chip.mode = .safe ∨ s.chip.mode = .replay) ∧ (s.chip.gdiState n = Gs.active) ∧
          (n.val < s.chip.pwm.gdi.length))
    ∧ (let w : Writer := host
       let n : Fin 16 := 15
       let s : State := at0 fun c => ({ c with mode := .run } : Chip).setF (R.GDI_STAT 15) F.GDI_STAT_STATE 3
       (May w (R.GDI_CMD n) s) ∧ ((s.chip.mode ≠ .ready ∧ s.chip.mode ≠ .safe ∧ s.chip.mode ≠ .replay) ∨ s.chip.gdiState n ≠ Gs.active)) := by decide +kernel

/-- States and operands that meet the hypotheses of GateRecoveryCommands (part 2). -/
theorem witness_GateRecoveryCommands_2 :
      (let w : Writer := host
       let n : Fin 16 := 15
       let s : State := at0 fun c => (({ c with mode := .ready } : Chip).setF (R.GDI_STAT 15) F.GDI_STAT_STATE 3).setF (R.GDI_CFG 15) F.GDI_CFG_SHD 1
       (May w (R.GDI_CMD n) s) ∧ (s.chip.mode = .ready ∨ s.chip.mode = .safe ∨ s.chip.mode = .replay) ∧ (s.chip.gdiState n = Gs.active) ∧
          (n.val < s.chip.pwm.gdi.length))
    ∧ (let w : Writer := host
       let n : Fin 16 := 15
       let s : State := at0 fun c => ({ c with mode := .run } : Chip).setF (R.GDI_STAT 15) F.GDI_STAT_STATE 3
       (May w (R.GDI_CMD n) s) ∧ ((s.chip.mode ≠ .ready ∧ s.chip.mode ≠ .safe ∧ s.chip.mode ≠ .replay) ∨ s.chip.gdiState n ≠ Gs.active)) := by decide +kernel

/-- States and operands that meet the hypotheses of TrackerCommands (part 1). -/
theorem witness_TrackerCommands_1 :
      (let g : Fin 8 := 7
       let s : State := at0 fun c => c.updGrp 7 fun x => { x with en := true, busy := true, disp := true }
       (Awake P.STR s) ∧ (s.chip.evalOver g = true) ∧ ((s.chip.grp g).pend = false) ∧ ((s.chip.grp g).en = true) ∧ (g.val <
          s.chip.str.grp.length) ∧ ((∀ k < 4, s.chip.bit R.BPT_CTL k = false)) ∧ (s.chip.hrd.run = false) ∧ (s.chip.isl.run = false) ∧
          (s.chip.is R.IMP_CTL F.IMP_CTL_EN = false))
    ∧ (let g : Fin 8 := 7
       let s : State := at0 fun c => c.updGrp 7 fun x => { x with en := true, busy := true, disp := true, pend := true }
       (Awake P.STR s) ∧ (s.chip.evalOver g = true) ∧ ((s.chip.grp g).pend = true) ∧ (g.val < s.chip.str.grp.length) ∧ ((∀ k < 4, s.chip.bit
          R.BPT_CTL k = false)) ∧ (s.chip.hrd.run = false) ∧ (s.chip.isl.run = false) ∧ (s.chip.is R.IMP_CTL F.IMP_CTL_EN = false))
    ∧ (let g : Fin 8 := 7
       let s : State := (at0 fun c => (c.updGrp 7 fun x => { x with en := true, busy := true, disp := true }).updHrd fun h => { h with run := true })
       (Awake P.STR s) ∧ (s.chip.evalOver g = true))
    ∧ (let w : Writer := host
       let ch : Fin 4 := 3
       let s : State := at0 fun c => (c.setBit R.BPT_CTL 3 true)
       (May w R.BPT_CMD s) ∧ (s.chip.bit R.BPT_CTL ch = true))
    ∧ (let w : Writer := host
       let ch : Fin 4 := 3
       let s : State := at0 fun c => ((c.setBit R.BPT_CTL 3 true).setF (R.BPT_CH_WIN 3) F.BPT_CH_WIN_SKIP 7).setBit R.BPT_STAT 15 true
       (May w R.BPT_CMD s) ∧ (s.chip.bit R.BPT_CTL ch = true) ∧ (ch.val < s.chip.bpt.length))
    ∧ (let w : Writer := host
       let ch : Fin 4 := 3
       let s : State := at0 fun c => ((c.setBit R.BPT_CTL 3 true).wr (R.BPT_CH_START 3) 0x40000007).flag (R.BPT_CH_CFG 3) F.BPT_CH_CFG_DIR_INIT true
       (May w R.BPT_CMD s) ∧ (s.chip.bit R.BPT_CTL ch = true) ∧ (s.chip.bit R.BPT_STAT ch = false) ∧ (ch.val < s.chip.bpt.length)) := by decide +kernel

/-- States and operands that meet the hypotheses of TrackerCommands (part 2). -/
theorem witness_TrackerCommands_2 :
      (let w : Writer := host
       let ch : Fin 4 := 3
       let s : State := at0 fun c => ((c.setBit R.BPT_CTL 3 true).wr (R.BPT_CH_START 3) 0x40000007).updStr fun x => { x with owners := [(0, Cl.bpt 3)] }
       (May w R.BPT_CMD s) ∧ (s.chip.bit R.BPT_CTL ch = true) ∧ (s.chip.bit R.BPT_STAT ch = false) ∧ (s.chip.bptMode ch < 2) ∧ (s.chip.holds
          (Cl.bpt ch) (s.chip.bptOut ch) = true))
    ∧ (let w : Writer := host
       let ch : Fin 4 := 3
       let s : State := at0 id
       (May w R.BPT_CMD s) ∧ (s.chip.bit R.BPT_CTL ch = false))
    ∧ (let w : Writer := host
       let ch : Fin 4 := 3
       let s : State := at0 id
       (May w R.BPT_CMD s) ∧ (s.chip.bit R.BPT_CTL ch = false))
    ∧ (let w : Writer := host
       let ch : Fin 4 := 3
       let s : State := at0 id
       (May w R.BPT_CMD s) ∧ (s.chip.bit R.BPT_CTL ch = false)) := by decide +kernel

/-- States and operands that meet the hypotheses of RideThroughCommands (part 1). -/
theorem witness_RideThroughCommands_1 :
      (let x : Nat := 9
       let s : State := at0 fun c => c.updHrd fun h => { h with block := some 9, now := 9, blk := true }
       (Awake P.HRD s) ∧ (s.chip.hrd.stale = false) ∧ (s.chip.hrd.block = some x) ∧ (x ≤ s.chip.hrd.now))
    ∧ (let x : Nat := 9
       let s : State := at0 fun c => (c.updHrd fun h => { h with freeze := some 9, now := 9 }).updStr fun x => { x with owners := [(1, Cl.hrd)] }
       (Awake P.HRD s) ∧ (s.chip.hrd.stale = false) ∧ (s.chip.hrd.freeze = some x) ∧ (x ≤ s.chip.hrd.now) ∧ (s.chip.holds Cl.hrd ((s.chip.f
          R.HRD_CTL F.HRD_CTL_OUT_BASE + 1) % 1024) = true))
    ∧ (let s : State := at0 fun c => c.updHrd fun h => { h with stale := true }
       (Awake P.HRD s) ∧ (s.chip.hrd.stale = true))
    ∧ (let w : Writer := host
       let s : State := at0 fun c => (c.setF R.HRD_STAT F.HRD_STAT_STATE 6).updHrd fun h => { h with dipF := 9 }
       (May w R.HRD_CMD s) ∧ (s.chip.hrdState = Hs.tripped))
    ∧ (let w : Writer := host
       let s : State := at0 id
       (May w R.HRD_CMD s) ∧ (s.chip.hrdState ≠ Hs.tripped))
    ∧ (let w : Writer := host
       let s : State := at0 fun c => c.wr R.HRD_LAST 7
       (May w R.HRD_CMD s)) := by decide +kernel

/-- States and operands that meet the hypotheses of RideThroughCommands (part 2). -/
theorem witness_RideThroughCommands_2 :
      (let k : Fin 8 := 7
       let n : F64 := F64.ofNat 5
       let s : State := at0 fun c => (((c.wrN (R.ISL_VT_TIME 7) 5).setF R.ISL_ACT F.ISL_ACT_VT 2).updIsl fun x => { x with run := true, vt := upd x.vt 7 fun _ => (F64.ofNat 5, true) })
       (Awake P.ISL s) ∧ (s.chip.isl.run = true) ∧ (s.chip.isl.stale = false) ∧ (nth s.chip.isl.vt k (F64.zero, false) = (n, true)) ∧
          ((F64.ratio (s.chip.rdN (R.ISL_VT_TIME k)) 1000).le n = true) ∧ (s.chip.bit R.ISL_STAT (8 + k.val) = false) ∧ (s.chip.f
          R.ISL_ACT F.ISL_ACT_VT = 2))
    ∧ (let k : Fin 8 := 7
       let n : F64 := F64.ofNat 5
       let s : State := at0 fun c => (((c.wrN (R.ISL_VT_TIME 7) 5).setF R.ISL_ACT F.ISL_ACT_VT 3).updIsl fun x => { x with run := true, vt := upd x.vt 7 fun _ => (F64.ofNat 5, true) })
       (Awake P.ISL s) ∧ (s.chip.isl.run = true) ∧ (s.chip.isl.stale = false) ∧ (nth s.chip.isl.vt k (F64.zero, false) = (n, true)) ∧
          ((F64.ratio (s.chip.rdN (R.ISL_VT_TIME k)) 1000).le n = true) ∧ (s.chip.bit R.ISL_STAT (8 + k.val) = false) ∧ (s.chip.f
          R.ISL_ACT F.ISL_ACT_VT = 3))
    ∧ (let k : Fin 8 := 7
       let n : F64 := F64.ofNat 5
       let s : State := at0 fun c => (((c.wrN (R.ISL_FT_TIME 7) 5).setF R.ISL_ACT F.ISL_ACT_FT 2).updIsl fun x => { x with run := true, ft := upd x.ft 7 fun _ => (F64.ofNat 5, true) })
       (Awake P.ISL s) ∧ (s.chip.isl.run = true) ∧ (s.chip.isl.stale = false) ∧ (nth s.chip.isl.ft k (F64.zero, false) = (n, true)) ∧
          ((F64.ratio (s.chip.rdN (R.ISL_FT_TIME k)) 1000).le n = true) ∧ (s.chip.bit R.ISL_STAT (16 + k.val) = false) ∧ (s.chip.f
          R.ISL_ACT F.ISL_ACT_FT = 2)) := by decide +kernel

/-- States and operands that meet the hypotheses of RideThroughCommands (part 3). -/
theorem witness_RideThroughCommands_3 :
      (let k : Fin 8 := 7
       let n : F64 := F64.ofNat 5
       let s : State := at0 fun c => (((c.wrN (R.ISL_FT_TIME 7) 5).setF R.ISL_ACT F.ISL_ACT_FT 3).updIsl fun x => { x with run := true, ft := upd x.ft 7 fun _ => (F64.ofNat 5, true) })
       (Awake P.ISL s) ∧ (s.chip.isl.run = true) ∧ (s.chip.isl.stale = false) ∧ (nth s.chip.isl.ft k (F64.zero, false) = (n, true)) ∧
          ((F64.ratio (s.chip.rdN (R.ISL_FT_TIME k)) 1000).le n = true) ∧ (s.chip.bit R.ISL_STAT (16 + k.val) = false) ∧ (s.chip.f
          R.ISL_ACT F.ISL_ACT_FT = 3))
    ∧ (let w : Writer := host
       let s : State := at0 fun c => c.flag R.ISL_STAT F.ISL_STAT_TRIPPED true
       (May w R.ISL_CMD s))
    ∧ (let s : State := at0 fun c => ((c.flag R.ISL_CTL F.ISL_CTL_RTS_EN true).setF R.ISL_RTS_T F.ISL_RTS_T_TIME_S 1).updIsl fun x => { x with run := true, rts := F64.ofNat 1 }
       (Awake P.ISL s) ∧ (s.chip.isl.run = true) ∧ (s.chip.isl.stale = false) ∧ (s.chip.is R.ISL_CTL F.ISL_CTL_RTS_EN = true) ∧ (0 <
          s.chip.isl.rts.m) ∧ ((F64.ofNat (s.chip.f R.ISL_RTS_T F.ISL_RTS_T_TIME_S)).le s.chip.isl.rts = true)) := by decide +kernel

/-- States and operands that meet the hypotheses of ProbeCommands (part 1). -/
theorem witness_ProbeCommands_1 :
      (let sums : List ImpSum := upd (List.replicate 16 {}) 15 fun _ => ⟨⟨1, 0⟩, ⟨2, 0⟩, ⟨1, 0⟩, ⟨1, 0⟩⟩
       let lw : Nat := 4
       let par : SMap Word := [(R.IMP_BIN 15, fset 0#32 F.IMP_BIN_EN 1)]
       let k : Fin 16 := 15
       let z : F64 × F64 := ((nth (upd (List.replicate 16 {}) 15 fun _ => (⟨⟨1, 0⟩, ⟨2, 0⟩, ⟨1, 0⟩, ⟨1, 0⟩⟩ : ImpSum)) 15 {}).result 4).1.getD (⟨0, 0⟩, ⟨0, 0⟩)
       let s : State := at0 fun c => c.updImp fun x => { x with due := some (upd (List.replicate 16 {}) 15 (fun _ => ⟨⟨1, 0⟩, ⟨2, 0⟩, ⟨1, 0⟩, ⟨1, 0⟩⟩), 4, [(R.IMP_BIN 15, fset 0#32 F.IMP_BIN_EN 1)]) }
       (Awake P.IMP s) ∧ (s.chip.imp.due = some (sums, lw, par)) ∧ (fget (SMap.get regReset par (R.IMP_BIN k)) F.IMP_BIN_EN = 1) ∧ (((nth sums
          k {}).result lw).1 = some z)) := by decide +kernel

/-- States and operands that meet the hypotheses of ProbeCommands (part 2). -/
theorem witness_ProbeCommands_2 :
      (let sums : List ImpSum := []
       let lw : Nat := 4
       let par : SMap Word := []
       let s : State := at0 fun c => c.updImp fun x => { x with due := some ([], 4, []) }
       (Awake P.IMP s) ∧ (s.chip.imp.due = some (sums, lw, par))) := by decide +kernel

/-- States and operands that meet the hypotheses of ProbeCommands (part 3). -/
theorem witness_ProbeCommands_3 :
      (let w : Writer := host
       let s : State := at0 fun c => ((c.flag R.IMP_CTL F.IMP_CTL_EN true).setF R.IMP_WIN F.IMP_WIN_LEAD 3).setF R.IMP_CTL F.IMP_CTL_ORDER 9
       (May w R.IMP_CMD s) ∧ (s.chip.is R.IMP_CTL F.IMP_CTL_EN = true) ∧ (s.chip.is R.IMP_STAT F.IMP_STAT_CFG_ERR = false) ∧ (s.chip.impPh =
          Ip.idle) ∧ (s.chip.f R.IMP_CTL F.IMP_CTL_MODE ≠ 2))
    ∧ (let w : Writer := host
       let s : State := at0 fun c => (c.flag R.IMP_CTL F.IMP_CTL_EN true).setF R.IMP_CTL F.IMP_CTL_MODE 2
       (May w R.IMP_CMD s) ∧ (s.chip.is R.IMP_CTL F.IMP_CTL_EN = true) ∧ (s.chip.is R.IMP_STAT F.IMP_STAT_CFG_ERR = false) ∧ (s.chip.impPh =
          Ip.idle) ∧ (s.chip.f R.IMP_CTL F.IMP_CTL_MODE = 2))
    ∧ (let w : Writer := host
       let s : State := at0 id
       (May w R.IMP_CMD s) ∧ (s.chip.is R.IMP_CTL F.IMP_CTL_EN = false ∨ s.chip.is R.IMP_STAT F.IMP_STAT_CFG_ERR = true))
    ∧ (let w : Writer := host
       let s : State := at0 fun c => c.setF R.IMP_STAT F.IMP_STAT_PHASE 3
       (May w R.IMP_CMD s) ∧ (s.chip.impPh ≠ Ip.idle))
    ∧ (let w : Writer := host
       let s : State := at0 fun c => ((c.flag R.IMP_CTL F.IMP_CTL_EN true).setF R.IMP_CTL F.IMP_CTL_MODE 2).setF R.MUS_BW F.MUS_BW_ID 7
       (May w R.IMP_CMD s) ∧ (s.chip.is R.IMP_CTL F.IMP_CTL_EN = true) ∧ (s.chip.is R.IMP_STAT F.IMP_STAT_CFG_ERR = false) ∧ (s.chip.f
          R.IMP_CTL F.IMP_CTL_MODE = 2) ∧ (s.chip.impPh = Ip.idle) ∧ (s.chip.f R.MUS_BW F.MUS_BW_ID ≠ s.chip.f R.FAB_ID F.FAB_ID_ID))
    ∧ (let w : Writer := host
       let s : State := at0 id
       (May w R.IMP_CMD s) ∧ (s.chip.is R.IMP_CTL F.IMP_CTL_EN = false ∨ s.chip.is R.IMP_STAT F.IMP_STAT_CFG_ERR = true ∨ s.chip.f R.IMP_CTL
          F.IMP_CTL_MODE ≠ 2)) := by decide +kernel

/-- States and operands that meet the hypotheses of ProbeCommands (part 4). -/
theorem witness_ProbeCommands_4 :
      (let w : Writer := host
       let s : State := at0 fun c => c.flag R.IMP_STAT F.IMP_STAT_ISLAND true
       (May w R.IMP_CMD s))
    ∧ (let p : Packet := { pkt 0x16 5 [255, 9, 1, 0, 0, 0, 0, 0] with vc := 2 }
       let s : State := at0 fun c => (c.flag R.MUS_STAT F.MUS_STAT_IS_BW true).flag (R.IMP_PDK 255) F.IMP_PDK_EN true
       (s.chip.powered = true) ∧ (s.chip.time.gated = false) ∧ (s.chip.admitted p = none) ∧ (s.chip.is R.MUS_STAT F.MUS_STAT_IS_BW = true) ∧
          (s.chip.is (R.IMP_PDK (p.w 0 % 256)) F.IMP_PDK_EN = true))
    ∧ (let p : Packet := { pkt 0x17 5 [0x800000FF, 0, 9, 1, 10, 1, 0, 0] with vc := 2 }
       let s : State := at0 id
       (s.chip.powered = true) ∧ (s.chip.time.gated = false) ∧ (s.chip.admitted p = none) ∧ (p.w 1 % 2 ^ 15 = s.chip.f R.FAB_ID F.FAB_ID_ID) ∧
          (s.chip.htNs ≤ p.w64 2) ∧ (s.chip.imp.grant = none))
    ∧ (let p : Packet := { pkt 0x17 5 [0x800000FF, 0, 9, 1, 10, 1, 0, 0] with vc := 2 }
       let g : Grant := ⟨5, 6, true⟩
       let s : State := at0 fun c => c.updImp fun x => { x with grant := some ⟨5, 6, true⟩, inGrant := true }
       (s.chip.powered = true) ∧ (s.chip.time.gated = false) ∧ (s.chip.admitted p = none) ∧ (p.w 1 % 2 ^ 15 = s.chip.f R.FAB_ID F.FAB_ID_ID) ∧
          (s.chip.htNs ≤ p.w64 2) ∧ (s.chip.imp.grant = some g))
    ∧ (let p : Packet := { pkt 0x17 5 [0x800000FF, 0, 9, 0, 10, 1, 0, 0] with vc := 2 }
       let s : State := at0 fun c => { c with time := { c.time with ht := 100 * 2 ^ 48 } }
       (s.chip.powered = true) ∧ (s.chip.time.gated = false) ∧ (s.chip.admitted p = none) ∧ (p.w 1 % 2 ^ 15 = s.chip.f R.FAB_ID F.FAB_ID_ID) ∧
          (p.w64 2 < s.chip.htNs)) := by decide +kernel

/-- States and operands that meet the hypotheses of ProbeCommands (part 5). -/
theorem witness_ProbeCommands_5 :
      (let p : Fin 256 := 255
       let s : State := at0 fun c => ((c.flag R.MUS_STAT F.MUS_STAT_IS_BW true).flag (R.IMP_PDK 255) F.IMP_PDK_EN true).setF (R.IMP_PDK 255) F.IMP_PDK_WATCH 12
       (Awake P.IMP s) ∧ (s.chip.is R.MUS_STAT F.MUS_STAT_IS_BW = true) ∧ (s.chip.is (R.IMP_PDK p) F.IMP_PDK_EN = true) ∧
          (s.chip.imp.reqs.find? (fun q => decide (q.1 = p.val)) = none) ∧ ((s.chip.f (R.IMP_PDK p) F.IMP_PDK_WATCH) ≠ 0) ∧ ((s.chip.f
          (R.IMP_PDK p) F.IMP_PDK_WATCH) ≠ s.chip.f R.FAB_ID F.FAB_ID_ID))
    ∧ (let p : Fin 256 := 255
       let q : Nat × Nat × Nat := (255, 4, 1000)
       let s : State := at0 fun c => ((c.flag R.MUS_STAT F.MUS_STAT_IS_BW true).flag (R.IMP_PDK 255) F.IMP_PDK_EN true).updImp fun x => { x with reqs := [(3, 5, 9), (255, 4, 1000)] }
       (Awake P.IMP s) ∧ (s.chip.is R.MUS_STAT F.MUS_STAT_IS_BW = true) ∧ (s.chip.is (R.IMP_PDK p) F.IMP_PDK_EN = true) ∧
          (s.chip.imp.reqs.find? (fun q => decide (q.1 = p.val)) = some q) ∧ ((!(s.chip.paddock p).foreign || decide (s.chip.f
          R.IMP_HERD F.IMP_HERD_RATIO ≤ (s.chip.paddock p).watchRun + 1) || decide ((s.chip.f (R.IMP_PDK p) F.IMP_PDK_WATCH) = 0)) =
          true) ∧ (q.2.1 ≠ s.chip.f R.FAB_ID F.FAB_ID_ID))
    ∧ (let p : Packet := { pkt 0x18 5 [255, 9, 0, 0, 0, 0, 0, 0] with vc := 2 }
       let s : State := at0 fun c => (c.flag R.MUS_STAT F.MUS_STAT_IS_BW true).updImp fun x => { x with pads := [⟨255, 77, 0, false, [4, 9]⟩] }
       (s.chip.powered = true) ∧ (s.chip.time.gated = false) ∧ (s.chip.admitted p = none) ∧ (s.chip.is R.MUS_STAT F.MUS_STAT_IS_BW = true) ∧
          ((s.chip.paddock (p.w 0 % 256)).opened.idxOf (p.w 1 % 2 ^ 15) + 1 = (s.chip.paddock (p.w 0 % 256)).opened.length)) := by decide +kernel

/-- States and operands that meet the hypotheses of ProbeCommands (part 6). -/
theorem witness_ProbeCommands_6 :
      (let p : Packet := { pkt 0x18 5 [255, 4, 0, 0, 0, 0, 0, 0] with vc := 2 }
       let s : State := at0 fun c => (c.flag R.MUS_STAT F.MUS_STAT_IS_BW true).updImp fun x => { x with pads := [⟨255, 77, 0, false, [4, 9]⟩] }
       (s.chip.powered = true) ∧ (s.chip.time.gated = false) ∧ (s.chip.admitted p = none) ∧ (s.chip.is R.MUS_STAT F.MUS_STAT_IS_BW = true) ∧
          ((s.chip.paddock (p.w 0 % 256)).opened.idxOf (p.w 1 % 2 ^ 15) + 1 ≠ (s.chip.paddock (p.w 0 % 256)).opened.length))
    ∧ (let g : Grant := ⟨5, 10, true⟩
       let s : State := at0 fun c => ((((c.flag R.IMP_CTL F.IMP_CTL_EN true).setF R.IMP_STAT F.IMP_STAT_PHASE 5).updGrp 0 fun x => { x with trigHt := 7 }).updImp fun x => { x with grant := some ⟨5, 10, true⟩, inGrant := false }).setF R.MUS_BW F.MUS_BW_ID 7
       (Awake P.IMP s) ∧ (s.chip.imp.grant = some g) ∧ (s.chip.imp.inGrant = false) ∧ (s.chip.is R.IMP_CTL F.IMP_CTL_EN = true) ∧ (g.start ≤
          (s.chip.grp (s.chip.f R.IMP_CTL F.IMP_CTL_RG)).trigHt) ∧ ((s.chip.grp (s.chip.f R.IMP_CTL F.IMP_CTL_RG)).trigHt < g.stop) ∧
          (s.chip.impPh = Ip.waitGrant ∨ s.chip.impPh = Ip.paused))
    ∧ (let g : Grant := ⟨5, 10, true⟩
       let s : State := at0 fun c => ((((c.flag R.IMP_CTL F.IMP_CTL_EN true).setF R.IMP_STAT F.IMP_STAT_PHASE 3).updGrp 0 fun x => { x with trigHt := 10 }).updImp fun x => { x with grant := some ⟨5, 10, true⟩, inGrant := true }).setF R.MUS_BW F.MUS_BW_ID 7
       (Awake P.IMP s) ∧ (s.chip.imp.grant = some g) ∧ (s.chip.imp.inGrant = true) ∧ (g.stop ≤ (s.chip.grp (s.chip.f R.IMP_CTL
          F.IMP_CTL_RG)).trigHt) ∧ (s.chip.f R.MUS_BW F.MUS_BW_ID ≠ s.chip.f R.FAB_ID F.FAB_ID_ID)) := by decide +kernel

/-- States and operands that meet the hypotheses of ProbeCommands (part 7). -/
theorem witness_ProbeCommands_7 :
      (let g : Grant := ⟨5, 10, true⟩
       let s : State := at0 fun c => (( ((((c.flag R.IMP_CTL F.IMP_CTL_EN true).setF R.IMP_STAT F.IMP_STAT_PHASE 3).updGrp 0 fun x => { x with trigHt := 10 }).updImp fun x => { x with grant := some ⟨5, 10, true⟩, inGrant := true }).setF R.MUS_BW F.MUS_BW_ID 7).wr (Key.slot 0) 0x40000007).updStr fun x => { x with owners := [(0, Cl.imp)] }
       (Awake P.IMP s) ∧ (s.chip.imp.grant = some g) ∧ (s.chip.imp.inGrant = true) ∧ (g.stop ≤ (s.chip.grp (s.chip.f R.IMP_CTL
          F.IMP_CTL_RG)).trigHt) ∧ (s.chip.f R.MUS_BW F.MUS_BW_ID ≠ s.chip.f R.FAB_ID F.FAB_ID_ID) ∧ (s.chip.holds Cl.imp (s.chip.f
          R.IMP_CTL F.IMP_CTL_OUT) = true)) := by decide +kernel

/-- States and operands that meet the hypotheses of MeterCommands (part 1). -/
theorem witness_MeterCommands_1 :
      (let p : Fin 2 := 1
       let tau : Int := -1000000 * 2 ^ 48
       let s : State := at0 fun c => ((((c.flag (R.MTR_STAT 1) F.MTR_STAT_RUNNING true).flag (R.MTR_IN_SRC 1 5) F.MTR_IN_SRC_EN true).setF (R.MTR_CFG 1) F.MTR_CFG_LAG_US 1000).flag (R.MTR_STAT 1) F.MTR_STAT_REF_OK true |>.updPort 1 fun x => { x with hist := upd x.hist 5 fun _ => [⟨10 * 2 ^ 48, F64.ofInt 4, false⟩, ⟨-2000000 * 2 ^ 48, F64.ofInt 2, false⟩] })
       (Awake (P.MTR p) s) ∧ (s.chip.is (R.MTR_STAT p) F.MTR_STAT_RUNNING = true) ∧ (tau = ((((s.chip.htNs / s.chip.mtrTm p * s.chip.mtrTm p) :
          Nat) : Int) - ((s.chip.f (R.MTR_CFG p) F.MTR_CFG_LAG_US * 1000 : Nat) : Int)) * 2 ^ 48) ∧ ((∀ k < 6, s.chip.is (R.MTR_IN_SRC p
          k) F.MTR_IN_SRC_EN = false ∨ (alignAt tau (nth (s.chip.mport p).hist k [])).isSome = true)) ∧ ((s.chip.mport p).low = false) ∧
          (s.chip.is (R.MTR_STAT p) F.MTR_STAT_REF_OK = true) ∧ ((s.chip.mport p).n + 1 < s.chip.mtrRate p / 40) ∧ (p.val <
          s.chip.mtr.port.length)) := by decide +kernel

/-- States and operands that meet the hypotheses of MeterCommands (part 2). -/
theorem witness_MeterCommands_2 :
      (let p : Fin 2 := 1
       let tau : Int := -1000000 * 2 ^ 48
       let s : State := at0 fun c => ((((c.flag (R.MTR_STAT 1) F.MTR_STAT_RUNNING true).flag (R.MTR_IN_SRC 1 5) F.MTR_IN_SRC_EN true).setF (R.MTR_CFG 1) F.MTR_CFG_LAG_US 1000).updPort 1 fun x => { x with low := true, n := 300, hist := upd x.hist 5 fun _ => [⟨10 * 2 ^ 48, F64.ofInt 4, false⟩, ⟨-2000000 * 2 ^ 48, F64.ofInt 2, false⟩] })
       (Awake (P.MTR p) s) ∧ (s.chip.is (R.MTR_STAT p) F.MTR_STAT_RUNNING = true) ∧ (tau = ((((s.chip.htNs / s.chip.mtrTm p * s.chip.mtrTm p) :
          Nat) : Int) - ((s.chip.f (R.MTR_CFG p) F.MTR_CFG_LAG_US * 1000 : Nat) : Int)) * 2 ^ 48) ∧ ((∀ k < 6, s.chip.is (R.MTR_IN_SRC p
          k) F.MTR_IN_SRC_EN = false ∨ (alignAt tau (nth (s.chip.mport p).hist k [])).isSome = true)) ∧ ((s.chip.mport p).low = true) ∧
          (s.chip.f (R.MTR_CFG p) F.MTR_CFG_REF < 6) ∧ (0 ≤ (nth ((List.range 6).map fun k => if s.chip.is (R.MTR_IN_SRC p k)
          F.MTR_IN_SRC_EN then ((alignAt tau (nth (s.chip.mport p).hist k [])).getD (F64.zero, false)).1 else F64.zero) (s.chip.f
          (R.MTR_CFG p) F.MTR_CFG_REF) F64.zero).sign) ∧ (s.chip.mtrRate p / 70 ≤ (s.chip.mport p).n) ∧ (0 < (s.chip.mport p).n) ∧
          (p.val < s.chip.mtr.port.length))
    ∧ (let c : Chip := State.reset.chip
       let p : Fin 2 := 1
       let j : Fin 8 := 7
       let d : F64 := F64.ofInt 5
       let e : Nat := 5
       e = c.rd64 (R.MTR_E p (2 * j)) + (F64.add (nth (c.mport p).res j F64.zero) d).floor.toNat)
    ∧ (let c : Chip := (State.reset.chip.wr (R.MTR_E 1 14) 0xFFFFFFFF).wr (R.MTR_E 1 15) 0xFFFFFFFF
       let p : Fin 2 := 1
       let j : Fin 8 := 7
       let d : F64 := F64.ofInt 1
       let e : Nat := 2 ^ 64
       e = c.rd64 (R.MTR_E p (2 * j)) + (F64.add (nth (c.mport p).res j F64.zero) d).floor.toNat ∧ 2 ^ 64 ≤ e) := by decide +kernel

/-- States and operands that meet the hypotheses of MeterCommands (part 3). -/
theorem witness_MeterCommands_3 :
      (let w : Writer := host
       let p : Fin 2 := 1
       let s : State := at0 fun c => ({ c with mode := .ready } : Chip).wr (R.MTR_E 1 15) 7
       (May w (R.MTR_CMD p) s) ∧ (s.chip.mode = .ready) ∧ (s.chip.mtr.save = none))
    ∧ (let w : Writer := host
       let p : Fin 2 := 1
       let s : State := at0 id
       (May w (R.MTR_CMD p) s) ∧ (s.chip.mode ≠ .ready))
    ∧ (let w : Writer := host
       let s : State := at0 id
       (May w (R.MTR_CMD 0) s) ∧ (s.chip.mtr.save = none))
    ∧ (let w : Writer := host
       let r : SaveRun := ⟨false, 1, [], []⟩
       let s : State := at0 fun c => c.updMtr fun m => { m with save := some ⟨false, 1, [], []⟩ }
       (May w (R.MTR_CMD 0) s) ∧ (s.chip.mtr.save = some r))
    ∧ (let s : State := at0 fun c => c.setF (R.MTR_SAVE_CFG 0) F.MTR_SAVE_CFG_PERIOD_S 10
       (s.chip.powered = true) ∧ (s.chip.time.gated = false) ∧ (s.chip.f (R.MTR_SAVE_CFG 0) F.MTR_SAVE_CFG_PERIOD_S ≠ 0) ∧ (s.chip.mtr.save =
          none))
    ∧ (let s : State := at0 fun c => c.setF (R.MTR_SAVE_CFG 0) F.MTR_SAVE_CFG_PERIOD_S 0
       (s.chip.f (R.MTR_SAVE_CFG 0) F.MTR_SAVE_CFG_PERIOD_S = 0)) := by decide +kernel

/-- States and operands that meet the hypotheses of MeterCommands (part 4). -/
theorem witness_MeterCommands_4 :
      (let w : Writer := host
       let s : State := at0 fun c => c.wr (R.MTR_CO_CHG_HI 0) 7
       (May w (R.MTR_CMD 0) s))
    ∧ (let r : SaveRun := ⟨false, 77, [(3, 0x5A), (9, 0xA5)], []⟩
       let s : State := at0 fun c => c.updMtr fun m => { m with save := some ⟨false, 77, [(3, 0x5A), (9, 0xA5)], []⟩ }
       (s.chip.mtr.save = some r) ∧ (r.fail = false))
    ∧ (let r : SaveRun := ⟨false, 77, [(3, 0x5A), (9, 0xA5)], []⟩
       let s : State := at0 fun c => c.updMtr fun m => { m with save := some ⟨false, 77, [(3, 0x5A), (9, 0xA5)], []⟩ }
       (s.chip.mtr.save = some r) ∧ (r.fail = false))
    ∧ (let r : SaveRun := ⟨true, 77, [(3, 0x5A), (9, 0xA5)], []⟩
       let s : State := at0 fun c => c.updMtr fun m => { m with save := some ⟨true, 77, [(3, 0x5A), (9, 0xA5)], []⟩ }
       (s.chip.mtr.save = some r) ∧ (r.fail = true)) := by decide +kernel

/-- States and operands that meet the hypotheses of LapCommands (part 1). -/
theorem witness_LapCommands_1 :
      (let r : LapRec := ⟨true, 5, 0, 1000, [0x12345678]⟩
       let rest : List LapRec := []
       let s : State := at0 fun c => { c with lap := { c.lap with fifo := [⟨true, 5, 0, 1000, [0x12345678]⟩] } }
       (Awake P.LAP s) ∧ (s.chip.lap.fifo = r :: rest))
    ∧ (let s : State := at0 fun c => ({ c with mode := .run } : Chip).flag R.LAP_CTL F.LAP_CTL_EN true |>.setF R.LAP_STAT F.LAP_STAT_STATE 1
       (Awake P.LAP s) ∧ (s.chip.lapOn = true) ∧ (s.chip.lap.lost = 0) ∧ (s.chip.lap.fill < 65536))
    ∧ (let s : State := at0 fun c => { (({ c with mode := .run } : Chip).flag R.LAP_CTL F.LAP_CTL_EN true |>.setF R.LAP_STAT F.LAP_STAT_STATE 1) with lap := { c.lap with fifo := List.replicate 1 ⟨false, 1, 0, 0, List.replicate 8190 0⟩ } }
       (Awake P.LAP s) ∧ (s.chip.lapOn = true) ∧ (65536 ≤ s.chip.lap.fill))
    ∧ (let s : State := at0 fun c => (({ c with mode := .run } : Chip).flag R.LAP_CTL F.LAP_CTL_EN true |>.setF R.LAP_STAT F.LAP_STAT_STATE 1).setF R.STR_STAT F.STR_STAT_BUSY 8
       (Awake P.LAP s) ∧ (s.chip.lapOn = true) ∧ (s.chip.f R.STR_STAT F.STR_STAT_BUSY ≠ 0))
    ∧ (let s : State := at0 fun c => ({ c with mode := .run } : Chip).flag R.LAP_CTL F.LAP_CTL_EN true |>.setF R.LAP_STAT F.LAP_STAT_STATE 1
       (Awake P.LAP s) ∧ (s.chip.lapOn = true) ∧ (s.chip.f R.STR_STAT F.STR_STAT_BUSY = 0) ∧ (s.chip.lap.fill < 65536))
    ∧ (let d : Bool := true
       let stamp : Nat := 9
       let priv : SMap Byte := [(4, 5)]
       let s : State := at0 fun c => (({ c with mode := .run } : Chip).flag R.LAP_CTL F.LAP_CTL_EN true |>.setF R.LAP_STAT F.LAP_STAT_STATE 1).updTwin true fun x => { x with copying := some (9, [(4, 5)]) }
       (Awake P.LAP s) ∧ (s.chip.lapOn = true) ∧ ((s.chip.twin d).copying = some (stamp, priv)) ∧ (s.chip.red.twins.length = 2) ∧
          (s.chip.red.slots.length = 4) ∧ (s.chip.lap.fill < 65536) ∧ (s.chip.lap.lost = 0)) := by decide +kernel

/-- States and operands that meet the hypotheses of LapCommands (part 2). -/
theorem witness_LapCommands_2 :
      (let w : Writer := host
       let s : State := at0 fun c => { (({ c with mode := .run } : Chip).flag R.LAP_CTL F.LAP_CTL_EN true |>.setF R.LAP_STAT F.LAP_STAT_STATE 1) with lap := { c.lap with fifo := [⟨true, 5, 0, 1000, [0x12345678]⟩] } }
       (May w R.LAP_CMD s) ∧ (s.chip.lapOn = true))
    ∧ (let w : Writer := host
       let s : State := at0 fun c => (({ c with mode := .run } : Chip).flag R.LAP_CTL F.LAP_CTL_EN true |>.setF R.LAP_STAT F.LAP_STAT_STATE 1).setF R.LAP_STAT F.LAP_STAT_STATE 3
       (May w R.LAP_CMD s) ∧ (s.chip.lapState = Ls.frozen ∨ s.chip.lapState = Ls.importing))
    ∧ (let w : Writer := host
       let s : State := at0 id
       (May w R.LAP_CMD s) ∧ (s.chip.lapState ≠ Ls.frozen) ∧ (s.chip.lapState ≠ Ls.importing))
    ∧ (let w : Writer := host
       let s : State := at0 id
       (May w R.LAP_CMD s))
    ∧ (let w : Writer := host
       let s : State := at0 fun c => c.flag R.LAP_STAT F.LAP_STAT_ARMED true
       (May w R.LAP_CMD s))
    ∧ (let s : State := at0 fun c => (c.setF R.LAP_ARM F.LAP_ARM_ARM_S 5).flag R.LAP_STAT F.LAP_STAT_ARMED true
       (Awake P.LAP s) ∧ (s.chip.f R.LAP_ARM F.LAP_ARM_ARM_S ≠ 0)) := by decide +kernel

/-- States and operands that meet the hypotheses of LapCommands (part 3). -/
theorem witness_LapCommands_3 :
      (let s : State := at0 fun c => c.setF R.LAP_ARM F.LAP_ARM_ARM_S 0
       (s.chip.f R.LAP_ARM F.LAP_ARM_ARM_S = 0))
    ∧ (let s : State := at0 fun c => (({ c with mode := .run } : Chip).flag R.LAP_CTL F.LAP_CTL_EN true |>.setF R.LAP_STAT F.LAP_STAT_STATE 1).setF R.LAP_STAT F.LAP_STAT_STATE 2
       (Awake P.LAP s) ∧ (s.chip.lapOn = true) ∧ (s.chip.lapState = Ls.post))
    ∧ (let w : Writer := host
       let s : State := at0 fun c => { c with mode := .ready }
       (May w R.LAP_CMD s) ∧ (s.chip.mode = .ready))
    ∧ (let w : Writer := host
       let s : State := at0 id
       (May w R.LAP_CMD s) ∧ (s.chip.mode ≠ .ready)) := by decide +kernel

/-- States and operands that meet the hypotheses of ReplayCommands (part 1). -/
theorem witness_ReplayCommands_1 :
      (let w : Writer := host
       let r : LapRec := ⟨false, 3, 0, 100, []⟩
       let s : State := { pending := [], chip := (({ (at0 id).chip with mode := .replay } : Chip).setF R.LAP_STAT F.LAP_STAT_STATE 3), mem := { (at0 id).mem with dram := [(0x8000000, 0x83), (0x8000008, 0x64)] } }
       (May w R.LAP_CMD s) ∧ (s.chip.mode = .replay) ∧ (s.chip.lapState = Ls.frozen ∨ s.chip.lapState = Ls.importing ∨ s.chip.lapState =
          Ls.ended) ∧ (s.mem.lapAt (8 * s.chip.f R.LAP_REPLAY_CFG F.LAP_REPLAY_CFG_START % ringSize) 0 = r) ∧ (r.short = false) ∧
          (r.kind = 0x03))
    ∧ (let w : Writer := host
       let r : LapRec := ⟨false, 3, 0, 100, []⟩
       let a : HwAnchor := { State.reset.chip.anchor with hrd := { run := true } }
       let s : State := { pending := [], chip := (({ (at0 id).chip with mode := .replay } : Chip).setF R.LAP_STAT F.LAP_STAT_STATE 3).updRed (fun x => { x with anchors := [{ (at0 id).chip.anchor with hrd := { run := true } }] }), mem := { (at0 id).mem with dram := [(0x8000000, 0x83), (0x8000008, 0x64)] } }
       (May w R.LAP_CMD s) ∧ (s.chip.mode = .replay) ∧ (s.chip.lapState = Ls.frozen) ∧ (s.mem.lapAt (8 * s.chip.f R.LAP_REPLAY_CFG
          F.LAP_REPLAY_CFG_START % ringSize) 0 = r) ∧ (r.short = false) ∧ (r.kind = 0x03) ∧ (s.chip.red.anchors.find? (fun a => decide
          (a.pos % ringSize = (8 * s.chip.f R.LAP_REPLAY_CFG F.LAP_REPLAY_CFG_START % ringSize))) = some a))
    ∧ (let w : Writer := host
       let s : State := at0 id
       (May w R.LAP_CMD s) ∧ (s.chip.mode ≠ .replay))
    ∧ (let w : Writer := host
       let s : State := at0 fun c => ({ c with mode := .replay } : Chip).setF R.LAP_STAT F.LAP_STAT_STATE 6
       (May w R.LAP_CMD s) ∧ (s.chip.mode = .replay) ∧ (s.chip.lapState = Ls.paused))
    ∧ (let w : Writer := host
       let s : State := at0 id
       (May w R.LAP_CMD s) ∧ (s.chip.mode ≠ .replay ∨ s.chip.lapState ≠ Ls.paused)) := by decide +kernel

/-- States and operands that meet the hypotheses of ReplayCommands (part 2). -/
theorem witness_ReplayCommands_2 :
      (let s : State := at0 fun c => (c.setF R.LAP_STAT F.LAP_STAT_STATE 5).updRed fun x => { x with brk := true }
       (Awake P.LAP s) ∧ (s.chip.lapState = Ls.replaying) ∧ (s.chip.red.brk = true))
    ∧ (let s : State := at0 fun c => (c.setF R.LAP_STAT F.LAP_STAT_STATE 5).updRed fun x => { x with pos := 8 }
       (Awake P.LAP s) ∧ (s.chip.lapState = Ls.replaying) ∧ (s.replayOver = some false))
    ∧ (let s : State := { pending := [], chip := ((at0 id).chip.setF R.LAP_STAT F.LAP_STAT_STATE 5).updRed (fun x => { x with pos := 64 }), mem := { (at0 id).mem with dram := [(0x8000040, 0x82)] } }
       (Awake P.LAP s) ∧ (s.chip.lapState = Ls.replaying) ∧ (s.replayOver = some true))
    ∧ (let s : State := at0 fun c => (c.setF R.LAP_STAT F.LAP_STAT_STATE 5).updRed fun x => { x with pos := 64 }
       (s.chip.powered = true) ∧ (s.chip.time.gated = false) ∧ (s.chip.lapState = Ls.replaying) ∧ (s.replayOver = none)) := by decide +kernel

/-! ### The spec's worked examples -/

/-- R254, worked example of the wind power curve: 1,120 rpm gives mantissa 2,081,623 at exponent 22. -/
theorem test_curve_example :
    ((curveAt [(.ofInt 1110, .ofInt 1013060), (.ofInt 1125, .ratio 2109375 2)] (.ofInt 1120)).slot 22).m = 2081623 := by decide +kernel

/-- The DC-link channel of R236's worked example. -/
def dcLink : Chip :=
  ((((Chip.reset.setF (R.PCR_CH_CFG 0) F.PCR_CH_CFG_EXP 11).wrN (R.PCR_CH_DT 0) 1000000).wrN (R.PCR_CH_VLIM 0) (8192000 * 256 + 9)).wrN
    (R.PCR_CH_ALIM 0) (5120000 * 256 + 13)).wrN (R.PCR_CH_JLIM 0) (6400000 * 256 + 17)

theorem test_pacer_vt : dcLink.pcrLim 0 (R.PCR_CH_VLIM 0) 1 = 34359738368 := by decide +kernel
theorem test_pacer_at : dcLink.pcrLim 0 (R.PCR_CH_ALIM 0) 2 = 343597384 := by decide +kernel
theorem test_pacer_jt : dcLink.pcrLim 0 (R.PCR_CH_JLIM 0) 3 = 6871948 := by decide +kernel

/-- Worked example of R676: GD_LATCH of GDI_05 is source 133, its EVR.SRC at 0x4000_2314, its page at 0x400E_5000. -/
theorem test_gd_latch_source : evSource (P.GDI 5) 1 = some 133 ∧ R.EVR_SRC 133 = 0x2314 ∧ P.GDI 5 = 0xE5000 := by decide +kernel

/-- R677, same example: the starting block routes it to twin A with priority 14. -/
theorem test_gd_latch_default : (Chip.reset.evrReset.f (R.EVR_SRC 133) F.EVR_SRC_TWA = 1 ∧ Chip.reset.evrReset.f (R.EVR_SRC 133) F.EVR_SRC_PRIO = 14) := by decide +kernel

/-- Worked example of the phase current: OSR 50 at 40 Mb/s delays by 1,837.5 ns, 735 CK_PER cycles, and completes 2.5 ns later. -/
theorem test_xmd_delay : xmdDelay 50 40 = 736 := by decide +kernel

/-- GDI_04 of the retry example, active with n faults counted. -/
def gdi4 (n : Nat) : State := at0 fun c =>
  ((({ c with mode := .run }.setF (R.GDI_RETRY 4) F.GDI_RETRY_MAX 2).setF (R.GDI_RETRY 4) F.GDI_RETRY_WAIT 50).setF (R.GDI_STAT 4)
    F.GDI_STAT_STATE Gs.active).updGdi 4 fun x => { x with n := n }

theorem test_retry_second : ((gdi4 1).chip.gdiFault 4 0 false).gdiState 4 = Gs.retryWait := by decide +kernel
theorem test_retry_third : ((gdi4 2).chip.gdiFault 4 0 false).gdiState 4 = Gs.latched := by decide +kernel

/-- The check value of CRC-32 under the parameters of R59 (the bytes "123456789"). -/
theorem test_crc32 : crc32Bytes [0x31, 0x32, 0x33, 0x34, 0x35, 0x36, 0x37, 0x38, 0x39] = 0xCBF43926 := by decide +kernel
end Sys2Proof.Machine
end

namespace Sys2Proof.Machine

/-! ### Repetition, turn by turn -/

/-- What each turn takes from its own number to the next, a repetition takes from 0 to the number of turns. -/
theorem forN_ind {α : Type} (P : Nat → α → Prop) (n : Nat) (g : Nat → α → α) (a : α) (h0 : P 0 a)
    (hg : ∀ i < n, ∀ a, P i a → P (i + 1) (g i a)) : P n (forN n g a) := by
  induction n with
  | zero => exact h0
  | succ n ih =>
    have hn : forN (n + 1) g a = g n (forN n g a) := by simp [forN, List.range_succ]
    rw [hn]
    exact hg n (by omega) _ (ih fun i hi => hg i (by omega))

/-- What holds before a repetition and is kept by each of its turns holds after it. -/
theorem forN_inv_lt {α : Type} (P : α → Prop) (n : Nat) (g : Nat → α → α) (a : α) (h : P a) (hg : ∀ i < n, ∀ a, P a → P (g i a)) :
    P (forN n g a) := forN_ind (fun _ => P) n g a h hg

/-! ### Outputs of the gate-drive instances -/

theorem Chip.f_congr {c d : Chip} {k : Nat} (h : d.rd k = c.rd k) (x : Fld) : d.f k x = c.f k x := by simp only [Chip.f, h]

theorem Chip.is_congr {c d : Chip} {k : Nat} (h : d.rd k = c.rd k) (x : Fld) : d.is k x = c.is k x := by
  simp only [Chip.is, Chip.f_congr h]

theorem evKey_gdi_stat : ∀ n < 16, evKey (R.GDI_STAT n) = false := by decide

theorem page_gdi (n : Nat) : P.GDI n % 0x1000 = 0 := by simp only [P.GDI]; omega

/-- A choice between two chips that both keep the frame. -/
theorem Chip.Kept.ite {ev : Bool} {ks : List Nat} {ps : List Part} {c d e : Chip} {p : Prop} [Decidable p] (h : Chip.Kept ev ks ps c d)
    (g : Chip.Kept ev ks ps c e) : Chip.Kept ev ks ps c (if p then d else e) := by split <;> assumption

/-- A choice between two chips that show the same flag. -/
theorem Chip.is_ite {d e : Chip} {k : Nat} {x : Fld} {b : Bool} {p : Prop} [Decidable p] (h : d.is k x = b) (g : e.is k x = b) :
    (if p then d else e).is k x = b := by split <;> assumption

/-- The outputs of instance `n`, said once: what stands before them differs only in the instance's own state and in a reported late rise, and
each output is on only where the Sheepdog does not hold the gates off. -/
theorem Chip.gdiOut_eq (c : Chip) (n : Nat) (hn : n < 16) : ∃ (d : Chip) (go h l both : Bool),
    c.gdiOut n = ((d.flag (R.GDI_STAT n) F.GDI_STAT_GH ((go && !d.is (R.GDI_STAT n) F.GDI_STAT_SHD_OFF) && h)).flag (R.GDI_STAT n)
        F.GDI_STAT_GL ((go && !d.is (R.GDI_STAT n) F.GDI_STAT_SHD_OFF) && l)).flag (R.GDI_STAT n) F.GDI_STAT_CAUSE_SHOOT both
      ∧ Chip.Kept true [R.GDI_STAT n] [.pwm] c d
      ∧ d.is (R.GDI_STAT n) F.GDI_STAT_SHD_OFF = c.is (R.GDI_STAT n) F.GDI_STAT_SHD_OFF := by
  unfold Chip.gdiOut
  generalize c.gdiReq n = r
  obtain ⟨h, l⟩ := r
  dsimp only
  refine ⟨_, _, _, _, _, rfl, ?_, ?_⟩
  · have hk : R.GDI_STAT n ∈ [R.GDI_STAT n] := by simp
    have hp : Part.pwm ∈ [Part.pwm] := by simp
    have h0 : Chip.Kept true [R.GDI_STAT n] [.pwm] c (if (h && l) = true then c.updGdi n fun x => { x with shoot := true } else c) :=
      .ite (Chip.Kept.refl.updGdi hp) .refl
    exact .ite (((h0.updGdi hp).flag hk).raise (page_gdi n)) (h0.updGdi hp)
  · have h0 : (if (h && l) = true then c.updGdi n fun x => { x with shoot := true } else c).is (R.GDI_STAT n) F.GDI_STAT_SHD_OFF
        = c.is (R.GDI_STAT n) F.GDI_STAT_SHD_OFF := Chip.is_ite (Chip.updGdi_is ..) rfl
    refine Chip.is_ite ?_ ((Chip.updGdi_is ..).trans h0)
    rw [Chip.is_raise _ _ _ _ _ (page_gdi n) (evKey_gdi_stat n hn), Chip.is_flag_beside _ _ _ _ _ (by decide) (by decide),
      Chip.updGdi_is, h0]

theorem Chip.Kept.gdiOut {ks : List Nat} {ps : List Part} {c d : Chip} (h : Chip.Kept true ks ps c d) {n : Nat} (hn : n < 16)
    (hk : R.GDI_STAT n ∈ ks) (hp : .pwm ∈ ps) : Chip.Kept true ks ps c (d.gdiOut n) := by
  obtain ⟨e, go, hi, lo, both, he, hkept, -⟩ := d.gdiOut_eq n hn
  rw [he]
  exact (((h.trans (hkept.mono (by simpa using hk) (by simpa using hp))).flag hk).flag hk).flag hk

/-- The Sheepdog holds both gates of instance `n` low (R29, R499). -/
def Chip.HeldOff (c : Chip) (n : Nat) : Prop :=
  c.is (R.GDI_STAT n) F.GDI_STAT_SHD_OFF = true ∧ c.is (R.GDI_STAT n) F.GDI_STAT_GH = false
    ∧ c.is (R.GDI_STAT n) F.GDI_STAT_GL = false

theorem Chip.HeldOff.congr {c d : Chip} {n : Nat} (h : c.HeldOff n) (hr : d.rd (R.GDI_STAT n) = c.rd (R.GDI_STAT n)) : d.HeldOff n := by
  simpa only [Chip.HeldOff, Chip.is_congr hr] using h

/-- Where the Sheepdog holds an instance off, its outputs follow as low. -/
theorem Chip.heldOff_gdiOut (c : Chip) (n : Nat) (hn : n < 16) (h : c.is (R.GDI_STAT n) F.GDI_STAT_SHD_OFF = true) :
    (c.gdiOut n).HeldOff n := by
  obtain ⟨d, go, hi, lo, both, he, -, hd⟩ := c.gdiOut_eq n hn
  rw [he, hd, h]
  simp only [Bool.not_true, Bool.and_false, Bool.false_and]
  refine ⟨?_, ?_, ?_⟩
  · rw [Chip.is_flag_beside _ _ _ _ _ (by decide) (by decide), Chip.is_flag_beside _ _ _ _ _ (by decide) (by decide),
      Chip.is_flag_beside _ _ _ _ _ (by decide) (by decide), hd, h]
  · rw [Chip.is_flag_beside _ _ _ _ _ (by decide) (by decide), Chip.is_flag_beside _ _ _ _ _ (by decide) (by decide),
      Chip.is_flag _ _ _ _ (by decide) (by decide)]
  · rw [Chip.is_flag_beside _ _ _ _ _ (by decide) (by decide), Chip.is_flag _ _ _ _ (by decide) (by decide)]

/-! ### Outputs of the channels -/

/-- The registers in which the outputs of channel `n` and the blanking windows that they open show. -/
def chKeys (n : Nat) : List Nat :=
  [R.TRIP_CH_STAT, R.PWMC_STAT n] ++ (List.range 16).map R.ACMP_CH_STAT ++ (List.range 16).map R.TRIP_SRC_STAT

namespace Chip.Kept
variable {ev : Bool} {ks : List Nat} {ps : List Part} {c d : Chip} {n : Nat}

theorem blankEdge (h : Chip.Kept ev ks ps c d) (hk : chKeys n ⊆ ks) (hp : .meas ∈ ps) {ch e : Nat} :
    Chip.Kept ev ks ps c (d.blankEdge ch e) := by
  unfold Chip.blankEdge
  have acmp : ∀ i < 16, R.ACMP_CH_STAT i ∈ ks := fun i hi => hk (by simp [chKeys]; grind)
  have trip : ∀ i < 16, R.TRIP_SRC_STAT i ∈ ks := fun i hi => hk (by simp [chKeys]; grind)
  refine forN_inv_lt (fun x => Chip.Kept ev ks ps c x) 16 _ _ (forN_inv_lt (fun x => Chip.Kept ev ks ps c x) 16 _ _ h ?_) ?_
  · exact fun i hi x hx => ite ((hx.updAcmp hp).flag (acmp i hi)) hx
  · exact fun i hi x hx => ite (hx.flag (trip i hi)) hx

theorem chGates (h : Chip.Kept ev ks ps c d) (hk : chKeys n ⊆ ks) (hp : .meas ∈ ps) {hi lo : Bool} :
    Chip.Kept ev ks ps c (d.chGates n hi lo) := by
  have stat : R.PWMC_STAT n ∈ ks := hk (by simp [chKeys])
  have flags : Chip.Kept ev ks ps c ((d.flag (R.PWMC_STAT n) F.PWMC_STAT_GH hi).flag (R.PWMC_STAT n) F.PWMC_STAT_GL lo) :=
    (h.flag stat).flag stat
  have high : ∀ (p q : Prop) [Decidable p] [Decidable q] {x : Chip} {i j : Nat}, Chip.Kept ev ks ps c x →
      Chip.Kept ev ks ps c (if p then x.blankEdge n i else if q then x.blankEdge n j else x) :=
    fun p q _ _ x i j hx => ite (hx.blankEdge hk hp) (ite (hx.blankEdge hk hp) hx)
  exact high _ _ (high _ _ flags)

end Chip.Kept

/-- The outputs of channel `n`, said once: what its gate-drive instance follows differs in what `chKeys` names alone. -/
theorem Chip.chOut_eq (c : Chip) (n : Nat) : ∃ d, c.chOut n = d.gdiOut n ∧ Chip.Kept true (chKeys n) [.pwm, .meas] c d := by
  unfold Chip.chOut
  generalize c.chReq n = r
  generalize c.tripOver n = o
  obtain ⟨h, l⟩ := r
  obtain ⟨off, low⟩ := o
  refine ⟨_, rfl, .chGates ?_ (fun _ h => h) (by simp)⟩
  have trip : R.TRIP_CH_STAT ∈ chKeys n := by simp [chKeys]
  have stat : R.PWMC_STAT n ∈ chKeys n := by simp [chKeys]
  refine .ite (.flag ?_ stat) ?_ <;>
    exact ((((Chip.Kept.refl.updCh (by simp)).setBit trip).setBit trip).flag stat).flag stat

/-! ### The latched safe state -/

/-- The latch is set with `code` as its first cause, the device is in state `m`, the supplies are as `sgr` says, and the gates of the first
`g` instances are held low. -/
structure Chip.Latched (m : Mode) (sgr : Bool) (code g : Nat) (c : Chip) : Prop where
  mode : c.mode = m
  sgr : c.safe.sgr = sgr
  latch : c.is R.SHD_STAT F.SHD_STAT_LATCH = true
  cause : c.f R.SHD_CAUSE F.SHD_CAUSE_CODE = code
  off : ∀ n < g, c.HeldOff n
  bound : g ≤ 16

/-- The registers that show the latch, its cause and the gate-drive instances. -/
abbrev Watched (k : Nat) : Prop := k = R.SHD_STAT ∨ k = R.SHD_CAUSE ∨ (R.GDI_STAT 0 ≤ k ∧ k ≤ R.GDI_STAT 15)

theorem watched_gdi_stat {n : Nat} (hn : n < 16) : Watched (R.GDI_STAT n) := by
  simp only [Watched, R.GDI_STAT]; omega

theorem gdi_stat_inj {i j : Nat} (h : i ≠ j) : R.GDI_STAT i ≠ R.GDI_STAT j := by simp only [R.GDI_STAT]; omega

theorem chKeys_not_watched {n : Nat} (hn : n < 16) : ∀ k ∈ chKeys n, ¬ Watched k := by
  intro k hk
  simp only [chKeys, List.mem_append, List.mem_cons, List.not_mem_nil, or_false, List.mem_map, List.mem_range] at hk
  simp only [Watched, R.SHD_STAT, R.SHD_CAUSE, R.GDI_STAT]
  rcases hk with ((rfl | rfl) | ⟨i, hi, rfl⟩) | ⟨i, hi, rfl⟩
  · simp only [R.TRIP_CH_STAT]; omega
  · simp only [R.PWMC_STAT]; omega
  · simp only [R.ACMP_CH_STAT]; omega
  · simp only [R.TRIP_SRC_STAT]; omega

namespace Chip.Latched
variable {m : Mode} {sgr : Bool} {code g : Nat} {c d : Chip}

/-- The latched state is a matter of the watched registers, the device state and the supplies. -/
theorem congr (h : c.Latched m sgr code g) (hr : ∀ k, Watched k → evKey k = false → d.rd k = c.rd k) (hm : d.mode = c.mode)
    (hs : d.safe.sgr = c.safe.sgr) : d.Latched m sgr code g where
  mode := hm.trans h.mode
  sgr := hs.trans h.sgr
  latch := (Chip.is_congr (hr R.SHD_STAT (.inl rfl) (by decide)) _).trans h.latch
  cause := (Chip.f_congr (hr R.SHD_CAUSE (.inr (.inl rfl)) (by decide)) _).trans h.cause
  off n hn := (h.off n hn).congr (hr _ (watched_gdi_stat (by have := h.bound; omega)) (evKey_gdi_stat n (by have := h.bound; omega)))
  bound := h.bound

/-- What a frame without watched registers keeps. -/
theorem keep {ks : List Nat} {ps : List Part} (h : c.Latched m sgr code g) (hk : Chip.Kept true ks ps c d) (hw : ∀ k ∈ ks, ¬ Watched k)
    (hm : .mode ∉ ps) (hs : .safe ∉ ps) : d.Latched m sgr code g :=
  h.congr (fun k hwk he => hk.regs k (fun _ => he) fun hmem => hw k hmem hwk) (hk.parts .mode (by simp) (by simp) hm)
    (congrArg SafeSt.sgr (hk.parts .safe (by simp) (by simp) hs))

theorem wr (h : c.Latched m sgr code g) {k : Nat} {v : Word} (hk : ¬ Watched k) : (c.wr k v).Latched m sgr code g :=
  h.congr (fun _ hj _ => Chip.rd_wr_ne _ _ _ _ fun e => hk (e ▸ hj)) rfl rfl

theorem setF (h : c.Latched m sgr code g) {k n : Nat} {x : Fld} (hk : ¬ Watched k) : (c.setF k x n).Latched m sgr code g := h.wr hk

theorem incSat (h : c.Latched m sgr code g) {k n : Nat} {x : Fld} (hk : ¬ Watched k) : (c.incSat k x n).Latched m sgr code g := h.wr hk

theorem orBits (h : c.Latched m sgr code g) {k n : Nat} (hk : ¬ Watched k) : (c.orBits k n).Latched m sgr code g := h.wr hk

theorem raise (h : c.Latched m sgr code g) {b i : Nat} (hb : b % 0x1000 = 0) : (c.raise b i).Latched m sgr code g :=
  h.keep (Chip.Kept.refl.raise hb) (ks := []) (ps := []) (by simp) (by simp) (by simp)

theorem lapRec (h : c.Latched m sgr code g) {r : LapRec} : (c.lapRec r).Latched m sgr code g :=
  h.keep Chip.Kept.refl.lapRec (ks := []) (ps := []) (by simp) (by simp) (by simp)

theorem lapLevels (h : c.Latched m sgr code g) : c.lapLevels.Latched m sgr code g :=
  h.keep Chip.Kept.refl.lapLevels (ks := []) (ps := []) (by simp) (by simp) (by simp)

theorem ite {p : Prop} [Decidable p] (h : c.Latched m sgr code g) (hd : d.Latched m sgr code g) :
    (if p then c else d).Latched m sgr code g := by split <;> assumption

/-- A field of SHD.STAT below the latch. -/
theorem setShdStat (h : c.Latched m sgr code g) {x : Fld} {n : Nat} (hx : x.hi < 31) : (c.setF R.SHD_STAT x n).Latched m sgr code g where
  mode := h.mode
  sgr := h.sgr
  latch := by
    rw [Chip.is, Chip.f_setF_beside c R.SHD_STAT n x F.SHD_STAT_LATCH (by decide) (.inr hx)]
    exact h.latch
  cause := (Chip.f_setF_ne c R.SHD_STAT R.SHD_CAUSE n x _ (by decide)).trans h.cause
  off j hj := (h.off j hj).congr (Chip.rd_setF_ne _ _ _ _ _ (by have := h.bound; simp only [R.SHD_STAT, R.GDI_STAT]; omega))
  bound := h.bound

/-- A change of one instance's STAT and state, where the instances up to `g'` are held low behind it. -/
theorem gdi {n g' : Nat} (h : c.Latched m sgr code g) (hn : n < 16) (hk : Chip.Kept true [R.GDI_STAT n] [.pwm] c d)
    (hoff : ∀ j < g', (j = n ∧ d.HeldOff j) ∨ (j ≠ n ∧ c.HeldOff j)) (hg : g' ≤ 16) : d.Latched m sgr code g' where
  mode := (hk.parts .mode (by simp) (by simp) (by simp)).trans h.mode
  sgr := (congrArg SafeSt.sgr (hk.parts .safe (by simp) (by simp) (by simp))).trans h.sgr
  latch := (Chip.is_congr (hk.regs R.SHD_STAT (fun _ => by decide) (by simp [R.SHD_STAT, R.GDI_STAT]; omega)) _).trans h.latch
  cause := (Chip.f_congr (hk.regs R.SHD_CAUSE (fun _ => by decide) (by simp [R.SHD_CAUSE, R.GDI_STAT]; omega)) _).trans h.cause
  off j hj := by
    rcases hoff j hj with ⟨-, h⟩ | ⟨hjn, h⟩
    · exact h
    · exact h.congr (hk.regs _ (fun _ => evKey_gdi_stat j (by omega)) (by simpa using gdi_stat_inj hjn))
  bound := hg

/-- The outputs of an instance stay low where they were held low. -/
theorem gdiOut (h : c.Latched m sgr code g) {n : Nat} (hn : n < 16) : (c.gdiOut n).Latched m sgr code g :=
  h.gdi hn (Chip.Kept.refl.gdiOut hn (by simp) (by simp))
    (fun j hj => (eq_or_ne j n).imp (fun e => ⟨e, e ▸ c.heldOff_gdiOut n hn (h.off n (e ▸ hj)).1⟩) fun e => ⟨e, h.off j hj⟩) h.bound

/-- Where the latch takes hold, every instance in turn is held low. -/
theorem shdOff (h : c.Latched m sgr code 0) : (c.shdOff true).Latched m sgr code 16 := by
  unfold Chip.shdOff
  refine (forN_ind (fun i (d : Chip) => d.Latched m sgr code i) 16 _ c h fun i hi d hd => ?_).lapLevels
  have hshd : (d.flag (R.GDI_STAT i) F.GDI_STAT_SHD_OFF true).is (R.GDI_STAT i) F.GDI_STAT_SHD_OFF = true :=
    Chip.is_flag _ _ _ _ (by decide) (by decide)
  have hk : Chip.Kept true [R.GDI_STAT i] [.pwm] d ((d.flag (R.GDI_STAT i) F.GDI_STAT_SHD_OFF true).gdiOut i) :=
    (Chip.Kept.refl.flag (List.mem_singleton_self _)).gdiOut hi (List.mem_singleton_self _) (List.mem_singleton_self _)
  refine hd.gdi hi hk (fun j hj => ?_) hi
  rcases eq_or_ne j i with rfl | hne
  · exact .inl ⟨rfl, Chip.heldOff_gdiOut _ j hi hshd⟩
  · exact .inr ⟨hne, hd.off j (by omega)⟩

theorem chOut (h : c.Latched m sgr code g) {n : Nat} (hn : n < 16) : (c.chOut n).Latched m sgr code g := by
  obtain ⟨d, he, hk⟩ := c.chOut_eq n
  rw [he]
  exact (h.keep hk (chKeys_not_watched hn) (by simp) (by simp)).gdiOut hn

theorem gates (h : c.Latched m sgr code g) : c.gates.Latched m sgr code g :=
  forN_inv_lt (fun d : Chip => d.Latched m sgr code g) 16 _ c h fun _ hi _ hd => hd.chOut hi

/-- A change of state keeps the latch and the gates low. -/
theorem enter (h : c.Latched m sgr code g) (m' : Mode) : (c.enter m').Latched m' sgr code g := by
  unfold Chip.enter
  split
  next hm => exact { h with mode := hm }
  next =>
    have prev : (c.setF R.SYS_STATE F.SYS_STATE_PREV c.mode.code).Latched m sgr code g := h.wr (by decide)
    have moved : ({ c.setF R.SYS_STATE F.SYS_STATE_PREV c.mode.code with mode := m' } : Chip).Latched m' sgr code g :=
      { prev with mode := rfl }
    refine ite (gates ?_) ?_ <;>
      exact (((moved.wr (by decide)).wr (by decide)).wr (by decide)).raise (by decide) |>.lapRec

/-! #### The supplies, the breaker and the change log -/

/-- A change of the safety outputs' own state. -/
theorem updSout (h : c.Latched m sgr code g) {k : Nat} {f : SoutCh → SoutCh} : (c.updSout k f).Latched m sgr code g :=
  h.congr (fun _ _ _ => rfl) rfl rfl

theorem soutUpdate (h : c.Latched m sgr code g) : c.soutUpdate.Latched m sgr code g := by
  refine setShdStat (forN_inv_lt (fun d : Chip => d.Latched m sgr code g) 8 _ c h fun k _ d hd => ?_) (by decide)
  exact ite (updSout (hd.wr (by decide))) hd

theorem setSgr (h : c.Latched m sgr code g) (b : Bool) : (c.setSgr b).Latched m b code g :=
  soutUpdate { h with sgr := rfl }

theorem tripBreaker (h : c.Latched m sgr code g) : c.tripBreaker.Latched m sgr code g := by
  refine ite h (soutUpdate ?_)
  exact forN_inv_lt (fun d : Chip => d.Latched m sgr code g) 8 _ _ (h.setShdStat (by decide)) fun k _ d hd => ite hd.updSout hd

theorem logShow (h : c.Latched m sgr code g) : c.logShow.Latched m sgr code g := (h.wr (by decide)).wr (by decide)

/-- A change beside the registers, the device state and the supplies. -/
theorem beside (h : c.Latched m sgr code g) (hr : d.regs = c.regs) (hm : d.mode = c.mode) (hs : d.safe.sgr = c.safe.sgr) :
    d.Latched m sgr code g := h.congr (fun k _ _ => by simp only [Chip.rd, hr]) hm hs

theorem logIt (h : c.Latched m sgr code g) {kind : Nat} {d : List Byte} : (c.logIt kind d).Latched m sgr code g := by
  refine ite h (ite (logShow (h.beside rfl rfl rfl)) (ite (logShow (h.beside rfl rfl rfl)) ?_))
  have lost : ({ c with safe := { c.safe with lostDue := c.safe.lostDue + 1 } } : Chip).Latched m sgr code g := h.beside rfl rfl rfl
  exact ite (raise (lost.incSat (by decide)) (by decide)) (lost.incSat (by decide))

/-! #### A cause -/

theorem pacerOnSafe (h : c.Latched m sgr code g) : c.pacerOnSafe.Latched m sgr code g :=
  forN_inv_lt (fun d : Chip => d.Latched m sgr code g) 16 _ c h fun _ _ _ hd => ite (raise (hd.wr (by decide)) (by decide)) hd

/-- The cause recorded in SYS.SAFE_CAUSE, a replay stopped. -/
theorem causeRecorded (h : c.Latched m sgr code g) (n origin : Nat) :
    ((((if c.mode = .replay then c.setF R.LAP_STAT F.LAP_STAT_STATE 3 else c).setF R.SYS_SAFE_CAUSE F.SYS_SAFE_CAUSE_CAUSE n).setF
      R.SYS_SAFE_CAUSE F.SYS_SAFE_CAUSE_ORIGIN origin).incSat R.SYS_SAFE_CAUSE F.SYS_SAFE_CAUSE_COUNT).Latched m sgr code g :=
  (((ite (h.setF (by decide)) h).setF (by decide)).setF (by decide)).incSat (by decide)

/-- A powered device with the latch set enters SAFE. -/
theorem enterSafe (h : c.Latched m sgr code g) (hp : c.powered = true) (n : Nat) : (c.enterSafe n).Latched .safe sgr code g := by
  unfold Chip.enterSafe
  split
  next hs =>
    have hm : c.mode = .safe := by simpa [hp] using hs
    exact { h with mode := hm }
  next =>
    have recorded := h.causeRecorded n c.mode.code
    refine pacerOnSafe (enter (m := m) ?_ .safe)
    exact recorded.beside rfl rfl rfl

end Chip.Latched

/-- The latch set, with SHD.CAUSE showing `w`. -/
theorem Chip.latched_shown (c : Chip) (w : Nat) : ((c.flag R.SHD_STAT F.SHD_STAT_LATCH true).wrN R.SHD_CAUSE w).Latched c.mode c.safe.sgr
    (w % 256) 0 where
  mode := (Chip.wrN_mode ..).trans (Chip.flag_mode ..)
  sgr := congrArg SafeSt.sgr ((Chip.wrN_safe ..).trans (Chip.flag_safe ..))
  latch := by
    have kept : ((c.flag R.SHD_STAT F.SHD_STAT_LATCH true).wrN R.SHD_CAUSE w).rd R.SHD_STAT
        = (c.flag R.SHD_STAT F.SHD_STAT_LATCH true).rd R.SHD_STAT := Chip.rd_wr_ne _ _ _ _ (by decide)
    exact (Chip.is_congr kept _).trans (Chip.is_flag _ _ _ _ (by decide) (by decide))
  cause := by
    simp only [Chip.f, Chip.wrN, Chip.rd_wr_same, fget, wd, F.SHD_CAUSE_CODE, BitVec.toNat_ofNat]
    omega
  off := by omega
  bound := by omega

/-- From a state without the latch, a cause sets it, and the gates and the supplies go off. -/
theorem Chip.latched_latch {c : Chip} {code : Nat} (hl : c.is R.SHD_STAT F.SHD_STAT_LATCH = false) (hc : code < 256) (cls idx : Nat) :
    (c.latch code cls idx).Latched c.mode false code 16 := by
  unfold Chip.latch
  have hw : (cls * 2 ^ 16 + idx % 256 * 256 + code) % 256 = code := by omega
  generalize cls * 2 ^ 16 + idx % 256 * 256 + code = w at hw ⊢
  have shown := c.latched_shown w
  simp only [hl, Bool.not_false, if_true]
  generalize (c.flag R.SHD_STAT F.SHD_STAT_LATCH true).wrN R.SHD_CAUSE w = d at shown ⊢
  rw [hw] at shown
  refine .ite (.tripBreaker ?_) ?_ <;>
  · refine .setSgr (sgr := c.safe.sgr) (.orBits (.raise (.shdOff ?_) (by decide)) (by decide)) false
    exact shown.beside rfl rfl rfl

/-- The first safety cause in a powered device. -/
theorem Chip.latched_cause {c : Chip} {code : Nat} (hp : c.powered = true) (hl : c.is R.SHD_STAT F.SHD_STAT_LATCH = false)
    (hc : code < 256) (cls idx : Nat) : (c.cause code cls idx).Latched .safe false code 16 := by
  unfold Chip.cause
  rw [if_pos hp]
  have latched := Chip.latched_latch hl hc cls idx
  have entered := latched.enterSafe (by rw [Chip.powered, latched.mode]; exact hp) code
  exact .ite entered.logIt entered

/-- Settles O9: every step of the latch keeps `Chip.Latched`, from the latch alone to all sixteen instances held low. -/
theorem firstCauseHoldsGatesOff : Obligations.FirstCauseHoldsGatesOff := by
  intro c code cls idx n hp hl _ hcode _ hn
  obtain ⟨mode, sgr, latch, cause, off, -⟩ := Chip.latched_cause (code := code) hp hl (by omega) cls idx
  obtain ⟨hoff, gh, gl⟩ := off n hn
  exact ⟨mode, latch, gh, gl, hoff, sgr, cause⟩

/-! ### Requests and power-up that end in the safe state -/

/-- The reset state once the working clocks run, with its chip changed by `g`. -/
def clocked0 (g : Chip → Chip) : State := State.reset.onChip fun c => g (c.updTime fun t => { t with gated := false })

/-- READY with the run permit. Gate-drive instance 0 is ACTIVE on the legacy source, each pin the request of one gate (R363), both pins
high, and its faults are demands for the safe state (R369). -/
def bothLegacyPinsHigh : State := clocked0 fun c =>
  let c : Chip := ({ c with mode := .ready, crc := [(P.SCFG, 7)] } : Chip).wr R.SHD_SEALED_CRC 7
  let c : Chip := (c.setF R.SIN_STAT F.SIN_STAT_PERMISSIVE 0xFF).setF R.SOUT_STAT F.SOUT_STAT_PASSED 0xFF
  let c : Chip := ((c.setF (R.GDI_CFG 0) F.GDI_CFG_SRC 2).setF (R.GDI_CFG 0) F.GDI_CFG_LEG_MODE 2).setF (R.GDI_CFG 0) F.GDI_CFG_SHD 1
  ((c.setF (R.GDI_STAT 0) F.GDI_STAT_STATE Gs.active).flag (R.GDI_STAT 0) F.GDI_STAT_PUL true).flag (R.GDI_STAT 0) F.GDI_STAT_PEN true

/-- The request meets what the statement asks of a request for RUN that is granted. -/
theorem bothLegacyPinsHigh_may_run :
    May (twinWriter false) R.SYS_STATE_REQ bothLegacyPinsHigh ∧ bothLegacyPinsHigh.chip.mode = .ready
      ∧ bothLegacyPinsHigh.chip.anyFrozen = false ∧ bothLegacyPinsHigh.chip.permit = true := by decide +kernel

/-- At the entry to RUN both requests stand at the interlock of R364, and the fault they make takes the device into SAFE. -/
theorem bothLegacyPinsHigh_run_mode :
    (doStateReqRun (twinWriter false) theKey false bothLegacyPinsHigh.chip).mode = .safe := by decide +kernel

/-- Refutes O25: STATE_REQ_RUN is granted, and then the entry to RUN raises an interlock fault whose demand takes the device into SAFE. -/
theorem not_stateRequestCommands : ¬ Obligations.StateRequestCommands := by
  rintro ⟨hrun, -⟩
  obtain ⟨hmay, hready, hfrozen, hpermit⟩ := bothLegacyPinsHigh_may_run
  obtain ⟨t, ht, -, hmode, -⟩ := hrun (twinWriter false) bothLegacyPinsHigh hmay hready hfrozen hpermit
  cases ht
  exact absurd (bothLegacyPinsHigh_run_mode.symm.trans hmode) (by decide)

/-- SURVIVAL with good rails. Comparator channel 0 runs, is tripped at power-up (PU_STATE), and its trip is a demand for the safe state. -/
def demandAtPowerUp : State := clocked0 fun c =>
  let c : Chip := ({ c with mode := .survival } : Chip).setF (R.ACMP_CH_CFG 0) F.ACMP_CH_CFG_MODE 1
  ((c.flag (R.ACMP_CH_CFG 0) F.ACMP_CH_CFG_PU_STATE true).flag (R.ACMP_CH_CFG 0) F.ACMP_CH_CFG_TRIP_HI_EN true).flag (R.ACMP_CH_CFG 0)
    F.ACMP_CH_CFG_SHD true

/-- The state meets what the statement asks of VAUX_POWER_GOOD at power-up. -/
theorem demandAtPowerUp_unpowered : demandAtPowerUp.chip.powered = false ∧ demandAtPowerUp.chip.pow.rails = true := by decide +kernel

/-- At the power-up the comparator restarts tripped, and the device enters SAFE from BOOT. -/
theorem demandAtPowerUp_mode : (mdVauxPowerGood 900 demandAtPowerUp).chip.mode = .safe := by decide +kernel

/-- Refutes O14: VAUX_POWER_GOOD brings the device into BOOT, but the demand of a comparator that powers up tripped takes it on into SAFE. -/
theorem not_supplyCommands : ¬ Obligations.SupplyCommands := by
  rintro ⟨-, -, -, -, -, -, -, hboot, -⟩
  obtain ⟨hoff, hrails⟩ := demandAtPowerUp_unpowered
  obtain ⟨t, ht, -, hmode, -⟩ := hboot 900 demandAtPowerUp hoff hrails
  cases ht
  exact absurd (demandAtPowerUp_mode.symm.trans hmode) (by decide)

/-! ### Frames of the survival domain -/

/-- The registers that follow the store voltage, a task or a beacon in the survival domain. -/
def survKeys : List Nat :=
  [R.STORE_STAT, R.STORE_GAUGE, R.MTR_CO_STOP_SEC 0, R.MTR_CO_STAT 0, R.SURV_STAT, R.SURV_RES, R.RTC_STAT]

/-- The parts beside the registers that follow them. -/
def survParts : List Part := [.pow, .mtr, .time]

namespace Chip.Kept
variable {ev : Bool} {ks : List Nat} {ps : List Part} {c d : Chip}

theorem mode_eq (h : Chip.Kept ev ks ps c d) (hp : .mode ∉ ps) : d.mode = c.mode := h.parts .mode (by simp) (by simp) hp
theorem f_eq (h : Chip.Kept ev ks ps c d) {k : Nat} (he : ev = true → evKey k = false) (hk : k ∉ ks) (x : Fld) : d.f k x = c.f k x :=
  Chip.f_congr (h.regs k he hk) x
theorem is_eq (h : Chip.Kept ev ks ps c d) {k : Nat} (he : ev = true → evKey k = false) (hk : k ∉ ks) (x : Fld) : d.is k x = c.is k x :=
  Chip.is_congr (h.regs k he hk) x
theorem pow_eq (h : Chip.Kept ev ks ps c d) (hp : .pow ∉ ps) : d.pow = c.pow := h.parts .pow (by simp) (by simp) hp
theorem meas_eq (h : Chip.Kept ev ks ps c d) (hp : .meas ∉ ps) : d.meas = c.meas := h.parts .meas (by simp) (by simp) hp

theorem chgFollow (h : Chip.Kept ev ks ps c d) (hk : R.STORE_STAT ∈ ks) : Chip.Kept ev ks ps c d.chgFollow := (h.flag hk).flag hk

theorem supply (h : Chip.Kept ev ks ps c d) (hk : R.STORE_STAT ∈ ks) : Chip.Kept ev ks ps c d.supply :=
  ite ((h.flag hk).chgFollow hk) h

theorem setTime (h : Chip.Kept ev ks ps c d) {t : TimeSt} (hp : .time ∈ ps) : Chip.Kept ev ks ps c { d with time := t } :=
  h.updTime (g := fun _ => t) hp

theorem survShow (h : Chip.Kept ev ks ps c d) (hs : R.SURV_STAT ∈ ks) (hr : R.RTC_STAT ∈ ks) (hp : .time ∈ ps) :
    Chip.Kept ev ks ps c d.survShow := by
  unfold Chip.survShow
  extract_lets bcn sub enters e src e'
  have shown : Chip.Kept ev ks ps c e := (h.setF hs).setF hs
  have timed : Chip.Kept ev ks ps c e' := ite (shown.setTime hp) shown
  clear_value e'
  split
  · exact timed.flag hr
  · exact timed.flag hr
  · exact timed.flag hr
  · exact timed

theorem coStart (h : Chip.Kept ev ks ps c d) (hk : R.SURV_RES ∈ ks) (hp : .pow ∈ ps) : Chip.Kept ev ks ps c d.coStart :=
  ite (ite (h.updPow hp) (h.incSat hk)) h

theorem coCheck (h : Chip.Kept ev ks ps c d) (hs : R.MTR_CO_STOP_SEC 0 ∈ ks) (ht : R.MTR_CO_STAT 0 ∈ ks) (hp : .pow ∈ ps)
    (hm : .mtr ∈ ps) : Chip.Kept ev ks ps c d.coCheck :=
  ite ((((h.updPow hp).wrN hs).flag ht).updMtr hm) h

theorem storeShow (h : Chip.Kept true ks ps c d) (hk : R.STORE_STAT ∈ ks) {mv : Nat} : Chip.Kept true ks ps c (d.storeShow mv) :=
  ((h.setF hk).setF hk).raiseIf (by decide)

theorem storeCompare (h : Chip.Kept true ks ps c d) (hk : survKeys ⊆ ks) (hp : survParts ⊆ ps) {mv : Nat} :
    Chip.Kept true ks ps c (d.storeCompare mv) :=
  (((h.storeShow (hk (by simp [survKeys]))).updPow (hp (by simp [survParts]))).wrN (hk (by simp [survKeys])) |>.coCheck
    (hk (by simp [survKeys])) (hk (by simp [survKeys])) (hp (by simp [survParts])) (hp (by simp [survParts]))).survShow
    (hk (by simp [survKeys])) (hk (by simp [survKeys])) (hp (by simp [survParts]))

theorem portStart (h : Chip.Kept ev ks ps c d) (hs : R.SURV_STAT ∈ ks) (hr : R.RTC_STAT ∈ ks) (hp : .pow ∈ ps) (ht : .time ∈ ps)
    {kind src left : Nat} : Chip.Kept ev ks ps c (d.portStart kind src left) := ((h.setF hs).updPow hp).survShow hs hr ht

theorem beacon (h : Chip.Kept true ks ps c d) (hk : survKeys ⊆ ks) (hp : survParts ⊆ ps) {kind src left : Nat} :
    Chip.Kept true ks ps c (d.beacon kind src left) := by
  have compared : Chip.Kept true ks ps c (d.storeCompare d.vstore) := h.storeCompare hk hp
  unfold Chip.beacon
  dsimp only
  split
  · exact compared.portStart (hk (by simp [survKeys])) (hk (by simp [survKeys])) (hp (by simp [survParts])) (hp (by simp [survParts]))
  · exact ((compared.setF (hk (by simp [survKeys]))).incSat (hk (by simp [survKeys]))).updPow (hp (by simp [survParts]))

theorem wakeReq (h : Chip.Kept true ks ps c d) (hk : survKeys ⊆ ks) (hp : survParts ⊆ ps) {src : Nat} :
    Chip.Kept true ks ps c (d.wakeReq src) := by
  have raised : Chip.Kept true ks ps c (d.raise P.SURV 2) := h.raise (by decide)
  exact ite (ite (raised.beacon hk hp) (raised.updPow (hp (by simp [survParts])))) raised

theorem hrvActive (h : Chip.Kept true ks ps c d) (hh : R.HRV_STAT ∈ ks) (hk : R.STORE_STAT ∈ ks) {n : Nat} :
    Chip.Kept true ks ps c (d.hrvActive n) :=
  (((ite (h.setF hh) h).setF hh).raiseIf (by decide)).chgFollow hk

theorem protOn (h : Chip.Kept true ks ps c d) (hs : R.STORE_STAT ∈ ks) (ht : R.STORE_STAT2 ∈ ks) (hp : .pow ∈ ps) {k : Nat} :
    Chip.Kept true ks ps c (d.protOn k) :=
  ite (((((h.setF hs).incSat ht).updPow hp).chgFollow hs).raise (by decide)) h

theorem protOff (h : Chip.Kept ev ks ps c d) (hs : R.STORE_STAT ∈ ks) (hp : .pow ∈ ps) {k : Nat} :
    Chip.Kept ev ks ps c (d.protOff k) := ite ((h.updPow hp).chgFollow hs) h

end Chip.Kept

/-! ### Charging and protection -/

/-- A field of STORE.STAT beside the two flags that follow charging and protection is as before. -/
theorem Chip.f_chgFollow (c : Chip) (x : Fld) (hx : x.hi < 26 ∨ 27 < x.lo) (h32 : x.hi < 32) :
    c.chgFollow.f R.STORE_STAT x = c.f R.STORE_STAT x := by
  unfold Chip.chgFollow Chip.flag
  have conn : x.hi < F.STORE_STAT_LI_CONN.lo ∨ F.STORE_STAT_LI_CONN.hi < x.lo := by simp only [F.STORE_STAT_LI_CONN]; omega
  have charging : x.hi < F.STORE_STAT_CHARGING.lo ∨ F.STORE_STAT_CHARGING.hi < x.lo := by simp only [F.STORE_STAT_CHARGING]; omega
  rw [Chip.f_setF_beside _ _ _ _ _ h32 conn, Chip.f_setF_beside _ _ _ _ _ h32 charging]

/-- CHARGING as charging allows it (R597). -/
theorem Chip.charging_chgFollow (c : Chip) : c.chgFollow.is R.STORE_STAT F.STORE_STAT_CHARGING =
    (c.is R.STORE_CFG F.STORE_CFG_CHG_EN && c.chgSource && !c.is R.STORE_STAT F.STORE_STAT_CHG_DONE && !nbit c.pow.prot 0
      && !c.cellOut F.STORE_NTC_CHG_LO F.STORE_NTC_CHG_HI) := by
  unfold Chip.chgFollow
  rw [Chip.is_flag_beside _ _ _ _ _ (by decide) (by decide), Chip.is_flag _ _ _ _ (by decide) (by decide)]

theorem Chip.chgFollow_pow (c : Chip) : c.chgFollow.pow = c.pow := (Chip.flag_pow ..).trans (Chip.flag_pow ..)

/-- A two's-complement code reads as its number. -/
theorem sgn_toNat_eight (b : BitVec 8) : sgn 8 b.toNat = b.toInt := by
  have := b.isLt
  rw [sgn, BitVec.toInt_eq_toNat_cond]
  split <;> split <;> omega

/-- The protections in force once `k` has acted (R598). -/
theorem Chip.protOn_pow {c : Chip} {k : Nat} (h : (c.storeLi && !nbit c.pow.prot k) = true) :
    (c.protOn k).pow = { c.pow with prot := c.pow.prot + 2 ^ k } := by
  have counted : ((c.setF R.STORE_STAT F.STORE_STAT_PROT (k + 1)).incSat R.STORE_STAT2 F.STORE_STAT2_PROT_COUNT).pow = c.pow :=
    (Chip.setF_pow ..).trans (Chip.setF_pow ..)
  unfold Chip.protOn
  rw [if_pos h, Chip.raise_pow _ _ _ (by decide), Chip.chgFollow_pow, Chip.updPow_pow, counted]

/-- The protections in force once `k` is released (R598). -/
theorem Chip.protOff_pow {c : Chip} {k : Nat} (h : (nbit c.pow.prot k && (decide (k ≠ 1) || c.chgSource)) = true) :
    (c.protOff k).pow = { c.pow with prot := c.pow.prot - 2 ^ k } := by
  unfold Chip.protOff
  rw [if_pos h, Chip.chgFollow_pow, Chip.updPow_pow]

/-- The condition that acts is shown (R598). -/
theorem Chip.protOn_shown {c : Chip} {k : Nat} (hk : k < 4) (h : (c.storeLi && !nbit c.pow.prot k) = true) :
    (c.protOn k).f R.STORE_STAT F.STORE_STAT_PROT = k + 1 := by
  unfold Chip.protOn Chip.incSat
  rw [if_pos h, Chip.f_raise _ _ _ _ _ (by decide) (by decide), Chip.f_chgFollow _ _ (by decide) (by decide), Chip.updPow_f,
    Chip.f_setF_ne _ _ _ _ _ _ (by decide), Chip.f_setF _ _ _ _ (by decide)]
  exact Nat.mod_eq_of_lt (by simp only [F.STORE_STAT_PROT]; omega)

/-- Protection leaves the temperature of the cell as it is shown. -/
theorem Chip.protOn_temp (c : Chip) (k : Nat) :
    (c.protOn k).f R.STORE_STAT2 F.STORE_STAT2_LI_TEMP = c.f R.STORE_STAT2 F.STORE_STAT2_LI_TEMP := by
  unfold Chip.protOn Chip.incSat
  split
  · rw [Chip.f_raise _ _ _ _ _ (by decide) (by decide),
      (Chip.Kept.refl.chgFollow (ev := false) (ks := [R.STORE_STAT]) (ps := []) (by simp)).f_eq (by simp) (by decide), Chip.updPow_f,
      Chip.f_setF_beside _ _ _ _ _ (by decide) (by decide), Chip.f_setF_ne _ _ _ _ _ _ (by decide)]
  · rfl

theorem Chip.protOff_temp (c : Chip) (k : Nat) :
    (c.protOff k).f R.STORE_STAT2 F.STORE_STAT2_LI_TEMP = c.f R.STORE_STAT2 F.STORE_STAT2_LI_TEMP :=
  (Chip.Kept.refl.protOff (ev := false) (ks := [R.STORE_STAT]) (ps := [.pow]) (by simp) (by simp)).f_eq (by simp) (by decide) _

/-- Adding its weight turns a bit over. -/
theorem nbit_add_two_pow (n k : Nat) : nbit (n + 2 ^ k) k = !nbit n k := by
  rw [nbit, nbit, Nat.add_div_right _ (by positivity), ← decide_not]
  exact decide_eq_decide.2 (by omega)

/-- Taking the weight of a set bit away clears it. -/
theorem nbit_sub_two_pow {n k : Nat} (h : nbit n k = true) : nbit (n - 2 ^ k) k = false := by
  have hle : 2 ^ k ≤ n := by
    by_contra hlt
    simp [nbit, Nat.div_eq_of_lt (Nat.lt_of_not_le hlt)] at h
  obtain ⟨m, rfl⟩ := Nat.exists_eq_add_of_le' hle
  rw [nbit_add_two_pow] at h
  simpa using h

/-- Whether the cell lies outside a window is a matter of its temperature, the windows and the kind of store. -/
theorem Chip.cellOut_congr {c d : Chip} (ht : d.f R.STORE_STAT2 F.STORE_STAT2_LI_TEMP = c.f R.STORE_STAT2 F.STORE_STAT2_LI_TEMP)
    (hn : d.rd R.STORE_NTC = c.rd R.STORE_NTC) (hc : d.rd R.STORE_CFG = c.rd R.STORE_CFG) (lo hi : Fld) :
    d.cellOut lo hi = c.cellOut lo hi := by
  have fs : ∀ x, d.fs R.STORE_NTC x = c.fs R.STORE_NTC x := fun x => by rw [Chip.fs, Chip.fs, Chip.f_congr hn]
  have temp : d.fs R.STORE_STAT2 F.STORE_STAT2_LI_TEMP = c.fs R.STORE_STAT2 F.STORE_STAT2_LI_TEMP := by rw [Chip.fs, Chip.fs, ht]
  have kind : d.storeLi = c.storeLi := by rw [Chip.storeLi, Chip.storeLi, Chip.is_congr hc]
  unfold Chip.cellOut
  rw [fs, fs, temp, kind]

/-- The temperature of the cell as measured, against a window (R597, R598). -/
theorem Chip.cellOut_measured (c : Chip) (temp : BitVec 8) (lo hi : Fld) :
    (c.setF R.STORE_STAT2 F.STORE_STAT2_LI_TEMP temp.toNat).cellOut lo hi =
      (c.storeLi && (decide (temp.toInt < c.fs R.STORE_NTC lo) || decide (c.fs R.STORE_NTC hi < temp.toInt))) := by
  have fs : ∀ x, (c.setF R.STORE_STAT2 F.STORE_STAT2_LI_TEMP temp.toNat).fs R.STORE_NTC x = c.fs R.STORE_NTC x := fun x => by
    rw [Chip.fs, Chip.fs, Chip.f_setF_ne _ _ _ _ _ _ (by decide)]
  have shown : (c.setF R.STORE_STAT2 F.STORE_STAT2_LI_TEMP temp.toNat).fs R.STORE_STAT2 F.STORE_STAT2_LI_TEMP = temp.toInt := by
    rw [Chip.fs, Chip.f_setF _ _ _ _ (by decide), ← sgn_toNat_eight temp]
    exact congrArg (sgn 8) (Nat.mod_eq_of_lt temp.isLt)
  have kind : (c.setF R.STORE_STAT2 F.STORE_STAT2_LI_TEMP temp.toNat).storeLi = c.storeLi := by
    rw [Chip.storeLi, Chip.storeLi, Chip.is, Chip.is, Chip.f_setF_ne _ _ _ _ _ _ (by decide)]
  unfold Chip.cellOut
  rw [fs, fs, shown, kind]

/-! #### The temperature of the cell -/

/-- Protection as the discharge window asks for it (R598). -/
def Chip.cellProtect (c : Chip) : Chip := if c.cellOut F.STORE_NTC_DIS_LO F.STORE_NTC_DIS_HI then c.protOn 3 else c.protOff 3

theorem Chip.cellFollow_eq (c : Chip) : c.cellFollow = c.cellProtect.chgFollow := rfl

theorem Chip.Kept.cellProtect {ks : List Nat} {ps : List Part} {c d : Chip} (h : Chip.Kept true ks ps c d) (hs : R.STORE_STAT ∈ ks)
    (ht : R.STORE_STAT2 ∈ ks) (hp : .pow ∈ ps) : Chip.Kept true ks ps c d.cellProtect := ite (h.protOn hs ht hp) (h.protOff hs hp)

theorem Chip.cellProtect_temp (c : Chip) :
    c.cellProtect.f R.STORE_STAT2 F.STORE_STAT2_LI_TEMP = c.f R.STORE_STAT2 F.STORE_STAT2_LI_TEMP := by
  unfold Chip.cellProtect
  split
  · exact c.protOn_temp 3
  · exact c.protOff_temp 3

/-- Protection follows the discharge window of a lithium cell; beside its conditions the supply state is as before. -/
theorem Chip.cellProtect_pow (c : Chip) : c.cellProtect.pow = { c.pow with prot := c.cellProtect.pow.prot } := by
  have on : (c.protOn 3).pow = { c.pow with prot := (c.protOn 3).pow.prot } := by
    by_cases h : (c.storeLi && !nbit c.pow.prot 3) = true
    · rw [Chip.protOn_pow h]
    · rw [Chip.protOn, if_neg h]
  have off : (c.protOff 3).pow = { c.pow with prot := (c.protOff 3).pow.prot } := by
    by_cases h : (nbit c.pow.prot 3 && (decide (3 ≠ 1) || c.chgSource)) = true
    · rw [Chip.protOff_pow h]
    · rw [Chip.protOff, if_neg h]
  unfold Chip.cellProtect
  split <;> assumption

theorem Chip.cellProtect_prot (c : Chip) (hli : c.storeLi = true) :
    nbit c.cellProtect.pow.prot 3 = c.cellOut F.STORE_NTC_DIS_LO F.STORE_NTC_DIS_HI := by
  unfold Chip.cellProtect
  split
  next hout =>
    rw [hout]
    by_cases h : nbit c.pow.prot 3 = true
    · rw [Chip.protOn, if_neg (by simp [h]), h]
    · have hoff : nbit c.pow.prot 3 = false := by simpa using h
      rw [Chip.protOn_pow (by simp [hli, hoff]), nbit_add_two_pow, hoff]
      rfl
  next hin =>
    have hin : c.cellOut F.STORE_NTC_DIS_LO F.STORE_NTC_DIS_HI = false := by simpa using hin
    rw [hin]
    by_cases h : nbit c.pow.prot 3 = true
    · rw [Chip.protOff_pow (by simp [h])]
      exact nbit_sub_two_pow h
    · rw [Chip.protOff, if_neg (by simp [h])]
      simpa using h

/-! ### What the commands of the survival domain do -/

theorem Chip.storeUp_of {c : Chip} (h : c.pow.survUp = true) (g : Chip → Chip) : c.storeUp g = g c := if_pos h

theorem Chip.inSurv_of {c : Chip} (h : c.pow.survUp = true) (hm : c.mode ≠ .off) (g : Chip → Chip) : c.inSurv g = g c := by
  rw [Chip.inSurv, if_pos (by simp [h, hm])]

/-- VSTORE as it is measured, through all that follows the comparison (R595). -/
theorem Chip.vstore_storeCompare (c : Chip) (mv : BitVec 16) :
    (c.storeCompare mv.toNat).f R.STORE_STAT F.STORE_STAT_VSTORE = mv.toNat := by
  have shown : (c.storeShow mv.toNat).f R.STORE_STAT F.STORE_STAT_VSTORE = mv.toNat := by
    unfold Chip.storeShow
    rw [(Chip.Kept.refl.raiseIf (ks := []) (ps := []) (by decide)).f_eq (fun _ => by decide) (by simp),
      Chip.f_setF_beside _ _ _ _ _ (by decide) (by decide), Chip.f_setF _ _ _ _ (by decide)]
    exact Nat.mod_eq_of_lt mv.isLt
  have kept : Chip.Kept false (survKeys.erase R.STORE_STAT) survParts (c.storeShow mv.toNat) (c.storeCompare mv.toNat) :=
    (((Chip.Kept.refl.updPow (by decide)).wrN (by decide)).coCheck (by decide) (by decide) (by decide) (by decide)).survShow
      (by decide) (by decide) (by decide)
  exact (kept.f_eq (by simp) (by decide) _).trans shown

/-- A field of STORE.STAT beside the supply and the flags that follow it is as before. -/
theorem Chip.f_supply {c : Chip} (x : Fld) (hx : x.hi < 26 ∨ 28 < x.lo) (h32 : x.hi < 32) :
    c.supply.f R.STORE_STAT x = c.f R.STORE_STAT x := by
  have supply : x.hi < F.STORE_STAT_SUPPLY.lo ∨ F.STORE_STAT_SUPPLY.hi < x.lo := by simp only [F.STORE_STAT_SUPPLY]; omega
  unfold Chip.supply
  split
  · rw [Chip.f_chgFollow _ _ (by omega) h32, Chip.flag, Chip.f_setF_beside _ _ _ _ _ h32 supply]
  · rfl

/-- STORE_ABOVE_T_KEEP takes the device from OFF to SURVIVAL (R21). -/
theorem doStoreAboveTKeep_off {c : Chip} (mv : BitVec 16) (h : c.mode = .off) :
    (doStoreAboveTKeep mv c).mode = .survival ∧ (doStoreAboveTKeep mv c).f R.STORE_STAT F.STORE_STAT_VSTORE = mv.toNat := by
  unfold doStoreAboveTKeep
  rw [if_pos h]
  dsimp only
  generalize (if c.pow.survUp = true then c else c.survStart.updPow fun p => { p with survUp := true, calLost := true }) = d
  generalize hd : ({ d with mode := .survival } : Chip) = e
  have survival : e.mode = .survival := by rw [← hd]
  have compared : Chip.Kept true survKeys survParts e (e.storeCompare mv.toNat) := Chip.Kept.refl.storeCompare (by simp) (by simp)
  have behind : ∀ x : Chip, Chip.Kept false [R.SURV_RES, R.SURV_STAT, R.RTC_STAT] [.pow, .time] x x.coStart.survShow := fun x =>
    (Chip.Kept.refl.coStart (by simp) (by simp)).survShow (by simp) (by simp) (by simp)
  have supplied : Chip.Kept true survKeys survParts e (e.storeCompare mv.toNat).supply := compared.supply (by simp [survKeys])
  refine ⟨?_, ?_⟩
  · rw [(behind _).mode_eq (by simp), supplied.mode_eq (by simp [survParts]), survival]
  · rw [(behind _).f_eq (by simp) (by decide), Chip.f_supply _ (by decide) (by decide), Chip.vstore_storeCompare]

/-- STORE_BELOW_T_CUT on VSTORE takes the device from SURVIVAL to OFF (R21). -/
theorem doStoreBelowTCut_survival {c : Chip} (mv : BitVec 16) (h : c.mode = .survival) (hpg : c.is R.VAUX_STAT F.VAUX_STAT_PG = false) :
    (doStoreBelowTCut mv c).mode = .off ∧ (doStoreBelowTCut mv c).pow.survUp = false := by
  have compared : Chip.Kept true survKeys survParts c (c.storeCompare mv.toNat) := Chip.Kept.refl.storeCompare (by simp) (by simp)
  have survival : (c.storeCompare mv.toNat).mode = .survival := (compared.mode_eq (by simp [survParts])).trans h
  have pg : (c.storeCompare mv.toNat).is R.VAUX_STAT F.VAUX_STAT_PG = false :=
    (compared.is_eq (fun _ => by decide) (by decide) _).trans hpg
  unfold doStoreBelowTCut
  rw [if_neg (by simp [h])]
  generalize c.storeCompare mv.toNat = d at survival pg
  rw [if_pos ⟨survival, by simp [pg]⟩]
  exact ⟨rfl, rfl⟩

theorem Chip.chgDone_chgFollow (c : Chip) :
    c.chgFollow.is R.STORE_STAT F.STORE_STAT_CHG_DONE = c.is R.STORE_STAT F.STORE_STAT_CHG_DONE := by
  rw [Chip.is, Chip.is, Chip.f_chgFollow _ _ (by decide) (by decide)]

/-- CHARGE_END of a charge in progress, said once. -/
theorem doChargeEnd_eq {c : Chip} (hup : c.pow.survUp = true) (hch : c.chgFollow.is R.STORE_STAT F.STORE_STAT_CHARGING = true) :
    doChargeEnd c = ((c.chgFollow.flag R.STORE_STAT F.STORE_STAT_CHG_DONE true).chgFollow).raise P.STORE 2 := by
  unfold doChargeEnd
  rw [Chip.storeUp_of hup, if_pos hch]

/-- Once a charge is done, charging stops (R597). -/
theorem Chip.charged {c : Chip} (done : c.is R.STORE_STAT F.STORE_STAT_CHG_DONE = true) :
    (c.chgFollow.raise P.STORE 2).is R.STORE_STAT F.STORE_STAT_CHG_DONE = true
      ∧ (c.chgFollow.raise P.STORE 2).is R.STORE_STAT F.STORE_STAT_CHARGING = false := by
  refine ⟨?_, ?_⟩
  · rw [Chip.is_raise _ _ _ _ _ (by decide) (by decide), Chip.chgDone_chgFollow, done]
  · rw [Chip.is_raise _ _ _ _ _ (by decide) (by decide), Chip.charging_chgFollow, done]
    simp

/-- CHARGE_END of a charge in progress (R597). -/
theorem doChargeEnd_charging {c : Chip} (hup : c.pow.survUp = true) (hch : c.chgFollow.is R.STORE_STAT F.STORE_STAT_CHARGING = true) :
    Chip.Kept true [R.STORE_STAT] [] c (doChargeEnd c) ∧ (doChargeEnd c).is R.STORE_STAT F.STORE_STAT_CHG_DONE = true
      ∧ (doChargeEnd c).is R.STORE_STAT F.STORE_STAT_CHARGING = false := by
  rw [doChargeEnd_eq hup hch]
  exact ⟨(((Chip.Kept.refl.chgFollow (by simp)).flag (by simp)).chgFollow (by simp)).raise (by decide),
    Chip.charged (Chip.is_flag _ _ _ _ (by decide) (by decide))⟩

/-- CHARGE_RESTART (R597). -/
theorem doChargeRestart_up {c : Chip} (hup : c.pow.survUp = true) :
    Chip.Kept false [R.STORE_STAT] [] c (doChargeRestart c) ∧ (doChargeRestart c).is R.STORE_STAT F.STORE_STAT_CHG_DONE = false := by
  unfold doChargeRestart
  rw [Chip.storeUp_of hup, Chip.chgDone_chgFollow]
  exact ⟨(Chip.Kept.refl.flag (by simp)).chgFollow (by simp), Chip.is_flag _ _ _ _ (by decide) (by decide)⟩

/-- CHARGE_TEMPERATURE_WINDOW (R597, R598). -/
theorem doChargeTemperatureWindow_up {c : Chip} (temp : BitVec 8) (hup : c.pow.survUp = true) :
    Chip.Kept true [R.STORE_STAT2, R.STORE_STAT] [.pow] c (doChargeTemperatureWindow temp c)
    ∧ (doChargeTemperatureWindow temp c).f R.STORE_STAT2 F.STORE_STAT2_LI_TEMP = temp.toNat
    ∧ (doChargeTemperatureWindow temp c).pow = { c.pow with prot := (doChargeTemperatureWindow temp c).pow.prot }
    ∧ (c.storeLi = true → temp.toInt < c.fs R.STORE_NTC F.STORE_NTC_CHG_LO ∨ c.fs R.STORE_NTC F.STORE_NTC_CHG_HI < temp.toInt →
      (doChargeTemperatureWindow temp c).is R.STORE_STAT F.STORE_STAT_CHARGING = false)
    ∧ (c.storeLi = true → nbit (doChargeTemperatureWindow temp c).pow.prot 3
      = decide (temp.toInt < c.fs R.STORE_NTC F.STORE_NTC_DIS_LO ∨ c.fs R.STORE_NTC F.STORE_NTC_DIS_HI < temp.toInt)) := by
  unfold doChargeTemperatureWindow
  rw [Chip.storeUp_of hup, Chip.cellFollow_eq, Chip.chgFollow_pow]
  have windows := c.cellOut_measured temp
  have kind : (c.setF R.STORE_STAT2 F.STORE_STAT2_LI_TEMP temp.toNat).storeLi = c.storeLi := by
    rw [Chip.storeLi, Chip.storeLi, Chip.is, Chip.is, Chip.f_setF_ne _ _ _ _ _ _ (by decide)]
  have shown : (c.setF R.STORE_STAT2 F.STORE_STAT2_LI_TEMP temp.toNat).f R.STORE_STAT2 F.STORE_STAT2_LI_TEMP = temp.toNat :=
    (Chip.f_setF _ _ _ _ (by decide)).trans (Nat.mod_eq_of_lt temp.isLt)
  have measured : Chip.Kept true [R.STORE_STAT2, R.STORE_STAT] [.pow] c (c.setF R.STORE_STAT2 F.STORE_STAT2_LI_TEMP temp.toNat) :=
    Chip.Kept.refl.setF (by simp)
  have pow : (c.setF R.STORE_STAT2 F.STORE_STAT2_LI_TEMP temp.toNat).pow = c.pow := Chip.setF_pow ..
  generalize c.setF R.STORE_STAT2 F.STORE_STAT2_LI_TEMP temp.toNat = d at *
  have protect : Chip.Kept true [R.STORE_STAT2, R.STORE_STAT] [.pow] d d.cellProtect :=
    Chip.Kept.refl.cellProtect (by simp) (by simp) (by simp)
  refine ⟨(measured.trans protect).chgFollow (by simp), ?_, ?_, fun hli hout => ?_, fun hli => ?_⟩
  · rw [(Chip.Kept.refl.chgFollow (ev := false) (ks := [R.STORE_STAT]) (ps := []) (by simp)).f_eq (by simp) (by decide),
      Chip.cellProtect_temp, shown]
  · rw [← pow, ← Chip.cellProtect_pow]
  · have out : d.cellProtect.cellOut F.STORE_NTC_CHG_LO F.STORE_NTC_CHG_HI = true := by
      rw [Chip.cellOut_congr (Chip.cellProtect_temp d) (protect.regs _ (fun _ => by decide) (by decide))
        (protect.regs _ (fun _ => by decide) (by decide)), windows, hli]
      simpa using hout
    rw [Chip.charging_chgFollow, out]
    simp
  · rw [Chip.cellProtect_prot d (kind.trans hli), windows, hli, Bool.true_and, Bool.decide_or]

/-- LI_PROTECTION of a lithium cell (R598). -/
theorem doLiProtection_up {c : Chip} (k : Fin 4) (hup : c.pow.survUp = true) (hli : c.storeLi = true) (hk : nbit c.pow.prot k = false) :
    Chip.Kept true [R.STORE_STAT, R.STORE_STAT2] [.pow] c (doLiProtection k c)
      ∧ (doLiProtection k c).f R.STORE_STAT F.STORE_STAT_PROT = k + 1
      ∧ (doLiProtection k c).pow = { c.pow with prot := c.pow.prot + 2 ^ k.val } := by
  have acts : (c.storeLi && !nbit c.pow.prot k) = true := by simp [hli, hk]
  unfold doLiProtection
  rw [Chip.storeUp_of hup]
  exact ⟨Chip.Kept.refl.protOn (by simp) (by simp) (by simp), Chip.protOn_shown k.isLt acts, Chip.protOn_pow acts⟩

/-- LI_PROTECTION_RELEASE (R598). -/
theorem doLiProtectionRelease_up {c : Chip} (k : Fin 4) (hup : c.pow.survUp = true) (hk : nbit c.pow.prot k = true)
    (hsrc : k ≠ 1 ∨ c.chgSource = true) :
    Chip.Kept false [R.STORE_STAT] [.pow] c (doLiProtectionRelease k c)
      ∧ (doLiProtectionRelease k c).pow = { c.pow with prot := c.pow.prot - 2 ^ k.val } := by
  have release : (nbit c.pow.prot k && (decide (k.val ≠ 1) || c.chgSource)) = true := by
    rw [hk, Bool.true_and, Bool.or_eq_true, decide_eq_true_eq]
    exact hsrc.imp_left fun h e => h (Fin.ext e)
  unfold doLiProtectionRelease
  rw [Chip.storeUp_of hup]
  exact ⟨Chip.Kept.refl.protOff (by simp) (by simp), Chip.protOff_pow release⟩

/-- The unpowered survival domain starts with the kind of store that is strapped. -/
theorem Chip.survStart_cap (c : Chip) : c.survStart.pow.cap = c.pow.cap := by
  unfold Chip.survStart
  dsimp only
  split
  · rw [Chip.wrN_pow, Chip.wrN_pow, Chip.wrN_pow, Chip.wrN_pow, Chip.wrN_pow]
    rfl
  · rfl

/-- ROOSTER_START (R599). -/
theorem doRoosterStart_off {c : Chip} (cap : Bool) (h : c.mode = .off) (hup : c.pow.survUp = false) :
    (doRoosterStart cap c).pow.survUp = true ∧ (doRoosterStart cap c).pow.cap = cap
      ∧ (doRoosterStart cap c).is R.HRV_STAT F.HRV_STAT_COLD_START = true := by
  unfold doRoosterStart
  rw [if_pos ⟨h, by simp [hup]⟩]
  dsimp only
  have strapped : (c.updPow fun p => { p with cap := cap }).survStart.pow.cap = cap := Chip.survStart_cap _
  generalize (c.updPow fun p => { p with cap := cap }).survStart = d at strapped ⊢
  have supplied : ∀ x : Chip, Chip.Kept false [R.STORE_STAT] [] x x.supply := fun x => Chip.Kept.refl.supply (by simp)
  rw [(supplied _).pow_eq (by simp), (supplied _).is_eq (by simp) (by decide), Chip.flag_pow, Chip.updPow_pow]
  exact ⟨rfl, strapped, Chip.is_flag _ _ _ _ (by decide) (by decide)⟩

/-- ROOSTER_RUNS_AGAIN in OFF (R599). -/
theorem doRoosterRunsAgain_off {c : Chip} (h : c.mode = .off) :
    Chip.Kept false [] [.pow] c (doRoosterRunsAgain c) ∧ (doRoosterRunsAgain c).pow = { c.pow with survUp := false } := by
  unfold doRoosterRunsAgain
  rw [if_pos h]
  exact ⟨Chip.Kept.refl.updPow (by simp), Chip.updPow_pow ..⟩

/-- The source of the harvest converter as it is selected (R600). -/
theorem Chip.f_hrvActive (c : Chip) {n : Nat} (hn : n < 4) : (c.hrvActive n).f R.HRV_STAT F.HRV_STAT_ACTIVE = n := by
  unfold Chip.hrvActive
  dsimp only
  generalize (if n = 0 then c.setF R.HRV_STAT F.HRV_STAT_P_IN 0 else c) = d
  have kept : Chip.Kept true [R.STORE_STAT] [] (d.setF R.HRV_STAT F.HRV_STAT_ACTIVE n)
      ((d.setF R.HRV_STAT F.HRV_STAT_ACTIVE n).raiseIf (decide (n ≠ c.f R.HRV_STAT F.HRV_STAT_ACTIVE)) P.HRV 0).chgFollow :=
    (Chip.Kept.refl.raiseIf (by decide)).chgFollow (by simp)
  rw [kept.f_eq (fun _ => by decide) (by decide), Chip.f_setF _ _ _ _ (by decide)]
  exact Nat.mod_eq_of_lt (by simp only [F.HRV_STAT_ACTIVE]; omega)

/-- HARVEST_SOURCE_SELECT under AUTO (R600). -/
theorem doHarvestSourceSelect_auto {c : Chip} (teg vib : BitVec 16) (hup : c.pow.survUp = true) (hen : c.is R.HRV_CFG F.HRV_CFG_EN = true)
    (hsrc : c.f R.HRV_CFG F.HRV_CFG_SRC = 3) :
    Chip.Kept true [R.HRV_STAT, R.STORE_STAT] [] c (doHarvestSourceSelect teg vib c)
      ∧ (doHarvestSourceSelect teg vib c).f R.HRV_STAT F.HRV_STAT_ACTIVE
        = (if teg = 0 ∧ vib = 0 then 0 else if vib.toNat ≤ teg.toNat then 1 else 2) := by
  have selected : ∀ n p : Nat, n < 4 →
      Chip.Kept true [R.HRV_STAT, R.STORE_STAT] [] c ((c.setF R.HRV_STAT F.HRV_STAT_P_IN p).hrvActive n)
        ∧ ((c.setF R.HRV_STAT F.HRV_STAT_P_IN p).hrvActive n).f R.HRV_STAT F.HRV_STAT_ACTIVE = n := fun n p hn =>
    ⟨(Chip.Kept.refl.setF (by simp)).hrvActive (by simp) (by simp), Chip.f_hrvActive _ hn⟩
  unfold doHarvestSourceSelect
  rw [Chip.storeUp_of hup, if_pos (by simp [hen, hsrc])]
  by_cases none : teg = 0 ∧ vib = 0
  · simp only [if_pos none]
    exact selected 0 0 (by decide)
  · by_cases stronger : vib.toNat ≤ teg.toNat
    · simp only [if_neg none, if_pos stronger]
      exact selected 1 teg.toNat (by decide)
    · simp only [if_neg none, if_neg stronger]
      exact selected 2 vib.toNat (by decide)

/-- A doubleword just written. -/
theorem Chip.rd64_wr64 (c : Chip) (k n : Nat) : (c.wr64 k n).rd64 k = n % 2 ^ 64 := by
  unfold Chip.rd64 Chip.wr64 Chip.rdN Chip.wrN
  rw [Chip.rd_wr_same, Chip.rd_wr_ne _ _ _ _ (by omega), Chip.rd_wr_same]
  simp only [wd, BitVec.toNat_ofNat]
  omega

/-- HARVEST_FOC_SAMPLE of the active source (R600). -/
theorem doHarvestFocSample_active {c : Chip} (mv uw : BitVec 16) (uj : BitVec 32) (hup : c.pow.survUp = true)
    (hact : c.f R.HRV_STAT F.HRV_STAT_ACTIVE ≠ 0) :
    Chip.Kept false [R.HRV_VOC, R.HRV_STAT, R.HRV_E 0, R.HRV_E 1] [] c (doHarvestFocSample mv uw uj c)
      ∧ (doHarvestFocSample mv uw uj c).rd64 (R.HRV_E 0) = (c.rd64 (R.HRV_E 0) + uj.toNat) % 2 ^ 64
      ∧ (doHarvestFocSample mv uw uj c).f R.HRV_STAT F.HRV_STAT_P_IN = uw.toNat % 2 ^ F.HRV_STAT_P_IN.width := by
  unfold doHarvestFocSample
  rw [Chip.storeUp_of hup, if_neg hact]
  dsimp only
  generalize (if c.f R.HRV_STAT F.HRV_STAT_ACTIVE = 1 then F.HRV_VOC_VOC_TEG else F.HRV_VOC_VOC_VIB) = x
  have voc : Chip.Kept false [R.HRV_VOC] [] c (c.setF R.HRV_VOC x mv.toNat) := Chip.Kept.refl.setF (by simp)
  have energy : (c.setF R.HRV_VOC x mv.toNat).rd64 (R.HRV_E 0) = c.rd64 (R.HRV_E 0) := by
    rw [Chip.rd64, Chip.rd64, Chip.rdN, Chip.rdN, Chip.rdN, Chip.rdN, voc.regs _ (by simp) (by decide), voc.regs _ (by simp) (by decide)]
  rw [energy]
  refine ⟨?_, Chip.rd64_wr64 _ _ _, ?_⟩
  · exact (((Chip.Kept.refl.setF (by simp)).setF (by simp)).wrN (by simp)).wrN (by decide)
  · generalize c.setF R.HRV_VOC x mv.toNat = d
    have sum : ∀ (e : Chip) (n : Nat), Chip.Kept false [R.HRV_E 0, R.HRV_E 1] [] e (e.wr64 (R.HRV_E 0) n) := fun e n =>
      (Chip.Kept.refl.wrN (by simp)).wrN (by decide)
    rw [(sum _ _).f_eq (by simp) (by decide), Chip.f_setF _ _ _ _ (by decide), Fld.width]


/-! #### Samples of a comparator -/

theorem evKey_acmp_ch_stat : ∀ n < 16, evKey (R.ACMP_CH_STAT n) = false := by decide

theorem acmp_ch_stat_notMem_survKeys : ∀ n < 16, R.ACMP_CH_STAT n ∉ survKeys := by decide

/-- An element just changed. -/
theorem nth_upd_same {α : Type} {l : List α} {i : Nat} (h : i < l.length) (g : α → α) (x : α) : nth (upd l i g) i x = g (nth l i x) := by
  simp [nth, upd, h]

/-- A comparator that takes a region stands in it. -/
theorem Chip.acmpTake_region {c : Chip} {n : Nat} (h : n < c.meas.acmp.length) (r : Region) :
    (nth (c.acmpTake n r).meas.acmp n {}).region = r := by
  have kept : ∀ x : Chip, Chip.Kept true [R.ACMP_CH_STAT n] [] (c.updAcmp n fun y => { y with region := r }) x →
      (nth x.meas.acmp n {}).region = r := fun x hx => by
    rw [hx.meas_eq (by simp)]
    exact congrArg AcmpCh.region (nth_upd_same h _ _)
  refine kept _ (.ite ?_ ?_)
  · exact ((((Chip.Kept.refl.flag (by simp)).flag (by simp)).flag (by simp)).flag (by simp)).raise (by decide)
  · exact ((Chip.Kept.refl.flag (by simp)).flag (by simp)).flag (by simp)

/-- A sample is taken in SAMPLED mode at a second that PERIOD divides (R187). -/
def Chip.SampleDue (c : Chip) (n : Nat) : Prop :=
  c.f (R.ACMP_CH_CFG n) F.ACMP_CH_CFG_MODE = 3 ∧ c.time.calSec % max 1 (c.f R.ACMP_SAMPLE_CFG F.ACMP_SAMPLE_CFG_PERIOD) = 0

/-- No sample is taken at any other second, nor in another mode (R187). -/
theorem Chip.acmpSample_idle {c : Chip} {n : Nat} (h : ¬ c.SampleDue n) (uv : Nat) : c.acmpSample n uv = (c, false) := if_neg h

/-- A sample takes the region of the voltage and shows a change of TRIPPED (R187). -/
theorem Chip.acmpSample_due {c : Chip} {n : Nat} (h : c.SampleDue n) (hn : n < 16) (hlen : c.meas.acmp.length = 16) (uv : Nat) :
    (nth (c.acmpSample n uv).1.meas.acmp n {}).region = c.acmpRegion n uv
      ∧ ((c.acmpSample n uv).1.is (R.ACMP_CH_STAT n) F.ACMP_CH_STAT_TRIPPED ≠ c.is (R.ACMP_CH_STAT n) F.ACMP_CH_STAT_TRIPPED →
        (c.acmpSample n uv).1.is (R.ACMP_CH_STAT n) F.ACMP_CH_STAT_SAMPLED_CHG = true) := by
  have region := Chip.acmpTake_region (c := c) (n := n) (by omega) (c.acmpRegion n uv)
  unfold Chip.SampleDue at h
  unfold Chip.acmpSample
  simp only [if_pos h]
  generalize c.acmpTake n (c.acmpRegion n uv) = d at region ⊢
  split
  next =>
    have shown : (d.flag (R.ACMP_CH_STAT n) F.ACMP_CH_STAT_SAMPLED_CHG true).is (R.ACMP_CH_STAT n) F.ACMP_CH_STAT_SAMPLED_CHG = true :=
      Chip.is_flag _ _ _ _ (by decide) (by decide)
    have kept : Chip.Kept true [R.ACMP_CH_STAT n] [] d ((d.flag (R.ACMP_CH_STAT n) F.ACMP_CH_STAT_SAMPLED_CHG true).raise P.ACMP 3) :=
      (Chip.Kept.refl.flag (by simp)).raise (by decide)
    refine ⟨by rw [kept.meas_eq (by simp), region], fun _ => ?_⟩
    rw [Chip.is_raise _ _ _ _ _ (by decide) (evKey_acmp_ch_stat n hn), shown]
  next same => exact ⟨region, fun change => absurd (bne_iff_ne.2 change.symm) same⟩

/-- What ACMP_SAMPLE_COMPARE leaves: the sample, and the wake that it asks for (R187). -/
theorem doAcmpSampleCompare_up {c : Chip} (n : Fin 16) (uv : BitVec 24) (hup : c.pow.survUp = true) (hm : c.mode ≠ .off) :
    doAcmpSampleCompare n uv c
      = if (c.acmpSample n uv.toNat).2 then (c.acmpSample n uv.toNat).1.wakeReq 2 else (c.acmpSample n uv.toNat).1 :=
  Chip.inSurv_of hup hm _

/-- A wake leaves the comparators and what they show. -/
theorem doAcmpSampleCompare_kept {c : Chip} (n : Fin 16) (uv : BitVec 24) (hup : c.pow.survUp = true) (hm : c.mode ≠ .off) :
    Chip.Kept true survKeys survParts (c.acmpSample n uv.toNat).1 (doAcmpSampleCompare n uv c) := by
  rw [doAcmpSampleCompare_up n uv hup hm]
  exact .ite (Chip.Kept.refl.wakeReq (fun _ h => h) fun _ h => h) .refl

/-- ACMP_SAMPLE_COMPARE where a sample is due (R187). -/
theorem doAcmpSampleCompare_due {c : Chip} (n : Fin 16) (uv : BitVec 24) (hup : c.pow.survUp = true) (hm : c.mode ≠ .off)
    (hdue : c.SampleDue n) (hlen : c.meas.acmp.length = 16) :
    (nth (doAcmpSampleCompare n uv c).meas.acmp n {}).region = c.acmpRegion n uv.toNat
      ∧ ((doAcmpSampleCompare n uv c).is (R.ACMP_CH_STAT n) F.ACMP_CH_STAT_TRIPPED ≠ c.is (R.ACMP_CH_STAT n) F.ACMP_CH_STAT_TRIPPED →
        (doAcmpSampleCompare n uv c).is (R.ACMP_CH_STAT n) F.ACMP_CH_STAT_SAMPLED_CHG = true) := by
  have sample := Chip.acmpSample_due hdue n.isLt hlen uv.toNat
  have kept := doAcmpSampleCompare_kept n uv hup hm
  have stat : ∀ x, (doAcmpSampleCompare n uv c).is (R.ACMP_CH_STAT n) x = (c.acmpSample n uv.toNat).1.is (R.ACMP_CH_STAT n) x :=
    kept.is_eq (fun _ => evKey_acmp_ch_stat n n.isLt) (acmp_ch_stat_notMem_survKeys n n.isLt)
  rw [kept.meas_eq (by simp [survParts]), stat, stat]
  exact sample

/-- ACMP_SAMPLE_COMPARE where none is due (R187). -/
theorem doAcmpSampleCompare_idle {c : Chip} (n : Fin 16) (uv : BitVec 24) (hup : c.pow.survUp = true) (hm : c.mode ≠ .off)
    (hidle : ¬ c.SampleDue n) : doAcmpSampleCompare n uv c = c := by
  rw [doAcmpSampleCompare_up n uv hup hm, Chip.acmpSample_idle hidle]
  rfl

/-- Settles O15: each clause is what the command's lemma above says of the chip; the memory and the queue stay beside it. -/
theorem survivalStoreCommands : Obligations.SurvivalStoreCommands := by
  refine ⟨?_, ?_, ?_, ?_, ?_, ?_, ?_, ?_, ?_, ?_, ?_, ?_, ?_, ?_⟩
  · exact fun mv s h => ⟨_, rfl, rfl, rfl, doStoreAboveTKeep_off mv h⟩
  · exact fun mv s h hpg => ⟨_, rfl, ⟨rfl, rfl⟩, doStoreBelowTCut_survival mv h hpg⟩
  · intro s hup hch
    obtain ⟨kept, done⟩ := doChargeEnd_charging hup hch
    exact ⟨_, rfl, ⟨⟨rfl, rfl⟩, kept⟩, done⟩
  · intro s hup
    obtain ⟨kept, resumed⟩ := doChargeRestart_up hup
    exact ⟨_, rfl, ⟨⟨rfl, rfl⟩, kept⟩, resumed⟩
  · intro temp s hup
    obtain ⟨kept, followed⟩ := doChargeTemperatureWindow_up temp hup
    exact ⟨_, rfl, ⟨⟨rfl, rfl⟩, kept⟩, followed⟩
  · intro k s hup hli hk
    obtain ⟨kept, held⟩ := doLiProtection_up k hup hli hk
    exact ⟨_, rfl, ⟨⟨rfl, rfl⟩, kept⟩, held⟩
  · intro k s hup hk hsrc
    obtain ⟨kept, released⟩ := doLiProtectionRelease_up k hup hk hsrc
    exact ⟨_, rfl, ⟨⟨rfl, rfl⟩, kept⟩, released⟩
  · exact fun cap s h hup => ⟨_, rfl, rfl, rfl, doRoosterStart_off cap h hup⟩
  · intro s h
    obtain ⟨kept, unpowered⟩ := doRoosterRunsAgain_off h
    exact ⟨_, rfl, ⟨⟨rfl, rfl⟩, kept⟩, unpowered⟩
  · intro teg vib s hup hen hsrc
    obtain ⟨kept, selected⟩ := doHarvestSourceSelect_auto teg vib hup hen hsrc
    exact ⟨_, rfl, ⟨⟨rfl, rfl⟩, kept⟩, selected⟩
  · intro mv uw uj s hup hact
    obtain ⟨kept, shown⟩ := doHarvestFocSample_active mv uw uj hup hact
    exact ⟨_, rfl, ⟨⟨rfl, rfl⟩, kept⟩, shown⟩
  · exact fun n uv s hup hm => ⟨_, rfl, ⟨rfl, rfl⟩, doAcmpSampleCompare_up n uv hup hm⟩
  · exact fun n uv s hup hm hmode hper hlen => ⟨_, rfl, ⟨rfl, rfl⟩, doAcmpSampleCompare_due n uv hup hm ⟨hmode, hper⟩ hlen⟩
  · intro n uv s hup hm hidle
    have idle : doAcmpSampleCompare n uv s.chip = s.chip :=
      doAcmpSampleCompare_idle n uv hup hm fun ⟨hmode, hper⟩ => hidle.elim (absurd hmode) (absurd hper)
    have kept : Chip.Kept false [] [] s.chip (doAcmpSampleCompare n uv s.chip) := by
      rw [idle]
      exact .refl
    exact ⟨_, rfl, ⟨rfl, rfl⟩, kept⟩

end Sys2Proof.Machine

namespace Sys2Proof.Machine

/-! ### Writes to keyed command registers (O8) -/

/-- A keyed command on the chip is a keyed command on the state that works on the chip alone. -/
theorem State.onChip_cmd (s : State) (k : Nat) (w : Writer) (key : BitVec 16) (g : Chip → Chip) :
    (s.onChip fun c => c.cmd k w key g) = s.cmd k w key fun s => s.onChip g := by
  cases running : s.chip.clockOn with
  | false => simp [State.cmd, State.onChip, Chip.cmd, Chip.via, running]
  | true =>
    cases gate : s.chip.barred k w.ini.code with
    | some e => simp [State.cmd, State.onChip, Chip.cmd, Chip.via, Chip.gate, running, gate]
    | none =>
      by_cases right : key = theKey <;>
        simp [State.cmd, State.onChip, Chip.cmd, Chip.via, Chip.gate, Chip.keyed, running, gate, right]

/-- Without working clocks a command has no effect (R20, R103). -/
theorem State.cmd_gated {s : State} (k : Nat) (w : Writer) (key : BitVec 16) (g : State → State) (h : s.chip.clockOn = false) :
    s.cmd k w key g = s := if_pos (by simp [h])

/-- A command by a barred writer is only recorded (R634, R637). -/
theorem State.cmd_barred {s : State} {k : Nat} {w : Writer} {e : PErr} (key : BitVec 16) (g : State → State)
    (hp : s.chip.powered = true) (hg : s.chip.time.gated = false) (hb : s.chip.barred k w.ini.code = some e) :
    s.cmd k w key g = s.onChip fun c => c.perr k e w.ini.code := by
  simp [State.cmd, Chip.clockOn, hp, hg, hb]

/-- A command with a wrong key is only recorded (R55). -/
theorem State.cmd_wrong_key {s : State} {k : Nat} {w : Writer} {key : BitVec 16} (g : State → State) (h : May w k s)
    (hk : key ≠ theKey) : s.cmd k w key g = s.onChip fun c => c.perr k .key w.ini.code := by
  obtain ⟨hp, hg, hb⟩ := h
  simp [State.cmd, Chip.clockOn, hp, hg, hb, hk]

/-- Every command that `commandWrite` names passes the gate of its register: what it does besides stands behind `State.cmd`. The commands
named in the first case work on the whole state, all others on the chip alone. -/
theorem exec_commandWrite {i : Instr} {w : Writer} {key : BitVec 16} {k : Nat} (h : commandWrite i = some (w, key, k)) :
    ∃ g : State → State, ∀ s, exec i s = .next (s.cmd k w key g) := by
  cases i <;> cases h
  case deviceReset | mtrClear | mtrSaveNow | credVerify | lapFreeze | lapResume | lapArm | lapDisarm | lapImport | replayStart
      | secVerifyImage | secSign | secVerifyChain | secRandom | arbAdvance | genId | revokeRoot | otpGo =>
    exact ⟨_, fun _ => rfl⟩
  all_goals exact ⟨_, fun s => congrArg Host.Outcome.next (s.onChip_cmd _ _ _ _)⟩

/-! #### What PG_ERR shows of a recorded error -/

/-- A bit of a register is its one-bit field. -/
theorem Chip.bit_eq_is (c : Chip) (k i : Nat) : c.bit k i = c.is k ⟨i, i⟩ := by
  have width : i + 1 - i = 1 := by omega
  simp only [Chip.bit, nbit, Chip.is, Chip.f, fget, width, pow_one]
  exact decide_eq_decide.2 (by omega)

theorem PErr.bit_le (e : PErr) : e.bit ≤ 8 := by cases e <;> decide

/-- The error's bit is set (R55). -/
theorem Chip.bit_perr (c : Chip) (k i : Nat) (e : PErr) : (c.perr k e i).bit (pageBase k + H.ERR) e.bit = true := by
  have low := e.bit_le
  have word : e.bit < 32 := by omega
  have ini : e.bit < 28 := by omega
  have offset : e.bit < 16 := by omega
  unfold Chip.perr
  rw [Chip.bit_eq_is, Chip.is, Chip.f_setF_beside _ _ _ _ _ word (.inl offset), Chip.f_setF_beside _ _ _ _ _ word (.inl ini)]
  exact Chip.is_flag _ _ _ true word rfl

/-- The initiator of the write is shown (R55). -/
theorem Chip.initiator_perr (c : Chip) (k : Nat) {i : Nat} (e : PErr) (hi : i < 16) :
    (c.perr k e i).f (pageBase k + H.ERR) ⟨31, 28⟩ = i := by
  unfold Chip.perr
  rw [Chip.f_setF_beside _ _ _ _ _ (by decide) (by decide), Chip.f_setF _ _ _ _ (by decide)]
  exact Nat.mod_eq_of_lt hi

/-- The offset of the write is shown (R55). -/
theorem Chip.offset_perr (c : Chip) (k i : Nat) (e : PErr) : (c.perr k e i).f (pageBase k + H.ERR) ⟨27, 16⟩ = k % 0x1000 := by
  unfold Chip.perr
  rw [Chip.f_setF _ _ _ _ (by decide)]
  exact Nat.mod_mod k 0x1000

/-- A change of the chip alone leaves the memories and the queue. -/
theorem State.quiet_onChip (s : State) (g : Chip → Chip) : Quiet s (s.onChip g) := ⟨s.onChip_mem g, s.onChip_pending g⟩

/-- A command that comes to a recorded error does nothing beside the record. -/
theorem does_perr {i : Instr} {s : State} {k ini : Nat} {e : PErr} (h : exec i s = .next (s.onChip fun c => c.perr k e ini)) :
    Does i s fun t => Quiet s t ∧ t.chip = s.chip.perr k e ini := ⟨_, h, s.quiet_onChip _, s.onChip_chip _⟩

/-- Settles O8: every command named passes `State.cmd` of its register, which records what it turns away, and a record is the error's bit
and two fields of one PG_ERR. -/
theorem refusedCommandWrites : Obligations.RefusedCommandWrites := by
  refine ⟨?_, ?_, ?_, ?_⟩
  · intro i w key k s hi may hkey
    obtain ⟨g, hg⟩ := exec_commandWrite hi
    exact does_perr (by rw [hg, State.cmd_wrong_key g may hkey])
  · intro i w key k e s hi powered running barred
    obtain ⟨g, hg⟩ := exec_commandWrite hi
    exact does_perr (by rw [hg, State.cmd_barred key g powered running barred])
  · intro i w key k s hi stopped
    obtain ⟨g, hg⟩ := exec_commandWrite hi
    exact ⟨s, by rw [hg, State.cmd_gated k w key g stopped], rfl⟩
  · intro c k i e hi
    have kept : Chip.Kept false [pageBase k + H.ERR] [] c (c.perr k e i) := Chip.Kept.refl.perr (by simp)
    exact ⟨c.bit_perr k i e, c.initiator_perr k e hi, c.offset_perr k i e, fun j hj => kept.regs j (by simp) (by simpa using hj)⟩

/-! ### Writes of the Sheepdog (O17, O18)

The Sheepdog writes only fields that are not RWT, and nothing refuses its writes (R49): what holds of a write by any other initiator need
not hold of one by the Sheepdog. -/

/-- The Sheepdog as writer. -/
def sheepdogWriter : Writer := ⟨.sheepdog, 0⟩

/-- BOOT, the working clocks running, nothing else changed since the power-on reset. -/
def bootClocked : State := clocked0 id

/-- The page number of HTM. -/
def htmPage : Fin 576 := 4

/-- The Sheepdog may write PG_CTL of HTM in BOOT, where FREEZE may halt no page (R57). -/
theorem sheepdog_may_freeze_htm :
    P.HTM = 0x1000 * htmPage.val ∧ P.HTM ≠ P.SCFG ∧ (pageAt P.HTM).isSome = true ∧ May sheepdogWriter (P.HTM + H.CTL) bootClocked
      ∧ bootClocked.chip.mayFreeze P.HTM = false := by decide +kernel

/-- Its FREEZE is not refused, so PG_ERR of HTM does not show STATE. -/
theorem sheepdog_freeze_not_refused :
    (mdPageFreeze sheepdogWriter htmPage bootClocked).chip.bit (P.HTM + H.ERR) 6 = false := by decide +kernel

theorem exec_pageFreeze (w : Writer) (pg : Fin 576) (s : State) : exec (.pageFreeze w pg) s = .next (mdPageFreeze w pg s) := rfl

/-- Refutes O17: outside READY, SAFE and REPLAY a PAGE_FREEZE by the Sheepdog is not recorded as STATE, since its write is never refused. -/
theorem not_headerAndWriteCommands : ¬ Obligations.HeaderAndWriteCommands := by
  rintro ⟨-, -, -, -, -, -, -, freezeRefused, -⟩
  obtain ⟨page, notScfg, mapped, may, mayNot⟩ := sheepdog_may_freeze_htm
  obtain ⟨t, ht, -, recorded⟩ := freezeRefused sheepdogWriter htmPage P.HTM bootClocked page notScfg mapped may mayNot
  obtain rfl := Host.Outcome.next.inj ((exec_pageFreeze ..).symm.trans ht)
  rw [sheepdog_freeze_not_refused] at recorded
  exact Bool.false_ne_true recorded

/-- No transaction stages or owns a write of the Sheepdog to BPT.CTL in BOOT, and nothing speaks against the word that enables channel 0. -/
theorem sheepdog_direct_bpt_ctl :
    Direct sheepdogWriter R.BPT_CTL (fset (bootClocked.chip.rd R.BPT_CTL) ⟨(0 : Fin 4).val, (0 : Fin 4).val⟩ 1) bootClocked := by
  decide +kernel

/-- BPT.CTL is RWT, so the Sheepdog's write leaves the channel disabled. -/
theorem sheepdog_bpt_enable_ineffective :
    (mdBptChannelEnable sheepdogWriter 0 bootClocked).chip.bit R.BPT_CTL (0 : Fin 4).val = false := by decide +kernel

theorem exec_bptChannelEnable (w : Writer) (ch : Fin 4) (s : State) :
    exec (.bptChannelEnable w ch) s = .next (mdBptChannelEnable w ch s) := rfl

/-- Refutes O18: BPT_CHANNEL_ENABLE by the Sheepdog sets nothing, since the Sheepdog writes no RWT field. -/
theorem not_enableBitCommands : ¬ Obligations.EnableBitCommands := by
  rintro ⟨-, -, channelEnable, -⟩
  obtain ⟨t, ht, -, -, enabled⟩ := channelEnable sheepdogWriter 0 bootClocked sheepdog_direct_bpt_ctl
  obtain rfl := Host.Outcome.next.inj ((exec_bptChannelEnable ..).symm.trans ht)
  rw [sheepdog_bpt_enable_ineffective] at enabled
  exact Bool.false_ne_true enabled

/-! ### Reads before the first lock (O19) -/

/-- BOOT before the first lock, with the QSPI port strapped: powered, but the working clocks do not run yet (R103). -/
def qspiBeforeLock : State := State.reset.onChip fun c => c.flag R.HPT_STAT F.HPT_STAT_PORT true

/-- The word address of the low word of herd time. -/
def htLowWord : BitVec 22 := BitVec.ofNat 22 (R.HTM_NS 0 / 4)

/-- The state meets what the statement asks of a QSPI read of one low word. -/
theorem qspiBeforeLock_reads_lowWord :
    qspiBeforeLock.chip.is R.HPT_STAT F.HPT_STAT_PORT = true ∧ lowWord (4 * htLowWord.toNat) = true
      ∧ qspiBeforeLock.chip.powered = true := by decide +kernel

/-- Without working clocks the read loads no latch. -/
theorem qspiBeforeLock_latch_empty : (mdQspiRead htLowWord 1 qspiBeforeLock).chip.bus.hiLatch
    ≠ upd qspiBeforeLock.chip.bus.hiLatch 3 fun _ =>
        some (4 * htLowWord.toNat + 4, qspiBeforeLock.readRaw 3 (4 * htLowWord.toNat + 4)) := by decide +kernel

theorem exec_qspiRead (a : BitVec 22) (n : BitVec 16) (s : State) : exec (.qspiRead a n) s = .next (mdQspiRead a n s) := rfl

/-- Refutes O19: before the first lock a QSPI_READ of a low word does not load the host's latch, though the device is powered. -/
theorem not_portAndEventCommands : ¬ Obligations.PortAndEventCommands := by
  rintro ⟨-, -, -, qspiRead, -⟩
  obtain ⟨port, low, powered⟩ := qspiBeforeLock_reads_lowWord
  obtain ⟨t, ht, -, -, latch⟩ := qspiRead htLowWord 1 qspiBeforeLock port
  obtain rfl := Host.Outcome.next.inj ((exec_qspiRead ..).symm.trans ht)
  exact qspiBeforeLock_latch_empty (latch rfl low powered)

/-! ### A coordinator's commit edge (O20) -/

/-- Twin A has opened a coordinator's context with BEGIN_COORD and armed it with COMMIT NOW, without staging a word. -/
def coordinatorArmed : State := clocked0 fun c =>
  doTxnCommit (twinWriter false) theKey 0 (doTxnBeginCoord (twinWriter false) theKey c)

/-- Context 1 meets what the statement asks of an armed context without entries at its commit edge. -/
theorem coordinatorArmed_commits :
    Awake P.TXN coordinatorArmed ∧ (2#16).toNat = 2 ^ 1 ∧ coordinatorArmed.chip.commits 1 = true
      ∧ (coordinatorArmed.chip.ctx 1).late = false ∧ (coordinatorArmed.chip.ctx 1).ini ≠ 0
      ∧ (coordinatorArmed.chip.ctx 1).entries = [] := by decide +kernel

/-- At its commit edge a bank's coordinator goes on COORDINATING (log entry 61). -/
theorem coordinatorArmed_goes_on : ((doCommitEdge 2#16 coordinatorArmed.chip).ctx 1).st = .coordinating := by decide +kernel

theorem exec_commitEdge (m : BitVec 16) (s : State) : exec (.commitEdge m) s = .next (s.onChip (doCommitEdge m)) := rfl

/-- Refutes O20: COMMIT_EDGE of a coordinator's context without entries does not free it. -/
theorem not_transactionCommands : ¬ Obligations.TransactionCommands := by
  rintro ⟨-, -, -, -, -, -, -, -, -, -, -, commitEdge, -⟩
  obtain ⟨awake, mask, commits, late, owned, empty⟩ := coordinatorArmed_commits
  obtain ⟨t, ht, -, -, freed, -⟩ :=
    commitEdge 2#16 1 coordinatorArmed awake (by decide) (by decide) mask commits late owned empty
  obtain rfl := Host.Outcome.next.inj ((exec_commitEdge ..).symm.trans ht)
  rw [State.onChip_chip] at freed
  have free : ((doCommitEdge 2#16 coordinatorArmed.chip).ctx 1).st = .free := congrArg Ctx.st freed
  rw [coordinatorArmed_goes_on] at free
  cases free

end Sys2Proof.Machine

namespace Sys2Proof.Machine

/-! ### Parts that a frame keeps, and fields with room -/

namespace Chip.Kept
variable {ev : Bool} {ks : List Nat} {ps : List Part} {c d : Chip}

theorem time_eq (h : Chip.Kept ev ks ps c d) (hp : .time ∉ ps) : d.time = c.time := h.parts .time (by simp) (by simp) hp
theorem free_eq (h : Chip.Kept ev ks ps c d) (hp : .free ∉ ps) : d.freeCtr = c.freeCtr := h.parts .free (by simp) (by simp) hp

end Chip.Kept

/-- A field reads what was set in it where it has room for it. -/
theorem Chip.f_setF_of_lt (c : Chip) (k n : Nat) (x : Fld) (h : x.hi < 32) (hn : n < 2 ^ (x.hi + 1 - x.lo)) : (c.setF k x n).f k x = n :=
  (Chip.f_setF _ _ _ _ h).trans (Nat.mod_eq_of_lt hn)

/-- A flag beside a field that was set is as before. -/
theorem Chip.is_setF_beside (c : Chip) (k n : Nat) (x y : Fld) (hy : y.hi < 32) (h : y.hi < x.lo ∨ x.hi < y.lo) :
    (c.setF k x n).is k y = c.is k y := by
  rw [Chip.is, Chip.is, Chip.f_setF_beside _ _ _ _ _ hy h]

/-! ### Hops of the root clock (O10) -/

theorem Chip.Kept.unlock {ks : List Nat} {ps : List Part} {c d : Chip} (h : Chip.Kept true ks ps c d) (hk : R.CLK_STAT ∈ ks) :
    Chip.Kept true ks ps c d.unlock := ite ((h.flag hk).raise (by decide)) h

theorem Chip.unlock_kept (c : Chip) : Chip.Kept true [R.CLK_STAT] [] c c.unlock := Chip.Kept.refl.unlock (by simp)

/-- LOCK is 0 once it is cleared. -/
theorem Chip.lock_unlock (c : Chip) : c.unlock.is R.CLK_STAT F.CLK_STAT_LOCK = false := by
  unfold Chip.unlock
  split
  · rw [Chip.is_raise _ _ _ _ _ (by decide) (by decide), Chip.is_flag _ _ _ _ (by decide) (by decide)]
  next unlocked => exact Bool.eq_false_iff.2 unlocked

/-- Clearing LOCK leaves the fields of CLK.STAT below it. -/
theorem Chip.is_unlock_below (c : Chip) (x : Fld) (hx : x.hi < 31) : c.unlock.is R.CLK_STAT x = c.is R.CLK_STAT x := by
  have lock : x.hi < F.CLK_STAT_LOCK.lo := hx
  refine Chip.is_ite ?_ rfl
  rw [Chip.is_raise _ _ _ _ _ (by decide) (by decide), Chip.is_flag_beside _ _ _ _ _ (by omega) (.inl lock)]

/-- A hop to slot `n` has started from `c`: `d` differs in CLK.STAT and in the hop alone. -/
structure Chip.HopStarted (n : Nat) (c d : Chip) : Prop where
  kept : Chip.Kept true [R.CLK_STAT] [.time] c d
  time : d.time = { c.time with hop := some ⟨n, false, 0, 0⟩ }
  hopping : d.is R.CLK_STAT F.CLK_STAT_HOPPING = true
  lock : d.is R.CLK_STAT F.CLK_STAT_LOCK = false
  below : ∀ x : Fld, 29 < x.lo → x.hi < 31 → d.is R.CLK_STAT x = c.is R.CLK_STAT x

/-- A hop to a slot with a source starts, unless the root is locked on that slot (R111). -/
theorem Chip.hopStarted_startHop {c : Chip} {n : Nat} (src : c.f (R.CLK_SLOT n) F.CLK_SLOT_SRC < 4)
    (other : ¬ (c.is R.CLK_STAT F.CLK_STAT_LOCK = true ∧ c.f R.CLK_STAT F.CLK_STAT_ACTIVE = n ∧ c.time.hop = none)) :
    c.HopStarted n (c.startHop n) := by
  have moves : (c.is R.CLK_STAT F.CLK_STAT_LOCK && decide (c.f R.CLK_STAT F.CLK_STAT_ACTIVE = n) && c.time.hop.isNone) = false := by
    by_contra locked
    exact other (by simpa [and_assoc] using locked)
  unfold Chip.startHop
  rw [if_neg (by omega), moves, if_neg (by simp)]
  refine ⟨((Chip.Kept.refl.updTime (by simp)).flag (by simp)).unlock (by simp), ?_, ?_, Chip.lock_unlock _, fun x lo hi => ?_⟩
  · rw [(Chip.unlock_kept _).time_eq (by simp), Chip.flag_time, Chip.updTime_time]
  · rw [Chip.is_unlock_below _ _ (by decide), Chip.is_flag _ _ _ _ (by decide) (by decide)]
  · rw [Chip.is_unlock_below _ _ hi, Chip.is_flag_beside _ _ _ _ _ (by omega) (.inr lo), Chip.updTime_is]

/-- HOP_CMD (R111). -/
theorem doHopCmd_may {w : Writer} {slot : Fin 8} {s : State} (may : May w R.CLK_HOP_CMD s)
    (src : s.chip.f (R.CLK_SLOT slot) F.CLK_SLOT_SRC < 4)
    (other : ¬ (s.chip.is R.CLK_STAT F.CLK_STAT_LOCK = true ∧ s.chip.f R.CLK_STAT F.CLK_STAT_ACTIVE = slot ∧ s.chip.time.hop = none)) :
    s.chip.HopStarted slot (doHopCmd w theKey slot s.chip) := by
  obtain ⟨powered, running, allowed⟩ := may
  rw [doHopCmd, Chip.cmd_of _ _ _ _ powered running allowed]
  exact Chip.hopStarted_startHop src other

/-! ### Lock -/

/-- Herd time starts from the calendar at the first lock (R103, R120). -/
def Chip.htReady (c : Chip) : Chip := if c.time.gated then c.htStart else c

/-- The registers of CLK show the lock through slot `n` on `band` (R101, R105). -/
def Chip.lockShow (c : Chip) (n band : Nat) : Chip :=
  let c : Chip := (c.setF (R.CLK_SLOT n) F.CLK_SLOT_BAND band).flag (R.CLK_SLOT n) F.CLK_SLOT_BAND_VALID true
  let c : Chip := ((c.setF R.CLK_STAT F.CLK_STAT_BAND band).setF R.CLK_STAT F.CLK_STAT_ACTIVE n).flag R.CLK_STAT F.CLK_STAT_LOCK true
  (c.flag R.CLK_STAT F.CLK_STAT_HOLDOVER false).flag R.CLK_STAT F.CLK_STAT_HOPPING false

/-- A lock in its three steps: herd time, the registers of CLK, and the hop, the clocks and their monitor. -/
theorem Chip.locked_eq (c : Chip) (n band : Nat) : c.locked n band =
    (((c.htReady.lockShow n band).updTime fun t => { t with hop := none, gated := false }).flag R.SHD_STAT F.SHD_STAT_OSC_OK true).raiseIf
      c.time.hop.isSome P.CLK 1 := rfl

theorem evKey_clk_slot : ∀ n < 8, evKey (R.CLK_SLOT n) = false := by decide

theorem clk_slot_ne {n : Nat} (hn : n < 8) :
    R.CLK_SLOT n ≠ R.CLK_STAT ∧ R.CLK_SLOT n ≠ R.SHD_STAT ∧ R.CLK_SLOT n ≠ R.HTM_STAT := by
  simp only [R.CLK_SLOT, R.CLK_STAT, R.SHD_STAT, R.HTM_STAT]
  omega

/-- Herd time as the first lock loads it, and nothing else. -/
theorem Chip.htReady_kept (c : Chip) : Chip.Kept false [R.HTM_STAT] [.time, .pow] c c.htReady :=
  .ite (((((Chip.Kept.refl.updPow (by simp)).updTime (by simp)).setF (by simp))).flag (by simp)) .refl

theorem Chip.htReady_time (c : Chip) : c.htReady.time =
    { c.time with ht := if c.time.gated then c.time.calSec * 10 ^ 9 % 2 ^ 64 * 2 ^ 48 else c.time.ht } := by
  unfold Chip.htReady
  split
  · rw [Chip.htStart, Chip.flag_time, Chip.setF_time, Chip.updTime_time, Chip.updPow_time]
  · rfl

theorem Chip.htReady_pow (c : Chip) : c.htReady.pow = { c.pow with refT := c.htReady.pow.refT } := by
  unfold Chip.htReady
  split
  · rw [Chip.htStart, Chip.flag_pow, Chip.setF_pow, Chip.updTime_pow, Chip.updPow_pow]
  · rfl

theorem Chip.htReady_source {c : Chip} (first : c.time.gated = true) :
    c.htReady.is R.HTM_STAT F.HTM_STAT_VALID = false ∧ c.htReady.f R.HTM_STAT F.HTM_STAT_SRC = 4 := by
  unfold Chip.htReady
  rw [if_pos first, Chip.htStart]
  refine ⟨Chip.is_flag _ _ _ _ (by decide) (by decide), ?_⟩
  rw [Chip.flag, Chip.f_setF_beside _ _ _ _ _ (by decide) (by decide), Chip.f_setF_of_lt _ _ _ _ (by decide) (by decide)]

theorem Chip.lockShow_kept (c : Chip) (n band : Nat) : Chip.Kept false [R.CLK_SLOT n, R.CLK_STAT] [] c (c.lockShow n band) :=
  ((((((Chip.Kept.refl.setF (by simp)).flag (by simp)).setF (by simp)).setF (by simp)).flag (by simp)).flag (by simp)).flag (by simp)

/-- What CLK shows of a lock. -/
theorem Chip.lockShow_stat (c : Chip) {n : Nat} (hn : n < 8) (band : BitVec 12) :
    (c.lockShow n band.toNat).is R.CLK_STAT F.CLK_STAT_LOCK = true
      ∧ (c.lockShow n band.toNat).f R.CLK_STAT F.CLK_STAT_ACTIVE = n
      ∧ (c.lockShow n band.toNat).f R.CLK_STAT F.CLK_STAT_BAND = band.toNat
      ∧ (c.lockShow n band.toNat).f R.CLK_STAT F.CLK_STAT_PHASE_ERR = c.f R.CLK_STAT F.CLK_STAT_PHASE_ERR := by
  obtain ⟨ne, -, -⟩ := clk_slot_ne hn
  unfold Chip.lockShow
  refine ⟨?_, ?_, ?_, ?_⟩
  · rw [Chip.is_flag_beside _ _ _ _ _ (by decide) (by decide), Chip.is_flag_beside _ _ _ _ _ (by decide) (by decide),
      Chip.is_flag _ _ _ _ (by decide) (by decide)]
  · simp (disch := decide) only [Chip.flag, Chip.f_setF_beside]
    exact Chip.f_setF_of_lt _ _ _ _ (by decide) hn
  · simp (disch := decide) only [Chip.flag, Chip.f_setF_beside]
    exact Chip.f_setF_of_lt _ _ _ _ (by decide) band.isLt
  · simp (disch := decide) only [Chip.flag, Chip.f_setF_beside]
    rw [Chip.f_setF_ne _ _ _ _ _ _ ne, Chip.f_setF_ne _ _ _ _ _ _ ne]

/-- The slot keeps the band. -/
theorem Chip.lockShow_slot (c : Chip) {n : Nat} (hn : n < 8) (band : BitVec 12) :
    (c.lockShow n band.toNat).f (R.CLK_SLOT n) F.CLK_SLOT_BAND = band.toNat
      ∧ (c.lockShow n band.toNat).is (R.CLK_SLOT n) F.CLK_SLOT_BAND_VALID = true := by
  have shown : ∀ d : Chip, Chip.Kept false [R.CLK_STAT] [] d ((((((d.setF R.CLK_STAT F.CLK_STAT_BAND band.toNat).setF R.CLK_STAT
      F.CLK_STAT_ACTIVE n).flag R.CLK_STAT F.CLK_STAT_LOCK true).flag R.CLK_STAT F.CLK_STAT_HOLDOVER false).flag R.CLK_STAT
      F.CLK_STAT_HOPPING false)) := fun d =>
    ((((Chip.Kept.refl.setF (by simp)).setF (by simp)).flag (by simp)).flag (by simp)).flag (by simp)
  have other : R.CLK_SLOT n ∉ [R.CLK_STAT] := by simpa using (clk_slot_ne hn).1
  unfold Chip.lockShow
  rw [(shown _).f_eq (by simp) other, (shown _).is_eq (by simp) other]
  refine ⟨?_, Chip.is_flag _ _ _ _ (by decide) (by decide)⟩
  rw [Chip.flag, Chip.f_setF_beside _ _ _ _ _ (by decide) (by decide), Chip.f_setF_of_lt _ _ _ _ (by decide) band.isLt]

/-- From `c` the root has locked through slot `n` on `band`, as `d` shows; the first lock loads herd time from the calendar. -/
structure Chip.LockedOn (n : Nat) (band : BitVec 12) (c d : Chip) : Prop where
  kept : Chip.Kept true [R.CLK_SLOT n, R.CLK_STAT, R.SHD_STAT, R.HTM_STAT] [.time, .pow] c d
  time : d.time = { c.time with
    hop := none, gated := false, ht := if c.time.gated then c.time.calSec * 10 ^ 9 % 2 ^ 64 * 2 ^ 48 else c.time.ht }
  pow : d.pow = { c.pow with refT := d.pow.refT }
  source : c.time.gated = true → d.is R.HTM_STAT F.HTM_STAT_VALID = false ∧ d.f R.HTM_STAT F.HTM_STAT_SRC = 4
  lock : d.is R.CLK_STAT F.CLK_STAT_LOCK = true
  active : d.f R.CLK_STAT F.CLK_STAT_ACTIVE = n
  shownBand : d.f R.CLK_STAT F.CLK_STAT_BAND = band.toNat
  phase : d.f R.CLK_STAT F.CLK_STAT_PHASE_ERR = c.f R.CLK_STAT F.CLK_STAT_PHASE_ERR
  slotBand : d.f (R.CLK_SLOT n) F.CLK_SLOT_BAND = band.toNat
  slotValid : d.is (R.CLK_SLOT n) F.CLK_SLOT_BAND_VALID = true

theorem Chip.lockedOn_locked (c : Chip) {n : Nat} (hn : n < 8) (band : BitVec 12) : c.LockedOn n band (c.locked n band.toNat) := by
  obtain ⟨neStat, neShd, neHtm⟩ := clk_slot_ne hn
  obtain ⟨lock, active, inBand, phase⟩ := c.htReady.lockShow_stat hn band
  obtain ⟨slotBand, slotValid⟩ := c.htReady.lockShow_slot hn band
  have shown := c.htReady.lockShow_kept n band.toNat
  have opened : ∀ e : Chip, Chip.Kept true [R.SHD_STAT] [.time] e (((e.updTime fun t => { t with hop := none, gated := false }).flag
      R.SHD_STAT F.SHD_STAT_OSC_OK true).raiseIf c.time.hop.isSome P.CLK 1) := fun e =>
    ((Chip.Kept.refl.updTime (by simp)).flag (by simp)).raiseIf (by decide)
  have slotElsewhere : R.CLK_SLOT n ∉ [R.SHD_STAT] := by simpa using neShd
  have htmElsewhere : R.HTM_STAT ∉ [R.CLK_SLOT n, R.CLK_STAT] := by simp [Ne.symm neHtm]; decide
  have ev : ∀ e, ((e : Chip).raiseIf c.time.hop.isSome P.CLK 1).time = e.time := fun e =>
    (Chip.Kept.refl.raiseIf (ks := []) (ps := []) (by decide)).time_eq (by simp)
  rw [Chip.locked_eq]
  constructor
  · exact (((c.htReady_kept.toEv.mono (by simp) (by simp)).trans (shown.toEv.mono (by simp) (by simp))).trans
      ((opened _).mono (by simp) (by simp)))
  · rw [ev, Chip.flag_time, Chip.updTime_time, shown.time_eq (by simp), Chip.htReady_time]
  · rw [(opened _).pow_eq (by simp), shown.pow_eq (by simp)]
    exact c.htReady_pow
  · intro first
    rw [(opened _).is_eq (fun _ => by decide) (by decide), (opened _).f_eq (fun _ => by decide) (by decide),
      shown.is_eq (by simp) htmElsewhere, shown.f_eq (by simp) htmElsewhere]
    exact Chip.htReady_source first
  · rw [(opened _).is_eq (fun _ => by decide) (by decide), lock]
  · rw [(opened _).f_eq (fun _ => by decide) (by decide), active]
  · rw [(opened _).f_eq (fun _ => by decide) (by decide), inBand]
  · rw [(opened _).f_eq (fun _ => by decide) (by decide), phase, c.htReady_kept.f_eq (by simp) (by decide)]
  · rw [(opened _).f_eq (fun _ => evKey_clk_slot n hn) slotElsewhere, slotBand]
  · rw [(opened _).is_eq (fun _ => evKey_clk_slot n hn) slotElsewhere, slotValid]

/-! ### What the commands of the root clock do -/

theorem Chip.viaShd_of {c : Chip} (h : c.powered = true) (g : Chip → Chip) : c.viaShd g = g c := if_pos h

/-- COLD_LOCK locks the slot of the hop in progress, or the active slot where the root is unlocked, and shows the phase error
(R100, R107). -/
theorem doColdLock_powered {c : Chip} (band e : BitVec 12) {n : Nat} (powered : c.powered = true) (hn : n < 8)
    (slot : (c.time.hop = none ∧ c.is R.CLK_STAT F.CLK_STAT_LOCK = false ∧ n = c.f R.CLK_STAT F.CLK_STAT_ACTIVE)
      ∨ c.time.hop.map Hop.slot = some n) :
    (c.setF R.CLK_STAT F.CLK_STAT_PHASE_ERR e.toNat).LockedOn n band (doColdLock band e c) := by
  have locks := (c.setF R.CLK_STAT F.CLK_STAT_PHASE_ERR e.toNat).lockedOn_locked hn band
  unfold doColdLock
  rw [Chip.viaShd_of powered]
  rcases slot with ⟨idle, unlocked, rfl⟩ | hopping
  · simpa [idle, unlocked] using locks
  · obtain ⟨h, hop, rfl⟩ := Option.map_eq_some_iff.1 hopping
    simpa only [hop] using locks

/-- What a lock shows that has first shown the phase error `e`. -/
theorem Chip.LockedOn.of_phase {n : Nat} {band e : BitVec 12} {c d : Chip}
    (h : (c.setF R.CLK_STAT F.CLK_STAT_PHASE_ERR e.toNat).LockedOn n band d) :
    Chip.Kept true [R.CLK_SLOT n, R.CLK_STAT, R.SHD_STAT, R.HTM_STAT] [.time, .pow] c d
      ∧ d.time = { c.time with
        hop := none, gated := false, ht := if c.time.gated then c.time.calSec * 10 ^ 9 % 2 ^ 64 * 2 ^ 48 else c.time.ht }
      ∧ d.pow = { c.pow with refT := d.pow.refT } ∧ d.f R.CLK_STAT F.CLK_STAT_PHASE_ERR = e.toNat :=
  ⟨(Chip.Kept.refl.setF (by simp)).trans h.kept, h.time.trans (by rw [Chip.setF_time]), h.pow.trans (by rw [Chip.setF_pow]),
    h.phase.trans (Chip.f_setF_of_lt _ _ _ _ (by decide) e.isLt)⟩

/-- FREQ_ACQUIRED on a slot with a valid band (R106). -/
theorem doFreqAcquired_hopping {c : Chip} (e : BitVec 12) {h : Hop} (powered : c.powered = true) (hop : c.time.hop = some h)
    (valid : c.is (R.CLK_SLOT h.slot) F.CLK_SLOT_BAND_VALID = true) :
    Chip.Kept false [R.CLK_STAT] [.time] c (doFreqAcquired e c)
      ∧ (doFreqAcquired e c).time = { c.time with hop := some ⟨h.slot, true, 200 * e.toInt, 200 * e.toInt⟩ }
      ∧ (doFreqAcquired e c).f R.CLK_STAT F.CLK_STAT_PHASE_ERR = e.toNat := by
  unfold doFreqAcquired
  rw [Chip.viaShd_of powered, hop]
  dsimp only
  rw [if_pos valid]
  exact ⟨(Chip.Kept.refl.updTime (by simp)).setF (by simp), Chip.setF_time .., Chip.f_setF_of_lt _ _ _ _ (by decide) e.isLt⟩

/-- ROOT_LOCK in phase mode FAST, the dividers realigned within 20 ps (R109). -/
theorem doRootLock_fast {c : Chip} (band e : BitVec 12) {h : Hop} (powered : c.powered = true) (hop : c.time.hop = some h)
    (acquired : h.freqOk = true) (hs : h.slot < 8) (fast : c.fastPhase = true) (near : e.toInt.natAbs ≤ 20) :
    (c.setF R.CLK_STAT F.CLK_STAT_PHASE_ERR e.toNat).LockedOn h.slot band (doRootLock band e c) := by
  have locks := (c.setF R.CLK_STAT F.CLK_STAT_PHASE_ERR e.toNat).lockedOn_locked hs band
  unfold doRootLock
  rw [Chip.viaShd_of powered, hop]
  simpa [acquired, fast, near] using locks

/-- ROOT_LOCK once the phase has moved to within 20 ps, which are 4000 units of the hop (R108). -/
theorem doRootLock_hitless {c : Chip} (band e : BitVec 12) {h : Hop} (powered : c.powered = true) (hop : c.time.hop = some h)
    (acquired : h.freqOk = true) (hs : h.slot < 8) (hitless : c.fastPhase = false) (near : h.err.natAbs ≤ 4000) :
    c.LockedOn h.slot band (doRootLock band e c) := by
  have locks := c.lockedOn_locked hs band
  unfold doRootLock
  rw [Chip.viaShd_of powered, hop]
  simpa [acquired, hitless, near] using locks

/-! #### Loss of the reference -/

/-- Holdover is shown and LOCK is cleared (R112). -/
def Chip.refLost (c : Chip) : Chip := ((c.flag R.CLK_STAT F.CLK_STAT_HOLDOVER true).unlock).raise P.CLK 2

theorem Chip.refLost_kept (c : Chip) : Chip.Kept true [R.CLK_STAT] [] c c.refLost :=
  ((Chip.Kept.refl.flag (by simp)).unlock (by simp)).raise (by decide)

theorem Chip.refLost_stat (c : Chip) :
    c.refLost.is R.CLK_STAT F.CLK_STAT_HOLDOVER = true ∧ c.refLost.is R.CLK_STAT F.CLK_STAT_LOCK = false := by
  unfold Chip.refLost
  rw [Chip.is_raise _ _ _ _ _ (by decide) (by decide), Chip.is_raise _ _ _ _ _ (by decide) (by decide)]
  exact ⟨(Chip.is_unlock_below _ _ (by decide)).trans (Chip.is_flag _ _ _ _ (by decide) (by decide)), Chip.lock_unlock _⟩

/-- REF_LOSS behind what it shows: the automatic hop. -/
theorem doRefLoss_eq {c : Chip} (powered : c.powered = true) (running : c.time.gated = false) : doRefLoss c =
    if c.refLost.is R.CLK_CTL F.CLK_CTL_AUTO_HOP then c.refLost.startHop (c.refLost.f R.CLK_CTL F.CLK_CTL_FALLBACK) else c.refLost := by
  unfold doRefLoss
  rw [Chip.viaShd_of powered, if_neg (by simp [running])]
  rfl

/-- The slot to which the device hops by itself when the reference is lost (R112): none without AUTO_HOP, nor where it has no source. -/
abbrev Chip.HopsBack (c : Chip) : Prop := c.is R.CLK_CTL F.CLK_CTL_AUTO_HOP = true
  ∧ c.f (R.CLK_SLOT (c.f R.CLK_CTL F.CLK_CTL_FALLBACK)) F.CLK_SLOT_SRC < 4

theorem Chip.fallback_lt (c : Chip) : c.f R.CLK_CTL F.CLK_CTL_FALLBACK < 8 := Nat.mod_lt _ (by decide)

/-- A hop that is refused leaves the chip (R99). -/
theorem Chip.startHop_refused {c : Chip} {n : Nat} (src : ¬ c.f (R.CLK_SLOT n) F.CLK_SLOT_SRC < 4) : c.startHop n = c :=
  if_pos (by omega)

/-- REF_LOSS (R112). -/
theorem doRefLoss_running {c : Chip} (powered : c.powered = true) (running : c.time.gated = false) :
    Chip.Kept true [R.CLK_STAT] [.time] c (doRefLoss c)
      ∧ (doRefLoss c).is R.CLK_STAT F.CLK_STAT_HOLDOVER = true ∧ (doRefLoss c).is R.CLK_STAT F.CLK_STAT_LOCK = false
      ∧ (doRefLoss c).time = { c.time with
        hop := if c.HopsBack then some ⟨c.f R.CLK_CTL F.CLK_CTL_FALLBACK, false, 0, 0⟩ else c.time.hop } := by
  have lost : Chip.Kept true [R.CLK_STAT] [.time] c c.refLost := c.refLost_kept.mono (by simp) (by simp)
  have time : c.refLost.time = c.time := c.refLost_kept.time_eq (by simp)
  obtain ⟨holdover, unlocked⟩ := c.refLost_stat
  have fallback := c.fallback_lt
  have otherSlot : R.CLK_SLOT (c.f R.CLK_CTL F.CLK_CTL_FALLBACK) ∉ [R.CLK_STAT] := by simpa using (clk_slot_ne fallback).1
  rw [doRefLoss_eq powered running, lost.is_eq (fun _ => by decide) (by decide), lost.f_eq (fun _ => by decide) (by decide)]
  have src := lost.f_eq (fun _ => evKey_clk_slot _ fallback) otherSlot F.CLK_SLOT_SRC
  by_cases hops : c.HopsBack
  · rw [if_pos hops.1, if_pos hops]
    have started := Chip.hopStarted_startHop (src.trans_lt hops.2) (by simp [unlocked])
    exact ⟨lost.trans started.kept, (started.below _ (by decide) (by decide)).trans holdover, started.lock,
      started.time.trans (by rw [time])⟩
  · have stays : (if c.is R.CLK_CTL F.CLK_CTL_AUTO_HOP = true then c.refLost.startHop (c.f R.CLK_CTL F.CLK_CTL_FALLBACK) else c.refLost)
        = c.refLost := by
      split
      next auto => exact Chip.startHop_refused fun has => hops ⟨auto, src.symm.trans_lt has⟩
      next => rfl
    rw [if_neg hops, stays]
    exact ⟨lost, holdover, unlocked, time⟩

/-! #### The clock monitor -/

/-- With the latch set already, a further cause keeps it (R29). -/
theorem Chip.latched_latch_again {c : Chip} {m : Mode} {sgr : Bool} {first g : Nat} (h : c.Latched m sgr first g) (code cls idx : Nat) :
    (c.latch code cls idx).Latched m sgr first g := by
  unfold Chip.latch
  simp only [h.latch, Bool.not_true, Bool.false_eq_true, if_false]
  exact .ite (.tripBreaker (h.orBits (by decide))) (h.orBits (by decide))

/-- A safety cause in a powered device ends in SAFE with the latch set, the first or a further one (R29, R30). -/
theorem Chip.safe_cause {c : Chip} {code : Nat} (powered : c.powered = true) (hc : code < 256) (cls idx : Nat) :
    (c.cause code cls idx).mode = .safe ∧ (c.cause code cls idx).is R.SHD_STAT F.SHD_STAT_LATCH = true := by
  cases latch : c.is R.SHD_STAT F.SHD_STAT_LATCH with
  | false =>
    have latched := Chip.latched_cause powered latch hc cls idx
    exact ⟨latched.mode, latched.latch⟩
  | true =>
    have before : c.Latched c.mode c.safe.sgr (c.f R.SHD_CAUSE F.SHD_CAUSE_CODE) 0 := ⟨rfl, rfl, latch, rfl, by simp, by simp⟩
    have again := Chip.latched_latch_again before code cls idx
    have entered := again.enterSafe (by rw [Chip.powered, again.mode]; exact powered) code
    have caused : (c.cause code cls idx).Latched .safe c.safe.sgr (c.f R.SHD_CAUSE F.SHD_CAUSE_CODE) 0 := by
      unfold Chip.cause
      rw [if_pos powered]
      exact .ite entered.logIt entered
    exact ⟨caused.mode, caused.latch⟩

/-! #### What the safe state touches -/

/-- The registers that the outputs of the channels and instances show in. -/
def gateKeys : List Nat :=
  R.TRIP_CH_STAT :: (List.range 16).flatMap fun n => [R.GDI_STAT n, R.PWMC_STAT n, R.ACMP_CH_STAT n, R.TRIP_SRC_STAT n]

theorem gdi_stat_mem_gateKeys {n : Nat} (hn : n < 16) : R.GDI_STAT n ∈ gateKeys :=
  List.mem_cons_of_mem _ (List.mem_flatMap.2 ⟨n, List.mem_range.2 hn, by simp⟩)

theorem chKeys_subset_gateKeys {n : Nat} (hn : n < 16) : chKeys n ⊆ gateKeys := by
  have shown : ∀ i < 16, ∀ k ∈ [R.GDI_STAT i, R.PWMC_STAT i, R.ACMP_CH_STAT i, R.TRIP_SRC_STAT i], k ∈ gateKeys := fun i hi k hk =>
    List.mem_cons_of_mem _ (List.mem_flatMap.2 ⟨i, List.mem_range.2 hi, hk⟩)
  intro k hk
  simp only [chKeys, List.mem_append, List.mem_cons, List.not_mem_nil, or_false, List.mem_map, List.mem_range] at hk
  rcases hk with ((rfl | rfl) | ⟨i, hi, rfl⟩) | ⟨i, hi, rfl⟩
  · exact List.mem_cons_self
  · exact shown n hn _ (by simp)
  · exact shown i hi _ (by simp)
  · exact shown i hi _ (by simp)

/-- The registers that show the device state and what the Sheepdog records of a cause, beside SHD.STAT. -/
def stateKeys : List Nat :=
  [R.SYS_STATE, R.SYS_STATE_HT 0, R.SYS_STATE_HT 1, R.SYS_SAFE_CAUSE, R.SHD_LOG_STAT, R.SOUT_STAT, R.SHD_CAUSE, R.SHD_CAUSES_SEEN]

/-- The registers beside SHD.STAT that a cause of the safe state may change. -/
def causeKeys : List Nat := gateKeys ++ stateKeys

/-- The parts beside the registers that it may change. -/
def causeParts : List Part := [.mode, .safe, .pwm, .meas]

theorem gateKeys_subset_causeKeys : gateKeys ⊆ causeKeys := List.subset_append_left ..

theorem stateKeys_subset_causeKeys : stateKeys ⊆ causeKeys := List.subset_append_right ..

theorem shd_stat_notMem_causeKeys : R.SHD_STAT ∉ causeKeys := by
  simp only [causeKeys, gateKeys, stateKeys, List.mem_append, List.mem_cons, List.mem_flatMap, List.mem_range, List.not_mem_nil, or_false]
  rintro ((h | ⟨n, hn, h⟩) | h)
  · exact absurd h (by decide)
  · simp only [R.SHD_STAT, R.GDI_STAT, R.PWMC_STAT, R.ACMP_CH_STAT, R.TRIP_SRC_STAT] at h
    omega
  · exact absurd h (by decide)

namespace Chip.Kept
variable {ks : List Nat} {ps : List Part} {c d : Chip}

theorem chOut (h : Chip.Kept true ks ps c d) (hk : gateKeys ⊆ ks) (hp : causeParts ⊆ ps) {n : Nat} (hn : n < 16) :
    Chip.Kept true ks ps c (d.chOut n) := by
  obtain ⟨e, out, before⟩ := d.chOut_eq n
  have pwm : .pwm ∈ ps := hp (by simp [causeParts])
  have meas : .meas ∈ ps := hp (by simp [causeParts])
  rw [out]
  exact (h.trans (before.mono (fun k m => hk (chKeys_subset_gateKeys hn m)) (by simp [pwm, meas]))).gdiOut hn
    (hk (gdi_stat_mem_gateKeys hn)) pwm

theorem gates (h : Chip.Kept true ks ps c d) (hk : gateKeys ⊆ ks) (hp : causeParts ⊆ ps) : Chip.Kept true ks ps c d.gates :=
  forN_inv_lt (Chip.Kept true ks ps c) 16 _ d h fun _ hn _ he => he.chOut hk hp hn

theorem shdOff (h : Chip.Kept true ks ps c d) (hk : gateKeys ⊆ ks) (hp : causeParts ⊆ ps) {b : Bool} :
    Chip.Kept true ks ps c (d.shdOff b) :=
  (forN_inv_lt (Chip.Kept true ks ps c) 16 _ d h fun _ hn _ he =>
    (he.flag (hk (gdi_stat_mem_gateKeys hn))).gdiOut hn (hk (gdi_stat_mem_gateKeys hn)) (hp (by simp [causeParts]))).lapLevels

/-- The safety part of the chip takes any value. -/
theorem setSafe (h : Chip.Kept true ks ps c d) {x : SafeSt} (hp : .safe ∈ ps) : Chip.Kept true ks ps c { d with safe := x } :=
  h.part .safe hp rfl rfl fun q _ _ => by cases q <;> first | rfl | contradiction

/-- The device state takes any value. -/
theorem setMode (h : Chip.Kept true ks ps c d) {m : Mode} (hp : .mode ∈ ps) : Chip.Kept true ks ps c { d with mode := m } :=
  h.part .mode hp rfl rfl fun q _ _ => by cases q <;> first | rfl | contradiction

theorem enter (h : Chip.Kept true ks ps c d) (hk : causeKeys ⊆ ks) (hp : causeParts ⊆ ps) {m : Mode} :
    Chip.Kept true ks ps c (d.enter m) := by
  have state : R.SYS_STATE ∈ ks := hk (stateKeys_subset_causeKeys (by simp [stateKeys]))
  have low : R.SYS_STATE_HT 0 ∈ ks := hk (stateKeys_subset_causeKeys (by simp [stateKeys]))
  have high : R.SYS_STATE_HT 0 + 4 ∈ ks := hk (stateKeys_subset_causeKeys (by decide))
  have gate : gateKeys ⊆ ks := fun _ hm => hk (gateKeys_subset_causeKeys hm)
  have moved := ((h.setF state (x := F.SYS_STATE_PREV) (n := d.mode.code)).setMode (m := m) (hp (by simp [causeParts]))).setF state
    (x := F.SYS_STATE_STATE) (n := m.code)
  unfold Chip.enter
  refine ite h (ite (gates ?_ gate hp) ?_) <;>
    exact ((moved.wr64 low high).raise (by decide)).lapRec

theorem pacerOnSafe (h : Chip.Kept true ks ps c d) : Chip.Kept true ks ps c d.pacerOnSafe :=
  h.forN fun _ _ he => ite ((he.setFEv (by decide)).raise (by decide)) he

theorem enterSafe (h : Chip.Kept true ks ps c d) (hk : causeKeys ⊆ ks) (hp : causeParts ⊆ ps) {code : Nat} :
    Chip.Kept true ks ps c (d.enterSafe code) := by
  have cause : R.SYS_SAFE_CAUSE ∈ ks := hk (stateKeys_subset_causeKeys (by simp [stateKeys]))
  unfold Chip.enterSafe
  refine ite h (pacerOnSafe (enter (setSafe ?_ (hp (by simp [causeParts]))) hk hp))
  exact (((ite (h.setFEv (by decide)) h).setF cause).setF cause).incSat cause

theorem logShow (h : Chip.Kept true ks ps c d) (hk : R.SHD_LOG_STAT ∈ ks) : Chip.Kept true ks ps c d.logShow := (h.setF hk).setF hk

theorem logIt (h : Chip.Kept true ks ps c d) (hk : R.SHD_LOG_STAT ∈ ks) (hp : .safe ∈ ps) {kind : Nat} {l : List Byte} :
    Chip.Kept true ks ps c (d.logIt kind l) :=
  ite h (ite ((h.setSafe hp).logShow hk) (ite ((h.setSafe hp).logShow hk) (((h.setSafe hp).incSat hk).raiseIf (by decide))))

end Chip.Kept

/-- The clock monitor has found the divided root off (R114). -/
def Chip.OscLost (c : Chip) : Prop := c.is R.SHD_STAT F.SHD_STAT_OSC_OK = false

namespace Chip.OscLost
variable {c d : Chip}

theorem keep (h : c.OscLost) {ks : List Nat} {ps : List Part} (kept : Chip.Kept true ks ps c d) (hk : R.SHD_STAT ∉ ks) : d.OscLost :=
  (kept.is_eq (fun _ => by decide) hk _).trans h

theorem ite {p : Prop} [Decidable p] (h : c.OscLost) (hd : d.OscLost) : (if p then c else d).OscLost := by split <;> assumption

/-- A field of SHD.STAT beside OSC_OK. -/
theorem setShdStat (h : c.OscLost) {x : Fld} {n : Nat} (hx : F.SHD_STAT_OSC_OK.hi < x.lo ∨ x.hi < F.SHD_STAT_OSC_OK.lo) :
    (c.setF R.SHD_STAT x n).OscLost := (Chip.is_setF_beside _ _ _ _ _ (by decide) hx).trans h

theorem soutUpdate (h : c.OscLost) : c.soutUpdate.OscLost := by
  have switched : Chip.Kept true [R.SOUT_STAT] [.safe] c (forN 8 (fun k d => if d.soutOn k != d.bit R.SOUT_STAT k then
      (d.setBit R.SOUT_STAT k (d.soutOn k)).updSout k fun x => { x with settle := true, switched := true, pulse := none } else d) c) :=
    Chip.Kept.refl.forN fun _ _ he => .ite ((he.setBit (by simp)).updSout (by simp)) he
  exact (h.keep switched (by decide)).setShdStat (by decide)

theorem setSgr (h : c.OscLost) (b : Bool) : (c.setSgr b).OscLost := soutUpdate h

theorem tripBreaker (h : c.OscLost) : c.tripBreaker.OscLost := by
  have pulses : ∀ e : Chip, Chip.Kept true [] [.safe] e e.tripPulses := fun e =>
    Chip.Kept.refl.forN fun _ _ he => .ite (he.updSout (by simp)) he
  exact ite h (soutUpdate ((h.setShdStat (by decide)).keep (pulses _) (by simp)))

theorem latch (h : c.OscLost) (code cls idx : Nat) : (c.latch code cls idx).OscLost := by
  have seen : ∀ e : Chip, e.OscLost → (e.orBits R.SHD_CAUSES_SEEN (2 ^ (code - 1))).OscLost := fun e he =>
    he.keep (ks := [R.SHD_CAUSES_SEEN]) (ps := []) (Chip.Kept.refl.orBits (by simp)) (by decide)
  have latched : (c.flag R.SHD_STAT F.SHD_STAT_LATCH true).OscLost := h.setShdStat (by decide)
  have cause : R.SHD_CAUSE ∈ causeKeys := stateKeys_subset_causeKeys (by simp [stateKeys])
  have shown : ∀ (n : Nat) (x : SafeSt), ((({ ((c.flag R.SHD_STAT F.SHD_STAT_LATCH true).wrN R.SHD_CAUSE n) with safe := x } :
      Chip).shdOff true).raise P.SHD 0).OscLost := fun n x =>
    latched.keep (ks := causeKeys) (ps := causeParts) ((((Chip.Kept.refl.wrN cause).setSafe (by simp [causeParts])).shdOff
      gateKeys_subset_causeKeys fun _ hm => hm).raise (by decide)) shd_stat_notMem_causeKeys
  unfold Chip.latch
  generalize cls * 2 ^ 16 + idx % 256 * 256 + code = n
  cases c.is R.SHD_STAT F.SHD_STAT_LATCH with
  | true =>
    simp only [Bool.not_true, Bool.false_eq_true, if_false]
    exact ite (tripBreaker (seen _ h)) (seen _ h)
  | false =>
    simp only [Bool.not_false, if_true]
    exact ite (tripBreaker (setSgr (seen _ (shown _ _)) _)) (setSgr (seen _ (shown _ _)) _)

theorem cause (h : c.OscLost) (code cls idx : Nat) : (c.cause code cls idx).OscLost := by
  have entered : Chip.Kept true causeKeys causeParts (c.latch code cls idx) ((c.latch code cls idx).enterSafe code) :=
    Chip.Kept.refl.enterSafe (fun _ hm => hm) fun _ hm => hm
  have logged := entered.logIt (kind := 0x08) (l := bytesLE 1 code ++ bytesLE 1 c.mode.code ++ bytesLE 1 cls ++ bytesLE 1 idx)
    (stateKeys_subset_causeKeys (by simp [stateKeys])) (by simp [causeParts])
  have latched := h.latch code cls idx
  exact ite (ite (latched.keep logged shd_stat_notMem_causeKeys) (latched.keep entered shd_stat_notMem_causeKeys)) h

end Chip.OscLost

/-- CLOCK_MONITOR_FAIL (R114). -/
theorem doClockMonitorFail_powered {c : Chip} (powered : c.powered = true) :
    (doClockMonitorFail c).OscLost ∧ (doClockMonitorFail c).is R.SHD_STAT F.SHD_STAT_LATCH = true
      ∧ (doClockMonitorFail c).mode = .safe := by
  have off : (c.flag R.SHD_STAT F.SHD_STAT_OSC_OK false).OscLost := Chip.is_flag _ _ _ _ (by decide) (by decide)
  have still : (c.flag R.SHD_STAT F.SHD_STAT_OSC_OK false).powered = true := by rw [Chip.powered, Chip.flag_mode]; exact powered
  have caused : doClockMonitorFail c = (c.flag R.SHD_STAT F.SHD_STAT_OSC_OK false).cause 0x0E 0xA 2 := Chip.viaShd_of powered _
  obtain ⟨safe, latch⟩ := Chip.safe_cause (code := 0x0E) still (by decide) 0xA 2
  rw [caused]
  exact ⟨off.cause _ _ _, latch, safe⟩

/-- CLOCK_OUTPUT_UPDATE (R117). -/
theorem doClockOutputUpdate_running {c : Chip} (n : Fin 4) (powered : c.powered = true) (running : c.time.gated = false) :
    Chip.Kept false [] [.time] c (doClockOutputUpdate n c)
      ∧ (doClockOutputUpdate n c).time = { c.time with
        outDiv := upd c.time.outDiv n fun _ => c.rd (R.CLK_OUT_DIV n), outSsc := upd c.time.outSsc n fun _ => c.rd (R.CLK_OUT_SSC n) } := by
  unfold doClockOutputUpdate
  rw [Chip.via_of_clock _ _ powered running]
  exact ⟨Chip.Kept.refl.updTime (by simp), Chip.updTime_time ..⟩

/-- Settles O10: each clause is what the command's lemma above says of the chip; the memory and the queue stay beside it. -/
theorem rootClockCommands : Obligations.RootClockCommands := by
  refine ⟨?_, ?_, ?_, ?_, ?_, ?_, ?_, ?_⟩
  · intro w slot s may src other
    obtain ⟨kept, time, hopping, lock, -⟩ := doHopCmd_may may src other
    exact ⟨_, rfl, ⟨⟨rfl, rfl⟩, kept⟩, time, hopping, lock⟩
  · intro band e n s powered hn slot
    have locked := doColdLock_powered band e powered hn slot
    obtain ⟨kept, time, pow, phase⟩ := locked.of_phase
    exact ⟨_, rfl, ⟨⟨rfl, rfl⟩, kept⟩, time, pow, locked.source, locked.lock, locked.active, locked.shownBand, phase,
      locked.slotBand, locked.slotValid⟩
  · intro e h s powered hop valid
    obtain ⟨kept, acquired⟩ := doFreqAcquired_hopping e powered hop valid
    exact ⟨_, rfl, ⟨⟨rfl, rfl⟩, kept⟩, acquired⟩
  · intro band e h s powered hop acquired hs fast near
    have locked := doRootLock_fast band e powered hop acquired hs fast near
    obtain ⟨kept, time, pow, phase⟩ := locked.of_phase
    exact ⟨_, rfl, ⟨⟨rfl, rfl⟩, kept⟩, locked.lock, locked.active, phase, time, pow, locked.source⟩
  · intro band e h s powered hop acquired hs hitless near
    have locked := doRootLock_hitless band e powered hop acquired hs hitless near
    exact ⟨_, rfl, ⟨⟨rfl, rfl⟩, locked.kept⟩, locked.lock, locked.active, locked.phase, locked.time, locked.pow, locked.source⟩
  · intro s powered running
    obtain ⟨kept, lost⟩ := doRefLoss_running powered running
    exact ⟨_, rfl, ⟨⟨rfl, rfl⟩, kept⟩, lost⟩
  · exact fun s powered => ⟨_, rfl, ⟨rfl, rfl⟩, doClockMonitorFail_powered powered⟩
  · intro n s powered running
    obtain ⟨kept, taken⟩ := doClockOutputUpdate_running n powered running
    exact ⟨_, rfl, ⟨⟨rfl, rfl⟩, kept⟩, taken⟩

/-! ### Herd time (O11) -/

theorem Chip.lapHtm_time (c : Chip) : c.lapHtm.time = c.time := (Chip.lapRec_beside c _).time

/-- HTM_ADJ (R126). -/
theorem doHtmAdj_may {w : Writer} {s : State} (adj : BitVec 32) (may : May w R.HTM_ADJ s) :
    Chip.Kept false [] [.time, .lap] s.chip (doHtmAdj w adj s.chip)
      ∧ (doHtmAdj w adj s.chip).time = { s.chip.time with adjRem := adj.toInt * 2 ^ 40 } := by
  obtain ⟨powered, running, allowed⟩ := may
  rw [doHtmAdj, Chip.put_of _ _ _ _ powered running allowed]
  exact ⟨(Chip.Kept.refl.updTime (by simp)).lapHtmIn (by simp), Chip.lapHtm_time _⟩

/-- HTM_STEP where nothing waits on herd time (R129). -/
theorem doHtmStep_accepted {w : Writer} {s : State} (may : May w R.HTM_STEP_CMD s) (free : s.chip.stepBlocked = false) :
    Chip.Kept false [] [.time] s.chip (doHtmStep w theKey true s.chip)
      ∧ (doHtmStep w theKey true s.chip).time = { s.chip.time with stepPend := true } := by
  obtain ⟨powered, running, allowed⟩ := may
  rw [doHtmStep, Chip.cmd_of _ _ _ _ powered running allowed, if_neg (by simp), if_neg (by simp [free])]
  exact ⟨Chip.Kept.refl.updTime (by simp), Chip.updTime_time ..⟩

/-- HTM_STEP where something does (R129). -/
theorem doHtmStep_refused {w : Writer} {s : State} (may : May w R.HTM_STEP_CMD s) (blocked : s.chip.stepBlocked = true) :
    Chip.Kept true [R.HTM_STAT] [] s.chip (doHtmStep w theKey true s.chip)
      ∧ (doHtmStep w theKey true s.chip).is R.HTM_STAT F.HTM_STAT_STEP_REFUSED = true := by
  obtain ⟨powered, running, allowed⟩ := may
  rw [doHtmStep, Chip.cmd_of _ _ _ _ powered running allowed, if_neg (by simp), if_pos blocked]
  refine ⟨(Chip.Kept.refl.flag (by simp)).raise (by decide), ?_⟩
  rw [Chip.is_raise _ _ _ _ _ (by decide) (by decide), Chip.is_flag _ _ _ _ (by decide) (by decide)]

theorem Chip.clocked_awake {s : State} {b : Nat} (awake : Awake b s) (g : Chip → Chip) : s.chip.clocked b g = g s.chip :=
  Chip.clocked_of _ _ _ awake.1 awake.2.1 awake.2.2

/-- STEP_APPLY of an accepted step (R129). -/
theorem doStepApply_pending {s : State} (awake : Awake P.HTM s) (pending : s.chip.time.stepPend = true) :
    Chip.Kept true [R.HTM_STAT] [.time] s.chip (doStepApply s.chip)
      ∧ (doStepApply s.chip).time = { s.chip.time with
        stepPend := false, ht := ((s.chip.time.ht + sgn 64 (s.chip.rd64 (R.HTM_STEP 0)) * 2 ^ 48) % (2 ^ 112 : Nat)).toNat }
      ∧ (doStepApply s.chip).is R.HTM_STAT F.HTM_STAT_VALID = false := by
  have told : ∀ e : Chip, Chip.Kept true [] [] e (e.raise P.HTM 5).lapHtm := fun e => (Chip.Kept.refl.raise (by decide)).lapHtm
  rw [doStepApply, Chip.clocked_awake awake, if_pos pending]
  refine ⟨((((Chip.Kept.refl.updTime (by simp)).updTime (by simp)).flag (by simp)).raise (by decide)).lapHtm, ?_, ?_⟩
  · rw [(told _).time_eq (by simp), Chip.flag_time, Chip.updTime_time, Chip.shiftHt, Chip.updTime_time]
  · rw [(told _).is_eq (fun _ => by decide) (by simp), Chip.is_flag _ _ _ _ (by decide) (by decide)]

/-! #### Discipline on PPS -/

/-- The capture units take a PPS_IN edge (R131). -/
def Chip.ppsCapture (c : Chip) : Chip :=
  forN 2 (fun k c =>
    if c.is (R.HTM_CAP_CFG k) F.HTM_CAP_CFG_EN && c.is (R.HTM_CAP_CFG k) F.HTM_CAP_CFG_PPS then
      if c.is (R.HTM_CAP_CFG k) F.HTM_CAP_CFG_FULL then c.flag (R.HTM_CAP_CFG k) F.HTM_CAP_CFG_LOST true
      else ((c.wr64 (R.HTM_CAP (2 * k)) c.htNs).flag (R.HTM_CAP_CFG k) F.HTM_CAP_CFG_FULL true).raise P.HTM (3 + k)
    else c) c

theorem Chip.ppsCapture_kept (c : Chip) : Chip.Kept true [] [] c c.ppsCapture := by
  refine forN_inv_lt (Chip.Kept true [] [] c) 2 _ c .refl fun k hk d kept => ?_
  obtain ⟨⟨cfg, -⟩, ⟨low, -⟩, ⟨high, -⟩⟩ := evKey_cap k hk
  exact .ite (.ite (kept.flagEv cfg) ((((kept.wrEv low).wrEv high).flagEv cfg).raise (by decide))) kept

theorem Chip.htmOffset_kept (c : Chip) (e : Int) (src : Nat) : Chip.Kept true [R.HTM_STAT] [] c (c.htmOffset e src) := by
  have shown : ∀ n, Chip.Kept true [R.HTM_STAT] [] c (((c.setF R.HTM_STAT F.HTM_STAT_OFFSET n).setF R.HTM_STAT F.HTM_STAT_SRC src).flag
      R.HTM_STAT F.HTM_STAT_HOLDOVER false) := fun n => ((Chip.Kept.refl.setF (by simp)).setF (by simp)).flag (by simp)
  exact .ite (((shown _).flag (by simp)).raise (by decide)) (shown _)

/-- A discipline offset shows its source and ends holdover (R128). -/
theorem Chip.htmOffset_stat (c : Chip) (e : Int) {src : Nat} (hs : src < 16) :
    (c.htmOffset e src).f R.HTM_STAT F.HTM_STAT_SRC = src ∧ (c.htmOffset e src).is R.HTM_STAT F.HTM_STAT_HOLDOVER = false := by
  unfold Chip.htmOffset
  dsimp only
  generalize c.setF R.HTM_STAT F.HTM_STAT_OFFSET _ = d
  have source : ((d.setF R.HTM_STAT F.HTM_STAT_SRC src).flag R.HTM_STAT F.HTM_STAT_HOLDOVER false).f R.HTM_STAT F.HTM_STAT_SRC = src := by
    rw [Chip.flag, Chip.f_setF_beside _ _ _ _ _ (by decide) (by decide), Chip.f_setF_of_lt _ _ _ _ (by decide) hs]
  have ended : ((d.setF R.HTM_STAT F.HTM_STAT_SRC src).flag R.HTM_STAT F.HTM_STAT_HOLDOVER false).is R.HTM_STAT F.HTM_STAT_HOLDOVER
      = false := Chip.is_flag _ _ _ _ (by decide) (by decide)
  generalize (d.setF R.HTM_STAT F.HTM_STAT_SRC src).flag R.HTM_STAT F.HTM_STAT_HOLDOVER false = x at source ended ⊢
  split
  · rw [Chip.f_raise _ _ _ _ _ (by decide) (by decide), Chip.is_raise _ _ _ _ _ (by decide) (by decide), Chip.flag,
      Chip.f_setF_beside _ _ _ _ _ (by decide) (by decide), Chip.is_setF_beside _ _ _ _ _ (by decide) (by decide)]
    exact ⟨source, ended⟩
  · exact ⟨source, ended⟩

/-- The rate and the adjustment that a PPS_IN edge writes, both free values (log entry 13, DESIGN CHOICE). -/
def Chip.ppsLaw (c : Chip) : Chip := ((c.freeW.2.freeW.2.setRate c.freeW.1.toInt).setAdj c.freeW.2.freeW.1.toInt).lapHtm

theorem Chip.ppsLaw_kept (c : Chip) : Chip.Kept true [R.HTM_RATE] [.time, .free] c c.ppsLaw :=
  ((((Chip.Kept.refl.freeW (by simp)).freeW (by simp)).wrN (by simp)).updTime (by simp)).lapHtm

theorem Chip.ppsLaw_time (c : Chip) : c.ppsLaw.time = { c.time with adjRem := (Config.freeWord (c.freeCtr + 1)).toInt * 2 ^ 40 } :=
  Chip.lapHtm_time _

theorem Chip.ppsLaw_rate (c : Chip) :
    c.ppsLaw.rd R.HTM_RATE = wd (unsgn 32 (clampI (-549755814) 549755814 (Config.freeWord c.freeCtr).toInt)) := by
  have adjusted : ∀ (e : Chip) (z : Int), Chip.Kept true [] [.time] e (e.setAdj z).lapHtm := fun e z =>
    (Chip.Kept.refl.updTime (by simp)).lapHtm
  rw [Chip.ppsLaw, (adjusted _ _).regs _ (fun _ => by decide) (by simp)]
  exact Chip.rd_wr_same ..

/-- PPS_IN_EDGE of the selected polarity within 100 ms, at a bellwether on PPS (R123, R125). -/
theorem doPpsInEdge_eq {s : State} {falling : Bool} (awake : Awake P.HTM s)
    (pol : (falling != s.chip.is R.HTM_CTL F.HTM_CTL_PPS_POL) = false)
    (near : s.chip.ppsErr.natAbs ≤ 10 ^ 8 * 2 ^ 48) (bell : s.chip.is R.HTM_STAT F.HTM_STAT_BELLWETHER = true)
    (src : s.chip.f R.HTM_CTL F.HTM_CTL_DISC_SRC = 2) :
    doPpsInEdge falling s.chip = (s.chip.ppsCapture.htmOffset s.chip.ppsErr 2).ppsLaw := by
  have captured := s.chip.ppsCapture_kept
  have disciplines : (s.chip.ppsCapture.is R.HTM_STAT F.HTM_STAT_BELLWETHER
      && decide (s.chip.ppsCapture.f R.HTM_CTL F.HTM_CTL_DISC_SRC = 2)) = true := by
    rw [captured.is_eq (fun _ => by decide) (by simp), captured.f_eq (fun _ => by decide) (by simp), bell, src]
    rfl
  rw [doPpsInEdge, Chip.clocked_awake awake, pol, if_neg (by simp)]
  exact (if_neg (Nat.not_lt.2 near)).trans (if_pos disciplines)

theorem doPpsInEdge_disciplines {s : State} {falling : Bool} (awake : Awake P.HTM s)
    (pol : (falling != s.chip.is R.HTM_CTL F.HTM_CTL_PPS_POL) = false) (near : s.chip.ppsErr.natAbs ≤ 10 ^ 8 * 2 ^ 48)
    (bell : s.chip.is R.HTM_STAT F.HTM_STAT_BELLWETHER = true) (src : s.chip.f R.HTM_CTL F.HTM_CTL_DISC_SRC = 2) :
    (doPpsInEdge falling s.chip).f R.HTM_STAT F.HTM_STAT_SRC = 2 ∧ (doPpsInEdge falling s.chip).is R.HTM_STAT F.HTM_STAT_HOLDOVER = false
      ∧ Chip.Kept true [R.HTM_STAT, R.HTM_RATE] [.time, .free] s.chip (doPpsInEdge falling s.chip)
      ∧ (doPpsInEdge falling s.chip).rd R.HTM_RATE
        = wd (unsgn 32 (clampI (-549755814) 549755814 (Config.freeWord s.chip.freeCtr).toInt))
      ∧ (doPpsInEdge falling s.chip).time
        = { s.chip.time with adjRem := (Config.freeWord (s.chip.freeCtr + 1)).toInt * 2 ^ 40 } := by
  have captured := s.chip.ppsCapture_kept
  have offset := s.chip.ppsCapture.htmOffset_kept s.chip.ppsErr 2
  obtain ⟨source, ended⟩ := s.chip.ppsCapture.htmOffset_stat s.chip.ppsErr (src := 2) (by decide)
  have free : (s.chip.ppsCapture.htmOffset s.chip.ppsErr 2).freeCtr = s.chip.freeCtr :=
    (offset.free_eq (by simp)).trans (captured.free_eq (by simp))
  have time : (s.chip.ppsCapture.htmOffset s.chip.ppsErr 2).time = s.chip.time :=
    (offset.time_eq (by simp)).trans (captured.time_eq (by simp))
  have shown : Chip.Kept true [R.HTM_STAT, R.HTM_RATE] [.time, .free] s.chip (s.chip.ppsCapture.htmOffset s.chip.ppsErr 2) :=
    (captured.mono (by simp) (by simp)).trans (offset.mono (by simp) (by simp))
  rw [doPpsInEdge_eq awake pol near bell src]
  generalize s.chip.ppsCapture.htmOffset s.chip.ppsErr 2 = d at *
  have law := d.ppsLaw_kept
  refine ⟨(law.f_eq (fun _ => by decide) (by decide) _).trans source, (law.is_eq (fun _ => by decide) (by decide) _).trans ended,
    shown.trans (law.mono (by simp) (by simp)), ?_, ?_⟩
  · rw [d.ppsLaw_rate, free]
  · rw [d.ppsLaw_time, free, time]

/-! #### PPS_OUT and holdover -/

/-- PPS_OUT_PULSE of an enabled PPS_OUT (R130). -/
theorem doPpsOutPulse_enabled {s : State} (awake : Awake P.HTM s) (enabled : s.chip.is R.HTM_PPS_CFG F.HTM_PPS_CFG_EN = true) :
    Chip.Kept false [] [.time] s.chip (doPpsOutPulse s.chip) ∧ (doPpsOutPulse s.chip).time = { s.chip.time with ppsOut := true } := by
  rw [doPpsOutPulse, Chip.clocked_awake awake, if_pos enabled]
  exact ⟨Chip.Kept.refl.updTime (by simp), Chip.updTime_time ..⟩

/-- PPS_OUT_PULSE_END (R130). -/
theorem doPpsOutPulseEnd_awake {s : State} (awake : Awake P.HTM s) :
    Chip.Kept false [] [.time] s.chip (doPpsOutPulseEnd s.chip)
      ∧ (doPpsOutPulseEnd s.chip).time = { s.chip.time with ppsOut := false } := by
  rw [doPpsOutPulseEnd, Chip.clocked_awake awake]
  exact ⟨Chip.Kept.refl.updTime (by simp), Chip.updTime_time ..⟩

/-- DISCIPLINE_HOLDOVER of a herd time that is disciplined (R128, R482). -/
theorem doDisciplineHoldover_enters {s : State} (awake : Awake P.HTM s) (before : s.chip.is R.HTM_STAT F.HTM_STAT_HOLDOVER = false)
    (disciplined : s.chip.f R.HTM_CTL F.HTM_CTL_DISC_SRC ≠ 0) :
    Chip.Kept true [R.HTM_STAT, R.FAB_STAT] [] s.chip (doDisciplineHoldover s.chip)
      ∧ (doDisciplineHoldover s.chip).is R.HTM_STAT F.HTM_STAT_HOLDOVER = true
      ∧ (s.chip.is R.HTM_STAT F.HTM_STAT_BELLWETHER = false →
        (doDisciplineHoldover s.chip).is R.FAB_STAT F.FAB_STAT_TIME_OK = false) := by
  have held : Chip.Kept true [R.HTM_STAT, R.FAB_STAT] [] s.chip ((s.chip.flag R.HTM_STAT F.HTM_STAT_HOLDOVER true).raise P.HTM 1) :=
    (Chip.Kept.refl.flag (by simp)).raise (by decide)
  have shown : ((s.chip.flag R.HTM_STAT F.HTM_STAT_HOLDOVER true).raise P.HTM 1).is R.HTM_STAT F.HTM_STAT_HOLDOVER = true := by
    rw [Chip.is_raise _ _ _ _ _ (by decide) (by decide), Chip.is_flag _ _ _ _ (by decide) (by decide)]
  have role : ((s.chip.flag R.HTM_STAT F.HTM_STAT_HOLDOVER true).raise P.HTM 1).is R.HTM_STAT F.HTM_STAT_BELLWETHER
      = s.chip.is R.HTM_STAT F.HTM_STAT_BELLWETHER := by
    rw [Chip.is_raise _ _ _ _ _ (by decide) (by decide), Chip.is_flag_beside _ _ _ _ _ (by decide) (by decide)]
  rw [doDisciplineHoldover, Chip.clocked_awake awake, if_neg (by simp [before, disciplined])]
  dsimp only
  rw [role]
  generalize (s.chip.flag R.HTM_STAT F.HTM_STAT_HOLDOVER true).raise P.HTM 1 = d at held shown ⊢
  have lost : Chip.Kept true [R.FAB_STAT] [] d ((d.flag R.FAB_STAT F.FAB_STAT_TIME_OK false).raise P.FAB 5) :=
    (Chip.Kept.refl.flag (by simp)).raise (by decide)
  refine ⟨.ite held (held.trans (lost.mono (by simp) (by simp))),
    Chip.is_ite shown ((lost.is_eq (fun _ => by decide) (by decide) _).trans shown), fun member => ?_⟩
  rw [member, if_neg (by simp), Chip.is_raise _ _ _ _ _ (by decide) (by decide), Chip.is_flag _ _ _ _ (by decide) (by decide)]

/-- Settles O11: each clause is what the command's lemma above says of the chip; the memory and the queue stay beside it. -/
theorem herdTimeCommands : Obligations.HerdTimeCommands := by
  refine ⟨?_, ?_, ?_, ?_, ?_, ?_, ?_, ?_⟩
  · intro w adj s may
    obtain ⟨kept, adjusted⟩ := doHtmAdj_may adj may
    exact ⟨_, rfl, ⟨⟨rfl, rfl⟩, kept⟩, adjusted⟩
  · intro w s may free
    obtain ⟨kept, accepted⟩ := doHtmStep_accepted may free
    exact ⟨_, rfl, ⟨⟨rfl, rfl⟩, kept⟩, accepted⟩
  · intro w s may blocked
    obtain ⟨kept, refused⟩ := doHtmStep_refused may blocked
    exact ⟨_, rfl, ⟨⟨rfl, rfl⟩, kept⟩, refused⟩
  · intro s awake pending
    obtain ⟨kept, applied⟩ := doStepApply_pending awake pending
    exact ⟨_, rfl, ⟨⟨rfl, rfl⟩, kept⟩, applied⟩
  · intro falling s awake pol near bell src
    obtain ⟨source, ended, kept, written⟩ := doPpsInEdge_disciplines awake pol near bell src
    exact ⟨_, rfl, source, ended, ⟨⟨rfl, rfl⟩, kept⟩, written⟩
  · intro s awake enabled
    obtain ⟨kept, active⟩ := doPpsOutPulse_enabled awake enabled
    exact ⟨_, rfl, ⟨⟨rfl, rfl⟩, kept⟩, active⟩
  · intro s awake
    obtain ⟨kept, inactive⟩ := doPpsOutPulseEnd_awake awake
    exact ⟨_, rfl, ⟨⟨rfl, rfl⟩, kept⟩, inactive⟩
  · intro s awake before disciplined
    obtain ⟨kept, entered⟩ := doDisciplineHoldover_enters awake before disciplined
    exact ⟨_, rfl, ⟨⟨rfl, rfl⟩, kept⟩, entered⟩

/-! ### Alarms and the calendar's value -/

/-- The registers of the two alarms. -/
def alarmKeys : List Nat := [R.RTC_ALARM_LO 0, R.RTC_ALARM_HI 0, R.RTC_ALARM_LO 1, R.RTC_ALARM_HI 1]

theorem alarm_mem_alarmKeys : ∀ n < 2, R.RTC_ALARM_LO n ∈ alarmKeys ∧ R.RTC_ALARM_HI n ∈ alarmKeys := by decide

/-- Alarms that fire change the alarms alone, beside their events (R139). -/
theorem Chip.Kept.alarms {ks : List Nat} {ps : List Part} {c d : Chip} (h : Chip.Kept true ks ps c d) (hk : alarmKeys ⊆ ks) {old : Nat} :
    Chip.Kept true ks ps c (d.alarms old) := by
  refine forN_inv_lt (Chip.Kept true ks ps c) 2 _ d h fun n hn e he => .ite ?_ he
  obtain ⟨low, high⟩ := alarm_mem_alarmKeys n hn
  exact ((he.wrN (hk low)).setF (hk high)).raise (by decide)

theorem Chip.calLoad_kept (c : Chip) (sec sub : Nat) : Chip.Kept true alarmKeys [.time] c (c.calLoad sec sub) :=
  ((Chip.Kept.refl.updTime (by simp)).raise (by decide)).alarms fun _ hm => hm

/-- The calendar takes the value that it is loaded with. -/
theorem Chip.calLoad_time (c : Chip) (sec sub : Nat) :
    (c.calLoad sec sub).time = { c.time with calSec := sec % 2 ^ 40, calSub := sub % 2 ^ 15 } := by
  have behind : ∀ e : Chip, Chip.Kept true alarmKeys [] e ((e.raise P.RTC 3).alarms c.time.calSec) := fun e =>
    (Chip.Kept.refl.raise (by decide)).alarms fun _ hm => hm
  rw [Chip.calLoad, (behind _).time_eq (by simp), Chip.updTime_time]

theorem Chip.calTicks_kept (c : Chip) (z : Int) : Chip.Kept true alarmKeys [.time] c (c.calTicks z) :=
  (Chip.Kept.refl.updTime (by simp)).alarms fun _ hm => hm

/-- The calendar in ticks. -/
def TimeSt.ticks (t : TimeSt) : Nat := t.calSec * 2 ^ 15 + t.calSub

/-- The calendar gains ticks, modulo its 55 bits (R134). -/
theorem Chip.calTicks_ticks (c : Chip) (z : Int) : (c.calTicks z).time.ticks = (((c.time.ticks : Nat) + z) % (2 ^ 55 : Nat)).toNat := by
  have behind : ∀ e : Chip, Chip.Kept true alarmKeys [] e (e.alarms c.time.calSec) := fun e => Chip.Kept.refl.alarms fun _ hm => hm
  rw [Chip.calTicks, (behind _).time_eq (by simp), Chip.updTime_time]
  exact Nat.div_add_mod' _ _

/-! ### What tasks of the survival domain leave of the calendar and the store -/

/-- From `c` to `d` tasks have run: the calendar stands as it did but for a calibration of its oscillator, RTC.STAT but for ON_RC, and so do
the temperature and VSTORE at rest; where VSTORE shown is that at rest, it still is. -/
structure Chip.TaskKept (c d : Chip) : Prop where
  mode : d.mode = c.mode
  time : d.time = { c.time with rcCal := d.time.rcCal }
  temp : d.pow.temp = c.pow.temp
  rest : d.pow.rest = c.pow.rest
  stat : ∀ x : Fld, x.hi < 30 ∨ 30 < x.lo → x.hi < 32 → d.f R.RTC_STAT x = c.f R.RTC_STAT x
  shown : c.f R.STORE_STAT F.STORE_STAT_VSTORE = c.pow.rest → d.f R.STORE_STAT F.STORE_STAT_VSTORE = d.pow.rest

namespace Chip.TaskKept
variable {c d e : Chip}

theorem refl : c.TaskKept c := ⟨rfl, rfl, rfl, rfl, fun _ _ _ => rfl, id⟩

theorem trans (h : c.TaskKept d) (g : d.TaskKept e) : c.TaskKept e where
  mode := g.mode.trans h.mode
  time := by rw [g.time, h.time]
  temp := g.temp.trans h.temp
  rest := g.rest.trans h.rest
  stat x hx h32 := (g.stat x hx h32).trans (h.stat x hx h32)
  shown := g.shown ∘ h.shown

theorem ite {p : Prop} [Decidable p] (h : c.TaskKept d) (g : c.TaskKept e) : c.TaskKept (if p then d else e) := by split <;> assumption

/-- A frame beside the calendar, the store and the survival domain's own state. -/
theorem keep {ks : List Nat} (h : c.TaskKept d) (kept : Chip.Kept true ks [.mtr] d e) (hr : R.RTC_STAT ∉ ks) (hs : R.STORE_STAT ∉ ks) :
    c.TaskKept e := by
  have pow : e.pow = d.pow := kept.pow_eq (by simp)
  have time : e.time = d.time := kept.time_eq (by simp)
  refine h.trans ⟨kept.mode_eq (by simp), by rw [time], by rw [pow], by rw [pow], fun x _ _ => kept.f_eq (fun _ => by decide) hr x,
    fun shown => ?_⟩
  rw [kept.f_eq (fun _ => by decide) hs, pow, shown]

/-- A change of the survival domain's own state beside the temperature and VSTORE at rest. -/
theorem updPow (h : c.TaskKept d) {g : PowSt → PowSt} (ht : (g d.pow).temp = d.pow.temp) (hr : (g d.pow).rest = d.pow.rest) :
    c.TaskKept (d.updPow g) :=
  h.trans ⟨Chip.updPow_mode .., by rw [Chip.updPow_time], by rw [Chip.updPow_pow, ht], by rw [Chip.updPow_pow, hr],
    fun _ _ _ => Chip.updPow_f .., fun shown => by rw [Chip.updPow_f, shown, Chip.updPow_pow, hr]⟩

/-- ON_RC of RTC.STAT. -/
theorem onRc (h : c.TaskKept d) {b : Bool} : c.TaskKept (d.flag R.RTC_STAT F.RTC_STAT_ON_RC b) := by
  refine h.trans ⟨Chip.flag_mode .., by rw [Chip.flag_time], by rw [Chip.flag_pow], by rw [Chip.flag_pow], fun x hx h32 => ?_,
    fun shown => ?_⟩
  · exact Chip.f_setF_beside _ _ _ _ _ h32 hx
  · rw [Chip.flag_pow, ← shown]
    exact Chip.f_setF_ne _ _ _ _ _ _ (by decide)

/-- A calibration of the calendar's oscillator starts. -/
theorem calibrate (h : c.TaskKept d) : c.TaskKept (d.updTime fun t => { t with rcCal := true }) :=
  h.trans ⟨Chip.updTime_mode .., by rw [Chip.updTime_time], by rw [Chip.updTime_pow], by rw [Chip.updTime_pow],
    fun _ _ _ => Chip.updTime_f .., fun shown => by rw [Chip.updTime_f, Chip.updTime_pow, shown]⟩

theorem survShow (h : c.TaskKept d) : c.TaskKept d.survShow := by
  unfold Chip.survShow
  extract_lets bcn sub enters e src e'
  have shown : c.TaskKept e :=
    h.keep (ks := [R.SURV_STAT]) ((Chip.Kept.refl.setF (by simp)).setF (by simp)) (by decide) (by decide)
  have timed : c.TaskKept e' := ite shown.calibrate shown
  clear_value e'
  split
  · exact timed.onRc
  · exact timed.onRc
  · exact timed.onRc
  · exact timed

theorem coCheck (h : c.TaskKept d) : c.TaskKept d.coCheck := by
  have stopped : c.TaskKept (d.updPow fun p => { p with co := false }) := h.updPow rfl rfl
  exact ite (stopped.keep (ks := [R.MTR_CO_STOP_SEC 0, R.MTR_CO_STAT 0]) (((Chip.Kept.refl.wrN (by simp)).flag (by simp)).updMtr (by simp))
    (by decide) (by decide)) h

end Chip.TaskKept

/-- VSTORE at rest as STORE.STAT shows it, before what depends on its level follows (R595). -/
def Chip.storeRest (c : Chip) (mv : Nat) : Chip := (c.storeShow mv).updPow fun p => { p with rest := mv }

theorem Chip.storeCompare_eq (c : Chip) (mv : Nat) : c.storeCompare mv =
    (((c.storeRest mv).wrN R.STORE_GAUGE (min ((c.storeRest mv).eAv mv) 0xFFFFFFFF)).coCheck).survShow := rfl

theorem Chip.storeShow_kept (c : Chip) (mv : Nat) : Chip.Kept true [R.STORE_STAT] [] c (c.storeShow mv) :=
  Chip.Kept.refl.storeShow (by simp)

/-- STORE.STAT shows the measured voltage. -/
theorem Chip.vstore_storeShow (c : Chip) {mv : Nat} (hmv : mv < 2 ^ 16) :
    (c.storeShow mv).f R.STORE_STAT F.STORE_STAT_VSTORE = mv := by
  unfold Chip.storeShow
  rw [(Chip.Kept.refl.raiseIf (ks := []) (ps := []) (by decide)).f_eq (fun _ => by decide) (by simp),
    Chip.f_setF_beside _ _ _ _ _ (by decide) (by decide), Chip.f_setF_of_lt _ _ _ _ (by decide) hmv]

/-- What depends on the level of VSTORE. -/
theorem Chip.taskKept_storeCompare (c : Chip) (mv : Nat) : (c.storeRest mv).TaskKept (c.storeCompare mv) := by
  rw [Chip.storeCompare_eq]
  exact (Chip.TaskKept.refl.keep (ks := [R.STORE_GAUGE]) (Chip.Kept.refl.wrN (by simp)) (by decide) (by decide)).coCheck.survShow

namespace Chip.TaskKept
variable {c d e : Chip}

/-- VSTORE at rest compared once more. -/
theorem storeCompare (h : c.TaskKept d) : c.TaskKept (d.storeCompare d.vstore) := by
  have kept := d.storeShow_kept d.vstore
  have pow : (d.storeShow d.vstore).pow = d.pow := kept.pow_eq (by simp)
  have time : (d.storeShow d.vstore).time = d.time := kept.time_eq (by simp)
  have rested : d.TaskKept (d.storeRest d.vstore) := by
    refine ⟨?_, ?_, ?_, ?_, fun x _ _ => ?_, fun shown => ?_⟩
    · rw [Chip.storeRest, Chip.updPow_mode, kept.mode_eq (by simp)]
    · rw [Chip.storeRest, Chip.updPow_time, time]
    · rw [Chip.storeRest, Chip.updPow_pow, pow]
    · rw [Chip.storeRest, Chip.updPow_pow, Chip.vstore]
    · rw [Chip.storeRest, Chip.updPow_f, kept.f_eq (fun _ => by decide) (by decide)]
    · have room : d.vstore < 2 ^ 16 := shown.symm.trans_lt (Nat.mod_lt _ (by decide))
      rw [Chip.storeRest, Chip.updPow_f, Chip.updPow_pow, Chip.vstore_storeShow _ room]
  exact h.trans (rested.trans (d.taskKept_storeCompare d.vstore))

theorem portStart (h : c.TaskKept d) {kind src left : Nat} : c.TaskKept (d.portStart kind src left) := by
  have counted : c.TaskKept (d.setF R.SURV_STAT F.SURV_STAT_BCN_SEQ (d.f R.SURV_STAT F.SURV_STAT_BCN_SEQ + 1)) :=
    h.keep (ks := [R.SURV_STAT]) (Chip.Kept.refl.setF (by simp)) (by decide) (by decide)
  exact (counted.updPow rfl rfl).survShow

theorem beacon (h : c.TaskKept d) {kind src left : Nat} : c.TaskKept (d.beacon kind src left) := by
  have compared := h.storeCompare
  unfold Chip.beacon
  dsimp only
  generalize d.storeCompare d.vstore = e at compared ⊢
  split
  · exact compared.portStart
  · exact (compared.keep (ks := [R.SURV_RES]) ((Chip.Kept.refl.setF (by simp)).incSat (by simp)) (by decide) (by decide)).updPow rfl rfl

theorem wakeReq (h : c.TaskKept d) {src : Nat} : c.TaskKept (d.wakeReq src) := by
  have raised : c.TaskKept (d.raise P.SURV 2) :=
    h.keep (ks := []) (Chip.Kept.refl.raise (by decide)) (by simp) (by simp)
  exact ite (ite raised.beacon (raised.updPow rfl rfl)) raised

theorem alarmWakes (h : c.TaskKept d) : c.TaskKept (e.alarmWakes d) :=
  ite h (forN_inv (Chip.TaskKept c) 2 _ d h fun _ _ hx => ite hx.wakeReq hx)

end Chip.TaskKept

/-- Outside SURVIVAL an alarm is no wake request (R139). -/
theorem Chip.alarmWakes_awake {c d : Chip} (h : d.mode ≠ .survival) : c.alarmWakes d = d := if_pos h

/-! ### What the commands of the calendar do (O12) -/

/-- RTC_SET without discipline (R138). -/
theorem doRtcSet_free {w : Writer} {s : State} (may : May w R.RTC_CMD s) (free : s.chip.calDisc = false) :
    Chip.Kept false [R.RTC_STAT] [.time] s.chip (doRtcSet w theKey s.chip)
      ∧ (doRtcSet w theKey s.chip).time = { s.chip.time with setPend := true }
      ∧ (doRtcSet w theKey s.chip).is R.RTC_STAT F.RTC_STAT_BUSY = true := by
  obtain ⟨powered, running, allowed⟩ := may
  rw [doRtcSet, Chip.cmd_of _ _ _ _ powered running allowed, Chip.rtcSet, if_neg (by simp [free])]
  exact ⟨(Chip.Kept.refl.updTime (by simp)).flag (by simp), Chip.flag_time .., Chip.is_flag _ _ _ _ (by decide) (by decide)⟩

/-- RTC_SET under discipline (R138). -/
theorem doRtcSet_disciplined {w : Writer} {s : State} (may : May w R.RTC_CMD s) (disciplined : s.chip.calDisc = true) :
    doRtcSet w theKey s.chip = s.chip.perr R.RTC_CMD .state w.ini.code := by
  obtain ⟨powered, running, allowed⟩ := may
  rw [doRtcSet, Chip.cmd_of _ _ _ _ powered running allowed]
  exact if_pos disciplined

/-- RTC_CAL_RC (R136). -/
theorem doRtcCalRc_may {w : Writer} {s : State} (may : May w R.RTC_CMD s) :
    Chip.Kept false [] [.time] s.chip (doRtcCalRc w theKey s.chip)
      ∧ (doRtcCalRc w theKey s.chip).time = { s.chip.time with rcCal := true } := by
  obtain ⟨powered, running, allowed⟩ := may
  rw [doRtcCalRc, Chip.cmd_of _ _ _ _ powered running allowed]
  exact ⟨Chip.Kept.refl.updTime (by simp), Chip.updTime_time ..⟩

/-- RC_CAL_DONE of a calibration in progress (R136). -/
theorem doRcCalDone_calibrating {c : Chip} (trim : BitVec 10) (alive : c.mode ≠ .off) (calibrating : c.time.rcCal = true) :
    Chip.Kept false [R.RTC_TRIM] [.time] c (doRcCalDone trim c) ∧ (doRcCalDone trim c).time = { c.time with rcCal := false }
      ∧ (doRcCalDone trim c).f R.RTC_TRIM F.RTC_TRIM_RC = trim.toNat := by
  rw [doRcCalDone, if_pos (by simp [Chip.survAlive, alive, calibrating])]
  exact ⟨(Chip.Kept.refl.updTime (by simp)).setF (by simp), Chip.setF_time .., Chip.f_setF_of_lt _ _ _ _ (by decide) trim.isLt⟩

/-! #### RTC.SET -/

/-- The pending SET is taken (R138). -/
def Chip.setTaken (c : Chip) : Chip := (c.updTime fun t => { t with setPend := false }).flag R.RTC_STAT F.RTC_STAT_BUSY false

/-- The calendar is loaded from RTC.SET (R138). -/
def Chip.setLoad (c : Chip) : Chip :=
  c.setTaken.calLoad (c.rdN R.RTC_SET_LO + 2 ^ 32 * c.f R.RTC_SET_HI F.RTC_SEC_HI_SEC_X) (c.f R.RTC_SET_HI F.RTC_SEC_HI_SUB)

/-- RTC_SET_APPLY of a pending SET: the load, and the alarms that wake. -/
theorem doRtcSetApply_eq {c : Chip} (alive : c.mode ≠ .off) (pending : c.time.setPend = true) :
    doRtcSetApply c = c.setTaken.alarmWakes c.setLoad := by
  have low : c.setTaken.rdN R.RTC_SET_LO = c.rdN R.RTC_SET_LO := by
    rw [Chip.rdN, Chip.setTaken, Chip.flag, Chip.rd_setF_ne _ _ _ _ _ (by decide), Chip.updTime_rd, Chip.rdN]
  rw [doRtcSetApply, if_pos (by simp [Chip.survAlive, alive, pending]), Chip.setLoad, ← low]
  rfl

/-- What the load leaves: the calendar and the alarms alone have changed, and BUSY is 0. -/
theorem Chip.setLoad_spec (c : Chip) :
    Chip.Kept true (R.RTC_STAT :: alarmKeys) [.time] c c.setLoad
      ∧ c.setLoad.time = { c.time with
        setPend := false, calSec := (c.rdN R.RTC_SET_LO + 2 ^ 32 * c.f R.RTC_SET_HI F.RTC_SEC_HI_SEC_X) % 2 ^ 40,
        calSub := c.f R.RTC_SET_HI F.RTC_SEC_HI_SUB % 2 ^ 15 }
      ∧ c.setLoad.is R.RTC_STAT F.RTC_STAT_BUSY = false := by
  have taken : Chip.Kept true (R.RTC_STAT :: alarmKeys) [.time] c c.setTaken := (Chip.Kept.refl.updTime (by simp)).flag (by simp)
  have load : ∀ sec sub, Chip.Kept true alarmKeys [.time] c.setTaken (c.setTaken.calLoad sec sub) := c.setTaken.calLoad_kept
  refine ⟨taken.trans ((load _ _).mono (List.subset_cons_self _ _) (by simp)), ?_, ?_⟩
  · rw [Chip.setLoad, Chip.calLoad_time, Chip.setTaken, Chip.flag_time, Chip.updTime_time]
  · rw [Chip.setLoad, (load _ _).is_eq (fun _ => by decide) (by decide), Chip.setTaken, Chip.is_flag _ _ _ _ (by decide) (by decide)]

/-- RTC_SET_APPLY outside SURVIVAL (R138). -/
theorem doRtcSetApply_awake {c : Chip} (alive : c.mode ≠ .off) (awake : c.mode ≠ .survival) (pending : c.time.setPend = true) :
    doRtcSetApply c = c.setLoad := by
  rw [doRtcSetApply_eq alive pending, Chip.alarmWakes_awake]
  rwa [c.setLoad_spec.1.mode_eq (by simp)]

/-- RTC_SET_APPLY in SURVIVAL, where an alarm that fires is a wake request (R138, R139). -/
theorem doRtcSetApply_survival {c : Chip} (survival : c.mode = .survival) (pending : c.time.setPend = true) :
    c.setLoad.TaskKept (doRtcSetApply c) := by
  rw [doRtcSetApply_eq (by simp [survival]) pending]
  exact Chip.TaskKept.refl.alarmWakes

/-- A flag of RTC.STAT beside ON_RC. -/
theorem Chip.TaskKept.is_stat {c d : Chip} (h : c.TaskKept d) {x : Fld} (hx : x.hi < 30 ∨ 30 < x.lo) (h32 : x.hi < 32) :
    d.is R.RTC_STAT x = c.is R.RTC_STAT x := by
  rw [Chip.is, Chip.is, h.stat x hx h32]

/-! #### The compensation window -/

theorem Chip.tcomp_kept (c : Chip) (t : Int) : Chip.Kept true [] [.free] c (c.tcomp t).2 := by
  unfold Chip.tcomp
  dsimp only
  split
  · exact .refl
  · split
    · exact .refl
    · split
      · exact .refl
      · split
        · exact .refl
        · exact Chip.Kept.refl.freeB (by simp)

/-- The correction at temperature `t` from the fields `w` of the table's points; `up` takes the higher of two ticks between which it lies
(R134; log entry 14, DESIGN CHOICE). -/
def tcompValue (w : Nat → Fld → Nat) (up : Bool) (t : Int) : Int :=
  let tp := fun n => sgn 8 (w n F.RTC_TCOMP_TEMP)
  let cr := fun n => sgn 16 (w n F.RTC_TCOMP_CORR)
  if t ≤ tp 0 then cr 0
  else match (List.range 7).find? fun n => decide (t ≤ tp (n + 1)) with
    | none => cr 7
    | some n =>
      let d := tp (n + 1) - tp n
      let x := (cr (n + 1) - cr n) * (t - tp n)
      if d ≤ 0 then cr (n + 1) else if x % d = 0 then cr n + x / d else cr n + x / d + (if up then 1 else 0)

theorem Chip.tcomp_value (c : Chip) (t : Int) :
    (c.tcomp t).1 = tcompValue (fun n x => c.f (R.RTC_TCOMP n) x) (Config.freeBool c.freeCtr) t := by
  dsimp only [Chip.tcomp, tcompValue, Chip.freeB]
  generalize List.find? _ _ = point
  cases point with
  | none => simp only [apply_ite Prod.fst]
  | some n => simp only [apply_ite Prod.fst]

/-- The correction depends on the table and on the next free choice alone. -/
theorem Chip.tcomp_congr {c d : Chip} (table : ∀ n, d.rd (R.RTC_TCOMP n) = c.rd (R.RTC_TCOMP n)) (free : d.freeCtr = c.freeCtr)
    (t : Int) : (d.tcomp t).1 = (c.tcomp t).1 := by
  simp only [Chip.tcomp_value, Chip.f, table, free]

/-- The temperature of a compensation window is shown (R134). -/
def Chip.tempShow (c : Chip) (temp : BitVec 8) : Chip :=
  (c.updPow fun p => { p with temp := temp }).setF R.RTC_STAT F.RTC_STAT_TEMP temp.toNat

theorem Chip.tempShow_kept (c : Chip) (temp : BitVec 8) : Chip.Kept true [R.RTC_STAT] [.pow] c (c.tempShow temp) :=
  (Chip.Kept.refl.updPow (by simp)).setF (by simp)

theorem Chip.tempShow_pow (c : Chip) (temp : BitVec 8) : (c.tempShow temp).pow = { c.pow with temp := temp } :=
  (Chip.setF_pow ..).trans (Chip.updPow_pow ..)

theorem Chip.tempShow_temp (c : Chip) (temp : BitVec 8) : (c.tempShow temp).f R.RTC_STAT F.RTC_STAT_TEMP = temp.toNat :=
  Chip.f_setF_of_lt _ _ _ _ (by decide) temp.isLt

/-- The calendar as a compensation window moves it: by the correction and the ageing (R134; log entry 15, DESIGN CHOICE). -/
def Chip.compensated (c : Chip) (temp : BitVec 8) : Chip :=
  ((c.tempShow temp).tcomp temp.toInt).2.calTicks (((c.tempShow temp).tcomp temp.toInt).1
    + ((c.tempShow temp).tcomp temp.toInt).2.fs R.RTC_TRIM F.RTC_TRIM_AGING)

/-- TCOMP_WINDOW with TCOMP set: the move, and the alarms that wake. -/
theorem doTcompWindow_eq {c : Chip} (temp : BitVec 8) (alive : c.mode ≠ .off) (on : c.is R.RTC_CTL F.RTC_CTL_TCOMP = true) :
    doTcompWindow temp c = ((c.tempShow temp).tcomp temp.toInt).2.alarmWakes (c.compensated temp) :=
  if_pos (by simp [Chip.survAlive, alive, on])

theorem Chip.compensated_spec (c : Chip) (temp : BitVec 8) :
    Chip.Kept true (R.RTC_STAT :: alarmKeys) [.time, .free, .pow] c (c.compensated temp)
      ∧ (c.compensated temp).f R.RTC_STAT F.RTC_STAT_TEMP = temp.toNat
      ∧ (c.compensated temp).pow = { c.pow with temp := temp }
      ∧ (c.compensated temp).time.ticks
        = (((c.time.ticks : Nat) + (c.tcomp temp.toInt).1 + c.fs R.RTC_TRIM F.RTC_TRIM_AGING) % (2 ^ 55 : Nat)).toNat := by
  have shown := c.tempShow_kept temp
  have corrected := (c.tempShow temp).tcomp_kept temp.toInt
  have moved : ∀ z, Chip.Kept true alarmKeys [.time] ((c.tempShow temp).tcomp temp.toInt).2
      (((c.tempShow temp).tcomp temp.toInt).2.calTicks z) := Chip.calTicks_kept _
  have correction : ((c.tempShow temp).tcomp temp.toInt).1 = (c.tcomp temp.toInt).1 :=
    Chip.tcomp_congr (fun n => (Chip.rd_setF_ne _ _ _ _ _ (by simp only [R.RTC_STAT, R.RTC_TCOMP]; omega)).trans (Chip.updPow_rd ..))
      (shown.free_eq (by simp)) _
  have ageing : ((c.tempShow temp).tcomp temp.toInt).2.fs R.RTC_TRIM F.RTC_TRIM_AGING = c.fs R.RTC_TRIM F.RTC_TRIM_AGING := by
    rw [Chip.fs, Chip.fs, corrected.f_eq (fun _ => by decide) (by simp), shown.f_eq (fun _ => by decide) (by decide)]
  have time : ((c.tempShow temp).tcomp temp.toInt).2.time = c.time := (corrected.time_eq (by simp)).trans (shown.time_eq (by simp))
  unfold Chip.compensated
  refine ⟨((shown.mono (by simp) (by simp)).trans (corrected.mono (by simp) (by simp))).trans
    ((moved _).mono (List.subset_cons_self _ _) (by simp)), ?_, ?_, ?_⟩
  · rw [(moved _).f_eq (fun _ => by decide) (by decide), corrected.f_eq (fun _ => by decide) (by simp), c.tempShow_temp]
  · rw [(moved _).pow_eq (by simp), corrected.pow_eq (by simp), c.tempShow_pow]
  · rw [Chip.calTicks_ticks, time, correction, ageing, add_assoc]

/-- TCOMP_WINDOW outside SURVIVAL (R134). -/
theorem doTcompWindow_awake {c : Chip} (temp : BitVec 8) (alive : c.mode ≠ .off) (awake : c.mode ≠ .survival)
    (on : c.is R.RTC_CTL F.RTC_CTL_TCOMP = true) : doTcompWindow temp c = c.compensated temp := by
  rw [doTcompWindow_eq temp alive on, Chip.alarmWakes_awake]
  rwa [(c.compensated_spec temp).1.mode_eq (by simp)]

/-- TCOMP_WINDOW in SURVIVAL, where an alarm that fires is a wake request (R134, R139). -/
theorem doTcompWindow_survival {c : Chip} (temp : BitVec 8) (survival : c.mode = .survival) (on : c.is R.RTC_CTL F.RTC_CTL_TCOMP = true) :
    (c.compensated temp).TaskKept (doTcompWindow temp c) := by
  rw [doTcompWindow_eq temp (by simp [survival]) on]
  exact Chip.TaskKept.refl.alarmWakes

/-! #### The crystal and herd time -/

/-- XTAL_FAIL (R135). -/
theorem doXtalFail_alive {c : Chip} (alive : c.mode ≠ .off) :
    Chip.Kept true [R.RTC_STAT] [.time] c (doXtalFail c) ∧ (doXtalFail c).time = { c.time with xtalFailed := true }
      ∧ (doXtalFail c).is R.RTC_STAT F.RTC_STAT_ON_RC = true ∧ (doXtalFail c).is R.RTC_STAT F.RTC_STAT_XTAL_FAIL = true := by
  rw [doXtalFail, if_pos (by simp [Chip.survAlive, alive])]
  refine ⟨(((Chip.Kept.refl.updTime (by simp)).flag (by simp)).flag (by simp)).raise (by decide), ?_, ?_, ?_⟩
  · rw [Chip.raise_time _ _ _ (by decide), Chip.flag_time, Chip.flag_time, Chip.updTime_time]
  · rw [Chip.is_raise _ _ _ _ _ (by decide) (by decide), Chip.is_flag_beside _ _ _ _ _ (by decide) (by decide),
      Chip.is_flag _ _ _ _ (by decide) (by decide)]
  · rw [Chip.is_raise _ _ _ _ _ (by decide) (by decide), Chip.is_flag _ _ _ _ (by decide) (by decide)]

/-- RTC_DISC_LOAD where the calendar differs from herd time (R137). -/
theorem doRtcDiscLoad_differs {c : Chip} (powered : c.powered = true) (running : c.time.gated = false) (disciplined : c.calDisc = true)
    (differs : ¬ (c.htNs / 10 ^ 9 % 2 ^ 40 = c.time.calSec ∧ c.htNs % 10 ^ 9 * 2 ^ 15 / 10 ^ 9 = c.time.calSub)) :
    Chip.Kept true (R.RTC_STAT :: alarmKeys) [.time] c (doRtcDiscLoad c)
      ∧ (doRtcDiscLoad c).time = { c.time with
        calSec := c.htNs / 10 ^ 9 % 2 ^ 40, calSub := c.htNs % 10 ^ 9 * 2 ^ 15 / 10 ^ 9 }
      ∧ (doRtcDiscLoad c).is R.RTC_STAT F.RTC_STAT_DISCIPLINED = true := by
  have loads : doRtcDiscLoad c = (c.flag R.RTC_STAT F.RTC_STAT_DISCIPLINED true).calLoad (c.htNs / 10 ^ 9 % 2 ^ 40)
      (c.htNs % 10 ^ 9 * 2 ^ 15 / 10 ^ 9) := by
    rw [doRtcDiscLoad, Chip.via_of_clock _ _ powered running, if_pos disciplined]
    exact if_neg differs
  have shown : Chip.Kept true (R.RTC_STAT :: alarmKeys) [.time] c (c.flag R.RTC_STAT F.RTC_STAT_DISCIPLINED true) :=
    Chip.Kept.refl.flag (by simp)
  have load := (c.flag R.RTC_STAT F.RTC_STAT_DISCIPLINED true).calLoad_kept (c.htNs / 10 ^ 9 % 2 ^ 40) (c.htNs % 10 ^ 9 * 2 ^ 15 / 10 ^ 9)
  have second : c.htNs / 10 ^ 9 % 2 ^ 40 % 2 ^ 40 = c.htNs / 10 ^ 9 % 2 ^ 40 := Nat.mod_mod ..
  have tick : c.htNs % 10 ^ 9 * 2 ^ 15 / 10 ^ 9 % 2 ^ 15 = c.htNs % 10 ^ 9 * 2 ^ 15 / 10 ^ 9 := Nat.mod_eq_of_lt (by omega)
  rw [loads]
  refine ⟨shown.trans (load.mono (List.subset_cons_self _ _) (by simp)), ?_, ?_⟩
  · rw [Chip.calLoad_time, Chip.flag_time, second, tick]
  · rw [load.is_eq (fun _ => by decide) (by decide), Chip.is_flag _ _ _ _ (by decide) (by decide)]

/-- AGING_UPDATE (R137). -/
theorem doAgingUpdate_disciplined {c : Chip} (powered : c.powered = true) (running : c.time.gated = false)
    (disciplined : c.calDisc = true) :
    Chip.Kept false [R.RTC_TRIM] [.free] c (doAgingUpdate c)
      ∧ (doAgingUpdate c).f R.RTC_TRIM F.RTC_TRIM_AGING = (Config.freeWord c.freeCtr).toNat % 2 ^ 16 := by
  rw [doAgingUpdate, Chip.via_of_clock _ _ powered running, if_pos disciplined]
  exact ⟨(Chip.Kept.refl.freeW (by simp)).setF (by simp), Chip.f_setF _ _ _ _ (by decide)⟩

/-- Settles O12: each clause is what the command's lemma above says of the chip; in SURVIVAL the alarms that wake leave the calendar as
`Chip.TaskKept` says. -/
theorem calendarCommands : Obligations.CalendarCommands := by
  refine ⟨?_, ?_, ?_, ?_, ?_, ?_, ?_, ?_, ?_, ?_, ?_⟩
  · intro w s may free
    obtain ⟨kept, pending⟩ := doRtcSet_free may free
    exact ⟨_, rfl, ⟨⟨rfl, rfl⟩, kept⟩, pending⟩
  · exact fun w s may disciplined => ⟨_, rfl, ⟨rfl, rfl⟩, doRtcSet_disciplined may disciplined⟩
  · intro w s may
    obtain ⟨kept, calibrates⟩ := doRtcCalRc_may may
    exact ⟨_, rfl, ⟨⟨rfl, rfl⟩, kept⟩, calibrates⟩
  · intro s alive awake pending
    have loads : (s.onChip doRtcSetApply).chip = s.chip.setLoad := doRtcSetApply_awake alive awake pending
    obtain ⟨kept, loaded⟩ := s.chip.setLoad_spec
    rw [← loads] at kept loaded
    exact ⟨_, rfl, ⟨⟨rfl, rfl⟩, kept⟩, loaded⟩
  · intro s survival pending
    have tasks := doRtcSetApply_survival survival pending
    obtain ⟨kept, time, busy⟩ := s.chip.setLoad_spec
    have now := tasks.time
    rw [time] at now
    exact ⟨_, rfl, ⟨rfl, rfl⟩, tasks.mode.trans ((kept.mode_eq (by simp)).trans survival), congrArg TimeSt.setPend now,
      congrArg TimeSt.calSec now, congrArg TimeSt.calSub now, (tasks.is_stat (by decide) (by decide)).trans busy⟩
  · intro trim s alive calibrating
    obtain ⟨kept, done⟩ := doRcCalDone_calibrating trim alive calibrating
    exact ⟨_, rfl, ⟨⟨rfl, rfl⟩, kept⟩, done⟩
  · intro temp s alive awake on
    have moves : (s.onChip (doTcompWindow temp)).chip = s.chip.compensated temp := doTcompWindow_awake temp alive awake on
    obtain ⟨kept, moved⟩ := s.chip.compensated_spec temp
    rw [← moves] at kept moved
    exact ⟨_, rfl, ⟨⟨rfl, rfl⟩, kept⟩, moved⟩
  · intro temp s survival on
    have tasks := doTcompWindow_survival temp survival on
    obtain ⟨kept, shown, pow, ticks⟩ := s.chip.compensated_spec temp
    have now := congrArg TimeSt.ticks tasks.time
    exact ⟨_, rfl, ⟨rfl, rfl⟩, tasks.mode.trans ((kept.mode_eq (by simp)).trans survival),
      (tasks.stat _ (by decide) (by decide)).trans shown, tasks.temp.trans (congrArg PowSt.temp pow), now.trans ticks⟩
  · intro s alive
    obtain ⟨kept, failed⟩ := doXtalFail_alive alive
    exact ⟨_, rfl, ⟨⟨rfl, rfl⟩, kept⟩, failed⟩
  · intro s powered running disciplined differs
    obtain ⟨kept, loaded⟩ := doRtcDiscLoad_differs powered running disciplined differs
    exact ⟨_, rfl, ⟨⟨rfl, rfl⟩, kept⟩, loaded⟩
  · intro s powered running disciplined
    obtain ⟨kept, aged⟩ := doAgingUpdate_disciplined powered running disciplined
    exact ⟨_, rfl, ⟨⟨rfl, rfl⟩, kept⟩, aged⟩

/-! ### Tasks of a calendar second (O16) -/

namespace Chip.TaskKept
variable {c d e : Chip}

/-- Alarms that fire. -/
theorem alarms (h : c.TaskKept d) {old : Nat} : c.TaskKept (d.alarms old) :=
  h.keep (ks := alarmKeys) (Chip.Kept.refl.alarms fun _ hm => hm) (by decide) (by decide)

theorem climRecord (h : c.TaskKept d) : c.TaskKept d.climRecord := by
  have word : ∀ {x : Chip} {i : Nat}, c.TaskKept x → i < 256 → ∀ v, c.TaskKept (x.wr (R.SURV_CREC i) v) := fun {x i} hx hi v =>
    hx.keep (ks := [R.SURV_CREC i]) (Chip.Kept.refl.wr (by simp)) (by simp [R.SURV_CREC, R.RTC_STAT]; omega)
      (by simp [R.SURV_CREC, R.STORE_STAT]; omega)
  have head : ∀ {x : Chip}, c.TaskKept x → ∀ y n, c.TaskKept (x.setF R.SURV_CLIM_HEAD y n) := fun hx y n =>
    hx.keep (ks := [R.SURV_CLIM_HEAD]) (Chip.Kept.refl.setF (by simp)) (by decide) (by decide)
  have room : d.f R.SURV_CLIM_HEAD F.SURV_CLIM_HEAD_NEXT < 64 := Nat.mod_lt _ (by decide)
  unfold Chip.climRecord
  generalize d.f R.SURV_CLIM_HEAD F.SURV_CLIM_HEAD_NEXT = k at room
  have record := fun v0 v1 v2 v3 =>
    head (word (word (word (word h (show 4 * k < 256 by omega) v0) (show 4 * k + 1 < 256 by omega) v1) (show 4 * k + 2 < 256 by omega) v2)
      (show 4 * k + 3 < 256 by omega) v3) F.SURV_CLIM_HEAD_NEXT (k + 1)
  exact ite (head (record _ _ _ _) _ _) (record _ _ _ _)

theorem climTask (h : c.TaskKept d) : c.TaskKept d.climTask := by
  have shown : ∀ {x : Chip}, c.TaskKept x → ∀ n, c.TaskKept (x.setF R.SURV_RES F.SURV_RES_CLIM_RES n) := fun hx n =>
    hx.keep (ks := [R.SURV_RES]) (Chip.Kept.refl.setF (by simp)) (by decide) (by decide)
  unfold Chip.climTask
  split
  · exact shown h.climRecord _
  · exact (shown h _).keep (ks := [R.SURV_RES]) (Chip.Kept.refl.incSat (by simp)) (by decide) (by decide)

theorem secClim (h : c.TaskKept d) : c.TaskKept d.secClim := ite h.climTask h

theorem secBeacon (h : c.TaskKept d) : c.TaskKept d.secBeacon := by
  unfold Chip.secBeacon
  refine ite h ?_
  split
  · exact (h.updPow rfl rfl).beacon
  · exact ite h.beacon h
  · exact h

end Chip.TaskKept

/-- The calendar gains a second, and the temperature is measured and shown (R139). -/
def Chip.secondOn (c : Chip) (temp : BitVec 8) : Chip :=
  (c.updTime fun t => { t with calSec := (t.calSec + 1) % 2 ^ 40, calSub := 0 }).tempShow temp

/-- The tasks of a calendar second behind the measurement of VSTORE (R139, R603), with `old` the second before. -/
def Chip.secondTasks (c : Chip) (old : Nat) : Chip :=
  ((c.secClim.updTime fun t => { t with calSec := old }).alarmWakes (c.secClim.alarms old)).secBeacon.survShow

theorem doCalendarSecond_eq {c : Chip} (mv : BitVec 16) (temp : BitVec 8) (up : c.pow.survUp = true) (alive : c.mode ≠ .off) :
    doCalendarSecond mv temp c = ((c.secondOn temp).storeCompare mv.toNat).secondTasks c.time.calSec :=
  Chip.inSurv_of up alive _

theorem Chip.taskKept_secondTasks (c : Chip) (old : Nat) : c.TaskKept (c.secondTasks old) :=
  (Chip.TaskKept.refl.secClim.alarms.alarmWakes.secBeacon).survShow

/-- CALENDAR_SECOND (R139, R595, R603). -/
theorem doCalendarSecond_up {c : Chip} (mv : BitVec 16) (temp : BitVec 8) (up : c.pow.survUp = true) (alive : c.mode ≠ .off) :
    (doCalendarSecond mv temp c).time.calSec = (c.time.calSec + 1) % 2 ^ 40 ∧ (doCalendarSecond mv temp c).time.calSub = 0
      ∧ (doCalendarSecond mv temp c).f R.STORE_STAT F.STORE_STAT_VSTORE = mv.toNat ∧ (doCalendarSecond mv temp c).pow.temp = temp := by
  have shown := (c.secondOn temp).storeShow_kept mv.toNat
  have time : ((c.secondOn temp).storeRest mv.toNat).time = { c.time with calSec := (c.time.calSec + 1) % 2 ^ 40, calSub := 0 } := by
    rw [Chip.storeRest, Chip.updPow_time, shown.time_eq (by simp), Chip.secondOn, (Chip.tempShow_kept _ _).time_eq (by simp),
      Chip.updTime_time]
  have measured : ((c.secondOn temp).storeRest mv.toNat).pow.temp = temp := by
    rw [Chip.storeRest, Chip.updPow_pow, shown.pow_eq (by simp), Chip.secondOn, Chip.tempShow_pow]
  have voltage : ((c.secondOn temp).storeRest mv.toNat).f R.STORE_STAT F.STORE_STAT_VSTORE = mv.toNat := by
    rw [Chip.storeRest, Chip.updPow_f, Chip.vstore_storeShow _ mv.isLt]
  have rest : ((c.secondOn temp).storeRest mv.toNat).pow.rest = mv.toNat := by rw [Chip.storeRest, Chip.updPow_pow]
  have tasks := ((c.secondOn temp).taskKept_storeCompare mv.toNat).trans (Chip.taskKept_secondTasks _ c.time.calSec)
  have now := tasks.time
  rw [time] at now
  rw [doCalendarSecond_eq mv temp up alive]
  exact ⟨congrArg TimeSt.calSec now, congrArg TimeSt.calSub now, (tasks.shown (voltage.trans rest.symm)).trans (tasks.rest.trans rest),
    tasks.temp.trans measured⟩

/-! #### Wake requests -/

/-- WAKE_REQUEST of an enabled source in SURVIVAL: a wake beacon becomes due, or is admitted or skipped at once (R603). -/
theorem doWakeRequest_eq {c : Chip} (src : Fin 4) (up : c.pow.survUp = true) (survival : c.mode = .survival)
    (enabled : nbit (c.f R.SURV_CFG F.SURV_CFG_WAKE_EN) src = true) : doWakeRequest src c =
    if c.pow.bcn.isNone then (c.raise P.SURV 2).beacon 2 (src + 1) (c.f R.SURV_CFG F.SURV_CFG_REPEAT)
    else (c.raise P.SURV 2).updPow fun p => { p with wake := some (src + 1, c.f R.SURV_CFG F.SURV_CFG_REPEAT) } := by
  have raised : Chip.Kept true [] [] c (c.raise P.SURV 2) := Chip.Kept.refl.raise (by decide)
  have config : ∀ x, (c.raise P.SURV 2).f R.SURV_CFG x = c.f R.SURV_CFG x := raised.f_eq (fun _ => by decide) (by simp)
  rw [doWakeRequest, Chip.inSurv_of up (by simp [survival]), Chip.wakeReq, ← raised.pow_eq (by simp), ← config F.SURV_CFG_REPEAT]
  exact if_pos ⟨(raised.mode_eq (by simp)).trans survival, (congrArg (nbit · src) (config _)).trans enabled⟩

/-- WAKE_REQUEST while a beacon is on the port (R603). -/
theorem doWakeRequest_busy {c : Chip} (src : Fin 4) {b : Beacon} (up : c.pow.survUp = true) (survival : c.mode = .survival)
    (enabled : nbit (c.f R.SURV_CFG F.SURV_CFG_WAKE_EN) src = true) (busy : c.pow.bcn = some b) :
    Chip.Kept true [] [.pow] c (doWakeRequest src c)
      ∧ (doWakeRequest src c).pow = { c.pow with wake := some (src + 1, c.f R.SURV_CFG F.SURV_CFG_REPEAT) } := by
  rw [doWakeRequest_eq src up survival enabled, if_neg (by simp [busy]), Chip.updPow_pow, Chip.raise_pow _ _ _ (by decide)]
  exact ⟨(Chip.Kept.refl.raise (by decide)).updPow (by simp), rfl⟩

/-- WAKE_REQUEST while the port is free (R603). -/
theorem doWakeRequest_idle {c : Chip} (src : Fin 4) (up : c.pow.survUp = true) (survival : c.mode = .survival)
    (enabled : nbit (c.f R.SURV_CFG F.SURV_CFG_WAKE_EN) src = true) (idle : c.pow.bcn = none) :
    doWakeRequest src c = (c.raise P.SURV 2).beacon 2 (src + 1) (c.f R.SURV_CFG F.SURV_CFG_REPEAT) := by
  rw [doWakeRequest_eq src up survival enabled, if_pos (by simp [idle])]

/-! #### Current-only accounting -/

/-- Two words that are written as the halves of a number read as it, modulo their 64 bits. -/
theorem Chip.halves_wrN (c : Chip) {lo hi : Nat} (ne : lo ≠ hi) (n : Nat) :
    ((c.wrN lo n).wrN hi (n / 2 ^ 32)).rdN lo + 2 ^ 32 * ((c.wrN lo n).wrN hi (n / 2 ^ 32)).rdN hi = n % 2 ^ 64 := by
  rw [Chip.rdN, Chip.rdN, Chip.wrN, Chip.rd_wr_same, Chip.rd_wr_ne _ _ _ _ ne.symm, Chip.wrN, Chip.rd_wr_same]
  simp only [wd, BitVec.toNat_ofNat]
  omega

/-- The current of one second of the modulator's `codes` (R403). -/
def Chip.coCurrent (c : Chip) (codes : List (BitVec 24)) : F64 :=
  (wordVal (c.rd (R.MTR_CO_K 0))).mul (((codes.foldl (fun a x => a.add ((F64.ofInt (x.toInt - c.fs (R.MTR_CO_OFS 0) F.MTR_CO_OFS_OFS)).mul
    (F64.ofInt (x.toInt - c.fs (R.MTR_CO_OFS 0) F.MTR_CO_OFS_OFS)))) F64.zero).div (F64.ofNat (max 1 codes.length))).sqrt)

/-- The charge that stands for addition behind one second of current `i`, in microampere-hours (R403). -/
def Chip.coCharge (c : Chip) (i : F64) : F64 := c.mtr.coRes.add ((i.div (F64.ofNat 3600)).mul (F64.ofNat (10 ^ 6)))

/-- CO_SECOND in current-only accounting (R403). -/
theorem doCoSecond_runs {c : Chip} (codes : List (BitVec 24)) {r : F64} (survival : c.mode = .survival) (runs : c.pow.co = true)
    (charge : r = c.coCharge (c.coCurrent codes)) :
    Chip.Kept false [R.MTR_CO_CHG_LO 0, R.MTR_CO_CHG_HI 0, R.MTR_CO_STAT 0] [.mtr] c (doCoSecond codes c)
      ∧ (doCoSecond codes c).is (R.MTR_CO_STAT 0) F.MTR_CO_STAT_RAN = true
      ∧ (doCoSecond codes c).rdN (R.MTR_CO_CHG_LO 0) + 2 ^ 32 * (doCoSecond codes c).rdN (R.MTR_CO_CHG_HI 0)
        = (((c.rdN (R.MTR_CO_CHG_LO 0) + 2 ^ 32 * c.rdN (R.MTR_CO_CHG_HI 0) : Nat) + r.floor) % (2 ^ 64 : Nat)).toNat
      ∧ (doCoSecond codes c).mtr = { c.mtr with coRes := r.sub (F64.ofInt r.floor) } := by
  have counted : doCoSecond codes c = (((c.updMtr fun m => { m with coRes := r.sub (F64.ofInt r.floor) }).wrN (R.MTR_CO_CHG_LO 0)
      (((c.rdN (R.MTR_CO_CHG_LO 0) + 2 ^ 32 * c.rdN (R.MTR_CO_CHG_HI 0) : Nat) + r.floor) % (2 ^ 64 : Nat)).toNat).wrN (R.MTR_CO_CHG_HI 0)
      ((((c.rdN (R.MTR_CO_CHG_LO 0) + 2 ^ 32 * c.rdN (R.MTR_CO_CHG_HI 0) : Nat) + r.floor) % (2 ^ 64 : Nat)).toNat / 2 ^ 32)).flag
      (R.MTR_CO_STAT 0) F.MTR_CO_STAT_RAN true := by
    rw [doCoSecond, if_pos ⟨survival, runs⟩, charge]
    rfl
  rw [counted]
  generalize hv : (((c.rdN (R.MTR_CO_CHG_LO 0) + 2 ^ 32 * c.rdN (R.MTR_CO_CHG_HI 0) : Nat) + r.floor) % (2 ^ 64 : Nat)).toNat = v
  have room : v < 2 ^ 64 := by omega
  refine ⟨(((Chip.Kept.refl.updMtr (by simp)).wrN (by simp)).wrN (by simp)).flag (by simp),
    Chip.is_flag _ _ _ _ (by decide) (by decide), ?_, ?_⟩
  · have shown : ∀ e : Chip, Chip.Kept false [R.MTR_CO_STAT 0] [] e (e.flag (R.MTR_CO_STAT 0) F.MTR_CO_STAT_RAN true) := fun e =>
      Chip.Kept.refl.flag (by simp)
    rw [Chip.rdN, Chip.rdN, (shown _).regs _ (by simp) (by decide), (shown _).regs _ (by simp) (by decide)]
    exact (Chip.halves_wrN _ (by decide) v).trans (Nat.mod_eq_of_lt room)
  · rw [Chip.flag_mtr, Chip.wrN_mtr, Chip.wrN_mtr, Chip.updMtr_mtr]

/-! #### The survival port -/

theorem Chip.Kept.portEnd {ev : Bool} {ks : List Nat} {ps : List Part} {c d : Chip} (h : Chip.Kept ev ks ps c d) (hs : R.SURV_STAT ∈ ks)
    (hr : R.RTC_STAT ∈ ks) (hp : .pow ∈ ps) (ht : .time ∈ ps) {b : Beacon} : Chip.Kept ev ks ps c (d.portEnd b) :=
  (h.updPow hp).survShow hs hr ht

/-- What follows the state of the survival domain leaves that state. -/
theorem Chip.survShow_kept (c : Chip) : Chip.Kept false [R.SURV_STAT, R.RTC_STAT] [.time] c c.survShow :=
  Chip.Kept.refl.survShow (by simp) (by simp) (by simp)

/-- A beacon that is over leaves the port free; a wake beacon that no ACK answered is due again (R609). -/
theorem Chip.portEnd_pow (c : Chip) (b : Beacon) : (c.portEnd b).pow = { c.pow with
    bcn := none
    wake := c.pow.wake.or (if c.mode = .survival ∧ b.kind = 2 ∧ ¬ b.acked ∧ 0 < b.left then some (b.src, b.left - 1) else none) } := by
  rw [Chip.portEnd, (Chip.survShow_kept _).pow_eq (by simp), Chip.updPow_pow]
  cases c.pow.wake with
  | none => rfl
  | some w => rfl

theorem Chip.portEnd_kept (c : Chip) (b : Beacon) : Chip.Kept false [R.SURV_STAT, R.RTC_STAT] [.pow, .time] c (c.portEnd b) :=
  Chip.Kept.refl.portEnd (by simp) (by simp) (by simp) (by simp)

/-- The result of a beacon task that was sent; a TEST frame is no task (R608, R612). -/
def Chip.beaconSent (c : Chip) (b : Beacon) : Chip := if b.kind = 3 then c else c.setF R.SURV_RES F.SURV_RES_BCN_RES 1

theorem Chip.beaconSent_kept (c : Chip) (b : Beacon) : Chip.Kept false [R.SURV_RES] [] c (c.beaconSent b) :=
  .ite .refl (Chip.Kept.refl.setF (by simp))

/-- BEACON_FRAME_END of the beacon on the port (R608, R609). -/
theorem doBeaconFrameEnd_eq {c : Chip} {b : Beacon} (up : c.pow.survUp = true) (alive : c.mode ≠ .off) (sending : c.pow.bcn = some b)
    (talks : b.listen = false) : doBeaconFrameEnd c =
    if c.f R.SURV_CFG F.SURV_CFG_RXWIN_MS = 0 then (c.beaconSent b).portEnd b
    else (c.beaconSent b).updPow fun p => { p with bcn := some { b with listen := true } } := by
  rw [doBeaconFrameEnd, Chip.inSurv_of up alive, sending, ← (c.beaconSent_kept b).f_eq (k := R.SURV_CFG) (by simp) (by decide)]
  dsimp only
  rw [if_neg (by simp [talks])]
  rfl

/-- BEACON_FRAME_END with a receive window (R609). -/
theorem doBeaconFrameEnd_listens {c : Chip} {b : Beacon} (up : c.pow.survUp = true) (alive : c.mode ≠ .off) (sending : c.pow.bcn = some b)
    (talks : b.listen = false) (window : c.f R.SURV_CFG F.SURV_CFG_RXWIN_MS ≠ 0) :
    Chip.Kept false [R.SURV_RES] [.pow] c (doBeaconFrameEnd c)
      ∧ (doBeaconFrameEnd c).pow = { c.pow with bcn := some { b with listen := true } } := by
  have sent := c.beaconSent_kept b
  rw [doBeaconFrameEnd_eq up alive sending talks, if_neg window, Chip.updPow_pow, sent.pow_eq (by simp)]
  exact ⟨(sent.mono (fun _ h => h) (by simp)).updPow (by simp), rfl⟩

/-- BEACON_FRAME_END without one (R608). -/
theorem doBeaconFrameEnd_over {c : Chip} {b : Beacon} (up : c.pow.survUp = true) (alive : c.mode ≠ .off) (sending : c.pow.bcn = some b)
    (talks : b.listen = false) (window : c.f R.SURV_CFG F.SURV_CFG_RXWIN_MS = 0) :
    Chip.Kept false [R.SURV_RES, R.SURV_STAT, R.RTC_STAT] [.pow, .time] c (doBeaconFrameEnd c) ∧ (doBeaconFrameEnd c).pow.bcn = none := by
  rw [doBeaconFrameEnd_eq up alive sending talks, if_pos window, Chip.portEnd_pow]
  exact ⟨((c.beaconSent_kept b).mono (by simp) (by simp)).portEnd (by simp) (by simp) (by simp) (by simp), rfl⟩

/-- A beacon task aborted, as SURV.RES shows it (R607). -/
def Chip.beaconAborted (c : Chip) : Chip :=
  ((c.setF R.SURV_RES F.SURV_RES_BCN_RES 4).incSat R.SURV_RES F.SURV_RES_ABORTS).raise P.SURV 0

theorem Chip.beaconAborted_kept (c : Chip) : Chip.Kept true [R.SURV_RES] [] c c.beaconAborted :=
  ((Chip.Kept.refl.setF (by simp)).incSat (by simp)).raise (by decide)

theorem Chip.beaconAborted_res (c : Chip) : c.beaconAborted.f R.SURV_RES F.SURV_RES_BCN_RES = 4 := by
  rw [Chip.beaconAborted, Chip.f_raise _ _ _ _ _ (by decide) (by decide), Chip.incSat, Chip.f_setF_beside _ _ _ _ _ (by decide) (by decide),
    Chip.f_setF_of_lt _ _ _ _ (by decide) (by decide)]

/-- STORE_BELOW_T_ABORT while a beacon task is being sent (R595, R607). -/
theorem doStoreBelowTAbort_sending {c : Chip} (mv : BitVec 16) {b : Beacon} (up : c.pow.survUp = true) (sending : c.pow.bcn = some b)
    (talks : b.listen = false) (task : b.kind ≠ 3) :
    (doStoreBelowTAbort mv c).pow.bcn = none ∧ (doStoreBelowTAbort mv c).f R.SURV_RES F.SURV_RES_BCN_RES = 4
      ∧ (doStoreBelowTAbort mv c).f R.STORE_STAT F.STORE_STAT_VSTORE = mv.toNat ∧ (doStoreBelowTAbort mv c).pow.rest = c.pow.rest := by
  have aborts : doStoreBelowTAbort mv c = (c.storeShow mv.toNat).beaconAborted.portEnd b := by
    rw [doStoreBelowTAbort, Chip.storeUp_of up, sending]
    exact if_neg (by simp [talks, task])
  have shown := c.storeShow_kept mv.toNat
  have aborted := (c.storeShow mv.toNat).beaconAborted_kept
  have ended := (c.storeShow mv.toNat).beaconAborted.portEnd_kept b
  rw [aborts, ended.f_eq (by simp) (by decide), ended.f_eq (by simp) (by decide), Chip.beaconAborted_res,
    aborted.f_eq (fun _ => by decide) (by decide), Chip.vstore_storeShow _ mv.isLt, Chip.portEnd_pow]
  refine ⟨rfl, rfl, rfl, ?_⟩
  dsimp only
  rw [aborted.pow_eq (by simp), shown.pow_eq (by simp)]

/-- STORE_BELOW_T_ABORT with no beacon on the port (R595). -/
theorem doStoreBelowTAbort_idle {c : Chip} (mv : BitVec 16) (up : c.pow.survUp = true) (idle : c.pow.bcn = none) :
    (doStoreBelowTAbort mv c).f R.STORE_STAT F.STORE_STAT_VSTORE = mv.toNat ∧ (doStoreBelowTAbort mv c).pow.rest = mv.toNat := by
  have compares : doStoreBelowTAbort mv c = c.storeCompare mv.toNat := by rw [doStoreBelowTAbort, Chip.storeUp_of up, idle]
  rw [compares, Chip.vstore_storeCompare, (c.taskKept_storeCompare mv.toNat).rest, Chip.storeRest, Chip.updPow_pow]
  exact ⟨rfl, rfl⟩

/-- SVP_ACK_RX of the present sequence number in the window of a beacon task (R609). -/
theorem doSvpAckRx_answers {c : Chip} {seq : BitVec 16} {b : Beacon} (up : c.pow.survUp = true) (alive : c.mode ≠ .off)
    (waiting : c.pow.bcn = some b) (listens : b.listen = true) (task : b.kind ≠ 3)
    (present : seq.toNat = c.f R.SURV_STAT F.SURV_STAT_BCN_SEQ) :
    Chip.Kept false [R.SURV_RES] [.pow] c (doSvpAckRx seq c)
      ∧ (doSvpAckRx seq c).pow = { c.pow with bcn := some { b with acked := true } }
      ∧ (doSvpAckRx seq c).f R.SURV_RES F.SURV_RES_BCN_RES = 5 := by
  have acks : doSvpAckRx seq c =
      (c.setF R.SURV_RES F.SURV_RES_BCN_RES 5).updPow fun p => { p with bcn := some { b with acked := true } } := by
    rw [doSvpAckRx, Chip.inSurv_of up alive, waiting]
    dsimp only
    rw [if_pos ⟨listens, present⟩, if_neg task]
  rw [acks, Chip.updPow_pow, Chip.setF_pow, Chip.updPow_f, Chip.f_setF_of_lt _ _ _ _ (by decide) (by decide)]
  exact ⟨(Chip.Kept.refl.setF (by simp)).updPow (by simp), rfl, rfl⟩

/-- The registers of the receive buffer. -/
def rxKeys : List Nat := [R.SURV_RXSTAT, R.SURV_RXBUF 0, R.SURV_RXBUF 1, R.SURV_RXBUF 2, R.SURV_RXBUF 3]

/-- The words of the receive buffer take the bytes `l` (R609). -/
def Chip.rxFill (c : Chip) (l : List Byte) : Chip := forN 4 (fun i c => c.wrN (R.SURV_RXBUF i) (leNat ((l.drop (4 * i)).take 4))) c

theorem Chip.rxFill_kept (c : Chip) (l : List Byte) : Chip.Kept true rxKeys [] c (c.rxFill l) := by
  have word : ∀ i < 4, R.SURV_RXBUF i ∈ rxKeys := by decide
  exact forN_inv_lt (Chip.Kept true rxKeys [] c) 4 _ c .refl fun i hi _ kept => kept.wrN (word i hi)

theorem Chip.rd_rxFill (c : Chip) (l : List Byte) : ∀ i < 4, (c.rxFill l).rd (R.SURV_RXBUF i) = wd (leNat ((l.drop (4 * i)).take 4)) := by
  refine forN_ind (fun n d => ∀ i < n, (d : Chip).rd (R.SURV_RXBUF i) = wd (leNat ((l.drop (4 * i)).take 4))) 4 _ c (by simp)
    fun n _ d filled i hi => ?_
  rcases Nat.lt_succ_iff_lt_or_eq.1 hi with before | rfl
  · exact (Chip.rd_wr_ne _ _ _ _ (by simp only [R.SURV_RXBUF]; omega)).trans (filled i before)
  · exact Chip.rd_wr_same ..

/-- SVP_DATA_RX into the empty receive buffer (R609). -/
theorem doSvpDataRx_fills {c : Chip} {data : List Byte} {b : Beacon} (up : c.pow.survUp = true) (alive : c.mode ≠ .off)
    (waiting : c.pow.bcn = some b) (listens : b.listen = true) (empty : c.is R.SURV_RXSTAT F.SURV_RXSTAT_FULL = false)
    (room : data.length ≤ 16) :
    Chip.Kept true rxKeys [] c (doSvpDataRx data c) ∧ (doSvpDataRx data c).is R.SURV_RXSTAT F.SURV_RXSTAT_FULL = true
      ∧ (doSvpDataRx data c).f R.SURV_RXSTAT F.SURV_RXSTAT_LEN = data.length
      ∧ ∀ i < 4, (doSvpDataRx data c).rd (R.SURV_RXBUF i) = wd (leNat ((data.drop (4 * i)).take 4)) := by
  have fills : doSvpDataRx data c = (((c.rxFill data).setF R.SURV_RXSTAT F.SURV_RXSTAT_LEN data.length).flag R.SURV_RXSTAT
      F.SURV_RXSTAT_FULL true).raise P.SURV 1 := by
    rw [doSvpDataRx, Chip.inSurv_of up alive, waiting]
    dsimp only
    rw [if_pos ⟨listens, by simp [empty]⟩, List.take_of_length_le room]
    rfl
  have shown : ∀ d : Chip, Chip.Kept true [R.SURV_RXSTAT] [] d (((d.setF R.SURV_RXSTAT F.SURV_RXSTAT_LEN data.length).flag R.SURV_RXSTAT
      F.SURV_RXSTAT_FULL true).raise P.SURV 1) := fun d => ((Chip.Kept.refl.setF (by simp)).flag (by simp)).raise (by decide)
  have words : ∀ i < 4, evKey (R.SURV_RXBUF i) = false ∧ R.SURV_RXBUF i ∉ [R.SURV_RXSTAT] := by decide
  rw [fills]
  refine ⟨(c.rxFill_kept data).trans ((shown _).mono (by simp [rxKeys]) (by simp)), ?_, ?_, fun i hi => ?_⟩
  · rw [Chip.is_raise _ _ _ _ _ (by decide) (by decide), Chip.is_flag _ _ _ _ (by decide) (by decide)]
  · rw [Chip.f_raise _ _ _ _ _ (by decide) (by decide), Chip.flag, Chip.f_setF_beside _ _ _ _ _ (by decide) (by decide),
      Chip.f_setF_of_lt _ _ _ _ (by decide) (by simp only [F.SURV_RXSTAT_LEN]; omega)]
  · obtain ⟨plain, other⟩ := words i hi
    rw [(shown _).regs _ (fun _ => plain) other, c.rd_rxFill data i hi]

/-- RX_WINDOW_END (R609). -/
theorem doRxWindowEnd_listening {c : Chip} {b : Beacon} (up : c.pow.survUp = true) (alive : c.mode ≠ .off) (waiting : c.pow.bcn = some b)
    (listens : b.listen = true) : doRxWindowEnd c = c.portEnd b := by
  rw [doRxWindowEnd, Chip.inSurv_of up alive, waiting]
  exact if_pos listens

/-! #### SURV.CMD -/

/-- A choice between two chips that show the same field. -/
theorem Chip.f_ite {d e : Chip} {k n : Nat} {x : Fld} {p : Prop} [Decidable p] (h : d.f k x = n) (g : e.f k x = n) :
    (if p then d else e).f k x = n := by split <;> assumption

/-- Fields of SURV.STAT below the running task are as before. -/
theorem Chip.f_survShow_below (c : Chip) (x : Fld) (hx : x.hi < 24) : c.survShow.f R.SURV_STAT x = c.f R.SURV_STAT x := by
  have sub : x.hi < F.SURV_STAT_SUB.lo := by simp only [F.SURV_STAT_SUB]; omega
  have task : x.hi < F.SURV_STAT_TASK.lo := hx
  have follows : ∀ (d : Chip) (b : Bool), (d.flag R.RTC_STAT F.RTC_STAT_ON_RC b).f R.SURV_STAT x = d.f R.SURV_STAT x := fun d b =>
    Chip.f_setF_ne _ _ _ _ _ _ (by decide)
  unfold Chip.survShow
  extract_lets bcn sub' enters e src e'
  have shown : e.f R.SURV_STAT x = c.f R.SURV_STAT x := by
    rw [Chip.f_setF_beside _ _ _ _ _ (by omega) (.inl task), Chip.f_setF_beside _ _ _ _ _ (by omega) (.inl sub)]
  have timed : e'.f R.SURV_STAT x = c.f R.SURV_STAT x :=
    Chip.f_ite ((Chip.updTime_f e (fun t => { t with rcCal := true }) _ _).trans shown) shown
  clear_value e'
  split
  · exact (follows _ _).trans timed
  · exact (follows _ _).trans timed
  · exact (follows _ _).trans timed
  · exact timed

/-- A beacon started on the port (R606). -/
theorem Chip.portStart_spec (c : Chip) (kind src left : Nat) :
    Chip.Kept false [R.SURV_STAT, R.RTC_STAT] [.pow, .time] c (c.portStart kind src left)
      ∧ (c.portStart kind src left).f R.SURV_STAT F.SURV_STAT_BCN_SEQ = (c.f R.SURV_STAT F.SURV_STAT_BCN_SEQ + 1) % 2 ^ 16
      ∧ (c.portStart kind src left).pow.bcn.map Beacon.kind = some kind := by
  refine ⟨Chip.Kept.refl.portStart (by simp) (by simp) (by simp) (by simp), ?_, ?_⟩
  · rw [Chip.portStart, Chip.f_survShow_below _ _ (by decide), Chip.updPow_f]
    exact Chip.f_setF _ _ _ _ (by decide)
  · rw [Chip.portStart, (Chip.survShow_kept _).pow_eq (by simp), Chip.updPow_pow]
    rfl

/-- TEST_BEACON in READY on the free port (R612). -/
theorem doTestBeacon_ready {w : Writer} {s : State} (may : May w R.SURV_CMD s) (ready : s.chip.mode = .ready)
    (free : s.chip.pow.bcn = none) :
    doTestBeacon w theKey s.chip = s.chip.portStart 3 0 0 := by
  obtain ⟨powered, running, allowed⟩ := may
  rw [doTestBeacon, Chip.cmd_of _ _ _ _ powered running allowed]
  exact if_pos ⟨ready, free⟩

/-- TEST_BEACON outside READY (R612). -/
theorem doTestBeacon_refused {w : Writer} {s : State} (may : May w R.SURV_CMD s) (other : s.chip.mode ≠ .ready) :
    doTestBeacon w theKey s.chip = s.chip.perr R.SURV_CMD .state w.ini.code := by
  obtain ⟨powered, running, allowed⟩ := may
  rw [doTestBeacon, Chip.cmd_of _ _ _ _ powered running allowed]
  exact if_neg fun h => other h.1

/-- SURV_CLR_STATS (R615). -/
theorem doSurvClrStats_may {w : Writer} {s : State} (may : May w R.SURV_CMD s) :
    doSurvClrStats w theKey s.chip = s.chip.wrN R.SURV_RES 0 := by
  obtain ⟨powered, running, allowed⟩ := may
  rw [doSurvClrStats, Chip.cmd_of _ _ _ _ powered running allowed]
  rfl

/-- The receive buffer emptied (R615). -/
def Chip.rxClear (c : Chip) : Chip :=
  ((((c.wrN R.SURV_RXSTAT 0).wrN (R.SURV_RXBUF 0) 0).wrN (R.SURV_RXBUF 1) 0).wrN (R.SURV_RXBUF 2) 0).wrN (R.SURV_RXBUF 3) 0

theorem Chip.rxClear_kept (c : Chip) : Chip.Kept false rxKeys [] c c.rxClear :=
  ((((Chip.Kept.refl.wrN (by simp [rxKeys])).wrN (by simp [rxKeys])).wrN (by simp [rxKeys])).wrN (by simp [rxKeys])).wrN (by simp [rxKeys])

/-- Every register of the emptied buffer reads 0. -/
theorem Chip.rd_rxClear (c : Chip) : ∀ k ∈ rxKeys, c.rxClear.rd k = 0 := by
  intro k hk
  simp only [rxKeys, List.mem_cons, List.not_mem_nil, or_false] at hk
  rcases hk with rfl | rfl | rfl | rfl | rfl <;> simp [Chip.rxClear, Chip.wrN, Chip.rd_wr, wd]

/-- SURV_CLR_RX (R615). -/
theorem doSurvClrRx_may {w : Writer} {s : State} (may : May w R.SURV_CMD s) : doSurvClrRx w theKey s.chip = s.chip.rxClear := by
  obtain ⟨powered, running, allowed⟩ := may
  rw [doSurvClrRx, Chip.cmd_of _ _ _ _ powered running allowed]
  rfl

/-- Settles O16: each clause is what the command's lemma above says of the chip; the memory and the queue stay beside it. -/
theorem survivalTaskCommands : Obligations.SurvivalTaskCommands := by
  refine ⟨?_, ?_, ?_, ?_, ?_, ?_, ?_, ?_, ?_, ?_, ?_, ?_, ?_, ?_, ?_⟩
  · exact fun mv temp s up alive => ⟨_, rfl, ⟨rfl, rfl⟩, doCalendarSecond_up mv temp up alive⟩
  · intro src b s up survival enabled busy
    obtain ⟨kept, due⟩ := doWakeRequest_busy src up survival enabled busy
    exact ⟨_, rfl, ⟨⟨rfl, rfl⟩, kept⟩, due⟩
  · exact fun src s up survival enabled idle => ⟨_, rfl, ⟨rfl, rfl⟩, doWakeRequest_idle src up survival enabled idle⟩
  · intro codes i r s survival runs current charge
    obtain ⟨kept, counted⟩ := doCoSecond_runs codes survival runs (charge.trans (congrArg s.chip.coCharge current))
    exact ⟨_, rfl, ⟨⟨rfl, rfl⟩, kept⟩, counted⟩
  · intro b s up alive sending talks window
    obtain ⟨kept, listens⟩ := doBeaconFrameEnd_listens up alive sending talks window
    exact ⟨_, rfl, ⟨⟨rfl, rfl⟩, kept⟩, listens⟩
  · intro b s up alive sending talks window
    obtain ⟨kept, free⟩ := doBeaconFrameEnd_over up alive sending talks window
    exact ⟨_, rfl, ⟨⟨rfl, rfl⟩, kept⟩, free⟩
  · exact fun mv b s up sending talks task => ⟨_, rfl, ⟨rfl, rfl⟩, doStoreBelowTAbort_sending mv up sending talks task⟩
  · exact fun mv s up idle => ⟨_, rfl, ⟨rfl, rfl⟩, doStoreBelowTAbort_idle mv up idle⟩
  · intro seq b s up alive waiting listens task present
    obtain ⟨kept, answered⟩ := doSvpAckRx_answers up alive waiting listens task present
    exact ⟨_, rfl, ⟨⟨rfl, rfl⟩, kept⟩, answered⟩
  · intro data b s up alive waiting listens empty room
    obtain ⟨kept, full, length, words⟩ := doSvpDataRx_fills up alive waiting listens empty room
    exact ⟨_, rfl, ⟨⟨rfl, rfl⟩, kept⟩, full, length,
      List.all_eq_true.2 fun i hi => decide_eq_true (words i (List.mem_range.1 hi))⟩
  · intro b s up alive waiting listens
    have ends : (s.onChip doRxWindowEnd).chip = s.chip.portEnd b := doRxWindowEnd_listening up alive waiting listens
    have kept := s.chip.portEnd_kept b
    have pow := s.chip.portEnd_pow b
    rw [← ends] at kept pow
    refine ⟨_, rfl, ⟨⟨rfl, rfl⟩, kept⟩, congrArg PowSt.bcn pow, fun idle survival wake unanswered again => ?_⟩
    refine (congrArg PowSt.wake pow).trans ?_
    simp [idle, survival, wake, unanswered, again]
  · intro w s may ready free
    have starts : (s.onChip (doTestBeacon w theKey)).chip = s.chip.portStart 3 0 0 := doTestBeacon_ready may ready free
    obtain ⟨kept, started⟩ := s.chip.portStart_spec 3 0 0
    rw [← starts] at kept started
    exact ⟨_, rfl, ⟨⟨rfl, rfl⟩, kept⟩, started⟩
  · exact fun w s may other => ⟨_, rfl, ⟨rfl, rfl⟩, doTestBeacon_refused may other⟩
  · intro w s may
    have clears : (s.onChip (doSurvClrStats w theKey)).chip = s.chip.wrN R.SURV_RES 0 := doSurvClrStats_may may
    have kept : Chip.Kept false [R.SURV_RES] [] s.chip (s.onChip (doSurvClrStats w theKey)).chip :=
      clears ▸ Chip.Kept.refl.wrN (by simp)
    exact ⟨_, rfl, ⟨⟨rfl, rfl⟩, kept⟩, (congrArg (Chip.rd · R.SURV_RES) clears).trans (Chip.rd_wr_same ..)⟩
  · intro w s may
    have clears : (s.onChip (doSurvClrRx w theKey)).chip = s.chip.rxClear := doSurvClrRx_may may
    have kept := s.chip.rxClear_kept
    have zero := s.chip.rd_rxClear
    have words : ∀ i < 4, R.SURV_RXBUF i ∈ rxKeys := by decide
    rw [← clears] at kept zero
    exact ⟨_, rfl, ⟨⟨rfl, rfl⟩, kept⟩, zero _ (by simp [rxKeys]),
      List.all_eq_true.2 fun i hi => decide_eq_true (zero _ (words i (List.mem_range.1 hi)))⟩

end Sys2Proof.Machine

namespace Sys2Proof.Machine

/-! ### A pin level taken while the Lap log is behind (O45) -/

/-- READY, channel 23 in Manchester mode at 20 Mb/s. The Lap log records again after it stood frozen, and the pin PUL_00, a level input
(R563), has risen in between: no LEVEL record has shown it yet. -/
def lapBehind : State := clocked0 fun c =>
  let c : Chip := (({ c with mode := .ready } : Chip).flag R.LAP_CTL F.LAP_CTL_EN true).setLap Ls.recording
  let c : Chip := c.flag (R.GDI_STAT 0) F.GDI_STAT_PUL true
  (c.setF (R.XMD_CH_IN 1 11) F.XMD_CH_IN_MODE 2).setF (R.XMD_CH_IN 1 11) F.XMD_CH_IN_MAN_MBPS 20

/-- The state meets what the statement asks of a pin level that completes no bit. -/
theorem lapBehind_takes_no_bit : lapBehind.chip.powered = true ∧ lapBehind.chip.xmdLive (23 : Fin 24) = true
    ∧ lapBehind.chip.xmdEdge (23 : Fin 24) (lapBehind.chip.xmd (23 : Fin 24)).prot false = ({ ph := 1 }, none) := by decide +kernel

/-- The command looks at the level inputs behind it (R16, R563), so the Lap log takes the LEVEL record that was due. -/
theorem lapBehind_records_levels :
    (doProtectionFilterChange 23 [false] lapBehind.chip).lap.lvl ≠ lapBehind.chip.lap.lvl := by decide +kernel

theorem exec_protectionFilterChange (ch : Fin 24) (wave : List Bool) (s : State) :
    exec (.protectionFilterChange ch wave) s = .next (s.onChip (doProtectionFilterChange ch wave)) := rfl

/-- Refutes O45: a pin level that completes no bit does not only advance the filter's tap, since a LEVEL record can be due behind it. -/
theorem not_xmdCommands : ¬ Obligations.XmdCommands := by
  rintro ⟨-, -, -, -, noBit, -⟩
  obtain ⟨powered, live, edge⟩ := lapBehind_takes_no_bit
  obtain ⟨t, ht, ⟨-, kept⟩, -⟩ := noBit 23 false _ lapBehind powered live edge
  obtain rfl := Host.Outcome.next.inj ((exec_protectionFilterChange ..).symm.trans ht)
  have lap : (doProtectionFilterChange 23 [false] lapBehind.chip).lap = lapBehind.chip.lap :=
    kept.parts .lap (by simp) (by simp) (by simp)
  exact lapBehind_records_levels (congrArg LapSt.lvl lap)

/-! ### Registers and parts that a cause of the safe state touches -/

/-- The registers that the latch, the supplies and the breaker show in, with GDI.STAT of every gate driver. -/
def latchKeys : List Nat := [R.SHD_STAT, R.SHD_CAUSE, R.SHD_CAUSES_SEEN, R.SOUT_STAT] ++ (List.range 16).map R.GDI_STAT

theorem gdi_stat_mem_latchKeys {n : Nat} (hn : n < 16) : R.GDI_STAT n ∈ latchKeys :=
  List.mem_append_right _ (List.mem_map_of_mem (List.mem_range.2 hn))

theorem latchKeys_subset_cause : latchKeys ⊆ R.SHD_STAT :: causeKeys := by
  intro k hk
  rcases List.mem_append.1 hk with shown | gdi
  · simp only [List.mem_cons, List.not_mem_nil, or_false] at shown
    rcases shown with rfl | rfl | rfl | rfl
    · exact List.mem_cons_self
    all_goals exact List.mem_cons_of_mem _ (stateKeys_subset_causeKeys (by simp [stateKeys]))
  · obtain ⟨n, hn, rfl⟩ := List.mem_map.1 gdi
    exact List.mem_cons_of_mem _ (gateKeys_subset_causeKeys (gdi_stat_mem_gateKeys (List.mem_range.1 hn)))

theorem shd_demand_ag_notMem_cause : R.SHD_DEMAND_AG ∉ R.SHD_STAT :: causeKeys := by
  simp only [causeKeys, gateKeys, stateKeys, List.mem_append, List.mem_cons, List.mem_flatMap, List.mem_range, List.not_mem_nil, or_false]
  rintro (h | (h | ⟨n, hn, h⟩) | h)
  · exact absurd h (by decide)
  · exact absurd h (by decide)
  · simp only [R.SHD_DEMAND_AG, R.GDI_STAT, R.PWMC_STAT, R.ACMP_CH_STAT, R.TRIP_SRC_STAT] at h
    omega
  · exact absurd h (by decide)

namespace Chip.Kept
variable {ks : List Nat} {ps : List Part} {c d : Chip}

theorem soutUpdate (h : Chip.Kept true ks ps c d) (hk : latchKeys ⊆ ks) (hs : .safe ∈ ps) : Chip.Kept true ks ps c d.soutUpdate :=
  (h.forN fun _ _ he => ite ((he.setBit (hk (by simp [latchKeys]))).updSout hs) he).setF (hk (by simp [latchKeys]))

theorem setSgr (h : Chip.Kept true ks ps c d) (hk : latchKeys ⊆ ks) (hs : .safe ∈ ps) {b : Bool} : Chip.Kept true ks ps c (d.setSgr b) :=
  (h.setSafe hs).soutUpdate hk hs

theorem tripBreaker (h : Chip.Kept true ks ps c d) (hk : latchKeys ⊆ ks) (hs : .safe ∈ ps) : Chip.Kept true ks ps c d.tripBreaker := by
  have pulses : Chip.Kept true ks ps c (d.flag R.SHD_STAT F.SHD_STAT_SBT_TRIPPED true).tripPulses :=
    (h.flag (hk (by simp [latchKeys]))).forN fun _ _ he => ite (he.updSout hs) he
  exact ite h (pulses.soutUpdate hk hs)

/-- The latch touches neither the measurement blocks nor what they show (R29). -/
theorem latch (h : Chip.Kept true ks ps c d) (hk : latchKeys ⊆ ks) (hs : .safe ∈ ps) (hp : .pwm ∈ ps) {code cls idx : Nat} :
    Chip.Kept true ks ps c (d.latch code cls idx) := by
  have off : ∀ {e : Chip}, Chip.Kept true ks ps c e → Chip.Kept true ks ps c (e.shdOff true) := fun he =>
    (forN_inv_lt (Chip.Kept true ks ps c) 16 _ _ he fun n hn _ hx =>
      (hx.flag (hk (gdi_stat_mem_latchKeys hn))).gdiOut hn (hk (gdi_stat_mem_latchKeys hn)) hp).lapLevels
  have seen : ∀ {e : Chip} {m : Nat}, Chip.Kept true ks ps c e → Chip.Kept true ks ps c (e.orBits R.SHD_CAUSES_SEEN m) := fun he =>
    he.orBits (hk (by simp [latchKeys]))
  have first : ∀ {w : Nat} {x : SafeSt}, Chip.Kept true ks ps c ((({ ((d.flag R.SHD_STAT F.SHD_STAT_LATCH true).wrN R.SHD_CAUSE w)
      with safe := x } : Chip).shdOff true).raise P.SHD 0) :=
    (off (((h.flag (hk (by simp [latchKeys]))).wrN (hk (by simp [latchKeys]))).setSafe hs)).raise (by decide)
  have recorded := fun e (he : Chip.Kept true ks ps c e) => ite (p := (!d.is R.SHD_STAT F.SHD_STAT_LATCH) = true)
    (he.setSgr hk hs (b := false)) he
  exact ite ((recorded _ (seen (ite first h))).tripBreaker hk hs) (recorded _ (seen (ite first h)))

/-- A safety cause (R29, R499). -/
theorem cause (h : Chip.Kept true ks ps c d) (hk : R.SHD_STAT :: causeKeys ⊆ ks) (hp : causeParts ⊆ ps) {code cls idx : Nat} :
    Chip.Kept true ks ps c (d.cause code cls idx) := by
  have keys : causeKeys ⊆ ks := fun _ hm => hk (List.mem_cons_of_mem _ hm)
  have safe : .safe ∈ ps := hp (by simp [causeParts])
  have entered : Chip.Kept true ks ps c ((d.latch code cls idx).enterSafe code) :=
    (h.latch (fun _ hm => hk (latchKeys_subset_cause hm)) safe (hp (by simp [causeParts]))).enterSafe keys hp
  exact ite (ite (entered.logIt (keys (stateKeys_subset_causeKeys (by simp [stateKeys]))) safe) entered) h

end Chip.Kept

theorem Chip.lapLevels_kept (c : Chip) : Chip.Kept true [] [] c c.lapLevels := Chip.Kept.refl.lapLevels

/-! ### What a cause of the safe state leaves of the comparators -/

theorem acmp_ch_stat_inj {i j : Nat} (h : i ≠ j) : R.ACMP_CH_STAT i ≠ R.ACMP_CH_STAT j := by simp only [R.ACMP_CH_STAT]; omega

/-- From `c` to `d` the comparators still to test and what the comparators show below IN_BLANK are kept: a blanking window may have opened,
but no test has moved on (R185, R189). -/
structure Chip.TestsKept (c d : Chip) : Prop where
  tests : d.meas.tests = c.meas.tests
  shown : ∀ n < 16, ∀ x : Fld, x.hi < F.ACMP_CH_STAT_IN_BLANK.lo → d.is (R.ACMP_CH_STAT n) x = c.is (R.ACMP_CH_STAT n) x

/-- The registers other than those of the comparators. -/
def BesideAcmp (ks : List Nat) : Prop := ∀ n < 16, R.ACMP_CH_STAT n ∉ ks

theorem besideAcmp_latchKeys : BesideAcmp latchKeys := by unfold BesideAcmp; decide
theorem besideAcmp_stateKeys : BesideAcmp stateKeys := by unfold BesideAcmp; decide

theorem besideAcmp_shd_demand_ag : BesideAcmp [R.SHD_DEMAND_AG] := by unfold BesideAcmp; decide
theorem besideAcmp_trip_src_stat (k : Nat) : BesideAcmp [R.TRIP_SRC_STAT k] := fun n hn => by
  simp only [List.mem_singleton, R.ACMP_CH_STAT, R.TRIP_SRC_STAT]
  omega
theorem besideAcmp_gdi_stat (k : Nat) : BesideAcmp [R.GDI_STAT k] := fun n hn => by
  simp only [List.mem_singleton, R.ACMP_CH_STAT, R.GDI_STAT]
  omega
theorem besideAcmp_pwmc_stat (k : Nat) : BesideAcmp [R.TRIP_CH_STAT, R.PWMC_STAT k] := fun n hn => by
  simp only [List.mem_cons, List.not_mem_nil, or_false, R.ACMP_CH_STAT, R.PWMC_STAT, R.TRIP_CH_STAT]
  omega

namespace Chip.TestsKept
variable {c d e : Chip}

theorem refl : c.TestsKept c := ⟨rfl, fun _ _ _ _ => rfl⟩

theorem trans (h : c.TestsKept d) (g : d.TestsKept e) : c.TestsKept e :=
  ⟨g.tests.trans h.tests, fun n hn x hx => (g.shown n hn x hx).trans (h.shown n hn x hx)⟩

/-- What a frame beside the measurement blocks keeps. -/
theorem keep {ks : List Nat} {ps : List Part} (h : c.TestsKept d) (kept : Chip.Kept true ks ps d e) (hk : BesideAcmp ks) (hp : .meas ∉ ps) :
    c.TestsKept e :=
  h.trans ⟨congrArg MeasSt.tests (kept.meas_eq hp), fun n hn x _ => kept.is_eq (fun _ => evKey_acmp_ch_stat n hn) (hk n hn) x⟩

theorem ite {p : Prop} [Decidable p] (h : c.TestsKept d) (g : c.TestsKept e) : c.TestsKept (if p then d else e) := by split <;> assumption

theorem updAcmp (h : c.TestsKept d) {n : Nat} {g : AcmpCh → AcmpCh} : c.TestsKept (d.updAcmp n g) := h.trans ⟨rfl, fun _ _ _ _ => rfl⟩

/-- A field of a comparator from IN_BLANK up. -/
theorem flag (h : c.TestsKept d) {n : Nat} {x : Fld} {b : Bool} (hx : F.ACMP_CH_STAT_IN_BLANK.lo ≤ x.lo) :
    c.TestsKept (d.flag (R.ACMP_CH_STAT n) x b) := by
  refine h.trans ⟨rfl, fun j hj y hy => ?_⟩
  have word : y.hi < 32 := hy.trans (by decide)
  rcases eq_or_ne n j with rfl | other
  · exact Chip.is_flag_beside _ _ _ _ _ word (.inl (by omega))
  · exact Chip.is_flag_ne _ _ _ _ _ _ (acmp_ch_stat_inj other)

/-- A blanking window opens at a comparator or at a trip source. -/
theorem blankEdge (h : c.TestsKept d) {ch edge : Nat} : c.TestsKept (d.blankEdge ch edge) := by
  unfold Chip.blankEdge
  refine forN_inv_lt c.TestsKept 16 _ _ (forN_inv_lt c.TestsKept 16 _ _ h fun n _ x hx => ?_) fun k _ x hx => ?_
  · exact ite (hx.updAcmp.flag (by decide)) hx
  · have trip : Chip.Kept true [R.TRIP_SRC_STAT k] [] x (x.flag (R.TRIP_SRC_STAT k) F.TRIP_SRC_STAT_IN_BLANK true) :=
      Chip.Kept.refl.flag (by simp)
    exact ite (hx.keep trip (besideAcmp_trip_src_stat k) (by simp)) hx

theorem chGates (h : c.TestsKept d) {n : Nat} {hi lo : Bool} : c.TestsKept (d.chGates n hi lo) := by
  have flags : Chip.Kept true [R.TRIP_CH_STAT, R.PWMC_STAT n] [] d
      ((d.flag (R.PWMC_STAT n) F.PWMC_STAT_GH hi).flag (R.PWMC_STAT n) F.PWMC_STAT_GL lo) :=
    (Chip.Kept.refl.flag (by simp)).flag (by simp)
  have edge : ∀ {p q : Prop} [Decidable p] [Decidable q] {x : Chip} {i j : Nat}, c.TestsKept x →
      c.TestsKept (if p then x.blankEdge n i else if q then x.blankEdge n j else x) := fun hx =>
    ite hx.blankEdge (ite hx.blankEdge hx)
  exact edge (edge (h.keep flags (besideAcmp_pwmc_stat n) (by simp)))

theorem gdiOut (h : c.TestsKept d) {n : Nat} (hn : n < 16) : c.TestsKept (d.gdiOut n) :=
  h.keep (Chip.Kept.refl.gdiOut hn (by simp) (by simp) (ks := [R.GDI_STAT n]) (ps := [.pwm])) (besideAcmp_gdi_stat n) (by simp)

theorem chOut (h : c.TestsKept d) {n : Nat} (hn : n < 16) : c.TestsKept (d.chOut n) := by
  unfold Chip.chOut
  generalize d.chReq n = r
  generalize d.tripOver n = o
  obtain ⟨rh, rl⟩ := r
  obtain ⟨off, low⟩ := o
  refine gdiOut (chGates (h.keep (ks := [R.TRIP_CH_STAT, R.PWMC_STAT n]) (ps := [.pwm]) ?_ (besideAcmp_pwmc_stat n) (by simp))) hn
  refine .ite (.flag ?_ (by simp)) ?_ <;>
    exact ((((Chip.Kept.refl.updCh (by simp)).setBit (by simp)).setBit (by simp)).flag (by simp)).flag (by simp)

theorem gates (h : c.TestsKept d) : c.TestsKept d.gates := forN_inv_lt c.TestsKept 16 _ d h fun _ hn _ hx => hx.chOut hn

theorem enter (h : c.TestsKept d) {m : Mode} : c.TestsKept (d.enter m) := by
  have moved : Chip.Kept true stateKeys [.mode] d ((({ d.setF R.SYS_STATE F.SYS_STATE_PREV d.mode.code with mode := m } : Chip).setF
      R.SYS_STATE F.SYS_STATE_STATE m.code)) :=
    ((Chip.Kept.refl.setF (by simp [stateKeys])).setMode (by simp)).setF (by simp [stateKeys])
  unfold Chip.enter
  refine ite h (ite (gates ?_) ?_) <;>
    exact h.keep (((moved.wr64 (by simp [stateKeys]) (by decide)).raise (by decide)).lapRec) besideAcmp_stateKeys (by simp)

theorem enterSafe (h : c.TestsKept d) {code : Nat} : c.TestsKept (d.enterSafe code) := by
  unfold Chip.enterSafe
  refine ite h (keep (ks := []) (ps := []) (enter (h.keep (ks := stateKeys) (ps := [.safe]) ?_ besideAcmp_stateKeys (by simp)))
    Chip.Kept.refl.pacerOnSafe (by simp [BesideAcmp]) (by simp))
  exact Chip.Kept.setSafe ((((Chip.Kept.ite (Chip.Kept.refl.setFEv (by decide)) .refl).setF (by simp [stateKeys])).setF
    (by simp [stateKeys])).incSat (by simp [stateKeys])) (by simp)

/-- A safety cause leaves the tests of the comparators (R189, R499). -/
theorem cause (h : c.TestsKept d) {code cls idx : Nat} : c.TestsKept (d.cause code cls idx) := by
  have latched : c.TestsKept (d.latch code cls idx) :=
    h.keep (ks := latchKeys) (ps := [.safe, .pwm]) (Chip.Kept.refl.latch (fun _ hm => hm) (by simp) (by simp)) besideAcmp_latchKeys
      (by simp)
  have logged : ∀ {e : Chip} {kind : Nat} {l : List Byte}, c.TestsKept e → c.TestsKept (e.logIt kind l) := fun he =>
    he.keep (ks := stateKeys) (ps := [.safe]) (Chip.Kept.refl.logIt (by simp [stateKeys]) (by simp)) besideAcmp_stateKeys (by simp)
  exact ite (ite (logged latched.enterSafe) latched.enterSafe) h

/-- The demand of a comparator on the Sheepdog, and what it causes (R189, R499). -/
theorem acmpShow (h : c.TestsKept d) {n : Nat} {blank : Bool} : c.TestsKept (d.acmpShow n blank) := by
  have demanded : ∀ (g : AcmpCh → AcmpCh) (b : Bool), c.TestsKept ((d.updAcmp n g).setBit R.SHD_DEMAND_AG n b) := fun g b =>
    h.updAcmp.keep (Chip.Kept.refl.setBit (List.mem_singleton_self _)) (ps := []) besideAcmp_shd_demand_ag (by simp)
  exact ite (demanded _ _).cause (demanded _ _)

theorem acmpNextTest (h : c.TestsKept d) : c.TestsKept d.acmpNextTest := by
  unfold Chip.acmpNextTest
  split
  · exact acmpShow h.updAcmp
  · exact h

end Chip.TestsKept

/-! ### Window comparators (O46) -/

/-- A bit just set. -/
theorem Chip.bit_setBit (c : Chip) (k : Nat) {i : Nat} (b : Bool) (hi : i < 32) : (c.setBit k i b).bit k i = b := by
  rw [Chip.bit_eq_is]
  exact Chip.is_flag c k ⟨i, i⟩ b hi rfl

theorem evKey_acmp_ch_cfg : ∀ n < 16, evKey (R.ACMP_CH_CFG n) = false := by decide

theorem acmp_ch_cfg_ne_stat (n : Nat) : R.ACMP_CH_CFG n ∉ [R.ACMP_CH_STAT n] := by
  simp only [List.mem_singleton, R.ACMP_CH_CFG, R.ACMP_CH_STAT]
  omega

/-- The region taken and the live bits that show it (R182, R183). -/
def Chip.acmpLive (c : Chip) (n : Nat) (r : Region) : Chip :=
  (((c.updAcmp n fun x => { x with region := r }).flag (R.ACMP_CH_STAT n) F.ACMP_CH_STAT_TRIPPED (c.acmpTripped n r)).flag
    (R.ACMP_CH_STAT n) F.ACMP_CH_STAT_ABOVE (decide (r = .above))).flag (R.ACMP_CH_STAT n) F.ACMP_CH_STAT_BELOW (decide (r = .below))

/-- A comparator that takes a region shows it, and TRIP_SEEN with the event where it becomes tripped. -/
theorem Chip.acmpTake_eq (c : Chip) (n : Nat) (r : Region) : c.acmpTake n r =
    if (c.acmpTripped n r && !c.is (R.ACMP_CH_STAT n) F.ACMP_CH_STAT_TRIPPED) = true then
      ((c.acmpLive n r).flag (R.ACMP_CH_STAT n) F.ACMP_CH_STAT_TRIP_SEEN true).raise P.ACMP 0
    else c.acmpLive n r := rfl

theorem Chip.acmpLive_kept (c : Chip) (n : Nat) (r : Region) :
    Chip.Kept true [R.ACMP_CH_STAT n] [] (c.updAcmp n fun x => { x with region := r }) (c.acmpLive n r) :=
  ((Chip.Kept.refl.flag (by simp)).flag (by simp)).flag (by simp)

theorem Chip.acmpTake_kept (c : Chip) (n : Nat) (r : Region) :
    Chip.Kept true [R.ACMP_CH_STAT n] [] (c.updAcmp n fun x => { x with region := r }) (c.acmpTake n r) := by
  rw [Chip.acmpTake_eq]
  exact .ite (((c.acmpLive_kept n r).flag (by simp)).raise (by decide)) (c.acmpLive_kept n r)

/-- What the live bits show (R183). -/
theorem Chip.acmpTake_shown (c : Chip) {n : Nat} (hn : n < 16) (r : Region) :
    (c.acmpTake n r).is (R.ACMP_CH_STAT n) F.ACMP_CH_STAT_TRIPPED = c.acmpTripped n r
      ∧ (c.acmpTake n r).is (R.ACMP_CH_STAT n) F.ACMP_CH_STAT_ABOVE = decide (r = .above)
      ∧ (c.acmpTake n r).is (R.ACMP_CH_STAT n) F.ACMP_CH_STAT_BELOW = decide (r = .below) := by
  have seen : ∀ x : Fld, 28 < x.lo → x.hi < 32 →
      (c.acmpTake n r).is (R.ACMP_CH_STAT n) x = (c.acmpLive n r).is (R.ACMP_CH_STAT n) x := by
    intro x above word
    rw [Chip.acmpTake_eq]
    refine Chip.is_ite ?_ rfl
    rw [Chip.is_raise _ _ _ _ _ (by decide) (evKey_acmp_ch_stat n hn),
      Chip.is_flag_beside _ _ _ _ _ word (.inr (Nat.lt_trans (by decide) above))]
  rw [seen _ (by decide) (by decide), seen _ (by decide) (by decide), seen _ (by decide) (by decide)]
  refine ⟨?_, ?_, Chip.is_flag _ _ _ _ (by decide) (by decide)⟩
  · rw [Chip.acmpLive, Chip.is_flag_beside _ _ _ _ _ (by decide) (by decide), Chip.is_flag_beside _ _ _ _ _ (by decide) (by decide),
      Chip.is_flag _ _ _ _ (by decide) (by decide)]
  · rw [Chip.acmpLive, Chip.is_flag_beside _ _ _ _ _ (by decide) (by decide), Chip.is_flag _ _ _ _ (by decide) (by decide)]

/-- The comparator that took the region, and its configuration. -/
theorem Chip.acmpTake_acmp (c : Chip) {n : Nat} (h : n < c.meas.acmp.length) (r : Region) :
    (c.acmpTake n r).acmp n = { c.acmp n with region := r } := by
  rw [Chip.acmp, (c.acmpTake_kept n r).meas_eq (by simp)]
  exact nth_upd_same h _ _

theorem Chip.acmpTake_cfg (c : Chip) {n : Nat} (hn : n < 16) (r : Region) : (c.acmpTake n r).rd (R.ACMP_CH_CFG n) = c.rd (R.ACMP_CH_CFG n) :=
  (c.acmpTake_kept n r).regs _ (fun _ => evKey_acmp_ch_cfg n hn) (acmp_ch_cfg_ne_stat n)

theorem Chip.acmpTripped_congr {c d : Chip} {n : Nat} (h : d.rd (R.ACMP_CH_CFG n) = c.rd (R.ACMP_CH_CFG n)) (r : Region) :
    d.acmpTripped n r = c.acmpTripped n r := by
  cases r
  · rfl
  · exact Chip.is_congr h _
  · exact Chip.is_congr h _

/-! #### The demand on the Sheepdog -/

/-- A comparator that the Sheepdog does not follow demands nothing (R189). -/
theorem Chip.acmpShow_unfollowed {c : Chip} {n : Nat} (blank : Bool) (h : c.is (R.ACMP_CH_CFG n) F.ACMP_CH_CFG_SHD = false) :
    ∃ g, c.acmpShow n blank = (c.updAcmp n g).setBit R.SHD_DEMAND_AG n false := by
  unfold Chip.acmpShow
  simp only [Chip.updAcmp_is, h, Bool.and_false, Bool.false_and, Bool.false_eq_true, if_false]
  exact ⟨_, rfl⟩

/-- A running comparator that trips, neither blanked nor under test, demands the safe state (R184, R499). -/
theorem Chip.acmpShow_demands {c : Chip} {n : Nat}
    (runs : c.f (R.ACMP_CH_CFG n) F.ACMP_CH_CFG_MODE = 1 ∨ c.f (R.ACMP_CH_CFG n) F.ACMP_CH_CFG_MODE = 2)
    (testing : (c.acmp n).testing = false) (tripped : c.acmpTripped n (c.acmp n).region = true)
    (followed : c.is (R.ACMP_CH_CFG n) F.ACMP_CH_CFG_SHD = true) (before : c.bit R.SHD_DEMAND_AG n = false) :
    ∃ g, c.acmpShow n false = ((c.updAcmp n g).setBit R.SHD_DEMAND_AG n true).cause 0x03 5 n := by
  have still : ∀ g, (c.updAcmp n g).bit R.SHD_DEMAND_AG n = false := fun _ => before
  unfold Chip.acmpShow
  simp only [Chip.updAcmp_is, testing, tripped, followed, still, runs, decide_true, Bool.and_true, Bool.or_false, Bool.not_false,
    Bool.false_eq_true, if_true, if_false]
  exact ⟨_, rfl⟩

/-! #### What the commands do -/

theorem Chip.bypass_of {c : Chip} (h : c.powered = true) (g : Chip → Chip) : c.bypass g = (g c).lapLevels := Chip.viaShd_of h _

/-- ACMP_CHANGE of a running comparator (R182). -/
theorem doAcmpChange_eq {c : Chip} (n : Fin 16) (uv : BitVec 24) (st : Bool) (powered : c.powered = true)
    (runs : c.f (R.ACMP_CH_CFG n) F.ACMP_CH_CFG_MODE = 1 ∨ c.f (R.ACMP_CH_CFG n) F.ACMP_CH_CFG_MODE = 2) :
    doAcmpChange n uv st c = ((c.acmpTake n (c.acmpRegion n uv.toNat)).acmpShow n ((c.acmp n).blank && !st)).lapLevels := by
  rw [doAcmpChange, Chip.bypass_of powered]
  exact congrArg Chip.lapLevels (if_pos runs)

/-- ACMP_CHANGE of a comparator that the Sheepdog does not follow (R182, R183). -/
theorem doAcmpChange_unfollowed {c : Chip} (n : Fin 16) (uv : BitVec 24) (st : Bool) (powered : c.powered = true)
    (runs : c.f (R.ACMP_CH_CFG n) F.ACMP_CH_CFG_MODE = 1 ∨ c.f (R.ACMP_CH_CFG n) F.ACMP_CH_CFG_MODE = 2)
    (unfollowed : c.is (R.ACMP_CH_CFG n) F.ACMP_CH_CFG_SHD = false) :
    Chip.Kept true [R.ACMP_CH_STAT n, R.SHD_DEMAND_AG] [.meas] c (doAcmpChange n uv st c)
      ∧ (doAcmpChange n uv st c).is (R.ACMP_CH_STAT n) F.ACMP_CH_STAT_TRIPPED = c.acmpTripped n (c.acmpRegion n uv.toNat)
      ∧ (doAcmpChange n uv st c).is (R.ACMP_CH_STAT n) F.ACMP_CH_STAT_ABOVE = decide (c.acmpRegion n uv.toNat = .above)
      ∧ (doAcmpChange n uv st c).is (R.ACMP_CH_STAT n) F.ACMP_CH_STAT_BELOW = decide (c.acmpRegion n uv.toNat = .below) := by
  rw [doAcmpChange_eq n uv st powered runs]
  generalize c.acmpRegion n uv.toNat = r
  have shown := c.acmpTake_shown n.isLt r
  have taken : Chip.Kept true [R.ACMP_CH_STAT n, R.SHD_DEMAND_AG] [.meas] c (c.acmpTake n r) :=
    (Chip.Kept.refl.updAcmp (by simp)).trans ((c.acmpTake_kept n r).mono (by simp) (by simp))
  obtain ⟨g, shows⟩ := Chip.acmpShow_unfollowed ((c.acmp n).blank && !st) ((Chip.is_congr (c.acmpTake_cfg n.isLt r) _).trans unfollowed)
  rw [shows]
  generalize c.acmpTake n r = d at shown taken ⊢
  have demand : Chip.Kept true [R.SHD_DEMAND_AG] [.meas] d ((d.updAcmp n g).setBit R.SHD_DEMAND_AG n false).lapLevels :=
    ((Chip.Kept.refl.updAcmp (by simp)).setBit (by simp)).lapLevels
  have stat := demand.is_eq (fun _ => evKey_acmp_ch_stat n n.isLt) (besideAcmp_shd_demand_ag n n.isLt)
  rw [stat, stat, stat]
  exact ⟨taken.trans (demand.mono (by simp) (by simp)), shown⟩

/-- ACMP_CHANGE that trips a comparator which the Sheepdog follows (R184, R499). -/
theorem doAcmpChange_trips {c : Chip} (n : Fin 16) (uv : BitVec 24) (st : Bool) (powered : c.powered = true)
    (runs : c.f (R.ACMP_CH_CFG n) F.ACMP_CH_CFG_MODE = 1 ∨ c.f (R.ACMP_CH_CFG n) F.ACMP_CH_CFG_MODE = 2)
    (followed : c.is (R.ACMP_CH_CFG n) F.ACMP_CH_CFG_SHD = true) (listed : n.val < c.meas.acmp.length)
    (unblanked : (c.acmp n).blank = false) (testing : (c.acmp n).testing = false) (before : c.bit R.SHD_DEMAND_AG n = false)
    (trips : c.acmpTripped n (c.acmpRegion n uv.toNat) = true) :
    (doAcmpChange n uv st c).bit R.SHD_DEMAND_AG n = true ∧ (doAcmpChange n uv st c).is R.SHD_STAT F.SHD_STAT_LATCH = true
      ∧ (doAcmpChange n uv st c).mode = .safe := by
  rw [doAcmpChange_eq n uv st powered runs, unblanked, Bool.false_and]
  generalize c.acmpRegion n uv.toNat = r at trips ⊢
  have cfg := c.acmpTake_cfg n.isLt r
  have taken := c.acmpTake_kept n r
  have demand : (c.acmpTake n r).bit R.SHD_DEMAND_AG n = false := by
    rw [Chip.bit, taken.regs _ (fun _ => by decide) (by simpa [eq_comm] using besideAcmp_shd_demand_ag n n.isLt)]
    exact before
  obtain ⟨g, shows⟩ := Chip.acmpShow_demands (c := c.acmpTake n r) (n := n) (by simpa only [Chip.f_congr cfg] using runs)
    (by rw [c.acmpTake_acmp listed, testing]) (by rw [c.acmpTake_acmp listed, Chip.acmpTripped_congr cfg, trips])
    ((Chip.is_congr cfg _).trans followed) demand
  rw [shows]
  have still : (((c.acmpTake n r).updAcmp n g).setBit R.SHD_DEMAND_AG n true).powered = true := by
    rw [Chip.powered, Chip.setBit_mode, Chip.updAcmp_mode, taken.mode_eq (by simp), Chip.updAcmp_mode]
    exact powered
  have shown := ((c.acmpTake n r).updAcmp n g).bit_setBit R.SHD_DEMAND_AG true (Nat.lt_trans n.isLt (by decide))
  generalize ((c.acmpTake n r).updAcmp n g).setBit R.SHD_DEMAND_AG n true = d at still shown ⊢
  obtain ⟨safe, latch⟩ := Chip.safe_cause (code := 0x03) still (by decide) 5 n
  have caused : Chip.Kept true (R.SHD_STAT :: causeKeys) causeParts d (d.cause 0x03 5 n) :=
    Chip.Kept.refl.cause (fun _ hm => hm) fun _ hm => hm
  have levels := (d.cause 0x03 5 n).lapLevels_kept
  refine ⟨?_, (levels.is_eq (fun _ => by decide) (by simp) _).trans latch, (levels.mode_eq (by simp)).trans safe⟩
  rw [Chip.bit, levels.regs _ (fun _ => by decide) (by simp), caused.regs _ (fun _ => by decide) shd_demand_ag_notMem_cause]
  exact shown

/-- ACMP_SELFTEST outside RUN and DEGRADED, with no test under way (R189). -/
theorem doAcmpSelftest_starts {w : Writer} {s : State} (mask : BitVec 16) (may : May w R.ACMP_CMD s) (stopped : s.chip.running = false)
    (idle : s.chip.meas.tests = []) :
    (doAcmpSelftest w theKey mask s.chip).meas.tests = (List.range 16).filter fun n => nbit mask.toNat n := by
  obtain ⟨powered, running, allowed⟩ := may
  have marked : ∀ d : Chip, d.acmpNextTest.lapLevels.meas.tests = d.meas.tests := fun d => by
    rw [d.acmpNextTest.lapLevels_kept.meas_eq (by simp), (Chip.TestsKept.refl.acmpNextTest).tests]
  rw [doAcmpSelftest, Chip.cmd_of _ _ _ _ powered running allowed, Chip.acmpSelftest, if_neg (by simp [stopped])]
  dsimp only
  rw [if_pos idle, marked]
  rfl

/-- ACMP_SELFTEST in RUN and DEGRADED (R189). -/
theorem doAcmpSelftest_refused {w : Writer} {s : State} (mask : BitVec 16) (may : May w R.ACMP_CMD s) (runs : s.chip.running = true) :
    doAcmpSelftest w theKey mask s.chip = s.chip.perr R.ACMP_CMD .state w.ini.code := by
  obtain ⟨powered, running, allowed⟩ := may
  rw [doAcmpSelftest, Chip.cmd_of _ _ _ _ powered running allowed]
  exact if_pos runs

/-- The verdict on comparator `n`, taken off the list of tests (R189). -/
def Chip.acmpVerdict (c : Chip) (n : Nat) (rest : List Nat) (pass : Bool) : Chip :=
  (((c.updMeas fun m => { m with tests := rest }).updAcmp n fun x => { x with testing := false }).flag (R.ACMP_CH_STAT n)
    F.ACMP_CH_STAT_ST_PASS pass).flag (R.ACMP_CH_STAT n) F.ACMP_CH_STAT_ST_FAIL (!pass)

theorem Chip.acmpVerdict_shown (c : Chip) (n : Nat) (rest : List Nat) (pass : Bool) :
    (c.acmpVerdict n rest pass).meas.tests = rest ∧ (c.acmpVerdict n rest pass).is (R.ACMP_CH_STAT n) F.ACMP_CH_STAT_ST_PASS = pass
      ∧ (c.acmpVerdict n rest pass).is (R.ACMP_CH_STAT n) F.ACMP_CH_STAT_ST_FAIL = !pass := by
  refine ⟨rfl, ?_, Chip.is_flag _ _ _ _ (by decide) (by decide)⟩
  rw [Chip.acmpVerdict, Chip.is_flag_beside _ _ _ _ _ (by decide) (by decide), Chip.is_flag _ _ _ _ (by decide) (by decide)]

/-- ACMP_SELFTEST_STEP (R189). -/
theorem doAcmpSelftestStep_verdict {s : State} {n : Nat} {rest : List Nat} (pass : Bool) (awake : Awake P.ACMP s)
    (tests : s.chip.meas.tests = n :: rest) : (s.chip.acmpVerdict n rest pass).TestsKept (doAcmpSelftestStep pass s.chip) := by
  have raised : ∀ {c d : Chip} {i : Nat} {p : Bool}, c.TestsKept d → c.TestsKept (d.raiseIf p P.ACMP i) := fun h =>
    h.keep (ks := []) (ps := []) (Chip.Kept.refl.raiseIf (by decide)) (by simp [BesideAcmp]) (by simp)
  have shown : (s.chip.acmpVerdict n rest pass).TestsKept (((s.chip.acmpVerdict n rest pass).raiseIf (!pass) P.ACMP 2).acmpOutputs n) :=
    (raised .refl).acmpShow
  rw [doAcmpSelftestStep, Chip.clockedLap, Chip.clocked_awake awake, tests]
  refine .keep (ks := []) (ps := []) (.ite ?_ shown.acmpNextTest) (Chip.lapLevels_kept _) (by simp [BesideAcmp]) (by simp)
  exact raised (p := true) shown

/-- Settles O46: each clause is what the command's lemma above says of the chip; the memory and the queue stay beside it. -/
theorem comparatorCommands : Obligations.ComparatorCommands := by
  refine ⟨?_, ?_, ?_, ?_, ?_⟩
  · intro n uv st s powered runs unfollowed
    obtain ⟨kept, shown⟩ := doAcmpChange_unfollowed n uv st powered runs unfollowed
    exact ⟨_, rfl, ⟨⟨rfl, rfl⟩, kept⟩, shown⟩
  · exact fun n uv st s powered runs followed listed unblanked testing before trips =>
      ⟨_, rfl, ⟨rfl, rfl⟩, doAcmpChange_trips n uv st powered runs followed listed unblanked testing before trips⟩
  · exact fun w mask s may stopped idle => ⟨_, rfl, ⟨rfl, rfl⟩, doAcmpSelftest_starts mask may stopped idle⟩
  · exact fun w mask s may runs => ⟨_, rfl, ⟨rfl, rfl⟩, doAcmpSelftest_refused mask may runs⟩
  · intro pass n r s awake tests hn
    have kept := doAcmpSelftestStep_verdict pass awake tests
    obtain ⟨left, passed, failed⟩ := s.chip.acmpVerdict_shown n r pass
    exact ⟨_, rfl, ⟨rfl, rfl⟩, kept.tests.trans left, (kept.shown n hn _ (by decide)).trans passed,
      (kept.shown n hn _ (by decide)).trans failed⟩

/-! ### Measurement front end (O44) -/

/-- Two changes of one element are one. -/
theorem upd_upd {α : Type} (l : List α) (i : Nat) (g h : α → α) : upd (upd l i g) i h = upd l i fun x => h (g x) :=
  List.modify_modify_eq ..

theorem unsgn_lt (n : Nat) (z : Int) : unsgn n z < 2 ^ n := by
  have positive : (0 : Int) < ((2 ^ n : Nat) : Int) := by positivity
  have below := Int.emod_lt_of_pos z positive
  have above := Int.emod_nonneg z positive.ne'
  unfold unsgn
  omega

theorem b2n_le_one (b : Bool) : b2n b ≤ 1 := by cases b <;> decide

/-! #### Logical channels -/

/-- A channel that runs is one of those listed. -/
theorem Chip.afe_listed {c : Chip} {n : Nat} (runs : (c.afe n).run = true) : n < c.meas.afe.length := by
  by_contra beyond
  have absent : c.afe n = {} := List.getD_eq_default _ _ (Nat.le_of_not_lt beyond)
  rw [absent] at runs
  cases runs

theorem Chip.afe_updAfe {c : Chip} {n : Nat} (listed : n < c.meas.afe.length) (g : AfeCh → AfeCh) : (c.updAfe n g).afe n = g (c.afe n) :=
  nth_upd_same listed g _

/-- An edge completes results of running channels alone (R156). -/
theorem Chip.run_of_afeEdge {c : Chip} {n e : Nat} (edge : c.afeEdge n = some e) : (c.afe n).run = true := by
  by_contra stands
  simp [Chip.afeEdge, stands] at edge

/-- Where the edge completes a result, the channel's next edge follows and all else of the channel is as before (R157). -/
theorem Chip.afe_edgeTaken {c : Chip} {n e : Nat} (edge : c.afeEdge n = some e) :
    (c.edgeTaken n e).afe n = { c.afe n with due := e + outPeriod (c.afe n).lo } :=
  Chip.afe_updAfe (c := c.updMeas _) (Chip.afe_listed (c := c) (Chip.run_of_afeEdge edge)) _

theorem Chip.edgeTaken_kept (c : Chip) (n e : Nat) : Chip.Kept false [] [.meas] c (c.edgeTaken n e) :=
  (Chip.Kept.refl.updMeas (by simp)).updAfe (by simp)

/-- SETTLE_EXPIRY of a running channel (R156). -/
theorem doSettleExpiry_runs {n : Fin 10} {s : State} (awake : Awake P.SEQ s) (runs : (s.chip.afe n).run = true) :
    doSettleExpiry n s.chip = s.chip.updAfe n fun x => { x with settling := false } := by
  rw [doSettleExpiry, Chip.clocked_awake awake, if_pos runs]

theorem Chip.rotOf_none {c : Chip} (still : c.meas.rot = none) (n : Nat) : c.rotOf n = none := by rw [Chip.rotOf, still]

/-- After a kept result channel `n` moves on where its entry has changed or its repeats are done (R155, R159). -/
def Chip.afeMoveOn (c : Chip) (n e : Nat) : Chip :=
  if (c.afe n).changed || (decide (fget (c.afe n).hi F.SEQ_E_HI0_REPEAT ≠ 0)
      && decide (fget (c.afe n).hi F.SEQ_E_HI0_REPEAT ≤ (c.afe n).kept)) then c.nextEntry n e
  else c

/-- An entry that has not changed and repeats without end stays. -/
theorem Chip.afeMoveOn_stays {c : Chip} {n : Nat} (e : Nat) (current : (c.afe n).changed = false)
    (endless : fget (c.afe n).hi F.SEQ_E_HI0_REPEAT = 0) : c.afeMoveOn n e = c := if_neg (by simp [current, endless])

/-- AFE_RESULT without a rotation: the edge is taken, and the result discarded or kept (R151, R153). -/
theorem doAfeResult_eq {n : Fin 10} {s : State} {e : Nat} (raw partner : BitVec 24) (ovl same : Bool) (awake : Awake P.AFE s)
    (edge : s.chip.afeEdge n = some e) (still : s.chip.meas.rot = none) (current : (s.chip.afe n).changed = false) :
    ∃ same', doAfeResult n raw partner ovl same s.chip =
      if 0 < (s.chip.afe n).discard then (s.chip.edgeTaken n e).updAfe n fun x => { x with discard := x.discard - 1 }
      else ((s.chip.edgeTaken n e).afeKept n raw.toInt partner.toInt ovl same').afeMoveOn n e := by
  have stays : ∀ c d : Chip, (if ((s.chip.edgeTaken n e).afe n).changed = true then c else d) = d := fun _ _ =>
    if_neg (by simp [Chip.afe_edgeTaken edge, current])
  have left : ((s.chip.edgeTaken n e).afe n).discard = (s.chip.afe n).discard := by rw [Chip.afe_edgeTaken edge]
  rw [doAfeResult, Chip.clocked_awake awake, edge]
  simp only [Chip.rotOf_none still, stays, left]
  exact ⟨_, rfl⟩

/-- AFE_RESULT while results are discarded (R151). -/
theorem doAfeResult_discards {n : Fin 10} {s : State} {e : Nat} (raw partner : BitVec 24) (ovl same : Bool) (awake : Awake P.AFE s)
    (edge : s.chip.afeEdge n = some e) (still : s.chip.meas.rot = none) (discards : 0 < (s.chip.afe n).discard)
    (current : (s.chip.afe n).changed = false) :
    doAfeResult n raw partner ovl same s.chip = (s.chip.edgeTaken n e).updAfe n fun x => { x with discard := x.discard - 1 } := by
  obtain ⟨same', result⟩ := doAfeResult_eq raw partner ovl same awake edge still current
  rw [result, if_pos discards]

/-! #### Kept results -/

theorem Chip.Kept.mtrTake {ev : Bool} {ks : List Nat} {ps : List Part} {c d : Chip} (h : Chip.Kept ev ks ps c d) (hp : .mtr ∈ ps)
    {src : Nat} {inst : Int} {x : Slot} : Chip.Kept ev ks ps c (d.mtrTake src inst x) :=
  h.forN fun _ _ he => he.forN fun _ _ hx => .ite (.ite (hx.updPort hp) (hx.updPort hp)) hx

theorem Chip.Kept.addFrame {ev : Bool} {ks : List Nat} {ps : List Part} {c d : Chip} (h : Chip.Kept ev ks ps c d) (hp : .meas ∈ ps)
    {same : Bool} {src slot : Nat} {w : Word} : Chip.Kept ev ks ps c (d.addFrame same src slot w) := h.updMeas hp

/-- AFE.RES of channel `n` shows mantissa `v`, SAT and the next count; a saturated result is an event (R153). -/
def Chip.afeShow (c : Chip) (n : Nat) (v : Int) (sat : Bool) : Chip :=
  (c.wrN (R.AFE_RES n) (unsgn 24 v * 256 + b2n sat * 128 + (c.f (R.AFE_RES n) F.AFE_RES_COUNT + 1) % 64)).raiseIf sat P.AFE 2

theorem evKey_afe_res : ∀ n < 10, evKey (R.AFE_RES n) = false ∧ evKey (R.AFE_LCH n) = false ∧ R.AFE_LCH n ∉ [R.AFE_RES n] := by decide

theorem Chip.afeShow_kept (c : Chip) (n : Nat) (v : Int) (sat : Bool) : Chip.Kept true [R.AFE_RES n] [] c (c.afeShow n v sat) :=
  (Chip.Kept.refl.wrN (by simp)).raiseIf (by decide)

theorem Chip.rdN_afeShow (c : Chip) {n : Nat} (hn : n < 10) (v : Int) (sat : Bool) : (c.afeShow n v sat).rdN (R.AFE_RES n)
    = unsgn 24 v * 256 + b2n sat * 128 + (c.f (R.AFE_RES n) F.AFE_RES_COUNT + 1) % 64 := by
  have raised : ∀ d : Chip, Chip.Kept true [] [] d (d.raiseIf sat P.AFE 2) := fun d => Chip.Kept.refl.raiseIf (by decide)
  have mantissa := unsgn_lt 24 v
  have flag := b2n_le_one sat
  rw [Chip.afeShow, Chip.rdN, (raised _).regs _ (fun _ => (evKey_afe_res n hn).1) (by simp), Chip.wrN, Chip.rd_wr_same, wd,
    BitVec.toNat_ofNat]
  omega

/-- The frame of a result of channel `n` on the sample bus, where a slot is its own (R147). -/
def Chip.afeFrame (c : Chip) (same : Bool) (n : Nat) (hi : Word) (v : Int) (sat : Bool) : Chip :=
  if fget hi F.SEQ_E_HI0_SLOT_EN = 1 && c.holds (Cl.afe n) (fget hi F.SEQ_E_HI0_SLOT) then
    c.addFrame same (24 + n) (fget hi F.SEQ_E_HI0_SLOT) (Slot.mk v (c.fs (R.AFE_LCH n) F.AFE_LCH_EXP) sat false).word
  else c

theorem Chip.afeFrame_kept (c : Chip) (same : Bool) (n : Nat) (hi : Word) (v : Int) (sat : Bool) :
    Chip.Kept false [] [.meas] c (c.afeFrame same n hi v sat) := .ite (Chip.Kept.refl.addFrame (by simp)) .refl

/-- A frame leaves the logical channels. -/
theorem Chip.afeFrame_afe (c : Chip) (same : Bool) (n : Nat) (hi : Word) (v : Int) (sat : Bool) :
    (c.afeFrame same n hi v sat).meas.afe = c.meas.afe := by
  unfold Chip.afeFrame
  split <;> rfl

/-- A frame sent is among those waiting (R14). -/
theorem Chip.addFrame_waits (c : Chip) (same : Bool) (src slot : Nat) (w : Word) :
    ((c.addFrame same src slot w).meas.frames.any fun x => x.src = src && x.slot = slot && x.word = w) = true :=
  List.any_eq_true.2 ⟨⟨_, src, slot, w⟩, List.mem_append_right _ List.mem_cons_self, by simp⟩

/-- A kept result of channel `n`, with `v` and `sat` as corrected: shown, taken by the meters, sent as a frame, and counted. -/
def Chip.afeTaken (c : Chip) (n : Nat) (v : Int) (sat : Bool) (inst : Int) (x : Slot) (same : Bool) : Chip :=
  (((c.afeShow n v sat).mtrTake (24 + n) inst x).afeFrame same n (c.afe n).hi v sat).updAfe n fun y => { y with kept := y.kept + 1 }

/-- Channel `n` corrects the raw code `raw` to `v`, saturated where `sat` holds (R163). -/
def Chip.AfeCorrects (c : Chip) (n : Nat) (raw : Int) (ovl : Bool) (v : Int) (sat : Bool) : Prop :=
  v = (c.corrected (c.lchMod n) (fget (c.afe n).lo F.SEQ_E_LO0_PGA) raw).1
    ∧ sat = (ovl || (c.corrected (c.lchMod n) (fget (c.afe n).lo F.SEQ_E_LO0_PGA) raw).2)

/-- A kept result of a channel that runs no duet. -/
theorem Chip.afeKept_solo {c : Chip} {n : Nat} (solo : c.lchDuet n = false) (raw partner : Int) (ovl same : Bool) :
    ∃ v sat inst x, c.AfeCorrects n raw ovl v sat ∧ c.afeKept n raw partner ovl same = c.afeTaken n v sat inst x same := by
  unfold Chip.afeKept
  simp only [solo, Bool.false_and, Bool.false_eq_true, if_false, b2n_false, Nat.zero_mul, Nat.add_zero]
  exact ⟨_, _, _, _, ⟨rfl, rfl⟩, rfl⟩

/-- What the meters have taken of the result, before its frame. -/
theorem Chip.afeMetered_kept (c : Chip) (n : Nat) (v : Int) (sat : Bool) (inst : Int) (x : Slot) :
    Chip.Kept true [R.AFE_RES n] [.mtr] c ((c.afeShow n v sat).mtrTake (24 + n) inst x) :=
  ((c.afeShow_kept n v sat).mono (fun _ h => h) (by simp)).mtrTake (by simp)

theorem Chip.afeTaken_kept (c : Chip) (n : Nat) (v : Int) (sat : Bool) (inst : Int) (x : Slot) (same : Bool) :
    Chip.Kept true [R.AFE_RES n] [.meas, .mtr] c (c.afeTaken n v sat inst x same) :=
  (((c.afeMetered_kept n v sat inst x).mono (fun _ h => h) (by simp)).trans
    ((Chip.afeFrame_kept ..).toEv.mono (by simp) (by simp))).updAfe (by simp)

/-- An edge taken and the result kept, from before the edge on. -/
theorem Chip.afeResult_kept (c : Chip) (n e : Nat) (v : Int) (sat : Bool) (inst : Int) (x : Slot) (same : Bool) :
    Chip.Kept true [R.AFE_RES n] [.meas, .mtr] c ((c.edgeTaken n e).afeTaken n v sat inst x same) :=
  ((c.edgeTaken_kept n e).toEv.mono (by simp) (by simp)).trans (Chip.afeTaken_kept ..)

theorem Chip.rdN_afeTaken (c : Chip) {n : Nat} (hn : n < 10) (v : Int) (sat : Bool) (inst : Int) (x : Slot) (same : Bool) :
    (c.afeTaken n v sat inst x same).rdN (R.AFE_RES n)
      = unsgn 24 v * 256 + b2n sat * 128 + (c.f (R.AFE_RES n) F.AFE_RES_COUNT + 1) % 64 := by
  have metered : Chip.Kept false [] [.meas, .mtr] (c.afeShow n v sat) (c.afeTaken n v sat inst x same) :=
    ((Chip.Kept.refl.mtrTake (by simp)).trans ((Chip.afeFrame_kept ..).mono (by simp) (by simp))).updAfe (by simp)
  rw [← c.rdN_afeShow hn v sat, Chip.rdN, metered.regs _ (by simp) (by simp), Chip.rdN]

/-- The channel counts the result, and nothing else of it changes. -/
theorem Chip.afe_afeTaken {c : Chip} {n : Nat} (listed : n < c.meas.afe.length) (v : Int) (sat : Bool) (inst : Int) (x : Slot)
    (same : Bool) : (c.afeTaken n v sat inst x same).afe n = { c.afe n with kept := (c.afe n).kept + 1 } := by
  have before : (((c.afeShow n v sat).mtrTake (24 + n) inst x).afeFrame same n (c.afe n).hi v sat).meas.afe = c.meas.afe := by
    rw [Chip.afeFrame_afe, (c.afeMetered_kept n v sat inst x).meas_eq (by simp)]
  rw [Chip.afeTaken, Chip.afe_updAfe (by rw [before]; exact listed), Chip.afe, before, Chip.afe]

/-- Without a slot of its own the result is counted and no frame is sent (R147). -/
theorem Chip.meas_afeTaken {c : Chip} {n : Nat} (v : Int) (sat : Bool) (inst : Int) (x : Slot) (same : Bool)
    (slotless : fget (c.afe n).hi F.SEQ_E_HI0_SLOT_EN = 0) :
    (c.afeTaken n v sat inst x same).meas = { c.meas with afe := upd c.meas.afe n fun y => { y with kept := y.kept + 1 } } := by
  have unsent : ∀ d : Chip, d.afeFrame same n (c.afe n).hi v sat = d := fun d => if_neg (by simp [slotless])
  rw [Chip.afeTaken, unsent, Chip.updAfe, Chip.updMeas_meas, (c.afeMetered_kept n v sat inst x).meas_eq (by simp)]

/-- With a slot of its own the result waits as a frame of the sample bus (R147). -/
theorem Chip.frame_afeTaken {c : Chip} {n : Nat} (hn : n < 10) (v : Int) (sat : Bool) (inst : Int) (x : Slot) (same : Bool)
    (slotted : fget (c.afe n).hi F.SEQ_E_HI0_SLOT_EN = 1) (own : c.holds (Cl.afe n) (fget (c.afe n).hi F.SEQ_E_HI0_SLOT) = true) :
    ((c.afeTaken n v sat inst x same).meas.frames.any fun y => y.src = 24 + n && y.slot = fget (c.afe n).hi F.SEQ_E_HI0_SLOT
      && y.word = (Slot.mk v (c.fs (R.AFE_LCH n) F.AFE_LCH_EXP) sat false).word) = true := by
  have metered := c.afeMetered_kept n v sat inst x
  obtain ⟨-, plain, other⟩ := evKey_afe_res n hn
  have exp : ((c.afeShow n v sat).mtrTake (24 + n) inst x).fs (R.AFE_LCH n) F.AFE_LCH_EXP = c.fs (R.AFE_LCH n) F.AFE_LCH_EXP :=
    congrArg _ (metered.f_eq (fun _ => plain) other _)
  have held : ((c.afeShow n v sat).mtrTake (24 + n) inst x).holds (Cl.afe n) (fget (c.afe n).hi F.SEQ_E_HI0_SLOT) = true := by
    have str := metered.parts .str (by simp) (by simp) (by simp)
    rw [Chip.holds, Chip.owner, str]
    exact own
  rw [Chip.afeTaken, Chip.afeFrame, if_pos (by simp [slotted, held]), exp]
  exact Chip.addFrame_waits ..

/-- AFE_RESULT that keeps the result of a channel without a duet, whose entry has not changed and repeats without end (R153). -/
theorem doAfeResult_keeps {n : Fin 10} {s : State} {e : Nat} (raw partner : BitVec 24) (ovl same : Bool) (awake : Awake P.AFE s)
    (edge : s.chip.afeEdge n = some e) (still : s.chip.meas.rot = none) (keeps : (s.chip.afe n).discard = 0)
    (current : (s.chip.afe n).changed = false) (endless : fget (s.chip.afe n).hi F.SEQ_E_HI0_REPEAT = 0)
    (solo : s.chip.lchDuet n = false) :
    ∃ v sat inst x same', s.chip.AfeCorrects n raw.toInt ovl v sat
      ∧ doAfeResult n raw partner ovl same s.chip = (s.chip.edgeTaken n e).afeTaken n v sat inst x same' := by
  have channel := Chip.afe_edgeTaken edge
  have listed : n.val < (s.chip.edgeTaken n e).meas.afe.length :=
    Chip.afe_listed (by rw [channel]; exact Chip.run_of_afeEdge edge)
  obtain ⟨same', result⟩ := doAfeResult_eq raw partner ovl same awake edge still current
  obtain ⟨v, sat, inst, x, corrects, kept⟩ := Chip.afeKept_solo (c := s.chip.edgeTaken n e) solo raw.toInt partner.toInt ovl same'
  have counted := Chip.afe_afeTaken listed v sat inst x same'
  rw [channel] at counted
  refine ⟨v, sat, inst, x, same', ?_, ?_⟩
  · rw [Chip.AfeCorrects, channel] at corrects
    exact corrects
  · rw [result, if_neg (by simp [keeps]), kept]
    exact Chip.afeMoveOn_stays e (by rw [counted]; exact current) (by rw [counted]; exact endless)

/-! #### Calibration -/

theorem Chip.afeCal_starts {c : Chip} {h : Nat} (hh : h < 2) (i : Nat) (first : c.bit R.SEQ_CTL 0 = false)
    (second : c.bit R.SEQ_CTL 1 = false) (highPower : c.is R.AFE_CTL F.AFE_CTL_LP = false) (still : c.meas.rot = none) :
    c.afeCal h i = (c.updMeas fun m => { m with cal := upd m.cal h fun _ => (List.range 6).map (6 * h + ·) }).setBit R.AFE_STAT (29 + h)
      true := by
  have stopped : ∀ g < 2, c.bit R.SEQ_CTL g = false := fun g hg => by
    rcases Nat.lt_succ_iff_lt_or_eq.1 hg with below | rfl
    · rwa [Nat.lt_one_iff.1 below]
    · exact second
  have carriesNone : ((List.range 10).any fun n => c.bit R.SEQ_CTL (n / 5)
      && (decide (modHalf (c.lchMod n) = h) || (c.lchDuet n && decide (modHalf (c.lchMod n ^^^ 1) = h)))) = false := by
    rw [List.any_eq_false]
    intro n hn
    have group : n / 5 < 2 := by have := List.mem_range.1 hn; omega
    simp [stopped _ group]
  unfold Chip.afeCal
  rw [carriesNone]
  exact if_neg (by simp [stopped h hh, highPower, still])

/-- AFE_CAL of a half with both groups stopped (R164). -/
theorem doAfeCal_starts {w : Writer} {s : State} (h : Fin 2) (may : May w R.AFE_CMD s) (first : s.chip.bit R.SEQ_CTL 0 = false)
    (second : s.chip.bit R.SEQ_CTL 1 = false) (highPower : s.chip.is R.AFE_CTL F.AFE_CTL_LP = false) (still : s.chip.meas.rot = none) :
    doAfeCal w theKey h s.chip = (s.chip.updMeas fun m => { m with cal := upd m.cal h fun _ => (List.range 6).map (6 * h.val + ·) }).setBit
      R.AFE_STAT (29 + h) true := by
  obtain ⟨powered, running, allowed⟩ := may
  rw [doAfeCal, Chip.cmd_of _ _ _ _ powered running allowed, Chip.afeCal_starts h.isLt _ first second highPower still]

/-- AFE_CAL with its group running, in low power or during a rotation (R164). -/
theorem doAfeCal_refused {w : Writer} {s : State} (h : Fin 2) (may : May w R.AFE_CMD s)
    (busy : s.chip.bit R.SEQ_CTL h = true ∨ s.chip.is R.AFE_CTL F.AFE_CTL_LP = true ∨ s.chip.meas.rot ≠ none) :
    doAfeCal w theKey h s.chip = s.chip.perr R.AFE_CMD .state w.ini.code := by
  obtain ⟨powered, running, allowed⟩ := may
  have rotates : s.chip.meas.rot ≠ none → s.chip.meas.rot.isSome = true := Option.isSome_iff_ne_none.2
  rw [doAfeCal, Chip.cmd_of _ _ _ _ powered running allowed]
  exact if_pos (by rcases busy with group | low | rot <;> simp [*])

/-- The registers that the end of a calibration of modulator `m` may change. -/
def calKeys (m : Nat) : List Nat :=
  [R.AFE_CAL_OFS m, calGain m 0, calGain m 1, calGain m 2, calGain m 3, calGain m 4, R.AFE_STAT]

theorem calGain_mem_calKeys (m : Nat) {g : Nat} (hg : g < 5) : calGain m g ∈ calKeys m := by
  interval_cases g <;> simp [calKeys]

theorem calGain_inj {m i j : Nat} (h : i ≠ j) : calGain m i ≠ calGain m j := by simp only [calGain]; omega

theorem afe_cal_keys_apart {m : Nat} (hm : m < 12) (g : Nat) : R.AFE_CAL_OFS m ≠ calGain m g ∧ R.AFE_STAT ≠ R.AFE_CAL_OFS m
    ∧ R.AFE_STAT ≠ calGain m g := by
  simp only [calGain, R.AFE_CAL_OFS, R.AFE_CAL_GAIN0, R.AFE_STAT]
  omega

theorem evKey_cal : ∀ m < 12, evKey (R.AFE_CAL_OFS m) = false ∧ ∀ g < 5, evKey (calGain m g) = false := by decide

/-- The gains of modulator `m` are stored (R164). -/
def Chip.calGains (c : Chip) (m : Nat) (gains : List Nat) : Chip :=
  forN 5 (fun g c => c.setF (calGain m g) F.AFE_CAL_GAIN0_GAIN (gains.getD g 0)) c

theorem Chip.calStore_eq (c : Chip) (m ofs : Nat) (gains : List Nat) : c.calStore m ofs gains =
    ((c.setF (R.AFE_CAL_OFS m) F.AFE_CAL_OFS_OFS ofs).calGains m gains).setBit R.AFE_STAT (16 + m) true := rfl

theorem Chip.calGains_kept (c : Chip) (m : Nat) (gains : List Nat) : Chip.Kept false ((List.range 5).map (calGain m)) [] c
    (c.calGains m gains) :=
  forN_inv_lt (Chip.Kept false _ [] c) 5 _ c .refl fun _ hg _ kept => kept.setF (List.mem_map_of_mem (List.mem_range.2 hg))

theorem Chip.f_calGains (c : Chip) (m : Nat) (gains : List Nat) :
    ∀ g < 5, (c.calGains m gains).f (calGain m g) F.AFE_CAL_GAIN0_GAIN = gains.getD g 0 % 2 ^ 24 := by
  refine forN_ind (fun n d => ∀ g < n, (d : Chip).f (calGain m g) F.AFE_CAL_GAIN0_GAIN = gains.getD g 0 % 2 ^ 24) 5 _ c (by simp)
    fun n _ d stored g hg => ?_
  rcases Nat.lt_succ_iff_lt_or_eq.1 hg with before | rfl
  · exact (Chip.f_setF_ne _ _ _ _ _ _ (calGain_inj before.ne')).trans (stored g before)
  · exact Chip.f_setF _ _ _ _ (by decide)

/-- The factors of modulator `m` are shown, and shown valid (R164). -/
structure Chip.CalShown (m ofs : Nat) (gains : List Nat) (c : Chip) : Prop where
  ofs : c.f (R.AFE_CAL_OFS m) F.AFE_CAL_OFS_OFS = ofs % 2 ^ 24
  gain : ∀ g < 5, c.f (calGain m g) F.AFE_CAL_GAIN0_GAIN = gains.getD g 0 % 2 ^ 24
  valid : c.bit R.AFE_STAT (16 + m) = true

theorem Chip.calShown_calStore (c : Chip) {m : Nat} (hm : m < 12) (ofs : Nat) (gains : List Nat) :
    (c.calStore m ofs gains).CalShown m ofs gains := by
  have apart := afe_cal_keys_apart hm
  have other : R.AFE_CAL_OFS m ∉ (List.range 5).map (calGain m) := by
    rw [List.mem_map]
    rintro ⟨g, -, same⟩
    exact (apart g).1 same.symm
  rw [Chip.calStore_eq]
  refine ⟨?_, fun g hg => ?_, Chip.bit_setBit _ _ _ (by omega)⟩
  · rw [Chip.setBit, Chip.f_setF_ne _ _ _ _ _ _ (apart 0).2.1, (Chip.calGains_kept _ _ _).f_eq (by simp) other]
    exact Chip.f_setF _ _ _ _ (by decide)
  · rw [Chip.setBit, Chip.f_setF_ne _ _ _ _ _ _ (apart g).2.2, Chip.f_calGains _ _ _ g hg]

theorem Chip.calStore_kept (c : Chip) (m ofs : Nat) (gains : List Nat) : Chip.Kept false (calKeys m) [] c (c.calStore m ofs gains) := by
  have gainKeys : ∀ k ∈ (List.range 5).map (calGain m), k ∈ calKeys m := fun k hk => by
    obtain ⟨g, hg, rfl⟩ := List.mem_map.1 hk
    exact calGain_mem_calKeys m (List.mem_range.1 hg)
  rw [Chip.calStore_eq]
  exact ((Chip.Kept.refl.setF (by simp [calKeys])).trans ((Chip.calGains_kept _ _ _).mono gainKeys (by simp))).setBit (by simp [calKeys])

/-- What becomes of AFE.STAT behind it, beside the valid bit, leaves the factors shown. -/
theorem Chip.CalShown.keep {c d : Chip} {m ofs : Nat} {gains : List Nat} (h : c.CalShown m ofs gains) (hm : m < 12)
    (kept : Chip.Kept true [R.AFE_STAT] [] c d) (valid : d.bit R.AFE_STAT (16 + m) = c.bit R.AFE_STAT (16 + m)) :
    d.CalShown m ofs gains := by
  obtain ⟨plain, plains⟩ := evKey_cal m hm
  have apart := afe_cal_keys_apart hm
  refine ⟨?_, fun g hg => ?_, valid.trans h.valid⟩
  · rw [kept.f_eq (fun _ => plain) (by simpa using (apart 0).2.1.symm), h.ofs]
  · rw [kept.f_eq (fun _ => plains g hg) (by simpa using (apart g).2.2.symm), h.gain g hg]

/-- A modulator just calibrated in its half: the calibration goes on, or CAL_BUSY clears with the event (R164). -/
def Chip.calNext (c : Chip) (h : Nat) (rest : List Nat) : Chip :=
  if rest = [] then (c.setBit R.AFE_STAT (29 + h) false).raise P.AFE 0 else c

theorem Chip.calNext_kept (c : Chip) (h : Nat) (rest : List Nat) : Chip.Kept true [R.AFE_STAT] [] c (c.calNext h rest) :=
  .ite ((Chip.Kept.refl.setBit (by simp)).raise (by decide)) .refl

/-- A field of AFE.STAT below the CAL_BUSY bits stands. -/
theorem Chip.is_calNext (c : Chip) (h : Nat) (rest : List Nat) (x : Fld) (hx : x.hi < 29) :
    (c.calNext h rest).is R.AFE_STAT x = c.is R.AFE_STAT x := by
  refine Chip.is_ite ?_ rfl
  rw [Chip.is_raise _ _ _ _ _ (by decide) (by decide)]
  exact Chip.is_setF_beside _ _ _ _ _ (by omega) (.inl (Nat.lt_add_right h hx))

/-- MOD_CAL_DONE of the modulator that its half calibrates (R164). -/
theorem doModCalDone_eq {m : Fin 12} {s : State} {rest : List Nat} (o g0 g1 g2 g3 g4 : BitVec 24) (awake : Awake P.AFE s)
    (still : s.chip.meas.rot = none) (under : nth s.chip.meas.cal (modHalf m) [] = m.val :: rest) :
    doModCalDone m o g0 g1 g2 g3 g4 s.chip =
      ((s.chip.calStore m o.toNat [g0.toNat, g1.toNat, g2.toNat, g3.toNat, g4.toNat]).updMeas fun x =>
        { x with cal := upd x.cal (modHalf m) fun _ => rest }).calNext (modHalf m) rest := by
  rw [doModCalDone, Chip.clocked_awake awake, still]
  dsimp only
  rw [under]
  exact if_pos rfl

theorem Chip.calShown_updMeas {c : Chip} {m ofs : Nat} {gains : List Nat} (h : c.CalShown m ofs gains) (g : MeasSt → MeasSt) :
    (c.updMeas g).CalShown m ofs gains := ⟨h.ofs, h.gain, h.valid⟩

/-- MOD_CAL_DONE of the modulator that its half calibrates stores its factors and leaves those still to calibrate (R164). -/
theorem doModCalDone_stores {m : Fin 12} {s : State} {rest : List Nat} (o g0 g1 g2 g3 g4 : BitVec 24) (awake : Awake P.AFE s)
    (still : s.chip.meas.rot = none) (under : nth s.chip.meas.cal (modHalf m) [] = m.val :: rest) :
    Chip.Kept true (calKeys m) [.meas] s.chip (doModCalDone m o g0 g1 g2 g3 g4 s.chip)
      ∧ (doModCalDone m o g0 g1 g2 g3 g4 s.chip).CalShown m o.toNat [g0.toNat, g1.toNat, g2.toNat, g3.toNat, g4.toNat]
      ∧ nth (doModCalDone m o g0 g1 g2 g3 g4 s.chip).meas.cal (modHalf m) [] = rest := by
  have listed : modHalf m < s.chip.meas.cal.length := by
    by_contra beyond
    rw [nth, List.getD_eq_default _ _ (Nat.le_of_not_lt beyond)] at under
    cases under
  rw [doModCalDone_eq o g0 g1 g2 g3 g4 awake still under]
  generalize [g0.toNat, g1.toNat, g2.toNat, g3.toNat, g4.toNat] = gains
  have stored := s.chip.calStore_kept m o.toNat gains
  have shown := s.chip.calShown_calStore m.isLt o.toNat gains
  have meas := stored.meas_eq (by simp)
  generalize s.chip.calStore m o.toNat gains = c at stored shown meas ⊢
  have next := (c.updMeas fun x => { x with cal := upd x.cal (modHalf m) fun _ => rest }).calNext_kept (modHalf m) rest
  have valid : 16 + m.val < 29 := by omega
  refine ⟨?_, (Chip.calShown_updMeas shown _).keep m.isLt next ?_, ?_⟩
  · exact ((stored.toEv.mono (fun _ h => h) (by simp)).updMeas (by simp)).trans (next.mono (by simp [calKeys]) (by simp))
  · rw [Chip.bit_eq_is, Chip.bit_eq_is, Chip.is_calNext _ _ _ ⟨16 + m.val, 16 + m.val⟩ valid]
  · rw [next.meas_eq (by simp), Chip.updMeas_meas, meas]
    exact nth_upd_same listed _ _

/-- The rotation is over: ROT_BUSY clears, SPARE lists the freed modulator, with the event (R167). -/
def Chip.rotDone (c : Chip) : Chip :=
  (((c.updMeas fun x => { x with rot := none }).flag R.AFE_STAT F.AFE_STAT_ROT_BUSY false).spares).raise P.AFE 0

theorem Chip.rotDone_kept (c : Chip) : Chip.Kept true [R.AFE_STAT] [] (c.updMeas fun x => { x with rot := none }) c.rotDone :=
  ((Chip.Kept.refl.flag (by simp)).setF (by simp)).raise (by decide)

theorem Chip.rotBusy_rotDone (c : Chip) : c.rotDone.is R.AFE_STAT F.AFE_STAT_ROT_BUSY = false := by
  rw [Chip.rotDone, Chip.is_raise _ _ _ _ _ (by decide) (by decide), Chip.spares, Chip.is_setF_beside _ _ _ _ _ (by decide) (by decide),
    Chip.is_flag _ _ _ _ (by decide) (by decide)]

/-- A field of AFE.STAT between SPARE and ROT_BUSY stands. -/
theorem Chip.is_rotDone (c : Chip) (x : Fld) (low : 11 < x.lo) (high : x.hi < 31) :
    c.rotDone.is R.AFE_STAT x = c.is R.AFE_STAT x := by
  rw [Chip.rotDone, Chip.is_raise _ _ _ _ _ (by decide) (by decide), Chip.spares, Chip.is_setF_beside _ _ _ _ _ (by omega) (.inr low),
    Chip.is_flag_beside _ _ _ _ _ (by omega) (.inl high), Chip.updMeas_is]

/-- MOD_CAL_DONE of the modulator that a rotation freed (R167). -/
theorem doModCalDone_rotates {m : Fin 12} {s : State} {r : AfeRot} (o g0 g1 g2 g3 g4 : BitVec 24) (awake : Awake P.AFE s)
    (rotates : s.chip.meas.rot = some r) (calibrating : r.calibrating = true) (freed : r.old = m.val) :
    Chip.Kept true (calKeys m) [.meas] s.chip (doModCalDone m o g0 g1 g2 g3 g4 s.chip)
      ∧ (doModCalDone m o g0 g1 g2 g3 g4 s.chip).CalShown m o.toNat [g0.toNat, g1.toNat, g2.toNat, g3.toNat, g4.toNat]
      ∧ (doModCalDone m o g0 g1 g2 g3 g4 s.chip).meas.rot = none
      ∧ (doModCalDone m o g0 g1 g2 g3 g4 s.chip).is R.AFE_STAT F.AFE_STAT_ROT_BUSY = false := by
  have ends : doModCalDone m o g0 g1 g2 g3 g4 s.chip =
      (s.chip.calStore m o.toNat [g0.toNat, g1.toNat, g2.toNat, g3.toNat, g4.toNat]).rotDone := by
    rw [doModCalDone, Chip.clocked_awake awake, rotates]
    exact if_pos (by simp [calibrating, freed])
  rw [ends]
  generalize [g0.toNat, g1.toNat, g2.toNat, g3.toNat, g4.toNat] = gains
  have stored := s.chip.calStore_kept m o.toNat gains
  have shown := s.chip.calShown_calStore m.isLt o.toNat gains
  generalize s.chip.calStore m o.toNat gains = c at stored shown ⊢
  refine ⟨?_, (Chip.calShown_updMeas shown _).keep m.isLt c.rotDone_kept ?_, ?_, c.rotBusy_rotDone⟩
  · exact ((stored.toEv.mono (fun _ h => h) (by simp)).updMeas (by simp)).trans (c.rotDone_kept.mono (by simp [calKeys]) (by simp))
  · rw [Chip.bit_eq_is, Chip.bit_eq_is, Chip.updMeas_is]
    exact c.is_rotDone ⟨16 + m.val, 16 + m.val⟩ (Nat.lt_of_lt_of_le (by decide) (Nat.le_add_right 16 _)) (by simp only; omega)
  · rw [c.rotDone_kept.meas_eq (by simp), Chip.updMeas_meas]

/-! #### Rotation -/

/-- AFE_ROTATE of a running channel to a calibrated spare (R166, R167). -/
theorem doAfeRotate_starts {w : Writer} {s : State} {lch spare : BitVec 4} (may : May w R.AFE_CMD s) (channel : lch.toNat < 10)
    (modulator : spare.toNat < 12) (isSpare : s.chip.bit R.AFE_STAT spare.toNat = true)
    (calibrated : s.chip.bit R.AFE_STAT (16 + spare.toNat) = true) (still : s.chip.meas.rot = none)
    (idle : s.chip.meas.cal.all List.isEmpty = true) (solo : s.chip.lchDuet lch.toNat = false)
    (runs : s.chip.bit R.SEQ_CTL (lch.toNat / 5) = true) :
    doAfeRotate w theKey lch spare s.chip = (s.chip.updMeas fun m => { m with rot := some ⟨lch.toNat, s.chip.lchMod lch.toNat, spare.toNat,
      nextMul (outPeriod (s.chip.afe lch.toNat).lo) (s.chip.groupNow (lch.toNat / 5))
        + (discardOf (s.chip.afe lch.toNat).lo + 1) * outPeriod (s.chip.afe lch.toNat).lo, false⟩ }).flag
      R.AFE_STAT F.AFE_STAT_ROT_BUSY true := by
  obtain ⟨powered, running, allowed⟩ := may
  rw [doAfeRotate, Chip.cmd_of _ _ _ _ powered running allowed, Chip.afeRotate,
    if_pos (by simp [channel, modulator, isSpare, calibrated, still, idle, solo, runs])]
  exact congrArg (Chip.flag · R.AFE_STAT F.AFE_STAT_ROT_BUSY true) (if_pos (by simp))

/-- AFE_ROTATE without a spare, of a duet or during a rotation (R166). -/
theorem doAfeRotate_refused {w : Writer} {s : State} {lch spare : BitVec 4} (may : May w R.AFE_CMD s)
    (unfit : 10 ≤ lch.toNat ∨ s.chip.bit R.AFE_STAT spare.toNat = false ∨ s.chip.meas.rot ≠ none ∨ s.chip.lchDuet lch.toNat = true) :
    doAfeRotate w theKey lch spare s.chip = s.chip.perr R.AFE_CMD .state w.ini.code := by
  obtain ⟨powered, running, allowed⟩ := may
  rw [doAfeRotate, Chip.cmd_of _ _ _ _ powered running allowed]
  refine if_neg ?_
  rcases unfit with beyond | bound | rotates | duet
  · simp [Nat.not_lt.2 beyond]
  · simp [bound]
  · simp [rotates]
  · simp [duet]

/-- Settles O44: each clause is what the command's lemma above says of the chip; the memory and the queue stay beside it. -/
theorem afeCommands : Obligations.AfeCommands := by
  refine ⟨?_, ?_, ?_, ?_, ?_, ?_, ?_, ?_, ?_, ?_⟩
  · intro n s awake runs
    have settles : (s.onChip (doSettleExpiry n)).chip = s.chip.updAfe n fun x => { x with settling := false } :=
      doSettleExpiry_runs awake runs
    refine ⟨_, rfl, ⟨⟨rfl, rfl⟩, ?_⟩, congrArg Chip.meas settles⟩
    rw [settles]
    exact Chip.Kept.refl.updAfe (by simp)
  · intro n raw partner ovl same e s awake edge still discards current
    have discarded : (s.onChip (doAfeResult n raw partner ovl same)).chip =
        (s.chip.edgeTaken n e).updAfe n fun x => { x with discard := x.discard - 1 } :=
      doAfeResult_discards raw partner ovl same awake edge still discards current
    refine ⟨_, rfl, ⟨⟨rfl, rfl⟩, ?_⟩, ?_⟩
    · rw [discarded]
      exact (s.chip.edgeTaken_kept n e).updAfe (by simp)
    · rw [discarded]
      exact congrArg (MeasSt.mk _ _ _ _ _ · _ _ _ _ _) (upd_upd ..)
  · intro n raw partner ovl same e s awake edge still keeps current endless slotless solo
    obtain ⟨v, sat, inst, x, same', ⟨rfl, rfl⟩, taken⟩ :=
      doAfeResult_keeps raw partner ovl same awake edge still keeps current endless solo
    have result : (s.onChip (doAfeResult n raw partner ovl same)).chip = _ := taken
    refine ⟨_, rfl, ⟨⟨rfl, rfl⟩, ?_⟩, ?_, ?_⟩
    · rw [result]
      exact Chip.afeResult_kept ..
    · rw [result]
      exact Chip.rdN_afeTaken _ n.isLt ..
    · rw [result, Chip.meas_afeTaken _ _ _ _ _ (by rw [Chip.afe_edgeTaken edge]; exact slotless)]
      exact congrArg (MeasSt.mk _ _ _ _ _ · _ _ _ _ _) (upd_upd ..)
  · intro n raw partner ovl same e s awake edge still keeps current endless slotted own solo
    obtain ⟨v, sat, inst, x, same', ⟨rfl, rfl⟩, taken⟩ :=
      doAfeResult_keeps raw partner ovl same awake edge still keeps current endless solo
    have result : (s.onChip (doAfeResult n raw partner ovl same)).chip = _ := taken
    have hi : ((s.chip.edgeTaken n e).afe n).hi = (s.chip.afe n).hi := by rw [Chip.afe_edgeTaken edge]
    refine ⟨_, rfl, ⟨⟨rfl, rfl⟩, ?_⟩, ?_⟩
    · rw [result]
      exact Chip.afeResult_kept ..
    · rw [result, ← hi]
      exact Chip.frame_afeTaken n.isLt _ _ _ _ _ (hi ▸ slotted) (hi ▸ own)
  · intro w h s may first second highPower still
    have starts : (s.onChip (doAfeCal w theKey h)).chip = _ := doAfeCal_starts h may first second highPower still
    refine ⟨_, rfl, ⟨⟨rfl, rfl⟩, ?_⟩, ?_, ?_⟩
    · rw [starts]
      exact (Chip.Kept.refl.updMeas (by simp)).setBit (by simp)
    · rw [starts]
      rfl
    · rw [starts]
      exact Chip.bit_setBit _ _ _ (by omega)
  · exact fun w h s may busy => ⟨_, rfl, ⟨rfl, rfl⟩, doAfeCal_refused h may busy⟩
  · intro m o g0 g1 g2 g3 g4 r s awake still under
    obtain ⟨kept, shown, rest⟩ := doModCalDone_stores o g0 g1 g2 g3 g4 awake still under
    have gain := shown.gain
    exact ⟨_, rfl, ⟨⟨rfl, rfl⟩, kept⟩, shown.ofs.trans (Nat.mod_eq_of_lt o.isLt),
      (gain 0 (by decide)).trans (Nat.mod_eq_of_lt g0.isLt), (gain 1 (by decide)).trans (Nat.mod_eq_of_lt g1.isLt),
      (gain 2 (by decide)).trans (Nat.mod_eq_of_lt g2.isLt), (gain 3 (by decide)).trans (Nat.mod_eq_of_lt g3.isLt),
      (gain 4 (by decide)).trans (Nat.mod_eq_of_lt g4.isLt), shown.valid, rest⟩
  · intro m o g0 g1 g2 g3 g4 x s awake rotates calibrating freed
    obtain ⟨kept, shown, done, free⟩ := doModCalDone_rotates o g0 g1 g2 g3 g4 awake rotates calibrating freed
    exact ⟨_, rfl, ⟨⟨rfl, rfl⟩, kept⟩, shown.ofs.trans (Nat.mod_eq_of_lt o.isLt), shown.valid, done, free⟩
  · intro w lch spare s may channel modulator isSpare calibrated still idle solo runs
    have starts : (s.onChip (doAfeRotate w theKey lch spare)).chip = _ :=
      doAfeRotate_starts may channel modulator isSpare calibrated still idle solo runs
    refine ⟨_, rfl, ⟨⟨rfl, rfl⟩, ?_⟩, ?_, ?_⟩
    · rw [starts]
      exact (Chip.Kept.refl.updMeas (by simp)).flag (by simp)
    · rw [starts]
      rfl
    · rw [starts]
      exact Chip.is_flag _ _ _ _ (by decide) (by decide)
  · exact fun w lch spare s may unfit => ⟨_, rfl, ⟨rfl, rfl⟩, doAfeRotate_refused may unfit⟩

end Sys2Proof.Machine

namespace Sys2Proof.Machine

/-! ### An emergency through event occurrences (R240) -/

/-- Channel `k` of the Pacer is in emergency (R240). -/
def Chip.Emergency (k : Nat) (c : Chip) : Prop := c.bit R.PCR_ESTAT k = true

/-- What `go` raises ends no emergency of channel `k`. -/
def EmergencyKept (k : Nat) (go : Nat → Nat → Chip → Chip) : Prop :=
  ∀ b i c, b % 0x1000 = 0 → Chip.Emergency k c → (go b i c).Emergency k

namespace Chip.Emergency
variable {k : Nat} {c : Chip}

theorem congr {d : Chip} (h : c.Emergency k) (hr : d.rd R.PCR_ESTAT = c.rd R.PCR_ESTAT) : d.Emergency k := by
  unfold Chip.Emergency Chip.bit at *
  rwa [hr]

theorem wr (h : c.Emergency k) {j : Nat} {v : Word} (hj : j ≠ R.PCR_ESTAT) : (c.wr j v).Emergency k := h.congr (Chip.rd_wr_ne _ _ _ _ hj)

theorem setF (h : c.Emergency k) {j n : Nat} {x : Fld} (hj : j ≠ R.PCR_ESTAT) : (c.setF j x n).Emergency k := h.wr hj

theorem ite {d : Chip} {p : Prop} [Decidable p] (h : c.Emergency k) (hd : d.Emergency k) : (if p then c else d).Emergency k := by
  split <;> assumption

theorem lapRec (h : c.Emergency k) {r : LapRec} : (c.lapRec r).Emergency k := h.congr (Chip.rd_lapRec _ _ _)

/-- The emergency of any channel, the same one or another. -/
theorem enter (h : c.Emergency k) (hk : k < 16) (n : Nat) : (c.setBit R.PCR_ESTAT n true).Emergency k := by
  have word : k < 32 := by omega
  unfold Chip.Emergency at *
  rcases Nat.lt_trichotomy k n with below | rfl | above
  · rw [Chip.bit_eq_is] at *
    exact (Chip.is_flag_beside _ _ _ _ _ word (.inl below)).trans h
  · exact Chip.bit_setBit _ _ _ word
  · rw [Chip.bit_eq_is] at *
    exact (Chip.is_flag_beside _ _ _ _ _ word (.inr above)).trans h

/-- PG_EVT of a page. -/
theorem setEvt (h : c.Emergency k) {b : Nat} (i : Nat) (hb : b % 0x1000 = 0) : (c.setBit (b + H.EVT) i true).Emergency k :=
  h.setF (by simp only [H.EVT, R.PCR_ESTAT]; omega)

/-! What an occurrence sets off, `go` raising the events that follow. -/

section
variable {go : Nat → Nat → Chip → Chip} {s : Nat}

theorem capUnit (h : c.Emergency k) (hgo : EmergencyKept k go) {u : Nat} (hu : u < 2) :
    (c.capUnit go s u).Emergency k := by
  have apart : R.HTM_CAP_CFG u ≠ R.PCR_ESTAT ∧ R.HTM_CAP (2 * u) ≠ R.PCR_ESTAT ∧ R.HTM_CAP (2 * u) + 4 ≠ R.PCR_ESTAT := by
    simp only [R.HTM_CAP_CFG, R.HTM_CAP, R.PCR_ESTAT]
    omega
  obtain ⟨config, low, high⟩ := apart
  exact ite (ite (h.setF config) (hgo _ _ _ (by decide) (((h.wr low).wr high).setF config))) h

theorem maskTake (h : c.Emergency k) : (c.maskTake s).Emergency k := ite (h.setF (by decide)) h

theorem pacerTake (h : c.Emergency k) (hk : k < 16) (hgo : EmergencyKept k go)
    {n : Nat} : (c.pacerTake go s n).Emergency k := ite (hgo _ _ _ (by decide) (h.enter hk n)) h

theorem lapTake (h : c.Emergency k) (hgo : EmergencyKept k go) :
    (c.lapTake go s).Emergency k := by
  unfold Chip.lapTake
  split
  · exact ite (hgo _ _ _ (by decide) ((((h.lapRec.wr (by decide)).wr (by decide)).setF (by decide)).setF (by decide))) h
  · exact h

theorem twinTake (h : c.Emergency k) {pulse tw : Bool} : (c.twinTake s pulse tw).Emergency k :=
  ite (ite (ite h (h.congr rfl)) (h.congr rfl)) h

theorem twinsTake (h : c.Emergency k) (hgo : EmergencyKept k go) {pulse : Bool} :
    (c.twinsTake go s pulse).Emergency k := by
  have taken : ((c.twinTake s pulse false).twinTake s pulse true).Emergency k := h.twinTake.twinTake
  have counted : (((c.twinTake s pulse false).twinTake s pulse true).coalesced s).Emergency k :=
    (taken.setF (by decide)).setF (by decide)
  exact ite (ite counted (hgo _ _ _ (by decide) counted)) taken

theorem restTake (h : c.Emergency k) : (c.restTake s).Emergency k := by
  have sent : ∀ {d : Chip} {p : Prop} [Decidable p] {x : EvDest}, d.Emergency k → (if p then d.deliver s x else d).Emergency k :=
    fun hd => ite (congr hd rfl) hd
  exact sent (sent (sent h))

theorem occur (h : c.Emergency k) (hk : k < 16) (hgo : EmergencyKept k go)
    {pulse : Bool} : (c.occur go s pulse).Emergency k := by
  have arrived : ((if c.usedBy s then c.lapLong 0x07 3 [s] else c).txnArrival s).Emergency k := congr (ite h.lapRec h) rfl
  have captured := forN_inv_lt (Chip.Emergency k) 2 (fun u d => d.capUnit go s u) _ arrived fun _ hu _ hd => hd.capUnit hgo hu
  have paced := forN_inv (Chip.Emergency k) 16 (fun n d => d.pacerTake go s n) _ (captured.maskTake (s := s)) fun _ _ hd => hd.pacerTake hk hgo
  exact ((paced.lapTake hgo).twinsTake hgo).restTake

end

theorem raiseN (hk : k < 16) (n : Nat) : EmergencyKept k (raiseN n) := by
  induction n with
  | zero => exact fun b i c hb h => h.setEvt i hb
  | succ n ih =>
    intro b i c hb h
    unfold Machine.raiseN
    dsimp only
    split
    · exact (h.setEvt i hb).occur hk ih
    · exact h.setEvt i hb

/-- No event occurrence ends an emergency. -/
theorem raise (h : c.Emergency k) (hk : k < 16) {b i : Nat} (hb : b % 0x1000 = 0) : (c.raise b i).Emergency k := raiseN hk _ _ _ _ hb h

end Chip.Emergency

/-! ### Pacer commands (O48) -/

/-- The group that ticks channel `k` is disabled and idle (R222). -/
abbrev Chip.PcrIdle (c : Chip) (k : Nat) : Prop := (c.grp (c.pcrRg k)).en = false ∧ (c.grp (c.pcrRg k)).busy = false

/-- While its group is disabled and idle a command acts at once (R222). -/
theorem Chip.pcrCmd_idle {c : Chip} {k : Nat} (op : Nat) (idle : c.PcrIdle k) : c.pcrCmd k op = c.pcrOp k op := by
  obtain ⟨disabled, free⟩ := idle
  exact if_neg (by simp [disabled, free])

/-- While its group is enabled a command waits for the next dispatch (R222). -/
theorem Chip.pcrCmd_enabled {c : Chip} {k : Nat} (op : Nat) (enabled : (c.grp (c.pcrRg k)).en = true) :
    c.pcrCmd k op = c.updStr fun x => { x with pcrCmds := x.pcrCmds ++ [(k, op)] } := if_pos (by simp [enabled])

/-- The operations beside PRESET are accepted in every state (R246). -/
theorem Chip.pcrWrite_of_lt (c : Chip) (k i : Nat) {op : Nat} (plain : 0 < op ∧ op < 5) : c.pcrWrite k op i = c.pcrCmd k op := by
  obtain ⟨named, below⟩ := plain
  unfold Chip.pcrWrite
  rw [if_neg (by omega), if_neg fun preset => below.ne preset.1]

section
variable {w : Writer} {s : State} (k : Fin 16)

/-- PCR.CMD with an operation beside PRESET, while the channel's group is disabled and idle (R222). -/
theorem pcrCommand_idle {op : Nat} (may : May w R.PCR_CMD s) (plain : 0 < op ∧ op < 5) (idle : s.chip.PcrIdle k) :
    (s.chip.cmd R.PCR_CMD w theKey fun c => c.pcrWrite k op w.ini.code) = s.chip.pcrOp k op := by
  obtain ⟨powered, running, allowed⟩ := may
  rw [Chip.cmd_of _ _ _ _ powered running allowed, Chip.pcrWrite_of_lt _ _ _ plain, Chip.pcrCmd_idle op idle]

/-- PCR.CMD with an operation beside PRESET, while the channel's group is enabled: all but the list of those that wait is as before (R222). -/
theorem pcrCommand_enabled {op : Nat} (may : May w R.PCR_CMD s) (plain : 0 < op ∧ op < 5)
    (enabled : (s.chip.grp (s.chip.pcrRg k)).en = true) :
    Chip.Kept false [] [.str] s.chip (s.chip.cmd R.PCR_CMD w theKey fun c => c.pcrWrite k op w.ini.code)
      ∧ (s.chip.cmd R.PCR_CMD w theKey fun c => c.pcrWrite k op w.ini.code).str =
        { s.chip.str with pcrCmds := s.chip.str.pcrCmds ++ [(k.val, op)] } := by
  obtain ⟨powered, running, allowed⟩ := may
  rw [Chip.cmd_of _ _ _ _ powered running allowed, Chip.pcrWrite_of_lt _ _ _ plain, Chip.pcrCmd_enabled op enabled]
  exact ⟨Chip.Kept.refl.updStr (by simp), rfl⟩

/-- PRESET where it is accepted, and where it is recorded as STATE (R241). -/
theorem doPacerPreset_may (may : May w R.PCR_CMD s) : doPacerPreset w theKey k s.chip =
    if s.chip.presetOk k then s.chip.pcrCmd k 5 else s.chip.perr R.PCR_CMD .state w.ini.code := by
  obtain ⟨powered, running, allowed⟩ := may
  rw [doPacerPreset, Chip.cmd_of _ _ _ _ powered running allowed, Chip.pcrWrite, if_neg (by decide)]
  cases s.chip.presetOk k <;> rfl

end

/-! #### What the operations do -/

theorem Chip.Kept.setPcr {ev : Bool} {ks : List Nat} {ps : List Part} {c d : Chip} (h : Chip.Kept ev ks ps c d) {k : Nat} {x : PcrCh}
    (low : R.PCR_CH_P_LO k ∈ ks) (high : R.PCR_CH_P_LO k + 4 ∈ ks) (hp : .str ∈ ps) : Chip.Kept ev ks ps c (d.setPcr k x) :=
  (h.updStr hp).wr64 low high

theorem Chip.setPcr_str (c : Chip) (k : Nat) (x : PcrCh) : (c.setPcr k x).str = { c.str with pcr := upd c.str.pcr k fun _ => x } := rfl

/-- CHc_P shows the position. -/
theorem Chip.rd64_setPcr (c : Chip) (k : Nat) (x : PcrCh) : (c.setPcr k x).rd64 (R.PCR_CH_P_LO k) = unsgn 64 x.p :=
  (Chip.rd64_wr64 _ _ _).trans (Nat.mod_eq_of_lt (unsgn_lt 64 x.p))

section
variable {c : Chip} {k : Nat}

/-- HOLD and RELEASE outside emergency (R239). -/
theorem Chip.pcrOp_hold (calm : c.bit R.PCR_ESTAT k = false) : c.pcrOp k 1 = c.setBit R.PCR_STAT (16 + k) true := if_neg (by simp [calm])

theorem Chip.pcrOp_release (calm : c.bit R.PCR_ESTAT k = false) : c.pcrOp k 2 = c.setBit R.PCR_STAT (16 + k) false :=
  if_neg (by simp [calm])

/-- EMERGENCY outside emergency (R240). -/
theorem Chip.pcrOp_emergency (calm : c.bit R.PCR_ESTAT k = false) : c.pcrOp k 3 = (c.setBit R.PCR_ESTAT k true).raise P.PCR 1 :=
  if_neg (by simp [calm])

/-- CLEAR_EMERGENCY at the emergency target (R240). -/
theorem Chip.pcrOp_clearEmergency (emergency : c.bit R.PCR_ESTAT k = true)
    (there : (nth c.str.pcr k {}).p = c.pcrTgt k (c.rd (R.PCR_CH_ETGT k))) :
    c.pcrOp k 4 = (c.setBit R.PCR_ESTAT k false).setPcr k { nth c.str.pcr k {} with v := 0, a := 0 } :=
  if_pos (by simp [emergency, there])

/-- PRESET (R241). -/
theorem Chip.pcrOp_preset : c.pcrOp k 5 =
    c.setPcr k { nth c.str.pcr k {} with p := c.pcrTgt k (c.pcrTgtWord k), v := 0, a := 0 } := rfl

/-- A group that is disabled allows PRESET (R241). -/
theorem Chip.presetOk_idle (idle : c.PcrIdle k) : c.presetOk k = true := by simp [Chip.presetOk, idle.1]

end

/-- PCR.ESTAT stands beside CHc_P. -/
theorem Chip.bit_setPcr_estat (c : Chip) (k i : Nat) (x : PcrCh) : (c.setPcr k x).bit R.PCR_ESTAT i = c.bit R.PCR_ESTAT i := by
  have kept : Chip.Kept false [R.PCR_CH_P_LO k, R.PCR_CH_P_LO k + 4] [.str] c (c.setPcr k x) :=
    Chip.Kept.refl.setPcr (by simp) (by simp) (by simp)
  rw [Chip.bit, Chip.bit, kept.regs _ (by simp) (by simp [R.PCR_ESTAT, R.PCR_CH_P_LO]; omega)]

/-- Settles O48: each clause is what the operation's lemma above says of the chip; no event that EMERGENCY raises ends the emergency. -/
theorem pacerCommands : Obligations.PacerCommands := by
  refine ⟨?_, ?_, ?_, ?_, ?_, ?_, ?_, ?_, ?_, ?_⟩
  · intro w k s may disabled free calm
    have holds : (s.onChip (doPacerHold w theKey k)).chip = s.chip.setBit R.PCR_STAT (16 + k) true :=
      (pcrCommand_idle k may (by decide) ⟨disabled, free⟩).trans (Chip.pcrOp_hold calm)
    refine ⟨_, rfl, ⟨⟨rfl, rfl⟩, ?_⟩, ?_⟩ <;> rw [holds]
    · exact Chip.Kept.refl.setBit (by simp)
    · exact Chip.bit_setBit _ _ _ (by omega)
  · intro w k s may disabled free calm
    have released : (s.onChip (doPacerRelease w theKey k)).chip = s.chip.setBit R.PCR_STAT (16 + k) false :=
      (pcrCommand_idle k may (by decide) ⟨disabled, free⟩).trans (Chip.pcrOp_release calm)
    refine ⟨_, rfl, ⟨⟨rfl, rfl⟩, ?_⟩, ?_⟩ <;> rw [released]
    · exact Chip.Kept.refl.setBit (by simp)
    · exact Chip.bit_setBit _ _ _ (by omega)
  · intro w k s may disabled free calm
    have enters : (s.onChip (doPacerEmergency w theKey k)).chip = (s.chip.setBit R.PCR_ESTAT k true).raise P.PCR 1 :=
      (pcrCommand_idle k may (by decide) ⟨disabled, free⟩).trans (Chip.pcrOp_emergency calm)
    refine ⟨_, rfl, ⟨⟨rfl, rfl⟩, ?_⟩, ?_⟩ <;> rw [enters]
    · exact (Chip.Kept.refl.flagEv (by decide)).raise (by decide)
    · have shown : (s.chip.setBit R.PCR_ESTAT k true).Emergency k := Chip.bit_setBit _ _ _ (by omega)
      exact shown.raise k.isLt (by decide)
  · intro w k s may disabled free emergency there
    have clears : (s.onChip (doPacerClearEmergency w theKey k)).chip = _ :=
      (pcrCommand_idle k may (by decide) ⟨disabled, free⟩).trans (Chip.pcrOp_clearEmergency emergency there)
    refine ⟨_, rfl, ⟨⟨rfl, rfl⟩, ?_⟩, ?_, ?_⟩ <;> rw [clears]
    · exact (Chip.Kept.refl.setBit (by simp)).setPcr (by simp) (by simp) (by simp)
    · exact (Chip.bit_setPcr_estat _ _ _ _).trans (Chip.bit_setBit _ _ _ (by omega))
    · exact Chip.setPcr_str _ _ _
  · intro w k s may disabled free
    have presets : (s.onChip (doPacerPreset w theKey k)).chip = _ :=
      (doPacerPreset_may k may).trans ((if_pos (Chip.presetOk_idle ⟨disabled, free⟩)).trans
        ((Chip.pcrCmd_idle 5 ⟨disabled, free⟩).trans Chip.pcrOp_preset))
    refine ⟨_, rfl, ⟨⟨rfl, rfl⟩, ?_⟩, ?_, ?_⟩ <;> rw [presets]
    · exact Chip.Kept.refl.setPcr (by simp) (by simp) (by simp)
    · exact Chip.setPcr_str _ _ _
    · exact Chip.rd64_setPcr _ _ _
  · intro w k s may refused
    exact ⟨_, rfl, ⟨rfl, rfl⟩, (doPacerPreset_may k may).trans (if_neg (by simp [refused]))⟩
  · intro w k s may enabled
    obtain ⟨kept, waits⟩ := pcrCommand_enabled k may (op := 1) (by decide) enabled
    exact ⟨_, rfl, ⟨⟨rfl, rfl⟩, kept⟩, waits⟩
  · intro w k s may enabled
    obtain ⟨kept, waits⟩ := pcrCommand_enabled k may (op := 2) (by decide) enabled
    exact ⟨_, rfl, ⟨⟨rfl, rfl⟩, kept⟩, waits⟩
  · intro w k s may enabled
    obtain ⟨kept, waits⟩ := pcrCommand_enabled k may (op := 3) (by decide) enabled
    exact ⟨_, rfl, ⟨⟨rfl, rfl⟩, kept⟩, waits⟩
  · intro w k s may enabled
    obtain ⟨kept, waits⟩ := pcrCommand_enabled k may (op := 4) (by decide) enabled
    exact ⟨_, rfl, ⟨⟨rfl, rfl⟩, kept⟩, waits⟩

/-! ### A blanking window at whose end its trip source asserts (O49)

The end of a window takes the change that came inside it. Where that change trips a channel whose gate is high, the gate falls, and its
edge opens the window of every trip source that names it, of this one too (R185, R344). -/

/-- RUN, timebase 0 running, and channel 0 drives its high gate. Trip source 0 stands on TRIP.FORCE, which is set: it trips channel 0, and
every gate edge of that channel blanks it for 100 cycles. A window runs, and holds the assertion back. -/
def windowOverHighGate : State := clocked0 fun c =>
  let c : Chip := (({ c with mode := .run } : Chip).flag (R.PWT_TB_STAT 0) F.PWT_TB_STAT_RUNNING true).updCh 0 fun x =>
    { x with en := true, cmp := true, req := true, reqH := true }
  let c : Chip := (c.flag (R.PWMC_CFG 0) F.PWMC_CFG_EN true).flag (R.PWMC_STAT 0) F.PWMC_STAT_GH true
  let c : Chip := ((c.flag (R.TRIP_SRC_CFG 0) F.TRIP_SRC_CFG_EN true).setF (R.TRIP_SRC_CFG 0) F.TRIP_SRC_CFG_CH 1).setF (R.TRIP_SRC_CFG 0)
    F.TRIP_SRC_CFG_SEL 0x5E
  let c : Chip := (c.flag (R.TRIP_SRC_BLANK 0) F.TRIP_SRC_BLANK_EN true).setF (R.TRIP_SRC_BLANK 0) F.TRIP_SRC_BLANK_EDGE 4
  let c : Chip := (c.setF (R.TRIP_SRC_BLANK 0) F.TRIP_SRC_BLANK_LEN 100).flag R.TRIP_FORCE F.TRIP_FORCE_SW true
  (c.flag (R.TRIP_SRC_STAT 0) F.TRIP_SRC_STAT_IN_BLANK true).updTrp 0 fun x => { x with due := some true }

/-- The channel asks for its high gate, and the state meets what the statement asks of a window with a change held back. -/
theorem windowOverHighGate_holds_assertion :
    windowOverHighGate.chip.chReq 0 = (true, false) ∧ windowOverHighGate.chip.powered = true
      ∧ (windowOverHighGate.chip.trp 0).due = some true
      ∧ windowOverHighGate.chip.is (R.TRIP_SRC_CFG 0) F.TRIP_SRC_CFG_EN = true ∧ windowOverHighGate.chip.tripBad 0 = false
      ∧ (windowOverHighGate.chip.tripInput 0).getD true = true := by decide +kernel

/-- The edge of the tripped gate has opened the next window. -/
theorem windowOverHighGate_blanks_again :
    (doBlankWindowEnd true 0 windowOverHighGate.chip).is (R.TRIP_SRC_STAT (0 : Fin 16).val) F.TRIP_SRC_STAT_IN_BLANK = true := by decide +kernel

theorem exec_blankWindowEnd (trip : Bool) (n : Fin 16) (s : State) :
    exec (.blankWindowEnd trip n) s = .next (s.onChip (doBlankWindowEnd trip n)) := rfl

/-- Refutes O49: BLANK_WINDOW_END takes a trip that came inside the window, and the fall of the tripped gate opens the window anew. -/
theorem not_pwmCommands : ¬ Obligations.PwmCommands := by
  rintro ⟨-, -, -, -, -, -, -, -, -, -, -, -, -, -, -, -, -, windowEnd, -⟩
  obtain ⟨-, powered, due, enabled, good, input⟩ := windowOverHighGate_holds_assertion
  obtain ⟨t, ht, -, unblanked, -⟩ := windowEnd 0 true windowOverHighGate powered due enabled good input
  obtain rfl := Host.Outcome.next.inj ((exec_blankWindowEnd ..).symm.trans ht)
  rw [State.onChip_chip, windowOverHighGate_blanks_again] at unblanked
  exact Bool.false_ne_true unblanked.symm

/-! ### A trigger that has been pending (O55)

A trigger that completes during an evaluation is pending from then on (R220). Its herd time is that of the cycle in which it completed
(R225), not that of the cycle in which the evaluation is over. -/

/-- Herd time 1,000 ns. Rate group 0 evaluates for the trigger of 600 ns, with nothing left to issue or to write, and the trigger of 900 ns
is pending. -/
def pendingSinceEarlier : State := clocked0 fun c =>
  (c.updTime fun t => { t with ht := 1000 * 2 ^ 48 }).updGrp 0 fun x =>
    { x with en := true, busy := true, disp := true, pend := true, trigHt := 600, pendHt := 900 }

/-- The state meets what the statement asks of a completed evaluation with a pending trigger. -/
theorem pendingSinceEarlier_completes :
    Awake P.STR pendingSinceEarlier ∧ pendingSinceEarlier.chip.evalOver 0 = true ∧ (pendingSinceEarlier.chip.grp 0).pend = true
      ∧ 0 < pendingSinceEarlier.chip.str.grp.length ∧ (∀ k < 4, pendingSinceEarlier.chip.bit R.BPT_CTL k = false)
      ∧ pendingSinceEarlier.chip.hrd.run = false ∧ pendingSinceEarlier.chip.isl.run = false
      ∧ pendingSinceEarlier.chip.is R.IMP_CTL F.IMP_CTL_EN = false := by decide +kernel

/-- The next evaluation has the herd time of its trigger, which lies before the present. -/
theorem pendingSinceEarlier_trigHt :
    ((doRgComplete 0 20 .none pendingSinceEarlier.chip).grp (0 : Fin 8).val).trigHt = 900 ∧ pendingSinceEarlier.chip.htNs = 1000 := by decide +kernel

theorem exec_rgComplete (g : Fin 8) (cycles : BitVec 16) (ecc : EccError) (s : State) :
    exec (.rgComplete g cycles ecc) s = .next (s.onChip (doRgComplete g cycles ecc)) := rfl

/-- Refutes O55: RG_COMPLETE starts the evaluation of the pending trigger at the herd time of that trigger, not at the present one. -/
theorem not_trackerCommands : ¬ Obligations.TrackerCommands := by
  rintro ⟨-, pendingTrigger, -⟩
  obtain ⟨awake, complete, pending, listed, noTracker, noHurdle, noDetectors, noProbe⟩ := pendingSinceEarlier_completes
  obtain ⟨earlier, now⟩ := pendingSinceEarlier_trigHt
  obtain ⟨t, ht, -, -, -, -, trigger⟩ :=
    pendingTrigger 0 20 .none pendingSinceEarlier awake complete pending listed noTracker noHurdle noDetectors noProbe
  obtain rfl := Host.Outcome.next.inj ((exec_rgComplete ..).symm.trans ht)
  rw [State.onChip_chip, earlier, now] at trigger
  exact absurd trigger (by decide)

end Sys2Proof.Machine

namespace Sys2Proof.Machine

/-! ### Slots that a unit writes, and events that may occur -/

section
variable {ev : Bool} {ks : List Nat} {ps : List Part} {c d : Chip}

theorem Chip.Kept.putOwn (h : Chip.Kept ev ks ps c d) {cl k : Nat} {w : Word} (hk : Key.slot k ∈ ks) (hp : .str ∈ ps) :
    Chip.Kept ev ks ps c (d.putOwn cl k w) := by
  unfold Chip.putOwn Chip.putSlot
  exact .ite ((h.wr hk).updStr hp) h

theorem Chip.Kept.hrd_eq (h : Chip.Kept ev ks ps c d) (hp : .hrd ∉ ps) : d.hrd = c.hrd := h.parts .hrd (by simp) (by simp) hp
theorem Chip.Kept.isl_eq (h : Chip.Kept ev ks ps c d) (hp : .isl ∉ ps) : d.isl = c.isl := h.parts .isl (by simp) (by simp) hp

end

theorem Chip.putOwn_kept (c : Chip) (cl k : Nat) (w : Word) : Chip.Kept false [Key.slot k] [.str] c (c.putOwn cl k w) :=
  Chip.Kept.refl.putOwn (by simp) (by simp)

/-- The claimant's word stands in the slot that it holds. -/
theorem Chip.rd_putOwn_held {c : Chip} {cl k : Nat} (held : c.holds cl k = true) (w : Word) : (c.putOwn cl k w).rd (Key.slot k) = w := by
  rw [Chip.putOwn, if_pos held, Chip.putSlot, Chip.updStr_rd, Chip.rd_wr_same]

theorem hrd_stat_ne_slot (k : Nat) : R.HRD_STAT ∉ [Key.slot k] := by simp only [List.mem_singleton, R.HRD_STAT, Key.slot]; omega

theorem isl_stat_ne_slot (k : Nat) : R.ISL_STAT ∉ [Key.slot k] := by simp only [List.mem_singleton, R.ISL_STAT, Key.slot]; omega

theorem Chip.raiseIf_kept (c : Chip) (p : Bool) {b : Nat} (i : Nat) (hb : b % 0x1000 = 0) : Chip.Kept true [] [] c (c.raiseIf p b i) :=
  Chip.Kept.refl.raiseIf hb

/-- A command that changes the chip alone, its chip written as `d`. -/
theorem State.next_onChip {s : State} {g : Chip → Chip} {d : Chip} (h : g s.chip = d) :
    (.next (s.onChip g) : Host.Outcome State Fault Refusal) = .next { s with chip := d } := by rw [State.onChip, h]

/-! ### Hurdle unit (O56) -/

/-! #### Its timers -/

/-- Whether the state blocks by itself, with no block timer running (R282). -/
def Chip.hrdStateBlocks (c : Chip) : Bool :=
  decide (c.hrdState = Hs.tripped) || (decide (c.hrdState = Hs.zero) && c.is R.HRD_CTL F.HRD_CTL_ZERO_BLK)

/-- The block timer ended, HRD_BLK left to the state (R282). -/
def Chip.hrdUnblocked (c : Chip) : Chip :=
  (c.updHrd fun h => { h with block := none, blk := c.hrdStateBlocks }).flag R.HRD_STAT F.HRD_STAT_BLK c.hrdStateBlocks

/-- HRD_HOLD_TIMER_EXPIRY of the block timer once its time has run out (R274, R282). -/
theorem doHrdHoldTimerExpiry_block {s : State} {x : Nat} (awake : Awake P.HRD s) (fresh : s.chip.hrd.stale = false)
    (timer : s.chip.hrd.block = some x) (due : x ≤ s.chip.hrd.now) : doHrdHoldTimerExpiry true s.chip = s.chip.hrdUnblocked := by
  rw [doHrdHoldTimerExpiry, Chip.clocked_awake awake, fresh, timer]
  exact if_pos (decide_eq_true due)

theorem Chip.hrdUnblocked_kept (c : Chip) : Chip.Kept false [R.HRD_STAT] [.hrd] c c.hrdUnblocked :=
  (Chip.Kept.refl.updHrd (by simp)).flag (by simp)

theorem Chip.hrdUnblocked_hrd (c : Chip) : c.hrdUnblocked.hrd = { c.hrd with block := none, blk := c.hrdStateBlocks } := by
  rw [Chip.hrdUnblocked, Chip.flag_hrd, Chip.updHrd_hrd]

theorem Chip.hrdUnblocked_stat (c : Chip) : c.hrdUnblocked.is R.HRD_STAT F.HRD_STAT_BLK = c.hrdStateBlocks :=
  Chip.is_flag _ _ _ _ (by decide) (by decide)

/-- The freeze timer ended, FREEZE and the held word as `fr` (R281). -/
def Chip.hrdUnfrozen (c : Chip) (fr : Bool) : Chip :=
  ((c.updHrd fun h => { h with freeze := none }).flag R.HRD_STAT F.HRD_STAT_FREEZE fr).updHrd fun h =>
    { h with out := upd h.out 1 fun _ => oneWord fr }

theorem Chip.hrdUnfrozen_freeze (c : Chip) (fr : Bool) : (c.hrdUnfrozen fr).hrd.freeze = none := by
  rw [Chip.hrdUnfrozen, Chip.updHrd_hrd, Chip.flag_hrd, Chip.updHrd_hrd]

theorem Chip.hrdUnfrozen_stat (c : Chip) (fr : Bool) : (c.hrdUnfrozen fr).is R.HRD_STAT F.HRD_STAT_FREEZE = fr := by
  rw [Chip.hrdUnfrozen, Chip.updHrd_is, Chip.is_flag _ _ _ _ (by decide) (by decide)]

theorem Chip.hrdUnfrozen_base (c : Chip) (fr : Bool) :
    (c.hrdUnfrozen fr).f R.HRD_CTL F.HRD_CTL_OUT_BASE = c.f R.HRD_CTL F.HRD_CTL_OUT_BASE := by
  rw [Chip.hrdUnfrozen, Chip.updHrd_f, Chip.flag, Chip.f_setF_ne _ _ _ _ _ _ (by decide), Chip.updHrd_f]

theorem Chip.hrdUnfrozen_holds (c : Chip) (fr : Bool) (cl k : Nat) : (c.hrdUnfrozen fr).holds cl k = c.holds cl k := by
  rw [Chip.holds, Chip.owner, Chip.hrdUnfrozen, Chip.updHrd_str, Chip.flag_str, Chip.updHrd_str, Chip.holds, Chip.owner]

/-- HRD_HOLD_TIMER_EXPIRY of the freeze timer once its time has run out (R274, R281). -/
theorem doHrdHoldTimerExpiry_freeze_eq {s : State} {x : Nat} (awake : Awake P.HRD s) (fresh : s.chip.hrd.stale = false)
    (timer : s.chip.hrd.freeze = some x) (due : x ≤ s.chip.hrd.now) : doHrdHoldTimerExpiry false s.chip =
      (s.chip.hrdUnfrozen (decide (s.chip.hrdState = Hs.zero))).putOwn Cl.hrd ((s.chip.f R.HRD_CTL F.HRD_CTL_OUT_BASE + 1) % 1024)
        (oneWord (decide (s.chip.hrdState = Hs.zero))) := by
  rw [doHrdHoldTimerExpiry, Chip.clocked_awake awake, fresh, timer, ← s.chip.hrdUnfrozen_base (decide (s.chip.hrdState = Hs.zero))]
  exact if_pos (decide_eq_true due)

/-- The FREEZE word and its flag are then those of ZERO, in the slot that the unit holds. -/
theorem doHrdHoldTimerExpiry_freeze {s : State} {x : Nat} (awake : Awake P.HRD s) (fresh : s.chip.hrd.stale = false)
    (timer : s.chip.hrd.freeze = some x) (due : x ≤ s.chip.hrd.now)
    (held : s.chip.holds Cl.hrd ((s.chip.f R.HRD_CTL F.HRD_CTL_OUT_BASE + 1) % 1024) = true) :
    (doHrdHoldTimerExpiry false s.chip).hrd.freeze = none
      ∧ (doHrdHoldTimerExpiry false s.chip).is R.HRD_STAT F.HRD_STAT_FREEZE = decide (s.chip.hrdState = Hs.zero)
      ∧ (doHrdHoldTimerExpiry false s.chip).rd (Key.slot ((s.chip.f R.HRD_CTL F.HRD_CTL_OUT_BASE + 1) % 1024))
        = oneWord (decide (s.chip.hrdState = Hs.zero)) := by
  rw [doHrdHoldTimerExpiry_freeze_eq awake fresh timer due]
  generalize decide (s.chip.hrdState = Hs.zero) = fr
  generalize (s.chip.f R.HRD_CTL F.HRD_CTL_OUT_BASE + 1) % 1024 = k at held ⊢
  have written := (s.chip.hrdUnfrozen fr).putOwn_kept Cl.hrd k (oneWord fr)
  refine ⟨?_, ?_, Chip.rd_putOwn_held ((s.chip.hrdUnfrozen_holds ..).trans held) _⟩
  · rw [written.hrd_eq (by simp), Chip.hrdUnfrozen_freeze]
  · rw [written.is_eq (by simp) (hrd_stat_ne_slot k), Chip.hrdUnfrozen_stat]

/-- While an input is STALE, no timer's end changes anything (R269). -/
theorem doHrdHoldTimerExpiry_stale {s : State} (block : Bool) (awake : Awake P.HRD s) (stale : s.chip.hrd.stale = true) :
    doHrdHoldTimerExpiry block s.chip = s.chip := by
  rw [doHrdHoldTimerExpiry, Chip.clocked_awake awake]
  exact if_pos stale

/-! #### Its commands -/

/-- The counters of R272 and of the curve check at 0. -/
def HrdSt.cleared (h : HrdSt) : HrdSt :=
  { h with dipF := 0, dipS := 0, zroF := 0, zroS := 0, swlF := 0, swlS := 0, rcv := 0, zex := 0, swx := 0, crv := 0 }

theorem Chip.hrdGo_kept (c : Chip) (st : Nat) : Chip.Kept true [R.HRD_STAT] [] c (c.hrdGo st) :=
  .ite .refl ((Chip.Kept.refl.setF (by simp)).setF (by simp))

/-- A change to another state keeps the one it leaves in STAT.PREV. -/
theorem Chip.hrdGo_shown {c : Chip} {st : Nat} (other : c.hrdState ≠ st) (code : st < 16) :
    (c.hrdGo st).hrdState = st ∧ (c.hrdGo st).f R.HRD_STAT F.HRD_STAT_PREV = c.hrdState := by
  have was : c.hrdState < 16 := Nat.mod_lt _ (by decide)
  rw [Chip.hrdGo, if_neg other]
  refine ⟨Chip.f_setF_of_lt _ _ _ _ (by decide) code, ?_⟩
  rw [Chip.f_setF_beside _ _ _ _ _ (by decide) (by decide), Chip.f_setF_of_lt _ _ _ _ (by decide) was]

/-- HRD_CLEAR_TRIP in TRIPPED (R277). -/
theorem doHrdClearTrip_tripped_eq {w : Writer} {s : State} (may : May w R.HRD_CMD s) (tripped : s.chip.hrdState = Hs.tripped) :
    doHrdClearTrip w theKey s.chip = ((s.chip.hrdGo Hs.normal).updHrd HrdSt.cleared).raise P.HRD 1 := by
  obtain ⟨powered, running, allowed⟩ := may
  rw [doHrdClearTrip, Chip.cmd_of _ _ _ _ powered running allowed]
  exact if_pos tripped

theorem doHrdClearTrip_tripped {w : Writer} {s : State} (may : May w R.HRD_CMD s) (tripped : s.chip.hrdState = Hs.tripped) :
    Chip.Kept true [R.HRD_STAT] [.hrd] s.chip (doHrdClearTrip w theKey s.chip)
      ∧ (doHrdClearTrip w theKey s.chip).hrdState = Hs.normal
      ∧ (doHrdClearTrip w theKey s.chip).f R.HRD_STAT F.HRD_STAT_PREV = Hs.tripped
      ∧ (doHrdClearTrip w theKey s.chip).hrd = s.chip.hrd.cleared := by
  rw [doHrdClearTrip_tripped_eq may tripped]
  have gone := s.chip.hrdGo_kept Hs.normal
  obtain ⟨state, prev⟩ := Chip.hrdGo_shown (c := s.chip) (st := Hs.normal) (by rw [tripped]; decide) (by decide)
  have event (x : Fld) : (((s.chip.hrdGo Hs.normal).updHrd HrdSt.cleared).raise P.HRD 1).f R.HRD_STAT x
      = (s.chip.hrdGo Hs.normal).f R.HRD_STAT x := by
    rw [Chip.f_raise _ _ _ _ _ (by decide) (by decide), Chip.updHrd_f]
  refine ⟨((gone.mono (by simp) (by simp)).updHrd (by simp)).raise (by decide), (event _).trans state,
    (event _).trans (prev.trans tripped), ?_⟩
  rw [Chip.raise_hrd _ _ _ (by decide), Chip.updHrd_hrd, gone.hrd_eq (by simp)]

/-- HRD_CLEAR_TRIP elsewhere (R277). -/
theorem doHrdClearTrip_elsewhere {w : Writer} {s : State} (may : May w R.HRD_CMD s) (other : s.chip.hrdState ≠ Hs.tripped) :
    doHrdClearTrip w theKey s.chip = s.chip := by
  obtain ⟨powered, running, allowed⟩ := may
  rw [doHrdClearTrip, Chip.cmd_of _ _ _ _ powered running allowed]
  exact if_neg other

/-- The statistics at 0 (R299). -/
def Chip.hrdStatsCleared (c : Chip) : Chip :=
  ((((c.setF R.HRD_STAT F.HRD_STAT_EVENTS 0).wrN R.HRD_STALE_EVALS 0).wr64 (R.HRD_LAST_T 0) 0).wrN R.HRD_LAST 0).wrN R.HRD_LAST_DUR 0

/-- HRD_CLEAR_STATS (R299). -/
theorem doHrdClearStats_may {w : Writer} {s : State} (may : May w R.HRD_CMD s) :
    doHrdClearStats w theKey s.chip = s.chip.hrdStatsCleared := by
  obtain ⟨powered, running, allowed⟩ := may
  rw [doHrdClearStats, Chip.cmd_of _ _ _ _ powered running allowed]
  rfl

theorem Chip.hrdStatsCleared_kept (c : Chip) : Chip.Kept false
    [R.HRD_STAT, R.HRD_STALE_EVALS, R.HRD_LAST_T 0, R.HRD_LAST_T 1, R.HRD_LAST, R.HRD_LAST_DUR] [] c c.hrdStatsCleared :=
  ((((Chip.Kept.refl.setF (by simp)).wrN (by simp)).wr64 (by simp) (by decide)).wrN (by simp)).wrN (by simp)

/-- What each register reads: of HRD.STAT only EVENTS is cleared, the others wholly. -/
theorem Chip.rd_hrdStatsCleared (c : Chip) : c.hrdStatsCleared.rd R.HRD_STAT = (c.setF R.HRD_STAT F.HRD_STAT_EVENTS 0).rd R.HRD_STAT
    ∧ ∀ k ∈ [R.HRD_STALE_EVALS, R.HRD_LAST_T 0, R.HRD_LAST_T 0 + 4, R.HRD_LAST, R.HRD_LAST_DUR], c.hrdStatsCleared.rd k = 0 := by
  simp [Chip.hrdStatsCleared, Chip.wrN, Chip.wr64, Chip.rd_wr, R.HRD_STAT, R.HRD_STALE_EVALS, R.HRD_LAST_T, R.HRD_LAST, R.HRD_LAST_DUR,
    wd]

theorem Chip.hrdStatsCleared_shown (c : Chip) :
    c.hrdStatsCleared.f R.HRD_STAT F.HRD_STAT_EVENTS = 0 ∧ c.hrdStatsCleared.hrdState = c.hrdState
      ∧ c.hrdStatsCleared.rd R.HRD_STALE_EVALS = 0 ∧ c.hrdStatsCleared.rd64 (R.HRD_LAST_T 0) = 0
      ∧ c.hrdStatsCleared.rd R.HRD_LAST = 0 ∧ c.hrdStatsCleared.rd R.HRD_LAST_DUR = 0 := by
  obtain ⟨stat, zero⟩ := c.rd_hrdStatsCleared
  refine ⟨?_, ?_, zero _ (by simp), ?_, zero _ (by simp), zero _ (by simp)⟩
  · rw [Chip.f_congr stat, Chip.f_setF_of_lt _ _ _ _ (by decide) (by decide)]
  · rw [Chip.hrdState, Chip.f_congr stat, Chip.f_setF_beside _ _ _ _ _ (by decide) (by decide), Chip.hrdState]
  · rw [Chip.rd64, Chip.rdN, Chip.rdN, zero _ (by simp), zero _ (by simp)]
    rfl

/-! ### Islanding detectors (O56) -/

/-! #### A detector that hits -/

/-- `a` is an action that latches, and `x` the flag of ISL.STAT in which it does (R287, R298). -/
def IslLatches (a : Nat) (x : Fld) : Prop := (a = 2 ∧ x = F.ISL_STAT_TRIPPED) ∨ (a = 3 ∧ x = F.ISL_STAT_ISLANDED)

theorem IslLatches.top {a : Nat} {x : Fld} (latches : IslLatches a x) : 30 ≤ x.lo ∧ x.hi < 32 ∧ x.hi = x.lo := by
  obtain ⟨-, rfl⟩ | ⟨-, rfl⟩ := latches <;> decide

/-- A hit with an action that latches shows in ISL.STAT as the action's flag alone; beside it events may occur. -/
theorem Chip.rd_islHit_latches {a : Nat} {x : Fld} (latches : IslLatches a x) (c : Chip) (fresh : Bool) :
    (c.islHit a fresh).rd R.ISL_STAT = (c.flag R.ISL_STAT x true).rd R.ISL_STAT := by
  have event (d : Chip) (p : Bool) (i : Nat) : (d.raiseIf p P.ISL i).rd R.ISL_STAT = d.rd R.ISL_STAT :=
    (d.raiseIf_kept p i (by decide)).regs _ (fun _ => by decide) (by simp)
  have flagged (x : Fld) (p : Bool) (i : Nat) : (((c.raiseIf fresh P.ISL 0).flag R.ISL_STAT x true).raiseIf p P.ISL i).rd R.ISL_STAT
      = (c.flag R.ISL_STAT x true).rd R.ISL_STAT := by
    rw [event, Chip.flag, Chip.setF, Chip.rd_wr_same, event, Chip.flag, Chip.setF, Chip.rd_wr_same]
  obtain ⟨rfl, rfl⟩ | ⟨rfl, rfl⟩ := latches
  · exact flagged _ _ _
  · exact flagged _ _ _

/-- The output word leaves ISL.STAT alone (R298). -/
theorem Chip.rd_islOutputs_stat (c : Chip) : c.islOutputs.rd R.ISL_STAT = c.rd R.ISL_STAT :=
  (Chip.putOwn_kept _ _ _ _).regs _ (by simp) (isl_stat_ne_slot _)

/-- TRIPPED blocks (R298). -/
theorem Chip.islOutputs_blk {c : Chip} (tripped : c.is R.ISL_STAT F.ISL_STAT_TRIPPED = true) : c.islOutputs.isl.blk = true := by
  rw [Chip.islOutputs, (Chip.putOwn_kept _ _ _ _).isl_eq (by simp), Chip.updIsl_isl, tripped, Bool.true_or]

/-! #### The entries of the two tables, the voltage table where `vt` holds -/

/-- The timer of entry `k`, with whether the entry was outside at the last tick. -/
def Chip.islTimer (c : Chip) (vt : Bool) (k : Nat) : F64 × Bool := nth (if vt then c.isl.vt else c.isl.ft) k (.zero, false)

/-- TIME_MS of entry `k` in seconds (R284). -/
def Chip.islTime (c : Chip) (vt : Bool) (k : Nat) : F64 := F64.ratio (c.rdN (if vt then R.ISL_VT_TIME k else R.ISL_FT_TIME k)) 1000

/-- The bit of ISL.STAT that shows the hit of entry `k`. -/
def islBit (vt : Bool) (k : Nat) : Nat := if vt then 8 + k else 16 + k

theorem islBit_lt (vt : Bool) (k : Fin 8) : islBit vt k < 24 := by unfold islBit; split <;> omega

/-- The action of the table (R287). -/
def Chip.islAct (c : Chip) (vt : Bool) : Nat := c.f R.ISL_ACT (if vt then F.ISL_ACT_VT else F.ISL_ACT_FT)

/-- Entry `k` hits now: its timer has reached its time at a tick on which it is outside, and the hit is not shown yet (R284). -/
structure Chip.IslReached (c : Chip) (vt : Bool) (k : Nat) (n : F64) : Prop where
  runs : c.isl.run = true
  fresh : c.isl.stale = false
  timer : c.islTimer vt k = (n, true)
  reached : (c.islTime vt k).le n = true
  first : c.bit R.ISL_STAT (islBit vt k) = false

section
variable {vt : Bool} {k : Fin 8} {n : F64} {s : State}

/-- ISL_ENTRY_HIT of an entry whose time is reached (R284, R287). -/
theorem doIslEntryHit_reached (awake : Awake P.ISL s) (hit : s.chip.IslReached vt k n) :
    doIslEntryHit vt k s.chip = ((s.chip.setBit R.ISL_STAT (islBit vt k) true).islHit (s.chip.islAct vt) true).islOutputs := by
  obtain ⟨runs, fresh, timer, reached, first⟩ := hit
  have hits : (s.chip.isl.run && !s.chip.isl.stale && (s.chip.islTimer vt k).2 && (s.chip.islTime vt k).le (s.chip.islTimer vt k).1
      && !s.chip.bit R.ISL_STAT (islBit vt k)) = true := by
    rw [runs, fresh, timer, reached, first]
    rfl
  rw [doIslEntryHit, Chip.clocked_awake awake]
  exact if_pos hits

/-- It shows the hit and latches its action (R284, R287). -/
theorem doIslEntryHit_latches {x : Fld} (awake : Awake P.ISL s) (hit : s.chip.IslReached vt k n)
    (latches : IslLatches (s.chip.islAct vt) x) :
    (doIslEntryHit vt k s.chip).bit R.ISL_STAT (islBit vt k) = true ∧ (doIslEntryHit vt k s.chip).is R.ISL_STAT x = true := by
  have low := islBit_lt vt k
  obtain ⟨above, word, single⟩ := latches.top
  have stat : (doIslEntryHit vt k s.chip).rd R.ISL_STAT
      = ((s.chip.setBit R.ISL_STAT (islBit vt k) true).flag R.ISL_STAT x true).rd R.ISL_STAT := by
    rw [doIslEntryHit_reached awake hit, Chip.rd_islOutputs_stat, Chip.rd_islHit_latches latches]
  refine ⟨?_, (Chip.is_congr stat x).trans (Chip.is_flag _ _ _ _ word single)⟩
  rw [Chip.bit_eq_is, Chip.is_congr stat, Chip.is_flag_beside _ _ _ _ _ (show islBit vt k < 32 by omega)
    (.inl (show islBit vt k < x.lo by omega)), ← Chip.bit_eq_is, Chip.bit_setBit _ _ _ (by omega)]

/-- With the action TRIP it blocks (R298). -/
theorem doIslEntryHit_blocks (awake : Awake P.ISL s) (hit : s.chip.IslReached vt k n) (trip : s.chip.islAct vt = 2) :
    (doIslEntryHit vt k s.chip).isl.blk = true := by
  rw [doIslEntryHit_reached awake hit, trip]
  refine Chip.islOutputs_blk ((Chip.is_congr (Chip.rd_islHit_latches (.inl ⟨rfl, rfl⟩) _ true) _).trans ?_)
  exact Chip.is_flag _ _ _ _ (by decide) (by decide)

end

/-! #### The other commands of the detectors -/

/-- The latched actions ended, and ISL_BLK with them where the detectors do not run (R287; log entry 28, DEDUCED). -/
def Chip.islCleared (c : Chip) : Chip :=
  ((c.flag R.ISL_STAT F.ISL_STAT_TRIPPED false).flag R.ISL_STAT F.ISL_STAT_ISLANDED false).updIsl fun x => { x with blk := x.run && x.blk }

/-- ISL_CLEAR (R287). -/
theorem doIslClear_may {w : Writer} {s : State} (may : May w R.ISL_CMD s) : doIslClear w theKey s.chip = s.chip.islCleared := by
  obtain ⟨powered, running, allowed⟩ := may
  rw [doIslClear, Chip.cmd_of _ _ _ _ powered running allowed]
  rfl

theorem Chip.islCleared_kept (c : Chip) : Chip.Kept false [R.ISL_STAT] [.isl] c c.islCleared :=
  ((Chip.Kept.refl.flag (by simp)).flag (by simp)).updIsl (by simp)

theorem Chip.islCleared_shown (c : Chip) : c.islCleared.isl = { c.isl with blk := c.isl.run && c.isl.blk }
    ∧ c.islCleared.is R.ISL_STAT F.ISL_STAT_TRIPPED = false ∧ c.islCleared.is R.ISL_STAT F.ISL_STAT_ISLANDED = false
    ∧ c.islCleared.f R.ISL_STAT F.ISL_STAT_FT_HIT = c.f R.ISL_STAT F.ISL_STAT_FT_HIT := by
  rw [Chip.islCleared, Chip.updIsl_isl, Chip.flag_isl, Chip.flag_isl, Chip.updIsl_is, Chip.updIsl_is, Chip.updIsl_f]
  refine ⟨rfl, ?_, Chip.is_flag _ _ _ _ (by decide) (by decide), ?_⟩
  · rw [Chip.is_flag_beside _ _ _ _ _ (by decide) (by decide), Chip.is_flag _ _ _ _ (by decide) (by decide)]
  · rw [Chip.flag, Chip.f_setF_beside _ _ _ _ _ (by decide) (by decide), Chip.flag,
      Chip.f_setF_beside _ _ _ _ _ (by decide) (by decide)]

/-- RTS_TIMER once the return-to-service count has reached its time (R288): RTS_OK is shown, by this command or already before it. -/
theorem doRtsTimer_reached {s : State} (awake : Awake P.ISL s) (runs : s.chip.isl.run = true) (fresh : s.chip.isl.stale = false)
    (enabled : s.chip.is R.ISL_CTL F.ISL_CTL_RTS_EN = true) (counting : 0 < s.chip.isl.rts.m)
    (reached : (F64.ofNat (s.chip.f R.ISL_RTS_T F.ISL_RTS_T_TIME_S)).le s.chip.isl.rts = true) :
    Chip.Kept true [R.ISL_STAT] [] s.chip (doRtsTimer s.chip) ∧ (doRtsTimer s.chip).is R.ISL_STAT F.ISL_STAT_RTS_OK = true := by
  rw [doRtsTimer, Chip.clocked_awake awake]
  by_cases shown : s.chip.is R.ISL_STAT F.ISL_STAT_RTS_OK = true
  · rw [if_neg (by simp [shown])]
    exact ⟨.refl, shown⟩
  · rw [if_pos (by simp [runs, fresh, enabled, shown, counting, reached]),
      Chip.is_raise _ _ _ _ _ (by decide) (by decide), Chip.is_flag _ _ _ _ (by decide) (by decide)]
    exact ⟨(Chip.Kept.refl.flag (by simp)).raise (by decide), rfl⟩

/-- Settles O56: each clause is what the command's lemma above says of the chip; the memory and the queue stay beside it. -/
theorem rideThroughCommands : Obligations.RideThroughCommands := by
  refine ⟨?_, ?_, ?_, ?_, ?_, ?_, ?_, ?_, ?_, ?_, ?_, ?_⟩
  · intro x s awake fresh timer due
    refine ⟨_, State.next_onChip (doHrdHoldTimerExpiry_block awake fresh timer due),
      ⟨⟨rfl, rfl⟩, s.chip.hrdUnblocked_kept⟩, ?_⟩
    dsimp only
    rw [s.chip.hrdUnblocked_hrd]
    exact ⟨rfl, rfl, s.chip.hrdUnblocked_stat⟩
  · exact fun x s awake fresh timer due held => ⟨_, rfl, ⟨rfl, rfl⟩, doHrdHoldTimerExpiry_freeze awake fresh timer due held⟩
  · exact fun block s awake stale => ⟨_, State.next_onChip (doHrdHoldTimerExpiry_stale block awake stale),
      ⟨rfl, rfl⟩, .refl⟩
  · intro w s may tripped
    obtain ⟨kept, shown⟩ := doHrdClearTrip_tripped may tripped
    exact ⟨_, rfl, ⟨⟨rfl, rfl⟩, kept⟩, shown⟩
  · exact fun w s may other => ⟨_, State.next_onChip (doHrdClearTrip_elsewhere may other), rfl⟩
  · exact fun w s may => ⟨_, State.next_onChip (doHrdClearStats_may may),
      ⟨⟨rfl, rfl⟩, s.chip.hrdStatsCleared_kept⟩, s.chip.hrdStatsCleared_shown⟩
  · intro k n s awake runs fresh timer reached first action
    have hit : s.chip.IslReached true k n := ⟨runs, fresh, timer, reached, first⟩
    obtain ⟨shown, latched⟩ := doIslEntryHit_latches awake hit (.inl ⟨action, rfl⟩)
    exact ⟨_, rfl, ⟨rfl, rfl⟩, shown, latched, doIslEntryHit_blocks awake hit action⟩
  · intro k n s awake runs fresh timer reached first action
    have hit : s.chip.IslReached true k n := ⟨runs, fresh, timer, reached, first⟩
    exact ⟨_, rfl, ⟨rfl, rfl⟩, doIslEntryHit_latches awake hit (.inr ⟨action, rfl⟩)⟩
  · intro k n s awake runs fresh timer reached first action
    have hit : s.chip.IslReached false k n := ⟨runs, fresh, timer, reached, first⟩
    obtain ⟨shown, latched⟩ := doIslEntryHit_latches awake hit (.inl ⟨action, rfl⟩)
    exact ⟨_, rfl, ⟨rfl, rfl⟩, shown, latched, doIslEntryHit_blocks awake hit action⟩
  · intro k n s awake runs fresh timer reached first action
    have hit : s.chip.IslReached false k n := ⟨runs, fresh, timer, reached, first⟩
    exact ⟨_, rfl, ⟨rfl, rfl⟩, doIslEntryHit_latches awake hit (.inr ⟨action, rfl⟩)⟩
  · exact fun w s may => ⟨_, State.next_onChip (doIslClear_may may),
      ⟨⟨rfl, rfl⟩, s.chip.islCleared_kept⟩, s.chip.islCleared_shown⟩
  · intro s awake runs fresh enabled counting reached
    obtain ⟨kept, shown⟩ := doRtsTimer_reached awake runs fresh enabled counting reached
    exact ⟨_, rfl, ⟨⟨rfl, rfl⟩, kept⟩, shown⟩

end Sys2Proof.Machine

namespace Sys2Proof.Machine

/-! ### Shadow registers of a channel (O50) -/

theorem Chip.pch_updCh_same {c : Chip} {k : Nat} (listed : k < c.pwm.ch.length) (g : PwmCh → PwmCh) :
    (c.updCh k g).pch k = g (c.pch k) := nth_upd_same listed g {}

/-- A channel that the state does not list reads as a fresh one, which is not armed either. -/
theorem Chip.armed_updCh_disarmed (c : Chip) (k : Nat) : ((c.updCh k fun x => { x with armed := false }).pch k).armed = false := by
  by_cases listed : k < c.pwm.ch.length
  · rw [Chip.pch_updCh_same listed]
  · have beyond : (upd c.pwm.ch k fun x => { x with armed := false }).length ≤ k := by simpa [upd] using listed
    rw [Chip.pch, Chip.updCh, nth, List.getD_eq_default _ _ beyond]

@[simp] theorem Chip.pch_shadowStat (c : Chip) (k n : Nat) : (c.shadowStat k).pch n = c.pch n := by
  rw [Chip.pch, Chip.shadowStat, Chip.setF_pwm, Chip.pch]

/-- STAT.SHADOW reads 3 while the shadow is armed (R329). -/
theorem Chip.f_shadowStat_armed {c : Chip} {k : Nat} (armed : (c.pch k).armed = true) :
    (c.shadowStat k).f (R.PWMC_STAT k) F.PWMC_STAT_SHADOW = 3 := by
  have shown : c.shadow k = 3 := if_pos armed
  rw [Chip.shadowStat, Chip.f_setF _ _ _ _ (by decide), shown]
  rfl

theorem Chip.is_shadowStat_beside (c : Chip) (k : Nat) {x : Fld} (word : x.hi < 32)
    (apart : x.hi < F.PWMC_STAT_SHADOW.lo ∨ F.PWMC_STAT_SHADOW.hi < x.lo) :
    (c.shadowStat k).is (R.PWMC_STAT k) x = c.is (R.PWMC_STAT k) x := by
  rw [Chip.is, Chip.shadowStat, Chip.f_setF_beside _ _ _ _ _ word apart, Chip.is]

/-! #### What PWMC.CMD leaves -/

/-- The shadow of channel `k` armed (R330). -/
def Chip.shadowArmed (c : Chip) (k : Nat) : Chip := (c.updCh k fun x => { x with armed := true }).shadowStat k

theorem Chip.shadowArmed_kept (c : Chip) (k : Nat) : Chip.Kept false [R.PWMC_STAT k] [.pwm] c (c.shadowArmed k) :=
  (Chip.Kept.refl.updCh (by simp)).setF (by simp)

theorem Chip.shadowArmed_shown {c : Chip} {k : Nat} (listed : k < c.pwm.ch.length) :
    ((c.shadowArmed k).pch k).armed = true ∧ (c.shadowArmed k).f (R.PWMC_STAT k) F.PWMC_STAT_SHADOW = 3 := by
  have armed : ((c.updCh k fun x => { x with armed := true }).pch k).armed = true := by rw [Chip.pch_updCh_same listed]
  rw [Chip.shadowArmed, Chip.pch_shadowStat]
  exact ⟨armed, Chip.f_shadowStat_armed armed⟩

theorem Chip.shadowClear_kept (c : Chip) (k : Nat) : Chip.Kept false [R.PWMC_STAT k] [.pwm] c (c.shadowClear k) :=
  ((((Chip.Kept.refl.flag (by simp)).flag (by simp)).flag (by simp)).updCh (by simp)).setF (by simp)

theorem Chip.shadowClear_shown (c : Chip) (k : Nat) :
    ((c.shadowClear k).pch k).armed = false ∧ (c.shadowClear k).is (R.PWMC_STAT k) F.PWMC_STAT_A_W = false
      ∧ (c.shadowClear k).is (R.PWMC_STAT k) F.PWMC_STAT_B_W = false
      ∧ (c.shadowClear k).is (R.PWMC_STAT k) F.PWMC_STAT_PER_W = false := by
  rw [Chip.shadowClear, Chip.pch_shadowStat]
  refine ⟨Chip.armed_updCh_disarmed _ k, ?_, ?_, ?_⟩ <;>
    rw [Chip.is_shadowStat_beside _ _ (by decide) (by decide), Chip.updCh_is]
  · rw [Chip.is_flag_beside _ _ _ _ _ (by decide) (by decide), Chip.is_flag _ _ _ _ (by decide) (by decide)]
  · exact Chip.is_flag _ _ _ _ (by decide) (by decide)
  · rw [Chip.is_flag_beside _ _ _ _ _ (by decide) (by decide), Chip.is_flag_beside _ _ _ _ _ (by decide) (by decide),
      Chip.is_flag _ _ _ _ (by decide) (by decide)]

/-! #### The commands -/

section
variable {w : Writer} {k : Fin 16} {s : State}

/-- PWMC_ARM with a written bit set (R330). -/
theorem doPwmcArm_written (may : May w (R.PWMC_CMD k) s) (written : s.chip.is (R.PWMC_STAT k) F.PWMC_STAT_A_W = true
    ∨ s.chip.is (R.PWMC_STAT k) F.PWMC_STAT_B_W = true ∨ s.chip.is (R.PWMC_STAT k) F.PWMC_STAT_PER_W = true) :
    doPwmcArm w theKey k s.chip = s.chip.shadowArmed k := by
  obtain ⟨powered, running, allowed⟩ := may
  rw [doPwmcArm, Chip.cmd_of _ _ _ _ powered running allowed]
  refine if_pos ?_
  obtain a | b | per := written
  · simp [a]
  · simp [b]
  · simp [per]

/-- PWMC_ARM with no written bit set (R330). -/
theorem doPwmcArm_unwritten (may : May w (R.PWMC_CMD k) s) (a : s.chip.is (R.PWMC_STAT k) F.PWMC_STAT_A_W = false)
    (b : s.chip.is (R.PWMC_STAT k) F.PWMC_STAT_B_W = false) (per : s.chip.is (R.PWMC_STAT k) F.PWMC_STAT_PER_W = false) :
    doPwmcArm w theKey k s.chip = s.chip := by
  obtain ⟨powered, running, allowed⟩ := may
  rw [doPwmcArm, Chip.cmd_of _ _ _ _ powered running allowed]
  exact if_neg (by simp [a, b, per])

/-- PWMC_DISCARD (R330). -/
theorem doPwmcDiscard_may (may : May w (R.PWMC_CMD k) s) : doPwmcDiscard w theKey k s.chip = s.chip.shadowClear k := by
  obtain ⟨powered, running, allowed⟩ := may
  rw [doPwmcDiscard, Chip.cmd_of _ _ _ _ powered running allowed]
  rfl

end

/-- Settles O50: each clause is what PWMC.CMD leaves of the channel; the memory and the queue stay beside it. -/
theorem pwmShadowCommands : Obligations.PwmShadowCommands := by
  refine ⟨?_, ?_, ?_⟩
  · exact fun w k s may written listed => ⟨_, State.next_onChip (doPwmcArm_written may written),
      ⟨⟨rfl, rfl⟩, s.chip.shadowArmed_kept k⟩, Chip.shadowArmed_shown listed⟩
  · exact fun w k s may a b per => ⟨_, State.next_onChip (doPwmcArm_unwritten may a b per), rfl⟩
  · exact fun w k s may => ⟨_, State.next_onChip (doPwmcDiscard_may may),
      ⟨⟨rfl, rfl⟩, s.chip.shadowClear_kept k⟩, s.chip.shadowClear_shown k⟩

/-! ### A trip held back by a blanking window while the Lap log is behind (O51)

A change of the input of a trip source goes by the protection bypass, behind which the Lap log looks at the level inputs (R16, R563). So
it does where a blanking window holds the change back (R344) and nothing else happens. -/

/-- The Lap log is behind, and trip source 0 is inside a blanking window. -/
def lapBehindInWindow : State := lapBehind.onChip fun c => c.flag (R.TRIP_SRC_STAT 0) F.TRIP_SRC_STAT_IN_BLANK true

/-- The state meets what the statement asks of a change inside a window. -/
theorem lapBehindInWindow_blanked : lapBehindInWindow.chip.powered = true
    ∧ lapBehindInWindow.chip.is (R.TRIP_SRC_STAT (0 : Fin 16)) F.TRIP_SRC_STAT_IN_BLANK = true := by decide +kernel

/-- The Lap log takes the LEVEL record that was due. -/
theorem lapBehindInWindow_records_levels :
    (doTripSourceAssert 0 false lapBehindInWindow.chip).lap.lvl ≠ lapBehindInWindow.chip.lap.lvl := by decide +kernel

theorem exec_tripSourceAssert (k : Fin 16) (starting : Bool) (s : State) :
    exec (.tripSourceAssert k starting) s = .next (s.onChip (doTripSourceAssert k starting)) := rfl

/-- Refutes O51: TRIP_SOURCE_ASSERT inside a blanking window does not change the trip source alone, since a LEVEL record can be due. -/
theorem not_tripCommands : ¬ Obligations.TripCommands := by
  rintro ⟨-, -, -, heldBack, -⟩
  obtain ⟨powered, blanked⟩ := lapBehindInWindow_blanked
  obtain ⟨t, ht, ⟨-, kept⟩, -⟩ := heldBack 0 lapBehindInWindow powered blanked
  obtain rfl := Host.Outcome.next.inj ((exec_tripSourceAssert ..).symm.trans ht)
  have lap : (doTripSourceAssert 0 false lapBehindInWindow.chip).lap = lapBehindInWindow.chip.lap :=
    kept.parts .lap (by simp) (by simp) (by simp)
  exact lapBehindInWindow_records_levels (congrArg LapSt.lvl lap)

end Sys2Proof.Machine

namespace Sys2Proof.Machine

/-! ### CLEAR at the resume point of the legacy source (O54)

An accepted CLEAR leaves LATCHED for WAIT_RDY, and on to RESUME where the supplies are applied and the driver is ready (R370, R374). The
resume point of the legacy source is the first cycle in which the pins give both requests off (R373). Where they do already, the instance
goes on to ACTIVE in the same cycle. -/

/-- Instance 0 runs from the legacy pins, which are both low. It is latched after four faults; the supplies are applied, the driver is
ready, and no cause is left. -/
def latchedAtResumePoint : State := clocked0 fun c =>
  let c : Chip := ((c.flag (R.GDI_CFG 0) F.GDI_CFG_EN true).setF (R.GDI_CFG 0) F.GDI_CFG_SRC 2).setF (R.GDI_STAT 0) F.GDI_STAT_STATE Gs.latched
  let c : Chip := (c.flag (R.GDI_STAT 0) F.GDI_STAT_SUP_OK true).flag (R.GDI_STAT 0) F.GDI_STAT_GRDY true
  c.updGdi 0 fun x => { x with n := 4, win := true, faulted := true }

/-- The state meets what the statement asks of an accepted CLEAR by twin A. -/
theorem latchedAtResumePoint_may_clear :
    May ⟨.twinA, 0⟩ (R.GDI_CMD (0 : Fin 16)) latchedAtResumePoint
      ∧ latchedAtResumePoint.chip.gdiState (0 : Fin 16) = Gs.latched ∧ latchedAtResumePoint.chip.gdiCause (0 : Fin 16) = none
      ∧ (0 : Fin 16).val < latchedAtResumePoint.chip.pwm.gdi.length := by decide +kernel

/-- The CLEAR ends in ACTIVE. -/
theorem latchedAtResumePoint_clear_active :
    (doGdiClear ⟨.twinA, 0⟩ theKey 0 latchedAtResumePoint.chip).gdiState (0 : Fin 16) = Gs.active := by decide +kernel

theorem exec_gdiClear (w : Writer) (key : BitVec 16) (n : Fin 16) (s : State) :
    exec (.gdiClear w key n) s = .next (s.onChip (doGdiClear w key n)) := rfl

/-- Refutes O54: an accepted CLEAR of an instance at the resume point of its legacy source ends in ACTIVE, not in WAIT_RDY or RESUME. -/
theorem not_gateRecoveryCommands : ¬ Obligations.GateRecoveryCommands := by
  rintro ⟨accepted, -⟩
  obtain ⟨may, latched, uncaused, listed⟩ := latchedAtResumePoint_may_clear
  obtain ⟨t, ht, -, -, -, left⟩ := accepted ⟨.twinA, 0⟩ 0 latchedAtResumePoint may latched uncaused listed
  obtain rfl := Host.Outcome.next.inj ((exec_gdiClear ..).symm.trans ht)
  rw [State.onChip_chip, latchedAtResumePoint_clear_active] at left
  exact absurd left (by decide)

/-! ### What a cause of the safe state leaves of the retry state machine -/

/-- The fields of GDI.STAT that belong to the retry state machine and to what it supervises, apart from its live cause bits (R367 to R371). -/
def retryFields : List Fld := [F.GDI_STAT_STATE, F.GDI_STAT_GRDY, F.GDI_STAT_SUP_OK, F.GDI_STAT_LAST_CAUSE]

theorem retryFields_word {x : Fld} (hx : x ∈ retryFields) : x.hi < 32 :=
  (by decide : ∀ x ∈ retryFields, x.hi < 32) x hx

/-- The fault occurrences that an instance has counted, and whether its window is open (R371). -/
def GdiCh.counted (x : GdiCh) : Nat × Bool := (x.n, x.win)

/-- A register of a gate-drive page, the header left out. -/
abbrev GdiKey (k : Nat) : Prop := P.GDI 0 ≤ k ∧ k < P.GDI 16 ∧ 0x100 ≤ k % 0x1000

theorem GdiKey.not_evKey {k : Nat} (h : GdiKey k) : evKey k = false := by
  obtain ⟨low, high, body⟩ := h
  simp only [P.GDI] at low high
  simp only [evKey, H.EVT, R.HTM_CAP_CFG, R.HTM_CAP, R.MASK_STAT, R.PCR_ESTAT, R.LAP_FREEZE_T, R.LAP_STAT, R.EVR_OVR, List.contains_eq_mem,
    List.mem_cons, List.not_mem_nil, or_false, Bool.or_eq_false_iff, decide_eq_false_iff_not]
  exact ⟨decide_eq_false (by omega), by omega⟩

theorem gdiKey_stat {n : Nat} (hn : n < 16) : GdiKey (R.GDI_STAT n) := by
  simp only [GdiKey, P.GDI, R.GDI_STAT]
  omega

theorem chKeys_not_gdiKey {n : Nat} (hn : n < 16) : ∀ k ∈ chKeys n, ¬ GdiKey k := by
  intro k hk
  simp only [chKeys, List.mem_append, List.mem_cons, List.not_mem_nil, or_false, List.mem_map, List.mem_range] at hk
  simp only [GdiKey, P.GDI]
  rcases hk with ((rfl | rfl) | ⟨i, hi, rfl⟩) | ⟨i, hi, rfl⟩
  · simp only [R.TRIP_CH_STAT]; omega
  · simp only [R.PWMC_STAT]; omega
  · simp only [R.ACMP_CH_STAT]; omega
  · simp only [R.TRIP_SRC_STAT]; omega

/-- A change that keeps what every instance has counted, whichever instance it changes, listed or not. -/
theorem counted_upd {g : GdiCh → GdiCh} (hg : ∀ x, (g x).counted = x.counted) (l : List GdiCh) (i n : Nat) :
    (nth (upd l i g) n {}).counted = (nth l n {}).counted := by
  simp only [nth, upd, List.getD_eq_getElem?_getD, List.getElem?_modify]
  by_cases same : i = n
  · cases l[n]? <;> simp [same, hg]
  · cases l[n]? <;> simp [same]

/-- From `c` to `d` the retry state machines stand still: their states, counts and records are kept, and so is the time. The gates may have
fallen and live cause bits may have moved (R370, R371). -/
structure Chip.RetryKept (c d : Chip) : Prop where
  power : c.powered = true → d.powered = true
  time : d.time = c.time
  listed : d.pwm.gdi.length = c.pwm.gdi.length
  counted : ∀ n, (d.gdi n).counted = (c.gdi n).counted
  stat : ∀ n < 16, ∀ x ∈ retryFields, d.f (R.GDI_STAT n) x = c.f (R.GDI_STAT n) x
  regs : ∀ k, GdiKey k → (∀ n, k ≠ R.GDI_STAT n) → d.rd k = c.rd k

namespace Chip.RetryKept
variable {c d e : Chip}

theorem refl : c.RetryKept c := ⟨id, rfl, rfl, fun _ => rfl, fun _ _ _ _ => rfl, fun _ _ _ => rfl⟩

theorem trans (h : c.RetryKept d) (g : d.RetryKept e) : c.RetryKept e where
  power hp := g.power (h.power hp)
  time := g.time.trans h.time
  listed := g.listed.trans h.listed
  counted n := (g.counted n).trans (h.counted n)
  stat n hn x hx := (g.stat n hn x hx).trans (h.stat n hn x hx)
  regs k hk other := (g.regs k hk other).trans (h.regs k hk other)

theorem ite {p : Prop} [Decidable p] (h : c.RetryKept d) (g : c.RetryKept e) : c.RetryKept (if p then d else e) := by split <;> assumption

/-- What a frame beside the gate drive keeps. -/
theorem keep {ks : List Nat} {ps : List Part} (h : c.RetryKept d) (kept : Chip.Kept true ks ps d e) (hk : ∀ k ∈ ks, ¬ GdiKey k)
    (hp : ps ⊆ [.safe, .meas]) : c.RetryKept e := by
  have beside : ∀ p : Part, p ∉ [.safe, .meas] → p ∉ ps := fun _ hn hm => hn (hp hm)
  have rd : ∀ k, GdiKey k → e.rd k = d.rd k := fun k hg => kept.regs k (fun _ => hg.not_evKey) fun hm => hk k hm hg
  have pwm : e.pwm = d.pwm := kept.parts .pwm (by simp) (by simp) (beside _ (by decide))
  refine h.trans ⟨fun on => ?_, kept.time_eq (beside _ (by decide)), by rw [pwm], fun n => by rw [Chip.gdi, Chip.gdi, pwm],
    fun n hn x _ => Chip.f_congr (rd _ (gdiKey_stat hn)) x, fun k hg _ => rd k hg⟩
  rwa [Chip.powered, kept.mode_eq (beside _ (by decide))]

/-- A register beside the gate drive. -/
theorem wr (h : c.RetryKept d) {k : Nat} {v : Word} (hk : ¬ GdiKey k) : c.RetryKept (d.wr k v) :=
  h.keep (Chip.Kept.refl.wr (List.mem_singleton_self k)) (by simpa using hk) (List.nil_subset _)

theorem raise (h : c.RetryKept d) {b i : Nat} (hb : b % 0x1000 = 0) : c.RetryKept (d.raise b i) :=
  h.keep (Chip.Kept.refl.raise hb) (ks := []) (by simp) (List.nil_subset _)

theorem raiseIf (h : c.RetryKept d) {p : Bool} {b i : Nat} (hb : b % 0x1000 = 0) : c.RetryKept (d.raiseIf p b i) := ite (h.raise hb) h

theorem lapLevels (h : c.RetryKept d) : c.RetryKept d.lapLevels := h.keep d.lapLevels_kept (by simp) (List.nil_subset _)

theorem setSafe (h : c.RetryKept d) {x : SafeSt} : c.RetryKept { d with safe := x } :=
  h.keep (ks := []) (Chip.Kept.refl.setSafe (List.mem_singleton_self _)) (by simp) (by decide)

/-- A field of GDI.STAT beside those of the retry state machine. -/
theorem setStat (h : c.RetryKept d) {m v : Nat} {x : Fld} (hx : ∀ y ∈ retryFields, y.hi < x.lo ∨ x.hi < y.lo) :
    c.RetryKept (d.setF (R.GDI_STAT m) x v) := by
  refine h.trans ⟨id, rfl, rfl, fun _ => rfl, fun n _ y hy => ?_, fun k _ other => Chip.rd_setF_ne _ _ _ _ _ (other m).symm⟩
  by_cases same : m = n
  · rw [same, Chip.f_setF_beside _ _ _ _ _ (retryFields_word hy) (hx y hy)]
  · exact Chip.f_setF_ne _ _ _ _ _ _ (gdi_stat_inj same)

theorem flagStat (h : c.RetryKept d) {m : Nat} {x : Fld} {b : Bool} (hx : ∀ y ∈ retryFields, y.hi < x.lo ∨ x.hi < y.lo) :
    c.RetryKept (d.flag (R.GDI_STAT m) x b) := h.setStat hx

theorem updCh (h : c.RetryKept d) {n : Nat} {g : PwmCh → PwmCh} : c.RetryKept (d.updCh n g) :=
  h.trans ⟨id, rfl, rfl, fun _ => rfl, fun _ _ _ _ => rfl, fun _ _ _ => rfl⟩

theorem updGdi (h : c.RetryKept d) {m : Nat} {g : GdiCh → GdiCh} (hg : ∀ x, (g x).counted = x.counted) : c.RetryKept (d.updGdi m g) :=
  h.trans ⟨id, rfl, List.length_modify .., counted_upd hg d.pwm.gdi m, fun _ _ _ _ => rfl, fun _ _ _ => rfl⟩

/-- The outputs of an instance (R355, R364, R365). -/
theorem gdiOut (h : c.RetryKept d) {n : Nat} : c.RetryKept (d.gdiOut n) := by
  unfold Chip.gdiOut
  generalize d.gdiReq n = r
  obtain ⟨high, low⟩ := r
  dsimp only
  have noted : c.RetryKept (if (high && low) = true then d.updGdi n fun x => { x with shoot := true } else d) :=
    ite (h.updGdi fun _ => rfl) h
  generalize (if (high && low) = true then d.updGdi n fun x => { x with shoot := true } else d) = e at noted ⊢
  refine flagStat (x := F.GDI_STAT_CAUSE_SHOOT) (flagStat (x := F.GDI_STAT_GL) (flagStat (x := F.GDI_STAT_GH) ?_ (by decide))
    (by decide)) (by decide)
  refine ite (raise (flagStat (x := F.GDI_STAT_DT_ENF_SEEN) (noted.updGdi ?_) (by decide)) (page_gdi n)) (noted.updGdi ?_) <;>
    exact fun _ => rfl

/-- The gates held off by the Sheepdog (R29, R499). -/
theorem shdOff (h : c.RetryKept d) {b : Bool} : c.RetryKept (d.shdOff b) :=
  (forN_inv c.RetryKept 16 _ d h fun _ _ he => (he.flagStat (by decide)).gdiOut).lapLevels

theorem soutUpdate (h : c.RetryKept d) : c.RetryKept d.soutUpdate :=
  wr (forN_inv c.RetryKept 8 _ d h fun k e he =>
    ite (keep (ks := []) (wr he (by decide)) (Chip.Kept.refl.updSout (List.mem_singleton_self _)) (by simp) (by decide)) he) (by decide)

theorem setSgr (h : c.RetryKept d) {b : Bool} : c.RetryKept (d.setSgr b) := soutUpdate h.setSafe

theorem tripBreaker (h : c.RetryKept d) : c.RetryKept d.tripBreaker := by
  have pulses : ∀ e : Chip, Chip.Kept true [] [.safe] e e.tripPulses := fun e =>
    Chip.Kept.refl.forN fun _ _ he => .ite (he.updSout (by simp)) he
  exact ite h (soutUpdate (keep (h.wr (by decide)) (pulses _) (by simp) (by decide)))

theorem latch (h : c.RetryKept d) {code cls idx : Nat} : c.RetryKept (d.latch code cls idx) := by
  have seen : ∀ {e : Chip} {m : Nat}, c.RetryKept e → c.RetryKept (e.orBits R.SHD_CAUSES_SEEN m) := fun he => he.wr (by decide)
  have first : ∀ {w : Nat} {x : SafeSt}, c.RetryKept ((({ ((d.flag R.SHD_STAT F.SHD_STAT_LATCH true).wrN R.SHD_CAUSE w)
      with safe := x } : Chip).shdOff true).raise P.SHD 0) :=
    ((wr (wr h (by decide)) (by decide)).setSafe.shdOff).raise (by decide)
  have recorded := fun e (he : c.RetryKept e) => ite (p := (!d.is R.SHD_STAT F.SHD_STAT_LATCH) = true) (he.setSgr (b := false)) he
  exact ite (recorded _ (seen (ite first h))).tripBreaker (recorded _ (seen (ite first h)))

theorem chGates (h : c.RetryKept d) {n : Nat} (hn : n < 16) {hi lo : Bool} : c.RetryKept (d.chGates n hi lo) :=
  h.keep (Chip.Kept.refl.chGates (fun _ hm => hm) (List.mem_singleton_self _)) (chKeys_not_gdiKey hn) (by decide)

/-- The outputs of a channel (R322, R323). -/
theorem chOut (h : c.RetryKept d) {n : Nat} (hn : n < 16) : c.RetryKept (d.chOut n) := by
  unfold Chip.chOut
  generalize d.chReq n = r
  generalize d.tripOver n = o
  obtain ⟨rh, rl⟩ := r
  obtain ⟨off, low⟩ := o
  have trip : ¬ GdiKey R.TRIP_CH_STAT := by decide
  have stat : ¬ GdiKey (R.PWMC_STAT n) := chKeys_not_gdiKey hn _ (by simp [chKeys])
  refine gdiOut (chGates (ite (wr ?_ stat) ?_) hn) <;>
    exact wr (wr (wr (wr h.updCh trip) trip) stat) stat

theorem gates (h : c.RetryKept d) : c.RetryKept d.gates := forN_inv_lt c.RetryKept 16 _ d h fun _ hn _ he => he.chOut hn

/-- A change of the device state (R43) to one in which the main domain is powered. -/
theorem enter (h : c.RetryKept d) {m : Mode} (hm : m ≠ .off ∧ m ≠ .survival) : c.RetryKept (d.enter m) := by
  have moved : c.RetryKept ({ d.setF R.SYS_STATE F.SYS_STATE_PREV d.mode.code with mode := m } : Chip) :=
    trans (h.wr (by decide)) ⟨fun _ => by cases m <;> simp_all [Chip.powered], rfl, rfl, fun _ => rfl, fun _ _ _ _ => rfl, fun _ _ _ => rfl⟩
  unfold Chip.enter
  refine ite h (ite (gates ?_) ?_) <;>
    exact keep (ks := []) (raise (wr (wr (wr moved (by decide)) (by decide)) (by decide)) (by decide)) Chip.Kept.refl.lapRec (by simp)
      (List.nil_subset _)

theorem enterSafe (h : c.RetryKept d) {code : Nat} : c.RetryKept (d.enterSafe code) := by
  unfold Chip.enterSafe
  refine ite h (keep (ks := []) (enter (setSafe ?_) (by decide)) Chip.Kept.refl.pacerOnSafe (by simp) (List.nil_subset _))
  exact wr (wr (wr (ite (wr h (by decide)) h) (by decide)) (by decide)) (by decide)

/-- A safety cause (R29, R499). -/
theorem cause (h : c.RetryKept d) {code cls idx : Nat} : c.RetryKept (d.cause code cls idx) := by
  have logged : ∀ {e : Chip} {kind : Nat} {l : List Byte}, c.RetryKept e → c.RetryKept (e.logIt kind l) := fun he =>
    he.keep (ks := [R.SHD_LOG_STAT]) (ps := [.safe]) (Chip.Kept.refl.logIt (by simp) (by simp)) (by decide) (by decide)
  exact ite (ite (logged h.latch.enterSafe) h.latch.enterSafe) h

/-- The live cause bits, and what the Sheepdog sees of a latched instance (R369). -/
theorem gdiStat (h : c.RetryKept d) {n : Nat} : c.RetryKept (d.gdiStat n) := by
  have demand : ∀ {e : Chip} {b : Bool}, c.RetryKept e → c.RetryKept (e.setBit R.SHD_DEMAND_AG (16 + n) b) := fun he => he.wr (by decide)
  unfold Chip.gdiStat
  dsimp only
  refine ite (cause (demand (setStat (setStat (setStat h ?_) ?_) ?_))) (demand (setStat (setStat (setStat h ?_) ?_) ?_))
  all_goals decide

end Chip.RetryKept

/-! ### Retry state machine of the gate drive (O53) -/

/-- The registers that a fault occurrence depends on or is recorded in, beside STAT (R369 to R371). -/
def faultKeys (n : Nat) : List Nat :=
  [R.GDI_CFG n, R.GDI_RETRY n, R.GDI_CNT_0 n, R.GDI_CNT_1 n, R.GDI_LAST_T n 0, R.GDI_LAST_T n 0 + 4]

theorem gdiKey_fault {n k : Nat} (hn : n < 16) (hk : k ∈ faultKeys n) : GdiKey k := by
  simp only [faultKeys, List.mem_cons, List.not_mem_nil, or_false, R.GDI_CFG, R.GDI_RETRY, R.GDI_CNT_0, R.GDI_CNT_1, R.GDI_LAST_T] at hk
  simp only [GdiKey, P.GDI]
  omega

theorem fault_ne_gdi_stat {n k : Nat} (hk : k ∈ faultKeys n) (m : Nat) : k ≠ R.GDI_STAT m := by
  simp only [faultKeys, List.mem_cons, List.not_mem_nil, or_false, R.GDI_CFG, R.GDI_RETRY, R.GDI_CNT_0, R.GDI_CNT_1, R.GDI_LAST_T] at hk
  simp only [R.GDI_STAT]
  omega

namespace Chip.RetryKept
variable {c d : Chip} {n : Nat}

theorem stat_f (h : c.RetryKept d) (hn : n < 16) {x : Fld} (hx : x ∈ retryFields) : d.f (R.GDI_STAT n) x = c.f (R.GDI_STAT n) x :=
  h.stat n hn x hx

theorem stat_is (h : c.RetryKept d) (hn : n < 16) {x : Fld} (hx : x ∈ retryFields) : d.is (R.GDI_STAT n) x = c.is (R.GDI_STAT n) x := by
  rw [Chip.is, h.stat_f hn hx, Chip.is]

theorem state_eq (h : c.RetryKept d) (hn : n < 16) : d.gdiState n = c.gdiState n := h.stat_f hn (by decide)

theorem count_eq (h : c.RetryKept d) (n : Nat) : (d.gdi n).n = (c.gdi n).n := congrArg Prod.fst (h.counted n)

theorem win_eq (h : c.RetryKept d) (n : Nat) : (d.gdi n).win = (c.gdi n).win := congrArg Prod.snd (h.counted n)

theorem htNs_eq (h : c.RetryKept d) : d.htNs = c.htNs := congrArg (fun t : TimeSt => t.ht / 2 ^ 48 % 2 ^ 64) h.time

theorem rd_fault (h : c.RetryKept d) (hn : n < 16) {k : Nat} (hk : k ∈ faultKeys n) : d.rd k = c.rd k :=
  h.regs k (gdiKey_fault hn hk) (fault_ne_gdi_stat hk)

/-- Where two chips agree, both may go to state `st`. -/
theorem setState (h : c.RetryKept d) (n st : Nat) :
    (c.setF (R.GDI_STAT n) F.GDI_STAT_STATE st).RetryKept (d.setF (R.GDI_STAT n) F.GDI_STAT_STATE st) := by
  refine ⟨fun on => ?_, ?_, by rw [Chip.setF_pwm, Chip.setF_pwm, h.listed], fun m => ?_, fun m hm x hx => ?_, fun k hk other => ?_⟩
  · rw [Chip.powered, Chip.setF_mode] at *
    exact h.power on
  · rw [Chip.setF_time, Chip.setF_time, h.time]
  · rw [Chip.gdi, Chip.gdi, Chip.setF_pwm, Chip.setF_pwm]
    exact h.counted m
  · by_cases same : n = m
    · subst same
      by_cases state : x = F.GDI_STAT_STATE
      · rw [state, Chip.f_setF _ _ _ _ (by decide), Chip.f_setF _ _ _ _ (by decide)]
      · have beside : ∀ y ∈ retryFields, y ≠ F.GDI_STAT_STATE → y.hi < F.GDI_STAT_STATE.lo := by decide
        rw [Chip.f_setF_beside _ _ _ _ _ (retryFields_word hx) (.inl (beside x hx state)),
          Chip.f_setF_beside _ _ _ _ _ (retryFields_word hx) (.inl (beside x hx state)), h.stat_f hm hx]
    · rw [Chip.f_setF_ne _ _ _ _ _ _ (gdi_stat_inj same), Chip.f_setF_ne _ _ _ _ _ _ (gdi_stat_inj same), h.stat_f hm hx]
  · rw [Chip.rd_setF_ne _ _ _ _ _ (other n).symm, Chip.rd_setF_ne _ _ _ _ _ (other n).symm, h.regs k hk other]

/-- An instance that goes to a state other than ACTIVE and DISABLED (R370). -/
theorem gdiGo (h : c.RetryKept d) {st : Nat} (other : st ≠ Gs.active ∧ st ≠ Gs.disabled) :
    (c.setF (R.GDI_STAT n) F.GDI_STAT_STATE st).RetryKept (d.gdiGo n st) := by
  unfold Chip.gdiGo
  simp only [other.1, other.2, if_false]
  exact ((h.setState n st).updGdi fun _ => rfl).gdiOut.gdiStat

end Chip.RetryKept

/-- The state that was just set. -/
theorem Chip.gdiState_setF (c : Chip) (n : Nat) {st : Nat} (code : st < 16) :
    (c.setF (R.GDI_STAT n) F.GDI_STAT_STATE st).gdiState n = st := Chip.f_setF_of_lt _ _ _ _ (by decide) code

/-- STAT.GRDY and STAT.SUP_OK do not depend on the state. -/
theorem Chip.is_setState (c : Chip) (n st : Nat) {x : Fld} (hx : x.hi < F.GDI_STAT_STATE.lo) :
    (c.setF (R.GDI_STAT n) F.GDI_STAT_STATE st).is (R.GDI_STAT n) x = c.is (R.GDI_STAT n) x :=
  Chip.is_setF_beside _ _ _ _ _ (Nat.lt_trans hx (by decide)) (.inl hx)

/-! #### A fault occurrence -/

/-- The counter of a fault cause: its register and its field (R371, R379). -/
def faultCounter (n cause : Nat) : Nat × Fld :=
  match cause with
  | 1 => (R.GDI_CNT_0 n, F.GDI_CNT_0_DRV)
  | 2 => (R.GDI_CNT_0 n, F.GDI_CNT_0_SHOOT)
  | _ => (R.GDI_CNT_1 n, F.GDI_CNT_1_RDY)

/-- The count and the cause, as a fault occurrence changes them (R371). -/
def Chip.gdiTallied (c : Chip) (n cause : Nat) (injected : Bool) : Chip :=
  (c.updGdi n fun x => { x with n := x.n + 1, win := true, faulted := true, inj := injected }).setF (R.GDI_STAT n) F.GDI_STAT_LAST_CAUSE cause

/-- A fault occurrence counted and recorded (R371). -/
def Chip.gdiRecorded (c : Chip) (n cause : Nat) (injected : Bool) : Chip :=
  ((c.gdiTallied n cause injected).wr64 (R.GDI_LAST_T n 0) c.htNs).incSat (faultCounter n cause).1 (faultCounter n cause).2

/-- More fault occurrences than retries are allowed (R370). -/
def Chip.retriesOver (c : Chip) (n : Nat) : Bool := decide (c.f (R.GDI_RETRY n) F.GDI_RETRY_MAX < (c.gdi n).n)

/-- The state that a fault occurrence leads to (R370). -/
def Chip.faultState (c : Chip) (n : Nat) : Nat := if c.retriesOver n then Gs.latched else Gs.retryWait

theorem Chip.faultState_code (c : Chip) (n : Nat) : c.faultState n < 16 ∧ c.faultState n ≠ Gs.active ∧ c.faultState n ≠ Gs.disabled := by
  unfold Chip.faultState
  split <;> decide

/-- A fault occurrence before it is presented to the Sheepdog (R369 to R371). -/
def Chip.gdiUnpresented (c : Chip) (n cause : Nat) (injected : Bool) : Chip :=
  let c : Chip := ((c.gdiRecorded n cause injected).raise (P.GDI n) 0).raise (P.GDI n) (2 + cause)
  (c.gdiGo n (c.faultState n)).raiseIf (c.retriesOver n) (P.GDI n) 1

/-- A fault occurrence in its two steps. -/
theorem Chip.gdiFault_eq (c : Chip) (n cause : Nat) (injected : Bool) : c.gdiFault n cause injected =
    if (decide ((c.gdiUnpresented n cause injected).f (R.GDI_CFG n) F.GDI_CFG_SHD = 1) && !injected) = true then
      (c.gdiUnpresented n cause injected).cause 0x03 6 n
    else c.gdiUnpresented n cause injected := by
  -- no cause, DRV_FAULT, SHOOT, and the causes from RDY_LOSS on
  obtain _ | _ | _ | cause := cause <;> rfl

theorem Chip.gdiUnpresented_kept (c : Chip) {n : Nat} (hn : n < 16) (cause : Nat) (injected : Bool) :
    ((c.gdiRecorded n cause injected).setF (R.GDI_STAT n) F.GDI_STAT_STATE ((c.gdiRecorded n cause injected).faultState n)).RetryKept
      (c.gdiUnpresented n cause injected) := by
  unfold Chip.gdiUnpresented
  dsimp only
  generalize c.gdiRecorded n cause injected = d
  have raised : d.RetryKept ((d.raise (P.GDI n) 0).raise (P.GDI n) (2 + cause)) :=
    (Chip.RetryKept.refl.raise (page_gdi n)).raise (page_gdi n)
  generalize (d.raise (P.GDI n) 0).raise (P.GDI n) (2 + cause) = e at raised ⊢
  have state : e.faultState n = d.faultState n := by
    rw [Chip.faultState, Chip.retriesOver, raised.count_eq, Chip.f_congr (raised.rd_fault hn (by simp [faultKeys])), Chip.faultState,
      Chip.retriesOver]
  rw [state]
  exact (raised.gdiGo (d.faultState_code n).2).raiseIf (page_gdi n)

theorem Chip.gdiFault_kept (c : Chip) {n : Nat} (hn : n < 16) (cause : Nat) (injected : Bool) :
    ((c.gdiRecorded n cause injected).setF (R.GDI_STAT n) F.GDI_STAT_STATE ((c.gdiRecorded n cause injected).faultState n)).RetryKept
      (c.gdiFault n cause injected) := by
  rw [Chip.gdiFault_eq]
  exact .ite (c.gdiUnpresented_kept hn cause injected).cause (c.gdiUnpresented_kept hn cause injected)

/-- From `c` to `d` instance `n` has counted one fault occurrence of `cause` (R370, R371). -/
structure Chip.Faulted (n cause : Nat) (c d : Chip) : Prop where
  state : d.gdiState n = if c.f (R.GDI_RETRY n) F.GDI_RETRY_MAX < (c.gdi n).n + 1 then Gs.latched else Gs.retryWait
  count : (d.gdi n).n = (c.gdi n).n + 1
  lastCause : d.f (R.GDI_STAT n) F.GDI_STAT_LAST_CAUSE = cause
  lastTime : d.rd64 (R.GDI_LAST_T n 0) = c.htNs % 2 ^ 64
  counter : d.f (faultCounter n cause).1 (faultCounter n cause).2
    = min (c.f (faultCounter n cause).1 (faultCounter n cause).2 + 1) (2 ^ (faultCounter n cause).2.width - 1)

theorem faultCounter_mem (n cause : Nat) : (faultCounter n cause).1 ∈ faultKeys n := by
  unfold faultCounter
  split <;> simp [faultKeys]

theorem faultCounter_word (n cause : Nat) : (faultCounter n cause).2.hi < 32 := by
  unfold faultCounter
  split <;> simp [F.GDI_CNT_0_DRV, F.GDI_CNT_0_SHOOT, F.GDI_CNT_1_RDY]

/-- A counter that stops at its greatest value. -/
theorem Chip.f_incSat (c : Chip) (k : Nat) {x : Fld} (word : x.hi < 32) (n : Nat) :
    (c.incSat k x n).f k x = min (c.f k x + n) (2 ^ x.width - 1) := by
  refine Chip.f_setF_of_lt _ _ _ _ word (lt_of_le_of_lt (min_le_right _ _) ?_)
  have : 0 < 2 ^ x.width := by positivity
  exact Nat.sub_lt this (by decide)

theorem faultCounter_eq (n cause : Nat) : (faultCounter n cause).1 = R.GDI_CNT_0 n ∨ (faultCounter n cause).1 = R.GDI_CNT_1 n := by
  unfold faultCounter
  split <;> simp

/-- The registers in which an occurrence is recorded, beside STAT. -/
def recordKeys (n cause : Nat) : List Nat := [R.GDI_LAST_T n 0, R.GDI_LAST_T n 0 + 4, (faultCounter n cause).1]

theorem gdi_stat_notMem_recordKeys (n cause : Nat) : R.GDI_STAT n ∉ recordKeys n cause := by
  have counter := faultCounter_eq n cause
  simp only [recordKeys, List.mem_cons, List.not_mem_nil, or_false, R.GDI_CNT_0, R.GDI_CNT_1, R.GDI_STAT, R.GDI_LAST_T] at counter ⊢
  omega

/-- The counter is apart from the other registers in which an occurrence is recorded. -/
theorem faultCounter_notMem (n cause : Nat) :
    (faultCounter n cause).1 ∉ [R.GDI_STAT n, R.GDI_LAST_T n 0, R.GDI_LAST_T n 0 + 4] := by
  have counter := faultCounter_eq n cause
  simp only [List.mem_cons, List.not_mem_nil, or_false, R.GDI_CNT_0, R.GDI_CNT_1, R.GDI_LAST_T, R.GDI_STAT] at counter ⊢
  omega

/-- The configuration of an instance is in none of these registers. -/
theorem config_notMem_recordKeys {n k : Nat} (cause : Nat) (hk : k = R.GDI_CFG n ∨ k = R.GDI_RETRY n) :
    k ∉ R.GDI_STAT n :: recordKeys n cause := by
  have counter := faultCounter_eq n cause
  simp only [recordKeys, List.mem_cons, List.not_mem_nil, or_false, R.GDI_CFG, R.GDI_RETRY, R.GDI_CNT_0, R.GDI_CNT_1, R.GDI_STAT, R.GDI_LAST_T]
    at hk counter ⊢
  omega

section
variable (c : Chip) (n cause : Nat) (injected : Bool)

theorem Chip.gdiTallied_kept : Chip.Kept false [R.GDI_STAT n] [.pwm] c (c.gdiTallied n cause injected) :=
  (Chip.Kept.refl.updGdi (by simp)).setF (by simp)

/-- The record that follows leaves the tally. -/
theorem Chip.gdiRecorded_tallied :
    Chip.Kept false (recordKeys n cause) [] (c.gdiTallied n cause injected) (c.gdiRecorded n cause injected) :=
  (Chip.Kept.refl.wr64 (by simp [recordKeys]) (by simp [recordKeys])).incSat (by simp [recordKeys])

theorem Chip.gdiRecorded_kept :
    Chip.Kept false (R.GDI_STAT n :: recordKeys n cause) [.pwm] c (c.gdiRecorded n cause injected) :=
  ((c.gdiTallied_kept n cause injected).mono (by simp) (by simp)).trans
    ((c.gdiRecorded_tallied n cause injected).mono (fun _ hm => List.mem_cons_of_mem _ hm) (by simp))

/-- LAST_T takes the herd time. -/
theorem Chip.gdiRecorded_time : (c.gdiRecorded n cause injected).rd64 (R.GDI_LAST_T n 0) = c.htNs % 2 ^ 64 := by
  have low : (faultCounter n cause).1 ≠ R.GDI_LAST_T n 0 := fun h => faultCounter_notMem n cause (by simp [h])
  have high : (faultCounter n cause).1 ≠ R.GDI_LAST_T n 0 + 4 := fun h => faultCounter_notMem n cause (by simp [h])
  rw [Chip.gdiRecorded, Chip.incSat, Chip.rd64, Chip.rdN, Chip.rdN, Chip.rd_setF_ne _ _ _ _ _ low, Chip.rd_setF_ne _ _ _ _ _ high]
  exact Chip.rd64_wr64 _ _ _

/-- The cause's counter counts. -/
theorem Chip.gdiRecorded_counter : (c.gdiRecorded n cause injected).f (faultCounter n cause).1 (faultCounter n cause).2
    = min (c.f (faultCounter n cause).1 (faultCounter n cause).2 + 1) (2 ^ (faultCounter n cause).2.width - 1) := by
  have before : Chip.Kept false [R.GDI_STAT n, R.GDI_LAST_T n 0, R.GDI_LAST_T n 0 + 4] [.pwm] c
      ((c.gdiTallied n cause injected).wr64 (R.GDI_LAST_T n 0) c.htNs) :=
    ((c.gdiTallied_kept n cause injected).mono (by simp) (by simp)).wr64 (by simp) (by simp)
  rw [← before.f_eq (by simp) (faultCounter_notMem n cause), ← Chip.f_incSat _ _ (faultCounter_word n cause)]
  rfl

end

/-- What an occurrence counted and recorded shows in the instance and in STAT. -/
theorem Chip.gdiRecorded_shown {c : Chip} {n cause : Nat} (listed : n < c.pwm.gdi.length) (code : cause < 16) (injected : Bool) :
    ((c.gdiRecorded n cause injected).gdi n).n = (c.gdi n).n + 1
      ∧ (c.gdiRecorded n cause injected).f (R.GDI_STAT n) F.GDI_STAT_LAST_CAUSE = cause := by
  have kept := c.gdiRecorded_tallied n cause injected
  have stat := gdi_stat_notMem_recordKeys n cause
  have pwm : (c.gdiRecorded n cause injected).pwm = (c.gdiTallied n cause injected).pwm := kept.parts .pwm (by simp) (by simp) (by simp)
  refine ⟨?_, ?_⟩
  · rw [Chip.gdi, pwm, Chip.gdiTallied, Chip.setF_pwm]
    exact congrArg GdiCh.n (nth_upd_same listed _ _)
  · rw [kept.f_eq (by simp) stat, Chip.gdiTallied, Chip.f_setF_of_lt _ _ _ _ (by decide) code]

/-- A fault occurrence at a listed instance. -/
theorem Chip.faulted_gdiFault {c : Chip} {n cause : Nat} (hn : n < 16) (listed : n < c.pwm.gdi.length) (code : cause < 16) (injected : Bool) :
    Chip.Faulted n cause c (c.gdiFault n cause injected) := by
  have kept := c.gdiFault_kept hn cause injected
  obtain ⟨count, lastCause⟩ := Chip.gdiRecorded_shown listed code injected
  have lastTime := c.gdiRecorded_time n cause injected
  have counter := c.gdiRecorded_counter n cause injected
  have retry := (c.gdiRecorded_kept n cause injected).regs _ (by simp) (config_notMem_recordKeys cause (.inr rfl))
  generalize c.gdiRecorded n cause injected = d at kept count lastCause lastTime counter retry
  generalize c.gdiFault n cause injected = e at kept
  have other : ∀ k ∈ faultKeys n, e.rd k = d.rd k := fun k hk =>
    (kept.rd_fault hn hk).trans (Chip.rd_setF_ne _ _ _ _ _ (fault_ne_gdi_stat hk n).symm)
  refine ⟨?_, ?_, ?_, ?_, ?_⟩
  · rw [kept.state_eq hn, Chip.gdiState_setF _ _ (d.faultState_code n).1, Chip.faultState, Chip.retriesOver, count, Chip.f_congr retry]
    simp only [decide_eq_true_eq]
  · rw [kept.count_eq, Chip.gdi, Chip.setF_pwm]
    exact count
  · rw [kept.stat_f hn (by decide), Chip.f_setF_beside _ _ _ _ _ (by decide) (by decide), lastCause]
  · rw [← lastTime, Chip.rd64, Chip.rd64, Chip.rdN, Chip.rdN, other _ (by simp [faultKeys]), other _ (by simp [faultKeys]), Chip.rdN,
      Chip.rdN]
  · rw [Chip.f_congr (other _ (faultCounter_mem n cause)), counter]

namespace Chip.Faulted
variable {b c d : Chip} {n cause : Nat}

/-- What stands still after a fault occurrence. -/
theorem keep (h : Chip.Faulted n cause c b) (hn : n < 16) (kept : b.RetryKept d) : Chip.Faulted n cause c d where
  state := (kept.state_eq hn).trans h.state
  count := (kept.count_eq n).trans h.count
  lastCause := (kept.stat_f hn (by decide)).trans h.lastCause
  lastTime := by
    rw [← h.lastTime, Chip.rd64, Chip.rdN, Chip.rdN, kept.rd_fault hn (by simp [faultKeys]), kept.rd_fault hn (by simp [faultKeys]),
      Chip.rd64, Chip.rdN, Chip.rdN]
  counter := (Chip.f_congr (kept.rd_fault hn (faultCounter_mem n cause)) _).trans h.counter

/-- A fault occurrence seen from a chip with the same count, time and registers of the retry. -/
theorem of_same (h : Chip.Faulted n cause b d) (count : (b.gdi n).n = (c.gdi n).n) (time : b.htNs = c.htNs)
    (regs : ∀ k ∈ faultKeys n, b.rd k = c.rd k) : Chip.Faulted n cause c d where
  state := by rw [h.state, count, Chip.f_congr (regs _ (by simp [faultKeys]))]
  count := by rw [h.count, count]
  lastCause := h.lastCause
  lastTime := by rw [h.lastTime, time]
  counter := by rw [h.counter, Chip.f_congr (regs _ (faultCounter_mem n cause))]

theorem of_kept (h : Chip.Faulted n cause b d) (hn : n < 16) (kept : c.RetryKept b) : Chip.Faulted n cause c d :=
  h.of_same (kept.count_eq n) kept.htNs_eq fun _ hk => kept.rd_fault hn hk

/-- Within the retries of the window the instance waits to retry (R370). -/
theorem retries (h : Chip.Faulted n cause c d) (within : (c.gdi n).n < c.f (R.GDI_RETRY n) F.GDI_RETRY_MAX) :
    d.gdiState n = Gs.retryWait := h.state.trans (if_neg (by omega))

/-- Beyond them it latches (R370). -/
theorem latches (h : Chip.Faulted n cause c d) (beyond : c.f (R.GDI_RETRY n) F.GDI_RETRY_MAX ≤ (c.gdi n).n) :
    d.gdiState n = Gs.latched := h.state.trans (if_pos (by omega))

end Chip.Faulted

/-- A fault occurrence leaves STAT.GRDY. -/
theorem Chip.gdiFault_ready (c : Chip) {n : Nat} (hn : n < 16) (cause : Nat) (injected : Bool) :
    (c.gdiFault n cause injected).is (R.GDI_STAT n) F.GDI_STAT_GRDY = c.is (R.GDI_STAT n) F.GDI_STAT_GRDY := by
  rw [(c.gdiFault_kept hn cause injected).stat_is hn (by decide), Chip.is_setState _ _ _ (by decide),
    (c.gdiRecorded_tallied n cause injected).is_eq (by simp) (gdi_stat_notMem_recordKeys n cause), Chip.gdiTallied,
    Chip.is_setF_beside _ _ _ _ _ (by decide) (by decide), Chip.updGdi_is]

/-- What a fault occurrence presented to the Sheepdog ends in (R369). -/
theorem Chip.gdiFault_presented {c : Chip} {n cause : Nat} (hn : n < 16) (powered : c.powered = true)
    (presented : c.f (R.GDI_CFG n) F.GDI_CFG_SHD = 1) :
    (c.gdiFault n cause false).mode = .safe ∧ (c.gdiFault n cause false).is R.SHD_STAT F.SHD_STAT_LATCH = true := by
  have recorded := c.gdiRecorded_kept n cause false
  have kept := c.gdiUnpresented_kept hn cause false
  have still : (c.gdiUnpresented n cause false).powered = true := kept.power (by
    rwa [Chip.powered, Chip.setF_mode, recorded.mode_eq (by simp)])
  have config : (c.gdiUnpresented n cause false).rd (R.GDI_CFG n) = c.rd (R.GDI_CFG n) := by
    have named : R.GDI_CFG n ∈ faultKeys n := by simp [faultKeys]
    rw [kept.rd_fault hn named, Chip.rd_setF_ne _ _ _ _ _ (fault_ne_gdi_stat named n).symm,
      recorded.regs _ (by simp) (config_notMem_recordKeys cause (.inl rfl))]
  rw [Chip.gdiFault_eq, if_pos (by rw [Chip.f_congr config, presented]; rfl)]
  exact Chip.safe_cause still (by decide) 6 n

/-! #### GFLT (R367) -/

/-- The new assertion of GFLT taken. -/
def Chip.gfltTaken (c : Chip) (n : Nat) : Chip := c.updGdi n fun x => { x with fresh := false }

theorem Chip.gfltTaken_kept (c : Chip) (n : Nat) : c.RetryKept (c.gfltTaken n) := Chip.RetryKept.refl.updGdi fun _ => rfl

section
variable {c : Chip} {n : Fin 16} (powered : c.powered = true)
include powered

/-- GFLT_SYNC_FAULT in ACTIVE or RESUME. -/
theorem doGfltSyncFault_counts (fresh : (c.gdi n).fresh = true) (enabled : c.is (R.GDI_CFG n) F.GDI_CFG_FLT_EN = true)
    (state : c.gdiState n = Gs.active ∨ c.gdiState n = Gs.resume) :
    doGfltSyncFault n c = ((c.gfltTaken n).gdiFault n 1 false).lapLevels := by
  rw [doGfltSyncFault, Chip.bypass_of powered]
  simp only [fresh, Bool.not_true, Bool.false_eq_true, if_false, Chip.updGdi_is, enabled, if_true]
  exact congrArg Chip.lapLevels (if_pos state)

theorem doGfltSyncFault_faults (fresh : (c.gdi n).fresh = true) (enabled : c.is (R.GDI_CFG n) F.GDI_CFG_FLT_EN = true)
    (listed : n.val < c.pwm.gdi.length) (state : c.gdiState n = Gs.active ∨ c.gdiState n = Gs.resume) :
    Chip.Faulted n 1 c (doGfltSyncFault n c) := by
  rw [doGfltSyncFault_counts powered fresh enabled state]
  have taken := c.gfltTaken_kept n
  exact ((Chip.faulted_gdiFault n.isLt (taken.listed ▸ listed) (by decide) false).of_kept n.isLt taken).keep n.isLt
    Chip.RetryKept.refl.lapLevels

/-- Presented to the Sheepdog in every fault occurrence, it latches the safe state (R369). -/
theorem doGfltSyncFault_presented (fresh : (c.gdi n).fresh = true) (enabled : c.is (R.GDI_CFG n) F.GDI_CFG_FLT_EN = true)
    (state : c.gdiState n = Gs.active ∨ c.gdiState n = Gs.resume) (presented : c.f (R.GDI_CFG n) F.GDI_CFG_SHD = 1) :
    (doGfltSyncFault n c).is R.SHD_STAT F.SHD_STAT_LATCH = true ∧ (doGfltSyncFault n c).mode = .safe := by
  rw [doGfltSyncFault_counts powered fresh enabled state]
  obtain ⟨safe, latch⟩ := Chip.gdiFault_presented (c := c.gfltTaken n) (cause := 1) n.isLt powered presented
  have levels := ((c.gfltTaken n).gdiFault n 1 false).lapLevels_kept
  exact ⟨(levels.is_eq (fun _ => by decide) (by simp) _).trans latch, (levels.mode_eq (by simp)).trans safe⟩

/-- GFLT_SYNC_FAULT in any other state. -/
theorem doGfltSyncFault_elsewhere (fresh : (c.gdi n).fresh = true) (active : c.gdiState n ≠ Gs.active) (resume : c.gdiState n ≠ Gs.resume) :
    Chip.Kept false [R.GDI_STAT n] [.lap, .pwm] c (doGfltSyncFault n c)
      ∧ (doGfltSyncFault n c).is (R.GDI_STAT n) F.GDI_STAT_FLT_SEEN = true ∧ (doGfltSyncFault n c).gdiState n = c.gdiState n := by
  have seen : doGfltSyncFault n c = ((c.gfltTaken n).flag (R.GDI_STAT n) F.GDI_STAT_FLT_SEEN true).lapLevels := by
    rw [doGfltSyncFault, Chip.bypass_of powered]
    simp only [fresh, Bool.not_true, Bool.false_eq_true, if_false]
    exact congrArg Chip.lapLevels (if_neg (not_or.2 ⟨active, resume⟩))
  rw [seen]
  refine ⟨((Chip.Kept.refl.updGdi (by simp)).flag (by simp)).lapLevelsIn (by simp), ?_, ?_⟩
  · rw [(Chip.lapLevels_kept _).is_eq (fun _ => evKey_gdi_stat n n.isLt) (by simp), Chip.is_flag _ _ _ _ (by decide) (by decide)]
  · exact (((c.gfltTaken_kept n).flagStat (by decide)).lapLevels).state_eq n.isLt

/-- Without a new assertion. -/
theorem doGfltSyncFault_stale (stale : (c.gdi n).fresh = false) : Chip.Kept false [] [.lap, .pwm] c (doGfltSyncFault n c) := by
  have taken : doGfltSyncFault n c = (c.gfltTaken n).lapLevels := by
    rw [doGfltSyncFault, Chip.bypass_of powered]
    simp only [stale, Bool.not_false, if_true]
    rfl
  rw [taken]
  exact (Chip.Kept.refl.updGdi (by simp)).lapLevelsIn (by simp)

end

/-! #### GRDY and the supplies (R368, R370) -/

/-- STAT shows a level of the driver, and the live cause bits follow. -/
def Chip.gdiShow (c : Chip) (n : Nat) (x : Fld) (b : Bool) : Chip := (c.flag (R.GDI_STAT n) x b).gdiStat n

theorem Chip.gdiShow_kept (c : Chip) (n : Nat) (x : Fld) (b : Bool) : (c.flag (R.GDI_STAT n) x b).RetryKept (c.gdiShow n x b) :=
  Chip.RetryKept.refl.gdiStat

theorem Chip.gdiShow_fault (c : Chip) {n : Nat} (hn : n < 16) (x : Fld) (b : Bool) {k : Nat} (hk : k ∈ faultKeys n) :
    (c.gdiShow n x b).rd k = c.rd k :=
  ((c.gdiShow_kept n x b).rd_fault hn hk).trans (Chip.rd_setF_ne _ _ _ _ _ (fault_ne_gdi_stat hk n).symm)

theorem Chip.gdiShow_count (c : Chip) (n : Nat) (x : Fld) (b : Bool) : ((c.gdiShow n x b).gdi n).n = (c.gdi n).n := by
  rw [(c.gdiShow_kept n x b).count_eq, Chip.gdi, Chip.flag_pwm, Chip.gdi]

theorem Chip.gdiShow_state (c : Chip) {n : Nat} (hn : n < 16) {x : Fld} (b : Bool) (hx : x.hi < F.GDI_STAT_STATE.lo) :
    (c.gdiShow n x b).gdiState n = c.gdiState n := by
  rw [(c.gdiShow_kept n x b).state_eq hn, Chip.gdiState, Chip.flag, Chip.f_setF_beside _ _ _ _ _ (by decide) (.inr hx), Chip.gdiState]

/-- The level shown. -/
theorem Chip.gdiShow_shown (c : Chip) {n : Nat} (hn : n < 16) {x : Fld} (b : Bool) (hx : x ∈ retryFields) (single : x.hi = x.lo) :
    (c.gdiShow n x b).is (R.GDI_STAT n) x = b :=
  ((c.gdiShow_kept n x b).stat_is hn hx).trans (Chip.is_flag _ _ _ _ (retryFields_word hx) single)

/-- A level beside it. -/
theorem Chip.gdiShow_beside (c : Chip) {n : Nat} (hn : n < 16) {x y : Fld} (b : Bool) (hy : y ∈ retryFields)
    (apart : y.hi < x.lo ∨ x.hi < y.lo) : (c.gdiShow n x b).is (R.GDI_STAT n) y = c.is (R.GDI_STAT n) y :=
  ((c.gdiShow_kept n x b).stat_is hn hy).trans (Chip.is_flag_beside _ _ _ _ _ (retryFields_word hy) apart)

section
variable {c : Chip} {n : Fin 16} (powered : c.powered = true)
include powered

/-- GRDY_LOSS in ACTIVE or RESUME. -/
theorem doGrdyLoss_counts (enabled : c.is (R.GDI_CFG n) F.GDI_CFG_RDY_EN = true) (supplied : c.is (R.GDI_STAT n) F.GDI_STAT_SUP_OK = true)
    (state : c.gdiState n = Gs.active ∨ c.gdiState n = Gs.resume) :
    doGrdyLoss n c = ((c.gdiShow n F.GDI_STAT_GRDY false).gdiFault n 3 false).lapLevels := by
  have lost : (c.gdiShow n F.GDI_STAT_GRDY false).gdiRdyLost n = true := by
    rw [Chip.gdiRdyLost, Chip.is_congr (c.gdiShow_fault n.isLt _ _ (by simp [faultKeys])), enabled,
      c.gdiShow_beside n.isLt _ (by decide) (by decide), supplied, c.gdiShow_shown n.isLt _ (by decide) (by decide)]
    rfl
  rw [doGrdyLoss, Chip.bypass_of powered]
  refine congrArg Chip.lapLevels (if_pos ?_)
  rw [← Chip.gdiShow, lost, c.gdiShow_state n.isLt _ (by decide)]
  simpa using state

theorem doGrdyLoss_faults (enabled : c.is (R.GDI_CFG n) F.GDI_CFG_RDY_EN = true) (supplied : c.is (R.GDI_STAT n) F.GDI_STAT_SUP_OK = true)
    (listed : n.val < c.pwm.gdi.length) (state : c.gdiState n = Gs.active ∨ c.gdiState n = Gs.resume) :
    Chip.Faulted n 3 c (doGrdyLoss n c) ∧ (doGrdyLoss n c).is (R.GDI_STAT n) F.GDI_STAT_GRDY = false := by
  rw [doGrdyLoss_counts powered enabled supplied state]
  have shown := c.gdiShow_kept n F.GDI_STAT_GRDY false
  have still : n.val < (c.gdiShow n F.GDI_STAT_GRDY false).pwm.gdi.length := by rwa [shown.listed, Chip.flag_pwm]
  have time : (c.gdiShow n F.GDI_STAT_GRDY false).htNs = c.htNs := by rw [shown.htNs_eq, Chip.htNs, Chip.flag_time, Chip.htNs]
  have faulted := (Chip.faulted_gdiFault (cause := 3) n.isLt still (by decide) false).of_same (c.gdiShow_count n _ _) time
    fun _ hk => c.gdiShow_fault n.isLt _ _ hk
  have levels : ∀ d : Chip, d.RetryKept d.lapLevels := fun _ => Chip.RetryKept.refl.lapLevels
  refine ⟨faulted.keep n.isLt (levels _), ?_⟩
  rw [(levels _).stat_is n.isLt (by decide), Chip.gdiFault_ready _ n.isLt, c.gdiShow_shown n.isLt _ (by decide) (by decide)]

/-- GRDY_LOSS in any other state. -/
theorem doGrdyLoss_elsewhere (active : c.gdiState n ≠ Gs.active) (resume : c.gdiState n ≠ Gs.resume) :
    (doGrdyLoss n c).is (R.GDI_STAT n) F.GDI_STAT_GRDY = false ∧ (doGrdyLoss n c).gdiState n = c.gdiState n := by
  have state := c.gdiShow_state n.isLt (x := F.GDI_STAT_GRDY) false (by decide)
  have shows : doGrdyLoss n c = (c.gdiShow n F.GDI_STAT_GRDY false).lapLevels := by
    rw [doGrdyLoss, Chip.bypass_of powered]
    refine congrArg Chip.lapLevels (if_neg ?_)
    rw [← Chip.gdiShow, state]
    simp [active, resume]
  have levels : (c.gdiShow n F.GDI_STAT_GRDY false).RetryKept (doGrdyLoss n c) := shows ▸ Chip.RetryKept.refl.lapLevels
  exact ⟨(levels.stat_is n.isLt (by decide)).trans (c.gdiShow_shown n.isLt _ (by decide) (by decide)), (levels.state_eq n.isLt).trans state⟩

end

/-- An instance whose source is not the legacy pins stays in RESUME until its resume point (R373). -/
theorem Chip.gdiLegacyResume_of {c : Chip} {n : Nat} (source : c.gdiSrc n ≠ 2) : c.gdiLegacyResume n = c :=
  if_neg (by simp [source])

/-- WAIT_RDY ends with the supplies applied and the driver ready (R370). -/
theorem Chip.gdiReady_of {c : Chip} {n : Nat} (state : c.gdiState n = Gs.waitRdy) (supplied : c.is (R.GDI_STAT n) F.GDI_STAT_SUP_OK = true)
    (ready : c.is (R.GDI_CFG n) F.GDI_CFG_RDY_EN = false ∨ c.is (R.GDI_STAT n) F.GDI_STAT_GRDY = true) :
    c.gdiReady n = c.gdiGo n Gs.resume := by
  refine if_pos ?_
  obtain off | up := ready
  · simp [state, supplied, off]
  · simp [state, supplied, up]

/-- An instance of another source than the legacy pins goes to RESUME. -/
theorem Chip.RetryKept.toResume {c d : Chip} {n : Nat} (h : c.RetryKept d) (hn : n < 16) (source : c.gdiSrc n ≠ 2) :
    (c.setF (R.GDI_STAT n) F.GDI_STAT_STATE Gs.resume).RetryKept ((d.gdiGo n Gs.resume).gdiLegacyResume n) := by
  have gone := h.gdiGo (n := n) (st := Gs.resume) (by decide)
  have named : R.GDI_CFG n ∈ faultKeys n := by simp [faultKeys]
  have config : (d.gdiGo n Gs.resume).rd (R.GDI_CFG n) = c.rd (R.GDI_CFG n) :=
    (gone.rd_fault hn named).trans (Chip.rd_setF_ne _ _ _ _ _ (fault_ne_gdi_stat named n).symm)
  rwa [Chip.gdiLegacyResume_of (by rwa [Chip.gdiSrc, Chip.f_congr config])]

/-- Where WAIT_RDY can end as STAT shows a level, the instance is in RESUME and STAT shows the level. -/
theorem Chip.gdiShow_resumes {c : Chip} {n : Nat} (hn : n < 16) {x : Fld} (named : x ∈ retryFields) (single : x.hi = x.lo)
    (source : c.gdiSrc n ≠ 2) (state : c.gdiState n = Gs.waitRdy)
    (supplied : (c.gdiShow n x true).is (R.GDI_STAT n) F.GDI_STAT_SUP_OK = true)
    (ready : c.is (R.GDI_CFG n) F.GDI_CFG_RDY_EN = false ∨ (c.gdiShow n x true).is (R.GDI_STAT n) F.GDI_STAT_GRDY = true) :
    ((((c.gdiShow n x true).gdiReady n).gdiLegacyResume n).lapLevels).gdiState n = Gs.resume
      ∧ ((((c.gdiShow n x true).gdiReady n).gdiLegacyResume n).lapLevels).is (R.GDI_STAT n) x = true := by
  have below : x.hi < F.GDI_STAT_STATE.lo :=
    (by decide : ∀ y ∈ retryFields, y.hi = y.lo → y.hi < F.GDI_STAT_STATE.lo) x named single
  have config := c.gdiShow_fault hn x true (k := R.GDI_CFG n) (by simp [faultKeys])
  have shown := c.gdiShow_shown hn true named single
  rw [← Chip.is_congr config] at ready
  rw [← c.gdiShow_state hn true below] at state
  have other : (c.gdiShow n x true).gdiSrc n ≠ 2 := by rwa [Chip.gdiSrc, Chip.f_congr config]
  rw [Chip.gdiReady_of state supplied ready]
  generalize c.gdiShow n x true = d at shown other
  have resumed := ((Chip.RetryKept.refl (c := d)).toResume hn other).lapLevels
  exact ⟨(resumed.state_eq hn).trans (d.gdiState_setF n (by decide)),
    (resumed.stat_is hn named).trans ((d.is_setState n _ below).trans shown)⟩

section
variable {n : Fin 16} {s : State} (awake : Awake (P.GDI n) s)
include awake

/-- GRDY_READY with the supplies applied. -/
theorem doGrdyReady_resumes (state : s.chip.gdiState n = Gs.waitRdy) (supplied : s.chip.is (R.GDI_STAT n) F.GDI_STAT_SUP_OK = true)
    (source : s.chip.gdiSrc n ≠ 2) :
    (doGrdyReady n s.chip).gdiState n = Gs.resume ∧ (doGrdyReady n s.chip).is (R.GDI_STAT n) F.GDI_STAT_GRDY = true := by
  rw [doGrdyReady, Chip.clockedLap, Chip.clocked_awake awake, ← Chip.gdiShow]
  exact Chip.gdiShow_resumes n.isLt (by decide) (by decide) source state
    ((s.chip.gdiShow_beside n.isLt _ (by decide) (by decide)).trans supplied) (.inr (s.chip.gdiShow_shown n.isLt _ (by decide) (by decide)))

/-- SUP_OK_CHANGE to applied supplies. -/
theorem doSupOkChange_resumes (applied : s.chip.supOk n = true) (state : s.chip.gdiState n = Gs.waitRdy)
    (ready : s.chip.is (R.GDI_CFG n) F.GDI_CFG_RDY_EN = false ∨ s.chip.is (R.GDI_STAT n) F.GDI_STAT_GRDY = true)
    (source : s.chip.gdiSrc n ≠ 2) :
    (doSupOkChange n s.chip).is (R.GDI_STAT n) F.GDI_STAT_SUP_OK = true ∧ (doSupOkChange n s.chip).gdiState n = Gs.resume := by
  rw [doSupOkChange, Chip.clockedLap, Chip.clocked_awake awake, applied, Chip.supOkTo, ← Chip.gdiShow, if_pos rfl]
  exact (Chip.gdiShow_resumes n.isLt (by decide) (by decide) source state (s.chip.gdiShow_shown n.isLt _ (by decide) (by decide))
    (ready.imp_right (s.chip.gdiShow_beside n.isLt _ (by decide) (by decide)).trans)).symm

/-- SUP_OK_CHANGE to no supplies. -/
theorem doSupOkChange_falls (removed : s.chip.supOk n = false) (state : s.chip.gdiState n = Gs.active ∨ s.chip.gdiState n = Gs.resume) :
    (doSupOkChange n s.chip).is (R.GDI_STAT n) F.GDI_STAT_SUP_OK = false ∧ (doSupOkChange n s.chip).gdiState n = Gs.waitRdy
      ∧ ((doSupOkChange n s.chip).gdi n).n = (s.chip.gdi n).n := by
  have shown := s.chip.gdiShow_shown n.isLt (x := F.GDI_STAT_SUP_OK) false (by decide) (by decide)
  have count := s.chip.gdiShow_count n F.GDI_STAT_SUP_OK false
  rw [← s.chip.gdiShow_state n.isLt (x := F.GDI_STAT_SUP_OK) false (by decide)] at state
  rw [doSupOkChange, Chip.clockedLap, Chip.clocked_awake awake, removed, Chip.supOkTo, if_neg Bool.false_ne_true, ← Chip.gdiShow,
    if_pos state]
  generalize s.chip.gdiShow n F.GDI_STAT_SUP_OK false = d at shown count
  have gone := ((Chip.RetryKept.refl (c := d)).gdiGo (n := n) (st := Gs.waitRdy) (by decide)).lapLevels
  refine ⟨?_, (gone.state_eq n.isLt).trans (d.gdiState_setF n (by decide)), ?_⟩
  · rw [gone.stat_is n.isLt (by decide), Chip.is_setState _ _ _ (by decide), shown]
  · rw [gone.count_eq, Chip.gdi, Chip.setF_pwm]
    exact count

/-! #### The wait and the window (R371, R372) -/

/-- RETRY_WAIT_END with no cause present. -/
theorem doRetryWaitEnd_resumes (state : s.chip.gdiState n = Gs.retryWait) (absent : s.chip.gdiCause n = none) (source : s.chip.gdiSrc n ≠ 2) :
    (doRetryWaitEnd n s.chip).gdiState n = Gs.resume := by
  rw [doRetryWaitEnd, Chip.clocked_awake awake, if_pos state, absent]
  exact (((Chip.RetryKept.refl (c := s.chip)).toResume n.isLt source).state_eq n.isLt).trans (s.chip.gdiState_setF n (by decide))

/-- RETRY_WAIT_END with a cause present. -/
theorem doRetryWaitEnd_faults {cause : Nat} (state : s.chip.gdiState n = Gs.retryWait) (present : s.chip.gdiCause n = some cause)
    (code : cause < 16) (listed : n.val < s.chip.pwm.gdi.length) : Chip.Faulted n cause s.chip (doRetryWaitEnd n s.chip) := by
  rw [doRetryWaitEnd, Chip.clocked_awake awake, if_pos state, present]
  exact Chip.faulted_gdiFault n.isLt listed code false

/-- RETRY_WINDOW_END of an open window. -/
theorem doRetryWindowEnd_clears (window : (s.chip.gdi n).win = true) (unlatched : s.chip.gdiState n ≠ Gs.latched)
    (listed : n.val < s.chip.pwm.gdi.length) :
    ((doRetryWindowEnd n s.chip).gdi n).n = 0 ∧ ((doRetryWindowEnd n s.chip).gdi n).win = false := by
  rw [doRetryWindowEnd, Chip.clocked_awake awake, if_pos (by simp [window, unlatched])]
  have cleared : (s.chip.updGdi n fun x => { x with n := 0, win := false }).gdi n = { s.chip.gdi n with n := 0, win := false } :=
    nth_upd_same listed _ _
  generalize (s.chip.updGdi n fun x => { x with n := 0, win := false }) = d at cleared
  have shown : d.RetryKept (d.gdiStat n) := Chip.RetryKept.refl.gdiStat
  rw [shown.count_eq, shown.win_eq, cleared]
  exact ⟨rfl, rfl⟩

end

/-! #### The counters (R379) -/

/-- The three counter registers of an instance at 0. -/
def Chip.gdiStatsCleared (c : Chip) (n : Nat) : Chip := ((c.wrN (R.GDI_CNT_0 n) 0).wrN (R.GDI_CNT_1 n) 0).wrN (R.GDI_CNT_2 n) 0

/-- GDI_CLR_STATS. -/
theorem doGdiClrStats_may {w : Writer} {n : Fin 16} {s : State} (may : May w (R.GDI_CMD n) s) :
    doGdiClrStats w theKey n s.chip = s.chip.gdiStatsCleared n := by
  obtain ⟨powered, running, allowed⟩ := may
  rw [doGdiClrStats, Chip.cmd_of _ _ _ _ powered running allowed]
  rfl

theorem Chip.gdiStatsCleared_kept (c : Chip) (n : Nat) :
    Chip.Kept false [R.GDI_CNT_0 n, R.GDI_CNT_1 n, R.GDI_CNT_2 n] [] c (c.gdiStatsCleared n) :=
  ((Chip.Kept.refl.wrN (by simp)).wrN (by simp)).wrN (by simp)

theorem Chip.gdiStatsCleared_shown (c : Chip) (n : Nat) : (c.gdiStatsCleared n).rd (R.GDI_CNT_0 n) = 0
    ∧ (c.gdiStatsCleared n).rd (R.GDI_CNT_1 n) = 0 ∧ (c.gdiStatsCleared n).rd (R.GDI_CNT_2 n) = 0 := by
  have apart : R.GDI_CNT_1 n ≠ R.GDI_CNT_0 n ∧ R.GDI_CNT_2 n ≠ R.GDI_CNT_0 n ∧ R.GDI_CNT_2 n ≠ R.GDI_CNT_1 n := by
    simp only [R.GDI_CNT_0, R.GDI_CNT_1, R.GDI_CNT_2]
    omega
  obtain ⟨low, high, middle⟩ := apart
  simp only [Chip.gdiStatsCleared, Chip.wrN]
  refine ⟨?_, ?_, Chip.rd_wr_same _ _ _⟩
  · rw [Chip.rd_wr_ne _ _ _ _ high, Chip.rd_wr_ne _ _ _ _ low, Chip.rd_wr_same]
    rfl
  · rw [Chip.rd_wr_ne _ _ _ _ middle, Chip.rd_wr_same]
    rfl

/-- Settles O53: a fault occurrence is read off the record that it leaves, and what follows it keeps (`Chip.RetryKept`). -/
theorem gateFaultCommands : Obligations.GateFaultCommands := by
  refine ⟨?_, ?_, ?_, ?_, ?_, ?_, ?_, ?_, ?_, ?_, ?_, ?_, ?_, ?_⟩
  · intro n s powered fresh enabled listed state within
    have faulted := doGfltSyncFault_faults powered fresh enabled listed state
    exact ⟨_, rfl, ⟨rfl, rfl⟩, faulted.retries within, faulted.count, faulted.lastCause, faulted.lastTime, faulted.counter⟩
  · intro n s powered fresh enabled listed state beyond
    have faulted := doGfltSyncFault_faults powered fresh enabled listed state
    exact ⟨_, rfl, ⟨rfl, rfl⟩, faulted.latches beyond, faulted.count, faulted.lastCause, faulted.lastTime, faulted.counter⟩
  · exact fun n s powered fresh enabled _ state presented =>
      ⟨_, rfl, ⟨rfl, rfl⟩, doGfltSyncFault_presented powered fresh enabled state presented⟩
  · intro n s powered fresh active resume
    obtain ⟨kept, shown⟩ := doGfltSyncFault_elsewhere powered fresh active resume
    exact ⟨_, rfl, ⟨⟨rfl, rfl⟩, kept⟩, shown⟩
  · exact fun n s powered stale => ⟨_, rfl, ⟨rfl, rfl⟩, doGfltSyncFault_stale powered stale⟩
  · intro n s powered enabled supplied listed state within
    obtain ⟨faulted, down⟩ := doGrdyLoss_faults powered enabled supplied listed state
    exact ⟨_, rfl, ⟨rfl, rfl⟩, faulted.retries within, faulted.count, faulted.lastCause, faulted.lastTime, faulted.counter, down⟩
  · exact fun n s powered active resume => ⟨_, rfl, ⟨rfl, rfl⟩, doGrdyLoss_elsewhere powered active resume⟩
  · exact fun n s awake state supplied source => ⟨_, rfl, ⟨rfl, rfl⟩, doGrdyReady_resumes awake state supplied source⟩
  · exact fun n s awake removed state => ⟨_, rfl, ⟨rfl, rfl⟩, doSupOkChange_falls awake removed state⟩
  · exact fun n s awake applied state ready source => ⟨_, rfl, ⟨rfl, rfl⟩, doSupOkChange_resumes awake applied state ready source⟩
  · exact fun n s awake state absent source => ⟨_, rfl, ⟨rfl, rfl⟩, doRetryWaitEnd_resumes awake state absent source⟩
  · intro n s awake state present within listed
    have faulted := doRetryWaitEnd_faults awake state present (by decide) listed
    exact ⟨_, rfl, ⟨rfl, rfl⟩, faulted.retries within, faulted.count, faulted.lastCause, faulted.lastTime, faulted.counter⟩
  · exact fun n s awake window unlatched listed => ⟨_, rfl, ⟨rfl, rfl⟩, doRetryWindowEnd_clears awake window unlatched listed⟩
  · exact fun w n s may => ⟨_, State.next_onChip (doGdiClrStats_may may),
      ⟨⟨rfl, rfl⟩, s.chip.gdiStatsCleared_kept n⟩, s.chip.gdiStatsCleared_shown n⟩

end Sys2Proof.Machine

namespace Sys2Proof.Machine

/-! ### A herd time that a METER_TICK has taken (O58)

A port evaluates one tick at each herd time that is a whole multiple of Tm (R384): a second METER_TICK before the next such time finds the
tick taken and adds nothing to the cycle. -/

/-- The newest herd time that is a whole multiple of Tm of port `p` (R384). -/
def Chip.tickTime (c : Chip) (p : Nat) : Nat := c.htNs / c.mtrTm p * c.mtrTm p

/-- A tick that the port has taken is not taken again. -/
theorem doMeterTick_taken {p : Fin 2} {c : Chip} (taken : (c.mport p).ticks.head?.map (·.t) = some (c.tickTime p)) :
    doMeterTick p c = c := by
  have idle : ((c.mport p).ticks.head?.any fun k => decide (k.t = c.htNs / c.mtrTm p * c.mtrTm p)) = true := by
    obtain ⟨k, newest, same⟩ := Option.map_eq_some_iff.mp taken
    simp [newest, same, Chip.tickTime]
  simp only [doMeterTick, Chip.clocked, idle, Bool.or_true, if_true, ite_self]

theorem exec_meterTick (p : Fin 2) (s : State) : exec (.meterTick p) s = .next (s.onChip (doMeterTick p)) := rfl

/-- One second of herd time. Port 0 is restored and enabled for 230 V, with a lag of 1 ms; its reference input VA has results of 2 V and 4 V
sampled at 998 ms and at 1 s. The port runs (R392, R393), and its last crossing was taken. -/
def readyToTick : State := clocked0 fun c =>
  let c : Chip := (c.updTime fun t => { t with ht := 10 ^ 9 * 2 ^ 48 }).updMtr fun m => { m with restored := true }
  let c : Chip := (c.flag (R.MTR_CFG 0) F.MTR_CFG_EN true).setF (R.MTR_CFG 0) F.MTR_CFG_LAG_US 1000
  let c : Chip := (c.flag (R.MTR_IN_SRC 0 0) F.MTR_IN_SRC_EN true).wr (R.PQM_P_UDIN 0) 0x73000008
  let c : Chip := c.updPort 0 fun m => { m with hist := upd m.hist 0 fun _ =>
    [⟨1000000000 * 2 ^ 48, F64.ofInt 4, false⟩, ⟨998000000 * 2 ^ 48, F64.ofInt 2, false⟩] }
  c.mtrFollow.flag (R.MTR_STAT 0) F.MTR_STAT_REF_OK true

/-- The state after its METER_TICK. -/
def justTicked : State := readyToTick.onChip (doMeterTick 0)

/-- It has taken the tick of its newest time. -/
theorem justTicked_taken :
    (justTicked.chip.mport (0 : Fin 2)).ticks.head?.map (·.t) = some (justTicked.chip.tickTime (0 : Fin 2)) := by decide +kernel

/-- It meets what the statement asks of a METER_TICK that takes every input at 999 ms and adds a tick to the cycle. -/
theorem justTicked_runs :
    Awake (P.MTR (0 : Fin 2)) justTicked ∧ justTicked.chip.is (R.MTR_STAT (0 : Fin 2)) F.MTR_STAT_RUNNING = true
      ∧ (999000000 * 2 ^ 48 : Int) = (((justTicked.chip.tickTime (0 : Fin 2) : Nat) : Int)
          - ((justTicked.chip.f (R.MTR_CFG (0 : Fin 2)) F.MTR_CFG_LAG_US * 1000 : Nat) : Int)) * 2 ^ 48
      ∧ (∀ k < 6, justTicked.chip.is (R.MTR_IN_SRC (0 : Fin 2) k) F.MTR_IN_SRC_EN = false
          ∨ (alignAt (999000000 * 2 ^ 48) (nth (justTicked.chip.mport (0 : Fin 2)).hist k [])).isSome = true)
      ∧ (justTicked.chip.mport (0 : Fin 2)).low = false
      ∧ justTicked.chip.is (R.MTR_STAT (0 : Fin 2)) F.MTR_STAT_REF_OK = true
      ∧ (justTicked.chip.mport (0 : Fin 2)).n + 1 < justTicked.chip.mtrRate (0 : Fin 2) / 40
      ∧ (0 : Fin 2).val < justTicked.chip.mtr.port.length := by decide +kernel

/-- Refutes O58: a second METER_TICK at the same herd time does not count another tick in the cycle. -/
theorem not_meterCommands : ¬ Obligations.MeterCommands := by
  rintro ⟨ticks, -⟩
  obtain ⟨awake, running, instant, bracketed, notLow, locked, within, listed⟩ := justTicked_runs
  obtain ⟨t, ht, -, counted, -⟩ := ticks 0 _ justTicked awake running instant bracketed notLow locked within listed
  obtain rfl := Host.Outcome.next.inj ((exec_meterTick ..).symm.trans ht)
  rw [State.onChip_chip, doMeterTick_taken justTicked_taken] at counted
  exact Nat.succ_ne_self _ counted.symm

end Sys2Proof.Machine

namespace Sys2Proof.Machine

/-! ### Block lock of a lane whose pattern checker is in sync (O38)

A lane that leaves or passes by PATTERN stops its checker (R433, R434): one still shown in sync takes open values into its counters, which the
frame of BLOCK_LOCK does not name. -/

/-- Lane 0 in LOCK, its pattern checker shown in sync. -/
def syncedInLock : State := clocked0 fun c =>
  (c.setF (R.LANE_STAT 0) F.LANE_STAT_STATE Ls.lock).flag (R.LANE_PAT_STAT 0) F.LANE_PAT_STAT_SYNC true

/-- It meets what the statement asks of BLOCK_LOCK in LOCK. -/
theorem syncedInLock_locks :
    Awake (P.LANE (0 : Fin 8)) syncedInLock ∧ syncedInLock.chip.laneState (0 : Fin 8) = Ls.lock := by decide +kernel

/-- Its checker stops as the lane goes on to CAPS, and takes two open values. -/
theorem syncedInLock_takes_open_values :
    (doBlockLock 0 syncedInLock.chip).freeCtr = syncedInLock.chip.freeCtr + 2 := by decide +kernel

theorem exec_blockLock (n : Fin 8) (s : State) : exec (.blockLock n) s = .next (s.onChip (doBlockLock n)) := rfl

/-- Refutes O38: BLOCK_LOCK of a lane in LOCK whose pattern checker is shown in sync also takes open values into the checker's counters. -/
theorem not_laneBringUpCommands : ¬ Obligations.LaneBringUpCommands := by
  rintro ⟨-, -, -, -, -, -, blockLock, -⟩
  obtain ⟨awake, locked⟩ := syncedInLock_locks
  obtain ⟨t, ht, ⟨-, kept⟩, -⟩ := blockLock 0 syncedInLock awake locked
  obtain rfl := Host.Outcome.next.inj ((exec_blockLock ..).symm.trans ht)
  have unchanged : (doBlockLock 0 syncedInLock.chip).freeCtr = syncedInLock.chip.freeCtr := kept.free_eq (by simp)
  exact absurd (syncedInLock_takes_open_values.symm.trans unchanged) (by omega)

end Sys2Proof.Machine

namespace Sys2Proof.Machine

/-! ### Registers and state of a lane (O39, O40, O41) -/

theorem page_lane (n : Nat) : P.LANE n % 0x1000 = 0 := by simp only [P.LANE]; omega
theorem page_quad (q : Nat) : P.QUAD q % 0x1000 = 0 := by simp only [P.QUAD]; omega

/-- The registers in which a lane shows its state, its eye scan, its patterns and its module. -/
def laneShowRegs (n : Nat) : List Nat :=
  [R.LANE_STAT n, R.LANE_CNT_1 n, R.LANE_ES_STAT n, R.LANE_ES_ERR n, R.LANE_ES_BITS n, R.LANE_PAT_STAT n, R.LANE_PAT_BITS_LO n,
    R.LANE_PAT_BITS_LO n + 4, R.LANE_PAT_ERR_LO n, R.LANE_PAT_ERR_LO n + 4, R.LANE_MOD_STAT n, R.LANE_MOD_DDM0 n, R.LANE_MOD_DDM1 n,
    R.LANE_MOD_DDM2 n, R.LANE_MOD_DATA n]

/-- No event occurrence touches them. -/
theorem evKey_laneShowRegs : ∀ n : Fin 8, ∀ k ∈ laneShowRegs n, evKey k = false := by decide

theorem Chip.rd_raise_lane (c : Chip) (n : Fin 8) (i : Nat) {b k : Nat} (page : b % 0x1000 = 0) (shown : k ∈ laneShowRegs n) :
    (c.raise b i).rd k = c.rd k := Chip.rd_raise _ _ _ _ page (evKey_laneShowRegs n k shown)

theorem Chip.Kept.lanes_eq {ev : Bool} {ks : List Nat} {ps : List Part} {c d : Chip} (h : Chip.Kept ev ks ps c d) (hp : .lanes ∉ ps) :
    d.lanes = c.lanes := h.parts .lanes (by simp) (by simp) hp

/-- What holds of a lane but not of one at reset shows that the lane is listed. -/
theorem Chip.lane_listed {c : Chip} {n : Nat} (q : LaneSt → Prop) (h : q (c.lane n)) (reset : ¬ q {}) : n < c.lanes.length := by
  by_contra beyond
  rw [Chip.lane, nth, List.getD_eq_default _ _ (Nat.le_of_not_lt beyond)] at h
  exact reset h

theorem Chip.lane_updLane {c : Chip} {n : Nat} (listed : n < c.lanes.length) (g : LaneSt → LaneSt) : (c.updLane n g).lane n = g (c.lane n) :=
  nth_upd_same listed g _

theorem Chip.rdN_wrN (c : Chip) (k : Nat) {v : Nat} (word : v < 2 ^ 32) : (c.wrN k v).rdN k = v := by
  rw [Chip.rdN, Chip.wrN, Chip.rd_wr_same, wd, BitVec.toNat_ofNat, Nat.mod_eq_of_lt word]

/-- A doubleword reads the same where both its words do. -/
theorem Chip.rd64_congr {c d : Chip} {k : Nat} (low : d.rd k = c.rd k) (high : d.rd (k + 4) = c.rd (k + 4)) : d.rd64 k = c.rd64 k := by
  simp only [Chip.rd64, Chip.rdN, low, high]

/-- A doubleword beside the one written is as before. -/
theorem Chip.rd64_wr64_beside (c : Chip) {k j : Nat} (n : Nat) (apart : k + 4 < j ∨ j + 4 < k) : (c.wr64 k n).rd64 j = c.rd64 j := by
  have same (i : Nat) (low : k ≠ i) (high : k + 4 ≠ i) : (c.wr64 k n).rd i = c.rd i := by
    rw [Chip.wr64, Chip.wrN, Chip.wrN, Chip.rd_wr_ne _ _ _ _ high, Chip.rd_wr_ne _ _ _ _ low]
  exact Chip.rd64_congr (same _ (by omega) (by omega)) (same _ (by omega) (by omega))

/-! ### Eye scan (O41) -/

/-- The scan of lane `n` at the point `w` has started. -/
def Chip.scanStarted (c : Chip) (n : Nat) (w : Word) : Chip :=
  (((c.wr (R.LANE_ES_CTL n) (fset w F.LANE_ES_CTL_START 0)).flag (R.LANE_ES_STAT n) F.LANE_ES_STAT_BUSY true).wrN (R.LANE_ES_ERR n) 0).wrN
    (R.LANE_ES_BITS n) 0

theorem Chip.scanStarted_kept (c : Chip) (n : Nat) (w : Word) :
    Chip.Kept false [R.LANE_ES_CTL n, R.LANE_ES_STAT n, R.LANE_ES_ERR n, R.LANE_ES_BITS n] [] c (c.scanStarted n w) :=
  (((Chip.Kept.refl.wr (by simp)).flag (by simp)).wrN (by simp)).wrN (by simp)

theorem Chip.scanStarted_shown (c : Chip) (n : Nat) (w : Word) :
    (c.scanStarted n w).is (R.LANE_ES_STAT n) F.LANE_ES_STAT_BUSY = true ∧ (c.scanStarted n w).rd (R.LANE_ES_ERR n) = 0
      ∧ (c.scanStarted n w).rd (R.LANE_ES_BITS n) = 0
      ∧ (c.scanStarted n w).f (R.LANE_ES_CTL n) F.LANE_ES_CTL_PRESCALE = fget w F.LANE_ES_CTL_PRESCALE := by
  have counters (d : Chip) {k : Nat} (err : R.LANE_ES_ERR n ≠ k) (bits : R.LANE_ES_BITS n ≠ k) :
      ((d.wrN (R.LANE_ES_ERR n) 0).wrN (R.LANE_ES_BITS n) 0).rd k = d.rd k := by
    rw [Chip.wrN, Chip.wrN, Chip.rd_wr_ne _ _ _ _ bits, Chip.rd_wr_ne _ _ _ _ err]
  rw [Chip.scanStarted]
  refine ⟨?_, ?_, Chip.rd_wr_same _ _ _, ?_⟩
  · rw [Chip.is_congr (counters _ (by simp [R.LANE_ES_ERR, R.LANE_ES_STAT]) (by simp [R.LANE_ES_BITS, R.LANE_ES_STAT])),
      Chip.is_flag _ _ _ _ (by decide) (by decide)]
  · rw [Chip.wrN, Chip.rd_wr_ne _ _ _ _ (by simp [R.LANE_ES_BITS, R.LANE_ES_ERR])]
    exact Chip.rd_wr_same _ _ _
  · rw [Chip.f_congr (counters _ (by simp [R.LANE_ES_ERR, R.LANE_ES_CTL]) (by simp [R.LANE_ES_BITS, R.LANE_ES_CTL])), Chip.flag,
      Chip.f_setF_ne _ _ _ _ _ _ (by simp [R.LANE_ES_STAT, R.LANE_ES_CTL]), Chip.f, Chip.rd_wr_same,
      fget_fset_of_disjoint _ _ _ _ (by decide) (by decide)]

/-- The point that EYE_SCAN_START writes (R432). -/
def scanPoint (prescale : BitVec 4) (vofs : BitVec 8) (hofs : BitVec 7) : Word :=
  wd (prescale.toNat * 2 ^ 16 + vofs.toNat * 2 ^ 8 + hofs.toNat)

theorem prescale_scanPoint (prescale : BitVec 4) (vofs : BitVec 8) (hofs : BitVec 7) :
    fget (scanPoint prescale vofs hofs) F.LANE_ES_CTL_PRESCALE = prescale.toNat := by
  simp only [fget, scanPoint, wd, F.LANE_ES_CTL_PRESCALE, BitVec.toNat_ofNat]
  omega

section
variable {w : Writer} {n : Fin 8} {s : State} (prescale : BitVec 4) (vofs : BitVec 8) (hofs : BitVec 7)

/-- EYE_SCAN_START where a scan may start (R432). -/
theorem doEyeScanStart_starts (may : May w (R.LANE_ES_CTL n) s) (state : scanState (s.chip.laneState n) = true)
    (idle : s.chip.is (R.LANE_ES_STAT n) F.LANE_ES_STAT_BUSY = false) :
    doEyeScanStart w n prescale vofs hofs s.chip = s.chip.scanStarted n (scanPoint prescale vofs hofs) := by
  obtain ⟨powered, running, allowed⟩ := may
  rw [doEyeScanStart, Chip.put_of _ _ _ _ powered running allowed]
  exact if_pos (by rw [state, idle]; rfl)

/-- EYE_SCAN_START elsewhere, or while a scan runs (R432). -/
theorem doEyeScanStart_refused (may : May w (R.LANE_ES_CTL n) s)
    (barred : scanState (s.chip.laneState n) = false ∨ s.chip.is (R.LANE_ES_STAT n) F.LANE_ES_STAT_BUSY = true) :
    doEyeScanStart w n prescale vofs hofs s.chip = s.chip.perr (R.LANE_ES_CTL n) .state w.ini.code := by
  obtain ⟨powered, running, allowed⟩ := may
  rw [doEyeScanStart, Chip.put_of _ _ _ _ powered running allowed]
  exact if_neg (by rcases barred with other | busy <;> simp [*])

end

/-- The scan of lane `n` is over, with `errs` errors. -/
def Chip.scanDone (c : Chip) (n : Nat) (errs : Word) : Chip :=
  let c : Chip := (c.flag (R.LANE_ES_STAT n) F.LANE_ES_STAT_BUSY false).flag (R.LANE_ES_STAT n) F.LANE_ES_STAT_DONE true
  (c.wr (R.LANE_ES_ERR n) errs).wrN (R.LANE_ES_BITS n) (2 ^ (16 + c.f (R.LANE_ES_CTL n) F.LANE_ES_CTL_PRESCALE))

theorem Chip.scanDone_kept (c : Chip) (n : Nat) (errs : Word) :
    Chip.Kept true [R.LANE_ES_STAT n, R.LANE_ES_ERR n, R.LANE_ES_BITS n] [] c (c.scanDone n errs) :=
  (((Chip.Kept.refl.flag (by simp)).flag (by simp)).wr (by simp)).wrN (by simp)

theorem Chip.scanDone_shown (c : Chip) (n : Nat) (errs : Word) :
    (c.scanDone n errs).is (R.LANE_ES_STAT n) F.LANE_ES_STAT_BUSY = false
      ∧ (c.scanDone n errs).is (R.LANE_ES_STAT n) F.LANE_ES_STAT_DONE = true ∧ (c.scanDone n errs).rd (R.LANE_ES_ERR n) = errs
      ∧ (c.scanDone n errs).rdN (R.LANE_ES_BITS n) = 2 ^ (16 + c.f (R.LANE_ES_CTL n) F.LANE_ES_CTL_PRESCALE) := by
  have counters (d : Chip) (bits : Nat) :
      ((d.wr (R.LANE_ES_ERR n) errs).wrN (R.LANE_ES_BITS n) bits).rd (R.LANE_ES_STAT n) = d.rd (R.LANE_ES_STAT n) := by
    rw [Chip.wrN, Chip.rd_wr_ne _ _ _ _ (by simp [R.LANE_ES_BITS, R.LANE_ES_STAT]),
      Chip.rd_wr_ne _ _ _ _ (by simp [R.LANE_ES_ERR, R.LANE_ES_STAT])]
  have prescale : c.f (R.LANE_ES_CTL n) F.LANE_ES_CTL_PRESCALE < 16 := Nat.mod_lt _ (by decide)
  have beside : R.LANE_ES_STAT n ≠ R.LANE_ES_CTL n := by simp [R.LANE_ES_STAT, R.LANE_ES_CTL]
  simp only [Chip.scanDone]
  refine ⟨?_, ?_, ?_, ?_⟩
  · rw [Chip.is_congr (counters _ _), Chip.is_flag_beside _ _ _ _ _ (by decide) (by decide), Chip.is_flag _ _ _ _ (by decide) (by decide)]
  · rw [Chip.is_congr (counters _ _), Chip.is_flag _ _ _ _ (by decide) (by decide)]
  · rw [Chip.wrN, Chip.rd_wr_ne _ _ _ _ (by simp [R.LANE_ES_BITS, R.LANE_ES_ERR]), Chip.rd_wr_same]
  · rw [Chip.flag, Chip.flag, Chip.f_setF_ne _ _ _ _ _ _ beside, Chip.f_setF_ne _ _ _ _ _ _ beside, Chip.rdN_wrN]
    exact Nat.pow_lt_pow_right (by decide) (by omega)

/-- EYE_SCAN_DONE of a running scan (R432). -/
theorem doEyeScanDone_runs {n : Fin 8} {s : State} (errs : BitVec 32) (awake : Awake (P.LANE n) s)
    (busy : s.chip.is (R.LANE_ES_STAT n) F.LANE_ES_STAT_BUSY = true) :
    doEyeScanDone n errs s.chip = (s.chip.scanDone n errs).raise (P.LANE n) 4 := by
  rw [doEyeScanDone, Chip.clocked_awake awake]
  exact if_pos busy

theorem doEyeScanDone_shown {n : Fin 8} {s : State} (errs : BitVec 32) (awake : Awake (P.LANE n) s)
    (busy : s.chip.is (R.LANE_ES_STAT n) F.LANE_ES_STAT_BUSY = true) :
    Chip.Kept true [R.LANE_ES_STAT n, R.LANE_ES_ERR n, R.LANE_ES_BITS n] [] s.chip (doEyeScanDone n errs s.chip)
      ∧ (doEyeScanDone n errs s.chip).is (R.LANE_ES_STAT n) F.LANE_ES_STAT_BUSY = false
      ∧ (doEyeScanDone n errs s.chip).is (R.LANE_ES_STAT n) F.LANE_ES_STAT_DONE = true
      ∧ (doEyeScanDone n errs s.chip).rd (R.LANE_ES_ERR n) = errs
      ∧ (doEyeScanDone n errs s.chip).rdN (R.LANE_ES_BITS n) = 2 ^ (16 + s.chip.f (R.LANE_ES_CTL n) F.LANE_ES_CTL_PRESCALE) := by
  rw [doEyeScanDone_runs errs awake busy]
  obtain ⟨ended, done, errors, bits⟩ := s.chip.scanDone_shown n errs
  have event {k : Nat} (shown : k ∈ laneShowRegs n) := (s.chip.scanDone n errs).rd_raise_lane n 4 (page_lane n) shown
  exact ⟨(s.chip.scanDone_kept n errs).raise (page_lane n), (Chip.is_congr (event (by simp [laneShowRegs])) _).trans ended,
    (Chip.is_congr (event (by simp [laneShowRegs])) _).trans done, (event (by simp [laneShowRegs])).trans errors,
    (congrArg BitVec.toNat (event (by simp [laneShowRegs]))).trans bits⟩

/-! ### Pattern generator and checker (O41) -/

/-- PAT_INJECT while the generator runs (R435). -/
theorem doPatInject_generates {w : Writer} {n : Fin 8} {s : State} (may : May w (R.LANE_PAT_CMD n) s)
    (state : s.chip.laneState n = Ls.pattern) (generator : s.chip.is (R.LANE_PAT_CFG n) F.LANE_PAT_CFG_GEN = true) :
    doPatInject w theKey n s.chip = s.chip.updLane n fun l => { l with inj := l.inj + 1 } := by
  obtain ⟨powered, running, allowed⟩ := may
  rw [doPatInject, Chip.cmd_of _ _ _ _ powered running allowed]
  exact if_pos (by simp [nbit, state, generator])

/-- The counters of the checker of lane `n` at 0 (R434). -/
def Chip.patCleared (c : Chip) (n : Nat) : Chip :=
  ((c.wr64 (R.LANE_PAT_ERR_LO n) 0).wr64 (R.LANE_PAT_BITS_LO n) 0).setF (R.LANE_PAT_STAT n) F.LANE_PAT_STAT_SYNC_LOSSES 0

theorem Chip.patCleared_kept (c : Chip) (n : Nat) : Chip.Kept false [R.LANE_PAT_ERR_LO n, R.LANE_PAT_ERR_LO n + 4, R.LANE_PAT_BITS_LO n,
    R.LANE_PAT_BITS_LO n + 4, R.LANE_PAT_STAT n] [] c (c.patCleared n) :=
  ((Chip.Kept.refl.wr64 (by simp) (by simp)).wr64 (by simp) (by simp)).setF (by simp)

/-- A change of PAT_STAT leaves the counters alone. -/
theorem Chip.rd64_setF_patStat (c : Chip) (n : Nat) (x : Fld) (v : Nat) {k : Nat} (counter : k = R.LANE_PAT_ERR_LO n ∨ k = R.LANE_PAT_BITS_LO n) :
    (c.setF (R.LANE_PAT_STAT n) x v).rd64 k = c.rd64 k := by
  have beside : R.LANE_PAT_STAT n ≠ k ∧ R.LANE_PAT_STAT n ≠ k + 4 := by
    rcases counter with rfl | rfl <;> simp only [R.LANE_PAT_STAT, R.LANE_PAT_ERR_LO, R.LANE_PAT_BITS_LO] <;> omega
  exact Chip.rd64_congr (Chip.rd_setF_ne _ _ _ _ _ beside.1) (Chip.rd_setF_ne _ _ _ _ _ beside.2)

theorem pat_counters_apart (n : Nat) : R.LANE_PAT_ERR_LO n + 4 < R.LANE_PAT_BITS_LO n := by
  simp only [R.LANE_PAT_ERR_LO, R.LANE_PAT_BITS_LO]
  omega

theorem Chip.patCleared_shown (c : Chip) (n : Nat) : (c.patCleared n).rd64 (R.LANE_PAT_ERR_LO n) = 0
    ∧ (c.patCleared n).rd64 (R.LANE_PAT_BITS_LO n) = 0 ∧ (c.patCleared n).f (R.LANE_PAT_STAT n) F.LANE_PAT_STAT_SYNC_LOSSES = 0 := by
  rw [Chip.patCleared]
  refine ⟨?_, ?_, Chip.f_setF _ _ _ _ (by decide)⟩
  · rw [Chip.rd64_setF_patStat _ _ _ _ (.inl rfl), Chip.rd64_wr64_beside _ _ (.inr (pat_counters_apart n)), Chip.rd64_wr64, Nat.zero_mod]
  · rw [Chip.rd64_setF_patStat _ _ _ _ (.inr rfl), Chip.rd64_wr64, Nat.zero_mod]

/-- PAT_CLR (R434). -/
theorem doPatClr_may {w : Writer} {n : Fin 8} {s : State} (may : May w (R.LANE_PAT_CMD n) s) :
    doPatClr w theKey n s.chip = s.chip.patCleared n := by
  obtain ⟨powered, running, allowed⟩ := may
  rw [doPatClr, Chip.cmd_of _ _ _ _ powered running allowed, Chip.patCmd]
  exact (if_neg (by simp [nbit])).trans (if_pos (by simp [nbit]))

/-- PAT_SYNC of a checker that runs (R434). -/
theorem doPatSync_checks {n : Fin 8} {s : State} (awake : Awake (P.LANE n) s) (state : s.chip.laneState n = Ls.pattern)
    (checker : s.chip.is (R.LANE_PAT_CFG n) F.LANE_PAT_CFG_CHK = true) :
    doPatSync n s.chip = s.chip.flag (R.LANE_PAT_STAT n) F.LANE_PAT_STAT_SYNC true := by
  rw [doPatSync, Chip.clocked_awake awake]
  exact if_pos (by rw [state, checker]; rfl)

/-- The bits and errors counted while in sync taken into the counters (R434). -/
def Chip.patCounted (c : Chip) (n bits errs : Nat) : Chip :=
  let c : Chip := c.wr64 (R.LANE_PAT_BITS_LO n) ((c.rd64 (R.LANE_PAT_BITS_LO n) + bits) % 2 ^ 48)
  c.wr64 (R.LANE_PAT_ERR_LO n) ((c.rd64 (R.LANE_PAT_ERR_LO n) + errs) % 2 ^ 48)

/-- The loss of sync shown and counted. -/
def Chip.patUnsynced (c : Chip) (n : Nat) : Chip :=
  let c : Chip := (c.flag (R.LANE_PAT_STAT n) F.LANE_PAT_STAT_SYNC false).flag (R.LANE_PAT_STAT n) F.LANE_PAT_STAT_SYNC_LOST_SEEN true
  c.incSat (R.LANE_PAT_STAT n) F.LANE_PAT_STAT_SYNC_LOSSES

theorem Chip.patCounted_counters (c : Chip) (n bits errs : Nat) :
    (c.patCounted n bits errs).rd64 (R.LANE_PAT_BITS_LO n) = (c.rd64 (R.LANE_PAT_BITS_LO n) + bits) % 2 ^ 48
      ∧ (c.patCounted n bits errs).rd64 (R.LANE_PAT_ERR_LO n) = (c.rd64 (R.LANE_PAT_ERR_LO n) + errs) % 2 ^ 48 := by
  simp only [Chip.patCounted, Chip.rd64_wr64, Chip.rd64_wr64_beside _ _ (.inl (pat_counters_apart n)),
    Chip.rd64_wr64_beside _ _ (.inr (pat_counters_apart n))]
  omega

theorem Chip.patUnsynced_counters (c : Chip) (n : Nat) {k : Nat} (counter : k = R.LANE_PAT_ERR_LO n ∨ k = R.LANE_PAT_BITS_LO n) :
    (c.patUnsynced n).rd64 k = c.rd64 k := by
  simp only [Chip.patUnsynced, Chip.incSat, Chip.flag, Chip.rd64_setF_patStat _ _ _ _ counter]

theorem Chip.patUnsynced_shown (c : Chip) (n : Nat) : (c.patUnsynced n).is (R.LANE_PAT_STAT n) F.LANE_PAT_STAT_SYNC = false
    ∧ (c.patUnsynced n).is (R.LANE_PAT_STAT n) F.LANE_PAT_STAT_SYNC_LOST_SEEN = true := by
  simp only [Chip.patUnsynced, Chip.incSat]
  refine ⟨?_, ?_⟩
  · rw [Chip.is_setF_beside _ _ _ _ _ (by decide) (by decide), Chip.is_flag_beside _ _ _ _ _ (by decide) (by decide),
      Chip.is_flag _ _ _ _ (by decide) (by decide)]
  · rw [Chip.is_setF_beside _ _ _ _ _ (by decide) (by decide), Chip.is_flag _ _ _ _ (by decide) (by decide)]

theorem Chip.patLost_kept (c : Chip) (n bits errs : Nat) : Chip.Kept true [R.LANE_PAT_BITS_LO n, R.LANE_PAT_BITS_LO n + 4, R.LANE_PAT_ERR_LO n,
    R.LANE_PAT_ERR_LO n + 4, R.LANE_PAT_STAT n] [] c ((c.patCounted n bits errs).patUnsynced n) :=
  ((((Chip.Kept.refl.wr64 (by simp) (by simp)).wr64 (by simp) (by simp)).flag (by simp)).flag (by simp)).incSat (by simp)

/-- PAT_SYNC_LOSS of a checker in sync (R434). -/
theorem doPatSyncLoss_synced {n : Fin 8} {s : State} (bits errs : BitVec 48) (awake : Awake (P.LANE n) s)
    (synced : s.chip.is (R.LANE_PAT_STAT n) F.LANE_PAT_STAT_SYNC = true) :
    doPatSyncLoss n bits errs s.chip = ((s.chip.patCounted n bits.toNat errs.toNat).patUnsynced n).raise (P.LANE n) 3 := by
  rw [doPatSyncLoss, Chip.clocked_awake awake]
  exact if_pos synced

theorem doPatSyncLoss_shown {n : Fin 8} {s : State} (bits errs : BitVec 48) (awake : Awake (P.LANE n) s)
    (synced : s.chip.is (R.LANE_PAT_STAT n) F.LANE_PAT_STAT_SYNC = true) :
    Chip.Kept true [R.LANE_PAT_BITS_LO n, R.LANE_PAT_BITS_LO n + 4, R.LANE_PAT_ERR_LO n, R.LANE_PAT_ERR_LO n + 4, R.LANE_PAT_STAT n] []
        s.chip (doPatSyncLoss n bits errs s.chip)
      ∧ (doPatSyncLoss n bits errs s.chip).is (R.LANE_PAT_STAT n) F.LANE_PAT_STAT_SYNC = false
      ∧ (doPatSyncLoss n bits errs s.chip).is (R.LANE_PAT_STAT n) F.LANE_PAT_STAT_SYNC_LOST_SEEN = true
      ∧ (doPatSyncLoss n bits errs s.chip).rd64 (R.LANE_PAT_BITS_LO n) = (s.chip.rd64 (R.LANE_PAT_BITS_LO n) + bits.toNat) % 2 ^ 48
      ∧ (doPatSyncLoss n bits errs s.chip).rd64 (R.LANE_PAT_ERR_LO n) = (s.chip.rd64 (R.LANE_PAT_ERR_LO n) + errs.toNat) % 2 ^ 48 := by
  rw [doPatSyncLoss_synced bits errs awake synced]
  obtain ⟨unsynced, seen⟩ := (s.chip.patCounted n bits.toNat errs.toNat).patUnsynced_shown n
  obtain ⟨counted, failed⟩ := s.chip.patCounted_counters n bits.toNat errs.toNat
  have event {k : Nat} (shown : k ∈ laneShowRegs n) :=
    ((s.chip.patCounted n bits.toNat errs.toNat).patUnsynced n).rd_raise_lane n 3 (page_lane n) shown
  have kept {k : Nat} := Chip.patUnsynced_counters (s.chip.patCounted n bits.toNat errs.toNat) n (k := k)
  exact ⟨(s.chip.patLost_kept n bits.toNat errs.toNat).raise (page_lane n), (Chip.is_congr (event (by simp [laneShowRegs])) _).trans unsynced,
    (Chip.is_congr (event (by simp [laneShowRegs])) _).trans seen,
    ((Chip.rd64_congr (event (by simp [laneShowRegs])) (event (by simp [laneShowRegs]))).trans (kept (.inr rfl))).trans counted,
    ((Chip.rd64_congr (event (by simp [laneShowRegs])) (event (by simp [laneShowRegs]))).trans (kept (.inl rfl))).trans failed⟩

/-! ### Optical modules (O41) -/

/-- Bytes `i` and `i + 1` of a poll, the first in the high half (R441). -/
def pollHalf (bytes : List (BitVec 8)) (i : Nat) : Nat := (nth bytes i 0).toNat * 256 + (nth bytes (i + 1) 0).toNat

theorem pollHalf_lt (bytes : List (BitVec 8)) (i : Nat) : pollHalf bytes i < 2 ^ 16 := by
  have high := (nth bytes i 0).isLt
  have low := (nth bytes (i + 1) 0).isLt
  simp only [pollHalf]
  omega

/-- The values of a poll in the registers of lane `n`. -/
def Chip.moduleShown (c : Chip) (n : Nat) (bytes : List (BitVec 8)) : Chip :=
  let c : Chip := ((c.wrN (R.LANE_MOD_DDM0 n) (pollHalf bytes 0 * 65536 + pollHalf bytes 2)).wrN (R.LANE_MOD_DDM1 n)
    (pollHalf bytes 4 * 65536 + pollHalf bytes 6)).wrN (R.LANE_MOD_DDM2 n) (pollHalf bytes 8)
  c.setF (R.LANE_MOD_STAT n) F.LANE_MOD_STAT_ALARM_FLAGS (pollHalf bytes 10)

/-- ALARM as its flags have it. -/
def Chip.alarmFollow (c : Chip) (n flags : Nat) : Chip :=
  if flags = 0 then c.flag (R.LANE_MOD_STAT n) F.LANE_MOD_STAT_ALARM false else c.modAlarm n

/-- MODULE_POLL of a module that is present (R441). -/
theorem doModulePoll_present {n : Fin 8} {s : State} (bytes : List (BitVec 8)) (awake : Awake (P.LANE n) s)
    (enabled : s.chip.is (R.LANE_MOD_CFG n) F.LANE_MOD_CFG_EN = true) (present : s.chip.is (R.LANE_MOD_STAT n) F.LANE_MOD_STAT_PRESENT = true) :
    doModulePoll n bytes s.chip = (s.chip.moduleShown n bytes).alarmFollow n (pollHalf bytes 10) := by
  rw [doModulePoll, Chip.clocked_awake awake]
  exact if_pos (by rw [enabled, present]; rfl)

theorem Chip.moduleShown_kept (c : Chip) (n : Nat) (bytes : List (BitVec 8)) :
    Chip.Kept true [R.LANE_MOD_DDM0 n, R.LANE_MOD_DDM1 n, R.LANE_MOD_DDM2 n, R.LANE_MOD_STAT n] [] c (c.moduleShown n bytes) :=
  (((Chip.Kept.refl.wrN (by simp)).wrN (by simp)).wrN (by simp)).setF (by simp)

theorem Chip.moduleShown_values (c : Chip) (n : Nat) (bytes : List (BitVec 8)) :
    (c.moduleShown n bytes).rdN (R.LANE_MOD_DDM0 n) = pollHalf bytes 0 * 65536 + pollHalf bytes 2
      ∧ (c.moduleShown n bytes).rdN (R.LANE_MOD_DDM1 n) = pollHalf bytes 4 * 65536 + pollHalf bytes 6
      ∧ (c.moduleShown n bytes).rdN (R.LANE_MOD_DDM2 n) = pollHalf bytes 8
      ∧ (c.moduleShown n bytes).f (R.LANE_MOD_STAT n) F.LANE_MOD_STAT_ALARM_FLAGS
        = pollHalf bytes 10 % 2 ^ F.LANE_MOD_STAT_ALARM_FLAGS.width := by
  have half := pollHalf_lt bytes
  have word (i j : Nat) : pollHalf bytes i * 65536 + pollHalf bytes j < 2 ^ 32 := by have := half i; have := half j; omega
  have other (d : Chip) {k j : Nat} (v : Nat) (ne : k ≠ j) : (d.wrN k v).rdN j = d.rdN j := congrArg BitVec.toNat (Chip.rd_wr_ne _ _ _ _ ne)
  have stat (d : Chip) {j : Nat} (x : Fld) (v : Nat) (ne : R.LANE_MOD_STAT n ≠ j) : (d.setF (R.LANE_MOD_STAT n) x v).rdN j = d.rdN j :=
    congrArg BitVec.toNat (Chip.rd_setF_ne _ _ _ _ _ ne)
  simp only [Chip.moduleShown]
  refine ⟨?_, ?_, ?_, Chip.f_setF _ _ _ _ (by decide)⟩
  · rw [stat _ _ _ (by simp [R.LANE_MOD_STAT, R.LANE_MOD_DDM0]), other _ _ (by simp [R.LANE_MOD_DDM2, R.LANE_MOD_DDM0]),
      other _ _ (by simp [R.LANE_MOD_DDM1, R.LANE_MOD_DDM0]), Chip.rdN_wrN _ _ (word ..)]
  · rw [stat _ _ _ (by simp [R.LANE_MOD_STAT, R.LANE_MOD_DDM1]), other _ _ (by simp [R.LANE_MOD_DDM2, R.LANE_MOD_DDM1]),
      Chip.rdN_wrN _ _ (word ..)]
  · rw [stat _ _ _ (by simp [R.LANE_MOD_STAT, R.LANE_MOD_DDM2]), Chip.rdN_wrN _ _ ((half 8).trans (by decide))]

/-- ALARM alone follows. -/
theorem Chip.alarmFollow_kept (c : Chip) (n flags : Nat) : Chip.Kept true [R.LANE_MOD_STAT n] [] c (c.alarmFollow n flags) :=
  .ite (Chip.Kept.refl.flag (by simp)) ((Chip.Kept.refl.flag (by simp)).raise (page_quad _))

theorem Chip.modAlarm_stat (c : Chip) (n : Fin 8) :
    (c.modAlarm n).rd (R.LANE_MOD_STAT n) = (c.flag (R.LANE_MOD_STAT n) F.LANE_MOD_STAT_ALARM true).rd (R.LANE_MOD_STAT n) :=
  Chip.rd_raise_lane _ n _ (page_quad _) (by simp [laneShowRegs])

theorem Chip.alarmFollow_stat (c : Chip) (n : Fin 8) (flags : Nat) : (c.alarmFollow n flags).rd (R.LANE_MOD_STAT n)
    = (c.flag (R.LANE_MOD_STAT n) F.LANE_MOD_STAT_ALARM (decide (flags ≠ 0))).rd (R.LANE_MOD_STAT n) := by
  unfold Chip.alarmFollow
  split
  next quiet => rw [quiet]; rfl
  next alarmed => rw [Chip.modAlarm_stat, decide_eq_true alarmed]

theorem doModulePoll_shown {n : Fin 8} {s : State} (bytes : List (BitVec 8)) (awake : Awake (P.LANE n) s)
    (enabled : s.chip.is (R.LANE_MOD_CFG n) F.LANE_MOD_CFG_EN = true) (present : s.chip.is (R.LANE_MOD_STAT n) F.LANE_MOD_STAT_PRESENT = true) :
    Chip.Kept true [R.LANE_MOD_DDM0 n, R.LANE_MOD_DDM1 n, R.LANE_MOD_DDM2 n, R.LANE_MOD_STAT n] [] s.chip (doModulePoll n bytes s.chip)
      ∧ (doModulePoll n bytes s.chip).rdN (R.LANE_MOD_DDM0 n) = pollHalf bytes 0 * 65536 + pollHalf bytes 2
      ∧ (doModulePoll n bytes s.chip).rdN (R.LANE_MOD_DDM1 n) = pollHalf bytes 4 * 65536 + pollHalf bytes 6
      ∧ (doModulePoll n bytes s.chip).rdN (R.LANE_MOD_DDM2 n) = pollHalf bytes 8
      ∧ (doModulePoll n bytes s.chip).f (R.LANE_MOD_STAT n) F.LANE_MOD_STAT_ALARM_FLAGS
        = pollHalf bytes 10 % 2 ^ F.LANE_MOD_STAT_ALARM_FLAGS.width
      ∧ (doModulePoll n bytes s.chip).is (R.LANE_MOD_STAT n) F.LANE_MOD_STAT_ALARM = decide (pollHalf bytes 10 ≠ 0) := by
  rw [doModulePoll_present bytes awake enabled present]
  generalize flags : pollHalf bytes 10 = a
  have follow := (s.chip.moduleShown n bytes).alarmFollow_kept n a
  have stat := (s.chip.moduleShown n bytes).alarmFollow_stat n a
  obtain ⟨temp, bias, power, alarms⟩ := s.chip.moduleShown_values n bytes
  rw [flags] at alarms
  have value {k : Nat} (shown : k ∈ laneShowRegs n) (ne : k ≠ R.LANE_MOD_STAT n) :=
    congrArg BitVec.toNat (follow.regs k (fun _ => evKey_laneShowRegs n k shown) (by simpa using ne))
  refine ⟨(s.chip.moduleShown_kept n bytes).trans (follow.mono (by simp) (by simp)), ?_, ?_, ?_, ?_, ?_⟩
  · exact (value (by simp [laneShowRegs]) (by simp [R.LANE_MOD_DDM0, R.LANE_MOD_STAT])).trans temp
  · exact (value (by simp [laneShowRegs]) (by simp [R.LANE_MOD_DDM1, R.LANE_MOD_STAT])).trans bias
  · exact (value (by simp [laneShowRegs]) (by simp [R.LANE_MOD_DDM2, R.LANE_MOD_STAT])).trans power
  · rw [Chip.f_congr stat, Chip.flag, Chip.f_setF_beside _ _ _ _ _ (by decide) (by decide), alarms]
  · rw [Chip.is_congr stat, Chip.is_flag _ _ _ _ (by decide) (by decide)]

/-- MODULE_PRESENCE_CHANGE (R441). -/
theorem doModulePresenceChange_shown {n : Fin 8} {s : State} (present : Bool) (awake : Awake (P.LANE n) s) :
    Chip.Kept true [R.LANE_MOD_STAT n] [] s.chip (doModulePresenceChange n present s.chip)
      ∧ (doModulePresenceChange n present s.chip).is (R.LANE_MOD_STAT n) F.LANE_MOD_STAT_PRESENT = present := by
  have shown : (s.chip.flag (R.LANE_MOD_STAT n) F.LANE_MOD_STAT_PRESENT present).is (R.LANE_MOD_STAT n) F.LANE_MOD_STAT_PRESENT = present :=
    Chip.is_flag _ _ _ _ (by decide) (by decide)
  rw [doModulePresenceChange, Chip.clocked_awake awake]
  refine ⟨.ite (((Chip.Kept.refl.flag (by simp)).flag (by simp)).raise (page_quad _)) (Chip.Kept.refl.flag (by simp)),
    Chip.is_ite ?_ shown⟩
  rw [Chip.is_congr (Chip.modAlarm_stat _ n), Chip.is_flag_beside _ _ _ _ _ (by decide) (by decide), shown]

/-- A byte access of lane `n` has started (R442). -/
def Chip.accessStarted (c : Chip) (n : Nat) (a : Bool × Bool × Nat) : Chip :=
  (c.flag (R.LANE_MOD_STAT n) F.LANE_MOD_STAT_BUSY true).updLane n fun l => { l with acc := some a }

theorem Chip.accessStarted_shown (c : Chip) (n : Nat) (a : Bool × Bool × Nat) :
    Chip.Kept false [R.LANE_MOD_STAT n] [.lanes] c (c.accessStarted n a)
      ∧ (c.accessStarted n a).is (R.LANE_MOD_STAT n) F.LANE_MOD_STAT_BUSY = true
      ∧ (c.accessStarted n a).lanes = upd c.lanes n fun l => { l with acc := some a } :=
  ⟨(Chip.Kept.refl.flag (by simp)).updLane (by simp), (Chip.updLane_is ..).trans (Chip.is_flag _ _ _ _ (by decide) (by decide)),
    (Chip.updLane_lanes ..).trans (by rw [Chip.flag_lanes])⟩

section
variable {w : Writer} {n : Fin 8} {s : State} (dev : Bool) (ofs : BitVec 8) (may : May w (R.LANE_MOD_CMD n) s)
  (idle : s.chip.is (R.LANE_MOD_STAT n) F.LANE_MOD_STAT_BUSY = false)
include may idle

/-- MOD_CMD while no access runs (R442). -/
theorem Chip.cmd_modCmd (write : Bool) : (s.chip.cmd (R.LANE_MOD_CMD n) w theKey fun c => c.modCmd n write dev ofs.toNat)
    = s.chip.accessStarted n (write, dev, ofs.toNat) := by
  obtain ⟨powered, running, allowed⟩ := may
  rw [Chip.cmd_of _ _ _ _ powered running allowed]
  exact if_neg (by rw [idle]; decide)

theorem doModCmdRead_idle : doModCmdRead w theKey n dev ofs s.chip = s.chip.accessStarted n (false, dev, ofs.toNat) :=
  Chip.cmd_modCmd dev ofs may idle false

theorem doModCmdWrite_idle : doModCmdWrite w theKey n dev ofs s.chip = s.chip.accessStarted n (true, dev, ofs.toNat) :=
  Chip.cmd_modCmd dev ofs may idle true

end

/-- The access of lane `n` is over. -/
def Chip.accessOver (c : Chip) (n : Nat) : Chip :=
  (c.updLane n fun l => { l with acc := none }).flag (R.LANE_MOD_STAT n) F.LANE_MOD_STAT_BUSY false

/-- NACK, or the byte that a read returned. -/
def Chip.accessAnswer (c : Chip) (n : Nat) (ack write : Bool) (data : Nat) : Chip :=
  if !ack then c.flag (R.LANE_MOD_STAT n) F.LANE_MOD_STAT_NACK true
  else if write then c else c.setF (R.LANE_MOD_DATA n) F.LANE_MOD_DATA_DATA data

/-- MOD_ACCESS_DONE of a running access (R442). -/
theorem doModAccessDone_runs {n : Fin 8} {s : State} {write dev : Bool} {ofs : Nat} (ack : Bool) (data : BitVec 8)
    (awake : Awake (P.LANE n) s) (access : (s.chip.lane n).acc = some (write, dev, ofs)) :
    doModAccessDone n ack data s.chip = ((s.chip.accessOver n).accessAnswer n ack write data.toNat).raise (P.LANE n) 5 := by
  rw [doModAccessDone, Chip.clocked_awake awake, access]
  rfl

theorem Chip.accessAnswer_kept (c : Chip) (n : Nat) (ack write : Bool) (data : Nat) :
    Chip.Kept true [R.LANE_MOD_STAT n, R.LANE_MOD_DATA n] [] c (c.accessAnswer n ack write data) :=
  .ite (Chip.Kept.refl.flag (by simp)) (.ite .refl (Chip.Kept.refl.setF (by simp)))

theorem Chip.accessAnswer_busy (c : Chip) (n : Nat) (ack write : Bool) (data : Nat) :
    (c.accessAnswer n ack write data).is (R.LANE_MOD_STAT n) F.LANE_MOD_STAT_BUSY = c.is (R.LANE_MOD_STAT n) F.LANE_MOD_STAT_BUSY :=
  Chip.is_ite (Chip.is_flag_beside _ _ _ _ _ (by decide) (by decide))
    (Chip.is_ite rfl (Chip.is_congr (Chip.rd_setF_ne _ _ _ _ _ (by simp [R.LANE_MOD_DATA, R.LANE_MOD_STAT])) _))

theorem doModAccessDone_shown {n : Fin 8} {s : State} {write dev : Bool} {ofs : Nat} (ack : Bool) (data : BitVec 8)
    (awake : Awake (P.LANE n) s) (access : (s.chip.lane n).acc = some (write, dev, ofs)) :
    Chip.Kept true [R.LANE_MOD_STAT n, R.LANE_MOD_DATA n] [.lanes] s.chip (doModAccessDone n ack data s.chip)
      ∧ (doModAccessDone n ack data s.chip).is (R.LANE_MOD_STAT n) F.LANE_MOD_STAT_BUSY = false
      ∧ ((doModAccessDone n ack data s.chip).lane n).acc = none
      ∧ (ack = false → (doModAccessDone n ack data s.chip).is (R.LANE_MOD_STAT n) F.LANE_MOD_STAT_NACK = true)
      ∧ (ack = true → write = false → (doModAccessDone n ack data s.chip).f (R.LANE_MOD_DATA n) F.LANE_MOD_DATA_DATA = data.toNat) := by
  rw [doModAccessDone_runs ack data awake access]
  have answered := (s.chip.accessOver n).accessAnswer_kept n ack write data.toNat
  have event {k : Nat} (shown : k ∈ laneShowRegs n) :=
    ((s.chip.accessOver n).accessAnswer n ack write data.toNat).rd_raise_lane n 5 (page_lane n) shown
  refine ⟨?_, ?_, ?_, ?_, ?_⟩
  · exact (((Chip.Kept.refl.updLane (by simp)).flag (by simp)).trans (answered.mono (by simp) (by simp))).raise (page_lane n)
  · rw [Chip.is_congr (event (by simp [laneShowRegs])), Chip.accessAnswer_busy]
    exact Chip.is_flag _ _ _ _ (by decide) (by decide)
  · rw [Chip.lane, Chip.raise_lanes _ _ _ (page_lane n), answered.lanes_eq (by simp)]
    exact congrArg LaneSt.acc (Chip.lane_updLane (Chip.lane_listed (fun l => l.acc = some (write, dev, ofs)) access (by simp)) _)
  · rintro rfl
    rw [Chip.is_congr (event (by simp [laneShowRegs]))]
    exact Chip.is_flag _ _ _ _ (by decide) (by decide)
  · rintro rfl rfl
    rw [Chip.f_congr (event (by simp [laneShowRegs]))]
    exact Chip.f_setF_of_lt _ _ _ _ (by decide) data.isLt

/-- Settles O41: what each command shows stands in registers of the lane's page, which no event occurrence touches. -/
theorem laneTestAndModuleCommands : Obligations.LaneTestAndModuleCommands := by
  refine ⟨?_, ?_, ?_, ?_, ?_, ?_, ?_, ?_, ?_, ?_, ?_, ?_⟩
  · intro w n pre vo ho s may state idle
    obtain ⟨busy, errors, bits, prescale⟩ := s.chip.scanStarted_shown n (scanPoint pre vo ho)
    exact ⟨_, State.next_onChip (doEyeScanStart_starts pre vo ho may state idle), ⟨⟨rfl, rfl⟩, s.chip.scanStarted_kept n _⟩, busy, errors,
      bits, prescale.trans (prescale_scanPoint pre vo ho)⟩
  · exact fun w n pre vo ho s may barred => ⟨_, State.next_onChip (doEyeScanStart_refused pre vo ho may barred), ⟨rfl, rfl⟩, rfl⟩
  · intro n errs s awake busy
    obtain ⟨kept, shown⟩ := doEyeScanDone_shown errs awake busy
    exact ⟨_, rfl, ⟨⟨rfl, rfl⟩, kept⟩, shown⟩
  · exact fun w n s may state generator => ⟨_, State.next_onChip (doPatInject_generates may state generator),
      ⟨⟨rfl, rfl⟩, Chip.Kept.refl.updLane (by simp)⟩, rfl⟩
  · exact fun w n s may => ⟨_, State.next_onChip (doPatClr_may may), ⟨⟨rfl, rfl⟩, s.chip.patCleared_kept n⟩, s.chip.patCleared_shown n⟩
  · exact fun n s awake state checker => ⟨_, State.next_onChip (doPatSync_checks awake state checker),
      ⟨⟨rfl, rfl⟩, Chip.Kept.refl.flag (by simp)⟩, Chip.is_flag _ _ _ _ (by decide) (by decide)⟩
  · intro n bits errs s awake synced
    obtain ⟨kept, shown⟩ := doPatSyncLoss_shown bits errs awake synced
    exact ⟨_, rfl, ⟨⟨rfl, rfl⟩, kept⟩, shown⟩
  · intro n bytes s awake enabled present
    obtain ⟨kept, shown⟩ := doModulePoll_shown bytes awake enabled present
    exact ⟨_, rfl, ⟨⟨rfl, rfl⟩, kept⟩, shown⟩
  · intro n present s awake
    obtain ⟨kept, shown⟩ := doModulePresenceChange_shown present awake
    exact ⟨_, rfl, ⟨⟨rfl, rfl⟩, kept⟩, shown⟩
  · intro w n dev ofs s may idle
    obtain ⟨kept, shown⟩ := s.chip.accessStarted_shown n (false, dev, ofs.toNat)
    exact ⟨_, State.next_onChip (doModCmdRead_idle dev ofs may idle), ⟨⟨rfl, rfl⟩, kept⟩, shown⟩
  · intro w n dev ofs s may idle
    obtain ⟨kept, shown⟩ := s.chip.accessStarted_shown n (true, dev, ofs.toNat)
    exact ⟨_, State.next_onChip (doModCmdWrite_idle dev ofs may idle), ⟨⟨rfl, rfl⟩, kept⟩, shown⟩
  · intro n ack data write dev ofs s awake access
    obtain ⟨kept, shown⟩ := doModAccessDone_shown ack data awake access
    exact ⟨_, rfl, ⟨⟨rfl, rfl⟩, kept⟩, shown⟩

end Sys2Proof.Machine

namespace Sys2Proof.Machine

/-! ### What leaving and entering a lane state touches (O39, O40) -/

theorem Chip.Kept.foldl {α : Type} {ev : Bool} {ks : List Nat} {ps : List Part} {c d : Chip} {g : Chip → α → Chip} (h : Chip.Kept ev ks ps c d)
    (hg : ∀ e x, Chip.Kept ev ks ps e (g e x)) (l : List α) : Chip.Kept ev ks ps c (l.foldl g d) :=
  foldl_inv (Chip.Kept ev ks ps c) l g d h fun e x he => he.trans (hg e x)

/-- The registers that report a discarded packet (R472). -/
def dropKeys : List Nat := [R.FAB_DROP_INFO, R.FAB_CNT_0]

theorem Chip.dropPkt_kept (c : Chip) (p : Packet) (cause : Nat) : Chip.Kept true dropKeys [.out] c (c.dropPkt p cause) :=
  have reported := ((Chip.Kept.refl.wrN (k := R.FAB_DROP_INFO) (by simp [dropKeys])).incSat (k := R.FAB_CNT_0) (by simp [dropKeys])).raise
    (b := P.FAB) (i := 2) (by decide)
  .ite (reported.send (by simp)) reported

theorem Chip.giveBack_kept {ev : Bool} (c : Chip) (inL : Option Nat) (vc : Nat) : Chip.Kept ev [] [.lanes] c (c.giveBack inL vc) := by
  cases inL with
  | none => exact .refl
  | some n => exact Chip.Kept.refl.updLane (by simp)

theorem Chip.enqueue_kept (c : Chip) (n : Nat) (inL : Option Nat) (p : Packet) : Chip.Kept true [] [.lanes] c (c.enqueue n inL p) :=
  Chip.Kept.refl.updLane (by simp)

/-- The packets that a lane's loss returns to the router touch the queues, the packets delivered here and the discards alone. -/
theorem Chip.reroute_kept (c : Chip) (pl : Nat) (inL : Option Nat) (p : Packet) :
    Chip.Kept true dropKeys [.lanes, .fab, .out] c (c.reroute pl inL p) := by
  have dropped := ((c.dropPkt_kept p Dc.noRoute).mono (ks := dropKeys) (ps := [.lanes, .fab, .out]) (by simp) (by simp)).trans
    (((c.dropPkt p Dc.noRoute).giveBack_kept inL p.vc.toNat).mono (by simp) (by simp))
  have queued (m : Nat) : Chip.Kept true dropKeys [.lanes, .fab, .out] c (c.enqueue m inL p) :=
    (c.enqueue_kept m inL p).mono (by simp) (by simp)
  have climbs (b : Bool) : Chip.Kept true dropKeys [.lanes, .fab, .out] c (if b then c.enqueue (c.parent pl) inL p else
      (c.dropPkt p Dc.noRoute).giveBack inL p.vc.toNat) := .ite (queued _) dropped
  unfold Chip.reroute
  split
  · exact dropped
  · split
    · split
      · exact Chip.Kept.refl.updFab (by simp)
      · exact queued _
      · exact dropped
    · exact climbs _
    · exact climbs _

/-- The registers that the loss of lane `n` touches beside the count of losses. -/
def laneLeftKeys (n : Nat) : List Nat := R.LANE_PARTNER n :: R.LANE_LAT n :: dropKeys

/-- What lane `n` and its partner no longer share. -/
def Chip.laneCut (c : Chip) (n : Nat) : Chip :=
  ((c.wrN (R.LANE_PARTNER n) 0).wrN (R.LANE_LAT n) 0).updLane n fun l =>
    { l with buf := [], vq := [], replays := 0, nak := false, ann := none, line := [] }

theorem Chip.laneCut_kept (c : Chip) (n : Nat) : Chip.Kept true (laneLeftKeys n) [.lanes, .fab, .out] c (c.laneCut n) :=
  ((Chip.Kept.refl.wrN (by simp [laneLeftKeys])).wrN (by simp [laneLeftKeys])).updLane (by simp)

theorem Chip.laneLeft_kept (c : Chip) (n : Nat) :
    Chip.Kept true (laneLeftKeys n) [.lanes, .fab, .out] (c.incSat (R.LANE_CNT_1 n) F.LANE_CNT_1_DOWNS) (c.laneLeft n) := by
  have cut := (c.incSat (R.LANE_CNT_1 n) F.LANE_CNT_1_DOWNS).laneCut_kept n
  have returned (d : Chip) (inL : Option Nat) (p : Packet) :
      Chip.Kept true (laneLeftKeys n) [.lanes, .fab, .out] d (d.reroute (planeOf n) inL p) :=
    (d.reroute_kept _ _ _).mono (fun k hk => by simp [laneLeftKeys, hk]) (by simp)
  have repaired := Chip.Kept.ite (p := ((c.incSat (R.LANE_CNT_1 n) F.LANE_CNT_1_DOWNS).laneCut n).repairable n = true)
    ((cut.incSat (k := R.FAB_CNT_0) (n := 1) (x := F.FAB_CNT_0_REPAIRS) (by simp [laneLeftKeys, dropKeys])).raise (b := P.FAB) (i := 1)
      (by decide)) cut
  exact (repaired.foldl (fun d (e : Nat × Bool × Packet) => returned d none _) _).foldl
    (fun d (e : Option Nat × Packet) => returned d e.1 e.2) _

/-- The registers in which muster shows roots, levels, phase and the map, and the bellwether's herd time. -/
def musKeys : List Nat :=
  [R.MUS_STAT, R.MUS_BW, R.MUS_BW_RANK 0, R.MUS_BW_RANK 0 + 4, R.MUS_MEMBERS, R.MUS_QRES_LO, R.MUS_QRES_HI, R.HTM_STAT]

section
variable (c : Chip)

theorem Chip.setLevel_kept (p l par : Nat) : Chip.Kept true musKeys [.fab] c (c.setLevel p l par) :=
  (Chip.Kept.refl.setF (by simp [musKeys])).setF (by simp [musKeys])

theorem Chip.electPlane_kept (p : Nat) : Chip.Kept true musKeys [.fab] c (c.electPlane p) := by
  have fab {g : FabSt → FabSt} {d : Chip} (h : Chip.Kept true musKeys [.fab] c d) : Chip.Kept true musKeys [.fab] c (d.updFab g) :=
    h.updFab (by simp)
  have level {d : Chip} (h : Chip.Kept true musKeys [.fab] c d) (l par : Nat) : Chip.Kept true musKeys [.fab] c (d.setLevel p l par) :=
    h.trans (d.setLevel_kept p l par)
  unfold Chip.electPlane
  split
  · exact level (fab .refl) _ _
  · dsimp only
    split
    · exact level .refl _ _
    · split
      · exact level (fab .refl) _ _
      · split
        · exact fab .refl
        · exact level (fab (fab .refl)) _ _

theorem Chip.musShow_kept : Chip.Kept true musKeys [.fab] c c.musShow := by
  unfold Chip.musShow
  dsimp only
  split <;> exact ((Chip.Kept.refl.wrN (by simp [musKeys])).wrN (by simp [musKeys])).wrN (by simp [musKeys])

theorem Chip.showPhase_kept : Chip.Kept true musKeys [.fab] c c.showPhase :=
  (Chip.Kept.refl.setF (by simp [musKeys])).raiseIf (by decide)

theorem Chip.bellwetherIs_kept (on : Bool) : Chip.Kept true musKeys [.fab] c (c.bellwetherIs on) :=
  have shown : Chip.Kept true musKeys [.fab] c (c.flag R.HTM_STAT F.HTM_STAT_BELLWETHER on).showSrc :=
    (Chip.Kept.refl.flag (by simp [musKeys])).setF (by simp [musKeys])
  .ite .refl (.ite ((shown.flag (by simp [musKeys])).raise (by decide)) shown)

/-- Depth, the bellwether with its rank, and whether this device is the bellwether, shown (R451, R463). -/
def Chip.bwShown (deep isBw : Bool) (id rank : Nat) : Chip :=
  (((c.flag R.MUS_STAT F.MUS_STAT_DEEP deep).wrN R.MUS_BW id).wr64 (R.MUS_BW_RANK 0) rank).flag R.MUS_STAT F.MUS_STAT_IS_BW isBw

theorem Chip.bwShown_kept (deep isBw : Bool) (id rank : Nat) : Chip.Kept true musKeys [.fab] c (c.bwShown deep isBw id rank) :=
  (((Chip.Kept.refl.flag (by simp [musKeys])).wrN (by simp [musKeys])).wr64 (by simp [musKeys]) (by simp [musKeys])).flag (by simp [musKeys])

theorem Chip.musFollow_kept : Chip.Kept true musKeys [.fab] c c.musFollow := by
  have led (deep isBw : Bool) (id rank : Nat) : Chip.Kept true musKeys [.fab] c
      ((((c.electPlane 0).electPlane 1).bwShown deep isBw id rank).bellwetherIs isBw) :=
    (((c.electPlane_kept 0).trans ((c.electPlane 0).electPlane_kept 1)).trans (Chip.bwShown_kept _ ..)).trans (Chip.bellwetherIs_kept _ _)
  have map {d : Chip} (h : Chip.Kept true musKeys [.fab] c d) (g : FabSt → FabSt) : Chip.Kept true musKeys [.fab] c (d.updFab g).musShow :=
    (h.updFab (by simp)).trans (Chip.musShow_kept _)
  exact ((Chip.Kept.ite (led _ _ _ _) (map (led _ _ _ _) _)).raiseIf (by decide)).trans (Chip.showPhase_kept _)

end

/-- The registers of the pattern checker of lane `n`. -/
def patKeys (n : Nat) : List Nat :=
  [R.LANE_PAT_STAT n, R.LANE_PAT_BITS_LO n, R.LANE_PAT_BITS_LO n + 4, R.LANE_PAT_ERR_LO n, R.LANE_PAT_ERR_LO n + 4]

theorem lane_notMem_patKeys : ∀ n : Fin 8, R.LANE_STAT n ∉ patKeys n ∧ R.LANE_CNT_1 n ∉ patKeys n := by decide
theorem lane_notMem_leftKeys : ∀ n : Fin 8, R.LANE_STAT n ∉ laneLeftKeys n ∧ R.LANE_CNT_1 n ∉ laneLeftKeys n := by decide
theorem lane_notMem_musKeys : ∀ n : Fin 8, R.LANE_STAT n ∉ musKeys ∧ R.LANE_CNT_1 n ∉ musKeys := by decide

/-- What no change of state of lane `n` touches: its STAT but for STATE and BLOCK_LOCK, once STATE shows the new state, and its counts of
failures. -/
structure Chip.LaneKept (n : Nat) (c d : Chip) : Prop where
  stat : ∀ x : Fld, x.hi < 32 → (x.hi < F.LANE_STAT_BLOCK_LOCK.lo ∨ F.LANE_STAT_BLOCK_LOCK.hi < x.lo) →
    d.f (R.LANE_STAT n) x = c.f (R.LANE_STAT n) x
  fails : ∀ x : Fld, x.hi < F.LANE_CNT_1_DOWNS.lo → d.f (R.LANE_CNT_1 n) x = c.f (R.LANE_CNT_1 n) x

namespace Chip.LaneKept
variable {n : Fin 8} {c d e : Chip}

theorem refl : Chip.LaneKept n c c := ⟨fun _ _ _ => rfl, fun _ _ => rfl⟩

theorem trans (h : Chip.LaneKept n c d) (g : Chip.LaneKept n d e) : Chip.LaneKept n c e :=
  ⟨fun x word beside => (g.stat x word beside).trans (h.stat x word beside), fun x low => (g.fails x low).trans (h.fails x low)⟩

theorem of_kept {ks : List Nat} {ps : List Part} (kept : Chip.Kept true ks ps c d) (stat : R.LANE_STAT n ∉ ks) (cnt : R.LANE_CNT_1 n ∉ ks) :
    Chip.LaneKept n c d :=
  have event {k : Nat} (shown : k ∈ laneShowRegs n) (other : k ∉ ks) := kept.regs k (fun _ => evKey_laneShowRegs n k shown) other
  ⟨fun x _ _ => Chip.f_congr (event (by simp [laneShowRegs]) stat) x, fun x _ => Chip.f_congr (event (by simp [laneShowRegs]) cnt) x⟩

theorem blockLock (c : Chip) (b : Bool) : Chip.LaneKept n c (c.flag (R.LANE_STAT n) F.LANE_STAT_BLOCK_LOCK b) :=
  ⟨fun _ word beside => Chip.f_setF_beside _ _ _ _ _ word beside,
    fun _ _ => Chip.f_setF_ne _ _ _ _ _ _ (by simp [R.LANE_STAT, R.LANE_CNT_1])⟩

/-- A further step that is taken only where `p` holds, or only where it does not. -/
theorem step {p : Prop} [Decidable p] {g : Chip → Chip} (h : Chip.LaneKept n c d) (hg : ∀ e, Chip.LaneKept n e (g e)) :
    Chip.LaneKept n c (if p then g d else d) := by
  split
  · exact h.trans (hg d)
  · exact h

theorem elseStep {p : Prop} [Decidable p] {g : Chip → Chip} (h : Chip.LaneKept n c d) (hg : ∀ e, Chip.LaneKept n e (g e)) :
    Chip.LaneKept n c (if p then d else g d) := by
  split
  · exact h
  · exact h.trans (hg d)

theorem updLane (c : Chip) (m : Nat) (g : LaneSt → LaneSt) : Chip.LaneKept n c (c.updLane m g) := ⟨fun _ _ _ => rfl, fun _ _ => rfl⟩

theorem scanAbort (c : Chip) : Chip.LaneKept n c (c.scanAbort n) := by
  have kept : Chip.Kept true [R.LANE_ES_STAT n, R.LANE_ES_ERR n, R.LANE_ES_BITS n] [.free] c (c.scanAbort n) :=
    .ite ((((((Chip.Kept.refl.flag (by simp)).flag (by simp)).freeW (by simp)).freeW (by simp)).wr (by simp)).wr (by simp)) .refl
  exact of_kept kept (by simp [R.LANE_STAT, R.LANE_ES_STAT, R.LANE_ES_ERR, R.LANE_ES_BITS])
    (by simp [R.LANE_CNT_1, R.LANE_ES_STAT, R.LANE_ES_ERR, R.LANE_ES_BITS])

theorem patStop (c : Chip) : Chip.LaneKept n c (c.patStop n) := by
  have kept : Chip.Kept true (patKeys n) [.free] c (c.patStop n) :=
    .ite (((((Chip.Kept.refl.freeN (n := 2 ^ 48) (by simp)).freeN (n := 2 ^ 48) (by simp)).wr64 (by simp [patKeys])
      (by simp [patKeys])).wr64 (by simp [patKeys]) (by simp [patKeys])).flag (by simp [patKeys])) .refl
  exact of_kept kept (lane_notMem_patKeys n).1 (lane_notMem_patKeys n).2

theorem laneLeft (c : Chip) : Chip.LaneKept n c (c.laneLeft n) := by
  have counted : Chip.LaneKept n c (c.incSat (R.LANE_CNT_1 n) F.LANE_CNT_1_DOWNS) :=
    ⟨fun x _ _ => Chip.f_setF_ne _ _ _ _ _ _ (by simp [R.LANE_CNT_1, R.LANE_STAT]),
      fun x low => Chip.f_setF_beside _ _ _ _ _ (low.trans (by decide)) (.inl low)⟩
  exact counted.trans (of_kept (c.laneLeft_kept n) (lane_notMem_leftKeys n).1 (lane_notMem_leftKeys n).2)

theorem musFollow (c : Chip) : Chip.LaneKept n c c.musFollow :=
  of_kept c.musFollow_kept (lane_notMem_musKeys n).1 (lane_notMem_musKeys n).2

theorem raise (c : Chip) {b : Nat} (i : Nat) (page : b % 0x1000 = 0) : Chip.LaneKept n c (c.raise b i) :=
  of_kept (Chip.Kept.refl.raise (ks := []) (ps := []) page) (by simp) (by simp)

theorem raiseIf (h : Chip.LaneKept n c d) {p : Bool} {i : Nat} : Chip.LaneKept n c (d.raiseIf p (P.LANE n) i) :=
  h.step (g := fun e => e.raise (P.LANE n) i) fun e => raise e i (page_lane n)

/-- A lane that goes to another state. -/
theorem laneTo {st : Nat} (other : c.laneState n ≠ st) :
    Chip.LaneKept n (c.setF (R.LANE_STAT n) F.LANE_STAT_STATE st) (c.laneTo n st) := by
  rw [Chip.laneTo, if_neg other]
  exact ((((((refl.step scanAbort).elseStep (blockLock · _)).elseStep patStop).step (updLane · _ _)).step laneLeft).step musFollow).raiseIf

end Chip.LaneKept

/-- STAT and the counts of failures of a lane after it went to another state. -/
theorem Chip.laneTo_state {c : Chip} {n : Fin 8} {st : Nat} (other : c.laneState n ≠ st) (code : st < 16) :
    (c.laneTo n st).laneState n = st :=
  ((Chip.LaneKept.laneTo other).stat _ (by decide) (by decide)).trans (Chip.f_setF_of_lt _ _ _ _ (by decide) code)

theorem Chip.laneTo_lastFail {c : Chip} {n : Fin 8} {st : Nat} (other : c.laneState n ≠ st) :
    (c.laneTo n st).f (R.LANE_STAT n) F.LANE_STAT_LAST_FAIL = c.f (R.LANE_STAT n) F.LANE_STAT_LAST_FAIL :=
  ((Chip.LaneKept.laneTo other).stat _ (by decide) (by decide)).trans (Chip.f_setF_beside _ _ _ _ _ (by decide) (by decide))

theorem Chip.laneTo_trainFails {c : Chip} {n : Fin 8} {st : Nat} (other : c.laneState n ≠ st) :
    (c.laneTo n st).f (R.LANE_CNT_1 n) F.LANE_CNT_1_TRAIN_FAILS = c.f (R.LANE_CNT_1 n) F.LANE_CNT_1_TRAIN_FAILS :=
  ((Chip.LaneKept.laneTo other).fails _ (by decide)).trans (Chip.f_setF_ne _ _ _ _ _ _ (by simp [R.LANE_STAT, R.LANE_CNT_1]))

end Sys2Proof.Machine

namespace Sys2Proof.Machine

/-! ### Training (O39) -/

/-- A change of the training of lane `n`. -/
def Chip.updTr (c : Chip) (n : Nat) (g : Train → Train) : Chip := c.updLane n fun l => { l with tr := g l.tr }

theorem Chip.tr_updTr {c : Chip} {n : Nat} (listed : n < c.lanes.length) (g : Train → Train) :
    ((c.updTr n g).lane n).tr = g (c.lane n).tr := congrArg LaneSt.tr (Chip.lane_updLane listed _)

theorem Chip.lanes_length_updTr (c : Chip) (n : Nat) (g : Train → Train) : (c.updTr n g).lanes.length = c.lanes.length :=
  List.length_modify ..

/-- FOM of lane `n` shown, measured from the codes without a mismatch (R423). -/
def Chip.fomShown (c : Chip) (n : Nat) (codes : BitVec 8) : Chip := c.setF (R.LANE_STAT n) F.LANE_STAT_FOM (min 255 (2 * codes.toNat))

theorem Chip.fomShown_kept (c : Chip) (n : Nat) (codes : BitVec 8) : Chip.Kept false [R.LANE_STAT n] [.lanes] c (c.fomShown n codes) :=
  Chip.Kept.refl.setF (by simp)

theorem Chip.fomShown_fom (c : Chip) (n : Nat) (codes : BitVec 8) :
    (c.fomShown n codes).f (R.LANE_STAT n) F.LANE_STAT_FOM = min 255 (2 * codes.toNat) :=
  Chip.f_setF_of_lt _ _ _ _ (by decide) (lt_of_le_of_lt (min_le_left _ _) (by decide))

/-- The better of the best preset so far and preset `p` with figure of merit `f` (R424). -/
def Train.keepBest (t : Train) (p f : Nat) : Train := if t.best < f then { t with best := f, bp := some p } else t

theorem Train.keepBest_best (t : Train) (p f : Nat) : (t.keepBest p f).best = max t.best f := by
  unfold keepBest
  split <;> simp <;> omega

theorem Train.keepBest_bp (t : Train) (p f : Nat) : (t.keepBest p f).bp = if t.best < f then some p else t.bp := by
  unfold keepBest
  split <;> rfl

/-- The best preset kept in lane `n`. -/
def Chip.bestKept (c : Chip) (n p f : Nat) : Chip :=
  if (c.lane n).tr.best < f then c.updTr n fun t => { t with best := f, bp := some p } else c

theorem Chip.bestKept_kept (c : Chip) (n p f : Nat) : Chip.Kept false [] [.lanes] c (c.bestKept n p f) :=
  .ite (Chip.Kept.refl.updLane (by simp)) .refl

theorem Chip.bestKept_tr {c : Chip} {n : Nat} (listed : n < c.lanes.length) (p f : Nat) :
    ((c.bestKept n p f).lane n).tr = (c.lane n).tr.keepBest p f ∧ n < (c.bestKept n p f).lanes.length := by
  unfold Chip.bestKept Train.keepBest
  split
  next better => exact ⟨Chip.tr_updTr listed _, (c.lanes_length_updTr n _).symm ▸ listed⟩
  next => exact ⟨rfl, listed⟩

/-- The best preset asked for in lane `n`, an open one where none had a figure of merit above 0 (R424). -/
def Chip.bestAsked (c : Chip) (n : Nat) : Chip :=
  let (b, c) : Nat × Chip := match (c.lane n).tr.bp with | some b => (b, c) | none => c.freeN 8
  c.updTr n fun t => { t with step := .best, sub := .req, bp := some b }

theorem Chip.bestAsked_some {c : Chip} {n b : Nat} (best : (c.lane n).tr.bp = some b) :
    c.bestAsked n = c.updTr n fun t => { t with step := .best, sub := .req, bp := some b } := by
  rw [Chip.bestAsked, best]

/-- A round improved to figure of merit `f`. -/
def Train.improvedTo (f : Nat) (t : Train) : Train := { t with best := f, improved := true }

/-- The tap step `post inc` asked for, with `improved` as the round has it. -/
def Train.tapAsked (post inc improved : Bool) (t : Train) : Train :=
  { t with step := .tap post inc, sub := .req, improved := improved, upd := false }

section
variable {n : Fin 8} {s : State} (codes : BitVec 8)

/-- ADAPT_WAIT_END of a wait in the preset phase, presets left: the next preset is asked for (R424). -/
theorem doAdaptWaitEnd_preset {p q : Nat} {r : List Nat} (awake : Awake (P.LANE n) s) (state : s.chip.laneState n = Ls.train)
    (sub : (s.chip.lane n).tr.sub = .adapt) (step : (s.chip.lane n).tr.step = .preset p) (todo : (s.chip.lane n).tr.todo = q :: r) :
    doAdaptWaitEnd n codes s.chip = ((s.chip.fomShown n codes).bestKept n p (min 255 (2 * codes.toNat))).updTr n fun t =>
      { t with step := .preset q, sub := .req, todo := r } := by
  rw [doAdaptWaitEnd, Chip.clocked_awake awake]
  simp only [state, sub, step, todo, ne_eq, not_true_eq_false, or_self, if_false]
  rfl

/-- ADAPT_WAIT_END after the last preset: the best one is asked for (R424). -/
theorem doAdaptWaitEnd_lastPreset {p : Nat} (awake : Awake (P.LANE n) s) (state : s.chip.laneState n = Ls.train)
    (sub : (s.chip.lane n).tr.sub = .adapt) (step : (s.chip.lane n).tr.step = .preset p) (todo : (s.chip.lane n).tr.todo = []) :
    doAdaptWaitEnd n codes s.chip = ((s.chip.fomShown n codes).bestKept n p (min 255 (2 * codes.toNat))).bestAsked n := by
  rw [doAdaptWaitEnd, Chip.clocked_awake awake]
  simp only [state, sub, step, todo, ne_eq, not_true_eq_false, or_self, if_false]
  rfl

/-- A tap step without the improvement asked for is taken back (R424). -/
theorem doAdaptWaitEnd_undo {post inc : Bool} (awake : Awake (P.LANE n) s) (state : s.chip.laneState n = Ls.train)
    (sub : (s.chip.lane n).tr.sub = .adapt) (step : (s.chip.lane n).tr.step = .tap post inc)
    (short : min 255 (2 * codes.toNat) < (s.chip.lane n).tr.best + fget (s.chip.lane n).tr.cfg F.LANE_TRAIN_FOM_STEP) :
    doAdaptWaitEnd n codes s.chip = (s.chip.fomShown n codes).updTr n fun t => { t with step := .undo post inc, sub := .req } := by
  rw [doAdaptWaitEnd, Chip.clocked_awake awake]
  simp only [state, sub, step, ne_eq, not_true_eq_false, or_self, if_false]
  exact if_neg (Nat.not_le_of_lt short)

/-- A tap step with the improvement asked for is kept, and the search goes on (R424). -/
theorem doAdaptWaitEnd_improved {post inc : Bool} (awake : Awake (P.LANE n) s) (state : s.chip.laneState n = Ls.train)
    (sub : (s.chip.lane n).tr.sub = .adapt) (step : (s.chip.lane n).tr.step = .tap post inc)
    (improved : (s.chip.lane n).tr.best + fget (s.chip.lane n).tr.cfg F.LANE_TRAIN_FOM_STEP ≤ min 255 (2 * codes.toNat)) :
    doAdaptWaitEnd n codes s.chip =
      ((s.chip.fomShown n codes).updTr n (Train.improvedTo (min 255 (2 * codes.toNat)))).tapNext n post inc := by
  rw [doAdaptWaitEnd, Chip.clocked_awake awake]
  simp only [state, sub, step, ne_eq, not_true_eq_false, or_self, if_false]
  exact if_pos improved

end

/-- The search goes on with the next tap of the round. -/
theorem Chip.tapNext_within {n : Nat} {post inc p i : Bool} (c : Chip) (next : tapAfter post inc = some (p, i)) :
    c.tapNext n post inc = c.updTr n (Train.tapAsked p i (c.lane n).tr.improved) := by
  rw [Chip.tapNext, next]
  rfl

/-- A round goes on after every tap but the last. -/
theorem tapAfter_within : ∀ {post inc : Bool}, post = true ∨ inc = true → ∃ x, tapAfter post inc = some x := by decide

/-- A lane that trains its own search on a step is one of those listed. -/
theorem Chip.lane_listed_of_step {c : Chip} {n : Nat} {x : TrStep} (step : (c.lane n).tr.step = x) (other : x ≠ .done) : n < c.lanes.length :=
  Chip.lane_listed (fun l => l.tr.step = x) step fun reset => other reset.symm

/-! #### Training frames -/

/-- The status fields sent while no tap request stands, and a preset request or none (R422). -/
def Train.statusSent (presetSt : Bool) (t : Train) : Train := { t with preSt := 0, postSt := 0, presetSt := presetSt }

/-- A preset request puts the taps of the preset in force once while it stands (R422). -/
theorem Chip.applyRequest_preset {c : Chip} {n : Nat} {req : BitVec 16} (notInitial : req.getLsbD 15 = false) (asked : req.getLsbD 14 = true)
    (fresh : (c.lane n).tr.presetSt = false) : c.applyRequest n req =
      (c.setTaps n (preset (req.toNat / 2 ^ 11 % 8)).1 (preset (req.toNat / 2 ^ 11 % 8)).2).updTr n (Train.statusSent true) := by
  simp only [Chip.applyRequest, notInitial, asked, fresh, Bool.false_or, if_true, Bool.false_eq_true, if_false]
  rfl

/-- Without a request the taps stay in force, and no status stands (R422). -/
theorem Chip.applyRequest_none (c : Chip) (n : Nat) : c.applyRequest n 0 =
    (c.setTaps n (c.f (R.LANE_TXACT n) F.LANE_TXACT_PRE) (c.f (R.LANE_TXACT n) F.LANE_TXACT_POST)).updTr n
      (Train.statusSent false) := rfl

/-- A search that is over reads no status. -/
theorem Chip.readStatus_done {c : Chip} {n : Nat} (st : BitVec 16) (step : (c.lane n).tr.step = .done) : c.readStatus n st = c := by
  simp only [Chip.readStatus, step]

/-- The consecutive frames with RX_READY after a frame with status `st` (R422). -/
def Train.counted (st : BitVec 16) (t : Train) : Train := { t with rdy := if st.getLsbD 15 then t.rdy + 1 else 0 }

/-- TRAINING_FRAME_RX of a valid frame in TRAIN, the own search over (R421, R422). -/
theorem doTrainingFrameRx_searched {n : Fin 8} {s : State} {rq st crc : BitVec 16} {d : Chip} (awake : Awake (P.LANE n) s)
    (state : s.chip.laneState n = Ls.train) (valid : crc.toNat = crc16 (rq ++ st)) (applied : s.chip.applyRequest n rq = d)
    (listed : n < d.lanes.length) (step : (d.lane n).tr.step = .done) (stays : d.laneState n = Ls.train) :
    doTrainingFrameRx n rq st crc s.chip = (d.updTr n (Train.counted st)).trainDone n := by
  have counted : ((d.updTr n (Train.counted st)).lane n).tr.step = .done := by rw [Chip.tr_updTr listed]; exact step
  rw [doTrainingFrameRx, Chip.clocked_awake awake, if_neg (by simp [state, valid]), applied]
  exact (congrArg (fun e : Chip => if e.laneState n = Ls.train then e.trainDone n else e) (Chip.readStatus_done st counted)).trans
    (if_pos stays)

/-- TRAINING_FRAME_RX of a frame whose CRC fails, or in another state (R421). -/
theorem doTrainingFrameRx_ignored {n : Fin 8} {c : Chip} {rq st crc : BitVec 16}
    (ignored : crc.toNat ≠ crc16 (rq ++ st) ∨ c.laneState n ≠ Ls.train) : doTrainingFrameRx n rq st crc c = c := by
  rw [doTrainingFrameRx, Chip.clocked, if_pos ignored.symm, ite_self]

theorem Chip.setTaps_state (c : Chip) (n pre post : Nat) : (c.setTaps n pre post).laneState n = c.laneState n :=
  Chip.f_congr (Chip.rd_wr_ne _ _ _ _ (by simp [R.LANE_TXACT, R.LANE_STAT])) _

/-- Taps within their fields are those shown. -/
theorem Chip.setTaps_shown (c : Chip) (n : Nat) {pre post : Nat} (preFits : pre < 16) (postFits : post < 32) :
    (c.setTaps n pre post).f (R.LANE_TXACT n) F.LANE_TXACT_PRE = pre
      ∧ (c.setTaps n pre post).f (R.LANE_TXACT n) F.LANE_TXACT_POST = post := by
  simp only [Chip.setTaps, Chip.f, Chip.wrN, Chip.rd_wr_same, fget, wd, BitVec.toNat_ofNat, F.LANE_TXACT_PRE, F.LANE_TXACT_POST]
  omega

theorem preset_fits : ∀ p < 8, (preset p).1 < 16 ∧ (preset p).2 < 32 := by decide

/-- Fewer than 16 frames with RX_READY do not complete the training. -/
theorem Chip.trainDone_early {c : Chip} {n : Nat} (early : (c.lane n).tr.rdy < 16) : c.trainDone n = c :=
  if_neg (by simp [early])

/-- The training completes once both receivers are ready (R422). -/
theorem Chip.trainDone_state {c : Chip} {n : Fin 8} (ready : (c.lane n).tr.ready = true) (frames : 16 ≤ (c.lane n).tr.rdy)
    (state : c.laneState n = Ls.train) : (c.trainDone n).laneState n = Ls.lock := by
  rw [Chip.trainDone, if_pos (by simp [ready, frames])]
  exact Chip.laneTo_state (by rw [state]; decide) (by decide)

section
variable {n : Fin 8} {s : State} {rq st crc : BitVec 16} (awake : Awake (P.LANE n) s) (state : s.chip.laneState n = Ls.train)
  (valid : crc.toNat = crc16 (rq ++ st)) (step : (s.chip.lane n).tr.step = .done)
include awake state valid step

/-- A valid frame that sends no status of taps, the own search over: taps in force, statuses and the count of frames follow. -/
theorem doTrainingFrameRx_taps {pre post : Nat} {presetSt : Bool} (listed : n < s.chip.lanes.length)
    (applied : s.chip.applyRequest n rq = (s.chip.setTaps n pre post).updTr n (Train.statusSent presetSt)) :
    doTrainingFrameRx n rq st crc s.chip =
        (((s.chip.setTaps n pre post).updTr n (Train.statusSent presetSt)).updTr n (Train.counted st)).trainDone n
      ∧ ((((s.chip.setTaps n pre post).updTr n (Train.statusSent presetSt)).updTr n (Train.counted st)).lane n).tr
        = ((s.chip.lane n).tr.statusSent presetSt).counted st := by
  have sent := Chip.tr_updTr (c := s.chip.setTaps n pre post) listed (Train.statusSent presetSt)
  have listed' : n < ((s.chip.setTaps n pre post).updTr n (Train.statusSent presetSt)).lanes.length :=
    (Chip.lanes_length_updTr ..).symm ▸ listed
  refine ⟨doTrainingFrameRx_searched awake state valid applied listed' (by rw [sent]; exact step)
    ((s.chip.setTaps_state n pre post).trans state), ?_⟩
  rw [Chip.tr_updTr listed', sent]
  rfl

/-- TRAINING_FRAME_RX with a preset request, without RX_READY (R422). -/
theorem doTrainingFrameRx_preset (notInitial : rq.getLsbD 15 = false) (asked : rq.getLsbD 14 = true)
    (fresh : (s.chip.lane n).tr.presetSt = false) (unready : st.getLsbD 15 = false) (listed : n < s.chip.lanes.length) :
    Chip.Kept false [R.LANE_TXACT n] [.lanes] s.chip (doTrainingFrameRx n rq st crc s.chip)
      ∧ (doTrainingFrameRx n rq st crc s.chip).f (R.LANE_TXACT n) F.LANE_TXACT_PRE = (preset (rq.toNat / 2 ^ 11 % 8)).1
      ∧ (doTrainingFrameRx n rq st crc s.chip).f (R.LANE_TXACT n) F.LANE_TXACT_POST = (preset (rq.toNat / 2 ^ 11 % 8)).2
      ∧ ((doTrainingFrameRx n rq st crc s.chip).lane n).tr.presetSt = true
      ∧ ((doTrainingFrameRx n rq st crc s.chip).lane n).tr.rdy = 0 := by
  obtain ⟨pre, post⟩ := preset_fits _ (Nat.mod_lt (rq.toNat / 2 ^ 11) (by decide : 0 < 8))
  obtain ⟨taken, tr⟩ := doTrainingFrameRx_taps awake state valid step listed (Chip.applyRequest_preset notInitial asked fresh)
  have none : (((s.chip.lane n).tr.statusSent true).counted st).rdy = 0 := by rw [Train.counted, unready]; rfl
  rw [taken, Chip.trainDone_early (by rw [tr, none]; decide)]
  obtain ⟨preShown, postShown⟩ := s.chip.setTaps_shown n pre post
  exact ⟨((Chip.Kept.refl.wrN (by simp)).updLane (by simp)).updLane (by simp), preShown, postShown, by rw [tr]; rfl, by rw [tr, none]⟩

/-- TRAINING_FRAME_RX of the sixteenth frame in a row with RX_READY, the own receiver ready (R422). -/
theorem doTrainingFrameRx_completes (hold : rq = 0) (ready : (s.chip.lane n).tr.ready = true) (status : st.getLsbD 15 = true)
    (frames : 15 ≤ (s.chip.lane n).tr.rdy) : (doTrainingFrameRx n rq st crc s.chip).laneState n = Ls.lock := by
  subst hold
  have listed : n < s.chip.lanes.length := Chip.lane_listed (fun l => l.tr.ready = true) ready (by decide)
  obtain ⟨taken, tr⟩ := doTrainingFrameRx_taps awake state valid step listed (s.chip.applyRequest_none n)
  rw [taken]
  refine Chip.trainDone_state (by rw [tr]; exact ready) ?_ ((s.chip.setTaps_state n _ _).trans state)
  rw [tr, Train.counted, status]
  exact Nat.succ_le_succ frames

end

/-! #### Time-out -/

/-- The failure counted (R420). -/
def Chip.failCounted (c : Chip) (n : Nat) : Chip :=
  ((c.incSat (R.LANE_CNT_1 n) F.LANE_CNT_1_TRAIN_FAILS).raise (P.LANE n) 1).updLane n fun l => { l with fails := l.fails + 1 }

/-- The next lower rate where FALLBACK asks for it (R420). -/
def Chip.rateLowered (c : Chip) (n : Nat) : Chip :=
  let r := c.f (R.LANE_STAT n) F.LANE_STAT_RATE_ACT
  if c.is (R.LANE_CTL n) F.LANE_CTL_FALLBACK && decide (2 ≤ (c.lane n).fails) && decide (0 < r) then
    (c.setF (R.LANE_STAT n) F.LANE_STAT_RATE_ACT (r - 1)).updLane n fun l => { l with fails := 0 }
  else c

theorem Chip.trainFail_eq (c : Chip) (n cause : Nat) : c.trainFail n cause = ((c.failCounted n).rateLowered n).laneFail n cause := rfl

theorem Chip.failCounted_shown (c : Chip) (n : Fin 8) : (c.failCounted n).laneState n = c.laneState n
    ∧ (c.failCounted n).f (R.LANE_CNT_1 n) F.LANE_CNT_1_TRAIN_FAILS
      = min (c.f (R.LANE_CNT_1 n) F.LANE_CNT_1_TRAIN_FAILS + 1) (2 ^ F.LANE_CNT_1_TRAIN_FAILS.width - 1) := by
  have event {k : Nat} (shown : k ∈ laneShowRegs n) :=
    (c.incSat (R.LANE_CNT_1 n) F.LANE_CNT_1_TRAIN_FAILS).rd_raise_lane n 1 (page_lane n) shown
  exact ⟨(Chip.f_congr (event (by simp [laneShowRegs])) _).trans (Chip.f_setF_ne _ _ _ _ _ _ (by simp [R.LANE_CNT_1, R.LANE_STAT])),
    (Chip.f_congr (event (by simp [laneShowRegs])) _).trans (Chip.f_incSat _ _ (by decide) _)⟩

theorem Chip.rateLowered_shown (c : Chip) (n : Nat) : (c.rateLowered n).laneState n = c.laneState n
    ∧ (c.rateLowered n).f (R.LANE_CNT_1 n) F.LANE_CNT_1_TRAIN_FAILS = c.f (R.LANE_CNT_1 n) F.LANE_CNT_1_TRAIN_FAILS := by
  unfold Chip.rateLowered Chip.laneState
  dsimp only
  refine ⟨Chip.f_ite ?_ rfl, Chip.f_ite ?_ rfl⟩
  · rw [Chip.updLane_f, Chip.f_setF_beside _ _ _ _ _ (by decide) (by decide)]
  · rw [Chip.updLane_f, Chip.f_setF_ne _ _ _ _ _ _ (by simp [R.LANE_STAT, R.LANE_CNT_1])]

/-- A lane that fails to HOLDOFF shows the cause. -/
theorem Chip.laneFail_shown {c : Chip} {n : Fin 8} {cause : Nat} (other : c.laneState n ≠ Ls.holdoff) (code : cause < 16) :
    (c.laneFail n cause).laneState n = Ls.holdoff ∧ (c.laneFail n cause).f (R.LANE_STAT n) F.LANE_STAT_LAST_FAIL = cause
      ∧ (c.laneFail n cause).f (R.LANE_CNT_1 n) F.LANE_CNT_1_TRAIN_FAILS = c.f (R.LANE_CNT_1 n) F.LANE_CNT_1_TRAIN_FAILS := by
  have before : (c.setF (R.LANE_STAT n) F.LANE_STAT_LAST_FAIL cause).laneState n ≠ Ls.holdoff := by
    rwa [Chip.laneState, Chip.f_setF_beside _ _ _ _ _ (by decide) (by decide)]
  exact ⟨Chip.laneTo_state before (by decide), (Chip.laneTo_lastFail before).trans (Chip.f_setF_of_lt _ _ _ _ (by decide) code),
    (Chip.laneTo_trainFails before).trans (Chip.f_setF_ne _ _ _ _ _ _ (by simp [R.LANE_STAT, R.LANE_CNT_1]))⟩

/-- TRAIN_TIMEOUT in TRAIN (R418). -/
theorem doTrainTimeout_trains {n : Fin 8} {s : State} (awake : Awake (P.LANE n) s) (state : s.chip.laneState n = Ls.train) :
    (doTrainTimeout n s.chip).laneState n = Ls.holdoff
      ∧ (doTrainTimeout n s.chip).f (R.LANE_STAT n) F.LANE_STAT_LAST_FAIL = Lf.trainTmo
      ∧ (doTrainTimeout n s.chip).f (R.LANE_CNT_1 n) F.LANE_CNT_1_TRAIN_FAILS
        = min (s.chip.f (R.LANE_CNT_1 n) F.LANE_CNT_1_TRAIN_FAILS + 1) (2 ^ F.LANE_CNT_1_TRAIN_FAILS.width - 1) := by
  obtain ⟨trains, counted⟩ := s.chip.failCounted_shown n
  obtain ⟨same, kept⟩ := (s.chip.failCounted n).rateLowered_shown n
  obtain ⟨holdoff, cause, fails⟩ := Chip.laneFail_shown (c := (s.chip.failCounted n).rateLowered n) (n := n) (cause := Lf.trainTmo)
    (by rw [same, trains, state]; decide) (by decide)
  rw [doTrainTimeout, Chip.clocked_awake awake, if_pos state, Chip.trainFail_eq]
  exact ⟨holdoff, cause, fails.trans (kept.trans counted)⟩

/-- Settles O39: a step of the search changes the training of its lane alone (`Chip.updTr`), and a lane's STAT and counts of failures are
read off the change of state that follows (`Chip.LaneKept`). -/
theorem laneTrainingCommands : Obligations.LaneTrainingCommands := by
  refine ⟨?_, ?_, ?_, ?_, ?_, ?_, ?_, ?_⟩
  · intro n codes p q r s awake state sub step todo
    obtain ⟨best, listed⟩ := Chip.bestKept_tr (c := s.chip.fomShown n codes) (Chip.lane_listed_of_step step (by simp)) p
      (min 255 (2 * codes.toNat))
    have tr := Chip.tr_updTr listed fun t => { t with step := .preset q, sub := .req, todo := r }
    refine ⟨_, State.next_onChip (doAdaptWaitEnd_preset codes awake state sub step todo), ⟨⟨rfl, rfl⟩,
      ((s.chip.fomShown_kept n codes).trans ((Chip.bestKept_kept ..).mono (by simp) (by simp))).updLane (by simp)⟩, ?_, ?_, ?_, ?_, ?_, ?_⟩
    · exact (Chip.f_congr ((Chip.bestKept_kept ..).regs _ (by simp) (by simp)) _).trans (Chip.fomShown_fom ..)
    · rw [tr]
    · rw [tr]
    · rw [tr]
    · rw [tr, best]
      exact Train.keepBest_best ..
    · rw [tr, best]
      exact Train.keepBest_bp ..
  · intro n codes p b s awake state sub step todo chosen
    obtain ⟨best, listed⟩ := Chip.bestKept_tr (c := s.chip.fomShown n codes) (Chip.lane_listed_of_step step (by simp)) p
      (min 255 (2 * codes.toNat))
    have tr := Chip.tr_updTr listed fun t => { t with step := .best, sub := .req, bp := some b }
    have asked := (doAdaptWaitEnd_lastPreset codes awake state sub step todo).trans
      (Chip.bestAsked_some (b := b) (by rw [best, Train.keepBest_bp]; exact chosen))
    refine ⟨_, State.next_onChip asked, ⟨⟨rfl, rfl⟩,
      ((s.chip.fomShown_kept n codes).trans ((Chip.bestKept_kept ..).mono (by simp) (by simp))).updLane (by simp)⟩, ?_, ?_, ?_⟩ <;> rw [tr]
  · intro n codes post inc s awake state sub step short
    have tr := Chip.tr_updTr (c := s.chip.fomShown n codes) (Chip.lane_listed_of_step step (by simp)) fun t =>
      { t with step := .undo post inc, sub := .req }
    refine ⟨_, State.next_onChip (doAdaptWaitEnd_undo codes awake state sub step short), ⟨⟨rfl, rfl⟩,
      (s.chip.fomShown_kept n codes).updLane (by simp)⟩, ?_, ?_, ?_⟩ <;> rw [tr]
    rfl
  · intro n codes post inc s awake state sub step within improved
    have listed : n < (s.chip.fomShown n codes).lanes.length := Chip.lane_listed_of_step step (by simp)
    obtain ⟨⟨p, i⟩, next⟩ := tapAfter_within within
    have kept := Chip.tr_updTr listed (Train.improvedTo (min 255 (2 * codes.toNat)))
    have tr := Chip.tr_updTr (c := (s.chip.fomShown n codes).updTr n (Train.improvedTo (min 255 (2 * codes.toNat))))
      ((Chip.lanes_length_updTr ..).symm ▸ listed) (Train.tapAsked p i
      (((s.chip.fomShown n codes).updTr n (Train.improvedTo (min 255 (2 * codes.toNat)))).lane n).tr.improved)
    refine ⟨_, State.next_onChip ((doAdaptWaitEnd_improved codes awake state sub step improved).trans (Chip.tapNext_within _ next)),
      ⟨⟨rfl, rfl⟩, (((s.chip.fomShown_kept n codes).updLane (by simp)).updLane (by simp))⟩, ?_, ?_, ?_⟩
    · rw [tr, next]
      rfl
    · rw [tr, kept]
      rfl
    · rw [tr, kept]
      rfl
  · intro n rq st crc s awake state valid notInitial asked fresh step unready listed
    obtain ⟨kept, shown⟩ := doTrainingFrameRx_preset awake state valid step notInitial asked fresh unready listed
    exact ⟨_, rfl, ⟨⟨rfl, rfl⟩, kept⟩, shown⟩
  · exact fun n rq st crc s awake state valid hold step ready status frames =>
      ⟨_, rfl, ⟨rfl, rfl⟩, doTrainingFrameRx_completes awake state valid step hold ready status frames⟩
  · intro n rq st crc s ignored
    exact ⟨_, State.next_onChip (doTrainingFrameRx_ignored ignored), rfl⟩
  · exact fun n s awake state => ⟨_, rfl, ⟨rfl, rfl⟩, doTrainTimeout_trains awake state⟩

end Sys2Proof.Machine

namespace Sys2Proof.Machine

/-! ### Packets on a lane and link-level retry (O40) -/

/-- Only what a change does to the entry it meets matters. -/
theorem upd_congr {α : Type} {l : List α} {i : Nat} {f g : α → α} (x : α) (agree : f (nth l i x) = g (nth l i x)) : upd l i f = upd l i g := by
  refine List.ext_getElem? fun j => ?_
  simp only [upd, List.getElem?_modify]
  by_cases here : i = j
  · subst here
    cases entry : l[i]? with
    | none => rfl
    | some a =>
      have found : nth l i x = a := by rw [nth, List.getD_eq_getElem?_getD, entry, Option.getD_some]
      simpa [found] using agree
  · simp [here]

/-- A change that leaves the entry it meets as it is. -/
theorem upd_eq_self {α : Type} {l : List α} {i : Nat} {g : α → α} (x : α) (same : g (nth l i x) = nth l i x) : upd l i g = l :=
  (upd_congr (g := id) x same).trans (List.modify_id ..)

theorem nth_upd_ne {α : Type} (l : List α) {i j : Nat} (other : i ≠ j) (g : α → α) (x : α) : nth (upd l i g) j x = nth l j x := by
  rw [nth, nth, List.getD_eq_getElem?_getD, List.getD_eq_getElem?_getD, upd, List.getElem?_modify]
  simp [other]

theorem Chip.lane_updLane_ne (c : Chip) {n m : Nat} (other : n ≠ m) (g : LaneSt → LaneSt) : (c.updLane n g).lane m = c.lane m :=
  nth_upd_ne _ other _ _

theorem Chip.lanes_length_updLane (c : Chip) (n : Nat) (g : LaneSt → LaneSt) : (c.updLane n g).lanes.length = c.lanes.length :=
  List.length_modify ..

theorem Chip.lane_updLane_beyond {c : Chip} {n : Nat} (beyond : ¬ n < c.lanes.length) (g : LaneSt → LaneSt) :
    (c.updLane n g).lane n = c.lane n := by
  rw [Chip.lane, Chip.lane, Chip.updLane, upd, List.modify_eq_self (Nat.le_of_not_lt beyond)]

/-- A lane with packets in its retry buffer is one of those listed. -/
theorem Chip.lane_listed_of_buf {c : Chip} {n : Nat} (held : (c.lane n).buf ≠ []) : n < c.lanes.length :=
  Chip.lane_listed (fun l => l.buf ≠ []) held (by simp)

/-! #### Blocks on the line -/

/-- The blocks of a packet are data blocks (R416). -/
theorem lineBlocks_data (r : BitVec 58) (l : List (BitVec 64)) : ∀ b ∈ (lineBlocks r l).1, b.extractLsb 65 64 = 0b01#2 := by
  induction l generalizing r with
  | nil => simp [lineBlocks]
  | cons d l ih =>
    rw [lineBlocks]
    intro b among
    rcases List.mem_cons.mp among with rfl | later
    · exact BitVec.extractLsb'_append_eq_left
    · exact ih _ b later

theorem lineBlocks_cons (r : BitVec 58) (d : BitVec 64) (l : List (BitVec 64)) : (lineBlocks r (d :: l)).1 ≠ [] := by simp [lineBlocks]

/-- The blocks of packet `p` and the scrambler's register after them. -/
def Chip.blocks (c : Chip) (p : Packet) : List (BitVec 66) × BitVec 58 :=
  lineBlocks ((c.freeW.2.freeW.1 ++ c.freeW.2.freeW.2.freeW.1).setWidth 58)
    (blockWords (p.header ++ p.words.map (·.toNat) ++ [packetCrc p, c.freeW.1.toNat]))

theorem Chip.blocks_ne_nil (c : Chip) (p : Packet) : (c.blocks p).1 ≠ [] := by
  simp only [Chip.blocks, Packet.header, List.cons_append, blockWords]
  exact lineBlocks_cons _ _ _

theorem Chip.lineSend_eq (c : Chip) (n : Nat) (p : Packet) : c.lineSend n p =
    c.freeW.2.freeW.2.freeW.2.updLane n fun l => { l with line := l.line ++ (c.blocks p).1, scr := (c.blocks p).2 } := by
  simp only [Chip.lineSend, Chip.blocks, Chip.freeW]

/-- What sending on lane `n` leaves as it was: all but the blocks on its line. -/
structure Chip.LineOnly (n : Nat) (c d : Chip) : Prop where
  kept : Chip.Kept false [] [.lanes, .free] c d
  others : ∀ m, n ≠ m → d.lane m = c.lane m
  own : ∃ line scr, d.lane n = { c.lane n with line := line, scr := scr }
  listed : d.lanes.length = c.lanes.length

namespace Chip.LineOnly
variable {n : Nat} {c d e : Chip}

theorem trans (h : Chip.LineOnly n c d) (g : Chip.LineOnly n d e) : Chip.LineOnly n c e := by
  obtain ⟨_, _, first⟩ := h.own
  obtain ⟨line, scr, second⟩ := g.own
  exact ⟨h.kept.trans g.kept, fun m other => (g.others m other).trans (h.others m other), ⟨line, scr, by rw [second, first]⟩,
    g.listed.trans h.listed⟩

theorem updLane {g : LaneSt → LaneSt} (line : ∀ l, ∃ x y, g l = { l with line := x, scr := y }) : Chip.LineOnly n c (c.updLane n g) := by
  refine ⟨Chip.Kept.refl.updLane (by simp), fun m other => c.lane_updLane_ne other g, ?_, c.lanes_length_updLane n g⟩
  by_cases listed : n < c.lanes.length
  · rw [Chip.lane_updLane listed]
    exact line _
  · exact ⟨_, _, Chip.lane_updLane_beyond listed g⟩

theorem lineSend (c : Chip) (n : Nat) (p : Packet) : Chip.LineOnly n c (c.lineSend n p) := by
  have drawn : Chip.LineOnly n c c.freeW.2.freeW.2.freeW.2 :=
    ⟨((Chip.Kept.refl.freeW (by simp)).freeW (by simp)).freeW (by simp), fun _ _ => rfl, ⟨_, _, rfl⟩, rfl⟩
  rw [Chip.lineSend_eq]
  exact drawn.trans (updLane fun _ => ⟨_, _, rfl⟩)

theorem transmit (c : Chip) (n : Nat) (ps : List Packet) : Chip.LineOnly n c (c.transmit n ps) :=
  foldl_inv (Chip.LineOnly n c) ps _ _ (updLane fun l => ⟨[], l.scr, rfl⟩) fun _ _ sent => sent.trans (lineSend ..)

end Chip.LineOnly

/-! #### Acknowledgements (R430) -/

/-- An acknowledgement frees every packet up to the one it names. -/
theorem ackBuf_upTo {seq : Nat} {a b : List (Nat × Bool × Packet)} {e : Nat × Bool × Packet} (named : e.1 = seq)
    (before : (a.all fun x => decide (x.1 ≠ seq)) = true) : ackBuf seq (a ++ e :: b) = b := by
  rw [ackBuf, if_pos (by simp [named]), List.dropWhile_append_of_pos (by simpa using before), List.dropWhile_cons_of_neg (by simp [named])]
  rfl

/-- LINK_ACK_RX of a held packet's number. -/
theorem doLinkAckRx_frees {n : Fin 8} {seq : BitVec 12} {a b : List (Nat × Bool × Packet)} {e : Nat × Bool × Packet} {s : State}
    (awake : Awake (P.LANE n) s) (state : s.chip.laneState n = Ls.active) (buf : (s.chip.lane n).buf = a ++ e :: b)
    (named : e.1 = seq.toNat) (before : (a.all fun x => decide (x.1 ≠ seq.toNat)) = true) :
    doLinkAckRx n seq s.chip = s.chip.updLane n fun l => { l with buf := b, replays := 0 } := by
  have left := ackBuf_upTo (b := b) named before
  have shorter : b.length < (a ++ e :: b).length := by simp; omega
  rw [doLinkAckRx, Chip.clocked_awake awake, if_pos (by simp [Chip.laneUp, state, Ls.active])]
  refine congrArg (fun ls => { s.chip with lanes := ls }) (upd_congr {} ?_)
  have held : (nth s.chip.lanes n {}).buf = a ++ e :: b := buf
  simp only [held, left, shorter, if_true]

/-! #### Replays (R430, R431) -/

section
variable {c : Chip} {n : Fin 8} (state : c.laneState n = Ls.active) (held : (c.lane n).buf ≠ [])
include state held

/-- A replay is sent and counted. -/
theorem Chip.replay_counted (few : (c.lane n).replays < 8) :
    Chip.Kept false [R.LANE_CNT_0 n] [.lanes, .free] c (c.replay n) ∧ ((c.replay n).lane n).replays = (c.lane n).replays + 1
      ∧ ((c.replay n).lane n).buf = (c.lane n).buf ∧ (∀ m, m ≠ n.val → (c.replay n).lane m = c.lane m)
      ∧ (c.replay n).f (R.LANE_CNT_0 n) F.LANE_CNT_0_REPLAYS
        = min (c.f (R.LANE_CNT_0 n) F.LANE_CNT_0_REPLAYS + 1) (2 ^ F.LANE_CNT_0_REPLAYS.width - 1) := by
  have sent := Chip.LineOnly.transmit c n ((c.lane n).buf.map fun e => e.2.2)
  obtain ⟨_, _, own⟩ := sent.own
  have lane := Chip.lane_updLane (c := c.transmit n ((c.lane n).buf.map fun e => e.2.2)) (sent.listed.symm ▸ Chip.lane_listed_of_buf held)
    fun l => { l with replays := l.replays + 1 }
  rw [Chip.replay, if_neg (by simp [Chip.laneUp, state, Ls.active, held]), if_pos few]
  refine ⟨((sent.kept.mono (by simp) (by simp)).updLane (by simp)).incSat (by simp), ?_, ?_, fun m other => ?_, ?_⟩
  · exact (congrArg LaneSt.replays lane).trans (by rw [own])
  · exact (congrArg LaneSt.buf lane).trans (by rw [own])
  · exact (Chip.lane_updLane_ne _ other.symm _).trans (sent.others m other.symm)
  · rw [Chip.f_incSat _ _ (by decide), Chip.updLane_f, sent.kept.f_eq (by simp) (by simp)]

/-- A ninth replay trains again. -/
theorem Chip.replay_exhausted (many : 8 ≤ (c.lane n).replays) :
    (c.replay n).laneState n = Ls.train ∧ (c.replay n).f (R.LANE_STAT n) F.LANE_STAT_LAST_FAIL = Lf.retryExh := by
  have event {x : Fld} : ((c.setF (R.LANE_STAT n) F.LANE_STAT_LAST_FAIL Lf.retryExh).raise (P.LANE n) 2).f (R.LANE_STAT n) x
      = (c.setF (R.LANE_STAT n) F.LANE_STAT_LAST_FAIL Lf.retryExh).f (R.LANE_STAT n) x :=
    Chip.f_congr (Chip.rd_raise_lane _ n 2 (page_lane n) (by simp [laneShowRegs])) x
  have other : ((c.setF (R.LANE_STAT n) F.LANE_STAT_LAST_FAIL Lf.retryExh).raise (P.LANE n) 2).laneState n ≠ Ls.train := by
    rw [Chip.laneState, event, Chip.f_setF_beside _ _ _ _ _ (by decide) (by decide), ← Chip.laneState, state]
    decide
  rw [Chip.replay, if_neg (by simp [Chip.laneUp, state, Ls.active, held]), if_neg (Nat.not_lt_of_le many)]
  refine ⟨(Chip.updLane_f ..).trans (Chip.laneTo_state other (by decide)), (Chip.updLane_f ..).trans ((Chip.laneTo_lastFail other).trans ?_)⟩
  rw [event]
  exact Chip.f_setF_of_lt _ _ _ _ (by decide) (by decide)

end

/-! #### Receiving (R429, R454, R471) -/

/-- Nothing is delivered where no packet waits. -/
theorem State.drain_empty {s : State} (empty : s.chip.fab.inbox = []) : s.drain = s := by
  have still : (s.chip.updFab fun f => { f with inbox := [] }) = s.chip :=
    congrArg (fun i => { s.chip with fab := { s.chip.fab with inbox := i } }) empty.symm
  rw [State.drain, empty, List.foldl_nil, State.onChip, still]

/-- PACKET_RX where the receiver delivers nothing here. -/
theorem mdPacketRx_undelivered {n : Fin 8} {seq : BitVec 12} {p : Packet} {crc : BitVec 32} {s : State} {d : Chip} (awake : Awake (P.LANE n) s)
    (received : s.chip.linkRx n seq.toNat p crc.toNat = d) (empty : d.fab.inbox = []) :
    mdPacketRx n seq p crc s = { s with chip := d } := by
  obtain ⟨powered, running, unhalted⟩ := awake
  rw [mdPacketRx, if_pos (by simp [Chip.clockOn, powered, running, unhalted]), State.onChip, received]
  exact State.drain_empty empty

theorem Chip.linkNak_kept (c : Chip) (n : Nat) : Chip.Kept false [R.LANE_CNT_0 n] [.lanes] c (c.linkNak n) :=
  .ite .refl ((Chip.Kept.refl.updLane (by simp)).incSat (by simp))

/-- A NAK is out for what the receiver discarded. -/
theorem Chip.linkNak_lanes (c : Chip) (n : Nat) : (c.linkNak n).lanes = upd c.lanes n fun l => { l with nak := true } := by
  unfold Chip.linkNak
  split
  next out => exact (upd_eq_self {} (congrArg (fun b => { c.lane n with nak := b }) out.symm)).symm
  next => rfl

theorem Chip.dropPkt_crc (c : Chip) (p : Packet) : ∃ info, c.dropPkt p Dc.crc =
    ((c.wrN R.FAB_DROP_INFO info).incSat R.FAB_CNT_0 F.FAB_CNT_0_DROPS).raise P.FAB 2 := ⟨_, if_neg (by simp)⟩

theorem lane_cnt_ne_drops : ∀ n : Fin 8, R.FAB_CNT_0 ∉ [R.LANE_CNT_0 n] := by decide

/-- A packet with a wrong CRC is discarded, counted and reported to nobody, and asked for again (R429, R472). -/
theorem Chip.linkRx_wrongCrc {c : Chip} {n : Fin 8} {seq crc : Nat} {p : Packet} (state : c.laneState n = Ls.active)
    (wrong : crc ≠ packetCrc p) : (c.linkRx n seq p crc).lanes = upd c.lanes n (fun l => { l with nak := true })
      ∧ (c.linkRx n seq p crc).fab = c.fab ∧ (c.linkRx n seq p crc).out = c.out
      ∧ (c.linkRx n seq p crc).f R.FAB_CNT_0 F.FAB_CNT_0_DROPS
        = min (c.f R.FAB_CNT_0 F.FAB_CNT_0_DROPS + 1) (2 ^ F.FAB_CNT_0_DROPS.width - 1) := by
  obtain ⟨info, dropped⟩ := c.dropPkt_crc p
  have nak := (c.dropPkt p Dc.crc).linkNak_kept n
  rw [Chip.linkRx, if_neg (by simp [Chip.laneUp, state, Ls.active]), if_pos wrong]
  refine ⟨?_, ?_, ?_, ?_⟩
  · rw [Chip.linkNak_lanes, dropped, Chip.raise_lanes _ _ _ (by decide)]
    rfl
  · refine (nak.parts .fab (by simp) (by simp) (by simp)).trans ?_
    rw [dropped, Chip.raise_fab _ _ _ (by decide)]
    rfl
  · refine (nak.parts .out (by simp) (by simp) (by simp)).trans ?_
    rw [dropped, Chip.raise_out _ _ _ (by decide)]
    rfl
  · rw [nak.f_eq (by simp) (lane_cnt_ne_drops n), dropped, Chip.f_raise _ _ _ _ _ (by decide) (by decide), Chip.f_incSat _ _ (by decide),
      Chip.wrN, Chip.f_congr (Chip.rd_wr_ne _ _ _ _ (by decide))]

/-- A packet out of order is only asked for again (R429). -/
theorem Chip.linkRx_outOfOrder {c : Chip} {n seq crc : Nat} {p : Packet} (state : c.laneState n = Ls.active) (right : crc = packetCrc p)
    (other : seq ≠ (c.lane n).rxSeq) : c.linkRx n seq p crc = c.linkNak n := by
  rw [Chip.linkRx, if_neg (by simp [Chip.laneUp, state, Ls.active]), if_neg (by simp [right]), if_pos other]

/-- The receiver of lane `n` has taken the packet it expected. -/
def Chip.received (c : Chip) (n : Nat) : Chip := c.updLane n fun l => { l with rxSeq := (l.rxSeq + 1) % 4096, nak := false }

/-- A kind that R456 knows goes on a virtual channel below 6. -/
theorem kindRow_vc {k : Nat} {r : Nat × List Nat × SesUse} (row : kindRow k = some r) : r.1 < 6 := by
  unfold kindRow at row
  split at row <;> cases row <;> decide

theorem Chip.vc_of_kindOk {c : Chip} {p : Packet} (ok : c.kindOk p = true) : p.vc.toNat < 6 := by
  unfold Chip.kindOk at ok
  split at ok
  · contradiction
  next vc casts use row =>
    have same : p.vc.toNat = vc := by
      simp only [Bool.and_eq_true, decide_eq_true_eq] at ok
      exact ok.1.1.1
    rw [same]
    exact kindRow_vc row

/-- A packet in order is taken and goes on (R429). -/
theorem Chip.linkRx_inOrder {c : Chip} {n seq crc : Nat} {p : Packet} (state : c.laneState n = Ls.active) (right : crc = packetCrc p)
    (next : seq = (c.lane n).rxSeq) (ok : c.kindOk p = true) : c.linkRx n seq p crc =
      if p.kind.toNat ≤ 4 then (c.received n).deliverHere (planeOf n) (some n) p else (c.received n).routePkt (planeOf n) (some n) p := by
  have known : (c.received n).kindOk p = true := ok
  rw [Chip.linkRx, if_neg (by simp [Chip.laneUp, state, Ls.active]), if_neg (by simp [right]), if_neg (by simp [next])]
  change (c.received n).accept n p = _
  rw [Chip.accept, if_neg (Nat.not_le_of_lt (Chip.vc_of_kindOk ok)), if_neg (by simp [known])]

/-- A unicast packet in transit joins the queue of its next hop, HOPS counted (R455, R471). -/
theorem Chip.routePkt_transit {c : Chip} {pl n m : Nat} {p : Packet} (cast : p.cast = 0) (on : c.planeOn pl = true)
    (shallow : nth c.fab.deep pl false = false) (hop : c.hop pl p.dest.toNat p.dn = .out m) (left : p.hops ≠ p.hopLimit)
    (forwards : c.forwards pl = true) : c.routePkt pl (some n) p = c.enqueue m (some n) { p with hops := p.hops + 1 } := by
  have passes : c.transitBar pl (some n) p = none := by
    rw [Chip.transitBar, if_neg (by simp), if_neg left, if_neg (by simp [forwards])]
  have unicast : p.cast.toNat = 0 := congrArg BitVec.toNat cast
  rw [Chip.routePkt, if_neg (by simp [on, shallow])]
  simp only [unicast, Chip.unicast, hop, Chip.forwardTo, passes, List.foldl_nil, Chip.toward, Option.isSome_some, if_true]

/-- A packet in the clear is taken as it is (R486). -/
theorem State.take_plain {s : State} {p : Packet} (pl : Nat) (inL : Option Nat) (clock : s.chip.clockOn = true) (plain : p.enc = false) :
    s.take (pl, inL, p) = s.takePlain pl inL p := by
  rw [State.take, if_neg (by simp [clock]), Chip.unprotect, if_pos (by simp [plain])]

/-- A DELAY_REQ through lane `n` at its consumer. -/
theorem State.takePlain_delayReq {p : Packet} (s : State) (pl : Nat) (n : Fin 8) (kind : p.kind = 2) : s.takePlain pl (some n.val) p =
    s.onChip fun c => (doDelayReqRx n p c).giveBack (some n.val) p.vc.toNat := by
  have code : p.kind.toNat = 2 := congrArg BitVec.toNat kind
  have lane : Fin.ofNat 8 n.val = n := Fin.ofNat_val_eq_self n
  simp only [State.takePlain, code, Option.getD_some, lane]

/-- The answer to DELAY_REQ `p` through lane `n`: its arrival and the answer's own transmission (R481). -/
def Chip.delayAnswer (c : Chip) (n : Nat) (p : Packet) : Packet :=
  c.packet 0x03 0 0 0 c.ses0 p.tag.toNat (stampWords (c.ballTime n false) ++ stampWords (c.ballTime n true))

/-- The answer rests on the registers and the time alone. -/
theorem Chip.delayAnswer_congr {c d : Chip} (regs : d.regs = c.regs) (time : d.time = c.time) (n : Nat) (p : Packet) :
    d.delayAnswer n p = c.delayAnswer n p := by
  have f : d.f = c.f := by
    funext k x
    rw [Chip.f, Chip.f, Chip.rd, Chip.rd, regs]
  have is : d.is = c.is := by
    funext k x
    rw [Chip.is, Chip.is, f]
  simp only [Chip.delayAnswer, Chip.packet, Chip.ses0, Chip.ballTime, Chip.htNs, f, is, time]

/-- A DELAY_REQ that is admitted is answered. -/
theorem doDelayReqRx_answers {c : Chip} {p : Packet} (n : Fin 8) (clock : c.clockOn = true) (admitted : c.admitted p = none) :
    doDelayReqRx n p c = c.emit (c.delayAnswer n p) 0 (some n.val) := by
  rw [doDelayReqRx, Chip.consume, Chip.via, if_pos clock, admitted]
  rfl

/-- The packets delivered here have been handed out. -/
def Chip.handedOut (c : Chip) : Chip := c.updFab fun f => { f with inbox := [] }

theorem State.drain_single {s : State} {x : Nat × Option Nat × Packet} (waits : s.chip.fab.inbox = [x]) :
    s.drain = (s.onChip Chip.handedOut).take x := by
  rw [State.drain, waits]
  rfl

/-- DELAY_REQ `p` taken through lane `n` and answered with `q`. -/
def Chip.answered (c : Chip) (n : Nat) (p q : Packet) : Chip :=
  (((c.received n).deliverHere (planeOf n) (some n) p).handedOut.emit q 0 (some n)).giveBack (some n) p.vc.toNat

theorem Chip.answered_shown (c : Chip) (n : Nat) (p q : Packet) :
    (c.answered n p q).fab.inbox = [] ∧ (c.answered n p q).out = c.out ++ [⟨q, 0, some n, false⟩] := ⟨rfl, rfl⟩

/-- PACKET_RX of a DELAY_REQ in order. -/
theorem mdPacketRx_delayReq {n : Fin 8} {seq : BitVec 12} {p : Packet} {crc : BitVec 32} {s : State} (awake : Awake (P.LANE n) s)
    (state : s.chip.laneState n = Ls.active) (empty : s.chip.fab.inbox = []) (right : crc.toNat = packetCrc p)
    (next : seq.toNat = (s.chip.lane n).rxSeq) (kind : p.kind = 2) (plain : p.enc = false) (admitted : s.chip.admitted p = none) :
    mdPacketRx n seq p crc s = { s with chip := s.chip.answered n p (s.chip.delayAnswer n p) } := by
  obtain ⟨powered, running, unhalted⟩ := awake
  have clock : s.chip.clockOn = true := by simp [Chip.clockOn, powered, running]
  have ok : s.chip.kindOk p = true := by
    by_contra scope
    rw [Chip.admitted, if_pos (by simpa using scope)] at admitted
    contradiction
  have taken : s.chip.linkRx n seq.toNat p crc.toNat = (s.chip.received n).deliverHere (planeOf n) (some n.val) p :=
    (Chip.linkRx_inOrder state right next ok).trans (if_pos (by rw [kind]; decide))
  have waits : ((s.chip.received n).deliverHere (planeOf n) (some n.val) p).fab.inbox = [(planeOf n, some n.val, p)] :=
    congrArg (· ++ [(planeOf n, some n.val, p)]) empty
  have answered : doDelayReqRx n p ((s.chip.received n).deliverHere (planeOf n) (some n.val) p).handedOut = _ :=
    doDelayReqRx_answers n clock admitted
  have sameAnswer := Chip.delayAnswer_congr (c := s.chip) (d := ((s.chip.received n).deliverHere (planeOf n) (some n.val) p).handedOut) rfl rfl
    n p
  rw [sameAnswer] at answered
  rw [mdPacketRx, if_pos (by simp [clock, unhalted]), State.onChip, taken]
  calc
    _ = State.take _ (planeOf n, some n.val, p) :=
      State.drain_single (s := { s with chip := (s.chip.received n).deliverHere (planeOf n) (some n.val) p }) waits
    _ = State.takePlain _ (planeOf n) (some n.val) p := State.take_plain _ _ clock plain
    _ = State.onChip _ _ := State.takePlain_delayReq _ _ _ kind
    _ = _ := congrArg (fun d : Chip => { s with chip := d.giveBack (some n.val) p.vc.toNat }) answered

/-! #### Sending (R476, R477) -/

theorem Chip.inject_none {c : Chip} (none : c.out = []) : c.inject = c := by
  rw [Chip.inject, none, List.foldl_nil]
  exact congrArg (fun o => { c with out := o }) none.symm

theorem Chip.giveBack_lane (c : Chip) (inL : Option Nat) (vc n : Nat) :
    ∃ freed, (c.giveBack inL vc).lane n = { c.lane n with freed := freed } := by
  cases inL with
  | none => exact ⟨_, rfl⟩
  | some m =>
    by_cases here : m = n
    · subst here
      by_cases listed : m < c.lanes.length
      · exact ⟨_, Chip.lane_updLane listed _⟩
      · exact ⟨_, Chip.lane_updLane_beyond listed _⟩
    · exact ⟨_, Chip.lane_updLane_ne _ here _⟩

/-- PACKET_SEND of lane `n`: the head `x` of virtual channel `v` goes into the retry buffer. -/
def LaneSt.sends (down : Bool) (us v : Nat) (x : Option Nat × Packet) (l : LaneSt) : LaneSt :=
  { l with
    vq := dropHead v l.vq, buf := l.buf ++ [(l.seq, x.2.dn, { x.2 with dn := x.2.dn || down })], seq := (l.seq + 1) % 4096,
    cred := upd l.cred v (· - 1), lastTime := if v = 0 then some us else l.lastTime }

/-- The lane whose turn it is sends (R477). -/
theorem Chip.laneSend_eq {c : Chip} {n v : Nat} {x : Option Nat × Packet} (state : c.laneState n = Ls.active)
    (room : (c.lane n).buf.length < 64) (turn : (c.lane n).pick (c.htNs / 1000) = some v) (head : (c.lane n).head v = some x) :
    c.laneSend n = ((c.updLane n (LaneSt.sends (decide (c.laneDir n = 1)) (c.htNs / 1000) v x)).transmit n
      [{ x.2 with dn := x.2.dn || decide (c.laneDir n = 1) }]).giveBack x.1 v := by
  rw [Chip.laneSend]
  simp only [turn, head]
  exact if_neg (by simp [Chip.laneUp, state, Ls.active, room])

/-- One packet on a lane's line: its blocks are data blocks. -/
theorem Chip.transmit_line {c : Chip} {n : Nat} (listed : n < c.lanes.length) (p : Packet) :
    ((c.transmit n [p]).lane n).line ≠ [] ∧ ∀ b ∈ ((c.transmit n [p]).lane n).line, b.extractLsb 65 64 = 0b01#2 := by
  have cleared := Chip.lane_updLane listed fun l => { l with line := [] }
  have sent : ((c.transmit n [p]).lane n).line = ((c.updLane n fun l => { l with line := [] }).blocks p).1 := by
    rw [Chip.transmit, List.foldl_cons, List.foldl_nil, Chip.lineSend_eq, Chip.lane_updLane ((c.lanes_length_updLane n _).symm ▸ listed)]
    exact congrArg (fun l : LaneSt => l.line ++ _) cleared
  rw [sent]
  exact ⟨Chip.blocks_ne_nil _ _, lineBlocks_data _ _⟩

/-- The packet whose turn it is goes into the retry buffer and out on the line in data blocks (R416, R429, R477). -/
theorem Chip.laneSend_shown {c : Chip} {n v : Nat} {x : Option Nat × Packet} (state : c.laneState n = Ls.active)
    (room : (c.lane n).buf.length < 64) (turn : (c.lane n).pick (c.htNs / 1000) = some v) (head : (c.lane n).head v = some x) :
    Chip.Kept false [] [.lanes, .free] c (c.laneSend n)
      ∧ ((c.laneSend n).lane n).buf = (c.lane n).buf ++ [((c.lane n).seq, x.2.dn, { x.2 with dn := x.2.dn || decide (c.laneDir n = 1) })]
      ∧ ((c.laneSend n).lane n).seq = ((c.lane n).seq + 1) % 4096 ∧ ((c.laneSend n).lane n).vq = dropHead v (c.lane n).vq
      ∧ ((c.laneSend n).lane n).cred = upd (c.lane n).cred v (· - 1) ∧ ((c.laneSend n).lane n).line ≠ []
      ∧ ∀ b ∈ ((c.laneSend n).lane n).line, b.extractLsb 65 64 = 0b01#2 := by
  have listed : n < c.lanes.length := Chip.lane_listed (fun l => l.head v = some x) head (by simp [LaneSt.head])
  rw [Chip.laneSend_eq state room turn head]
  generalize decide (c.laneDir n = 1) = down
  generalize c.htNs / 1000 = us
  have queued := Chip.lane_updLane listed (LaneSt.sends down us v x)
  have sent := Chip.LineOnly.transmit (c.updLane n (LaneSt.sends down us v x)) n [{ x.2 with dn := x.2.dn || down }]
  obtain ⟨line, scr, own⟩ := sent.own
  obtain ⟨notEmpty, data⟩ := Chip.transmit_line (c := c.updLane n (LaneSt.sends down us v x)) ((c.lanes_length_updLane n _).symm ▸ listed)
    { x.2 with dn := x.2.dn || down }
  obtain ⟨freed, back⟩ := Chip.giveBack_lane ((c.updLane n (LaneSt.sends down us v x)).transmit n [{ x.2 with dn := x.2.dn || down }])
    x.1 v n
  refine ⟨((Chip.Kept.refl.updLane (by simp)).trans sent.kept).trans ((Chip.giveBack_kept ..).mono (by simp) (by simp)), ?_⟩
  rw [back]
  refine ⟨?_, ?_, ?_, ?_, notEmpty, data⟩ <;> rw [own, queued] <;> rfl

/-- PACKET_SEND where nothing waits for the router or for a consumer. -/
theorem mdPacketSend_alone {n : Fin 8} {s : State} {d : Chip} (awake : Awake (P.LANE n) s) (out : s.chip.out = [])
    (sent : s.chip.laneSend n = d) (empty : d.fab.inbox = []) : mdPacketSend n s = { s with chip := d } := by
  obtain ⟨powered, running, unhalted⟩ := awake
  rw [mdPacketSend, if_pos (by simp [Chip.clockOn, powered, running, unhalted]), State.onChip, Chip.inject_none out, sent]
  exact State.drain_empty empty

/-- Settles O40: a replay and a packet sent change, of their lane, the line beside what they say (`Chip.LineOnly`); a packet received goes
through the cases of `Chip.linkRx`. -/
theorem laneLinkCommands : Obligations.LaneLinkCommands := by
  refine ⟨?_, ?_, ?_, ?_, ?_, ?_, ?_, ?_, ?_, ?_, ?_⟩
  · intro n seq a e b s awake state buf named before
    exact ⟨_, State.next_onChip (doLinkAckRx_frees awake state buf named before), ⟨⟨rfl, rfl⟩, Chip.Kept.refl.updLane (by simp)⟩, rfl⟩
  · intro n s _ _
    exact ⟨_, State.next_onChip (d := s.chip) (ite_self _), ⟨rfl, rfl⟩, .refl⟩
  · intro n seq s awake state held few
    obtain ⟨kept, shown⟩ := Chip.replay_counted state held few
    exact ⟨_, State.next_onChip (Chip.clocked_awake awake _), ⟨⟨rfl, rfl⟩, kept⟩, shown⟩
  · exact fun n seq s awake state held many =>
      ⟨_, State.next_onChip (Chip.clocked_awake awake _), ⟨rfl, rfl⟩, Chip.replay_exhausted state held many⟩
  · intro n s awake state held few
    obtain ⟨kept, shown⟩ := Chip.replay_counted state held few
    exact ⟨_, State.next_onChip (Chip.clocked_awake awake _), ⟨⟨rfl, rfl⟩, kept⟩, shown⟩
  · exact fun n s awake state held many =>
      ⟨_, State.next_onChip (Chip.clocked_awake awake _), ⟨rfl, rfl⟩, Chip.replay_exhausted state held many⟩
  · intro n seq p crc s awake state empty wrong
    obtain ⟨lanes, fab, out, drops⟩ := Chip.linkRx_wrongCrc (seq := seq.toNat) state wrong
    exact ⟨_, congrArg Host.Outcome.next (mdPacketRx_undelivered awake rfl (by rw [fab]; exact empty)), ⟨rfl, rfl⟩, lanes, out, drops⟩
  · intro n seq p crc s awake state empty right other
    have nak := s.chip.linkNak_kept n
    exact ⟨_, congrArg Host.Outcome.next (mdPacketRx_undelivered awake (Chip.linkRx_outOfOrder state right other)
      (by rw [nak.parts .fab (by simp) (by simp) (by simp)]; exact empty)), ⟨⟨rfl, rfl⟩, nak⟩, s.chip.linkNak_lanes n⟩
  · intro n seq p crc m s awake state empty right next ok kind cast on shallow hop left forwards
    have taken : s.chip.linkRx n seq.toNat p crc.toNat
        = (s.chip.received n).enqueue m (some n.val) { p with hops := p.hops + 1 } :=
      ((Chip.linkRx_inOrder state right next ok).trans (if_neg (Nat.not_le_of_lt kind))).trans
        (Chip.routePkt_transit (c := s.chip.received n) cast on shallow hop left forwards)
    exact ⟨_, congrArg Host.Outcome.next (mdPacketRx_undelivered awake taken empty),
      ⟨⟨rfl, rfl⟩, (Chip.Kept.refl.updLane (by simp)).updLane (by simp)⟩, rfl, rfl⟩
  · intro n seq p crc s awake state empty right next kind plain admitted
    exact ⟨_, congrArg Host.Outcome.next (mdPacketRx_delayReq awake state empty right next kind plain admitted), ⟨rfl, rfl⟩,
      Chip.answered_shown ..⟩
  · intro n v x s awake state empty out room turn head
    obtain ⟨kept, shown⟩ := Chip.laneSend_shown state room turn head
    have fab : (s.chip.laneSend n).fab = s.chip.fab := kept.parts .fab (by simp) (by simp) (by simp)
    exact ⟨_, congrArg Host.Outcome.next (mdPacketSend_alone awake out rfl (by rw [fab]; exact empty)),
      ⟨⟨rfl, rfl⟩, kept.mono (by simp) (by simp)⟩, fab, shown⟩

end Sys2Proof.Machine

namespace Sys2Proof.Machine

/-! ### What a cause of the safe state leaves of the Sheepdog's own marks -/

/-- The marks of the Sheepdog that no cause changes: whether a start-up test failed (R503) and whether a grace time runs (R523). -/
structure Chip.Marked (failed grace : Bool) (c : Chip) : Prop where
  startup : c.safe.startupFailed = failed
  grace : c.safe.graceRun = grace

namespace Chip.Marked
variable {failed grace : Bool} {c d : Chip}

theorem ite {p : Prop} [Decidable p] (h : c.Marked failed grace) (hd : d.Marked failed grace) :
    (if p then c else d).Marked failed grace := by split <;> assumption

/-- The marks stand in the safety part alone. -/
theorem of_safe (h : c.Marked failed grace) (hs : d.safe = c.safe) : d.Marked failed grace := ⟨hs ▸ h.startup, hs ▸ h.grace⟩

/-- What a frame beside the safety part keeps. -/
theorem keep {ks : List Nat} {ps : List Part} (h : c.Marked failed grace) (kept : Chip.Kept true ks ps c d) (hp : .safe ∉ ps) :
    d.Marked failed grace := h.of_safe (kept.parts .safe (by simp) (by simp) hp)

theorem wr (h : c.Marked failed grace) {k : Nat} {v : Word} : (c.wr k v).Marked failed grace := h.of_safe rfl

theorem setF (h : c.Marked failed grace) {k n : Nat} {x : Fld} : (c.setF k x n).Marked failed grace := h.wr

theorem wr64 (h : c.Marked failed grace) {k n : Nat} : (c.wr64 k n).Marked failed grace := h.wr.wr

/-- The safety part with the marks as they are. -/
theorem setSafe {x : SafeSt} (hs : x.startupFailed = failed) (hg : x.graceRun = grace) :
    ({ c with safe := x } : Chip).Marked failed grace := ⟨hs, hg⟩

theorem setMode (h : c.Marked failed grace) {m : Mode} : ({ c with mode := m } : Chip).Marked failed grace := h.of_safe rfl

theorem updSout (h : c.Marked failed grace) {n : Nat} {g : SoutCh → SoutCh} : (c.updSout n g).Marked failed grace :=
  setSafe h.startup h.grace

theorem raise (h : c.Marked failed grace) {b i : Nat} (hb : b % 0x1000 = 0) : (c.raise b i).Marked failed grace :=
  h.of_safe (Chip.raise_safe c b i hb)

theorem lapRec (h : c.Marked failed grace) {r : LapRec} : (c.lapRec r).Marked failed grace :=
  h.of_safe (Chip.lapRec_beside c r).safe

theorem gdiOut (h : c.Marked failed grace) {n : Nat} (hn : n < 16) : (c.gdiOut n).Marked failed grace :=
  h.keep (Chip.Kept.refl.gdiOut hn (List.mem_singleton_self _) (List.mem_singleton_self _)) (by simp)

theorem shdOff (h : c.Marked failed grace) {b : Bool} : (c.shdOff b).Marked failed grace :=
  keep (forN_inv_lt (Chip.Marked failed grace) 16 _ c h fun _ hn _ hd => gdiOut hd.wr hn) (Chip.lapLevels_kept _) (by simp)

theorem gates (h : c.Marked failed grace) : c.gates.Marked failed grace :=
  forN_inv_lt (Chip.Marked failed grace) 16 _ c h fun n hn d hd => by
    obtain ⟨e, out, before⟩ := d.chOut_eq n
    rw [out]
    exact (hd.keep before (by simp)).gdiOut hn

theorem soutUpdate (h : c.Marked failed grace) : c.soutUpdate.Marked failed grace :=
  wr (forN_inv (Chip.Marked failed grace) 8 _ c h fun _ _ hd => ite (updSout hd.wr) hd)

theorem setSgr (h : c.Marked failed grace) {b : Bool} : (c.setSgr b).Marked failed grace := soutUpdate (setSafe h.startup h.grace)

theorem tripBreaker (h : c.Marked failed grace) : c.tripBreaker.Marked failed grace :=
  ite h (soutUpdate (forN_inv (Chip.Marked failed grace) 8 _ _ h.wr fun _ _ hd => ite hd.updSout hd))

theorem latch (h : c.Marked failed grace) {code cls idx : Nat} : (c.latch code cls idx).Marked failed grace := by
  have first : ∀ {e : Chip}, e.Marked failed grace →
      ((({ e with safe := { e.safe with injectDue := true } } : Chip).shdOff true).raise P.SHD 0).Marked failed grace := fun {e} he =>
    raise (shdOff (setSafe (x := { e.safe with injectDue := true }) he.startup he.grace)) (by decide)
  have recorded := fun e (he : Chip.Marked failed grace e) => ite (p := (!c.is R.SHD_STAT F.SHD_STAT_LATCH) = true)
    (he.setSgr (b := false)) he
  have seen : ∀ {e : Chip} {n : Nat}, e.Marked failed grace → (e.orBits R.SHD_CAUSES_SEEN n).Marked failed grace := fun he => he.wr
  exact ite (tripBreaker (recorded _ (seen (ite (first h.wr.wr) h)))) (recorded _ (seen (ite (first h.wr.wr) h)))

/-- A change of the device state (R43). -/
theorem enter (h : c.Marked failed grace) {m : Mode} : (c.enter m).Marked failed grace := by
  unfold Chip.enter
  refine ite h (ite (gates ?_) ?_) <;>
    exact lapRec (raise (wr64 (setF (setMode h.setF))) (by decide))

theorem enterSafe (h : c.Marked failed grace) {code : Nat} : (c.enterSafe code).Marked failed grace := by
  unfold Chip.enterSafe
  have ended : ∀ {e : Chip}, e.Marked failed grace →
      ({ e with safe := { e.safe with stopping := false } } : Chip).Marked failed grace := fun he =>
    setSafe he.startup he.grace
  refine ite h (keep (ks := []) (ps := []) (enter (ended ?_)) Chip.Kept.refl.pacerOnSafe (by simp))
  exact wr (wr (wr (ite (wr h) h)))

theorem logIt (h : c.Marked failed grace) {kind : Nat} {l : List Byte} : (c.logIt kind l).Marked failed grace := by
  have shown : ∀ {e : Chip}, e.Marked failed grace → e.logShow.Marked failed grace := fun he => he.wr.wr
  have lost : ({ c with safe := { c.safe with lostDue := c.safe.lostDue + 1 } } : Chip).Marked failed grace := setSafe h.startup h.grace
  exact ite h (ite (shown (setSafe h.startup h.grace)) (ite (shown (setSafe h.startup h.grace)) (ite (raise lost.wr (by decide)) lost.wr)))

/-- A safety cause leaves the marks (R29, R499). -/
theorem cause (h : c.Marked failed grace) {code cls idx : Nat} : (c.cause code cls idx).Marked failed grace :=
  ite (ite h.latch.enterSafe.logIt h.latch.enterSafe) h

end Chip.Marked
end Sys2Proof.Machine

namespace Sys2Proof.Machine

/-! ### Safety inputs (O22) -/

/-- A bit beside the one that was set is as before. -/
theorem Chip.bit_setBit_ne (c : Chip) (k : Nat) {i j : Nat} (b : Bool) (hj : j < 32) (other : i ≠ j) :
    (c.setBit k i b).bit k j = c.bit k j := by
  rw [Chip.bit_eq_is, Chip.bit_eq_is]
  exact Chip.is_flag_beside _ _ _ _ _ hj (Nat.lt_or_gt_of_ne other.symm)

theorem Chip.bit_congr {c d : Chip} {k : Nat} (h : d.rd k = c.rd k) (i : Nat) : d.bit k i = c.bit k i := by rw [Chip.bit, Chip.bit, h]

/-- An entry of a list and its change, also past the end where the change leaves what is read there as it is. -/
theorem nth_upd_of_default {α : Type} (l : List α) (i : Nat) {g : α → α} {x : α} (hx : g x = x) :
    nth (upd l i g) i x = g (nth l i x) := by
  by_cases listed : i < l.length
  · exact nth_upd_same listed g x
  · simp [nth, upd, listed, hx]

theorem evKey_scfg_sin : ∀ k < 8, evKey (R.SCFG_SIN k) = false := by decide

theorem sin_state_notMem_cause : R.SIN_STATE ∉ R.SHD_STAT :: causeKeys := by decide
theorem shd_grace_rem_notMem_cause : R.SHD_GRACE_REM ∉ R.SHD_STAT :: causeKeys := by decide

theorem Chip.Kept.powered_eq {ev : Bool} {ks : List Nat} {ps : List Part} {c d : Chip} (h : Chip.Kept ev ks ps c d) (hp : .mode ∉ ps) :
    d.powered = c.powered := by rw [Chip.powered, Chip.powered, h.mode_eq hp]

/-- What a pair shows stands in SIN.STATE and SIN.STAT (R536). -/
theorem Chip.Kept.showPair {ev : Bool} {ks : List Nat} {ps : List Part} {c d : Chip} (h : Chip.Kept ev ks ps c d)
    (state : R.SIN_STATE ∈ ks) (stat : R.SIN_STAT ∈ ks) {k st : Nat} : Chip.Kept ev ks ps c (d.showPair k st) :=
  ((h.setF state).setBit stat).setBit stat

/-- The registers and parts that a cause of the safe state may touch (R499). -/
theorem Chip.cause_kept (c : Chip) (code cls idx : Nat) : Chip.Kept true (R.SHD_STAT :: causeKeys) causeParts c (c.cause code cls idx) :=
  Chip.Kept.refl.cause (fun _ hm => hm) fun _ hm => hm

section
variable {c : Chip} {k : Nat}

/-- A pair is in the state just shown. -/
theorem Chip.pairState_showPair (pair : k < 8) {st : Nat} (code : st < 8) : (c.showPair k st).pairState k = st := by
  have width : 3 * k + 2 + 1 - 3 * k = 3 := by omega
  have state : (c.setF R.SIN_STATE (pairFld k) st).f R.SIN_STATE (pairFld k) = st := by
    rw [Chip.f_setF _ _ _ _ (by simp only [pairFld]; omega)]
    simp only [pairFld, width]
    exact Nat.mod_eq_of_lt code
  rw [Chip.pairState, Chip.showPair, Chip.setBit, Chip.setBit, Chip.f_setF_ne _ _ _ _ _ _ (by decide),
    Chip.f_setF_ne _ _ _ _ _ _ (by decide), state]

/-- The debounced levels stand above what a pair shows in SIN.STAT. -/
theorem Chip.bit_showPair (pair : k < 8) (st : Nat) {i : Nat} (level : 16 ≤ i) (word : i < 32) :
    (c.showPair k st).bit R.SIN_STAT i = c.bit R.SIN_STAT i := by
  rw [Chip.showPair, Chip.bit_setBit_ne _ _ _ word (by omega), Chip.bit_setBit_ne _ _ _ word (by omega)]
  exact Chip.bit_congr (Chip.rd_setF_ne _ _ _ _ _ (by decide)) i

/-- SIN.STAT with the debounced levels of contacts A and B of pair `k` (R512). -/
def Chip.debounced (c : Chip) (k : Nat) (a b : Bool) : Chip := (c.setBit R.SIN_STAT (16 + 2 * k) a).setBit R.SIN_STAT (17 + 2 * k) b

theorem Chip.debounced_kept (a b : Bool) : Chip.Kept false [R.SIN_STAT] [] c (c.debounced k a b) :=
  (Chip.Kept.refl.setBit (by simp)).setBit (by simp)

theorem Chip.bits_debounced (pair : k < 8) (a b : Bool) : (c.debounced k a b).bit R.SIN_STAT (16 + 2 * k) = a
    ∧ (c.debounced k a b).bit R.SIN_STAT (17 + 2 * k) = b := by
  refine ⟨?_, Chip.bit_setBit _ _ _ (by omega)⟩
  rw [Chip.debounced, Chip.bit_setBit_ne _ _ _ (by omega) (by omega), Chip.bit_setBit _ _ _ (by omega)]

theorem Chip.pairState_debounced (a b : Bool) : (c.debounced k a b).pairState k = c.pairState k :=
  (Chip.debounced_kept a b).f_eq (by simp) (by decide) _

theorem Chip.contacts_debounced (pair : k < 8) (a b : Bool) : (c.debounced k a b).contacts k
    = (a, if c.is (R.SCFG_SIN k) F.SCFG_SIN_MODE then !b else b) := by
  obtain ⟨levelA, levelB⟩ := Chip.bits_debounced (c := c) pair a b
  have mode : (c.debounced k a b).is (R.SCFG_SIN k) F.SCFG_SIN_MODE = c.is (R.SCFG_SIN k) F.SCFG_SIN_MODE :=
    (Chip.debounced_kept a b).is_eq (by simp) (by simp [R.SCFG_SIN, R.SIN_STAT]; omega) _
  rw [Chip.contacts, levelA, levelB, mode]

theorem doSinContactChange_eq (k : Fin 8) (a b : Bool) (powered : c.powered = true) :
    doSinContactChange k a b c = (c.debounced k a b).pairEval k := Chip.viaShd_of powered _

/-- Pair `k` with the contacts of its evaluation noted, and the contact that started a wait. -/
def Chip.pairNoted (c : Chip) (k : Nat) (first : Bool) : Chip := c.updPair k fun x => { x with first := first, seen := c.contacts k }

/-- An evaluation of a pair by its next state (R513). -/
theorem Chip.pairEval_of {st : Nat} {first : Bool}
    (next : pairNext (c.pairState k) (c.pair k).first (c.pair k).seen (c.contacts k) = (st, first)) :
    c.pairEval k = if st = c.pairState k then c.pairNoted k first
      else if c.pairState k = Sp.permissive then ((c.pairNoted k first).showPair k st).demand k
      else ((c.pairNoted k first).showPair k st).raiseIf (decide (st = Sp.permissive)) P.SIN 0 := by
  unfold Chip.pairEval
  simp only [next]
  rfl

/-- Outside PERMISSIVE an evaluation is no demand: it shows the pair, and leaves the debounced levels (R513, R514). -/
theorem Chip.pairEval_shows (pair : k < 8) (state : c.pairState k ≠ Sp.permissive) :
    Chip.Kept true [R.SIN_STAT, R.SIN_STATE] [.shd] c (c.pairEval k)
      ∧ ∀ i, 16 ≤ i → i < 32 → (c.pairEval k).bit R.SIN_STAT i = c.bit R.SIN_STAT i := by
  generalize next : pairNext (c.pairState k) (c.pair k).first (c.pair k).seen (c.contacts k) = n
  obtain ⟨st, first⟩ := n
  rw [Chip.pairEval_of next, if_neg state]
  have noted : Chip.Kept true [R.SIN_STAT, R.SIN_STATE] [.shd] c (c.pairNoted k first) := Chip.Kept.refl.updPair (by simp)
  have raised := Chip.raiseIf_kept ((c.pairNoted k first).showPair k st) (decide (st = Sp.permissive)) (b := P.SIN) 0 (by decide)
  refine ⟨.ite noted ((noted.showPair (by simp) (by simp)).raiseIf (by decide)), fun i level word => ?_⟩
  split
  · rfl
  · rw [Chip.bit_congr (raised.regs _ (fun _ => by decide) (by simp)), Chip.bit_showPair pair _ level word]
    rfl

/-- Pair `k` with a demand counted and its event raised (R514). -/
def Chip.demandCounted (c : Chip) (k : Nat) : Chip := (c.incSat (R.SIN_DEMANDS (k / 4)) ⟨8 * (k % 4) + 7, 8 * (k % 4)⟩).raise P.SIN 0

theorem Chip.demandCounted_kept (c : Chip) (k : Nat) : Chip.Kept true [R.SIN_DEMANDS (k / 4)] [] c (c.demandCounted k) :=
  (Chip.Kept.refl.incSat (List.mem_singleton_self _)).raise (by decide)

/-- A demand with action SAFE is a cause of the safe state (R514). -/
theorem Chip.demand_safe (pair : k < 8) (safe : c.f (R.SCFG_SIN k) F.SCFG_SIN_ACT = 0) :
    c.demand k = (c.demandCounted k).cause 0x03 1 k := by
  have action : (c.demandCounted k).f (R.SCFG_SIN k) F.SCFG_SIN_ACT = 0 :=
    ((c.demandCounted_kept k).f_eq (fun _ => evKey_scfg_sin k pair) (by simp [R.SCFG_SIN, R.SIN_DEMANDS]; omega) _).trans safe
  unfold Chip.demandCounted at *
  unfold Chip.demand
  simp only [action]

/-- A cause of the safe state leaves what a pair shows (R499, R513). -/
theorem Chip.pair_cause {st code : Nat} (shown : c.pairState k = st) (powered : c.powered = true) (byte : code < 256) (cls idx : Nat) :
    (c.cause code cls idx).pairState k = st ∧ (c.cause code cls idx).is R.SHD_STAT F.SHD_STAT_LATCH = true
      ∧ (c.cause code cls idx).mode = .safe := by
  obtain ⟨safe, latch⟩ := Chip.safe_cause powered byte cls idx
  exact ⟨((c.cause_kept code cls idx).f_eq (fun _ => by decide) sin_state_notMem_cause _).trans shown, latch, safe⟩

/-- A demand with action SAFE latches the safe state and leaves what the pair shows (R514). -/
theorem Chip.demand_latches {st : Nat} (pair : k < 8) (safe : c.f (R.SCFG_SIN k) F.SCFG_SIN_ACT = 0) (shown : c.pairState k = st)
    (powered : c.powered = true) : (c.demand k).pairState k = st ∧ (c.demand k).is R.SHD_STAT F.SHD_STAT_LATCH = true
      ∧ (c.demand k).mode = .safe := by
  have counted := c.demandCounted_kept k
  have still : (c.demandCounted k).pairState k = st :=
    (counted.f_eq (fun _ => by decide) (by simp [R.SIN_STATE, R.SIN_DEMANDS]; omega) _).trans shown
  rw [Chip.demand_safe pair safe]
  exact Chip.pair_cause still ((counted.powered_eq (by simp)).trans powered) (by decide) _ _

/-- Both contacts of a permissive pair open with action SAFE: the pair is NONPERM and the safe state is latched (R513, R514). -/
theorem Chip.pairEval_opens (pair : k < 8) (powered : c.powered = true) (state : c.pairState k = Sp.permissive)
    (seen : (c.pair k).seen = (true, true)) (opened : c.contacts k = (false, false)) (safe : c.f (R.SCFG_SIN k) F.SCFG_SIN_ACT = 0) :
    (c.pairEval k).pairState k = Sp.nonperm ∧ (c.pairEval k).is R.SHD_STAT F.SHD_STAT_LATCH = true ∧ (c.pairEval k).mode = .safe := by
  have next : pairNext (c.pairState k) (c.pair k).first (c.pair k).seen (c.contacts k) = (Sp.nonperm, (c.pair k).first) := by
    rw [state, seen, opened]; rfl
  have shown : Chip.Kept true [R.SIN_STAT, R.SIN_STATE] [.shd] c ((c.pairNoted k (c.pair k).first).showPair k Sp.nonperm) :=
    Chip.Kept.showPair (Chip.Kept.refl.updPair (by simp)) (by simp) (by simp)
  rw [Chip.pairEval_of next, state, if_neg (by decide), if_pos rfl]
  exact Chip.demand_latches pair
    ((shown.f_eq (fun _ => evKey_scfg_sin k pair) (by simp [R.SCFG_SIN, R.SIN_STAT, R.SIN_STATE]; omega) _).trans safe)
    (Chip.pairState_showPair pair (by decide)) ((shown.powered_eq (by simp)).trans powered)

/-- SIN_CONTACT_CHANGE outside PERMISSIVE (R513). -/
theorem doSinContactChange_shows (k : Fin 8) (a b : Bool) (powered : c.powered = true) (state : c.pairState k ≠ Sp.permissive) :
    Chip.Kept true [R.SIN_STAT, R.SIN_STATE] [.shd] c (doSinContactChange k a b c)
      ∧ (doSinContactChange k a b c).bit R.SIN_STAT (16 + 2 * k.val) = a
      ∧ (doSinContactChange k a b c).bit R.SIN_STAT (17 + 2 * k.val) = b := by
  have pair := k.isLt
  obtain ⟨kept, levels⟩ := Chip.pairEval_shows (c := c.debounced k a b) pair (by rwa [Chip.pairState_debounced])
  obtain ⟨levelA, levelB⟩ := Chip.bits_debounced (c := c) pair a b
  rw [doSinContactChange_eq k a b powered]
  exact ⟨((Chip.debounced_kept a b).toEv.mono (by simp) (by simp)).trans kept, (levels _ (by omega) (by omega)).trans levelA,
    (levels _ (by omega) (by omega)).trans levelB⟩

/-- SIN_CONTACT_CHANGE that opens both contacts of a permissive pair with action SAFE (R513, R514). -/
theorem doSinContactChange_opens (k : Fin 8) (powered : c.powered = true) (state : c.pairState k = Sp.permissive)
    (seen : (c.pair k).seen = (true, true)) (safe : c.f (R.SCFG_SIN k) F.SCFG_SIN_ACT = 0) :
    let d := doSinContactChange k false (c.is (R.SCFG_SIN k) F.SCFG_SIN_MODE) c
    d.pairState k = Sp.nonperm ∧ d.is R.SHD_STAT F.SHD_STAT_LATCH = true ∧ d.mode = .safe := by
  have pair := k.isLt
  have kept := Chip.debounced_kept (c := c) (k := k) false (c.is (R.SCFG_SIN k) F.SCFG_SIN_MODE)
  have opened : (c.debounced k false (c.is (R.SCFG_SIN k) F.SCFG_SIN_MODE)).contacts k = (false, false) := by
    rw [Chip.contacts_debounced pair]
    cases c.is (R.SCFG_SIN k) F.SCFG_SIN_MODE <;> rfl
  rw [doSinContactChange_eq k _ _ powered]
  exact Chip.pairEval_opens pair ((kept.powered_eq (by simp)).trans powered) ((Chip.pairState_debounced _ _).trans state) seen opened
    ((kept.f_eq (by simp) (by simp [R.SCFG_SIN, R.SIN_STAT]; omega) _).trans safe)

/-- DISCREPANCY_EXPIRY in a wait (R513, R514). -/
theorem doDiscrepancyExpiry_faults (k : Fin 8) (powered : c.powered = true)
    (wait : c.pairState k = Sp.waitOff ∨ c.pairState k = Sp.waitOn) :
    (doDiscrepancyExpiry k c).pairState k = Sp.fault ∧ (doDiscrepancyExpiry k c).is R.SHD_STAT F.SHD_STAT_LATCH = true
      ∧ (doDiscrepancyExpiry k c).mode = .safe := by
  have shown : Chip.Kept true [R.SIN_STATE, R.SIN_STAT] [] c ((c.showPair k Sp.fault).raise P.SIN 1) :=
    (Chip.Kept.refl.showPair (by simp) (by simp)).raise (by decide)
  have fault : ((c.showPair k Sp.fault).raise P.SIN 1).pairState k = Sp.fault :=
    (Chip.f_raise _ _ _ _ _ (by decide) (by decide)).trans (Chip.pairState_showPair k.isLt (by decide))
  rw [doDiscrepancyExpiry, Chip.viaShd_of powered, if_pos wait]
  exact Chip.pair_cause fault ((shown.powered_eq (by simp)).trans powered) (by decide) _ _

/-- SIN_DELAY_EXPIRY of a delayed demand (R514). -/
theorem doSinDelayExpiry_delayed (k : Fin 8) (powered : c.powered = true) (delayed : 0 < (c.pair k).delays) :
    ((doSinDelayExpiry k c).pair k).delays = (c.pair k).delays - 1 ∧ (doSinDelayExpiry k c).is R.SHD_STAT F.SHD_STAT_LATCH = true
      ∧ (doSinDelayExpiry k c).mode = .safe := by
  rw [doSinDelayExpiry, Chip.viaShd_of powered, if_pos delayed]
  obtain ⟨safe, latch⟩ := Chip.safe_cause (c := c.updPair k fun x => { x with delays := x.delays - 1 }) (code := 0x03) powered
    (by decide) 1 k
  refine ⟨?_, latch, safe⟩
  have shd := ((c.updPair k fun x => { x with delays := x.delays - 1 }).cause_kept 0x03 1 k).parts .shd (by simp) (by simp) (by decide)
  rw [Chip.pair, show (Chip.cause _ _ _ _).shd = _ from shd]
  exact congrArg PairSt.delays (nth_upd_of_default c.shd.pairs k rfl)

/-! ### Start-up test and grace time (O22) -/

/-- The first read-backs checked (R503, R510). -/
def Chip.soutChecked (c : Chip) : Chip := forN 8 (fun k c => c.soutCheck k) c

theorem Chip.soutChecked_kept (c : Chip) : Chip.Kept false [R.SOUT_STAT] [] c c.soutChecked :=
  Chip.Kept.refl.forN fun _ _ he => .ite (he.setBit (by simp)) he

/-- The start-up test has failed: the mark that holds the latch until power-on reset, and the cause (R503). -/
def Chip.startupFail (c : Chip) : Chip := ({ c with safe := { c.safe with startupFailed := true } } : Chip).cause 0x0B 0xA 0

/-- SHD_STARTUP_TEST_DONE by its outcome (R503). -/
theorem doShdStartupTestDone_eq (pass : Bool) (powered : c.powered = true) : doShdStartupTestDone pass c =
    if pass then c.soutChecked.flag R.SHD_STAT F.SHD_STAT_STARTUP_OK true else c.soutChecked.startupFail := by
  rw [doShdStartupTestDone, Chip.viaShd_of powered, Chip.startupFail, Chip.soutChecked]

/-- SHD_STARTUP_TEST_DONE passed (R503). -/
theorem doShdStartupTestDone_passed (powered : c.powered = true) :
    Chip.Kept false [R.SHD_STAT, R.SOUT_STAT] [] c (doShdStartupTestDone true c)
      ∧ (doShdStartupTestDone true c).is R.SHD_STAT F.SHD_STAT_STARTUP_OK = true := by
  rw [doShdStartupTestDone_eq true powered, if_pos rfl]
  exact ⟨(c.soutChecked_kept.mono (by simp) (by simp)).flag (by simp), Chip.is_flag _ _ _ _ (by decide) (by decide)⟩

/-- A failed start-up test latches the safe state and stays marked (R503). -/
theorem Chip.startupFail_latches (powered : c.powered = true) : c.startupFail.safe.startupFailed = true
    ∧ c.startupFail.is R.SHD_STAT F.SHD_STAT_LATCH = true ∧ c.startupFail.mode = .safe := by
  have failed : ({ c with safe := { c.safe with startupFailed := true } } : Chip).Marked true c.safe.graceRun := ⟨rfl, rfl⟩
  obtain ⟨safe, latch⟩ := Chip.safe_cause (c := { c with safe := { c.safe with startupFailed := true } }) (code := 0x0B) powered
    (by decide) 0xA 0
  exact ⟨failed.cause.startup, latch, safe⟩

/-- SHD_STARTUP_TEST_DONE failed (R503). -/
theorem doShdStartupTestDone_failed (powered : c.powered = true) : (doShdStartupTestDone false c).safe.startupFailed = true
    ∧ (doShdStartupTestDone false c).is R.SHD_STAT F.SHD_STAT_LATCH = true ∧ (doShdStartupTestDone false c).mode = .safe := by
  rw [doShdStartupTestDone_eq false powered, if_neg Bool.false_ne_true]
  exact Chip.startupFail_latches ((c.soutChecked_kept.powered_eq (by simp)).trans powered)

/-- GRACE_EXPIRY while the grace time runs (R523). -/
theorem doGraceExpiry_runs (powered : c.powered = true) (runs : c.safe.graceRun = true) : (doGraceExpiry c).safe.graceRun = false
    ∧ (doGraceExpiry c).rd R.SHD_GRACE_REM = 0xFFFFFFFF#32 ∧ (doGraceExpiry c).is R.SHD_STAT F.SHD_STAT_LATCH = true
    ∧ (doGraceExpiry c).mode = .safe := by
  have ended : (({ c with safe := { c.safe with graceRun := false } } : Chip).wrN R.SHD_GRACE_REM 0xFFFFFFFF).Marked
      c.safe.startupFailed false := ⟨rfl, rfl⟩
  rw [doGraceExpiry, Chip.viaShd_of powered, if_pos runs]
  generalize shown : ({ c with safe := { c.safe with graceRun := false } } : Chip).wrN R.SHD_GRACE_REM 0xFFFFFFFF = d at ended ⊢
  obtain ⟨safe, latch⟩ := Chip.safe_cause (c := d) (code := 0x0C) (by rw [← shown]; exact powered) (by decide) 0xA 1
  refine ⟨ended.cause.grace, ?_, latch, safe⟩
  rw [(d.cause_kept 0x0C 0xA 1).regs _ (fun _ => by decide) shd_grace_rem_notMem_cause, ← shown]
  exact Chip.rd_wr_same _ _ _

end

/-- Settles O22: each clause is what the command's lemma above says of the chip; the memory and the queue stay beside it. -/
theorem safetyInputCommands : Obligations.SafetyInputCommands := by
  refine ⟨?_, ?_, ?_, ?_, ?_, ?_, ?_⟩
  · intro k a b s powered state
    obtain ⟨kept, levels⟩ := doSinContactChange_shows k a b powered (by rw [Sp.permissive]; omega)
    exact ⟨_, rfl, ⟨⟨rfl, rfl⟩, kept⟩, levels⟩
  · rintro k a b s powered state seen rfl rfl safe
    exact ⟨_, rfl, ⟨rfl, rfl⟩, doSinContactChange_opens k powered state seen safe⟩
  · exact fun k s powered wait => ⟨_, rfl, ⟨rfl, rfl⟩, doDiscrepancyExpiry_faults k powered wait⟩
  · exact fun k s powered delayed => ⟨_, rfl, ⟨rfl, rfl⟩, doSinDelayExpiry_delayed k powered delayed⟩
  · intro s powered
    obtain ⟨kept, passed⟩ := doShdStartupTestDone_passed powered
    exact ⟨_, rfl, ⟨⟨rfl, rfl⟩, kept⟩, passed⟩
  · exact fun s powered => ⟨_, rfl, ⟨rfl, rfl⟩, doShdStartupTestDone_failed powered⟩
  · exact fun s powered runs => ⟨_, rfl, ⟨rfl, rfl⟩, doGraceExpiry_runs powered runs⟩

end Sys2Proof.Machine

namespace Sys2Proof.Machine

/-! ### Gate-driver supplies asked for outside READY (O23) -/

/-- RUN with the gate-driver supplies removed, as an SGR_REMOVE leaves them (R505). -/
def runWithoutSupplies : State := clocked0 fun c => { c with mode := .run }

/-- The state meets what the statement asks of an SGR_APPLY that applies the supplies. -/
theorem runWithoutSupplies_may_apply : May (twinWriter false) R.SHD_CMD runWithoutSupplies
    ∧ runWithoutSupplies.chip.is R.SHD_STAT F.SHD_STAT_LATCH = false ∧ runWithoutSupplies.chip.mode ≠ .boot
    ∧ runWithoutSupplies.chip.mode ≠ .replay := by decide +kernel

/-- Outside READY an SGR_APPLY that is not refused has no effect (R505). -/
theorem Chip.sgrCmd_ineffective {c : Chip} (i : Nat) (unlatched : c.is R.SHD_STAT F.SHD_STAT_LATCH = false) (boot : c.mode ≠ .boot)
    (replay : c.mode ≠ .replay) (ready : c.mode ≠ .ready) : c.sgrCmd true i = c := by
  simp [Chip.sgrCmd, unlatched, boot, replay, ready]

theorem exec_sgrApply (w : Writer) (key : BitVec 16) (s : State) :
    exec (.sgrApply w key) s = .next (s.onChip (doSgrApply w key)) := rfl

/-- Refutes O23: an SGR_APPLY in RUN, where it is not refused, leaves the supplies removed. -/
theorem not_safetyOutputCommands : ¬ Obligations.SafetyOutputCommands := by
  rintro ⟨-, -, -, -, -, -, -, apply, -⟩
  obtain ⟨may, unlatched, boot, replay⟩ := runWithoutSupplies_may_apply
  obtain ⟨t, ht, -, applied⟩ := apply (twinWriter false) runWithoutSupplies may unlatched boot replay
  obtain rfl := Host.Outcome.next.inj ((exec_sgrApply ..).symm.trans ht)
  obtain ⟨powered, running, free⟩ := may
  have stays : doSgrApply (twinWriter false) theKey runWithoutSupplies.chip = runWithoutSupplies.chip :=
    (Chip.cmd_of _ _ _ _ powered running free).trans (Chip.sgrCmd_ineffective _ unlatched boot replay (by decide))
  rw [State.onChip_chip, stays] at applied
  exact Bool.false_ne_true applied

end Sys2Proof.Machine

namespace Sys2Proof.Machine
open Sys2Proof

/-! ### What every command keeps (O4 to O7): the queue behind it, the canonical form of the memories, and every blown fuse -/

/-- From memories `m` to memories `n`: canonical form is kept, and no OTP bit goes from 1 to 0 (R648). -/
structure Mem.Sound (m n : Mem) : Prop where
  wf : m.wf = true → n.wf = true
  fuses : ∀ a b, nbit (SMap.get unblown m.otp a).toNat b = true → nbit (SMap.get unblown n.otp a).toNat b = true

/-- What a command or a step may do beside the chip: the queue stays, and the memories change as `Mem.Sound` allows. -/
structure State.Sound (s t : State) : Prop where
  pending : t.pending = s.pending
  mem : s.mem.Sound t.mem

namespace Mem.Sound

theorem refl (m : Mem) : m.Sound m := ⟨id, fun _ _ h => h⟩

theorem trans {m n o : Mem} (h : m.Sound n) (k : n.Sound o) : m.Sound o := ⟨k.wf ∘ h.wf, fun a b => k.fuses a b ∘ h.fuses a b⟩

/-- A change beside OTP that keeps the canonical form. -/
theorem of_otp {m n : Mem} (wf : m.wf = true → n.wf = true) (otp : n.otp = m.otp) : m.Sound n := ⟨wf, fun a b => by rw [otp]; exact id⟩

theorem sramPut (m : Mem) (a : Nat) (l : List Byte) : m.Sound (m.sramPut a l) := of_otp (Mem.wf_sramPut l m a) (by simp)
theorem sramPutW (m : Mem) (a : Nat) (w : Word) : m.Sound (m.sramPutW a w) := sramPut m a _
theorem dramPut (m : Mem) (a : Nat) (l : List Byte) : m.Sound (m.dramPut a l) := of_otp (Mem.wf_dramPut l m a) (by simp)
theorem ringPut (m : Mem) (o : Nat) (l : List Byte) : m.Sound (m.ringPut o l) := of_otp (Mem.wf_ringPut l m o) (by simp)
theorem framPut (m : Mem) (l : List (Nat × Byte)) : m.Sound (m.framPut l) := of_otp (Mem.wf_framPut m l) rfl

theorem storeMasked (m : Mem) (sp : MemSpace) (a data mask : Nat) : m.Sound (m.storeMasked sp a data mask) := by
  refine wf_forN (m.Sound ·) 8 _ m (refl m) fun i n h => ?_
  dsimp only
  split
  · exact h
  · cases sp with
    | reg => exact h
    | sram => exact h.trans (sramPut n _ _)
    | dram => exact h.trans (dramPut n _ _)

/-- Power lost: SRAM and DRAM are empty (R21). -/
theorem clear (m : Mem) : m.Sound { m with sram := [], dram := [] } := of_otp Mem.wf_clear rfl

theorem wf_foldl_flash (l : List (BitVec 32 × Byte)) {x : SMap Byte} (h : SMap.wf erased x = true) :
    SMap.wf erased (l.foldl (fun f e => SMap.put erased f e.1.toNat e.2) x) = true :=
  List.foldlRecOn (motive := fun x => SMap.wf erased x = true) l _ h fun _ hf e _ => SMap.wf_put _ _ e.1.toNat e.2 hf

/-- The flash devices change only by bytes that are put. -/
theorem flashA (m : Mem) (l : List (BitVec 32 × Byte)) :
    m.Sound { m with flashA := l.foldl (fun f e => SMap.put erased f e.1.toNat e.2) m.flashA } :=
  of_otp (fun h => Mem.wf_flashA h _ (wf_foldl_flash l ((Mem.wf_iff m).1 h).2.1)) rfl
theorem flashB (m : Mem) (l : List (BitVec 32 × Byte)) :
    m.Sound { m with flashB := l.foldl (fun f e => SMap.put erased f e.1.toNat e.2) m.flashB } :=
  of_otp (fun h => Mem.wf_flashB h _ (wf_foldl_flash l ((Mem.wf_iff m).1 h).2.2.1)) rfl

end Mem.Sound

/-- A bit that is set stays set under `|||`. -/
theorem nbit_or_left (x y : Byte) (b : Nat) (h : nbit x.toNat b = true) : nbit (x ||| y).toNat b = true := by
  have bit (n : Nat) : nbit n b = n.testBit b := by rw [nbit, Nat.testBit_eq_decide_div_mod_eq]
  rw [bit] at h ⊢
  rw [BitVec.toNat_or, Nat.testBit_or, h, Bool.true_or]

/-- One OTP byte that gains bits: canonical form and blown fuses stay. -/
theorem Mem.Sound.otpByte {m n : Mem} (h : m.Sound n) (a : Nat) (v : Byte) :
    m.Sound { n with otp := n.otp.put unblown a (n.otp.get unblown a ||| v) } where
  wf hm := Mem.wf_otp (h.wf hm) _ (SMap.wf_put _ _ _ _ ((Mem.wf_iff n).1 (h.wf hm)).2.2.2)
  fuses j b hj := by
    rw [SMap.get_put]
    split
    case isTrue here => subst here; exact nbit_or_left _ _ _ (h.fuses _ _ hj)
    case isFalse => exact h.fuses _ _ hj

namespace State.Sound

variable {s t : State}

theorem refl (s : State) : s.Sound s := ⟨rfl, .refl _⟩

theorem trans {u : State} (h : s.Sound t) (k : t.Sound u) : s.Sound u := ⟨k.pending.trans h.pending, h.mem.trans k.mem⟩

/-- A change of the chip alone. -/
theorem onChip (h : s.Sound t) (g : Chip → Chip) : s.Sound (t.onChip g) := ⟨h.pending, h.mem⟩

/-- A state with the queue and the memories of a sound one. -/
theorem beside {u : State} (h : s.Sound t) (hp : u.pending = t.pending) (hm : u.mem = t.mem) : s.Sound u :=
  ⟨hp.trans h.pending, hm ▸ h.mem⟩

/-- A change of chip and memories. -/
theorem withMem (h : s.Sound t) (c : Chip) {m : Mem} (hm : t.mem.Sound m) : s.Sound { t with chip := c, mem := m } :=
  ⟨h.pending, h.mem.trans hm⟩

theorem onMem (h : s.Sound t) {g : Mem → Mem} (hg : t.mem.Sound (g t.mem)) : s.Sound (t.onMem g) := h.withMem _ hg

theorem ite {p : Prop} [Decidable p] {u : State} (h : s.Sound t) (k : s.Sound u) : s.Sound (if p then t else u) := by
  split <;> assumption

theorem forN {n : Nat} {g : Nat → State → State} (h : s.Sound t) (hg : ∀ i u, s.Sound u → s.Sound (g i u)) :
    s.Sound (Machine.forN n g t) := wf_forN (s.Sound ·) n g t h hg

theorem foldl {α : Type} {l : List α} {g : State → α → State} (h : s.Sound t) (hg : ∀ u x, s.Sound u → s.Sound (g u x)) :
    s.Sound (l.foldl g t) := List.foldlRecOn l g h fun u hu x _ => hg u x hu

/-- A keyed command that reaches memories. -/
theorem cmd {k : Nat} {w : Writer} {key : BitVec 16} {g : State → State} (h : s.Sound t) (hg : s.Sound (g t)) :
    s.Sound (t.cmd k w key g) := by
  unfold State.cmd
  refine h.ite ?_
  split
  · exact h.onChip _
  · exact hg.ite (h.onChip _)

/-- A packet at its consumer. -/
theorem consume {p : Packet} {g : State → State} (h : s.Sound t) (hg : s.Sound (g t)) : s.Sound (t.consume p g) := by
  unfold State.consume
  refine h.ite ?_
  split
  · exact h.onChip _
  · exact hg

/-! #### Metering, the Lap log and the change log -/

theorem saveStart (h : s.Sound t) (fail : Bool) : s.Sound (t.saveStart fail) := by
  unfold State.saveStart
  extract_lets
  split
  exact h.beside rfl rfl

theorem saveAbandon (h : s.Sound t) : s.Sound t.saveAbandon := by
  unfold State.saveAbandon
  split
  · exact h
  · exact h.withMem _ (.framPut _ _)

theorem periodicSave (h : s.Sound t) : s.Sound t.periodicSave := h.ite (h.saveStart false)

theorem mtrClear (h : s.Sound t) (w : Writer) (key : BitVec 16) (p : Fin 2) : s.Sound (mdMtrClear w key p t) :=
  h.cmd ((h.onChip _).periodicSave.ite (h.onChip _))

theorem mtrSaveNow (h : s.Sound t) (w : Writer) (key : BitVec 16) : s.Sound (mdMtrSaveNow w key t) := h.cmd h.periodicSave

theorem saveComplete (h : s.Sound t) (ok : Bool) : s.Sound (mdSaveComplete ok t) := by
  unfold mdSaveComplete
  split
  · exact h
  · exact h.ite ((h.withMem _ (.framPut _ _)).ite (h.withMem _ (.framPut _ _)))

theorem powerFailSaveDone (h : s.Sound t) : s.Sound (mdPowerFailSaveDone t) := by
  unfold mdPowerFailSaveDone
  split
  · exact h
  · exact (h.withMem _ (.framPut _ _)).ite h

theorem mtrPowerFail (h : s.Sound t) : s.Sound t.mtrPowerFail := by
  unfold State.mtrPowerFail
  dsimp only
  split
  · exact (h.onChip _).ite ((h.onChip _).saveAbandon.saveStart true)
  · exact (h.onChip _).saveStart true

theorem lapOne (h : s.Sound t) : s.Sound t.lapOne := by
  unfold State.lapOne
  split
  · exact h
  · exact h.withMem _ (.ringPut _ _ _)

theorem lapDrain (h : s.Sound t) : s.Sound t.lapDrain := h.forN fun _ _ hu => hu.lapOne

theorem lapFreeze (h : s.Sound t) : s.Sound t.lapFreeze := (h.lapDrain.onChip _).ite h

theorem lapCmd (h : s.Sound t) (op i head : Nat) : s.Sound (t.lapCmd op i head) := by
  unfold State.lapCmd
  dsimp only
  split
  · exact h.lapFreeze
  · exact (h.onChip _).ite (h.onChip _)
  · exact h.onChip _
  · exact h.onChip _
  · exact (h.onChip _).ite (h.onChip _)
  · exact h.onChip _

/-- A write to LAP.CMD with a code that needs no replay (R577). -/
theorem lapVia (h : s.Sound t) (w : Writer) (key : BitVec 16) (op head : Nat) :
    s.Sound (t.lapVia w key fun u => u.lapCmd op w.ini.code head) := h.cmd (h.lapCmd _ _ _)

theorem credVerify (h : s.Sound t) (w : Writer) (key : BitVec 16) : s.Sound (mdCredVerify w key t) :=
  h.cmd ((h.onChip _).ite (h.onChip _))

theorem logPop (h : s.Sound t) : s.Sound t.logPop := by
  unfold State.logPop
  dsimp only
  have log (c : Chip) (a : Nat) (l : List Byte) : s.Sound { t with chip := c, mem := { t.mem with fram := putList unwritten t.mem.fram a l } } :=
    h.withMem c (.of_otp (fun hm => Mem.wf_fram hm _ (putList_wf _ _ _ _ ((Mem.wf_iff _).1 hm).1.2.2)) rfl)
  split
  · exact log _ _ _
  · exact log _ _ _
  · exact h

theorem logWrite (h : s.Sound t) (ok : Bool) : s.Sound (mdLogWrite ok t) := h.ite (h.ite (h.onChip _)).logPop

/-! #### Resets and power -/

theorem mainLost (h : s.Sound t) : s.Sound t.mainLost := h.withMem _ (.clear _)

theorem powerUp (h : s.Sound t) (mv : Nat) : s.Sound (t.powerUp mv) := h.mainLost.beside rfl rfl

theorem deviceReset (h : s.Sound t) (src : Nat) : s.Sound (t.deviceReset src) := h.ite ((h.lapFreeze.ite h.lapDrain).onChip _)

theorem resetCmd (h : s.Sound t) (w : Writer) (key : BitVec 16) : s.Sound (mdDeviceReset w key t) := h.cmd (h.deviceReset _)

theorem earlyWarning (h : s.Sound t) : s.Sound t.earlyWarning :=
  h.ite (((((h.onChip _).onChip _).onChip _).mtrPowerFail).onChip _)

theorem underVoltage (h : s.Sound t) : s.Sound t.underVoltage := (h.onChip _).earlyWarning.ite h

theorem vauxPowerGood (h : s.Sound t) (mv : BitVec 10) : s.Sound (mdVauxPowerGood mv t) := (h.onChip _).ite ((h.onChip _).powerUp _)

theorem powerOnReset (h : s.Sound t) (mv : BitVec 10) : s.Sound (mdPowerOnReset mv t) := (h.powerUp _).ite h

theorem railMonitorsGood (h : s.Sound t) (mv : BitVec 10) : s.Sound (mdRailMonitorsGood mv t) :=
  ((h.onChip _).powerUp _).ite (h.onChip _)

theorem vcoreLost (h : s.Sound t) : s.Sound (mdVcoreLost t) := h.ite ((h.saveAbandon.mainLost.onChip _).onChip _)

theorem regulatorRestart (h : s.Sound t) (mv : BitVec 10) : s.Sound (mdRegulatorRestart mv t) := (h.powerUp _).ite h

/-! #### The starting block, flash, SEC and OTP -/

theorem otpOr (h : s.Sound t) (o v : Nat) : s.Sound (t.otpOr o v) := by
  refine h.onMem ?_
  exact List.foldlRecOn (motive := fun x => t.mem.Sound { t.mem with otp := x }) _ _ (.refl _) fun _ hx i _ => hx.otpByte (o + i) _

theorem arbTo (h : s.Sound t) (n : Nat) : s.Sound (t.arbTo n) := h.foldl fun _ _ hu => hu.otpOr _ _

theorem freeBytes (h : s.Sound t) (a n : Nat) : s.Sound (t.freeBytes a n) := h.forN fun _ _ hu => hu.withMem _ (.sramPut _ _ _)

theorem secRun (h : s.Sound t) (op arg ptr : Nat) (readOk sigOk chainOk validOk : Bool) :
    s.Sound (t.secRun op arg ptr readOk sigOk chainOk validOk).1 := by
  unfold State.secRun
  extract_lets
  split <;> dsimp only
  · exact h.onChip _
  · exact h.freeBytes _ _
  · exact h
  · exact h.freeBytes _ _
  · exact (h.arbTo _).onChip _
  · exact h.onChip _
  · exact h.otpOr _ _

theorem secCommandDone (h : s.Sound t) (readOk sigOk chainOk validOk : Bool) :
    s.Sound (mdSecCommandDone readOk sigOk chainOk validOk t) := by
  unfold mdSecCommandDone
  refine h.ite ?_
  split
  · exact h
  · exact (h.secRun _ _ _ _ _ _ _).onChip _

theorem secVia (h : s.Sound t) (w : Writer) (key : BitVec 16) (op arg : Nat) : s.Sound (t.secVia w key op arg) :=
  h.cmd ((h.onChip _).ite ((h.onChip _).ite (h.onChip _)))

theorem otpGo (h : s.Sound t) (w : Writer) (key : BitVec 16) (go : Bool) (word : BitVec 9) : s.Sound (mdOtpGo w key go word t) :=
  h.cmd (h.ite ((h.onChip _).ite (h.onChip _)))

theorem otpDone (h : s.Sound t) (blown : Nat) : s.Sound (t.otpDone blown) := by
  unfold State.otpDone
  split
  · exact h
  · exact ((h.otpOr _ _).onChip _).onChip _

theorem mtrRestore (h : s.Sound t) (calLost : Bool) (pgCal : Nat) : s.Sound (t.mtrRestore calLost pgCal) := by
  unfold State.mtrRestore
  exact h.onChip _

theorem coldRestore (h : s.Sound t) : s.Sound t.coldRestore := by
  have metered := h.mtrRestore t.chip.pow.calLost t.chip.pow.pgCal
  unfold State.coldRestore
  refine .onChip (.forN ?_ fun _ _ hu => hu.logPop) _
  exact .ite (metered.onChip _) metered

theorem survivalRestore (h : s.Sound t) (straps : BitVec 2) (hostSel : Bool) : s.Sound (mdBootSurvivalRestore straps hostSel t) := by
  have shown : s.Sound t.showOtp := h.onChip _
  exact h.ite (((shown.coldRestore.onChip _).ite (shown.onChip _)).onChip _)

theorem copySects (h : s.Sound t) (g : Nat → Byte) (p : Sect → Bool) : s.Sound (t.copySects g p) := by
  refine h.foldl fun u x hu => ?_
  dsimp only
  split
  · exact hu
  · split
    · refine hu.onMem ?_
      split
      · exact .dramPut _ _ _
      · exact .sramPut _ _ _
    · exact hu.onChip _

theorem imageVerify (h : s.Sound t) (readOk sigOk : Bool) : s.Sound (mdBootImageVerify readOk sigOk t) := by
  unfold mdBootImageVerify
  refine h.ite ?_
  split
  · exact h
  next img _ _ =>
    have tried : s.Sound (if img < 2 then t.onChip fun c => c.flag R.BOOT_NEXT F.BOOT_NEXT_TRY_EN false else t) := (h.onChip _).ite h
    exact ((tried.copySects _ _).ite tried).onChip _

theorem liveStageDone (h : s.Sound t) (readOk sigOk : Bool) : s.Sound (mdLiveStageDone readOk sigOk t) := by
  unfold mdLiveStageDone
  refine h.ite ?_
  split
  · exact h
  · exact (h.ite (h.onMem (.dramPut _ _ _))).onChip _

theorem liveHalt (h : s.Sound t) : s.Sound (mdLiveHalt t) := by
  unfold mdLiveHalt
  refine h.ite ?_
  split
  · exact h
  · exact h.ite (((h.onChip _).copySects _ _).onChip _)

theorem flashPut (h : s.Sound t) (b : Bool) (l : List (BitVec 32 × Byte)) : s.Sound (t.onMem fun m =>
    if b then { m with flashB := l.foldl (fun f e => SMap.put erased f e.1.toNat e.2) m.flashB }
    else { m with flashA := l.foldl (fun f e => SMap.put erased f e.1.toNat e.2) m.flashA }) := by
  refine h.onMem ?_
  cases b with
  | true => exact .flashB _ _
  | false => exact .flashA _ _

theorem flashCommandDone (h : s.Sound t) (data : List (BitVec 8)) (prog : List (BitVec 32 × BitVec 8)) :
    s.Sound (mdFlashCommandDone data prog t) := by
  unfold mdFlashCommandDone
  refine h.ite ?_
  split
  · exact h
  next f _ =>
    have read (l : List Byte) : s.Sound (if f.write then t else t.onMem fun m => m.sramPut f.ofs l) := h.ite (h.onMem (.sramPut _ _ _))
    exact ((read _).ite ((read _).flashPut _ _)).onChip _

theorem debugAccessOpen (h : s.Sound t) (ok : Bool) (rights : BitVec 8) : s.Sound (mdDebugAccessOpen ok rights t) := (h.onChip _).ite h

theorem memUncorrectable (h : s.Sound t) (dram : Bool) (ofs : BitVec 29) : s.Sound (mdMemUncorrectable dram ofs t) := by
  refine h.ite ((h.onMem ?_).onChip _)
  split
  · exact .dramPut _ _ _
  · exact .sramPut _ _ _

theorem copyIn (h : s.Sound t) (d : Bool) (a i : Nat) : s.Sound (t.copyIn d a i) := (h.onChip _).ite (h.onChip _)

theorem memCopyDone (h : s.Sound t) : s.Sound (mdMemCopyDone t) := by
  unfold mdMemCopyDone
  refine h.ite ?_
  split
  · exact h
  · refine ((h.onMem ?_).ite (h.forN fun _ _ hu => hu.copyIn _ _ _)).onChip _
    split
    · exact .dramPut _ _ _
    · exact .sramPut _ _ _

/-! #### Ethernet, replay and the twin rings -/

theorem ethExamine (h : s.Sound t) (e : Nat) : s.Sound (t.ethExamine e) := (h.onChip _).ite h

theorem ethFrameRx (h : s.Sound t) (e : Fin 2) (frame : List (BitVec 8)) (fcsOk : Bool) : s.Sound (mdEthFrameRx e frame fcsOk t) :=
  h.ite ((h.onChip _).ite ((h.onChip _).ite ((h.onChip _).ite ((h.onChip _).ite
    (h.withMem _ (((Mem.Sound.sramPut _ _ _).trans (.sramPutW _ _ _)).trans (.sramPut _ _ _)))))))

theorem ethTxKick (h : s.Sound t) (w : Writer) (e : Fin 2) : s.Sound (mdEthTxKick w e t) := h.cmd (h.ethExamine _)

theorem ethFrameSent (h : s.Sound t) (e : Fin 2) : s.Sound (mdEthFrameSent e t) := by
  refine h.ite (.ethExamine (h.withMem _ (.trans ?_ (.sramPutW _ _ _))) _)
  split
  · exact .sramPut _ _ _
  · exact .refl _

theorem replayTwin (h : s.Sound t) (b : Bool) (o : Nat) : s.Sound (t.replayTwin b o) := by
  unfold State.replayTwin
  dsimp only
  split
  · exact h.onChip _
  · exact (h.onChip _).ite h

theorem replayStart (h : s.Sound t) (i : Nat) : s.Sound (t.replayStart i) :=
  (((h.onChip _).replayTwin _ _).replayTwin _ _).ite (h.onChip _)

theorem replayStartVia (h : s.Sound t) (w : Writer) (key : BitVec 16) : s.Sound (mdReplayStart w key t) := by
  unfold mdReplayStart State.lapVia
  exact h.cmd (h.replayStart _)

theorem replayEnd (h : s.Sound t) : s.Sound (mdReplayEnd t) := by
  refine .ite ?_ h
  split
  · exact h.onChip _
  · exact h

theorem ringPut (h : s.Sound t) (x : Nat × Option Nat × Packet) : s.Sound (t.ringPut x) :=
  (h.withMem _ ((Mem.Sound.sramPut _ _ _).trans (.sramPutW _ _ _))).ite (h.onChip _)

theorem ringFlush (h : s.Sound t) : s.Sound t.ringFlush := (h.onChip _).foldl fun _ x hu => hu.ringPut x

theorem toRing (h : s.Sound t) (r : Nat) (inL : Option Nat) (p : Packet) : s.Sound (t.toRing r inL p) := (h.onChip _).ringFlush

theorem toTwin (h : s.Sound t) (inL : Option Nat) (p : Packet) : s.Sound (t.toTwin inL p) := h.toRing _ _ _

theorem response (h : s.Sound t) (inL : Option Nat) (p : Packet) : s.Sound (t.response inL p) := by
  unfold State.response
  split
  · dsimp only
    split
    · exact (h.onChip _).toRing _ _ _
    · exact (h.onChip _).onChip _
  · exact h.onChip _

theorem txOne (h : s.Sound t) (b : Bool) : s.Sound (t.txOne b) := h.ite (h.withMem _ (.sramPutW _ _ _))

theorem sesKick (h : s.Sound t) (w : Writer) (twin : Bool) : s.Sound (mdSesKick w twin t) :=
  h.cmd (h.forN fun _ _ hu => hu.txOne _).ringFlush

/-! #### Register accesses -/

theorem afterRead (h : s.Sound t) (i k : Nat) : s.Sound (t.afterRead i k) := (h.onChip _).ite h

theorem twinLoad (h : s.Sound t) (b : Bool) (k stamp : Nat) : s.Sound (t.twinLoad b k stamp) := by
  refine (h.afterRead _ _).ite ((h.onChip _).ite (.ite ?_ ((h.ite (h.afterRead _ _)).onChip _)))
  split
  · exact h.onChip _
  · exact h

theorem lowWordRead (h : s.Sound t) (w : Writer) (a : BitVec 32) (stamp : BitVec 64) : s.Sound (mdLowWordRead w a stamp t) := by
  unfold mdLowWordRead
  split
  · split
    · exact h.twinLoad _ _ _
    · exact h.twinLoad _ _ _
    · exact h.afterRead _ _
  · exact h

/-- A soft reset of OTP completes a word that is being programmed (R650). -/
theorem softReset (h : s.Sound t) (b : Nat) : s.Sound (t.softReset b) := by
  refine (h.onChip _).ite (.onChip (.ite ?_ h) _)
  split
  · exact h.otpDone _
  · exact h

theorem ctlWrite (h : s.Sound t) (p : PageKind) (i b : Nat) (v : Word) : s.Sound (t.ctlWrite p i b v) :=
  (h.softReset b).ite ((h.onChip _).ite (h.onChip _))

theorem headerWrite (h : s.Sound t) (p : PageKind) (i b x : Nat) (v : Word) : s.Sound (t.headerWrite p i b x v) := by
  unfold State.headerWrite
  split
  · exact h.ctlWrite _ _ _ _
  case h_13 => exact h
  all_goals exact h.onChip _

theorem rstCmd (h : s.Sound t) (w : Writer) (key : BitVec 16) (v : Word) : s.Sound (t.rstCmd w key v) :=
  (h.resetCmd _ _).ite ((h.onChip _).ite (h.onChip _))

theorem shdCmd (h : s.Sound t) (w : Writer) (key : BitVec 16) (op : Nat) : s.Sound (t.shdCmd w key op) := by
  unfold State.shdCmd
  split
  case h_4 => exact h.credVerify _ _
  all_goals exact h.onChip _

theorem mtrCmd (h : s.Sound t) (w : Writer) (key : BitVec 16) (p op : Nat) : s.Sound (t.mtrCmd w key p op) := by
  unfold State.mtrCmd
  split
  · exact h.mtrClear _ _ _
  · exact h.mtrClear _ _ _
  · exact h.mtrSaveNow _ _
  · exact h.onChip _
  · exact h.onChip _

theorem lapOp (h : s.Sound t) (op i : Nat) : s.Sound (t.lapOp op i) := by
  unfold State.lapOp
  split
  · exact lapCmd (h.withMem _ (.refl _)) _ _ _
  · exact h.replayStart _
  · exact h.onChip _
  · exact h.lapCmd _ _ _

/-- A write to a command register of a page without instances. -/
theorem command (h : s.Sound t) (w : Writer) (k : Nat) (v : Word) : s.Sound (t.command w k v) := by
  unfold State.command
  extract_lets key i op go
  refine .ite (h.rstCmd _ _ _) ?_
  iterate 11 refine .ite (h.onChip _) ?_
  refine .ite (h.secVia _ _ _ _) (.ite (h.otpGo _ _ _ _) ?_)
  iterate 13 refine .ite (h.onChip _) ?_
  refine .ite (h.sesKick _ _) (.ite (h.onChip _) (.ite (h.shdCmd _ _ _) ?_))
  exact .ite (h.onChip _) (.ite (h.onChip _) (.ite (h.cmd (h.lapOp _ _)) (.ite (h.onChip _) h)))

theorem commandAt (h : s.Sound t) (w : Writer) (b k : Nat) (v : Word) : s.Sound (t.commandAt w b k v) := by
  unfold State.commandAt
  extract_lets
  split
  · exact h.onChip _
  · exact h.onChip _
  · exact (h.onChip _).ite ((h.onChip _).ite (h.onChip _))
  · exact h.mtrCmd _ _ _ _
  · exact h.ethTxKick _ _
  · exact h.command _ _ _

theorem writeReg (h : s.Sound t) (w : Writer) (k : Nat) (v : Word) : s.Sound (t.writeReg w k v) := by
  unfold State.writeReg
  refine h.ite ?_
  split
  · exact h.onChip _
  · have recorded (g : Chip → Chip) : s.Sound (t.onChip g) := h.onChip g
    dsimp only
    split
    · exact (recorded _).onChip _
    · refine ((recorded _).onChip _).ite (((recorded _).headerWrite _ _ _ _ _).ite ?_)
      split
      · exact recorded _
      · exact ((recorded _).onChip _).ite (((recorded _).onChip _).ite (((recorded _).commandAt _ _ _ _).ite ((recorded _).onChip _)))

theorem writeBit (h : s.Sound t) (w : Writer) (k j : Nat) (b : Bool) : s.Sound (t.writeBit w k j b) := h.writeReg _ _ _

theorem writeAt (h : s.Sound t) (w : Writer) (size a : Nat) (v : Word) : s.Sound (t.writeAt w size a v) :=
  ((h.writeReg _ _ _).ite ((h.onChip _).ite h)).ite ((h.onChip _).ite h)

theorem postedWriteDeliver (h : s.Sound t) : s.Sound (mdPostedWriteDeliver t) := by
  unfold mdPostedWriteDeliver
  split
  · exact h
  · exact ((h.onChip _).writeReg _ _ _).ite h

theorem qspiRead (h : s.Sound t) (a : BitVec 22) (n : BitVec 16) : s.Sound (mdQspiRead a n t) :=
  (h.forN fun _ _ hu => hu.afterRead _ _).ite h

/-! #### Packets at the register engine and on the lanes -/

theorem regPair (h : s.Sound t) (ses : Fin 256) (x : Nat × Word) : s.Sound (t.regPair ses x).1 := by
  unfold State.regPair
  extract_lets
  split
  · exact h.writeAt _ _ _ _
  · split
    · exact h.afterRead _ _
    · exact h

theorem regPairsDo (h : s.Sound t) (ses : Fin 256) (ps : List (Nat × Word)) : s.Sound (t.regPairsDo ses ps).1 :=
  List.foldlRecOn (motive := fun r : State × List Nat => s.Sound r.1) ps _ h fun _ hr x _ => hr.regPair ses x

theorem regReq (h : s.Sound t) (p : Packet) : s.Sound (t.regReq p) := by
  unfold State.regReq
  exact (h.onChip _).ite (((h.onChip _).regPairsDo _ _).onChip _)

theorem consumeOn {inL : Option Nat} {p : Packet} {g : State → State} (h : s.Sound t) (hg : s.Sound (g t)) :
    s.Sound (t.consumeOn inL p g) := by
  unfold State.consumeOn
  split
  · exact h.onChip _
  · exact hg

theorem takePlain (h : s.Sound t) (pl : Nat) (inL : Option Nat) (p : Packet) : s.Sound (t.takePlain pl inL p) := by
  unfold State.takePlain
  extract_lets pf n chip full
  have chips (g : Chip → Chip) : s.Sound (chip g) := h.onChip _
  have states {g : State → State} (hg : s.Sound (g t)) : s.Sound (full g) := hg.onChip _
  split
  case h_14 => exact states (h.consume (h.regReq _))
  case h_17 => exact states (h.consume (h.deviceReset _))
  case h_21 | h_22 | h_23 => exact h.consumeOn (h.toTwin _ _)
  case h_24 | h_25 | h_26 => exact h.consumeOn (h.toRing _ _ _)
  case h_27 | h_28 | h_29 => exact h.consumeOn (h.response _ _)
  all_goals exact chips _

theorem take (h : s.Sound t) (x : Nat × Option Nat × Packet) : s.Sound (t.take x) := by
  unfold State.take
  refine h.ite ?_
  split
  · exact takePlain (h.withMem _ (.refl _)) _ _ _
  · exact h.withMem _ (.refl _)

theorem drain (h : s.Sound t) : s.Sound t.drain := (h.onChip _).foldl fun _ x hu => hu.take x

theorem packetRx (h : s.Sound t) (n : Fin 8) (seq : BitVec 12) (p : Packet) (crc : BitVec 32) : s.Sound (mdPacketRx n seq p crc t) :=
  (h.onChip _).drain.ite h

theorem packetSend (h : s.Sound t) (n : Fin 8) : s.Sound (mdPacketSend n t) := (h.onChip _).drain.ite h

/-! #### Stores of the twins, their start, and replay -/

theorem writeHalves (h : s.Sound t) (w : Writer) (a data mask : Nat) : s.Sound (t.writeHalves w a data mask) :=
  h.forN fun _ _ hu => hu.ite (hu.writeAt _ _ _ _)

theorem twinStore (h : s.Sound t) (b : Bool) (space : MemSpace) (a : BitVec 29) (data : BitVec 64) (mask : BitVec 8) (stamp : BitVec 64) :
    s.Sound (mdTwinStore b space a data mask stamp t) := h.ite ((h.onChip _).ite ((h.writeHalves _ _ _ _).ite (h.onChip _)))

theorem perform (h : s.Sound t) (b : Bool) (e : RbEnt) : s.Sound (t.perform b e) := by
  unfold State.perform
  split
  · exact (h.onChip _).writeHalves _ _ _ _
  · exact (((h.onMem (.storeMasked _ _ _ _ _)).ringFlush).ethExamine 0).ethExamine 1

theorem performReplay (h : s.Sound t) (b : Bool) (e : RbEnt) : s.Sound (t.performReplay b e) := by
  unfold State.performReplay
  split
  · refine h.ite ?_
    split
    · exact h
    · exact h.onChip _
  · exact h.onMem (.storeMasked _ _ _ _ _)

theorem releaseEntry (h : s.Sound t) (b : Bool) : s.Sound (mdReleaseEntry b t) := by
  unfold mdReleaseEntry
  refine h.ite ?_
  split
  · exact h
  · exact h.ite (((h.onChip _).performReplay _ _).ite ((h.onChip _).perform _ _))

theorem bootPairs (h : s.Sound t) (ps : List (Nat × Nat)) : s.Sound (t.bootPairs ps) := h.foldl fun _ _ hu => hu.writeAt _ _ _ _

theorem twinsStart (h : s.Sound t) (w : BitVec 16) : s.Sound (mdTwinsStart w t) :=
  h.ite ((((h.onChip _).bootPairs _).bootPairs _).onChip _)

theorem fabReplay (h : s.Sound t) (sub : Nat) (p : Packet) : s.Sound (t.fabReplay sub p) := by
  unfold State.fabReplay
  extract_lets
  split
  case h_11 => exact h.regPairsDo _ _
  case h_12 => exact h
  all_goals exact h.onChip _

theorem replayRec (h : s.Sound t) (r : LapRec) : s.Sound (t.replayRec r) := by
  unfold State.replayRec
  extract_lets d u w
  refine (h.onChip _).ite ?_
  have timed : s.Sound u := h.onChip _
  split
  · exact timed.fabReplay _ _
  · exact timed.foldl fun _ _ hu => hu.writeAt _ _ _ _
  · exact timed.onChip _
  · exact timed.writeHalves _ _ _ _
  · exact timed.onChip _
  · exact timed.onChip _
  · exact timed

theorem replayTick (h : s.Sound t) : s.Sound t.replayTick := h.ite (((h.onChip _).replayRec _).ite (h.onChip _))

theorem tick (h : s.Sound t) : s.Sound t.tick := h.ite (h.replayTick.ite (h.onChip _))

end State.Sound

/-! ### Every command and every step answers a next state that follows soundly -/

/-- Every command completes. Those named reach memories; all others work on the chip alone. -/
theorem exec_sound (i : Instr) (s : State) : ∃ t, exec i s = .next t ∧ s.Sound t := by
  have same := State.Sound.refl s
  cases i with
  | periodicSave => exact ⟨_, rfl, same.ite same.periodicSave⟩
  | mtrSaveNow w key => exact ⟨_, rfl, same.mtrSaveNow w key⟩
  | mtrClear w key p => exact ⟨_, rfl, same.mtrClear w key p⟩
  | saveComplete ok => exact ⟨_, rfl, same.saveComplete ok⟩
  | powerFailSaveDone => exact ⟨_, rfl, same.powerFailSaveDone⟩
  | lapRingWrite => exact ⟨_, rfl, same.lapOne.ite same⟩
  | lapFreeze w key => exact ⟨_, rfl, same.lapVia w key 1 0⟩
  | lapResume w key => exact ⟨_, rfl, same.lapVia w key 2 0⟩
  | lapArm w key => exact ⟨_, rfl, same.lapVia w key 3 0⟩
  | lapDisarm w key => exact ⟨_, rfl, same.lapVia w key 4 0⟩
  | lapImport w key head => exact ⟨_, rfl, same.lapVia w key 5 head.toNat⟩
  | lapPostEnd => exact ⟨_, rfl, same.lapFreeze.ite same⟩
  | credVerify w key => exact ⟨_, rfl, same.credVerify w key⟩
  | logWrite ok => exact ⟨_, rfl, same.logWrite ok⟩
  | deviceReset w key => exact ⟨_, rfl, same.resetCmd w key⟩
  | resetNAssert => exact ⟨_, rfl, (same.deviceReset 1).onChip _⟩
  | earlyWarning => exact ⟨_, rfl, same.earlyWarning⟩
  | vcoreUnderVoltage => exact ⟨_, rfl, same.underVoltage⟩
  | railMonitorFail => exact ⟨_, rfl, same.underVoltage⟩
  | vauxPowerGood mv => exact ⟨_, rfl, same.vauxPowerGood mv⟩
  | powerOnReset mv => exact ⟨_, rfl, same.powerOnReset mv⟩
  | railMonitorsGood mv => exact ⟨_, rfl, same.railMonitorsGood mv⟩
  | vcoreLost => exact ⟨_, rfl, same.vcoreLost⟩
  | regulatorRestart mv => exact ⟨_, rfl, same.regulatorRestart mv⟩
  | bootSurvivalRestore straps hostSel => exact ⟨_, rfl, same.survivalRestore straps hostSel⟩
  | bootImageVerify readOk sigOk => exact ⟨_, rfl, same.imageVerify readOk sigOk⟩
  | liveStageDone readOk sigOk => exact ⟨_, rfl, same.liveStageDone readOk sigOk⟩
  | liveHalt => exact ⟨_, rfl, same.liveHalt⟩
  | flashCommandDone data prog => exact ⟨_, rfl, same.flashCommandDone data prog⟩
  | secVerifyImage w key b => exact ⟨_, rfl, same.secVia w key 1 _⟩
  | secSign w key => exact ⟨_, rfl, same.secVia w key 2 0⟩
  | secVerifyChain w key arg => exact ⟨_, rfl, same.secVia w key 3 _⟩
  | secRandom w key => exact ⟨_, rfl, same.secVia w key 4 0⟩
  | arbAdvance w key => exact ⟨_, rfl, same.secVia w key 5 0⟩
  | genId w key => exact ⟨_, rfl, same.secVia w key 6 0⟩
  | revokeRoot w key slot => exact ⟨_, rfl, same.secVia w key 7 _⟩
  | secCommandDone readOk sigOk chainOk validOk => exact ⟨_, rfl, same.secCommandDone readOk sigOk chainOk validOk⟩
  | otpGo w key go word => exact ⟨_, rfl, same.otpGo w key go word⟩
  | otpProgramDone blown => exact ⟨_, rfl, (same.otpDone _).ite same⟩
  | debugAccessOpen ok rights => exact ⟨_, rfl, same.debugAccessOpen ok rights⟩
  | memUncorrectable dram ofs => exact ⟨_, rfl, same.memUncorrectable dram ofs⟩
  | memCopyDone => exact ⟨_, rfl, same.memCopyDone⟩
  | ethFrameRx e frame fcsOk => exact ⟨_, rfl, same.ethFrameRx e frame fcsOk⟩
  | ethTxKick w e => exact ⟨_, rfl, same.ethTxKick w e⟩
  | ethFrameSent e => exact ⟨_, rfl, same.ethFrameSent e⟩
  | replayStart w key => exact ⟨_, rfl, same.replayStartVia w key⟩
  | replayEnd => exact ⟨_, rfl, same.replayEnd⟩
  | evtNotifyRx p => exact ⟨_, rfl, same.consume (same.toTwin none p)⟩
  | dataRx p => exact ⟨_, rfl, same.consume (same.toTwin none p)⟩
  | fwReqRx p => exact ⟨_, rfl, same.consume (same.toTwin none p)⟩
  | sesHelloRx p => exact ⟨_, rfl, same.consume (same.toRing 3 none p)⟩
  | sesReplyRx p => exact ⟨_, rfl, same.consume (same.toRing 3 none p)⟩
  | sesFinishRx p => exact ⟨_, rfl, same.consume (same.toRing 3 none p)⟩
  | regRespRx p => exact ⟨_, rfl, same.consume (same.response none p)⟩
  | fwRespRx p => exact ⟨_, rfl, same.consume (same.response none p)⟩
  | undelivRx p => exact ⟨_, rfl, same.consume (same.response none p)⟩
  | sesKick w twin => exact ⟨_, rfl, same.sesKick w twin⟩
  | lowWordRead w a stamp => exact ⟨_, rfl, same.lowWordRead w a stamp⟩
  | registerWrite w size a v => exact ⟨_, rfl, same.writeAt w _ _ v⟩
  | stagingWrite w a v => exact ⟨_, rfl, same.writeAt w 2 _ v⟩
  | pageSoftReset w pg => exact ⟨_, rfl, same.writeReg w _ _⟩
  | pageFreeze w pg => exact ⟨_, rfl, same.writeReg w _ _⟩
  | pageSnap w pg => exact ⟨_, rfl, same.writeReg w _ _⟩
  | eventSet w pg bits => exact ⟨_, rfl, same.writeReg w _ _⟩
  | seqGroupEnable w g => exact ⟨_, rfl, same.writeBit w _ _ _⟩
  | seqGroupDisable w g => exact ⟨_, rfl, same.writeBit w _ _ _⟩
  | bptChannelEnable w ch => exact ⟨_, rfl, same.writeBit w _ _ _⟩
  | bptChannelDisable w ch => exact ⟨_, rfl, same.writeBit w _ _ _⟩
  | timebaseStart w n => exact ⟨_, rfl, same.writeBit w _ _ _⟩
  | timebaseStop w n => exact ⟨_, rfl, same.writeBit w _ _ _⟩
  | laneEnable w n => exact ⟨_, rfl, same.writeBit w _ _ _⟩
  | laneDisable w n => exact ⟨_, rfl, same.writeBit w _ _ _⟩
  | shadowWrite w k reg v => exact ⟨_, rfl, same.writeReg w _ _⟩
  | postedWriteDeliver => exact ⟨_, rfl, same.postedWriteDeliver⟩
  | qspiRead a n => exact ⟨_, rfl, same.qspiRead a n⟩
  | regReqRx p => exact ⟨_, rfl, same.consume (same.regReq p)⟩
  | devResetRx p => exact ⟨_, rfl, same.consume (same.deviceReset 4)⟩
  | packetRx n seq p crc => exact ⟨_, rfl, same.packetRx n seq p crc⟩
  | packetSend n => exact ⟨_, rfl, same.packetSend n⟩
  | twinStore b space a data mask stamp => exact ⟨_, rfl, same.twinStore b space a data mask stamp⟩
  | releaseEntry b => exact ⟨_, rfl, same.releaseEntry b⟩
  | twinsStart w => exact ⟨_, rfl, same.twinsStart w⟩
  | _ => exact ⟨_, rfl, same.onChip _⟩

/-- A step on a waiting command takes the command from the queue. -/
theorem step_cons {s : State} {i : Instr} {rest : List Instr} (waits : s.pending = i :: rest) :
    step s = exec i { s with pending := rest } := by rw [step, waits]

theorem step_idle {s : State} (idle : s.pending = []) : step s = .next s.tick := by rw [step, idle]

/-- What a step does to queue and memories. -/
theorem step_sound (s : State) : ∃ t, step s = .next t ∧ t.pending = s.pending.tail ∧ s.mem.Sound t.mem := by
  cases waits : s.pending with
  | nil =>
    obtain ⟨pending, mem⟩ := (State.Sound.refl s).tick
    exact ⟨_, step_idle waits, pending.trans waits, mem⟩
  | cons i rest =>
    obtain ⟨t, ht, pending, mem⟩ := exec_sound i { s with pending := rest }
    exact ⟨t, (step_cons waits).trans ht, pending, mem⟩

/-- A step that answers `t` changes the memories soundly. -/
theorem step_mem_sound {s t : State} (h : step s = .next t) : s.mem.Sound t.mem := by
  obtain ⟨u, hu, -, mem⟩ := step_sound s
  cases h.symm.trans hu
  exact mem

/-- Settles O1: the step's own first case. -/
theorem stepTakesTheFrontCommand : Obligations.StepTakesTheFrontCommand := fun _ _ _ => step_cons rfl

/-- Settles O2: the step's other case. -/
theorem idleStepIsOneClockEdge : Obligations.IdleStepIsOneClockEdge := fun _ => step_idle

/-- Settles O4: nothing is listed in a memory after reset. -/
theorem resetMemoriesCanonical : Obligations.ResetMemoriesCanonical := by
  rw [Obligations.ResetMemoriesCanonical, Mem.wf_iff]
  exact ⟨⟨rfl, rfl, rfl⟩, rfl, rfl, rfl⟩

/-- Settles O5: `exec_sound` for a command, `step_sound` for a step. -/
theorem everyCommandCompletes : Obligations.EveryCommandCompletes := by
  refine ⟨fun i s => ?_, fun s => ?_, fun s t ht => ?_⟩
  · obtain ⟨t, ht, pending, -⟩ := exec_sound i s
    exact ⟨t, ht, pending⟩
  · obtain ⟨t, ht, -⟩ := step_sound s
    exact ⟨t, ht⟩
  · obtain ⟨u, hu, pending, -⟩ := step_sound s
    cases ht.symm.trans hu
    exact pending

/-- Settles O6: every change of a memory, from one byte put upwards, keeps the canonical form (`Mem.Sound`). -/
theorem memoriesStayCanonical : Obligations.MemoriesStayCanonical := fun _ _ canonical h => (step_mem_sound h).wf canonical

/-- Settles O7: OTP changes only by `State.otpOr`, which adds bits to a word. -/
theorem fusesNeverClear : Obligations.FusesNeverClear := fun _ _ a b h blown => (step_mem_sound h).fuses a b blown

end Sys2Proof.Machine

namespace Sys2Proof.Machine
open Sys2Proof

/-! ### A matched pair that ends the trailing core's inputs (O27)

The trailing core has come to the stamp of the pair, so its input forwarding queue gives up the inputs up to there (R544). -/

/-- Twin A runs with one store in its release buffer and an input of an earlier instruction in its input forwarding queue. -/
def storeAfterInput : State := clocked0 fun c =>
  (c.setTw false Tw.run).updTwin false fun x => { x with rb := [⟨.sram, 0, 0, 255, 5, false⟩], ifq := [⟨3, false, 0, 0⟩] }

/-- The state meets what the statement asks of a pair that matches. -/
theorem storeAfterInput_compares : Awake P.DCU storeAfterInput ∧ storeAfterInput.chip.twRuns false = true
    ∧ (storeAfterInput.chip.twin false).inj = 0 ∧ storeAfterInput.chip.rbNext false = some ⟨.sram, 0, 0, 255, 5, false⟩ := by
  decide +kernel

/-- The verdict takes the input from the queue, which marking the pair as matched does not. -/
theorem storeAfterInput_verdict_ifq : ((doDcuVerdict false .pair false false storeAfterInput.chip).twin false).ifq = []
    ∧ ((storeAfterInput.chip.rbMatched false).twin false).ifq = [⟨3, false, 0, 0⟩] := by decide +kernel

theorem exec_dcuVerdict (t : Bool) (k : DcuFinding) (x y : Bool) (s : State) :
    exec (.dcuVerdict t k x y) s = .next (s.onChip (doDcuVerdict t k x y)) := rfl

/-- Refutes O27: a DCU_VERDICT that matches the oldest pair also takes the inputs up to its stamp from the input forwarding queue. -/
theorem not_twinCommands : ¬ Obligations.TwinCommands := by
  rintro ⟨matched, -⟩
  obtain ⟨awake, runs, none, next⟩ := storeAfterInput_compares
  obtain ⟨taken, held⟩ := storeAfterInput_verdict_ifq
  obtain ⟨t, ht, -, red⟩ := matched false _ storeAfterInput awake runs none next
  obtain rfl := Host.Outcome.next.inj ((exec_dcuVerdict ..).symm.trans ht)
  rw [State.onChip_chip] at red
  rw [Chip.twin, red, ← Chip.twin, held] at taken
  exact List.cons_ne_nil _ _ taken

end Sys2Proof.Machine

namespace Sys2Proof.Machine
open Sys2Proof

/-! ### LAP.STAT through event occurrences (R567) -/

/-- LAP.STAT reads `w`, whose STATE is not RECORDING: no Lap trigger fires. -/
structure Chip.LapHolds (w : Word) (c : Chip) : Prop where
  rd : c.rd R.LAP_STAT = w
  idle : fget w F.LAP_STAT_STATE ≠ Ls.recording

namespace Chip.LapHolds
variable {w : Word} {c : Chip}

theorem congr {d : Chip} (h : c.LapHolds w) (hr : d.rd R.LAP_STAT = c.rd R.LAP_STAT) : d.LapHolds w := ⟨hr.trans h.rd, h.idle⟩

theorem wr (h : c.LapHolds w) {j : Nat} {v : Word} (hj : j ≠ R.LAP_STAT) : (c.wr j v).LapHolds w := h.congr (Chip.rd_wr_ne _ _ _ _ hj)

theorem setF (h : c.LapHolds w) {j n : Nat} {x : Fld} (hj : j ≠ R.LAP_STAT) : (c.setF j x n).LapHolds w := h.wr hj

theorem ite {d : Chip} {p : Prop} [Decidable p] (h : c.LapHolds w) (hd : d.LapHolds w) : (if p then c else d).LapHolds w := by
  split <;> assumption

theorem lapRec (h : c.LapHolds w) {r : LapRec} : (c.lapRec r).LapHolds w := h.congr (Chip.rd_lapRec _ _ _)

/-- PG_EVT of a page. -/
theorem setEvt (h : c.LapHolds w) {b : Nat} (i : Nat) (hb : b % 0x1000 = 0) : (c.setBit (b + H.EVT) i true).LapHolds w :=
  h.setF (by simp only [H.EVT, R.LAP_STAT]; omega)

/-! What an occurrence sets off, `go` raising the events that follow. -/

section
variable {go : Nat → Nat → Chip → Chip} {s : Nat} (hgo : ∀ b i c, b % 0x1000 = 0 → Chip.LapHolds w c → (go b i c).LapHolds w)
include hgo

theorem capUnit (h : c.LapHolds w) {u : Nat} (hu : u < 2) : (c.capUnit go s u).LapHolds w := by
  have apart : R.HTM_CAP_CFG u ≠ R.LAP_STAT ∧ R.HTM_CAP (2 * u) ≠ R.LAP_STAT ∧ R.HTM_CAP (2 * u) + 4 ≠ R.LAP_STAT := by
    simp only [R.HTM_CAP_CFG, R.HTM_CAP, R.LAP_STAT]
    omega
  obtain ⟨config, low, high⟩ := apart
  exact ite (ite (h.setF config) (hgo _ _ _ (by decide) (((h.wr low).wr high).setF config))) h

theorem pacerTake (h : c.LapHolds w) {n : Nat} : (c.pacerTake go s n).LapHolds w :=
  ite (hgo _ _ _ (by decide) (h.setF (by decide))) h

omit hgo in
/-- Outside RECORDING no trigger fires. -/
theorem lapTake (h : c.LapHolds w) : (c.lapTake go s).LapHolds w := by
  have idle : c.f R.LAP_STAT F.LAP_STAT_STATE ≠ 1 := by
    rw [Chip.f, h.rd]
    exact h.idle
  unfold Chip.lapTake
  split
  · rwa [if_neg (by simp [idle])]
  · exact h

omit hgo in
theorem twinTake (h : c.LapHolds w) {pulse tw : Bool} : (c.twinTake s pulse tw).LapHolds w :=
  ite (ite (ite h (h.congr rfl)) (h.congr rfl)) h

theorem twinsTake (h : c.LapHolds w) {pulse : Bool} : (c.twinsTake go s pulse).LapHolds w := by
  have taken : ((c.twinTake s pulse false).twinTake s pulse true).LapHolds w := h.twinTake.twinTake
  have counted : (((c.twinTake s pulse false).twinTake s pulse true).coalesced s).LapHolds w :=
    (taken.setF (by decide)).setF (by decide)
  exact ite (ite counted (hgo _ _ _ (by decide) counted)) taken

omit hgo in
theorem restTake (h : c.LapHolds w) : (c.restTake s).LapHolds w := by
  have sent : ∀ {d : Chip} {p : Prop} [Decidable p] {x : EvDest}, d.LapHolds w → (if p then d.deliver s x else d).LapHolds w :=
    fun hd => ite (congr hd rfl) hd
  exact sent (sent (sent h))

theorem occur (h : c.LapHolds w) {pulse : Bool} : (c.occur go s pulse).LapHolds w := by
  have arrived : ((if c.usedBy s then c.lapLong 0x07 3 [s] else c).txnArrival s).LapHolds w := congr (ite h.lapRec h) rfl
  have captured := forN_inv_lt (Chip.LapHolds w) 2 (fun u d => d.capUnit go s u) _ arrived fun _ hu _ hd => hd.capUnit hgo hu
  have masked : (Chip.maskTake s _).LapHolds w := ite (captured.setF (by decide)) captured
  have paced := forN_inv (Chip.LapHolds w) 16 (fun n d => d.pacerTake go s n) _ masked fun _ _ hd => hd.pacerTake hgo
  exact (paced.lapTake.twinsTake hgo).restTake

end

theorem raiseN (n : Nat) : ∀ b i c, b % 0x1000 = 0 → Chip.LapHolds w c → (raiseN n b i c).LapHolds w := by
  induction n with
  | zero => exact fun b i c hb h => h.setEvt i hb
  | succ n ih =>
    intro b i c hb h
    unfold Machine.raiseN
    dsimp only
    split
    · exact (h.setEvt i hb).occur ih
    · exact h.setEvt i hb

end Chip.LapHolds

/-- Outside RECORDING no event occurrence touches LAP.STAT. -/
theorem Chip.rd_lap_stat_raise (c : Chip) {b : Nat} (i : Nat) (hb : b % 0x1000 = 0) (idle : c.lapState ≠ Ls.recording) :
    (c.raise b i).rd R.LAP_STAT = c.rd R.LAP_STAT := (LapHolds.raiseN _ b i c hb ⟨rfl, idle⟩).rd

/-! ### Replay commands (O60) -/

theorem Chip.lapState_setLap (c : Chip) {n : Nat} (hn : n < 16) : (c.setLap n).lapState = n := Chip.f_setF_of_lt _ _ _ _ (by decide) hn

/-- Loading an anchor leaves the device state (R571). -/
theorem Chip.loadAnchor_mode (c : Chip) (a : HwAnchor) : (c.loadAnchor a).mode = c.mode :=
  have loaded := foldl_inv (Chip.Beside (c.resetKeys detKey)) a.regs (fun c e => c.wr e.1 e.2) _ (.refl _) fun _ _ h => h.trans (wr_beside _ _ _)
  loaded.mode

/-- The chip that replays from ring offset `pos` on with anchor `a` loaded, its herd time being `ht` in units of 2^−48 ns and `ns` in ns
(R571). -/
def Chip.replayFrom (c : Chip) (a : HwAnchor) (pos ht ns : Nat) : Chip :=
  let c : Chip := (c.loadAnchor a).updMeas fun m => { m with frames := [] }
  let c : Chip := (c.updTime fun t => { t with ht := ht }).updRed fun x => { x with pos := pos, brk := false, rht := ns }
  (c.toReset R.LAP_DIV).setLap Ls.replaying

section
variable (c : Chip) (a : HwAnchor) (pos ht ns : Nat)

theorem Chip.replayFrom_mode : (c.replayFrom a pos ht ns).mode = c.mode := by
  rw [replayFrom, setLap, setF_mode, toReset_mode, updRed_mode, updTime_mode, updMeas_mode, loadAnchor_mode]
theorem Chip.replayFrom_ht : (c.replayFrom a pos ht ns).time.ht = ht := by simp [replayFrom, setLap, updTime]
theorem Chip.replayFrom_pos : (c.replayFrom a pos ht ns).red.pos = pos := by simp [replayFrom, setLap]
theorem Chip.replayFrom_frames : (c.replayFrom a pos ht ns).meas.frames = [] := by simp [replayFrom, setLap, updMeas]
theorem Chip.replayFrom_lapState : (c.replayFrom a pos ht ns).lapState = Ls.replaying := lapState_setLap _ (by decide)

/-- The units that an anchor holds. -/
theorem Chip.replayFrom_units : (c.replayFrom a pos ht ns).str = a.str ∧ (c.replayFrom a pos ht ns).bpt = a.bpt
    ∧ (c.replayFrom a pos ht ns).hrd = a.hrd
    ∧ (c.replayFrom a pos ht ns).isl = a.isl ∧ (c.replayFrom a pos ht ns).imp = a.imp ∧ (c.replayFrom a pos ht ns).pwm = a.pwm := by
  simp [replayFrom, setLap, updMeas, loadAnchor]

end

/-- The registers of TWN_x that the start of a replay writes. -/
def replayTwinKeys (t : Bool) : List Nat :=
  [R.TWN_STAMP (b2n t) 0, R.TWN_STAMP (b2n t) 0 + 4, R.TWN_DEEP (b2n t) 0, R.TWN_DEEP (b2n t) 0 + 4, R.TWN_STAT (b2n t)]

/-- A twin that starts with a replay, or stays halted, changes its own page and its own state alone (R572). -/
structure State.TwinReady (s t : State) (b : Bool) : Prop where
  quiet : Quiet s t
  kept : Chip.Kept false (replayTwinKeys b) [.red] s.chip t.chip
  pos : t.chip.red.pos = s.chip.red.pos

theorem State.replayTwin_ready (s : State) (b : Bool) (o : Nat) : s.TwinReady (s.replayTwin b o) b := by
  unfold State.replayTwin
  dsimp only
  split
  · refine ⟨s.quiet_onChip _, ?_, ?_⟩
    · exact ((((Chip.Kept.refl.updTwin (by simp)).wr64 (by simp [replayTwinKeys]) (by simp [replayTwinKeys])).wr64 (by simp [replayTwinKeys])
      (by simp [replayTwinKeys])).setF (by simp [replayTwinKeys])).setF (by simp [replayTwinKeys])
    · rw [State.onChip_chip, Chip.setTw, Chip.setF_red, Chip.showRb, Chip.setF_red, Chip.wr64_red, Chip.wr64_red, Chip.updTwin, Chip.updRed_red]
  · split
    · exact ⟨s.quiet_onChip _, Chip.Kept.refl.setF (by simp [replayTwinKeys]), by rw [State.onChip_chip, Chip.setTw, Chip.setF_red]⟩
    · exact ⟨⟨rfl, rfl⟩, .refl, rfl⟩

theorem lap_stat_notMem_replayTwinKeys : ∀ b, R.LAP_STAT ∉ replayTwinKeys b := by decide

/-- What a replay shows where it has started: of the loaded chip only the twins change further. -/
structure State.Replays (s t : State) (a : HwAnchor) (pos ht : Nat) : Prop where
  quiet : Quiet s t
  state : t.chip.lapState = Ls.replaying
  ht : t.chip.time.ht = ht
  pos : t.chip.red.pos = pos
  frames : t.chip.meas.frames = []
  mode : t.chip.mode = s.chip.mode
  units : t.chip.str = a.str ∧ t.chip.bpt = a.bpt ∧ t.chip.hrd = a.hrd ∧ t.chip.isl = a.isl ∧ t.chip.imp = a.imp ∧ t.chip.pwm = a.pwm

theorem State.replays_of_ready {s u v : State} {g : Chip → Chip} {a : HwAnchor} {pos ht ns : Nat} (loads : g s.chip = s.chip.replayFrom a pos ht ns)
    (first : (s.onChip g).TwinReady u false) (second : u.TwinReady v true) : s.Replays v a pos ht := by
  have loaded : (s.onChip g).chip = s.chip.replayFrom a pos ht ns := loads
  have firstKept := first.kept
  have firstPos := first.pos
  rw [loaded] at firstKept firstPos
  have part (p : Part) (hp : p ∉ [Part.stale, .red]) : p.same (s.chip.replayFrom a pos ht ns) v.chip := by
    have stale : p ≠ .stale := fun e => hp (by simp [e])
    have red : p ∉ [Part.red] := fun e => hp (by simp_all)
    have step (c d e : Chip) (hcd : p.same c d) (hde : p.same d e) : p.same c e := by
      cases p <;> exact Eq.trans hde hcd
    exact step _ _ _ (firstKept.parts p (by simp) (fun _ => stale) red) (second.kept.parts p (by simp) (fun _ => stale) red)
  have stat : v.chip.rd R.LAP_STAT = (s.chip.replayFrom a pos ht ns).rd R.LAP_STAT :=
    (second.kept.regs _ (by simp) (lap_stat_notMem_replayTwinKeys _)).trans (firstKept.regs _ (by simp) (lap_stat_notMem_replayTwinKeys _))
  obtain ⟨str, bpt, hrd, isl, imp, pwm⟩ := s.chip.replayFrom_units a pos ht ns
  constructor
  case quiet => exact ⟨second.quiet.1.trans first.quiet.1, second.quiet.2.trans first.quiet.2⟩
  case state => exact (Chip.f_congr stat _).trans (Chip.replayFrom_lapState ..)
  case ht => exact (congrArg TimeSt.ht (part .time (by decide))).trans (Chip.replayFrom_ht ..)
  case pos => exact second.pos.trans (firstPos.trans (Chip.replayFrom_pos ..))
  case frames => exact (congrArg MeasSt.frames (part .meas (by decide))).trans (Chip.replayFrom_frames ..)
  case mode => exact Eq.trans (part .mode (by decide)) (Chip.replayFrom_mode ..)
  case units =>
    exact ⟨Eq.trans (part .str (by decide)) str, Eq.trans (part .bpt (by decide)) bpt, Eq.trans (part .hrd (by decide)) hrd,
      Eq.trans (part .isl (by decide)) isl, Eq.trans (part .imp (by decide)) imp, Eq.trans (part .pwm (by decide)) pwm⟩

/-- The ring offset at which LAP.REPLAY_CFG starts a replay. -/
abbrev Chip.replayAt (c : Chip) : Nat := 8 * c.f R.LAP_REPLAY_CFG F.LAP_REPLAY_CFG_START % ringSize

section
variable {s : State} {w : Writer}

/-- A replay that starts loads its anchor, then readies the twins (R571). -/
theorem State.replayStart_loads (i : Nat) (replay : s.chip.mode = .replay)
    (state : s.chip.lapState = Ls.frozen ∨ s.chip.lapState = Ls.importing ∨ s.chip.lapState = Ls.ended)
    (long : (s.mem.lapAt s.chip.replayAt 0).short = false) (kind : (s.mem.lapAt s.chip.replayAt 0).kind = 0x03) :
    s.replayStart i = ((s.onChip fun c => c.replayFrom
      ((c.red.anchors.find? fun a => a.pos % ringSize = s.chip.replayAt).getD
        (importedAnchor ((s.mem.lapAt s.chip.replayAt 0).data.flatMap words64)))
      ((s.chip.replayAt + (s.mem.lapAt s.chip.replayAt 0).bytes) % ringSize) ((s.mem.lapAt s.chip.replayAt 0).ht * 2 ^ 48)
      (s.mem.lapAt s.chip.replayAt 0).ht).replayTwin false s.chip.replayAt).replayTwin true s.chip.replayAt :=
  if_pos ⟨replay, state, long, kind⟩

/-- REPLAY_START with a HW_ANCHOR at START (R571). -/
theorem mdReplayStart_starts {r : LapRec} (may : May w R.LAP_CMD s) (replay : s.chip.mode = .replay)
    (state : s.chip.lapState = Ls.frozen ∨ s.chip.lapState = Ls.importing ∨ s.chip.lapState = Ls.ended)
    (record : s.mem.lapAt s.chip.replayAt 0 = r) (long : r.short = false) (kind : r.kind = 0x03) :
    s.Replays (mdReplayStart w theKey s) ((s.chip.red.anchors.find? fun a => a.pos % ringSize = s.chip.replayAt).getD
      (importedAnchor (r.data.flatMap words64))) ((s.chip.replayAt + r.bytes) % ringSize) (r.ht * 2 ^ 48) := by
  obtain ⟨powered, running, allowed⟩ := may
  subst record
  rw [mdReplayStart, State.lapVia, State.cmd_of _ _ _ _ powered running allowed]
  rw [State.replayStart_loads _ replay state long kind]
  exact State.replays_of_ready rfl (State.replayTwin_ready _ _ _) (State.replayTwin_ready _ _ _)

/-- Outside REPLAY a replay does not start (R571). -/
theorem mdReplayStart_refused (may : May w R.LAP_CMD s) (mode : s.chip.mode ≠ .replay) :
    mdReplayStart w theKey s = s.onChip fun c => c.refuse R.LAP_CMD w.ini.code := by
  obtain ⟨powered, running, allowed⟩ := may
  rw [mdReplayStart, State.lapVia, State.cmd_of _ _ _ _ powered running allowed]
  exact if_neg fun h => mode h.1

/-- REPLAY_CONT of a paused replay (R573). -/
theorem doReplayCont_resumes (may : May w R.LAP_CMD s) (mode : s.chip.mode = .replay) (paused : s.chip.lapState = Ls.paused) :
    doReplayCont w theKey s.chip = s.chip.setLap Ls.replaying := by
  obtain ⟨powered, running, allowed⟩ := may
  exact (Chip.cmd_of _ _ _ _ powered running allowed).trans (if_pos ⟨mode, paused⟩)

theorem doReplayCont_refused (may : May w R.LAP_CMD s) (running : s.chip.mode ≠ .replay ∨ s.chip.lapState ≠ Ls.paused) :
    doReplayCont w theKey s.chip = s.chip.refuse R.LAP_CMD w.ini.code := by
  obtain ⟨powered, clock, allowed⟩ := may
  exact (Chip.cmd_of _ _ _ _ powered clock allowed).trans (if_neg (not_and_or.2 running))

/-- REPLAY_BREAK pauses the replay (R573). -/
theorem doReplayBreak_pauses (awake : Awake P.LAP s) (replaying : s.chip.lapState = Ls.replaying) (met : s.chip.red.brk = true) :
    doReplayBreak s.chip = (s.chip.updRed fun x => { x with brk := false }).setLap Ls.paused := by
  obtain ⟨powered, running, unhalted⟩ := awake
  exact (Chip.clocked_of _ _ _ powered running unhalted).trans (if_pos ⟨replaying, met⟩)

/-- The chip at the end of a replay, at a GAP or not (R573). -/
def Chip.replayEnded (c : Chip) (gap : Bool) : Chip := (if gap then c.flag R.LAP_STAT F.LAP_STAT_GAP_STOP true else c).setLap Ls.ended

theorem mdReplayEnd_ends {gap : Bool} (awake : Awake P.LAP s) (replaying : s.chip.lapState = Ls.replaying)
    (ends : s.replayOver = some gap) : mdReplayEnd s = s.onChip fun c => (c.replayEnded gap).raise P.LAP 3 := by
  obtain ⟨powered, running, unhalted⟩ := awake
  rw [mdReplayEnd, if_pos (by simp [Chip.clockOn, powered, running, unhalted, replaying]), ends]
  rfl

theorem mdReplayEnd_goes_on (left : s.replayOver = none) : mdReplayEnd s = s := by
  rw [mdReplayEnd, left]
  exact ite_self s

/-- The end of a replay shows in LAP.STAT, which its event does not touch (R573). -/
theorem Chip.replayEnded_shows (c : Chip) (gap : Bool) :
    Chip.Kept true [R.LAP_STAT] [] c ((c.replayEnded gap).raise P.LAP 3)
      ∧ ((c.replayEnded gap).raise P.LAP 3).lapState = Ls.ended
      ∧ ((c.replayEnded gap).raise P.LAP 3).is R.LAP_STAT F.LAP_STAT_GAP_STOP = (gap || c.is R.LAP_STAT F.LAP_STAT_GAP_STOP) := by
  have ended : (c.replayEnded gap).lapState = Ls.ended := Chip.lapState_setLap _ (by decide)
  have stat := (c.replayEnded gap).rd_lap_stat_raise (b := P.LAP) 3 (by decide) (by rw [ended]; decide)
  have marked : Chip.Kept true [R.LAP_STAT] [] c (if gap then c.flag R.LAP_STAT F.LAP_STAT_GAP_STOP true else c) := by
    cases gap with
    | false => exact .refl
    | true => exact Chip.Kept.refl.flag (by simp)
  refine ⟨(marked.setF (by simp)).raise (by decide), (Chip.f_congr stat _).trans ended, (Chip.is_congr stat _).trans ?_⟩
  have beside (d : Chip) : (d.setLap Ls.ended).is R.LAP_STAT F.LAP_STAT_GAP_STOP = d.is R.LAP_STAT F.LAP_STAT_GAP_STOP := by
    rw [Chip.is, Chip.setLap, Chip.f_setF_beside _ _ _ _ _ (by decide) (by decide), ← Chip.is]
  rw [Chip.replayEnded, beside]
  cases gap with
  | false => rfl
  | true => exact Chip.is_flag _ _ _ _ (by decide) (by decide)

end

/-- Settles O60: a replay starts from the loaded chip, beside which only the twins change; every other command sets LAP.STAT.STATE. -/
theorem replayCommands : Obligations.ReplayCommands := by
  refine ⟨?_, ?_, ?_, ?_, ?_, ?_, ?_, ?_, ?_⟩
  · intro w r s may mode state record long kind
    have h := mdReplayStart_starts may mode state record long kind
    exact ⟨_, rfl, h.quiet, h.state, h.ht, h.pos, h.frames, h.mode.trans mode⟩
  · intro w r a s may mode frozen record long kind found
    have h := mdReplayStart_starts may mode (.inl frozen) record long kind
    rw [found] at h
    exact ⟨_, rfl, h.quiet, h.units⟩
  · intro w s may mode
    refine ⟨_, rfl, ?_⟩
    rw [mdReplayStart_refused may mode]
    exact ⟨s.quiet_onChip _, s.onChip_chip _⟩
  · intro w s may mode paused
    refine ⟨_, rfl, ⟨⟨rfl, rfl⟩, ?_⟩, ?_⟩ <;> rw [State.onChip_chip, doReplayCont_resumes may mode paused]
    · exact Chip.Kept.refl.setF (by simp)
    · exact Chip.lapState_setLap _ (by decide)
  · exact fun w s may elsewhere => ⟨_, rfl, ⟨rfl, rfl⟩, doReplayCont_refused may elsewhere⟩
  · intro s awake replaying met
    refine ⟨_, rfl, ⟨⟨rfl, rfl⟩, ?_⟩, ?_, ?_⟩ <;> rw [State.onChip_chip, doReplayBreak_pauses awake replaying met]
    · exact (Chip.Kept.refl.updRed (by simp)).setF (by simp)
    · exact Chip.lapState_setLap _ (by decide)
    · rfl
  · intro s awake replaying ends
    obtain ⟨kept, ended, gap⟩ := s.chip.replayEnded_shows false
    refine ⟨_, rfl, ?_⟩
    rw [mdReplayEnd_ends awake replaying ends]
    exact ⟨⟨s.quiet_onChip _, kept⟩, ended, gap⟩
  · intro s awake replaying ends
    obtain ⟨kept, ended, gap⟩ := s.chip.replayEnded_shows true
    refine ⟨_, rfl, ?_⟩
    rw [mdReplayEnd_ends awake replaying ends]
    exact ⟨⟨s.quiet_onChip _, kept⟩, ended, gap⟩
  · exact fun s _ _ _ left => ⟨_, rfl, mdReplayEnd_goes_on left⟩

end Sys2Proof.Machine

namespace Sys2Proof.Machine
open Sys2Proof

/-! ### Phases of the core regulator (R587 to R592) -/

/-- Distinct powers of two below the fourth sum to less than 16. -/
theorem sum_two_pow_lt {l : List Nat} (distinct : l.Nodup) (below : ∀ n ∈ l, n < 4) : (l.map (2 ^ ·)).sum < 16 := by
  have sub : l.toFinset ⊆ Finset.range 4 := fun n hn => Finset.mem_range.2 (below n (List.mem_toFinset.1 hn))
  calc (l.map (2 ^ ·)).sum = ∑ n ∈ l.toFinset, 2 ^ n := (List.sum_toFinset _ distinct).symm
    _ ≤ ∑ n ∈ Finset.range 4, 2 ^ n := Finset.sum_le_sum_of_subset sub
    _ < 16 := by decide

section
variable (c : Chip)

theorem Chip.phAvail_lt {n : Nat} (h : n ∈ c.phAvail) : n < 4 := by
  obtain ⟨i, -, rfl⟩ := List.mem_map.1 (List.mem_filter.1 h).1
  exact Nat.mod_lt _ (by decide)

theorem Chip.phAvail_nodup : c.phAvail.Nodup := by
  refine (List.Nodup.map_on ?_ List.nodup_range).filter _
  intro i hi j hj h
  rw [List.mem_range] at hi hj
  omega

theorem Chip.phFirst_lt {m n : Nat} (h : n ∈ c.phFirst m) : n < 4 := by
  rcases List.mem_append.1 (List.mem_of_mem_take h) with h | h <;> exact c.phAvail_lt (List.mem_filter.1 h).1

theorem Chip.phFirst_nodup (n : Nat) : (c.phFirst n).Nodup := by
  refine List.Nodup.sublist (List.take_sublist _ _) (List.Nodup.append (c.phAvail_nodup.filter _) (c.phAvail_nodup.filter _) ?_)
  intro n cool warm
  have out := (List.mem_filter.1 cool).2
  rw [(List.mem_filter.1 warm).2] at out
  exact Bool.false_ne_true out

theorem Chip.phMask_lt (n : Nat) : c.phMask n < 16 := sum_two_pow_lt (c.phFirst_nodup n) fun _ h => c.phFirst_lt h

end

/-- In `c` and `d` the same phases are available, in warning and active, from the same rotation base. -/
structure Chip.SamePhases (c d : Chip) : Prop where
  base : d.f R.VCR_STAT F.VCR_STAT_BASE = c.f R.VCR_STAT F.VCR_STAT_BASE
  active : d.f R.VCR_STAT F.VCR_STAT_ACTIVE = c.f R.VCR_STAT F.VCR_STAT_ACTIVE
  shut : ∀ n < 4, d.phShut n = c.phShut n
  warn : ∀ n < 4, d.phWarn n = c.phWarn n

namespace Chip.SamePhases
variable {c d : Chip} (h : c.SamePhases d)
include h

theorem phN : d.phN = c.phN := by rw [Chip.phN, Chip.phN, h.active]

theorem phAvail : d.phAvail = c.phAvail := by
  rw [Chip.phAvail, Chip.phAvail, h.base]
  refine List.filter_congr fun n hn => ?_
  obtain ⟨i, -, rfl⟩ := List.mem_map.1 hn
  rw [h.shut _ (Nat.mod_lt _ (by decide))]

theorem phFirst (n : Nat) : d.phFirst n = c.phFirst n := by
  have warn (k : Nat) (hk : k ∈ c.phAvail) : d.phWarn k = c.phWarn k := h.warn k (c.phAvail_lt hk)
  rw [Chip.phFirst, Chip.phFirst, h.phAvail, List.filter_congr warn, List.filter_congr fun k hk => by rw [warn k hk]]

theorem phMask (n : Nat) : d.phMask n = c.phMask n := by rw [Chip.phMask, Chip.phMask, h.phFirst]

end Chip.SamePhases

theorem evKey_vcr : evKey R.VCR_STAT = false ∧ evKey R.VCR_CNT_0 = false ∧ evKey R.VCR_CNT_1 = false
    ∧ ∀ n < 4, evKey (R.VCR_PH_STAT n) = false := by decide

section
variable (c : Chip) (n : Nat)

theorem Chip.setPhases_kept : Chip.Kept true [R.VCR_STAT] [] c (c.setPhases n) := (Chip.Kept.refl.setF (by simp)).raiseIf (by decide)

theorem Chip.rd_setPhases : (c.setPhases n).rd R.VCR_STAT = (c.setF R.VCR_STAT F.VCR_STAT_ACTIVE (c.phMask n)).rd R.VCR_STAT :=
  (raiseIf_kept _ _ 4 (by decide)).regs _ (fun _ => by decide) (by simp)

/-- ACTIVE shows the first `n` phases (R590). -/
theorem Chip.active_setPhases : (c.setPhases n).f R.VCR_STAT F.VCR_STAT_ACTIVE = c.phMask n :=
  (f_congr (c.rd_setPhases n) _).trans (f_setF_of_lt _ _ _ _ (by decide) (c.phMask_lt n))

/-- The fields of VCR.STAT beside ACTIVE stay. -/
theorem Chip.f_setPhases_beside {x : Fld} (word : x.hi < 32) (beside : x.hi < 24 ∨ 27 < x.lo) :
    (c.setPhases n).f R.VCR_STAT x = c.f R.VCR_STAT x :=
  (f_congr (c.rd_setPhases n) _).trans (f_setF_beside _ _ _ _ _ word beside)

theorem Chip.is_setPhases_beside {x : Fld} (word : x.hi < 32) (beside : x.hi < 24 ∨ 27 < x.lo) :
    (c.setPhases n).is R.VCR_STAT x = c.is R.VCR_STAT x := by rw [is, c.f_setPhases_beside n word beside, ← is]

end

/-! #### One switching period (R588, R589) -/

/-- The registers of VCR that show the phases. -/
def phaseKeys : List Nat := [R.VCR_PH_STAT 0, R.VCR_PH_STAT 1, R.VCR_PH_STAT 2, R.VCR_PH_STAT 3]

theorem mem_phaseKeys : ∀ n < 4, R.VCR_PH_STAT n ∈ phaseKeys := by decide

theorem vcr_stat_notMem_phaseKeys : R.VCR_STAT ∉ phaseKeys := by decide

/-- The chip with the currents of a period taken in. -/
def Chip.phLoaded (c : Chip) (amps : List (BitVec 8)) : Chip := (c.phLoad amps).2.2

section
variable (c : Chip) (amps : List (BitVec 8))

theorem Chip.phLoaded_kept : Chip.Kept false phaseKeys [.pow] c (c.phLoaded amps) := by
  have shown := forN_inv_lt (Chip.Kept false phaseKeys [.pow] c) 4
    (fun n d => d.setF (R.VCR_PH_STAT n) F.VCR_PH_STAT_I (nth amps n 0).toNat) c .refl fun n hn _ h => h.setF (mem_phaseKeys n hn)
  exact shown.updPow (g := fun p => { p with load := (amps.map BitVec.toNat).sum }) (by simp)

theorem Chip.phLoaded_pow : (c.phLoaded amps).pow = { c.pow with load := (amps.map (·.toNat)).sum } := by
  have kept := forN_inv (fun d : Chip => d.pow = c.pow) 4
    (fun n d => d.setF (R.VCR_PH_STAT n) F.VCR_PH_STAT_I (nth amps n 0).toNat) c rfl fun _ _ h => (setF_pow ..).trans h
  exact congrArg (fun p : PowSt => { p with load := (amps.map BitVec.toNat).sum }) kept

/-- The fields of PHn_STAT beside the current stay. -/
theorem Chip.is_phLoaded {n : Nat} {x : Fld} (word : x.hi < 32) (beside : 7 < x.lo) :
    (c.phLoaded amps).is (R.VCR_PH_STAT n) x = c.is (R.VCR_PH_STAT n) x := by
  refine forN_inv (fun d : Chip => d.is (R.VCR_PH_STAT n) x = c.is (R.VCR_PH_STAT n) x) 4
    (fun n d => d.setF (R.VCR_PH_STAT n) F.VCR_PH_STAT_I (nth amps n 0).toNat) c rfl fun m d h => ?_
  by_cases same : R.VCR_PH_STAT m = R.VCR_PH_STAT n
  · rw [same, is_setF_beside _ _ _ _ _ word (.inr beside), h]
  · rw [is, f_setF_ne _ _ _ _ _ _ same, ← is, h]

theorem Chip.phLoaded_same : c.SamePhases (c.phLoaded amps) where
  base := (c.phLoaded_kept amps).f_eq (by simp) vcr_stat_notMem_phaseKeys _
  active := (c.phLoaded_kept amps).f_eq (by simp) vcr_stat_notMem_phaseKeys _
  shut _ _ := c.is_phLoaded amps (by decide) (by decide)
  warn _ _ := c.is_phLoaded amps (by decide) (by decide)

theorem Chip.phLoaded_iAdd (n : Nat) : (c.phLoaded amps).iAdd n = c.iAdd n :=
  congrArg (n * ·) ((c.phLoaded_kept amps).f_eq (by simp) (by decide) _)

theorem Chip.phLoaded_maxPh : (c.phLoaded amps).maxPh = c.maxPh := (c.phLoaded_kept amps).f_eq (by simp) (by decide) _

theorem Chip.phLoaded_step : (c.phLoaded amps).f R.VCR_THR F.VCR_THR_STEP = c.f R.VCR_THR F.VCR_THR_STEP :=
  (c.phLoaded_kept amps).f_eq (by simp) (by decide) _

theorem Chip.phLoaded_shedCond (i : Nat) : (c.phLoaded amps).shedCond i = c.shedCond i := by
  rw [shedCond, shedCond, (c.phLoaded_same amps).phN, (c.phLoaded_kept amps).f_eq (by simp) (by decide),
    (c.phLoaded_kept amps).f_eq (by simp) (by decide)]

/-- The chip after a period whose load `i` asks for a step, for one more phase, for one less, or for none of these (R588, R589). -/
theorem Chip.phPeriod_eq {i : Nat} (load : (amps.map (·.toNat)).sum = i) (due : Bool) : c.phPeriod amps due =
    if 2 * c.pow.load + 5 * c.f R.VCR_THR F.VCR_THR_STEP < 2 * i then
      (((((c.phLoaded amps).setPhases (max c.phN (min c.maxPh c.phAvail.length))).incSat R.VCR_CNT_0 F.VCR_CNT_0_ADDS
        (max c.phN (min c.maxPh c.phAvail.length) - c.phN)).incSat R.VCR_CNT_1 F.VCR_CNT_1_STEPS).showShed false).raise P.VCR 2
    else if c.iAdd c.phN < i ∧ c.phN < c.maxPh ∧ c.phN < c.phAvail.length then
      (((c.phLoaded amps).setPhases (c.phN + 1)).incSat R.VCR_CNT_0 F.VCR_CNT_0_ADDS).showShed false
    else if due ∧ c.shedCond i then
      let d := ((c.phLoaded amps).setPhases (c.phN - 1)).incSat R.VCR_CNT_0 F.VCR_CNT_0_SHEDS
      d.showShed (d.shedCond i)
    else (c.phLoaded amps).showShed (c.shedCond i) := by
  subst load
  have same := c.phLoaded_same amps
  rw [← same.phN, ← same.phAvail, ← c.phLoaded_iAdd amps, ← c.phLoaded_maxPh amps, ← c.phLoaded_step amps, ← c.phLoaded_shedCond amps]
  rfl

end

/-- What the phases show after `n` of them were chosen in a period: the frame, ACTIVE, and a counter `x` of VCR_CNT_0 that took `m`. -/
structure Chip.PhasesTaken (c d : Chip) (amps : List (BitVec 8)) (n m : Nat) (x : Fld) : Prop where
  kept : Chip.Kept true (R.VCR_STAT :: R.VCR_CNT_0 :: phaseKeys) [.pow] c d
  active : d.f R.VCR_STAT F.VCR_STAT_ACTIVE = c.phMask n
  count : d.f R.VCR_CNT_0 x = min (c.f R.VCR_CNT_0 x + m) (2 ^ x.width - 1)
  pow : d.pow = { c.pow with load := (amps.map (·.toNat)).sum }

theorem Chip.phasesTaken (c : Chip) (amps : List (BitVec 8)) (n m : Nat) {x : Fld} (word : x.hi < 32) :
    c.PhasesTaken (((c.phLoaded amps).setPhases n).incSat R.VCR_CNT_0 x m) amps n m x := by
  have loaded := c.phLoaded_kept amps
  have chosen := (c.phLoaded amps).setPhases_kept n
  constructor
  case kept =>
    refine ((loaded.toEv.mono (fun k hk => ?_) fun _ h => h).trans (chosen.mono ?_ (by simp))).incSat (by simp)
    · exact List.mem_cons_of_mem _ (List.mem_cons_of_mem _ hk)
    · simp
  case active =>
    rw [incSat, f_setF_ne _ _ _ _ _ _ (by decide), active_setPhases]
    exact (c.phLoaded_same amps).phMask n
  case count =>
    rw [f_incSat _ _ word, chosen.f_eq (fun _ => evKey_vcr.2.1) (by decide), loaded.f_eq (by simp) (by decide)]
  case pow => exact (chosen.pow_eq (by simp)).trans (c.phLoaded_pow amps)

namespace Chip.PhasesTaken
variable {c d : Chip} {amps : List (BitVec 8)} {n m : Nat} {x : Fld} (h : c.PhasesTaken d amps n m x)
include h

/-- SHED_PEND lies beside all of it. -/
theorem showShed (b : Bool) : c.PhasesTaken (d.showShed b) amps n m x where
  kept := h.kept.flag (by simp)
  active := (f_setF_beside _ _ _ _ _ (by decide) (by decide)).trans h.active
  count := (f_setF_ne _ _ _ _ _ _ (by decide)).trans h.count
  pow := (flag_pow ..).trans h.pow

end Chip.PhasesTaken

theorem Chip.regulator_of {c : Chip} (powered : c.powered = true) (runs : c.halted P.VCR = false) (g : Chip → Chip) : c.regulator g = g c := by
  rw [regulator, viaShd_of powered, if_neg (by simp [runs])]

theorem amps_sum (i0 i1 i2 i3 : BitVec 8) :
    (([i0, i1, i2, i3] : List (BitVec 8)).map (·.toNat)).sum = i0.toNat + i1.toNat + i2.toNat + i3.toNat := by
  simp [Nat.add_assoc]

section
variable {s : State} (i0 i1 i2 i3 : BitVec 8)

theorem doPhaseAdd_adds (powered : s.chip.powered = true) (runs : s.chip.halted P.VCR = false)
    (level : 2 * (i0.toNat + i1.toNat + i2.toNat + i3.toNat) ≤ 2 * s.chip.pow.load + 5 * s.chip.f R.VCR_THR F.VCR_THR_STEP)
    (above : s.chip.iAdd s.chip.phN < i0.toNat + i1.toNat + i2.toNat + i3.toNat) (room : s.chip.phN < s.chip.maxPh)
    (left : s.chip.phN < s.chip.phAvail.length) :
    s.chip.PhasesTaken (doPhaseAdd i0 i1 i2 i3 s.chip) [i0, i1, i2, i3] (s.chip.phN + 1) 1 F.VCR_CNT_0_ADDS
      ∧ (doPhaseAdd i0 i1 i2 i3 s.chip).is R.VCR_STAT F.VCR_STAT_SHED_PEND = false := by
  rw [doPhaseAdd, Chip.regulator_of powered runs, Chip.phPeriod_eq _ _ (amps_sum i0 i1 i2 i3), if_neg (Nat.not_lt.2 level),
    if_pos ⟨above, room, left⟩]
  exact ⟨(s.chip.phasesTaken _ _ _ (by decide)).showShed false, Chip.is_flag _ _ _ _ (by decide) (by decide)⟩

theorem doPhaseShed_sheds {i : Nat} (powered : s.chip.powered = true) (runs : s.chip.halted P.VCR = false)
    (load : i = i0.toNat + i1.toNat + i2.toNat + i3.toNat) (sheds : s.chip.shedCond i = true) (below : i ≤ s.chip.iAdd s.chip.phN)
    (level : 2 * i ≤ 2 * s.chip.pow.load + 5 * s.chip.f R.VCR_THR F.VCR_THR_STEP) :
    s.chip.PhasesTaken (doPhaseShed i0 i1 i2 i3 s.chip) [i0, i1, i2, i3] (s.chip.phN - 1) 1 F.VCR_CNT_0_SHEDS := by
  rw [doPhaseShed, Chip.regulator_of powered runs, Chip.phPeriod_eq _ _ (amps_sum i0 i1 i2 i3), ← load, if_neg (Nat.not_lt.2 level),
    if_neg fun adds => Nat.not_lt.2 below adds.1, if_pos ⟨rfl, sheds⟩]
  exact (s.chip.phasesTaken _ _ _ (by decide)).showShed _

/-- PHASE_STEP also counts the step (R589). -/
theorem doPhaseStep_steps (powered : s.chip.powered = true) (runs : s.chip.halted P.VCR = false)
    (step : 2 * s.chip.pow.load + 5 * s.chip.f R.VCR_THR F.VCR_THR_STEP < 2 * (i0.toNat + i1.toNat + i2.toNat + i3.toNat)) :
    Chip.Kept true [R.VCR_STAT, R.VCR_CNT_0, R.VCR_CNT_1, R.VCR_PH_STAT 0, R.VCR_PH_STAT 1, R.VCR_PH_STAT 2, R.VCR_PH_STAT 3] [.pow] s.chip
        (doPhaseStep i0 i1 i2 i3 s.chip)
      ∧ (doPhaseStep i0 i1 i2 i3 s.chip).f R.VCR_STAT F.VCR_STAT_ACTIVE
        = s.chip.phMask (max s.chip.phN (min s.chip.maxPh s.chip.phAvail.length))
      ∧ (doPhaseStep i0 i1 i2 i3 s.chip).f R.VCR_CNT_1 F.VCR_CNT_1_STEPS
        = min (s.chip.f R.VCR_CNT_1 F.VCR_CNT_1_STEPS + 1) (2 ^ F.VCR_CNT_1_STEPS.width - 1)
      ∧ (doPhaseStep i0 i1 i2 i3 s.chip).is R.VCR_STAT F.VCR_STAT_SHED_PEND = false := by
  rw [doPhaseStep, Chip.regulator_of powered runs, Chip.phPeriod_eq _ _ (amps_sum i0 i1 i2 i3), if_pos step]
  have taken := s.chip.phasesTaken [i0, i1, i2, i3] (max s.chip.phN (min s.chip.maxPh s.chip.phAvail.length))
    (max s.chip.phN (min s.chip.maxPh s.chip.phAvail.length) - s.chip.phN) (x := F.VCR_CNT_0_ADDS) (by decide)
  obtain ⟨stat, -, cnt1, -⟩ := evKey_vcr
  refine ⟨(((taken.kept.mono ?_ fun _ h => h).incSat (by simp)).flag (by simp)).raise (by decide), ?_, ?_, ?_⟩
  · simp [phaseKeys]
  · rw [Chip.f_raise _ _ _ _ _ (by decide) stat, Chip.showShed, Chip.flag, Chip.f_setF_beside _ _ _ _ _ (by decide) (by decide),
      Chip.incSat, Chip.f_setF_ne _ _ _ _ _ _ (by decide), taken.active]
  · rw [Chip.f_raise _ _ _ _ _ (by decide) cnt1, Chip.showShed, Chip.flag, Chip.f_setF_ne _ _ _ _ _ _ (by decide),
      Chip.f_incSat _ _ (by decide), taken.kept.f_eq (fun _ => cnt1) (by decide)]
  · rw [Chip.is_raise _ _ _ _ _ (by decide) stat]
    exact Chip.is_flag _ _ _ _ (by decide) (by decide)

end

/-! #### Rotation, temperatures, reference and power good (R585, R586, R590, R591) -/

theorem doPhaseRotate_rotates {c : Chip} (powered : c.powered = true) (runs : c.halted P.VCR = false)
    (rotates : c.f R.VCR_PH_CFG F.VCR_PH_CFG_ROT_S ≠ 0) (spare : c.phN < c.phAvail.length) :
    doPhaseRotate c = (c.incWrap R.VCR_STAT F.VCR_STAT_BASE).setPhases c.phN :=
  (Chip.regulator_of powered runs _).trans (if_pos ⟨rotates, spare⟩)

/-- The registers in which a temperature of phase `n` shows. -/
abbrev warnKeys (n : Nat) : List Nat := [R.VCR_PH_STAT n, R.VCR_STAT]

theorem vcr_stat_ne_ph_stat (n : Nat) (hn : n < 4) : R.VCR_STAT ≠ R.VCR_PH_STAT n := by
  simp only [R.VCR_STAT, R.VCR_PH_STAT]
  omega

section
variable {c : Chip} {n : Nat} {x : Fld}

/-- A field of PHn_STAT is what a change of VCR.STAT and events leave of it. -/
theorem Chip.is_ph_stat_of_kept {d : Chip} (hn : n < 4) (h : Chip.Kept true [R.VCR_STAT] [] c d) :
    d.is (R.VCR_PH_STAT n) x = c.is (R.VCR_PH_STAT n) x :=
  h.is_eq (fun _ => evKey_vcr.2.2.2 n hn) (by simpa using (vcr_stat_ne_ph_stat n hn).symm) x

theorem Chip.phTemp_kept (c : Chip) (n : Nat) (t : Int) : Chip.Kept true (warnKeys n) [] c (c.phTemp n t) := Chip.Kept.refl.setF (by simp)

theorem Chip.phTemp_shut (t : Int) : (c.phTemp n t).phShut n = c.phShut n := is_setF_beside _ _ _ _ _ (by decide) (by decide)

theorem Chip.phWarnOn_kept (c : Chip) (n : Nat) : Chip.Kept true (warnKeys n) [] c (c.phWarnOn n) := by
  unfold phWarnOn
  have shown : Chip.Kept true (warnKeys n) [] c (c.flag (R.VCR_PH_STAT n) F.VCR_PH_STAT_WARN true).showWarn :=
    (Chip.Kept.refl.flag (by simp)).flag (by simp)
  exact .ite .refl ((shown.trans ((setPhases_kept _ _).mono (by simp) (by simp))).raise (by decide))

/-- What the warning shows in PHn_STAT: WARN, and SHUT as before (R591). -/
theorem Chip.phWarnOn_shows (c : Chip) (hn : n < 4) :
    (c.phWarnOn n).is (R.VCR_PH_STAT n) F.VCR_PH_STAT_WARN = true ∧ (c.phWarnOn n).phShut n = c.phShut n := by
  unfold phWarnOn
  split
  case isTrue warns => exact ⟨warns, rfl⟩
  case isFalse =>
    generalize flagged : c.flag (R.VCR_PH_STAT n) F.VCR_PH_STAT_WARN true = d
    have rest : Chip.Kept true [R.VCR_STAT] [] d ((d.showWarn.setPhases d.showWarn.phN).raise P.VCR 0) :=
      ((Chip.Kept.refl.flag (by simp)).trans (setPhases_kept _ _)).raise (by decide)
    refine ⟨(is_ph_stat_of_kept hn rest).trans ?_, (is_ph_stat_of_kept hn rest).trans ?_⟩ <;> rw [← flagged]
    · exact is_flag _ _ _ _ (by decide) (by decide)
    · exact is_flag_beside _ _ _ _ _ (by decide) (by decide)

end

section
variable {c : Chip} (n : Fin 4) {temp : BitVec 9}

/-- From 115 to below 135 °C a phase warns (R591). -/
theorem doPhaseOverTemp_warns (powered : c.powered = true) (hot : 115 ≤ temp.toInt) (below : temp.toInt < 135) :
    doPhaseOverTemp n temp c = (c.phTemp n temp.toInt).phWarnOn n := by
  rw [doPhaseOverTemp, Chip.viaShd_of powered, if_neg (by omega)]
  exact if_pos (.inl below)

theorem vcr_ph_stat_notMem_cause : ∀ n : Fin 4, R.VCR_PH_STAT n ∉ R.SHD_STAT :: causeKeys := by decide

/-- From 135 °C a phase shuts down, and the device enters SAFE (R591). -/
theorem doPhaseOverTemp_shuts (powered : c.powered = true) (hot : 135 ≤ temp.toInt) (works : c.phShut n = false) :
    (doPhaseOverTemp n temp c).is (R.VCR_PH_STAT n) F.VCR_PH_STAT_SHUT = true
      ∧ (doPhaseOverTemp n temp c).is R.SHD_STAT F.SHD_STAT_LATCH = true ∧ (doPhaseOverTemp n temp c).mode = .safe := by
  have ev := evKey_vcr.2.2.2 n n.isLt
  rw [doPhaseOverTemp, Chip.viaShd_of powered, if_neg (by omega)]
  generalize warned : (c.phTemp n temp.toInt).phWarnOn n = d
  have kept : Chip.Kept true (warnKeys n) [] c d := warned ▸ (c.phTemp_kept n _).trans (Chip.phWarnOn_kept _ _)
  have open' : d.phShut n = false := by rw [← warned, (Chip.phWarnOn_shows _ n.isLt).2, Chip.phTemp_shut, works]
  dsimp only
  rw [if_neg (by simp only [open', not_or]; exact ⟨by omega, Bool.false_ne_true⟩)]
  generalize shut : (d.flag (R.VCR_PH_STAT n) F.VCR_PH_STAT_SHUT true).incSat R.VCR_CNT_1 F.VCR_CNT_1_SHUTS = e
  have closed : e.is (R.VCR_PH_STAT n) F.VCR_PH_STAT_SHUT = true := by
    have apart : R.VCR_CNT_1 ≠ R.VCR_PH_STAT n := by simp only [R.VCR_CNT_1, R.VCR_PH_STAT]; omega
    rw [← shut, Chip.is, Chip.incSat, Chip.f_setF_ne _ _ _ _ _ _ apart, ← Chip.is]
    exact Chip.is_flag _ _ _ _ (by decide) (by decide)
  have alive : e.powered = true := by
    have rest : Chip.Kept true (R.VCR_CNT_1 :: warnKeys n) [] c e :=
      shut ▸ ((kept.mono (by simp) (by simp)).flag (by simp)).incSat (by simp)
    rw [rest.powered_eq (by simp), powered]
  generalize phases : (e.setPhases d.phN).raise P.VCR 1 = g
  have chosen : Chip.Kept true [R.VCR_STAT] [] e g := phases ▸ (e.setPhases_kept _).raise (by decide)
  obtain ⟨safe, latch⟩ := Chip.safe_cause (c := g) (code := 0x0F) (by rw [chosen.powered_eq (by simp), alive]) (by decide) 9 0
  exact ⟨((g.cause_kept 0x0F 9 0).is_eq (fun _ => ev) (vcr_ph_stat_notMem_cause n) _).trans
    ((Chip.is_ph_stat_of_kept n.isLt chosen).trans closed), latch, safe⟩

/-- Below 110 °C a phase is in use again (R591). -/
theorem doOtWarnClear_clears (powered : c.powered = true) (cool : temp.toInt < 110) :
    Chip.Kept true (warnKeys n) [] c (doOtWarnClear n temp c)
      ∧ (doOtWarnClear n temp c).is (R.VCR_PH_STAT n) F.VCR_PH_STAT_WARN = false
      ∧ (doOtWarnClear n temp c).is (R.VCR_PH_STAT n) F.VCR_PH_STAT_SHUT = false := by
  rw [doOtWarnClear, Chip.viaShd_of powered]
  dsimp only
  rw [if_pos cool]
  generalize cleared : ((c.phTemp n temp.toInt).flag (R.VCR_PH_STAT n) F.VCR_PH_STAT_WARN false).flag (R.VCR_PH_STAT n)
    F.VCR_PH_STAT_SHUT false = d
  have kept : Chip.Kept true (warnKeys n) [] c d := cleared ▸ ((c.phTemp_kept n _).flag (by simp)).flag (by simp)
  have rest : Chip.Kept true [R.VCR_STAT] [] d (d.showWarn.setPhases d.showWarn.phN) :=
    (Chip.Kept.refl.flag (by simp)).trans (Chip.setPhases_kept _ _)
  refine ⟨kept.trans (rest.mono (by simp) (by simp)), (Chip.is_ph_stat_of_kept n.isLt rest).trans ?_,
    (Chip.is_ph_stat_of_kept n.isLt rest).trans ?_⟩ <;> rw [← cleared]
  · exact (Chip.is_flag_beside _ _ _ _ _ (by decide) (by decide)).trans (Chip.is_flag _ _ _ _ (by decide) (by decide))
  · exact Chip.is_flag _ _ _ _ (by decide) (by decide)

end

section
variable (c : Chip) (r t : Nat)

theorem Chip.setRef_kept : Chip.Kept false [R.VCR_STAT] [.pow] c (c.setRef r t) :=
  ((Chip.Kept.refl.updPow (by simp)).setF (by simp)).flag (by simp)

theorem Chip.setRef_pow : (c.setRef r t).pow = { c.pow with ref := r, refT := t } := by
  rw [setRef, flag_pow, setF_pow, updPow_pow]

theorem Chip.setRef_slewing : (c.setRef r t).is R.VCR_STAT F.VCR_STAT_SLEWING = decide (r ≠ c.target) := by
  have target : (c.updPow fun p => { p with ref := r, refT := t }).target = c.target := rfl
  rw [setRef, target]
  exact is_flag _ _ _ _ (by decide) (by decide)

end

/-- PG lies beside what chooses the phases. -/
theorem Chip.samePhases_pg (c : Chip) : c.SamePhases (c.flag R.VCR_STAT F.VCR_STAT_PG true) where
  base := f_setF_beside _ _ _ _ _ (by decide) (by decide)
  active := f_setF_beside _ _ _ _ _ (by decide) (by decide)
  shut n hn := is_flag_ne _ _ _ _ _ _ (vcr_stat_ne_ph_stat n hn)
  warn n hn := is_flag_ne _ _ _ _ _ _ (vcr_stat_ne_ph_stat n hn)

/-- With VCORE good at least MIN_PH phases are on (R585). -/
theorem doVcorePowerGood_good {c : Chip} (powered : c.powered = true) :
    Chip.Kept true [R.VCR_STAT] [] c (doVcorePowerGood c) ∧ (doVcorePowerGood c).is R.VCR_STAT F.VCR_STAT_PG = true
      ∧ (doVcorePowerGood c).f R.VCR_STAT F.VCR_STAT_ACTIVE = c.phMask (max c.phN (c.f R.VCR_PH_CFG F.VCR_PH_CFG_MIN_PH)) := by
  have same := c.samePhases_pg
  have least : (c.flag R.VCR_STAT F.VCR_STAT_PG true).f R.VCR_PH_CFG F.VCR_PH_CFG_MIN_PH = c.f R.VCR_PH_CFG F.VCR_PH_CFG_MIN_PH :=
    Chip.f_setF_ne _ _ _ _ _ _ (by decide)
  rw [doVcorePowerGood, Chip.viaShd_of powered]
  dsimp only
  rw [least, same.phN, ← same.phMask]
  refine ⟨(Chip.Kept.refl.flag (by simp)).trans (Chip.setPhases_kept _ _), ?_, Chip.active_setPhases _ _⟩
  rw [Chip.is_setPhases_beside _ _ (by decide) (by decide)]
  exact Chip.is_flag _ _ _ _ (by decide) (by decide)

/-- Settles O13: each clause is what the command's lemma above says of the chip; the memory and the queue stay beside it. -/
theorem regulatorCommands : Obligations.RegulatorCommands := by
  obtain ⟨stat, -⟩ := evKey_vcr
  refine ⟨?_, ?_, ?_, ?_, ?_, ?_, ?_, ?_, ?_, ?_, ?_⟩
  · intro w v s may fits
    obtain ⟨powered, running, allowed⟩ := may
    have retargets : doVcrTargetWrite w v s.chip
        = (s.chip.wr R.VCR_CTL (v &&& 0xFF03FF#32)).setRef s.chip.refNow.1 s.chip.refNow.2 :=
      (Chip.put_of _ _ _ _ powered running allowed).trans (if_pos fits)
    refine ⟨_, rfl, ⟨s.quiet_onChip _, ?_⟩, ?_, ?_⟩ <;> rw [State.onChip_chip, retargets]
    · exact (Chip.Kept.refl.wr (by simp)).trans ((Chip.setRef_kept _ _ _).mono (by simp) (by simp))
    · rw [(Chip.setRef_kept _ _ _).regs _ (by simp) (by decide), Chip.rd_wr_same]
    · rw [Chip.setRef_pow, Chip.wr_pow]
  · intro w v s may unfit
    obtain ⟨powered, running, allowed⟩ := may
    exact ⟨_, rfl, s.quiet_onChip _, (Chip.put_of _ _ _ _ powered running allowed).trans (if_neg (by simp [unfit]))⟩
  · intro s powered runs slewing
    have done : doSlewDone s.chip = (s.chip.setRef s.chip.target s.chip.htNs).raise P.VCR 3 :=
      (Chip.regulator_of powered runs _).trans (if_pos slewing)
    refine ⟨_, rfl, ⟨s.quiet_onChip _, ?_⟩, ?_, ?_⟩ <;> rw [State.onChip_chip, done]
    · exact (Chip.setRef_kept _ _ _).toEv.raise (by decide)
    · rw [Chip.raise_pow _ _ _ (by decide), Chip.setRef_pow]
    · rw [Chip.is_raise _ _ _ _ _ (by decide) stat, Chip.setRef_slewing]
      simp
  · intro i0 i1 i2 i3 s powered runs level above room left
    obtain ⟨⟨kept, active, count, pow⟩, shed⟩ := doPhaseAdd_adds i0 i1 i2 i3 powered runs level above room left
    exact ⟨_, rfl, ⟨s.quiet_onChip _, kept⟩, active, count, shed, pow.trans (by rw [amps_sum])⟩
  · exact fun i0 i1 i2 i3 s powered runs step =>
      have ⟨kept, shown⟩ := doPhaseStep_steps i0 i1 i2 i3 powered runs step
      ⟨_, rfl, ⟨s.quiet_onChip _, kept⟩, shown⟩
  · intro i0 i1 i2 i3 i s powered runs load sheds below level
    obtain ⟨kept, active, count, -⟩ := doPhaseShed_sheds i0 i1 i2 i3 powered runs load sheds below level
    exact ⟨_, rfl, ⟨s.quiet_onChip _, kept⟩, active, count⟩
  · intro s powered runs rotates spare
    refine ⟨_, rfl, ⟨s.quiet_onChip _, ?_⟩, ?_⟩ <;> rw [State.onChip_chip, doPhaseRotate_rotates powered runs rotates spare]
    · exact (Chip.Kept.refl.incWrap (by simp)).trans (Chip.setPhases_kept _ _)
    · rw [Chip.f_setPhases_beside _ _ (by decide) (by decide), Chip.incWrap, Chip.f_setF _ _ _ _ (by decide)]
      rfl
  · intro n temp s powered hot below
    refine ⟨_, rfl, ⟨s.quiet_onChip _, ?_⟩, ?_⟩ <;> rw [State.onChip_chip, doPhaseOverTemp_warns n powered hot below]
    · exact (Chip.phTemp_kept _ _ _).trans (Chip.phWarnOn_kept _ _)
    · exact (Chip.phWarnOn_shows _ n.isLt).1
  · exact fun n temp s powered hot works => ⟨_, rfl, s.quiet_onChip _, doPhaseOverTemp_shuts n powered hot works⟩
  · exact fun n temp s powered cool =>
      have ⟨kept, shown⟩ := doOtWarnClear_clears n powered cool
      ⟨_, rfl, ⟨s.quiet_onChip _, kept⟩, shown⟩
  · exact fun s powered =>
      have ⟨kept, shown⟩ := doVcorePowerGood_good powered
      ⟨_, rfl, ⟨s.quiet_onChip _, kept⟩, shown⟩

end Sys2Proof.Machine

namespace Sys2Proof.Machine
open Sys2Proof

/-! ### A return that waits for another live load (O30)

Only one live load is in progress at a time, so the return of a twin that stays silent waits in `BootSt.backs` (R642). -/

/-- READY with twin A restarted from image 0 and silent since, while a live load of twin B stages. -/
def otherTwinStages : State := clocked0 fun c =>
  { c with mode := .ready }.updBoot fun b => { b with live := some ⟨true, 1, false⟩, before := [some 0, none] }

/-- The state meets what the statement asks of an ALIVE_TIMEOUT after a live restart. -/
theorem otherTwinStages_silent : otherTwinStages.chip.powered = true ∧ otherTwinStages.chip.time.gated = false
    ∧ otherTwinStages.chip.is R.BOOT_STAT (aliveFld false) = false
    ∧ nth otherTwinStages.chip.boot.before (b2n false) none = some 0 := by
  decide +kernel

/-- The live load in progress stays that of twin B. -/
theorem otherTwinStages_timeout_live : (doAliveTimeout false otherTwinStages.chip).boot.live = some ⟨true, 1, false⟩ := by
  decide +kernel

theorem exec_aliveTimeout (t : Bool) (s : State) : exec (.aliveTimeout t) s = .next (s.onChip (doAliveTimeout t)) := rfl

/-- Refutes O30: while a live load of the other twin stages, an ALIVE_TIMEOUT after a live restart does not start the return. -/
theorem not_liveLoadCommands : ¬ Obligations.LiveLoadCommands := by
  rintro ⟨-, -, -, -, -, -, returns, -⟩
  obtain ⟨powered, clocked, silent, before⟩ := otherTwinStages_silent
  obtain ⟨t, ht, -, live, -⟩ := returns false 0 otherTwinStages powered clocked silent before (by decide)
  obtain rfl := Host.Outcome.next.inj ((exec_aliveTimeout ..).symm.trans ht)
  rw [State.onChip_chip, otherTwinStages_timeout_live] at live
  exact absurd live (by decide)

end Sys2Proof.Machine

namespace Sys2Proof.Machine
open Sys2Proof

/-! ### What a store leaves in memory -/

section
variable {l : List Byte} {a : Nat}

/-- Beside the bytes stored SRAM is as before. -/
theorem Mem.sramPut_get_outside (m : Mem) (fits : a + l.length ≤ sramSize) {b : Nat} (out : b < a ∨ a + l.length ≤ b) :
    SMap.get unwritten (m.sramPut a l).sram b = SMap.get unwritten m.sram b :=
  Mem.sramPut_get _ _ _ _ fun i hi => by rw [Nat.mod_eq_of_lt (by omega)]; omega

/-- Beside the bytes stored DRAM is as before. -/
theorem Mem.dramPut_get_outside (m : Mem) (fits : a + l.length ≤ dramSize) {b : Nat} (out : b < a ∨ a + l.length ≤ b) :
    SMap.get unwritten (m.dramPut a l).dram b = SMap.get unwritten m.dram b :=
  Mem.dramPut_get _ _ _ _ fun i hi => by rw [Nat.mod_eq_of_lt (by omega)]; omega

end

theorem Mem.sramPut_get_at (l : List Byte) (m : Mem) (a : Nat) (fits : a + l.length ≤ sramSize) (i : Nat) {x : Byte} (at' : l[i]? = some x) :
    SMap.get unwritten (m.sramPut a l).sram (a + i) = x := by
  induction l generalizing m a i with
  | nil => simp at at'
  | cons b t ih =>
    rw [List.length_cons] at fits
    cases i with
    | zero =>
      obtain rfl : b = x := by simpa using at'
      rw [Mem.sramPut, Mem.sramPut_get_outside _ (by omega) (.inl (by omega)), SMap.get_put, if_pos]
      rw [Nat.mod_eq_of_lt (by omega), Nat.add_zero]
    | succ i => rw [show a + (i + 1) = a + 1 + i by omega, Mem.sramPut, ih _ _ (by omega) i at']

theorem Mem.dramPut_get_at (l : List Byte) (m : Mem) (a : Nat) (fits : a + l.length ≤ dramSize) (i : Nat) {x : Byte} (at' : l[i]? = some x) :
    SMap.get unwritten (m.dramPut a l).dram (a + i) = x := by
  induction l generalizing m a i with
  | nil => simp at at'
  | cons b t ih =>
    rw [List.length_cons] at fits
    cases i with
    | zero =>
      obtain rfl : b = x := by simpa using at'
      rw [Mem.dramPut, Mem.dramPut_get_outside _ (by omega) (.inl (by omega)), SMap.get_put, if_pos]
      rw [Nat.mod_eq_of_lt (by omega), Nat.add_zero]
    | succ i => rw [show a + (i + 1) = a + 1 + i by omega, Mem.dramPut, ih _ _ (by omega) i at']

@[simp] theorem Mem.sramPut_flashA (l : List Byte) (m : Mem) (a : Nat) : (m.sramPut a l).flashA = m.flashA := by
  induction l generalizing m a with
  | nil => rfl
  | cons _ _ ih => exact ih _ _

@[simp] theorem Mem.sramPut_flashB (l : List Byte) (m : Mem) (a : Nat) : (m.sramPut a l).flashB = m.flashB := by
  induction l generalizing m a with
  | nil => rfl
  | cons _ _ ih => exact ih _ _

@[simp] theorem Mem.dramPut_flashA (l : List Byte) (m : Mem) (a : Nat) : (m.dramPut a l).flashA = m.flashA := by
  induction l generalizing m a with
  | nil => rfl
  | cons _ _ ih => exact ih _ _

@[simp] theorem Mem.dramPut_flashB (l : List Byte) (m : Mem) (a : Nat) : (m.dramPut a l).flashB = m.flashB := by
  induction l generalizing m a with
  | nil => rfl
  | cons _ _ ih => exact ih _ _

/-! #### Words as bytes -/

theorem length_flatMap_bytesLE (v : Nat → Nat) (n : Nat) : ((List.range n).flatMap fun i => bytesLE 4 (v i)).length = 4 * n := by
  simp [List.length_flatMap, bytesLE, Nat.mul_comm]

/-- Byte `j` of word `i` stands at `4 * i + j`, low byte first. -/
theorem getElem?_flatMap_bytesLE (v : Nat → Nat) (n : Nat) {i j : Nat} (hi : i < n) (hj : j < 4) :
    ((List.range n).flatMap fun i => bytesLE 4 (v i))[4 * i + j]? = some (BitVec.ofNat 8 (v i / 256 ^ j)) := by
  induction n with
  | zero => omega
  | succ n ih =>
    have before := length_flatMap_bytesLE v n
    rw [List.range_succ, List.flatMap_append, List.flatMap_singleton]
    rcases Nat.lt_succ_iff_lt_or_eq.1 hi with inner | rfl
    · rw [List.getElem?_append_left (by omega), ih inner]
    · rw [List.getElem?_append_right (by omega), before, Nat.add_sub_cancel_left]
      simp [bytesLE, hj]

theorem leNat_lt (l : List Byte) : leNat l < 256 ^ l.length := by
  induction l with
  | nil => decide
  | cons b t ih =>
    have byte := b.isLt
    rw [leNat, List.foldr_cons, ← leNat, List.length_cons, pow_succ]
    omega

theorem Mem.leNat_sramGet_lt (m : Mem) (a : Nat) : leNat (m.sramGet a 4) < 2 ^ 32 := by
  simpa [Mem.sramGet] using leNat_lt (m.sramGet a 4)

/-! ### Uncorrectable errors (R675) -/

theorem Chip.clockOn_of {c : Chip} (powered : c.powered = true) (clocked : c.time.gated = false) : c.clockOn = true := by
  rw [clockOn, powered, clocked]
  rfl

/-- An uncorrectable error at offset `ofs` of DRAM (`dram`) or SRAM is counted and shown. -/
def Chip.ueShown (c : Chip) (dram : Bool) (ofs : Nat) : Chip :=
  (((c.incSat (if dram then R.MEM_ECC_DRAM else R.MEM_ECC_SRAM) ⟨15, 0⟩).flag R.MEM_UE_ADDR F.MEM_UE_ADDR_SPACE dram).setF
    R.MEM_UE_ADDR F.MEM_UE_ADDR_OFS ofs).raise P.MEM 0

theorem evKey_mem_ue_addr : evKey R.MEM_UE_ADDR = false := by decide

theorem Chip.ueShown_shows (c : Chip) (dram : Bool) (ofs : BitVec 29) :
    (c.ueShown dram ofs.toNat).is R.MEM_UE_ADDR F.MEM_UE_ADDR_SPACE = dram
      ∧ (c.ueShown dram ofs.toNat).f R.MEM_UE_ADDR F.MEM_UE_ADDR_OFS = ofs.toNat
      ∧ Chip.Kept true [if dram then R.MEM_ECC_DRAM else R.MEM_ECC_SRAM, R.MEM_UE_ADDR] [] c (c.ueShown dram ofs.toNat) := by
  unfold ueShown
  refine ⟨?_, ?_, (((Chip.Kept.refl.incSat (by simp)).flag (by simp)).setF (by simp)).raise (by decide)⟩
  · rw [is_raise _ _ _ _ _ (by decide) evKey_mem_ue_addr, is_setF_beside _ _ _ _ _ (by decide) (by decide)]
    exact is_flag _ _ _ _ (by decide) (by decide)
  · rw [f_raise _ _ _ _ _ (by decide) evKey_mem_ue_addr]
    exact f_setF_of_lt _ _ _ _ (by decide) ofs.isLt

theorem exec_memUncorrectable {s : State} (clock : s.chip.clockOn = true) (dram : Bool) (ofs : BitVec 29) :
    exec (.memUncorrectable dram ofs) s = .next ((s.onMem fun m => if dram then m.dramPut (ofs.toNat / 8 * 8) (List.replicate 8 0)
      else m.sramPut (ofs.toNat / 8 * 8) (List.replicate 8 0)).onChip fun c => c.ueShown dram ofs.toNat) := by
  refine congrArg Host.Outcome.next ?_
  rw [mdMemUncorrectable, if_neg (by simp [clock])]
  rfl

theorem getElem?_replicate_zero {i : Nat} (hi : i < 8) : (List.replicate 8 (0 : Byte))[i]? = some 0 :=
  List.getElem?_replicate_of_lt hi

/-! ### Host memory access (R638) -/

section
variable {s : State} (w : Writer) (n : BitVec 4) (may : May w R.HPT_MEM_CMD s) (host : w.ini = .host) (idle : s.chip.boot.copy = none)

/-- The range that MEM_ADDR and a count of words name. -/
def Chip.copyRange (c : Chip) (n : BitVec 4) : Bool × Nat × Nat :=
  (c.is R.HPT_MEM_ADDR F.HPT_MEM_ADDR_SPACE, c.f R.HPT_MEM_ADDR F.HPT_MEM_ADDR_OFS, 4 * (n.toNat + 1))

/-- A copy of the range that MEM_ADDR and a count of words name starts; `wr` tells its direction. -/
def Chip.copyStart (c : Chip) (wr : Bool) (n : BitVec 4) : Chip :=
  (c.updBoot fun b => { b with copy := some (wr, n.toNat + 1, c.is R.HPT_MEM_ADDR F.HPT_MEM_ADDR_SPACE,
    c.f R.HPT_MEM_ADDR F.HPT_MEM_ADDR_OFS) }).flag R.HPT_MEM_STAT F.HPT_MEM_STAT_BUSY true

theorem Chip.copyStart_starts (c : Chip) (wr : Bool) (n : BitVec 4) : Chip.Kept false [R.HPT_MEM_STAT] [.boot] c (c.copyStart wr n)
    ∧ (c.copyStart wr n).is R.HPT_MEM_STAT F.HPT_MEM_STAT_BUSY = true
    ∧ (c.copyStart wr n).boot = { c.boot with copy := some (wr, n.toNat + 1, c.is R.HPT_MEM_ADDR F.HPT_MEM_ADDR_SPACE,
      c.f R.HPT_MEM_ADDR F.HPT_MEM_ADDR_OFS) } := by
  refine ⟨(Chip.Kept.refl.updBoot (by simp)).flag (by simp), is_flag _ _ _ _ (by decide) (by decide), ?_⟩
  rw [copyStart, flag_boot, updBoot_boot]

/-- READ and WRITE by the host while no copy runs. -/
theorem Chip.memCmd_eq (c : Chip) (idle : c.boot.copy = none) {op : Nat} (known : op = 1 ∨ op = 2) (n : BitVec 4) :
    c.memCmd op n.toNat 3 = if c.hostMayCopy (c.copyRange n) then c.copyStart (decide (op = 2)) n
      else c.flag R.HPT_MEM_STAT F.HPT_MEM_STAT_DENIED true := by
  rw [memCmd, if_neg (by simp), if_neg (by simp only [idle, Option.isSome_none, Bool.false_eq_true, or_false]; omega)]
  rfl

include may host idle

theorem doHostMemRead_eq : doHostMemRead w theKey n s.chip = if s.chip.hostMayCopy (s.chip.copyRange n) then s.chip.copyStart false n
    else s.chip.flag R.HPT_MEM_STAT F.HPT_MEM_STAT_DENIED true := by
  obtain ⟨powered, clocked, allowed⟩ := may
  rw [doHostMemRead, Chip.cmd_of _ _ _ _ powered clocked allowed, host]
  exact s.chip.memCmd_eq idle (.inl rfl) n

theorem doHostMemWrite_eq : doHostMemWrite w theKey n s.chip = if s.chip.hostMayCopy (s.chip.copyRange n) then s.chip.copyStart true n
    else s.chip.flag R.HPT_MEM_STAT F.HPT_MEM_STAT_DENIED true := by
  obtain ⟨powered, clocked, allowed⟩ := may
  rw [doHostMemWrite, Chip.cmd_of _ _ _ _ powered clocked allowed, host]
  exact s.chip.memCmd_eq idle (.inr rfl) n

end

/-- Access denied shows in MEM_STAT. -/
theorem Chip.copyDenied_shows (c : Chip) : Chip.Kept false [R.HPT_MEM_STAT] [] c (c.flag R.HPT_MEM_STAT F.HPT_MEM_STAT_DENIED true)
    ∧ (c.flag R.HPT_MEM_STAT F.HPT_MEM_STAT_DENIED true).is R.HPT_MEM_STAT F.HPT_MEM_STAT_DENIED = true :=
  ⟨Chip.Kept.refl.flag (by simp), is_flag _ _ _ _ (by decide) (by decide)⟩

/-! #### The end of a copy -/

/-- MEM_STAT shows the end of the copy. -/
def Chip.copyEnd (c : Chip) : Chip :=
  (((c.updBoot fun b => { b with copy := none }).flag R.HPT_MEM_STAT F.HPT_MEM_STAT_BUSY false).flag R.HPT_MEM_STAT
    F.HPT_MEM_STAT_DONE true).raise P.HPT 1

theorem evKey_hpt_mem : evKey R.HPT_MEM_STAT = false ∧ ∀ i < 16, evKey (R.HPT_MBUF i) = false ∧ R.HPT_MBUF i ≠ R.HPT_MEM_STAT := by decide

theorem Chip.copyEnd_kept (c : Chip) : Chip.Kept true [R.HPT_MEM_STAT] [.boot] c c.copyEnd :=
  (((Chip.Kept.refl.updBoot (by simp)).flag (by simp)).flag (by simp)).raise (by decide)

theorem Chip.copyEnd_boot (c : Chip) : c.copyEnd.boot = { c.boot with copy := none } := by
  rw [copyEnd, raise_boot _ _ _ (by decide), flag_boot, flag_boot, updBoot_boot]

theorem Chip.copyEnd_done (c : Chip) : c.copyEnd.is R.HPT_MEM_STAT F.HPT_MEM_STAT_DONE = true := by
  rw [copyEnd, is_raise _ _ _ _ _ (by decide) evKey_hpt_mem.1]
  exact is_flag _ _ _ _ (by decide) (by decide)

theorem Chip.copyEnd_busy (c : Chip) : c.copyEnd.is R.HPT_MEM_STAT F.HPT_MEM_STAT_BUSY = false := by
  rw [copyEnd, is_raise _ _ _ _ _ (by decide) evKey_hpt_mem.1, is_flag_beside _ _ _ _ _ (by decide) (by decide)]
  exact is_flag _ _ _ _ (by decide) (by decide)

/-- The bytes of the first `n` words of MBUF. -/
def Chip.mbufBytes (c : Chip) (n : Nat) : List Byte := (List.range n).flatMap fun i => bytesLE 4 (c.rdN (R.HPT_MBUF i))

section
variable {s : State} (clock : s.chip.clockOn = true) {n a : Nat}
include clock

theorem exec_memCopyDone_write (copy : s.chip.boot.copy = some (true, n, false, a)) :
    exec .memCopyDone s = .next ((s.onMem fun m => m.sramPut a (s.chip.mbufBytes n)).onChip Chip.copyEnd) := by
  refine congrArg Host.Outcome.next ?_
  rw [mdMemCopyDone, if_neg (by simp [clock]), copy]
  rfl

theorem exec_memCopyDone_read (copy : s.chip.boot.copy = some (false, n, false, a)) :
    exec .memCopyDone s = .next ((forN n (fun i s => s.copyIn false a i) s).onChip Chip.copyEnd) := by
  refine congrArg Host.Outcome.next ?_
  rw [mdMemCopyDone, if_neg (by simp [clock]), copy]
  rfl

end

/-- From `s` to `t` the first `k` words of MBUF took those of SRAM from `a` on. -/
structure State.CopiedIn (s : State) (a k : Nat) (t : State) : Prop where
  quiet : Quiet s t
  boot : t.chip.boot = s.chip.boot
  words : ∀ i < k, t.chip.rdN (R.HPT_MBUF i) = leNat (s.mem.sramGet (a + 4 * i) 4)

theorem hpt_mbuf_inj {i j : Nat} (h : i ≠ j) : R.HPT_MBUF i ≠ R.HPT_MBUF j := by
  simp only [R.HPT_MBUF]
  omega

theorem State.CopiedIn.next {s t : State} {a k : Nat} (h : s.CopiedIn a k t) : s.CopiedIn a (k + 1) (t.copyIn false a k) where
  quiet := h.quiet
  boot := h.boot
  words i hi := by
    rw [State.copyIn, if_neg (by simp), State.onChip_chip]
    rcases Nat.lt_succ_iff_lt_or_eq.1 hi with inner | rfl
    · rw [Chip.rdN, Chip.wrN, Chip.rd_wr_ne _ _ _ _ (hpt_mbuf_inj (by omega)), ← Chip.rdN, h.words i inner]
    · rw [Chip.rdN, Chip.wrN, Chip.rd_wr_same, wd, BitVec.toNat_ofNat, if_neg (by simp), h.quiet.1]
      exact Nat.mod_eq_of_lt (s.mem.leNat_sramGet_lt _)

theorem State.copiedIn (s : State) (a n : Nat) : s.CopiedIn a n (forN n (fun i s => s.copyIn false a i) s) :=
  forN_ind (s.CopiedIn a) n _ s ⟨⟨rfl, rfl⟩, rfl, fun _ hi => absurd hi (by omega)⟩ fun _ _ _ h => h.next

/-- Settles O32: what a store leaves in memory, and what the chip shows of it. -/
theorem memoryServiceCommands : Obligations.MemoryServiceCommands := by
  refine ⟨?_, ?_, ?_, ?_, ?_, ?_, ?_, ?_⟩
  · intro ofs s powered clocked fits
    have fits : ofs.toNat / 8 * 8 + (List.replicate 8 (0 : Byte)).length ≤ sramSize := fits
    refine ⟨_, exec_memUncorrectable (Chip.clockOn_of powered clocked) false ofs, rfl, ?_, ?_, ?_, ?_, ?_, ?_, ?_,
      s.chip.ueShown_shows false ofs⟩ <;> rw [State.onChip_mem, State.onMem_mem, if_neg (by simp)]
    · exact Mem.sramPut_dram _ _ _
    · exact Mem.sramPut_fram _ _ _
    · exact Mem.sramPut_flashA _ _ _
    · exact Mem.sramPut_flashB _ _ _
    · exact Mem.sramPut_otp _ _ _
    · exact fun i hi => Mem.sramPut_get_at _ _ _ fits i (getElem?_replicate_zero hi)
    · exact fun a out => Mem.sramPut_get_outside _ fits out
  · intro ofs s powered clocked fits
    have fits : ofs.toNat / 8 * 8 + (List.replicate 8 (0 : Byte)).length ≤ dramSize := fits
    refine ⟨_, exec_memUncorrectable (Chip.clockOn_of powered clocked) true ofs, rfl, ?_, ?_, ?_, ?_, ?_, ?_, ?_,
      s.chip.ueShown_shows true ofs⟩ <;> rw [State.onChip_mem, State.onMem_mem, if_pos rfl]
    · exact Mem.dramPut_sram _ _ _
    · exact Mem.dramPut_fram _ _ _
    · exact Mem.dramPut_flashA _ _ _
    · exact Mem.dramPut_flashB _ _ _
    · exact Mem.dramPut_otp _ _ _
    · exact fun i hi => Mem.dramPut_get_at _ _ _ fits i (getElem?_replicate_zero hi)
    · exact fun a out => Mem.dramPut_get_outside _ fits out
  · intro w n s may host idle allowed
    have starts := s.chip.copyStart_starts false n
    rw [← (doHostMemRead_eq w n may host idle).trans (if_pos allowed)] at starts
    exact ⟨_, rfl, ⟨s.quiet_onChip _, starts.1⟩, starts.2⟩
  · intro w n s may host idle barred
    have denied := s.chip.copyDenied_shows
    rw [← (doHostMemRead_eq w n may host idle).trans (if_neg (Bool.eq_false_iff.1 barred))] at denied
    exact ⟨_, rfl, ⟨s.quiet_onChip _, denied.1⟩, denied.2⟩
  · intro w n s may host idle allowed
    have starts := s.chip.copyStart_starts true n
    rw [← (doHostMemWrite_eq w n may host idle).trans (if_pos allowed)] at starts
    exact ⟨_, rfl, ⟨s.quiet_onChip _, starts.1⟩, starts.2⟩
  · intro w n s may host idle barred
    have denied := s.chip.copyDenied_shows
    rw [← (doHostMemWrite_eq w n may host idle).trans (if_neg (Bool.eq_false_iff.1 barred))] at denied
    exact ⟨_, rfl, ⟨s.quiet_onChip _, denied.1⟩, denied.2⟩
  · intro n a s powered clocked copy fits
    have length := length_flatMap_bytesLE (fun i => s.chip.rdN (R.HPT_MBUF i)) n
    refine ⟨_, exec_memCopyDone_write (Chip.clockOn_of powered clocked) copy, rfl, Mem.sramPut_dram _ _ _, Mem.sramPut_fram _ _ _,
      Mem.sramPut_flashA _ _ _, Mem.sramPut_flashB _ _ _, Mem.sramPut_otp _ _ _, s.chip.copyEnd_boot, s.chip.copyEnd_done,
      s.chip.copyEnd_busy, s.chip.copyEnd_kept, fun i hi j hj => ?_, fun b out => ?_⟩
    · rw [Nat.add_assoc]
      exact Mem.sramPut_get_at _ _ _ (length ▸ fits) _ (getElem?_flatMap_bytesLE _ _ hi hj)
    · exact Mem.sramPut_get_outside _ (length ▸ fits) (length ▸ out)
  · intro n a s powered clocked copy few
    have copied := s.copiedIn a n
    refine ⟨_, exec_memCopyDone_read (Chip.clockOn_of powered clocked) copy, ?_⟩
    generalize forN n (fun i s => s.copyIn false a i) s = d at copied
    refine ⟨copied.quiet, (d.chip.copyEnd_boot).trans (by rw [copied.boot]), d.chip.copyEnd_done, fun i hi => ?_⟩
    obtain ⟨beside, apart⟩ := evKey_hpt_mem.2 i (by omega)
    rw [State.onChip_chip, Chip.rdN, d.chip.copyEnd_kept.regs _ (fun _ => beside) (by simpa using apart), ← Chip.rdN]
    exact copied.words i hi

end Sys2Proof.Machine

namespace Sys2Proof.Machine
open Sys2Proof

/-- The twins are the initiators with codes 1 and 2. -/
theorem Initiator.code_twin (i : Initiator) : (i.code = 1 ∨ i.code = 2) ↔ (i = .twinA ∨ i = .twinB) := by cases i <;> decide

/-! ### Flash (R645, R646) -/

section
variable {c : Chip} {op : Nat} {b : Bool} (addr wr : Bool) {i : Nat}

/-- A flash command starts. -/
def Chip.flashStart (c : Chip) (f : FlashCmd) : Chip :=
  (c.updBoot fun x => { x with flash := some f }).flag R.BOOT_FL_STAT F.BOOT_FL_STAT_BUSY true

theorem Chip.flashStart_starts (f : FlashCmd) : Chip.Kept false [R.BOOT_FL_STAT] [.boot] c (c.flashStart f)
    ∧ (c.flashStart f).is R.BOOT_FL_STAT F.BOOT_FL_STAT_BUSY = true ∧ (c.flashStart f).boot = { c.boot with flash := some f } := by
  refine ⟨(Chip.Kept.refl.updBoot (by simp)).flag (by simp), is_flag _ _ _ _ (by decide) (by decide), ?_⟩
  rw [flashStart, flag_boot, updBoot_boot]

/-- A twin may give every command to the other device, and a read to the one booted from. -/
theorem Chip.flashCmd_starts (twin : i = 1 ∨ i = 2)
    (may : c.f R.BOOT_STAT F.BOOT_STAT_SOURCE ≠ b2n b ∨ op ∈ [0x03, 0x05, 0x0B, 0x6C, 0x9F]) (idle : c.boot.flash = none) :
    c.flashCmd op b addr wr i = c.flashStart
      ⟨op, b, addr, wr, c.rdN R.BOOT_FL_ADDR, c.f R.BOOT_FL_BUF F.BOOT_FL_BUF_LEN, 8 * c.f R.BOOT_FL_BUF F.BOOT_FL_BUF_OFS8⟩ := by
  have allowed : (!(decide (i = 1) || decide (i = 2)) || (decide (c.f R.BOOT_STAT F.BOOT_STAT_SOURCE = b2n b) &&
      !([0x03, 0x05, 0x0B, 0x6C, 0x9F].contains op))) = false := by
    rw [← Bool.decide_or, decide_eq_true twin]
    rcases may with other | read
    · simp [other]
    · rw [List.contains_iff_mem.2 read]
      simp
  rw [flashCmd, allowed, if_neg Bool.false_ne_true, if_neg (by simp [idle])]
  rfl

/-- An error recorded in PG_ERR leaves the boot state. -/
theorem Chip.perr_boot (c : Chip) (k : Nat) (e : PErr) (i : Nat) : (c.perr k e i).boot = c.boot :=
  (Chip.Kept.refl.perr (ev := false) (ps := []) (List.mem_singleton_self _)).parts .boot (by simp) (by simp) (by simp)

theorem Chip.flashCmd_denied (barred : ¬ (i = 1 ∨ i = 2) ∨
      (c.f R.BOOT_STAT F.BOOT_STAT_SOURCE = b2n b ∧ op ∉ [0x03, 0x05, 0x0B, 0x6C, 0x9F])) :
    c.flashCmd op b addr wr i = (c.flag R.BOOT_FL_STAT F.BOOT_FL_STAT_DENIED true).perr R.BOOT_FL_CTL .security i := by
  refine if_pos ?_
  rw [← Bool.decide_or]
  rcases barred with other | ⟨booted, write⟩
  · rw [decide_eq_false other]
    rfl
  · rw [decide_eq_true booted, Bool.eq_false_iff.2 (mt List.contains_iff_mem.1 write)]
    exact Bool.or_true _

end

/-- What the flash answers to command `f` goes to SRAM, and its array changes at `prog`. -/
def State.flashTaken (s : State) (f : FlashCmd) (data : List (BitVec 8)) (prog : List (BitVec 32 × BitVec 8)) : State :=
  let bs := if f.opcode = 0x6C ∧ f.addrOn = true then (List.range f.len).map fun i => s.imgByte (b2n f.b) (f.addr + i)
    else (data ++ List.replicate f.len 0).take f.len
  let s := if f.write then s else s.onMem fun m => m.sramPut f.ofs bs
  let put := fun m => prog.foldl (fun m e => SMap.put erased m e.1.toNat e.2) m
  if f.opcode = 0x6C then s
  else s.onMem fun m => if f.b then { m with flashB := put m.flashB } else { m with flashA := put m.flashA }

/-- What a flash command leaves beside SRAM and the array of its device. -/
structure State.FlashTaken (f : FlashCmd) (s t : State) : Prop where
  chip : t.chip = s.chip
  pending : t.pending = s.pending
  dram : t.mem.dram = s.mem.dram
  fram : t.mem.fram = s.mem.fram
  otp : t.mem.otp = s.mem.otp
  sram : f.write = true → t.mem.sram = s.mem.sram
  flashA : f.opcode = 0x6C ∨ f.b = true → t.mem.flashA = s.mem.flashA
  flashB : f.opcode = 0x6C ∨ f.b = false → t.mem.flashB = s.mem.flashB

theorem State.flashTaken_taken (s : State) (f : FlashCmd) (data : List (BitVec 8)) (prog : List (BitVec 32 × BitVec 8)) :
    s.FlashTaken f (s.flashTaken f data prog) := by
  unfold flashTaken
  extract_lets bs read put
  have answered : s.FlashTaken f read := by
    show s.FlashTaken f (if f.write then s else s.onMem fun m => m.sramPut f.ofs bs)
    split
    case isTrue => exact ⟨rfl, rfl, rfl, rfl, rfl, fun _ => rfl, fun _ => rfl, fun _ => rfl⟩
    case isFalse write =>
      exact ⟨rfl, rfl, Mem.sramPut_dram _ _ _, Mem.sramPut_fram _ _ _, Mem.sramPut_otp _ _ _, fun h => absurd h write,
        fun _ => Mem.sramPut_flashA _ _ _, fun _ => Mem.sramPut_flashB _ _ _⟩
  obtain ⟨chip, pending, dram, fram, otp, sram, flashA, flashB⟩ := answered
  split
  case isTrue => exact ⟨chip, pending, dram, fram, otp, sram, flashA, flashB⟩
  case isFalse array =>
    cases device : f.b with
    | true => exact ⟨chip, pending, dram, fram, otp, sram, flashA, by simp [array, device]⟩
    | false => exact ⟨chip, pending, dram, fram, otp, sram, by simp [array, device], flashB⟩

/-- FL_STAT shows the end of the command. -/
def Chip.flashEnd (c : Chip) : Chip :=
  ((c.updBoot fun b => { b with flash := none }).flag R.BOOT_FL_STAT F.BOOT_FL_STAT_BUSY false).flag R.BOOT_FL_STAT
    F.BOOT_FL_STAT_DONE true

theorem Chip.flashEnd_ends (c : Chip) : Chip.Kept false [R.BOOT_FL_STAT] [.boot] c c.flashEnd
    ∧ c.flashEnd.boot = { c.boot with flash := none } ∧ c.flashEnd.is R.BOOT_FL_STAT F.BOOT_FL_STAT_BUSY = false
    ∧ c.flashEnd.is R.BOOT_FL_STAT F.BOOT_FL_STAT_DONE = true := by
  refine ⟨((Chip.Kept.refl.updBoot (by simp)).flag (by simp)).flag (by simp), ?_, ?_, is_flag _ _ _ _ (by decide) (by decide)⟩
  · rw [flashEnd, flag_boot, flag_boot, updBoot_boot]
  · rw [flashEnd, is_flag_beside _ _ _ _ _ (by decide) (by decide)]
    exact is_flag _ _ _ _ (by decide) (by decide)

theorem exec_flashCommandDone {s : State} (clock : s.chip.clockOn = true) {f : FlashCmd} (runs : s.chip.boot.flash = some f)
    (data : List (BitVec 8)) (prog : List (BitVec 32 × BitVec 8)) :
    exec (.flashCommandDone data prog) s = .next ((s.flashTaken f data prog).onChip Chip.flashEnd) := by
  refine congrArg Host.Outcome.next ?_
  rw [mdFlashCommandDone, if_neg (by simp [clock]), runs]
  rfl

/-! ### The SEC engine (R630, R631, R633, R647, R648) -/

/-- A SEC command starts. -/
def Chip.secStart (c : Chip) (op arg : Nat) : Chip :=
  ((c.updBoot fun b => { b with sec := some (op, arg, 8 * c.f R.SEC_PTR F.SEC_PTR_OFS8) }).flag R.SEC_STAT F.SEC_STAT_BUSY
    true).setF R.SEC_STAT F.SEC_STAT_FAIL 0

section
variable {s : State} {w : Writer} (may : May w R.SEC_CMD s) (idle : s.chip.boot.sec = none) {op : Nat} (known : 1 ≤ op ∧ op ≤ 7) (arg : Nat)
include may idle known

theorem State.secVia_eq (allowed : s.secAllowed op = true) : s.secVia w theKey op arg = s.onChip fun c => c.secStart op arg := by
  obtain ⟨powered, clocked, barred⟩ := may
  rw [secVia, State.cmd_of _ _ _ _ powered clocked barred, secCmd, if_neg (by simp [idle]; omega), if_neg (by simp [allowed])]
  rfl

theorem State.secVia_refused (refused : s.secAllowed op = false) :
    s.secVia w theKey op arg = s.onChip fun c => (c.perr R.SEC_CMD .state w.ini.code).setF R.SEC_STAT F.SEC_STAT_FAIL 7 := by
  obtain ⟨powered, clocked, barred⟩ := may
  rw [secVia, State.cmd_of _ _ _ _ powered clocked barred, secCmd, if_neg (by simp [idle]; omega), if_pos (by simp [refused])]
  rfl

theorem State.secVia_starts (allowed : s.secAllowed op = true) : Only [R.SEC_STAT] [.boot] s (s.secVia w theKey op arg)
    ∧ (s.secVia w theKey op arg).chip.boot = { s.chip.boot with sec := some (op, arg, 8 * s.chip.f R.SEC_PTR F.SEC_PTR_OFS8) }
    ∧ (s.secVia w theKey op arg).chip.is R.SEC_STAT F.SEC_STAT_BUSY = true
    ∧ (s.secVia w theKey op arg).chip.f R.SEC_STAT F.SEC_STAT_FAIL = 0 := by
  rw [s.secVia_eq may idle known arg allowed, State.onChip_chip]
  refine ⟨⟨s.quiet_onChip _, ((Chip.Kept.refl.updBoot (by simp)).flag (by simp)).setF (by simp)⟩, ?_, ?_, ?_⟩
  · rw [Chip.secStart, Chip.setF_boot, Chip.flag_boot, Chip.updBoot_boot]
  · rw [Chip.secStart, Chip.is_setF_beside _ _ _ _ _ (by decide) (by decide)]
    exact Chip.is_flag _ _ _ _ (by decide) (by decide)
  · exact Chip.f_setF_of_lt _ _ _ _ (by decide) (by decide)

end

/-! #### What OTP holds behind a word that gains bits -/

theorem State.otpOr_get (s : State) (o v a : Nat) : SMap.get unblown (s.otpOr o v).mem.otp a =
    if o ≤ a ∧ a < o + 4 then SMap.get unblown s.mem.otp a ||| BitVec.ofNat 8 (v / 256 ^ (a - o)) else SMap.get unblown s.mem.otp a := by
  have bytes (n a : Nat) : SMap.get unblown ((List.range n).foldl (fun t i =>
        t.put unblown (o + i) (t.get unblown (o + i) ||| BitVec.ofNat 8 (v / 256 ^ i))) s.mem.otp) a =
      if o ≤ a ∧ a < o + n then SMap.get unblown s.mem.otp a ||| BitVec.ofNat 8 (v / 256 ^ (a - o)) else SMap.get unblown s.mem.otp a := by
    induction n generalizing a with
    | zero => rw [if_neg (by omega)]; rfl
    | succ n ih =>
      rw [List.range_succ, List.foldl_append, List.foldl_cons, List.foldl_nil, SMap.get_put, ih, ih]
      by_cases last : o + n = a
      · subst last
        rw [if_pos rfl, if_neg (by omega), if_pos (by omega), Nat.add_sub_cancel_left]
      · rw [if_neg last]
        exact if_congr (by omega) rfl rfl
  exact bytes 4 a

/-- From `s` to `t` no memory changes beside SRAM and OTP, and the queue stays. -/
structure State.SramOtpOnly (s t : State) : Prop where
  pending : t.pending = s.pending
  dram : t.mem.dram = s.mem.dram
  fram : t.mem.fram = s.mem.fram
  flashA : t.mem.flashA = s.mem.flashA
  flashB : t.mem.flashB = s.mem.flashB

namespace State.SramOtpOnly
variable {s t : State}

theorem refl (s : State) : s.SramOtpOnly s := ⟨rfl, rfl, rfl, rfl, rfl⟩

theorem onChip (h : s.SramOtpOnly t) (g : Chip → Chip) : s.SramOtpOnly (t.onChip g) := ⟨h.pending, h.dram, h.fram, h.flashA, h.flashB⟩

theorem otpOr (h : s.SramOtpOnly t) (o v : Nat) : s.SramOtpOnly (t.otpOr o v) := ⟨h.pending, h.dram, h.fram, h.flashA, h.flashB⟩

theorem arbTo (h : s.SramOtpOnly t) (n : Nat) : s.SramOtpOnly (t.arbTo n) := foldl_inv s.SramOtpOnly _ _ t h fun _ _ hu => hu.otpOr _ _

theorem freeBytes (h : s.SramOtpOnly t) (a n : Nat) : s.SramOtpOnly (t.freeBytes a n) :=
  forN_inv s.SramOtpOnly n _ t h fun _ _ hu => ⟨hu.pending, (Mem.sramPut_dram _ _ _).trans hu.dram, (Mem.sramPut_fram _ _ _).trans hu.fram,
    (Mem.sramPut_flashA _ _ _).trans hu.flashA, (Mem.sramPut_flashB _ _ _).trans hu.flashB⟩

theorem secRun (s : State) (op arg ptr : Nat) (readOk sigOk chainOk validOk : Bool) :
    s.SramOtpOnly (s.secRun op arg ptr readOk sigOk chainOk validOk).1 := by
  unfold State.secRun
  extract_lets
  split <;> dsimp only
  · exact (refl s).onChip _
  · exact (refl s).freeBytes _ _
  · exact refl s
  · exact (refl s).freeBytes _ _
  · exact ((refl s).arbTo _).onChip _
  · exact (refl s).onChip _
  · exact (refl s).otpOr _ _

end State.SramOtpOnly

/-! #### The end of a SEC command -/

/-- SEC.STAT shows the end of the command with FAIL code `f`. -/
def Chip.secEnd (c : Chip) (f : Nat) : Chip :=
  (((((c.updBoot fun b => { b with sec := none }).flag R.SEC_STAT F.SEC_STAT_BUSY false).flag R.SEC_STAT F.SEC_STAT_DONE true).setF
    R.SEC_STAT F.SEC_STAT_FAIL f).raise P.SEC 0).raiseIf (decide (f ≠ 0)) P.SEC 1

theorem Chip.secEnd_ends (c : Chip) (f : Nat) : (c.secEnd f).boot.sec = none ∧ (c.secEnd f).is R.SEC_STAT F.SEC_STAT_BUSY = false
    ∧ (c.secEnd f).is R.SEC_STAT F.SEC_STAT_DONE = true ∧ (c.secEnd f).f R.SEC_STAT F.SEC_STAT_FAIL = f % 16 := by
  have raised (d : Chip) : Chip.Kept true [] [] d ((d.raise P.SEC 0).raiseIf (decide (f ≠ 0)) P.SEC 1) :=
    (Chip.Kept.refl.raise (by decide)).raiseIf (by decide)
  have beside : true = true → evKey R.SEC_STAT = false := fun _ => by decide
  unfold secEnd
  refine ⟨?_, ?_, ?_, ?_⟩
  · rw [show _ = _ from (raised _).parts .boot (by simp) (by simp) (by simp), setF_boot, flag_boot, flag_boot, updBoot_boot]
  · rw [(raised _).is_eq beside (by simp), is_setF_beside _ _ _ _ _ (by decide) (by decide), is_flag_beside _ _ _ _ _ (by decide) (by decide)]
    exact is_flag _ _ _ _ (by decide) (by decide)
  · rw [(raised _).is_eq beside (by simp), is_setF_beside _ _ _ _ _ (by decide) (by decide)]
    exact is_flag _ _ _ _ (by decide) (by decide)
  · rw [(raised _).f_eq beside (by simp)]
    exact f_setF _ _ _ _ (by decide)

theorem exec_secCommandDone {s : State} (clock : s.chip.clockOn = true) {op arg ptr : Nat} (runs : s.chip.boot.sec = some (op, arg, ptr))
    (readOk sigOk chainOk validOk : Bool) : exec (.secCommandDone readOk sigOk chainOk validOk) s =
      .next ((s.secRun op arg ptr readOk sigOk chainOk validOk).1.onChip fun c =>
        c.secEnd (s.secRun op arg ptr readOk sigOk chainOk validOk).2) := by
  refine congrArg Host.Outcome.next ?_
  rw [mdSecCommandDone, if_neg (by simp [clock]), runs]
  rfl

/-! ### OTP programming (R649) -/

/-- OTP programming of word `k` starts, where it holds `old`. -/
def Chip.otpStart (c : Chip) (k old : Nat) : Chip :=
  (c.updBoot fun b => { b with otp := some (k, c.rdN R.OTP_PDATA, old) }).flag R.OTP_STAT F.OTP_STAT_BUSY true

theorem Chip.otpStart_starts (c : Chip) (k old : Nat) : Chip.Kept false [R.OTP_STAT] [.boot] c (c.otpStart k old)
    ∧ (c.otpStart k old).is R.OTP_STAT F.OTP_STAT_BUSY = true
    ∧ (c.otpStart k old).boot = { c.boot with otp := some (k, c.rdN R.OTP_PDATA, old) } := by
  refine ⟨(Chip.Kept.refl.updBoot (by simp)).flag (by simp), is_flag _ _ _ _ (by decide) (by decide), ?_⟩
  rw [otpStart, flag_boot, updBoot_boot]

section
variable {s : State} {w : Writer} (may : May w R.OTP_CMD s) (k : BitVec 9)
include may

theorem mdOtpGo_starts (open' : (w.ini = .twinA ∨ w.ini = .twinB) ∧ s.chip.mode = .ready ∧ s.chip.is R.VAUX_STAT F.VAUX_STAT_EW = false
      ∧ s.mem.otpOpen k.toNat = true ∧ s.chip.boot.otp = none) :
    mdOtpGo w theKey true k s = s.onChip fun c => c.otpStart k.toNat (s.mem.otpN (4 * k.toNat) 4) := by
  obtain ⟨powered, clocked, barred⟩ := may
  obtain ⟨twin, ready, warning, word, idle⟩ := open'
  rw [mdOtpGo, State.cmd_of _ _ _ _ powered clocked barred]
  exact if_pos ⟨(Initiator.code_twin _).2 twin, ready, warning, word, by rw [idle]; rfl⟩

theorem mdOtpGo_denied (closed : ¬ ((w.ini = .twinA ∨ w.ini = .twinB) ∧ s.chip.mode = .ready
      ∧ s.chip.is R.VAUX_STAT F.VAUX_STAT_EW = false ∧ s.mem.otpOpen k.toNat = true ∧ s.chip.boot.otp = none)) :
    mdOtpGo w theKey true k s = s.onChip fun c => (c.flag R.OTP_STAT F.OTP_STAT_DENIED true).perr R.OTP_CMD .security w.ini.code := by
  obtain ⟨powered, clocked, barred⟩ := may
  rw [mdOtpGo, State.cmd_of _ _ _ _ powered clocked barred]
  exact if_neg fun ⟨twin, ready, warning, word, idle⟩ =>
    closed ⟨(Initiator.code_twin _).1 twin, ready, warning, word, Option.isNone_iff_eq_none.1 idle⟩

end

/-- OTP.STAT shows the end of programming, and whether the word differs from what was asked for. -/
def Chip.otpEnd (c : Chip) (bad : Bool) : Chip :=
  let c : Chip := ((c.updBoot fun b => { b with otp := none }).flag R.OTP_STAT F.OTP_STAT_BUSY false).flag R.OTP_STAT F.OTP_STAT_DONE true
  (if bad then c.flag R.OTP_STAT F.OTP_STAT_VERIFY_FAIL true else c).raise P.OTP 0

theorem Chip.otpEnd_ends (c : Chip) (bad : Bool) : (c.otpEnd bad).boot.otp = none ∧ (c.otpEnd bad).is R.OTP_STAT F.OTP_STAT_BUSY = false
    ∧ (c.otpEnd bad).is R.OTP_STAT F.OTP_STAT_DONE = true := by
  have beside : evKey R.OTP_STAT = false := by decide
  have busy : (((c.updBoot fun b => { b with otp := none }).flag R.OTP_STAT F.OTP_STAT_BUSY false).flag R.OTP_STAT F.OTP_STAT_DONE true).is
      R.OTP_STAT F.OTP_STAT_BUSY = false :=
    (is_flag_beside _ _ _ _ _ (by decide) (by decide)).trans (is_flag _ _ _ _ (by decide) (by decide))
  have done : (((c.updBoot fun b => { b with otp := none }).flag R.OTP_STAT F.OTP_STAT_BUSY false).flag R.OTP_STAT F.OTP_STAT_DONE true).is
      R.OTP_STAT F.OTP_STAT_DONE = true := is_flag _ _ _ _ (by decide) (by decide)
  unfold otpEnd
  dsimp only
  rw [raise_boot _ _ _ (by decide), is_raise _ _ _ _ _ (by decide) beside, is_raise _ _ _ _ _ (by decide) beside]
  cases bad with
  | false => exact ⟨by rw [if_neg (by simp), flag_boot, flag_boot, updBoot_boot], busy, done⟩
  | true =>
    rw [if_pos rfl]
    exact ⟨by rw [flag_boot, flag_boot, flag_boot, updBoot_boot], (is_flag_beside _ _ _ _ _ (by decide) (by decide)).trans busy,
      (is_flag_beside _ _ _ _ _ (by decide) (by decide)).trans done⟩

theorem State.otpOr_beside (s : State) (o v : Nat) : (s.otpOr o v).chip = s.chip ∧ (s.otpOr o v).mem.sram = s.mem.sram := ⟨rfl, rfl⟩

theorem State.showOtp_mem (s : State) : s.showOtp.mem = s.mem := rfl

theorem State.showOtp_pending (s : State) : s.showOtp.pending = s.pending := rfl

/-- BOOT.STAT and SEC.STAT show OTP. -/
theorem State.showOtp_kept (s : State) : Chip.Kept false [R.BOOT_STAT, R.SEC_STAT] [] s.chip s.showOtp.chip :=
  (Chip.Kept.refl.setF (by simp)).setF (by simp)

theorem exec_otpProgramDone {s : State} (clock : s.chip.clockOn = true) {k data old : Nat} (runs : s.chip.boot.otp = some (k, data, old))
    (blown : BitVec 32) : exec (.otpProgramDone blown) s = .next ((s.otpOr (4 * k) (data &&& blown.toNat)).onChip fun c =>
      c.otpEnd (decide ((s.otpOr (4 * k) (data &&& blown.toNat)).mem.otpN (4 * k) 4 ≠ old ||| data))).showOtp := by
  refine congrArg Host.Outcome.next ?_
  rw [mdOtpProgramDone, if_pos clock, State.otpDone, runs]
  rfl

/-! ### Debug access (R634) -/

theorem mdDebugAccessOpen_opens {s : State} (clock : s.chip.clockOn = true) {ok : Bool} {rights : BitVec 8}
    (secured : s.mem.lcOpen = false) (verified : ok = true) (right : nbit rights.toNat 1 = true) :
    mdDebugAccessOpen ok rights s = s.onChip fun c => (c.flag R.SEC_DBG F.SEC_DBG_OPEN true).incSat R.SEC_DBG F.SEC_DBG_GRANTS :=
  if_pos (by simp [clock, secured, verified, right])

theorem mdDebugAccessOpen_idle {s : State} {ok : Bool} {rights : BitVec 8}
    (barred : ok = false ∨ nbit rights.toNat 1 = false ∨ s.mem.lcOpen = true) : mdDebugAccessOpen ok rights s = s := by
  refine if_neg ?_
  rcases barred with unverified | without | unsecured
  · simp [unverified]
  · simp [without]
  · simp [unsecured]

/-- Settles O31: a command that starts or ends shows that in its STAT, and memory changes as the lemma on the store it makes says. -/
theorem flashAndSecurityCommands : Obligations.FlashAndSecurityCommands := by
  refine ⟨?_, ?_, ?_, ?_, ?_, ?_, ?_, ?_, ?_, ?_, ?_, ?_, ?_, ?_, ?_, ?_, ?_, ?_⟩
  · intro w op b addr wr s ⟨powered, clocked, barred⟩ twin may idle
    have starts := s.chip.flashCmd_starts addr wr ((Initiator.code_twin _).2 twin) may idle
    have begun := Chip.flashStart_starts (c := s.chip)
      ⟨op.toNat, b, addr, wr, s.chip.rdN R.BOOT_FL_ADDR, s.chip.f R.BOOT_FL_BUF F.BOOT_FL_BUF_LEN, 8 * s.chip.f R.BOOT_FL_BUF F.BOOT_FL_BUF_OFS8⟩
    rw [← starts, ← Chip.cmd_of s.chip R.BOOT_FL_CTL w (fun c => c.flashCmd op.toNat b addr wr w.ini.code) powered clocked barred] at begun
    exact ⟨_, rfl, ⟨s.quiet_onChip _, begun.1⟩, begun.2⟩
  · intro w op b addr wr s ⟨powered, clocked, barred⟩ refused
    have denied : doFlashCommand w theKey op b addr wr s.chip = _ := (Chip.cmd_of _ _ _ _ powered clocked barred).trans
      (Chip.flashCmd_denied addr wr (refused.imp_left fun other => mt (Initiator.code_twin _).1 (not_or.2 other)))
    exact ⟨_, rfl, s.quiet_onChip _, (congrArg Chip.boot denied).trans ((Chip.perr_boot ..).trans (Chip.flag_boot ..)), denied⟩
  · intro data prog f s powered clocked runs
    refine ⟨_, exec_flashCommandDone (Chip.clockOn_of powered clocked) runs data prog, ?_⟩
    have taken := s.flashTaken_taken f data prog
    generalize s.flashTaken f data prog = d at taken
    obtain ⟨chip, pending, dram, fram, otp, sram, flashA, flashB⟩ := taken
    obtain ⟨kept, boot, busy, done⟩ := s.chip.flashEnd_ends
    rw [State.onChip_chip, State.onChip_mem, State.onChip_pending, chip]
    exact ⟨pending, kept, boot, busy, done, dram, fram, otp, sram, flashA, flashB⟩
  · exact fun w b s may idle => ⟨_, rfl, s.secVia_starts may idle (by decide) _ rfl⟩
  · exact fun w s may idle made => ⟨_, rfl, s.secVia_starts may idle (by decide) _ made⟩
  · exact fun w arg s may idle => ⟨_, rfl, s.secVia_starts may idle (by decide) _ rfl⟩
  · exact fun w s may idle => ⟨_, rfl, s.secVia_starts may idle (by decide) _ rfl⟩
  · exact fun w s may idle trial same => ⟨_, rfl, s.secVia_starts may idle (by decide) _ (by simp [State.secAllowed, trial, same])⟩
  · exact fun w s may idle made unsealed => ⟨_, rfl, s.secVia_starts may idle (by decide) _ (by simp [State.secAllowed, made, unsealed])⟩
  · exact fun w slot s may idle ready => ⟨_, rfl, s.secVia_starts may idle (by decide) _ (by simp [State.secAllowed, ready])⟩
  · intro w slot s may idle unready
    have refused := s.secVia_refused may idle (op := 7) (by decide) slot.toNat (by simp [State.secAllowed, unready])
    exact ⟨_, congrArg Host.Outcome.next refused, s.quiet_onChip _, rfl⟩
  · intro readOk sigOk chainOk validOk op arg ptr s powered clocked runs
    obtain ⟨pending, dram, fram, flashA, flashB⟩ := State.SramOtpOnly.secRun s op arg ptr readOk sigOk chainOk validOk
    obtain ⟨sec, busy, done, fail⟩ := Chip.secEnd_ends (s.secRun op arg ptr readOk sigOk chainOk validOk).1.chip
      (s.secRun op arg ptr readOk sigOk chainOk validOk).2
    exact ⟨_, exec_secCommandDone (Chip.clockOn_of powered clocked) runs readOk sigOk chainOk validOk, pending, sec, busy, done, fail, dram,
      fram, flashA, flashB⟩
  · intro readOk sigOk chainOk validOk slot ptr s powered clocked runs four
    refine ⟨_, exec_secCommandDone (Chip.clockOn_of powered clocked) runs readOk sigOk chainOk validOk, rfl, rfl, ?_, fun a beside => ?_⟩
    · refine (s.otpOr_get _ _ _).trans ?_
      rw [if_pos (by decide), Nat.sub_self, pow_zero, Nat.div_one, Nat.mod_eq_of_lt four]
    · exact (s.otpOr_get _ _ _).trans (if_neg (by omega))
  · intro w k s may open'
    obtain ⟨kept, busy, boot⟩ := s.chip.otpStart_starts k.toNat (s.mem.otpN (4 * k.toNat) 4)
    exact ⟨_, congrArg Host.Outcome.next (mdOtpGo_starts may k open'), ⟨s.quiet_onChip _, kept⟩, busy, boot⟩
  · exact fun w k s may closed => ⟨_, congrArg Host.Outcome.next (mdOtpGo_denied may k closed), s.quiet_onChip _, rfl⟩
  · intro blown k data old s powered clocked runs
    refine ⟨_, exec_otpProgramDone (Chip.clockOn_of powered clocked) runs blown, ?_⟩
    have word := s.otpOr_get (4 * k) (data &&& blown.toNat)
    obtain ⟨pending, dram, fram, flashA, flashB⟩ := (State.SramOtpOnly.refl s).otpOr (4 * k) (data &&& blown.toNat)
    obtain ⟨chip, sram⟩ := s.otpOr_beside (4 * k) (data &&& blown.toNat)
    generalize s.otpOr (4 * k) (data &&& blown.toNat) = d at word pending dram fram flashA flashB chip sram
    generalize decide (d.mem.otpN (4 * k) 4 ≠ old ||| data) = bad
    obtain ⟨otp, busy, done⟩ := d.chip.otpEnd_ends bad
    have shown := (d.onChip fun c => c.otpEnd bad).showOtp_kept
    rw [State.onChip_chip] at shown
    rw [State.showOtp_mem, State.showOtp_pending, State.onChip_mem, State.onChip_pending, shown.is_eq (by simp) (by decide),
      shown.is_eq (by simp) (by decide)]
    refine ⟨pending, (congrArg BootSt.otp (shown.parts .boot (by simp) (by simp) (by simp))).trans otp, busy, done, fun i hi => ?_,
      fun a beside => ?_, sram, dram, fram, flashA, flashB⟩
    · rw [word, if_pos (by omega), Nat.add_sub_cancel_left]
    · rw [word, if_neg (by omega)]
  · intro ok rights s powered clocked secured verified right
    refine ⟨_, congrArg Host.Outcome.next (mdDebugAccessOpen_opens (Chip.clockOn_of powered clocked) secured verified right),
      ⟨s.quiet_onChip _, (Chip.Kept.refl.flag (by simp)).incSat (by simp)⟩, ?_⟩
    rw [State.onChip_chip, Chip.incSat, Chip.is_setF_beside _ _ _ _ _ (by decide) (by decide)]
    exact Chip.is_flag _ _ _ _ (by decide) (by decide)
  · exact fun ok rights s barred => ⟨_, congrArg Host.Outcome.next (mdDebugAccessOpen_idle barred), rfl⟩

end Sys2Proof.Machine

namespace Sys2Proof.Machine
open Sys2Proof

/-! ### The order of attempts (R619, R623, R625) -/

theorem Chip.bootOrder_congr {c d : Chip} (mode : d.f R.BOOT_STAT F.BOOT_STAT_MODE = c.f R.BOOT_STAT F.BOOT_STAT_MODE)
    (next : d.rd R.BOOT_NEXT = c.rd R.BOOT_NEXT) : d.bootOrder = c.bootOrder := by
  rw [bootOrder, bootOrder, mode, f_congr next, f_congr next, is_congr next]

/-- STRAP_BAD shows whether the mode is a reserved one. -/
def Chip.strapShown (c : Chip) : Chip := c.flag R.BOOT_STAT F.BOOT_STAT_STRAP_BAD (decide (2 ≤ c.f R.BOOT_STAT F.BOOT_STAT_MODE))

/-- The order of attempts is set under the mode shown. -/
def Chip.orderSet (c : Chip) : Chip :=
  c.strapShown.updBoot fun b =>
    { b with step := 4, wait := decide (c.strapShown.f R.BOOT_STAT F.BOOT_STAT_MODE = 1), order := c.strapShown.bootOrder }

section
variable (c : Chip)

theorem Chip.orderSet_kept : Chip.Kept false [R.BOOT_STAT] [.boot] c c.orderSet :=
  (Chip.Kept.refl.flag (List.mem_singleton_self _)).updBoot (List.mem_singleton_self _)

theorem Chip.strapShown_mode : c.strapShown.f R.BOOT_STAT F.BOOT_STAT_MODE = c.f R.BOOT_STAT F.BOOT_STAT_MODE :=
  f_setF_beside _ _ _ _ _ (by decide) (by decide)

theorem Chip.orderSet_mode : c.orderSet.f R.BOOT_STAT F.BOOT_STAT_MODE = c.f R.BOOT_STAT F.BOOT_STAT_MODE :=
  (f_congr (updBoot_rd ..) _).trans c.strapShown_mode

theorem Chip.orderSet_strapBad : c.orderSet.is R.BOOT_STAT F.BOOT_STAT_STRAP_BAD = decide (2 ≤ c.f R.BOOT_STAT F.BOOT_STAT_MODE) :=
  (is_congr (updBoot_rd ..) _).trans (is_flag _ _ _ _ (by decide) (by decide))

theorem Chip.orderSet_boot : c.orderSet.boot =
    { c.boot with step := 4, wait := decide (c.f R.BOOT_STAT F.BOOT_STAT_MODE = 1), order := c.bootOrder } := by
  have next : c.strapShown.rd R.BOOT_NEXT = c.rd R.BOOT_NEXT := rd_setF_ne _ _ _ _ _ (by decide)
  rw [orderSet, updBoot_boot, bootOrder_congr c.strapShown_mode next, c.strapShown_mode, strapShown, flag_boot]

/-- The levels sampled after a power-on reset show. -/
def Chip.strapsTaken (straps : BitVec 2) (hostSel : Bool) : Chip :=
  ((c.setF R.BOOT_STAT F.BOOT_STAT_MODE straps.toNat).flag R.HPT_STAT F.HPT_STAT_PORT hostSel).updBoot fun b =>
    { b with mode := straps.toNat, hostSel := hostSel }

theorem Chip.strapsTaken_mode (straps : BitVec 2) (hostSel : Bool) :
    (c.strapsTaken straps hostSel).f R.BOOT_STAT F.BOOT_STAT_MODE = straps.toNat :=
  (f_congr (updBoot_rd ..) _).trans ((f_setF_ne _ _ _ _ _ _ (by decide)).trans (f_setF_of_lt _ _ _ _ (by decide) straps.isLt))

end

section
variable {s : State} (straps : BitVec 2) (hostSel : Bool) (at3 : s.chip.bootAt 3 = true) (locked : s.chip.is R.CLK_STAT F.CLK_STAT_LOCK = true)
include at3 locked

theorem exec_bootSurvivalRestore_warm (warm : s.chip.boot.cold = false) : exec (.bootSurvivalRestore straps hostSel) s =
    .next ((s.showOtp.onChip fun c => c.wr R.LAP_RST_HEAD (c.rd R.LAP_HEAD)).onChip Chip.orderSet) := by
  refine congrArg Host.Outcome.next ?_
  rw [mdBootSurvivalRestore, if_neg (by simp [at3, locked]), warm]
  rfl

theorem exec_bootSurvivalRestore_cold (cold : s.chip.boot.cold = true) : exec (.bootSurvivalRestore straps hostSel) s =
    .next ((s.showOtp.coldRestore.onChip fun c => c.strapsTaken straps hostSel).onChip Chip.orderSet) := by
  refine congrArg Host.Outcome.next ?_
  rw [mdBootSurvivalRestore, if_neg (by simp [at3, locked]), cold]
  rfl

end

/-- OTP shows beside the mode. -/
theorem State.showOtp_mode (s : State) : s.showOtp.chip.f R.BOOT_STAT F.BOOT_STAT_MODE = s.chip.f R.BOOT_STAT F.BOOT_STAT_MODE :=
  (Chip.f_setF_ne _ _ _ _ _ _ (by decide)).trans (Chip.f_setF_beside _ _ _ _ _ (by decide) (by decide))

/-! ### What a false start leaves (R626, R627) -/

theorem Chip.chOut_kept (c : Chip) {n : Nat} (hn : n < 16) : Chip.Kept true gateKeys [.pwm, .meas] c (c.chOut n) := by
  obtain ⟨d, out, before⟩ := c.chOut_eq n
  rw [out]
  exact (before.mono (chKeys_subset_gateKeys hn) fun _ h => h).gdiOut hn (gdi_stat_mem_gateKeys hn) (by simp)

theorem Chip.gates_kept (c : Chip) : Chip.Kept true gateKeys [.pwm, .meas] c c.gates :=
  forN_inv_lt (Chip.Kept true gateKeys [.pwm, .meas] c) 16 _ c .refl fun _ hn d h => h.trans (d.chOut_kept hn)

/-- From `c` to `d` the state of the boot and the records of false starts stay, and the main domain keeps its power. -/
structure Chip.StartKept (c d : Chip) : Prop where
  boot : d.boot = c.boot
  records : ∀ k < 4, d.rd (R.BOOT_FS k) = c.rd (R.BOOT_FS k)
  powered : c.powered = true → d.powered = true

theorem evKey_boot_fs : ∀ k < 4, evKey (R.BOOT_FS k) = false := by decide

theorem boot_fs_notMem_gateKeys : ∀ k < 4, R.BOOT_FS k ∉ gateKeys := by decide

theorem boot_fs_notMem_cause : ∀ k < 4, R.BOOT_FS k ∉ R.SHD_STAT :: causeKeys := by decide

theorem pageBase_boot_fs : ∀ k < 4, pageBase (R.BOOT_FS k) = P.BOOT := by decide

theorem gdi_stat_ne_boot_fs : ∀ n < 16, ∀ k < 4, R.GDI_STAT n ≠ R.BOOT_FS k := by decide

namespace Chip.StartKept
variable {c d e : Chip}

theorem refl : c.StartKept c := ⟨rfl, fun _ _ => rfl, id⟩

theorem trans (h : c.StartKept d) (g : d.StartKept e) : c.StartKept e :=
  ⟨g.boot.trans h.boot, fun k hk => (g.records k hk).trans (h.records k hk), g.powered ∘ h.powered⟩

theorem keep (h : c.StartKept d) {ks : List Nat} {ps : List Part} (kept : Chip.Kept true ks ps d e) (hk : ∀ k < 4, R.BOOT_FS k ∉ ks)
    (boot : .boot ∉ ps) (mode : .mode ∉ ps) : c.StartKept e :=
  h.trans ⟨kept.parts .boot (by simp) (by simp) boot, fun k lt => kept.regs _ (fun _ => evKey_boot_fs k lt) (hk k lt),
    fun p => (kept.powered_eq mode).trans p⟩

/-- A change beside the registers, the boot and the device state. -/
theorem beside (h : c.StartKept d) (regs : e.regs = d.regs) (boot : e.boot = d.boot) (mode : e.mode = d.mode) : c.StartKept e :=
  h.trans ⟨boot, fun _ _ => by rw [Chip.rd, Chip.rd, regs], fun p => by rwa [Chip.powered, mode]⟩

theorem wr (h : c.StartKept d) {j : Nat} {v : Word} (hj : ∀ k < 4, j ≠ R.BOOT_FS k) : c.StartKept (d.wr j v) :=
  h.trans ⟨wr_boot .., fun k hk => rd_wr_ne _ _ _ _ (hj k hk), id⟩

theorem flag (h : c.StartKept d) {j : Nat} {x : Fld} {b : Bool} (hj : ∀ k < 4, j ≠ R.BOOT_FS k) : c.StartKept (d.flag j x b) := h.wr hj

theorem ite {p : Prop} [Decidable p] (h : c.StartKept d) (g : c.StartKept e) : c.StartKept (if p then d else e) := by split <;> assumption

theorem cause (h : c.StartKept d) {code : Nat} (hc : code < 256) (cls idx : Nat) : c.StartKept (d.cause code cls idx) := by
  have kept := d.cause_kept code cls idx
  refine h.trans ⟨kept.parts .boot (by simp) (by simp) (by simp [causeParts]),
    fun k hk => kept.regs _ (fun _ => evKey_boot_fs k hk) (boot_fs_notMem_cause k hk), fun p => ?_⟩
  rw [Chip.powered, (Chip.safe_cause p hc cls idx).1]

theorem gates (h : c.StartKept d) : c.StartKept d.gates :=
  h.keep d.gates_kept boot_fs_notMem_gateKeys (by simp) (by simp)

/-- Registers outside the page of the starting block return to reset. -/
theorem resetRegs (h : c.StartKept d) {keep : Nat → Bool} {fields : List (Nat × Nat)} (kept : ∀ k < 4, keep (R.BOOT_FS k) = true)
    (off : ∀ e ∈ fields, pageBase e.1 ≠ P.BOOT) : c.StartKept (d.resetRegs keep fields) := by
  have keys : c.StartKept (d.resetKeys fun k => !keep k) :=
    h.trans ⟨rfl, fun k hk => by rw [rd_resetKeys, if_neg (by simp [kept k hk])], id⟩
  exact List.foldlRecOn (motive := fun x => c.StartKept x) _ _ keys fun _ hx e he =>
    hx.wr fun k hk same => off e he (same ▸ pageBase_boot_fs k hk)

theorem updAcmp (h : c.StartKept d) (n : Nat) (g : AcmpCh → AcmpCh) : c.StartKept (d.updAcmp n g) := h.beside rfl rfl rfl

theorem acmpShow (h : c.StartKept d) (n : Nat) (blank : Bool) : c.StartKept (d.acmpShow n blank) := by
  have shown (g : AcmpCh → AcmpCh) (v : Word) : c.StartKept ((d.updAcmp n g).wr R.SHD_DEMAND_AG v) := (h.updAcmp n g).wr (by decide)
  exact ite ((shown _ _).cause (by decide) _ _) (shown _ _)

theorem acmpUntest (h : c.StartKept d) : c.StartKept d.acmpUntest := by
  have untested : c.StartKept (d.updMeas fun m => { m with tests := [] }) := h.beside rfl rfl rfl
  exact forN_inv c.StartKept 16 _ _ untested fun n _ hx => (hx.updAcmp n _).acmpShow n _

theorem resetCrc (h : c.StartKept d) (kept : Nat → Bool) : c.StartKept (d.resetCrc kept) := h.beside rfl rfl rfl

theorem resetBlocks (h : c.StartKept d) : c.StartKept d.resetBlocks := h.beside rfl rfl rfl

theorem resetTwins (h : c.StartKept d) : c.StartKept d.resetTwins := h.beside rfl rfl rfl

theorem demandsReset (h : c.StartKept d) : c.StartKept d.demandsReset := by
  have xmd : c.StartKept (d.wr R.SHD_DEMAND_XMD (wd 0)) := h.wr (by decide)
  exact xmd.wr (by decide)

theorem setLapSt (h : c.StartKept d) (x : LapSt) : c.StartKept { d with lap := x } := h.beside rfl rfl rfl

theorem gdiPol (h : c.StartKept d) {n : Nat} (hn : n < 16) {o : Word} : c.StartKept (d.gdiPol n o) := by
  have turn {e : Chip} (he : c.StartKept e) (p x : Fld) : c.StartKept
      (if fget o p = e.f (R.GDI_CFG n) p then e else e.flag (R.GDI_STAT n) x (!e.is (R.GDI_STAT n) x)) :=
    ite he (he.wr (gdi_stat_ne_boot_fs n hn))
  have shown (e : Chip) (he : c.StartKept e) (g : GdiCh → GdiCh) : c.StartKept (e.updGdi n g) := he.beside rfl rfl rfl
  exact shown _ (turn (turn h _ _) _ _) _

end Chip.StartKept

/-- What follows the starting block's reset of the main domain: no load, no command of an engine and no answer waits. -/
def BootSt.cleared (b : BootSt) : BootSt :=
  { b with live := none, ready := none, backs := [], before := [none, none], sec := none, otp := none, posted := [], copy := none }

/-- The main domain's pages and blocks after a false start. -/
def Chip.falseBlocks (c : Chip) : Chip :=
  let keep := fun k => devKey k || decide (pageBase k = P.SYS) || decide (pageBase k = P.BOOT)
  ((c.resetRegs keep (devFields.filter fun e => pageBase e.1 ≠ P.SYS ∧ pageBase e.1 ≠ P.BOOT)).resetCrc
    fun b => keep b || partKept b).resetBlocks.resetTwins.demandsReset.acmpUntest

theorem Chip.falseBlocks_kept (c : Chip) : c.StartKept c.falseBlocks := by
  refine (StartKept.resetCrc (.resetRegs .refl (fun k hk => ?_) fun e he => ?_) _).resetBlocks.resetTwins.demandsReset.acmpUntest
  · simp [pageBase_boot_fs k hk]
  · exact (of_decide_eq_true (List.mem_filter.1 he).2).2

/-- Its gates, its Lap log and its live load after that. -/
def Chip.falseShown (c : Chip) : Chip :=
  let d : Chip := { (forN 16 (fun n d => d.gdiPol n (nth c.gdiCfgs n 0)) c.falseBlocks).gates with lap := {} }
  (if decide (c.lapState = Ls.frozen) then d.setLap Ls.frozen else d).flag R.BOOT_LIVE F.BOOT_LIVE_BUSY false

theorem Chip.falseShown_kept (c : Chip) : c.StartKept c.falseShown := by
  have pins := forN_inv_lt c.StartKept 16 (fun n d => d.gdiPol n (nth c.gdiCfgs n 0)) _ c.falseBlocks_kept fun _ hn _ h => h.gdiPol hn
  have gated := pins.gates.setLapSt {}
  exact (StartKept.ite (gated.wr (by decide)) gated).flag (by decide)

/-- The Sheepdog and the starting block forget what the twins and the engines were about. -/
def Chip.startCleared (c : Chip) : Chip := { c with shd := { c.shd with twinsUp := false }, boot := c.boot.cleared }

theorem Chip.falseReset_eq (c : Chip) : c.falseReset = c.falseShown.startCleared := by
  unfold falseReset falseShown falseBlocks
  rfl

section
variable (c : Chip)

theorem Chip.startCleared_boot : c.startCleared.boot = c.boot.cleared := rfl

theorem Chip.startCleared_rd (k : Nat) : c.startCleared.rd k = c.rd k := rfl

theorem Chip.startCleared_powered : c.startCleared.powered = c.powered := rfl

theorem Chip.falseReset_boot : c.falseReset.boot = c.boot.cleared := by
  rw [falseReset_eq, startCleared_boot, c.falseShown_kept.boot]

theorem Chip.falseReset_records {k : Nat} (hk : k < 4) : c.falseReset.rd (R.BOOT_FS k) = c.rd (R.BOOT_FS k) := by
  rw [falseReset_eq, startCleared_rd, c.falseShown_kept.records k hk]

theorem Chip.falseReset_powered (powered : c.powered = true) : c.falseReset.powered = true := by
  rw [falseReset_eq, startCleared_powered]
  exact c.falseShown_kept.powered powered

end

/-! #### A false start as a whole -/

section
variable (c : Chip) (img cause : Nat)

/-- The records of false starts move on by one. -/
def Chip.recordsMoved (c : Chip) : Chip :=
  ((c.wr (R.BOOT_FS 3) (c.rd (R.BOOT_FS 2))).wr (R.BOOT_FS 2) (c.rd (R.BOOT_FS 1))).wr (R.BOOT_FS 1) (c.rd (R.BOOT_FS 0))

/-- The newest record is that of image `img` with its cause. -/
def Chip.recordShown (c : Chip) (img cause : Nat) : Chip :=
  ((c.recordsMoved.wrN (R.BOOT_FS 0) 0).setF (R.BOOT_FS 0) F.BOOT_FS_IMAGE img).setF (R.BOOT_FS 0) F.BOOT_FS_CAUSE cause

theorem Chip.recordFalseStart_kept :
    Chip.Kept false [R.BOOT_NEXT, R.BOOT_STAT] [] (c.recordShown img cause) (c.recordFalseStart img cause) :=
  (Chip.Kept.refl.incSat (by simp)).incSat (by simp)

theorem Chip.recordFalseStart_boot : (c.recordFalseStart img cause).boot = c.boot := by
  refine Eq.trans ((c.recordFalseStart_kept img cause).parts .boot (by simp) (by simp) (by simp)) ?_
  rw [recordShown, setF_boot, setF_boot, wrN_boot, recordsMoved, wr_boot, wr_boot, wr_boot]

theorem Chip.recordFalseStart_mode : (c.recordFalseStart img cause).mode = c.mode := by
  rw [(c.recordFalseStart_kept img cause).mode_eq (by simp), recordShown, setF_mode, setF_mode, wrN_mode, recordsMoved, wr_mode, wr_mode,
    wr_mode]

theorem Chip.recordFalseStart_image : (c.recordFalseStart img cause).f (R.BOOT_FS 0) F.BOOT_FS_IMAGE = img % 4 := by
  rw [(c.recordFalseStart_kept img cause).f_eq (by simp) (by decide), recordShown, f_setF_beside _ _ _ _ _ (by decide) (by decide)]
  exact f_setF _ _ _ _ (by decide)

theorem Chip.recordFalseStart_cause : (c.recordFalseStart img cause).f (R.BOOT_FS 0) F.BOOT_FS_CAUSE = cause % 16 := by
  rw [(c.recordFalseStart_kept img cause).f_eq (by simp) (by decide)]
  exact f_setF _ _ _ _ (by decide)

theorem Chip.recordFalseStart_second : (c.recordFalseStart img cause).rd (R.BOOT_FS 1) = c.rd (R.BOOT_FS 0) := by
  rw [(c.recordFalseStart_kept img cause).regs _ (by simp) (by decide), recordShown, rd_setF_ne _ _ _ _ _ (by decide),
    rd_setF_ne _ _ _ _ _ (by decide), wrN, rd_wr_ne _ _ _ _ (by decide), recordsMoved, rd_wr_same]

/-- What a false start leaves. -/
structure Chip.FalseStart (c : Chip) (img cause : Nat) (d : Chip) : Prop where
  order : d.boot.order = c.boot.order.drop 1
  step : d.boot.step = if c.boot.order.drop 1 = [] then 0 else 4
  image : d.f (R.BOOT_FS 0) F.BOOT_FS_IMAGE = img % 4
  code : d.f (R.BOOT_FS 0) F.BOOT_FS_CAUSE = cause % 16
  second : d.rd (R.BOOT_FS 1) = c.rd (R.BOOT_FS 0)
  safe : c.powered = true → c.boot.order.drop 1 = [] → d.is R.SHD_STAT F.SHD_STAT_LATCH = true ∧ d.mode = .safe

/-- BOOT.STAT speaks of the next attempt. -/
def Chip.attemptCleared (c : Chip) : Chip :=
  ((c.flag R.BOOT_STAT F.BOOT_STAT_PWM_READY false).flag R.BOOT_STAT (aliveFld false) false).flag R.BOOT_STAT (aliveFld true) false

theorem Chip.attemptCleared_kept : Chip.Kept false [R.BOOT_STAT] [] c c.attemptCleared :=
  ((Chip.Kept.refl.flag (by simp)).flag (by simp)).flag (by simp)

/-- The next image of the order is tried, or with none left the safe state latched. -/
def Chip.nextTried (c : Chip) : Chip :=
  let rest := c.boot.order.drop 1
  let d : Chip := c.updBoot fun b => { b with order := rest, step := if rest = [] then 0 else 4 }
  if rest = [] then d.cause 0x10 9 0 else d

theorem Chip.falseStart_eq : c.falseStart img cause = (c.recordFalseStart img cause).falseReset.attemptCleared.nextTried := rfl

theorem Chip.nextTried_boot : c.nextTried.boot.order = c.boot.order.drop 1
    ∧ c.nextTried.boot.step = if c.boot.order.drop 1 = [] then 0 else 4 := by
  unfold nextTried
  extract_lets rest d
  have boot : (if rest = [] then d.cause 0x10 9 0 else d).boot = d.boot := by
    split
    · exact (d.cause_kept 0x10 9 0).parts .boot (by simp) (by simp) (by simp [causeParts])
    · rfl
  rw [boot]
  exact ⟨rfl, rfl⟩

theorem Chip.nextTried_records {k : Nat} (hk : k < 4) : c.nextTried.rd (R.BOOT_FS k) = c.rd (R.BOOT_FS k) := by
  unfold nextTried
  extract_lets rest d
  split
  · exact (d.cause_kept 0x10 9 0).regs _ (fun _ => evKey_boot_fs k hk) (boot_fs_notMem_cause k hk)
  · rfl

theorem Chip.nextTried_safe (powered : c.powered = true) (last : c.boot.order.drop 1 = []) :
    c.nextTried.is R.SHD_STAT F.SHD_STAT_LATCH = true ∧ c.nextTried.mode = .safe := by
  unfold nextTried
  extract_lets rest d
  have alive : d.powered = true := powered
  rw [if_pos last]
  exact (safe_cause alive (by decide) 9 0).symm

theorem Chip.falseStart_falseStart : c.FalseStart img cause (c.falseStart img cause) := by
  have boot := (c.recordFalseStart img cause).falseReset_boot
  have powered := (c.recordFalseStart img cause).falseReset_powered
  have newest := (c.recordFalseStart img cause).falseReset_records (k := 0) (by decide)
  have second := ((c.recordFalseStart img cause).falseReset_records (by decide)).trans (c.recordFalseStart_second img cause)
  have image := (f_congr newest _).trans (c.recordFalseStart_image img cause)
  have code := (f_congr newest _).trans (c.recordFalseStart_cause img cause)
  rw [recordFalseStart_boot] at boot
  rw [Chip.powered, recordFalseStart_mode, ← Chip.powered] at powered
  rw [falseStart_eq]
  generalize (c.recordFalseStart img cause).falseReset = d at boot image code second powered
  have cleared := d.attemptCleared_kept
  have order : d.attemptCleared.boot.order = c.boot.order :=
    (congrArg BootSt.order (cleared.parts .boot (by simp) (by simp) (by simp))).trans (by rw [boot]; rfl)
  have first := (d.attemptCleared.nextTried_records (k := 0) (by decide)).trans (cleared.regs _ (by simp) (by decide))
  obtain ⟨rest, step⟩ := d.attemptCleared.nextTried_boot
  rw [order] at rest step
  refine ⟨rest, step, (f_congr first _).trans image, (f_congr first _).trans code, ?_, fun on last => ?_⟩
  · exact (nextTried_records _ (by decide)).trans ((cleared.regs _ (by simp) (by decide)).trans second)
  · exact nextTried_safe _ ((cleared.powered_eq (by simp)).trans (powered on)) (by rw [order, last])

end

/-! ### The image of an attempt (R623 step 4) -/

section
variable (s : State)

/-- What an image's check reads is the memories and where the host put its image. -/
theorem State.imgByte_congr {s t : State} (mem : t.mem = s.mem)
    (host : t.chip.f R.BOOT_HOST_IMG F.BOOT_HOST_IMG_OFS8 = s.chip.f R.BOOT_HOST_IMG F.BOOT_HOST_IMG_OFS8) (img : Nat) :
    t.imgByte img = s.imgByte img := by
  funext i
  unfold imgByte
  rw [mem, host]

theorem State.imgCheck_congr {s t : State} (mem : t.mem = s.mem)
    (host : t.chip.f R.BOOT_HOST_IMG F.BOOT_HOST_IMG_OFS8 = s.chip.f R.BOOT_HOST_IMG F.BOOT_HOST_IMG_OFS8) (img : Nat) (readOk sigOk : Bool) :
    t.imgCheck img readOk sigOk = s.imgCheck img readOk sigOk := by
  unfold imgCheck
  rw [imgByte_congr mem host, mem]

/-- The causes that the check of an image may find are those of R626 below 7. -/
theorem State.imgCheck_lt (img : Nat) (readOk sigOk : Bool) : (s.imgCheck img readOk sigOk).1 < 16 := by
  unfold imgCheck
  extract_lets g noRoot free root
  clear_value g noRoot free root
  split_ifs <;> simp

/-- BOOT.NEXT gives up its trial where image `img` is one of flash. -/
def State.trialTaken (s : State) (img : Nat) : State := if img < 2 then s.onChip fun c => c.flag R.BOOT_NEXT F.BOOT_NEXT_TRY_EN false else s

theorem State.trialTaken_kept (img : Nat) : Quiet s (s.trialTaken img) ∧ Chip.Kept false [R.BOOT_NEXT] [] s.chip (s.trialTaken img).chip := by
  unfold trialTaken
  split
  · exact ⟨s.quiet_onChip _, Chip.Kept.refl.flag (by simp)⟩
  · exact ⟨⟨rfl, rfl⟩, .refl⟩

/-- From `s` to `t` sections of an image were copied to SRAM, DRAM and the twins' own memories. -/
structure State.Copied (s t : State) : Prop where
  chip : Chip.Kept false [] [.red] s.chip t.chip
  fram : t.mem.fram = s.mem.fram
  otp : t.mem.otp = s.mem.otp

theorem State.copySects_copied (g : Nat → Byte) (p : Sect → Bool) : s.Copied (s.copySects g p) := by
  refine foldl_inv s.Copied _ _ s ⟨.refl, rfl, rfl⟩ fun t x h => ?_
  dsimp only
  split
  case h_1 => exact h
  case h_2 d a n _ =>
    obtain ⟨chip, fram, otp⟩ := h
    split
    · cases d with
      | true => exact ⟨chip, (Mem.dramPut_fram _ _ _).trans fram, (Mem.dramPut_otp _ _ _).trans otp⟩
      | false => exact ⟨chip, (Mem.sramPut_fram _ _ _).trans fram, (Mem.sramPut_otp _ _ _).trans otp⟩
    · exact ⟨chip.updTwin (by simp), fram, otp⟩

theorem Chip.showVer_kept (c : Chip) (img : Nat) (g : Nat → Byte) (ok : Bool) :
    Chip.Kept false [R.BOOT_VER 0, R.BOOT_VER 1] [] c (c.showVer img g ok) := by
  unfold showVer
  split
  · exact .refl
  case isFalse flash =>
    have shown : R.BOOT_VER img ∈ [R.BOOT_VER 0, R.BOOT_VER 1] := by
      obtain rfl | rfl : img = 0 ∨ img = 1 := by omega
      · exact List.mem_cons_self
      · exact List.mem_cons_of_mem _ List.mem_cons_self
    exact .ite (Chip.Kept.refl.wrN shown) (Chip.Kept.refl.wrN shown)

/-- The sections of image `img` are copied where its header and its layout serve. -/
def State.imageCopied (s : State) (img cause : Nat) : State :=
  if cause = 0 ∨ 4 ≤ cause then s.copySects (s.imgByte img) fun _ => true else s

theorem State.imageCopied_copied (img cause : Nat) : s.Copied (s.imageCopied img cause) := by
  unfold imageCopied
  split
  · exact s.copySects_copied _ _
  · exact ⟨.refl, rfl, rfl⟩

/-- Image `img` has been read, and BOOT.VER shows the outcome. -/
def State.imageLoaded (s : State) (img cause : Nat) : State :=
  ((s.trialTaken img).imageCopied img cause).onChip fun c => c.showVer img ((s.trialTaken img).imgByte img) (decide (cause = 0))

theorem State.imageLoaded_kept (img cause : Nat) :
    Chip.Kept false [R.BOOT_NEXT, R.BOOT_VER 0, R.BOOT_VER 1] [.red] s.chip (s.imageLoaded img cause).chip
      ∧ (s.imageLoaded img cause).mem.fram = s.mem.fram ∧ (s.imageLoaded img cause).mem.otp = s.mem.otp := by
  obtain ⟨⟨mem, -⟩, tried⟩ := s.trialTaken_kept img
  obtain ⟨chip, fram, otp⟩ := (s.trialTaken img).imageCopied_copied img cause
  unfold imageLoaded
  rw [onChip_chip, onChip_mem]
  refine ⟨?_, by rw [fram, mem], by rw [otp, mem]⟩
  have loaded : Chip.Kept false [R.BOOT_NEXT, R.BOOT_VER 0, R.BOOT_VER 1] [.red] s.chip ((s.trialTaken img).imageCopied img cause).chip :=
    (tried.mono (by simp) (by simp)).trans (chip.mono (by simp) (by simp))
  exact loaded.trans ((Chip.showVer_kept _ _ _ _).mono (by simp) (by simp))

/-- Whether image `img` runs on trial (R625). -/
def State.onTrial (s : State) (img : Nat) : Bool :=
  s.chip.is R.BOOT_NEXT F.BOOT_NEXT_TRY_EN && decide (img < 2) &&
    decide (s.chip.f R.BOOT_NEXT F.BOOT_NEXT_TRY ≠ s.chip.f R.BOOT_NEXT F.BOOT_NEXT_PREF)

theorem State.onChip_onChip (g h : Chip → Chip) : (s.onChip g).onChip h = s.onChip fun c => h (g c) := rfl

/-- The image in use from now on. -/
def Chip.imageUsed (c : Chip) (img : Nat) (tried plain : Bool) : Chip :=
  ((c.flag R.BOOT_STAT F.BOOT_STAT_TRIAL tried).flag R.BOOT_STAT F.BOOT_STAT_UNSIGNED plain).updBoot fun b => { b with step := 5, img := img }

end

section
variable {s : State} (at4 : s.chip.bootAt 4 = true) (going : s.chip.boot.wait = false) {img : Nat} {r : List Nat}
  (order : s.chip.boot.order = img :: r) (readOk sigOk : Bool)
include at4 going order

theorem exec_bootImageVerify : exec (.bootImageVerify readOk sigOk) s =
    .next ((s.imageLoaded img (s.imgCheck img readOk sigOk).1).onChip fun c =>
      if (s.imgCheck img readOk sigOk).1 ≠ 0 then c.falseStart img (s.imgCheck img readOk sigOk).1
      else c.imageUsed img (s.onTrial img) (s.imgCheck img readOk sigOk).2) := by
  obtain ⟨⟨mem, -⟩, kept⟩ := s.trialTaken_kept img
  refine congrArg Host.Outcome.next ?_
  rw [← State.imgCheck_congr mem (kept.f_eq (by simp) (by decide) _)]
  rw [mdBootImageVerify, if_neg (by simp [at4, going]), order, State.imageLoaded]
  dsimp only
  rw [← State.trialTaken]
  generalize s.trialTaken img = t
  generalize t.imgCheck img readOk sigOk = check
  obtain ⟨cause, plain⟩ := check
  dsimp only
  rw [← State.imageCopied]
  rw [State.onChip_onChip]
  rfl

end

theorem Chip.imageUsed_uses (c : Chip) (img : Nat) (tried plain : Bool) : (c.imageUsed img tried plain).boot = { c.boot with step := 5, img := img }
    ∧ (c.imageUsed img tried plain).is R.BOOT_STAT F.BOOT_STAT_UNSIGNED = plain ∧ (c.imageUsed img tried plain).mode = c.mode := by
  refine ⟨?_, (is_congr (updBoot_rd ..) _).trans (is_flag _ _ _ _ (by decide) (by decide)), ?_⟩
  · rw [imageUsed, updBoot_boot, flag_boot, flag_boot]
  · rw [imageUsed, updBoot_mode, flag_mode, flag_mode]

/-- A starting block that works has power. -/
theorem Chip.powered_of_bootAt {c : Chip} {n : Nat} (h : c.bootAt n = true) : c.powered = true := by
  have mode : (decide (c.mode = .boot) || decide (c.mode = .safe)) = true := by
    unfold bootAt at h
    simp only [Bool.and_eq_true] at h
    exact h.1.1.1
  rcases Bool.or_eq_true_iff.1 mode with booting | safe
  · rw [Chip.powered, of_decide_eq_true booting]
  · rw [Chip.powered, of_decide_eq_true safe]

theorem Chip.step_of_bootAt {c : Chip} {n : Nat} (h : c.bootAt n = true) : c.boot.step = n := by
  unfold bootAt at h
  simp only [Bool.and_eq_true] at h
  exact of_decide_eq_true h.2

/-! ### HOST mode (R628) -/

theorem Initiator.code_host (i : Initiator) : i.code = 3 ↔ i = .host := by cases i <;> decide

theorem doHostTimeout_of {c : Chip} (powered : c.powered = true) (clocked : c.time.gated = false) (at4 : c.bootAt 4 = true)
    (waits : c.boot.wait = true) : doHostTimeout c = (c.updBoot fun b => { b with wait := false }).falseStart 2 0x9 :=
  (Chip.via_of_clock _ _ powered clocked).trans (if_pos (by rw [at4, waits]; rfl))

/-! ### The end of BOOT (R624) -/

theorem Chip.enter_mode (c : Chip) (m : Mode) : (c.enter m).mode = m := by
  unfold enter
  split
  case isTrue same => exact same
  case isFalse =>
    extract_lets src d was e f
    have shown : Chip.Kept true [R.SYS_STATE, R.SYS_STATE_HT 0, R.SYS_STATE_HT 1] [] d f :=
      (((Chip.Kept.refl.setF (by simp)).wr64 (by simp) (by decide)).raise (by decide)).lapRec
    have mode : f.mode = m := shown.mode_eq (by simp)
    clear_value f
    split
    · rw [f.gates_kept.mode_eq (by simp), mode]
    · exact mode

/-- The breaker is released and a stop has ended. -/
def Chip.runCleared (c : Chip) : Chip := ({ c with safe := { c.safe with stopping := false } }).releaseBreaker

theorem Chip.runCleared_kept (c : Chip) : Chip.Kept true (R.SHD_STAT :: latchKeys) [.safe] c c.runCleared :=
  ((Chip.Kept.refl.setSafe (by simp)).flag (by simp)).soutUpdate (fun _ h => List.mem_cons_of_mem _ h) (by simp)

theorem Chip.enterReady_eq (c : Chip) : c.enterReady = (c.enter .ready).runCleared := rfl

theorem Chip.enterReady_mode (c : Chip) : c.enterReady.mode = .ready := by
  rw [enterReady_eq, (runCleared_kept _).mode_eq (by simp), enter_mode]

theorem Chip.enterReady_kept (c : Chip) : Chip.Kept true (R.SHD_STAT :: causeKeys) causeParts c c.enterReady := by
  have entered : Chip.Kept true (R.SHD_STAT :: causeKeys) causeParts c (c.enter .ready) :=
    Chip.Kept.refl.enter (fun _ h => List.mem_cons_of_mem _ h) fun _ h => h
  rw [enterReady_eq]
  refine entered.trans ((runCleared_kept _).mono (fun k hk => ?_) (by simp [causeParts]))
  rcases List.mem_cons.1 hk with rfl | latch
  · exact List.mem_cons_self
  · exact latchKeys_subset_cause latch

theorem boot_stat_notMem_cause : R.BOOT_STAT ∉ R.SHD_STAT :: causeKeys := by decide

/-- Without PWM_READY or with a twin not alive BOOT goes on. -/
theorem Chip.bootEnd_waits {c : Chip} (waits : c.is R.BOOT_STAT F.BOOT_STAT_PWM_READY = false ∨ c.is R.BOOT_STAT F.BOOT_STAT_ALIVE_A = false
    ∨ c.is R.BOOT_STAT F.BOOT_STAT_ALIVE_B = false) : c.bootEnd = c := by
  refine if_neg fun ⟨_, ready, aliveA, aliveB⟩ => ?_
  rcases waits with h | h | h
  · exact Bool.false_ne_true (h.symm.trans ready)
  · exact Bool.false_ne_true (h.symm.trans aliveA)
  · exact Bool.false_ne_true (h.symm.trans aliveB)

/-- With all three, and no cause latched, the device enters READY. -/
theorem Chip.bootEnd_ready {c : Chip} (step : c.boot.step = 7) (ready : c.is R.BOOT_STAT F.BOOT_STAT_PWM_READY = true)
    (aliveA : c.is R.BOOT_STAT F.BOOT_STAT_ALIVE_A = true) (aliveB : c.is R.BOOT_STAT F.BOOT_STAT_ALIVE_B = true) (booting : c.mode = .boot)
    (unlatched : c.is R.SHD_STAT F.SHD_STAT_LATCH = false) : c.bootEnd = (c.updBoot fun b => { b with step := 8 }).enterReady := by
  have still : (c.updBoot fun b => { b with step := 8 }).mode = .boot := booting
  have free : (c.updBoot fun b => { b with step := 8 }).is R.SHD_STAT F.SHD_STAT_LATCH = false := unlatched
  rw [bootEnd, if_pos ⟨step, ready, aliveA, aliveB⟩]
  generalize c.updBoot (fun b => { b with step := 8 }) = d at still free
  dsimp only
  rw [if_neg (by simp [still]), if_pos (by simp [free])]

section
variable (c : Chip) (x : BitVec 16)

/-- PWM_READY shows with its time. -/
def Chip.pwmShown (c : Chip) (x : BitVec 16) : Chip :=
  (c.flag R.BOOT_STAT F.BOOT_STAT_PWM_READY true).setF R.BOOT_TIMES F.BOOT_TIMES_PWMRDY x.toNat

theorem Chip.pwmShown_kept : Chip.Kept false [R.BOOT_STAT, R.BOOT_TIMES] [] c (c.pwmShown x) := (Chip.Kept.refl.flag (by simp)).setF (by simp)

theorem Chip.pwmShown_ready : (c.pwmShown x).is R.BOOT_STAT F.BOOT_STAT_PWM_READY = true := by
  rw [Chip.is, pwmShown, f_setF_ne _ _ _ _ _ _ (by decide), ← Chip.is]
  exact is_flag _ _ _ _ (by decide) (by decide)

theorem Chip.pwmShown_time : (c.pwmShown x).f R.BOOT_TIMES F.BOOT_TIMES_PWMRDY = x.toNat := f_setF_of_lt _ _ _ _ (by decide) x.isLt

/-- The twins' ALIVE lie beside PWM_READY. -/
theorem Chip.pwmShown_alive (t : Bool) : (c.pwmShown x).is R.BOOT_STAT (aliveFld t) = c.is R.BOOT_STAT (aliveFld t) := by
  rw [Chip.is, pwmShown, f_setF_ne _ _ _ _ _ _ (by decide), ← Chip.is]
  cases t with
  | false => exact is_flag_beside _ _ _ _ _ (by decide) (by decide)
  | true => exact is_flag_beside _ _ _ _ _ (by decide) (by decide)

end

theorem doPwmReady_of {c : Chip} (x : BitVec 16) (at7 : c.bootAt 7 = true) (before : c.is R.BOOT_STAT F.BOOT_STAT_PWM_READY = false)
    (calibrated : c.meas.cal.all (·.isEmpty) = true) (tested : c.meas.tests = [])
    (passed : ∀ n < 16, c.f (R.ACMP_CH_CFG n) F.ACMP_CH_CFG_MODE = 0 ∨ c.is (R.ACMP_CH_STAT n) F.ACMP_CH_STAT_ST_PASS = true) :
    doPwmReady x c = (c.pwmShown x).bootEnd := by
  have all : ((List.range 16).all fun n => decide (c.f (R.ACMP_CH_CFG n) F.ACMP_CH_CFG_MODE = 0)
      || c.is (R.ACMP_CH_STAT n) F.ACMP_CH_STAT_ST_PASS) = true :=
    List.all_eq_true.2 fun n hn => by simpa using passed n (List.mem_range.1 hn)
  refine if_pos ?_
  rw [at7, before, calibrated, tested, all]
  rfl

/-! ### ALIVE and CONFIRM (R624, R629) -/

theorem Initiator.code_of_twin (x : Bool) : (if x then Initiator.twinB else Initiator.twinA).code = 1 + b2n x := by cases x <;> decide

/-- The twin that writes ALIVE shows alive, and the image before a live restart is forgotten. -/
def Chip.aliveShown (c : Chip) (x : Bool) : Chip :=
  (c.flag R.BOOT_STAT (aliveFld x) true).updBoot fun b => { b with before := upd b.before (b2n x) fun _ => none }

theorem Chip.bootAlive_twin (c : Chip) (x : Bool) : c.bootAlive (1 + b2n x) = (c.aliveShown x).bootEnd := by
  have named : decide (1 + b2n x = 2) = x := by cases x <;> decide
  rw [bootAlive, if_pos (by cases x <;> decide), named]
  rfl

section
variable (c : Chip) (x : Bool)

theorem Chip.aliveShown_kept : Chip.Kept false [R.BOOT_STAT] [.boot] c (c.aliveShown x) := (Chip.Kept.refl.flag (by simp)).updBoot (by simp)

theorem Chip.aliveShown_boot : (c.aliveShown x).boot = { c.boot with before := upd c.boot.before (b2n x) fun _ => none } := by
  rw [aliveShown, updBoot_boot, flag_boot]

theorem Chip.aliveShown_alive : (c.aliveShown x).is R.BOOT_STAT (aliveFld x) = true :=
  (is_congr (updBoot_rd ..) _).trans (is_flag _ _ _ _ (by cases x <;> decide) (by cases x <;> decide))

theorem Chip.aliveShown_ready : (c.aliveShown x).is R.BOOT_STAT F.BOOT_STAT_PWM_READY = c.is R.BOOT_STAT F.BOOT_STAT_PWM_READY :=
  (is_congr (updBoot_rd ..) _).trans (is_flag_beside _ _ _ _ _ (by decide) (by cases x <;> decide))

end

/-- Image `a` is the preferred one, and no longer on trial. -/
def Chip.confirmed (c : Chip) (a : Nat) : Chip := (c.setF R.BOOT_NEXT F.BOOT_NEXT_PREF a).flag R.BOOT_STAT F.BOOT_STAT_TRIAL false

theorem Chip.confirmed_confirms (c : Chip) {a : Nat} (flash : a < 2) : Chip.Kept false [R.BOOT_NEXT, R.BOOT_STAT] [] c (c.confirmed a)
    ∧ (c.confirmed a).f R.BOOT_NEXT F.BOOT_NEXT_PREF = a ∧ (c.confirmed a).is R.BOOT_STAT F.BOOT_STAT_TRIAL = false := by
  refine ⟨(Chip.Kept.refl.setF (by simp)).flag (by simp), ?_, is_flag _ _ _ _ (by decide) (by decide)⟩
  exact (f_setF_ne _ _ _ _ _ _ (by decide)).trans (f_setF_of_lt _ _ _ _ (by decide) flash)

/-- Settles O29: each clause is what the lemmas above say of the command; that the queue stays is `exec_sound`. -/
theorem startCommands : Obligations.StartCommands := by
  refine ⟨?_, ?_, ?_, ?_, ?_, ?_, ?_, ?_, ?_, ?_, ?_, ?_, ?_, ?_⟩
  · intro straps hostSel s at3 locked warm
    have mode := s.showOtp_mode
    have shown : Chip.Kept false [R.BOOT_STAT, R.SEC_STAT] [] s.chip s.showOtp.chip := s.showOtp_kept
    refine ⟨_, exec_bootSurvivalRestore_warm straps hostSel at3 locked warm, ⟨?_, ?_⟩, ?_⟩
    · exact ⟨by rw [State.onChip_mem, State.onChip_mem, s.showOtp_mem], by rw [State.onChip_pending, State.onChip_pending, s.showOtp_pending]⟩
    all_goals rw [State.onChip_chip, State.onChip_chip]
    · exact ((shown.mono (by simp) (by simp)).wr (by simp)).trans ((Chip.orderSet_kept _).mono (by simp) (by simp))
    · generalize s.showOtp.chip = c at mode shown
      have head : c.rd R.LAP_HEAD = s.chip.rd R.LAP_HEAD := shown.regs _ (by simp) (by decide)
      have next : c.rd R.BOOT_NEXT = s.chip.rd R.BOOT_NEXT := shown.regs _ (by simp) (by decide)
      generalize marked : c.wr R.LAP_RST_HEAD (c.rd R.LAP_HEAD) = d
      have mode : d.f R.BOOT_STAT F.BOOT_STAT_MODE = s.chip.f R.BOOT_STAT F.BOOT_STAT_MODE :=
        (Chip.f_congr (by rw [← marked, Chip.rd_wr_ne _ _ _ _ (by decide)]) _).trans mode
      have next : d.rd R.BOOT_NEXT = s.chip.rd R.BOOT_NEXT := by rw [← marked, Chip.rd_wr_ne _ _ _ _ (by decide), next]
      have head : d.rd R.LAP_RST_HEAD = s.chip.rd R.LAP_HEAD := by rw [← marked, Chip.rd_wr_same, head]
      rw [d.orderSet_boot, Chip.bootOrder_congr mode next, mode, d.orderSet_kept.regs _ (by simp) (by decide)]
      exact ⟨rfl, rfl, rfl, head⟩
  · intro straps hostSel s at3 locked cold
    have one : decide (straps.toNat = 1) = decide (straps = 1) := by simp [BitVec.toNat_eq]
    obtain ⟨t, ht, sound⟩ := exec_sound (.bootSurvivalRestore straps hostSel) s
    obtain rfl := Host.Outcome.next.inj ((exec_bootSurvivalRestore_cold straps hostSel at3 locked cold).symm.trans ht)
    refine ⟨_, ht, sound.pending, ?_⟩
    rw [State.onChip_chip, State.onChip_chip]
    generalize s.showOtp.coldRestore.chip = c
    have boot : (c.strapsTaken straps hostSel).boot = { c.boot with mode := straps.toNat, hostSel := hostSel } := by
      rw [Chip.strapsTaken, Chip.updBoot_boot, Chip.flag_boot, Chip.setF_boot]
    rw [Chip.orderSet_boot, Chip.orderSet_mode, Chip.orderSet_strapBad, c.strapsTaken_mode, boot]
    exact ⟨rfl, rfl, rfl, rfl, rfl, one⟩
  · intro readOk sigOk img r s at4 going order passes
    obtain ⟨kept, fram, otp⟩ := s.imageLoaded_kept img (s.imgCheck img readOk sigOk).1
    obtain ⟨t, ht, sound⟩ := exec_sound (.bootImageVerify readOk sigOk) s
    obtain rfl := Host.Outcome.next.inj ((exec_bootImageVerify at4 going order readOk sigOk).symm.trans ht)
    refine ⟨_, ht, sound.pending, ?_⟩
    rw [State.onChip_chip, State.onChip_mem, if_neg (by simp [passes])]
    obtain ⟨boot, unsigned, mode⟩ := (s.imageLoaded img (s.imgCheck img readOk sigOk).1).chip.imageUsed_uses img (s.onTrial img)
      (s.imgCheck img readOk sigOk).2
    rw [boot, unsigned, mode]
    exact ⟨rfl, rfl, rfl, kept.mode_eq (by simp), fram, otp⟩
  · intro readOk sigOk img x r s at4 going order flash fails
    obtain ⟨kept, -⟩ := s.imageLoaded_kept img (s.imgCheck img readOk sigOk).1
    obtain ⟨t, ht, sound⟩ := exec_sound (.bootImageVerify readOk sigOk) s
    obtain rfl := Host.Outcome.next.inj ((exec_bootImageVerify at4 going order readOk sigOk).symm.trans ht)
    refine ⟨_, ht, sound.pending, ?_⟩
    have small := s.imgCheck_lt img readOk sigOk
    rw [State.onChip_chip, if_pos fails]
    generalize (s.imgCheck img readOk sigOk).1 = cause at kept small
    have waiting : (s.imageLoaded img cause).chip.boot.order = img :: x :: r :=
      (congrArg BootSt.order (kept.parts .boot (by simp) (by simp) (by simp))).trans order
    have newest : (s.imageLoaded img cause).chip.rd (R.BOOT_FS 0) = s.chip.rd (R.BOOT_FS 0) := kept.regs _ (by simp) (by decide)
    generalize (s.imageLoaded img cause).chip = c at waiting newest
    obtain ⟨rest, step, image, code, second, -⟩ := c.falseStart_falseStart img cause
    rw [waiting] at rest step
    exact ⟨step, rest, image.trans (Nat.mod_eq_of_lt (by omega)), code.trans (Nat.mod_eq_of_lt small), second.trans newest⟩
  · intro readOk sigOk img s at4 going order fails
    obtain ⟨kept, -⟩ := s.imageLoaded_kept img (s.imgCheck img readOk sigOk).1
    obtain ⟨t, ht, sound⟩ := exec_sound (.bootImageVerify readOk sigOk) s
    obtain rfl := Host.Outcome.next.inj ((exec_bootImageVerify at4 going order readOk sigOk).symm.trans ht)
    refine ⟨_, ht, sound.pending, ?_⟩
    rw [State.onChip_chip, if_pos fails]
    generalize (s.imgCheck img readOk sigOk).1 = cause at kept
    have waiting : (s.imageLoaded img cause).chip.boot.order = [img] :=
      (congrArg BootSt.order (kept.parts .boot (by simp) (by simp) (by simp))).trans order
    have powered : (s.imageLoaded img cause).chip.powered = true := (kept.powered_eq (by simp)).trans (Chip.powered_of_bootAt at4)
    generalize (s.imageLoaded img cause).chip = c at waiting powered
    obtain ⟨rest, -, -, -, -, safe⟩ := c.falseStart_falseStart img cause
    rw [waiting] at rest safe
    exact ⟨rest, safe powered rfl⟩
  · intro w s ⟨powered, clocked, barred⟩ host at4 waits
    have goes : doHostGo w theKey s.chip = s.chip.updBoot fun b => { b with wait := false } :=
      (Chip.cmd_of _ _ _ _ powered clocked barred).trans
        (if_pos (by rw [at4, waits, (Initiator.code_host _).2 host]; rfl))
    refine ⟨_, rfl, ⟨s.quiet_onChip _, ?_⟩, ?_⟩ <;> rw [State.onChip_chip, goes]
    · exact Chip.Kept.refl.updBoot (by simp)
    · exact Chip.updBoot_boot ..
  · intro w s ⟨powered, clocked, barred⟩ untimely
    have named : decide (w.ini.code = 3) = decide (w.ini = .host) := decide_eq_decide.2 (Initiator.code_host _)
    have refused : doHostGo w theKey s.chip = s.chip.perr R.BOOT_CMD .state w.ini.code :=
      (Chip.cmd_of _ _ _ _ powered clocked barred).trans (if_neg (by rw [named, untimely]; exact Bool.false_ne_true))
    exact ⟨_, rfl, s.quiet_onChip _, refused⟩
  · intro s powered clocked at4 waits order
    refine ⟨_, rfl, s.quiet_onChip _, ?_⟩
    rw [State.onChip_chip, doHostTimeout_of powered clocked at4 waits]
    have waiting : (s.chip.updBoot fun b => { b with wait := false }).boot.order = [2] := (congrArg BootSt.order (Chip.updBoot_boot ..)).trans order
    have alive : (s.chip.updBoot fun b => { b with wait := false }).powered = true := powered
    generalize s.chip.updBoot (fun b => { b with wait := false }) = c at waiting alive
    obtain ⟨-, -, -, code, -, safe⟩ := c.falseStart_falseStart 2 9
    exact ⟨code, safe alive (by rw [waiting]; rfl)⟩
  · intro x s powered at7 before calibrated tested passed silent
    have silent : (s.chip.pwmShown x).is R.BOOT_STAT F.BOOT_STAT_ALIVE_A = false ∨ (s.chip.pwmShown x).is R.BOOT_STAT F.BOOT_STAT_ALIVE_B = false :=
      silent.imp ((s.chip.pwmShown_alive x false).trans ·) ((s.chip.pwmShown_alive x true).trans ·)
    have shown := (doPwmReady_of x at7 before calibrated tested passed).trans (Chip.bootEnd_waits (.inr silent))
    refine ⟨_, rfl, ⟨s.quiet_onChip _, ?_⟩, ?_⟩ <;> rw [State.onChip_chip, shown]
    · exact s.chip.pwmShown_kept x
    · exact ⟨s.chip.pwmShown_ready x, s.chip.pwmShown_time x⟩
  · intro x s powered at7 before calibrated tested passed aliveA aliveB booting unlatched
    have kept := s.chip.pwmShown_kept x
    have step : (s.chip.pwmShown x).boot.step = 7 :=
      (congrArg BootSt.step (kept.parts .boot (by simp) (by simp) (by simp))).trans (Chip.step_of_bootAt at7)
    have ready := s.chip.pwmShown_ready x
    have ends := (doPwmReady_of x at7 before calibrated tested passed).trans
      (Chip.bootEnd_ready step ready ((s.chip.pwmShown_alive x false).trans aliveA) ((s.chip.pwmShown_alive x true).trans aliveB)
        ((kept.mode_eq (by simp)).trans booting) ((kept.is_eq (by simp) (by decide) _).trans unlatched))
    refine ⟨_, rfl, s.quiet_onChip _, ?_⟩
    rw [State.onChip_chip, ends]
    generalize s.chip.pwmShown x = c at ready
    have entered := (c.updBoot fun b => { b with step := 8 }).enterReady_kept
    have boot : _ = (c.updBoot fun b => { b with step := 8 }).boot := entered.parts .boot (by simp) (by simp) (by simp [causeParts])
    rw [boot, entered.is_eq (fun _ => by decide) boot_stat_notMem_cause, Chip.updBoot_boot, Chip.is_congr (Chip.updBoot_rd ..)]
    exact ⟨Chip.enterReady_mode _, rfl, ready⟩
  · intro w x s ⟨powered, clocked, barred⟩ twin before
    have alive : doBootAlive w theKey s.chip = s.chip.aliveShown x := by
      rw [doBootAlive, Chip.cmd_of _ _ _ _ powered clocked barred, twin, Initiator.code_of_twin, Chip.bootAlive_twin]
      exact Chip.bootEnd_waits (.inl ((s.chip.aliveShown_ready x).trans before))
    refine ⟨_, rfl, ⟨s.quiet_onChip _, ?_⟩, ?_⟩ <;> rw [State.onChip_chip, alive]
    · exact s.chip.aliveShown_kept x
    · exact ⟨s.chip.aliveShown_alive x, s.chip.aliveShown_boot x⟩
  · intro w s ⟨powered, clocked, barred⟩ notA notB
    have refused : doBootAlive w theKey s.chip = s.chip.perr R.BOOT_CMD .state w.ini.code :=
      (Chip.cmd_of _ _ _ _ powered clocked barred).trans (if_neg (mt (Initiator.code_twin _).1 (not_or.2 ⟨notA, notB⟩)))
    exact ⟨_, rfl, s.quiet_onChip _, refused⟩
  · intro w s ⟨powered, clocked, barred⟩ twin same flash
    have confirmed : doBootConfirm w theKey s.chip = s.chip.confirmed (s.chip.f R.BOOT_STAT F.BOOT_STAT_CODE_A) :=
      (Chip.cmd_of _ _ _ _ powered clocked barred).trans (if_pos ⟨(Initiator.code_twin _).2 twin, same, flash⟩)
    obtain ⟨kept, shown⟩ := s.chip.confirmed_confirms flash
    refine ⟨_, rfl, ⟨s.quiet_onChip _, ?_⟩, ?_⟩ <;> rw [State.onChip_chip, confirmed]
    · exact kept
    · exact shown
  · intro w s ⟨powered, clocked, barred⟩ twin other
    have refused : doBootConfirm w theKey s.chip = s.chip.perr R.BOOT_CMD .state w.ini.code :=
      (Chip.cmd_of _ _ _ _ powered clocked barred).trans (if_neg fun ⟨_, same, _⟩ => other same)
    exact ⟨_, rfl, s.quiet_onChip _, refused⟩

end Sys2Proof.Machine
